-- ==== Sys2Proof/Word.lean ====
section
/-! DEFINITION. The word types of the block and the plainest arithmetic on them. -/

namespace Sys2Proof

/-- One byte of a format or a memory. -/
abbrev Byte := BitVec 8
/-- One register word (every register is 32 bits wide, 00_scope Conventions). -/
abbrev Word := BitVec 32

/-- A table keyed by numbers: the form of every sparse store of the machine. Its canonical form
(keys strictly rising, no entry equal to the default) is `Machine.Tbl.wf`. -/
abbrev Tbl (α : Type) := List (Nat × α)

/-- The bit of `n` at place `i`. -/
def bitOf (n i : Nat) : Bool := n / 2 ^ i % 2 == 1

/-- Bits `lo` to `lo + w - 1` of `n` (R6). -/
def bitsOf (n lo w : Nat) : Nat := n / 2 ^ lo % 2 ^ w

end Sys2Proof
end

