-- ==== Sys2Proof/Syntax.lean ====
section
/-! DEFINITION. The commands of the block: one constructor of `Instr` per row of spec/opcode_table.json,
and the types of their operands. A frame, a link unit and a lane message are their raw bytes, so that
their checks (CRCs, magics, lengths) are computed by the machine. An operand `t` of a row about a range
names the range by its first counter (R163: range k begins at k S), `ch` is the channel index. -/

namespace Sys2Proof

abbrev Lane := Fin 24
abbrev BundleId := Fin 5
abbrev SessionId := Fin 256
abbrev FlowId := Fin 40960
abbrev EngineId := Fin 96
abbrev StackId := Fin 6
abbrev QpId := Fin 16
abbrev PortId := Fin 2
abbrev PartId := Fin 3
abbrev DmaChan := Fin 16
abbrev Reg4 := Fin 16

/-- A reference of R377. -/
inductive RefId where
  | a | b | ptp
  deriving DecidableEq, Repr

/-- One 1 s measurement of a lane: FEC counts and the bit error ratio before FEC (R91, R110). -/
structure BerMeas where
  codewords : Nat
  corrected : Nat
  symbols : Nat
  errBits : Nat
  bits : Nat
  deriving DecidableEq, Repr

/-- One 1 ms measurement of an engine (R212): array cycles completed, busy time and temperature. -/
structure EngMeas where
  engine : EngineId
  cycles : Nat
  busyNs : Nat
  tj : Int
  deriving DecidableEq, Repr

/-- What the once-a-second measurement finds for one reference (R378), offsets in 10^-12; `present`: its 10 MHz input
carries signal. -/
structure RefSample where
  present : Bool
  offOcxo : Int
  offSel : Int
  deriving DecidableEq, Repr

/-- The once-a-second measurement of all references (R378) and the lock of the clean-up loop. -/
structure RefMeas where
  a : RefSample
  b : RefSample
  ptp : RefSample
  loopLocked : Bool
  deriving DecidableEq, Repr

/-- PTP message kinds the block tells apart (R393, R395). -/
inductive PtpKind where
  | sync | followUp | delayReq | delayResp | announce | peerDelay | other
  deriving DecidableEq, Repr

/-- A PTP message received on an egress port (R393 to R395). `corr` is the correction in 2^-16 ns,
`rank` the announced data set in the order of the default best master clock algorithm (lower is
better), `overUdp` whether it came over UDP, `clock` the clockIdentity of the port that sent a Delay_Req or that a Delay_Resp
answers, `bytes` the length of its frame, `v6` and `sum` the transport and the checksum of its UDP (R395). -/
structure PtpMsg where
  kind : PtpKind
  overUdp : Bool
  domain : Byte
  major : BitVec 4
  minor : Byte
  twoStep : Bool
  seq : BitVec 16
  corr : Int
  sec : Nat
  ns : Nat
  gmid : BitVec 64
  rank : Nat
  clock : BitVec 64
  logInterval : Int
  bytes : BitVec 14
  v6 : Bool
  sum : BitVec 16
  deriving DecidableEq, Repr

/-- The two move fields of an instruction (R308, R310). -/
structure Moves where
  x : BitVec 16
  y : BitVec 16
  deriving DecidableEq, Repr

/-- TRAP with its moves or, `undefined`, an instruction of a reserved class or with an undefined OP, for which the table has
no row (R309, R324). -/
structure TrapInstr where
  undefined : Bool
  moves : Moves
  deriving DecidableEq, Repr

/-- The flag a BRC names (R309). -/
inductive CoreFlag where
  | z | n | c | o
  deriving DecidableEq, Repr

/-- The registers MOVS reaches (R309). -/
inductive SpecialReg where
  | status | epc | estatus
  | lstart (i : Fin 4) | lend (i : Fin 4) | lcount (i : Fin 4) | lstat
  deriving DecidableEq, Repr

/-- The lanes FCVT converts (R317). -/
inductive FcvtSrc where
  | acc (i : Fin 4) | vec (i : Reg4)
  deriving DecidableEq, Repr

/-- The fields of an address register (R305, R309). -/
inductive AddrField where
  | offset | base | length | step
  deriving DecidableEq, Repr

/-- The count of a LOOP: an immediate or a D register (R318). -/
inductive LoopCount where
  | imm (n : Word) | reg (d : Reg4)
  deriving DecidableEq, Repr

/-- Dealer interrupt causes 1 to 5 (R321). -/
inductive IrqCause where
  | allot | commit | exportBatch | stop | retire
  deriving DecidableEq, Repr

/-- A transport source (R344): a queue pair, a management address and port, or the UART. -/
inductive Src where
  | qp (q : QpId)
  | mgmt (addr : Word) (port : BitVec 16)
  | uart
  deriving DecidableEq, Repr

/-- The header of a received command (R339, R345): its source, TAG, VERSION, INDIRECT flag, LENGTH
and, when given, the reply buffer; of an indirect command, the host address of its parameters (the
operands of the command are what host memory holds there). -/
structure Hdr where
  src : Src
  tag : Word
  version : Byte
  indirect : Bool
  length : Word
  replyBuf : Option (BitVec 64 × Word)
  paramAddr : BitVec 64 := 0
  deriving DecidableEq, Repr

/-- A received packet that is none of the commands of R354: one to be discarded (R340, R349), or a command
whose opcode is not defined, with its parameter bytes (R9, R340). -/
inductive StrayPacket where
  | discarded (src : Src)
  | undefinedOpcode (h : Hdr) (opcode : BitVec 16) (params : List Byte)
  deriving DecidableEq, Repr

/-- Geometry or reference time of a weight-write (R354). -/
inductive WeightGeom where
  | table (n : Byte) (chans : BitVec 16) (beams : BitVec 16)
  | poly (sec : BitVec 64) (ns : Word)
  deriving DecidableEq, Repr

/-- Settings of a zoom slot (R247). -/
structure ZoomSettings where
  beam : BitVec 16
  chan : BitVec 16
  nc : Byte
  dz : BitVec 16
  cset : Byte
  dest : Byte
  deriving DecidableEq, Repr

/-- The windows by which the host reaches the fabric (R446). -/
inductive Bar where
  | bar0 | bar2 | bar4
  deriving DecidableEq, Repr

/-- One fabric access (R445): master, address, size in bytes; whether the management core is in
secure mode (R425), the master is in a handler (R423), the access comes through port B (R418), a
port A write or atomic meets it in the same bank cycle (R421), and whether it fetches instructions; `bar`: the host
makes it through a window, where `addr` is the offset (R446). -/
structure Access where
  master : Byte
  addr : BitVec 40
  size : Nat
  secure : Bool
  handler : Bool
  portB : Bool
  contended : Bool
  fetch : Bool
  bar : Option Bar := none
  deriving DecidableEq, Repr

/-- How a patrol test of one segment ends (R423, R424). -/
inductive PatrolOutcome where
  | passed
  | aborted
  /-- a column of a bank fails; the columns of a bank are numbered from 0 -/
  | failed (bank : Fin 64) (column : Nat)
  deriving DecidableEq, Repr

/-- A fault message (R470). -/
structure FaultMsg where
  source : Fin 1024
  kind : BitVec 6
  cls : Fin 3
  master : Byte
  type : BitVec 4
  address : BitVec 48
  deriving DecidableEq, Repr

/-- What the hardware presents at a cold start (R515 to R519): strap pins, the lid latch, which
flash images verify, which stacks train and which engines pass self-test. -/
structure ColdInput where
  straps : BitVec 15
  lidTripped : Bool
  imageAOk : Bool
  imageBOk : Bool
  stackOk : List Bool
  engineOk : List Bool
  deriving DecidableEq, Repr

/-- IEEE 1149.1 instructions (R501). -/
inductive TapInstr where
  | bypass | idcode | samplePreload | extest | clamp
  deriving DecidableEq, Repr

/-- The commands of the block: one constructor per row of spec/opcode_table.json, in its order. -/
inductive Instr where
  /-- REGISTER_WRITE (R10): A write to a register or field that has no row of its own sets RW fields, clears W1C bits and applies the block's range checks, with refusal under R12. -/
  | registerWrite (m : Byte) (off : Nat) (size : Nat) (v : Word)
  /-- READ_CLEAR (R10): A read of an RC counter returns its value and then clears it. -/
  | readClear (m : Byte) (off : Nat)
  /-- LOW_WORD_READ (R13): A read of the low word of a 64-bit register pair latches the high word for the reading master. -/
  | lowWordRead (m : Byte) (off : Nat)
  /-- OFFER (R84): A ladder OFFER received on a lane is gathered for the lane's home bundle, or is answered at once with AGREE once the bundle's rate is fixed. -/
  | offer (l : Lane) (msg : List Byte)
  /-- OFFER_REPEAT (R84): The 1 ms timer sends OFFER again on each negotiating lane. -/
  | offerRepeat
  /-- OFFER_GATHER_TIMEOUT (R84): When 100 ms have passed since a bundle's first OFFER, the module fixes the agreed top rate and sends AGREE to every lane that has offered. -/
  | offerGatherTimeout (b : BundleId)
  /-- LADDER_CHECK_DONE (R86): A ladder step's training and check pattern complete, and STEP_PASS or STEP_FAIL is sent with the ERRORS count. -/
  | ladderCheckDone (l : Lane) (errors : Word) (bits : Nat)
  /-- STEP_PASS (R86): A partner STEP_PASS received lets the lane climb to the next rate, or to ALIGN, once both sides have passed. -/
  | stepPass (l : Lane) (msg : List Byte)
  /-- STEP_FAIL (R86): A partner STEP_FAIL received returns the lane to the lowest rate and puts it into retry. -/
  | stepFail (l : Lane) (msg : List Byte)
  /-- LADDER_STEP_DEADLINE (R86): When a ladder step overruns its cold-start deadline, the lane returns to the lowest rate and enters retry. -/
  | ladderStepDeadline (l : Lane)
  /-- RETRY_WAIT_EXPIRY (R88): After 1 s in retry the lane climbs the ladder again from step 0. -/
  | retryWaitExpiry (l : Lane)
  /-- ALIGN_DONE (R87): Stripe markers lock and the lanes are deskewed; lanes go IN_SERVICE or STANDBY, and the bundle goes UP or DEGRADED and starts its link layer. -/
  | alignDone (l : Lane) (skewNs : Nat)
  /-- LANE_LOSS_OF_LOCK (R90): Loss of clock, block, codeword or marker lock on a lane makes the module declare the lane lost and send LANE_DOWN. -/
  | laneLossOfLock (l : Lane)
  /-- UNCORRECTABLE_CODEWORD (R89): An uncorrectable RS codeword is discarded and counted; a third one within 1 ms declares the lane lost. -/
  | uncorrectableCodeword (l : Lane)
  /-- BER_MEASUREMENT (R91): Each 1 s pre-FEC BER measurement may declare signal degrade and, with DEGRADE_SUBST set, start a planned restripe. -/
  | berMeasurement (l : Lane) (meas : BerMeas)
  /-- LANE_DOWN_REPEAT (R95): The 10 µs timer sends LANE_DOWN again until the new epoch arrives. -/
  | laneDownRepeat (b : BundleId)
  /-- EPOCH_TIMEOUT (R96): When the new epoch has not been seen within 1 ms of the first LANE_DOWN, the module resets the bundle. -/
  | epochTimeout (b : BundleId)
  /-- EPOCH_MARKER (R94): A partner stripe marker carrying a new epoch makes the new set of lanes in service effective from the next word. -/
  | epochMarker (b : BundleId) (epoch : Byte)
  /-- LANE_DOWN (R100): A partner LANE_DOWN is treated as a request, and the module declares the lane lost itself. -/
  | laneDown (l : Lane) (msg : List Byte)
  /-- VLK_CTL_MODE (R104): A write of VLK_CTL.MODE moves a lane between OFF, data and test mode as the table allows, otherwise sets MODE_REJ. -/
  | vlkCtlMode (l : Lane) (mode : BitVec 2)
  /-- BITSLIP (R108): A write of VLK_CTL.BITSLIP in raw mode starts a one-unit-interval slip, or is dropped with SLIP_OVR while a slip is pending. -/
  | bitslip (l : Lane)
  /-- SLIP_COMPLETE (R108): A pending bit-slip completes within 100 ns, moving the word boundary and clearing SLIP_PEND. -/
  | slipComplete (l : Lane)
  /-- RESTART (R110): A write of VLK_CTL.RESTART abandons the retry wait and climbs from step 0. -/
  | restart (l : Lane)
  /-- CNTCLR (R110): A write of VLK_CTL.CNTCLR clears the lane's FEC counters. -/
  | cntclr (l : Lane)
  /-- SINGLE (R107): A write of VLK_INJ.SINGLE inverts one generator bit within 100 ns. -/
  | single (l : Lane)
  /-- BURST (R107): A write of VLK_INJ.BURST inverts BLEN consecutive generator bits, or sets MODE_REJ when BLEN is 0. -/
  | burst (l : Lane) (blen : Byte)
  /-- VLK_PCHK_EN (R106): A write that sets VLK_PCHK.EN from 0 to 1 clears the checker counts and starts the checker. -/
  | vlkPchkEn (l : Lane)
  /-- VLK_BCTL_RESET (R102): A write of VLK_BCTL.RESET restarts the bundle's link layer and keeps lane training, roles and epoch. -/
  | vlkBctlReset (b : BundleId)
  /-- TRANSCEIVER_INSERTED (R496): An inserted transceiver is read and powered when its power class is at most 17 W, otherwise left off with OPTREJ set. -/
  | transceiverInserted (cage : Fin 4) (deciWatt : Nat)
  /-- TRANSCEIVER_REMOVED (R496): Removal of a transceiver is a loss of each of its lanes. -/
  | transceiverRemoved (cage : Fin 4)
  /-- DATA_UNIT (R120): A link-layer DATA unit received is checked for integrity and sequence, acknowledged or NACKed, and its frame passed on or discarded. -/
  | dataUnit (b : BundleId) (bytes : List Byte)
  /-- LINKCTL (R118): A LINKCTL unit received updates LACK and NACK state, completes the INIT exchange or restarts the link layer. -/
  | linkctl (b : BundleId) (bytes : List Byte)
  /-- INIT_REPEAT (R118): The 100 µs timer sends LINKCTL INIT again until the partner answers. -/
  | initRepeat (b : BundleId)
  /-- UNIT_RESEND_TIMEOUT (R121): After 20 µs without acknowledgement the module resends its own units. -/
  | unitResendTimeout (b : BundleId)
  /-- SOPEN (R126): An SOPEN frame opens a new session, repeats a grant, resumes a session by token, or is refused with SREFUSE. -/
  | sopen (b : BundleId) (f : List Byte)
  /-- SREADY (R126): An SREADY frame moves the session from READY_WAIT to OPEN. -/
  | sready (b : BundleId) (f : List Byte)
  /-- SCLOSE (R129): A partner SCLOSE releases the session's flows, frees the session and is answered with SCLOSE. -/
  | sclose (b : BundleId) (f : List Byte)
  /-- FREQ (R134): A FREQ frame grants a new flow, re-anchors or takes over a flow, or is refused with FREFUSE. -/
  | freq (b : BundleId) (f : List Byte)
  /-- FRELEASE (R137): An FRELEASE frame frees a flow and discards its held frames. -/
  | frelease (b : BundleId) (f : List Byte)
  /-- FSKIP (R137): An FSKIP frame advances the flow's expected sequence and counter past skipped frames. -/
  | fskip (b : BundleId) (f : List Byte)
  /-- KEEPALIVE (R139): A KEEPALIVE frame renews the flow, or triggers NACK_SEQ or a flow fault. -/
  | keepalive (b : BundleId) (f : List Byte)
  /-- DATA (R142): A DATA frame goes through checks 0 to 16 and is accepted, held, acknowledged, NACKed or refused. -/
  | data (b : BundleId) (f : List Byte)
  /-- HELD_FRAME_ACCEPTANCE (R144): When nothing still holds the oldest held frame of a flow, checks 13 and 15 are made again and the frame is accepted, passed as late or refused. -/
  | heldFrameAcceptance (f : FlowId)
  /-- ACCEPT_ACK_TIMER (R139): At least every 10 ms the module sends an ACCEPT_ACK, empty if need be, on every OPEN session. -/
  | acceptAckTimer
  /-- SRESET_REPEAT (R129): The 10 ms timer sends SRESET again for a session in RESET_WAIT. -/
  | sresetRepeat (s : SessionId)
  /-- FLOW_SUSPECT (R138): After 10 ms without DATA or KEEPALIVE the flow becomes SUSPECT. -/
  | flowSuspect (f : FlowId)
  /-- FLOW_SILENT (R138): After 100 ms without DATA or KEEPALIVE the flow becomes SILENT. -/
  | flowSilent (f : FlowId)
  /-- RETENTION_TIME_OUT (R131): A session with no frame for VSN_RETAIN seconds is closed and its flows are released. -/
  | retentionTimeOut (s : SessionId)
  /-- VSN_SCTL_CLOSE (R161): A write of VSN_SCTL.CLOSE closes the session, sends SCLOSE and releases its flows. -/
  | vsnSctlClose (s : SessionId)
  /-- VSN_SCTL_RESET (R161): A write of VSN_SCTL.RESET makes an administrative session reset with SRESET reason 2. -/
  | vsnSctlReset (s : SessionId)
  /-- RANGE_CHANNEL_CLOSE (R170): An open range channel closes once every group's flow has delivered through its end or the nominal end has passed for unwaited groups. -/
  | rangeChannelClose (t : Nat) (ch : Fin 1024)
  /-- DECK_DEADLINE (R171): The deck deadline expires and the range channel closes, with runs missing where presence counts fall short. -/
  | deckDeadline (t : Nat) (ch : Fin 1024)
  /-- CUT_RANGE_CHANNEL (R174): The cut takes a closed range channel, classes its runs, keeps statistics and multicasts runs with valid bits to the engines. -/
  | cutRangeChannel
  /-- RANGE_CHANNEL_RELEASE (R183): Once merge, statistics and beam partials are committed, the range channel is released and (k + 2, ℓ) opens. -/
  | rangeChannelRelease (t : Nat) (ch : Fin 1024)
  /-- ALLOT (R197): At the start of a range channel the dealer interrupts each active engine with its allotment, once the engine's bank is free. -/
  | allot (e : EngineId)
  /-- RUN_END (R188): At the end of each run the array adds run registers and pair counts into the active short accumulator bank. -/
  | runEnd (e : EngineId) (unit : Nat) (run : Nat)
  /-- MERGE (R203): A unit's lead merges its and its helper's partials line by line into the long accumulators, skipping lines already tagged. -/
  | merge (t : Nat) (ch : Fin 1024) (unit : Nat)
  /-- TRICK_CLOSED (R209): Once the last range's merges, statistics and beam partials are committed, the trick closes and its buffer passes to export. -/
  | trickClosed
  /-- GOVERNOR_MEASUREMENT (R212): Every 1 ms the governor measures each engine's rate, adjusts its rail and counts slow measurements. -/
  | governorMeasurement (ms : List EngMeas)
  /-- PACE_DEFICIT_CHECK (R214): Every 1 ms the module computes φ and begins, continues or ends a pace deficit that slows credit return. -/
  | paceDeficitCheck
  /-- SPARE_ARRAY_CHECK_DONE (R217): A loaded spare's array check completes, and the spare is placed in the position or retired with cause 1. -/
  | spareArrayCheckDone (e : EngineId) (pass : Bool)
  /-- ENGINE_SELFTEST_DONE (R216): An engine self-test completes, making the engine STANDBY or leaving it RETIRED. -/
  | engineSelftestDone (e : EngineId) (pass : Bool)
  /-- ENG_CTL_RETIRE (R215): A write of ENG_CTL.RETIRE retires an ACTIVE, IDLE or STANDBY engine. -/
  | engCtlRetire (e : EngineId)
  /-- ENG_CTL_RESTORE (R216): A write of ENG_CTL.RESTORE starts the self-test of a RETIRED engine. -/
  | engCtlRestore (e : EngineId)
  /-- ENG_GCTL_RELEASE (R223): A write of ENG_GCTL.RELEASE clears HOLD, and the engines become ACTIVE or STANDBY at the next deal. -/
  | engGctlRelease
  /-- BEAM_SUM (R237): When all n partials of a run have arrived, the sum position forms and emits the beam sums to detection and zoom slots. -/
  | beamSum (t : Nat) (ch : Fin 1024) (block : Fin 16) (run : Nat)
  /-- ZOOM_OUTPUT (R251): When a slot has consumed the inputs of output j, it forms the CIC, compensation and fade result and emits it. -/
  | zoomOutput (slot : Fin 64)
  /-- ZOOM_SLOT_START (R252): At counter C a slot starts, is retuned, reassigned or changes coefficient set, clearing its state or beginning a fade. -/
  | zoomSlotStart (slot : Fin 64)
  /-- ZOM_COEF_WRITE (R253): A write of a ZOM_COEF tap takes effect unless the set is in use or fading, in which case CWREJ is set. -/
  | zomCoefWrite (set : Fin 16) (tap : Fin 32) (v : Word)
  /-- WEIGHT_COMMAND_BEGIN (R234): A held weight command begins once the set lock clears and every earlier weight command has completed. -/
  | weightCommandBegin
  /-- WEIGHT_HAND_OVER (R233): When device time reaches time(D), the shadow and active weight sets exchange roles, or the deal is refused. -/
  | weightHandOver
  /-- PLAN_HAND_OVER (R364): When device time reaches time(D), the shadow copy becomes the active copy, admission is evaluated and the deal completes. -/
  | planHandOver
  /-- KERNEL_COPY (R328): Between kernel calls, after the outgoing exports using the old kernel end, firmware copies the kernel image into an engine. -/
  | kernelCopy (e : EngineId)
  /-- EXPORT_START (R260): The output stage takes a closed trick's buffer once the previous export is complete and begins reading it. -/
  | exportStart
  /-- EXPORT_COMPLETE (R261): The last record of an export is written, and the buffer is released from export, ending any output stall. -/
  | exportComplete
  /-- TRICK_SUMMARY (R279): Once every record of a trick is written to a partition, its trick summary packet is written there. -/
  | trickSummary (p : PartId)
  /-- PACKET_DRAINED (R289): A packet's last byte leaves its port, or its host DMA write completes, which frees ring space and may release tricks in DRAIN mode. -/
  | packetDrained (p : PartId)
  /-- RING_LAYOUT (R287): Once the outgoing export is complete and all partitions have drained, the ring is laid out for the incoming plan. -/
  | ringLayout
  /-- HOST_SIGNAL_TIMEOUT (R300): MODUS µs after the first unsignalled packet, the host MSI-X vector is raised. -/
  | hostSignalTimeout
  /-- OUT_RELHI (R292): A write of OUT_RELHI releases the trick named by OUT_RELLO and OUT_RELHI. -/
  | outRelhi (high : Word)
  /-- OUT_HRD (R298): A write of OUT_HRD advances the host's read offset, or is refused with HRDREJ. -/
  | outHrd (v : Word)
  /-- ETH_LINK_UP (R289): An egress port link comes up and its partition drains again. -/
  | ethLinkUp (q : PortId)
  /-- ETH_LINK_DOWN (R473): An egress port link goes down, stopping its drain and raising a fault. -/
  | ethLinkDown (q : PortId)
  /-- ETH_RXDISC (R285): A non-PTP frame received on an egress port is discarded and counted. -/
  | ethRxdisc (q : PortId)
  /-- PTP_MESSAGE (R393): A PTP message received on an egress port is processed by the slave, forwarded by the transparent clock or discarded. -/
  | ptpMessage (q : PortId) (msg : PtpMsg)
  /-- DELAY_REQ_TIMER (R393): At the randomised interval the slave sends a Delay_Req. -/
  | delayReqTimer
  /-- CORE_NOP (R309): NOP instruction does nothing beyond its parallel moves. -/
  | coreNop (e : EngineId) (mv : Moves)
  /-- BR (R309): BR instruction branches to its target. -/
  | br (e : EngineId) (target : BitVec 13) (mv : Moves)
  /-- BRC (R309): BRC instruction branches when the named flag is set. -/
  | brc (e : EngineId) (flag : CoreFlag) (target : BitVec 13) (mv : Moves)
  /-- CALL (R309): CALL instruction calls a routine. -/
  | call (e : EngineId) (target : BitVec 13) (mv : Moves)
  /-- RET (R309): RET instruction returns from a call, which ends a kernel call. -/
  | ret (e : EngineId) (mv : Moves)
  /-- RETI (R322): RETI instruction restores STATUS from ESTATUS and continues at EPC. -/
  | reti (e : EngineId) (mv : Moves)
  /-- WAIT (R321): WAIT instruction waits for a dealer interrupt. -/
  | wait (e : EngineId) (mv : Moves)
  /-- HALT (R309): HALT instruction halts the core. -/
  | halt (e : EngineId) (mv : Moves)
  /-- TRAP (R309): TRAP instruction raises a trap; `undefined` is an instruction of a reserved class, or with an OP not
  defined in its class, in its place. -/
  | trap (e : EngineId) (i : TrapInstr)
  /-- ADD (R309): Scalar ADD instruction. -/
  | add (e : EngineId) (d : Reg4) (a : Reg4) (b : Reg4) (mv : Moves)
  /-- SUB (R309): Scalar SUB instruction. -/
  | sub (e : EngineId) (d : Reg4) (a : Reg4) (b : Reg4) (mv : Moves)
  /-- AND (R309): Scalar AND instruction. -/
  | and (e : EngineId) (d : Reg4) (a : Reg4) (b : Reg4) (mv : Moves)
  /-- OR (R309): Scalar OR instruction. -/
  | or (e : EngineId) (d : Reg4) (a : Reg4) (b : Reg4) (mv : Moves)
  /-- XOR (R309): Scalar XOR instruction. -/
  | xor (e : EngineId) (d : Reg4) (a : Reg4) (b : Reg4) (mv : Moves)
  /-- SHL (R309): Scalar shift left instruction. -/
  | shl (e : EngineId) (d : Reg4) (a : Reg4) (sh : Byte) (mv : Moves)
  /-- SHR (R309): Scalar logical shift right instruction. -/
  | shr (e : EngineId) (d : Reg4) (a : Reg4) (sh : Byte) (mv : Moves)
  /-- SAR (R309): Scalar arithmetic shift right instruction. -/
  | sar (e : EngineId) (d : Reg4) (a : Reg4) (sh : Byte) (mv : Moves)
  /-- MUL (R309): Scalar multiply instruction giving the low 32 bits. -/
  | mul (e : EngineId) (d : Reg4) (a : Reg4) (b : Reg4) (mv : Moves)
  /-- CMP (R309): Scalar compare instruction setting the flags. -/
  | cmp (e : EngineId) (a : Reg4) (b : Reg4) (mv : Moves)
  /-- MOVS (R309): MOVS instruction moves to or from STATUS, EPC, ESTATUS and the loop registers. -/
  | movs (e : EngineId) (toSpecial : Bool) (d : Reg4) (sr : SpecialReg) (mv : Moves)
  /-- VADD (R309): Vector integer add instruction. -/
  | vadd (e : EngineId) (d : Reg4) (a : Reg4) (b : Reg4) (mv : Moves)
  /-- VSUB (R309): Vector integer subtract instruction. -/
  | vsub (e : EngineId) (d : Reg4) (a : Reg4) (b : Reg4) (mv : Moves)
  /-- VMIN (R309): Vector minimum instruction. -/
  | vmin (e : EngineId) (d : Reg4) (a : Reg4) (b : Reg4) (mv : Moves)
  /-- VMAX (R309): Vector maximum instruction. -/
  | vmax (e : EngineId) (d : Reg4) (a : Reg4) (b : Reg4) (mv : Moves)
  /-- VABS (R309): Vector absolute value instruction. -/
  | vabs (e : EngineId) (d : Reg4) (a : Reg4) (mv : Moves)
  /-- VAND (R309): Vector AND instruction. -/
  | vand (e : EngineId) (d : Reg4) (a : Reg4) (b : Reg4) (mv : Moves)
  /-- VOR (R309): Vector OR instruction. -/
  | vor (e : EngineId) (d : Reg4) (a : Reg4) (b : Reg4) (mv : Moves)
  /-- VXOR (R309): Vector XOR instruction. -/
  | vxor (e : EngineId) (d : Reg4) (a : Reg4) (b : Reg4) (mv : Moves)
  /-- VSHL (R309): Vector shift left instruction. -/
  | vshl (e : EngineId) (d : Reg4) (a : Reg4) (sh : Byte) (mv : Moves)
  /-- VSAR (R309): Vector arithmetic shift right instruction. -/
  | vsar (e : EngineId) (d : Reg4) (a : Reg4) (sh : Byte) (mv : Moves)
  /-- VSEL (R309): Vector select instruction. -/
  | vsel (e : EngineId) (d : Reg4) (a : Reg4) (b : Reg4) (mv : Moves)
  /-- VBCAST (R309): VBCAST instruction broadcasts a scalar to all lanes. -/
  | vbcast (e : EngineId) (d : Reg4) (a : Reg4) (mv : Moves)
  /-- CLRA (R314): CLRA instruction clears accumulator lanes and their SAT bits. -/
  | clra (e : EngineId) (acc : Fin 4) (mv : Moves)
  /-- MAC (R314): MAC instruction adds 24-bit products into accumulator lanes with sat48. -/
  | mac (e : EngineId) (acc : Fin 4) (a : Reg4) (b : Reg4) (mv : Moves)
  /-- MSU (R314): MSU instruction subtracts 24-bit products from accumulator lanes with sat48. -/
  | msu (e : EngineId) (acc : Fin 4) (a : Reg4) (b : Reg4) (mv : Moves)
  /-- ACCADD (R314): ACCADD instruction adds sign-extended vector lanes to an accumulator with sat48. -/
  | accadd (e : EngineId) (acc : Fin 4) (a : Reg4) (mv : Moves)
  /-- CJOIN (R314): CJOIN instruction forms accumulator lanes from a 32-bit low part and a 16-bit high part. -/
  | cjoin (e : EngineId) (acc : Fin 4) (lo : Reg4) (hi : Reg4) (upper : Bool) (mv : Moves)
  /-- MOVA (R309): MOVA instruction moves accumulator lanes to two vector registers. -/
  | mova (e : EngineId) (d : Reg4) (d2 : Reg4) (acc : Fin 4) (mv : Moves)
  /-- NARR (R315): NARR instruction narrows accumulator lanes by k bits with round half up, setting NSAT on limit. -/
  | narr (e : EngineId) (d : Reg4) (acc : Fin 4) (k : Fin 48) (mv : Moves)
  /-- BXCLR (R316): BXCLR instruction starts a block-exponent block with target width w. -/
  | bxclr (e : EngineId) (w : Fin 17) (mv : Moves)
  /-- BXACC (R316): BXACC instruction folds a vector into the block's minimum and maximum. -/
  | bxacc (e : EngineId) (a : Reg4) (mv : Moves)
  /-- BXGET (R316): BXGET instruction writes the block exponent to a D register. -/
  | bxget (e : EngineId) (d : Reg4) (mv : Moves)
  /-- NARRE (R316): NARRE instruction delivers lanes scaled by the block exponent with round half up. -/
  | narre (e : EngineId) (d : Reg4) (a : Reg4) (mv : Moves)
  /-- FCVT (R317): FCVT instruction converts integer lanes to binary32. -/
  | fcvt (e : EngineId) (d : Reg4) (src : FcvtSrc) (mv : Moves)
  /-- FADD (R317): FADD binary32 lane addition instruction. -/
  | fadd (e : EngineId) (d : Reg4) (a : Reg4) (b : Reg4) (mv : Moves)
  /-- FSUB (R317): FSUB binary32 lane subtraction instruction. -/
  | fsub (e : EngineId) (d : Reg4) (a : Reg4) (b : Reg4) (mv : Moves)
  /-- FMUL (R317): FMUL binary32 lane multiplication instruction. -/
  | fmul (e : EngineId) (d : Reg4) (a : Reg4) (b : Reg4) (mv : Moves)
  /-- FDIV (R317): FDIV binary32 lane division instruction. -/
  | fdiv (e : EngineId) (d : Reg4) (a : Reg4) (b : Reg4) (mv : Moves)
  /-- F16 (R317): F16 instruction converts binary32 lanes to binary16. -/
  | f16 (e : EngineId) (d : Reg4) (a : Reg4) (mv : Moves)
  /-- SETA (R313): SETA instruction writes OFFSET, BASE, LENGTH (pending) or STEP of an address register. -/
  | seta (e : EngineId) (ar : Reg4) (fld : AddrField) (d : Reg4) (mv : Moves)
  /-- GETA (R309): GETA instruction reads an address register field. -/
  | geta (e : EngineId) (d : Reg4) (ar : Reg4) (fld : AddrField) (mv : Moves)
  /-- MODA (R313): MODA instruction updates an address register by a step with no access, applying any pending length. -/
  | moda (e : EngineId) (ar : Reg4) (step : BitVec 4) (mv : Moves)
  /-- LDI (R309): LDI instruction loads a 32-bit immediate into a D register. -/
  | ldi (e : EngineId) (d : Reg4) (imm : Word)
  /-- LOOP (R318): LOOP instruction pushes a loop level, or skips for a count of 0, or raises LOOPOVF. -/
  | loop (e : EngineId) (lend : BitVec 13) (count : LoopCount) (mv : Moves)
  /-- ENDL (R319): ENDL instruction pops the top loop level and continues after its end. -/
  | endl (e : EngineId) (mv : Moves)
  /-- ARRAY_AND_DEALER_INSTRUCTION (R309): A class 0xA firmware-only instruction, which raises SANDBOX in a kernel. -/
  | arrayAndDealerInstruction (e : EngineId) (mv : Moves)
  /-- OUTPUT_INSTRUCTION (R309): A class 0xB firmware-only instruction, which raises SANDBOX in a kernel. -/
  | outputInstruction (e : EngineId) (mv : Moves)
  /-- INTERRUPT_ENTRY (R322): A dealer interrupt is taken between instructions, saving EPC and ESTATUS and entering the vector. -/
  | interruptEntry (e : EngineId) (cause : IrqCause)
  /-- KTIME (R335): A kernel call that has not returned within COST steps raises the KTIME trap. -/
  | ktime (e : EngineId)
  /-- WINOS_PACKET_DISCARDED (R340): A received Winos packet with bad magic, CRC, KIND or LENGTH is silently discarded and counted. -/
  | winosPacketDiscarded (p : StrayPacket)
  /-- PCI_SQTAIL (R348): A doorbell write of PCI_SQTAIL makes new submission entries available to be taken. -/
  | pciSqtail (q : QpId) (v : BitVec 12)
  /-- PCI_CQHEAD (R348): A write of PCI_CQHEAD frees completion queue room and lets held entries be taken. -/
  | pciCqhead (q : QpId) (v : BitVec 12)
  /-- PCI_QCFG_EN (R367): A write of PCI_QCFG.EN enables a queue pair, or clears it and abandons entries not yet taken. -/
  | pciQcfgEn (q : QpId) (en : Bool)
  /-- NOP (R354): NOP command replies OK. -/
  | nop (h : Hdr)
  /-- IDENTIFY (R354): IDENTIFY command returns ordering code, serial, image versions, life-cycle and module ID. -/
  | identify (h : Hdr)
  /-- SET_MODID (R354): SET_MODID command sets the module ID while the strap is 255 and all sessions are FREE. -/
  | setModid (h : Hdr) (id : Byte)
  /-- RESET (R354): RESET command replies OK and begins a warm reset. -/
  | reset (h : Hdr) (kind : Byte)
  /-- STATUS (R354): STATUS command returns the module's overall state. -/
  | status (h : Hdr)
  /-- FW_WRITE (R354): FW_WRITE command writes data into the image that is not booted. -/
  | fwWrite (h : Hdr) (image : Byte) (off : Word) (data : List Byte)
  /-- FW_COMMIT (R354): FW_COMMIT command verifies an image's signature and marks it for the next boot. -/
  | fwCommit (h : Hdr) (image : Byte)
  /-- UART_CLOSE (R351): UART_CLOSE command stops the UART carrying commands until the next cold start. -/
  | uartClose (h : Hdr)
  /-- LIFECYCLE (R4): LIFECYCLE command moves the life-cycle state forward and wipes the secure bank. -/
  | lifecycle (h : Hdr) (target : Byte)
  /-- MGMT_CFG (R349): MGMT_CFG command stores the management port address, effective after the reply. -/
  | mgmtCfg (h : Hdr) (ip : Word) (plen : Byte) (gw : Word)
  /-- EVT_SUBSCRIBE (R359): EVT_SUBSCRIBE command replaces a destination's event port mask. -/
  | evtSubscribe (h : Hdr) (mask : BitVec 16) (dest : Byte)
  /-- EVT_READ (R359): EVT_READ command returns kept events from a DSN. -/
  | evtRead (h : Hdr) (first : BitVec 64) (count : BitVec 16)
  /-- LANE_RELEASE (R103): LANE_RELEASE command removes a lane by planned restripe and places it in test mode. -/
  | laneRelease (h : Hdr) (lane : Byte)
  /-- LANE_RESTORE (R88): LANE_RESTORE command removes a lane's repair entry and returns it to its home role by planned restripe. -/
  | laneRestore (h : Hdr) (lane : Byte)
  /-- BUNDLE_RESET (R102): BUNDLE_RESET command restarts a bundle's link layer. -/
  | bundleReset (h : Hdr) (bundle : Byte)
  /-- SESSION_CLOSE (R354): SESSION_CLOSE command closes a session and releases its flows. -/
  | sessionClose (h : Hdr) (session : Byte)
  /-- FLOW_LIST (R354): FLOW_LIST command returns a session's FSTATE entries from an index. -/
  | flowList (h : Hdr) (session : Byte) (first : BitVec 16)
  /-- PLAN_DEFINE (R360): PLAN_DEFINE command writes bytes of a section into a slot's edit copy. -/
  | planDefine (h : Hdr) (slot : Byte) (sect : Byte) (off : Word) (data : List Byte)
  /-- PLAN_BUILD (R362): PLAN_BUILD command validates and admits the edit copy and copies it to the shadow. -/
  | planBuild (h : Hdr) (slot : Byte)
  /-- PLAN_DEAL (R363): PLAN_DEAL command schedules a plan hand-over at counter D. -/
  | planDeal (h : Hdr) (slot : Byte) (d : BitVec 64)
  /-- PLAN_CANCEL (R365): PLAN_CANCEL command cancels a pending plan deal. -/
  | planCancel (h : Hdr)
  /-- PLAN_RESET (R361): PLAN_RESET command sets a slot's edit copy to the default plan or a slot's shadow. -/
  | planReset (h : Hdr) (slot : Byte) (source : Byte)
  /-- PLAN_ERASE (R354): PLAN_ERASE command erases a slot that is neither active nor dealt. -/
  | planErase (h : Hdr) (slot : Byte)
  /-- PLAN_STATUS (R354): PLAN_STATUS command returns a slot's build, admission, flags and budget figures. -/
  | planStatus (h : Hdr) (slot : Byte)
  /-- PLAN_LOAD_TABLE (R360): PLAN_LOAD_TABLE command loads a table section into the edit copy from host memory or HBM. -/
  | planLoadTable (h : Hdr) (slot : Byte) (sect : Byte) (source : Byte) (addr : BitVec 64) (len : Word)
  /-- SET_RESERVE (R63): SET_RESERVE command sets the engine reserve. -/
  | setReserve (h : Hdr) (reserve : Byte)
  /-- ENGINE_RELEASE (R354): ENGINE_RELEASE command releases the engines held after a SAFE_N boot. -/
  | engineRelease (h : Hdr)
  /-- TRICK_CLOSE (R210): TRICK_CLOSE command closes the open-ended trick at a named sub-integration boundary. -/
  | trickClose (h : Hdr) (boundary : BitVec 64)
  /-- TRICK_STATUS (R354): TRICK_STATUS command returns the accumulating, exporting and released tricks. -/
  | trickStatus (h : Hdr)
  /-- DEADLINE_SET (R171): DEADLINE_SET command sets the deck deadline. -/
  | deadlineSet (h : Hdr) (ms : BitVec 16)
  /-- WEIGHT_WRITE (R230): WEIGHT_WRITE command checks and writes weights into the shadow set. -/
  | weightWrite (h : Hdr) (kind : Byte) (geo : WeightGeom) (off : Word) (len : Word) (source : Byte) (addr : BitVec 64) (data : List Byte)
  /-- WEIGHT_COPY (R230): WEIGHT_COPY command copies the active set of a kind into the shadow. -/
  | weightCopy (h : Hdr) (kind : Byte)
  /-- WEIGHT_DEAL (R232): WEIGHT_DEAL command schedules a weight hand-over at counter D. -/
  | weightDeal (h : Hdr) (kinds : Byte) (d : BitVec 64)
  /-- ZOOM_CHANGE (R254): ZOOM_CHANGE command schedules a slot change at counter C. -/
  | zoomChange (h : Hdr) (slot : Byte) (set : ZoomSettings) (c : BitVec 64)
  /-- ZOOM_COEF (R253): ZOOM_COEF command writes a coefficient set unless in use or fading. -/
  | zoomCoef (h : Hdr) (set : Byte) (taps : List Word)
  /-- RELEASE (R292): RELEASE command releases a trick and every earlier trick. -/
  | release (h : Hdr) (trick : BitVec 64)
  /-- RESEND (R290): RESEND command sends retained packets again with RESEND set. -/
  | resend (h : Hdr) (part : Byte) (first : BitVec 64) (count : Word)
  /-- STATS_SEND (R280): STATS_SEND command writes the exporting statistics bank into a partition. -/
  | statsSend (h : Hdr) (trick : BitVec 64) (part : Byte)
  /-- RING_SIZE (R354): RING_SIZE command sets the output ring size and re-evaluates stored plans. -/
  | ringSize (h : Hdr) (gib : Byte)
  /-- HOST_RING (R354): HOST_RING command sets the host ring registers while host delivery is disabled. -/
  | hostRing (h : Hdr) (base : BitVec 64) (log2 : Byte) (wb : BitVec 64) (vec : Byte) (modk : Byte) (modus : BitVec 16)
  /-- TIME_SET (R370): TIME_SET command sets device time once after cold start, in plain or aligned form. -/
  | timeSet (h : Hdr) (sec : BitVec 64) (ns : Word)
  /-- RE_EPOCH (R374): RE_EPOCH command sets the epoch offset, steps device time and clears the mapping. -/
  | reEpoch (h : Hdr) (eps : BitVec 64) (sec : BitVec 64) (ns : Word)
  /-- MAP_SET (R40): MAP_SET command sets the counter-to-time mapping and re-evaluates stored plans. -/
  | mapSet (h : Hdr) (sec : BitVec 64) (ns : Word) (p : Word) (q : Word)
  /-- REF_CFG (R397): REF_CFG command replaces every reference setting. -/
  | refCfg (h : Hdr) (params : List Byte)
  /-- PHASE_STEP (R392): PHASE_STEP command adds an amount to the output offset Φ. -/
  | phaseStep (h : Hdr) (amount : Word)
  /-- PTP_CFG (R396): PTP_CFG command sets the PTP slave and transparent clock settings. -/
  | ptpCfg (h : Hdr) (params : List Byte)
  /-- LEDGER_READ (R436): LEDGER_READ command returns whole ledger slots. -/
  | ledgerRead (h : Hdr) (first : BitVec 16) (count : BitVec 16)
  /-- MEM_STATUS (R438): MEM_STATUS command returns a stack's state and counts. -/
  | memStatus (h : Hdr) (stack : Byte)
  /-- MEM_CFG (R437): MEM_CFG command sets neighbour-refresh probability and patrol settings. -/
  | memCfg (h : Hdr) (params : List Byte)
  /-- FAULT_READ (R483): FAULT_READ command returns a source's settings and captures. -/
  | faultRead (h : Hdr) (source : BitVec 16)
  /-- FAULT_ACK (R478): FAULT_ACK command acknowledges a source and class, clearing its capture. -/
  | faultAck (h : Hdr) (source : BitVec 16) (cls : Byte)
  /-- ENGINE_RETIRE (R215): ENGINE_RETIRE command retires an engine. -/
  | engineRetire (h : Hdr) (engine : Byte)
  /-- ENGINE_RESTORE (R216): ENGINE_RESTORE command self-tests a retired engine and restores it on a pass. -/
  | engineRestore (h : Hdr) (engine : Byte)
  /-- REACTION_SET (R476): REACTION_SET command sets a source's reaction for one class. -/
  | reactionSet (h : Hdr) (source : BitVec 16) (cls : Byte) (level : Byte) (errn : Byte)
  /-- KEY_ENROL (R327): KEY_ENROL command writes a customer public key into an empty slot. -/
  | keyEnrol (h : Hdr) (slot : Byte) (key : List Byte)
  /-- KEY_LOCK (R327): KEY_LOCK command closes key enrolment. -/
  | keyLock (h : Hdr)
  /-- KERNEL_LOAD (R328): KERNEL_LOAD command verifies a kernel image and stores it in a slot. -/
  | kernelLoad (h : Hdr) (slot : Byte) (image : List Byte)
  /-- KERNEL_ERASE (R354): KERNEL_ERASE command erases a kernel slot no stored plan names. -/
  | kernelErase (h : Hdr) (slot : Byte)
  /-- REG_READ (R354): REG_READ command reads registers. -/
  | regRead (h : Hdr) (addr : Word) (count : BitVec 16)
  /-- REG_WRITE (R352): REG_WRITE command writes a register. -/
  | regWrite (h : Hdr) (addr : Word) (value : Word)
  /-- SELFTEST (R354): SELFTEST command runs a block self-test. -/
  | selftest (h : Hdr) (block : Byte)
  /-- PPS_EDGE (R379): A PPS edge on reference A or B is time-stamped and checked against its 10 MHz. -/
  | ppsEdge (r : Fin 2) (posErrNs : Int)
  /-- REFERENCE_MEASUREMENT (R378): Once a second each reference is measured, qualification is judged, the selection made and steering set. -/
  | referenceMeasurement (m : RefMeas)
  /-- REFERENCE_NO_LONGER_PRESENT (R379): A reference that stops being present is disqualified at once, leading to a switch or holdover. -/
  | referenceNoLongerPresent (r : RefId)
  /-- WTR_EXPIRY (R380): A reference whose wait-to-restore has run out requalifies and may take over. -/
  | wtrExpiry (r : RefId)
  /-- OCXO_WARM (R381): After 10 min in oven regulation WARM is set and windows start to apply. -/
  | ocxoWarm
  /-- DISAGREEMENT_AVERAGE (R383): Every 100 s during a disagreement alarm the averages are compared and references may be disqualified. -/
  | disagreementAverage (selPpt : Int) (otherPpt : Int)
  /-- OCXO_OUT_OF_REGULATION (R388): The OCXO leaves oven regulation or its frequency limits and the Fault state is entered. -/
  | ocxoOutOfRegulation
  /-- FAULT_STATE_END (R388): After 60 s back in regulation the Fault state ends. -/
  | faultStateEnd
  /-- TIM_TRIM_LOW (R376): A write of the low word of TIM_TRIM is held without effect. -/
  | timTrimLow (v : Word)
  /-- TIM_TRIM_HIGH (R376): A write of the high word of TIM_TRIM applies the trim, or is refused with TRIMREJ. -/
  | timTrimHigh (v : Word)
  /-- TIM_SEC_LOW_READ (R398): A read of the low word of TIM_SEC latches the high word and TIM_NS for the master. -/
  | timSecLowRead (m : Byte)
  /-- STACK_TEMPERATURE_READING (R410): Every 125 µs a stack's temperature sets hot, throttle or shutdown and may start a refresh catch-up. -/
  | stackTemperatureReading (s : StackId) (t : Int)
  /-- INTERFACE_LOCK_LOST (R404): A stack interface loses lock. -/
  | interfaceLockLost (s : StackId)
  /-- INTERFACE_LOCK_TIMEOUT (R404): An interface not relocked within 10 ms loses its stack. -/
  | interfaceLockTimeout (s : StackId)
  /-- REBUILD (R405): The background rebuild visits a stripe and moves the lost chunk's data to the parity position. -/
  | rebuild
  /-- COMMAND_ADDRESS_PARITY_ERROR (R407): A command/address parity error replays the retry buffer, retiring the pseudo-channel after three failures. -/
  | commandAddressParityError (s : StackId) (pc : Fin 32) (replayOk : Bool)
  /-- REFRESH_INTERVAL (R409): A refresh interval adds to the refresh debt, issuing a refresh at the limit. -/
  | refreshInterval (s : StackId) (pc : Fin 32) (queued : Bool)
  /-- FABRIC_READ (R452): A fabric read is ordered, routed to its region and served or refused. -/
  | fabricRead (a : Access)
  /-- FABRIC_WRITE (R452): A fabric write is ordered, routed and performed, as a read-modify-write for narrow HBM writes, or refused. -/
  | fabricWrite (a : Access) (data : List Byte)
  /-- ATOMIC_ADD (R420): An atomic add on a scratchpad word returns the old value and stores the sum. -/
  | atomicAdd (a : Access) (v : BitVec 64)
  /-- ATOMIC_SWAP (R420): An atomic swap on a scratchpad word returns the old value and stores the new. -/
  | atomicSwap (a : Access) (v : BitVec 64)
  /-- LOCKED_READ (R453): A locked read starts or continues a locked sequence on its target. -/
  | lockedRead (a : Access) (last : Bool)
  /-- LOCKED_WRITE (R453): A locked write continues or ends a locked sequence. -/
  | lockedWrite (a : Access) (data : List Byte) (last : Bool)
  /-- LOCK_TIMEOUT (R453): A locked sequence exceeding 2 µs is broken and LOCKBRK set. -/
  | lockTimeout (m : Byte)
  /-- SPD_OWN (R419): A write of SPD_OWN hands a bank's ownership over, if made by the owner or the management core. -/
  | spdOwn (m : Byte) (bank : Fin 64) (owner : Byte)
  /-- SPD_PWR (R422): A write of SPD_PWR powers bank groups off when unowned, or wakes them with zeroing. -/
  | spdPwr (req : BitVec 16)
  /-- ZEROING_DONE (R422): A woken group's zeroing ends and held accesses are judged. -/
  | zeroingDone (g : Fin 16)
  /-- PATROL_SEGMENT (R423): At each patrol interval one segment is saved, tested and restored. -/
  | patrolSegment (out : PatrolOutcome)
  /-- LID_OPENED (R426): The lid switch opens, starting a secure-bank wipe and a tamper fault. -/
  | lidOpened
  /-- VOLTAGE_GLITCH (R426): The voltage glitch detector trips, starting a wipe and a tamper fault. -/
  | voltageGlitch
  /-- CLOCK_GLITCH (R426): The clock glitch detector trips, starting a wipe and a tamper fault. -/
  | clockGlitch
  /-- SECURE_WIPE_DONE (R426): A secure-bank wipe and its verification end, and the keys and life-cycle record are reloaded or a class F fault raised. -/
  | secureWipeDone (verified : Bool)
  /-- LEDGER_RECORD_WRITE (R429): The ledger writes a pending record in three verified steps, retiring failed slots. -/
  | ledgerRecordWrite (badSlots : Nat)
  /-- POWER_FAIL_SNAPSHOT (R431): Once any begun record completes, the flow snapshot is written into the next region. -/
  | powerFailSnapshot
  /-- FAB_APBASE (R446): A write of FAB_APBASE moves the BAR4 aperture, or is refused with APREJ. -/
  | fabApbase (v : BitVec 64)
  /-- REMAP (R449): A management-core write of FAB_CTL.REMAP from 0 to 1 aliases the boot window to the scratchpad. -/
  | remap (m : Byte) (v : Bool)
  /-- DMA_START (R469): A write of DMA_CCTL.START fetches a channel's chain from DMA_CDESC. -/
  | dmaStart (c : DmaChan)
  /-- ABORT (R466): A write of DMA_CCTL.ABORT stops the channel at the end of its burst with status ABORTED. -/
  | abort (c : DmaChan)
  /-- DMA_RESUME (R465): A write of DMA_GCTL.RESUME clears HALTED and restarts halted descriptors. -/
  | dmaResume
  /-- DESCRIPTOR_FETCH (R457): A fetched descriptor is checked and starts moving, or ends DESC_ERR. -/
  | descriptorFetch (c : DmaChan)
  /-- DESCRIPTOR_END (R461): A descriptor's last write completes; CRC, write-back, IRQ and next fetch follow. -/
  | descriptorEnd (c : DmaChan)
  /-- BUS_ERROR (R463): An error response to a DMA access halts every channel. -/
  | busError (addr : BitVec 40) (ty : BitVec 4) (collide : Bool)
  /-- DONE_ERR (R464): An error response to a descriptor's last write ends it DONE_ERR and halts the other channels. -/
  | doneErr (c : DmaChan)
  /-- AUTORES (R465): 10 ms after a halt the management core resumes the DMA engine. -/
  | autores
  /-- FAULT_MESSAGE (R474): A fault message is captured or merged, escalated if needed, and its reaction level applied. -/
  | faultMessage (m : Option FaultMsg)
  /-- FLT_ACK (R478): A write of FLT_ACK acknowledges a source and class as FAULT_ACK does. -/
  | fltAck (v : Word)
  /-- FLT_REACT (R494): A write of FLT_REACT sets the viewed source and class's reaction, or is refused with REACTREJ. -/
  | fltReact (m : Byte) (v : Word)
  /-- MRST_N_ASSERTED (R512): An assertion of MRST_N begins a warm reset and holds it at self-refresh entry. -/
  | mrstNAsserted
  /-- MRST_N_RELEASED (R512): Release of MRST_N lets the held warm reset complete. -/
  | mrstNReleased
  /-- WARM_RESET (R513): A warm reset snapshots flows, enters self-refresh, reloads firmware and resumes recomputation and acceptance. -/
  | warmReset
  /-- POWER_FAIL_WARNING (R508): The supply loss signal or the bus below 11.4 V asserts PFW_N and freezes acceptance, dealing and draining. -/
  | powerFailWarning (loss : Bool) (mv : BitVec 16)
  /-- FLUSH_COMPLETE (R508): The snapshot and begun merges and records complete, and deferred L4 reactions are made. -/
  | flushComplete
  /-- BUS_BELOW_10_8_V (R509): The bus falls below 10.8 V and every domain except 161 and 163 is held in reset and switched off. -/
  | busBelow108V
  /-- SUPPLY_RECOVERED (R510): After 1 ms at or above 11.6 V with the loss signal clear, the freezes are lifted with no reset. -/
  | supplyRecovered
  /-- COLD_START (R515): Mains applied or the bus restored starts the cold-start sequence from straps to ledger scan and recovery. -/
  | coldStart (c : ColdInput)
  /-- READY (R518): READY is asserted once firmware, stacks, self-test, scan, recovery and bundles are done. -/
  | ready
  /-- STRAP_CHANGE (R499): A strap changed after latching sets STRAPCHG and has no other effect. -/
  | strapChange (live : BitVec 15)
  /-- RAIL_FAULT (R506): A rail leaving regulation switches its domain off, with its block's consequence. -/
  | railFault (d : Fin 164)
  /-- THERMAL_TRIP (R522): A core junction held at 110 °C for 1 s trips, flushing and powering down before a cold start. -/
  | thermalTrip
  /-- FAN_FAILED (R473): A fan fails and a thermal fault is raised. -/
  | fanFailed (i : Fin 6)
  /-- INLET_AIR_ABOVE_40 (R522): Inlet air above 40 °C raises a thermal fault of kind 3. -/
  | inletAirAbove40 (t : Byte)
  /-- PCIE_LINK_DOWN (R473): The PCI Express link goes down or the host fundamental reset is asserted. -/
  | pcieLinkDown
  /-- PCIE_LINK_TRAINED (R71): The PCI Express link trains, possibly below x16 at 64 GT/s, slowing host drain. -/
  | pcieLinkTrained (width : Nat) (rateGT : Nat)
  /-- WEIGHT_COMMAND_COMPLETE (R233): A running weight-write or weight-copy finishes writing the shadow set, sends its completion and lets the next held weight command begin. -/
  | weightCommandComplete
  /-- TABLE_LOAD_COMPLETE (R354): A PLAN_LOAD_TABLE operation ends with the edit copy holding the table and sends DONE. -/
  | tableLoadComplete
  /-- STATS_SEND_COMPLETE (R280): A statistics send finishes writing its stream, sends its completion and frees the bank for waiting statistics commits. -/
  | statsSendComplete
  /-- KERNEL_LOAD_COMPLETE (R328): A kernel image's verification and storage in its slot end, with DONE or a refusal in the completion. -/
  | kernelLoadComplete (slot : Fin 4)
  /-- FW_COMMIT_COMPLETE (R354): Signature verification of a firmware image ends, marking it for the next boot with DONE or completing with REJ_AUTH. -/
  | fwCommitComplete (sigOk : Bool)
  /-- SELFTEST_COMPLETE (R354): A block self-test started by SELFTEST ends with DONE or ERR_INTERNAL naming the failure. -/
  | selftestComplete (pass : Bool) (source : BitVec 16) (kind : Byte)
  /-- DMA_BURST_COMPLETE (R458): A channel's DMA burst of at most 1 KiB completes, and the engine picks the next burst by strict priority and round-robin. -/
  | dmaBurstComplete
  /-- INTERFACE_LOCK_REGAINED (R404): A stack interface that lost lock regains it within 10 ms, so the stack is not lost and its capture's LIVE bit falls. -/
  | interfaceLockRegained (s : StackId)
  /-- FAULT_CONDITION_CLEARED (R482): A source reports that the condition that raised its captured fault no longer holds, and the capture's LIVE bit becomes 0. -/
  | faultConditionCleared (source : Fin 1024) (cls : Fin 3)
  /-- PRBS_CHECKER_LOCK (R106): The PRBS checker sees 64 consecutive error-free bits, declares lock and starts counting compared and errored bits. -/
  | prbsCheckerLock (l : Lane)
  /-- PRBS_CHECKER_LOCK_LOST (R106): The PRBS checker sees 32 errored bits in 256 consecutive bits, loses lock and stops counting until it relocks. -/
  | prbsCheckerLockLost (l : Lane) (compared : Nat) (errored : Nat)
  /-- UART_BOOT_IMAGE_RECEIVED (R516): A firmware image arrives over the service UART while the boot ROM waits with BOOT = 11 or no verifiable flash image, and is verified and run. -/
  | uartBootImageReceived (sigOk : Bool)
  /-- JTAG_INSTRUCTION (R501): An IEEE 1149.1 instruction such as IDCODE, EXTEST, CLAMP or BYPASS is loaded through the TAP, taking effect as test mode allows. -/
  | jtagInstruction (i : TapInstr)
  /-- SENSORS_BELOW_85_C (R522): After a thermal trip, every sensor reads below 85 °C and the module begins a cold start. -/
  | sensorsBelow85C
  /-- FUNDAMENTAL_RESET_RELEASED (R515): The host releases the cable's fundamental reset, so domain 134 is powered and the PCI Express reset is released. -/
  | fundamentalResetReleased
  /-- PWR_MINRST_REARM (R524): A write of PWR_MINRST.REARM restarts PWR_VBUS.MINMV from the next measurement. -/
  | pwrMinrstRearm
  deriving DecidableEq, Repr

end Sys2Proof
end

