-- ==== Sys2Proof/Decode.lean ====
section
/-! DEFINITION. The command a table word spells. The opcode table gives no row any bits (every row's
fields are empty), so no word spells a command. -/

namespace Sys2Proof

/-- The command whose table bits are `w`; none, since no row has bits. -/
def decodeTableWord (_nbits _w : Nat) : Option Instr := none

end Sys2Proof
end

