-- ==== Sys2Proof/Config.lean ====
section
/-! DEFINITION. What an implementation fixes and the manual leaves open: constants WITHOUT a body, so
that no proof can see a value. `freeBits n` is the n-th free value a run draws (State.fresh counts). -/

namespace Sys2Proof.Machine

/-- The settings of an egress port (R281): MAC addresses, VID and PCP of the tag if there is one, the IP version, the
addresses (an IPv4 address in the low 32 bits), DSCP, TTL or hop limit, UDP ports. -/
structure PortSettings where
  dstMac : BitVec 48
  srcMac : BitVec 48
  vlan : Option (BitVec 16 × BitVec 8)
  ipv6 : Bool
  srcIp : BitVec 128
  dstIp : BitVec 128
  dscp : BitVec 8
  ttl : BitVec 8
  srcPort : BitVec 16
  dstPort : BitVec 16
  deriving DecidableEq, Repr, Inhabited

end Sys2Proof.Machine

namespace Sys2Proof.Config

/-- DESIGN CHOICE (log 2): the n-th free value: entropy (R132), NaN payloads (R317), undefined registers
at a kernel's entry (R330), flags and lanes the manual leaves open. -/
opaque freeBits : Nat → BitVec 64
/-- DESIGN CHOICE (log 5): the HBM offset the module's own allocator gives to its n-th region. -/
opaque allocBase : Nat → BitVec 37
/-- What the factory's calibration of an engine's start voltage found (R212); UNVERIFIED values (log 6). -/
opaque calMv : EngineId → BitVec 10
/-- Factory-calibrated start voltage of an engine in mV: a value of its rail, from 600 to 820 in steps of 5 (R212). -/
def calRail (e : EngineId) : Nat := 600 + 5 * ((calMv e).toNat % 45)
/-- Address of the interrupt vector of a cause (R322); the manual gives none (log 8). -/
opaque vector : IrqCause → BitVec 13
/-- Address of the trap vector (R324); the manual gives none (log 8). -/
opaque trapVector : BitVec 13
/-- Whether the module is ordered as OGX-4096-MA rather than OGX-4096-ME (R3; log 6). -/
opaque orderedMa : Bool
/-- Serial number of the module (IDENTIFY, R354; log 6). -/
opaque serial : BitVec 64
/-- Version of flash image A (false) or B (true) (IDENTIFY, R354; log 6). -/
opaque imageVersion : Bool → BitVec 32
/-- Content of the boot ROM (R449; log 6). -/
opaque bootRom : Nat → Byte

/-- Bank that holds the chunks of a line: the placement within a pseudo-channel is internal (R401, R403; log 15). -/
opaque hbmBank : Nat → BitVec 8
/-- Bits that the on-die entropy source gives for the n-th draw of an activate (R412; log 2). -/
opaque entropy : Nat → BitVec 13
/-- Line of the HBM system area that holds an item (`sysCommit` and those after it; below 64 the checkpoint of a zoom slot), and
line of the averaging buffer's n-th line of cells: the manual gives neither place (R65, R401; log 5). -/
opaque sysLine : Nat → BitVec 26
opaque avgLine : Nat → BitVec 26

/-- Whether a byte of the secure bank holds a key: the manual does not publish the places (R425, R426; log 9). -/
opaque keyPlace : Nat → Bool

/-- The phase bit of the first pass round a completion queue (R346 states only the inversion; log 2). -/
opaque firstPhase : Nat → Bool

/-- What the 64 bytes of a port's settings say (R281 names the settings, not their layout; log 9). -/
opaque portSettings : List Byte → Machine.PortSettings

/-- Input power at the inlet in W, averaged over the n-th second (R524); no command carries the measurement (log 2). -/
opaque inputWatts : Nat → BitVec 12

/-- The 12 V bus in mV and the inlet air in °C at a clock time, which no command measures in normal running (R524; log 2). -/
opaque busMv : Nat → BitVec 16
opaque inletAir : Nat → BitVec 8

/-- Place of each bit of STATUS in the word that MOVS moves: 0 Z, 1 N, 2 C, 3 O, 4 IE, 5 KMODE, 6 LARM,
7 NSAT (R305 names the bits, not their places; log 8). -/
opaque statusPos : Nat → BitVec 5

end Sys2Proof.Config
end

