-- ==== Sys2Proof/Machine/Bytes.lean ====
section
/-! DEFINITION. Byte order (R7), the two checksums of the formats (R113), and readers of byte lists. -/

namespace Sys2Proof.Machine

/-- Little-endian value of a list of bytes (R7). -/
def leVal : List Byte → Nat
  | [] => 0
  | b :: r => b.toNat + 256 * leVal r

/-- The `n` little-endian bytes of a value (R7). -/
def leBytes : Nat → Nat → List Byte
  | 0, _ => []
  | n + 1, v => BitVec.ofNat 8 v :: leBytes n (v / 256)

/-- `n` bytes from offset `o`; bytes beyond the end read as nothing. -/
def slice (l : List Byte) (o n : Nat) : List Byte := (l.drop o).take n

/-- The little-endian field of `n` bytes at offset `o` of a format. -/
def fieldAt (l : List Byte) (o n : Nat) : Nat := leVal (slice l o n)

/-- Two's complement reading of a `w`-bit value. -/
def signed (w v : Nat) : Int := if 2 * (v % 2 ^ w) < 2 ^ w then (v % 2 ^ w : Nat) else (v % 2 ^ w : Nat) - (2 ^ w : Nat)

/-- Two's complement `w`-bit code of an integer. -/
def code (w : Nat) (v : Int) : Nat := (v % (2 ^ w : Nat)).toNat

/-- The integer clamped to `w` bits of two's complement. -/
def clampTo (w : Nat) (v : Int) : Int :=
  if v < -(2 ^ (w - 1) : Nat) then -(2 ^ (w - 1) : Nat)
  else if (2 ^ (w - 1) : Nat) - 1 < v then (2 ^ (w - 1) : Nat) - 1 else v

/-- One bit of the reflected CRC-32C register. -/
def crc32cBit (c : Nat) : Nat := if c % 2 = 1 then (c / 2) ^^^ 0x82F63B78 else c / 2

/-- One byte into the CRC-32C register. -/
def crc32cByte (c : Nat) (b : Byte) : Nat := Nat.repeat crc32cBit 8 (c ^^^ b.toNat)

/-- CRC-32C of RFC 3720 over a list of bytes, the register started at `seed`, before the last inversion. -/
def crc32cFrom (seed : Nat) (l : List Byte) : Nat := l.foldl crc32cByte seed

/-- CRC-32C of RFC 3720 (R113, R339, R428). -/
def crc32c (l : List Byte) : Nat := crc32cFrom 0xFFFFFFFF l ^^^ 0xFFFFFFFF

/-- The `n` big-endian bytes of a value, as network headers hold it. -/
def beBytes (n v : Nat) : List Byte := (leBytes n v).reverse

/-- CRC-32 of IEEE 802.3, the Ethernet FCS, sent least significant byte first (R283; PRESUMED, log 31). -/
def fcs (l : List Byte) : List Byte :=
  leBytes 4 (l.foldl (fun c b => Nat.repeat (fun c => if c % 2 = 1 then (c / 2) ^^^ 0xEDB88320 else c / 2) 8 (c ^^^ b.toNat))
    0xFFFFFFFF ^^^ 0xFFFFFFFF)

/-- Sum of the 16-bit big-endian words of a list, an odd last byte filled with zero. -/
def sum16 : List Byte → Nat
  | a :: b :: r => 256 * a.toNat + b.toNat + sum16 r
  | [a] => 256 * a.toNat
  | [] => 0

/-- The Internet checksum of a 16-bit sum: the complement of its ones' complement fold (R283; PRESUMED, log 31). -/
def inetSum (n : Nat) : Nat := 0xFFFF - (if n = 0 then 0 else (n - 1) % 0xFFFF + 1)

/-- One bit of the CRC-16 register, most significant bit first. -/
def crc16Bit (c : Nat) : Nat := if c / 2 ^ 15 % 2 = 1 then (c * 2 % 2 ^ 16) ^^^ 0x1021 else c * 2 % 2 ^ 16

/-- One byte into the CRC-16 register. -/
def crc16Byte (c : Nat) (b : Byte) : Nat := Nat.repeat crc16Bit 8 (c ^^^ (b.toNat * 256))

/-- HCRC: x^16 + x^12 + x^5 + 1, started at 0xFFFF, no reflection and no inversion (R113). -/
def crc16 (l : List Byte) : Nat := l.foldl crc16Byte 0xFFFF

/-- Round half up of a quotient (R40). -/
def roundHalfUp (a b : Nat) : Nat := (2 * a + b) / (2 * b)

/-- Exact quotient rounded up. -/
def ceilDiv (a b : Nat) : Nat := (a + b - 1) / b

/-- Number of set bits of the low `w` bits. -/
def popcount : Nat → Nat → Nat
  | 0, _ => 0
  | w + 1, n => n % 2 + popcount w (n / 2)

/-- Bytes of a plain ASCII string. -/
def ascii (s : String) : List Byte := s.toList.map (fun c => BitVec.ofNat 8 c.toNat)

/-- A list of bytes cut or filled with zero to length `n`. -/
def padTo (n : Nat) (l : List Byte) : List Byte := (l ++ List.replicate (n - l.length) 0).take n

end Sys2Proof.Machine
end

