-- ==== Sys2Proof/Machine/State.lean ====
section
/-! DEFINITION. The state of the block as plain data. Register fields live in `regs`, one word per
register (keyed by its offset in the register space), except where a docstring below says that a field
here is the home and the register is a view of it. Everything else the manual gives the module is one of
the records below. -/

namespace Sys2Proof.Machine

/-- No command stops the machine: the manual's faults are messages to the fault collector (R470), error
responses and traps of an engine core, all of them effects on the state. So there is no constructor. -/
inductive Fault where
  deriving DecidableEq, Repr

/-- Why a command may have no meaning. -/
inductive Refusal where
  /-- Raised by an arm of `exec` whose command has no meaning yet. Safe: the run stops. -/
  | notModelled (mnemonic : String)
  deriving DecidableEq, Repr

/-- The counter-to-time mapping of R40. -/
structure Mapping where
  t0Sec : Nat
  t0Ns : Nat
  p : Nat
  q : Nat
  deriving DecidableEq, Repr

/-- Lane state beyond its registers (R84 to R91, R103). -/
structure LaneX where
  ownPass : Bool := false
  peerPass : Bool := false
  /-- the lane has no position: a home spare or a lane of another endpoint (R84) -/
  spare : Bool := false
  offered : Bool := false
  agreed : Nat := 0
  /-- clock times of recent uncorrectable codewords (R90) -/
  uncTimes : List Nat := []
  /-- consecutive 1 s measurements above 10^-4 (R91) -/
  badSecs : Nat := 0
  /-- item number of its repair map entry, 0 none (R528) -/
  item : Nat := 0
  /-- leaving by LANE_RELEASE once the epoch opens (R103) -/
  releasing : Bool := false
  /-- taking its home role by LANE_RESTORE (R101) -/
  homing : Bool := false
  /-- out of service by a degrade swap once the epoch opens (R91) -/
  swapped : Bool := false
  /-- line bits seen by the checker so far, the line bit up to which an injected burst reaches, and the latest errored
  bits within 256 (R106, R107) -/
  seen : Nat := 0
  burstTo : Nat := 0
  errs : List Nat := []
  /-- injected runs of errors that a raw word can still show: the bit before each, and its length (R107, R108) -/
  bursts : List (Nat × Nat) := []
  /-- where the generator's sequence starts (R105) -/
  seed : Nat := 0
  deriving DecidableEq, Repr

/-- A change of the lanes in service that is announced and not yet opened (R94, R95). -/
structure EpochChange where
  mask : Nat
  map : List Nat
  replace : List Nat
  epoch : Nat
  reason : Nat
  planned : Bool
  deriving DecidableEq, Repr

/-- Bundle state beyond its registers (R84, R94). -/
structure BundleX where
  gathering : Bool := false
  fixed : Option Nat := none
  change : Option EpochChange := none
  /-- DOWN since its last lane was lost, with its link-layer state and sessions held (R99) -/
  lost : Bool := false
  deriving DecidableEq, Repr

/-- What a lane of a bundle carries (R92, R93): an 8-byte word, or a stripe marker with position and epoch. -/
inductive StripeItem where
  | word (bytes : List Byte)
  | marker (position epoch : Nat)
  deriving DecidableEq, Repr

/-- The deal of a bundle's byte stream to its lanes (R92 to R94): the positions under which words are dealt, a bit each,
those of the last epoch opened; bytes that make no whole word yet, the position after the one that took the last word, and
words on each lane since its last marker. -/
structure Stripe where
  set : Nat := 0
  rest : List Byte := []
  next : Nat := 0
  rounds : Nat := 0
  deriving DecidableEq, Repr

/-- The link layer of a bundle beyond `VSN_L*` (R117 to R125). -/
structure Link where
  /-- discarding until the NACKed sequence arrives intact (R120) -/
  rxWait : Bool := false
  /-- no EOU ended the last unit: the module does not scan for SOU (R117) -/
  lostEou : Bool := false
  failLseq : Nat := 0
  failCount : Nat := 0
  /-- LSEQ and clock of the last NACK (R120) -/
  lastNack : Option (Nat × Nat) := none
  /-- units sent and not yet covered by LACK (R119, R121) -/
  unacked : List (Nat × List Byte) := []
  /-- frames waiting for a free link sequence (R119) -/
  txq : List (List Byte) := []
  /-- frames in the receive buffer not yet decided, in link order (R149) -/
  rxq : List (List Byte) := []
  /-- clock times of recent credit overruns (R125) -/
  ovrTimes : List Nat := []
  /-- credits freed and not yet returned through CLIMIT (R152, R214) -/
  owed : Nat := 0
  tx : Stripe := {}
  deriving DecidableEq, Repr

/-- Session state beyond `VSN_S*` (R126 to R132). -/
structure SessionX where
  nonce : Nat := 0
  lastEpoch : Nat := 0
  kind : Nat := 0
  /-- a warm reset has occurred since the session was last granted (R156) -/
  warmSince : Bool := false
  /-- KIND of its first resume after a cold start, 3 or 4; 0 none (R157, R158) -/
  coldKind : Nat := 0
  /-- REASON of the SRESET sent last -/
  resetReason : Nat := 0
  /-- types and payloads of the SGRANT and FSTATE frames of the last grant, while it waits for SREADY (R128) -/
  answer : List (Nat × List Byte) := []
  /-- flows whose ACK entries PIGGY repeats, newest first (R148; log 30) -/
  acks : List Nat := []
  /-- a close that waits for the end of a suspension: the action of its event, 0 none (R152) -/
  closeDue : Nat := 0
  /-- tokens that sessions of this slot have had (R131) -/
  tokens : List Nat := []
  deriving DecidableEq, Repr

/-- Flow state beyond `VSN_F*` (R134 to R146, R294). -/
structure FlowX where
  /-- next sequence to check (R144) -/
  h : Nat := 0
  /-- counter expected for the frame with sequence e -/
  exp : Nat := 0
  /-- held frames in sequence from e, each behind the bundle whose credits it keeps -/
  held : List (Nat × List Byte) := []
  anchorSeq : Nat := 0
  anchorCount : Nat := 0
  /-- frames below this counter lie in tricks that a power loss destroyed (R157) -/
  lateBelow : Nat := 0
  lossFirst : Nat := 0
  lossCount : Nat := 0
  /-- a gap is open: NACK_SEQ was sent at this clock (R150) -/
  nackAt : Option Nat := none
  deriving DecidableEq, Repr

/-- A range channel (k, l) of the deck (R168 to R183). -/
structure RangeChan where
  openAt : Option Nat := none
  closed : Bool := false
  cut : Bool := false
  /-- hand units whose lines are all merged, a bit each (R203) -/
  units : Nat := 0
  merged : Bool := false
  stats : Bool := false
  deriving DecidableEq, Repr

/-- A statistics entry (R178). -/
structure StatEntry where
  sump : Nat := 0
  sump2 : Nat := 0
  valid : Nat := 0
  missing : Nat := 0
  flagged : Nat := 0
  skfail : Nat := 0
  sat : Bool := false
  deriving DecidableEq, Repr

/-- A range channel that the cut is sending (R181, R184): blocks in the order of R174 from number `next` up to `stop`, to
every engine that needs them or, read again, to the engines `dest`. -/
structure CutRead where
  t : Nat
  ch : Nat
  dest : Option (List Nat)
  next : Nat
  stop : Nat
  deriving DecidableEq, Repr

/-- The deck's control state and the cut (R163 to R184). The samples themselves are bytes of the HBM. -/
structure Deck where
  /-- keyed by 1024 (t ÷ 4096) + l, where t is the first counter of the range -/
  chans : Tbl RangeChan := []
  /-- presence counts, keyed by 2^16 (range channel key) + 2^8 compact group + run -/
  presence : Tbl Nat := []
  /-- groups whose beam partial of a run was handed on, a bit each, keyed by 2^16 (range channel key) +
  2^8 block + run -/
  handed : Tbl Nat := []
  /-- valid vectors, 64 bits each, keyed as the presence counts -/
  valid : Tbl Nat := []
  /-- statistics staging, keyed by 2^12 (range channel key) + compact signal -/
  staging : Tbl StatEntry := []
  /-- first counter not yet closed (released), keyed by 2^10 (plan id) + channel; 0 stands for the plan's D -/
  closedTo : Tbl Nat := []
  releasedTo : Tbl Nat := []
  /-- ranges of freed plans below this counter are closed -/
  closedBefore : Nat := 0
  /-- the range channel the cut takes next: first counter and channel index -/
  cutT : Nat := 0
  cutCh : Nat := 0
  /-- what the cut has still to send of the range channels it has taken: those read again first (R181, R184) -/
  reads : List CutRead := []
  /-- first counter of the newest range that has opened since the deck was last empty (R185) -/
  newest : Option Nat := none
  /-- intervals that do not count towards deadlines, newest first, and the start of the present one (R171) -/
  pauses : List (Nat × Nat) := []
  pauseAt : Option Nat := none
  /-- changes of DEADLINE, newest first: when, and the value before (R171) -/
  dlHist : List (Nat × Nat) := []
  deriving DecidableEq, Repr

/-- A cell of a short accumulator (R189). -/
structure ShortCell where
  re : Int := 0
  im : Int := 0
  count : Nat := 0
  deriving DecidableEq, Repr

/-- STATUS of an engine core (R305). -/
structure CoreStatus where
  z : Bool := false
  n : Bool := false
  c : Bool := false
  o : Bool := false
  ie : Bool := false
  kmode : Bool := false
  larm : Bool := false
  nsat : Bool := false
  deriving DecidableEq, Repr

/-- An address register (R305, R312, R313): `pend` is the LENGTH written and not yet in effect. -/
structure AddrReg where
  offset : Nat := 0
  base : Nat := 0
  length : Nat := 0
  step : Int := 0
  pend : Option Nat := none
  deriving DecidableEq, Repr

/-- A block of the block exponent (R316). -/
structure BxBlock where
  w : Nat := 2
  any : Bool := false
  lo : Int := 0
  hi : Int := 0
  deriving DecidableEq, Repr

/-- The programmable core of an engine (R305). PC, KMODE, HALTED, IE and LEVEL of `ENG_CSTAT` are views
of it. `calls` holds the return addresses (DEDUCED, log 8). -/
structure CoreState where
  pc : Nat := 0
  st : CoreStatus := {}
  epc : Nat := 0
  est : CoreStatus := {}
  halted : Bool := true
  waiting : Bool := false
  d : Tbl Word := []
  a : Tbl AddrReg := []
  v : Tbl Word := []
  acc : Tbl Int := []
  accSat : Tbl Bool := []
  lstart : Tbl Nat := []
  lend : Tbl Nat := []
  lcount : Tbl Nat := []
  level : Nat := 0
  calls : List Nat := []
  bx : BxBlock := {}
  x : Tbl Word := []
  y : Tbl Word := []
  /-- bytes of the program memory (R306) -/
  prog : Tbl Byte := []
  /-- PC, STATUS and return addresses of the firmware while a kernel call runs -/
  fw : Option (Nat × CoreStatus × List Nat) := none
  /-- kernel steps of the current call (R335) -/
  ksteps : Nat := 0
  /-- an interrupt handler is running inside the call (R331) -/
  inHandler : Bool := false
  deriving DecidableEq, Repr

/-- A range channel whose allotment an engine has still to begin (R197), and whether it is read again (R184). -/
structure RunDesc where
  t : Nat
  ch : Nat
  replay : Bool
  deriving DecidableEq, Repr

/-- A block in an engine's input buffer (R181): the samples of one run of compact group `grp`, those of muck runs 0, and
the 64 valid bits before them. -/
structure Block where
  t : Nat
  ch : Nat
  run : Nat
  grp : Nat
  valid : Nat
  data : List Byte
  deriving DecidableEq, Repr

/-- An engine beyond its registers (R186 to R198). -/
structure Engine where
  core : CoreState := {}
  /-- short accumulators, keyed by 2^12 (2^16 bank + unit) + cell -/
  short : Tbl ShortCell := []
  /-- hand-runs completed, keyed by 2^8 (2^16 bank + unit) + run -/
  done : Tbl Bool := []
  /-- the range channel (first counter, channel) each bank holds -/
  bank0 : Option (Nat × Nat) := none
  bank1 : Option (Nat × Nat) := none
  /-- allotments not yet begun, and the input buffer (R181, R186, R197) -/
  inbuf : List RunDesc := []
  blocks : List Block := []
  /-- array cycles and busy ns of the last measurement of its rate (R212) -/
  meas : Option (Nat × Nat) := none
  /-- id of the plan whose kernel image was copied into the engine (R328) -/
  kplan : Option Nat := none
  /-- consecutive measurements above 1.03 TARGET (R212) -/
  fast : Nat := 0
  /-- stopped at the end of its run by a supply freeze (R200) -/
  stopped : Bool := false
  item : Nat := 0
  /-- bytes written through the window to places of the input buffer and the banks that nothing else fills (R306; log 9) -/
  win : Tbl (Option Byte) := []
  deriving DecidableEq, Repr

/-- A plan slot (R360): bytes of its sections, keyed by 2^32 section + offset. -/
structure PlanSlot where
  edit : Tbl Byte := []
  shadow : Tbl Byte := []
  built : Bool := false
  admitted : Bool := false
  flags : Nat := 0
  figures : List (Nat × Nat) := []
  deriving DecidableEq, Repr

/-- An active copy of a plan (R360): its bytes, its deal counter, its number of positions and, once the
next deal is made, the counter at which it ends; HBM offsets of its deck buffers, its long accumulator
buffers (none while not allocated, R66, R166) and its statistics banks (R180). -/
structure ActivePlan where
  slot : Nat
  id : Nat
  data : Tbl Byte
  d : Nat
  e : Nat
  ends : Option Nat := none
  deck0 : Option Nat := none
  deck1 : Option Nat := none
  acc0 : Option Nat := none
  acc1 : Option Nat := none
  stat0 : Nat := 0
  stat1 : Nat := 0
  /-- image of the output kernel that the plan took at its deal (R328) -/
  kernel : List Byte := []
  deriving DecidableEq, Repr

/-- A pending plan deal (R363). `slot = none` deals no plan. -/
structure PlanDeal where
  slot : Option Nat
  d : Nat
  deriving DecidableEq, Repr

/-- A weight command in order (R233, R234). -/
structure WeightCmd where
  copy : Bool
  kind : Nat
  phys : Nat
  geo : Option WeightGeom
  off : Nat
  data : List Byte
  running : Bool
  dsn : Nat
  deriving DecidableEq, Repr

/-- What a long operation in progress is (R343). -/
inductive LongKind where
  | planDeal
  | weightDeal (kinds : Nat) (d : Nat)
  /-- boundary, and the DSN of the command (R526) -/
  | trickClose (boundary dsn : Nat)
  | zoomChange (slot : Nat) (set : ZoomSettings) (c : Nat)
  | weight (w : WeightCmd)
  | tableLoad (slot sect : Nat) (bytes : List Byte)
  | statsSend (trick part : Nat)
  | laneRelease (lane : Nat)
  | laneRestore (lane : Nat)
  | engineRestore (engine : Nat)
  | kernelLoad (slot : Nat) (image : List Byte)
  | fwCommit (image : Nat)
  | lifecycle (target : Nat)
  | selftest (block : Nat)
  deriving DecidableEq, Repr

/-- A long operation in progress (R343); `dsn` is the DSN at which its command was ordered. -/
structure LongOp where
  src : Src
  tag : Word
  opcode : Nat
  kind : LongKind
  dsn : Nat
  deriving DecidableEq, Repr

/-- A numbered event (R359, R526). -/
structure Event where
  port : Nat
  code : Nat
  source : Nat
  counter : Nat
  arg : Nat
  sec : Nat
  ns : Nat
  dsn : Nat
  deriving DecidableEq, Repr

/-- A Winos packet the module sends (R339): parameters as (bytes, value) pairs in order. -/
structure Packet where
  src : Src
  kind : Nat
  opcode : Nat
  rpt : Bool
  lost : Bool
  tag : Word
  dsn : Nat
  status : Nat
  detail : Nat
  params : List (Nat × Nat)
  deriving DecidableEq, Repr

/-- What the descriptor of a zoom packet states of its outputs (R278). -/
structure ZoomDesc where
  cset : Nat
  dec : Nat
  skew : Nat
  minc : Nat
  j : Nat
  unsFirst : Nat := 0xFFFF
  unsN : Nat := 0
  fadFirst : Nat := 0xFFFF
  fadN : Nat := 0
  deriving DecidableEq, Repr

/-- An output packet (R273); the transmit time-stamp is added when it leaves. `cap` is its capacity in
records, `sat` and `clamp` count its saturated records and clamped components. -/
structure Pkt where
  pseq : Nat
  ptype : Nat
  pfmt : Nat
  flags : Nat
  trick : Nat
  start : Nat
  tsec : Nat
  tns : Nat
  first : Nat
  chan : Nat
  nrec : Nat
  subid : Nat
  payload : List Byte
  cap : Nat := 1
  sat : Nat := 0
  clamp : Nat := 0
  zoom : Option ZoomDesc := none
  /-- place in its partition -/
  pos : Nat := 0
  /-- the 64 bytes of its plan's settings of the port it leaves from; none for the host (R281) -/
  port : List Byte := []
  deriving DecidableEq, Repr

/-- What a lane's line output carries (R109). -/
inductive LineOut where
  | off | idle | own | partner
  deriving DecidableEq, Repr

/-- A message that left the module. The list of them is the model's own record (log 3). -/
inductive Msg where
  | lane (l : Nat) (bytes : List Byte)
  /-- a unit of a bundle's link layer, and what it adds to the lanes at the positions of the bundle (R92) -/
  | unit (b : Nat) (bytes : List Byte) (items : List (Nat × StripeItem))
  | stripe (b : Nat) (items : List (Nat × StripeItem))
  | line (l : Nat) (o : LineOut)
  | winos (p : Packet)
  | msix (vec : Nat)
  | mgmtIrq
  | mgmtTrap
  | regRead (m : Nat) (off : Nat) (v : Word)
  | access (m : Nat) (ok : Bool) (data : List Byte)
  /-- the collision response to a port B access (R421) -/
  | collision (m : Nat)
  /-- a packet and the bytes that leave: its Ethernet frame, or what the host ring takes (R283, R297) -/
  | drained (part : Nat) (p : Pkt) (txSec txNs : Nat) (again : Bool) (bytes : List Byte)
  | ptp (q : Nat) (m : PtpMsg)
  | coreIrq (engine : Nat) (c : IrqCause)
  deriving DecidableEq, Repr

/-- The replies kept for a source (R344). -/
structure Kept where
  cmd : Instr
  reply : Packet
  completion : Option Packet
  deriving DecidableEq, Repr

/-- The dealer (R355 to R367). `dsn` is the home of `DLR_DSN`. -/
structure Dealer where
  dsn : Nat := 2 ^ 32
  exhausted : Bool := false
  events : List Event := []
  /-- port mask per queue pair, and whether events for it were dropped (R359) -/
  masks : Tbl Nat := []
  lost : Tbl Bool := []
  /-- management sources that have subscribed, each with its port mask (R359) -/
  mgmt : List (Src × Nat) := []
  kept : List Kept := []
  longs : List LongOp := []
  deal : Option PlanDeal := none
  /-- clock since when φ has been 64 during a pace deficit (R214) -/
  phiAt : Option Nat := none
  deriving DecidableEq, Repr

/-- Plans, their active copies and the tables that go with them (R360). -/
structure Plans where
  slots : Tbl PlanSlot := []
  active : Option ActivePlan := none
  outgoing : Option ActivePlan := none
  nextId : Nat := 1
  /-- regions the HBM allocator has given out (log 5) -/
  nextAlloc : Nat := 0
  ringGib : Nat := 8
  deriving DecidableEq, Repr

/-- A closed trick (R209, R279, R293), with the plan copy that its export follows. -/
structure Trick where
  first : Nat
  len : Nat
  plan : ActivePlan
  isOpen : Bool
  isPartial : Bool
  buf : Nat
  dsn : Nat
  exporting : Bool := false
  exported : Bool := false
  parts : Nat
  summed : Nat := 0
  released : Bool := false
  explicitRel : Bool := false
  held : Bool := false
  deriving DecidableEq, Repr

/-- The tricks of the module (R209, R294). -/
structure Tricks where
  /-- first counter of the accumulating trick -/
  cur : Option Nat := none
  /-- tricks whose first accepted frame was numbered (R153) -/
  seen : List Nat := []
  /-- first counters of the open-ended tricks that have closed (R153) -/
  starts : List Nat := []
  closed : List Trick := []
  /-- copies of plans whose ranges are all released while a trick of theirs has still to close -/
  past : List ActivePlan := []
  /-- first counter of the newest released trick (R292) -/
  newestRel : Option Nat := none
  deriving DecidableEq, Repr

/-- A change of a zoom slot that takes effect at counter `c`, by a deal or by ZOOM_CHANGE (R252, R254). -/
structure ZoomPend where
  use : Bool
  set : ZoomSettings
  c : Nat
  byDeal : Bool
  deriving DecidableEq, Repr

/-- A zoom slot (R248 to R255): its settings, CIC and filter state, inputs taken and not yet consumed,
outputs and marks. `inMark` is the counter after the last input taken, `outMark` the index after the last
output emitted. -/
structure ZoomSlot where
  inUse : Bool := false
  beam : Nat := 0
  chan : Nat := 0
  nc : Nat := 3
  dz : Nat := 4
  cset : Nat := 0
  dest : Nat := 0
  integ : List (Int × Int) := []
  comb : List (Int × Int) := []
  hist : List (Int × Int) := []
  fifo : List (Int × Int) := []
  /-- counter of the first input in the FIFO -/
  fifoAt : Nat := 0
  nextOut : Nat := 0
  unset : Nat := 0
  fade : Nat := 0
  oldSet : Nat := 0
  inMark : Nat := 0
  outMark : Nat := 0
  /-- smallest beam count of the runs that feed the next output, and that of each run in the FIFO -/
  counts : List (Nat × Nat) := []
  /-- counter from which the sums of its beam and channel are its inputs (R252) -/
  startAt : Nat := 0
  pend : Option ZoomPend := none
  /-- changes that follow the pending one, in the order of their counters -/
  later : List ZoomPend := []
  /-- inputs that the pending change's beam and channel have brought since its counter, the counter after them, and the
  beam counts of their runs (R252) -/
  nextFifo : List (Int × Int) := []
  nextMark : Nat := 0
  nextCounts : List (Nat × Nat) := []
  /-- changes of coefficient set or destination taken, oldest first, and those that a restored slot takes again (R255) -/
  taken : List ZoomPend := []
  redo : List ZoomPend := []
  deriving DecidableEq, Repr

/-- A checkpoint of a zoom slot (R255): its counter, whether it is the slot's start or restart there, and the slot. -/
structure ZoomCkpt where
  c : Nat
  start : Bool
  slot : ZoomSlot
  deriving DecidableEq, Repr

/-- Beam forming and zoom beyond `BMF_*`, `ZOM_*` (R233 to R255). -/
structure Beams where
  /-- counters D of the hand-overs of table (polynomial) sets whose earlier ranges are not all past, newest first (R234) -/
  tLock : List Nat := []
  pLock : List Nat := []
  tGeom : Tbl Nat := []
  /-- detection marks, keyed by 1024 block + channel: counter after the last run emitted (R239) -/
  mark : Tbl Nat := []
  /-- running power totals, keyed by 1024 beam + channel, and their smallest and largest counts -/
  power : Tbl Nat := []
  pmin : Tbl Nat := []
  pmax : Tbl Nat := []
  slots : Tbl ZoomSlot := []
  /-- checkpoints of a slot, newest first (R255) -/
  ckpt : Tbl (List ZoomCkpt) := []
  deriving DecidableEq, Repr

/-- One record to be written to a stream (R272, R276): its product's destination code, its stream (see
`Ring`), the header fields of a packet it begins, its bytes, whether it is saturated, its clamped
components, the capacity of a packet. `cell` marks the RAW word of a cell that waits for the kernel. -/
structure Rec where
  dest : Nat
  stream : Nat
  ptype : Nat
  pfmt : Nat
  trick : Nat
  start : Nat
  first : Nat
  chan : Nat
  subid : Nat
  flags : Nat
  bytes : List Byte
  clamp : Nat := 0
  cap : Nat := 1
  cell : Bool := false
  /-- RAW word of the cell a kernel record was made from (R336) -/
  raw : List Byte := []
  zoom : Option ZoomDesc := none
  /-- `OUT_SATCNT` has counted it (R301, R336) -/
  counted : Bool := false
  deriving DecidableEq, Repr

/-- A partition of the output ring (R286 to R290). -/
structure Partition where
  inUse : Bool := false
  /-- place that the next packet takes -/
  head : Nat := 0
  queue : List Pkt := []
  retained : List Pkt := []
  resends : List Pkt := []
  /-- packets not yet complete, or complete and held until it is known whether they are the last, with
  their stream -/
  openPkts : List (Nat × Pkt) := []
  /-- PSEQ of the packet that was being sent at the power-fail warning and has not left since (R291) -/
  sending : Option Nat := none
  deriving DecidableEq, Repr

/-- The output stage (R260 to R300). -/
structure Outp where
  parts : Tbl Partition := []
  exporting : Option Nat := none
  todo : List Rec := []
  /-- plans whose producers may write, by id, and plans whose ring layout waits (R287) -/
  laid : List Nat := []
  layouts : List ActivePlan := []
  /-- packets begun per product since the plan's deal (R282) -/
  prod : Tbl Nat := []
  /-- per trick and partition: 16 trick + 4 p + 0 packets, + 1 saturated records, + 2 clamped components -/
  tally : Tbl Nat := []
  /-- averaging buffer, keyed by entry (R271) -/
  avgRe : Tbl Int := []
  avgIm : Tbl Int := []
  avgCount : Tbl Nat := []
  avgSat : Tbl Bool := []
  stallAt : Option Nat := none
  /-- time in stalls that have ended, in ns: with the present one the home of `OUT_STALLMS` (R301) -/
  stallNs : Nat := 0
  stallTrick : Nat := 0
  unsignalled : Nat := 0
  /-- clock of the first packet not yet signalled (R300) -/
  unsigAt : Nat := 0
  /-- ids of plans whose kernel has faulted (R336), the batch running: its engine and lanes, and the cells of the packet
  being assembled of each stream -/
  kfaults : List Nat := []
  batch : Option (Nat × Nat) := none
  batchNo : Nat := 0
  kcells : Tbl (List Rec) := []
  deriving DecidableEq, Repr

/-- A reference beyond its registers (R378 to R383). -/
structure RefX where
  ppsBad : Nat := 0
  wtrRun : Bool := false
  /-- device time of its latest PPS edge, the fraction in 2^-48 ns, and the clock then; none before the first -/
  ppsSec : Nat := 0
  ppsNs : Nat := 0
  ppsFrac : Nat := 0
  ppsAt : Option Nat := none
  /-- measurements in a row in which, unselected, it disagreed with the selection (R383) -/
  disCount : Nat := 0
  deriving DecidableEq, Repr

/-- A disagreement alarm (R383): the reference that was selected, the other one, and the measurements in a row in which they
agreed within 0.8 of the limit. -/
structure DisPair where
  sel : Nat
  other : Nat
  calm : Nat := 0
  deriving DecidableEq, Repr

/-- The delay line moved (R392): the device time in 2^-48 ns, and of PPSOUT and FRAMEOUT the number and the time of the last
edge before it. -/
structure PhaseMove where
  at48 : Int
  pps : Int × Int
  frame : Int × Int
  deriving DecidableEq, Repr

/-- The PTP slave beyond `PTP_*` (R393). -/
structure PtpX where
  rank : Option Nat := none
  major : Nat := 0
  minor : Nat := 0
  cfg : List Byte := []
  domain : Nat := 0
  logReq : Int := 0
  seq : Nat := 0
  /-- t1, t2, t3 of the current exchange in 2^-16 ns -/
  t1 : Int := 0
  t2 : Int := 0
  t3 : Int := 0
  syncCorr : Int := 0
  waitFollow : Option Nat := none
  syncPtpNs : Nat := 0
  syncAt : Nat := 0
  /-- a two-step Sync that waits for its Follow_Up: its arrival in PTP time, its correction, the clock then -/
  pendT2 : Int := 0
  pendCorr : Int := 0
  pendAt : Nat := 0
  /-- clock of the latest Sync, and log2 of the interval in seconds that it named (R378) -/
  lastSync : Nat := 0
  syncLog : Int := 0
  /-- offsetFromMaster and meanPathDelay in 2^-16 ns: `PTP_OFM` and `PTP_MPD` show them narrowed -/
  ofm : Int := 0
  mpd : Int := 0
  deriving DecidableEq, Repr

/-- The time base and the references (R368 to R392). Seconds, nanoseconds and epoch are the homes of
`TIM_SEC`, `TIM_NS`, `TIM_EPOCH`; `frac` counts 2^-48 ns. -/
structure TimeBase where
  sec : Nat := 0
  ns : Nat := 0
  frac : Nat := 0
  eps : Int := 0
  map : Option Mapping := none
  trimLow : Option Word := none
  steer : Int := 0
  goodTe : Nat := 0
  lockSecs : Nat := 0
  /-- the pairs of references that disagree, in the order in which they are compared (R383) -/
  disRefs : List DisPair := []
  /-- words of the registers as they are in effect until the next measurement, after REF_CFG has set them anew (R397) -/
  refWas : List (Nat × Word) := []
  phase : Option PhaseMove := none
  lastSel : Nat := 0
  refs : Tbl RefX := []
  ptp : PtpX := {}
  deriving DecidableEq, Repr

/-- The HBM data space (R401 to R416): bytes by offset from 0x10_0000_0000, side-band marks by line. -/
structure Hbm where
  mem : List Host.Cell := []
  tag : Tbl Nat := []
  layout : Tbl Bool := []
  poison : Tbl Bool := []
  /-- refresh debt and consecutive failed replays, keyed by 32 stack + pseudo-channel -/
  debt : Tbl Nat := []
  capFail : Tbl Nat := []
  lockLost : Tbl Bool := []
  /-- stripes that rebuilds have still to visit: stack, pseudo-channel or 32 for the whole stack, how many (R405, R407) -/
  jobs : List (Nat × Nat × Nat) := []
  /-- rows marked for repair and not yet repaired: pseudo-channel (32 stack + its number), location, item (R416) -/
  marked : List (Nat × Nat × Nat) := []
  /-- rows repaired per pseudo-channel -/
  repaired : Tbl Nat := []
  /-- clock times of corrected words, keyed by line (R416; log 15) -/
  rowCe : Tbl (List Nat) := []
  /-- item numbers of lost stacks and, at 6 + 32 stack + number, of retired pseudo-channels -/
  item : Tbl Nat := []
  /-- cumulative counts for MEM_STATUS (R438), keyed by 4 stack + which -/
  total : Tbl Nat := []
  /-- clock time at which the catch-up of a stack ends (R410) -/
  catchEnd : Tbl Nat := []
  /-- the open row of each bank, one more than its line, keyed by 2^8 (32 stack + pseudo-channel) + bank (R403; log 15) -/
  rows : Tbl Nat := []
  /-- draws of entropy made at activates, and neighbour refreshes of each stack since `HBM_SNRCNT` was read (R412) -/
  draws : Nat := 0
  near : Tbl Nat := []
  deriving DecidableEq, Repr

/-- The scratchpad (R417 to R424). -/
structure Spd where
  mem : List Host.Cell := []
  /-- redundant columns in use per bank, and columns recorded and not yet replaced: bank, column, item (R424) -/
  cols : Tbl Nat := []
  failed : List (Nat × Nat × Nat) := []
  /-- words that fault messages have named uncorrectable, by number (R417) -/
  bad : Tbl Bool := []
  /-- words that port A wrote in the bank cycle of a port B write: the DMA engine's next write of one meets them (R421; log 44) -/
  hits : List Nat := []
  deriving DecidableEq, Repr

/-- The secure bank (R425, R426): customer keys and, while a wipe runs, its life-cycle target. -/
structure Secure where
  keys : Tbl (List Byte) := []
  /-- bytes that the management core has written (R425; log 9) -/
  mem : Tbl (Option Byte) := []
  /-- a verified wipe has written zero to every word (R426) -/
  wiped : Bool := false
  target : Option Nat := none
  tampers : Nat := 0
  /-- tamper causes of the wipe under way, whose faults follow it (R426) -/
  causes : List Nat := []
  deriving DecidableEq, Repr

/-- A ledger record (R428): the physical slots it occupies, in order, and its contents. -/
structure LRec where
  slots : List Nat := []
  nslot : Nat
  type : Nat
  key : Nat
  dsn : Nat
  payload : List Byte
  deriving DecidableEq, Repr

/-- The ledger (R427 to R436, R528): records that exist, newest first, and records still to be written. -/
structure Ledger where
  /-- bytes of the 16 MiB of MRAM, by offset (R427) -/
  mem : List Host.Cell := []
  recs : List LRec := []
  pend : List LRec := []
  nextItem : Nat := 1
  /-- the record ring and the snapshot regions, as runs of physical slots (first, count), and the head's place
  in the ring; the region written next is the first (R427, R433) -/
  ring : List (Nat × Nat) := [(0, 29492)]
  regions : List (Nat × List (Nat × Nat)) := [(0, [(29492, 4096)]), (1, [(33588, 4096)]), (2, [(37684, 4096)]),
    (3, [(41780, 4096)]), (4, [(45876, 4096)]), (5, [(49972, 4096)]), (6, [(54068, 4096)]), (7, [(58164, 4096)])]
  head : Nat := 0
  /-- bad physical slots and the spare that stands in -/
  remap : Tbl Nat := []
  /-- the snapshot kept in the HBM system area while read-only (R435) -/
  hbmSnap : List Byte := []
  /-- read-only, across losses of power too (R435) -/
  ro : Bool := false
  deriving DecidableEq, Repr

/-- A locked sequence (R453). -/
structure Lock where
  master : Nat
  target : Nat
  count : Nat
  deriving DecidableEq, Repr

/-- An access that waits at its target (R413, R422, R452): its access type (R445), data, and for a locked one
whether it is the last of its sequence. -/
structure HeldAccess where
  acc : Access
  type : Nat
  data : List Byte
  last : Bool := false
  /-- a write-back of the DMA engine, whose error response is a bus error (R461) -/
  dma : Bool := false
  deriving DecidableEq, Repr

/-- The fabric (R13, R452, R453): locks, masters whose sequence was broken, accesses that wait, oldest first, and the
read latches of each master. -/
structure Fab where
  locks : List Lock := []
  held : List HeldAccess := []
  broken : List Nat := []
  /-- latched high words, keyed by 2^28 master + offset -/
  latch : Tbl (Option Word) := []
  deriving DecidableEq, Repr

/-- A DMA descriptor (R456). -/
structure Desc where
  src : Nat
  dst : Nat
  count : Nat
  ctl : Nat
  crcAddr : Nat
  next : Nat
  deriving DecidableEq, Repr

/-- A DMA channel beyond its registers (R455 to R466). -/
structure DmaX where
  desc : Option Desc := none
  moved : Nat := 0
  /-- source bytes that the alignment funnel has read and not yet written (R459) -/
  funnel : List Byte := []
  seed : Nat := 0xFFFFFFFF
  /-- stops at the end of its burst (R466) -/
  aborting : Bool := false
  /-- ended DONE_ERR: not started until its descriptor address is written (R465) -/
  stuck : Bool := false
  deriving DecidableEq, Repr

/-- A capture (R482). -/
structure Capture where
  kind : Nat
  master : Nat
  type : Nat
  address : Nat
  level : Nat
  escalated : Bool
  errn : Bool
  count : Nat
  dsn : Nat
  sec : Nat
  ns : Nat
  live : Bool
  pending : Bool
  deriving DecidableEq, Repr

/-- A reaction setting (R476). -/
structure Reaction where
  level : Nat
  target : Nat
  errn : Bool
  deriving DecidableEq, Repr

/-- The fault collector (R470 to R485); captures and settings are keyed by 4 source + class. -/
structure Flt where
  waiting : List (FaultMsg × Nat) := []
  /-- messages merged into a waiting one of another kind: their own actions are still to be made (R479) -/
  merged : List FaultMsg := []
  /-- clock at which each waiting message arrived, keyed by 4 source + class: those of one collector step share it (R471) -/
  arrived : Tbl Nat := []
  /-- conditions that have ended before the message of their start is captured, keyed by 2^6 (4 source + class) + kind (R482) -/
  ended : Tbl Bool := []
  caps : Tbl (Option Capture) := []
  reacts : Tbl (Option Reaction) := []
  sel : Tbl Nat := []
  l4Times : List Nat := []
  /-- range channels not yet committed when an engine was retired (R491) -/
  recover : List (Nat × Nat) := []
  deriving DecidableEq, Repr

/-- Power supply monitoring (R508 to R510). -/
structure Pow where
  snapDone : Bool := false
  snapRun : Bool := false
  deferred : Bool := false
  flushStart : Nat := 0
  /-- one more than the clock of a domain's last rail fault, and of its last re-powering by a warm reset (R506) -/
  railAt : Tbl Nat := []
  repowered : Tbl Nat := []
  /-- domains off after a rail fault, and those of them that a warm reset does not re-power -/
  railOff : Tbl Bool := []
  leftOff : Tbl Bool := []
  /-- scratchpad groups that are zeroed after a rail fault (R491, R506) -/
  spdHeal : List Nat := []
  /-- a thermal trip waits for its flush, then for the sensors (R522) -/
  thermal : Bool := false
  /-- the always-on domain's rail fault: a cold start follows the flush (R506) -/
  alwaysOn : Bool := false
  deriving DecidableEq, Repr

/-- The module controller and what surrounds the die (R496 to R518). -/
structure Modl where
  fw : Bool := false
  /-- cause of a reset that is due, then the reset in progress (R511, R513) -/
  resetDue : Option Nat := none
  warm : Bool := false
  mrst : Bool := false
  lid : Bool := false
  /-- what the cold start found, kept while the boot ROM waits for an image over the UART (R516) -/
  waitIn : Option ColdInput := none
  /-- the same, while the wipe that precedes any firmware runs (R519) -/
  wipeIn : Option ColdInput := none
  flash : Tbl Byte := []
  mgmtIp : Nat := 0xC0A8B40A
  mgmtPlen : Nat := 24
  mgmtGw : Nat := 0
  tap : TapInstr := .bypass
  hostMem : List Host.Cell := []
  pciUp : Bool := false
  pciWidth : Nat := 16
  pciRate : Nat := 64
  perst : Bool := true
  /-- kernel images stored, keyed by slot (R328) -/
  kernels : Tbl (List Byte) := []
  idByCmd : Bool := false
  /-- no image verified: FAULT_N asserted (R516) -/
  bootFail : Bool := false
  /-- the domains that are always on while running are on (R505) -/
  running : Bool := false
  /-- what the next cold start shows in `MOD_RSTCAUSE` -/
  coldCause : Nat := 0
  deriving DecidableEq, Repr

/-- The state of the block. `lcs` is the home of `ENG_KSTAT.LCS` (R4). `fresh` counts the free values a
run has drawn, `clock` the nanoseconds of the cleaned clock, `sent` the messages that left the module,
newest first: these three are the model's own. -/
structure State where
  pending : List Instr
  regs : Tbl Word
  lcs : Nat
  fresh : Nat
  clock : Nat
  sent : List Msg
  lanes : Tbl LaneX
  bundles : Tbl BundleX
  links : Tbl Link
  sess : Tbl SessionX
  flows : Tbl FlowX
  deck : Deck
  engs : Tbl Engine
  dealer : Dealer
  plans : Plans
  tricks : Tricks
  beams : Beams
  outp : Outp
  timeb : TimeBase
  hbm : Hbm
  spd : Spd
  sec : Secure
  ledger : Ledger
  fab : Fab
  dma : Tbl DmaX
  dmaRr : Nat
  pciPhase : Tbl Bool
  flt : Flt
  pow : Pow
  modl : Modl
  deriving DecidableEq, Repr

/-- The machine right after reset: mains applied, nothing run yet (the cold start is a command). Every
register stands at the reset value of its table (an empty register file reads so); the manual's reset
values that need naming are those of the record defaults above. The life-cycle state is the one the module
is shipped in: SEALED for the ordering code OGX-4096-MA, OPEN for OGX-4096-ME (R3, R4). The values that log
6 names are the model's. -/
def State.reset : State where
  pending := []
  regs := []
  lcs := if Config.orderedMa then 2 else 1
  fresh := 0
  clock := 0
  sent := []
  lanes := []
  bundles := []
  links := []
  sess := []
  flows := []
  deck := {}
  engs := []
  dealer := {}
  plans := {}
  tricks := {}
  beams := {}
  outp := {}
  timeb := {}
  hbm := {}
  spd := {}
  sec := {}
  ledger := {}
  fab := {}
  dma := []
  dmaRr := 0
  pciPhase := []
  flt := {}
  pow := {}
  modl := {}

end Sys2Proof.Machine
end

