-- ==== Sys2Proof/Machine/Table.lean ====
section
/-! DEFINITION. Sparse tables keyed by numbers, in one canonical form: keys strictly rising and no entry
equal to the default `d` that an unlisted key reads as. -/

namespace Sys2Proof.Machine

variable {α : Type}

/-- What key `k` holds; `d` where it is not listed. -/
def tget (d : α) : Tbl α → Nat → α
  | [], _ => d
  | (k', v) :: r, k => if k' = k then v else tget d r k

/-- The table without key `k`. -/
def tdel : Tbl α → Nat → Tbl α
  | [], _ => []
  | (k', v) :: r, k => if k' = k then tdel r k else (k', v) :: tdel r k

/-- Put (k, v) before the first larger key. -/
def tins (k : Nat) (v : α) : Tbl α → Tbl α
  | [] => [(k, v)]
  | (k', v') :: r => if k < k' then (k, v) :: (k', v') :: r else (k', v') :: tins k v r

/-- Key `k` holds `v` from now on; the default is not listed. -/
def tset [DecidableEq α] (d : α) (t : Tbl α) (k : Nat) (v : α) : Tbl α :=
  if v = d then tdel t k else tins k v (tdel t k)

/-- The canonical form: keys strictly rising. -/
def tsorted : Tbl α → Bool
  | [] => true
  | [_] => true
  | (k, _) :: (k', v') :: r => decide (k < k') && tsorted ((k', v') :: r)

/-- The canonical form: keys strictly rising, no entry equal to the default. -/
def twf [DecidableEq α] (d : α) (t : Tbl α) : Bool :=
  tsorted t && t.all (fun p => decide (p.2 ≠ d))

/-- Keys of a table in order. -/
def tkeys (t : Tbl α) : List Nat := t.map (·.1)

/-- Store consecutive values from key `k` on. -/
def tsetMany [DecidableEq α] (d : α) : Tbl α → Nat → List α → Tbl α
  | t, _, [] => t
  | t, k, v :: r => tsetMany d (tset d t k v) (k + 1) r

/-- The `n` consecutive values from key `k` on. -/
def tgetMany (d : α) (t : Tbl α) (k : Nat) : Nat → List α
  | 0 => []
  | n + 1 => tget d t k :: tgetMany d t (k + 1) n

end Sys2Proof.Machine
end

