-- ==== Sys2Proof/Machine/Regs.lean ====
section
/-! DEFINITION. The register map: every register of the register tables, its place, the access types of
its bits (R10) and its reset word, one constant per field, and the reads and writes of fields that the
commands use. `regs` keeps one word per register, keyed by its byte offset in the register space. -/

namespace Sys2Proof.Machine

/-- A field: the offset of its register for index 0, the distance between indices, its lowest bit, its width. -/
structure Fld where
  base : Nat
  stride : Nat
  lo : Nat
  w : Nat
  deriving DecidableEq, Repr

/-- A 64-bit quantity in two adjacent registers, low word first (R13). -/
structure Reg64 where
  base : Nat
  stride : Nat
  deriving DecidableEq, Repr

/-- A register of the map: its place, its count, and the bits of each access type. -/
structure RegRow where
  base : Nat
  stride : Nat
  count : Nat
  rw : Nat
  w1c : Nat
  rc : Nat
  wo : Nat
  deriving DecidableEq, Repr

/-- Whether offset `o` is one of the registers at `base`, `base + stride`, … (`count` of them). -/
def inRegs (base stride count o : Nat) : Bool :=
  base ≤ o && (if stride = 0 then o == base
    else (o - base) % stride == 0 && (o - base) / stride < count)

def Fld.VLK_CTL_MODE : Fld := ⟨0x300000, 0x1000, 0, 2⟩
def Fld.VLK_CTL_TRATE : Fld := ⟨0x300000, 0x1000, 2, 3⟩
def Fld.VLK_CTL_LOOP : Fld := ⟨0x300000, 0x1000, 5, 2⟩
def Fld.VLK_CTL_RAW : Fld := ⟨0x300000, 0x1000, 7, 1⟩
def Fld.VLK_CTL_BITSLIP : Fld := ⟨0x300000, 0x1000, 8, 1⟩
def Fld.VLK_CTL_RESTART : Fld := ⟨0x300000, 0x1000, 9, 1⟩
def Fld.VLK_CTL_CNTCLR : Fld := ⟨0x300000, 0x1000, 10, 1⟩
def Fld.VLK_STAT_STATE : Fld := ⟨0x300004, 0x1000, 0, 4⟩
def Fld.VLK_STAT_RATE : Fld := ⟨0x300004, 0x1000, 4, 3⟩
def Fld.VLK_STAT_CLK_LOCK : Fld := ⟨0x300004, 0x1000, 7, 1⟩
def Fld.VLK_STAT_BLK_LOCK : Fld := ⟨0x300004, 0x1000, 8, 1⟩
def Fld.VLK_STAT_MRK_LOCK : Fld := ⟨0x300004, 0x1000, 9, 1⟩
def Fld.VLK_STAT_BUNDLE : Fld := ⟨0x300004, 0x1000, 10, 3⟩
def Fld.VLK_STAT_POSITION : Fld := ⟨0x300004, 0x1000, 13, 2⟩
def Fld.VLK_STAT_HOME_SPARE : Fld := ⟨0x300004, 0x1000, 15, 1⟩
def Fld.VLK_STAT_ATTEMPTS : Fld := ⟨0x300004, 0x1000, 16, 2⟩
def Fld.VLK_STAT_DEGRADE : Fld := ⟨0x300004, 0x1000, 18, 1⟩
def Fld.VLK_STAT_TESTRET : Fld := ⟨0x300004, 0x1000, 19, 1⟩
def Fld.VLK_EVT_LOCK_LOST : Fld := ⟨0x300008, 0x1000, 0, 1⟩
def Fld.VLK_EVT_UNCORR : Fld := ⟨0x300008, 0x1000, 1, 1⟩
def Fld.VLK_EVT_DEGRADE : Fld := ⟨0x300008, 0x1000, 2, 1⟩
def Fld.VLK_EVT_SLIP_OVR : Fld := ⟨0x300008, 0x1000, 3, 1⟩
def Fld.VLK_EVT_MODE_REJ : Fld := ⟨0x300008, 0x1000, 4, 1⟩
def Fld.VLK_EVT_SUBST : Fld := ⟨0x300008, 0x1000, 5, 1⟩
def Fld.VLK_EVT_LADDER_FAIL : Fld := ⟨0x300008, 0x1000, 6, 1⟩
def Reg64.VLK_FEC_CW : Reg64 := ⟨0x300010, 0x1000⟩
def Reg64.VLK_FEC_CORR : Reg64 := ⟨0x300018, 0x1000⟩
def Reg64.VLK_FEC_UNC : Reg64 := ⟨0x300020, 0x1000⟩
def Reg64.VLK_FEC_SYM : Reg64 := ⟨0x300028, 0x1000⟩
def Fld.VLK_BERSEC_ERRBITS : Fld := ⟨0x300030, 0x1000, 0, 32⟩
def Fld.VLK_PGEN_PAT : Fld := ⟨0x300040, 0x1000, 0, 3⟩
def Fld.VLK_PGEN_INV : Fld := ⟨0x300040, 0x1000, 3, 1⟩
def Fld.VLK_PGEN_EN : Fld := ⟨0x300040, 0x1000, 4, 1⟩
def Fld.VLK_PCHK_PAT : Fld := ⟨0x300044, 0x1000, 0, 3⟩
def Fld.VLK_PCHK_INV : Fld := ⟨0x300044, 0x1000, 3, 1⟩
def Fld.VLK_PCHK_EN : Fld := ⟨0x300044, 0x1000, 4, 1⟩
def Fld.VLK_PCHK_LOCK : Fld := ⟨0x300044, 0x1000, 8, 1⟩
def Reg64.VLK_PERR : Reg64 := ⟨0x300048, 0x1000⟩
def Reg64.VLK_PBITS : Reg64 := ⟨0x300050, 0x1000⟩
def Fld.VLK_INJ_SINGLE : Fld := ⟨0x300058, 0x1000, 0, 1⟩
def Fld.VLK_INJ_BURST : Fld := ⟨0x300058, 0x1000, 1, 1⟩
def Fld.VLK_INJ_BLEN : Fld := ⟨0x300058, 0x1000, 2, 8⟩
def Fld.VLK_INJ_RATEK : Fld := ⟨0x300058, 0x1000, 10, 6⟩
def Fld.VLK_INJ_RATE_EN : Fld := ⟨0x300058, 0x1000, 16, 1⟩
def Fld.VLK_RAW_SLIP_PEND : Fld := ⟨0x300060, 0x1000, 0, 1⟩
def Fld.VLK_RAW_SLIP_POS : Fld := ⟨0x300060, 0x1000, 1, 6⟩
def Reg64.VLK_RAWDATA : Reg64 := ⟨0x300064, 0x1000⟩
def Fld.VLK_TXEQ_CM2 : Fld := ⟨0x300070, 0x1000, 0, 6⟩
def Fld.VLK_TXEQ_CM1 : Fld := ⟨0x300070, 0x1000, 6, 6⟩
def Fld.VLK_TXEQ_C0 : Fld := ⟨0x300070, 0x1000, 12, 6⟩
def Fld.VLK_TXEQ_CP1 : Fld := ⟨0x300070, 0x1000, 18, 6⟩
def Fld.VLK_PEER_ENDPOINT : Fld := ⟨0x300080, 0x1000, 0, 32⟩
def Fld.VLK_PEERLANE_LANE : Fld := ⟨0x300084, 0x1000, 0, 8⟩
def Fld.VLK_PEERLANE_MAXRATE : Fld := ⟨0x300084, 0x1000, 8, 3⟩
def Fld.VLK_BCTL_EN : Fld := ⟨0x380000, 0x1000, 0, 1⟩
def Fld.VLK_BCTL_RESET : Fld := ⟨0x380000, 0x1000, 1, 1⟩
def Fld.VLK_BCTL_SUBST_EN : Fld := ⟨0x380000, 0x1000, 2, 1⟩
def Fld.VLK_BCTL_DEGRADE_SUBST : Fld := ⟨0x380000, 0x1000, 3, 1⟩
def Fld.VLK_BSTAT_STATE : Fld := ⟨0x380004, 0x1000, 0, 2⟩
def Fld.VLK_BSTAT_MASK : Fld := ⟨0x380004, 0x1000, 2, 4⟩
def Fld.VLK_BSTAT_EPOCH : Fld := ⟨0x380004, 0x1000, 6, 8⟩
def Fld.VLK_BSTAT_RATE : Fld := ⟨0x380004, 0x1000, 14, 3⟩
def Fld.VLK_BMAP_POS0 : Fld := ⟨0x380008, 0x1000, 0, 5⟩
def Fld.VLK_BMAP_POS1 : Fld := ⟨0x380008, 0x1000, 8, 5⟩
def Fld.VLK_BMAP_POS2 : Fld := ⟨0x380008, 0x1000, 16, 5⟩
def Fld.VLK_BMAP_POS3 : Fld := ⟨0x380008, 0x1000, 24, 5⟩
def Fld.VLK_BPEER_ENDPOINT : Fld := ⟨0x38000c, 0x1000, 0, 32⟩
def Fld.VSN_CTL_OPEN_EN : Fld := ⟨0x400000, 0x0, 0, 1⟩
def Fld.VSN_STAT_SESSIONS : Fld := ⟨0x400004, 0x0, 0, 9⟩
def Fld.VSN_STAT_FLOWS : Fld := ⟨0x400004, 0x0, 16, 16⟩
def Fld.VSN_RETAIN_SECONDS : Fld := ⟨0x400008, 0x0, 0, 17⟩
def Fld.VSN_EVT_SUSPECT : Fld := ⟨0x40000c, 0x0, 0, 1⟩
def Fld.VSN_EVT_SILENT : Fld := ⟨0x40000c, 0x0, 1, 1⟩
def Fld.VSN_EVT_FLOWFAULT : Fld := ⟨0x40000c, 0x0, 2, 1⟩
def Fld.VSN_EVT_SRESET : Fld := ⟨0x40000c, 0x0, 3, 1⟩
def Fld.VSN_EVT_OVERRUN : Fld := ⟨0x40000c, 0x0, 4, 1⟩
def Fld.VSN_EVT_CORRUPT : Fld := ⟨0x40000c, 0x0, 5, 1⟩
def Fld.VSN_EVT_TAKEOVER : Fld := ⟨0x40000c, 0x0, 6, 1⟩
def Fld.VSN_EVT_SNAPLOST : Fld := ⟨0x40000c, 0x0, 7, 1⟩
def Fld.VSN_LSTAT_RX_NEXT : Fld := ⟨0x401000, 0x100, 0, 12⟩
def Fld.VSN_LSTAT_TX_NEXT : Fld := ⟨0x401000, 0x100, 12, 12⟩
def Fld.VSN_LSTAT_INIT_DONE : Fld := ⟨0x401000, 0x100, 24, 1⟩
def Fld.VSN_LCLIMIT_LIMIT : Fld := ⟨0x401004, 0x100, 0, 32⟩
def Fld.VSN_LCUSED_CONSUMED : Fld := ⟨0x401008, 0x100, 0, 32⟩
def Fld.VSN_LBUF_FREE : Fld := ⟨0x40100c, 0x100, 0, 16⟩
def Fld.VSN_LBUF_HELD : Fld := ⟨0x40100c, 0x100, 16, 16⟩
def Fld.VSN_LNACK_COUNT : Fld := ⟨0x401010, 0x100, 0, 32⟩
def Fld.VSN_LOVR_COUNT : Fld := ⟨0x401014, 0x100, 0, 32⟩
def Fld.VSN_LCORRUPT_COUNT : Fld := ⟨0x401018, 0x100, 0, 32⟩
def Fld.VSN_LNOSESS_COUNT : Fld := ⟨0x40101c, 0x100, 0, 32⟩
def Fld.VSN_SSTAT_STATE : Fld := ⟨0x402000, 0x40, 0, 3⟩
def Fld.VSN_SSTAT_BUNDLE : Fld := ⟨0x402000, 0x40, 3, 3⟩
def Fld.VSN_SSTAT_EPOCH : Fld := ⟨0x402000, 0x40, 8, 8⟩
def Fld.VSN_SSTAT_FLOWS : Fld := ⟨0x402000, 0x40, 16, 16⟩
def Fld.VSN_SPEER_ENDPOINT : Fld := ⟨0x402004, 0x40, 0, 32⟩
def Reg64.VSN_STOKEN : Reg64 := ⟨0x402008, 0x40⟩
def Fld.VSN_SCTL_CLOSE : Fld := ⟨0x402010, 0x40, 0, 1⟩
def Fld.VSN_SCTL_RESET : Fld := ⟨0x402010, 0x40, 1, 1⟩
def Fld.VSN_SREFUSED_COUNT : Fld := ⟨0x402014, 0x40, 0, 32⟩
def Fld.VSN_SDUP_COUNT : Fld := ⟨0x402018, 0x40, 0, 32⟩
def Fld.VSN_SLATE_COUNT : Fld := ⟨0x40201c, 0x40, 0, 32⟩
def Fld.VSN_SFUTURE_COUNT : Fld := ⟨0x402020, 0x40, 0, 32⟩
def Fld.VSN_SGAP_COUNT : Fld := ⟨0x402024, 0x40, 0, 32⟩
def Fld.VSN_SDISCARD_COUNT : Fld := ⟨0x402028, 0x40, 0, 32⟩
def Fld.VSN_FSTAT_STATE : Fld := ⟨0x410000, 0x10, 0, 3⟩
def Fld.VSN_FSTAT_SESSION : Fld := ⟨0x410000, 0x10, 3, 8⟩
def Fld.VSN_FSTAT_GROUP : Fld := ⟨0x410000, 0x10, 11, 6⟩
def Fld.VSN_FSTAT_CHCODE : Fld := ⟨0x410000, 0x10, 17, 3⟩
def Fld.VSN_FSTAT_SCODE : Fld := ⟨0x410000, 0x10, 20, 2⟩
def Fld.VSN_FSTAT_FMT : Fld := ⟨0x410000, 0x10, 22, 1⟩
def Fld.VSN_FNEXT_NEXT : Fld := ⟨0x410004, 0x10, 0, 32⟩
def Fld.VSN_FCHBASE_CHBASE : Fld := ⟨0x410008, 0x10, 0, 24⟩
def Fld.VSN_FCHBASE_HELD : Fld := ⟨0x410008, 0x10, 24, 8⟩
def Fld.VSN_FACC_ACCEPTED : Fld := ⟨0x41000c, 0x10, 0, 32⟩
def Fld.CUT_DECKCTL_DEADLINE : Fld := ⟨0x500000, 0x0, 0, 11⟩
def Fld.CUT_DECKSTAT_ACTIVE : Fld := ⟨0x500004, 0x0, 0, 1⟩
def Fld.CUT_DECKSTAT_BEHIND : Fld := ⟨0x500004, 0x0, 1, 1⟩
def Fld.CUT_DECKSTAT_CUTCHAN : Fld := ⟨0x500004, 0x0, 2, 10⟩
def Reg64.CUT_DECKBASE : Reg64 := ⟨0x500008, 0x0⟩
def Reg64.CUT_DECKSIZE : Reg64 := ⟨0x500010, 0x0⟩
def Reg64.CUT_CUTRANGE : Reg64 := ⟨0x500018, 0x0⟩
def Fld.CUT_LAG_MICROS : Fld := ⟨0x500020, 0x0, 0, 32⟩
def Reg64.CUT_DECKBASE1 : Reg64 := ⟨0x500024, 0x0⟩
def Fld.CUT_DLCLOSE_COUNT : Fld := ⟨0x500030, 0x0, 0, 32⟩
def Fld.CUT_MISSRUN_COUNT : Fld := ⟨0x500034, 0x0, 0, 32⟩
def Fld.CUT_FLAGRUN_COUNT : Fld := ⟨0x500038, 0x0, 0, 32⟩
def Fld.CUT_SKRUN_COUNT : Fld := ⟨0x50003c, 0x0, 0, 32⟩
def Fld.CUT_SKCTL_EN : Fld := ⟨0x500040, 0x0, 0, 1⟩
def Fld.CUT_SKCTL_ZERO_MUCK : Fld := ⟨0x500040, 0x0, 1, 1⟩
def Fld.CUT_SKLO_LO : Fld := ⟨0x500044, 0x0, 0, 16⟩
def Fld.CUT_SKHI_HI : Fld := ⟨0x500048, 0x0, 0, 16⟩
def Fld.CUT_EVT_DLCLOSE : Fld := ⟨0x500050, 0x0, 0, 1⟩
def Fld.CUT_EVT_BEHIND : Fld := ⟨0x500050, 0x0, 1, 1⟩
def Fld.CUT_EVT_STATSAT : Fld := ⟨0x500050, 0x0, 2, 1⟩
def Fld.CUT_EVT_REPLAY : Fld := ⟨0x500050, 0x0, 3, 1⟩
def Fld.CUT_REPLAY_COUNT : Fld := ⟨0x500060, 0x0, 0, 32⟩
def Fld.ENG_STAT_STATE : Fld := ⟨0x600000, 0x1000, 0, 3⟩
def Fld.ENG_STAT_POSITION : Fld := ⟨0x600000, 0x1000, 3, 7⟩
def Fld.ENG_STAT_BANK : Fld := ⟨0x600000, 0x1000, 10, 1⟩
def Fld.ENG_STAT_UNITS : Fld := ⟨0x600000, 0x1000, 11, 5⟩
def Fld.ENG_RATE_RATE : Fld := ⟨0x600004, 0x1000, 0, 12⟩
def Fld.ENG_RATE_SLOWCNT : Fld := ⟨0x600004, 0x1000, 16, 8⟩
def Fld.ENG_RAIL_MV : Fld := ⟨0x600008, 0x1000, 0, 10⟩
def Fld.ENG_RAIL_CALMV : Fld := ⟨0x600008, 0x1000, 16, 10⟩
def Fld.ENG_TEMP_TJ : Fld := ⟨0x60000c, 0x1000, 0, 8⟩
def Fld.ENG_EVT_SLOW : Fld := ⟨0x600010, 0x1000, 0, 1⟩
def Fld.ENG_EVT_FAULT : Fld := ⟨0x600010, 0x1000, 1, 1⟩
def Fld.ENG_EVT_RETIRED : Fld := ⟨0x600010, 0x1000, 2, 1⟩
def Fld.ENG_EVT_SAT : Fld := ⟨0x600010, 0x1000, 3, 1⟩
def Fld.ENG_EVT_REPLAY : Fld := ⟨0x600010, 0x1000, 4, 1⟩
def Fld.ENG_EVT_TOPRAIL : Fld := ⟨0x600010, 0x1000, 5, 1⟩
def Fld.ENG_CTL_RETIRE : Fld := ⟨0x600014, 0x1000, 0, 1⟩
def Fld.ENG_CTL_RESTORE : Fld := ⟨0x600014, 0x1000, 1, 1⟩
def Fld.ENG_RETCAUSE_CAUSE : Fld := ⟨0x600018, 0x1000, 0, 4⟩
def Reg64.ENG_CYC : Reg64 := ⟨0x600020, 0x1000⟩
def Reg64.ENG_HRUNS : Reg64 := ⟨0x600028, 0x1000⟩
def Fld.ENG_ALLOT_FIRSTUNIT : Fld := ⟨0x600030, 0x1000, 0, 12⟩
def Fld.ENG_ALLOT_FIRSTRUN : Fld := ⟨0x600030, 0x1000, 12, 8⟩
def Fld.ENG_ALLOTLEN_HRUNS : Fld := ⟨0x600034, 0x1000, 0, 16⟩
def Fld.ENG_GCTL_RESERVE : Fld := ⟨0x680000, 0x0, 0, 4⟩
def Fld.ENG_GCTL_AUTOSUBST : Fld := ⟨0x680000, 0x0, 4, 1⟩
def Fld.ENG_GCTL_RELEASE : Fld := ⟨0x680000, 0x0, 5, 1⟩
def Fld.ENG_GOVCTL_TARGET : Fld := ⟨0x680004, 0x0, 0, 12⟩
def Fld.ENG_GSTAT_ACTIVE : Fld := ⟨0x680008, 0x0, 0, 7⟩
def Fld.ENG_GSTAT_STANDBY : Fld := ⟨0x680008, 0x0, 7, 7⟩
def Fld.ENG_GSTAT_RETIRED : Fld := ⟨0x680008, 0x0, 14, 7⟩
def Fld.ENG_GSTAT_DEFICIT : Fld := ⟨0x680008, 0x0, 21, 1⟩
def Fld.ENG_GSTAT_HOLD : Fld := ⟨0x680008, 0x0, 22, 1⟩
def Fld.ENG_PHI_PHI : Fld := ⟨0x68000c, 0x0, 0, 7⟩
def Fld.ENG_GEVT_DEFICIT : Fld := ⟨0x680010, 0x0, 0, 1⟩
def Fld.ENG_GEVT_RETIRE : Fld := ⟨0x680010, 0x0, 1, 1⟩
def Fld.ENG_GEVT_KITTY_EMPTY : Fld := ⟨0x680010, 0x0, 2, 1⟩
def Fld.ENG_GEVT_SAT : Fld := ⟨0x680010, 0x0, 3, 1⟩
def Fld.ENG_SATCNT_COUNT : Fld := ⟨0x680014, 0x0, 0, 32⟩
def Reg64.ENG_ACCBASE0 : Reg64 := ⟨0x680018, 0x0⟩
def Reg64.ENG_ACCBASE1 : Reg64 := ⟨0x680020, 0x0⟩
def Fld.ENG_ACCSEL_ACCUM : Fld := ⟨0x680028, 0x0, 0, 1⟩
def Fld.ENG_ACCSEL_OTHERFREE : Fld := ⟨0x680028, 0x0, 1, 1⟩
def Reg64.ENG_TRICK : Reg64 := ⟨0x680030, 0x0⟩
def Reg64.ENG_COMMIT : Reg64 := ⟨0x680038, 0x0⟩
def Fld.ENG_COMMITCH_CHANNEL : Fld := ⟨0x680040, 0x0, 0, 10⟩
def Fld.ENG_RETMAP_MAP : Fld := ⟨0x680050, 0x4, 0, 32⟩
def Fld.ENG_POSMAP_ENTRIES : Fld := ⟨0x680080, 0x4, 0, 32⟩
def Fld.BMF_STAT_TACT : Fld := ⟨0x700000, 0x0, 0, 1⟩
def Fld.BMF_STAT_PACT : Fld := ⟨0x700000, 0x0, 1, 1⟩
def Fld.BMF_STAT_TALLOC : Fld := ⟨0x700000, 0x0, 2, 1⟩
def Fld.BMF_STAT_PALLOC : Fld := ⟨0x700000, 0x0, 3, 1⟩
def Fld.BMF_STAT_TLOCK : Fld := ⟨0x700000, 0x0, 4, 1⟩
def Fld.BMF_STAT_PLOCK : Fld := ⟨0x700000, 0x0, 5, 1⟩
def Fld.BMF_STAT_TBAD : Fld := ⟨0x700000, 0x0, 6, 1⟩
def Fld.BMF_STAT_PBAD : Fld := ⟨0x700000, 0x0, 7, 1⟩
def Fld.BMF_STAT_PEND : Fld := ⟨0x700000, 0x0, 8, 1⟩
def Fld.BMF_STAT_WBUSY : Fld := ⟨0x700000, 0x0, 9, 1⟩
def Reg64.BMF_TBASE0 : Reg64 := ⟨0x700008, 0x0⟩
def Reg64.BMF_TBASE1 : Reg64 := ⟨0x700010, 0x0⟩
def Reg64.BMF_PBASE0 : Reg64 := ⟨0x700018, 0x0⟩
def Reg64.BMF_PBASE1 : Reg64 := ⟨0x700020, 0x0⟩
def Fld.BMF_TGEOM_GROUPS : Fld := ⟨0x700028, 0x0, 0, 7⟩
def Fld.BMF_TGEOM_CHANNELS : Fld := ⟨0x700028, 0x0, 7, 11⟩
def Fld.BMF_TGEOM_BEAMS : Fld := ⟨0x700028, 0x0, 18, 11⟩
def Fld.BMF_TGEOMA_GROUPS : Fld := ⟨0x70002c, 0x0, 0, 7⟩
def Fld.BMF_TGEOMA_CHANNELS : Fld := ⟨0x70002c, 0x0, 7, 11⟩
def Fld.BMF_TGEOMA_BEAMS : Fld := ⟨0x70002c, 0x0, 18, 11⟩
def Reg64.BMF_PTREF : Reg64 := ⟨0x700030, 0x0⟩
def Fld.BMF_PTREFNS_NS : Fld := ⟨0x700038, 0x0, 0, 30⟩
def Reg64.BMF_PTREFA : Reg64 := ⟨0x700040, 0x0⟩
def Fld.BMF_PTREFANS_NS : Fld := ⟨0x700048, 0x0, 0, 30⟩
def Reg64.BMF_DEALCNT : Reg64 := ⟨0x700050, 0x0⟩
def Fld.BMF_EVT_DEAL : Fld := ⟨0x700058, 0x0, 0, 1⟩
def Fld.BMF_EVT_DEALREJ : Fld := ⟨0x700058, 0x0, 1, 1⟩
def Fld.BMF_EVT_WRREJ : Fld := ⟨0x700058, 0x0, 2, 1⟩
def Fld.BMF_EVT_APERT : Fld := ⟨0x700058, 0x0, 3, 1⟩
def Fld.BMF_EVT_REDISC : Fld := ⟨0x700058, 0x0, 4, 1⟩
def Fld.BMF_REDISC_COUNT : Fld := ⟨0x70005c, 0x0, 0, 32⟩
def Fld.ZOM_STAT_SLOTS : Fld := ⟨0x710000, 0x0, 0, 7⟩
def Fld.ZOM_EVT_START : Fld := ⟨0x710004, 0x0, 0, 1⟩
def Fld.ZOM_EVT_FADE : Fld := ⟨0x710004, 0x0, 1, 1⟩
def Fld.ZOM_EVT_CWREJ : Fld := ⟨0x710004, 0x0, 2, 1⟩
def Fld.ZOM_EVT_RESTORE : Fld := ⟨0x710004, 0x0, 3, 1⟩
def Fld.ZOM_LOAD_KSPS : Fld := ⟨0x710008, 0x0, 0, 16⟩
def Fld.ZOM_SCFG_INUSE : Fld := ⟨0x710100, 0x20, 0, 1⟩
def Fld.ZOM_SCFG_BEAM : Fld := ⟨0x710100, 0x20, 1, 10⟩
def Fld.ZOM_SCFG_CHAN : Fld := ⟨0x710100, 0x20, 11, 10⟩
def Fld.ZOM_SCFG_ORDER : Fld := ⟨0x710100, 0x20, 21, 2⟩
def Fld.ZOM_SCFG_CSET : Fld := ⟨0x710100, 0x20, 23, 4⟩
def Fld.ZOM_SDEC_DEC : Fld := ⟨0x710104, 0x20, 0, 11⟩
def Fld.ZOM_SDEC_SKEW : Fld := ⟨0x710104, 0x20, 11, 10⟩
def Reg64.ZOM_SOUT : Reg64 := ⟨0x710108, 0x20⟩
def Fld.ZOM_SMARK_UNSET : Fld := ⟨0x710110, 0x20, 0, 6⟩
def Fld.ZOM_SMARK_FADE : Fld := ⟨0x710110, 0x20, 6, 7⟩
def Fld.ZOM_COEF_H : Fld := ⟨0x711000, 0x4, 0, 18⟩
def Fld.OUT_STAT_EXPORT : Fld := ⟨0x800000, 0x0, 0, 1⟩
def Fld.OUT_STAT_STALL : Fld := ⟨0x800000, 0x0, 1, 1⟩
def Fld.OUT_STAT_FREEZE : Fld := ⟨0x800000, 0x0, 2, 1⟩
def Fld.OUT_STAT_WAITREL : Fld := ⟨0x800000, 0x0, 3, 1⟩
def Fld.OUT_STAT_UNREL : Fld := ⟨0x800000, 0x0, 4, 7⟩
def Fld.OUT_STAT_PARTS : Fld := ⟨0x800000, 0x0, 11, 3⟩
def Fld.OUT_STAT_RELMODE : Fld := ⟨0x800000, 0x0, 14, 1⟩
def Fld.OUT_EVT_STALL : Fld := ⟨0x800004, 0x0, 0, 1⟩
def Fld.OUT_EVT_CLAMP : Fld := ⟨0x800004, 0x0, 1, 1⟩
def Fld.OUT_EVT_SAT : Fld := ⟨0x800004, 0x0, 2, 1⟩
def Fld.OUT_EVT_RESEND : Fld := ⟨0x800004, 0x0, 3, 1⟩
def Fld.OUT_EVT_RELREJ : Fld := ⟨0x800004, 0x0, 4, 1⟩
def Fld.OUT_EVT_HRDREJ : Fld := ⟨0x800004, 0x0, 5, 1⟩
def Fld.OUT_CTL_DRAIN : Fld := ⟨0x800008, 0x0, 0, 3⟩
def Reg64.OUT_EXPTRICK : Reg64 := ⟨0x800010, 0x0⟩
def Reg64.OUT_RELTRICK : Reg64 := ⟨0x800018, 0x0⟩
def Fld.OUT_RELLO_LOW : Fld := ⟨0x800020, 0x0, 0, 32⟩
def Fld.OUT_RELHI_HIGH : Fld := ⟨0x800024, 0x0, 0, 32⟩
def Reg64.OUT_STATBASE : Reg64 := ⟨0x800028, 0x0⟩
def Fld.OUT_CLAMPCNT_COUNT : Fld := ⟨0x800030, 0x0, 0, 32⟩
def Fld.OUT_SATCNT_COUNT : Fld := ⟨0x800034, 0x0, 0, 32⟩
def Fld.OUT_STALLCNT_COUNT : Fld := ⟨0x800038, 0x0, 0, 32⟩
def Fld.OUT_STALLMS_MS : Fld := ⟨0x80003c, 0x0, 0, 32⟩
def Reg64.OUT_PBASE : Reg64 := ⟨0x800100, 0x40⟩
def Reg64.OUT_PSIZE : Reg64 := ⟨0x800108, 0x40⟩
def Reg64.OUT_PNEXT : Reg64 := ⟨0x800110, 0x40⟩
def Reg64.OUT_PDRAIN : Reg64 := ⟨0x800118, 0x40⟩
def Reg64.OUT_POLD : Reg64 := ⟨0x800120, 0x40⟩
def Fld.OUT_PFILL_MIB : Fld := ⟨0x800128, 0x40, 0, 16⟩
def Reg64.OUT_HBASE : Reg64 := ⟨0x800200, 0x0⟩
def Fld.OUT_HSIZE_LOG2 : Fld := ⟨0x800208, 0x0, 0, 6⟩
def Fld.OUT_HCTL_EN : Fld := ⟨0x80020c, 0x0, 0, 1⟩
def Fld.OUT_HCTL_VEC : Fld := ⟨0x80020c, 0x0, 1, 6⟩
def Fld.OUT_HCTL_MODK : Fld := ⟨0x80020c, 0x0, 7, 4⟩
def Fld.OUT_HCTL_MODUS : Fld := ⟨0x80020c, 0x0, 11, 16⟩
def Reg64.OUT_HWB : Reg64 := ⟨0x800210, 0x0⟩
def Fld.OUT_HWR_OFFSET : Fld := ⟨0x800218, 0x0, 0, 32⟩
def Fld.OUT_HRD_OFFSET : Fld := ⟨0x80021c, 0x0, 0, 32⟩
def Fld.ETH_STAT_LINK : Fld := ⟨0x810000, 0x1000, 0, 1⟩
def Fld.ETH_STAT_FEC_LOCK : Fld := ⟨0x810000, 0x1000, 1, 1⟩
def Reg64.ETH_TXPKT : Reg64 := ⟨0x810008, 0x1000⟩
def Reg64.ETH_TXBYTE : Reg64 := ⟨0x810010, 0x1000⟩
def Fld.ETH_RXDISC_COUNT : Fld := ⟨0x810018, 0x1000, 0, 32⟩
def Fld.ENG_CSTAT_PC : Fld := ⟨0x600040, 0x1000, 0, 13⟩
def Fld.ENG_CSTAT_KMODE : Fld := ⟨0x600040, 0x1000, 13, 1⟩
def Fld.ENG_CSTAT_HALTED : Fld := ⟨0x600040, 0x1000, 14, 1⟩
def Fld.ENG_CSTAT_IE : Fld := ⟨0x600040, 0x1000, 15, 1⟩
def Fld.ENG_CSTAT_LEVEL : Fld := ⟨0x600040, 0x1000, 16, 3⟩
def Fld.ENG_CTRAP_CAUSE : Fld := ⟨0x600044, 0x1000, 0, 3⟩
def Fld.ENG_CTRAP_KMODE : Fld := ⟨0x600044, 0x1000, 3, 1⟩
def Fld.ENG_CTRAP_PC : Fld := ⟨0x600044, 0x1000, 4, 13⟩
def Fld.ENG_CTRAP_VALID : Fld := ⟨0x600044, 0x1000, 31, 1⟩
def Reg64.ENG_CSTEPS : Reg64 := ⟨0x600048, 0x1000⟩
def Reg64.ENG_KSTEPS : Reg64 := ⟨0x600050, 0x1000⟩
def Fld.ENG_KBATCH_COUNT : Fld := ⟨0x600058, 0x1000, 0, 32⟩
def Fld.ENG_KSTAT_SLOT : Fld := ⟨0x680100, 0x0, 0, 2⟩
def Fld.ENG_KSTAT_INUSE : Fld := ⟨0x680100, 0x0, 2, 1⟩
def Fld.ENG_KSTAT_FAULT : Fld := ⟨0x680100, 0x0, 3, 1⟩
def Fld.ENG_KSTAT_FCAUSE : Fld := ⟨0x680100, 0x0, 4, 3⟩
def Fld.ENG_KSTAT_KEYLOCK : Fld := ⟨0x680100, 0x0, 7, 1⟩
def Fld.ENG_KSTAT_KEYS : Fld := ⟨0x680100, 0x0, 8, 8⟩
def Fld.ENG_KSTAT_LCS : Fld := ⟨0x680100, 0x0, 16, 2⟩
def Fld.ENG_KSTAT_FILLED : Fld := ⟨0x680100, 0x0, 18, 4⟩
def Fld.ENG_KFENG_ENGINE : Fld := ⟨0x680104, 0x0, 0, 7⟩
def Reg64.ENG_KFTRICK : Reg64 := ⟨0x680108, 0x0⟩
def Fld.ENG_KEVT_FAULT : Fld := ⟨0x680110, 0x0, 0, 1⟩
def Fld.ENG_KEVT_LOADREJ : Fld := ⟨0x680110, 0x0, 1, 1⟩
def Fld.ENG_KEVT_ENROL : Fld := ⟨0x680110, 0x0, 2, 1⟩
def Fld.ENG_KEVT_SANDBOXWR : Fld := ⟨0x680110, 0x0, 3, 1⟩
def Reg64.DLR_DSN : Reg64 := ⟨0x30000, 0x0⟩
def Fld.DLR_STAT_DEALPEND : Fld := ⟨0x30008, 0x0, 0, 1⟩
def Fld.DLR_STAT_DEALSLOT : Fld := ⟨0x30008, 0x0, 1, 3⟩
def Fld.DLR_STAT_ACTIVE : Fld := ⟨0x30008, 0x0, 4, 3⟩
def Fld.DLR_STAT_UARTEN : Fld := ⟨0x30008, 0x0, 7, 1⟩
def Fld.DLR_STAT_LONGOPS : Fld := ⟨0x30008, 0x0, 8, 5⟩
def Fld.DLR_STAT_BUILT : Fld := ⟨0x30008, 0x0, 13, 4⟩
def Fld.DLR_STAT_ADMITTED : Fld := ⟨0x30008, 0x0, 17, 4⟩
def Reg64.DLR_DEALCNT : Reg64 := ⟨0x30010, 0x0⟩
def Reg64.DLR_HODSN : Reg64 := ⟨0x30018, 0x0⟩
def Fld.DLR_EVT_DEAL : Fld := ⟨0x30020, 0x0, 0, 1⟩
def Fld.DLR_EVT_DEALREJ : Fld := ⟨0x30020, 0x0, 1, 1⟩
def Fld.DLR_EVT_DROP : Fld := ⟨0x30020, 0x0, 2, 1⟩
def Fld.DLR_EVT_EVLOST : Fld := ⟨0x30020, 0x0, 3, 1⟩
def Fld.DLR_DROP_COUNT : Fld := ⟨0x30024, 0x0, 0, 32⟩
def Fld.DLR_EVLOST_COUNT : Fld := ⟨0x30028, 0x0, 0, 32⟩
def Fld.DLR_CMDCNT_COUNT : Fld := ⟨0x3002c, 0x0, 0, 32⟩
def Reg64.PCI_SQBASE : Reg64 := ⟨0x901000, 0x40⟩
def Reg64.PCI_CQBASE : Reg64 := ⟨0x901008, 0x40⟩
def Fld.PCI_QCFG_SQLOG2 : Fld := ⟨0x901010, 0x40, 0, 4⟩
def Fld.PCI_QCFG_CQLOG2 : Fld := ⟨0x901010, 0x40, 4, 4⟩
def Fld.PCI_QCFG_VEC : Fld := ⟨0x901010, 0x40, 8, 6⟩
def Fld.PCI_QCFG_EVQ : Fld := ⟨0x901010, 0x40, 14, 1⟩
def Fld.PCI_QCFG_EN : Fld := ⟨0x901010, 0x40, 15, 1⟩
def Fld.PCI_SQTAIL_TAIL : Fld := ⟨0x901014, 0x40, 0, 12⟩
def Fld.PCI_CQHEAD_HEAD : Fld := ⟨0x901018, 0x40, 0, 12⟩
def Fld.PCI_QSTAT_SQHEAD : Fld := ⟨0x90101c, 0x40, 0, 12⟩
def Fld.PCI_QSTAT_CQTAIL : Fld := ⟨0x90101c, 0x40, 12, 12⟩
def Fld.PCI_QSTAT_CQFULL : Fld := ⟨0x90101c, 0x40, 24, 1⟩
def Fld.PCI_QSTAT_FETCHERR : Fld := ⟨0x90101c, 0x40, 25, 1⟩
def Reg64.TIM_SEC : Reg64 := ⟨0x200000, 0x0⟩
def Fld.TIM_NS_NS : Fld := ⟨0x200008, 0x0, 0, 30⟩
def Fld.TIM_STAT_SET : Fld := ⟨0x20000c, 0x0, 0, 1⟩
def Fld.TIM_STAT_STEERING : Fld := ⟨0x20000c, 0x0, 1, 1⟩
def Fld.TIM_STAT_RLIM : Fld := ⟨0x20000c, 0x0, 2, 1⟩
def Fld.TIM_STAT_MAPSET : Fld := ⟨0x20000c, 0x0, 3, 1⟩
def Reg64.TIM_RATE : Reg64 := ⟨0x200010, 0x0⟩
def Reg64.TIM_TRIM : Reg64 := ⟨0x200018, 0x0⟩
def Fld.TIM_SLEW_PPB : Fld := ⟨0x200020, 0x0, 0, 19⟩
def Fld.TIM_TE_UNITS : Fld := ⟨0x200024, 0x0, 0, 32⟩
def Reg64.TIM_EPOCH : Reg64 := ⟨0x200028, 0x0⟩
def Fld.TIM_OUTCTL_CLKOUT : Fld := ⟨0x200030, 0x0, 0, 2⟩
def Fld.TIM_OUTCTL_PPSEN : Fld := ⟨0x200030, 0x0, 2, 1⟩
def Fld.TIM_OUTCTL_FRMEN : Fld := ⟨0x200030, 0x0, 3, 1⟩
def Fld.TIM_OUTCTL_STEER : Fld := ⟨0x200030, 0x0, 4, 1⟩
def Fld.TIM_FPERIOD_NS : Fld := ⟨0x200034, 0x0, 0, 30⟩
def Fld.TIM_FOFFSET_NS : Fld := ⟨0x200038, 0x0, 0, 30⟩
def Fld.TIM_PHASE_PHI : Fld := ⟨0x20003c, 0x0, 0, 32⟩
def Fld.TIM_EVT_SET : Fld := ⟨0x200040, 0x0, 0, 1⟩
def Fld.TIM_EVT_EPOCH : Fld := ⟨0x200040, 0x0, 1, 1⟩
def Fld.TIM_EVT_RLIM : Fld := ⟨0x200040, 0x0, 2, 1⟩
def Fld.TIM_EVT_TRIMREJ : Fld := ⟨0x200040, 0x0, 3, 1⟩
def Fld.TIM_EVT_PHASE : Fld := ⟨0x200040, 0x0, 4, 1⟩
def Fld.REF_STAT_STATE : Fld := ⟨0x210000, 0x0, 0, 3⟩
def Fld.REF_STAT_SEL : Fld := ⟨0x210000, 0x0, 3, 2⟩
def Fld.REF_STAT_WARM : Fld := ⟨0x210000, 0x0, 5, 1⟩
def Fld.REF_STAT_DISAGREE : Fld := ⟨0x210000, 0x0, 6, 1⟩
def Fld.REF_STAT_FORCED : Fld := ⟨0x210000, 0x0, 7, 1⟩
def Fld.REF_STAT_LOCKMIN : Fld := ⟨0x210000, 0x0, 8, 16⟩
def Fld.REF_CTL_FORCE : Fld := ⟨0x210004, 0x0, 0, 3⟩
def Fld.REF_CTL_BW : Fld := ⟨0x210004, 0x0, 3, 3⟩
def Fld.REF_CTL_PTPBW : Fld := ⟨0x210004, 0x0, 6, 3⟩
def Fld.REF_DISAG_PPB : Fld := ⟨0x210008, 0x0, 0, 16⟩
def Fld.REF_EVT_DISQ : Fld := ⟨0x21000c, 0x0, 0, 1⟩
def Fld.REF_EVT_SWITCH : Fld := ⟨0x21000c, 0x0, 1, 1⟩
def Fld.REF_EVT_HOLDOVER : Fld := ⟨0x21000c, 0x0, 2, 1⟩
def Fld.REF_EVT_DISAGREE : Fld := ⟨0x21000c, 0x0, 3, 1⟩
def Fld.REF_EVT_REQUAL : Fld := ⟨0x21000c, 0x0, 4, 1⟩
def Fld.REF_EVT_FAULT : Fld := ⟨0x21000c, 0x0, 5, 1⟩
def Fld.REF_RCFG_EN : Fld := ⟨0x210100, 0x40, 0, 1⟩
def Fld.REF_RCFG_RANK : Fld := ⟨0x210100, 0x40, 1, 2⟩
def Fld.REF_RCFG_WTR : Fld := ⟨0x210100, 0x40, 3, 12⟩
def Fld.REF_RCFG_WINDOW : Fld := ⟨0x210100, 0x40, 16, 16⟩
def Fld.REF_RDELAY_UNITS : Fld := ⟨0x210104, 0x40, 0, 32⟩
def Fld.REF_RSTAT_PRESENT : Fld := ⟨0x210108, 0x40, 0, 1⟩
def Fld.REF_RSTAT_QUALIFIED : Fld := ⟨0x210108, 0x40, 1, 1⟩
def Fld.REF_RSTAT_SELECTED : Fld := ⟨0x210108, 0x40, 2, 1⟩
def Fld.REF_RSTAT_BADCNT : Fld := ⟨0x210108, 0x40, 3, 3⟩
def Fld.REF_RSTAT_WTRLEFT : Fld := ⟨0x210108, 0x40, 6, 12⟩
def Fld.REF_ROFFO_PPT : Fld := ⟨0x21010c, 0x40, 0, 32⟩
def Fld.REF_ROFFS_PPT : Fld := ⟨0x210110, 0x40, 0, 32⟩
def Fld.PTP_CTL_PORT : Fld := ⟨0x220000, 0x0, 0, 2⟩
def Fld.PTP_CTL_TCEN : Fld := ⟨0x220000, 0x0, 2, 1⟩
def Fld.PTP_STAT_PSTATE : Fld := ⟨0x220004, 0x0, 0, 4⟩
def Fld.PTP_STAT_DOMAIN : Fld := ⟨0x220004, 0x0, 4, 8⟩
def Fld.PTP_OFM_UNITS : Fld := ⟨0x220008, 0x0, 0, 32⟩
def Fld.PTP_MPD_UNITS : Fld := ⟨0x22000c, 0x0, 0, 32⟩
def Reg64.PTP_GMID : Reg64 := ⟨0x220010, 0x0⟩
def Fld.PTP_SYNCRX_COUNT : Fld := ⟨0x220018, 0x0, 0, 32⟩
def Fld.PTP_DREQTX_COUNT : Fld := ⟨0x22001c, 0x0, 0, 32⟩
def Fld.PTP_TCFWD_COUNT : Fld := ⟨0x220020, 0x0, 0, 32⟩
def Fld.PTP_DISC_COUNT : Fld := ⟨0x220024, 0x0, 0, 32⟩
def Fld.HBM_SSTAT_STATE : Fld := ⟨0x100000, 0x10000, 0, 2⟩
def Fld.HBM_SSTAT_HOT : Fld := ⟨0x100000, 0x10000, 2, 1⟩
def Fld.HBM_SSTAT_THROTTLE : Fld := ⟨0x100000, 0x10000, 3, 1⟩
def Fld.HBM_SSTAT_CATCHUP : Fld := ⟨0x100000, 0x10000, 4, 1⟩
def Fld.HBM_SSTAT_RETIRED : Fld := ⟨0x100000, 0x10000, 5, 6⟩
def Fld.HBM_STEMP_TJ : Fld := ⟨0x100004, 0x10000, 0, 8⟩
def Fld.HBM_STEMP_MAXTJ : Fld := ⟨0x100004, 0x10000, 8, 8⟩
def Fld.HBM_SPCRET_MAP : Fld := ⟨0x100008, 0x10000, 0, 32⟩
def Fld.HBM_SCE_COUNT : Fld := ⟨0x10000c, 0x10000, 0, 32⟩
def Fld.HBM_SRECON_COUNT : Fld := ⟨0x100010, 0x10000, 0, 32⟩
def Fld.HBM_SCAPAR_COUNT : Fld := ⟨0x100014, 0x10000, 0, 32⟩
def Fld.HBM_SNRCNT_COUNT : Fld := ⟨0x100018, 0x10000, 0, 32⟩
def Fld.HBM_SSTALL_NS : Fld := ⟨0x10001c, 0x10000, 0, 16⟩
def Fld.HBM_SREPAIR_ROWS : Fld := ⟨0x100020, 0x10000, 0, 16⟩
def Fld.HBM_SREPAIR_SPARE : Fld := ⟨0x100020, 0x10000, 16, 16⟩
def Fld.HBM_SEVT_HOT : Fld := ⟨0x100024, 0x10000, 0, 1⟩
def Fld.HBM_SEVT_THROTTLE : Fld := ⟨0x100024, 0x10000, 1, 1⟩
def Fld.HBM_SEVT_SHUTDOWN : Fld := ⟨0x100024, 0x10000, 2, 1⟩
def Fld.HBM_SEVT_PCRET : Fld := ⟨0x100024, 0x10000, 3, 1⟩
def Fld.HBM_SEVT_ROWMARK : Fld := ⟨0x100024, 0x10000, 4, 1⟩
def Fld.HBM_SEVT_SPAREOUT : Fld := ⟨0x100024, 0x10000, 5, 1⟩
def Fld.HBM_GSTAT_LOST : Fld := ⟨0x180000, 0x0, 0, 3⟩
def Fld.HBM_GSTAT_PARITY : Fld := ⟨0x180000, 0x0, 3, 2⟩
def Fld.HBM_GSTAT_PCDEGR : Fld := ⟨0x180000, 0x0, 5, 1⟩
def Fld.HBM_GCTL_NREXP : Fld := ⟨0x180004, 0x0, 0, 4⟩
def Fld.HBM_REBUILD_LEFT : Fld := ⟨0x180008, 0x0, 0, 27⟩
def Fld.HBM_GEVT_LOST : Fld := ⟨0x18000c, 0x0, 0, 1⟩
def Fld.HBM_GEVT_REBUILT : Fld := ⟨0x18000c, 0x0, 1, 1⟩
def Fld.HBM_GEVT_POISON : Fld := ⟨0x18000c, 0x0, 2, 1⟩
def Fld.HBM_POISON_COUNT : Fld := ⟨0x180010, 0x0, 0, 32⟩
def Fld.SPD_STAT_ON : Fld := ⟨0x60000, 0x0, 0, 16⟩
def Fld.SPD_STAT_CLEARING : Fld := ⟨0x60000, 0x0, 16, 16⟩
def Fld.SPD_PWR_REQ : Fld := ⟨0x60004, 0x0, 0, 16⟩
def Fld.SPD_EVT_NONOWNER : Fld := ⟨0x60008, 0x0, 0, 1⟩
def Fld.SPD_EVT_COLLIDE : Fld := ⟨0x60008, 0x0, 1, 1⟩
def Fld.SPD_EVT_PWRREJ : Fld := ⟨0x60008, 0x0, 2, 1⟩
def Fld.SPD_EVT_CE : Fld := ⟨0x60008, 0x0, 3, 1⟩
def Fld.SPD_EVT_UE : Fld := ⟨0x60008, 0x0, 4, 1⟩
def Fld.SPD_EVT_PATROLFAIL : Fld := ⟨0x60008, 0x0, 5, 1⟩
def Fld.SPD_COLL_COUNT : Fld := ⟨0x6000c, 0x0, 0, 32⟩
def Fld.SPD_CECNT_COUNT : Fld := ⟨0x60010, 0x0, 0, 32⟩
def Fld.SPD_PATROL_EN : Fld := ⟨0x60014, 0x0, 0, 1⟩
def Fld.SPD_PATROL_INTERVAL : Fld := ⟨0x60014, 0x0, 1, 20⟩
def Fld.SPD_PATPOS_SEGMENT : Fld := ⟨0x60018, 0x0, 0, 14⟩
def Fld.SPD_PATPOS_PASSES : Fld := ⟨0x60018, 0x0, 14, 18⟩
def Fld.SPD_COLREP_USED : Fld := ⟨0x6001c, 0x0, 0, 10⟩
def Fld.SPD_COLREP_PENDING : Fld := ⟨0x6001c, 0x0, 10, 10⟩
def Fld.SPD_SECSTAT_WIPING : Fld := ⟨0x60020, 0x0, 0, 1⟩
def Fld.SPD_SECSTAT_FAIL : Fld := ⟨0x60020, 0x0, 1, 1⟩
def Fld.SPD_SECSTAT_CAUSE : Fld := ⟨0x60020, 0x0, 2, 3⟩
def Fld.SPD_SECSTAT_WIPES : Fld := ⟨0x60020, 0x0, 16, 16⟩
def Fld.SPD_OWN_OWNER : Fld := ⟨0x60100, 0x4, 0, 8⟩
def Fld.LGR_STAT_SCANNED : Fld := ⟨0x70000, 0x0, 0, 1⟩
def Fld.LGR_STAT_WARN : Fld := ⟨0x70000, 0x0, 1, 1⟩
def Fld.LGR_STAT_RO : Fld := ⟨0x70000, 0x0, 2, 1⟩
def Fld.LGR_STAT_SNAPVALID : Fld := ⟨0x70000, 0x0, 3, 1⟩
def Fld.LGR_STAT_SNAPREG : Fld := ⟨0x70000, 0x0, 4, 3⟩
def Fld.LGR_GOOD_SLOTS : Fld := ⟨0x70004, 0x0, 0, 17⟩
def Fld.LGR_SPARE_LEFT : Fld := ⟨0x70008, 0x0, 0, 12⟩
def Fld.LGR_HEAD_SLOT : Fld := ⟨0x7000c, 0x0, 0, 16⟩
def Reg64.LGR_LASTDSN : Reg64 := ⟨0x70010, 0x0⟩
def Fld.LGR_EVT_WARN : Fld := ⟨0x70018, 0x0, 0, 1⟩
def Fld.LGR_EVT_RO : Fld := ⟨0x70018, 0x0, 1, 1⟩
def Fld.LGR_EVT_SLOTRET : Fld := ⟨0x70018, 0x0, 2, 1⟩
def Fld.LGR_EVT_SNAP : Fld := ⟨0x70018, 0x0, 3, 1⟩
def Fld.LGR_RECCNT_COUNT : Fld := ⟨0x7001c, 0x0, 0, 32⟩
def Fld.FAB_CTL_REMAP : Fld := ⟨0x40000, 0x0, 0, 1⟩
def Reg64.FAB_APBASE : Reg64 := ⟨0x40008, 0x0⟩
def Fld.FAB_APSIZE_LOG2 : Fld := ⟨0x40010, 0x0, 0, 6⟩
def Reg64.FAB_OBBASE : Reg64 := ⟨0x40018, 0x0⟩
def Reg64.FAB_ERRADDR : Reg64 := ⟨0x40020, 0x0⟩
def Fld.FAB_ERRINFO_MASTER : Fld := ⟨0x40028, 0x0, 0, 8⟩
def Fld.FAB_ERRINFO_TYPE : Fld := ⟨0x40028, 0x0, 8, 4⟩
def Fld.FAB_ERRINFO_VALID : Fld := ⟨0x40028, 0x0, 31, 1⟩
def Reg64.FAB_ORPHADDR : Reg64 := ⟨0x40030, 0x0⟩
def Fld.FAB_ORPHINFO_MASTER : Fld := ⟨0x40038, 0x0, 0, 8⟩
def Fld.FAB_ORPHINFO_TYPE : Fld := ⟨0x40038, 0x0, 8, 4⟩
def Fld.FAB_ORPHINFO_VALID : Fld := ⟨0x40038, 0x0, 31, 1⟩
def Fld.FAB_ORPHCNT_COUNT : Fld := ⟨0x4003c, 0x0, 0, 32⟩
def Fld.FAB_EVT_UNMAPPED : Fld := ⟨0x40040, 0x0, 0, 1⟩
def Fld.FAB_EVT_ORPHAN : Fld := ⟨0x40040, 0x0, 1, 1⟩
def Fld.FAB_EVT_LOCKBRK : Fld := ⟨0x40040, 0x0, 2, 1⟩
def Fld.FAB_EVT_APREJ : Fld := ⟨0x40040, 0x0, 3, 1⟩
def Fld.DMA_GSTAT_BUSY : Fld := ⟨0x50000, 0x0, 0, 16⟩
def Fld.DMA_GSTAT_HALTED : Fld := ⟨0x50000, 0x0, 16, 1⟩
def Fld.DMA_GCTL_RESUME : Fld := ⟨0x50004, 0x0, 0, 1⟩
def Fld.DMA_GCTL_AUTORES : Fld := ⟨0x50004, 0x0, 1, 1⟩
def Reg64.DMA_ERRADDR : Reg64 := ⟨0x50008, 0x0⟩
def Fld.DMA_ERRINFO_TYPE : Fld := ⟨0x50010, 0x0, 0, 4⟩
def Fld.DMA_ERRINFO_LASTBEAT : Fld := ⟨0x50010, 0x0, 4, 1⟩
def Fld.DMA_ERRINFO_COLLIDE : Fld := ⟨0x50010, 0x0, 5, 1⟩
def Fld.DMA_EVT_HALT : Fld := ⟨0x50014, 0x0, 0, 1⟩
def Fld.DMA_EVT_DONEERR : Fld := ⟨0x50014, 0x0, 1, 1⟩
def Fld.DMA_EVT_DESCERR : Fld := ⟨0x50014, 0x0, 2, 1⟩
def Fld.DMA_EVT_RSVDWR : Fld := ⟨0x50014, 0x0, 3, 1⟩
def Fld.DMA_HALTCNT_COUNT : Fld := ⟨0x50018, 0x0, 0, 32⟩
def Reg64.DMA_CDESC : Reg64 := ⟨0x50100, 0x40⟩
def Fld.DMA_CCTL_START : Fld := ⟨0x50108, 0x40, 0, 1⟩
def Fld.DMA_CCTL_PRIO : Fld := ⟨0x50108, 0x40, 1, 2⟩
def Fld.DMA_CCTL_ABORT : Fld := ⟨0x50108, 0x40, 3, 1⟩
def Fld.DMA_CCTL_VEC : Fld := ⟨0x50108, 0x40, 4, 6⟩
def Fld.DMA_CSTAT_STATE : Fld := ⟨0x5010c, 0x40, 0, 3⟩
def Fld.DMA_CSTAT_LAST : Fld := ⟨0x5010c, 0x40, 3, 3⟩
def Reg64.DMA_CCUR : Reg64 := ⟨0x50110, 0x40⟩
def Fld.DMA_CLEFT_BYTES : Fld := ⟨0x50118, 0x40, 0, 32⟩
def Fld.DMA_CCRC_CRC : Fld := ⟨0x5011c, 0x40, 0, 32⟩
def Fld.DMA_CDONE_COUNT : Fld := ⟨0x50120, 0x40, 0, 32⟩
def Fld.FLT_STAT_PENDING : Fld := ⟨0x20000, 0x0, 0, 11⟩
def Fld.FLT_STAT_FAULTN : Fld := ⟨0x20000, 0x0, 11, 1⟩
def Fld.FLT_STAT_ERRN : Fld := ⟨0x20000, 0x0, 12, 1⟩
def Fld.FLT_STAT_RESETHOLD : Fld := ⟨0x20000, 0x0, 13, 1⟩
def Fld.FLT_CTL_VEC : Fld := ⟨0x20004, 0x0, 0, 6⟩
def Fld.FLT_GSTAT_POWERLAPSE : Fld := ⟨0x20008, 0x0, 0, 1⟩
def Fld.FLT_GSTAT_NOPARITY : Fld := ⟨0x20008, 0x0, 1, 1⟩
def Fld.FLT_GSTAT_ENGEMPTY : Fld := ⟨0x20008, 0x0, 2, 1⟩
def Fld.FLT_GSTAT_LANEEMPTY : Fld := ⟨0x20008, 0x0, 3, 1⟩
def Fld.FLT_GSTAT_RECOVERING : Fld := ⟨0x20008, 0x0, 4, 1⟩
def Fld.FLT_GSTAT_OUTSIDE : Fld := ⟨0x20008, 0x0, 5, 1⟩
def Fld.FLT_NEXT_SOURCE : Fld := ⟨0x2000c, 0x0, 0, 10⟩
def Fld.FLT_NEXT_CLASS : Fld := ⟨0x2000c, 0x0, 10, 2⟩
def Fld.FLT_NEXT_VALID : Fld := ⟨0x2000c, 0x0, 31, 1⟩
def Fld.FLT_ACK_SOURCE : Fld := ⟨0x20040, 0x0, 0, 10⟩
def Fld.FLT_ACK_CLASS : Fld := ⟨0x20040, 0x0, 16, 2⟩
def Fld.FLT_EVT_CAPTURE : Fld := ⟨0x20044, 0x0, 0, 1⟩
def Fld.FLT_EVT_ESCALATE : Fld := ⟨0x20044, 0x0, 1, 1⟩
def Fld.FLT_EVT_RESETHOLD : Fld := ⟨0x20044, 0x0, 2, 1⟩
def Fld.FLT_EVT_REACTREJ : Fld := ⟨0x20044, 0x0, 3, 1⟩
def Fld.FLT_CNTC_COUNT : Fld := ⟨0x20048, 0x0, 0, 32⟩
def Fld.FLT_CNTU_COUNT : Fld := ⟨0x2004c, 0x0, 0, 32⟩
def Fld.FLT_CNTF_COUNT : Fld := ⟨0x20050, 0x0, 0, 32⟩
def Fld.FLT_RSTCNT_COUNT : Fld := ⟨0x20054, 0x0, 0, 16⟩
def Fld.FLT_SEL_SOURCE : Fld := ⟨0x20010, 0x0, 0, 10⟩
def Fld.FLT_SEL_CLASS : Fld := ⟨0x20010, 0x0, 16, 2⟩
def Fld.FLT_CAPINFO_KIND : Fld := ⟨0x20014, 0x0, 0, 6⟩
def Fld.FLT_CAPINFO_CLASS : Fld := ⟨0x20014, 0x0, 6, 2⟩
def Fld.FLT_CAPINFO_MASTER : Fld := ⟨0x20014, 0x0, 8, 8⟩
def Fld.FLT_CAPINFO_TYPE : Fld := ⟨0x20014, 0x0, 16, 4⟩
def Fld.FLT_CAPINFO_LEVEL : Fld := ⟨0x20014, 0x0, 20, 3⟩
def Fld.FLT_CAPINFO_ESCALATED : Fld := ⟨0x20014, 0x0, 23, 1⟩
def Fld.FLT_CAPINFO_ERRN : Fld := ⟨0x20014, 0x0, 24, 1⟩
def Fld.FLT_CAPINFO_LIVE : Fld := ⟨0x20014, 0x0, 25, 1⟩
def Fld.FLT_CAPINFO_PENDING : Fld := ⟨0x20014, 0x0, 26, 1⟩
def Fld.FLT_CAPINFO_VALID : Fld := ⟨0x20014, 0x0, 31, 1⟩
def Fld.FLT_CAPCNT_COUNT : Fld := ⟨0x20018, 0x0, 0, 16⟩
def Reg64.FLT_CAPADDR : Reg64 := ⟨0x20020, 0x0⟩
def Reg64.FLT_CAPDSN : Reg64 := ⟨0x20028, 0x0⟩
def Reg64.FLT_CAPSEC : Reg64 := ⟨0x20030, 0x0⟩
def Fld.FLT_CAPNS_NS : Fld := ⟨0x20038, 0x0, 0, 30⟩
def Fld.FLT_REACT_LEVEL : Fld := ⟨0x2003c, 0x0, 0, 3⟩
def Fld.FLT_REACT_TARGET : Fld := ⟨0x2003c, 0x0, 3, 2⟩
def Fld.FLT_REACT_ERRN : Fld := ⟨0x2003c, 0x0, 5, 1⟩
def Fld.MOD_STAT_READY : Fld := ⟨0x0, 0x0, 0, 1⟩
def Fld.MOD_STAT_PFW : Fld := ⟨0x0, 0x0, 1, 1⟩
def Fld.MOD_STAT_ERRN : Fld := ⟨0x0, 0x0, 2, 1⟩
def Fld.MOD_STAT_FAULTN : Fld := ⟨0x0, 0x0, 3, 1⟩
def Fld.MOD_STAT_REFST : Fld := ⟨0x0, 0x0, 4, 3⟩
def Fld.MOD_STAT_TESTMODE : Fld := ⟨0x0, 0x0, 7, 1⟩
def Fld.MOD_STRAP_MODID : Fld := ⟨0x4, 0x0, 0, 8⟩
def Fld.MOD_STRAP_BOOT : Fld := ⟨0x4, 0x0, 8, 2⟩
def Fld.MOD_STRAP_LCAP : Fld := ⟨0x4, 0x0, 10, 2⟩
def Fld.MOD_STRAP_PCIEW : Fld := ⟨0x4, 0x0, 12, 1⟩
def Fld.MOD_STRAP_SAFE_N : Fld := ⟨0x4, 0x0, 13, 1⟩
def Fld.MOD_STRAP_TEST_N : Fld := ⟨0x4, 0x0, 14, 1⟩
def Fld.MOD_STRAP_LIVE : Fld := ⟨0x4, 0x0, 16, 15⟩
def Fld.MOD_ID_ID : Fld := ⟨0x8, 0x0, 0, 8⟩
def Fld.MOD_BOOT_SLOT : Fld := ⟨0xc, 0x0, 0, 1⟩
def Fld.MOD_BOOT_FALLBACK : Fld := ⟨0xc, 0x0, 1, 1⟩
def Fld.MOD_BOOT_MARKED : Fld := ⟨0xc, 0x0, 2, 1⟩
def Fld.MOD_BOOT_UARTBOOT : Fld := ⟨0xc, 0x0, 3, 1⟩
def Fld.MOD_RSTCAUSE_CAUSE : Fld := ⟨0x10, 0x0, 0, 3⟩
def Fld.MOD_RSTCAUSE_WARMS : Fld := ⟨0x10, 0x0, 16, 16⟩
def Fld.MOD_EVT_STRAPCHG : Fld := ⟨0x14, 0x0, 0, 1⟩
def Fld.MOD_EVT_OPTREJ : Fld := ⟨0x14, 0x0, 1, 1⟩
def Fld.MOD_EVT_LIDLATCH : Fld := ⟨0x14, 0x0, 2, 1⟩
def Fld.MOD_OPT_PRESENT : Fld := ⟨0x18, 0x0, 0, 4⟩
def Fld.MOD_OPT_POWERED : Fld := ⟨0x18, 0x0, 4, 4⟩
def Fld.PWR_STAT_STATE : Fld := ⟨0x10000, 0x0, 0, 2⟩
def Fld.PWR_STAT_LOSS : Fld := ⟨0x10000, 0x0, 2, 1⟩
def Fld.PWR_VBUS_MV : Fld := ⟨0x10004, 0x0, 0, 16⟩
def Fld.PWR_VBUS_MINMV : Fld := ⟨0x10004, 0x0, 16, 16⟩
def Fld.PWR_INPUT_WATTS : Fld := ⟨0x10008, 0x0, 0, 12⟩
def Fld.PWR_EVT_WARN : Fld := ⟨0x1000c, 0x0, 0, 1⟩
def Fld.PWR_EVT_DIP : Fld := ⟨0x1000c, 0x0, 1, 1⟩
def Fld.PWR_EVT_RAILFAULT : Fld := ⟨0x1000c, 0x0, 2, 1⟩
def Fld.PWR_PFCNT_COUNT : Fld := ⟨0x10010, 0x0, 0, 32⟩
def Fld.PWR_FLUSHUS_US : Fld := ⟨0x10014, 0x0, 0, 16⟩
def Fld.PWR_FAN_FAILED : Fld := ⟨0x10018, 0x0, 0, 6⟩
def Fld.PWR_TEMP_INLET : Fld := ⟨0x1001c, 0x0, 0, 8⟩
def Fld.PWR_TEMP_CORE : Fld := ⟨0x1001c, 0x0, 8, 8⟩
def Fld.PWR_DON_MAP : Fld := ⟨0x10020, 0x4, 0, 32⟩
def Fld.PWR_MINRST_REARM : Fld := ⟨0x10038, 0x0, 0, 1⟩
def Fld.PWR_DFAULT_MAP : Fld := ⟨0x10040, 0x4, 0, 32⟩

def regRows0 : List RegRow := [
  ⟨0x300000, 0x1000, 24, 0xff, 0x0, 0x0, 0x700⟩,
  ⟨0x300004, 0x1000, 24, 0x0, 0x0, 0x0, 0x0⟩,
  ⟨0x300008, 0x1000, 24, 0x0, 0x7f, 0x0, 0x0⟩,
  ⟨0x300010, 0x1000, 24, 0x0, 0x0, 0x0, 0x0⟩,
  ⟨0x300014, 0x1000, 24, 0x0, 0x0, 0x0, 0x0⟩,
  ⟨0x300018, 0x1000, 24, 0x0, 0x0, 0x0, 0x0⟩,
  ⟨0x30001c, 0x1000, 24, 0x0, 0x0, 0x0, 0x0⟩,
  ⟨0x300020, 0x1000, 24, 0x0, 0x0, 0x0, 0x0⟩,
  ⟨0x300024, 0x1000, 24, 0x0, 0x0, 0x0, 0x0⟩,
  ⟨0x300028, 0x1000, 24, 0x0, 0x0, 0x0, 0x0⟩,
  ⟨0x30002c, 0x1000, 24, 0x0, 0x0, 0x0, 0x0⟩,
  ⟨0x300030, 0x1000, 24, 0x0, 0x0, 0x0, 0x0⟩,
  ⟨0x300040, 0x1000, 24, 0x1f, 0x0, 0x0, 0x0⟩,
  ⟨0x300044, 0x1000, 24, 0x1f, 0x0, 0x0, 0x0⟩,
  ⟨0x300048, 0x1000, 24, 0x0, 0x0, 0x0, 0x0⟩,
  ⟨0x30004c, 0x1000, 24, 0x0, 0x0, 0x0, 0x0⟩,
  ⟨0x300050, 0x1000, 24, 0x0, 0x0, 0x0, 0x0⟩,
  ⟨0x300054, 0x1000, 24, 0x0, 0x0, 0x0, 0x0⟩,
  ⟨0x300058, 0x1000, 24, 0x1fffc, 0x0, 0x0, 0x3⟩,
  ⟨0x300060, 0x1000, 24, 0x0, 0x0, 0x0, 0x0⟩,
  ⟨0x300064, 0x1000, 24, 0x0, 0x0, 0x0, 0x0⟩,
  ⟨0x300068, 0x1000, 24, 0x0, 0x0, 0x0, 0x0⟩,
  ⟨0x300070, 0x1000, 24, 0xffffff, 0x0, 0x0, 0x0⟩,
  ⟨0x300080, 0x1000, 24, 0x0, 0x0, 0x0, 0x0⟩,
  ⟨0x300084, 0x1000, 24, 0x0, 0x0, 0x0, 0x0⟩,
  ⟨0x380000, 0x1000, 5, 0xd, 0x0, 0x0, 0x2⟩,
  ⟨0x380004, 0x1000, 5, 0x0, 0x0, 0x0, 0x0⟩,
  ⟨0x380008, 0x1000, 5, 0x0, 0x0, 0x0, 0x0⟩,
  ⟨0x38000c, 0x1000, 5, 0x0, 0x0, 0x0, 0x0⟩,
  ⟨0x400000, 0x0, 1, 0x1, 0x0, 0x0, 0x0⟩,
  ⟨0x400004, 0x0, 1, 0x0, 0x0, 0x0, 0x0⟩,
  ⟨0x400008, 0x0, 1, 0x1ffff, 0x0, 0x0, 0x0⟩,
  ⟨0x40000c, 0x0, 1, 0x0, 0xff, 0x0, 0x0⟩,
  ⟨0x401000, 0x100, 5, 0x0, 0x0, 0x0, 0x0⟩,
  ⟨0x401004, 0x100, 5, 0x0, 0x0, 0x0, 0x0⟩,
  ⟨0x401008, 0x100, 5, 0x0, 0x0, 0x0, 0x0⟩,
  ⟨0x40100c, 0x100, 5, 0x0, 0x0, 0x0, 0x0⟩,
  ⟨0x401010, 0x100, 5, 0x0, 0x0, 0xffffffff, 0x0⟩,
  ⟨0x401014, 0x100, 5, 0x0, 0x0, 0xffffffff, 0x0⟩,
  ⟨0x401018, 0x100, 5, 0x0, 0x0, 0xffffffff, 0x0⟩]

def regRows1 : List RegRow := [
  ⟨0x40101c, 0x100, 5, 0x0, 0x0, 0xffffffff, 0x0⟩,
  ⟨0x402000, 0x40, 256, 0x0, 0x0, 0x0, 0x0⟩,
  ⟨0x402004, 0x40, 256, 0x0, 0x0, 0x0, 0x0⟩,
  ⟨0x402008, 0x40, 256, 0x0, 0x0, 0x0, 0x0⟩,
  ⟨0x40200c, 0x40, 256, 0x0, 0x0, 0x0, 0x0⟩,
  ⟨0x402010, 0x40, 256, 0x0, 0x0, 0x0, 0x3⟩,
  ⟨0x402014, 0x40, 256, 0x0, 0x0, 0xffffffff, 0x0⟩,
  ⟨0x402018, 0x40, 256, 0x0, 0x0, 0xffffffff, 0x0⟩,
  ⟨0x40201c, 0x40, 256, 0x0, 0x0, 0xffffffff, 0x0⟩,
  ⟨0x402020, 0x40, 256, 0x0, 0x0, 0xffffffff, 0x0⟩,
  ⟨0x402024, 0x40, 256, 0x0, 0x0, 0xffffffff, 0x0⟩,
  ⟨0x402028, 0x40, 256, 0x0, 0x0, 0xffffffff, 0x0⟩,
  ⟨0x410000, 0x10, 40960, 0x0, 0x0, 0x0, 0x0⟩,
  ⟨0x410004, 0x10, 40960, 0x0, 0x0, 0x0, 0x0⟩,
  ⟨0x410008, 0x10, 40960, 0x0, 0x0, 0x0, 0x0⟩,
  ⟨0x41000c, 0x10, 40960, 0x0, 0x0, 0x0, 0x0⟩,
  ⟨0x500000, 0x0, 1, 0x7ff, 0x0, 0x0, 0x0⟩,
  ⟨0x500004, 0x0, 1, 0x0, 0x0, 0x0, 0x0⟩,
  ⟨0x500008, 0x0, 1, 0x0, 0x0, 0x0, 0x0⟩,
  ⟨0x50000c, 0x0, 1, 0x0, 0x0, 0x0, 0x0⟩,
  ⟨0x500010, 0x0, 1, 0x0, 0x0, 0x0, 0x0⟩,
  ⟨0x500014, 0x0, 1, 0x0, 0x0, 0x0, 0x0⟩,
  ⟨0x500018, 0x0, 1, 0x0, 0x0, 0x0, 0x0⟩,
  ⟨0x50001c, 0x0, 1, 0x0, 0x0, 0x0, 0x0⟩,
  ⟨0x500020, 0x0, 1, 0x0, 0x0, 0x0, 0x0⟩,
  ⟨0x500024, 0x0, 1, 0x0, 0x0, 0x0, 0x0⟩,
  ⟨0x500028, 0x0, 1, 0x0, 0x0, 0x0, 0x0⟩,
  ⟨0x500030, 0x0, 1, 0x0, 0x0, 0xffffffff, 0x0⟩,
  ⟨0x500034, 0x0, 1, 0x0, 0x0, 0xffffffff, 0x0⟩,
  ⟨0x500038, 0x0, 1, 0x0, 0x0, 0xffffffff, 0x0⟩,
  ⟨0x50003c, 0x0, 1, 0x0, 0x0, 0xffffffff, 0x0⟩,
  ⟨0x500040, 0x0, 1, 0x0, 0x0, 0x0, 0x0⟩,
  ⟨0x500044, 0x0, 1, 0x0, 0x0, 0x0, 0x0⟩,
  ⟨0x500048, 0x0, 1, 0x0, 0x0, 0x0, 0x0⟩,
  ⟨0x500050, 0x0, 1, 0x0, 0xf, 0x0, 0x0⟩,
  ⟨0x500060, 0x0, 1, 0x0, 0x0, 0xffffffff, 0x0⟩,
  ⟨0x600000, 0x1000, 96, 0x0, 0x0, 0x0, 0x0⟩,
  ⟨0x600004, 0x1000, 96, 0x0, 0x0, 0x0, 0x0⟩,
  ⟨0x600008, 0x1000, 96, 0x0, 0x0, 0x0, 0x0⟩,
  ⟨0x60000c, 0x1000, 96, 0x0, 0x0, 0x0, 0x0⟩]

def regRows2 : List RegRow := [
  ⟨0x600010, 0x1000, 96, 0x0, 0x3f, 0x0, 0x0⟩,
  ⟨0x600014, 0x1000, 96, 0x0, 0x0, 0x0, 0x3⟩,
  ⟨0x600018, 0x1000, 96, 0x0, 0x0, 0x0, 0x0⟩,
  ⟨0x600020, 0x1000, 96, 0x0, 0x0, 0x0, 0x0⟩,
  ⟨0x600024, 0x1000, 96, 0x0, 0x0, 0x0, 0x0⟩,
  ⟨0x600028, 0x1000, 96, 0x0, 0x0, 0x0, 0x0⟩,
  ⟨0x60002c, 0x1000, 96, 0x0, 0x0, 0x0, 0x0⟩,
  ⟨0x600030, 0x1000, 96, 0x0, 0x0, 0x0, 0x0⟩,
  ⟨0x600034, 0x1000, 96, 0x0, 0x0, 0x0, 0x0⟩,
  ⟨0x680000, 0x0, 1, 0x1f, 0x0, 0x0, 0x20⟩,
  ⟨0x680004, 0x0, 1, 0xfff, 0x0, 0x0, 0x0⟩,
  ⟨0x680008, 0x0, 1, 0x0, 0x0, 0x0, 0x0⟩,
  ⟨0x68000c, 0x0, 1, 0x0, 0x0, 0x0, 0x0⟩,
  ⟨0x680010, 0x0, 1, 0x0, 0xf, 0x0, 0x0⟩,
  ⟨0x680014, 0x0, 1, 0x0, 0x0, 0xffffffff, 0x0⟩,
  ⟨0x680018, 0x0, 1, 0x0, 0x0, 0x0, 0x0⟩,
  ⟨0x68001c, 0x0, 1, 0x0, 0x0, 0x0, 0x0⟩,
  ⟨0x680020, 0x0, 1, 0x0, 0x0, 0x0, 0x0⟩,
  ⟨0x680024, 0x0, 1, 0x0, 0x0, 0x0, 0x0⟩,
  ⟨0x680028, 0x0, 1, 0x0, 0x0, 0x0, 0x0⟩,
  ⟨0x680030, 0x0, 1, 0x0, 0x0, 0x0, 0x0⟩,
  ⟨0x680034, 0x0, 1, 0x0, 0x0, 0x0, 0x0⟩,
  ⟨0x680038, 0x0, 1, 0x0, 0x0, 0x0, 0x0⟩,
  ⟨0x68003c, 0x0, 1, 0x0, 0x0, 0x0, 0x0⟩,
  ⟨0x680040, 0x0, 1, 0x0, 0x0, 0x0, 0x0⟩,
  ⟨0x680050, 0x4, 3, 0x0, 0x0, 0x0, 0x0⟩,
  ⟨0x680080, 0x4, 24, 0x0, 0x0, 0x0, 0x0⟩,
  ⟨0x700000, 0x0, 1, 0x0, 0x0, 0x0, 0x0⟩,
  ⟨0x700008, 0x0, 1, 0x0, 0x0, 0x0, 0x0⟩,
  ⟨0x70000c, 0x0, 1, 0x0, 0x0, 0x0, 0x0⟩,
  ⟨0x700010, 0x0, 1, 0x0, 0x0, 0x0, 0x0⟩,
  ⟨0x700014, 0x0, 1, 0x0, 0x0, 0x0, 0x0⟩,
  ⟨0x700018, 0x0, 1, 0x0, 0x0, 0x0, 0x0⟩,
  ⟨0x70001c, 0x0, 1, 0x0, 0x0, 0x0, 0x0⟩,
  ⟨0x700020, 0x0, 1, 0x0, 0x0, 0x0, 0x0⟩,
  ⟨0x700024, 0x0, 1, 0x0, 0x0, 0x0, 0x0⟩,
  ⟨0x700028, 0x0, 1, 0x0, 0x0, 0x0, 0x0⟩,
  ⟨0x70002c, 0x0, 1, 0x0, 0x0, 0x0, 0x0⟩,
  ⟨0x700030, 0x0, 1, 0x0, 0x0, 0x0, 0x0⟩,
  ⟨0x700034, 0x0, 1, 0x0, 0x0, 0x0, 0x0⟩]

def regRows3 : List RegRow := [
  ⟨0x700038, 0x0, 1, 0x0, 0x0, 0x0, 0x0⟩,
  ⟨0x700040, 0x0, 1, 0x0, 0x0, 0x0, 0x0⟩,
  ⟨0x700044, 0x0, 1, 0x0, 0x0, 0x0, 0x0⟩,
  ⟨0x700048, 0x0, 1, 0x0, 0x0, 0x0, 0x0⟩,
  ⟨0x700050, 0x0, 1, 0x0, 0x0, 0x0, 0x0⟩,
  ⟨0x700054, 0x0, 1, 0x0, 0x0, 0x0, 0x0⟩,
  ⟨0x700058, 0x0, 1, 0x0, 0x1f, 0x0, 0x0⟩,
  ⟨0x70005c, 0x0, 1, 0x0, 0x0, 0xffffffff, 0x0⟩,
  ⟨0x710000, 0x0, 1, 0x0, 0x0, 0x0, 0x0⟩,
  ⟨0x710004, 0x0, 1, 0x0, 0xf, 0x0, 0x0⟩,
  ⟨0x710008, 0x0, 1, 0x0, 0x0, 0x0, 0x0⟩,
  ⟨0x710100, 0x20, 64, 0x0, 0x0, 0x0, 0x0⟩,
  ⟨0x710104, 0x20, 64, 0x0, 0x0, 0x0, 0x0⟩,
  ⟨0x710108, 0x20, 64, 0x0, 0x0, 0x0, 0x0⟩,
  ⟨0x71010c, 0x20, 64, 0x0, 0x0, 0x0, 0x0⟩,
  ⟨0x710110, 0x20, 64, 0x0, 0x0, 0x0, 0x0⟩,
  ⟨0x711000, 0x4, 512, 0x3ffff, 0x0, 0x0, 0x0⟩,
  ⟨0x800000, 0x0, 1, 0x0, 0x0, 0x0, 0x0⟩,
  ⟨0x800004, 0x0, 1, 0x0, 0x3f, 0x0, 0x0⟩,
  ⟨0x800008, 0x0, 1, 0x7, 0x0, 0x0, 0x0⟩,
  ⟨0x800010, 0x0, 1, 0x0, 0x0, 0x0, 0x0⟩,
  ⟨0x800014, 0x0, 1, 0x0, 0x0, 0x0, 0x0⟩,
  ⟨0x800018, 0x0, 1, 0x0, 0x0, 0x0, 0x0⟩,
  ⟨0x80001c, 0x0, 1, 0x0, 0x0, 0x0, 0x0⟩,
  ⟨0x800020, 0x0, 1, 0xffffffff, 0x0, 0x0, 0x0⟩,
  ⟨0x800024, 0x0, 1, 0x0, 0x0, 0x0, 0xffffffff⟩,
  ⟨0x800028, 0x0, 1, 0x0, 0x0, 0x0, 0x0⟩,
  ⟨0x80002c, 0x0, 1, 0x0, 0x0, 0x0, 0x0⟩,
  ⟨0x800030, 0x0, 1, 0x0, 0x0, 0xffffffff, 0x0⟩,
  ⟨0x800034, 0x0, 1, 0x0, 0x0, 0xffffffff, 0x0⟩,
  ⟨0x800038, 0x0, 1, 0x0, 0x0, 0xffffffff, 0x0⟩,
  ⟨0x80003c, 0x0, 1, 0x0, 0x0, 0x0, 0x0⟩,
  ⟨0x800100, 0x40, 3, 0x0, 0x0, 0x0, 0x0⟩,
  ⟨0x800104, 0x40, 3, 0x0, 0x0, 0x0, 0x0⟩,
  ⟨0x800108, 0x40, 3, 0x0, 0x0, 0x0, 0x0⟩,
  ⟨0x80010c, 0x40, 3, 0x0, 0x0, 0x0, 0x0⟩,
  ⟨0x800110, 0x40, 3, 0x0, 0x0, 0x0, 0x0⟩,
  ⟨0x800114, 0x40, 3, 0x0, 0x0, 0x0, 0x0⟩,
  ⟨0x800118, 0x40, 3, 0x0, 0x0, 0x0, 0x0⟩,
  ⟨0x80011c, 0x40, 3, 0x0, 0x0, 0x0, 0x0⟩]

def regRows4 : List RegRow := [
  ⟨0x800120, 0x40, 3, 0x0, 0x0, 0x0, 0x0⟩,
  ⟨0x800124, 0x40, 3, 0x0, 0x0, 0x0, 0x0⟩,
  ⟨0x800128, 0x40, 3, 0x0, 0x0, 0x0, 0x0⟩,
  ⟨0x800200, 0x0, 1, 0xffffffff, 0x0, 0x0, 0x0⟩,
  ⟨0x800204, 0x0, 1, 0xffffffff, 0x0, 0x0, 0x0⟩,
  ⟨0x800208, 0x0, 1, 0x3f, 0x0, 0x0, 0x0⟩,
  ⟨0x80020c, 0x0, 1, 0x7ffffff, 0x0, 0x0, 0x0⟩,
  ⟨0x800210, 0x0, 1, 0xffffffff, 0x0, 0x0, 0x0⟩,
  ⟨0x800214, 0x0, 1, 0xffffffff, 0x0, 0x0, 0x0⟩,
  ⟨0x800218, 0x0, 1, 0x0, 0x0, 0x0, 0x0⟩,
  ⟨0x80021c, 0x0, 1, 0xffffffff, 0x0, 0x0, 0x0⟩,
  ⟨0x810000, 0x1000, 2, 0x0, 0x0, 0x0, 0x0⟩,
  ⟨0x810008, 0x1000, 2, 0x0, 0x0, 0x0, 0x0⟩,
  ⟨0x81000c, 0x1000, 2, 0x0, 0x0, 0x0, 0x0⟩,
  ⟨0x810010, 0x1000, 2, 0x0, 0x0, 0x0, 0x0⟩,
  ⟨0x810014, 0x1000, 2, 0x0, 0x0, 0x0, 0x0⟩,
  ⟨0x810018, 0x1000, 2, 0x0, 0x0, 0xffffffff, 0x0⟩,
  ⟨0x600040, 0x1000, 96, 0x0, 0x0, 0x0, 0x0⟩,
  ⟨0x600044, 0x1000, 96, 0x0, 0x80000000, 0x0, 0x0⟩,
  ⟨0x600048, 0x1000, 96, 0x0, 0x0, 0x0, 0x0⟩,
  ⟨0x60004c, 0x1000, 96, 0x0, 0x0, 0x0, 0x0⟩,
  ⟨0x600050, 0x1000, 96, 0x0, 0x0, 0x0, 0x0⟩,
  ⟨0x600054, 0x1000, 96, 0x0, 0x0, 0x0, 0x0⟩,
  ⟨0x600058, 0x1000, 96, 0x0, 0x0, 0xffffffff, 0x0⟩,
  ⟨0x680100, 0x0, 1, 0x0, 0x0, 0x0, 0x0⟩,
  ⟨0x680104, 0x0, 1, 0x0, 0x0, 0x0, 0x0⟩,
  ⟨0x680108, 0x0, 1, 0x0, 0x0, 0x0, 0x0⟩,
  ⟨0x68010c, 0x0, 1, 0x0, 0x0, 0x0, 0x0⟩,
  ⟨0x680110, 0x0, 1, 0x0, 0xf, 0x0, 0x0⟩,
  ⟨0x30000, 0x0, 1, 0x0, 0x0, 0x0, 0x0⟩,
  ⟨0x30004, 0x0, 1, 0x0, 0x0, 0x0, 0x0⟩,
  ⟨0x30008, 0x0, 1, 0x0, 0x0, 0x0, 0x0⟩,
  ⟨0x30010, 0x0, 1, 0x0, 0x0, 0x0, 0x0⟩,
  ⟨0x30014, 0x0, 1, 0x0, 0x0, 0x0, 0x0⟩,
  ⟨0x30018, 0x0, 1, 0x0, 0x0, 0x0, 0x0⟩,
  ⟨0x3001c, 0x0, 1, 0x0, 0x0, 0x0, 0x0⟩,
  ⟨0x30020, 0x0, 1, 0x0, 0xf, 0x0, 0x0⟩,
  ⟨0x30024, 0x0, 1, 0x0, 0x0, 0xffffffff, 0x0⟩,
  ⟨0x30028, 0x0, 1, 0x0, 0x0, 0xffffffff, 0x0⟩,
  ⟨0x3002c, 0x0, 1, 0x0, 0x0, 0xffffffff, 0x0⟩]

def regRows5 : List RegRow := [
  ⟨0x901000, 0x40, 16, 0xffffffff, 0x0, 0x0, 0x0⟩,
  ⟨0x901004, 0x40, 16, 0xffffffff, 0x0, 0x0, 0x0⟩,
  ⟨0x901008, 0x40, 16, 0xffffffff, 0x0, 0x0, 0x0⟩,
  ⟨0x90100c, 0x40, 16, 0xffffffff, 0x0, 0x0, 0x0⟩,
  ⟨0x901010, 0x40, 16, 0xffff, 0x0, 0x0, 0x0⟩,
  ⟨0x901014, 0x40, 16, 0xfff, 0x0, 0x0, 0x0⟩,
  ⟨0x901018, 0x40, 16, 0xfff, 0x0, 0x0, 0x0⟩,
  ⟨0x90101c, 0x40, 16, 0x0, 0x2000000, 0x0, 0x0⟩,
  ⟨0x200000, 0x0, 1, 0x0, 0x0, 0x0, 0x0⟩,
  ⟨0x200004, 0x0, 1, 0x0, 0x0, 0x0, 0x0⟩,
  ⟨0x200008, 0x0, 1, 0x0, 0x0, 0x0, 0x0⟩,
  ⟨0x20000c, 0x0, 1, 0x0, 0x0, 0x0, 0x0⟩,
  ⟨0x200010, 0x0, 1, 0x0, 0x0, 0x0, 0x0⟩,
  ⟨0x200014, 0x0, 1, 0x0, 0x0, 0x0, 0x0⟩,
  ⟨0x200018, 0x0, 1, 0xffffffff, 0x0, 0x0, 0x0⟩,
  ⟨0x20001c, 0x0, 1, 0xffffffff, 0x0, 0x0, 0x0⟩,
  ⟨0x200020, 0x0, 1, 0x7ffff, 0x0, 0x0, 0x0⟩,
  ⟨0x200024, 0x0, 1, 0x0, 0x0, 0x0, 0x0⟩,
  ⟨0x200028, 0x0, 1, 0x0, 0x0, 0x0, 0x0⟩,
  ⟨0x20002c, 0x0, 1, 0x0, 0x0, 0x0, 0x0⟩,
  ⟨0x200030, 0x0, 1, 0x1f, 0x0, 0x0, 0x0⟩,
  ⟨0x200034, 0x0, 1, 0x3fffffff, 0x0, 0x0, 0x0⟩,
  ⟨0x200038, 0x0, 1, 0x3fffffff, 0x0, 0x0, 0x0⟩,
  ⟨0x20003c, 0x0, 1, 0x0, 0x0, 0x0, 0x0⟩,
  ⟨0x200040, 0x0, 1, 0x0, 0x1f, 0x0, 0x0⟩,
  ⟨0x210000, 0x0, 1, 0x0, 0x0, 0x0, 0x0⟩,
  ⟨0x210004, 0x0, 1, 0x1ff, 0x0, 0x0, 0x0⟩,
  ⟨0x210008, 0x0, 1, 0xffff, 0x0, 0x0, 0x0⟩,
  ⟨0x21000c, 0x0, 1, 0x0, 0x3f, 0x0, 0x0⟩,
  ⟨0x210100, 0x40, 3, 0xffff7fff, 0x0, 0x0, 0x0⟩,
  ⟨0x210104, 0x40, 3, 0xffffffff, 0x0, 0x0, 0x0⟩,
  ⟨0x210108, 0x40, 3, 0x0, 0x0, 0x0, 0x0⟩,
  ⟨0x21010c, 0x40, 3, 0x0, 0x0, 0x0, 0x0⟩,
  ⟨0x210110, 0x40, 3, 0x0, 0x0, 0x0, 0x0⟩,
  ⟨0x220000, 0x0, 1, 0x7, 0x0, 0x0, 0x0⟩,
  ⟨0x220004, 0x0, 1, 0x0, 0x0, 0x0, 0x0⟩,
  ⟨0x220008, 0x0, 1, 0x0, 0x0, 0x0, 0x0⟩,
  ⟨0x22000c, 0x0, 1, 0x0, 0x0, 0x0, 0x0⟩,
  ⟨0x220010, 0x0, 1, 0x0, 0x0, 0x0, 0x0⟩,
  ⟨0x220014, 0x0, 1, 0x0, 0x0, 0x0, 0x0⟩]

def regRows6 : List RegRow := [
  ⟨0x220018, 0x0, 1, 0x0, 0x0, 0xffffffff, 0x0⟩,
  ⟨0x22001c, 0x0, 1, 0x0, 0x0, 0xffffffff, 0x0⟩,
  ⟨0x220020, 0x0, 1, 0x0, 0x0, 0xffffffff, 0x0⟩,
  ⟨0x220024, 0x0, 1, 0x0, 0x0, 0xffffffff, 0x0⟩,
  ⟨0x100000, 0x10000, 6, 0x0, 0x0, 0x0, 0x0⟩,
  ⟨0x100004, 0x10000, 6, 0x0, 0x0, 0x0, 0x0⟩,
  ⟨0x100008, 0x10000, 6, 0x0, 0x0, 0x0, 0x0⟩,
  ⟨0x10000c, 0x10000, 6, 0x0, 0x0, 0xffffffff, 0x0⟩,
  ⟨0x100010, 0x10000, 6, 0x0, 0x0, 0xffffffff, 0x0⟩,
  ⟨0x100014, 0x10000, 6, 0x0, 0x0, 0xffffffff, 0x0⟩,
  ⟨0x100018, 0x10000, 6, 0x0, 0x0, 0xffffffff, 0x0⟩,
  ⟨0x10001c, 0x10000, 6, 0x0, 0x0, 0xffff, 0x0⟩,
  ⟨0x100020, 0x10000, 6, 0x0, 0x0, 0x0, 0x0⟩,
  ⟨0x100024, 0x10000, 6, 0x0, 0x3f, 0x0, 0x0⟩,
  ⟨0x180000, 0x0, 1, 0x0, 0x0, 0x0, 0x0⟩,
  ⟨0x180004, 0x0, 1, 0xf, 0x0, 0x0, 0x0⟩,
  ⟨0x180008, 0x0, 1, 0x0, 0x0, 0x0, 0x0⟩,
  ⟨0x18000c, 0x0, 1, 0x0, 0x7, 0x0, 0x0⟩,
  ⟨0x180010, 0x0, 1, 0x0, 0x0, 0xffffffff, 0x0⟩,
  ⟨0x60000, 0x0, 1, 0x0, 0x0, 0x0, 0x0⟩,
  ⟨0x60004, 0x0, 1, 0xffff, 0x0, 0x0, 0x0⟩,
  ⟨0x60008, 0x0, 1, 0x0, 0x3f, 0x0, 0x0⟩,
  ⟨0x6000c, 0x0, 1, 0x0, 0x0, 0xffffffff, 0x0⟩,
  ⟨0x60010, 0x0, 1, 0x0, 0x0, 0xffffffff, 0x0⟩,
  ⟨0x60014, 0x0, 1, 0x1fffff, 0x0, 0x0, 0x0⟩,
  ⟨0x60018, 0x0, 1, 0x0, 0x0, 0x0, 0x0⟩,
  ⟨0x6001c, 0x0, 1, 0x0, 0x0, 0x0, 0x0⟩,
  ⟨0x60020, 0x0, 1, 0x0, 0x0, 0x0, 0x0⟩,
  ⟨0x60100, 0x4, 64, 0xff, 0x0, 0x0, 0x0⟩,
  ⟨0x70000, 0x0, 1, 0x0, 0x0, 0x0, 0x0⟩,
  ⟨0x70004, 0x0, 1, 0x0, 0x0, 0x0, 0x0⟩,
  ⟨0x70008, 0x0, 1, 0x0, 0x0, 0x0, 0x0⟩,
  ⟨0x7000c, 0x0, 1, 0x0, 0x0, 0x0, 0x0⟩,
  ⟨0x70010, 0x0, 1, 0x0, 0x0, 0x0, 0x0⟩,
  ⟨0x70014, 0x0, 1, 0x0, 0x0, 0x0, 0x0⟩,
  ⟨0x70018, 0x0, 1, 0x0, 0xf, 0x0, 0x0⟩,
  ⟨0x7001c, 0x0, 1, 0x0, 0x0, 0xffffffff, 0x0⟩,
  ⟨0x40000, 0x0, 1, 0x1, 0x0, 0x0, 0x0⟩,
  ⟨0x40008, 0x0, 1, 0xffffffff, 0x0, 0x0, 0x0⟩,
  ⟨0x4000c, 0x0, 1, 0xffffffff, 0x0, 0x0, 0x0⟩]

def regRows7 : List RegRow := [
  ⟨0x40010, 0x0, 1, 0x0, 0x0, 0x0, 0x0⟩,
  ⟨0x40018, 0x0, 1, 0xffffffff, 0x0, 0x0, 0x0⟩,
  ⟨0x4001c, 0x0, 1, 0xffffffff, 0x0, 0x0, 0x0⟩,
  ⟨0x40020, 0x0, 1, 0x0, 0x0, 0x0, 0x0⟩,
  ⟨0x40024, 0x0, 1, 0x0, 0x0, 0x0, 0x0⟩,
  ⟨0x40028, 0x0, 1, 0x0, 0x80000000, 0x0, 0x0⟩,
  ⟨0x40030, 0x0, 1, 0x0, 0x0, 0x0, 0x0⟩,
  ⟨0x40034, 0x0, 1, 0x0, 0x0, 0x0, 0x0⟩,
  ⟨0x40038, 0x0, 1, 0x0, 0x80000000, 0x0, 0x0⟩,
  ⟨0x4003c, 0x0, 1, 0x0, 0x0, 0xffffffff, 0x0⟩,
  ⟨0x40040, 0x0, 1, 0x0, 0xf, 0x0, 0x0⟩,
  ⟨0x50000, 0x0, 1, 0x0, 0x0, 0x0, 0x0⟩,
  ⟨0x50004, 0x0, 1, 0x2, 0x0, 0x0, 0x1⟩,
  ⟨0x50008, 0x0, 1, 0x0, 0x0, 0x0, 0x0⟩,
  ⟨0x5000c, 0x0, 1, 0x0, 0x0, 0x0, 0x0⟩,
  ⟨0x50010, 0x0, 1, 0x0, 0x0, 0x0, 0x0⟩,
  ⟨0x50014, 0x0, 1, 0x0, 0xf, 0x0, 0x0⟩,
  ⟨0x50018, 0x0, 1, 0x0, 0x0, 0xffffffff, 0x0⟩,
  ⟨0x50100, 0x40, 16, 0xffffffff, 0x0, 0x0, 0x0⟩,
  ⟨0x50104, 0x40, 16, 0xffffffff, 0x0, 0x0, 0x0⟩,
  ⟨0x50108, 0x40, 16, 0x3f6, 0x0, 0x0, 0x9⟩,
  ⟨0x5010c, 0x40, 16, 0x0, 0x0, 0x0, 0x0⟩,
  ⟨0x50110, 0x40, 16, 0x0, 0x0, 0x0, 0x0⟩,
  ⟨0x50114, 0x40, 16, 0x0, 0x0, 0x0, 0x0⟩,
  ⟨0x50118, 0x40, 16, 0x0, 0x0, 0x0, 0x0⟩,
  ⟨0x5011c, 0x40, 16, 0x0, 0x0, 0x0, 0x0⟩,
  ⟨0x50120, 0x40, 16, 0x0, 0x0, 0xffffffff, 0x0⟩,
  ⟨0x20000, 0x0, 1, 0x0, 0x0, 0x0, 0x0⟩,
  ⟨0x20004, 0x0, 1, 0x3f, 0x0, 0x0, 0x0⟩,
  ⟨0x20008, 0x0, 1, 0x0, 0x0, 0x0, 0x0⟩,
  ⟨0x2000c, 0x0, 1, 0x0, 0x0, 0x0, 0x0⟩,
  ⟨0x20040, 0x0, 1, 0x0, 0x0, 0x0, 0x303ff⟩,
  ⟨0x20044, 0x0, 1, 0x0, 0xf, 0x0, 0x0⟩,
  ⟨0x20048, 0x0, 1, 0x0, 0x0, 0xffffffff, 0x0⟩,
  ⟨0x2004c, 0x0, 1, 0x0, 0x0, 0xffffffff, 0x0⟩,
  ⟨0x20050, 0x0, 1, 0x0, 0x0, 0xffffffff, 0x0⟩,
  ⟨0x20054, 0x0, 1, 0x0, 0x0, 0x0, 0x0⟩,
  ⟨0x20010, 0x0, 1, 0x303ff, 0x0, 0x0, 0x0⟩,
  ⟨0x20014, 0x0, 1, 0x0, 0x0, 0x0, 0x0⟩,
  ⟨0x20018, 0x0, 1, 0x0, 0x0, 0x0, 0x0⟩]

def regRows8 : List RegRow := [
  ⟨0x20020, 0x0, 1, 0x0, 0x0, 0x0, 0x0⟩,
  ⟨0x20024, 0x0, 1, 0x0, 0x0, 0x0, 0x0⟩,
  ⟨0x20028, 0x0, 1, 0x0, 0x0, 0x0, 0x0⟩,
  ⟨0x2002c, 0x0, 1, 0x0, 0x0, 0x0, 0x0⟩,
  ⟨0x20030, 0x0, 1, 0x0, 0x0, 0x0, 0x0⟩,
  ⟨0x20034, 0x0, 1, 0x0, 0x0, 0x0, 0x0⟩,
  ⟨0x20038, 0x0, 1, 0x0, 0x0, 0x0, 0x0⟩,
  ⟨0x2003c, 0x0, 1, 0x3f, 0x0, 0x0, 0x0⟩,
  ⟨0x0, 0x0, 1, 0x0, 0x0, 0x0, 0x0⟩,
  ⟨0x4, 0x0, 1, 0x0, 0x0, 0x0, 0x0⟩,
  ⟨0x8, 0x0, 1, 0x0, 0x0, 0x0, 0x0⟩,
  ⟨0xc, 0x0, 1, 0x0, 0x0, 0x0, 0x0⟩,
  ⟨0x10, 0x0, 1, 0x0, 0x0, 0x0, 0x0⟩,
  ⟨0x14, 0x0, 1, 0x0, 0x7, 0x0, 0x0⟩,
  ⟨0x18, 0x0, 1, 0x0, 0x0, 0x0, 0x0⟩,
  ⟨0x10000, 0x0, 1, 0x0, 0x0, 0x0, 0x0⟩,
  ⟨0x10004, 0x0, 1, 0x0, 0x0, 0x0, 0x0⟩,
  ⟨0x10008, 0x0, 1, 0x0, 0x0, 0x0, 0x0⟩,
  ⟨0x1000c, 0x0, 1, 0x0, 0x7, 0x0, 0x0⟩,
  ⟨0x10010, 0x0, 1, 0x0, 0x0, 0xffffffff, 0x0⟩,
  ⟨0x10014, 0x0, 1, 0x0, 0x0, 0x0, 0x0⟩,
  ⟨0x10018, 0x0, 1, 0x0, 0x0, 0x0, 0x0⟩,
  ⟨0x1001c, 0x0, 1, 0x0, 0x0, 0x0, 0x0⟩,
  ⟨0x10020, 0x4, 6, 0x0, 0x0, 0x0, 0x0⟩,
  ⟨0x10038, 0x0, 1, 0x0, 0x0, 0x0, 0x1⟩,
  ⟨0x10040, 0x4, 6, 0x0, 0xffffffff, 0x0, 0x0⟩]

/-- The register map. -/
def regRows : List RegRow :=
  regRows0 ++ regRows1 ++ regRows2 ++ regRows3 ++ regRows4 ++ regRows5 ++ regRows6 ++ regRows7 ++ regRows8

/-- The row of the register at an offset; none where no register stands there (R12). -/
def regRow (o : Nat) : Option RegRow := regRows.find? (fun r => inRegs r.base r.stride r.count o)

/-- Registers whose reset word is not 0: offset, distance, count, word. -/
def resetRows : List (Nat × Nat × Nat × Nat) := [
  (0x300000, 0x1000, 24, 0x1),
  (0x314004, 0x1000, 4, 0x9c00),
  (0x300004, 0x1000, 20, 0x1c00),
  (0x300040, 0x1000, 24, 0x4),
  (0x300044, 0x1000, 24, 0x4),
  (0x300058, 0x1000, 24, 0x5004),
  (0x300070, 0x1000, 24, 0x20000),
  (0x380000, 0x1000, 5, 0x5),
  (0x380008, 0x1000, 5, 0x1f1f1f1f),
  (0x400000, 0x0, 1, 0x1),
  (0x400008, 0x0, 1, 0x258),
  (0x40100c, 0x100, 5, 0x8000),
  (0x402000, 0x40, 256, 0x38),
  (0x500000, 0x0, 1, 0x28),
  (0x500040, 0x0, 1, 0x2),
  (0x500044, 0x0, 1, 0xc52),
  (0x500048, 0x0, 1, 0x1548),
  (0x600000, 0x1000, 96, 0x3f8),
  (0x680000, 0x0, 1, 0x18),
  (0x680004, 0x0, 1, 0x640),
  (0x68000c, 0x0, 1, 0x40),
  (0x680028, 0x0, 1, 0x2),
  (0x680080, 0x4, 24, 0x7f7f7f7f),
  (0x800008, 0x0, 1, 0x7),
  (0x800208, 0x0, 1, 0x14),
  (0x80020c, 0x0, 1, 0x32000),
  (0x600040, 0x1000, 96, 0x4000),
  (0x680100, 0x0, 1, 0x10000),
  (0x680104, 0x0, 1, 0x7f),
  (0x30008, 0x0, 1, 0xf0),
  (0x901010, 0x40, 16, 0xcc),
  (0x200020, 0x0, 1, 0x3e8),
  (0x200030, 0x0, 1, 0x14),
  (0x200034, 0x0, 1, 0x3b9aca00),
  (0x210004, 0x0, 1, 0x18),
  (0x210008, 0x0, 1, 0x64),
  (0x210100, 0x0, 1, 0xc80961),
  (0x210140, 0x0, 1, 0xc80963),
  (0x210180, 0x0, 1, 0xc80964),
  (0x220000, 0x0, 1, 0x3),
  (0x100020, 0x10000, 6, 0x2000000),
  (0x180000, 0x0, 1, 0x7),
  (0x180004, 0x0, 1, 0x9),
  (0x60000, 0x0, 1, 0xffff),
  (0x60004, 0x0, 1, 0xffff),
  (0x60014, 0x0, 1, 0x7d1),
  (0x60100, 0x4, 64, 0x1),
  (0x70004, 0x0, 1, 0xf334),
  (0x70008, 0x0, 1, 0xccc),
  (0x40010, 0x0, 1, 0x1e),
  (0x50004, 0x0, 1, 0x2),
  (0x50108, 0x40, 16, 0x4),
  (0x2003c, 0x0, 1, 0x18),
  (0x4, 0x0, 1, 0x70ff70ff),
  (0x8, 0x0, 1, 0xff),
  (0x10004, 0x0, 1, 0xffff0000),
  (0x10034, 0x0, 1, 0xa)]

/-- The reset word of the register at an offset. -/
def resetWord (o : Nat) : Word :=
  match resetRows.find? (fun r => inRegs r.1 r.2.1 r.2.2.1 o) with
  | some r => BitVec.ofNat 32 r.2.2.2
  | none => 0

/-- The register words: what a register holds that differs from its reset word. The difference is kept
so that equal register files are equal data. -/
def State.word (s : State) (o : Nat) : Word := tget 0 s.regs o ^^^ resetWord o

/-- The register at offset `o` holds `v`. -/
def State.setWord (s : State) (o : Nat) (v : Word) : State :=
  { s with regs := tset 0 s.regs o (v ^^^ resetWord o) }

/-- Offset of the register of a field for index `i`. -/
def Fld.at (f : Fld) (i : Nat) : Nat := f.base + f.stride * i

/-- What a field holds. -/
def State.rd (s : State) (f : Fld) (i : Nat := 0) : Nat :=
  (s.word (f.at i)).toNat / 2 ^ f.lo % 2 ^ f.w

/-- The word `x` with bits `lo` to `lo + w - 1` holding `v`. -/
def putBits (x : Nat) (lo w v : Nat) : Nat :=
  x % 2 ^ lo + v % 2 ^ w * 2 ^ lo + x / 2 ^ (lo + w) * 2 ^ (lo + w)

/-- A field holds `v`, its register's other bits unchanged. -/
def State.wr (s : State) (f : Fld) (i : Nat) (v : Nat) : State :=
  s.setWord (f.at i) (BitVec.ofNat 32 (putBits (s.word (f.at i)).toNat f.lo f.w v))

/-- What a 64-bit quantity holds. -/
def State.rd64 (s : State) (r : Reg64) (i : Nat := 0) : Nat :=
  (s.word (r.base + r.stride * i)).toNat + 2 ^ 32 * (s.word (r.base + r.stride * i + 4)).toNat

/-- A 64-bit quantity holds `v`. -/
def State.wr64 (s : State) (r : Reg64) (i : Nat) (v : Nat) : State :=
  (s.setWord (r.base + r.stride * i) (BitVec.ofNat 32 v)).setWord (r.base + r.stride * i + 4)
    (BitVec.ofNat 32 (v / 2 ^ 32))

/-- Set one bit of a field (an event bit). -/
def State.flag (s : State) (f : Fld) (i : Nat := 0) : State := s.wr f i 1

/-- Whether a one-bit field holds 1. -/
def State.on (s : State) (f : Fld) (i : Nat := 0) : Bool := s.rd f i == 1

/-- A one-bit field holds `b`. -/
def State.put (s : State) (f : Fld) (i : Nat) (b : Bool) : State := s.wr f i (if b then 1 else 0)

/-- A counter advances by `n` and holds its largest value once there. -/
def State.bump (s : State) (f : Fld) (i : Nat := 0) (n : Nat := 1) : State :=
  s.wr f i (min (s.rd f i + n) (2 ^ f.w - 1))

/-- A counter advances by `n` and wraps. -/
def State.bumpW (s : State) (f : Fld) (i : Nat := 0) (n : Nat := 1) : State := s.wr f i (s.rd f i + n)

/-- A 64-bit counter advances by `n`. -/
def State.bump64 (s : State) (r : Reg64) (i : Nat := 0) (n : Nat := 1) : State := s.wr64 r i (s.rd64 r i + n)

end Sys2Proof.Machine
end

