-- ==== Sys2Proof/Machine/Ops.lean ====
section
/-! DEFINITION. The operations the commands share: the tables' accessors, device time, free values,
messages that leave the module, host memory and completion queues, numbered events (R355 to R359, R77),
fault messages (R470, R471), ledger records to be written (R428 to R432, R528), and the HBM bytes. -/

namespace Sys2Proof.Machine

/-! ### Accessors: one get and one set per table of State -/

def State.lane (s : State) (l : Nat) : LaneX := tget {} s.lanes l
def State.setLane (s : State) (l : Nat) (x : LaneX) : State := { s with lanes := tset {} s.lanes l x }
def State.bundle (s : State) (b : Nat) : BundleX := tget {} s.bundles b
def State.setBundle (s : State) (b : Nat) (x : BundleX) : State := { s with bundles := tset {} s.bundles b x }
def State.link (s : State) (b : Nat) : Link := tget {} s.links b
def State.setLink (s : State) (b : Nat) (x : Link) : State := { s with links := tset {} s.links b x }
def State.session (s : State) (n : Nat) : SessionX := tget {} s.sess n
def State.setSession (s : State) (n : Nat) (x : SessionX) : State := { s with sess := tset {} s.sess n x }
def State.flow (s : State) (f : Nat) : FlowX := tget {} s.flows f
def State.setFlow (s : State) (f : Nat) (x : FlowX) : State := { s with flows := tset {} s.flows f x }
def State.eng (s : State) (e : Nat) : Engine := tget {} s.engs e
def State.setEng (s : State) (e : Nat) (x : Engine) : State := { s with engs := tset {} s.engs e x }
def State.core (s : State) (e : Nat) : CoreState := (s.eng e).core
def State.setCore (s : State) (e : Nat) (c : CoreState) : State := s.setEng e { s.eng e with core := c }
def State.slot (s : State) (i : Nat) : PlanSlot := tget {} s.plans.slots i
def State.setSlot (s : State) (i : Nat) (x : PlanSlot) : State :=
  { s with plans := { s.plans with slots := tset {} s.plans.slots i x } }
def State.part (s : State) (p : Nat) : Partition := tget {} s.outp.parts p
def State.setPart (s : State) (p : Nat) (x : Partition) : State :=
  { s with outp := { s.outp with parts := tset {} s.outp.parts p x } }
def State.zslot (s : State) (i : Nat) : ZoomSlot := tget {} s.beams.slots i
def State.setZslot (s : State) (i : Nat) (x : ZoomSlot) : State :=
  { s with beams := { s.beams with slots := tset {} s.beams.slots i x } }
/-- Key of range channel (t, ch), t its range's first counter. -/
def chanKey (t ch : Nat) : Nat := 1024 * (t / 4096) + ch
def State.chan (s : State) (t ch : Nat) : RangeChan := tget {} s.deck.chans (chanKey t ch)
def State.setChan (s : State) (t ch : Nat) (x : RangeChan) : State :=
  { s with deck := { s.deck with chans := tset {} s.deck.chans (chanKey t ch) x } }
def State.refx (s : State) (r : Nat) : RefX := tget {} s.timeb.refs r
def State.setRefx (s : State) (r : Nat) (x : RefX) : State :=
  { s with timeb := { s.timeb with refs := tset {} s.timeb.refs r x } }
def State.dmac (s : State) (c : Nat) : DmaX := tget {} s.dma c
def State.setDmac (s : State) (c : Nat) (x : DmaX) : State := { s with dma := tset {} s.dma c x }
def State.capture (s : State) (src cls : Nat) : Option Capture := tget none s.flt.caps (4 * src + cls)
def State.setCapture (s : State) (src cls : Nat) (c : Option Capture) : State :=
  { s with flt := { s.flt with caps := tset none s.flt.caps (4 * src + cls) c } }

/-- Apply an update to the state for each number below `n`, in ascending order. -/
def forN (n : Nat) (f : State → Nat → State) (s : State) : State := (List.range n).foldl f s

/-- The state changed by `f` when `c` holds. -/
def State.whenS (s : State) (c : Bool) (f : State → State) : State := if c then f s else s

/-! ### Messages, free values, device time -/

/-- A message leaves the module. -/
def State.send (s : State) (m : Msg) : State := { s with sent := m :: s.sent }

/-- The next free value (log 2). -/
def State.freeVal (s : State) : BitVec 64 := Config.freeBits s.fresh
/-- A free value has been drawn. -/
def State.drawn (s : State) : State := { s with fresh := s.fresh + 1 }

/-- Device time in ns (R368). -/
def State.nowNs (s : State) : Nat := s.timeb.sec * 1000000000 + s.timeb.ns

/-- Device time set to a number of ns, within its 48 bits of seconds. -/
def State.setNowNs (s : State) (t : Nat) : State :=
  { s with timeb := { s.timeb with sec := t / 1000000000 % 2 ^ 48, ns := t % 1000000000 } }

/-- Device time in 2^-48 ns, the fraction that no register shows included (R368). -/
def State.now48 (s : State) : Int := (s.nowNs : Int) * 2 ^ 48 + (s.timeb.frac : Int)

/-- The rate term ρ in units of 2^-48 (R369). -/
def State.rho (s : State) : Int := signed 64 (s.rd64 .TIM_RATE)

/-- What device time gains in `n` ns of the cleaned clock, in 2^-48 ns (R369). -/
def State.gain (s : State) (n : Nat) : Nat := (((2 ^ 48 : Nat) + s.rho) * n).toNat

/-- `n` ns of the cleaned clock pass: device time advances by n (1 + ρ 2^-48) ns (R369). -/
def State.advance (s : State) (n : Nat) : State :=
  let f := s.timeb.frac + s.gain n
  let t := s.nowNs + f / 2 ^ 48
  { s with clock := s.clock + n,
           timeb := { s.timeb with sec := t / 1000000000 % 2 ^ 48, ns := t % 1000000000, frac := f % 2 ^ 48 } }

/-- Device time reaches `t` if it has not yet: an event at a device time happens no earlier (log 4). -/
def State.reach (s : State) (t : Nat) : State :=
  if s.nowNs < t && t / 1000000000 < 2 ^ 48 then s.advance (ceilDiv ((t - s.nowNs) * 2 ^ 48 - s.timeb.frac) (s.gain 1)) else s

/-- The nominal time of counter `t` in ns (R40). -/
def Mapping.timeNs (m : Mapping) (t : Nat) : Nat :=
  m.t0Sec * 1000000000 + m.t0Ns + roundHalfUp (t * m.p) m.q

/-- The nominal time of counter `t` in ns; none before a mapping is set (R41). -/
def State.timeOf (s : State) (t : Nat) : Option Nat := s.timeb.map.map (·.timeNs t)

/-- The sample counter at device time now (the largest whose nominal time is not after it). -/
def State.counterNow (s : State) : Nat :=
  match s.timeb.map with
  | none => 0
  | some m => (s.nowNs - (m.t0Sec * 1000000000 + m.t0Ns)) * m.q / m.p

/-! ### Fault messages and refused accesses (R444, R470, R471) -/

/-- Sources of fault messages (R472). -/
def srcLane (l : Nat) : Nat := 0x060 + l
def srcBundle (b : Nat) : Nat := 0x078 + b
def srcStack (k : Nat) : Nat := 0x080 + k
def srcPc (k p : Nat) : Nat := 0x0C0 + 32 * k + p
def srcBank (b : Nat) : Nat := 0x180 + b
def srcSecure : Nat := 0x1C0
def srcLedger : Nat := 0x1C1
def srcSorter : Nat := 0x1C2
def srcCut : Nat := 0x1C3
def srcDealer : Nat := 0x1C4
def srcBeams : Nat := 0x1C5
def srcZoom : Nat := 0x1C6
def srcOutput : Nat := 0x1C7
def srcPort (q : Nat) : Nat := 0x1C8 + q
def srcPci : Nat := 0x1CA
def srcDma : Nat := 0x1CB
def srcFabric : Nat := 0x1CC
def srcMgmt : Nat := 0x1CD
def srcTime : Nat := 0x1CE
def srcPtp : Nat := 0x1CF
def srcPower : Nat := 0x1D0
def srcThermal : Nat := 0x1D1
def srcTamper : Nat := 0x1D2

/-- The fault message of a source, kind and class, with no master (R470). -/
def mkFault (source kind cls addr : Nat) (master : Nat := 0xFF) (type : Nat := 0) : FaultMsg :=
  { source := Fin.ofNat 1024 source, kind := BitVec.ofNat 6 kind, cls := Fin.ofNat 3 cls,
    master := BitVec.ofNat 8 master, type := BitVec.ofNat 4 type, address := BitVec.ofNat 48 addr }

/-- A waiting message of the same source and class counts the new one; else it waits (R471). -/
def mergeWaiting (m : FaultMsg) : List (FaultMsg × Nat) → List (FaultMsg × Nat)
  | [] => [(m, 1)]
  | (w, n) :: r => if w.source = m.source ∧ w.cls = m.cls then (w, n + 1) :: r else (w, n) :: mergeWaiting m r

/-- A message is merged into one that waits of another kind (R471). -/
def mergedAway (m : FaultMsg) (l : List (FaultMsg × Nat)) : Bool :=
  l.any (fun w => w.1.source == m.source && w.1.cls == m.cls && w.1.kind != m.kind)

/-- Key of a source and class. -/
def fltKey (m : FaultMsg) : Nat := 4 * m.source.val + m.cls.val

/-- The collector receives a message at clock `t` (R471): where it is merged, its own action still takes place (R479). -/
def Flt.receive (f : Flt) (m : FaultMsg) (t : Nat) : Flt :=
  { f with waiting := mergeWaiting m f.waiting
           merged := if mergedAway m f.waiting then m :: f.merged else f.merged
           arrived := if f.waiting.any (fun w => w.1.source == m.source && w.1.cls == m.cls) then f.arrived else tset 0 f.arrived (fltKey m) t
           ended := tset false f.ended (2 ^ 6 * fltKey m + m.kind.toNat) false }

/-- The waiting message that the collector takes next: the oldest, and of those that arrived in the same collector step the one of the
lowest source and class (R471; a step is taken as a ns of the clock, log 49). -/
def Flt.next (f : Flt) : Option (FaultMsg × Nat) :=
  match f.waiting with
  | [] => none
  | w :: r =>
    let at_ := fun (x : FaultMsg × Nat) => tget 0 f.arrived (fltKey x.1)
    some (r.foldl (fun b x => if at_ x = at_ w ∧ fltKey x.1 < fltKey b.1 then x else b) w)

/-- A fault message reaches the collector (R470, R471); FAULT_MESSAGE takes it from there. -/
def State.raise (s : State) (m : FaultMsg) : State :=
  let s := { s with flt := s.flt.receive m s.clock }
  if m.cls.val = 0 then s.bump .FLT_CNTC_COUNT else if m.cls.val = 1 then s.bump .FLT_CNTU_COUNT
  else s.bump .FLT_CNTF_COUNT

/-- The condition behind a fault of a source, class and kind holds again, or has ended: LIVE of its capture follows, and while its
message waits the collector learns it too (R482). -/
def State.setLive (s : State) (source cls kind : Nat) (b : Bool) : State :=
  let waits := s.flt.waiting.any (fun w => w.1.source.val == source && w.1.cls.val == cls && w.1.kind.toNat == kind)
  let s := { s with flt := { s.flt with ended := tset false s.flt.ended (2 ^ 6 * (4 * source + cls) + kind) (!b && waits) } }
  match s.capture source cls with
  | some c => if c.kind = kind then s.setCapture source cls (some { c with live := b }) else s
  | none => s

/-- A fault of a block: source, kind, class (0 C, 1 U, 2 F) and the number R473 names. -/
def State.fault (s : State) (source kind cls : Nat) (addr : Nat := 0) : State :=
  s.raise (mkFault source kind cls addr)

/-- An access refused under R444: error capture of the first, and a fault message (R444, R467, R473). -/
def State.fabRefuse (s : State) (master type addr : Nat) : State :=
  let s := if s.on .FAB_ERRINFO_VALID then s
    else (((s.wr64 .FAB_ERRADDR 0 addr).wr .FAB_ERRINFO_MASTER 0 master).wr .FAB_ERRINFO_TYPE 0 type).wr .FAB_ERRINFO_VALID 0 1
  (s.flag .FAB_EVT_UNMAPPED).raise (mkFault srcFabric 1 1 addr master type)

/-- Host bytes that the outbound window reaches (R447). -/
def State.hostIn (s : State) (a n : Nat) : Bool :=
  decide (s.rd64 .FAB_OBBASE ≤ a) && decide (a + n ≤ s.rd64 .FAB_OBBASE + 2 ^ 39)

/-! ### Host memory and the completion queues (R346 to R348) -/

def State.hostRead (s : State) (a n : Nat) : List Byte := tgetMany 0 s.modl.hostMem a n
def State.hostWrite (s : State) (a : Nat) (l : List Byte) : State :=
  { s with modl := { s.modl with hostMem := tsetMany 0 s.modl.hostMem a l } }

/-- Parameter bytes of a packet. -/
def paramBytes (l : List (Nat × Nat)) : List Byte := l.flatMap (fun p => leBytes p.1 p.2)

/-- The 32 header bytes of a packet (R339). -/
def Packet.header (p : Packet) : List Byte :=
  leBytes 2 0x5749 ++ leBytes 1 1 ++ leBytes 1 p.kind ++ leBytes 2 p.opcode ++
  leBytes 2 ((if p.rpt then 2 else 0) + (if p.lost then 4 else 0)) ++ leBytes 4 p.tag.toNat ++
  leBytes 4 (paramBytes p.params).length ++ leBytes 8 p.dsn ++ leBytes 2 p.status ++
  leBytes 2 p.detail ++ leBytes 4 0

/-- Framing of RFC 1055: END after the bytes, and an END or ESC among them as ESC and a code of its own (R351; the codes are
RFC 1055's, PRESUMED, log 18). -/
def slip (l : List Byte) : List Byte :=
  l.flatMap (fun b => if b = 0xC0 then [0xDB, 0xDC] else if b = 0xDB then [0xDB, 0xDD] else [b]) ++ [0xC0]

/-- The packet with the trailer of R339, as the management port sends it, and framed, as the UART does (R351). -/
def Packet.bytes (p : Packet) : List Byte :=
  let b := p.header ++ paramBytes p.params
  let b := b ++ leBytes 4 (crc32c b)
  match p.src with
  | .uart => slip b
  | _ => b

/-- Entries of the completion queue a packet of `len` parameter bytes takes (R347). -/
def cqNeed (len : Nat) (buffered : Bool) : Nat :=
  if len ≤ 28 || buffered then 1 else 1 + ceilDiv (len - 28) 56

/-- Entries of queue pair `q`'s completion queue. -/
def State.cqSize (s : State) (q : Nat) : Nat := 2 ^ s.rd .PCI_QCFG_CQLOG2 q

/-- Entries free in the completion queue: head and tail equal means empty (DEDUCED, log 18). -/
def State.cqFree (s : State) (q : Nat) : Nat :=
  let n := s.cqSize q
  n - 1 - (s.rd .PCI_QSTAT_CQTAIL q + n - s.rd .PCI_CQHEAD_HEAD q) % n

/-- The phase bit the module writes on the present pass (R346). -/
def State.phase (s : State) (q : Nat) : Bool := (tget false s.pciPhase q) ^^ Config.firstPhase q

/-- A queue pair's bytes go to host memory; a host address that the outbound window does not reach is refused, which sets FETCHERR,
and nothing is written (R444, R447; what becomes of the entry is open, log 18). -/
def State.queueWrite (s : State) (q a : Nat) (l : List Byte) : State :=
  if l.isEmpty then s
  else if s.hostIn a l.length then s.hostWrite a l else (s.fabRefuse 4 1 (a % 2 ^ 40)).flag .PCI_QSTAT_FETCHERR q

/-- One entry into the completion queue: 60 bytes of contents, then SQ head, phase and CONT. -/
def State.cqEntry (s : State) (q : Nat) (contents : List Byte) (cont : Bool) : State :=
  let t := s.rd .PCI_QSTAT_CQTAIL q
  let e := padTo 60 contents ++ leBytes 2 (s.rd .PCI_QSTAT_SQHEAD q) ++
    leBytes 1 ((if s.phase q then 1 else 0) + (if cont then 2 else 0)) ++ leBytes 1 0
  let s := s.queueWrite q (s.rd64 .PCI_CQBASE q + 64 * t) e
  let s := if t + 1 = s.cqSize q then { s with pciPhase := tset false s.pciPhase q (!tget false s.pciPhase q) } else s
  s.wr .PCI_QSTAT_CQTAIL q ((t + 1) % s.cqSize q)

/-- The continuation entries of parameter bytes (R347). -/
def State.cqConts (s : State) (q : Nat) (l : List Byte) (fuel : Nat) : State :=
  match fuel with
  | 0 => s
  | n + 1 => if l.isEmpty then s else (s.cqEntry q (padTo 56 (l.take 56)) true).cqConts q (l.drop 56) n

/-- A packet into the completion queue of queue pair `q`, with a reply buffer or continuation entries,
and its MSI-X vector (R346, R347). -/
def State.cqPost (s : State) (q : Nat) (p : Packet) (buf : Option (Nat × Nat)) : State :=
  let pb := paramBytes p.params
  let s := match buf with
    | some (a, len) => s.queueWrite q a ((pb.drop 28).take len)
    | none => s
  let s := s.cqEntry q (p.header ++ padTo 28 (pb.take 28)) false
  let s := if buf.isNone then s.cqConts q (pb.drop 28) (pb.length) else s
  s.send (.msix (s.rd .PCI_QCFG_VEC q))

/-- A packet goes to its source: on its queue pair, the management port or the UART. -/
def State.sendPacket (s : State) (p : Packet) (buf : Option (Nat × Nat)) : State :=
  let s := s.send (.winos p)
  match p.src with
  | .qp q => if s.modl.pciUp then s.cqPost q.val p buf else s
  | _ => s

/-! ### Events (R355 to R359, R526, R77) -/

/-- The 48 parameter bytes of an event (R359). -/
def Event.params (e : Event) : List (Nat × Nat) :=
  [(1, e.port), (1, 0), (2, e.code), (4, e.source), (8, e.counter), (8, e.arg), (6, e.sec), (2, 0),
   (4, e.ns), (12, 0)]

/-- The event packet for a destination (R359). -/
def Event.packet (e : Event) (src : Src) (lost : Bool) : Packet :=
  { src := src, kind := 3, opcode := 0, rpt := false, lost := lost, tag := 0, dsn := e.dsn, status := 0,
    detail := 0, params := e.params }

/-- Completions still owed on queue pair `q` (R348); each takes one entry. -/
def State.owed (s : State) (q : Nat) : Nat :=
  (s.dealer.longs.filter (fun o => match o.src with | .qp k => k.val == q | _ => false)).length

/-- An event goes to a queue pair whose mask names its port (R359). -/
def State.deliver (s : State) (e : Event) (dest : Nat) : State :=
  if bitOf (tget 0 s.dealer.masks dest) e.port then
    if s.on .PCI_QCFG_EVQ dest && s.on .PCI_QCFG_EN dest then
      if cqNeed 48 false + s.owed dest ≤ s.cqFree dest && s.modl.pciUp then
        ({ s with dealer := { s.dealer with lost := tset false s.dealer.lost dest false } }).sendPacket
          (e.packet (.qp (Fin.ofNat 16 dest)) (tget false s.dealer.lost dest)) none
      else
        ({ s with dealer := { s.dealer with lost := tset false s.dealer.lost dest true } }).bump .DLR_EVLOST_COUNT
          |>.flag .DLR_EVT_EVLOST
    else s
  else s

/-- An event goes to a management source whose mask names its port (R359): the port drops none (log 9). -/
def State.deliverMgmt (s : State) (e : Event) (d : Src × Nat) : State :=
  if bitOf d.2 e.port then s.sendPacket (e.packet d.1 false) none else s

def State.deliverAll (s : State) (e : Event) (l : List (Src × Nat)) : State := l.foldl (fun s d => s.deliverMgmt e d) s

/-- Number an event with the next DSN, keep it among the last 4096 and deliver it. -/
def State.numberEvent (s : State) (port cd source counter arg : Nat) : State :=
  let e : Event := ⟨port, cd, source, counter, arg, s.timeb.sec, s.timeb.ns, s.dealer.dsn⟩
  let d := s.dealer
  let s := { s with dealer := { d with dsn := d.dsn + 1, events := (e :: d.events).take 4096 } }
  (forN 16 (fun s i => s.deliver e i) s).deliverAll e s.dealer.mgmt

/-- An event reaches the dealer (R355). DSN 2^64 - 1 numbers only the capture of DSN exhausted (R77): an
event that would need it is not numbered, and the fatal fault of kind 4 is raised in its place. -/
def State.event (s : State) (port cd source counter arg : Nat) : State :=
  if s.dealer.exhausted then s
  else if s.dealer.dsn < 2 ^ 64 - 1 then s.numberEvent port cd source counter arg
  else ({ s with dealer := { s.dealer with exhausted := true } }).fault 0x1C4 4 2

/-- The capture of DSN exhausted, which alone DSN 2^64 - 1 numbers, has still to be numbered (R77). -/
def State.dsnLeft (s : State) : Bool := s.dealer.exhausted && s.dealer.dsn == 2 ^ 64 - 1

/-- DSN of the event numbered last. Once the last DSN numbers the capture of DSN exhausted no event is numbered: what is written or
answered after it carries 2^64 - 1, which R77 and R428 leave open (DESIGN CHOICE, log 2). -/
def State.lastDsn (s : State) : Nat := s.dealer.dsn - 1

/-! ### The ledger's records to be written (R428 to R432, R528) -/

/-- A record waits to be written; nothing is written once the ledger is read-only (R435). -/
def State.record (s : State) (type key nslot dsn : Nat) (payload : List Byte) : State :=
  if s.on .LGR_STAT_RO || s.ledger.ro then s
  else { s with ledger := { s.ledger with pend := s.ledger.pend ++
    [{ nslot := nslot, type := type, key := key, dsn := dsn, payload := payload }] } }

/-- A repair map entry for an item is issued: event 0x0804, then its record (R432, R528). -/
def State.repair (s : State) (item kind stage unit loc cause : Nat) : State :=
  let s := s.event 8 0x0804 item 0 (kind + 256 * stage + 65536 * unit)
  s.record 6 item 1 s.lastDsn
    (leBytes 1 kind ++ leBytes 1 stage ++ leBytes 2 unit ++ leBytes 8 loc ++ leBytes 1 cause)

/-- The next item number is assigned (R528). -/
def State.newItem (s : State) : State := { s with ledger := { s.ledger with nextItem := s.ledger.nextItem + 1 } }

/-- Payload of the life-cycle record (R432). -/
def State.lifePayload (s : State) : List Byte :=
  let keys := (List.range 8).map (fun i => tget [] s.sec.keys i)
  leBytes 1 s.lcs ++ leBytes 1 (s.rd .ENG_KSTAT_KEYLOCK) ++ leBytes 1 (s.rd .ENG_KSTAT_KEYS) ++
  leBytes 2 s.sec.tampers ++ leBytes 1 (s.rd .SPD_SECSTAT_CAUSE) ++ keys.flatMap (padTo 32)

/-- A life-cycle record is written (R426, R432). -/
def State.lifeRecord (s : State) (dsn : Nat) : State := s.record 7 0 2 dsn s.lifePayload

/-- A domain that a rail fault switched off has power again (R506). -/
def State.domainBack (s : State) (d : Nat) : State := { s with pow := { s.pow with railOff := tset false s.pow.railOff d false } }

/-! ### Acceptance suspended (R152), credits and the firmware -/

/-- Acceptance is wholly suspended (R152, R77): output stall, power-fail warning, reset hold, DSN
exhausted, or a warm reset in progress. -/
def State.suspended (s : State) : Bool :=
  s.on .OUT_STAT_STALL || s.rd .PWR_STAT_STATE != 0 || s.on .FLT_STAT_RESETHOLD || s.dealer.exhausted ||
  s.modl.warm || s.modl.mrst

/-- The data path is stopped by a warm reset: from its start until self-refresh is left and the link layers start
(R513), or while MRST_N holds it (R512). What only READY brings back asks for `modl.warm` instead. -/
def State.inReset (s : State) : Bool := (s.modl.warm && s.modl.resetDue.isSome) || s.modl.mrst

/-- The supply freeze of R200, R291: dealing and draining stop. -/
def State.frozen (s : State) : Bool := s.rd .PWR_STAT_STATE != 0

/-- A block signals a fatal chip reset; the warm reset itself is a command (R511). -/
def State.resetDue (s : State) (cause : Nat) : State :=
  if s.modl.resetDue.isSome then s else { s with modl := { s.modl with resetDue := some cause } }

/-! ### HBM bytes (R401, R402): offsets from 0x10_0000_0000 -/

/-- Lines of the data space. -/
def hbmLines : Nat := 125829120

def State.hbmRead (s : State) (o n : Nat) : List Byte := tgetMany 0 s.hbm.mem o n

/-- Whole lines touched by `n` bytes at offset `o`. -/
def linesOf (o n : Nat) : List Nat :=
  if n = 0 then [] else (List.range ((o + n - 1) / 1024 - o / 1024 + 1)).map (· + o / 1024)

/-- The chunk of line `L` in stack `k` can be reached: the stack is active and the pseudo-channel not retired. -/
def State.chunkOn (s : State) (k L : Nat) : Bool := s.rd .HBM_SSTAT_STATE k == 2 && !bitOf (s.rd .HBM_SPCRET_MAP k) (L / 6 % 32)

/-- A controller needs the row of line `L` in stack `k` (R403): unless its bank holds it open, it is activated, and with
probability 2^-NREXP both neighbouring rows are refreshed and counted (R412; log 15). -/
def State.activate (s : State) (L k : Nat) : State :=
  let h := s.hbm
  let key := 256 * (32 * k + L / 6 % 32) + (Config.hbmBank L).toNat
  if !s.chunkOn k L || tget 0 h.rows key == L + 1 then s
  else
    let hit := (Config.entropy h.draws).toNat % 2 ^ s.rd .HBM_GCTL_NREXP == 0
    { s with hbm := { h with rows := tset 0 h.rows key (L + 1), draws := h.draws + 1
                             near := if hit then tset 0 h.near k (min (2 ^ 32 - 1) (tget 0 h.near k + 2)) else h.near } }

/-- A line is read: its five data chunks, and the parity position where one of them cannot be reached (R401, R405). -/
def State.lineRead (s : State) (L : Nat) : State :=
  forN 6 (fun s k => s.whenS (k != L % 6 || (List.range 6).any (fun j => j != L % 6 && !s.chunkOn j L)) (·.activate L k)) s

/-- A line is written: all six chunks (R402). -/
def State.lineWrite (s : State) (L : Nat) : State := forN 6 (fun s k => s.activate L k) s

/-- The lines of `n` bytes at offset `o` are read. -/
def State.linesRead (s : State) (o n : Nat) : State := (linesOf o n).foldl (fun s L => s.lineRead L) s

/-- The rows that a pseudo-channel (32 stack + its number) holds open are closed by a refresh (R403). -/
def State.closeRows (s : State) (pc : Nat) : State :=
  { s with hbm := { s.hbm with rows := s.hbm.rows.filter (fun r => r.1 / 256 != pc) } }

/-- A line is written whole: its poison mark goes (R415). -/
def State.lineFresh (s : State) (L : Nat) : State :=
  ({ s with hbm := { s.hbm with poison := tset false s.hbm.poison L false } }).lineWrite L

/-- A write to the data space: the bytes, the line tag of each touched line, its poison mark cleared by a
whole-line write only, its layout mark by the state of the parity (R402, R405, R415). -/
def State.hbmWrite (s : State) (o : Nat) (l : List Byte) (tagv : Nat := 0) : State :=
  let h := s.hbm
  let ls := linesOf o l.length
  let whole := fun L => o ≤ 1024 * L && 1024 * L + 1024 ≤ o + l.length
  let noPar := fun (L : Nat) =>
    let lost := s.rd .HBM_GSTAT_LOST
    (lost < 6) || (List.range 6).any (fun k => bitOf (s.rd .HBM_SPCRET_MAP k) (L / 6 % 32))
  let s := { s with hbm := { h with
      mem := tsetMany 0 h.mem o l
      tag := ls.foldl (fun t L => tset 0 t L tagv) h.tag
      layout := ls.foldl (fun t L => tset false t L (noPar L)) h.layout
      poison := ls.foldl (fun t L => if whole L then tset false t L false else t) h.poison } }
  ls.foldl (fun s L => s.lineWrite L) s

/-- A line has lost two chunks: two of its stacks are lost, or have lost its pseudo-channel (R406, R407). -/
def State.lineDead (s : State) (L : Nat) : Bool :=
  1 < ((List.range 6).filter (fun k => s.rd .HBM_SSTAT_STATE k == 3 || bitOf (s.rd .HBM_SPCRET_MAP k) (L / 6 % 32))).length

/-- Whether any line of `n` bytes at offset `o` is poisoned (R415). -/
def State.hbmPoisoned (s : State) (o n : Nat) : Bool := (linesOf o n).any (fun L => tget false s.hbm.poison L || s.lineDead L)

/-- Items of the HBM system area beyond the checkpoints of the zoom slots: commit state, detection marks, zoom marks, ring pointers
(R204, R239, R296) and the class map (R267). Each is taken as one line (log 13). -/
def sysCommit : Nat := 64
def sysBeams : Nat := 65
def sysZoom : Nat := 66
def sysRing : Nat := 67
def sysClass : Nat := 68

/-- The line of an item of the system area, or of the averaging buffer, is poisoned (R415). -/
def State.linePoisoned (s : State) (L : Nat) : Bool := s.hbmPoisoned (1024 * L) 1

/-- Base of the HBM data space in fabric addresses (R401). -/
def hbmBase : Nat := 0x1000000000

/-- The module ID (R133, R500). -/
def State.moduleId (s : State) : Nat := s.rd .MOD_ID_ID

end Sys2Proof.Machine
end

