-- ==== Sys2Proof/Machine/PlanView.lean ====
section
/-! DEFINITION. Reading a plan: its sections (R361), its signal and channel sets (R19, R20, R30), the
division of time (R35 to R39), and the plan that holds a counter (R527). -/

namespace Sys2Proof.Machine

/-- The little-endian field of `n` bytes at offset `o` of section `sect` of a plan. -/
def pF (d : Tbl Byte) (sect o n : Nat) : Nat := leVal (tgetMany 0 d (2 ^ 32 * sect + o) n)

/-! ### CORE (R361) -/
def pFmt (d : Tbl Byte) : Nat := pF d 0 0 1
def pLogS (d : Tbl Byte) : Nat := pF d 0 1 1
def pOrder (d : Tbl Byte) : Nat := pF d 0 2 1
def pVfmt (d : Tbl Byte) : Nat := pF d 0 3 1
def pRelmode (d : Tbl Byte) : Nat := pF d 0 4 1
def pKslot (d : Tbl Byte) : Nat := pF d 0 5 1
def pSkEn (d : Tbl Byte) : Bool := bitOf (pF d 0 6 1) 0
def pZeroMuck (d : Tbl Byte) : Bool := bitOf (pF d 0 6 1) 1
def pL (d : Tbl Byte) : Nat := pF d 0 8 8
def pLo (d : Tbl Byte) : Nat := pF d 0 16 2
def pHi (d : Tbl Byte) : Nat := pF d 0 18 2
def pVdest (d : Tbl Byte) : Nat := pF d 0 20 1
def pMask (d : Tbl Byte) : Nat := pF d 0 24 8
def pF0 (d : Tbl Byte) : Nat := pF d 0 32 8
def pSp (d : Tbl Byte) : Nat := pF d 0 40 8
def pN (d : Tbl Byte) : Nat := pF d 0 48 2
def pBeams (d : Tbl Byte) : Nat := pF d 0 50 2
def pPairing (d : Tbl Byte) : Nat := pF d 0 52 1
def pBias (d : Tbl Byte) : Bool := bitOf (pF d 0 53 1) 0
def pGains (d : Tbl Byte) : Bool := bitOf (pF d 0 53 1) 1
def pAvg (d : Tbl Byte) : Bool := bitOf (pF d 0 53 1) 2
def pLminRaw (d : Tbl Byte) : Nat := pF d 0 56 8

/-- Sub-integration length S in samples (R35). -/
def pS (d : Tbl Byte) : Nat := 2 ^ pLogS d
/-- Least length of an open-ended trick: 0 is taken as S (R62). -/
def pLmin (d : Tbl Byte) : Nat := if pLminRaw d = 0 then pS d else pLminRaw d
/-- L as the budgets take it (R62). -/
def pLbudget (d : Tbl Byte) : Nat := if pL d = 0 then pLmin d else pL d
/-- Bytes per sample b (R14). -/
def pB (d : Tbl Byte) : Nat := if pFmt d = 0 then 1 else 2
/-- Format factor F: 1 in C4, 4 in C8. -/
def pFac (d : Tbl Byte) : Nat := if pFmt d = 0 then 1 else 4
/-- Runs of a sub-integration R (R191). -/
def pR (d : Tbl Byte) : Nat := pS d / 256
/-- Included groups in ascending order (R19). -/
def pGroups (d : Tbl Byte) : List Nat := let m := pMask d; (List.range 64).filter (fun g => bitOf m g)
/-- Number of included groups n. -/
def pNg (d : Tbl Byte) : Nat := popcount 64 (pMask d)
/-- Whether group `g` is included. -/
def pHasGroup (d : Tbl Byte) (g : Nat) : Bool := g < 64 && bitOf (pMask d) g
/-- Compact number of an included group (R19). -/
def pCompact (d : Tbl Byte) (g : Nat) : Nat := popcount g (pMask d)
/-- Hands H = n (n + 1) ÷ 2 (R25). -/
def pH (d : Tbl Byte) : Nat := pNg d * (pNg d + 1) / 2
/-- Number of a hand (i, j) (R25). -/
def handNo (i j : Nat) : Nat := j * (j + 1) / 2 + i
/-- Baselines of the plan (R23). -/
def pBaselines (d : Tbl Byte) : Nat := 64 * pNg d * (64 * pNg d + 1) / 2
/-- Beam blocks K (R190). -/
def pK (d : Tbl Byte) : Nat := ceilDiv (pBeams d) 64

/-- Insertion into an ascending list. -/
def insertAsc (x : Nat) : List Nat → List Nat
  | [] => [x]
  | y :: r => if x ≤ y then x :: y :: r else y :: insertAsc x r

/-- A list in ascending order. -/
def sortAsc (l : List Nat) : List Nat := l.foldr insertAsc []

/-- Global channels as the CHANNELS section lists them, bits [23:0] of each entry (R361). -/
def pChanList (d : Tbl Byte) : List Nat := (List.range (pN d)).map (fun i => pF d 1 (4 * i) 4 % 2 ^ 24)
/-- Global channels in index order (R30). -/
def pChans (d : Tbl Byte) : List Nat := sortAsc (pChanList d)
/-- Channel index of a global channel; N where the plan does not hold it. -/
def pChanIdx (d : Tbl Byte) (c : Nat) : Nat := (pChans d).findIdx (· == c)
/-- Global channel of an index. -/
def pChanOf (d : Tbl Byte) (i : Nat) : Nat := (pChans d).getD i 0

/-- Receivers of a plan with a pairing map: 32 n (R20). -/
def pRecv (d : Tbl Byte) : Nat := 32 * pNg d
/-- X and Y signal of receiver r (R20, R21). -/
def pX (d : Tbl Byte) (r : Nat) : Nat := if pPairing d = 1 then 2 * r else pF d 2 (4 * r) 2
def pY (d : Tbl Byte) (r : Nat) : Nat := if pPairing d = 1 then 2 * r + 1 else pF d 2 (4 * r + 2) 2

/-! ### BEAMS, ZOOM, CLASSES (R225, R247, R268) -/
def bIdent (d : Tbl Byte) (i : Nat) : Nat := pF d 3 (8 * i) 2
def bSource (d : Tbl Byte) (i : Nat) : Nat := pF d 3 (8 * i + 2) 1
def bDetect (d : Tbl Byte) (i : Nat) : Nat := pF d 3 (8 * i + 3) 1
def bLogD (d : Tbl Byte) (i : Nat) : Nat := pF d 3 (8 * i + 4) 1
def bDest (d : Tbl Byte) (i : Nat) : Nat := pF d 3 (8 * i + 5) 1
def zUse (d : Tbl Byte) (i : Nat) : Nat := pF d 4 (16 * i) 1
def zNc (d : Tbl Byte) (i : Nat) : Nat := pF d 4 (16 * i + 1) 1
def zDz (d : Tbl Byte) (i : Nat) : Nat := pF d 4 (16 * i + 2) 2
def zBeam (d : Tbl Byte) (i : Nat) : Nat := pF d 4 (16 * i + 4) 2
def zChan (d : Tbl Byte) (i : Nat) : Nat := pF d 4 (16 * i + 6) 2
def zCset (d : Tbl Byte) (i : Nat) : Nat := pF d 4 (16 * i + 8) 1
def zDest (d : Tbl Byte) (i : Nat) : Nat := pF d 4 (16 * i + 9) 1
def cTf (d : Tbl Byte) (c : Nat) : Nat := 2 ^ pF d 6 (4 * c) 1
def cFf (d : Tbl Byte) (c : Nat) : Nat := 2 ^ pF d 6 (4 * c + 1) 1

/-! ### The plan at a counter, ranges and tricks -/

/-- The active copy that range `t` belongs to: the active plan from its deal counter on, else the
outgoing plan (R199, R364). -/
def State.planAt (s : State) (t : Nat) : Option ActivePlan :=
  let out := s.plans.outgoing.filter (fun p => decide (p.d ≤ t ∧ t < p.ends.getD (t + 1)))
  match s.plans.active with
  | some p => if p.d ≤ t then some p else out
  | none => out

/-- The plan of the trick that begins at `t`: it outlasts the active copy until the trick closes (R209, R360). -/
def State.planOf (s : State) (t : Nat) : Option ActivePlan :=
  match s.planAt t with
  | some p => some p
  | none => s.tricks.past.find? (fun p => decide (p.d ≤ t ∧ t < p.ends.getD 0))

/-- The boundaries that pending TRICK_CLOSE commands name (R210). -/
def State.closeBoundaries (s : State) : List Nat :=
  s.dealer.longs.filterMap (fun o => match o.kind with | .trickClose b _ => some b | _ => none)

/-- The first of them after counter `a`. -/
def State.closeBoundary (s : State) (a : Nat) : Option Nat := (s.closeBoundaries.filter (a < ·)).min?

/-- Last usable end of a trick (R77). -/
def lastCounter : Nat := 2 ^ 64 - 65536

/-- End counter of the trick of plan `p` that starts at `a` (R35 to R39): the next multiple of L or, for an
open-ended trick, the next boundary of a TRICK_CLOSE, and never past the deal that ends the plan. -/
def State.trickEnd (s : State) (p : ActivePlan) (a : Nat) : Nat :=
  let e := if pL p.data = 0 then (s.closeBoundary a).getD lastCounter else (a / pL p.data + 1) * pL p.data
  min (min e (p.ends.getD lastCounter)) lastCounter

/-- First counter of the trick after one that ends at `e`: `e` itself or, where no plan holds it, the D of a
plan dealt since. -/
def State.nextTrick (s : State) (e : Nat) : Option Nat :=
  match s.planOf e with
  | some _ => some e
  | none => (s.plans.active.filter (fun p => decide (e ≤ p.d))).map (·.d)

end Sys2Proof.Machine
end

