-- ==== Sys2Proof/Machine/Stripe.lean ====
section
/-! DEFINITION. Striping (R92, R93, R94): the byte stream of a bundle's link layer is divided into 8-byte words, which are
dealt round-robin to the positions in service in ascending order, with a stripe marker on every lane after every 16 384
words of a lane and at the opening of an epoch. -/

namespace Sys2Proof.Machine

/-- Lane at position `p` of bundle `b`; 31 empty (R111). -/
def State.posLane (s : State) (b p : Nat) : Nat := s.rd ⟨0x380008, 0x1000, 8 * p, 5⟩ b
/-- Position `p` of bundle `b` holds lane `l`. -/
def State.setPos (s : State) (b p l : Nat) : State := s.wr ⟨0x380008, 0x1000, 8 * p, 5⟩ b l
/-- The lanes at the four positions. -/
def State.laneMap (s : State) (b : Nat) : List Nat := (List.range 4).map (s.posLane b)

/-- The positions under which words are dealt, in ascending order: those of the last epoch opened, a lane lost since among
them (R94, R95). -/
def State.positionsOf (s : State) (b : Nat) : List Nat := (List.range 4).filter (fun p => bitOf (s.link b).tx.set p)

/-- Words are dealt under the set `m` of positions from now on (R94). -/
def State.dealUnder (s : State) (b m : Nat) : State :=
  s.setLink b { s.link b with tx := { (s.link b).tx with set := m, next := 0, rounds := 0 } }

/-- Markers with a position and the epoch, on every position in service (R93). -/
def markersOf (ps : List Nat) (epoch : Nat) : List (Nat × StripeItem) := ps.map (fun p => (p, .marker p epoch))

/-- One word is dealt to the next position in service; the round that completes 16 384 words of each lane is followed
by the markers. -/
def dealWord (ps : List Nat) (epoch : Nat) (x : Stripe) (w : List Byte) : Stripe × List (Nat × StripeItem) :=
  let p := (ps.find? (fun q => decide (x.next ≤ q))).getD (ps.headD 0)
  if !ps.all (· ≤ p) then ({ x with next := p + 1 }, [(p, .word w)])
  else if x.rounds + 1 < 16384 then ({ x with next := 0, rounds := x.rounds + 1 }, [(p, .word w)])
  else ({ x with next := 0, rounds := 0 }, (p, .word w) :: markersOf ps epoch)

/-- The bytes of `n` words are dealt in order; what is left of them waits. -/
def dealWords (ps : List Nat) (epoch : Nat) : Nat → Stripe → List Byte → Stripe × List (Nat × StripeItem)
  | 0, x, l => ({ x with rest := l }, [])
  | n + 1, x, l =>
    let r := dealWord ps epoch x (l.take 8)
    let q := dealWords ps epoch n r.1 (l.drop 8)
    (q.1, r.2 ++ q.2)

/-- What a unit's bytes add to the lanes of its bundle, and the state of the deal after them. Bytes that make no whole
word yet lead the next unit's (DEDUCED, log 29). -/
def State.dealt (s : State) (b : Nat) (l : List Byte) : Stripe × List (Nat × StripeItem) :=
  let x := (s.link b).tx
  let m := x.rest ++ l
  let ps := s.positionsOf b
  if ps.isEmpty then (x, []) else dealWords ps (s.rd .VLK_BSTAT_EPOCH b) (m.length / 8) x m

/-- A unit leaves on the lanes of its bundle (R92). -/
def State.sendUnit (s : State) (b : Nat) (l : List Byte) : State :=
  let r := s.dealt b l
  (s.setLink b { s.link b with tx := r.1 }).send (.unit b l r.2)

/-- The new epoch's markers leave on every lane of the new set, and the deal starts again with its first position (R94;
DEDUCED, log 29). -/
def State.sendMarkers (s : State) (b : Nat) : State :=
  let s := s.dealUnder b (s.rd .VLK_BSTAT_MASK b)
  s.send (.stripe b (markersOf (s.positionsOf b) (s.rd .VLK_BSTAT_EPOCH b)))

/-- The words that the lanes of a bundle carry, in the order in which they were dealt. -/
def dealtBytes (l : List (Nat × StripeItem)) : List Byte :=
  l.flatMap (fun p => match p.2 with | .word w => w | .marker _ _ => [])

end Sys2Proof.Machine
end

