-- ==== Sys2Proof/Machine/LinkLayer.lean ====
section
/-! DEFINITION. The bundle link layer (R117 to R125): units, sequences, NACKs, credits, the link start of
R118, and the reset of a bundle (R102). Frames the module sends go through `sendFrame`. -/

namespace Sys2Proof.Machine

/-- A bundle carries its link layer: UP or DEGRADED (R111). -/
def State.bundleUp (s : State) (b : Nat) : Bool :=
  s.rd .VLK_BSTAT_STATE b == 1 || s.rd .VLK_BSTAT_STATE b == 2

/-- The 24 header bytes of a unit (R117). -/
def unitHeader (utype flags lseq lack climit ulen : Nat) : List Byte :=
  leBytes 2 0x5655 ++ leBytes 1 utype ++ leBytes 1 flags ++ leBytes 2 lseq ++ leBytes 2 lack ++
  leBytes 4 climit ++ leBytes 2 ulen ++ leBytes 10 0

/-- A whole unit: header, frame, UCRC over both, EOU (R117). -/
def unitBytes (utype flags lseq lack climit : Nat) (frame : List Byte) : List Byte :=
  let h := unitHeader utype flags lseq lack climit (32 + frame.length) ++ frame
  h ++ leBytes 4 (crc32c h) ++ leBytes 4 0x3C3C5AA5

/-- The length of a unit of this type: 100 + PLEN for DATA, 32 for LINKCTL (R117). -/
def unitLengthOk (u : List Byte) : Bool :=
  match fieldAt u 2 1 with
  | 1 => u.length == 100 + fieldAt u 50 2
  | 2 => u.length == 32
  | _ => true

/-- The unit ends with EOU. -/
def endsEou (u : List Byte) : Bool := 4 ≤ u.length && fieldAt u (u.length - 4) 4 == 0x3C3C5AA5

/-- The unit's own integrity: SOU, EOU, UCRC and ULEN (R117). -/
def unitIntact (u : List Byte) : Bool :=
  let n := u.length
  32 ≤ n && fieldAt u 0 2 == 0x5655 && fieldAt u 12 2 == n && unitLengthOk u && endsEou u &&
  fieldAt u (n - 8) 4 == crc32c (u.take (n - 8))

/-- The frame of a unit. -/
def unitFrame (u : List Byte) : List Byte := (u.take (u.length - 8)).drop 24

/-- HCRC and trailer CRC of a frame (R113). -/
def frameIntact (f : List Byte) : Bool :=
  let n := f.length
  68 ≤ n && fieldAt f 62 2 == crc16 (f.take 62) && fieldAt f (n - 4) 4 == crc32c (f.take (n - 4))

/-- Credits a frame keeps: its unit is 32 bytes longer (R123). -/
def frameCost (f : List Byte) : Nat := ceilDiv (f.length + 32) 512

/-- A LINKCTL unit leaves with the present LACK and credit limit: flags bit 0 NACK, bit 1 INIT (R117). -/
def State.sendCtl (s : State) (b flags : Nat) : State :=
  s.sendUnit b (unitBytes 2 flags 0 (s.rd .VSN_LSTAT_RX_NEXT b) (s.rd .VSN_LCLIMIT_LIMIT b) [])

/-- A DATA unit with link sequence `q` leaves (R119, R120). -/
def State.sendData (s : State) (b q : Nat) (f : List Byte) : State :=
  s.sendUnit b (unitBytes 1 0 q (s.rd .VSN_LSTAT_RX_NEXT b) (s.rd .VSN_LCLIMIT_LIMIT b) f)

/-- A frame waits for, or takes, the next link sequence: none is sent before the INIT exchange completes, while 2047 units are
not covered by LACK (R118, R119), or in a warm reset, in which the lanes send idle blocks with markers (R154). -/
def State.sendFrame (s : State) (b : Nat) (f : List Byte) : State :=
  let k := s.link b
  if s.on .VSN_LSTAT_INIT_DONE b && k.txq.isEmpty && k.unacked.length < 2047 && !s.inReset then
    let q := s.rd .VSN_LSTAT_TX_NEXT b
    let s := s.sendData b q f
    let s := s.setLink b { s.link b with unacked := k.unacked ++ [(q, f)] }
    s.wr .VSN_LSTAT_TX_NEXT b ((q + 1) % 4096)
  else s.setLink b { k with txq := k.txq ++ [f] }

/-- Waiting frames take the link sequences that are free (R119). -/
def State.flushTx (s : State) (b : Nat) (fuel : Nat) : State :=
  match fuel with
  | 0 => s
  | n + 1 =>
    let k := s.link b
    match k.txq with
    | [] => s
    | f :: r =>
      if s.on .VSN_LSTAT_INIT_DONE b && k.unacked.length < 2047 then
        let q := s.rd .VSN_LSTAT_TX_NEXT b
        let s := s.sendData b q f
        let s := s.setLink b { s.link b with unacked := k.unacked ++ [(q, f)], txq := r }
        (s.wr .VSN_LSTAT_TX_NEXT b ((q + 1) % 4096)).flushTx b n
      else s

/-- All units not covered by LACK are sent again in order (R121). -/
def State.resendUnits (s : State) (b : Nat) : State :=
  (s.link b).unacked.foldl (fun s p => s.sendData b p.1 p.2) s

/-- LACK of a received unit: the units it covers are dropped; with NACK, the rest are sent again. -/
def State.takeLack (s : State) (b lack : Nat) (nack : Bool) : State :=
  let k := s.link b
  let covered := fun q => let d := (lack + 4096 - q) % 4096; 1 ≤ d && d ≤ 2048
  let s := s.setLink b { k with unacked := k.unacked.filter (fun p => !covered p.1) }
  let s := if nack then s.resendUnits b else s
  s.flushTx b ((s.link b).txq.length)

/-- Credits returned at once through CLIMIT in a unit that carries it, or owed while the return is stopped or slowed
(R124, R152, R214). -/
def State.returnCredits (s : State) (b n : Nat) : State :=
  if s.suspended || s.on .ENG_GSTAT_DEFICIT then
    s.setLink b { s.link b with owed := (s.link b).owed + n }
  else (s.wr .VSN_LCLIMIT_LIMIT b (s.rd .VSN_LCLIMIT_LIMIT b + n)).sendCtl b 0

/-- Credits freed in the receive buffer are returned (R124). -/
def State.freeCredits (s : State) (b n : Nat) : State :=
  (s.wr .VSN_LBUF_FREE b (min (s.rd .VSN_LBUF_FREE b + n) 32768)).returnCredits b n

/-- Up to `n` owed credits are returned through CLIMIT. -/
def State.payCredits (s : State) (b n : Nat) : State :=
  let m := min n (s.link b).owed
  if m = 0 then s
  else
    let s := s.setLink b { s.link b with owed := (s.link b).owed - m }
    (s.wr .VSN_LCLIMIT_LIMIT b (s.rd .VSN_LCLIMIT_LIMIT b + m)).sendCtl b 0

/-- The end of a suspension: what is owed is returned, unless a pace deficit still slows it (R152). -/
def State.resumeCredits (s : State) : State :=
  if s.suspended || s.on .ENG_GSTAT_DEFICIT then s
  else forN 5 (fun s b => s.payCredits b ((s.link b).owed)) s

/-- The link layer starts (R118): sequences at 0, replay buffer discarded, consumed credits 0, CLIMIT the
credits free in the receive buffer, INIT sent. -/
def State.startLink (s : State) (b : Nat) : State :=
  let k := s.link b
  let s := s.setLink b { k with rxWait := false, lostEou := false, failLseq := 0, failCount := 0, lastNack := none,
                                unacked := [], owed := 0 }
  let s := s.wr .VSN_LSTAT_RX_NEXT b 0 |>.wr .VSN_LSTAT_TX_NEXT b 0 |>.wr .VSN_LSTAT_INIT_DONE b 0
  let s := s.wr .VSN_LCUSED_CONSUMED b 0 |>.wr .VSN_LCLIMIT_LIMIT b (s.rd .VSN_LBUF_FREE b)
  s.sendCtl b 2

/-- Event 0x0401 of a session (R153, R526): action and, for resumes and resets, KIND or REASON. -/
def State.sessionEvent (s : State) (n action extra : Nat) : State :=
  let b := s.rd .VSN_SSTAT_BUNDLE n
  s.event 4 0x0401 n 0 (action + 256 * s.rd .VSN_SSTAT_STATE n + 65536 * extra +
    2 ^ 24 * (if b = 7 then 0xFF else b) + 2 ^ 32 * s.rd .VSN_SSTAT_EPOCH n)

/-- The sessions a bundle carries become DETACHED (R129). -/
def State.detach (s : State) (b : Nat) : State :=
  forN 256 (fun s n =>
    let st := s.rd .VSN_SSTAT_STATE n
    if (st == 1 || st == 2 || st == 3) && s.rd .VSN_SSTAT_BUNDLE n == b then
      (s.wr .VSN_SSTAT_STATE n 4).sessionEvent n 5 0
    else s) s

/-- A bundle reset (R102): the link layer restarts; training, rate, roles and epoch stay. -/
def State.bundleReset (s : State) (b : Nat) : State :=
  let s := s.detach b
  if s.bundleUp b then s.startLink b else s

/-- A failure of the next expected unit: NACK, but no second one naming the same LSEQ within 2 µs (R120). -/
def State.nackUnit (s : State) (b : Nat) : State :=
  let k := s.link b
  let e := s.rd .VSN_LSTAT_RX_NEXT b
  let again := match k.lastNack with
    | some (q, t) => q == e && s.clock < t + 2000
    | none => false
  if again then s.setLink b { k with rxWait := true }
  else ((s.setLink b { k with rxWait := true, lastNack := some (e, s.clock) }).bump .VSN_LNACK_COUNT b).sendCtl b 1

/-- The next expected unit is taken: sequence, consumed credits, acknowledgement (R119, R120, R123). -/
def State.ackUnit (s : State) (b n : Nat) : State :=
  let s := s.setLink b { s.link b with rxWait := false, failCount := 0 }
  let s := s.wr .VSN_LSTAT_RX_NEXT b ((s.rd .VSN_LSTAT_RX_NEXT b + 1) % 4096)
  (s.wr .VSN_LCUSED_CONSUMED b (s.rd .VSN_LCUSED_CONSUMED b + n)).sendCtl b 0

/-- A unit that exceeds CLIMIT (R123, R125). -/
def State.overruns (s : State) (b n : Nat) : Bool :=
  2 ^ 31 ≤ (s.rd .VSN_LCLIMIT_LIMIT b + 2 ^ 32 - (s.rd .VSN_LCUSED_CONSUMED b + n) % 2 ^ 32) % 2 ^ 32

/-- A credit overrun: acknowledged, its frame dropped unread, counted; 16 within 1 s reset the bundle
(R125). Its credits come back at once, since its frame never enters the buffer (R124). -/
def State.creditOverrun (s : State) (b n : Nat) : State :=
  let s := (s.ackUnit b n).returnCredits b n
  let s := (s.bump .VSN_LOVR_COUNT b).flag .VSN_EVT_OVERRUN
  let ts := s.clock :: (s.link b).ovrTimes.filter (fun t => s.clock < t + 1000000000)
  if ts.length < 16 then s.setLink b { s.link b with ovrTimes := ts }
  else ((s.setLink b { s.link b with ovrTimes := [] }).fault (srcBundle b) 1 1 b).bundleReset b

/-- An intact unit with the next expected LSEQ whose frame CRCs are wrong: NACK, and at the fourth
consecutive failure acknowledged, discarded and counted (R122). -/
def State.frameFailed (s : State) (b n : Nat) : State :=
  let k := s.link b
  let e := s.rd .VSN_LSTAT_RX_NEXT b
  let c := if k.failLseq = e then k.failCount + 1 else 1
  if c < 4 then (s.setLink b { k with failLseq := e, failCount := c }).nackUnit b
  else
    let s := (s.ackUnit b n).returnCredits b n
    (s.bump .VSN_LCORRUPT_COUNT b).flag .VSN_EVT_CORRUPT

/-- Nothing in the header of a unit that fails its own integrity is trusted: it is taken to be the unit
with the next expected LSEQ (R120). Where no EOU ends it, the module stops scanning for SOU (R117). -/
def State.unitDamaged (s : State) (b : Nat) (u : List Byte) : State :=
  (s.setLink b { s.link b with failCount := 0, lostEou := !endsEou u }).nackUnit b

/-- Scanning for SOU starts again after an EOU, a LINKCTL unit or a change of epoch (R117). -/
def State.scanSou (s : State) (b : Nat) : State :=
  if (s.link b).lostEou then s.setLink b { s.link b with lostEou := false } else s

/-- Whether the receive side of bundle `b` takes units: in service, INIT exchange done, no warm reset. -/
def State.linkRunning (s : State) (b : Nat) : Bool :=
  s.bundleUp b && s.on .VSN_LSTAT_INIT_DONE b && !s.inReset

/-- DATA_UNIT (R117 to R125): integrity, link sequence, credits, frame CRCs; an intact frame enters the
receive buffer, where the frame's own row decides it in link order (R149). While the module does not scan for SOU, the
unit is not seen, and its EOU starts the scan. -/
def execDataUnit (b : BundleId) (bytes : List Byte) (s : State) : Host.Outcome State Fault Refusal :=
  let b := b.val
  .next <|
    if !s.linkRunning b then s
    else if (s.link b).lostEou then (if endsEou bytes then s.scanSou b else s)
    else if !unitIntact bytes then s.unitDamaged b bytes
    else if fieldAt bytes 2 1 ≠ 1 then s
    else
      let s := s.takeLack b (fieldAt bytes 6 2 % 4096) (bitOf (fieldAt bytes 3 1) 0)
      let q := fieldAt bytes 4 2 % 4096
      let d := (s.rd .VSN_LSTAT_RX_NEXT b + 4096 - q) % 4096
      let f := unitFrame bytes
      let n := frameCost f
      if d = 0 then
        if s.overruns b n then s.creditOverrun b n
        else if !frameIntact f then s.frameFailed b n
        else
          let s := s.ackUnit b n
          let s := s.wr .VSN_LBUF_FREE b (s.rd .VSN_LBUF_FREE b - n)
          s.setLink b { s.link b with rxq := (s.link b).rxq ++ [f] }
      else if d ≤ 2048 then s.sendCtl b 0
      else s

/-- LINKCTL (R117, R118, R120): LACK and NACK, the INIT exchange, or a restart of the link layer. A damaged one is not seen
while the module does not scan for SOU. -/
def execLinkctl (b : BundleId) (bytes : List Byte) (s : State) : Host.Outcome State Fault Refusal :=
  let b := b.val
  .next <|
    if !s.bundleUp b || s.inReset then s
    else if !(unitIntact bytes && bytes.length == 32) then
      if (s.link b).lostEou then (if endsEou bytes then s.scanSou b else s)
      else if s.on .VSN_LSTAT_INIT_DONE b then s.unitDamaged b bytes else s
    else if fieldAt bytes 2 1 ≠ 2 then s
    else
      let s := s.scanSou b
      let flags := fieldAt bytes 3 1
      if bitOf flags 1 then
        let s := if s.on .VSN_LSTAT_INIT_DONE b then s.startLink b else s
        let s := s.wr .VSN_LSTAT_INIT_DONE b 1
        s.flushTx b ((s.link b).txq.length)
      else if s.on .VSN_LSTAT_INIT_DONE b then
        s.takeLack b (fieldAt bytes 6 2 % 4096) (bitOf flags 0)
      else s

/-- INIT_REPEAT (R118, R154): the 100 µs timer, until the partner answers; no unit leaves in a warm reset. -/
def execInitRepeat (b : BundleId) (s : State) : Host.Outcome State Fault Refusal :=
  .next <| if s.bundleUp b.val && !s.on .VSN_LSTAT_INIT_DONE b.val && !s.inReset then s.sendCtl b.val 2 else s

/-- UNIT_RESEND_TIMEOUT (R121). -/
def execUnitResendTimeout (b : BundleId) (s : State) : Host.Outcome State Fault Refusal :=
  .next <| if s.linkRunning b.val then s.resendUnits b.val else s

/-- VLK_BCTL_RESET (R102). -/
def execVlkBctlReset (b : BundleId) (s : State) : Host.Outcome State Fault Refusal :=
  .next (s.bundleReset b.val)

end Sys2Proof.Machine
end

