-- ==== Sys2Proof/Machine/Longs.lean ====
section
/-! DEFINITION. Status codes (R341) and the end of a long operation (R343): the event 0x0902 and the
completion, kept beside its reply (R344). -/

namespace Sys2Proof.Machine

/-! ### Status codes (R341) -/
def stOk : Nat := 0x0000
def stAccepted : Nat := 0x0001
def stDone : Nat := 0x0002
def rejBusy : Nat := 0x0101
def rejParam : Nat := 0x0102
def rejBudget : Nat := 0x0103
def rejState : Nat := 0x0104
def rejAuth : Nat := 0x0105
def rejFull : Nat := 0x0106
def errInternal : Nat := 0x0201

/-- Transport number of R526. -/
def transportOf : Src → Nat
  | .qp q => q.val
  | .mgmt _ _ => 0x10
  | .uart => 0x11

/-- A completion packet (R339). -/
def LongOp.packet (o : LongOp) (dsn status detail : Nat) (params : List (Nat × Nat)) : Packet :=
  { src := o.src, kind := 2, opcode := o.opcode, rpt := false, lost := false, tag := o.tag, dsn := dsn,
    status := status, detail := detail, params := params }

/-- The completion is kept with the reply of its command, the one ordered at DSN `at_` (R344). -/
def keepCompletion (p : Packet) (at_ : Nat) : List Kept → List Kept
  | [] => []
  | k :: r =>
    if k.reply.src = p.src ∧ k.reply.tag = p.tag ∧ k.reply.opcode = p.opcode ∧ k.reply.dsn = at_ then
      { k with completion := some p } :: r
    else k :: keepCompletion p at_ r

/-- A long operation ends: event 0x0902 and its completion, which carries the DSN of the event that made
it (R339, R343, R364). -/
def State.endLong (s : State) (o : LongOp) (status : Nat) (detail : Nat := 0)
    (params : List (Nat × Nat) := []) (dsn : Option Nat := none) : State :=
  let s := { s with dealer := { s.dealer with longs := s.dealer.longs.erase o } }
  let s := s.event 9 0x0902 (transportOf o.src) 0 (o.opcode + 65536 * o.tag.toNat + 2 ^ 48 * status)
  let p := o.packet (dsn.getD s.lastDsn) status detail params
  let s := { s with dealer := { s.dealer with kept := keepCompletion p o.dsn s.dealer.kept } }
  s.sendPacket p none

/-- The oldest long operation in progress of a kind. -/
def State.findLong (s : State) (q : LongKind → Bool) : Option LongOp := s.dealer.longs.find? (fun o => q o.kind)

/-- End the oldest long operation of a kind, if one is in progress. -/
def State.endLongOf (s : State) (q : LongKind → Bool) (status : Nat) : State :=
  match s.findLong q with
  | some o => s.endLong o status
  | none => s

end Sys2Proof.Machine
end

