-- ==== Sys2Proof/Machine/Prbs.lean ====
section
/-! DEFINITION. The test patterns of the lanes (R105): the sequence of each polynomial, its inversion, and the Gray-coded
PAM4 form. Bit `i` of a pattern follows from its seed by x^i modulo the characteristic polynomial. -/

namespace Sys2Proof.Machine

/-- Degree of a pattern's polynomial. -/
def prbsDegree (pat : Nat) : Nat :=
  if pat = 0 then 7 else if pat = 1 then 9 else if pat = 2 then 15 else if pat = 3 then 23 else if pat = 4 then 31 else 13

/-- Characteristic polynomial of a pattern (R105): bit i is the sum of the bits as far before it as the exponents of the
polynomial say, so that x^n + x^m + 1 makes the sequence that x^n + x^(n − m) + 1 annihilates. -/
def prbsPoly (pat : Nat) : Nat :=
  if pat = 0 then 2 ^ 7 + 2 ^ 1 + 1
  else if pat = 1 then 2 ^ 9 + 2 ^ 4 + 1
  else if pat = 2 then 2 ^ 15 + 2 ^ 1 + 1
  else if pat = 3 then 2 ^ 23 + 2 ^ 5 + 1
  else if pat = 4 then 2 ^ 31 + 2 ^ 3 + 1
  else 2 ^ 13 + 2 ^ 12 + 2 ^ 11 + 2 ^ 1 + 1

/-- x times a polynomial over GF(2), modulo `f` of degree `n`. -/
def gfX (f n a : Nat) : Nat := if bitOf a (n - 1) then (2 * a) ^^^ f else 2 * a

/-- Product of polynomials modulo `f`, over the `k` low coefficients of `b`. -/
def gfMul (f n a : Nat) : Nat → Nat → Nat
  | 0, _ => 0
  | k + 1, b => (if b % 2 = 1 then a else 0) ^^^ gfMul f n (gfX f n a) k (b / 2)

/-- x^i modulo `f`, over the `k` low bits of `i`. -/
def gfPow (f n : Nat) : Nat → Nat → Nat
  | 0, _ => 1
  | k + 1, i =>
    let r := gfPow f n k (i / 2)
    let q := gfMul f n r n r
    if i % 2 = 1 then gfX f n q else q

/-- The seed of a pattern from a free value: not all zero. -/
def prbsSeed (pat v : Nat) : Nat := v % (2 ^ prbsDegree pat - 1) + 1

/-- Bit `i` of the pattern whose first bits are those of `seed`, inverted by INV (R105). -/
def prbsBit (pat seed : Nat) (inv : Bool) (i : Nat) : Bool :=
  (popcount 32 (seed &&& gfPow (prbsPoly pat) (prbsDegree pat) 64 i) % 2 == 1) != inv

/-- Two bits as a PAM4 level, the first the most significant, Gray-coded (R105). -/
def gray (a b : Bool) : Nat := (if a then 2 else 0) + (if a != b then 1 else 0)

/-- Bit `i` of the line: at PAM4 the bits of the levels, most significant first (DEDUCED, log 29). -/
def lineBit (pat seed : Nat) (inv pam4 : Bool) (i : Nat) : Bool :=
  if pam4 then
    bitOf (gray (prbsBit pat seed inv (i / 2 * 2)) (prbsBit pat seed inv (i / 2 * 2 + 1))) (1 - i % 2)
  else prbsBit pat seed inv i

/-- The 64 line bits from bit `i` on, bit 0 the first, those inverted that `flip` names (R107, R108). -/
def lineWord (pat seed : Nat) (inv pam4 : Bool) (flip : Nat → Bool) (i : Nat) : Nat :=
  (List.range 64).foldl (fun a k => a + (if lineBit pat seed inv pam4 (i + k) != flip (i + k) then 2 ^ k else 0)) 0

end Sys2Proof.Machine
end

