-- ==== Sys2Proof/Machine/Lanes.lean ====
section
/-! DEFINITION. Lanes and bundles (R79 to R111): the ladder, lane loss and substitution, stripe epochs,
test mode, and the lane commands. -/

namespace Sys2Proof.Machine

/-! ### Codes of VLK_STAT.STATE (R110) -/
def lnOff : Nat := 0
def lnNegotiate : Nat := 1
def lnTrain : Nat := 2
def lnCheck : Nat := 3
def lnAlign : Nat := 4
def lnService : Nat := 5
def lnStandby : Nat := 6
def lnRetry : Nat := 7
def lnRetired : Nat := 8
def lnTest : Nat := 9

/-- State code of a lane. -/
def State.lnState (s : State) (l : Nat) : Nat := s.rd .VLK_STAT_STATE l

/-- The module's cap on rate codes from the LCAP straps (R85). -/
def State.laneCap (s : State) : Nat := 3 - s.rd .MOD_STRAP_LCAP

/-- Positions of a map that hold a lane, a bit each. -/
def maskOf (m : List Nat) : Nat :=
  (m.zipIdx.map (fun p => if p.1 < 24 then 2 ^ p.2 else 0)).sum

/-- A ladder or lane control message (R83). -/
def laneMsg (sender lane type maxrate step reason bundle pos mask epoch : Nat) (replace : List Nat)
    (errors : Nat) : List Byte :=
  let h := leBytes 2 0x564C ++ leBytes 1 type ++ leBytes 1 1 ++ leBytes 4 sender ++ leBytes 1 lane ++
    leBytes 1 maxrate ++ leBytes 1 step ++ leBytes 1 reason ++ leBytes 1 bundle ++ leBytes 1 pos ++
    leBytes 1 mask ++ leBytes 1 epoch ++ (padTo 4 (replace.map (BitVec.ofNat 8))) ++ leBytes 4 errors ++
    leBytes 4 0
  h ++ leBytes 4 (crc32c h)

/-- A received message of the layout, with its CRC, magic and a defined type (R83). -/
def laneMsgOk (m : List Byte) (type : Nat) : Bool :=
  m.length == 32 && fieldAt m 0 2 == 0x564C && fieldAt m 28 4 == crc32c (m.take 28) && fieldAt m 2 1 == type

/-- A lane without a position: a home spare, or one that became a spare (R80, R84, R101). -/
def State.isSpare (s : State) (l : Nat) : Bool := 20 ≤ l || (s.lane l).spare

/-- The actual role of a lane as the messages state it (R80, R83): bundle and position, 0xFF each for a spare. -/
def State.role (s : State) (l : Nat) : Nat × Nat :=
  if s.lnState l = lnService then (s.rd .VLK_STAT_BUNDLE l, s.rd .VLK_STAT_POSITION l)
  else if s.isSpare l then (0xFF, 0xFF)
  else (l / 4, l % 4)

/-- OFFER on a lane. -/
def State.sendOffer (s : State) (l : Nat) : State :=
  s.send (.lane l (laneMsg s.moduleId l 1 s.laneCap 0 0 (s.role l).1 (s.role l).2 0 0 [0xFF, 0xFF, 0xFF, 0xFF] 0))

/-- STEP_PASS (3) or STEP_FAIL (4) on a lane. -/
def State.sendStep (s : State) (l type reason errors : Nat) : State :=
  s.send (.lane l (laneMsg s.moduleId l type s.laneCap (s.rd .VLK_STAT_RATE l) reason (s.role l).1 (s.role l).2 0 0
    [0xFF, 0xFF, 0xFF, 0xFF] errors))

/-- The receive clock and the block or codeword alignment of a lane (R110): locked while it exchanges messages and passes
checks, lost while it trains at the next rate (DEDUCED, log 29). -/
def State.setBlockLock (s : State) (l v : Nat) : State := (s.wr .VLK_STAT_CLK_LOCK l v).wr .VLK_STAT_BLK_LOCK l v

/-- The receive locks of a lane, those of its stripe markers included. -/
def State.setLocks (s : State) (l v : Nat) : State := (s.setBlockLock l v).wr .VLK_STAT_MRK_LOCK l v

/-- The equaliser taps (R82, R110): the fixed preset of step 0, taken to be the reset value (PRESUMED, log 29). -/
def State.presetTaps (s : State) (l : Nat) : State := s.setWord (0x300070 + 0x1000 * l) 0x20000

/-- The taps as a step trained them: a free value, since the manual gives none (log 2); Clause 72 leaves c(−2) as it is
(R82). -/
def State.trainedTaps (s : State) (l rate : Nat) : State :=
  if rate = 0 then s
  else
    let v := s.freeVal.toNat % 2 ^ 24
    let w := if rate = 1 then v / 64 * 64 + s.rd .VLK_TXEQ_CM2 l else v
    (s.setWord (0x300070 + 0x1000 * l) (BitVec.ofNat 32 w)).drawn

/-- The home bundle of a lane is enabled; the home spares have none (R111). -/
def State.homeOn (s : State) (l : Nat) : Bool := 20 ≤ l || s.on .VLK_BCTL_EN (l / 4)

/-- Whether a lane climbs the ladder. -/
def State.climbing (s : State) (l : Nat) : Bool := 1 ≤ s.lnState l && s.lnState l ≤ 4

/-- The state of a bundle from its positions in service (R99, R111): the loss of the last one takes it
DOWN, or to TRAINING while a home lane climbs; its sessions are DETACHED. The agreed rate is given up then and only then:
when every lane fails its ladder before any has come into service, on which the manual is silent, it stays fixed (DESIGN
CHOICE, log 28). -/
def State.bundleState (s : State) (b : Nat) : State :=
  let was := s.bundleUp b
  let m := s.rd .VLK_BSTAT_MASK b
  let climb := (List.range 4).any (fun i => s.climbing (4 * b + i))
  let s := s.wr .VLK_BSTAT_STATE b (if m = 15 then 1 else if m ≠ 0 then 2 else if climb then 3 else 0)
  if was && m == 0 then
    let s := s.setBundle b { s.bundle b with fixed := none, gathering := false, lost := true }
    ((s.dealUnder b 0).fault (srcBundle b) 3 1 b).detach b
  else s

/-- The home bundle's state follows when lane `l` changes. -/
def State.homeState (s : State) (l : Nat) : State := if l < 20 then s.bundleState (l / 4) else s

/-- A lane climbs the ladder from step 0 (R86, R88); a rail fault had switched its domain off (R506; DEDUCED, log 43). -/
def State.startLadder (s : State) (l : Nat) : State :=
  let s := s.domainBack (102 + l)
  let s := s.setLane l { s.lane l with ownPass := false, peerPass := false, offered := false, agreed := 0,
                                       uncTimes := [], badSecs := 0 }
  let s := ((s.setLocks l 0).presetTaps l).wr .VLK_STAT_STATE l lnNegotiate |>.wr .VLK_STAT_RATE l 0
  (s.sendOffer l).homeState l

/-- A failed ladder attempt: retry, or retirement at the third in a row (R86, R88). -/
def State.failAttempt (s : State) (l : Nat) : State :=
  let n := s.rd .VLK_STAT_ATTEMPTS l + 1
  let s := (s.flag .VLK_EVT_LADDER_FAIL l).fault (srcLane l) 3 0 l
  let s := (s.setLocks l 0).wr .VLK_STAT_RATE l 0
  let s := s.setLane l { s.lane l with ownPass := false, peerPass := false, offered := false, agreed := 0 }
  if n < 3 then ((s.wr .VLK_STAT_ATTEMPTS l n).wr .VLK_STAT_STATE l lnRetry).homeState l
  else
    let old := (s.lane l).item
    let item := if old = 0 then s.ledger.nextItem else old
    let s := (s.wr .VLK_STAT_ATTEMPTS l 3).wr .VLK_STAT_STATE l lnRetired
    let s := (s.whenS (old == 0) (·.newItem)).setLane l { s.lane l with item := item }
    let s := (s.repair item 5 1 l 0 0).fault (srcLane l) 4 1 l
    let s := s.endLongOf (fun k => k == .laneRestore l) rejState
    s.homeState l

/-- AGREE on a lane: the agreed rate, bundle and position; step 0 begins (R84, R86). -/
def State.agree (s : State) (l r b p : Nat) : State :=
  let s := s.send (.lane l (laneMsg s.moduleId l 2 r 0 0 b p 0 0 [0xFF, 0xFF, 0xFF, 0xFF] 0))
  let s := s.setLane l { s.lane l with agreed := r, ownPass := false, peerPass := false }
  s.wr .VLK_STAT_STATE l lnCheck |>.wr .VLK_STAT_RATE l 0

/-- Bundles of an endpoint. -/
def State.bundlesOf (s : State) (ep : Nat) : List Nat :=
  (List.range 5).filter (fun b => ((s.bundle b).gathering || (s.bundle b).fixed.isSome) &&
    s.rd .VLK_BPEER_ENDPOINT b == ep)

/-- A spare that has offered is agreed once the bundles of its endpoint have fixed their rates: at the
highest of them that its MAXRATE and the cap allow; at the lower of the two when it has no bundle (R84), and also when
they allow none of those rates, on which the manual is silent (DESIGN CHOICE, log 28). -/
def State.answerSpare (s : State) (l : Nat) : State :=
  let bs := s.bundlesOf (s.rd .VLK_PEER_ENDPOINT l)
  let own := min (s.rd .VLK_PEERLANE_MAXRATE l) s.laneCap
  if bs.all (fun b => (s.bundle b).fixed.isSome) then
    let rs := (bs.filterMap (fun b => (s.bundle b).fixed)).filter (· ≤ own)
    s.agree l (if rs.isEmpty then own else rs.foldl max 0) 0xFF 0xFF
  else s

/-- Every waiting spare is answered if it can be. -/
def State.answerSpares (s : State) : State :=
  forN 24 (fun s l => if s.isSpare l && (s.lane l).offered && s.lnState l == lnNegotiate then s.answerSpare l
    else s) s

/-- A home lane with a position in bundle `b` that has offered. -/
def State.gathered (s : State) (b i : Nat) : Bool :=
  let l := 4 * b + i
  (s.lane l).offered && !s.isSpare l && s.lnState l == lnNegotiate

/-- The bundle's agreed top rate is fixed and every lane that has offered is answered (R84). -/
def State.fixRate (s : State) (b : Nat) : State :=
  let rs := ((List.range 4).filter (s.gathered b)).map (fun i => s.rd .VLK_PEERLANE_MAXRATE (4 * b + i))
  let r := rs.foldl min s.laneCap
  let s := s.setBundle b { s.bundle b with gathering := false, fixed := some r }
  let s := forN 4 (fun s i => if s.gathered b i then s.agree (4 * b + i) r b i else s) s
  s.answerSpares

/-- OFFER (R84). -/
def State.offer (s : State) (l : Nat) (m : List Byte) : State :=
  if !laneMsgOk m 1 || s.lnState l ≠ lnNegotiate then s
  else
    let ep := fieldAt m 4 4
    let mr := fieldAt m 9 1
    let s := s.wr .VLK_PEER_ENDPOINT l ep |>.wr .VLK_PEERLANE_LANE l (fieldAt m 8 1)
      |>.wr .VLK_PEERLANE_MAXRATE l (min mr 7)
    let s := (s.setLane l { s.lane l with offered := true }).setBlockLock l 1
    if s.isSpare l then s.answerSpare l
    else
      let b := l / 4
      let x := s.bundle b
      let fresh := !x.gathering && x.fixed.isNone
      let s := if fresh then (s.wr .VLK_BPEER_ENDPOINT b ep).setBundle b { x with gathering := true } else s
      if s.rd .VLK_BPEER_ENDPOINT b ≠ ep then (s.setLane l { s.lane l with spare := true }).answerSpare l
      else match (s.bundle b).fixed with
        | some r =>
          if r ≤ mr then s.agree l r b (l % 4)
          else
            let s := s.send (.lane l (laneMsg s.moduleId l 2 mr 0 0 0xFF 0xFF 0 0 [0xFF, 0xFF, 0xFF, 0xFF] 0))
            s.failAttempt l
        | none => if (List.range 4).all (s.gathered b) then s.fixRate b else s

def execOffer (l : Lane) (msg : List Byte) (s : State) : Host.Outcome State Fault Refusal :=
  .next (s.offer l.val msg)

/-- OFFER_REPEAT (R84): OFFER on each negotiating lane. -/
def execOfferRepeat (s : State) : Host.Outcome State Fault Refusal :=
  .next (forN 24 (fun s l => if s.lnState l = lnNegotiate then s.sendOffer l else s) s)

/-- OFFER_GATHER_TIMEOUT (R84). -/
def execOfferGatherTimeout (b : BundleId) (s : State) : Host.Outcome State Fault Refusal :=
  .next <| if (s.bundle b.val).gathering then s.fixRate b.val else s

/-- Both sides have passed the step: the next rate, or ALIGN at the agreed one (R86, R87). -/
def State.climb (s : State) (l : Nat) : State :=
  let x := s.lane l
  if x.ownPass && x.peerPass then
    let s := s.setLane l { x with ownPass := false, peerPass := false }
    if x.agreed ≤ s.rd .VLK_STAT_RATE l then s.wr .VLK_STAT_STATE l lnAlign
    else ((s.setBlockLock l 0).wr .VLK_STAT_RATE l (s.rd .VLK_STAT_RATE l + 1)).wr .VLK_STAT_STATE l lnTrain
  else s

/-- The pass condition of a step (R82). -/
def checkPasses (rate errors bits : Nat) : Bool := if rate ≤ 1 then errors == 0 else errors * 100000 ≤ bits

/-- Training or checking a step of the ladder. -/
def State.inStep (s : State) (l : Nat) : Bool := s.lnState l == lnTrain || s.lnState l == lnCheck

/-- LADDER_CHECK_DONE (R82, R86): the step's training has set the taps and locked the receiver. A failed check is reported at
the rate of the step, and STEP_FAIL exchanged again after the return to the lowest. -/
def execLadderCheckDone (l : Lane) (errors : Word) (bits : Nat) (s : State) :
    Host.Outcome State Fault Refusal :=
  let l := l.val
  .next <|
    if !s.inStep l || (s.lane l).ownPass then s
    else if checkPasses (s.rd .VLK_STAT_RATE l) errors.toNat bits then
      let s := ((s.trainedTaps l (s.rd .VLK_STAT_RATE l)).setBlockLock l 1).sendStep l 3 0 errors.toNat
      ((s.wr .VLK_STAT_STATE l lnCheck).setLane l { s.lane l with ownPass := true }).climb l
    else ((s.sendStep l 4 2 errors.toNat).sendStep l 4 2 errors.toNat).failAttempt l

/-- STEP_PASS from the partner (R86). -/
def execStepPass (l : Lane) (msg : List Byte) (s : State) : Host.Outcome State Fault Refusal :=
  let l := l.val
  .next <|
    if s.inStep l && laneMsgOk msg 3 && fieldAt msg 10 1 == s.rd .VLK_STAT_RATE l then
      (s.setLane l { s.lane l with peerPass := true }).climb l
    else s

/-- STEP_FAIL from the partner: STEP_FAIL is exchanged at the lowest rate and the lane enters retry (R86). -/
def execStepFail (l : Lane) (msg : List Byte) (s : State) : Host.Outcome State Fault Refusal :=
  let l := l.val
  .next <|
    if (s.inStep l || s.lnState l == lnAlign) && laneMsgOk msg 4 then
      (s.sendStep l 4 (fieldAt msg 11 1) 0).failAttempt l
    else s

/-- LADDER_STEP_DEADLINE (R86). The timeline covers a partner that is present from the start; for a lane still in
NEGOTIATE without one the manual gives no deadline, and the model counts a failed attempt there too (DESIGN CHOICE, log
28). -/
def execLadderStepDeadline (l : Lane) (s : State) : Host.Outcome State Fault Refusal :=
  let l := l.val
  .next <| if s.climbing l then (s.sendStep l 4 1 0).failAttempt l else s

/-- RETRY_WAIT_EXPIRY (R88). -/
def execRetryWaitExpiry (l : Lane) (s : State) : Host.Outcome State Fault Refusal :=
  .next <| if s.lnState l.val = lnRetry then s.startLadder l.val else s

/-! ### The line, the patterns and the checker (R105 to R109) -/

/-- Line bits in 32 ns at a rate code (R82). -/
def bitsPer32 (r : Nat) : Nat := if r = 0 then 330 else if r = 1 then 825 else if r = 2 then 1700 else 3400

/-- Number of the present line bit of a lane, counted on the cleaned clock. -/
def State.bitNow (s : State) (l : Nat) : Nat := s.clock * bitsPer32 (s.rd .VLK_STAT_RATE l) / 32

/-- The loop of a lane: in test mode only (R109). -/
def State.loopOf (s : State) (l : Nat) : Nat := if s.lnState l = lnTest then s.rd .VLK_CTL_LOOP l else 0

/-- The lane's generator feeds its own checker: a near-end loop with the generator running (R109). -/
def State.ownPattern (s : State) (l : Nat) : Bool := s.on .VLK_PGEN_EN l && (s.loopOf l == 1 || s.loopOf l == 2)

/-- What the line output carries (R109). -/
def State.lineOut (s : State) (l : Nat) : LineOut :=
  let st := s.lnState l
  if st = lnOff ∨ st = lnRetired then .off
  else if s.loopOf l = 2 then .idle
  else if s.loopOf l = 3 then .partner
  else .own

/-- A change of what the line output carries is seen from outside. -/
def State.showLine (s : State) (l : Nat) (was : LineOut) : State := if s.lineOut l = was then s else s.send (.line l (s.lineOut l))

/-- Rate injection inverts the line bits whose number is a multiple of 2^RATEK (which of them, the manual leaves open;
DESIGN CHOICE, log 29): the first of them after bit `a`. -/
def State.rateStep (s : State) (l : Nat) : Nat := 2 ^ s.rd .VLK_INJ_RATEK l
def State.nextRate (s : State) (l a : Nat) : Nat := (a / s.rateStep l + 1) * s.rateStep l

/-- Bits that rate injection has inverted from after bit `a` to bit `b` (R107): a bit of a burst is inverted once. -/
def State.rateHits (s : State) (l a b : Nat) : Nat :=
  let a := max a (s.lane l).burstTo
  if s.on .VLK_INJ_RATE_EN l && s.ownPattern l && a < b then b / s.rateStep l - a / s.rateStep l else 0

/-- The bit, if any, at which an error of the rate injection took the lock since the counts were last brought up to date: the
32nd errored bit of 256 (R106). Those bits lie 1024 or more apart, so that only the first after a burst can. -/
def State.rateLoss (s : State) (l : Nat) : Option Nat :=
  let x := s.lane l
  let r := s.nextRate l (max x.seen x.burstTo)
  if s.on .VLK_INJ_RATE_EN l && s.ownPattern l && r ≤ s.bitNow l && 31 ≤ (x.errs.filter (fun e => decide (r < e + 256))).length then some r
  else none

/-- `VLK_PCHK.LOCK` as it stands now. -/
def State.lockedNow (s : State) (l : Nat) : Bool := s.on .VLK_PCHK_LOCK l && (s.rateLoss l).isNone

/-- The line bit up to which the checker has compared. -/
def State.seenTo (s : State) (l : Nat) : Nat := (s.rateLoss l).getD (max (s.lane l).seen (s.bitNow l))

/-- The counts of a lane's checker as they stand now (R106): while it is locked it compares every line bit. -/
def State.pbitsNow (s : State) (l : Nat) : Nat :=
  s.rd64 .VLK_PBITS l + (if s.on .VLK_PCHK_LOCK l then s.seenTo l - (s.lane l).seen else 0)
def State.perrNow (s : State) (l : Nat) : Nat :=
  s.rd64 .VLK_PERR l + (if s.on .VLK_PCHK_LOCK l then s.rateHits l (s.lane l).seen (s.seenTo l) else 0)

/-- The counts and the lock are brought up to the present line bit. -/
def State.settle (s : State) (l : Nat) : State :=
  let x := s.lane l
  let n := s.seenTo l
  let hit := s.on .VLK_PCHK_LOCK l && s.rateHits l x.seen n != 0
  let b := s.pbitsNow l
  let e := s.perrNow l
  let k := s.lockedNow l
  let s := s.setLane l { x with seen := n, errs := if hit then n / s.rateStep l * s.rateStep l :: x.errs else x.errs }
  ((s.wr64 .VLK_PBITS l b).wr64 .VLK_PERR l e).put .VLK_PCHK_LOCK l k

/-- The latest errored bits within 256 after `n` more from bit `a` on, and how many of them were still compared: the
32nd within 256 takes the lock (R106). -/
def errorRun : Nat → Nat → List Nat → Nat → Nat × List Nat × Bool
  | 0, _, l, k => (k, l, false)
  | n + 1, a, l, k =>
    let l := a :: l.filter (fun x => decide (a < x + 256))
    if 32 ≤ l.length then (k + 1, [], true) else errorRun n (a + 1) l (k + 1)

/-- `n` consecutive generator bits are inverted (R107): the lane's own locked checker compares and counts them when a near-end
loop brings them back, and loses lock at the 32nd errored bit of 256 (R106); elsewhere they leave on the line. -/
def State.inject (s : State) (l n : Nat) : State :=
  if !s.on .VLK_PGEN_EN l then s
  else
    let s := s.settle l
    let x := s.lane l
    let a := max (s.bitNow l) x.burstTo
    let bursts := (a, n) :: x.bursts.filter (fun p => decide (s.bitNow l < p.1 + p.2 + 128))
    if s.ownPattern l && s.on .VLK_PCHK_LOCK l then
      let r := errorRun n (a + 1) x.errs 0
      let s := s.setLane l { x with burstTo := a + n, bursts := bursts, errs := r.2.1, seen := a + r.1 }
      let s := (s.bump64 .VLK_PERR l r.1).bump64 .VLK_PBITS l (a - x.seen + r.1)
      if r.2.2 then s.wr .VLK_PCHK_LOCK l 0 else s
    else s.setLane l { x with burstTo := a + n, bursts := bursts }

/-- The line bits that injection inverts (R107). -/
def State.flipped (s : State) (l i : Nat) : Bool :=
  (s.on .VLK_INJ_RATE_EN l && i % s.rateStep l == 0) || (s.lane l).bursts.any (fun p => decide (p.1 < i) && decide (i ≤ p.1 + p.2))

/-- Raw mode has effect in test mode only (R108); `ownRaw`: what it presents is the lane's own pattern. -/
def State.raw (s : State) (l : Nat) : Bool := s.lnState l == lnTest && s.on .VLK_CTL_RAW l
def State.ownRaw (s : State) (l : Nat) : Bool := s.raw l && s.ownPattern l

/-- The word that raw mode presents (R108): of the lane's own pattern in a near-end loop, the last one complete, its
boundary moved by SLIP_POS, with the errors injected; else the word that the line was found to carry, which the model takes to
repeat (log 29). Outside raw mode it is the latest there was. -/
def State.rawWord (s : State) (l : Nat) : Nat :=
  if s.ownRaw l then
    let k := s.rd .VLK_RAW_SLIP_POS l
    lineWord (s.rd .VLK_PGEN_PAT l) (s.lane l).seed (s.on .VLK_PGEN_INV l) (2 ≤ s.rd .VLK_STAT_RATE l) (s.flipped l)
      ((s.bitNow l - k) / 64 * 64 + k - 64)
  else s.rd64 .VLK_RAWDATA l

/-- The word of the lane's own pattern is kept. -/
def State.latchRaw (s : State) (l : Nat) : State := if s.ownRaw l then s.wr64 .VLK_RAWDATA l (s.rawWord l) else s

/-- Raw mode begins, or the lane's own pattern ends in it: the word on the line is outside the model, a free value (R108; log
2); the lane bypasses block lock. -/
def State.enterRaw (s : State) (l : Nat) : State :=
  (s.wr64 .VLK_RAWDATA l s.freeVal.toNat).drawn.wr .VLK_STAT_BLK_LOCK l 0

/-- The generator starts somewhere in its sequence, the manual does not say where: a free value (R105; log 2). -/
def State.startGen (s : State) (l : Nat) : State :=
  (s.setLane l { s.lane l with seed := prbsSeed (s.rd .VLK_PGEN_PAT l) s.freeVal.toNat }).drawn

/-- A pattern that runs at the lane's rate (R105). -/
def State.patOk (s : State) (l pat : Nat) : Bool := pat ≤ 4 || (pat == 5 && 2 ≤ s.rd .VLK_STAT_RATE l)

/-- A generator or checker whose pattern does not run at the lane's rate stops (R105). -/
def State.checkPats (s : State) (l : Nat) : State :=
  let s := if s.on .VLK_PGEN_EN l && !s.patOk l (s.rd .VLK_PGEN_PAT l) then (s.wr .VLK_PGEN_EN l 0).flag .VLK_EVT_MODE_REJ l else s
  if s.on .VLK_PCHK_EN l && !s.patOk l (s.rd .VLK_PCHK_PAT l) then
    ((s.wr .VLK_PCHK_EN l 0).wr .VLK_PCHK_LOCK l 0).flag .VLK_EVT_MODE_REJ l
  else s

/-- A lane in test mode runs at rate `r` (R103, R105): its line bits are counted anew at another rate. -/
def State.testRate (s : State) (l r : Nat) : State :=
  if s.rd .VLK_STAT_RATE l = r then s.checkPats l
  else
    let s := (s.settle l).wr .VLK_STAT_RATE l r
    (s.setLane l { s.lane l with seen := s.bitNow l, burstTo := 0, bursts := [], errs := [] }).checkPats l

/-- Generator, checker, loop and raw mode stop (R104). -/
def State.stopTest (s : State) (l : Nat) : State :=
  ((s.latchRaw l).settle l).wr .VLK_PGEN_EN l 0 |>.wr .VLK_PCHK_EN l 0 |>.wr .VLK_PCHK_LOCK l 0 |>.wr .VLK_CTL_LOOP l 0
    |>.wr .VLK_CTL_RAW l 0 |>.wr .VLK_INJ_RATE_EN l 0 |>.wr .VLK_RAW_SLIP_PEND l 0

/-- A lane enters test mode at TRATE (R103); raw mode takes effect there (R108). -/
def State.enterTest (s : State) (l : Nat) (ret : Bool) : State :=
  let s := (s.wr .VLK_STAT_STATE l lnTest |>.put .VLK_STAT_TESTRET l ret |>.wr .VLK_CTL_MODE l 2).testRate l (s.rd .VLK_CTL_TRATE l)
  if s.on .VLK_CTL_RAW l then s.enterRaw l else s

/-! ### Changes of the lanes in service (R94 to R101) -/

/-- The message that announces the pending change of a bundle: STRIPE, or LANE_DOWN after a loss. -/
def State.sendChange (s : State) (b : Nat) : State :=
  match (s.bundle b).change with
  | none => s
  | some c =>
    forN 4 (fun s p =>
      let l := s.posLane b p
      if l < 24 then
        s.send (.lane l (laneMsg s.moduleId l (if c.planned then 6 else 5) s.laneCap (s.rd .VLK_STAT_RATE l)
          c.reason b p c.mask c.epoch c.replace 0))
      else s) s

/-- The map a bundle will have: the pending change's, else the present one. -/
def State.targetMap (s : State) (b : Nat) : List Nat :=
  match (s.bundle b).change with
  | some c => c.map
  | none => s.laneMap b

/-- The epoch after the last one announced or opened. -/
def State.nextEpoch (s : State) (b : Nat) : Nat :=
  ((match (s.bundle b).change with
    | some c => c.epoch
    | none => s.rd .VLK_BSTAT_EPOCH b) + 1) % 256

/-- A change to `map` is announced under the next epoch; it replaces one not yet opened (R94, R95, R100). While a loss is
not yet opened, what replaces its change is announced by LANE_DOWN too, with the reason of the loss. -/
def State.announce (s : State) (b : Nat) (map : List Nat) (reason : Nat) (planned : Bool) : State :=
  let lost := (s.bundle b).change.filter (fun c => !c.planned)
  let cur := s.laneMap b
  let rep := (map.zip cur).map (fun p => if p.1 = p.2 || 24 ≤ p.1 then 0xFF else p.1)
  let c : EpochChange :=
    { mask := maskOf map, map := map, replace := rep, epoch := s.nextEpoch b
      reason := (if planned then (lost.map (·.reason)).getD reason else reason), planned := planned && lost.isNone }
  (s.setBundle b { s.bundle b with change := some c }).sendChange b

/-- A pending change of another bundle names the lane. -/
def State.namedElsewhere (s : State) (b l : Nat) : Bool :=
  (List.range 5).any (fun k => k != b && (s.bundle k).change.any (fun c => c.map.contains l))

/-- The lowest-numbered STANDBY lane of the bundle's endpoint and rate that no pending change names (R97). -/
def State.findSpare (s : State) (b : Nat) (taken : List Nat) : Option Nat :=
  (List.range 24).find? (fun l => s.lnState l == lnStandby && s.rd .VLK_PEER_ENDPOINT l == s.rd .VLK_BPEER_ENDPOINT b &&
    s.rd .VLK_STAT_RATE l == s.rd .VLK_BSTAT_RATE b && !taken.contains l && !s.namedElsewhere b l)

/-- Fill the empty positions among `ps` of a map with spares other than `ls`, in ascending position order (R97). -/
def State.fillPositions (s : State) (b : Nat) (map ls : List Nat) : List Nat → List Nat
  | [] => map
  | p :: r =>
    match (if map.getD p 31 < 24 then none else s.findSpare b (map ++ ls)) with
    | some l => s.fillPositions b (map.set p l) ls r
    | none => s.fillPositions b map ls r

/-- The positions of a bundle that the loss of lanes takes: those they serve, and those a pending change gives them. -/
def State.lostPositions (s : State) (b : Nat) (ls : List Nat) : List Nat :=
  (List.range 4).filter (fun p => ls.contains (s.posLane b p) || ls.contains ((s.targetMap b).getD p 31))

/-- The lane that serves a position goes on there when the one that was to follow it is gone: not one of those gone, and not
leaving of itself (R91, R101). -/
def State.stays (s : State) (l : Nat) (ls : List Nat) : Bool :=
  decide (l < 24) && !ls.contains l && !(s.lane l).releasing && !(s.lane l).homing

/-- The map of a bundle without lanes `ls`: a lane that was only to give way to one of them stays, but for a degraded one. -/
def State.mapWithout (s : State) (b : Nat) (ls : List Nat) : List Nat :=
  (s.targetMap b).zipIdx.map (fun x =>
    let c := s.posLane b x.2
    if !ls.contains x.1 then x.1 else if s.stays c ls && !(s.lane c).swapped then c else 31)

/-- A degraded lane goes on serving the position that nothing fills (R91). -/
def State.keepDegraded (s : State) (b : Nat) (map ls : List Nat) : List Nat :=
  map.zipIdx.map (fun x =>
    let c := s.posLane b x.2
    if 24 ≤ x.1 && s.stays c ls && (s.lane c).swapped then c else x.1)

/-- A bundle goes on without lanes `ls`, lost at positions `ps`, in one declaration (R94, R95, R97 to R100): substitution
when enabled and spares stand by, announced under the next epoch; with nothing left, the empty set under the next epoch. A
degraded lane whose spare is gone, with no other to take its place, goes on serving (R91). -/
def State.dropPositions (s : State) (b : Nat) (ps ls : List Nat) (reason : Nat) (planned : Bool) : State :=
  let map := s.mapWithout b ls
  let map := if s.on .VLK_BCTL_SUBST_EN b then s.fillPositions b map ls ps else map
  let map := s.keepDegraded b map ls
  let s := forN 4 (fun s p =>
    let c := s.posLane b p
    if map.getD p 31 = c ∧ c < 24 then s.setLane c { s.lane c with swapped := false } else s) s
  if s.rd .VLK_BSTAT_MASK b = 0 ∧ maskOf map = 0 then
    (s.wr .VLK_BSTAT_EPOCH b (s.nextEpoch b)).setBundle b { s.bundle b with change := none }
  else s.announce b map reason planned

/-- Pending changes go on without a lane that stands by, but for the one that takes it to its home position (R100, R101,
R103). -/
def State.withdraw (s : State) (l : Nat) : State :=
  forN 5 (fun s b =>
    let ps := (s.lostPositions b [l]).filter (fun p => decide (l ≠ 4 * b + p))
    if ps.isEmpty then s else s.dropPositions b ps [l] 0 true) s

/-- Pending changes go on without a lane (R100, R103). -/
def State.withdrawAll (s : State) (l : Nat) : State :=
  forN 5 (fun s b =>
    let ps := s.lostPositions b [l]
    if ps.isEmpty then s else s.dropPositions b ps [l] 0 true) s

/-- A lane in service or STANDBY is gone: it enters retry, or test mode when it is being released (R95, R103; log 29). Only a
loss of R90 sets LOCK_LOST and raises the lane's fault (R110, R473). -/
def State.laneGone (s : State) (l : Nat) (lost : Bool) : State :=
  let b := s.rd .VLK_STAT_BUNDLE l
  let p := s.rd .VLK_STAT_POSITION l
  let served := s.lnState l == lnService && b < 5
  let x := s.lane l
  let s := s.whenS lost (fun s => (s.flag .VLK_EVT_LOCK_LOST l).fault (srcLane l) 1 1 l)
  let s := (s.setLocks l 0).wr .VLK_STAT_STATE l lnRetry |>.wr .VLK_STAT_BUNDLE l 7
  let s := s.setLane l { x with uncTimes := [], swapped := false, releasing := false }
  let s := if x.releasing then (s.enterTest l false).endLongOf (fun k => k == .laneRelease l) stDone else s
  if served then
    let s := s.setPos b p 31
    s.wr .VLK_BSTAT_MASK b (maskOf (s.laneMap b))
  else s

/-- Lanes are declared lost together (R90, R95, R97 to R100): those in service or STANDBY, in one declaration for each
bundle that they serve or that a pending change gives them to. Reason 4, administrative, is no loss of R90. -/
def State.loseLanes (s : State) (ls : List Nat) (reason : Nat) : State :=
  let hit := ls.filter (fun l => s.lnState l == lnService || s.lnState l == lnStandby)
  let was := s
  let s := hit.foldl (fun s l => s.laneGone l (reason != 4)) s
  forN 5 (fun s b =>
    let ps := was.lostPositions b hit
    if ps.isEmpty then s else (s.dropPositions b ps hit reason false).bundleState b) s

/-- A lane is declared lost. -/
def State.loseLane (s : State) (l reason : Nat) : State := s.loseLanes [l] reason

/-- LANE_DOWN_REPEAT (R95). -/
def execLaneDownRepeat (b : BundleId) (s : State) : Host.Outcome State Fault Refusal :=
  .next <| match (s.bundle b.val).change with
    | some c => if c.planned then s else s.sendChange b.val
    | none => s

/-- EPOCH_TIMEOUT (R96): no new epoch within 1 ms of the first LANE_DOWN resets the bundle. -/
def execEpochTimeout (b : BundleId) (s : State) : Host.Outcome State Fault Refusal :=
  .next <| match (s.bundle b.val).change with
    | some c => if c.planned then s else (s.fault (srcBundle b.val) 2 1 b.val).bundleReset b.val
    | none => s

/-- A lane that a change takes out of service: to TEST when released, to retry after a degrade swap, to STANDBY when a
home lane takes its position back or it leaves for its own home role (R91, R101, R103). -/
def State.leaveService (s : State) (l : Nat) : State :=
  let x := s.lane l
  let s := s.wr .VLK_STAT_BUNDLE l 7 |>.wr .VLK_STAT_POSITION l 0
  if x.releasing then
    ((s.setLane l { x with releasing := false }).setLocks l 0 |>.enterTest l false).endLongOf (fun k => k == .laneRelease l) stDone
  else if x.swapped then
    ((((s.setLane l { x with swapped := false }).setLocks l 0).wr .VLK_STAT_DEGRADE l 0).wr .VLK_STAT_STATE l lnRetry).setLive (srcLane l) 0 2 false
  else (s.wr .VLK_STAT_STATE l lnStandby).setLane l { x with spare := !x.homing }

/-- A lane has its home role: LANE_RESTORE is done (R101). -/
def State.atHome (s : State) (l : Nat) : State :=
  if (s.lane l).homing then (s.setLane l { s.lane l with homing := false }).endLongOf (fun k => k == .laneRestore l) stDone else s

/-- A lane takes position `p` of bundle `b`. -/
def State.enterService (s : State) (l b p : Nat) (subst : Bool) : State :=
  let s := s.wr .VLK_STAT_STATE l lnService |>.wr .VLK_STAT_BUNDLE l b |>.wr .VLK_STAT_POSITION l p
  let s := if subst then s.flag .VLK_EVT_SUBST l else s
  if l / 4 = b ∧ l % 4 = p then s.atHome l else s

/-- A bundle that is not in service comes back with its first lane, at position `p`, under the next epoch (R87, R94, R99):
its rate and its partner's endpoint are the lane's, and its link layer starts. -/
def State.bringUp (s : State) (b p l : Nat) : State :=
  let x := s.bundle b
  let s := s.wr .VLK_BSTAT_EPOCH b (s.nextEpoch b)
  let s := s.setBundle b { x with change := none, lost := false, gathering := false, fixed := some (s.rd .VLK_STAT_RATE l) }
  let s := (s.wr .VLK_BSTAT_RATE b (s.rd .VLK_STAT_RATE l)).wr .VLK_BPEER_ENDPOINT b (s.rd .VLK_PEER_ENDPOINT l)
  let s := (s.setPos b p l).enterService l b p (l / 4 != b || l % 4 != p)
  let s := s.wr .VLK_BSTAT_MASK b (maskOf (s.laneMap b))
  (((s.bundleState b).sendMarkers b).startLink b).setLive (srcBundle b) 1 3 false

/-- A bundle that a spare can bring back (R97, R99): it was lost whole, is enabled with substitution, and has the lane's
endpoint and rate; the lane's own home bundle first. A change that is still pending, whose announcement left on no lane, gives
way to it. -/
def State.lostBundle (s : State) (l : Nat) : Option Nat :=
  (if l < 20 then l / 4 :: List.range 5 else List.range 5).find? (fun b =>
    (s.bundle b).lost && !s.bundleUp b && s.on .VLK_BCTL_EN b && s.on .VLK_BCTL_SUBST_EN b &&
    s.rd .VLK_PEER_ENDPOINT l == s.rd .VLK_BPEER_ENDPOINT b && s.rd .VLK_STAT_RATE l == s.rd .VLK_BSTAT_RATE b)

/-- A lane that stands by becomes a spare of its endpoint (R101), or brings back a bundle that was lost whole (R99), at
its home position where that bundle is its home (DEDUCED, log 29). R97 has a lost position filled by a lane that is in STANDBY;
whether one that reaches STANDBY after the declaration, or a later write of SUBST_EN, fills a position of a bundle in service
the manual does not say, and here it does not (DESIGN CHOICE, log 28). -/
def State.standSpare (s : State) (l : Nat) : State :=
  match s.lostBundle l with
  | some b => s.bringUp b (if l / 4 = b then l % 4 else 0) l
  | none => if l < 20 then s.setLane l { s.lane l with spare := true } else s

/-- A lane that stands by takes the role its number gives it (R87, R99, R101): its empty home position, at once when the
bundle is not in service, else by a planned restripe; in place of a substitute when it is being restored; else it is a
spare. At another rate or endpoint than the bundle's (R84), a lane that is being restored climbs again (R87; DEDUCED, log
29). -/
def State.takeHome (s : State) (l : Nat) : State :=
  let x := s.lane l
  let b := l / 4
  let p := l % 4
  if s.isSpare l then (s.standSpare l).atHome l
  else if s.bundleUp b then
    if s.rd .VLK_STAT_RATE l ≠ s.rd .VLK_BSTAT_RATE b ∨ s.rd .VLK_PEER_ENDPOINT l ≠ s.rd .VLK_BPEER_ENDPOINT b then
      if x.homing then s.startLadder l else s.standSpare l
    else if 24 ≤ (s.targetMap b).getD p 31 || x.homing then s.announce b ((s.targetMap b).set p l) 0 true
    else s.standSpare l
  else if (s.bundle b).fixed.any (· != s.rd .VLK_STAT_RATE l) then s.startLadder l
  else if ((s.bundle b).lost || (s.bundle b).gathering || (s.bundle b).fixed.isSome) &&
      s.rd .VLK_PEER_ENDPOINT l != s.rd .VLK_BPEER_ENDPOINT b then
    if x.homing then s.startLadder l else s.standSpare l
  else s.bringUp b p l

/-- The announced change opens (R94): the new set of lanes is in service. A bundle that comes up by it has its agreed rate
(R84), and its link layer starts. -/
def State.openEpoch (s : State) (b : Nat) (c : EpochChange) : State :=
  let wasUp := s.bundleUp b
  let old := s.laneMap b
  let left := old.filter (fun o => decide (o < 24) && !c.map.contains o)
  let s := s.setBundle b { s.bundle b with change := none, lost := false }
  let s := left.foldl (fun s o => s.leaveService o) s
  let s := forN 4 (fun s p =>
    let n := c.map.getD p 31
    let s := s.setPos b p n
    if n < 24 && !old.contains n then s.enterService n b p (n / 4 != b || n % 4 != p) else s) s
  let s := s.wr .VLK_BSTAT_MASK b c.mask |>.wr .VLK_BSTAT_EPOCH b c.epoch
  let s := ((s.bundleState b).sendMarkers b).scanSou b
  let s := if s.bundleUp b && !wasUp then
      (s.setBundle b { s.bundle b with fixed := some (s.rd .VLK_BSTAT_RATE b), gathering := false }).startLink b
    else s
  left.foldl (fun s o => if (s.lane o).homing && s.lnState o == lnStandby then s.takeHome o else s) s

/-- The epoch that the markers carry is not the announced one: the module follows it (R94), and a change of it starts the scan
for SOU (R117). -/
def State.followEpoch (s : State) (b e : Nat) : State :=
  let t := s.wr .VLK_BSTAT_EPOCH b e
  if s.rd .VLK_BSTAT_EPOCH b = e then t else t.scanSou b

/-- EPOCH_MARKER (R94): the announced set takes effect; the module follows the epoch the markers carry. -/
def execEpochMarker (b : BundleId) (epoch : Byte) (s : State) : Host.Outcome State Fault Refusal :=
  let b := b.val
  .next <| match (s.bundle b).change with
    | some c => if c.epoch = epoch.toNat then s.openEpoch b c else s.followEpoch b epoch.toNat
    | none => s.followEpoch b epoch.toNat

/-- A lane is back: its loss is over (R482), and the repair entry of a retired one goes (R88, R528). -/
def State.laneBack (s : State) (l : Nat) : State :=
  let x := s.lane l
  let s := s.setLive (srcLane l) 1 1 false
  if x.item = 0 then s else ((s.repair x.item 5 2 l 0 0).setLane l { x with item := 0 }).setLive (srcLane l) 1 4 false

/-- A lane that has passed ALIGN (R87, R99, R101). -/
def State.aligned (s : State) (l : Nat) : State :=
  ((((s.laneBack l).setLocks l 1).wr .VLK_STAT_ATTEMPTS l 0).wr .VLK_STAT_STATE l lnStandby).takeHome l

/-- ALIGN_DONE (R87, R93): more than 500 ns of skew fails with reason 3. -/
def execAlignDone (l : Lane) (skewNs : Nat) (s : State) : Host.Outcome State Fault Refusal :=
  let l := l.val
  .next <|
    if s.lnState l ≠ lnAlign then s
    else if 500 < skewNs then (s.sendStep l 4 3 0).failAttempt l
    else (s.aligned l).homeState l

/-- A planned restripe that swaps a degraded lane for a spare (R91). While another change of the bundle is pending the manual
does not say what becomes of it: here it waits for the next bad measurement (DESIGN CHOICE, log 28). -/
def State.degradeSwap (s : State) (l : Nat) : State :=
  let b := s.rd .VLK_STAT_BUNDLE l
  if s.lnState l == lnService && b < 5 && s.on .VLK_BCTL_DEGRADE_SUBST b && (s.bundle b).change.isNone then
    match s.findSpare b [] with
    | some x => (s.setLane l { s.lane l with swapped := true }).announce b ((s.laneMap b).set (s.rd .VLK_STAT_POSITION l) x) 0 true
    | none => s
  else s

/-- BER_MEASUREMENT (R91, R110): the 1 s counts; above 10^-4 in three in a row is signal degrade. -/
def execBerMeasurement (l : Lane) (meas : BerMeas) (s : State) : Host.Outcome State Fault Refusal :=
  let l := l.val
  .next <|
    let s := s.bump64 .VLK_FEC_CW l meas.codewords |>.bump64 .VLK_FEC_CORR l meas.corrected
      |>.bump64 .VLK_FEC_SYM l meas.symbols |>.wr .VLK_BERSEC_ERRBITS l (min meas.errBits (2 ^ 32 - 1))
    if meas.bits < meas.errBits * 10000 then
      let n := (s.lane l).badSecs + 1
      let s := s.setLane l { s.lane l with badSecs := n }
      if n < 3 then s
      else
        let s := if s.on .VLK_STAT_DEGRADE l then s
          else ((s.wr .VLK_STAT_DEGRADE l 1).flag .VLK_EVT_DEGRADE l).fault (srcLane l) 2 0 l
        s.degradeSwap l
    else ((s.setLane l { s.lane l with badSecs := 0 }).wr .VLK_STAT_DEGRADE l 0).setLive (srcLane l) 0 2 false

/-! ### Test mode (R103 to R109) -/

/-- A lane powers down: OFF, or RETIRED when it was entered from there (R104). -/
def State.laneOff (s : State) (l st : Nat) : State :=
  ((s.setLocks l 0).wr .VLK_STAT_STATE l st |>.wr .VLK_STAT_RATE l 0 |>.wr .VLK_STAT_TESTRET l 0).homeState l

/-- The lane's cage holds a transceiver that was left unpowered (R496): its lanes stay OFF. -/
def State.cageRejected (s : State) (l : Nat) : Bool := bitOf (s.rd .MOD_OPT_PRESENT) (l / 8) && !bitOf (s.rd .MOD_OPT_POWERED) (l / 8)

/-- A lane in data mode climbs if it is powered: its cage's transceiver is, and its home bundle is enabled (R104, R111,
R496); else it stays, or is switched, off. -/
def State.climbOrOff (s : State) (l : Nat) : State :=
  if s.cageRejected l || !s.homeOn l then (if s.lnState l = lnOff then s else s.laneOff l lnOff) else s.startLadder l

/-- VLK_CTL_MODE (R103, R104): also a write of the value held is a write. Test mode is refused to a lane whose transceiver was
left unpowered, which stays OFF (R496; DEDUCED, log 29). -/
def State.laneMode (s : State) (l m : Nat) : State :=
  let st := s.lnState l
  let set := fun (s : State) => s.wr .VLK_CTL_MODE l m
  if st = lnTest then
    let ret := s.on .VLK_STAT_TESTRET l
    if m = 1 then
      let s := set (s.stopTest l)
      if ret then s.laneOff l lnRetired
      else ((s.setLane l { s.lane l with spare := true }).wr .VLK_STAT_TESTRET l 0).climbOrOff l
    else if m = 0 then (set (s.stopTest l)).laneOff l (if ret then lnRetired else lnOff)
    else if m = 2 then s
    else s.flag .VLK_EVT_MODE_REJ l
  else if m = 2 ∧ !s.cageRejected l ∧ (st = lnOff ∨ st = lnRetry ∨ st = lnRetired) then (s.enterTest l (st == lnRetired)).homeState l
  else if m = 1 ∧ st = lnOff then (set s).climbOrOff l
  else if m = 0 ∧ st = lnRetry then (set s).laneOff l lnOff
  else s.flag .VLK_EVT_MODE_REJ l

def execVlkCtlMode (l : Lane) (mode : BitVec 2) (s : State) : Host.Outcome State Fault Refusal :=
  .next ((s.laneMode l.val mode.toNat).showLine l.val (s.lineOut l.val))

/-- BITSLIP (R108). -/
def execBitslip (l : Lane) (s : State) : Host.Outcome State Fault Refusal :=
  let l := l.val
  .next <|
    if s.lnState l == lnTest && s.on .VLK_CTL_RAW l then
      if s.on .VLK_RAW_SLIP_PEND l then s.flag .VLK_EVT_SLIP_OVR l else s.wr .VLK_RAW_SLIP_PEND l 1
    else s

/-- A 64-bit word rotated right by `n` bits. -/
def rotr64 (v n : Nat) : Nat := v / 2 ^ n + v % 2 ^ n * 2 ^ (64 - n)

/-- SLIP_COMPLETE (R108): one bit at NRZ, two at PAM4; a repeating word appears rotated right. -/
def execSlipComplete (l : Lane) (s : State) : Host.Outcome State Fault Refusal :=
  let l := l.val
  .next <|
    if s.on .VLK_RAW_SLIP_PEND l then
      let n := if s.rd .VLK_STAT_RATE l ≤ 1 then 1 else 2
      let s := s.wr .VLK_RAW_SLIP_PEND l 0 |>.wr .VLK_RAW_SLIP_POS l ((s.rd .VLK_RAW_SLIP_POS l + n) % 64)
      s.wr64 .VLK_RAWDATA l (rotr64 (s.rd64 .VLK_RAWDATA l) n)
    else s

/-- RESTART (R110): in retry, climb from step 0 at once. -/
def execRestart (l : Lane) (s : State) : Host.Outcome State Fault Refusal :=
  .next <| if s.lnState l.val = lnRetry then s.startLadder l.val else s

/-- CNTCLR (R110). -/
def execCntclr (l : Lane) (s : State) : Host.Outcome State Fault Refusal :=
  let l := l.val
  .next (s.wr64 .VLK_FEC_CW l 0 |>.wr64 .VLK_FEC_CORR l 0 |>.wr64 .VLK_FEC_UNC l 0 |>.wr64 .VLK_FEC_SYM l 0)

/-- SINGLE (R107). -/
def execSingle (l : Lane) (s : State) : Host.Outcome State Fault Refusal := .next (s.inject l.val 1)

/-- BURST (R107): BLEN = 0 is reserved. -/
def execBurst (l : Lane) (blen : Byte) (s : State) : Host.Outcome State Fault Refusal :=
  .next <|
    if blen.toNat = 0 then s.flag .VLK_EVT_MODE_REJ l.val
    else (s.wr .VLK_INJ_BLEN l.val blen.toNat).inject l.val blen.toNat

/-- VLK_PCHK_EN (R105, R106): from 0 to 1 clears both counts. -/
def execVlkPchkEn (l : Lane) (s : State) : Host.Outcome State Fault Refusal :=
  let l := l.val
  .next <|
    if s.on .VLK_PCHK_EN l then s
    else if !s.patOk l (s.rd .VLK_PCHK_PAT l) then s.flag .VLK_EVT_MODE_REJ l
    else (((s.setLane l { s.lane l with errs := [] }).wr .VLK_PCHK_EN l 1).wr .VLK_PCHK_LOCK l 0).wr64 .VLK_PERR l 0 |>.wr64 .VLK_PBITS l 0

/-- In a near-end loop the checker finds 64 error-free bits only of the pattern it expects; of what the line brings, only
the command tells (R105, R106, R109). -/
def State.patternFits (s : State) (l : Nat) : Bool :=
  let p := s.loopOf l
  !(p == 1 || p == 2) ||
    (s.on .VLK_PGEN_EN l && s.rd .VLK_PGEN_PAT l == s.rd .VLK_PCHK_PAT l && s.on .VLK_PGEN_INV l == s.on .VLK_PCHK_INV l)

/-- PRBS_CHECKER_LOCK (R106, R110): comparing begins with the next bit; the receive clock is locked. -/
def execPrbsCheckerLock (l : Lane) (s : State) : Host.Outcome State Fault Refusal :=
  let l := l.val
  .next <|
    let s := if s.on .VLK_PCHK_LOCK l && !s.lockedNow l then s.settle l else s
    if s.on .VLK_PCHK_EN l && !s.on .VLK_PCHK_LOCK l && s.patternFits l then
      ((s.setLane l { s.lane l with seen := s.bitNow l, errs := [] }).wr .VLK_PCHK_LOCK l 1).wr .VLK_STAT_CLK_LOCK l 1
    else s

/-- PRBS_CHECKER_LOCK_LOST (R106): the bits compared and errored while it was locked are counted; `compared` and
`errored` are those that the command brings beyond the clock's. -/
def execPrbsCheckerLockLost (l : Lane) (compared errored : Nat) (s : State) :
    Host.Outcome State Fault Refusal :=
  let l := l.val
  .next <|
    if s.on .VLK_PCHK_LOCK l && !s.lockedNow l then s.settle l
    else if s.on .VLK_PCHK_LOCK l then
      ((s.settle l).wr .VLK_PCHK_LOCK l 0).bump64 .VLK_PBITS l compared |>.bump64 .VLK_PERR l errored
    else s

/-- LANE_RELEASE's work (R103): a planned restripe first when the lane is in service. False where it has
nothing to wait for. A change that names a lane standing by goes on without it. -/
def State.releaseLane (s : State) (l : Nat) : State × Bool :=
  let b := s.rd .VLK_STAT_BUNDLE l
  if s.lnState l = lnService ∧ b < 5 then
    let s := s.setLane l { s.lane l with releasing := true }
    (s.announce b ((s.targetMap b).set (s.rd .VLK_STAT_POSITION l) 31) 0 true, true)
  else
    let ret := s.lnState l == lnRetired || (s.lnState l == lnTest && s.on .VLK_STAT_TESTRET l)
    let stood := s.lnState l == lnStandby
    let s := ((s.setLocks l 0).enterTest l ret).homeState l
    (s.whenS stood (·.withdrawAll l), false)

/-- LANE_RESTORE's work (R88, R101, R104): the lane climbs the ladder to take its home role, and its repair entry is removed when it is
back (R528); one that stands by takes it at once, and a change that gives it another position goes on without it. A lane
of a bundle that is not enabled, or whose transceiver was left unpowered, stays off (R111, R496), and the operation ends without
it (DEDUCED, log 29). -/
def State.restoreLane (s : State) (l : Nat) : State :=
  let x := s.lane l
  let s := s.stopTest l |>.wr .VLK_STAT_TESTRET l 0 |>.wr .VLK_STAT_ATTEMPTS l 0 |>.wr .VLK_CTL_MODE l 1
  let s := s.setLane l { x with spare := false, homing := true }
  if !s.homeOn l || s.cageRejected l then
    ((s.setLane l { s.lane l with homing := false }).laneOff l lnOff).endLongOf (fun k => k == .laneRestore l) rejState
  else if s.lnState l = lnStandby then (s.withdraw l).takeHome l else s.startLadder l

/-- LANE_RESTORE of a lane in service (R101): in its home role it is done; one that serves elsewhere leaves by a planned
restripe, for the home lane of its position if that stands by, else for a spare. -/
def State.sendHome (s : State) (l : Nat) : State :=
  let b := s.rd .VLK_STAT_BUNDLE l
  let p := s.rd .VLK_STAT_POSITION l
  let h := 4 * b + p
  let s := s.setLane l { s.lane l with spare := false, homing := true }
  if l / 4 = b ∧ l % 4 = p then s.atHome l
  else
    let back := s.lnState h == lnStandby && s.rd .VLK_STAT_RATE h == s.rd .VLK_BSTAT_RATE b &&
      s.rd .VLK_PEER_ENDPOINT h == s.rd .VLK_BPEER_ENDPOINT b && !s.namedElsewhere b h
    let map := (s.targetMap b).set p 31
    s.announce b (if back then map.set p h else s.fillPositions b map [] [p]) 0 true

end Sys2Proof.Machine
end

