-- ==== Sys2Proof/Machine/DeckWrite.lean ====
section
/-! DEFINITION. The deck (R163 to R169): where a sample lies, which range channels are open or closed, and
the write of a frame's samples with the presence counts. -/

namespace Sys2Proof.Machine

/-- HBM offset of deck buffer 0 or 1 of a plan; none while it is not allocated (R166). -/
def ActivePlan.deckBuf (p : ActivePlan) (i : Nat) : Option Nat := if i = 0 then p.deck0 else p.deck1

/-- Byte offset in its buffer of position 0 of compact group `g` in channel index `ch` at counter `t` (R164). -/
def deckOff (d : Tbl Byte) (ch g t : Nat) : Nat := ((ch * pNg d + g) * pS d + t % pS d) * 64 * pB d

/-- First counter of the range of plan `d` that holds `t`. -/
def rangeOf (d : Tbl Byte) (t : Nat) : Nat := t / pS d * pS d

/-- Key of a plan's channel in `closedTo` and `releasedTo`. -/
def planKey (p : ActivePlan) (ch : Nat) : Nat := 1024 * p.id + ch

/-- First counter not yet closed (released) in a channel of a plan: its ranges close in ascending order. -/
def State.closedTo (s : State) (p : ActivePlan) (ch : Nat) : Nat := max p.d (tget 0 s.deck.closedTo (planKey p ch))
def State.releasedTo (s : State) (p : ActivePlan) (ch : Nat) : Nat := max p.d (tget 0 s.deck.releasedTo (planKey p ch))

/-- A range channel is open: opened and not closed (R168). -/
def State.isOpen (s : State) (p : ActivePlan) (t ch : Nat) : Bool :=
  (s.chan t ch).openAt.isSome && s.closedTo p ch ≤ t

/-- D of the pending plan deal. -/
def State.pendingD (s : State) : Option Nat := s.dealer.deal.map (·.d)

/-- Range channel (t, ch) of plan `p` may open (R166, R168): its buffer is allocated, its place in it is
free, no deal at or below it is pending, it lies within the plan's time and has not closed. -/
def State.mayOpen (s : State) (p : ActivePlan) (t ch : Nat) : Bool :=
  (s.chan t ch).openAt.isNone && s.closedTo p ch ≤ t && t < s.releasedTo p ch + 2 * pS p.data &&
  (p.deckBuf (t / pS p.data % 2)).isSome &&
  (match s.pendingD with | some d => t < d || (s.plans.active.map (·.id)) != some p.id | none => true) &&
  (match p.ends with | some e => t < e | none => true)

/-- A range channel opens now. BEHIND follows whether one of the newest range opened after its nominal
start (R185). -/
def State.openChan (s : State) (t ch : Nat) : State :=
  let s := s.setChan t ch { s.chan t ch with openAt := some s.nowNs }
  let late := decide (s.timeOf t |>.any (· < s.nowNs))
  let s := s.whenS late (·.flag .CUT_EVT_BEHIND)
  if s.deck.newest.all (· < t) then
    ({ s with deck := { s.deck with newest := some t } }).put .CUT_DECKSTAT_BEHIND 0 late
  else s.whenS (late && s.deck.newest == some t) (·.flag .CUT_DECKSTAT_BEHIND)

/-- Every range channel of plan `p` that may open opens now. -/
def State.openPlan (s : State) (p : ActivePlan) : State :=
  forN (pN p.data) (fun s ch =>
    let r := s.releasedTo p ch
    forN 2 (fun s i =>
      let t := r + i * pS p.data
      if s.mayOpen p t ch then s.openChan t ch else s) s) s

/-- The range channels of both plans that may open (R168). -/
def State.openDue (s : State) : State :=
  let s := match s.plans.outgoing with | some p => s.openPlan p | none => s
  match s.plans.active with | some p => s.openPlan p | none => s

/-! ### Frames (R112, R116) -/
def fVersion (f : List Byte) : Nat := fieldAt f 0 1
def fType (f : List Byte) : Nat := fieldAt f 1 1
def fModule (f : List Byte) : Nat := fieldAt f 2 1
def fSession (f : List Byte) : Nat := fieldAt f 3 1
def fFlow (f : List Byte) : Nat := fieldAt f 4 2
def fEpoch (f : List Byte) : Nat := fieldAt f 6 1
def fSeq (f : List Byte) : Nat := fieldAt f 8 4
def fCount (f : List Byte) : Nat := fieldAt f 12 8
def fChbase (f : List Byte) : Nat := fieldAt f 20 3
def fShape (f : List Byte) : Nat := fieldAt f 23 1 % 64
def fGroup (f : List Byte) : Nat := fieldAt f 24 1 % 64
def fPlen (f : List Byte) : Nat := fieldAt f 26 2
def fPayload (f : List Byte) : List Byte := (f.take (f.length - 4)).drop 64

/-- Channels, samples per frame, and bytes per sample of a shape (R112). -/
def shC (sh : Nat) : Nat := 2 ^ (sh % 8)
def shT (sh : Nat) : Nat := 16 * 2 ^ (sh / 8 % 4)
def shB (sh : Nat) : Nat := if sh / 32 % 2 = 0 then 1 else 2
/-- Payload bytes of a shape. -/
def shBytes (sh : Nat) : Nat := shC sh * shT sh * 64 * shB sh
/-- A shape of R115. -/
def shListed (sh : Nat) : Bool := sh % 8 ≤ 3 && shBytes sh ≤ 8192

/-- The (channel of the frame, channel index) pairs that a plan uses of a frame; none unless it uses the
frame's group (R147, R167). -/
def usedChans (d : Tbl Byte) (f : List Byte) : List (Nat × Nat) :=
  if pHasGroup d (fGroup f) then
    let cs := pChans d
    (List.range (shC (fShape f))).filterMap (fun c =>
      let i := cs.findIdx (· == fChbase f + c)
      if i < cs.length then some (c, i) else none)
  else []

/-- The samples of channel `c` of a frame, in time order (R116). -/
def chanBytes (f : List Byte) (c : Nat) : List Byte :=
  let sh := fShape f
  let w := 64 * shB sh
  (List.range (shT sh)).flatMap (fun tau => slice (fPayload f) ((tau * shC sh + c) * w) w)

/-- The samples of a frame are written to the deck, with the presence count of their run (R167, R169). -/
def State.writeFrame (s : State) (p : ActivePlan) (f : List Byte) : State :=
  let d := p.data
  let t := fCount f
  let g := pCompact d (fGroup f)
  let r := rangeOf d t
  let run := t % pS d / 256
  (usedChans d f).foldl (fun s ci =>
    match p.deckBuf (t / pS d % 2) with
    | some base =>
      let s := s.hbmWrite (base + deckOff d ci.2 g t) (chanBytes f ci.1)
      let k := 2 ^ 16 * chanKey r ci.2 + 2 ^ 8 * g + run
      let dk := s.deck
      let n := tget 0 dk.presence k + shT (fShape f)
      { s with deck := { dk with presence := tset 0 dk.presence k n } }
    | none => s) s

end Sys2Proof.Machine
end

