-- ==== Sys2Proof/Machine/Sessions.lean ====
section
/-! DEFINITION. Sessions, flows and acceptance (R112 to R162, R527): the frames a partner sends, checked in
the order of R142 and R143, and what the module sends back. -/

namespace Sys2Proof.Machine

/-! ### Codes -/
def ssFree : Nat := 0
def ssReadyWait : Nat := 1
def ssOpen : Nat := 2
def ssResetWait : Nat := 3
def ssDetached : Nat := 4
def flFree : Nat := 0
def flActive : Nat := 1
def flSuspect : Nat := 2
def flSilent : Nat := 3
def flFault : Nat := 4

/-- An acknowledgement entry (R148). -/
def ackEntry (flow kind reason seq : Nat) : List Byte :=
  leBytes 2 flow ++ leBytes 1 kind ++ leBytes 1 reason ++ leBytes 4 seq

/-- PIGGY of a frame of a session: ACK entries of the flows acknowledged last, as they stand now (R148). Which entries
PIGGY carries is the model's choice (log 30). -/
def State.piggy (s : State) (sess : Nat) : List Byte :=
  padTo 16 (((s.session sess).acks.take 2).flatMap (fun f => ackEntry f 1 0 (s.rd .VSN_FNEXT_NEXT f)))

/-- A frame the module sends (R112, R113, R133). -/
def State.mkFrame (s : State) (type sess : Nat) (payload : List Byte) : List Byte :=
  let h := leBytes 1 1 ++ leBytes 1 type ++ leBytes 1 s.moduleId ++ leBytes 1 sess ++ leBytes 2 0 ++
    leBytes 1 (s.rd .VSN_SSTAT_EPOCH sess) ++ leBytes 19 0 ++ leBytes 2 payload.length ++ leBytes 4 0 ++
    (if type = 0x12 then leBytes 16 0 else s.piggy sess) ++ leBytes 14 0
  let f := h ++ leBytes 2 (crc16 h) ++ payload
  f ++ leBytes 4 (crc32c f)

/-- A frame of a type leaves on a bundle for a session. -/
def State.say (s : State) (b type sess : Nat) (payload : List Byte) : State := s.sendFrame b (s.mkFrame type sess payload)

/-- The session's later frames repeat the ACK of a flow, while the flow is in the session (R148). -/
def State.keepAck (s : State) (sess flow : Nat) : State :=
  s.setSession sess { s.session sess with acks := (flow :: (s.session sess).acks.filter (· != flow)).take 2 }

/-- An acknowledgement entry in an ACCEPT_ACK (R148). -/
def State.entry (s : State) (b sess flow kind reason seq : Nat) : State :=
  let s := s.say b 0x30 sess (ackEntry flow kind reason seq)
  if kind = 1 then s.keepAck sess flow else s

/-- A REFUSE entry, counted for the session it names (R148, R161). -/
def State.refuse (s : State) (b sess flow reason seq : Nat) : State :=
  let s := if s.rd .VSN_SSTAT_STATE sess = ssFree then s else s.bump .VSN_SREFUSED_COUNT sess
  s.entry b sess flow 5 reason seq

/-! ### Flows -/

/-- Flows that are not FREE, in ascending flow ID. -/
def State.flowList (s : State) : List Nat :=
  (tkeys s.regs).filterMap (fun o =>
    if 0x410000 ≤ o ∧ o < 0x4B0000 ∧ o % 16 = 0 ∧ s.rd .VSN_FSTAT_STATE ((o - 0x410000) / 16) ≠ flFree then
      some ((o - 0x410000) / 16)
    else none)

/-- The flows of a session (R162). -/
def State.flowsOf (s : State) (n : Nat) : List Nat := s.flowList.filter (fun f => s.rd .VSN_FSTAT_SESSION f == n)

/-- SHAPE byte of a flow. -/
def State.flowShape (s : State) (f : Nat) : Nat :=
  s.rd .VSN_FSTAT_CHCODE f + 8 * s.rd .VSN_FSTAT_SCODE f + 32 * s.rd .VSN_FSTAT_FMT f

/-- Event 0x0402 of a flow (R153, R526). -/
def State.flowEvent (s : State) (f action : Nat) : State :=
  s.event 4 0x0402 f (s.flow f).exp (action + 256 * s.rd .VSN_FSTAT_STATE f +
    65536 * s.rd .VSN_FSTAT_SESSION f + 2 ^ 32 * s.rd .VSN_FNEXT_NEXT f)

/-- A flow set record with one entry (R432). -/
def State.flowRecord (s : State) (f : Nat) : State :=
  let x := s.flow f
  s.record 4 (s.rd .VSN_FSTAT_SESSION f) 1 s.lastDsn
    (leBytes 1 1 ++ leBytes 3 0 ++ leBytes 2 f ++ leBytes 1 (s.rd .VSN_FSTAT_GROUP f) ++
     leBytes 1 (s.flowShape f) ++ leBytes 3 (s.rd .VSN_FCHBASE_CHBASE f) ++ leBytes 1 (s.rd .VSN_FSTAT_STATE f) ++
     leBytes 4 x.anchorSeq ++ leBytes 8 x.anchorCount)

/-- Session checkpoint record (R432). -/
def State.sessRecord (s : State) (n : Nat) : State :=
  s.record 3 n 1 s.lastDsn
    (leBytes 1 (s.rd .VSN_SSTAT_STATE n) ++ leBytes 1 (s.rd .VSN_SSTAT_EPOCH n) ++
     leBytes 1 (s.rd .VSN_SSTAT_BUNDLE n) ++ leBytes 1 0 ++ leBytes 4 (s.rd .VSN_SPEER_ENDPOINT n) ++
     leBytes 8 (s.rd64 .VSN_STOKEN n))

/-- The held frames of a flow are `l` from now on; the counts of R160 and R162 follow. -/
def State.setHeld (s : State) (f : Nat) (l : List (Nat × List Byte)) : State :=
  let old := (s.flow f).held
  let s := s.setFlow f { s.flow f with held := l }
  let s := s.wr .VSN_FCHBASE_HELD f (min l.length 255)
  forN 5 (fun s b =>
    let n := fun (l : List (Nat × List Byte)) => (l.filter (fun p => p.1 == b)).length
    s.wr .VSN_LBUF_HELD b (s.rd .VSN_LBUF_HELD b + n l - n old)) s

/-- Frames leave the receive buffer and free their credits (R124). -/
def State.freeFrames (s : State) (l : List (Nat × List Byte)) : State :=
  l.foldl (fun s p => s.freeCredits p.1 (frameCost p.2)) s

/-- All held frames of a flow are discarded unacknowledged. -/
def State.dropHeld (s : State) (f : Nat) : State :=
  let l := (s.flow f).held
  (s.setHeld f []).freeFrames l

/-- Serial-number difference of R140. -/
def seqDiff (q e : Nat) : Nat := (q + 2 ^ 32 - e) % 2 ^ 32

/-- The flow expects sequence `e` at counter `c` next; the next to check is `h` (R140, R144). Where that moves, an open
gap is closed (R150). -/
def State.setNext (s : State) (f e c h : Nat) : State :=
  let x := s.flow f
  (s.setFlow f { x with exp := c, h := h, nackAt := if h = x.h then x.nackAt else none }).wr .VSN_FNEXT_NEXT f e

/-- A flow becomes FREE (R137, R138): held frames discarded, event and record. -/
def State.releaseFlow (s : State) (f action : Nat) : State :=
  let n := s.rd .VSN_FSTAT_SESSION f
  let s := s.dropHeld f
  let s := s.setSession n { s.session n with acks := (s.session n).acks.filter (· != f) }
  let s := s.wr .VSN_FSTAT_STATE f flFree
  let s := (s.flowEvent f action).flowRecord f
  let s := s.wr .VSN_SSTAT_FLOWS n (s.rd .VSN_SSTAT_FLOWS n - 1)
  let s := s.setWord (0x410000 + 16 * f) 0 |>.setWord (0x410004 + 16 * f) 0 |>.setWord (0x410008 + 16 * f) 0
    |>.setWord (0x41000c + 16 * f) 0
  s.setFlow f {}

/-- A session becomes FREE with its flows (R129, R131): its slot keeps its last epoch and its tokens. -/
def State.freeSession (s : State) (n action : Nat) : State :=
  let s := (s.flowsOf n).foldl (fun s f => s.releaseFlow f 3) s
  let ep := s.rd .VSN_SSTAT_EPOCH n
  let s := ((s.wr .VSN_SSTAT_STATE n ssFree).sessionEvent n action 0).sessRecord n
  let s := s.wr .VSN_SSTAT_BUNDLE n 7 |>.wr .VSN_SSTAT_EPOCH n 0 |>.wr .VSN_SPEER_ENDPOINT n 0 |>.wr64 .VSN_STOKEN n 0
  s.setSession n { lastEpoch := ep, tokens := (s.session n).tokens }

/-- A session closes; while acceptance is suspended no flow is released, and the close waits (R152; log 30). Action 6
announces it with SCLOSE where the session has a bundle. -/
def State.endSession (s : State) (n action : Nat) (tell : Bool) : State :=
  if s.rd .VSN_SSTAT_STATE n = ssFree then s
  else if s.suspended then s.setSession n { s.session n with closeDue := action }
  else
    let b := s.rd .VSN_SSTAT_BUNDLE n
    (if tell && b < 5 then s.say b 0x14 n [] else s).freeSession n action

/-- The end of a suspension (R152): closes that waited are made, and owed credits are returned. -/
def State.resumeAccept (s : State) : State :=
  (forN 256 (fun s n =>
    let a := (s.session n).closeDue
    if a = 0 then s else s.endSession n a (a == 6)) s).resumeCredits

/-- SRESET leaves; the session waits to be resumed (R129). -/
def State.resetSession (s : State) (n reason : Nat) : State :=
  let b := s.rd .VSN_SSTAT_BUNDLE n
  let s := s.say b 0x15 n (leBytes 1 (s.rd .VSN_SSTAT_EPOCH n) ++ leBytes 1 reason ++ leBytes 30 0)
  let s := (s.setSession n { s.session n with resetReason := reason }).flag .VSN_EVT_SRESET
  (s.wr .VSN_SSTAT_STATE n ssResetWait).sessionEvent n 4 reason

/-! ### The receive buffer (R149) -/

/-- The frame a row names is the next undecided one of its bundle: frames take effect in link order. -/
def State.isNext (s : State) (b : Nat) (f : List Byte) : Bool :=
  (s.link b).rxq.head? == some f && !s.modl.warm && !s.modl.mrst

/-- The frame leaves the list of undecided frames; its credits stay consumed until it is freed. -/
def State.takeFrame (s : State) (b : Nat) : State := s.setLink b { s.link b with rxq := (s.link b).rxq.drop 1 }

/-- The frame leaves the receive buffer with its credits. -/
def State.doneFrame (s : State) (b : Nat) (f : List Byte) : State := (s.takeFrame b).freeCredits b (frameCost f)

/-- A session or flow control frame that fails checks 2 to 4 is discarded and counted (R143). -/
def State.noSession (s : State) (b : Nat) (f : List Byte) : State := (s.doneFrame b f).bump .VSN_LNOSESS_COUNT b

/-- Check 2 of a session or flow control frame: version, type and its fixed payload length (R114, R127). -/
def formOk (f : List Byte) (type plen : Nat) : Bool :=
  fVersion f == 1 && fType f == type && fPlen f == plen && f.length == 68 + plen

/-- Checks 2 to 5 of R143 for a frame of a session in state `st`; `none` when all pass. -/
def State.ctlCheck (s : State) (b : Nat) (f : List Byte) (type plen st : Nat) : Option State :=
  let n := fSession f
  if !formOk f type plen || fModule f ≠ s.moduleId then some (s.noSession b f)
  else if s.rd .VSN_SSTAT_STATE n ≠ st || s.rd .VSN_SSTAT_BUNDLE n ≠ b then some (s.noSession b f)
  else if fEpoch f ≠ s.rd .VSN_SSTAT_EPOCH n then some ((s.doneFrame b f).resetSession n 1)
  else none

/-! ### Opening a session (R126 to R133, R155 to R158) -/

/-- FSTATE entry of a flow (R155). -/
def State.fstate (s : State) (f : Nat) : List Byte :=
  let x := s.flow f
  leBytes 2 f ++ leBytes 1 (s.rd .VSN_FSTAT_STATE f) ++ leBytes 1 (if x.lossCount = 0 then 0 else 1) ++
  leBytes 4 (s.rd .VSN_FNEXT_NEXT f) ++ leBytes 8 x.exp ++ leBytes 4 x.lossFirst ++ leBytes 4 x.lossCount ++
  leBytes 1 (s.rd .VSN_FSTAT_GROUP f) ++ leBytes 1 (s.flowShape f) ++ leBytes 3 (s.rd .VSN_FCHBASE_CHBASE f) ++
  leBytes 3 0

/-- Payloads of the FSTATE frames, up to 256 entries each (R114). -/
def State.fstates (s : State) (fs : List Nat) (fuel : Nat) : List (List Byte) :=
  match fuel with
  | 0 => []
  | k + 1 => if fs.isEmpty then [] else (fs.take 256).flatMap s.fstate :: s.fstates (fs.drop 256) k

/-- Payload of the SGRANT of a session with `entries` FSTATE entries (R127). -/
def State.grantPayload (s : State) (n entries : Nat) : List Byte :=
  let x := s.session n
  let trick := match s.tricks.cur with | some t => t | none => 2 ^ 64 - 1
  leBytes 1 n ++ leBytes 1 (s.rd .VSN_SSTAT_EPOCH n) ++ leBytes 1 x.kind ++ leBytes 1 0 ++
    leBytes 4 x.nonce ++ leBytes 8 (s.rd64 .VSN_STOKEN n) ++ leBytes 4 entries ++ leBytes 8 trick ++ leBytes 4 0

/-- SGRANT and FSTATE frames of a session as they stand now (R127, R155). -/
def State.answerOf (s : State) (n : Nat) : List (Nat × List Byte) :=
  let x := s.session n
  let fs := if x.kind = 0 || x.kind = 4 then [] else s.flowsOf n
  (0x11, s.grantPayload n fs.length) :: (s.fstates fs (fs.length / 256 + 1)).map (fun p => (0x16, p))

/-- The session's answer leaves on bundle `b` (R128). -/
def State.sendAnswer (s : State) (b n : Nat) : State :=
  (s.session n).answer.foldl (fun s p => s.say b p.1 n p.2) s

/-- The grant is answered, and the answer kept for a repeated SOPEN (R127, R128). -/
def State.sendGrant (s : State) (b n : Nat) : State :=
  (s.setSession n { s.session n with answer := s.answerOf n }).sendAnswer b n

/-- A session is granted in a slot: state, bundle, epoch, nonce, KIND; SGRANT, event and record. -/
def State.grant (s : State) (b n epoch nonce kind action : Nat) : State :=
  let s := s.wr .VSN_SSTAT_STATE n ssReadyWait |>.wr .VSN_SSTAT_BUNDLE n b |>.wr .VSN_SSTAT_EPOCH n epoch
  let s := s.setSession n { s.session n with nonce := nonce, kind := kind, warmSince := false, coldKind := 0 }
  ((s.sendGrant b n).sessionEvent n action (if action = 2 then kind else 0)).sessRecord n

/-- A resume (R129, R155 to R158): KIND 4 releases the flows; KIND 3 after a loss of power; 2 after a warm
reset; else 1. Only KIND 3 reports lost frames. Where a warm reset follows a cold start before the resume, R156 and R157 both
apply: here the cold start's KIND stands (DESIGN CHOICE, log 30). -/
def State.resumeSession (s : State) (b n nonce : Nat) : State :=
  let x := s.session n
  let kind := if x.coldKind ≠ 0 then x.coldKind else if x.warmSince then 2 else 1
  let s := if kind = 4 then ((s.flowsOf n).foldl (fun s f => s.releaseFlow f 3) s).flag .VSN_EVT_SNAPLOST
    else if kind = 3 then s
    else (s.flowsOf n).foldl (fun s f => s.setFlow f { s.flow f with lossFirst := 0, lossCount := 0 }) s
  s.grant b n ((s.rd .VSN_SSTAT_EPOCH n + 1) % 256) nonce kind 2

/-- The token of a new session (R131, R132): the entropy drawn or, where an earlier session of the slot had that token,
the next value that none had (log 30). -/
def State.newToken (s : State) (n epoch : Nat) : Nat :=
  let old := (s.session n).tokens
  let tok := fun k => s.moduleId * 2 ^ 56 + n * 2 ^ 48 + epoch * 2 ^ 40 + (s.freeVal.toNat + k) % 2 ^ 40
  tok (((List.range (old.length + 1)).find? (fun k => !old.contains (tok k))).getD 0)

/-- A new session in the lowest FREE slot (R126, R132). -/
def State.newSession (s : State) (b n ep nonce : Nat) : State :=
  let epoch := ((s.session n).lastEpoch + 1) % 256
  let tok := s.newToken n epoch
  let s := s.drawn.setSession n { tokens := tok :: (s.session n).tokens }
  let s := s.wr .VSN_SPEER_ENDPOINT n ep |>.wr64 .VSN_STOKEN n tok
  s.grant b n epoch nonce 0 1

/-- SREFUSE (R127). It belongs to no session: SESSION 0 and the epoch of session 0 are the model's choice (log 30). -/
def State.srefuse (s : State) (b reason nonce : Nat) : State :=
  s.say b 0x12 0 (leBytes 1 reason ++ leBytes 3 0 ++ leBytes 4 nonce ++ leBytes 24 0)

/-- SOPEN (R126 to R133, R143, R155, R156). Where several refusals apply, reason 4 comes first, then 5, then 2 or 3,
then 1: the model's order (log 30). A resume that would release flows waits while acceptance is suspended (R152). -/
def execSopen (b : BundleId) (f : List Byte) (s : State) : Host.Outcome State Fault Refusal :=
  let b := b.val
  .next <|
    if !s.isNext b f then s
    else if !formOk f 0x10 32 then s.noSession b f
    else
      let pl := fPayload f
      let ep := fieldAt pl 0 4
      let nonce := fieldAt pl 4 4
      let tok := fieldAt pl 8 8
      let s0 := s
      let s := s.doneFrame b f
      let slots := List.range 256
      if fModule f ≠ s.moduleId || s.moduleId = 255 then s.srefuse b 4 nonce
      else if ep ≠ s.rd .VLK_BPEER_ENDPOINT b then s.srefuse b 5 nonce
      else match slots.find? (fun n => s.rd .VSN_SSTAT_STATE n == ssReadyWait &&
          s.rd .VSN_SPEER_ENDPOINT n == ep && (s.session n).nonce == nonce) with
        | some n => (s.wr .VSN_SSTAT_BUNDLE n b).sendAnswer b n
        | none =>
          if tok ≠ 0 then
            match slots.find? (fun n => s.rd .VSN_SSTAT_STATE n != ssFree && s.rd64 .VSN_STOKEN n == tok) with
            | some n => if s.suspended && (s.session n).coldKind == 4 then s0 else s.resumeSession b n nonce
            | none => s.srefuse b 2 nonce
          else if !s.on .VSN_CTL_OPEN_EN then s.srefuse b 3 nonce
          else match slots.find? (fun n => s.rd .VSN_SSTAT_STATE n == ssFree) with
            | some n => s.newSession b n ep nonce
            | none => s.srefuse b 1 nonce

/-- SREADY (R126, R143). -/
def execSready (b : BundleId) (f : List Byte) (s : State) : Host.Outcome State Fault Refusal :=
  let b := b.val
  .next <|
    if !s.isNext b f then s
    else match s.ctlCheck b f 0x13 0 ssReadyWait with
      | some s' => s'
      | none =>
        let n := fSession f
        let s := (s.doneFrame b f).setSession n { s.session n with answer := [] }
        ((s.wr .VSN_SSTAT_STATE n ssOpen).sessionEvent n 3 0).sessRecord n

/-- SCLOSE (R129, R143): the flows are released and SCLOSE answers. It waits while acceptance is suspended (R152). -/
def execSclose (b : BundleId) (f : List Byte) (s : State) : Host.Outcome State Fault Refusal :=
  let b := b.val
  .next <|
    if !s.isNext b f || s.suspended then s
    else match s.ctlCheck b f 0x14 0 ssOpen with
      | some s' => s'
      | none => ((s.doneFrame b f).say b 0x14 (fSession f) []).freeSession (fSession f) 6

/-! ### Flows requested, released and skipped (R134 to R137) -/

/-- Sample period figures: f_ch = 10^9 Q ÷ P. -/
def State.mapPQ (s : State) : Nat × Nat := match s.timeb.map with | some m => (m.p, m.q) | none => (1, 1)

/-- Weight of a lane at a rate code, in twentieths of 100 Gbit/s (R81). -/
def rateWeight (r : Nat) : Nat := if r = 3 then 20 else if r = 2 then 10 else if r = 1 then 5 else 2

/-- Sum of the weights of a bundle's lanes in service, in twentieths (R81). -/
def State.bundleWeight (s : State) (b : Nat) : Nat :=
  popcount 4 (s.rd .VLK_BSTAT_MASK b) * rateWeight (s.rd .VLK_BSTAT_RATE b)

/-- Load of a shape in 1/128 of 8 (P_f + 100) ÷ T bits per sample period (R69). -/
def shapeLoad (sh : Nat) : Nat := 8 * (shBytes sh + 100) * (128 / shT sh)

/-- The bundle stays within its capacity with a shape added to its flows (R69). -/
def State.capacityOk (s : State) (b sh : Nat) (without : List Nat) : Bool :=
  let fs := s.flowList.filter (fun f => s.rd .VSN_SSTAT_BUNDLE (s.rd .VSN_FSTAT_SESSION f) == b && !without.contains f)
  let load := (fs.map (fun f => shapeLoad (s.flowShape f))).sum + shapeLoad sh
  let pq := s.mapPQ
  load * 1000000000 * pq.2 * 20 ≤ 100000000000 * s.bundleWeight b * 128 * pq.1

/-- Whether two (group, channel base, shape) sets share a (group, channel) pair. -/
def overlaps (g c sh g' c' sh' : Nat) : Bool := g == g' && c < c' + shC sh' && c' < c + shC sh

/-- FGRANT (R127). -/
def State.sendFgrant (s : State) (b n f tag : Nat) : State :=
  s.say b 0x21 n (leBytes 2 f ++ leBytes 2 tag ++ leBytes 4 (s.rd .VSN_FNEXT_NEXT f) ++ leBytes 8 (s.flow f).exp ++
    leBytes 16 0)

/-- FREFUSE (R127). -/
def State.sendFrefuse (s : State) (b n tag reason : Nat) : State :=
  s.say b 0x22 n (leBytes 2 tag ++ leBytes 1 reason ++ leBytes 29 0)

/-- The flow's context holds the grant: shape, place, first sequence and anchor (R134, R136). -/
def State.anchorFlow (s : State) (f n g sh cb seq anchor : Nat) : State :=
  let s := s.wr .VSN_FSTAT_STATE f flActive |>.wr .VSN_FSTAT_SESSION f n |>.wr .VSN_FSTAT_GROUP f g
    |>.wr .VSN_FSTAT_CHCODE f (sh % 8) |>.wr .VSN_FSTAT_SCODE f (sh / 8 % 4) |>.wr .VSN_FSTAT_FMT f (sh / 32 % 2)
  let s := s.wr .VSN_FCHBASE_CHBASE f cb |>.wr .VSN_FNEXT_NEXT f seq
  s.setFlow f { s.flow f with h := seq, exp := anchor, anchorSeq := seq, anchorCount := anchor, lossFirst := 0,
                              lossCount := 0, lateBelow := 0, nackAt := none }

/-- The decision of a new flow: the first reason that applies in the order 3, 6, 4, 7, 1, 2 (R134, R135). -/
def State.newFlow (s : State) (b n g sh cb seq anchor tag : Nat) : State :=
  let ep := s.rd .VSN_SPEER_ENDPOINT n
  let hits := s.flowList.filter (fun f => overlaps g cb sh (s.rd .VSN_FSTAT_GROUP f) (s.rd .VSN_FCHBASE_CHBASE f) (s.flowShape f))
  let owner := fun f => s.rd .VSN_FSTAT_SESSION f
  if hits.any (fun f => owner f == n) then s.sendFrefuse b n tag 6
  else if hits.any (fun f => s.rd .VSN_SPEER_ENDPOINT (owner f) != ep) then s.sendFrefuse b n tag 4
  else if s.timeb.map.isNone then s.sendFrefuse b n tag 7
  else
    let used := s.flowList.filter (fun f => !hits.contains f)
    match (List.range (used.length + 1)).find? (fun f => !used.contains f) with
    | none => s.sendFrefuse b n tag 1
    | some f =>
      if 40960 ≤ f then s.sendFrefuse b n tag 1
      else if !s.capacityOk b sh hits then s.sendFrefuse b n tag 2
      else
        let s := hits.foldl (fun s o => (s.releaseFlow o 4).flag .VSN_EVT_TAKEOVER) s
        let s := (s.setFlow f {}).anchorFlow f n g sh cb seq anchor
        let s := s.wr .VSN_SSTAT_FLOWS n (s.rd .VSN_SSTAT_FLOWS n + 1)
        ((s.sendFgrant b n f tag).flowEvent f 1).flowRecord f

/-- FREQ (R134 to R136, R152): it waits while acceptance is suspended. A FLOW that is not assigned, or to another session,
is answered as a re-anchor that does not match: DEDUCED (log 30). A re-anchor whose group, shape, channel or anchor is invalid is
answered with reason 3 before reason 5, whose place in the order of R134 the manual does not give: DESIGN CHOICE (log 30). -/
def execFreq (b : BundleId) (f : List Byte) (s : State) : Host.Outcome State Fault Refusal :=
  let b := b.val
  .next <|
    if !s.isNext b f || s.suspended then s
    else match s.ctlCheck b f 0x20 32 ssOpen with
      | some s' => s'
      | none =>
        let pl := fPayload f
        let n := fSession f
        let g := fieldAt pl 0 1
        let sh := fieldAt pl 1 1 % 64
        let cb := fieldAt pl 2 3
        let tag := fieldAt pl 6 2
        let seq := fieldAt pl 8 4
        let fl := fieldAt pl 12 2
        let anchor := fieldAt pl 16 8
        let s := s.doneFrame b f
        if 64 ≤ g || !shListed sh || cb % shC sh ≠ 0 || 2 ^ 24 ≤ cb + shC sh - 1 || anchor % shT sh ≠ 0 then
          s.sendFrefuse b n tag 3
        else if fl = 0xFFFF then s.newFlow b n g sh cb seq anchor tag
        else if fl < 40960 ∧ s.rd .VSN_FSTAT_STATE fl ≠ flFree ∧ s.rd .VSN_FSTAT_SESSION fl = n ∧
            s.rd .VSN_FSTAT_GROUP fl = g ∧ s.rd .VSN_FCHBASE_CHBASE fl = cb ∧ s.flowShape fl = sh then
          let s := (s.dropHeld fl).anchorFlow fl n g sh cb seq anchor
          ((s.sendFgrant b n fl tag).flowEvent fl 2).flowRecord fl
        else s.sendFrefuse b n tag 5

/-- FRELEASE (R137). The frame carries no sequence: SEQ of a REFUSE is 0, the model's choice (log 30). -/
def execFrelease (b : BundleId) (f : List Byte) (s : State) : Host.Outcome State Fault Refusal :=
  let b := b.val
  .next <|
    if !s.isNext b f || s.suspended then s
    else match s.ctlCheck b f 0x23 32 ssOpen with
      | some s' => s'
      | none =>
        let n := fSession f
        let fl := fieldAt (fPayload f) 0 2
        let s := s.doneFrame b f
        if 40960 ≤ fl ∨ s.rd .VSN_FSTAT_STATE fl = flFree then s.refuse b n fl 1 0
        else if s.rd .VSN_FSTAT_SESSION fl ≠ n then s.refuse b n fl 2 0
        else (s.releaseFlow fl 3).entry b n fl 7 0 0

/-- The held frames of a flow from `n` frames after e on are kept, the earlier ones discarded (R137, R145). -/
def State.keepHeldFrom (s : State) (f n : Nat) : State :=
  let l := (s.flow f).held
  (s.setHeld f (l.drop n)).freeFrames (l.take n)

/-- FSKIP (R137). SEQ of a REFUSE is NEWSEQ, the model's choice (log 30). -/
def execFskip (b : BundleId) (f : List Byte) (s : State) : Host.Outcome State Fault Refusal :=
  let b := b.val
  .next <|
    if !s.isNext b f || s.suspended then s
    else match s.ctlCheck b f 0x24 32 ssOpen with
      | some s' => s'
      | none =>
        let n := fSession f
        let fl := fieldAt (fPayload f) 0 2
        let q := fieldAt (fPayload f) 4 4
        let s := s.doneFrame b f
        if 40960 ≤ fl ∨ s.rd .VSN_FSTAT_STATE fl = flFree then s.refuse b n fl 1 q
        else if s.rd .VSN_FSTAT_SESSION fl ≠ n then s.refuse b n fl 2 q
        else
          let e := s.rd .VSN_FNEXT_NEXT fl
          let x := s.flow fl
          let d := seqDiff q e
          let s := if 1 ≤ d ∧ d < 2 ^ 31 then
              let h := if d ≤ seqDiff x.h e then x.h else q
              (s.keepHeldFrom fl d).setNext fl q (x.exp + d * shT (s.flowShape fl)) h
            else s
          s.entry b n fl 1 0 (s.rd .VSN_FNEXT_NEXT fl)

/-! ### Acceptance (R141 to R147, R527) -/

/-- The flow is heard: SUSPECT and SILENT end (R138). -/
def State.heard (s : State) (f : Nat) : State :=
  let st := s.rd .VSN_FSTAT_STATE f
  if st = flSuspect ∨ st = flSilent then (s.wr .VSN_FSTAT_STATE f flActive).flowEvent f 5 else s

/-- FLOW_FAULT: the counter is inconsistent with the sequence (check 11). -/
def State.flowFault (s : State) (b n f q : Nat) : State :=
  let s := ((s.wr .VSN_FSTAT_STATE f flFault).flag .VSN_EVT_FLOWFAULT).flowEvent f 6
  (s.bump .VSN_SREFUSED_COUNT n).entry b n f 6 0 q

/-- The range of a frame's first sample has closed for the flow's channels (R145, R157, R172). Whether a flow whose group the
plan leaves out has range channels that close the manual does not say: here it has none, and its frames are never late by them
(DESIGN CHOICE, log 30). -/
def State.frameLate (s : State) (f : List Byte) : Bool :=
  let t := fCount f
  t < (s.flow (fFlow f)).lateBelow ||
  (match s.planAt t with
   | some p => (usedChans p.data f).any (fun ci => t < s.closedTo p ci.2)
   | none => t < s.deck.closedBefore)

/-- Start of the earliest range of the active plan that is open for a frame's channels, at or after `m`. -/
def State.activeStart (s : State) (f : List Byte) (m : Nat) : Nat :=
  match s.plans.active with
  | some r => ((usedChans r.data f).map (fun ci => s.closedTo r ci.2)).foldl max (max m r.d)
  | none => m

/-- Start of the earliest open range for a frame's channels (R145): under the plan that holds the frame or, where all its ranges
have closed, under the active one. -/
def State.openStart (s : State) (f : List Byte) : Nat :=
  let t := fCount f
  let lb := (s.flow (fFlow f)).lateBelow
  match s.planAt t with
  | some p =>
    let m := ((usedChans p.data f).map (fun ci => s.closedTo p ci.2)).foldl max (max lb (rangeOf p.data t))
    if p.ends.any (fun e => decide (e ≤ m)) then s.activeStart f m else m
  | none => s.activeStart f (max lb s.deck.closedBefore)

/-- First counter past which a frame is in the future; none while no trick is open (R146). -/
def State.futureFrom (s : State) : Option Nat :=
  match s.tricks.cur with
  | none => none
  | some c => match s.planOf c with
    | some p => some (c + 3 * (if pL p.data = 0 then pS p.data else pL p.data))
    | none => none

/-- A frame waits for the hand-over of a pending deal (R527). -/
def State.awaitsDeal (s : State) (t : Nat) : Bool := match s.pendingD with | some d => decide (d ≤ t) | none => false

/-- Check 15: the format of the plan that holds the frame, when it uses any of its data. -/
def State.fmtBad (s : State) (f : List Byte) : Bool :=
  match s.planAt (fCount f) with
  | some p => !(usedChans p.data f).isEmpty && fShape f / 32 % 2 != pFmt p.data
  | none => false

/-- A range channel the frame would write has still to open (R144, R168). -/
def State.waitsOpen (s : State) (f : List Byte) : Bool :=
  match s.planAt (fCount f) with
  | some p => (usedChans p.data f).any (fun ci =>
      decide (s.closedTo p ci.2 ≤ fCount f) && !s.isOpen p (rangeOf p.data (fCount f)) ci.2)
  | none => false

/-- Every range channel the frame would write is open (R168). -/
def State.inWindow (s : State) (f : List Byte) : Bool :=
  match s.planAt (fCount f) with
  | some p => (usedChans p.data f).all (fun ci => s.isOpen p (rangeOf p.data (fCount f)) ci.2)
  | none => true

/-- First counter of the trick of plan `p` that holds `t` (R35, R37); it may have closed (R153). -/
def State.trickOf (s : State) (p : ActivePlan) (t : Nat) : Nat :=
  if pL p.data = 0 then
    if s.tricks.cur.any (fun c => decide (t < c)) then
      (s.tricks.starts.filter (fun a => decide (p.d ≤ a ∧ a ≤ t))).foldl max p.d
    else (s.closeBoundaries.filter (· ≤ t)).foldl max (max (s.tricks.cur.getD p.d) p.d)
  else max p.d (t / pL p.data * pL p.data)

/-- The first accepted frame of a trick is an event (R153). -/
def State.firstOfTrick (s : State) (f : List Byte) : State :=
  match s.planAt (fCount f) with
  | some p =>
    let c := s.trickOf p (fCount f)
    if s.tricks.seen.contains c then s
    else ({ s with tricks := { s.tricks with seen := c :: s.tricks.seen } }).event 4 0x0404 (fFlow f) c (fSeq f)
  | none => s

/-- The frame with sequence e is accepted (R141, R147): its samples into the deck, or discarded; e and the
expected counter advance, ACK, and its credits are freed. Whether a frame of which only some channels lie outside the plan counts
as discarded the manual does not say: here only one that lies outside it as a whole does (DESIGN CHOICE, log 30). -/
def State.accept (s : State) (b : Nat) (f : List Byte) : State :=
  let fl := fFlow f
  let n := s.rd .VSN_FSTAT_SESSION fl
  let used := match s.planAt (fCount f) with | some p => usedChans p.data f | none => []
  let s := match s.planAt (fCount f) with | some p => s.writeFrame p f | none => s
  let s := if used.isEmpty then s.bump .VSN_SDISCARD_COUNT n else s
  let x := s.flow fl
  let e := (s.rd .VSN_FNEXT_NEXT fl + 1) % 2 ^ 32
  let h := if x.held.isEmpty then e else x.h
  let s := s.setNext fl e (x.exp + shT (fShape f)) h
  let s := s.bumpW .VSN_FACC_ACCEPTED fl
  let s := s.firstOfTrick f
  (s.entry (s.rd .VSN_SSTAT_BUNDLE n) n fl 1 0 e).freeCredits b (frameCost f)

/-- A late frame (R145): e and h advance to the first sequence at or after the start of the earliest open
range, held frames before it are discarded, NACK_LATE. -/
def State.passLate (s : State) (f : List Byte) : State :=
  let fl := fFlow f
  let n := s.rd .VSN_FSTAT_SESSION fl
  let x := s.flow fl
  let t := shT (fShape f)
  let e := s.rd .VSN_FNEXT_NEXT fl
  let k := ceilDiv (s.openStart f - x.exp) t
  let e' := (e + k) % 2 ^ 32
  let h := if k ≤ seqDiff x.h e then x.h else e'
  let s := (s.keepHeldFrom fl k).setNext fl e' (x.exp + k * t) h
  let s := s.bump .VSN_SLATE_COUNT n k
  s.entry (s.rd .VSN_SSTAT_BUNDLE n) n fl 3 0 e'

/-- A frame is held in the receive buffer behind the flow's other held frames (R144, R152, R527). -/
def State.holdFrame (s : State) (b : Nat) (f : List Byte) : State :=
  let fl := fFlow f
  let s := (s.takeFrame b).setHeld fl ((s.flow fl).held ++ [(b, f)])
  s.setFlow fl { s.flow fl with h := ((s.flow fl).h + 1) % 2 ^ 32, nackAt := none }

/-- NACK_SEQ for the first frame after a gap, then at most once per 50 µs (R150). -/
def State.nackSeq (s : State) (b n f : Nat) : State :=
  let x := s.flow f
  let quiet := match x.nackAt with | some t => decide (s.clock < t + 50000) | none => false
  if quiet then s
  else ((s.setFlow f { x with nackAt := some s.clock }).bump .VSN_SGAP_COUNT n).entry b n f 2 0 x.h

/-- Checks 12 to 16 and acceptance of a frame with the sequence to check next (R142, R144). -/
def State.decideFrame (s : State) (b : Nat) (f : List Byte) : State :=
  let fl := fFlow f
  let n := fSession f
  let q := fSeq f
  if fGroup f ≠ s.rd .VSN_FSTAT_GROUP fl || fChbase f ≠ s.rd .VSN_FCHBASE_CHBASE fl || fShape f ≠ s.flowShape fl then
    (s.refuse b n fl 3 q).doneFrame b f
  else if (s.flow fl).held.isEmpty && s.frameLate f then (s.passLate f).doneFrame b f
  else if (match s.futureFrom with | some c => decide (c ≤ fCount f) | none => false) then
    ((s.bump .VSN_SFUTURE_COUNT n).entry b n fl 4 0 (s.rd .VSN_FNEXT_NEXT fl)).doneFrame b f
  else if s.awaitsDeal (fCount f) then s.holdFrame b f
  else if s.fmtBad f then (s.refuse b n fl 3 q).doneFrame b f
  else if s.suspended || !(s.flow fl).held.isEmpty || !s.inWindow f then s.holdFrame b f
  else (s.takeFrame b).accept b f

/-- Check 2 of a DATA frame (R112, R115, R77). It names GROUP, of which every value of bits [5:0] is a group; bits [7:6] of GROUP
and of SHAPE are reserved and ignored in what is received (R8; DEDUCED, log 30). -/
def dataFormOk (f : List Byte) : Bool :=
  fVersion f == 1 && fType f == 1 && shListed (fShape f) && fPlen f == shBytes (fShape f) &&
  f.length == 68 + fPlen f && fCount f + shT (fShape f) ≤ 2 ^ 64 - 65536

/-- Checks 6 and 7 onwards common to DATA and KEEPALIVE; `none` when flow and session agree. -/
def State.flowCheck (s : State) (b : Nat) (f : List Byte) : Option State :=
  let fl := fFlow f
  let n := fSession f
  let q := fSeq f
  if 40960 ≤ fl ∨ s.rd .VSN_FSTAT_STATE fl = flFree then some ((s.refuse b n fl 1 q).doneFrame b f)
  else if s.rd .VSN_FSTAT_SESSION fl ≠ n then some ((s.refuse b n fl 2 q).doneFrame b f)
  else none

/-- Checks 2 to 5 of a DATA or KEEPALIVE frame with the entries of R142; `none` when all pass. -/
def State.sampleCheck (s : State) (b : Nat) (f : List Byte) (formGood : Bool) : Option State :=
  let n := fSession f
  let no := fun reason => ((s.refuse b n (fFlow f) reason (fSeq f)).bump .VSN_LNOSESS_COUNT b).doneFrame b f
  if !formGood then some (no 3)
  else if fModule f ≠ s.moduleId then some (no 4)
  else if s.rd .VSN_SSTAT_STATE n ≠ ssOpen || s.rd .VSN_SSTAT_BUNDLE n ≠ b then some (no 5)
  else if fEpoch f ≠ s.rd .VSN_SSTAT_EPOCH n then some ((s.doneFrame b f).resetSession n 1)
  else none

/-- DATA (R142): checks 2 to 16 in order. -/
def execData (b : BundleId) (f : List Byte) (s : State) : Host.Outcome State Fault Refusal :=
  let b := b.val
  .next <|
    if !s.isNext b f then s
    else match s.sampleCheck b f (dataFormOk f) with
      | some s' => s'
      | none => match s.flowCheck b f with
        | some s' => s'
        | none =>
          let fl := fFlow f
          let n := fSession f
          let q := fSeq f
          let s := s.heard fl
          let x := s.flow fl
          let e := s.rd .VSN_FNEXT_NEXT fl
          let hd := seqDiff x.h e
          let d := seqDiff q e
          if s.rd .VSN_FSTAT_STATE fl = flFault then (s.refuse b n fl 6 q).doneFrame b f
          else if 2 ^ 31 ≤ d then ((s.bump .VSN_SDUP_COUNT n).entry b n fl 1 0 e).doneFrame b f
          else if d < hd then s.doneFrame b f
          else if hd < d then (s.nackSeq b n fl).doneFrame b f
          else if fCount f ≠ x.exp + hd * shT (s.flowShape fl) then (s.flowFault b n fl q).doneFrame b f
          else s.decideFrame b f

/-- KEEPALIVE (R139, R143). Whether its NACK_SEQ falls under the limit of one in 50 µs (R150) the manual does not say: here it
neither keeps nor starts that time (DESIGN CHOICE, log 30). -/
def execKeepalive (b : BundleId) (f : List Byte) (s : State) : Host.Outcome State Fault Refusal :=
  let b := b.val
  .next <|
    if !s.isNext b f then s
    else match s.sampleCheck b f (fVersion f == 1 && fType f == 2 && shListed (fShape f) && fPlen f == 0 && f.length == 68) with
      | some s' => s'
      | none => match s.flowCheck b f with
        | some s' => s'
        | none =>
          let fl := fFlow f
          let n := fSession f
          let q := fSeq f
          let s := (s.heard fl).doneFrame b f
          let x := s.flow fl
          let e := s.rd .VSN_FNEXT_NEXT fl
          let d := seqDiff q e
          if s.rd .VSN_FSTAT_STATE fl = flFault then s.refuse b n fl 6 q
          else if d < 2 ^ 31 ∧ fCount f ≠ x.exp + d * shT (s.flowShape fl) then s.flowFault b n fl q
          else if fGroup f ≠ s.rd .VSN_FSTAT_GROUP fl || fChbase f ≠ s.rd .VSN_FCHBASE_CHBASE fl || fShape f ≠ s.flowShape fl then
            s.refuse b n fl 3 q
          else if d < 2 ^ 31 ∧ seqDiff x.h e < d then (s.bump .VSN_SGAP_COUNT n).entry b n fl 2 0 x.h
          else s

/-- HELD_FRAME_ACCEPTANCE (R144, R145, R527): once nothing holds the oldest held frame, checks 13 and 15 are made again
for it. -/
def execHeldFrameAcceptance (f : FlowId) (s : State) : Host.Outcome State Fault Refusal :=
  let fl := f.val
  .next <|
    match (s.flow fl).held with
    | [] => s
    | (b, fr) :: rest =>
      if s.suspended || s.awaitsDeal (fCount fr) || s.waitsOpen fr then s
      else if s.frameLate fr then s.passLate fr
      else if s.fmtBad fr then
        let n := s.rd .VSN_FSTAT_SESSION fl
        let s := (s.refuse (s.rd .VSN_SSTAT_BUNDLE n) n fl 3 (fSeq fr)).dropHeld fl
        s.setNext fl (s.rd .VSN_FNEXT_NEXT fl) (s.flow fl).exp (s.rd .VSN_FNEXT_NEXT fl)
      else (s.setHeld fl rest).accept b fr

/-! ### Timers and registers of sessions and flows -/

/-- ACCEPT_ACK_TIMER (R139, R154): an ACCEPT_ACK, empty, on every OPEN session; none in a warm reset. -/
def execAcceptAckTimer (s : State) : Host.Outcome State Fault Refusal :=
  .next <|
    if s.inReset then s
    else forN 256 (fun s n =>
      if s.rd .VSN_SSTAT_STATE n = ssOpen then s.say (s.rd .VSN_SSTAT_BUNDLE n) 0x30 n [] else s) s

/-- SRESET_REPEAT (R129, R154): none in a warm reset. -/
def execSresetRepeat (sid : SessionId) (s : State) : Host.Outcome State Fault Refusal :=
  let n := sid.val
  .next <|
    if s.rd .VSN_SSTAT_STATE n = ssResetWait ∧ !s.inReset then
      s.say (s.rd .VSN_SSTAT_BUNDLE n) 0x15 n
        (leBytes 1 (s.rd .VSN_SSTAT_EPOCH n) ++ leBytes 1 (s.session n).resetReason ++ leBytes 30 0)
    else s

/-- FLOW_SUSPECT (R138). -/
def execFlowSuspect (f : FlowId) (s : State) : Host.Outcome State Fault Refusal :=
  .next <|
    if s.rd .VSN_FSTAT_STATE f.val = flActive then
      ((s.wr .VSN_FSTAT_STATE f.val flSuspect).flag .VSN_EVT_SUSPECT).flowEvent f.val 5
    else s

/-- FLOW_SILENT (R138). -/
def execFlowSilent (f : FlowId) (s : State) : Host.Outcome State Fault Refusal :=
  .next <|
    if s.rd .VSN_FSTAT_STATE f.val = flActive ∨ s.rd .VSN_FSTAT_STATE f.val = flSuspect then
      ((s.wr .VSN_FSTAT_STATE f.val flSilent).flag .VSN_EVT_SILENT).flowEvent f.val 5
    else s

/-- RETENTION_TIME_OUT (R131). -/
def execRetentionTimeOut (sid : SessionId) (s : State) : Host.Outcome State Fault Refusal :=
  .next (s.endSession sid.val 7 false)

/-- An administrative close: SCLOSE sent, flows released (R129, R161). -/
def State.closeSession (s : State) (n : Nat) : State := s.endSession n 6 true

def execVsnSctlClose (sid : SessionId) (s : State) : Host.Outcome State Fault Refusal :=
  .next (s.closeSession sid.val)

/-- VSN_SCTL_RESET (R161): a DETACHED session leaves that state only through a resume (R129). -/
def execVsnSctlReset (sid : SessionId) (s : State) : Host.Outcome State Fault Refusal :=
  let st := s.rd .VSN_SSTAT_STATE sid.val
  .next <|
    if st = ssOpen ∨ st = ssReadyWait ∨ st = ssResetWait then s.resetSession sid.val 2 else s

end Sys2Proof.Machine
end

