-- ==== Sys2Proof/Machine/Allot.lean ====
section
/-! DEFINITION. The deal of work (R190 to R198): units in deal order, hand-runs, positions and the engines
that hold them, and the banks. -/

namespace Sys2Proof.Machine

/-! ### Engine states (R222) -/
def egOff : Nat := 0
def egSelftest : Nat := 1
def egStandby : Nat := 2
def egLoading : Nat := 3
def egActive : Nat := 4
def egIdle : Nat := 5
def egRetired : Nat := 6

/-! ### Positions (R192, R223) -/

/-- The POSMAP field of position `p`: index `p / 4` of the register row. -/
def posFld (p : Nat) : Fld := ⟨0x680080, 4, 8 * (p % 4), 7⟩
/-- Engine at a position; 0x7F none. -/
def State.engineAt (s : State) (p : Nat) : Nat := s.rd (posFld p) (p / 4)
def State.setHolder (s : State) (p e : Nat) : State := s.wr (posFld p) (p / 4) e

/-! ### Units (R190, R191) -/

/-- What a unit is: hand (i, j), or beam block `b` of compact group `g`. -/
inductive UnitKind where
  | hand (i j : Nat)
  | beam (b g : Nat)
  deriving DecidableEq, Repr

/-- First unit of column `j`: the hands (0, j) to (j, j), then the beam units of group j (DESIGN CHOICE,
log 10: hands in ascending number; R190 fixes that beam units of g follow hand (g, g)). -/
def colStart (k j : Nat) : Nat := j * (j + 1) / 2 + j * k

/-- Unit `u` of a plan. -/
def unitKind (d : Tbl Byte) (u : Nat) : UnitKind :=
  let k := pK d
  let j := ((List.range (pNg d)).filter (fun j => colStart k j ≤ u)).length - 1
  let w := u - colStart k j
  if w ≤ j then .hand w j else .beam (w - j - 1) j

/-- U = H + n K (R190). -/
def pU (d : Tbl Byte) : Nat := pH d + pNg d * pK d
/-- The hand units of a plan. -/
def handUnits (d : Tbl Byte) : List Nat :=
  (List.range (pU d)).filter (fun u => match unitKind d u with | .hand _ _ => true | .beam _ _ => false)

/-! ### The allotment (R193) -/

/-- Range channels of the plan before (t, ch) (R193). -/
def zOf (p : ActivePlan) (t ch : Nat) : Nat := (t - p.d) / pS p.data * pN p.data + ch

/-- len(p): hand-runs that position `pos` of `e` takes of `total` in range channel `z` (R193). -/
def lenOf (total e z pos : Nat) : Nat :=
  let q := total / e
  let m := total % e
  if ((pos : Int) - (z * m : Nat)) % (e : Int) < m then q + 1 else q

/-- start(p) (R193). -/
def startOf (total e z pos : Nat) : Nat := ((List.range pos).map (lenOf total e z)).sum

/-- First hand-run and number of hand-runs of position `pos` in range channel (t, ch) of plan `p`. -/
def stretch (p : ActivePlan) (t ch pos : Nat) : Nat × Nat :=
  let u := pU p.data
  let r := pR p.data
  if p.e ≤ pos then (0, 0)
  else if u ≤ p.e then (if pos < u then (pos * r, r) else (0, 0))
  else (startOf (u * r) p.e (zOf p t ch) pos, lenOf (u * r) p.e (zOf p t ch) pos)

/-- Hand-run `i` lies in the stretch of a position. -/
def holdsRun (p : ActivePlan) (t ch pos i : Nat) : Bool :=
  let x := stretch p t ch pos
  x.1 ≤ i && i < x.1 + x.2

/-- The position that holds hand-run `i`; p.e if none. -/
def posOf (p : ActivePlan) (t ch i : Nat) : Nat := (List.range p.e).findIdx (fun pos => holdsRun p t ch pos i)

/-- Units that a stretch touches (R195). -/
def unitsTouched (p : ActivePlan) (t ch pos : Nat) : Nat :=
  let x := stretch p t ch pos
  let r := pR p.data
  if x.2 = 0 then 0 else (x.1 + x.2 - 1) / r - x.1 / r + 1

/-! ### Banks (R189, R198, R204) -/

/-- Range channel (t, ch) is committed: its merge is, or it has been released. -/
def State.committed (s : State) (t ch : Nat) : Bool :=
  (s.chan t ch).merged || (match s.planAt t with | some p => decide (t < s.releasedTo p ch) | none => true)

def Engine.bank (x : Engine) (b : Nat) : Option (Nat × Nat) := if b = 0 then x.bank0 else x.bank1
def Engine.setBank (x : Engine) (b : Nat) (v : Option (Nat × Nat)) : Engine :=
  if b = 0 then { x with bank0 := v } else { x with bank1 := v }

/-- Key of a unit of a bank in `done` (with a run) and `short` (with a cell). -/
def unitKey (bank unit : Nat) : Nat := 2 ^ 16 * bank + unit
def runKey (bank unit run : Nat) : Nat := 2 ^ 8 * unitKey bank unit + run
def cellKey (bank unit cell : Nat) : Nat := 2 ^ 12 * unitKey bank unit + cell

/-- The bank is cleared and holds range channel `v` (or nothing) from now on. -/
def Engine.clearBank (x : Engine) (b : Nat) (v : Option (Nat × Nat)) : Engine :=
  let x := x.setBank b v
  { x with short := x.short.filter (fun p => p.1 / 2 ^ 28 != b), done := x.done.filter (fun p => p.1 / 2 ^ 24 != b) }

/-- The bank of an engine that holds (t, ch). -/
def Engine.bankOf (x : Engine) (t ch : Nat) : Option Nat :=
  if x.bank0 = some (t, ch) then some 0 else if x.bank1 = some (t, ch) then some 1 else none

/-- Hand-runs of a position in the order its engine does them: by run, then in deal order (R197). -/
def handRuns (p : ActivePlan) (t ch pos : Nat) : List (Nat × Nat) :=
  let r := pR p.data
  let x := stretch p t ch pos
  (List.range r).flatMap (fun run => (List.range (pU p.data)).filterMap (fun u =>
    if x.1 ≤ u * r + run && u * r + run < x.1 + x.2 then some (u, run) else none))

/-- Bank `b` of an engine holds nothing still to be done: every hand-run of its stretch is complete. -/
def State.bankDone (s : State) (e b : Nat) : Bool :=
  let x := s.eng e
  match x.bank b with
  | none => true
  | some (t, ch) => match s.planAt t with
    | none => true
    | some p => (handRuns p t ch (s.rd .ENG_STAT_POSITION e)).all (fun ur => tget false x.done (runKey b ur.1 ur.2))

/-- Bank `b` of an engine is free for a new range channel (R198, R204). -/
def State.bankFree (s : State) (e b : Nat) : Bool :=
  match (s.eng e).bank b with
  | none => true
  | some (t, ch) => s.committed t ch && s.bankDone e b

/-- A unit takes the samples of compact group `g` (R190). -/
def unitNeeds (d : Tbl Byte) (unit g : Nat) : Bool :=
  match unitKind d unit with
  | .hand i j => i == g || j == g
  | .beam _ k => k == g

/-- A position needs the block of group `g` in a run of (t, ch) (R181). -/
def needsGroup (p : ActivePlan) (t ch pos run g : Nat) : Bool :=
  (handRuns p t ch pos).any (fun ur => ur.2 == run && unitNeeds p.data ur.1 g)

/-- What a block of `n` sample bytes takes of an input buffer, with its valid bits; the size of one is 688 KiB (R186). -/
def blockRoomOf (n : Nat) : Nat := n + 8
def Engine.hasRoom (x : Engine) (n : Nat) : Bool :=
  (x.blocks.map (fun b => blockRoomOf b.data.length)).sum + blockRoomOf n ≤ 704512

/-- The block of a run of a group in an engine's input buffer. -/
def Engine.block (x : Engine) (t ch run g : Nat) : Option Block :=
  x.blocks.find? (fun b => b.t == t && b.ch == ch && b.run == run && b.grp == g)

/-- The blocks that the unfinished hand-runs of bank `b`, which holds (t, ch), no longer need leave the input buffer. -/
def Engine.dropSpent (x : Engine) (p : ActivePlan) (t ch b pos : Nat) : Engine :=
  let todo := (handRuns p t ch pos).filter (fun ur => !tget false x.done (runKey b ur.1 ur.2))
  { x with blocks := x.blocks.filter (fun k => !(k.t == t && k.ch == ch) ||
      todo.any (fun ur => ur.2 == k.run && unitNeeds p.data ur.1 k.grp)) }

/-- Every run of `unit` that position `pos` holds is complete in its engine's bank of (t, ch). -/
def State.partDone (s : State) (p : ActivePlan) (t ch pos unit : Nat) : Bool :=
  let e := s.engineAt pos
  let x := s.eng e
  match x.bankOf t ch with
  | none => false
  | some b => (List.range (pR p.data)).all (fun run =>
      !holdsRun p t ch pos (unit * pR p.data + run) || tget false x.done (runKey b unit run))

/-- Lead of a unit (R194). -/
def leadOf (p : ActivePlan) (t ch unit : Nat) : Nat := posOf p t ch (unit * pR p.data)
/-- Helper of a unit; the lead itself when there is none. -/
def helperOf (p : ActivePlan) (t ch unit : Nat) : Nat := posOf p t ch (unit * pR p.data + pR p.data - 1)

/-- Range channels that the cut has taken and that are not committed (released), in cut order (R218, R220). -/
def State.cutChans (s : State) (q : RangeChan → Bool) : List (Nat × Nat) :=
  s.deck.chans.filterMap (fun p => if p.2.cut && q p.2 then some (p.1 / 1024 * 4096, p.1 % 1024) else none)

/-- Engines that the cut serves now: those that hold a position. -/
def State.served (s : State) : List Nat :=
  (List.range 96).filter (fun e => s.rd .ENG_STAT_STATE e == egActive)

end Sys2Proof.Machine
end

