-- ==== Sys2Proof/Machine/Deck.lean ====
section
/-! DEFINITION. Closing, cutting and releasing range channels (R170 to R184): the close and its deadline,
the classes of runs with the spectral-kurtosis test, statistics, valid vectors, multicast and re-reads. -/

namespace Sys2Proof.Machine

/-! ### Closing (R170 to R173) -/

/-- Time that does not count towards deck deadlines passes now (R171). -/
def State.paused (s : State) : Bool :=
  s.on .OUT_STAT_STALL || s.rd .PWR_STAT_STATE != 0 || s.on .FLT_STAT_RESETHOLD || s.modl.warm || s.modl.mrst

/-- Such an interval begins or ends here. -/
def State.notePause (s : State) : State :=
  match s.paused, s.deck.pauseAt with
  | true, none => { s with deck := { s.deck with pauseAt := some s.nowNs } }
  | false, some a => { s with deck := { s.deck with pauseAt := none, pauses := (a, s.nowNs) :: s.deck.pauses } }
  | _, _ => s

/-- The value of DEADLINE that applies to a nominal end: that of the last write before it (R171). -/
def deadlineAt (ends cur : Nat) : List (Nat × Nat) → Nat
  | [] => cur
  | (w, old) :: r => if w < ends then cur else deadlineAt ends old r

/-- A moment moved on by the pauses that fall between `base` and it, oldest pause first. -/
def extended (base : Nat) : List (Nat × Nat) → Nat → Nat
  | [], t => t
  | (a, b) :: r, t => extended base r (if a < t ∧ base < b then t + (b - max a base) else t)

/-- deadline(k, ℓ) in device time (R171); none while no mapping is set. -/
def State.deadlineOf (s : State) (p : ActivePlan) (t ch : Nat) : Option Nat :=
  (s.timeOf (t + pS p.data)).map (fun ends =>
    let base := max ends ((s.chan t ch).openAt.getD 0)
    extended base s.deck.pauses.reverse
      (base + 1000000 * deadlineAt ends (s.rd .CUT_DECKCTL_DEADLINE) s.deck.dlHist))

/-- The flow that carries global channel `c` of group `g`. -/
def State.flowFor (s : State) (g c : Nat) : Option Nat :=
  s.flowList.find? (fun f => s.rd .VSN_FSTAT_GROUP f == g &&
    decide (s.rd .VSN_FCHBASE_CHBASE f ≤ c ∧ c < s.rd .VSN_FCHBASE_CHBASE f + shC (s.flowShape f)))

/-- Whether a group has delivered through counter `e` (R170): none where it is not waited for beyond the
nominal end. -/
def State.delivered (s : State) (g c e : Nat) : Option Bool :=
  match s.flowFor g c with
  | some f =>
    let st := s.rd .VSN_FSTAT_STATE f
    if st = flActive ∨ st = flSuspect then some (decide (e ≤ (s.flow f).exp)) else none
  | none => none

/-- Group runs of a range channel whose presence count is short (R173). -/
def State.shortRuns (s : State) (p : ActivePlan) (t ch : Nat) : Nat :=
  ((List.range (pNg p.data)).map (fun g => ((List.range (pR p.data)).filter (fun run =>
    tget 0 s.deck.presence (2 ^ 16 * chanKey t ch + 2 ^ 8 * g + run) < 256)).length)).sum

/-- Range channel (t, ch) closes (R170 to R173): it is an event, with a second one at a deadline. -/
def State.closeChan (s : State) (p : ActivePlan) (t ch : Nat) (atDeadline : Bool) : State :=
  let e := t + pS p.data
  let s := s.setChan t ch { s.chan t ch with closed := true }
  let dk := s.deck
  let s := { s with deck := { dk with closedTo := tset 0 dk.closedTo (planKey p ch) e } }
  let lag := match s.timeOf e with | some n => (s.nowNs - n) / 1000 | none => 0
  let s := s.wr .CUT_LAG_MICROS 0 (min lag (2 ^ 32 - 1))
  let s := s.event 4 0x0403 ch t (if atDeadline then 1 else 0)
  if atDeadline then
    ((s.bump .CUT_DLCLOSE_COUNT).flag .CUT_EVT_DLCLOSE).event 5 0x0502 ch t (s.shortRuns p t ch)
  else s

/-- (t, ch) is the next range channel of its channel to close, and it is open. -/
def State.mayClose (s : State) (p : ActivePlan) (t ch : Nat) : Bool :=
  t % pS p.data == 0 && decide (ch < pN p.data) && s.isOpen p t ch && s.closedTo p ch == t && !s.modl.warm

/-- RANGE_CHANNEL_CLOSE (R170): the groups that are not waited for let it close at its nominal end. -/
def execRangeChannelClose (t : Nat) (ch : Fin 1024) (s : State) : Host.Outcome State Fault Refusal :=
  .next <|
    match s.planAt t with
    | none => s
    | some p =>
      if !s.mayClose p t ch.val then s
      else
        let e := t + pS p.data
        let st := (pGroups p.data).map (fun g => s.delivered g (pChanOf p.data ch.val) e)
        if st.contains (some false) then s
        else if st.contains none then
          match s.timeOf e with
          | some n => (s.reach n).closeChan p t ch.val false
          | none => s
        else s.closeChan p t ch.val false

/-- DECK_DEADLINE (R171): the deadline of an open range channel expires. -/
def execDeckDeadline (t : Nat) (ch : Fin 1024) (s : State) : Host.Outcome State Fault Refusal :=
  .next <|
    match s.planAt t with
    | none => s
    | some p =>
      if !s.mayClose p t ch.val || s.paused then s
      else match s.deadlineOf p t ch.val with
        | some n => (s.reach n).closeChan p t ch.val true
        | none => s

/-! ### The cut (R174 to R182) -/

/-- Class of one run of one signal (R175). -/
inductive RunClass where
  | missing | flagged | sk | valid
  deriving DecidableEq, Repr

/-- The value of a sample: real and imaginary part (R14). -/
def sampleAt (fmt : Nat) (l : List Byte) (i : Nat) : Int × Int :=
  if fmt = 0 then (signed 4 (fieldAt l i 1 / 16), signed 4 (fieldAt l i 1))
  else (signed 8 (fieldAt l (2 * i) 2), signed 8 (fieldAt l (2 * i) 2 / 256))

/-- A flagged sample (R15). -/
def isFlagged (fmt : Nat) (x : Int × Int) : Bool :=
  let f : Int := if fmt = 0 then -8 else -128
  x.1 == f || x.2 == f

/-- p = re² + im². -/
def powerOf (x : Int × Int) : Nat := (x.1 * x.1 + x.2 * x.2).toNat

/-- The spectral-kurtosis test (R176, R177). -/
def skPass (lo hi : Nat) (zeroMuck : Bool) (s1 s2 : Nat) : Bool :=
  if s1 = 0 then !zeroMuck
  else
    let v : Int := 257 * 4096 * (256 * (s2 : Int) - (s1 * s1 : Nat))
    decide ((255 * lo * (s1 * s1) : Nat) ≤ v) && decide (v ≤ (255 * hi * (s1 * s1) : Nat))

/-- S1 and S2 of a run (R176). -/
def powerSums (xs : List (Int × Int)) : Nat × Nat :=
  ((xs.map powerOf).sum, (xs.map (fun x => powerOf x * powerOf x)).sum)

/-- Class of a run of a signal by the first condition that holds (R175). -/
def classOf (d : Tbl Byte) (missing : Bool) (xs : List (Int × Int)) : RunClass :=
  let ps := powerSums xs
  if missing then .missing
  else if xs.any (isFlagged (pFmt d)) then .flagged
  else if pSkEn d && !skPass (pLo d) (pHi d) (pZeroMuck d) ps.1 ps.2 then .sk
  else .valid

/-- Samples of position `pos` in the bytes of one run of one group. -/
def signalRun (fmt : Nat) (l : List Byte) (pos : Nat) : List (Int × Int) :=
  (List.range 256).map (fun i => sampleAt fmt l (64 * i + pos))

/-- HBM offset of run `run` of compact group `g`, and its length (R164, R165). -/
def runPlace (p : ActivePlan) (t ch g run : Nat) : Nat × Nat :=
  let d := p.data
  ((p.deckBuf (t / pS d % 2)).getD 0 + deckOff d ch g (t + 256 * run), 16384 * pB d)

/-- The presence count of a run is short: its contents are never read (R173). -/
def State.runShort (s : State) (t ch g run : Nat) : Bool :=
  decide (tget 0 s.deck.presence (2 ^ 16 * chanKey t ch + 2 ^ 8 * g + run) < 256)

/-- The run is missing: its presence count is short or it includes a poisoned line (R173, R415). -/
def State.runMissing (s : State) (p : ActivePlan) (t ch g run : Nat) : Bool :=
  let x := runPlace p t ch g run
  s.runShort t ch g run || s.hbmPoisoned x.1 x.2

/-- A field that saturates instead of wrapping (R178). -/
def satAdd (lim a b : Nat) : Nat := min lim (a + b)

/-- The sum of two statistics entries; a field that saturates sets SAT (R178). -/
def StatEntry.add (a b : StatEntry) : StatEntry where
  sump := satAdd (2 ^ 64 - 1) a.sump b.sump
  sump2 := satAdd (2 ^ 64 - 1) a.sump2 b.sump2
  valid := satAdd (2 ^ 31 - 1) a.valid b.valid
  missing := satAdd (2 ^ 32 - 1) a.missing b.missing
  flagged := satAdd (2 ^ 32 - 1) a.flagged b.flagged
  skfail := satAdd (2 ^ 32 - 1) a.skfail b.skfail
  sat := a.sat || b.sat || decide (2 ^ 64 ≤ a.sump + b.sump) || decide (2 ^ 64 ≤ a.sump2 + b.sump2) ||
    decide (2 ^ 31 ≤ a.valid + b.valid) || decide (2 ^ 32 ≤ a.missing + b.missing) ||
    decide (2 ^ 32 ≤ a.flagged + b.flagged) || decide (2 ^ 32 ≤ a.skfail + b.skfail)

/-- What one run adds to a signal's statistics (R178). -/
def runStat (c : RunClass) (xs : List (Int × Int)) : StatEntry :=
  match c with
  | .missing => { missing := 1 }
  | .flagged => { flagged := 1 }
  | .sk => { skfail := 1 }
  | .valid => { sump := (powerSums xs).1, sump2 := (powerSums xs).2, valid := 1 }

/-- Key of a compact signal's staging entry. -/
def stageKey (t ch sig : Nat) : Nat := 2 ^ 12 * chanKey t ch + sig

/-- Classes of the 64 signals of one run of one group. -/
def State.runClasses (s : State) (p : ActivePlan) (t ch g run : Nat) : List (RunClass × List (Int × Int)) :=
  let x := runPlace p t ch g run
  let miss := s.runMissing p t ch g run
  let l := s.hbmRead x.1 x.2
  (List.range 64).map (fun i =>
    let xs := signalRun (pFmt p.data) l i
    (classOf p.data miss xs, xs))

/-- 64 valid bits of a run of a group (R181). -/
def validBits (cs : List RunClass) : Nat :=
  ((List.range 64).filter (fun i => cs.getD i .missing == .valid)).foldl (fun a i => a + 2 ^ i) 0

/-- One run of one group is classed: valid vector, staging statistics and, at the first read, the counters. -/
def State.cutRun (s : State) (p : ActivePlan) (t ch g run : Nat) (first : Bool) : State :=
  let cs := s.runClasses p t ch g run
  let k := 2 ^ 16 * chanKey t ch + 2 ^ 8 * g + run
  let dk := s.deck
  let stg := (List.range 64).foldl (fun m i =>
    let c := cs.getD i (.missing, [])
    let key := stageKey t ch (64 * g + i)
    tset {} m key ((tget {} m key).add (runStat c.1 c.2))) dk.staging
  let place := runPlace p t ch g run
  let poisoned := !s.runShort t ch g run && s.hbmPoisoned place.1 place.2
  let s := { s with deck := { dk with valid := tset 0 dk.valid k (validBits (cs.map Prod.fst)), staging := stg } }
  let s := (s.whenS (!s.runShort t ch g run) (·.linesRead place.1 place.2)).whenS poisoned (·.fault srcCut 2 1)
  let n := fun (c : RunClass) => (cs.filter (fun x => x.1 == c)).length
  if first then
    let s := s.whenS (n .missing != 0) (·.bump .CUT_MISSRUN_COUNT)
    (s.bump .CUT_FLAGRUN_COUNT 0 (n .flagged)).bump .CUT_SKRUN_COUNT 0 (n .sk)
  else s

/-- The cut reads range channel (t, ch): its staging and valid vectors are formed afresh (R174, R184). -/
def State.readChan (s : State) (p : ActivePlan) (t ch : Nat) (first : Bool) : State :=
  let dk := s.deck
  let k := chanKey t ch
  let s := { s with deck := { dk with staging := dk.staging.filter (fun x => x.1 / 2 ^ 12 != k),
                                      valid := dk.valid.filter (fun x => x.1 / 2 ^ 16 != k) } }
  forN (pR p.data) (fun s run => forN (pNg p.data) (fun s g => s.cutRun p t ch g run first) s) s

/-- An engine has the allotment of (t, ch) to begin. -/
def State.sendRuns (s : State) (t ch : Nat) (replay : Bool) (e : Nat) : State :=
  let x := s.eng e
  s.setEng e { x with inbuf := x.inbuf ++ [⟨t, ch, replay⟩] }

/-- The block of a run of a group as the cut sends it (R181): read from HBM once, muck samples 0. -/
def State.cutBlock (s : State) (p : ActivePlan) (t ch run g : Nat) : Block :=
  let v := tget 0 s.deck.valid (2 ^ 16 * chanKey t ch + 2 ^ 8 * g + run)
  let x := runPlace p t ch g run
  let w := pB p.data
  ⟨t, ch, run, g, v, (s.hbmRead x.1 x.2).zipIdx.map (fun y => if bitOf v (y.2 / w % 64) then y.1 else 0)⟩

/-- The engines that a block of a read goes to: they hold a position that needs it (R181). -/
def State.blockTo (s : State) (p : ActivePlan) (r : CutRead) (run g : Nat) : List Nat :=
  let es := match r.dest with | some l => l.filter (s.served.contains ·) | none => s.served
  es.filter (fun e => needsGroup p r.t r.ch (s.rd .ENG_STAT_POSITION e) run g)

/-- A position that waits for its substitute needs the block: it has to reach the substitute in the ordinary stream (R218). -/
def State.blockWaits (s : State) (p : ActivePlan) (r : CutRead) (run g : Nat) : Bool :=
  r.dest.isNone && (List.range 96).any (fun e => s.rd .ENG_STAT_STATE e == egLoading &&
    needsGroup p r.t r.ch (s.rd .ENG_STAT_POSITION e) run g)

/-- Blocks leave in order until one finds an input buffer full, where the cut stalls (R174, R182), or a position that needs it
without its engine (R218). -/
def State.cutSend (s : State) (p : ActivePlan) (r : CutRead) : Nat → State × CutRead
  | 0 => (s, r)
  | fuel + 1 =>
    let run := r.next / pNg p.data
    let g := r.next % pNg p.data
    let es := s.blockTo p r run g
    if r.stop ≤ r.next || s.blockWaits p r run g || es.any (fun e => !(s.eng e).hasRoom (16384 * pB p.data)) then (s, r)
    else
      let k := s.cutBlock p r.t r.ch run g
      (es.foldl (fun s e => s.setEng e { s.eng e with blocks := (s.eng e).blocks ++ [k] }) s).cutSend p
        { r with next := r.next + 1 } fuel

/-- The cut goes on with what it is sending. -/
def State.cutGo (s : State) : State :=
  match s.deck.reads with
  | [] => s
  | r :: rest => match s.planAt r.t with
    | none => { s with deck := { s.deck with reads := rest } }
    | some p =>
      let x := s.cutSend p r r.stop
      { x.1 with deck := { x.1.deck with reads := if x.2.stop ≤ x.2.next then rest else x.2 :: rest } }

/-- The re-reads under way end: what they were to send is asked for afresh (R219, R220). -/
def State.dropRereads (s : State) : State :=
  { s with deck := { s.deck with reads := s.deck.reads.filter (fun r => r.dest.isNone) } }

/-- A range channel is read again and its runs go to the engines `es`; of the range channel in progress those that the
cut had sent (R184, R218, R220). -/
def State.reread (s : State) (t ch : Nat) (es : List Nat) (pos : Nat) : State :=
  match s.planAt t with
  | none => s
  | some p =>
    let s := s.readChan p t ch false
    let s := ((s.bump .CUT_REPLAY_COUNT).flag .CUT_EVT_REPLAY).event 5 0x0501 ch t pos
    let now := s.deck.reads.filter (fun r => r.dest.isNone)
    let stop := match now.find? (fun r => r.t == t && r.ch == ch) with
      | some r => r.next
      | none => pR p.data * pNg p.data
    let s := if es.isEmpty then s else { s with deck := { s.deck with
      reads := s.deck.reads.filter (fun r => r.dest.isSome) ++ [⟨t, ch, some es, 0, stop⟩] ++ now } }
    es.foldl (fun s e => s.sendRuns t ch true e) s

/-- No position waits for its substitute (DESIGN CHOICE, log 10: the cut takes no new range channel
meanwhile, so that every later range channel reaches it in the ordinary stream). -/
def State.noLoading (s : State) : Bool := (List.range 96).all (fun e => s.rd .ENG_STAT_STATE e != egLoading)

/-- CUT_RANGE_CHANNEL (R174 to R182): the cut goes on with what it is sending, until an input buffer is full (log 10); else
it takes the closed range channel next in order, unless the supply is frozen (R200). -/
def execCutRangeChannel (s : State) : Host.Outcome State Fault Refusal :=
  let s := match s.planAt s.deck.cutT, s.plans.active with
    | none, some p => if s.deck.cutT < p.d then { s with deck := { s.deck with cutT := p.d, cutCh := 0 } } else s
    | _, _ => s
  let t := s.deck.cutT
  let ch := s.deck.cutCh
  .next <|
    if s.frozen || s.inReset then s
    else if !s.deck.reads.isEmpty then s.cutGo
    else match s.planAt t with
    | none => s
    | some p =>
      let x := s.chan t ch
      if !x.closed || x.cut || !s.noLoading then s
      else
        let s := (s.setChan t ch { x with cut := true }).readChan p t ch true
        let s := (s.wr64 .CUT_CUTRANGE 0 t).wr .CUT_DECKSTAT_CUTCHAN 0 ch
        let s := s.served.foldl (fun s e => s.sendRuns t ch false e) s
        let last := decide (pN p.data ≤ ch + 1)
        let s := { s with deck := { s.deck with cutT := if last then t + pS p.data else t,
                                                cutCh := if last then 0 else ch + 1,
                                                reads := [⟨t, ch, none, 0, pR p.data * pNg p.data⟩] } }
        s.cutGo

/-! ### Release (R183) -/

/-- Beam partials of a run of a block that have arrived, a bit per compact group; bit 64 once the sum of
the run was emitted (R237, R238). -/
def handedKey (t ch block run : Nat) : Nat := 2 ^ 16 * chanKey t ch + 2 ^ 8 * block + run
def emittedBit : Nat := 64

/-- Every beam partial of the range channel was handed on: the sums it enters were emitted (R183, R238). -/
def State.beamsHanded (s : State) (p : ActivePlan) (t ch : Nat) : Bool :=
  (List.range (pK p.data)).all (fun b => (List.range (pR p.data)).all (fun run =>
    bitOf (tget 0 s.deck.handed (handedKey t ch b run)) emittedBit))

/-- Skew σ of slot k (R251). -/
def skewOf (slot dz : Nat) : Nat := slot * dz / 64

/-- Settings of a slot as a change carries them. -/
def ZoomSlot.same (x : ZoomSlot) (q : ZoomSettings) : Bool :=
  x.nc == q.nc.toNat && x.dz == q.dz.toNat && x.beam == q.beam.toNat && x.chan == q.chan.toNat

/-- The next output of a slot may be formed: its inputs are taken and no change comes before it (R252, R254). -/
def ZoomSlot.ready (k : Nat) (x : ZoomSlot) : Bool :=
  let w := x.nextOut * x.dz + skewOf k x.dz
  x.inUse && decide (w + x.dz ≤ x.fifoAt + x.fifo.length) &&
  (match x.pend with
   | none => true
   | some q => if q.use && x.same q.set then decide (w < q.c) else decide (w + x.dz ≤ q.c))

/-- Every zoom slot fed by a channel has formed the outputs that its inputs allow: its checkpoint stands (R238, R277). -/
def State.zoomQuiet (s : State) (ch : Nat) : Bool :=
  (List.range 64).all (fun k => (s.zslot k).chan != ch || !ZoomSlot.ready k (s.zslot k))

/-- Everything R183 asks of a range channel is committed, or it was released already. -/
def State.finished (s : State) (p : ActivePlan) (t ch : Nat) : Bool :=
  decide (t < s.releasedTo p ch) ||
  ((s.chan t ch).merged && (s.chan t ch).stats && s.beamsHanded p t ch && s.zoomQuiet ch)

/-- The HBM allocator gives out a region (log 5): its offset is a free value, a whole line. -/
def State.allocAt (s : State) : Nat := (Config.allocBase s.plans.nextAlloc).toNat / 1024 * 1024
def State.alloced (s : State) : State := { s with plans := { s.plans with nextAlloc := s.plans.nextAlloc + 1 } }

/-- The registers of deck and accumulators show the plan's allocation (R166, R185, R223). -/
def State.showBases (s : State) (p : Option ActivePlan) : State :=
  let a := fun (x : Option Nat) => match x with | some o => hbmBase + o | none => 0
  match p with
  | some p =>
    let s := (s.wr64 .CUT_DECKBASE 0 (a p.deck0)).wr64 .CUT_DECKBASE1 0 (a p.deck1)
    let s := (s.wr64 .ENG_ACCBASE0 0 (a p.acc0)).wr64 .ENG_ACCBASE1 0 (a p.acc1)
    let d := p.data
    (s.wr64 .CUT_DECKSIZE 0 (64 * pNg d * pS d * pN d * pB d)).flag .CUT_DECKSTAT_ACTIVE
  | none =>
    let s := (s.wr64 .CUT_DECKBASE 0 0).wr64 .CUT_DECKBASE1 0 0
    (s.wr64 .CUT_DECKSIZE 0 0).wr .CUT_DECKSTAT_ACTIVE 0 0

/-- The outgoing copy is freed: its ranges are past, and the incoming deck's other buffer is allocated in
the space it leaves (R166, R360). Positions beyond the incoming plan's are given up (R192, R199); a deal of
no plan changes no E, so every position keeps its engine (R192; log 10). A trick of the plan that has still to close keeps the
copy that it follows. -/
def State.freeOutgoing (s : State) (p : ActivePlan) : State :=
  let s := s.whenS (s.tricks.cur.any (fun c => decide (c < p.ends.getD 0)))
    (fun s => { s with tricks := { s.tricks with past := s.tricks.past ++ [p] } })
  let s := { s with plans := { s.plans with outgoing := none },
                    deck := { s.deck with closedBefore := max s.deck.closedBefore (p.ends.getD 0),
                                          closedTo := s.deck.closedTo.filter (fun x => x.1 / 1024 != p.id),
                                          releasedTo := s.deck.releasedTo.filter (fun x => x.1 / 1024 != p.id) } }
  let s := match s.plans.active with
    | some a =>
      let o := s.allocAt
      let a := if a.deck0.isNone then { a with deck0 := some o }
               else if a.deck1.isNone then { a with deck1 := some o } else a
      let s := s.alloced
      { s with plans := { s.plans with active := some a } }
    | none => s
  let e := match s.plans.active with | some a => a.e | none => 96
  let s := forN 96 (fun s pos =>
    let g := s.engineAt pos
    if e ≤ pos ∧ g < 96 then
      ((s.wr .ENG_STAT_STATE g egStandby).wr .ENG_STAT_POSITION g 0x7F).setHolder pos 0x7F
    else s) s
  s.showBases s.plans.active

/-- The range before `d` is past: its last range channel is released (R234). -/
def State.rangePast (s : State) (d : Nat) : Bool :=
  match s.planAt (d - 1) with
  | some p => (List.range (pN p.data)).all (fun i => decide (d ≤ s.releasedTo p i))
  | none => true

/-- Weight sets whose last range has passed are unlocked (R234). -/
def State.unlockDue (s : State) : State :=
  let t := s.beams.tLock.filter (fun d => !s.rangePast d)
  let p := s.beams.pLock.filter (fun d => !s.rangePast d)
  let s := { s with beams := { s.beams with tLock := t, pLock := p } }
  (s.put .BMF_STAT_TLOCK 0 (!t.isEmpty)).put .BMF_STAT_PLOCK 0 (!p.isEmpty)

/-- Every range channel of the outgoing plan is released (R166, R360). -/
def State.outgoingDone (s : State) (p : ActivePlan) : Bool :=
  let e := p.ends.getD 0
  (List.range (pN p.data)).all (fun i => decide (e ≤ s.releasedTo p i))

/-- The outgoing copy is freed when its last range channel is released (R360). -/
def State.freeDue (s : State) : State :=
  match s.plans.outgoing with
  | some p => if s.outgoingDone p then s.freeOutgoing p else s
  | none => s

/-- RANGE_CHANNEL_RELEASE (R183): (k + 2, ℓ) opens; the last one of the outgoing plan frees its copy. -/
def execRangeChannelRelease (t : Nat) (ch : Fin 1024) (s : State) : Host.Outcome State Fault Refusal :=
  .next <|
    match s.planAt t with
    | none => s
    | some p =>
      let c := ch.val
      if !((s.chan t c).cut && s.releasedTo p c == t && s.finished p t c) then s
      else
        let k := chanKey t c
        let dk := s.deck
        let s := { s with deck := { dk with
          presence := dk.presence.filter (fun x => x.1 / 2 ^ 16 != k)
          handed := dk.handed.filter (fun x => x.1 / 2 ^ 16 != k)
          valid := dk.valid.filter (fun x => x.1 / 2 ^ 16 != k)
          staging := dk.staging.filter (fun x => x.1 / 2 ^ 12 != k)
          releasedTo := tset 0 dk.releasedTo (planKey p c) (t + pS p.data) } }
        let s := s.setChan t c {}
        let s := s.unlockDue.freeDue
        s.openDue

end Sys2Proof.Machine
end

