-- ==== Sys2Proof/Machine/Engines.lean ====
section
/-! DEFINITION. Correlation engines (R186 to R221): allotments, hand-runs, merges into the long
accumulators and their commit, the pace governor, retirement, substitution and new allotments. -/

namespace Sys2Proof.Machine

/-! ### Allotment and hand-runs (R187 to R200) -/

/-- ALLOT (R197, R198): the next range channel of the input buffer starts in the other bank. -/
def execAllot (e : EngineId) (s : State) : Host.Outcome State Fault Refusal :=
  let g := e.val
  .next <|
    match (s.eng g).inbuf with
    | [] => s
    | r :: rest =>
      let cur := s.rd .ENG_STAT_BANK g
      let b := 1 - cur
      if s.rd .ENG_STAT_STATE g ≠ egActive || s.frozen || s.inReset || !s.bankDone g cur || !s.bankFree g b then s
      else match s.planAt r.t with
        | none => s.setEng g { s.eng g with inbuf := rest }
        | some p =>
          let pos := s.rd .ENG_STAT_POSITION g
          let x := stretch p r.t r.ch pos
          let n := pR p.data
          let s := s.setEng g { (s.eng g).clearBank b (some (r.t, r.ch)) with inbuf := rest }
          let s := (s.wr .ENG_STAT_BANK g b).wr .ENG_STAT_UNITS g (unitsTouched p r.t r.ch pos)
          let s := (s.wr .ENG_ALLOT_FIRSTUNIT g (x.1 / n)).wr .ENG_ALLOT_FIRSTRUN g (x.1 % n)
          let s := (s.wr .ENG_ALLOTLEN_HRUNS g x.2).whenS r.replay (·.flag .ENG_EVT_REPLAY g)
          s.send (.coreIrq g .allot)

/-- Samples of the signals of a group in a run as the engines see them: 0 + 0j where the run is muck (R181). -/
def State.engineRun (s : State) (p : ActivePlan) (t ch g run : Nat) : List (List (Int × Int)) :=
  let v := tget 0 s.deck.valid (2 ^ 16 * chanKey t ch + 2 ^ 8 * g + run)
  let x := runPlace p t ch g run
  let l := s.hbmRead x.1 x.2
  (List.range 64).map (fun i => if bitOf v i then signalRun (pFmt p.data) l i else List.replicate 256 (0, 0))

/-- The samples of the 64 signals of a block. -/
def Block.signals (fmt : Nat) (b : Block) : List (List (Int × Int)) := (List.range 64).map (signalRun fmt b.data)

/-- Σ x · conj(y) over a run, exactly (R45, R47, R187). -/
def crossSum (xs ys : List (Int × Int)) : Int × Int :=
  (List.zip xs ys).foldl (fun a q =>
    (a.1 + q.1.1 * q.2.1 + q.1.2 * q.2.2, a.2 + q.1.2 * q.2.1 - q.1.1 * q.2.2)) (0, 0)

/-- A run register and its pair count are added into a cell of the short accumulator (R188). -/
def ShortCell.add (a : ShortCell) (re im : Int) (n : Nat) : ShortCell := ⟨a.re + re, a.im + im, a.count + n⟩

/-- The hand-run of hand (i, j) over a run, into the unit's slot of a bank (R187 to R189). -/
def correlate (fmt : Nat) (row col : Block) (bank unit : Nat) (m : Tbl ShortCell) : Tbl ShortCell :=
  let rows := row.signals fmt
  let cols := col.signals fmt
  (List.range 4096).foldl (fun m c =>
    let x := crossSum (rows.getD (c / 64) []) (cols.getD (c % 64) [])
    let n := if bitOf row.valid (c / 64) && bitOf col.valid (c % 64) then 1 else 0
    let k := cellKey bank unit c
    tset {} m k ((tget {} m k).add x.1 x.2 n)) m

/-- A beam partial of compact group `g` arrives; one of a run whose sum was emitted, or that has arrived
before, is discarded (R218, R240). -/
def State.handOn (s : State) (t ch block g run : Nat) : State :=
  let k := handedKey t ch block run
  let m := tget 0 s.deck.handed k
  if bitOf m g || bitOf m emittedBit then s
  else { s with deck := { s.deck with handed := tset 0 s.deck.handed k (m + 2 ^ g) } }

/-- What a hand-run does with its blocks: a hand's run is correlated, a beam unit's partial handed on; none without the
blocks (R188, R237). -/
def State.handRun (s : State) (p : ActivePlan) (g t ch b unit run : Nat) : Option State :=
  let x := s.eng g
  match unitKind p.data unit with
  | .hand i j => match x.block t ch run i, x.block t ch run j with
    | some r, some c => some (s.setEng g { x with short := correlate (pFmt p.data) r c b unit x.short })
    | _, _ => none
  | .beam blk grp => (x.block t ch run grp).map (fun _ => s.handOn t ch blk grp run)

/-- RUN_END (R188, R197): the next hand-run of the engine's order completes, once its input buffer holds the blocks. At a
supply freeze only the hand-run in progress does (R200). -/
def execRunEnd (e : EngineId) (unit : Nat) (run : Nat) (s : State) : Host.Outcome State Fault Refusal :=
  let g := e.val
  let b := s.rd .ENG_STAT_BANK g
  .next <|
    match (s.eng g).bank b with
    | none => s
    | some (t, ch) => match s.planAt t with
      | none => s
      | some p =>
        let order := handRuns p t ch (s.rd .ENG_STAT_POSITION g)
        if s.rd .ENG_STAT_STATE g ≠ egActive || s.inReset || (s.frozen && (s.eng g).stopped) ||
            order.find? (fun ur => !tget false (s.eng g).done (runKey b ur.1 ur.2)) ≠ some (unit, run) then s
        else match s.handRun p g t ch b unit run with
        | none => s
        | some s =>
          let x := { s.eng g with done := tset false (s.eng g).done (runKey b unit run) true, stopped := s.frozen }
          let s := s.setEng g (x.dropSpent p t ch b (s.rd .ENG_STAT_POSITION g))
          (s.bump64 .ENG_HRUNS g).bump64 .ENG_CYC g (260 * pFac p.data)

/-! ### Long accumulators and merges (R201 to R208) -/

/-- A long accumulator cell (R201). -/
structure LongCell where
  re : Int
  im : Int
  count : Nat
  sat : Bool
  deriving DecidableEq, Repr

/-- The cell of a 128-bit word (R201). -/
def cellOf (v : Nat) : LongCell :=
  ⟨signed 48 v, signed 48 (v / 2 ^ 48), bitsOf v 96 31, bitOf v 127⟩
/-- The 128-bit word of a cell. -/
def cellWord (c : LongCell) : Nat :=
  code 48 c.re + 2 ^ 48 * code 48 c.im + 2 ^ 96 * c.count + (if c.sat then 2 ^ 127 else 0)
def cellBytes (c : LongCell) : List Byte := leBytes 16 (cellWord c)

/-- sat48 and sat31 (R203). -/
def sat48 (x : Int) : Int := if (2 ^ 47 - 1 : Int) < x then 2 ^ 47 - 1 else if x < -(2 ^ 47 - 1) then -(2 ^ 47 - 1) else x
def sat31 (n : Nat) : Nat := min n (2 ^ 31 - 1)

/-- A partial merged into a cell (R203, R208). -/
def LongCell.merge (c : LongCell) (p : ShortCell) : LongCell :=
  let re := c.re + p.re
  let im := c.im + p.im
  let n := c.count + p.count
  ⟨sat48 re, sat48 im, sat31 n, c.sat || sat48 re != re || sat48 im != im || sat31 n != n⟩

/-- The initialising merge of a cell (R203). -/
def LongCell.init (p : ShortCell) : LongCell := ⟨p.re, p.im, p.count, false⟩

/-- Byte offset of row `r` of hand `h` in channel `ch` within a buffer (R202). -/
def rowOff (d : Tbl Byte) (ch h r : Nat) : Nat := ((ch * pH d + h) * 4096 + 64 * r) * 16

/-- An accumulator buffer still holds a closed trick that is not exported (R205). -/
def State.bufBusy (s : State) (b : Nat) : Bool := s.tricks.closed.any (fun k => k.buf == b && !k.exported)

/-- First counter and buffer of the trick that range `t` accumulates in: the accumulating trick, or the
next one in the other buffer once that is free (R202, R205). -/
def State.trickBuf (s : State) (t : Nat) : Option (Nat × Nat) :=
  match s.tricks.cur with
  | none => none
  | some c => match s.planOf c with
    | none => none
    | some p =>
      let e := s.trickEnd p c
      if t < e then (if s.bufBusy (s.rd .ENG_ACCSEL_ACCUM) then none else some (c, s.rd .ENG_ACCSEL_ACCUM))
      else match s.planOf e with
        | some q => if t < s.trickEnd q e && s.on .ENG_ACCSEL_OTHERFREE then some (e, 1 - s.rd .ENG_ACCSEL_ACCUM) else none
        | none => none

/-- HBM offset of long accumulator buffer `b` of a plan. -/
def ActivePlan.acc (p : ActivePlan) (b : Nat) : Option Nat := if b = 0 then p.acc0 else p.acc1

/-- The short cell a position holds for a unit; 0 where it holds none. -/
def State.shortOf (s : State) (t ch pos unit c : Nat) : ShortCell :=
  let x := s.eng (s.engineAt pos)
  match x.bankOf t ch with
  | some b => tget {} x.short (cellKey b unit c)
  | none => {}

/-- The cells of a poisoned line as a merge takes them: SAT set, the rest open values (R415, log 2). -/
def State.poisonCell (s : State) (c : Nat) : LongCell :=
  let v := (Config.freeBits (s.fresh + 2 * c)).toNat + 2 ^ 64 * (Config.freeBits (s.fresh + 2 * c + 1)).toNat
  { cellOf v with sat := true }

/-- One line of a merge (R203): row `r` of hand `h`, the partials in `ps`. -/
def State.mergeLine (s : State) (base k : Nat) (init : Bool) (lead : Nat) (ps : List ShortCell) : State :=
  let line := base / 1024
  if !init && tget 0 s.hbm.tag line == k % 65536 then s
  else
    let bad := !init && s.hbmPoisoned (1024 * line) 1024
    let old := fun c => if bad then s.poisonCell c else cellOf (leVal (s.hbmRead (base + 16 * c) 16))
    let cells := (List.range 64).map (fun c =>
      let p := ps.getD c {}
      if init then LongCell.init p else (old c).merge p)
    let newSat := if init then 0
      else ((List.range 64).filter (fun c => (cells.getD c (.init {})).sat && (bad || !(old c).sat))).length
    let s := if bad then ({ s with fresh := s.fresh + 128 }).fault srcDealer 2 1 else s
    let s := s.hbmWrite base (cells.flatMap cellBytes) (k % 65536)
    if newSat = 0 then s
    else ((s.bump .ENG_SATCNT_COUNT 0 newSat).flag .ENG_GEVT_SAT).flag .ENG_EVT_SAT (s.engineAt lead)

/-- Address of a statistics entry (R178, R180). -/
def statOff (p : ActivePlan) (buf ch sig : Nat) : Nat :=
  (if buf = 0 then p.stat0 else p.stat1) + (ch * 64 * pNg p.data + sig) * 32
/-- The 32 bytes of a statistics entry (R178). -/
def StatEntry.bytes (e : StatEntry) : List Byte :=
  leBytes 8 e.sump ++ leBytes 8 e.sump2 ++ leBytes 4 (e.valid + if e.sat then 2 ^ 31 else 0) ++
  leBytes 4 e.missing ++ leBytes 4 e.flagged ++ leBytes 4 e.skfail
def statOf (l : List Byte) : StatEntry where
  sump := fieldAt l 0 8
  sump2 := fieldAt l 8 8
  valid := fieldAt l 16 4 % 2 ^ 31
  missing := fieldAt l 20 4
  flagged := fieldAt l 24 4
  skfail := fieldAt l 28 4
  sat := bitOf (fieldAt l 16 4) 31

/-- A statistics send still reads the bank of buffer `b` (R280). -/
def State.bankKept (s : State) (b : Nat) : Bool :=
  s.dealer.longs.any (fun o => match o.kind with
    | .statsSend first _ => s.tricks.closed.any (fun k => k.first == first && k.buf == b)
    | _ => false)

/-- The staging of range channel (t, ch) is committed to its trick's bank, once (R180, R184). -/
def State.commitStats (s : State) (p : ActivePlan) (t ch : Nat) : State :=
  match s.trickBuf t with
  | none => s
  | some (first, b) =>
    if s.bankKept b || (s.chan t ch).stats then s
    else
      let s := forN (64 * pNg p.data) (fun s i =>
        let o := statOff p b ch i
        let e := tget {} s.deck.staging (stageKey t ch i)
        let bad := first != t && s.hbmPoisoned o 32
        let old := { statOf (s.hbmRead o 32) with sat := (statOf (s.hbmRead o 32)).sat || bad }
        let new := if first = t then e else old.add e
        let s := s.whenS bad (·.fault srcCut 3 2)
        let s := s.whenS (new.sat && (first == t || !old.sat)) (·.flag .CUT_EVT_STATSAT)
        s.hbmWrite o new.bytes) s
      s.setChan t ch { s.chan t ch with stats := true }

/-- The merge of (t, ch) is committed when every hand's lines carry the range's tag (R204). -/
def State.commitChan (s : State) (p : ActivePlan) (t ch : Nat) : State :=
  let x := s.chan t ch
  if x.merged || (handUnits p.data).any (fun u => !bitOf x.units u) then s
  else
    let s := (s.setChan t ch { x with merged := true }).event 6 0x0601 ch t 0
    let s := (s.wr64 .ENG_COMMIT 0 t).wr .ENG_COMMITCH_CHANNEL 0 ch
    let s := s.served.foldl (fun s e => s.send (.coreIrq e .commit)) s
    s.commitStats p t ch

/-- Every hand-run of the range channel is complete (R200). -/
def State.allRunsDone (s : State) (p : ActivePlan) (t ch : Nat) : Bool :=
  (List.range (pU p.data)).all (fun u => s.partDone p t ch (leadOf p t ch u) u && s.partDone p t ch (helperOf p t ch u) u)

/-- The range before (t, ch) of its plan is merged: merges of a channel are made in ascending order (R203, R207). -/
def State.mergeTurn (s : State) (p : ActivePlan) (t ch : Nat) : Bool :=
  decide (t < p.d + pS p.data) || s.committed (t - pS p.data) ch

/-- MERGE (R203 to R205): the lead of a hand unit merges its own and its helper's partials. -/
def execMerge (t : Nat) (ch : Fin 1024) (unit : Nat) (s : State) : Host.Outcome State Fault Refusal :=
  let c := ch.val
  .next <|
    match s.planAt t with
    | none => s
    | some p =>
      match unitKind p.data unit, s.trickBuf t with
      | .hand i j, some (first, b) =>
        match p.acc b with
        | none => s
        | some base =>
          let lead := leadOf p t c unit
          let help := helperOf p t c unit
          let x := s.chan t c
          if t % pS p.data ≠ 0 || pU p.data ≤ unit || !x.cut || x.merged || bitOf x.units unit || s.inReset || !s.mergeTurn p t c ||
              !s.partDone p t c lead unit || !s.partDone p t c help unit || (s.frozen && !s.allRunsDone p t c) then s
          else
            let sum := fun k =>
              let a := s.shortOf t c lead unit k
              if help = lead then a
              else let z := s.shortOf t c help unit k; a.add z.re z.im z.count
            let s' := forN 64 (fun s r => s.mergeLine (base + rowOff p.data c (handNo i j) r) (t / pS p.data)
              (first == t) lead ((List.range 64).map (fun q => sum (64 * r + q)))) s
            let y := s'.chan t c
            (s'.setChan t c { y with units := y.units + 2 ^ unit }).commitChan p t c
      | _, _ => s

/-! ### Retirement and recomputation (R215 to R221) -/

/-- Range channels the cut has taken whose merge or beam partials are not complete, in cut order. -/
def State.unfinished (s : State) : List (Nat × Nat) :=
  (s.cutChans (fun _ => true)).filter (fun tc => match s.planAt tc.1 with
    | some p => !((s.chan tc.1 tc.2).merged && s.beamsHanded p tc.1 tc.2)
    | none => false)

/-- A position has hand-runs in a range channel; 0xFFFF stands for every position. -/
def State.worksOn (s : State) (pos : Nat) (tc : Nat × Nat) : Bool :=
  pos == 0xFFFF || (match s.planAt tc.1 with | some p => decide ((stretch p tc.1 tc.2 pos).2 ≠ 0) | none => false)

/-- The unfinished range channels on which a position has work are read again for the engines `es` (R184, R218, R219). -/
def State.recompute (s : State) (es : List Nat) (pos : Nat) : State :=
  (s.unfinished.filter (s.worksOn pos)).foldl (fun s tc => s.reread tc.1 tc.2 es pos) s

/-- Both banks and the input buffer of an engine are emptied. -/
def State.dropWork (s : State) (e : Nat) : State :=
  s.setEng e { ((s.eng e).clearBank 0 none).clearBank 1 none with inbuf := [], blocks := [] }

/-- The lowest-numbered engine in STANDBY (R217). -/
def State.standby (s : State) : Option Nat :=
  (List.range 96).find? (fun e => s.rd .ENG_STAT_STATE e == egStandby)

/-- A new allotment without position `pos` (R219): the positions above move down, those of substitutes that are loading
too, and every engine of the allotment computes the unfinished range channels again. -/
def State.newAllotment (s : State) (pos : Nat) : State :=
  let s := (List.range 96).foldl (fun s q =>
    if q < pos then s
    else
      let e := if q + 1 < 96 then s.engineAt (q + 1) else 0x7F
      let s := s.setHolder q e
      if e < 96 then s.wr .ENG_STAT_POSITION e q else s) s
  let s := forN 96 (fun s e =>
    let q := s.rd .ENG_STAT_POSITION e
    if s.rd .ENG_STAT_STATE e = egLoading ∧ pos < q ∧ q < 96 then s.wr .ENG_STAT_POSITION e (q - 1) else s) s
  let fewer := fun (p : ActivePlan) => if pos < p.e then { p with e := p.e - 1 } else p
  let s := { s with plans := { s.plans with active := s.plans.active.map fewer,
                                            outgoing := s.plans.outgoing.map fewer } }
  let s := s.dropRereads.served.foldl (fun s e => (s.dropWork e).send (.coreIrq e .retire)) s.dropRereads
  s.recompute s.served 0xFFFF

/-- A recovery of R491 is not yet complete. -/
def State.recovering (s : State) : Bool :=
  let u := s.unfinished
  s.flt.recover.any (fun x => u.contains x) || !s.noLoading || !s.hbm.jobs.isEmpty || !s.pow.spdHeal.isEmpty ||
    s.pow.railOff.any (·.2) ||
    (List.range 5).any (fun b => (s.bundle b).change.any (fun c => !c.planned))

/-- A part faults: that lies outside the guarantee while the recovery from an earlier fault is not complete (R490 to
R492). -/
def State.partFault (s : State) : State := s.whenS s.recovering (·.flag .FLT_GSTAT_OUTSIDE)

/-- An engine is retired (R215 to R219): powered off, recorded, and its position filled by a substitute or
removed from the allotment. -/
def State.retireEngine (s : State) (e cause : Nat) : State :=
  let pos := s.rd .ENG_STAT_POSITION e
  let spare := s.standby
  let sub := if pos < 96 && s.on .ENG_GCTL_AUTOSUBST then spare.filter (· != e) else none
  let old := (s.eng e).item
  let item := if old = 0 then s.ledger.nextItem else old
  let s := s.whenS (pos < 96 && cause != 4) (·.partFault)
  let s := if pos < 96 then { s with flt := { s.flt with recover := s.unfinished } } else s
  let s := (s.wr .ENG_STAT_STATE e egRetired).wr .ENG_STAT_POSITION e 0x7F
  let s := (s.wr .ENG_RETCAUSE_CAUSE e cause).wr .ENG_RAIL_MV e 0
  let s := (s.flag .ENG_EVT_RETIRED e).flag .ENG_GEVT_RETIRE
  let s := (s.whenS (old == 0) (·.newItem)).setEng e { item := item }
  let s := s.event 6 0x0603 e 0 (cause + 256 * pos + 65536 * sub.getD 0x7F)
  let s := s.repair item 4 1 e 0 cause
  let s := s.whenS (pos < 96 && spare.isNone) (·.flag .ENG_GEVT_KITTY_EMPTY)
  if pos < 96 then
    match sub with
    | some n =>
      let s := (s.wr .ENG_STAT_STATE n egLoading).wr .ENG_STAT_POSITION n pos
      ((s.wr .ENG_RAIL_MV n (Config.calRail (Fin.ofNat 96 n))).setHolder pos 0x7F).send (.coreIrq n .retire)
    | none => s.newAllotment pos
  else s

/-- The states in which an engine may be retired by register, command or fault (R215, R222). -/
def State.inService (s : State) (e : Nat) : Bool :=
  let st := s.rd .ENG_STAT_STATE e
  st == egActive || st == egIdle || st == egStandby

/-- ENG_CTL_RETIRE (R215). -/
def execEngCtlRetire (e : EngineId) (s : State) : Host.Outcome State Fault Refusal :=
  .next (if s.inService e.val then s.retireEngine e.val 4 else s)

/-- The self-test of a RETIRED engine starts (R216). -/
def State.startRestore (s : State) (e : Nat) : State := s.wr .ENG_STAT_STATE e egSelftest

/-- ENG_CTL_RESTORE (R216). -/
def execEngCtlRestore (e : EngineId) (s : State) : Host.Outcome State Fault Refusal :=
  .next (if s.rd .ENG_STAT_STATE e.val = egRetired then s.startRestore e.val else s)

/-- The visibilities of a plan go through an output kernel (R265). -/
def ActivePlan.usesKernel (p : ActivePlan) : Bool := pVfmt p.data == 3

/-- The plan whose kernel the engines need now (R328): that of the oldest closed trick not exported, else
of the outgoing plan, else of the active plan. -/
def State.kernelPlan (s : State) : Option ActivePlan :=
  ((s.tricks.closed.filter (fun k => !k.exported)).map (·.plan) ++ s.tricks.past ++ s.plans.outgoing.toList ++
    s.plans.active.toList).find? (·.usesKernel)

/-- Words of a list of bytes. -/
def wordsOf (l : List Byte) : List Word :=
  (List.range (l.length / 4)).map (fun i => BitVec.ofNat 32 (fieldAt l (4 * i) 4))

/-- A kernel image is copied into an engine (R325, R328). -/
def State.loadKernel (s : State) (e : Nat) (p : ActivePlan) : State :=
  let img := p.kernel
  let ps := fieldAt img 8 2
  let xs := fieldAt img 10 2
  let ys := fieldAt img 12 2
  let x := s.eng e
  let c := x.core
  s.setEng e { x with
    kplan := some p.id
    core := { c with
      prog := tsetMany 0 c.prog (8 * 4096) (slice img 96 ps)
      x := tsetMany 0 c.x 0x6080 (wordsOf (slice img (96 + ps) xs))
      y := tsetMany 0 c.y 0x6100 (wordsOf (slice img (96 + ps + xs) ys)) } }

/-- SPARE_ARRAY_CHECK_DONE (R217, R218): the spare is placed and computes what its position owes, or is
retired with cause 1 and the next one taken. -/
def execSpareArrayCheckDone (e : EngineId) (pass : Bool) (s : State) : Host.Outcome State Fault Refusal :=
  let g := e.val
  let pos := s.rd .ENG_STAT_POSITION g
  .next <|
    if s.rd .ENG_STAT_STATE g ≠ egLoading then s
    else if pass then
      let s := ((s.wr .ENG_STAT_STATE g egActive).setHolder pos g).dropWork g
      let s := match s.kernelPlan with | some p => s.loadKernel g p | none => s
      s.recompute [g] pos
    else (s.fault g 3 1).retireEngine g 1

/-- ENGINE_SELFTEST_DONE (R216): STANDBY (IDLE while HOLD is 1) with the repair entry removed, or RETIRED
still. -/
def execEngineSelftestDone (e : EngineId) (pass : Bool) (s : State) : Host.Outcome State Fault Refusal :=
  let g := e.val
  let own := fun (k : LongKind) => match k with | .engineRestore n => n == g | _ => false
  .next <|
    if s.rd .ENG_STAT_STATE g ≠ egSelftest then s
    else if pass then
      let item := (s.eng g).item
      let s := s.wr .ENG_STAT_STATE g (if s.on .ENG_GSTAT_HOLD then egIdle else egStandby)
      let s := (s.wr .ENG_RETCAUSE_CAUSE g 0).wr .ENG_RATE_SLOWCNT g 0
      let s := (s.wr .ENG_RAIL_MV g (Config.calRail e)).setEng g {}
      (s.whenS (item != 0) (·.repair item 4 2 g 0 0)).endLongOf own stDone
    else ((s.wr .ENG_STAT_STATE g egRetired).fault g 6 1).endLongOf own rejState

/-- ENG_GCTL_RELEASE (R223). -/
def execEngGctlRelease (s : State) : Host.Outcome State Fault Refusal := .next (s.wr .ENG_GSTAT_HOLD 0 0)

/-! ### The pace governor (R212 to R214) -/

/-- Some hand-runs of the active plan belong to position `pos` (R193, R212). -/
def State.hasWork (s : State) (pos : Nat) : Bool :=
  match s.plans.active with
  | some p => decide (pos < p.e ∧ (p.e < pU p.data ∨ pos < pU p.data))
  | none => false

/-- The junction temperature of an engine that is powered (R222, R522): a fault where it reaches 105 °C. -/
def State.takeTemp (s : State) (g : Nat) (tj : Int) : State :=
  let wasHot := decide (105 ≤ signed 8 (s.rd .ENG_TEMP_TJ g))
  let s := (s.wr .ENG_TEMP_TJ g (code 8 tj)).whenS (decide (105 ≤ tj) && !wasHot) (·.fault srcThermal 1 0)
  s.whenS (wasHot && (List.range 96).all (fun e => decide (signed 8 (s.rd .ENG_TEMP_TJ e) < 105))) (·.setLive srcThermal 0 1 false)

/-- One measurement of one engine: its temperature and, of an active one, its rate (R212, R213). An engine that was not busy
has no rate; one without hand-runs is held at 0.60 V. -/
def State.governor (s : State) (m : EngMeas) : State :=
  let g := m.engine.val
  let st := s.rd .ENG_STAT_STATE g
  let s := if st = egOff ∨ st = egRetired then s else s.takeTemp g m.tj
  if st ≠ egActive then s
  else if m.busyNs = 0 then (if s.hasWork (s.rd .ENG_STAT_POSITION g) then s else s.wr .ENG_RAIL_MV g 600)
  else
    let target := s.rd .ENG_GOVCTL_TARGET
    let mv := s.rd .ENG_RAIL_MV g
    let x := s.eng g
    let low := decide (m.cycles * 1000 < target * m.busyNs)
    let fast := if 103 * target * m.busyNs < m.cycles * 100000 then x.fast + 1 else 0
    let hot := decide (105 ≤ m.tj)
    let slow := decide (m.cycles * 1000 < 1400 * m.busyNs) && (mv == 820 || (hot && low))
    let s := s.wr .ENG_RATE_RATE g (min 4095 (m.cycles * 1000 / m.busyNs))
    let mv' := if !s.hasWork (s.rd .ENG_STAT_POSITION g) then 600
      else if low && !hot then min 820 (mv + 5)
      else if 100 ≤ fast then max 600 (mv - 5)
      else mv
    let s := (s.wr .ENG_RAIL_MV g mv').whenS (mv' == 820 && mv != 820) (·.flag .ENG_EVT_TOPRAIL g)
    let s := s.setEng g { s.eng g with fast := if 100 ≤ fast then 0 else fast, meas := some (m.cycles, m.busyNs) }
    if slow then
      (s.wr .ENG_RATE_SLOWCNT g (min 255 (s.rd .ENG_RATE_SLOWCNT g + 1))).flag .ENG_EVT_SLOW g
    else s.wr .ENG_RATE_SLOWCNT g 0

/-- An engine slow in 10 consecutive measurements is retired where a substitution is possible (R213, R217). -/
def State.retireSlow (s : State) (g : Nat) : State :=
  if 10 ≤ s.rd .ENG_RATE_SLOWCNT g && s.on .ENG_GCTL_AUTOSUBST && s.standby.isSome then (s.fault g 7 1).retireEngine g 2 else s

/-- GOVERNOR_MEASUREMENT (R212, R213): engines retired at once are replaced in ascending position order (R217). -/
def execGovernorMeasurement (ms : List EngMeas) (s : State) : Host.Outcome State Fault Refusal :=
  let s := ms.foldl (fun s m => s.governor m) s
  let es := (List.range 96).filterMap (fun pos =>
    let g := s.engineAt pos
    if ms.any (fun m => m.engine.val == g) then some g else none)
  .next (es.foldl (fun s g => s.retireSlow g) s)

/-- φ from the rates of the positions that have work and a measured rate, unrounded (R214); 64 where none limits. -/
def State.phi (s : State) : Nat :=
  match s.plans.active, s.timeb.map with
  | some p, some m =>
    let d := p.data
    let u := pU d
    -- hand-runs of a range channel per position, times p.e
    let share := if u ≤ p.e then pR d * p.e else u * pR d
    let den := share * 260 * pFac d * pN d * 1000000000 * m.q
    let each := (List.range p.e).filterMap (fun pos =>
      match (s.eng (s.engineAt pos)).meas with
      | some (c, ns) =>
        if s.engineAt pos < 96 ∧ s.hasWork pos then some (64 * c * 1000000000 * p.e * m.p * pS d / (den * ns)) else none
      | none => none)
    each.foldl min 64
  | _, _ => 64

/-- Credits that the flows of a bundle need in 1 ms at φ/64 of their rate (R214, R122). -/
def State.paceCredits (s : State) (b phi : Nat) : Nat :=
  let pq := s.mapPQ
  let fs := s.flowList.filter (fun f => s.rd .VSN_SSTAT_BUNDLE (s.rd .VSN_FSTAT_SESSION f) == b &&
    (match s.plans.active with | some p => pHasGroup p.data (s.rd .VSN_FSTAT_GROUP f) | none => false))
  let need := (fs.map (fun f => let sh := s.flowShape f; frameCost (List.replicate (68 + shBytes sh) 0) * (128 / shT sh))).sum
  need * 1000000 * pq.2 * phi / (64 * 128 * pq.1)

/-- PACE_DEFICIT_CHECK (R214): a deficit begins, continues (its share of the owed credits is returned) or
ends once φ has been 64 for 1 s. -/
def execPaceDeficitCheck (s : State) : Host.Outcome State Fault Refusal :=
  let phi := s.phi
  let on := s.on .ENG_GSTAT_DEFICIT
  let pay := fun (s : State) => if s.suspended then s else forN 5 (fun s b => s.payCredits b (s.paceCredits b phi)) s
  let since := fun (s : State) (x : Option Nat) => { s with dealer := { s.dealer with phiAt := x } }
  .next <|
    if phi < 64 then
      let s := since (s.wr .ENG_PHI_PHI 0 phi) none
      let s := if on then s
        else ((s.flag .ENG_GSTAT_DEFICIT).flag .ENG_GEVT_DEFICIT).event 6 0x0604 0 0 (1 + 256 * phi)
      pay s
    else if !on then s
    else
      let s := s.wr .ENG_PHI_PHI 0 64
      match s.dealer.phiAt with
      | none => pay (since s (some s.clock))
      | some t =>
        if t + 1000000000 ≤ s.clock then
          (((since s none).wr .ENG_GSTAT_DEFICIT 0 0).event 6 0x0604 0 0 (256 * phi)).resumeCredits
        else pay s

end Sys2Proof.Machine
end

