-- ==== Sys2Proof/Machine/LaneLoss.lean ====
section
/-! DEFINITION. Lanes that fail (R90, R100): the declarations of a loss that are part faults under R491. -/

namespace Sys2Proof.Machine

/-- Lanes fail: each one in service or STANDBY is a part fault, and two at once are never covered (R491, R492). -/
def State.lanesFail (s : State) (ls : List Nat) (reason : Nat) : State :=
  let n := (ls.filter (fun l => s.lnState l == lnService || s.lnState l == lnStandby)).length
  ((s.whenS (decide (0 < n)) (·.partFault)).whenS (decide (1 < n)) (·.flag .FLT_GSTAT_OUTSIDE)).loseLanes ls reason

/-- LANE_LOSS_OF_LOCK (R90). -/
def execLaneLossOfLock (l : Lane) (s : State) : Host.Outcome State Fault Refusal :=
  .next (s.lanesFail [l.val] 1)

/-- UNCORRECTABLE_CODEWORD (R89, R90): counted; the third within 1 ms declares the lane lost. -/
def execUncorrectableCodeword (l : Lane) (s : State) : Host.Outcome State Fault Refusal :=
  let l := l.val
  .next <|
    if s.rd .VLK_STAT_RATE l < 2 then s
    else
      let s := ((s.bump64 .VLK_FEC_CW l).bump64 .VLK_FEC_UNC l).flag .VLK_EVT_UNCORR l
      let ts := s.clock :: (s.lane l).uncTimes.filter (fun t => s.clock < t + 1000000)
      if ts.length < 3 then s.setLane l { s.lane l with uncTimes := ts }
      else (s.setLane l { s.lane l with uncTimes := [] }).lanesFail [l] 2

/-- LANE_DOWN from the partner (R100): a request; the module declares the lanes lost that its MASK takes
out of service. -/
def execLaneDown (l : Lane) (msg : List Byte) (s : State) : Host.Outcome State Fault Refusal :=
  let b := s.rd .VLK_STAT_BUNDLE l.val
  .next <|
    if laneMsgOk msg 5 && b < 5 then
      s.lanesFail (((List.range 4).filter (fun p => !bitOf (fieldAt msg 14 1) p)).map (s.posLane b)) (fieldAt msg 11 1)
    else s

end Sys2Proof.Machine
end

