-- ==== Sys2Proof/Machine/HostMem.lean ====
section
/-! DEFINITION. Host memory that does not answer (R473), and the command queue engine as a master (R445). -/

namespace Sys2Proof.Machine

/-- The source number of PCI Express, its fault of kind 2 (R473): a read or write of host memory with the link
down ends in a completion time-out. -/
def State.hostTimeout (s : State) (master type addr : Nat) : State := s.raise (mkFault srcPci 2 1 addr master type)

/-- Master ID of the command queue engine (R445). -/
def masterQueue : Nat := 4

end Sys2Proof.Machine
end

