-- ==== Sys2Proof/Machine/Numeric.lean ====
section
/-! DEFINITION. Exact rationals without normal form, conversion to the IEEE formats (R56, R263, R264),
round half up of integers (R55), the weights' cosine and sine in fixed point (R229), and log2 (R246). -/

namespace Sys2Proof.Machine

/-- Round half up of a ÷ b, towards +∞ on ties (R55). -/
def rhu (a : Int) (b : Nat) : Int := (2 * a + b) / (2 * b : Nat)

/-- A rational n ÷ d, d > 0. -/
structure Q where
  n : Int
  d : Nat
  deriving DecidableEq, Repr

def Q.add (x y : Q) : Q := ⟨x.n * y.d + y.n * x.d, x.d * y.d⟩
def Q.neg (x : Q) : Q := ⟨-x.n, x.d⟩
def Q.sub (x y : Q) : Q := x.add y.neg
def Q.mul (x y : Q) : Q := ⟨x.n * y.n, x.d * y.d⟩
/-- The value m 2^k. -/
def Q.dyadic (m : Int) (k : Int) : Q := if 0 ≤ k then ⟨m * 2 ^ k.toNat, 1⟩ else ⟨m, 2 ^ (-k).toNat⟩

/-- A binary format: precision with the hidden bit, exponent of the unit of its subnormals, width of its
exponent field. -/
structure Flt2 where
  p : Nat
  emin : Int
  ew : Nat

def fp16 : Flt2 := ⟨11, -24, 5⟩
def fp32 : Flt2 := ⟨24, -149, 8⟩
def fp64 : Flt2 := ⟨53, -1074, 11⟩

/-- Integer quotient to nearest, ties to even (R56). -/
def rne (a b : Nat) : Nat :=
  let q := a / b
  let r := a % b
  if 2 * r < b then q else if b < 2 * r then q + 1 else if q % 2 = 0 then q else q + 1

/-- A magnitude n ÷ d rounded to a format (R56): (m, k) with value m 2^k and m at most 2^p. -/
def roundMag (f : Flt2) (n d : Nat) : Nat × Int :=
  if n = 0 then (0, f.emin)
  else
    let e0 : Int := (Nat.log2 n : Int) - (Nat.log2 d : Int)
    -- floor of log2 (n / d): e0 or e0 - 1
    let ge := if 0 ≤ e0 then d * 2 ^ e0.toNat ≤ n else d ≤ n * 2 ^ (-e0).toNat
    let e := if ge then e0 else e0 - 1
    let k := max (e - (f.p - 1 : Nat)) f.emin
    let m := if 0 ≤ k then rne n (d * 2 ^ k.toNat) else rne (n * 2 ^ (-k).toNat) d
    (m, k)

/-- A rational rounded to a format: the value again (R56). -/
def Q.round (f : Flt2) (x : Q) : Q :=
  let r := roundMag f x.n.natAbs x.d
  .dyadic (if x.n < 0 then -(r.1 : Int) else r.1) r.2

/-- rn64 of R263. -/
def rn64 (x : Q) : Q := x.round fp64

/-- Code of +infinity without its sign. -/
def Flt2.inf (f : Flt2) : Nat := (2 ^ f.ew - 1) * 2 ^ (f.p - 1)
/-- Place of the sign bit. -/
def Flt2.sign (f : Flt2) : Nat := 2 ^ (f.p - 1 + f.ew)

/-- Magnitude code of a rational in a format, rounded under R56; at or above `inf` where it overflows. -/
def magCode (f : Flt2) (x : Q) : Nat :=
  let r := roundMag f x.n.natAbs x.d
  (r.2 - f.emin).toNat * 2 ^ (f.p - 1) + r.1

/-- narrow() of R263 and R264: the code, −0 as +0, an overflow clamped to the largest finite value, and
whether it was clamped. -/
def narrow (f : Flt2) (x : Q) : Nat × Bool :=
  let m := magCode f x
  if m = 0 then (0, false)
  else
    let c := decide (f.inf ≤ m)
    ((if x.n < 0 then f.sign else 0) + (if c then f.inf - 1 else m), c)

/-- A binary32 value is finite (R266). -/
def finite32 (v : Nat) : Bool := v / 2 ^ 23 % 256 != 255

/-- Value of a finite code of a format. -/
def ofCode (f : Flt2) (v : Nat) : Q :=
  let m := v % f.sign
  let e := m / 2 ^ (f.p - 1)
  let frac := m % 2 ^ (f.p - 1)
  let mag : Int := if e = 0 then frac else (frac + 2 ^ (f.p - 1) : Nat)
  .dyadic (if f.sign ≤ v then -mag else mag) (f.emin + (if e = 0 then 0 else e - 1 : Nat))

/-! ### Cosine and sine of a phase in 2^-16 turn, in units of 2^-80 (R229) -/

/-- π 2^80, rounded. -/
def pi80 : Nat := 3797952473636338580787994

/-- Terms of the Taylor series after `t`, of order n, n + 2, …: each −x² ÷ ((n + 1)(n + 2)) of the last. -/
def taylor (x2 : Nat) : Nat → Nat → Int → Int
  | 0, _, _ => 0
  | k + 1, n, t => t + taylor x2 k (n + 2) (-(t * x2) / (2 ^ 80 * ((n + 1) * (n + 2)) : Nat))

/-- Cosine and sine of r 2^-16 turn, r at most 8192. -/
def octant (r : Nat) : Int × Int :=
  let x := pi80 * r / 32768
  let x2 := x * x / 2 ^ 80
  (taylor x2 16 0 (2 ^ 80 : Nat), taylor x2 16 1 x)

/-- Cosine and sine of a phase in 2^-16 turn. -/
def cosSin (ph : Nat) : Int × Int :=
  let r := ph % 16384
  let o := if r ≤ 8192 then octant r else let s := octant (16384 - r); (s.2, s.1)
  match ph / 16384 % 4 with
  | 0 => o
  | 1 => (-o.2, o.1)
  | 2 => (-o.1, -o.2)
  | _ => (o.2, -o.1)

/-- round_half_up(AMP cos), round_half_up(AMP sin) (R229). -/
def polyWeight (amp ph : Nat) : Int × Int :=
  let c := cosSin ph
  (rhu (amp * c.1) (2 ^ 80), rhu (amp * c.2) (2 ^ 80))

/-- The integer nearest to 512 log2 (1 + P) (R246). -/
def logCode (p : Nat) : Nat := (Nat.log2 ((1 + p) ^ 1024) + 1) / 2

end Sys2Proof.Machine
end

