-- ==== Sys2Proof/Machine/Ring.lean ====
section
/-! DEFINITION. The output ring (R272 to R290): streams cut into packets, partitions, what they retain,
and the room a producer needs. Streams of a plan: 0 to 7 the visibilities of a class, 16 + k zoom slot k,
`beamStream` the beams. -/

namespace Sys2Proof.Machine

/-- A stream of a plan: each plan's streams are apart, and its packets are counted from its deal (R282). -/
def streamOf (p : ActivePlan) (k : Nat) : Nat := 1024 * p.id + k

/-- Partitions of a destination code: 0 port 0, 1 port 1, 2 both ports, 3 the host (R70). -/
def partsOf (dest : Nat) : List Nat :=
  if dest = 0 then [0] else if dest = 1 then [1] else if dest = 2 then [0, 1] else [2]

/-- Ring space of a packet (R286): header, a zoom packet's descriptor, payload. -/
def Pkt.size (k : Pkt) : Nat := 64 + (if k.zoom.isSome then 32 else 0) + k.payload.length

/-- Undrained content of a partition in bytes: the whole packets that it holds (R286, R302). -/
def Partition.undrained (x : Partition) : Nat := (x.queue.map Pkt.size).sum

/-- Space of a partition that is spoken for: its undrained content and the packets being assembled (R288). -/
def Partition.fill (x : Partition) : Nat := x.undrained + (x.openPkts.map (fun q => q.2.size)).sum

/-- Size of a partition. -/
def State.partSize (s : State) (p : Nat) : Nat := s.rd64 .OUT_PSIZE p

/-- The largest packet: 64 + 8192 bytes (R272). -/
def maxPkt : Nat := 8256

/-- A producer of plan `id` may write one more record to a destination (R287, R288). -/
def State.mayWrite (s : State) (id dest : Nat) : Bool :=
  s.outp.laid.contains id && (partsOf dest).all (fun p =>
    (s.part p).inUse && decide ((s.part p).fill + maxPkt ≤ s.partSize p))

/-- The partition's registers follow its lists (R302). -/
def State.showPart (s : State) (p : Nat) : State :=
  let x := s.part p
  let next := s.rd64 .OUT_PNEXT p
  let drain := (x.queue.head?.map (·.pseq)).getD next
  let s := (s.wr64 .OUT_PDRAIN p drain).wr64 .OUT_POLD p ((x.retained.head?.map (·.pseq)).getD drain)
  s.wr .OUT_PFILL_MIB p (min (x.undrained / 2 ^ 20) 0xFFFF)

/-- Oldest retained packets are given up until the content fits (R290). -/
def evict (size fill : Nat) : List Pkt → List Pkt
  | [] => []
  | k :: r => if size < fill + ((k :: r).map Pkt.size).sum then evict size fill r else k :: r

/-- The 32-byte descriptor of a zoom packet (R278). -/
def ZoomDesc.bytes (z : ZoomDesc) : List Byte :=
  leBytes 1 z.cset ++ leBytes 1 0 ++ leBytes 2 z.dec ++ leBytes 2 z.skew ++ leBytes 2 z.minc ++ leBytes 8 z.j ++
  leBytes 2 z.unsFirst ++ leBytes 2 z.unsN ++ leBytes 2 z.fadFirst ++ leBytes 2 z.fadN ++ leBytes 8 0

/-- The bytes of a packet that leaves at a device time (R273, R284). -/
def State.pktBytes (s : State) (k : Pkt) (txSec txNs : Nat) : List Byte :=
  let body := (match k.zoom with | some z => z.bytes | none => []) ++ k.payload
  leBytes 2 0x4F47 ++ leBytes 1 1 ++ leBytes 1 k.ptype ++ leBytes 1 s.moduleId ++ leBytes 1 k.pfmt ++
  leBytes 2 k.flags ++ leBytes 8 k.pseq ++ leBytes 8 k.trick ++ leBytes 8 k.start ++ leBytes 6 k.tsec ++
  leBytes 4 k.tns ++ leBytes 6 txSec ++ leBytes 4 txNs ++ leBytes 4 k.first ++ leBytes 2 k.chan ++
  leBytes 2 k.nrec ++ leBytes 2 k.subid ++ leBytes 2 body.length ++ body

/-- HBM places of `n` bytes at place `pos` of a circular partition: (offset, bytes) once or, where the end
is crossed, twice. -/
def State.ringPlaces (s : State) (p pos n : Nat) : List (Nat × Nat) :=
  let base := s.rd64 .OUT_PBASE p - hbmBase
  let rest := s.partSize p - pos
  if n ≤ rest then [(base + pos, n)] else [(base + pos, rest), (base, n - rest)]

/-- Bytes are written at place `pos` of a partition. -/
def State.ringWrite (s : State) (p pos : Nat) (l : List Byte) : State :=
  match s.ringPlaces p pos l.length with
  | [(a, n), (b, _)] => (s.hbmWrite a (l.take n)).hbmWrite b (l.drop n)
  | (a, _) :: _ => s.hbmWrite a l
  | [] => s

/-- A packet is written into a partition: it takes the next PSEQ (R286) and the bytes after the packet
before it. -/
def State.pushPkt (s : State) (p : Nat) (k : Pkt) : State :=
  let n := s.rd64 .OUT_PNEXT p
  let x := s.part p
  let k := { k with pseq := n, pos := x.head }
  let x := { x with queue := x.queue ++ [k], head := (x.head + k.size) % s.partSize p }
  let x := { x with retained := evict (s.partSize p) x.fill x.retained }
  (((s.ringWrite p k.pos (s.pktBytes k 0 0)).setPart p x).wr64 .OUT_PNEXT p (n + 1)).showPart p

/-- Add to a count of a trick in a partition (R279). -/
def State.tallyAdd (s : State) (trick p k n : Nat) : State :=
  let key := 16 * trick + 4 * p + k
  { s with outp := { s.outp with tally := tset 0 s.outp.tally key (tget 0 s.outp.tally key + n) } }

/-- A trick of plan `p` from `a` to `e` is partial: shorter than L, or an open-ended one that a deal or the
end of the counter ends below L_min (R38, R62, R77). -/
def partialTrick (p : ActivePlan) (a e : Nat) : Bool :=
  let l := pL p.data
  if l = 0 then e == lastCounter || (p.ends == some e && decide (e - a < pLmin p.data)) else decide (e - a < l)

/-- A trick is partial. -/
def State.trickPartial (s : State) (trick : Nat) : Bool :=
  match s.tricks.closed.find? (fun k => k.first == trick) with
  | some k => k.isPartial
  | none => match s.planOf trick with
    | some p => partialTrick p trick (s.trickEnd p trick)
    | none => false

/-- A packet of a stream leaves the open list of a partition for its queue (R272, R273). -/
def State.flushPkt (s : State) (p stream : Nat) (last : Bool) : State :=
  let x := s.part p
  match x.openPkts.find? (fun q => q.1 == stream) with
  | none => s
  | some (_, k) =>
    let part := k.flags % 2 == 1 || s.trickPartial k.trick
    let k := { k with flags := k.flags / 2 * 2 + (if part then 1 else 0) + (if last then 128 else 0) }
    let s := (s.setPart p { x with openPkts := x.openPkts.filter (fun q => q.1 != stream) }).pushPkt p k
    if k.ptype = 6 ∨ k.ptype = 7 then s
    else ((s.tallyAdd k.trick p 0 1).tallyAdd k.trick p 1 k.sat).tallyAdd k.trick p 2 k.clamp

/-- Packets begun of a product. -/
def State.prodCount (s : State) (stream : Nat) : Nat := tget 0 s.outp.prod stream
def State.prodNext (s : State) (stream : Nat) : State :=
  { s with outp := { s.outp with prod := tset 0 s.outp.prod stream (s.prodCount stream + 1) } }

/-- The stream has an open packet that `q` holds of. -/
def State.openHas (s : State) (stream : Nat) (q : Pkt → Bool) : Bool :=
  (List.range 3).any (fun p => (s.part p).openPkts.any (fun x => x.1 == stream && q x.2))

/-- A stream's records for a trick end: its packets are closed, the last of each partition marked LAST. -/
def State.endStream (s : State) (stream : Nat) : State :=
  if s.openHas stream (fun _ => true) then
    let s := (forN 3 (fun s p => s.flushPkt p stream true) s).prodNext stream
    { s with outp := { s.outp with kcells := tdel s.outp.kcells stream } }
  else s

/-- The partition that takes the product's present packet (R282). -/
def State.curPart (s : State) (dest stream : Nat) : Nat :=
  if dest = 2 then s.prodCount stream % 2 else if dest = 3 then 2 else dest

/-- TSEC and TNS of a counter (R274). -/
def State.stamp (s : State) (t : Nat) : Nat × Nat :=
  match s.timeOf t with
  | some n => if n / 1000000000 < 2 ^ 48 then (n / 1000000000, n % 1000000000) else (2 ^ 48 - 1, 2 ^ 32 - 1)
  | none => (2 ^ 48 - 1, 2 ^ 32 - 1)

/-- The flag bits that a record gives its packet. -/
def orFlags (a b : Nat) : Nat := a ||| b

/-- Descriptor of a packet once output `d` joins as record number `i` (R278). -/
def ZoomDesc.join (x d : ZoomDesc) (i : Nat) (uns fad : Bool) : ZoomDesc :=
  { x with minc := min x.minc d.minc
           unsFirst := if uns && x.unsN == 0 then i else x.unsFirst, unsN := x.unsN + (if uns then 1 else 0)
           fadFirst := if fad && x.fadN == 0 then i else x.fadFirst, fadN := x.fadN + (if fad then 1 else 0) }

/-- A packet with one more record. -/
def Pkt.append (k : Pkt) (r : Rec) : Pkt :=
  { k with flags := orFlags k.flags r.flags, nrec := k.nrec + 1, payload := k.payload ++ r.bytes,
           sat := k.sat + (if bitOf r.flags 1 then 1 else 0), clamp := k.clamp + r.clamp,
           zoom := match k.zoom, r.zoom with
             | some x, some d => some (x.join d k.nrec (bitOf r.flags 4) (bitOf r.flags 5))
             | z, _ => z }

/-- The settings that a plan gives port `p`; none for the host (R281). -/
def portSet (d : Tbl Byte) (p : Nat) : List Byte := if p < 2 then tgetMany 0 d (2 ^ 32 * 5 + 64 * p) 64 else []

/-- The plan of a stream: the active one, the outgoing one, or one that a trick still follows. -/
def State.streamPlan (s : State) (stream : Nat) : Option ActivePlan :=
  (s.plans.active.toList ++ s.plans.outgoing.toList ++ s.tricks.past ++ s.tricks.closed.map (·.plan)).find?
    (fun p => p.id == stream / 1024)

/-- The packet that a record begins in partition `p` (R273, R281). -/
def State.newPkt (s : State) (p : Nat) (r : Rec) : Pkt :=
  let t := s.stamp r.start
  ({ pseq := 0, ptype := r.ptype, pfmt := r.pfmt, flags := 0, trick := r.trick, start := r.start, tsec := t.1,
     tns := t.2, first := r.first, chan := r.chan, nrec := 0, subid := r.subid, payload := [], cap := r.cap,
     zoom := r.zoom, port := match s.streamPlan r.stream with | some a => portSet a.data p | none => [] } : Pkt).append r

/-- A record may join an open packet: there is room, and a zoom packet states its settings and its run of outputs as well
(R256, R278). -/
def Pkt.takes (k : Pkt) (r : Rec) : Bool :=
  decide (k.nrec < k.cap) &&
  match k.zoom, r.zoom with
  | some x, some d => k.subid == r.subid && k.chan == r.chan && k.pfmt == r.pfmt && x.dec == d.dec && x.skew == d.skew &&
      x.cset == d.cset && d.j == x.j + k.nrec
  | _, _ => true

/-- The packet of a stream in a partition is replaced, or begins. -/
def State.setOpen (s : State) (p stream : Nat) (k : Pkt) : State :=
  let x := s.part p
  s.setPart p { x with openPkts := (stream, k) :: x.openPkts.filter (fun q => q.1 != stream) }

/-- The cells behind the kernel records of a stream's open packet (R336). -/
def State.noteCell (s : State) (r : Rec) (begins : Bool) : State :=
  if r.raw.isEmpty then s
  else
    let old := if begins then [] else tget [] s.outp.kcells r.stream
    { s with outp := { s.outp with kcells := tset [] s.outp.kcells r.stream (old ++ [r]) } }

/-- A record is written to its stream (R272, R277, R282). -/
def State.putRec (s : State) (r : Rec) : State :=
  let s := if s.openHas r.stream (fun k => k.trick != r.trick) then s.endStream r.stream else s
  let s := s.whenS (bitOf r.flags 1 && r.ptype == 1 && !r.counted) (fun s => (s.bump .OUT_SATCNT_COUNT).flag .OUT_EVT_SAT)
  let s := s.whenS (r.clamp != 0) (fun s => (s.bump .OUT_CLAMPCNT_COUNT 0 r.clamp).flag .OUT_EVT_CLAMP)
  let p := s.curPart r.dest r.stream
  match (s.part p).openPkts.find? (fun q => q.1 == r.stream) with
  | none => (s.setOpen p r.stream (s.newPkt p r)).noteCell r true
  | some (_, k) =>
    if k.takes r then (s.setOpen p r.stream (k.append r)).noteCell r false
    else
      let s := s.prodNext r.stream
      let p := s.curPart r.dest r.stream
      ((s.flushPkt p r.stream false).setOpen p r.stream (s.newPkt p r)).noteCell r true

end Sys2Proof.Machine
end

