-- ==== Sys2Proof/Machine/Budget.lean ====
section
/-! DEFINITION. The budgets of admission (R58 to R74): exact rationals over a plan's own figures, the record
rates of each destination (R70) and the split of the output ring (R286). -/

namespace Sys2Proof.Machine

def Q.le (x y : Q) : Bool := decide (x.n * y.d ≤ y.n * x.d)
def Q.ofNat (n : Nat) : Q := ⟨n, 1⟩
/-- A quotient of natural numbers; 0 over nothing. -/
def Q.frac (a b : Nat) : Q := if b = 0 then ⟨0, 1⟩ else ⟨a, b⟩
def Q.sum (l : List Q) : Q := l.foldl Q.add ⟨0, 1⟩
/-- Rounded up, and rounded down, to a natural number. -/
def Q.ceil (x : Q) : Nat := (x.n.toNat + x.d - 1) / x.d
def Q.floor (x : Q) : Nat := x.n.toNat / x.d

/-- f_ch = 10^9 Q ÷ P (R40). -/
def State.fch (s : State) : Q := match s.timeb.map with | some m => .frac (1000000000 * m.q) m.p | none => ⟨0, 1⟩
/-- Time of `n` samples in seconds. -/
def State.secondsOf (s : State) (n : Nat) : Q := match s.timeb.map with | some m => .frac (n * m.p) (1000000000 * m.q) | none => ⟨0, 1⟩
/-- f_slice = N f_ch (R32). -/
def State.fslice (s : State) (d : Tbl Byte) : Q := (Q.ofNat (pN d)).mul s.fch

/-- E (R63): the engines in service are those not retired; one under the self-test of its restore is not back yet (R216). -/
def State.engAvail (s : State) : Nat :=
  if s.on .ENG_GSTAT_HOLD then 0
  else
    let retired := ((List.range 96).filter (fun e => s.rd .ENG_STAT_STATE e == 6 || s.rd .ENG_STAT_STATE e == 1)).length
    min (96 - s.rd .ENG_GCTL_RESERVE) (96 - retired)

/-- Class of the baseline with plain index `k` (R267). -/
def pClass (d : Tbl Byte) (k : Nat) : Nat := if pAvg d then pF d 7 (k / 2) 1 / 16 ^ (k % 2) % 16 else 0
/-- Time and frequency factor of a class: 1 without averaging (R267, R268). -/
def pTf (d : Tbl Byte) (c : Nat) : Nat := if pAvg d then cTf d c else 1
def pFf (d : Tbl Byte) (c : Nat) : Nat := if pAvg d then cFf d c else 1
/-- Baselines of each class. -/
def classCount (d : Tbl Byte) (c : Nat) : Nat :=
  if pAvg d then ((List.range (pBaselines d)).filter (fun k => pClass d k == c)).length
  else if c = 0 then pBaselines d else 0
/-- Classes with at least one baseline. -/
def pClasses (d : Tbl Byte) : List Nat := (List.range 8).filter (fun c => classCount d c != 0)
/-- Bytes of a visibility record (R70, R334). -/
def recBytes (d : Tbl Byte) (kernel : List Byte) : Nat :=
  match pVfmt d with | 0 => 16 | 1 => 12 | 2 => 8 | 3 => 4 * fieldAt kernel 5 1 | _ => 0
def pHasVis (d : Tbl Byte) : Bool := pVfmt d ≤ 3

/-- Record byte rates (R70): destination and bytes per second of each product. -/
def State.rates (s : State) (d : Tbl Byte) (kernel : List Byte) : List (Nat × Q) :=
  let l := pLbudget d
  let per := fun (n : Nat) (bytes : Nat) (div : Nat) => ((Q.frac (n * bytes) div).mul s.fch)
  let vis := if pHasVis d then (pClasses d).map (fun c =>
      (pVdest d, per (classCount d c * (pN d / pFf d c)) (recBytes d kernel) (pTf d c * l))) else []
  let beams := (List.range (pBeams d)).filterMap (fun i =>
    let big := 256 * 2 ^ bLogD d i
    match bDetect d i with
    | 0 => some (bDest d i, per (pN d) (512 + 4) 256)
    | 1 => some (bDest d i, per (pN d) 8 big)
    | 2 => some (bDest d i, per (pN d) 4 big)
    | _ => none)
  let zoom := (List.range 64).filterMap (fun i => if zUse d i = 1 then some (zDest d i, per 1 8 (zDz d i)) else none)
  vis ++ beams ++ zoom

/-- Rate of a partition: a product to both ports counts half against each (R70). -/
def partRate (rs : List (Nat × Q)) (p : Nat) : Q :=
  Q.sum (rs.filterMap (fun r => if (partsOf r.1).contains p then some (r.2.mul (.frac 1 (partsOf r.1).length)) else none))
def allRate (rs : List (Nat × Q)) : Q := Q.sum (rs.map Prod.snd)
/-- Partitions in use (R286). -/
def partsUsed (rs : List (Nat × Q)) : List Nat := (List.range 3).filter (fun p => rs.any (fun r => (partsOf r.1).contains p))

/-- Sizes of the partitions in MiB (R286): proportional to the rates, rounded down, at least 64; the one
with the largest rate, the lowest-numbered on a tie, takes the remainder. -/
def ringSplit (ringMiB : Nat) (rs : List (Nat × Q)) : List (Nat × Nat) :=
  let ps := partsUsed rs
  let all := allRate rs
  let r := fun p => partRate rs p
  let share := fun p => max 64 (if all.n = 0 then 0 else ((Q.ofNat ringMiB).mul ((r p).mul ⟨all.d, all.n.toNat⟩)).floor)
  match ps with
  | [] => []
  | p0 :: rest =>
    let big := rest.foldl (fun b p => if (r p).le (r b) then b else p) p0
    let used := ((ps.filter (· != big)).map share).sum
    ps.map (fun p => (p, if p = big then ringMiB - used else share p))

/-- Bytes in whole MiB, rounded up. -/
def mib (n : Nat) : Nat := ceilDiv n (2 ^ 20)

/-- Some beam of the plan uses table weights (delay polynomials). -/
def usesTable (d : Tbl Byte) : Bool := (List.range (pBeams d)).any (fun i => bSource d i == 0)
def usesPoly (d : Tbl Byte) : Bool := (List.range (pBeams d)).any (fun i => bSource d i == 1)

/-- Averaging buffer G in bytes (R65). -/
def avgBytes (d : Tbl Byte) : Nat :=
  16 * ((List.range 8).map (fun c => if 1 < pTf d c then classCount d c * (pN d / pFf d c) else 0)).sum
def accBytes (d : Tbl Byte) : Nat := 2 * pH d * 65536 * pN d
def deckBytes (d : Tbl Byte) : Nat := 2 * 64 * pNg d * pS d * pN d * pB d

/-- Built plans, and whether table (polynomial) sets are allocated (R231). -/
def State.builtPlans (s : State) : List (Tbl Byte) :=
  (List.range 4).filterMap (fun i => if (s.slot i).built then some (s.slot i).shadow else none)
def State.tableAlloc (s : State) : Bool := s.builtPlans.any usesTable
def State.polyAlloc (s : State) : Bool := s.builtPlans.any usesPoly

/-- MiB of the weight regions counted with a plan: those it needs and those already allocated (R65, R231). -/
def State.weightMiB (s : State) (d : Tbl Byte) : Nat :=
  if usesTable d || s.tableAlloc then 1024 else if usesPoly d || s.polyAlloc then 128 else 0

/-- M: the total of R65 in MiB. -/
def State.capacity (s : State) (d : Tbl Byte) : Nat :=
  mib (accBytes d) + mib (deckBytes d) + s.weightMiB d + mib (avgBytes d) +
  (if pBias d then mib (8 * pBaselines d) else 0) + 1024 * s.plans.ringGib + 1024

/-- Limit of R65 in MiB. -/
def capLimit : Nat := 120 * 1024

/-- Bytes per second of R67: reads + 6/5 writes. -/
def State.bandwidth (s : State) (d : Tbl Byte) (kernel : List Byte) : Q :=
  let fs := s.fslice d
  let deck := (Q.ofNat (64 * pNg d * pB d)).mul fs
  let mergeQ := (Q.frac (pH d * 65536) (pS d)).mul fs
  let exportQ := (Q.frac (pH d * 65536) (pLbudget d)).mul fs
  let ring := allRate (s.rates d kernel)
  let wts := (Q.frac (pK d * 64 * 64 * pNg d * 2) (pS d)).mul fs
  let avg := (Q.frac (2 * avgBytes d) (pLbudget d)).mul s.fch
  let w := Q.sum [deck, mergeQ, ring, avg]
  let r := Q.sum [deck, mergeQ, exportQ, ring, wts, avg]
  r.add (w.mul ⟨6, 5⟩)

/-- Sum of the weights of the lanes in service of every bundle, in twentieths of 100 Gbit/s: the capacity of R68 (R81). -/
def State.ingestWeight (s : State) : Nat :=
  ((List.range 5).map (fun b => if s.bundleUp b then s.bundleWeight b else 0)).sum

/-- Ingest demand in bit/s (R68). -/
def State.ingest (s : State) (d : Tbl Byte) : Q := (Q.frac (64 * pNg d * pB d * 8 * 8292) 8192).mul (s.fslice d)

/-- Export time in seconds (R71, R334). -/
def State.exportTime (s : State) (d : Tbl Byte) (kernel : List Byte) : Q :=
  let read := Q.frac (pH d * 65536 * pN d) 160000000000
  let e := s.engAvail
  let steps := ((pClasses d).map (fun c => ceilDiv (classCount d c) 16 * (pN d / pFf d c) * (fieldAt kernel 6 2 + 8))).sum
  let t := if pVfmt d = 3 ∧ e ≠ 0 then
      let k := Q.frac steps (350000000 * e)
      if read.le k then k else read
    else read
  t.add ⟨5, 1000⟩

/-- Width of the host link: as trained, and x8 where PCIEW was latched 0 (R71, R500). -/
def State.hostWidth (s : State) : Nat := if s.on .MOD_STRAP_PCIEW then s.modl.pciWidth else min 8 s.modl.pciWidth

/-- Limits of the host link in bit/s (R71). -/
def State.hostLimit (s : State) : Q := .frac (640000000000 * s.modl.pciRate * s.hostWidth) (64 * 16)

/-- The bound of R73: the largest multiple of S at or below the limit of the format. -/
def lengthBound (d : Tbl Byte) : Nat :=
  (if pFmt d = 0 then 549755813632 else 4362870864) / pS d * pS d
/-- The longest accumulation in samples that a fixed L asks for: t_f f_f L over all eight classes, whether or not a
baseline names them (R73, R270). -/
def lengthNeed (d : Tbl Byte) : Nat :=
  if pL d = 0 then 0 else ((List.range 8).map (fun c => pTf d c * pFf d c * pL d)).foldl max (pL d)

/-- A budget: its code, required and available figure, and whether it holds. -/
structure Budget where
  code : Nat
  need : Nat
  have_ : Nat
  ok : Bool
  deriving DecidableEq, Repr

/-- The parts of budget 6 (R71): each port, the host, and the export time in µs. -/
def State.egress (s : State) (d : Tbl Byte) (kernel : List Byte) : List Budget :=
  let rs := s.rates d kernel
  let port := fun p =>
    let x := (partRate rs p).mul ⟨816, 100⟩
    (⟨6, (x.mul ⟨1, 1000000000⟩).ceil, 400, x.le (.ofNat 400000000000)⟩ : Budget)
  let h := (partRate rs 2).mul (.ofNat 8)
  let host : Budget := ⟨6, (h.mul ⟨1, 1000000000⟩).ceil, (s.hostLimit.mul ⟨1, 1000000000⟩).floor, h.le s.hostLimit⟩
  let t := s.exportTime d kernel
  let l := s.secondsOf (pLbudget d)
  let kernelOk := pVfmt d != 3 || s.engAvail != 0
  let time : Budget := ⟨6, (t.mul (.ofNat 1000000)).ceil, (l.mul (.ofNat 1000000)).floor, t.le l && kernelOk⟩
  [port 0, port 1, host, time]

/-- Bytes of a table set and the largest that is allowed (R74, R231). -/
def setBytes (d : Tbl Byte) : Nat := (tableIdentsOf d).length * 64 * pNg d * pN d * 2
where
  tableIdentsOf (d : Tbl Byte) : List Nat := (List.range (pBeams d)).filter (fun i => bSource d i == 0)
def State.setLimit (s : State) (d : Tbl Byte) : Nat := if usesPoly d || s.polyAlloc then 448 else 512

/-- The compute budget (R64, R195): the work fits the engines' cycles, and no engine needs more than 27 units. The
available figure is the smaller of the two limits. -/
def State.computeBudget (s : State) (d : Tbl Byte) : Budget :=
  let fs := s.fslice d
  let work := pFac d * pU d * 260
  let e := s.engAvail
  -- cycles per sample, × 1000
  let cyc : Q := .frac (work * 1000) 256
  let got : Q := if fs.n = 0 then ⟨0, 1⟩ else ⟨(e * 1400000000000 * fs.d : Nat), fs.n.toNat⟩
  let held : Q := .frac (1000 * pFac d * 27 * e * 260) 256
  ⟨2, cyc.ceil, (if got.le held then got else held).floor,
    ((Q.ofNat work).mul fs).le (.ofNat (256 * e * 1400000000)) && decide (pU d ≤ 27 * e)⟩

/-- The eight budgets in the order of R58. `extra` is what R66 adds to the capacity at a deal, in half MiB: the plan
must pass R65 and the sum of R66. DESIGN CHOICE (log 25), on which the manual is silent: a required figure that is no
whole number of its unit is rounded up and an available one down; of the four parts of budget 6 the first that fails is
shown, or, when all pass, the port with the larger rate. -/
def State.budgets (s : State) (d : Tbl Byte) (kernel : List Byte) (extra : Int) : List Budget :=
  let cap := max (s.capacity d) (ceilDiv (2 * (s.capacity d : Int) + extra).toNat 2)
  let bw := s.bandwidth d kernel
  let ing := s.ingest d
  let q := s.ingestWeight
  let eg := s.egress d kernel
  let worst := (eg.find? (fun b => !b.ok)).getD ((eg.take 2).foldl (fun a b => if a.need < b.need then b else a) (eg.headD ⟨6, 0, 0, true⟩))
  let zq := (Q.ofNat ((List.range 64).filter (fun i => zUse d i == 1)).length).mul s.fch
  [⟨1, lengthNeed d, lengthBound d, decide (lengthNeed d ≤ lengthBound d)⟩,
   s.computeBudget d,
   ⟨3, cap, capLimit, decide (cap ≤ capLimit)⟩,
   ⟨4, (bw.mul ⟨1, 1000000000⟩).ceil, 3600, bw.le (.ofNat 3600000000000)⟩,
   ⟨5, (ing.mul ⟨1, 1000000000⟩).ceil, 5 * q, ing.le (.ofNat (5000000000 * q))⟩,
   worst,
   ⟨7, zq.ceil, 51200000, zq.le (.ofNat 51200000)⟩,
   ⟨8, mib (setBytes d), s.setLimit d, decide (mib (setBytes d) ≤ s.setLimit d)⟩]

/-- What R66 adds at a deal, in half MiB: − A(in) − D(in) + A(out) + D(out) + 2 G(out). -/
def dealExtra (din : Tbl Byte) (out : Option (Tbl Byte)) : Int :=
  match out with
  | none => 0
  | some o => (mib (accBytes o) : Int) + mib (deckBytes o) + 2 * mib (avgBytes o) - mib (accBytes din) - mib (deckBytes din)

/-- The flags of R61. -/
def State.limitFlags (s : State) (d : Tbl Byte) (kernel : List Byte) : Nat :=
  let rs := s.rates d kernel
  let trickOut := (allRate rs).mul (s.secondsOf (pLbudget d))
  (if pL d = 0 then 1 else 0) + (if s.rd .ENG_GCTL_RESERVE < 8 then 2 else 0) +
  (if (partsUsed rs).contains 2 && (s.hostWidth < 16 || s.modl.pciRate < 64) then 4 else 0) +
  (if trickOut.le (.ofNat (s.plans.ringGib * 2 ^ 30)) then 0 else 8)

end Sys2Proof.Machine
end

