-- ==== Sys2Proof/Machine/DmaCtl.lean ====
section
/-! DEFINITION. What register writes do to the DMA channels (R455, R463 to R466, R469), the halt of a bus error, and
the fabric's own control registers (R446, R449). -/

namespace Sys2Proof.Machine

/-! ### DMA channel states and status codes (R461, R469) -/
def dcIdle : Nat := 0
def dcFetch : Nat := 1
def dcMove : Nat := 2
def dcHalted : Nat := 3
def dcDone : Nat := 4
def dsDone : Nat := 0
def dsDoneErr : Nat := 1
def dsHalted : Nat := 2
def dsAborted : Nat := 3
def dsDescErr : Nat := 4

/-- A channel is fetching or moving. -/
def State.dmaBusy (s : State) (c : Nat) : Bool := let x := s.rd .DMA_CSTAT_STATE c; x == dcFetch || x == dcMove

/-- Channel 15 belongs to host delivery (R297, R455). -/
def State.dmaReserved (s : State) (c : Nat) : Bool := c == 15 && s.on .OUT_HCTL_EN

/-- A channel fetches the descriptor at an address. -/
def State.fetchAt (s : State) (c addr : Nat) : State := (s.wr .DMA_CSTAT_STATE c dcFetch).wr64 .DMA_CCUR c addr

/-- A channel ends with a status code and stops. -/
def State.stopChan (s : State) (c status st : Nat) : State := (s.wr .DMA_CSTAT_LAST c status).wr .DMA_CSTAT_STATE c st

/-- `DMA_CCTL.START` (R465, R469): a channel that ended DONE_ERR waits for a write of its descriptor address. -/
def State.dmaStart (s : State) (c : Nat) : State :=
  if s.dmaReserved c then s.flag .DMA_EVT_RSVDWR
  else
    let st := s.rd .DMA_CSTAT_STATE c
    if (st = dcIdle ∨ st = dcDone) ∧ !(s.dmac c).stuck then (s.fetchAt c (s.rd64 .DMA_CDESC c)).setDmac c {} else s

/-- A write-back (R456, R461) waits at its target: it is made as soon as nothing holds it. -/
def State.queueBack (s : State) (c : Nat) (d : Desc) (status moved : Nat) : State :=
  let a : Access := { master := 2, addr := BitVec.ofNat 40 (s.rd64 .DMA_CCUR c + 48), size := 8, secure := false, handler := false,
                      portB := false, contended := false, fetch := false }
  let h : HeldAccess := { acc := a, type := 1, data := leBytes 4 status ++ leBytes 4 moved, dma := true }
  if bitOf d.ctl 4 then { s with fab := { s.fab with held := s.fab.held ++ [h] } } else s

/-- `DMA_CCTL.ABORT` (R466): a moving channel stops at the end of its burst; one that fetches, or is halted, holds
no burst and stops at once, a halted one with its write-back. -/
def State.dmaAbort (s : State) (c : Nat) : State :=
  if s.dmaReserved c then s.flag .DMA_EVT_RSVDWR
  else
    let st := s.rd .DMA_CSTAT_STATE c
    if st = dcMove then s.setDmac c { s.dmac c with aborting := true }
    else if st = dcFetch then (s.stopChan c dsAborted dcIdle).setDmac c {}
    else if st = dcHalted then
      let x := s.dmac c
      let s := match x.desc with | some d => s.queueBack c d dsAborted x.moved | none => s
      (s.stopChan c dsAborted dcIdle).setDmac c {}
    else s

/-- A halted channel restarts its descriptor from its first byte, with the CRC seeded as at its start (R465). -/
def State.restartDesc (s : State) (c : Nat) : State :=
  if s.rd .DMA_CSTAT_STATE c ≠ dcHalted then s
  else
    let x := s.dmac c
    match x.desc with
    | some d =>
      let s := (s.wr .DMA_CSTAT_STATE c dcMove).setDmac c { x with moved := 0, funnel := [] }
      (s.wr .DMA_CLEFT_BYTES c d.count).wr .DMA_CCRC_CRC c (x.seed ^^^ 0xFFFFFFFF)
    | none => s.wr .DMA_CSTAT_STATE c dcFetch

/-- The engine resumes after a halt (R465). -/
def State.dmaResume (s : State) : State :=
  if s.on .DMA_GSTAT_HALTED then (forN 16 (fun s c => s.restartDesc c) (s.wr .DMA_GSTAT_HALTED 0 0)).bump .DMA_HALTCNT_COUNT
  else s

/-- The engine halts (R463, R464): every channel that was fetching or moving takes status HALTED; host delivery
repeats its packet from the start (R465). -/
def State.dmaHalt (s : State) (addr type : Nat) (last collide : Bool) : State :=
  let s := forN 16 (fun s c => if s.dmaBusy c then s.stopChan c dsHalted dcHalted else s) s
  let s := if 0 < (s.dmac 15).moved && s.dmaReserved 15 then (s.wr .DMA_CSTAT_LAST 15 dsHalted).setDmac 15 {} else s
  let s := ((s.wr64 .DMA_ERRADDR 0 addr).wr .DMA_ERRINFO_TYPE 0 type).put .DMA_ERRINFO_LASTBEAT 0 last
  let s := ((s.put .DMA_ERRINFO_COLLIDE 0 collide).wr .DMA_GSTAT_HALTED 0 1).flag .DMA_EVT_HALT
  s.event 10 0x0A01 0 0 (addr % 2 ^ 40 + 2 ^ 40 * (type % 16) + (if last then 2 ^ 44 else 0))

/-- A bus error (R462, R463, R473). -/
def State.busError (s : State) (addr type : Nat) (collide : Bool) : State :=
  (s.dmaHalt addr type false collide).raise (mkFault srcDma 1 1 addr 2 type)

/-- DMA_START (R469). -/
def execDmaStart (c : DmaChan) (s : State) : Host.Outcome State Fault Refusal := .next (s.dmaStart c.val)

/-- DMA_RESUME (R465). -/
def execDmaResume (s : State) : Host.Outcome State Fault Refusal := .next s.dmaResume

/-- AUTORES (R465): 10 ms after a halt, when `DMA_GCTL.AUTORES` is 1. -/
def execAutores (s : State) : Host.Outcome State Fault Refusal := .next (s.whenS (s.on .DMA_GCTL_AUTORES) (·.dmaResume))

/-- BUS_ERROR (R462, R463). -/
def execBusError (addr : BitVec 40) (ty : BitVec 4) (collide : Bool) (s : State) : Host.Outcome State Fault Refusal :=
  .next (s.busError addr.toNat ty.toNat collide)

/-! ### Fabric control (R446, R449) -/

/-- Size of the HBM data space (R401). -/
def hbmSize : Nat := 1024 * hbmLines

/-- A value that `FAB_APBASE` takes (R446). -/
def State.apertureOk (s : State) (v : Nat) : Bool :=
  let n := 2 ^ s.rd .FAB_APSIZE_LOG2
  decide (v % n = 0) && decide (v + n ≤ hbmSize)

/-- A write of `FAB_APBASE` (R446). -/
def State.setAperture (s : State) (v : Nat) : State := if s.apertureOk v then s.wr64 .FAB_APBASE 0 v else s.flag .FAB_EVT_APREJ

/-- FAB_APBASE (R446). -/
def execFabApbase (v : BitVec 64) (s : State) : Host.Outcome State Fault Refusal := .next (s.setAperture v.toNat)

/-- A write of `FAB_CTL.REMAP` by a master (R449): the management core changes it from 0 to 1, nothing else does. -/
def State.writeRemap (s : State) (m : Nat) (v : Bool) : State := if m = 1 && v then s.wr .FAB_CTL_REMAP 0 1 else s

/-- REMAP (R449). -/
def execRemap (m : Byte) (v : Bool) (s : State) : Host.Outcome State Fault Refusal := .next (s.writeRemap m.toNat v)

end Sys2Proof.Machine
end

