-- ==== Sys2Proof/Machine/Beams.lean ====
section
/-! DEFINITION. Beams (R224 to R246) and weight sets (R226 to R235): the weights of a range, beam sums and
their detection, weight commands and their hand-over. -/

namespace Sys2Proof.Machine

/-! ### Beams of a plan (R224, R225) -/

/-- Identities of the plan's beams, ascending: place β holds beam index β. -/
def beamIdents (d : Tbl Byte) : List Nat := sortAsc ((List.range (pBeams d)).map (bIdent d))
/-- Entry of the BEAMS section that beam index `β` has. -/
def beamEntry (d : Tbl Byte) (b : Nat) : Nat :=
  let id := (beamIdents d).getD b 0
  (List.range (pBeams d)).findIdx (fun i => bIdent d i == id)
/-- Identities of the table beams, ascending (R226). -/
def tableIdents (d : Tbl Byte) : List Nat :=
  sortAsc (((List.range (pBeams d)).filter (fun i => bSource d i == 0)).map (bIdent d))
/-- Geometry (n, N, B_t) of a plan, as BMF_TGEOM packs it (R227, R257). -/
def geomWord (n ch b : Nat) : Nat := n + 2 ^ 7 * ch + 2 ^ 18 * b
def planGeom (d : Tbl Byte) : Nat := geomWord (pNg d) (pN d) (tableIdents d).length
/-- TGEOM and TGEOMA as whole registers. -/
def tgeom : Fld := ⟨0x700028, 0, 0, 32⟩
def tgeomA : Fld := ⟨0x70002c, 0, 0, 32⟩

/-- First counter of the trick that holds counter `t`, sought from the trick that begins at `c` on (R36, R37). Sums run
at most a few ranges ahead of the trick that is open. -/
def State.trickFrom (s : State) (t : Nat) : Nat → Nat → Nat
  | 0, c => c
  | n + 1, c => match s.planOf c with
    | some p =>
      let e := s.trickEnd p c
      if t < e then c else match s.nextTrick e with | some a => s.trickFrom t n a | none => c
    | none => c

/-- First counter of the trick that holds counter `t` (R37). -/
def State.trickAt (s : State) (t : Nat) : Nat := match s.tricks.cur with | none => 0 | some c => s.trickFrom t 8 c

/-! ### Weights of a range (R51 to R53, R226 to R229) -/

/-- Of two sets that exchange roles at each hand-over, the one that was active at counter `t`; `act` is now (R232). -/
def setAt (act t : Nat) (ds : List Nat) : Nat := if (ds.filter (t < ·)).length % 2 = 0 then act else 1 - act

/-- Physical table (polynomial) set that range `t` uses: that active at its first counter (R232, R234). -/
def State.tableSet (s : State) (t : Nat) : Nat := setAt (s.rd .BMF_STAT_TACT) t s.beams.tLock
def State.polySet (s : State) (t : Nat) : Nat := setAt (s.rd .BMF_STAT_PACT) t s.beams.pLock

/-- HBM offset of a physical set. -/
def State.tableBase (s : State) (i : Nat) : Nat := s.rd64 (if i = 0 then .BMF_TBASE0 else .BMF_TBASE1) - hbmBase
def State.polyBase (s : State) (i : Nat) : Nat := s.rd64 (if i = 0 then .BMF_PBASE0 else .BMF_PBASE1) - hbmBase

/-- t_ref in ns of the polynomial set that range `t` uses (R228). -/
def State.polyRef (s : State) (t : Nat) : Nat :=
  if s.polySet t = s.rd .BMF_STAT_PACT then s.rd64 .BMF_PTREFA * 1000000000 + s.rd .BMF_PTREFANS_NS
  else s.rd64 .BMF_PTREF * 1000000000 + s.rd .BMF_PTREFNS_NS

/-- The phase of R229. -/
def polyPhase (f0 sp c : Nat) (tau0 tau1 dt : Int) : Nat :=
  let tau := tau0 + rhu (tau1 * dt) (2 ^ 24 * 1000000000)
  ((rhu ((f0 + c * sp : Nat) * tau) (2 ^ 40)) % 65536).toNat

/-- Weight of beam index `b` for position `i` of compact group `g` in channel `ch` of range `t`; weights of a
poisoned line are taken as 0 (R226, R229, R415). -/
def State.weight (s : State) (p : ActivePlan) (t ch b g i : Nat) : Int × Int :=
  let d := p.data
  let e := beamEntry d b
  if bSource d e = 0 then
    let bt := (tableIdents d).findIdx (· == bIdent d e)
    let o := s.tableBase (s.tableSet t) + ((ch * pNg d + g) * (tableIdents d).length + bt) * 128 + 2 * i
    if s.hbmPoisoned o 2 then (0, 0)
    else let w := leVal (s.hbmRead o 2); (signed 8 w, signed 8 (w / 256))
  else
    let sig := 64 * (pGroups d).getD g 0 + i
    let o := s.polyBase (s.polySet t) + (bIdent d e * 4096 + sig) * 16
    if s.hbmPoisoned o 16 then (0, 0)
    else
      let l := s.hbmRead o 16
      let tm := (s.timeOf (t + pS d / 2)).getD 0
      let ph := polyPhase (pF0 d) (pSp d) (pChanOf d ch) (signed 48 (fieldAt l 0 6)) (signed 48 (fieldAt l 6 6))
        ((tm : Int) - s.polyRef t)
      polyWeight (fieldAt l 12 1) ph

/-- HBM places, offset and bytes, of the weights of a beam in a range channel (R226, R228). -/
def State.weightPlaces (s : State) (p : ActivePlan) (t ch b : Nat) : List (Nat × Nat) :=
  let d := p.data
  let e := beamEntry d b
  (List.range (pNg d)).map (fun g =>
    if bSource d e = 0 then
      let bt := (tableIdents d).findIdx (· == bIdent d e)
      (s.tableBase (s.tableSet t) + ((ch * pNg d + g) * (tableIdents d).length + bt) * 128, 128)
    else (s.polyBase (s.polySet t) + (bIdent d e * 4096 + 64 * (pGroups d).getD g 0) * 16, 1024))

/-- Some line of the weights of a beam in a range channel is poisoned. -/
def State.weightBad (s : State) (p : ActivePlan) (t ch b : Nat) : Bool :=
  (s.weightPlaces p t ch b).any (fun x => s.hbmPoisoned x.1 x.2)

/-- The weights of a beam are read, once for the range channel (R226, R229, R403). -/
def State.readWeights (s : State) (p : ActivePlan) (t ch b : Nat) : State :=
  (s.weightPlaces p t ch b).foldl (fun s x => s.linesRead x.1 x.2) s

/-! ### Sums (R236, R237, R54) -/

/-- Complex product. -/
def cmul (w x : Int × Int) : Int × Int := (w.1 * x.1 - w.2 * x.2, w.1 * x.2 + w.2 * x.1)
def cadd (x y : Int × Int) : Int × Int := (x.1 + y.1, x.2 + y.2)

/-- Weights of a beam over the 64 n compact signals. -/
def State.weights (s : State) (p : ActivePlan) (t ch b : Nat) : List (Int × Int) :=
  (List.range (64 * pNg p.data)).map (fun q => s.weight p t ch b (q / 64) (q % 64))

/-- B(β, ℓ, t) over the 256 samples of a run, exactly (R51, R237). -/
def State.beamRun (s : State) (p : ActivePlan) (t ch b run : Nat) : List (Int × Int) :=
  let ws := s.weights p t ch b
  let xs := (List.range (pNg p.data)).flatMap (fun g => s.engineRun p t ch g run)
  let wx := List.zip ws xs
  (List.range 256).map (fun i => wx.foldl (fun a q => cadd a (cmul q.1 (q.2.getD i (0, 0)))) (0, 0))

/-- Signals of nonzero weight that were valid in the run (R54, R236). -/
def State.beamCount (s : State) (p : ActivePlan) (t ch b run : Nat) : Nat :=
  let ws := s.weights p t ch b
  ((List.range (64 * pNg p.data)).filter (fun q =>
    bitOf (tget 0 s.deck.valid (2 ^ 16 * chanKey t ch + 2 ^ 8 * (q / 64) + run)) (q % 64) &&
    ws.getD q (0, 0) != (0, 0))).length

/-! ### Detection (R241 to R246) -/

/-- Whether every component fits at block exponent `e`: −255 2^(e−1) ≤ v < 255 2^(e−1) (R241). -/
def expFits (e : Nat) (xs : List (Int × Int)) : Bool :=
  xs.all (fun x => [x.1, x.2].all (fun v => decide (-(255 * 2 ^ e : Nat) ≤ 2 * v ∧ 2 * v < (255 * 2 ^ e : Nat))))

/-- The block exponent (R241). -/
def blockExp (xs : List (Int × Int)) : Nat := ((List.range 32).find? (fun e => expFits e xs)).getD 31

/-- A voltage block: side word, then 256 C8 samples (R241, R242, R276). -/
def voltageBytes (xs : List (Int × Int)) (count : Nat) : List Byte :=
  let e := if count = 0 then 0 else blockExp xs
  leBytes 4 (e + 256 * count) ++
  xs.flatMap (fun x => leBytes 1 (code 8 (rhu x.1 (2 ^ e))) ++ leBytes 1 (code 8 (rhu x.2 (2 ^ e))))

/-- A P32 (U16L) unit with its side word (R242, R245, R246). -/
def p32Bytes (p lo hi : Nat) : List Byte := leBytes 4 (narrow fp32 ⟨p, 1⟩).1 ++ leBytes 4 (lo + 2 ^ 13 * hi)
def u16Bytes (p lo hi : Nat) : List Byte := leBytes 2 (logCode p) ++ leBytes 2 (lo + if lo = hi then 0 else 2 ^ 13)

/-- Stream of a detection mode, power unit and destination (log 12). -/
def beamStream (detect logD dest : Nat) : Nat := 100 + 64 * detect + 4 * logD + dest

/-- Room for every record of a block in its partitions: at most one packet per beam (R288, log 12). -/
def State.blockRoom (s : State) (p : ActivePlan) (block : Nat) : Bool :=
  let d := p.data
  (List.range 64).all (fun r =>
    let b := 64 * block + r
    b ≥ pBeams d || bDetect d (beamEntry d b) == 3 ||
    (s.outp.laid.contains p.id && (partsOf (bDest d (beamEntry d b))).all (fun q =>
      (s.part q).inUse && decide ((s.part q).fill + 64 * maxPkt ≤ s.partSize q))))

/-- Flags of a record that is written while its trick runs. -/
def openFlag (d : Tbl Byte) : Nat := if pL d = 0 then 64 else 0

/-- The sum `xs` of one beam and run, with its count `n`, goes to its detection (R241 to R246). -/
def State.detect (s : State) (p : ActivePlan) (t ch run b : Nat) (xs : List (Int × Int)) (n : Nat) : State :=
  let d := p.data
  let e := beamEntry d b
  let dest := bDest d e
  let at0 := t + 256 * run
  let base : Rec := { dest := dest, stream := 0, ptype := 0, pfmt := 0, trick := s.trickAt at0, start := at0,
                      first := b, chan := ch, subid := 0, flags := openFlag d, bytes := [] }
  match bDetect d e with
  | 0 => s.putRec { base with stream := streamOf p (beamStream 0 0 dest), ptype := 2, bytes := voltageBytes xs n, cap := 15 }
  | 3 => s
  | m =>
    let logD := bLogD d e
    let len := 256 * 2 ^ logD
    let k := 1024 * b + ch
    let z := s.beams
    let first := at0 % len == 0
    let tot := (if first then 0 else tget 0 z.power k) + (xs.map powerOf).sum
    let lo := if first then n else min (tget 0 z.pmin k) n
    let hi := if first then n else max (tget 0 z.pmax k) n
    let s := { s with beams := { z with power := tset 0 z.power k tot, pmin := tset 0 z.pmin k lo,
                                        pmax := tset 0 z.pmax k hi } }
    if (at0 + 256) % len ≠ 0 then s
    else
      let r := { base with stream := streamOf p (beamStream m logD dest), pfmt := logD, start := at0 + 256 - len }
      if m = 1 then s.putRec { r with ptype := 3, bytes := p32Bytes tot lo hi, cap := 1024 }
      else s.putRec { r with ptype := 4, bytes := u16Bytes tot lo hi, cap := 2048 }

/-- Counter after the last run of (block, ch) emitted to detection (R239). -/
def State.detMark (s : State) (block ch : Nat) : Nat := tget 0 s.beams.mark (1024 * block + ch)

/-- Beams of a block that the plan holds. -/
def blockBeams (d : Tbl Byte) (block : Nat) : List Nat :=
  (List.range 64).filterMap (fun r => if 64 * block + r < pBeams d then some (64 * block + r) else none)

/-- A sum formed again is discarded by a consumer (R239). -/
def State.discardSum (s : State) (n : Nat) : State :=
  if n = 0 then s else (s.bump .BMF_REDISC_COUNT 0 n).flag .BMF_EVT_REDISC

/-- The sums of a block and run go to detection, unless its mark has passed the run (R239). -/
def State.toDetection (s : State) (p : ActivePlan) (t ch block run : Nat) : State :=
  let d := p.data
  let bs := (blockBeams d block).filter (fun b => bDetect d (beamEntry d b) != 3)
  if t + 256 * run < s.detMark block ch then s.discardSum bs.length
  else
    let sums := bs.map (fun b => (b, s.beamRun p t ch b run, s.beamCount p t ch b run))
    let s := sums.foldl (fun s x => s.detect p t ch run x.1 x.2.1 x.2.2) s
    { s with beams := { s.beams with mark := tset 0 s.beams.mark (1024 * block + ch) (t + 256 * (run + 1)) } }

/-! ### Zoom inputs (R237, R247, R252, R255) -/

/-- A slot takes the sums of beam identity `id` in channel `ch`. -/
def ZoomSlot.fedBy (x : ZoomSlot) (id ch : Nat) : Bool := x.inUse && x.beam == id && x.chan == ch

/-- The slot's pending change will take the sums of beam identity `id` in channel `ch` that end at `ends` (R252). -/
def ZoomSlot.feedsNext (x : ZoomSlot) (id ch ends : Nat) : Bool :=
  match x.pend with
  | some q => q.use && q.set.beam.toNat == id && q.set.chan.toNat == ch && decide (q.c < ends) && !x.fedBy id ch
  | none => false

/-- A change after the pending one will take these sums: the pending one takes effect first (R252). -/
def ZoomSlot.waitsLater (x : ZoomSlot) (id ch ends : Nat) : Bool :=
  x.later.any (fun q => q.use && q.set.beam.toNat == id && q.set.chan.toNat == ch && decide (q.c < ends))

/-- A slot that takes these sums has an output to form first, or a change to make: the zoom engine waits (R288). -/
def State.zoomWaits (s : State) (id ch ends : Nat) : Bool :=
  (List.range 64).any (fun k =>
    let x := s.zslot k
    ((x.fedBy id ch || x.feedsNext id ch ends) && ZoomSlot.ready k x) || x.waitsLater id ch ends)

/-- A run of sums enters a slot, unless its input mark has passed it (R239). A run before the slot's start in its beam and
channel is no input of it, and none is discarded (R252). -/
def State.feedSlot (s : State) (k at0 : Nat) (xs : List (Int × Int)) (count : Nat) : State :=
  let x := s.zslot k
  if at0 + 256 ≤ x.startAt then s
  else if at0 + 256 ≤ x.inMark then s.discardSum 1
  else
    let skip := x.inMark - at0
    s.setZslot k { x with fifo := x.fifo ++ xs.drop skip, inMark := at0 + 256,
                          fifoAt := if x.fifo.isEmpty then at0 + skip else x.fifoAt,
                          counts := x.counts ++ [(at0 + 256, count)] }

/-- A run of sums is kept for the pending change of a slot, from its counter on (R252). -/
def State.feedNext (s : State) (k at0 : Nat) (xs : List (Int × Int)) (count : Nat) : State :=
  let x := s.zslot k
  let m := max x.nextMark ((x.pend.map (·.c)).getD 0)
  if at0 + 256 ≤ m then s.discardSum 1
  else s.setZslot k { x with nextFifo := x.nextFifo ++ xs.drop (m - at0), nextMark := at0 + 256,
                             nextCounts := x.nextCounts ++ [(at0 + 256, count)] }

/-- A checkpoint counter of a slot lies in a released range channel of its channel (R255). -/
def State.ckptReleased (s : State) (x : ZoomCkpt) : Bool :=
  match s.planAt (x.c - 1) with
  | some p => decide (x.c ≤ s.releasedTo p x.slot.chan)
  | none => true

/-- The checkpoint that a warm reset restores: that of the latest released range channel, or a later start (R255). -/
def State.ckptOf (s : State) (k : Nat) : Option ZoomCkpt :=
  (tget [] s.beams.ckpt k).find? (fun x => x.start || s.ckptReleased x)

/-- A checkpoint of a slot at counter `e` is written; those before the one that a reset would restore are given up. -/
def State.checkpoint (s : State) (k e : Nat) (start : Bool) : State :=
  let l := tget [] s.beams.ckpt k
  let keep := match s.ckptOf k with | some y => l.filter (fun x => decide (y.c ≤ x.c)) | none => l
  { s with beams := { s.beams with ckpt := tset [] s.beams.ckpt k (⟨e, start, s.zslot k⟩ :: keep) } }.lineFresh
    (Config.sysLine k).toNat

/-- The sums of a beam and run go to every zoom slot that takes them; after the last run of the range
channel the slot's checkpoint is written (R237, R255). -/
def State.toZoom (s : State) (p : ActivePlan) (t ch b run : Nat) : State :=
  let id := bIdent p.data (beamEntry p.data b)
  let at0 := t + 256 * run
  let ks := (List.range 64).filter (fun k => (s.zslot k).fedBy id ch)
  let js := (List.range 64).filter (fun k => (s.zslot k).feedsNext id ch (at0 + 256))
  if ks.isEmpty && js.isEmpty then s
  else
    let xs := s.beamRun p t ch b run
    let n := s.beamCount p t ch b run
    let s := ks.foldl (fun s k =>
      let s := s.feedSlot k at0 xs n
      if run + 1 = pR p.data ∧ (s.zslot k).startAt < t + pS p.data then s.checkpoint k (t + pS p.data) false else s) s
    js.foldl (fun s k => s.feedNext k at0 xs n) s

/-- The sums of range channel (t, ch) have all been emitted since it was last cut. -/
def State.sumsDone (s : State) (p : ActivePlan) (t ch : Nat) : Bool :=
  decide (t < s.releasedTo p ch) || s.beamsHanded p t ch

/-- Sums follow counter order (R247), also those formed again: the channel's range before `t` is summed, and before a
plan's first range the last one of the plan before. -/
def State.afterRange (s : State) (p : ActivePlan) (t ch : Nat) : Bool :=
  if p.d < t then s.sumsDone p (t - pS p.data) ch
  else match s.planAt (t - 1) with
    | some q => q.id == p.id || (List.range (pN q.data)).all (fun c => s.sumsDone q (t - pS q.data) c)
    | none => true

/-- Records follow R277's order: run, then channel, then beam. The sums of a block and run of channel `c` are next
when every block and channel has emitted the run before, and those ahead of them in the run this run (log 12). -/
def State.sumTurn (s : State) (p : ActivePlan) (t c k run : Nat) : Bool :=
  let d := p.data
  s.afterRange p t c && (List.range (pN d)).all (fun c' => (List.range (pK d)).all (fun k' =>
    let m := s.detMark k' c'
    if c' < c ∨ (c' = c ∧ k' < k) then decide (t + 256 * (run + 1) ≤ m)
    else decide (t + 256 * run ≤ m) || decide (t + 256 * run = p.d)))

/-- BEAM_SUM (R237 to R240, R277): the sums of a block and run, complete and next in order, are emitted. -/
def execBeamSum (t : Nat) (ch : Fin 1024) (block : Fin 16) (run : Nat) (s : State) : Host.Outcome State Fault Refusal :=
  let c := ch.val
  let k := block.val
  .next <|
    match s.planAt t with
    | none => s
    | some p =>
      let d := p.data
      let have_ := tget 0 s.deck.handed (handedKey t c k run)
      let earlier := (List.range run).all (fun r => bitOf (tget 0 s.deck.handed (handedKey t c k r)) emittedBit)
      let bs := blockBeams d k
      if t % pS d ≠ 0 || pR d ≤ run || pK d ≤ k || pN d ≤ c || have_ ≠ 2 ^ pNg d - 1 || !earlier ||
          !s.sumTurn p t c k run || s.inReset ||
          !s.blockRoom p k ||
          bs.any (fun b => s.zoomWaits (bIdent d (beamEntry d b)) c (t + 256 * (run + 1))) then s
      else
        let s := s.whenS (run == 0 && bs.any (fun b => s.weightBad p t c b)) (·.fault srcBeams 5 1)
        let s := s.whenS (run == 0) (fun s => bs.foldl (fun s b => s.readWeights p t c b) s)
        let s := s.toDetection p t c k run
        let s := bs.foldl (fun s b => s.toZoom p t c b run) s
        { s with deck := { s.deck with
            handed := tset 0 s.deck.handed (handedKey t c k run) (have_ + 2 ^ emittedBit) } }

/-! ### Weight sets (R230 to R235) -/

/-- The weight command of a long operation. -/
def LongOp.weight (o : LongOp) : Option WeightCmd := match o.kind with | .weight w => some w | _ => none

/-- Weight commands that have not completed, in the order of their DSNs. -/
def State.weightOps (s : State) : List (LongOp × WeightCmd) :=
  s.dealer.longs.filterMap (fun o => o.weight.map (fun w => (o, w)))

/-- A long operation is replaced in place. -/
def State.setLong (s : State) (o o' : LongOp) : State :=
  { s with dealer := { s.dealer with longs := s.dealer.longs.map (fun x => if x = o then o' else x) } }

/-- A range before one of the hand-overs `ds` still reads physical set `phys` (R234). -/
def lockedBy (act phys : Nat) (ds : List Nat) : Bool := ds.any (fun d => setAt act (d - 1) ds == phys)

/-- The physical set of a kind (0 table, 1 polynomial) is locked (R234). -/
def State.setLocked (s : State) (kind phys : Nat) : Bool :=
  if kind = 0 then lockedBy (s.rd .BMF_STAT_TACT) phys s.beams.tLock else lockedBy (s.rd .BMF_STAT_PACT) phys s.beams.pLock

/-- The oldest weight command begins when none runs and its set is not locked (R234). -/
def State.beginWeight (s : State) : State :=
  let s := s.unlockDue
  match s.weightOps with
  | (o, w) :: _ =>
    if w.running || s.setLocked w.kind w.phys then s
    else s.setLong o { o with kind := .weight { w with running := true } }
  | [] => s

/-- WEIGHT_COMMAND_BEGIN (R234). -/
def execWeightCommandBegin (s : State) : Host.Outcome State Fault Refusal := .next s.beginWeight

/-- Bytes of a set: B_t 64 n N 2 for a table of the geometry, 64 MiB for a polynomial set (R226, R228). -/
def tableSize (g : Nat) : Nat := bitsOf g 18 11 * 64 * bitsOf g 0 7 * bitsOf g 7 11 * 2
def polySize : Nat := 64 * 2 ^ 20

/-- How many leading bytes of a weight-write are good: all, or those before the first refused weight (R230). -/
def goodBytes (kind off : Nat) (l : List Byte) : Nat :=
  let bad := fun i => let b := l.getD i 0
    if kind = 0 then b.toNat == 128 else (off + i) % 16 == 12 && decide (127 < b.toNat)
  match (List.range l.length).find? bad with
  | none => l.length
  | some i => if kind = 0 then i - (off + i) % 2 else i - (off + i) % 16

/-- A weight-write stores its bytes in the shadow set; a refused weight stops it and marks the set bad
(R230). Answers the status of the completion. -/
def State.writeWeights (s : State) (w : WeightCmd) (g : WeightGeom) : State × Nat :=
  let base := if w.kind = 0 then s.tableBase w.phys else s.polyBase w.phys
  let s := match g with
    | .table n c b => s.wr tgeom 0 (geomWord n.toNat c.toNat b.toNat)
    | .poly sec ns => (s.wr64 .BMF_PTREF 0 (sec.toNat % 2 ^ 48)).wr .BMF_PTREFNS_NS 0 ns.toNat
  let size := if w.kind = 0 then tableSize (s.rd tgeom) else polySize
  let n := goodBytes w.kind w.off w.data
  let s := s.hbmWrite (base + w.off) (w.data.take n)
  let bad : Fld := if w.kind = 0 then .BMF_STAT_TBAD else .BMF_STAT_PBAD
  if n < w.data.length then ((s.flag bad).flag .BMF_EVT_WRREJ, rejParam)
  else if w.off = 0 ∧ w.data.length = size then (s.wr bad 0 0, stDone)
  else (s, stDone)

/-- A weight-copy: the active set of the kind into the shadow, with its geometry or t_ref (R230). -/
def State.copyWeights (s : State) (w : WeightCmd) : State :=
  if w.kind = 0 then
    let g := s.rd tgeomA
    let l := s.hbmRead (s.tableBase (1 - w.phys)) (tableSize g)
    let s := s.linesRead (s.tableBase (1 - w.phys)) (tableSize g)
    ((s.hbmWrite (s.tableBase w.phys) l).wr tgeom 0 g).wr .BMF_STAT_TBAD 0 0
  else
    let l := s.hbmRead (s.polyBase (1 - w.phys)) polySize
    let s := s.linesRead (s.polyBase (1 - w.phys)) polySize
    let s := (s.hbmWrite (s.polyBase w.phys) l).wr .BMF_STAT_PBAD 0 0
    (s.wr64 .BMF_PTREF 0 (s.rd64 .BMF_PTREFA)).wr .BMF_PTREFNS_NS 0 (s.rd .BMF_PTREFANS_NS)

/-- WEIGHT_COMMAND_COMPLETE (R230, R233, R234): the running command's set is written, its completion sent
and the next one begins. -/
def execWeightCommandComplete (s : State) : Host.Outcome State Fault Refusal :=
  .next <|
    match s.weightOps with
    | [] => s
    | (o, w) :: _ =>
      if !w.running then s
      else
        let r := if w.copy then (s.copyWeights w, stDone)
          else match w.geo with
            | some g => s.writeWeights w g
            | none => (s, stDone)
        let s := r.1.endLong o r.2
        let s := s.beginWeight
        s.put .BMF_STAT_WBUSY 0 (!s.weightOps.isEmpty)

/-- The plan that will be active at `d`: the one dealt at `d`, else the active one (R232, R235). -/
def State.planDataAt (s : State) (d : Nat) : Option (Tbl Byte) :=
  match s.dealer.deal with
  | some q => if q.d ≤ d then q.slot.map (fun i => (s.slot i).shadow) else s.plans.active.map (·.data)
  | none => s.plans.active.map (·.data)

/-- Why a weight hand-over is not made (R233), by the precedence of R525. -/
def State.weightRefusal (s : State) (kinds d : Nat) : Option Nat :=
  let t := bitOf kinds 0
  let p := bitOf kinds 1
  let geomBad := match s.planDataAt d with
    | some x => (tableIdents x).length != 0 && planGeom x != s.rd tgeom
    | none => false
  if (t && (geomBad || s.on .BMF_STAT_TBAD)) || (p && s.on .BMF_STAT_PBAD) then some rejParam
  else if s.weightOps.any (fun q => (t && q.2.kind == 0) || (p && q.2.kind == 1)) then some rejBusy
  else none

/-- Shadow and active sets of the named kinds exchange roles; the sets that leave the active role are
locked until the ranges before D are past (R232, R234). -/
def State.swapSets (s : State) (kinds d : Nat) : State :=
  let s := if !bitOf kinds 0 then s
    else
      let g := s.rd tgeom
      let s := ((s.wr tgeom 0 (s.rd tgeomA)).wr tgeomA 0 g).wr .BMF_STAT_TACT 0 (1 - s.rd .BMF_STAT_TACT)
      ({ s with beams := { s.beams with tLock := d :: s.beams.tLock } }).flag .BMF_STAT_TLOCK
  let s := if !bitOf kinds 1 then s
    else
      let r := s.rd64 .BMF_PTREF
      let n := s.rd .BMF_PTREFNS_NS
      let s := (s.wr64 .BMF_PTREF 0 (s.rd64 .BMF_PTREFA)).wr .BMF_PTREFNS_NS 0 (s.rd .BMF_PTREFANS_NS)
      let s := ((s.wr64 .BMF_PTREFA 0 r).wr .BMF_PTREFANS_NS 0 n).wr .BMF_STAT_PACT 0 (1 - s.rd .BMF_STAT_PACT)
      ({ s with beams := { s.beams with pLock := d :: s.beams.pLock } }).flag .BMF_STAT_PLOCK
  s.unlockDue

/-- The weight hand-over of a pending deal, at device time(D) (R232 to R235). -/
def State.weightHandOver (s : State) (o : LongOp) (kinds d : Nat) : State :=
  let s := match s.timeOf d with | some n => s.reach n | none => s
  let bad := s.weightRefusal kinds d
  let st := bad.getD stDone
  let s := s.event 2 0x0202 kinds d st
  let dsn := s.lastDsn
  let s := if bad.isNone then (s.swapSets kinds d).flag .BMF_EVT_DEAL else s.flag .BMF_EVT_DEALREJ
  let s := (s.wr .BMF_STAT_PEND 0 0).wr64 .BMF_DEALCNT 0 0
  s.endLong o st 0 [] (some dsn)

/-- The pending weight deal: its long operation, kinds and D. -/
def State.weightDeal (s : State) : Option (LongOp × Nat × Nat) :=
  s.dealer.longs.findSome? (fun o => match o.kind with | .weightDeal k d => some (o, k, d) | _ => none)

/-- WEIGHT_HAND_OVER (R233). -/
def execWeightHandOver (s : State) : Host.Outcome State Fault Refusal :=
  .next <|
    match s.weightDeal with
    | some (o, k, d) => s.weightHandOver o k d
    | none => s

end Sys2Proof.Machine
end

