-- ==== Sys2Proof/Machine/Zoom.lean ====
section
/-! DEFINITION. Zoom slots (R247 to R259): starts and changes, the CIC decimator, the compensation filter
with its fades, outputs, coefficient writes and the restore from checkpoints. -/

namespace Sys2Proof.Machine

/-- ceil(log2 n). -/
def ceilLog2 (n : Nat) : Nat := if n ≤ 1 then 0 else Nat.log2 (n - 1) + 1

/-- The slot's registers (R258). -/
def State.showSlot (s : State) (k : Nat) : State :=
  let x := s.zslot k
  if !x.inUse then (s.setWord (0x710100 + 32 * k) 0).setWord (0x710104 + 32 * k) 0 |>.setWord (0x710110 + 32 * k) 0
  else
    let s := (s.wr .ZOM_SCFG_INUSE k 1).wr .ZOM_SCFG_BEAM k x.beam
    let s := ((s.wr .ZOM_SCFG_CHAN k x.chan).wr .ZOM_SCFG_ORDER k (x.nc - 3)).wr .ZOM_SCFG_CSET k x.cset
    let s := (s.wr .ZOM_SDEC_DEC k x.dz).wr .ZOM_SDEC_SKEW k (skewOf k x.dz)
    (s.wr .ZOM_SMARK_UNSET k x.unset).wr .ZOM_SMARK_FADE k x.fade

/-- ZOM_STAT and ZOM_LOAD follow the slots in use (R258, R72). -/
def State.showZoom (s : State) : State :=
  let n := ((List.range 64).filter (fun k => (s.zslot k).inUse)).length
  let pq := s.mapPQ
  (s.wr .ZOM_STAT_SLOTS 0 n).wr .ZOM_LOAD_KSPS 0 (min 0xFFFF (n * 1000000 * pq.2 / pq.1))

/-- First output index of slot k at or after counter `c` (R252). -/
def firstOut (k dz c : Nat) : Nat := ceilDiv (c - skewOf k dz) dz

/-- Outputs of the old settings that complete before `c` are emitted, and inputs up to `c` are taken (R252). -/
def ZoomSlot.reached (k : Nat) (x : ZoomSlot) (c : Nat) : Bool :=
  !x.inUse || (decide (c ≤ x.inMark) && decide (c < x.nextOut * x.dz + skewOf k x.dz + x.dz))

/-- A slot restarts at `c`: integrators, combs and history cleared, Nc + 32 outputs unsettled (R252). Its inputs are those
of its new beam and channel from `c` on. -/
def ZoomSlot.restart (k : Nat) (x : ZoomSlot) (q : ZoomSettings) (c : Nat) : ZoomSlot :=
  let dz := q.dz.toNat
  let nc := q.nc.toNat
  let keep := x.inUse && x.beam == q.beam.toNat && x.chan == q.chan.toNat
  let j := firstOut k dz c
  { inUse := true, beam := q.beam.toNat, chan := q.chan.toNat, nc := nc, dz := dz, cset := q.cset.toNat,
    dest := q.dest.toNat, integ := List.replicate nc (0, 0), comb := List.replicate nc (0, 0), hist := [],
    fifo := if keep then x.fifo.drop (c - x.fifoAt) else x.nextFifo, fifoAt := c, nextOut := j, unset := nc + 32,
    fade := 0, oldSet := 0, inMark := max c (if keep then x.inMark else x.nextMark), outMark := j,
    startAt := if keep then x.startAt else c,
    counts := if keep then x.counts.filter (fun n => decide (c < n.1)) else x.nextCounts, pend := none }

/-- A change of coefficient set, with its fade, or of destination alone (R254). -/
def ZoomSlot.retake (x : ZoomSlot) (q : ZoomPend) : ZoomSlot :=
  let y := { x with dest := q.set.dest.toNat, taken := x.taken ++ [q] }
  if x.cset = q.set.cset.toNat then y else { y with oldSet := x.cset, cset := q.set.cset.toNat, fade := 64 }

/-- A restored slot takes again the changes that its next output follows (R255). -/
def ZoomSlot.redone (k : Nat) : List ZoomPend → ZoomSlot → ZoomSlot
  | [], x => { x with redo := [] }
  | q :: r, x => if q.c ≤ x.nextOut * x.dz + skewOf k x.dz then ZoomSlot.redone k r (x.retake q) else { x with redo := q :: r }

/-- The changes of a slot that are pending, in the order of their counters. -/
def ZoomSlot.changes (x : ZoomSlot) : List ZoomPend := x.pend.toList ++ x.later

/-- A slot with its changes replaced; inputs for the first are kept from its counter on. -/
def ZoomSlot.withChanges (x : ZoomSlot) (l : List ZoomPend) : ZoomSlot :=
  if l.head? = x.pend then { x with later := l.tail }
  else { x with pend := l.head?, later := l.tail, nextFifo := [], nextMark := 0, nextCounts := [] }

/-- The first pending change is done: the next one pends. -/
def ZoomSlot.settled (x : ZoomSlot) (later : List ZoomPend) : ZoomSlot := { x with pend := none, later := [] }.withChanges later

/-- A change of a slot takes effect when its data reach the counter (R252, R254). -/
def State.startSlot (s : State) (k : Nat) (q : ZoomPend) : State :=
  let x := s.zslot k
  if !q.use then
    if ZoomSlot.reached k x q.c then
      let s' := s.setZslot k (({} : ZoomSlot).settled x.later)
      { s' with beams := { s'.beams with ckpt := tset [] s.beams.ckpt k [] } } else s
  else if x.inUse && x.same q.set then
    -- a coefficient set (or destination) alone
    if x.nextOut * x.dz + skewOf k x.dz < q.c then s
    else (s.setZslot k ((x.retake q).settled x.later)).whenS (x.cset != q.set.cset.toNat) (·.flag .ZOM_EVT_FADE)
  else if ZoomSlot.reached k x q.c then
    ((s.setZslot k ((ZoomSlot.restart k x q.set q.c).settled x.later)).checkpoint k q.c true).flag .ZOM_EVT_START
  else s

/-- ZOOM_SLOT_START (R252, R254): a pending change of a slot; the ZOOM_CHANGE that made it is done. -/
def execZoomSlotStart (slot : Fin 64) (s : State) : Host.Outcome State Fault Refusal :=
  let k := slot.val
  .next <|
    match (s.zslot k).pend with
    | none => s
    | some q =>
      let s' := s.startSlot k q
      if (s'.zslot k).changes = (s.zslot k).changes then s
      else
        let s' := (s'.showSlot k).showZoom
        if q.byDeal then s'
        else s'.endLongOf (fun o => match o with | .zoomChange n _ _ => n == k | _ => false) stDone

/-- 88-bit two's complement (R248). -/
def wrap88 (x : Int × Int) : Int × Int := (signed 88 (code 88 x.1), signed 88 (code 88 x.2))
def csub (x y : Int × Int) : Int × Int := (x.1 - y.1, x.2 - y.2)

/-- One input through the integrators, each adding the one before it (R248). -/
def integrate : List (Int × Int) → Int × Int → List (Int × Int)
  | [], _ => []
  | i :: r, v => let n := wrap88 (cadd i v); n :: integrate r n

/-- One decimated value through the combs: the new comb states and the output (R248). -/
def combs : List (Int × Int) → Int × Int → List (Int × Int) × (Int × Int)
  | [], v => ([], v)
  | c :: r, v => let o := combs r (wrap88 (csub v c)); (v :: o.1, o.2)

/-- Tap i of coefficient set m (R259). -/
def State.tap (s : State) (m i : Nat) : Int := signed 18 (s.rd .ZOM_COEF_H (32 * m + i))

/-- y = Σ h_i u(j − i) of a set over the history, newest first (R250). -/
def State.fir (s : State) (m : Nat) (hist : List (Int × Int)) : Int × Int :=
  (List.zip (List.range 32) hist).foldl (fun a q => cadd a (s.tap m q.1 * q.2.1, s.tap m q.1 * q.2.2)) (0, 0)

/-- The two binary32 words of an output scaled by 2^-n (R250, R254). -/
def outBytes (y : Int × Int) (n : Nat) : List Byte :=
  leBytes 4 (narrow fp32 ⟨y.1, 2 ^ n⟩).1 ++ leBytes 4 (narrow fp32 ⟨y.2, 2 ^ n⟩).1

/-- The bytes of the next output, during a fade or outside one (R250, R254). -/
def State.outputBytes (s : State) (x : ZoomSlot) (hist : List (Int × Int)) : List Byte :=
  let new := s.fir x.cset hist
  if x.fade = 0 then outBytes new 16
  else
    let i : Nat := 64 - x.fade
    let old := s.fir x.oldSet hist
    outBytes ((63 - (i : Int)) * old.1 + (i + 1) * new.1, (63 - (i : Int)) * old.2 + (i + 1) * new.2) 22

/-- The slot after output j: its D_z inputs consumed, the CIC output narrowed into the history (R248 to R251). -/
def ZoomSlot.step (k : Nat) (x : ZoomSlot) : ZoomSlot :=
  let ends := x.nextOut * x.dz + skewOf k x.dz + x.dz
  let n := ends - x.fifoAt
  let integ := (x.fifo.take n).foldl integrate x.integ
  let o := combs x.comb (integ.getLastD (0, 0))
  let z := x.nc * ceilLog2 x.dz
  let u := (rhu o.2.1 (2 ^ z), rhu o.2.2 (2 ^ z))
  { x with integ := integ, comb := o.1, hist := (u :: x.hist).take 32, fifo := x.fifo.drop n, fifoAt := ends,
           nextOut := x.nextOut + 1, unset := x.unset - 1, fade := x.fade - 1, outMark := max x.outMark (x.nextOut + 1),
           counts := x.counts.filter (fun q => decide (ends < q.1)) }

/-- ZOOM_OUTPUT (R251): output j is formed and, past the output mark, emitted (R239). -/
def execZoomOutput (slot : Fin 64) (s : State) : Host.Outcome State Fault Refusal :=
  let k := slot.val
  let x := ZoomSlot.redone k (s.zslot k).redo (s.zslot k)
  let w := x.nextOut * x.dz + skewOf k x.dz
  let last := w + x.dz - 1
  .next <|
    match s.planAt last with
    | none => s
    | some p =>
      if !ZoomSlot.ready k x || s.inReset || !s.mayWrite p.id x.dest then s
      else
        let y := ZoomSlot.step k x
        let s' := s.setZslot k y
        if x.nextOut < x.outMark then s'.showSlot k
        else
          let fed := x.counts.filter (fun q => decide (w < q.1 ∧ q.1 - 256 < w + x.dz))
          let d : ZoomDesc := { cset := x.cset, dec := x.dz, skew := skewOf k x.dz,
                                minc := (fed.map (·.2)).foldl min 4096, j := x.nextOut }
          let r : Rec := { dest := x.dest, stream := streamOf p (16 + k), ptype := 5, pfmt := x.nc - 3, trick := s.trickAt last,
                           start := w, first := k, chan := x.chan, subid := x.beam, cap := 1020, zoom := some d,
                           bytes := s.outputBytes x y.hist,
                           flags := openFlag p.data + (if x.unset = 0 then 0 else 16) + (if x.fade = 0 then 0 else 32) }
          ((s'.putRec r).wr64 .ZOM_SOUT k x.nextOut).showSlot k

/-- A slot that is in use has the settings that a change names but for set and destination. -/
def ZoomPend.sameBut (p q : ZoomPend) : Bool :=
  p.use && q.use && p.set.nc == q.set.nc && p.set.dz == q.set.dz && p.set.beam == q.set.beam && p.set.chan == q.set.chan

/-- The settings of a slot, as a change that brings them would name them. -/
def ZoomSlot.asChange (x : ZoomSlot) : ZoomPend :=
  ⟨x.inUse, { beam := BitVec.ofNat 16 x.beam, chan := BitVec.ofNat 16 x.chan, nc := BitVec.ofNat 8 x.nc,
              dz := BitVec.ofNat 16 x.dz, cset := BitVec.ofNat 8 x.cset, dest := BitVec.ofNat 8 x.dest }, 0, false⟩

/-- Coefficient sets that the fades of a list of changes name, from the settings `p` on: a start, retune or reassignment
names no fade (R253, R254). -/
def fadeSets : ZoomPend → List ZoomPend → List Nat
  | _, [] => []
  | p, q :: r => (if p.sameBut q then [p.set.cset.toNat, q.set.cset.toNat] else []) ++ fadeSets q r

/-- A coefficient set is in use by a slot, or named by a fade in progress, pending, or to be made again after a warm
reset (R253, R255). -/
def State.setBusy (s : State) (m : Nat) : Bool :=
  (List.range 64).any (fun k =>
    let x := s.zslot k
    (x.inUse && (x.cset == m || (x.fade != 0 && x.oldSet == m))) ||
    (fadeSets x.asChange (x.redo ++ x.changes)).contains m)

/-- A write of a tap (R253, R259). -/
def State.writeTap (s : State) (m i v : Nat) : State :=
  if s.setBusy m then s.flag .ZOM_EVT_CWREJ else s.wr .ZOM_COEF_H (32 * m + i) v

/-- ZOM_COEF_WRITE (R253). -/
def execZomCoefWrite (set : Fin 16) (tap : Fin 32) (v : Word) (s : State) : Host.Outcome State Fault Refusal :=
  .next (s.writeTap set.val tap.val v.toNat)

/-- The first setting of a zoom slot out of range (R247): its byte offset among the command's parameters. Beam and
channel can be tested only on an active plan (R525). -/
def zoomBad (d : Option (Tbl Byte)) (q : ZoomSettings) : Option Nat :=
  if d.any (fun d => (List.range (pBeams d)).all (fun i => bIdent d i != q.beam.toNat)) then some 1
  else if d.any (fun d => decide (pN d ≤ q.chan.toNat)) then some 3
  else if q.nc.toNat < 3 ∨ 5 < q.nc.toNat then some 5
  else if q.dz.toNat < 4 ∨ 1024 < q.dz.toNat then some 6
  else if 15 < q.cset.toNat then some 8
  else if 3 < q.dest.toNat then some 9
  else none

/-- What a plan gives slot `k` from its deal counter on. -/
def planZoom (p : Option ActivePlan) (k c : Nat) : ZoomPend :=
  match p with
  | some p =>
    let d := p.data
    if zUse d k = 0 then ⟨false, ⟨0, 0, 3, 4, 0, 0⟩, c, true⟩
    else ⟨true, { beam := BitVec.ofNat 16 (zBeam d k), chan := BitVec.ofNat 16 (zChan d k), nc := BitVec.ofNat 8 (zNc d k),
                  dz := BitVec.ofNat 16 (zDz d k), cset := BitVec.ofNat 8 (zCset d k), dest := BitVec.ofNat 8 (zDest d k) },
          c, true⟩
  | none => ⟨false, ⟨0, 0, 3, 4, 0, 0⟩, c, true⟩

/-- A change by command from counter `c` on that a plan dealt there still allows (log 13). -/
def ZoomPend.allowed (q : ZoomPend) (p : Option ActivePlan) : Bool :=
  match p with | some p => (zoomBad (some p.data) q.set).isNone | none => false

/-- The changes of slot `k` once plan `p` is dealt at `c` (R252, R254): those before `c`, the plan's own unless the slot
then has its settings and runs on, and those from `c` on that the plan allows. -/
def ZoomSlot.dealt (x : ZoomSlot) (p : Option ActivePlan) (k c : Nat) : List ZoomPend :=
  let before := x.changes.filter (fun q => decide (q.c < c))
  let held := (before.getLast?).getD x.asChange
  let q := planZoom p k c
  let runsOn := (!held.use && !q.use) || (held.use && q.use && held.set == q.set)
  before ++ (if runsOn then [] else [q]) ++ x.changes.filter (fun q => decide (c ≤ q.c) && !q.byDeal && q.allowed p)

/-- The changes that a plan brings at its deal counter (R252, R254). -/
def State.planSlots (s : State) (p : Option ActivePlan) (c : Nat) : State :=
  forN 64 (fun s k => s.setZslot k ((s.zslot k).withChanges ((s.zslot k).dealt p k c))) s

/-- The slot of a checkpoint as it goes on after a reset that found it as `x` (R239, R255): its marks of outputs and its
pending change stand, and set changes made since are taken again. -/
def ZoomSlot.restored (x y : ZoomSlot) : ZoomSlot :=
  { y with outMark := max x.outMark y.outMark, pend := x.pend, later := x.later, nextFifo := x.nextFifo, nextMark := x.nextMark,
           nextCounts := x.nextCounts, redo := (x.taken ++ x.redo).drop y.taken.length }

/-- A slot whose checkpoint at `c` is poisoned starts afresh there, its first Nc + 32 outputs unsettled (R252, R415). -/
def ZoomSlot.afresh (y : ZoomSlot) (k c : Nat) : ZoomSlot :=
  { y with integ := List.replicate y.nc (0, 0), comb := List.replicate y.nc (0, 0), hist := [], fifo := [], fifoAt := c, inMark := c,
           nextOut := firstOut k y.dz c, unset := y.nc + 32, fade := 0, oldSet := 0, counts := [] }

/-- A slot is restored from its checkpoint; a poisoned one is replaced, which is a fault of the zoom engine (R255, R415). -/
def State.restoreSlot (s : State) (k : Nat) (c : ZoomCkpt) : State :=
  let y := (s.zslot k).restored c.slot
  if s.linePoisoned (Config.sysLine k).toNat then (s.setZslot k (y.afresh k c.c)).fault srcZoom 4 1 else s.setZslot k y

/-- Slots are restored from the checkpoint of the latest released range channel of their channel (R255). -/
def State.restoreSlots (s : State) : State :=
  let s := forN 64 (fun s k =>
    match s.ckptOf k with
    | some c => if (s.zslot k).inUse then s.restoreSlot k c else s
    | none => s) s
  if (List.range 64).any (fun k => (s.zslot k).inUse) then s.flag .ZOM_EVT_RESTORE else s

end Sys2Proof.Machine
end

