-- ==== Sys2Proof/Machine/Output.lean ====
section
/-! DEFINITION. Closing tricks (R209 to R211) and the output stage (R260 to R300): the fused conversion,
averaging classes, the export of a trick, batches of the output kernel, summaries, release and the drain. -/

namespace Sys2Proof.Machine

/-! ### Entries of a plan in export order (R24, R28, R29) -/

/-- A visibility entry: the plain index of its baseline, the lower and higher signal, and whether its
conjugate is delivered. -/
structure Entry where
  k : Nat
  lo : Nat
  hi : Nat
  conj : Bool
  deriving DecidableEq, Repr

/-- The entry Σ x_P conj(x_Q) of two signals (R29). -/
def entryOf (p q : Nat) : Entry :=
  if p ≤ q then ⟨q * (q + 1) / 2 + p, p, q, false⟩ else ⟨p * (p + 1) / 2 + q, q, p, true⟩

/-- Plain order (R24). -/
def plainEntries (d : Tbl Byte) : List Entry :=
  (List.range (64 * pNg d)).flatMap (fun b => (List.range (b + 1)).map (fun a => entryOf a b))

/-- Suit order (R28). -/
def suitEntries (d : Tbl Byte) : List Entry :=
  (List.range (pRecv d)).flatMap (fun q => (List.range (q + 1)).flatMap (fun r =>
    if r < q then
      [entryOf (pX d r) (pX d q), entryOf (pX d r) (pY d q), entryOf (pY d r) (pX d q), entryOf (pY d r) (pY d q)]
    else [entryOf (pX d r) (pX d q), entryOf (pX d r) (pY d q), entryOf (pY d r) (pY d q)]))

/-- Entries of class `c` in the plan's order. -/
def classEntries (d : Tbl Byte) (c : Nat) : List Entry :=
  (if pOrder d = 1 then suitEntries d else plainEntries d).filter (fun e => pClass d e.k == c)

/-! ### The fused stage (R263 to R266) -/

/-- Sum of two long cells (R203, R269). -/
def LongCell.plus (a b : LongCell) : LongCell :=
  let re := a.re + b.re
  let im := a.im + b.im
  let n := a.count + b.count
  ⟨sat48 re, sat48 im, sat31 n, a.sat || b.sat || sat48 re != re || sat48 im != im || sat31 n != n⟩

/-- Component `i` of the bias of a baseline and of the gain of a signal (R266). -/
def biasAt (d : Tbl Byte) (k i : Nat) : Q := ofCode fp32 (pF d 8 (8 * k + 4 * i) 4)
def gainAt (d : Tbl Byte) (sig i : Nat) : Q := ofCode fp32 (pF d 9 (8 * sig + 4 * i) 4)

/-- The normalised visibility of a cell with COUNT at least 1, before narrowing (R263). -/
def fuse (d : Tbl Byte) (e : Entry) (c : LongCell) : Q × Q :=
  let den := 256 * c.count
  let qr := rn64 ⟨c.re, den⟩
  let qi := rn64 ⟨c.im, den⟩
  let q := if pBias d then (rn64 (qr.sub (biasAt d e.k 0)), rn64 (qi.sub (biasAt d e.k 1))) else (qr, qi)
  if pGains d then
    let ar := gainAt d e.lo 0
    let ai := gainAt d e.lo 1
    let br := gainAt d e.hi 0
    let bi := gainAt d e.hi 1
    let gr := rn64 ((ar.mul br).add (ai.mul bi))
    let gi := rn64 ((ai.mul br).sub (ar.mul bi))
    (rn64 ((rn64 (gr.mul q.1)).sub (rn64 (gi.mul q.2))), rn64 ((rn64 (gr.mul q.2)).add (rn64 (gi.mul q.1))))
  else q

/-- Real, imaginary code and count of a cell in a format, and its clamped components (R263, R264). -/
def convert (f : Flt2) (nan : Nat) (d : Tbl Byte) (e : Entry) (c : LongCell) : Nat × Nat × Nat × Nat :=
  if c.sat then (nan, nan, c.count + 2 ^ 31, 0)
  else if c.count = 0 then (0, 0, 0, 0)
  else
    let q := fuse d e c
    let r := narrow f q.1
    let i := narrow f (if e.conj then q.2.neg else q.2)
    (r.1, i.1, c.count, (if r.2 then 1 else 0) + (if i.2 then 1 else 0))

/-- The RAW word of an entry (R265). -/
def rawBytes (e : Entry) (c : LongCell) : List Byte := cellBytes (if e.conj then { c with im := -c.im } else c)

/-- Bytes of a visibility record and its clamped components; KERNEL cells as RAW (R265, R276). -/
def visBytes (d : Tbl Byte) (e : Entry) (c : LongCell) : List Byte × Nat :=
  match pVfmt d with
  | 1 => let x := convert fp32 0x7FC00000 d e c; (leBytes 4 x.1 ++ leBytes 4 x.2.1 ++ leBytes 4 x.2.2.1, x.2.2.2)
  | 2 => let x := convert fp16 0x7E00 d e c; (leBytes 2 x.1 ++ leBytes 2 x.2.1 ++ leBytes 4 x.2.2.1, x.2.2.2)
  | _ => (rawBytes e c, 0)

/-- Records of a full packet of a visibility format (R276). -/
def visCap (vfmt size : Nat) : Nat := if vfmt = 1 then 682 else if vfmt = 2 then 1024 else if vfmt = 3 then 8192 / max 1 size else 512

/-! ### The cells of a trick (R262, R268 to R271) -/

/-- The cell of a baseline in a channel of a buffer; one of a poisoned line is taken as saturated (R415). -/
def State.exportCell (s : State) (d : Tbl Byte) (base ch : Nat) (e : Entry) : LongCell :=
  let o := rowOff d ch (handNo (e.lo / 64) (e.hi / 64)) (e.lo % 64) + 16 * (e.hi % 64)
  if s.hbmPoisoned (base + o) 16 then s.poisonCell (o / 16) else cellOf (leVal (s.hbmRead (base + o) 16))

/-- The sum over channel group `m` of a class (R269). -/
def State.groupCell (s : State) (d : Tbl Byte) (base c m : Nat) (e : Entry) : LongCell :=
  let ff := pFf d c
  let cells := (List.range ff).map (fun i => s.exportCell d base (m * ff + i) e)
  cells.tail.foldl LongCell.plus (cells.headD ⟨0, 0, 0, false⟩)

/-- Key of a baseline and channel group in the averaging buffer. -/
def avgKey (m k : Nat) : Nat := 2 ^ 24 * m + k
/-- Line of the averaging buffer that holds a cell: 64 cells of 16 bytes (log 5). -/
def avgLineOf (m k : Nat) : Nat := (Config.avgLine (avgKey m k / 64)).toNat
/-- What the averaging buffer holds; a cell of a poisoned line is taken as saturated (R415). -/
def State.avgCell (s : State) (m k : Nat) : LongCell :=
  let o := s.outp
  if s.linePoisoned (avgLineOf m k) then s.poisonCell (avgKey m k) else ⟨tget 0 o.avgRe (avgKey m k), tget 0 o.avgIm (avgKey m k), tget 0 o.avgCount (avgKey m k), tget false o.avgSat (avgKey m k)⟩
def State.setAvg (s : State) (m k : Nat) (c : LongCell) : State :=
  let o := s.outp
  let key := avgKey m k
  { s with outp := { o with avgRe := tset 0 o.avgRe key c.re, avgIm := tset 0 o.avgIm key c.im
                            avgCount := tset 0 o.avgCount key c.count, avgSat := tset false o.avgSat key c.sat } }

/-- The largest time factor in use. -/
def maxTf (d : Tbl Byte) : Nat := ((pClasses d).map (pTf d)).foldl max 1

/-- A trick is the last of its time group for a factor, or a deal (or the counter's end) ends it (R268, R271). -/
def Trick.endsGroup (k : Trick) (tf : Nat) : Bool :=
  let e := k.first + k.len
  tf == 1 || (pL k.plan.data != 0 && e % (tf * pL k.plan.data) == 0) || k.plan.ends == some e || e == lastCounter

/-- The deal ended the group of a factor early. -/
def Trick.earlyGroup (k : Trick) (tf : Nat) : Bool :=
  tf != 1 && k.endsGroup tf && (k.first + k.len) % (tf * max 1 (pL k.plan.data)) != 0

/-- First counter of the time group that holds a trick, within its plan. -/
def Trick.groupStart (k : Trick) (tf : Nat) : Nat :=
  if tf = 1 then k.first else max k.plan.d (k.first / (tf * pL k.plan.data) * (tf * pL k.plan.data))

/-- The record of an entry's cell (R272 to R277). A plan whose kernel has faulted exports RAW (R336). -/
def State.visRec (s : State) (k : Trick) (c m ord : Nat) (e : Entry) (cell : LongCell) : Rec :=
  let d := k.plan.data
  let vf := if pVfmt d = 3 ∧ s.outp.kfaults.contains k.plan.id then 0 else pVfmt d
  let b := visBytes d e cell
  { dest := pVdest d, stream := streamOf k.plan c, ptype := 1
    pfmt := vf + 4 * pOrder d + 8 * Nat.log2 (pTf d c) + 32 * Nat.log2 (pFf d c)
    trick := k.first, start := k.groupStart (pTf d c), first := ord, chan := m * pFf d c, subid := c
    flags := (if k.earlyGroup (pTf d c) then 1 else 0) + (if cell.sat then 2 else 0) + (if b.2 = 0 then 0 else 4) + openFlag d
    bytes := b.1, clamp := b.2, cap := visCap vf (recBytes d k.plan.kernel), cell := vf == 3 }

/-- One channel group of a class: its cells go to the averaging buffer or become records. -/
def State.exportGroup (s : State) (k : Trick) (base c m : Nat) (es : List Entry) : State × List Rec :=
  let d := k.plan.data
  let tf := pTf d c
  (List.zip (List.range es.length) es).foldl (fun (a : State × List Rec) (ie : Nat × Entry) =>
    let cell := s.groupCell d base c m ie.2
    if tf = 1 then (a.1, a.2 ++ [s.visRec k c m ie.1 ie.2 cell])
    else
      let sum := if k.first = k.groupStart tf then cell else (a.1.avgCell m ie.2.k).plus cell
      if k.endsGroup tf then (a.1.setAvg m ie.2.k ⟨0, 0, 0, false⟩, a.2 ++ [s.visRec k c m ie.1 ie.2 sum])
      else (a.1.setAvg m ie.2.k sum, a.2)) (s, [])

/-- Every channel in ascending order, and for each its classes (R262). -/
def State.exportAll (s : State) (k : Trick) (base : Nat) : State × List Rec :=
  let d := k.plan.data
  if !pHasVis d then (s, [])
  else
    let cs := (pClasses d).map (fun c => (c, classEntries d c))
    (List.range (pN d)).foldl (fun (a : State × List Rec) (ch : Nat) =>
      cs.foldl (fun (a : State × List Rec) (ce : Nat × List Entry) =>
        let ff := pFf d ce.1
        if (ch + 1) % ff = 0 then
          let r := a.1.exportGroup k base ce.1 (ch / ff) ce.2
          (r.1, a.2 ++ r.2)
        else a) a) (s, [])

/-- Each line of the buffer is read; a poisoned one is a fault of the output stage (R415). -/
def State.noteLines (s : State) (d : Tbl Byte) (base : Nat) : State :=
  let n := pN d * pH d * 64
  let s := forN n (fun s i => (s.lineRead (base / 1024 + i)).whenS (s.hbmPoisoned (base + 1024 * i) 1024) (·.fault srcOutput 4 1)) s
  { s with fresh := s.fresh + 128 * n }

/-- Lines of the averaging buffer that the classes of a trick with a time factor in `q` take. -/
def avgLines (k : Trick) (q : Nat → Bool) : List Nat :=
  let d := k.plan.data
  ((pClasses d).filter (fun c => pTf d c != 1 && q (pTf d c))).flatMap (fun c =>
    (List.range (pN d / pFf d c)).flatMap (fun m => (classEntries d c).map (fun e => avgLineOf m e.k))) |>.eraseDups

/-- Each poisoned line of the averaging buffer that the export of a trick reads is a fault of the output stage (R415); so is the
class map in the system area, and that one is not contained (R267, R415). -/
def State.noteAveraging (s : State) (k : Trick) : State :=
  let s := (avgLines k (fun tf => k.first != k.groupStart tf)).foldl (fun s L => s.whenS (s.linePoisoned L) (·.fault srcOutput 4 1)) s
  s.whenS (decide (1 < maxTf k.plan.data) && s.linePoisoned (Config.sysLine sysClass).toNat) (·.fault srcOutput 3 2)

/-- The lines of the averaging buffer that the export of a trick writes are whole again (R271, R415). -/
def State.writeAveraging (s : State) (k : Trick) : State := (avgLines k (fun _ => true)).foldl (fun s L => s.lineFresh L) s

/-! ### Registers that follow the tricks (R301, R223) -/

/-- Closed tricks that are not released. -/
def State.unreleased (s : State) : List Trick := s.tricks.closed.filter (fun k => !k.released)
/-- A closed trick waits under R294: 64 older ones are not released. -/
def State.waitsRel (s : State) (first : Nat) : Bool :=
  decide (64 ≤ (s.unreleased.filter (fun k => decide (k.first < first))).length)

/-- UNREL, WAITREL and OTHERFREE follow the tricks. -/
def State.showTricks (s : State) : State :=
  let s := s.wr .OUT_STAT_UNREL 0 (min 64 s.unreleased.length)
  let s := s.put .OUT_STAT_WAITREL 0 (s.tricks.closed.any (fun k => !k.exported && s.waitsRel k.first))
  s.put .ENG_ACCSEL_OTHERFREE 0 (!s.bufBusy (1 - s.rd .ENG_ACCSEL_ACCUM))

/-- A closed trick is changed. -/
def State.setTrick (s : State) (first : Nat) (f : Trick → Trick) : State :=
  { s with tricks := { s.tricks with closed := s.tricks.closed.map (fun k => if k.first = first then f k else k) } }

/-- A summary of the trick is still to drain from some partition. -/
def State.summaryLeft (s : State) (first : Nat) : Bool :=
  (List.range 3).any (fun p => (s.part p).queue.any (fun q => q.ptype == 7 && q.trick == first))

/-- Tricks that are exported, released and no longer asked for are forgotten; the eight newest are kept. -/
def State.forgetTricks (s : State) : State :=
  let l := s.tricks.closed
  let n := l.length
  let keep := (List.zip (List.range n) l).filter (fun ik =>
    !(ik.2.exported && ik.2.released && decide (ik.1 + 8 < n) && !s.summaryLeft ik.2.first))
  { s with tricks := { s.tricks with closed := keep.map Prod.snd } }

/-! ### Release (R292 to R295) -/

/-- A packet holds data of the trick that begins at `first`: its own, or a time group's that began with or before it
(R279, R292). -/
def Pkt.holds (q : Pkt) (first : Nat) : Bool :=
  q.ptype != 6 && q.ptype != 7 &&
  (q.trick == first || (q.ptype == 1 && decide (q.start ≤ first) && decide (first < q.trick)))

/-- Every packet that holds data of the trick has drained in every partition (R292). -/
def State.drained (s : State) (k : Trick) : Bool :=
  (List.range 3).all (fun p =>
    let x := s.part p
    !(x.queue.any (·.holds k.first)) && !(x.openPkts.any (fun q => q.2.holds k.first)))

/-- The trick's summary is in every partition (R293). -/
def Trick.allSummed (k : Trick) : Bool := k.exported && k.summed == k.parts

/-- A trick and every earlier one are released (R292, R293). -/
def State.release (s : State) (first : Nat) (byCommand : Bool) : State :=
  let s := { s with tricks := { s.tricks with
    closed := s.tricks.closed.map (fun (k : Trick) => if k.first ≤ first then { k with released := true } else k)
    newestRel := some first } }
  let s := (s.event 7 0x0701 0 first (if byCommand then 1 else 0)).wr64 .OUT_RELTRICK 0 first
  let s := s.record 2 0 1 s.lastDsn (leBytes 8 first)
  s.showTricks.forgetTricks

/-- Tricks of DRAIN mode that may be released now are, oldest first; none during a supply freeze (R291, R292). -/
def State.tryRelease (s : State) : State :=
  if s.frozen then s
  else s.unreleased.foldl (fun s k =>
    if pRelmode k.plan.data = 0 && k.allSummed && s.drained k then s.release k.first false else s) s

/-- A release by command or register (R291 to R293). Answers the status. -/
def State.askRelease (s : State) (first : Nat) : State × Nat :=
  let mine := s.tricks.closed.find? (fun k => k.first == first && !k.released)
  let gone := mine.isNone && s.tricks.newestRel.any (fun n => decide (first ≤ n))
  let ready := mine.any (fun (k : Trick) => k.allSummed)
  if !gone && !ready then (s.flag .OUT_EVT_RELREJ, rejState)
  else if s.frozen then (s.flag .OUT_EVT_RELREJ, rejBusy)
  else if gone then (s, stOk)
  else (s.release first true, stOk)

/-- OUT_RELHI (R292): releases the trick that the two words name. -/
def execOutRelhi (high : Word) (s : State) : Host.Outcome State Fault Refusal :=
  .next (s.askRelease (s.rd .OUT_RELLO_LOW + 2 ^ 32 * high.toNat)).1

/-! ### Batches of the output kernel (R329 to R336) -/

/-- The trick being exported. -/
def State.exportTrick (s : State) : Option Trick :=
  s.outp.exporting.bind (fun f => s.tricks.closed.find? (fun k => k.first == f))

/-- Cells of the batch at the head of the records to be written: up to 16 of one class and channel group. -/
def batchOf : List Rec → List Rec
  | [] => []
  | r :: l => (((r :: l).take 16).takeWhile (fun x => x.cell && x.stream == r.stream && x.chan == r.chan))

/-- Engines that may take a batch of plan `id`: in service, with its kernel copied, no call running. -/
def State.kernelEngines (s : State) (id : Nat) : List Nat :=
  s.served.filter (fun e => (s.eng e).kplan == some id && (s.core e).fw.isNone)

/-- The batch in flight still runs on its engine. -/
def State.batchLive (s : State) : Bool :=
  match s.outp.batch with
  | some (e, _) => (s.core e).fw.isSome && s.rd .ENG_STAT_STATE e == egActive
  | none => false

/-- The 16-lane input plane of a batch (R329). -/
def plane (b : List Rec) (f : LongCell → Nat) : List Word :=
  (List.range 16).map (fun i => match b[i]? with
    | some r => BitVec.ofNat 32 (f (cellOf (leVal r.bytes)))
    | none => 0)

/-- The descriptor words 0x6040 to 0x604F (R329); its reserved words are 0. -/
def batchDesc (r : Rec) (lanes : Nat) : List Word :=
  [BitVec.ofNat 32 (r.chan + 2 ^ 16 * r.subid + 2 ^ 24 * lanes), BitVec.ofNat 32 r.first, BitVec.ofNat 32 r.trick,
   BitVec.ofNat 32 (r.trick / 2 ^ 32)] ++ List.replicate 12 0

/-- A free word. -/
def State.freeWord (s : State) (i : Nat) : Word := (Config.freeBits (s.fresh + i)).setWidth 32
def State.freeNat (s : State) (i w : Nat) : Nat := (Config.freeBits (s.fresh + i)).toNat % 2 ^ w

/-- An address register whose contents are free. -/
def State.freeAddr (s : State) (i : Nat) : AddrReg :=
  { offset := s.freeNat i 15, base := s.freeNat (i + 1) 15, length := s.freeNat (i + 2) 15, step := signed 16 (s.freeNat (i + 3) 16) }

/-- The core as a kernel finds it at ENTRY (R330): the registers it names, every other register free. -/
def State.kernelEntry (s : State) (e entry lanes : Nat) (x : Tbl Word) : CoreState :=
  let c := s.core e
  let lin : AddrReg := { offset := 0, base := 0x6000, length := 0, step := signed 16 (s.freeNat 500 16) }
  let lin8 : AddrReg := { lin with step := signed 16 (s.freeNat 501 16) }
  { c with
    pc := (4096 + entry) % 8192
    st := { z := bitOf (s.freeNat 502 8) 0, n := bitOf (s.freeNat 502 8) 1, c := bitOf (s.freeNat 502 8) 2
            o := bitOf (s.freeNat 502 8) 3, nsat := bitOf (s.freeNat 502 8) 4, larm := bitOf (s.freeNat 502 8) 5
            ie := true, kmode := true }
    epc := s.freeNat 503 13
    est := { z := bitOf (s.freeNat 504 8) 0, n := bitOf (s.freeNat 504 8) 1, c := bitOf (s.freeNat 504 8) 2
             o := bitOf (s.freeNat 504 8) 3, nsat := bitOf (s.freeNat 504 8) 4, larm := bitOf (s.freeNat 504 8) 5
             ie := bitOf (s.freeNat 504 8) 6, kmode := bitOf (s.freeNat 504 8) 7 }
    halted := false, waiting := false
    d := tsetMany 0 [] 0 (BitVec.ofNat 32 lanes :: (List.range 15).map s.freeWord)
    a := tsetMany {} [] 0 ((List.range 16).map (fun i => if i = 0 then lin else if i = 8 then lin8 else s.freeAddr (16 + 4 * i)))
    v := tsetMany 0 [] 0 ((List.range 256).map (fun i => s.freeWord (80 + i)))
    acc := tsetMany 0 [] 0 ((List.range 64).map (fun i => sat48 (signed 48 (s.freeNat (340 + i) 48))))
    accSat := tsetMany false [] 0 ((List.range 64).map (fun i => bitOf (s.freeNat (404 + i) 1) 0))
    lstart := tsetMany 0 [] 0 ((List.range 4).map (fun i => s.freeNat (470 + i) 13))
    lend := tsetMany 0 [] 0 ((List.range 4).map (fun i => s.freeNat (474 + i) 13))
    lcount := tsetMany 0 [] 0 ((List.range 4).map (fun i => s.freeNat (478 + i) 32))
    level := 0, calls := [], x := x, ksteps := 0, inHandler := false
    fw := some (c.pc, c.st, c.calls) }

/-- Firmware writes a batch into the X planes and calls the kernel (R329, R330). Batches are handed to the
engines in turn, one in flight (DESIGN CHOICE, log 19). -/
def State.startBatch (s : State) : State :=
  match s.outp.todo, s.exportTrick with
  | r :: _, some k =>
    let es := s.kernelEngines k.plan.id
    let b := batchOf s.outp.todo
    if s.batchLive || es.isEmpty || s.modl.warm then s
    else
      let e := es.getD (s.outp.batchNo % es.length) 0
      let c := s.core e
      let x := tsetMany 0 c.x 0x6000 (plane b (fun z => code 48 z.re % 2 ^ 32) ++ plane b (fun z => code 48 z.im % 2 ^ 32) ++
        plane b (fun z => code 48 z.re / 2 ^ 32 + 2 ^ 16 * (code 48 z.im / 2 ^ 32)) ++
        plane b (fun z => z.count + if z.sat then 2 ^ 31 else 0) ++ batchDesc r b.length)
      let s := s.setCore e (s.kernelEntry e (fieldAt k.plan.kernel 14 2) b.length x)
      let s := { s with fresh := s.fresh + 512,
                        outp := { s.outp with batch := some (e, b.length), batchNo := s.outp.batchNo + 1 } }
      s.send (.coreIrq e .exportBatch)
  | _, _ => s

/-- A cell of a plan whose kernel has faulted is exported in RAW (R336). -/
def Rec.toRaw (r : Rec) : Rec :=
  { r with bytes := if r.raw.isEmpty then r.bytes else r.raw, raw := [], cell := false
           pfmt := r.pfmt / 4 * 4, cap := 512 }

/-- The records of the export are written while there is room; a cell waits for its batch (R288, R330). -/
def State.writeTodo (s : State) : Nat → State
  | 0 => s
  | n + 1 => match s.outp.todo, s.exportTrick with
    | r :: rest, some k =>
      if r.cell then s.startBatch
      else if s.mayWrite k.plan.id r.dest then
        (({ s with outp := { s.outp with todo := rest } }).putRec r).writeTodo n
      else s
    | _, _ => s

/-- The export goes on. -/
def State.goOn (s : State) : State := if s.modl.warm then s else s.writeTodo (s.outp.todo.length + 1)

/-- The core is back in firmware after a kernel call (R331). -/
def State.leaveKernel (s : State) (e : Nat) : State :=
  let c := s.core e
  match c.fw with
  | some (pc, st, calls) => s.setCore e { c with pc := pc, st := st, calls := calls, fw := none, ksteps := 0, inHandler := false }
  | none => s

/-- The kernel call of engine `e` ends at a trap: the core goes on at the trap vector (R322, R324, R336). -/
def State.stopKernel (s : State) (e : Nat) : State := s.setCore e { s.core e with fw := none, ksteps := 0, inHandler := false }

/-- The kernel of engine `e` returns: the records of its lanes take their cells' places (R330). -/
def State.kernelReturn (s : State) (e : Nat) : State :=
  let c := s.core e
  let s := (s.leaveKernel e).bump .ENG_KBATCH_COUNT e
  match s.outp.batch, s.exportTrick with
  | some (g, lanes), some k =>
    if g ≠ e then s
    else
      let n := fieldAt k.plan.kernel 5 1
      let recOf := fun i => (List.range n).flatMap (fun w => leBytes 4 (tget 0 c.y (0x6000 + i * n + w)).toNat)
      let head := (List.zip (List.range lanes) (s.outp.todo.take lanes)).map (fun ir =>
        { ir.2 with bytes := recOf ir.1, raw := ir.2.bytes, cell := false })
      ({ s with outp := { s.outp with batch := none, todo := head ++ s.outp.todo.drop lanes } }).goOn
  | _, _ => s

/-- Streams whose open packet holds kernel records and is not full. -/
def State.kernelStreams (s : State) (id : Nat) : List Nat :=
  ((List.range 3).flatMap (fun p => (s.part p).openPkts.filterMap (fun q =>
    if q.2.ptype == 1 && q.2.pfmt % 4 == 3 && q.2.nrec < q.2.cap && q.1 / 1024 == id then some q.1 else none)))

/-- A kernel fault on engine `e` (R336): every kernel stops, the packets being assembled are taken back, and
the plan exports RAW from there on. -/
def State.kernelFault (s : State) (e cause : Nat) : State :=
  let s := forN 96 (fun s g => if g = e then s.stopKernel g else s.leaveKernel g) s
  let s := ((s.flag .ENG_KSTAT_FAULT).wr .ENG_KSTAT_FCAUSE 0 cause).wr .ENG_KFENG_ENGINE 0 e
  match s.exportTrick with
  | none => ((s.flag .ENG_KEVT_FAULT).event 6 0x0605 e 0 cause).fault e 8 1
  | some k =>
    let s := (s.wr64 .ENG_KFTRICK 0 k.first).flag .ENG_KEVT_FAULT
    let s := (s.event 6 0x0605 e k.first cause).fault e 8 1
    let ks := s.kernelStreams k.plan.id
    let back := (ks.flatMap (fun q => tget [] s.outp.kcells q)).map (fun (r : Rec) => { r with counted := true })
    let s := forN 3 (fun s p =>
      let x := s.part p
      s.setPart p { x with openPkts := x.openPkts.filter (fun q => !ks.contains q.1) }) s
    let o := s.outp
    let s := { s with outp := { o with
      batch := none
      kfaults := k.plan.id :: o.kfaults
      kcells := ks.foldl (fun t q => tdel t q) o.kcells
      todo := (back ++ o.todo).map (fun (r : Rec) => if r.cell || !r.raw.isEmpty then r.toRaw else r) } }
    s.goOn

/-- KERNEL_COPY (R328): the kernel that exports need now, into an engine between calls. -/
def execKernelCopy (e : EngineId) (s : State) : Host.Outcome State Fault Refusal :=
  let g := e.val
  .next <|
    match s.kernelPlan with
    | none => s
    | some p =>
      if s.rd .ENG_STAT_STATE g ≠ egActive || (s.core g).fw.isSome || (s.eng g).kplan == some p.id || s.inReset then s
      else s.loadKernel g p

/-! ### The close of a trick (R209, R296) -/

/-- The streams of a trick that `q` names are closed. -/
def State.endTrickStreams (s : State) (trick : Nat) (q : Pkt → Bool) : State :=
  let l := (List.range 3).flatMap (fun p => (s.part p).openPkts.filterMap (fun x =>
    if x.2.trick == trick && q x.2 then some x.1 else none))
  l.foldl (fun s x => s.endStream x) s

/-- An output stall begins when a trick closes while the one before it is not exported (R296). -/
def State.beginStall (s : State) (first : Nat) : State :=
  if s.on .OUT_STAT_STALL then s
  else
    let s := ((s.flag .OUT_STAT_STALL).flag .OUT_EVT_STALL).bump .OUT_STALLCNT_COUNT
    let s := { s with outp := { s.outp with stallAt := some s.clock, stallTrick := first } }
    (s.event 7 0x0702 0 first 0).notePause

/-- The stall ends once every trick before the one that began it is exported (R296). -/
def State.endStall (s : State) : State :=
  match s.outp.stallAt with
  | none => s
  | some t =>
    if s.tricks.closed.any (fun k => !k.exported && decide (k.first < s.outp.stallTrick)) then s
    else
      let ms := (s.clock - t) / 1000000
      let s := { s with outp := { s.outp with stallAt := none, stallNs := s.outp.stallNs + (s.clock - t) } }
      let s := s.wr .OUT_STAT_STALL 0 0
      let s := s.event 7 0x0703 0 s.outp.stallTrick (min ms (2 ^ 64 - 1))
      s.notePause.resumeAccept

/-- The trick of plan `p` from `c` to `e` closes (R209). -/
def State.closeTrick (s : State) (p : ActivePlan) (c e : Nat) : State :=
  let named := s.dealer.longs.filter (fun o => match o.kind with | .trickClose b _ => b == e | _ => false)
  let s := named.foldl (fun s o => match o.kind with
    | .trickClose b dsn =>
      let s := match s.timeOf b with | some n => s.reach n | none => s
      s.event 2 0x0206 (transportOf o.src) b dsn
    | _ => s) s
  let s := s.event 6 0x0602 p.slot c (e - c)
  let dsn := s.lastDsn
  let s := s.record 1 0 1 dsn (leBytes 8 c ++ leBytes 8 (e - c) ++ leBytes 1 p.slot)
  let s := s.endTrickStreams c (fun k => k.ptype == 2 || k.ptype == 3 || k.ptype == 4)
  let b := s.rd .ENG_ACCSEL_ACCUM
  let busy := s.tricks.closed.any (fun k => !k.exported)
  let parts := (partsUsed (s.rates p.data p.kernel)).foldl (fun a q => a + 2 ^ q) 0
  let k : Trick := { first := c, len := e - c, plan := p, isOpen := pL p.data == 0, isPartial := partialTrick p c e, buf := b
                     dsn := dsn, parts := parts, held := false }
  let k := { k with held := !k.endsGroup (maxTf p.data) }
  let s := { s with tricks := { s.tricks with closed := s.tricks.closed ++ [k], cur := s.nextTrick e
                                              starts := if k.isOpen then c :: s.tricks.starts else s.tricks.starts } }
  let s := { s with tricks := { s.tricks with past := s.tricks.past.filter (fun q => decide (e < q.ends.getD 0)) } }
  let s := (s.wr .ENG_ACCSEL_ACCUM 0 (1 - b)).wr64 .ENG_TRICK 0 (s.tricks.cur.getD e)
  let s := s.wr64 .OUT_STATBASE 0 (hbmBase + if b = 0 then p.stat0 else p.stat1)
  let s := s.showTricks
  let s := if busy then s.beginStall c else s
  let s := named.foldl (fun s o => s.endLong o stDone) s
  s.freeDue.openDue

/-- Everything R209 asks of a trick's last range is done: all is released of a plan whose copy has been freed. -/
def State.lastRangeDone (s : State) (p : ActivePlan) (t : Nat) : Bool :=
  s.tricks.past.any (fun q => q.id == p.id) || (List.range (pN p.data)).all (fun ch => s.finished p t ch)

/-- TRICK_CLOSED (R209): every range channel of the last range is committed, its statistics too, and its
beam partials are handed on; no trick closes during a supply freeze (R200). -/
def execTrickClosed (s : State) : Host.Outcome State Fault Refusal :=
  .next <|
    match s.tricks.cur with
    | none => s
    | some c => match s.planOf c with
      | none => s
      | some p =>
        let e := s.trickEnd p c
        if s.frozen || s.inReset || !s.lastRangeDone p (e - pS p.data) then s
        else s.closeTrick p c e

/-! ### Export (R260, R261) -/

/-- EXPORT_START (R260 to R271): the oldest closed trick that is not exported, unless it waits under R294; an
export in progress goes on. -/
def execExportStart (s : State) : Host.Outcome State Fault Refusal :=
  .next <|
    if s.modl.warm then s
    else if s.outp.exporting.isSome then s.goOn
    else match s.tricks.closed.find? (fun k => !k.exported) with
      | none => s
      | some k =>
        if s.waitsRel k.first then s
        else match k.plan.acc k.buf with
          | none => s
          | some base =>
            let r := (s.noteAveraging k).exportAll k base
            let s := (r.1.noteLines k.plan.data base).writeAveraging k
            let s := { s with outp := { s.outp with exporting := some k.first, todo := r.2 } }
            let s := (s.flag .OUT_STAT_EXPORT).wr64 .OUT_EXPTRICK 0 k.first
            (s.setTrick k.first (fun x => { x with exporting := true })).goOn

/-- The incoming plan's other accumulator buffer is allocated in the space that the outgoing plan leaves, once the last
trick of the outgoing plan is exported (R66; log 5). -/
def State.allocAcc (s : State) : State :=
  match s.plans.active with
  | some p =>
    if (p.acc0.isSome && p.acc1.isSome) || s.tricks.cur.any (· < p.d) ||
        s.tricks.closed.any (fun k => !k.exported && k.plan.id != p.id) then s
    else
      let o := s.allocAt
      let p := if p.acc0.isNone then { p with acc0 := some o } else { p with acc1 := some o }
      let s := s.alloced
      ({ s with plans := { s.plans with active := some p } }).showBases (some p)
  | none => s

/-- EXPORT_COMPLETE (R261): the last record is written; the buffer is released from export. -/
def execExportComplete (s : State) : Host.Outcome State Fault Refusal :=
  .next <|
    match s.exportTrick with
    | none => s
    | some k =>
      if !s.outp.todo.isEmpty || s.modl.warm then s
      else
        let s := s.endTrickStreams k.first (fun q => q.ptype == 1)
        let s := s.setTrick k.first (fun x => { x with exported := true, exporting := false })
        let s := { s with outp := { s.outp with exporting := none } }
        let s := s.wr .OUT_STAT_EXPORT 0 0
        let s := s.showTricks
        (s.allocAcc.endStall).tryRelease

/-! ### Trick summaries (R279) -/

/-- No zoom output whose last input lies below `e` is still to come. -/
def State.zoomPast (s : State) (e : Nat) : Bool :=
  (List.range 64).all (fun k =>
    let x := s.zslot k
    !x.inUse || decide (e < x.nextOut * x.dz + skewOf k x.dz + x.dz))

/-- Every record that holds data of a trick has been written (R279). -/
def State.allWritten (s : State) (k : Trick) : Bool :=
  k.exported && s.zoomPast (k.first + k.len) &&
  (!k.held || s.tricks.closed.any (fun j => j.exported && j.plan.id == k.plan.id && decide (k.first < j.first) &&
    j.endsGroup (maxTf k.plan.data)))

/-- The summary payload (R279). -/
def State.summaryBytes (s : State) (k : Trick) (p : Nat) : List Byte :=
  let n := fun i => min (2 ^ 32 - 1) (tget 0 s.outp.tally (16 * k.first + 4 * p + i))
  padTo 64 (leBytes 8 k.first ++ leBytes 8 k.len ++ leBytes 8 k.dsn ++ leBytes 4 (n 0) ++ leBytes 4 (n 1) ++
    leBytes 4 (n 2) ++ leBytes 1 ((if k.isPartial then 1 else 0) + (if k.isOpen then 2 else 0) + (if k.held then 4 else 0)))

/-- TRICK_SUMMARY (R279): the next trick of the partition in trick order, once all its records are written
and there is room. -/
def execTrickSummary (p : PartId) (s : State) : Host.Outcome State Fault Refusal :=
  let q := p.val
  .next <|
    match s.tricks.closed.find? (fun k => bitOf k.parts q && !bitOf k.summed q) with
    | none => s
    | some k =>
      let room := s.outp.laid.contains k.plan.id && decide ((s.part q).fill + maxPkt ≤ s.partSize q)
      if !room || s.modl.warm || !s.allWritten k then s
      else
        let s := s.endTrickStreams k.first (fun x => x.ptype == 5)
        let t := s.stamp k.first
        let pkt : Pkt := { pseq := 0, ptype := 7, pfmt := 0, flags := (if k.isPartial then 1 else 0) + (if k.isOpen then 64 else 0)
                           trick := k.first, start := k.first, tsec := t.1, tns := t.2, first := 0, chan := 0, nrec := 0
                           subid := 0, payload := s.summaryBytes k q, port := portSet k.plan.data q }
        let s := s.pushPkt q pkt
        let tl := [0, 1, 2].foldl (fun m i => tdel m (16 * k.first + 4 * q + i)) s.outp.tally
        let s := { s with outp := { s.outp with tally := tl } }
        (s.setTrick k.first (fun x => { x with summed := x.summed + 2 ^ q })).tryRelease

/-! ### The drain (R284, R289 to R291, R297 to R300) -/

/-- A trick-delivered record that covers the trick is written: one of its own time, for it or a later trick (R293). -/
def State.deliveredRec (s : State) (t : Trick) : Bool :=
  s.ledger.recs.any (fun r => r.type == 2 && decide (t.dsn < r.dsn) && decide (t.first ≤ leVal r.payload))

/-- A summary waits for its trick-delivered record in DRAIN mode, or while the ledger is read-only for the release
(R293). -/
def State.summaryWaits (s : State) (k : Pkt) : Bool :=
  k.ptype == 7 && s.tricks.closed.any (fun t => t.first == k.trick && pRelmode t.plan.data == 0 &&
    !(t.released && (s.on .LGR_STAT_RO || s.deliveredRec t)))

/-- The packet that a poisoned line replaces (R415). -/
def lostPkt (k : Pkt) : Pkt :=
  { pseq := k.pseq, ptype := 8, pfmt := 0, flags := 0, trick := 0, start := 0, tsec := 0, tns := 0, first := 0, chan := 0
    nrec := 0, subid := 0, payload := [], pos := k.pos, port := k.port }

/-- The packet as it leaves: its own, or Lost where its ring lines are poisoned, which is a fault (R415). -/
def State.takeOut (s : State) (p : Nat) (k : Pkt) : State × Pkt :=
  let s := (s.ringPlaces p k.pos k.size).foldl (fun s an => s.linesRead an.1 an.2) s
  if (s.ringPlaces p k.pos k.size).any (fun an => s.hbmPoisoned an.1 an.2) then (s.fault srcOutput 4 1, lostPkt k) else (s, k)

/-- Source and destination address of a frame as its IP version writes them. -/
def PortSettings.addrs (x : PortSettings) : List Byte :=
  let n := if x.ipv6 then 16 else 4
  beBytes n x.srcIp.toNat ++ beBytes n x.dstIp.toNat

/-- The IP header before a UDP datagram of `n` bytes (R281, R283): IPv4 with DF set, identification 0 and its checksum,
or IPv6. -/
def PortSettings.ipHeader (x : PortSettings) (n : Nat) : List Byte :=
  if x.ipv6 then
    beBytes 4 (6 * 2 ^ 28 + 4 * 2 ^ 20 * x.dscp.toNat) ++ beBytes 2 n ++ beBytes 1 17 ++ beBytes 1 x.ttl.toNat ++ x.addrs
  else
    let a := beBytes 1 0x45 ++ beBytes 1 (4 * x.dscp.toNat) ++ beBytes 2 (20 + n) ++ beBytes 2 0 ++ beBytes 2 0x4000 ++
      beBytes 1 x.ttl.toNat ++ beBytes 1 17
    a ++ beBytes 2 (inetSum (sum16 a + sum16 x.addrs)) ++ x.addrs

/-- The UDP datagram of a payload (R281, R283): checksum 0 over IPv4, computed over IPv6 (with its pseudo-header, 0
written as 0xFFFF). -/
def PortSettings.udp (x : PortSettings) (l : List Byte) : List Byte :=
  let n := 8 + l.length
  let ports := beBytes 2 x.srcPort.toNat ++ beBytes 2 x.dstPort.toNat ++ beBytes 2 n
  let c := inetSum (sum16 x.addrs + n + 17 + sum16 ports + sum16 l)
  ports ++ beBytes 2 (if x.ipv6 then (if c = 0 then 0xFFFF else c) else 0) ++ l

/-- The Ethernet frame of a payload, FCS last (R276, R281, R283; PRESUMED header layouts, log 31). -/
def PortSettings.frame (x : PortSettings) (l : List Byte) : List Byte :=
  let tag := match x.vlan with
    | some v => beBytes 2 0x8100 ++ beBytes 2 (2 ^ 13 * v.2.toNat + v.1.toNat)
    | none => []
  let u := x.udp l
  let f := beBytes 6 x.dstMac.toNat ++ beBytes 6 x.srcMac.toNat ++ tag ++ beBytes 2 (if x.ipv6 then 0x86DD else 0x0800) ++
    x.ipHeader u.length ++ u
  f ++ fcs f

/-- The frame of a packet that leaves a port now (R281, R283, R284). -/
def State.frameOf (s : State) (k : Pkt) : List Byte :=
  (Config.portSettings k.port).frame (s.pktBytes k s.timeb.sec s.timeb.ns)

/-- The packet's last byte leaves a port (R284, R304). -/
def State.portSend (s : State) (q : Nat) (k : Pkt) (again : Bool) : State :=
  let f := s.frameOf k
  ((s.bump64 .ETH_TXPKT q).bump64 .ETH_TXBYTE q f.length).send (.drained q k s.timeb.sec s.timeb.ns again f)

/-- Size of the host ring, and what of it is filled. -/
def State.hostRing (s : State) : Nat := 2 ^ s.rd .OUT_HSIZE_LOG2
def State.hostFill (s : State) : Nat :=
  (s.rd .OUT_HWR_OFFSET + s.hostRing - s.rd .OUT_HRD_OFFSET) % s.hostRing

/-- Padded size of a packet in the host ring (R297), and the pad before it when it would cross the end (R299). -/
def hostSize (k : Pkt) : Nat := ceilDiv k.size 64 * 64
def State.hostPad (s : State) (k : Pkt) : Nat :=
  let rest := s.hostRing - s.rd .OUT_HWR_OFFSET
  if rest < hostSize k then rest else 0

/-- The host ring takes a packet: OUT_HWR stays more than 64 bytes behind OUT_HRD (R298). -/
def State.hostRoom (s : State) (k : Pkt) : Bool :=
  decide (s.hostFill + s.hostPad k + hostSize k + 64 < s.hostRing)

/-- MSI-X of the host ring (R300). -/
def State.hostSignal (s : State) : State :=
  ({ s with outp := { s.outp with unsignalled := 0 } }).send (.msix (s.rd .OUT_HCTL_VEC))

/-- A packet is written to the host ring, after a PAD where it would cross the end (R297 to R300). -/
def State.hostSend (s : State) (k : Pkt) (again : Bool) : State :=
  let w := s.rd .OUT_HWR_OFFSET
  let pad := s.hostPad k
  let base := s.rd64 .OUT_HBASE
  let padHead := leBytes 2 0x4F47 ++ leBytes 1 1 ++ leBytes 1 0 ++ leBytes 1 s.moduleId ++ leBytes 3 0 ++ leBytes 8 k.pseq ++
    List.replicate 46 0 ++ leBytes 2 (pad - 64)
  let s := if pad = 0 then s else s.hostWrite (base + w) padHead
  let at_ := if pad = 0 then w else 0
  let l := padTo (hostSize k) (s.pktBytes k s.timeb.sec s.timeb.ns)
  let s := s.hostWrite (base + at_) l
  let w' := (at_ + hostSize k) % s.hostRing
  let s := (s.wr .OUT_HWR_OFFSET 0 w').hostWrite (s.rd64 .OUT_HWB) (leBytes 8 w')
  let s := s.send (.drained 2 k s.timeb.sec s.timeb.ns again l)
  let n := s.outp.unsignalled + 1
  let s := { s with outp := { s.outp with unsignalled := n, unsigAt := if n = 1 then s.clock else s.outp.unsigAt } }
  if 2 ^ s.rd .OUT_HCTL_MODK ≤ n || k.ptype == 7 then s.hostSignal else s

/-- A partition's way out is open for a packet (R289, R297). -/
def State.canSend (s : State) (p : Nat) (k : Pkt) : Bool :=
  bitOf (s.rd .OUT_CTL_DRAIN) p && !s.modl.warm &&
  (if p < 2 then s.on .ETH_STAT_LINK p
   else s.on .OUT_HCTL_EN && s.modl.pciUp && !s.on .DMA_GSTAT_HALTED && s.hostRoom k)

/-- A partition may send a packet; during a supply freeze only the one that it was sending (R289, R291, R297). -/
def State.mayDrain (s : State) (p : Nat) (k : Pkt) : Bool :=
  s.canSend p k && (!s.frozen || (s.part p).sending == some k.pseq)

/-- The packet that a partition is sending: its first resend, else its first packet not yet drained (R289, R290). -/
def State.nowSending (s : State) (p : Nat) : Option Nat :=
  let x := s.part p
  match x.resends, x.queue with
  | k :: _, _ => if s.canSend p k then some k.pseq else none
  | [], k :: _ => if s.canSend p k && !s.summaryWaits k then some k.pseq else none
  | [], [] => none

/-- The packet that host delivery moves now. -/
def State.hostPkt (s : State) : Option Pkt :=
  if (s.nowSending 2).isNone then none else ((s.part 2).resends ++ (s.part 2).queue).head?

/-- Bytes that channel 15 has still to move of the packet that host delivery sends; 0 where it moves none (R297, R455). -/
def State.hostLeft (s : State) : Nat := match s.hostPkt with | some k => hostSize k - (s.dmac 15).moved | none => 0

/-- Host delivery has a burst ready: channel 15, which the output stage runs at priority 0 (R297, R455). -/
def State.hostReady (s : State) : Bool := decide (0 < s.hostLeft)

/-- State of channel 15 while host delivery has it (R455, R465, R469). -/
def State.hostState (s : State) : Nat :=
  if s.hostReady then dcMove else if s.on .DMA_GSTAT_HALTED && s.rd .DMA_CSTAT_LAST 15 == dsHalted then dcHalted else dcIdle

/-- Every partition stops after the packet it is sending (R291). -/
def State.stopDrains (s : State) : State := forN 3 (fun s p => s.setPart p { s.part p with sending := s.nowSending p }) s

/-- A host address that host delivery of a packet needs and the outbound window does not reach (R447). -/
def State.hostMiss (s : State) (p : Nat) (k : Pkt) : Option Nat :=
  let w := s.rd .OUT_HWR_OFFSET
  let pad := s.hostPad k
  let base := s.rd64 .OUT_HBASE
  let want := [(base + (if pad = 0 then w else 0), hostSize k), (s.rd64 .OUT_HWB, 8)] ++ (if pad = 0 then [] else [(base + w, 64)])
  if p < 2 then none else (want.find? (fun x => !s.hostIn x.1 x.2)).map (·.1)

/-- Such a write is refused (R444) and halts the DMA engine (R447, R462); the packet stays. -/
def State.deliveryError (s : State) (a : Nat) : State := ((s.wr .DMA_CSTAT_LAST 15 dsHalted).fabRefuse 2 1 (a % 2 ^ 40)).busError (a % 2 ^ 40) 1 false

/-- A packet leaves its partition's port or goes to the host. -/
def State.sendOut (s : State) (p : Nat) (k : Pkt) (again : Bool) : State :=
  let r := s.takeOut p k
  if p < 2 then r.1.portSend p r.2 again else ((r.1.hostSend r.2 again).setDmac 15 {}).wr .DMA_CSTAT_LAST 15 dsDone

/-- PACKET_DRAINED (R289, R290): a resend first, else the first packet not yet drained. -/
def execPacketDrained (p : PartId) (s : State) : Host.Outcome State Fault Refusal :=
  let q := p.val
  let x := s.part q
  .next <|
    match x.resends with
    | k :: rest =>
      if !s.mayDrain q k then s
      else match s.hostMiss q k with
        | some a => s.deliveryError a
        | none => ((s.setPart q { x with resends := rest, sending := none }).sendOut q k true).tryRelease
    | [] => match x.queue with
      | [] => s
      | k :: rest =>
        if !s.mayDrain q k || s.summaryWaits k then s
        else match s.hostMiss q k with
          | some a => s.deliveryError a
          | none =>
            let s := s.setPart q { x with queue := rest, retained := x.retained ++ [{ k with flags := k.flags / 16 * 16 + k.flags % 8 }]
                                          sending := none }
            let s := (s.sendOut q k (bitOf k.flags 3)).showPart q
            s.tryRelease.goOn

/-- HOST_SIGNAL_TIMEOUT (R300): MODUS µs after the first packet not yet signalled. -/
def execHostSignalTimeout (s : State) : Host.Outcome State Fault Refusal :=
  .next (if s.outp.unsignalled = 0 || s.clock < s.outp.unsigAt + 1000 * s.rd .OUT_HCTL_MODUS then s else s.hostSignal)

/-- OUT_HRD (R298): the host's read offset, within the filled region and a multiple of 64. -/
def execOutHrd (v : Word) (s : State) : Host.Outcome State Fault Refusal :=
  let n := v.toNat
  let size := s.hostRing
  .next <|
    if n % 64 = 0 && decide (n < size) && decide ((n + size - s.rd .OUT_HRD_OFFSET) % size ≤ s.hostFill) then
      s.wr .OUT_HRD_OFFSET 0 n
    else s.flag .OUT_EVT_HRDREJ

/-- ETH_LINK_UP (R289, R304). -/
def execEthLinkUp (q : PortId) (s : State) : Host.Outcome State Fault Refusal :=
  .next (if (List.range 4).any (fun i => tget false s.pow.railOff (126 + 4 * q.val + i)) then s
    else ((s.wr .ETH_STAT_LINK q.val 1).wr .ETH_STAT_FEC_LOCK q.val 1).setLive (srcPort q.val) 1 1 false)

/-- ETH_LINK_DOWN (R289, R473). -/
def execEthLinkDown (q : PortId) (s : State) : Host.Outcome State Fault Refusal :=
  .next (((s.wr .ETH_STAT_LINK q.val 0).wr .ETH_STAT_FEC_LOCK q.val 0).fault (srcPort q.val) 1 1)

/-- ETH_RXDISC (R285). -/
def execEthRxdisc (q : PortId) (s : State) : Host.Outcome State Fault Refusal := .next (s.bump .ETH_RXDISC_COUNT q.val)

/-! ### Resend and statistics (R280, R290) -/

/-- The packets of a range of PSEQs that a partition retains; none unless every one is retained. -/
def State.retainedRange (s : State) (p first count : Nat) : Option (List Pkt) :=
  let l := (s.part p).retained.filter (fun k => decide (first ≤ k.pseq ∧ k.pseq < first + count))
  if l.length = count then some l else none

/-- A resend command (R290). Answers the status. -/
def State.resend (s : State) (p first count : Nat) : State × Nat :=
  if 2 < p ∨ count = 0 then (s, rejParam)
  else if !(s.part p).inUse then (s, rejState)
  else match s.retainedRange p first count with
    | none => (s, rejState)
    | some l =>
      let x := s.part p
      ((s.setPart p { x with resends := x.resends ++ l.map (fun k => { k with flags := k.flags ||| 8 }) }).flag .OUT_EVT_RESEND, stOk)

/-- First counter of the trick after next of a closed trick, once it is known (R280). -/
def State.bankEnds (s : State) (k : Trick) : Option Nat :=
  match s.tricks.closed.filter (fun j => decide (k.first < j.first)) with
  | [] => s.tricks.cur.bind (fun c => (s.planOf c).map (fun p => s.trickEnd p c))
  | [_] => s.tricks.cur
  | _ :: j :: _ => some j.first

/-- The statistics bank still holds closed trick `k`: no statistics of the trick after next are committed. -/
def State.bankHolds (s : State) (k : Trick) : Bool :=
  (s.tricks.closed.filter (fun j => decide (k.first < j.first))).length < 2 &&
  (match s.bankEnds k with
   | none => true
   | some a => !(s.deck.chans.any (fun c => decide (a ≤ c.1 / 1024 * 4096) && c.2.stats)) &&
      (match s.planAt a with | some p => (List.range (pN p.data)).all (fun ch => s.releasedTo p ch ≤ a) | none => true))

/-- Ring space of a statistics stream (R280): its entries in packets of 256. -/
def statStream (d : Tbl Byte) : Nat :=
  let n := 64 * pNg d * pN d
  32 * n + 64 * ceilDiv n 256

/-- Whether a statistics send is accepted (R280), by R525. -/
def State.statsStatus (s : State) (trick part : Nat) : Nat :=
  if 2 < part then rejParam
  else match s.plans.active, s.tricks.closed.find? (fun k => k.first == trick) with
    | some a, some k =>
      if !(partsUsed (s.rates a.data a.kernel)).contains part || !(s.part part).inUse || !s.bankHolds k then rejState
      else if s.partSize part < statStream k.plan.data + (s.part part).undrained then rejFull
      else stAccepted
    | _, _ => rejState

/-- The statistics stream of a trick in a partition (R272, R277, R415). -/
def State.sendStats (s : State) (k : Trick) (part : Nat) : State :=
  let d := k.plan.data
  let n := 64 * pNg d * pN d
  let m := ceilDiv n 256
  let entry := fun (i : Nat) =>
    let o := statOff k.plan k.buf 0 0 + 32 * i
    let l := s.hbmRead o 32
    if s.hbmPoisoned o 32 then { statOf l with sat := true }.bytes else l
  let bad := (List.range n).filter (fun i => i % 32 == 0 && s.hbmPoisoned (statOff k.plan k.buf 0 0 + 32 * i) 1024)
  let s := bad.foldl (fun s _ => s.fault srcOutput 4 1) (s.linesRead (statOff k.plan k.buf 0 0) (32 * n))
  let t := s.stamp k.first
  forN m (fun s j =>
    let cnt := min 256 (n - 256 * j)
    let es := (List.range cnt).map (fun i => entry (256 * j + i))
    let sat := es.any (fun l => bitOf (fieldAt l 16 4) 31)
    s.pushPkt part { pseq := 0, ptype := 6, pfmt := 0
                     flags := (if k.isPartial then 1 else 0) + (if sat then 2 else 0) + (if k.isOpen then 64 else 0) + (if j + 1 = m then 128 else 0)
                     trick := k.first, start := k.first, tsec := t.1, tns := t.2, first := 256 * j % (64 * pNg d)
                     chan := 256 * j / (64 * pNg d), nrec := cnt, subid := 0, payload := es.flatten
                     port := portSet d part }) s

/-- Range channels whose statistics waited for the bank are committed (R280). -/
def State.commitWaiting (s : State) : State :=
  (s.cutChans (fun x => x.merged && !x.stats)).foldl (fun s tc =>
    match s.planAt tc.1 with | some p => s.commitStats p tc.1 tc.2 | none => s) s

/-- STATS_SEND_COMPLETE (R280): the oldest statistics send is written, once nothing that has not drained, nor a packet
being assembled, needs its space (R288). -/
def execStatsSendComplete (s : State) : Host.Outcome State Fault Refusal :=
  .next <|
    match s.findLong (fun k => match k with | .statsSend _ _ => true | _ => false) with
    | none => s
    | some o => match o.kind with
      | .statsSend trick part =>
        match s.tricks.closed.find? (fun k => k.first == trick) with
        | some k =>
          if s.partSize part < statStream k.plan.data + (s.part part).fill || s.modl.warm then s
          else ((s.sendStats k part).endLong o stDone).commitWaiting
        | none => (s.endLong o stDone).commitWaiting
      | _ => s

/-! ### The layout of the ring (R286, R287) -/

/-- The partitions as they are: number and size in MiB. -/
def State.ringNow (s : State) : List (Nat × Nat) :=
  (List.range 3).filterMap (fun p => if (s.part p).inUse then some (p, s.partSize p / 2 ^ 20) else none)

/-- Partitions a plan asks for (R286). -/
def State.ringWanted (s : State) (p : ActivePlan) : List (Nat × Nat) :=
  ringSplit (1024 * s.plans.ringGib) (s.rates p.data p.kernel)

/-- The ring is laid out afresh: each partition in turn, empty, its PSEQ going on (R286, R287). -/
def State.layRing (s : State) (l : List (Nat × Nat)) : State :=
  let base := s.allocAt
  let s := s.alloced
  let s := forN 3 (fun s p =>
    match l.find? (fun q => q.1 == p) with
    | some (_, m) =>
      let off := ((l.filter (fun q => decide (q.1 < p))).map Prod.snd).sum * 2 ^ 20
      let s := s.setPart p { inUse := true }
      ((s.wr64 .OUT_PBASE p (hbmBase + base + off)).wr64 .OUT_PSIZE p (m * 2 ^ 20)).showPart p
    | none =>
      let s := s.setPart p {}
      ((s.wr64 .OUT_PBASE p 0).wr64 .OUT_PSIZE p 0).showPart p) s
  s.wr .OUT_STAT_PARTS 0 (l.foldl (fun a q => a + 2 ^ q.1) 0)

/-- Nothing of an earlier plan is left to be written or drained (R287). -/
def State.ringEmpty (s : State) (id : Nat) : Bool :=
  s.tricks.closed.all (fun k => decide (id ≤ k.plan.id) || (k.exported && k.summed == k.parts)) &&
  (match s.tricks.cur with
   | some c => (match s.planOf c with | some p => decide (id ≤ p.id) | none => true)
   | none => true) &&
  (List.range 3).all (fun p => let x := s.part p; x.queue.isEmpty && x.openPkts.isEmpty && x.resends.isEmpty)

/-- A plan's producers may write: at once where the partitions stay as they are, else once its layout has
its turn (R287). -/
def State.askLayout (s : State) (p : ActivePlan) : State :=
  if s.outp.layouts.isEmpty && s.ringNow == s.ringWanted p then
    { s with outp := { s.outp with laid := p.id :: s.outp.laid } }
  else { s with outp := { s.outp with layouts := s.outp.layouts ++ [p] } }

/-- RING_LAYOUT (R287): the oldest waiting layout has its turn. -/
def execRingLayout (s : State) : Host.Outcome State Fault Refusal :=
  .next <|
    match s.outp.layouts with
    | [] => s
    | p :: rest =>
      let l := s.ringWanted p
      if s.ringNow == l then { s with outp := { s.outp with layouts := rest, laid := p.id :: s.outp.laid } }
      else if s.modl.warm || !s.ringEmpty p.id then s
      else
        let s := s.layRing l
        ({ s with outp := { s.outp with layouts := rest, laid := [p.id] } }).goOn

end Sys2Proof.Machine
end

