-- ==== Sys2Proof/Machine/Operands.lean ====
section
/-! DEFINITION. Operand forms of an engine core (R305, R310 to R313): registers, circular buffers, address
updates and the two parallel moves. -/

namespace Sys2Proof.Machine

/-! ### Registers (R305) -/

def CoreState.dr (c : CoreState) (i : Nat) : Word := tget 0 c.d i
def CoreState.setD (c : CoreState) (i : Nat) (v : Word) : CoreState := { c with d := tset 0 c.d i v }
/-- Lane `l` of V register `i`. -/
def CoreState.lane (c : CoreState) (i l : Nat) : Word := tget 0 c.v (16 * i + l)
/-- A V register holds the 16 lanes of a function. -/
def CoreState.setV (c : CoreState) (i : Nat) (f : Nat → Word) : CoreState :=
  { c with v := tsetMany 0 c.v (16 * i) ((List.range 16).map f) }
def CoreState.ar (c : CoreState) (i : Nat) : AddrReg := tget {} c.a i
def CoreState.setA (c : CoreState) (i : Nat) (x : AddrReg) : CoreState := { c with a := tset {} c.a i x }
/-- Lane `l` of accumulator `i`, and its sticky SAT bit. -/
def CoreState.accLane (c : CoreState) (i l : Nat) : Int := tget 0 c.acc (16 * i + l)
def CoreState.accSatAt (c : CoreState) (i l : Nat) : Bool := tget false c.accSat (16 * i + l)
/-- Every lane of an accumulator takes `f` of itself, limited by sat48 with the sticky SAT bit (R314). -/
def CoreState.setAcc (c : CoreState) (i : Nat) (f : Nat → Int) : CoreState :=
  { c with
    acc := tsetMany 0 c.acc (16 * i) ((List.range 16).map (fun l => sat48 (f l)))
    accSat := tsetMany false c.accSat (16 * i)
      ((List.range 16).map (fun l => c.accSatAt i l || sat48 (f l) != f l)) }

/-- The word of an integer, modulo 2^32. -/
def wordOf (v : Int) : Word := BitVec.ofInt 32 v

/-! ### Address registers (R312, R313) -/

/-- Word address of position OFFSET + i (R312), modulo 32 768 (R305). -/
def AddrReg.word (x : AddrReg) (i : Nat) : Nat :=
  (if x.length = 0 then x.base + x.offset + i else x.base + (x.offset + i) % x.length) % 32768

/-- OFFSET moved by `st` within length `m` (R312). -/
def moved (off : Nat) (st : Int) (m : Nat) : Nat :=
  (((off : Int) + st) % ((if m = 0 then 32768 else m : Nat) : Int)).toNat

/-- An update of an address register: a pending length takes effect (R313). -/
def AddrReg.update (x : AddrReg) (st : Int) : AddrReg :=
  let m := x.pend.getD x.length
  { x with offset := moved x.offset st m, length := m, pend := none }

/-- An update in the instruction that also writes LENGTH: the old length is used (R313). -/
def AddrReg.updateOld (x : AddrReg) (st : Int) : AddrReg := { x with offset := moved x.offset st x.length }

/-- The step that a STEP code names (R310); none for a reserved code. -/
def stepOf (x : AddrReg) (code : Nat) : Option Int :=
  match code with
  | 0 => some 0
  | 1 => some 1
  | 2 => some (-1)
  | 3 => some 16
  | 4 => some (-16)
  | 5 => some x.step
  | _ => none

/-! ### Moves (R310, R311) -/

/-- A move field taken apart (R310): present, store, vector, address register, D or V register, STEP code. -/
structure Move where
  en : Bool
  store : Bool
  vec : Bool
  areg : Nat
  dreg : Nat
  step : Nat
  deriving DecidableEq, Repr

/-- The move that a 16-bit field codes; `base` is 0 for XMOVE and 8 for YMOVE. -/
def moveOf (f : BitVec 16) (base : Nat) : Move :=
  let n := f.toNat
  ⟨bitOf n 15, bitOf n 14, bitOf n 13, base + bitsOf n 10 3, bitsOf n 6 4, bitsOf n 2 4⟩

/-- The two moves of an instruction. -/
def movesList (m : Moves) : List Move := [moveOf m.x 0, moveOf m.y 8]

/-- A present move has a reserved STEP code (R310). -/
def movesIllegal (m : Moves) : Bool := (movesList m).any (fun v => v.en && decide (6 ≤ v.step))

/-- Word addresses that a move touches. -/
def Move.words (c : CoreState) (m : Move) : List Nat :=
  if m.en then (List.range (if m.vec then 16 else 1)).map (fun i => (c.ar m.areg).word i) else []

/-- Whether a kernel may not make a move (R333): outside words 0x6000 to 0x7FFF, or a store to X words 0x6000
to 0x607F. -/
def Move.forbidden (c : CoreState) (m : Move) : Bool :=
  (m.words c).any (fun w => decide (w < 0x6000) || (m.store && decide (m.areg < 8) && decide (w < 0x6080)))

/-- The words that a store takes from the registers at the start. -/
def Move.data (c : CoreState) (m : Move) : List Word :=
  if m.vec then (List.range 16).map (c.lane m.dreg) else [c.dr m.dreg]

/-- A store or a load into `t`, with the memories and registers as they stood at the start in `c`. -/
def Move.run (c t : CoreState) (m : Move) : CoreState :=
  if !m.en then t
  else
    let ws := m.words c
    if m.store then
      let put := fun (mem : Tbl Word) => (List.zip ws (m.data c)).foldl (fun x wd => tset 0 x wd.1 wd.2) mem
      if m.areg < 8 then { t with x := put t.x } else { t with y := put t.y }
    else
      let mem := if m.areg < 8 then c.x else c.y
      if m.vec then t.setV m.dreg (fun i => tget 0 mem (ws.getD i 0)) else t.setD m.dreg (tget 0 mem (ws.getD 0 0))

/-- What a class 7 operation does to an address register: which, and how. `len` marks a LENGTH write. -/
structure AddrOp where
  reg : Nat
  len : Bool
  /-- replaces an update of the same register -/
  alone : Bool
  f : AddrReg → AddrReg

/-- The address update of a move: STEP code 0 makes none (R310); a class 7 write of the same register
stands (R311, R313), and a reserved code names none. -/
def Move.step1 (c : CoreState) (op : Option AddrOp) (t : CoreState) (m : Move) : CoreState :=
  if !m.en || m.step = 0 || 6 ≤ m.step then t
  else
    let x := c.ar m.areg
    let st := (stepOf x m.step).getD 0
    match op with
    | some o =>
      if o.reg = m.areg then
        if o.alone then t
        else t.setA m.areg (o.f (if o.len then x.updateOld st else x.update st))
      else t.setA m.areg (x.update st)
    | none => t.setA m.areg (x.update st)

/-- Moves after an operation gave `t`: stores and loads, then address updates (R311). -/
def runList (ms : List Move) (c t : CoreState) (op : Option AddrOp) : CoreState :=
  let t := ms.foldl (fun t m => m.run c t) t
  ms.foldl (fun t m => m.step1 c op t) t

/-- The moves of an instruction after its operation gave `t`. -/
def runMoves (mv : Moves) (c t : CoreState) (op : Option AddrOp) : CoreState := runList (movesList mv) c t op

end Sys2Proof.Machine
end

