-- ==== Sys2Proof/Machine/Flags.lean ====
section
/-! DEFINITION. STATUS of an engine core: the flags of CMP and the word that MOVS moves (R305, R309). -/

namespace Sys2Proof.Machine

/-- Z, N, O of a − b as signed 32-bit numbers; C is free, since the manual does not say what it holds
(PRESUMED for Z, N, O; log 8). -/
def compareFlags (a b : Word) (c : Bool) (st : CoreStatus) : CoreStatus :=
  let d := a.toInt - b.toInt
  { st with z := a == b, n := (a - b).msb, c := c, o := d != (a - b).toInt }

/-- The flag a BRC names. -/
def CoreStatus.flag (st : CoreStatus) : CoreFlag → Bool
  | .z => st.z
  | .n => st.n
  | .c => st.c
  | .o => st.o

/-- Bit `i` of STATUS, in the order of `Config.statusPos`. -/
def CoreStatus.bit (st : CoreStatus) (i : Nat) : Bool :=
  match i with
  | 0 => st.z | 1 => st.n | 2 => st.c | 3 => st.o | 4 => st.ie | 5 => st.kmode | 6 => st.larm | _ => st.nsat

/-- The word that MOVS reads from STATUS; its other bits are those of `free` (log 8). -/
def CoreStatus.word (st : CoreStatus) (free : Word) : Word :=
  (List.range 8).foldl (fun (w : Word) i =>
    let m : Word := 1#32 <<< (Config.statusPos i).toNat
    if st.bit i then w ||| m else w &&& ~~~m) free

/-- STATUS as MOVS writes it. -/
def statusOf (w : Word) : CoreStatus :=
  let b := fun i => bitOf w.toNat (Config.statusPos i).toNat
  { z := b 0, n := b 1, c := b 2, o := b 3, ie := b 4, kmode := b 5, larm := b 6, nsat := b 7 }

end Sys2Proof.Machine
end

