-- ==== Sys2Proof/Machine/EngineCore.lean ====
section
/-! DEFINITION. The programmable core of an engine (R305 to R336): one step, its loops, interrupts and
traps, the sandbox of a kernel, and every instruction. The classes 0xA and 0xB are firmware only. -/

namespace Sys2Proof.Machine

/-! ### Traps and interrupts (R321 to R324) -/

/-- The changes R322 makes on entry to a handler. -/
def CoreState.enter (c : CoreState) (next vec : Nat) : CoreState :=
  { c with epc := next, est := c.st, st := { c.st with ie := false, larm := false, kmode := false }, pc := vec }

/-- A trap on engine `e` (R322, R324): captured, entered; in a kernel it is a kernel fault (R336), else a
sequencer trap, a fault of the engine (R215). `c` is the core after the instruction, `at0` its address. -/
def State.trap (s : State) (e cause at0 next : Nat) (c : CoreState) : State :=
  let k := (s.core e).st.kmode
  let s := if s.on .ENG_CTRAP_VALID e then s
    else (((s.flag .ENG_CTRAP_VALID e).wr .ENG_CTRAP_CAUSE e cause).put .ENG_CTRAP_KMODE e k).wr .ENG_CTRAP_PC e at0
  let s := s.setCore e (c.enter next Config.trapVector.toNat)
  if k then s.kernelFault e cause else s.fault e 4 1

/-- Instructions of the kernel region (R329). -/
def inKernel (pc : Nat) : Bool := decide (4096 ≤ pc ∧ pc < 8192)

/-! ### One step -/

/-- An operation: its class, its result, whether the sandbox forbids it, its trap, its effect on an address
register, and where execution goes on (none: the next instruction). -/
structure CoreOp where
  cls : Nat
  res : CoreState → CoreState := id
  forbid : CoreState → Bool := fun _ => false
  trap : CoreState → Option Nat := fun _ => none
  addr : Option AddrOp := none
  goto_ : CoreState → Option Nat := fun _ => none

/-- Pop levels at the end of the top loop (R319): LCOUNT above 1 repeats; else the level is popped and a new
top with the same LEND is checked in the same step. -/
def loopEnd (pc : Nat) : Nat → CoreState → CoreState × Option Nat
  | 0, c => (c, none)
  | n + 1, c =>
    if n + 1 ≠ c.level then (c, none)
    else if tget 0 c.lend n ≠ pc then (c, none)
    else
      let k := tget 0 c.lcount n
      if 1 < k then ({ c with lcount := tset 0 c.lcount n (k - 1) }, some (tget 0 c.lstart n))
      else loopEnd pc n { c with level := n }

/-- The instruction stands at the LEND of a level in use (R320). -/
def CoreState.atEnd (c : CoreState) : Bool := (List.range c.level).any (fun i => tget 0 c.lend i == c.pc)

/-- Steps declared per batch by the kernel that runs (R335). -/
def State.kernelCost (s : State) : Nat := match s.exportTrick with | some k => fieldAt k.plan.kernel 6 2 | none => 0

/-- A kernel call has used its COST steps (R335). -/
def State.overBudget (s : State) (e : Nat) : Bool :=
  let c := s.core e
  c.fw.isSome && c.st.kmode && decide (s.kernelCost ≤ c.ksteps)

/-- The core executes: it is not halted and not waiting, its engine has power, no reset is in progress. -/
def State.coreRuns (s : State) (e : Nat) : Bool :=
  let c := s.core e
  let st := s.rd .ENG_STAT_STATE e
  !c.halted && !c.waiting && st != egOff && st != egRetired && !s.inReset && !s.overBudget e

/-- The step counters (R335, R337): steps of handlers are not counted against the kernel. -/
def State.countStep (s : State) (e : Nat) : State :=
  let c := s.core e
  let s := { s with fresh := s.fresh + 64 }
  let s := s.bump64 .ENG_CSTEPS e
  if c.fw.isSome && !c.inHandler then
    (s.bump64 .ENG_KSTEPS e).setCore e { c with ksteps := c.ksteps + 1 }
  else s

/-- The moves that an instruction makes: in a kernel none that the sandbox forbids (R333; log 14). -/
def madeMoves (mv : Moves) (c : CoreState) : List Move :=
  (movesList mv).filter (fun m => !(c.st.kmode && m.forbidden c))

/-- The operation has its effect: it raises no trap of its own, and no kernel executes what the sandbox bars (log 14). -/
def CoreOp.acts (op : CoreOp) (c : CoreState) : Bool := (op.trap c).isNone && !(c.st.kmode && op.forbid c)

/-- The instruction completes (R311, R319, R322): its operation on `c0`, its moves, where execution goes on, the
end-of-loop check included. `c` is the core before it. -/
def CoreOp.complete (op : CoreOp) (mv : Moves) (c c0 : CoreState) : CoreState × Nat :=
  let acts := op.acts c
  let t := if acts then op.res c0 else c0
  let ao := if acts then op.addr else none
  let t := match ao with | some o => t.setA o.reg (o.f (t.ar o.reg)) | none => t
  let t := runList (madeMoves mv c) c t ao
  let next := (if acts then op.goto_ c else none).getD ((c.pc + 1) % 8192)
  if t.st.larm then
    let l := loopEnd c.pc t.level t
    (l.1, l.2.getD next)
  else (t, next)

/-- The trap of an instruction that goes on at `next` (R310, R320, R324, R333). -/
def CoreOp.cause (op : CoreOp) (mv : Moves) (c : CoreState) (next : Nat) : Option Nat :=
  if movesIllegal mv || ((op.cls == 0 || op.cls == 9) && c.atEnd) then some 1
  else if c.st.kmode && (op.forbid c || (movesList mv).any (fun m => m.forbidden c)) then some 3
  else match op.trap c with
    | some k => some k
    | none => if c.st.kmode && !inKernel next then some 3 else none

/-- One instruction of engine `e` (R308 to R311, R319, R320, R322, R333): it completes, and then its trap is taken. -/
def State.coreStep (s : State) (e : Nat) (mv : Moves) (op : CoreOp) : State :=
  if !s.coreRuns e then s
  else
    let c := s.core e
    let s := s.countStep e
    let r := op.complete mv c (s.core e)
    match op.cause mv c r.2 with
    | some k => s.trap e k c.pc r.2 r.1
    | none => s.setCore e { r.1 with pc := r.2 }

/-- An operation that only computes. -/
def opOf (cls : Nat) (f : CoreState → CoreState) : CoreOp := { cls := cls, res := f }

/-- The free word number `i` of this step. -/
def State.fw (s : State) (i : Nat) : Word := s.freeWord i

/-! ### Class 0x0: control (R309, R320, R321) -/

/-- CORE_NOP (R309). -/
def execCoreNop (e : EngineId) (mv : Moves) (s : State) : Host.Outcome State Fault Refusal :=
  .next (s.coreStep e.val mv { cls := 0 })

/-- BR (R309). -/
def execBr (e : EngineId) (target : BitVec 13) (mv : Moves) (s : State) : Host.Outcome State Fault Refusal :=
  .next (s.coreStep e.val mv { cls := 0, goto_ := fun _ => some target.toNat })

/-- BRC (R309). -/
def execBrc (e : EngineId) (flag : CoreFlag) (target : BitVec 13) (mv : Moves) (s : State) :
    Host.Outcome State Fault Refusal :=
  .next (s.coreStep e.val mv { cls := 0, goto_ := fun c => if c.st.flag flag then some target.toNat else none })

/-- CALL (R309): the return address is kept. -/
def execCall (e : EngineId) (target : BitVec 13) (mv : Moves) (s : State) : Host.Outcome State Fault Refusal :=
  .next (s.coreStep e.val mv { cls := 0, goto_ := fun _ => some target.toNat,
                               res := fun c => { c with calls := (c.pc + 1) % 8192 :: c.calls } })

/-- RET (R309, R330): to the last CALL, or out of the kernel. A return without a call goes to a free address
(log 8). -/
def execRet (e : EngineId) (mv : Moves) (s : State) : Host.Outcome State Fault Refusal :=
  let g := e.val
  let c := s.core g
  .next <|
    if c.calls.isEmpty && c.st.kmode && c.fw.isSome then
      -- the end of a kernel call: the step completes, its moves included, then firmware goes on
      let t := s.coreStep g mv { cls := 0, goto_ := fun _ => some 4096 }
      if s.coreRuns g && (t.core g).fw.isSome && (t.core g).st.kmode then t.kernelReturn g else t
    else s.coreStep g mv { cls := 0, goto_ := fun c => some (c.calls.headD (s.freeNat 0 13)),
                           res := fun c => { c with calls := c.calls.tail } }

/-- RETI (R322): forbidden in a kernel (R333). -/
def execReti (e : EngineId) (mv : Moves) (s : State) : Host.Outcome State Fault Refusal :=
  .next (s.coreStep e.val mv { cls := 0, forbid := fun _ => true, goto_ := fun c => some c.epc,
                               res := fun c => { c with st := c.est, inHandler := c.inHandler && !c.est.kmode } })

/-- WAIT (R321): until an interrupt is taken. -/
def execWait (e : EngineId) (mv : Moves) (s : State) : Host.Outcome State Fault Refusal :=
  .next (s.coreStep e.val mv (opOf 0 (fun c => { c with waiting := true })))

/-- HALT (R309): forbidden in a kernel (R333). -/
def execHalt (e : EngineId) (mv : Moves) (s : State) : Host.Outcome State Fault Refusal :=
  .next (s.coreStep e.val mv { cls := 0, forbid := fun _ => true, res := fun c => { c with halted := true } })

/-- TRAP (R309): its cause is not given, a free one of the four (log 8). An undefined instruction raises ILLEGAL (R309,
R324). -/
def execTrap (e : EngineId) (i : TrapInstr) (s : State) : Host.Outcome State Fault Refusal :=
  .next (s.coreStep e.val i.moves
    { cls := if i.undefined then 2 else 0, trap := fun _ => some (if i.undefined then 1 else 1 + s.freeNat 0 2) })

/-- INTERRUPT_ENTRY (R321, R322): between instructions while IE is 1; a WAIT ends. -/
def execInterruptEntry (e : EngineId) (cause : IrqCause) (s : State) : Host.Outcome State Fault Refusal :=
  let g := e.val
  let c := s.core g
  let st := s.rd .ENG_STAT_STATE g
  .next <|
    if !c.st.ie || c.halted || st == egOff || st == egRetired || s.inReset then s
    else
      let c := { c with waiting := false, inHandler := c.inHandler || (c.fw.isSome && c.st.kmode) }
      s.setCore g (c.enter c.pc (Config.vector cause).toNat)

/-- KTIME (R335): a kernel that has not returned within COST steps. -/
def execKtime (e : EngineId) (s : State) : Host.Outcome State Fault Refusal :=
  let g := e.val
  .next (if s.overBudget g then s.trap g 4 (s.core g).pc (s.core g).pc (s.core g) else s)

/-! ### Class 0x1: scalar (R309). Sums and differences that fall outside the 32-bit formats are free (log 8) -/

/-- The scalar operation `f` on two D registers. -/
def scalarOp (d a b : Reg4) (f : Word → Word → Word) : CoreOp :=
  { cls := 1, res := fun c => c.setD d.val (f (c.dr a.val) (c.dr b.val)) }

/-- A sum outside both the signed and the unsigned format; a difference outside both. -/
def addOver (a b : Word) : Bool := decide (2 ^ 32 ≤ a.toNat + b.toNat) && a.toInt + b.toInt != (a + b).toInt
def subOver (a b : Word) : Bool := decide (a.toNat < b.toNat) && a.toInt - b.toInt != (a - b).toInt

/-- ADD. -/
def execAdd (e : EngineId) (d a b : Reg4) (mv : Moves) (s : State) : Host.Outcome State Fault Refusal :=
  .next (s.coreStep e.val mv (scalarOp d a b (fun x y => if addOver x y then s.fw 0 else x + y)))
/-- SUB. -/
def execSub (e : EngineId) (d a b : Reg4) (mv : Moves) (s : State) : Host.Outcome State Fault Refusal :=
  .next (s.coreStep e.val mv (scalarOp d a b (fun x y => if subOver x y then s.fw 0 else x - y)))
/-- AND. -/
def execAnd (e : EngineId) (d a b : Reg4) (mv : Moves) (s : State) : Host.Outcome State Fault Refusal :=
  .next (s.coreStep e.val mv (scalarOp d a b (fun x y => x &&& y)))
/-- OR. -/
def execOr (e : EngineId) (d a b : Reg4) (mv : Moves) (s : State) : Host.Outcome State Fault Refusal :=
  .next (s.coreStep e.val mv (scalarOp d a b (fun x y => x ||| y)))
/-- XOR. -/
def execXor (e : EngineId) (d a b : Reg4) (mv : Moves) (s : State) : Host.Outcome State Fault Refusal :=
  .next (s.coreStep e.val mv (scalarOp d a b (fun x y => x ^^^ y)))
/-- A shift amount of 32 or more gives a free value (log 8). -/
def shifted (free : Word) (sh : Nat) (v : Word) : Word := if 32 ≤ sh then free else v
/-- SHL. -/
def execShl (e : EngineId) (d a : Reg4) (sh : Byte) (mv : Moves) (s : State) : Host.Outcome State Fault Refusal :=
  .next (s.coreStep e.val mv (scalarOp d a a (fun x _ => shifted (s.fw 0) sh.toNat (x <<< sh.toNat))))
/-- SHR. -/
def execShr (e : EngineId) (d a : Reg4) (sh : Byte) (mv : Moves) (s : State) : Host.Outcome State Fault Refusal :=
  .next (s.coreStep e.val mv (scalarOp d a a (fun x _ => shifted (s.fw 0) sh.toNat (x >>> sh.toNat))))
/-- SAR. -/
def execSar (e : EngineId) (d a : Reg4) (sh : Byte) (mv : Moves) (s : State) : Host.Outcome State Fault Refusal :=
  .next (s.coreStep e.val mv (scalarOp d a a (fun x _ => shifted (s.fw 0) sh.toNat (x.sshiftRight sh.toNat))))
/-- MUL: the low 32 bits. -/
def execMul (e : EngineId) (d a b : Reg4) (mv : Moves) (s : State) : Host.Outcome State Fault Refusal :=
  .next (s.coreStep e.val mv (scalarOp d a b (fun x y => x * y)))
/-- CMP: the flags. -/
def execCmp (e : EngineId) (a b : Reg4) (mv : Moves) (s : State) : Host.Outcome State Fault Refusal :=
  .next (s.coreStep e.val mv (opOf 1 (fun c =>
    { c with st := compareFlags (c.dr a.val) (c.dr b.val) (bitOf (s.freeNat 0 1) 0) c.st })))

/-- What MOVS reads. -/
def CoreState.special (c : CoreState) (free : Word) : SpecialReg → Word
  | .status => c.st.word free
  | .epc => BitVec.ofNat 32 c.epc
  | .estatus => c.est.word free
  | .lstart i => BitVec.ofNat 32 (tget 0 c.lstart i.val)
  | .lend i => BitVec.ofNat 32 (tget 0 c.lend i.val)
  | .lcount i => BitVec.ofNat 32 (tget 0 c.lcount i.val)
  | .lstat => BitVec.ofNat 32 c.level

/-- What MOVS writes; a LEVEL above 4 is a free level (log 8). -/
def CoreState.setSpecial (c : CoreState) (v : Word) (free : Nat) : SpecialReg → CoreState
  | .status => { c with st := statusOf v }
  | .epc => { c with epc := v.toNat % 8192 }
  | .estatus => { c with est := statusOf v }
  | .lstart i => { c with lstart := tset 0 c.lstart i.val (v.toNat % 8192) }
  | .lend i => { c with lend := tset 0 c.lend i.val (v.toNat % 8192) }
  | .lcount i => { c with lcount := tset 0 c.lcount i.val v.toNat }
  | .lstat => { c with level := if v.toNat ≤ 4 then v.toNat else free % 5 }

/-- Writes that the sandbox forbids (R333); a write of STATUS that leaves IE and KMODE as they are is none
(DEDUCED, log 14). -/
def movsForbidden (c : CoreState) (v : Word) : SpecialReg → Bool
  | .epc | .estatus => true
  | .status => (statusOf v).ie != c.st.ie || (statusOf v).kmode != c.st.kmode
  | _ => false

/-- MOVS (R309, R333). -/
def execMovs (e : EngineId) (toSpecial : Bool) (d : Reg4) (sr : SpecialReg) (mv : Moves) (s : State) :
    Host.Outcome State Fault Refusal :=
  .next (s.coreStep e.val mv
    { cls := 1
      forbid := fun c => toSpecial && movsForbidden c (c.dr d.val) sr
      res := fun c => if toSpecial then c.setSpecial (c.dr d.val) (s.freeNat 0 8) sr else c.setD d.val (c.special (s.fw 0) sr) })

/-! ### Class 0x3: vector integer (R309) -/

/-- The lane-wise operation `f` (lane number, a, b) on two V registers. -/
def vectorOp (d a b : Reg4) (f : Nat → Word → Word → Word) : CoreOp :=
  { cls := 3, res := fun c => c.setV d.val (fun l => f l (c.lane a.val l) (c.lane b.val l)) }

/-- The word of an integer where it is a signed 32-bit number; else a free value (log 8). -/
def fits32 (free : Word) (v : Int) : Word := if -(2 ^ 31 : Int) ≤ v ∧ v < 2 ^ 31 then wordOf v else free

/-- VADD. -/
def execVadd (e : EngineId) (d a b : Reg4) (mv : Moves) (s : State) : Host.Outcome State Fault Refusal :=
  .next (s.coreStep e.val mv (vectorOp d a b (fun l x y => fits32 (s.fw l) (x.toInt + y.toInt))))
/-- VSUB. -/
def execVsub (e : EngineId) (d a b : Reg4) (mv : Moves) (s : State) : Host.Outcome State Fault Refusal :=
  .next (s.coreStep e.val mv (vectorOp d a b (fun l x y => fits32 (s.fw l) (x.toInt - y.toInt))))
/-- VMIN. -/
def execVmin (e : EngineId) (d a b : Reg4) (mv : Moves) (s : State) : Host.Outcome State Fault Refusal :=
  .next (s.coreStep e.val mv (vectorOp d a b (fun _ x y => if x.toInt ≤ y.toInt then x else y)))
/-- VMAX. -/
def execVmax (e : EngineId) (d a b : Reg4) (mv : Moves) (s : State) : Host.Outcome State Fault Refusal :=
  .next (s.coreStep e.val mv (vectorOp d a b (fun _ x y => if x.toInt ≤ y.toInt then y else x)))
/-- VABS. -/
def execVabs (e : EngineId) (d a : Reg4) (mv : Moves) (s : State) : Host.Outcome State Fault Refusal :=
  .next (s.coreStep e.val mv (vectorOp d a a (fun l x _ => fits32 (s.fw l) x.toInt.natAbs)))
/-- VAND. -/
def execVand (e : EngineId) (d a b : Reg4) (mv : Moves) (s : State) : Host.Outcome State Fault Refusal :=
  .next (s.coreStep e.val mv (vectorOp d a b (fun _ x y => x &&& y)))
/-- VOR. -/
def execVor (e : EngineId) (d a b : Reg4) (mv : Moves) (s : State) : Host.Outcome State Fault Refusal :=
  .next (s.coreStep e.val mv (vectorOp d a b (fun _ x y => x ||| y)))
/-- VXOR. -/
def execVxor (e : EngineId) (d a b : Reg4) (mv : Moves) (s : State) : Host.Outcome State Fault Refusal :=
  .next (s.coreStep e.val mv (vectorOp d a b (fun _ x y => x ^^^ y)))
/-- VSHL. -/
def execVshl (e : EngineId) (d a : Reg4) (sh : Byte) (mv : Moves) (s : State) : Host.Outcome State Fault Refusal :=
  .next (s.coreStep e.val mv (vectorOp d a a (fun l x _ => shifted (s.fw l) sh.toNat (x <<< sh.toNat))))
/-- VSAR. -/
def execVsar (e : EngineId) (d a : Reg4) (sh : Byte) (mv : Moves) (s : State) : Host.Outcome State Fault Refusal :=
  .next (s.coreStep e.val mv (vectorOp d a a (fun l x _ => shifted (s.fw l) sh.toNat (x.sshiftRight sh.toNat))))
/-- VSEL: what chooses the lane is not given, a free bit (log 8). -/
def execVsel (e : EngineId) (d a b : Reg4) (mv : Moves) (s : State) : Host.Outcome State Fault Refusal :=
  .next (s.coreStep e.val mv (vectorOp d a b (fun l x y => if bitOf (s.freeNat 0 16) l then x else y)))
/-- VBCAST: a D register to all lanes. -/
def execVbcast (e : EngineId) (d a : Reg4) (mv : Moves) (s : State) : Host.Outcome State Fault Refusal :=
  .next (s.coreStep e.val mv (opOf 3 (fun c => c.setV d.val (fun _ => c.dr a.val))))

/-! ### Class 0x4: accumulators (R314) -/

/-- CLRA: the lane values and their SAT bits. -/
def execClra (e : EngineId) (acc : Fin 4) (mv : Moves) (s : State) : Host.Outcome State Fault Refusal :=
  .next (s.coreStep e.val mv (opOf 4 (fun c =>
    { c with acc := tsetMany 0 c.acc (16 * acc.val) (List.replicate 16 0)
             accSat := tsetMany false c.accSat (16 * acc.val) (List.replicate 16 false) })))

/-- The product of bits [23:0] of a lane of two V registers, as signed numbers. -/
def CoreState.product (c : CoreState) (a b : Reg4) (l : Nat) : Int :=
  signed 24 (c.lane a.val l).toNat * signed 24 (c.lane b.val l).toNat

/-- MAC. -/
def execMac (e : EngineId) (acc : Fin 4) (a b : Reg4) (mv : Moves) (s : State) : Host.Outcome State Fault Refusal :=
  .next (s.coreStep e.val mv (opOf 4 (fun c => c.setAcc acc.val (fun l => c.accLane acc.val l + c.product a b l))))
/-- MSU. -/
def execMsu (e : EngineId) (acc : Fin 4) (a b : Reg4) (mv : Moves) (s : State) : Host.Outcome State Fault Refusal :=
  .next (s.coreStep e.val mv (opOf 4 (fun c => c.setAcc acc.val (fun l => c.accLane acc.val l - c.product a b l))))
/-- ACCADD. -/
def execAccadd (e : EngineId) (acc : Fin 4) (a : Reg4) (mv : Moves) (s : State) : Host.Outcome State Fault Refusal :=
  .next (s.coreStep e.val mv (opOf 4 (fun c => c.setAcc acc.val (fun l => c.accLane acc.val l + (c.lane a.val l).toInt))))
/-- CJOIN: a 32-bit low part and a 16-bit high part from bits [15:0] or, with the mode bit, [31:16]. -/
def execCjoin (e : EngineId) (acc : Fin 4) (lo hi : Reg4) (upper : Bool) (mv : Moves) (s : State) :
    Host.Outcome State Fault Refusal :=
  .next (s.coreStep e.val mv (opOf 4 (fun c => c.setAcc acc.val (fun l =>
    let h := (c.lane hi.val l).toNat
    signed 48 ((c.lane lo.val l).toNat + 2 ^ 32 * (if upper then h / 2 ^ 16 else h % 2 ^ 16))))))
/-- MOVA: bits [31:0] of the lanes to one V register, bits [47:32] to bits [15:0] of another; its bits [31:16]
are free (log 8). -/
def execMova (e : EngineId) (d d2 : Reg4) (acc : Fin 4) (mv : Moves) (s : State) : Host.Outcome State Fault Refusal :=
  .next (s.coreStep e.val mv (opOf 4 (fun c =>
    (c.setV d.val (fun l => BitVec.ofNat 32 (code 48 (c.accLane acc.val l)))).setV d2.val (fun l =>
      BitVec.ofNat 32 (code 48 (c.accLane acc.val l) / 2 ^ 32 + 2 ^ 16 * s.freeNat l 16)))))

/-! ### Class 0x5: narrowing and the block exponent (R315, R316) -/

/-- NARR: k bits off with round half up, limited to 32 bits; a limited lane sets NSAT. -/
def execNarr (e : EngineId) (d : Reg4) (acc : Fin 4) (k : Fin 48) (mv : Moves) (s : State) :
    Host.Outcome State Fault Refusal :=
  .next (s.coreStep e.val mv (opOf 5 (fun c =>
    let v := fun l => rhu (c.accLane acc.val l) (2 ^ k.val)
    let sat := (List.range 16).any (fun l => clampTo 32 (v l) != v l)
    { c.setV d.val (fun l => wordOf (clampTo 32 (v l))) with st := { c.st with nsat := c.st.nsat || sat } })))

/-- BXCLR. -/
def execBxclr (e : EngineId) (w : Fin 17) (mv : Moves) (s : State) : Host.Outcome State Fault Refusal :=
  .next (s.coreStep e.val mv (opOf 5 (fun c => { c with bx := { w := w.val } })))

/-- A component folded into the block's minimum and maximum. -/
def BxBlock.fold (b : BxBlock) (v : Int) : BxBlock :=
  { b with any := true, lo := if b.any then min b.lo v else v, hi := if b.any then max b.hi v else v }

/-- BXACC. -/
def execBxacc (e : EngineId) (a : Reg4) (mv : Moves) (s : State) : Host.Outcome State Fault Refusal :=
  .next (s.coreStep e.val mv (opOf 5 (fun c =>
    { c with bx := ((List.range 16).map (fun l => (c.lane a.val l).toInt)).foldl BxBlock.fold c.bx })))

/-- The smallest e for which every folded component fits (R316): twice each side is compared. -/
def BxBlock.exp (b : BxBlock) : Nat :=
  if !b.any then 0
  else ((List.range 32).find? (fun e =>
    let lim : Int := ((2 ^ b.w - 1) * 2 ^ e : Nat)
    decide (-lim ≤ 2 * b.lo) && decide (2 * b.hi < lim))).getD 31

/-- BXGET. -/
def execBxget (e : EngineId) (d : Reg4) (mv : Moves) (s : State) : Host.Outcome State Fault Refusal :=
  .next (s.coreStep e.val mv (opOf 5 (fun c => c.setD d.val (BitVec.ofNat 32 c.bx.exp))))

/-- NARRE: round half up of each lane by the block's exponent. -/
def execNarre (e : EngineId) (d a : Reg4) (mv : Moves) (s : State) : Host.Outcome State Fault Refusal :=
  .next (s.coreStep e.val mv (opOf 5 (fun c =>
    c.setV d.val (fun l => wordOf (rhu (c.lane a.val l).toInt (2 ^ c.bx.exp))))))

/-! ### Class 0x6: binary32 (R317) -/

/-- What a binary32 code stands for. -/
inductive F32 where
  | nan
  | inf (neg : Bool)
  | fin (neg : Bool) (q : Q)
  deriving DecidableEq, Repr

/-- The number of a code. -/
def f32Of (w : Word) : F32 :=
  let n := w.toNat
  let neg := bitOf n 31
  if n / 2 ^ 23 % 256 = 255 then (if n % 2 ^ 23 = 0 then .inf neg else .nan)
  else .fin neg (ofCode fp32 n)

/-- A quiet NaN whose sign and payload are free (log 8). -/
def nanOf (f : Flt2) (free : Nat) : Nat :=
  f.inf + 2 ^ (f.p - 2) + free % 2 ^ (f.p - 2) + (if bitOf free 60 then f.sign else 0)

/-- The code of a finite result: rounded, infinite where it overflows, zero with the sign given. -/
def ieeeCode (f : Flt2) (neg : Bool) (q : Q) : Nat :=
  let m := min (magCode f q) f.inf
  let sg := if q.n = 0 then neg else decide (q.n < 0)
  m + (if sg then f.sign else 0)

/-- The code of a number in a format. -/
def F32.code (f : Flt2) (free : Nat) : F32 → Nat
  | .nan => nanOf f free
  | .inf neg => f.inf + (if neg then f.sign else 0)
  | .fin neg q => ieeeCode f neg q

/-- IEEE sum; x + (−x) is +0. -/
def F32.add : F32 → F32 → F32
  | .nan, _ => .nan
  | _, .nan => .nan
  | .inf a, .inf b => if a = b then .inf a else .nan
  | .inf a, _ => .inf a
  | _, .inf b => .inf b
  | .fin a x, .fin b y => .fin (a && b) (x.add y)
def F32.negate : F32 → F32
  | .nan => .nan
  | .inf a => .inf !a
  | .fin a x => .fin (!a) x.neg
def F32.mul : F32 → F32 → F32
  | .nan, _ => .nan
  | _, .nan => .nan
  | .inf a, .inf b => .inf (a != b)
  | .inf a, .fin b y => if y.n = 0 then .nan else .inf (a != b)
  | .fin a x, .inf b => if x.n = 0 then .nan else .inf (a != b)
  | .fin a x, .fin b y => .fin (a != b) (x.mul y)
/-- The reciprocal of a rational that is not 0. -/
def Q.inv (x : Q) : Q := if x.n < 0 then ⟨-(x.d : Int), x.n.natAbs⟩ else ⟨x.d, x.n.natAbs⟩
def F32.div : F32 → F32 → F32
  | .nan, _ => .nan
  | _, .nan => .nan
  | .inf _, .inf _ => .nan
  | .inf a, .fin b _ => .inf (a != b)
  | .fin a _, .inf b => .fin (a != b) ⟨0, 1⟩
  | .fin a x, .fin b y => if y.n = 0 then (if x.n = 0 then .nan else .inf (a != b)) else .fin (a != b) (x.mul y.inv)

/-- A lane-wise binary32 operation. -/
def floatOp (d a b : Reg4) (s : State) (f : F32 → F32 → F32) : CoreOp :=
  { cls := 6, res := fun c => c.setV d.val (fun l =>
      BitVec.ofNat 32 ((f (f32Of (c.lane a.val l)) (f32Of (c.lane b.val l))).code fp32 (s.freeNat l 64))) }

/-- FCVT: integer lanes of an accumulator or a V register to binary32. -/
def execFcvt (e : EngineId) (d : Reg4) (src : FcvtSrc) (mv : Moves) (s : State) : Host.Outcome State Fault Refusal :=
  .next (s.coreStep e.val mv (opOf 6 (fun c => c.setV d.val (fun l =>
    let v : Int := match src with | .acc i => c.accLane i.val l | .vec i => (c.lane i.val l).toInt
    BitVec.ofNat 32 (ieeeCode fp32 false ⟨v, 1⟩)))))
/-- FADD. -/
def execFadd (e : EngineId) (d a b : Reg4) (mv : Moves) (s : State) : Host.Outcome State Fault Refusal :=
  .next (s.coreStep e.val mv (floatOp d a b s F32.add))
/-- FSUB. -/
def execFsub (e : EngineId) (d a b : Reg4) (mv : Moves) (s : State) : Host.Outcome State Fault Refusal :=
  .next (s.coreStep e.val mv (floatOp d a b s (fun x y => x.add y.negate)))
/-- FMUL. -/
def execFmul (e : EngineId) (d a b : Reg4) (mv : Moves) (s : State) : Host.Outcome State Fault Refusal :=
  .next (s.coreStep e.val mv (floatOp d a b s F32.mul))
/-- FDIV. -/
def execFdiv (e : EngineId) (d a b : Reg4) (mv : Moves) (s : State) : Host.Outcome State Fault Refusal :=
  .next (s.coreStep e.val mv (floatOp d a b s F32.div))
/-- F16: binary32 to binary16 in bits [15:0]; bits [31:16] are free (log 8). -/
def execF16 (e : EngineId) (d a : Reg4) (mv : Moves) (s : State) : Host.Outcome State Fault Refusal :=
  .next (s.coreStep e.val mv (opOf 6 (fun c => c.setV d.val (fun l =>
    BitVec.ofNat 32 ((f32Of (c.lane a.val l)).code fp16 (s.freeNat l 64) % 2 ^ 16 + 2 ^ 16 * s.freeNat (16 + l) 16)))))

/-! ### Class 0x7: addresses (R311 to R313) -/

/-- A write of a field of an address register; a LENGTH above 32 768 is a free length (log 8). -/
def writeField (v : Word) (free : Nat) : AddrField → AddrReg → AddrReg
  | .offset, x => { x with offset := v.toNat % (if x.length = 0 then 32768 else x.length) }
  | .base, x => { x with base := v.toNat % 32768 }
  | .length, x => { x with pend := some (if v.toNat ≤ 32768 then v.toNat else free % 32769) }
  | .step, x => { x with step := signed 16 v.toNat }

/-- SETA. -/
def execSeta (e : EngineId) (ar : Reg4) (fld : AddrField) (d : Reg4) (mv : Moves) (s : State) :
    Host.Outcome State Fault Refusal :=
  let o : AddrOp := { reg := ar.val, len := fld == .length, alone := false,
                      f := writeField ((s.core e.val).dr d.val) (s.freeNat 0 32) fld }
  .next (s.coreStep e.val mv { cls := 7, addr := some o })

/-- GETA: LENGTH is the length in effect, STEP is sign-extended (DEDUCED, log 14). -/
def execGeta (e : EngineId) (d : Reg4) (ar : Reg4) (fld : AddrField) (mv : Moves) (s : State) :
    Host.Outcome State Fault Refusal :=
  .next (s.coreStep e.val mv (opOf 7 (fun c =>
    let x := c.ar ar.val
    c.setD d.val (match fld with
      | .offset => BitVec.ofNat 32 x.offset
      | .base => BitVec.ofNat 32 x.base
      | .length => BitVec.ofNat 32 x.length
      | .step => wordOf x.step))))

/-- MODA: an update with no access; a reserved code is illegal (R310). -/
def execModa (e : EngineId) (ar : Reg4) (step : BitVec 4) (mv : Moves) (s : State) : Host.Outcome State Fault Refusal :=
  .next (s.coreStep e.val mv
    { cls := 7
      trap := fun c => if (stepOf (c.ar ar.val) step.toNat).isNone then some 1 else none
      addr := some { reg := ar.val, len := false, alone := true
                     f := fun x => x.update ((stepOf x step.toNat).getD 0) } })

/-! ### Classes 0x8 and 0x9 (R309, R318, R319) -/

/-- LDI: a 32-bit immediate; no move is made. -/
def execLdi (e : EngineId) (d : Reg4) (imm : Word) (s : State) : Host.Outcome State Fault Refusal :=
  .next (s.coreStep e.val ⟨0, 0⟩ { cls := 8, res := fun c => c.setD d.val imm })

/-- The count of a LOOP. -/
def loopCount (c : CoreState) : LoopCount → Nat
  | .imm n => n.toNat
  | .reg d => (c.dr d.val).toNat

/-- LOOP (R318): a new level; a count of 0 pushes nothing and goes on after LEND; a fifth level traps. -/
def execLoop (e : EngineId) (lend : BitVec 13) (count : LoopCount) (mv : Moves) (s : State) :
    Host.Outcome State Fault Refusal :=
  .next (s.coreStep e.val mv
    { cls := 9
      trap := fun c => if c.level = 4 then some 2 else none
      goto_ := fun c => some (if loopCount c count = 0 then (lend.toNat + 1) % 8192 else (c.pc + 1) % 8192)
      res := fun c =>
        let n := loopCount c count
        if n = 0 then c
        else { c with level := c.level + 1, st := { c.st with larm := true }
                      lstart := tset 0 c.lstart c.level ((c.pc + 1) % 8192)
                      lend := tset 0 c.lend c.level lend.toNat
                      lcount := tset 0 c.lcount c.level n } })

/-- ENDL (R319): the top level is popped and execution goes on after its LEND. -/
def execEndl (e : EngineId) (mv : Moves) (s : State) : Host.Outcome State Fault Refusal :=
  .next (s.coreStep e.val mv
    { cls := 9
      trap := fun c => if c.level = 0 then some 1 else none
      goto_ := fun c => some ((tget 0 c.lend (c.level - 1) + 1) % 8192)
      res := fun c => { c with level := c.level - 1 } })

/-! ### Classes 0xA and 0xB (R309, R333): in firmware their moves are made; what else they do is the array's,
the dealer's and the output stage's part, which has commands of its own (Scope) -/

/-- ARRAY_AND_DEALER_INSTRUCTION: SANDBOX in a kernel. -/
def execArrayAndDealerInstruction (e : EngineId) (mv : Moves) (s : State) : Host.Outcome State Fault Refusal :=
  .next (s.coreStep e.val mv { cls := 10, forbid := fun _ => true })

/-- OUTPUT_INSTRUCTION: SANDBOX in a kernel. -/
def execOutputInstruction (e : EngineId) (mv : Moves) (s : State) : Host.Outcome State Fault Refusal :=
  .next (s.coreStep e.val mv { cls := 11, forbid := fun _ => true })

end Sys2Proof.Machine
end

