-- ==== Sys2Proof/Machine/Plans.lean ====
section
/-! DEFINITION. Plans (R58 to R62, R192, R231, R360 to R365): sections, validation, admission and its repeat,
the weight regions, positions, and the hand-over of a deal. -/

namespace Sys2Proof.Machine

/-! ### Sections (R361) -/

/-- Largest size of a section; 0 where there is none. -/
def sectionSize (n : Nat) : Nat :=
  match n with
  | 0 => 64 | 1 => 4096 | 2 => 8192 | 3 => 8192 | 4 => 1024 | 5 => 128 | 6 => 32 | 7 => 4195328 | 8 => 67125248
  | 9 => 32768 | _ => 0

/-- The default plan (R361): log2 S 14, ZERO_MUCK, LO 3154, HI 5448. -/
def defaultPlan : Tbl Byte := [(1, 14), (6, 2), (16, 0x52), (17, 0x0C), (18, 0x48), (19, 0x15)]

/-- Bytes of a section are written into an edit copy. -/
def writeSection (d : Tbl Byte) (sect off : Nat) (l : List Byte) : Tbl Byte := tsetMany 0 d (2 ^ 32 * sect + off) l

/-! ### Structure (R58, R362): a failure is answered with REJ_PARAM -/

/-- CORE (R361, R35, R62, R176). -/
def coreOk (d : Tbl Byte) : Bool :=
  pFmt d ≤ 1 && 12 ≤ pLogS d && pLogS d ≤ 16 && pOrder d ≤ 1 && (pVfmt d ≤ 3 || pVfmt d == 0xFF) && pRelmode d ≤ 1 &&
  pL d % pS d == 0 && (pL d != 0 || pLminRaw d % pS d == 0) && pLo d ≤ pHi d && (!pHasVis d || pVdest d ≤ 3) &&
  pMask d != 0 && 1 ≤ pN d && pN d ≤ 1024 && pBeams d ≤ 1024 && pPairing d ≤ 2

/-- Every number below `n` occurs exactly once in a list of `n` entries. -/
def isPerm (l : List Nat) (n : Nat) : Bool := l.length == n && (List.range n).all (fun x => l.count x == 1)

/-- CHANNELS (R30), PAIRMAP (R20), suit order (R27). -/
def setsOk (d : Tbl Byte) : Bool :=
  let cs := pChanList d
  cs.all (fun c => cs.count c == 1) &&
  (pPairing d != 2 || isPerm ((List.range (pRecv d)).flatMap (fun r => [pX d r, pY d r])) (64 * pNg d)) &&
  (pOrder d == 0 || pPairing d != 0)

/-- ZOOM (R247). -/
def zoomOk (d : Tbl Byte) : Bool :=
  let ids := (List.range (pBeams d)).map (bIdent d)
  (List.range 64).all (fun i =>
    zUse d i == 0 || (zUse d i == 1 && ids.contains (zBeam d i) && decide (zChan d i < pN d) && 3 ≤ zNc d i && zNc d i ≤ 5 &&
      4 ≤ zDz d i && zDz d i ≤ 1024 && zCset d i ≤ 15 && zDest d i ≤ 3))

/-- BEAMS (R224, R225). -/
def beamsOk (d : Tbl Byte) : Bool :=
  let n := pBeams d
  let ids := (List.range n).map (bIdent d)
  (List.range n).all (fun i =>
    let m := bDetect d i
    bIdent d i ≤ 1023 && ids.count (bIdent d i) == 1 && bSource d i ≤ 1 && m ≤ 3 &&
    (if m = 3 then (List.range 64).any (fun z => zUse d z == 1 && zBeam d z == bIdent d i) else bDest d i ≤ 3) &&
    (m == 0 || m == 3 || decide (256 * 2 ^ bLogD d i ≤ pS d)))

/-- CLASSES and CLASSMAP (R267, R268). -/
def classesOk (d : Tbl Byte) : Bool :=
  !pAvg d ||
  ((List.range 8).all (fun c => pF d 6 (4 * c) 1 ≤ 3 && pF d 6 (4 * c + 1) 1 ≤ 3) &&
   (List.range (pBaselines d)).all (fun k => pClass d k ≤ 7) &&
   (pClasses d).all (fun c => pN d % cFf d c == 0) && (List.range 8).all (fun c => pL d != 0 || cTf d c == 1) &&
   (pOrder d == 0 || (List.range (pRecv d)).all (fun q => (List.range (q + 1)).all (fun r =>
      let es := [entryOf (pX d r) (pX d q), entryOf (pX d r) (pY d q), entryOf (pY d r) (pX d q), entryOf (pY d r) (pY d q)]
      es.all (fun e => pClass d e.k == pClass d (entryOf (pX d r) (pX d q)).k)))))

/-- BIAS and GAINS (R266). -/
def tablesOk (d : Tbl Byte) : Bool :=
  (!pBias d || (List.range (2 * pBaselines d)).all (fun i => finite32 (pF d 8 (4 * i) 4))) &&
  (!pGains d || (List.range (2 * 64 * pNg d)).all (fun i => finite32 (pF d 9 (4 * i) 4)))

/-- A port's settings lie within the values of R281. -/
def PortSettings.ok (x : PortSettings) : Bool :=
  (match x.vlan with | some v => decide (1 ≤ v.1.toNat ∧ v.1.toNat ≤ 4094) && decide (v.2.toNat ≤ 7) | none => true) &&
  decide (x.dscp.toNat ≤ 63) && decide (1 ≤ x.ttl.toNat) &&
  decide (1 ≤ x.srcPort.toNat) && decide (1 ≤ x.dstPort.toNat)

/-- PORTS of the ports in use (R281). -/
def State.portsOk (s : State) (d : Tbl Byte) (kernel : List Byte) : Bool :=
  (partsUsed (s.rates d kernel)).all (fun p => p == 2 || (Config.portSettings (tgetMany 0 d (2 ^ 32 * 5 + 64 * p) 64)).ok)

/-- Image of the kernel slot that a plan names; none where it names none. -/
def State.planKernel (s : State) (d : Tbl Byte) : List Byte := if pVfmt d = 3 then tget [] s.modl.kernels (pKslot d) else []

/-- The structure of a plan is valid. -/
def State.planOk (s : State) (d : Tbl Byte) : Bool :=
  coreOk d && setsOk d && beamsOk d && zoomOk d && classesOk d && tablesOk d &&
  (pVfmt d != 3 || (pKslot d ≤ 3 && !(s.planKernel d).isEmpty)) && s.portsOk d (s.planKernel d)

/-! ### Admission (R58 to R61) and the weight regions (R231) -/

/-- Capacity in MiB beside the active plan with the weight regions that `tab` and `pol` ask for (R231). -/
def State.allocNeed (s : State) (tab pol : Bool) : Nat :=
  let w := if tab then 1024 else if pol then 128 else 0
  match s.plans.active with
  | some a => s.capacity a.data - s.weightMiB a.data +
      max w (if usesTable a.data then 1024 else if usesPoly a.data then 128 else 0)
  | none => 1024 * s.plans.ringGib + 1024 + w

/-- The first budget that fails at a build (R58, R231). -/
def State.admission (s : State) (d : Tbl Byte) (extra : Int) (alloc : Bool) : Option Budget :=
  let tab := usesTable d || s.tableAlloc
  let pol := usesPoly d || s.polyAlloc
  let newKind := (usesTable d && !s.tableAlloc) || (usesPoly d && !s.polyAlloc)
  let need := s.allocNeed tab pol
  let bs := s.budgets d (s.planKernel d) extra
  let bs := if alloc && newKind && capLimit < need then
      bs.map (fun b => if b.code = 3 && b.ok then { b with need := need, ok := false } else b) else bs
  bs.find? (fun b => !b.ok)

/-- Figures of the eight budgets (PLAN_STATUS). -/
def State.planFigures (s : State) (d : Tbl Byte) : List (Nat × Nat) :=
  (s.budgets d (s.planKernel d) 0).map (fun b => (b.need, b.have_))

/-- The registers BUILT and ADMITTED follow the slots (R366). -/
def State.showSlots (s : State) : State :=
  let bits := fun (f : PlanSlot → Bool) => ((List.range 4).filter (fun i => f (s.slot i))).foldl (fun a i => a + 2 ^ i) 0
  (s.wr .DLR_STAT_BUILT 0 (bits (·.built))).wr .DLR_STAT_ADMITTED 0 (bits (fun x => x.built && x.admitted))

/-- Table and polynomial regions follow the stored plans (R231): what a polynomial set holds moves with it. -/
def State.allocWeights (s : State) : State :=
  let t := s.tableAlloc
  let p := s.polyAlloc
  let hadT := s.on .BMF_STAT_TALLOC
  let hadP := s.on .BMF_STAT_PALLOC
  let old := [s.rd64 .BMF_PBASE0, s.rd64 .BMF_PBASE1]
  let s := if t && !hadT then
      let a := s.allocAt
      let s := s.alloced
      let b := s.allocAt
      ((s.alloced.wr64 .BMF_TBASE0 0 (hbmBase + a)).wr64 .BMF_TBASE1 0 (hbmBase + b)).flag .BMF_STAT_TALLOC
    else if !t && hadT then ((s.wr64 .BMF_TBASE0 0 0).wr64 .BMF_TBASE1 0 0).wr .BMF_STAT_TALLOC 0 0
    else s
  let s := if !p then ((s.wr64 .BMF_PBASE0 0 0).wr64 .BMF_PBASE1 0 0).wr .BMF_STAT_PALLOC 0 0
    else if hadP && t == hadT then s
    else if t then
      ((s.wr64 .BMF_PBASE0 0 (s.rd64 .BMF_TBASE0 + 448 * 2 ^ 20)).wr64 .BMF_PBASE1 0 (s.rd64 .BMF_TBASE1 + 448 * 2 ^ 20)).flag
        .BMF_STAT_PALLOC
    else
      let a := s.allocAt
      let s := s.alloced
      let b := s.allocAt
      ((s.alloced.wr64 .BMF_PBASE0 0 (hbmBase + a)).wr64 .BMF_PBASE1 0 (hbmBase + b)).flag .BMF_STAT_PALLOC
  if hadP && p && t != hadT then
    forN 2 (fun s i =>
      let a := old.getD i 0
      let b := s.rd64 (if i = 0 then .BMF_PBASE0 else .BMF_PBASE1)
      (s.linesRead (a - hbmBase) polySize).hbmWrite (b - hbmBase) (s.hbmRead (a - hbmBase) polySize)) s
  else s

/-- Stored plans are evaluated again; those that no longer fit are marked unadmitted (R59). -/
def State.reevaluate (s : State) : State :=
  (forN 4 (fun s i =>
    let x := s.slot i
    if !x.built then s
    else
      let ok := s.timeb.map.isSome && (s.admission x.shadow 0 false).isNone
      s.setSlot i { x with admitted := ok, figures := s.planFigures x.shadow, flags := s.limitFlags x.shadow (s.planKernel x.shadow) }) s).showSlots

/-! ### Builds and slots (R360 to R362, R365) -/

/-- The slot is named by the pending deal; it is active. -/
def State.slotDealt (s : State) (i : Nat) : Bool := (s.dealer.deal.bind (·.slot)) == some i
def State.slotActive (s : State) (i : Nat) : Bool := (s.plans.active.map (·.slot)) == some i

/-- PLACED (R362). -/
def State.placed (s : State) (i : Nat) : Nat := if s.slotDealt i then 1 else if s.slotActive i then 2 else 0

/-- A build of slot `i` (R362): the status, and the budget that failed. -/
def State.build (s : State) (i : Nat) : State × Nat × Option Budget :=
  let x := s.slot i
  let d := x.edit
  if !s.planOk d then (s, rejParam, none)
  else if s.timeb.map.isNone then (s, rejState, none)
  else match s.admission d 0 true with
    | some b => (s, rejBudget, some b)
    | none =>
      let s := s.setSlot i { x with shadow := d, built := true, admitted := true, figures := s.planFigures d
                                    flags := s.limitFlags d (s.planKernel d) }
      (s.allocWeights.showSlots, stOk, none)

/-! ### The hand-over (R364) -/

/-- Engines in service: not retired, not off, not in self-test. -/
def State.idleOrSpare (s : State) : List Nat :=
  (List.range 96).filter (fun e => let st := s.rd .ENG_STAT_STATE e; st == egStandby || st == egIdle)

/-- Positions in the present allotment: one whose substitute is loading stays in it (R217, R223). -/
def State.positions (s : State) : Nat :=
  ((List.range 96).filter (fun p => s.engineAt p < 96)).length +
  ((List.range 96).filter (fun e => s.rd .ENG_STAT_STATE e == egLoading)).length

/-- Engine `e` takes position `p` (R192). -/
def State.takePosition (s : State) (p e : Nat) : State :=
  ((s.wr .ENG_STAT_STATE e egActive).wr .ENG_STAT_POSITION e p).setHolder p e

/-- The positions of an incoming plan (R192): new ones, in ascending order, take the lowest-numbered engines
that are spare; engines held IDLE become ACTIVE or STANDBY. Positions above the new E are given up once the
outgoing plan no longer needs them. -/
def State.allotPositions (s : State) (e : Nat) : State :=
  let s := forN e (fun s p =>
    if s.engineAt p < 96 ∨ (List.range 96).any (fun g => s.rd .ENG_STAT_STATE g == egLoading && s.rd .ENG_STAT_POSITION g == p) then s
    else match s.idleOrSpare with
      | g :: _ => s.takePosition p g
      | [] => s) s
  let s := if s.plans.outgoing.isNone then
      forN 96 (fun s p =>
        let g := s.engineAt p
        if e ≤ p ∧ g < 96 then
          ((s.wr .ENG_STAT_STATE g egStandby).wr .ENG_STAT_POSITION g 0x7F).setHolder p 0x7F
        else s) s
    else s
  forN 96 (fun s g => if s.rd .ENG_STAT_STATE g = egIdle then s.wr .ENG_STAT_STATE g egStandby else s) s

/-- The registers that show the active plan's settings (R185, R301, R338). -/
def State.showPlan (s : State) : State :=
  match s.plans.active with
  | some p =>
    let d := p.data
    let s := ((s.put .CUT_SKCTL_EN 0 (pSkEn d)).put .CUT_SKCTL_ZERO_MUCK 0 (pZeroMuck d)).wr .CUT_SKLO_LO 0 (pLo d)
    let s := ((s.wr .CUT_SKHI_HI 0 (pHi d)).wr .OUT_STAT_RELMODE 0 (pRelmode d)).wr .DLR_STAT_ACTIVE 0 p.slot
    (s.put .ENG_KSTAT_INUSE 0 p.usesKernel).wr .ENG_KSTAT_SLOT 0 (if p.usesKernel then pKslot d else 0)
  | none =>
    let s := ((s.wr .CUT_SKCTL_EN 0 0).wr .CUT_SKCTL_ZERO_MUCK 0 1).wr .CUT_SKLO_LO 0 3154
    let s := ((s.wr .CUT_SKHI_HI 0 5448).wr .OUT_STAT_RELMODE 0 0).wr .DLR_STAT_ACTIVE 0 7
    (s.wr .ENG_KSTAT_INUSE 0 0).wr .ENG_KSTAT_SLOT 0 0

/-- A deal of a plan that names a kernel clears the kernel fault (R336). -/
def State.clearKernelFault (s : State) : State :=
  ((s.wr .ENG_KSTAT_FAULT 0 0).wr .ENG_KSTAT_FCAUSE 0 0).wr .ENG_KFENG_ENGINE 0 0x7F

/-- The pending TRICK_CLOSE commands whose boundaries lie beyond D are ended by the deal (R365). -/
def State.endCloses (s : State) (d : Nat) : State :=
  (s.dealer.longs.filter (fun o => match o.kind with | .trickClose b _ => decide (d < b) | _ => false)).foldl
    (fun s o => s.endLong o rejState) s

/-- A zoom change by command that the incoming plan does not allow, or a deal of no plan, ends without effect (log 13). -/
def State.endZoomChanges (s : State) : State :=
  forN 64 (fun s k =>
    if (s.zslot k).changes.any (fun q => !q.byDeal) then s
    else s.endLongOf (fun o => match o with | .zoomChange n _ _ => n == k | _ => false) rejState) s

/-- The deal is made: the incoming active copy takes its place at D (R364, R166, R192, R199). -/
def State.makeDeal (s : State) (slot : Option Nat) (d : Nat) : State :=
  let old := s.plans.active.map (fun p => { p with ends := some d })
  let out := match old with | some p => some p | none => s.plans.outgoing
  let s := { s with plans := { s.plans with outgoing := out } }
  match slot with
  | none =>
    let s := { s with plans := { s.plans with active := none }, tricks := { s.tricks with cur := s.tricks.cur.filter (· < d) } }
    ((s.planSlots none d).endZoomChanges).showPlan.freeDue
  | some i =>
    let data := (s.slot i).shadow
    let a := s.allocAt
    let s := s.alloced
    let b := s.allocAt
    let s := s.alloced
    let x0 := s.allocAt
    let s := s.alloced
    let x1 := s.allocAt
    let s := s.alloced
    let y0 := s.allocAt
    let s := s.alloced
    let y1 := s.allocAt
    let s := s.alloced
    let both := out.isNone
    let bothAcc := both && s.tricks.past.isEmpty && s.tricks.closed.all (·.exported)
    -- the buffer that the plan's first trick and its first range use
    let nextAcc := if s.tricks.cur.any (· < d) then 1 - s.rd .ENG_ACCSEL_ACCUM else s.rd .ENG_ACCSEL_ACCUM
    let firstDeck := d / pS data % 2
    let p : ActivePlan :=
      { slot := i, id := s.plans.nextId, data := data, d := d, e := s.engAvail
        deck0 := if both || firstDeck = 0 then some a else none
        deck1 := if both || firstDeck = 1 then some b else none
        acc0 := if bothAcc || nextAcc = 0 then some x0 else none
        acc1 := if bothAcc || nextAcc = 1 then some x1 else none
        stat0 := y0, stat1 := y1, kernel := s.planKernel data }
    let s := { s with plans := { s.plans with active := some p, nextId := s.plans.nextId + 1 } }
    let s := if out.isNone then { s with deck := { s.deck with cutT := d, cutCh := 0, newest := none } } else s
    let s := if s.tricks.cur.isNone then ({ s with tricks := { s.tricks with cur := some d } }).wr64 .ENG_TRICK 0 d else s
    let s := s.allotPositions p.e
    let s := if p.usesKernel then s.clearKernelFault else s
    let s := { s with outp := { s.outp with kfaults := s.outp.kfaults.filter (fun n => some n == out.map (fun (p : ActivePlan) => p.id) ||
      s.tricks.past.any (fun (p : ActivePlan) => p.id == n) || s.tricks.closed.any (fun k => !k.exported && k.plan.id == n)) } }
    let s := ((s.planSlots (some p) d).endZoomChanges).askLayout p
    ((s.showPlan.showBases (some p)).freeDue.allocAcc).openDue

/-- The plan before a deal, whose accumulators and deck half coexist with the incoming plan's (R66): the active one, or
after a deal of no plan the outgoing one until its copy is freed and its last trick closed. -/
def State.planBefore (s : State) : Option (Tbl Byte) :=
  match s.plans.active with
  | some p => some p.data
  | none => (s.plans.outgoing.toList ++ s.tricks.past).head?.map (fun (p : ActivePlan) => p.data)

/-- The status of a deal at its hand-over, with the budget that fails (R60, R227, R364, R525). A slot built again with
another S since the command, so that D is no sub-integration boundary of it (R37), is refused as a bad D is (R363;
DEDUCED, log 26). -/
def State.dealStatus (s : State) (slot : Option Nat) (at_ : Nat) : Nat × Option Budget :=
  match slot with
  | none => (stDone, none)
  | some i =>
    let d := (s.slot i).shadow
    if at_ % pS d != 0 || (usesTable d && planGeom d != s.rd tgeomA) then (rejParam, none)
    else match s.admission d (dealExtra d s.planBefore) false with
      | some b => (rejBudget, some b)
      | none => (stDone, none)

/-- A deal admits its plan again: the figures and the flags of its limits are those of this admission (R58, R61). -/
def State.admitAgain (s : State) (slot : Option Nat) : State :=
  match slot with
  | none => s
  | some i =>
    let x := s.slot i
    (s.setSlot i { x with figures := s.planFigures x.shadow, flags := s.limitFlags x.shadow (s.planKernel x.shadow) }).showSlots

/-- PLAN_HAND_OVER (R364, R60): at time(D), after a weight hand-over at the same counter (R235). It waits
while the copy before the outgoing one is not freed (R360; log 10). -/
def execPlanHandOver (s : State) : Host.Outcome State Fault Refusal :=
  .next <|
    match s.dealer.deal with
    | none => s
    | some q =>
      let early := match s.weightDeal with | some (_, _, w) => decide (w ≤ q.d) | none => false
      if early || s.modl.warm || (s.plans.outgoing.isSome && s.plans.active.isSome) then s
      else
        let s := match s.timeOf q.d with | some n => s.reach n | none => s
        let st := s.dealStatus q.slot q.d
        let code := match st.2 with | some b => b.code | none => 0
        let s := s.event 2 0x0201 (q.slot.getD 0xFF) q.d (st.1 + 65536 * code)
        let dsn := s.lastDsn
        let s := { s with dealer := { s.dealer with deal := none } }
        let s := ((s.wr .DLR_STAT_DEALPEND 0 0).wr .DLR_STAT_DEALSLOT 0 0).wr64 .DLR_DEALCNT 0 0
        let s := s.wr64 .DLR_HODSN 0 dsn
        let s := if st.1 = stDone then (((s.admitAgain q.slot).endCloses q.d).makeDeal q.slot q.d).flag .DLR_EVT_DEAL
          else (s.flag .DLR_EVT_DEALREJ).openDue
        match s.findLong (fun k => k == .planDeal) with
        | some o => s.endLong o st.1 code (match st.2 with | some b => [(8, b.need), (8, b.have_)] | none => []) (some dsn)
        | none => s

/-- TABLE_LOAD_COMPLETE (R360): the oldest table load is in the edit copy. -/
def execTableLoadComplete (s : State) : Host.Outcome State Fault Refusal :=
  .next <|
    match s.findLong (fun k => match k with | .tableLoad _ _ _ => true | _ => false) with
    | none => s
    | some o => match o.kind with
      | .tableLoad slot sect l =>
        let x := s.slot slot
        (s.setSlot slot { x with edit := writeSection x.edit sect 0 l }).endLong o stDone
      | _ => s

end Sys2Proof.Machine
end

