-- ==== Sys2Proof/Machine/Winos.lean ====
section
/-! DEFINITION. Taking a Winos command (R339 to R353, R525, R526): its order, the transports, the kept replies,
the reply; and the rows of the queue pairs (R340, R345 to R348, R367). -/

namespace Sys2Proof.Machine

/-- What a command's own rule answers: the state after its effect, the status, DETAIL and parameters. -/
structure Ans where
  st : State
  status : Nat
  detail : Nat := 0
  params : List (Nat × Nat) := []
  /-- what follows once the reply is sent -/
  after : State → State := id

/-- The command has taken full effect. -/
def State.ok (s : State) (params : List (Nat × Nat) := []) : Ans := { st := s, status := stOk, params := params }
/-- The command is refused. -/
def State.rej (s : State) (status : Nat) : Ans := { st := s, status := status }
/-- The parameter at a byte offset is refused. -/
def State.bad (s : State) (off : Nat) : Ans := { st := s, status := rejParam, detail := off }
/-- A budget fails (R342): its code, the required and the available figure. -/
def State.over (s : State) (code need have_ : Nat) : Ans :=
  { st := s, status := rejBudget, detail := code, params := [(8, need), (8, have_)] }
/-- A fault occurred while the command ran (R342). -/
def State.internal (s : State) (effect source kind : Nat) : Ans :=
  { st := s, status := errInternal, params := [(1, effect), (2, source), (1, kind)] }

/-- 16 long operations are in progress: no more begins (R343). -/
def State.longsFull (s : State) : Bool := decide (16 ≤ s.dealer.longs.length)

/-- A long operation begins, unless 16 are in progress (R343). -/
def State.begin (s : State) (h : Hdr) (opcode : Nat) (kind : LongKind) (params : List (Nat × Nat) := []) : Ans :=
  if s.longsFull then s.rej rejBusy
  else
    { st := { s with dealer := { s.dealer with longs := s.dealer.longs ++ [⟨h.src, h.tag, opcode, kind, s.lastDsn⟩] } }
      status := stAccepted, params := params }

/-- How a command is compared with the commands whose replies are kept (R344): TAG, OPCODE and parameters. -/
def hdrPlain (h : Hdr) : Hdr := { h with version := 1, indirect := false, replyBuf := none, paramAddr := 0 }

/-- The reply buffer of a command on a queue pair; address 0 gives none (R345). -/
def hdrBuffer (h : Hdr) : Option (Nat × Nat) :=
  match h.src, h.replyBuf with
  | .qp _, some (a, n) => if a = 0 ∨ !h.indirect then none else some (a.toNat, n.toNat)
  | _, _ => none

/-- Host address of the submission entry that is taken next (R345). -/
def State.entryAt (s : State) (q : Nat) : Nat := s.rd64 .PCI_SQBASE q + 64 * s.rd .PCI_QSTAT_SQHEAD q

/-- Whether the block takes packets from a source (R348, R351, R514, R515): the firmware runs; a queue pair is enabled,
an entry waits in it and READY has followed the last warm reset; the UART carries commands. -/
def State.hears (s : State) (src : Src) : Bool :=
  s.modl.fw && !s.modl.mrst &&
  (match src with
   | .qp q => !s.modl.warm && s.on .PCI_QCFG_EN q && s.rd .PCI_QSTAT_SQHEAD q != s.rd .PCI_SQTAIL_TAIL q
   | .uart => s.on .DLR_STAT_UARTEN
   | .mgmt _ _ => true)

/-- Whether a packet from a source is ordered as a command: the entry of a queue pair can be read (R447); a datagram
holds at most 1436 parameter bytes (R349); a DSN is left for it (R77). -/
def State.takes (s : State) (h : Hdr) : Bool :=
  s.hears h.src && !s.dealer.exhausted &&
  (match h.src with
   | .qp q => s.modl.pciUp && s.hostIn (s.entryAt q) 64
   | .uart => true
   | .mgmt _ _ => decide (h.length.toNat ≤ 1436))

/-- The parameters of an indirect command cannot be read: its host address lies outside the window (R345, R447). -/
def State.paramsLost (s : State) (h : Hdr) : Bool :=
  match h.src with
  | .qp _ => h.indirect && decide (0 < h.length.toNat ∧ h.length.toNat ≤ 2 ^ 20) && !s.hostIn h.paramAddr.toNat h.length.toNat
  | _ => false

/-- The entry of a queue pair is taken (R346). -/
def State.popEntry (s : State) (src : Src) : State :=
  match src with
  | .qp q => (s.wr .PCI_QSTAT_SQHEAD q ((s.rd .PCI_QSTAT_SQHEAD q + 1) % 2 ^ s.rd .PCI_QCFG_SQLOG2 q)).wr .PCI_QSTAT_CQFULL q 0
  | _ => s

/-- What the header itself makes wrong (R9, R340, R345): the VERSION, an inline LENGTH above 32, an indirect one
above 1 MiB, INDIRECT off the rings, a LENGTH that is not that of the opcode's parameters. R339 gives DETAIL as the offset of a
parameter, and here no parameter is at fault: 0, and for a wrong LENGTH the first byte that is missing or too many (DESIGN
CHOICE, log 22). -/
def hdrWrong (h : Hdr) (len : Nat) : Option Nat :=
  let n := h.length.toNat
  let ring := match h.src with | .qp _ => true | _ => false
  if h.version ≠ 1 then some 0
  else if ring && ((!h.indirect && decide (32 < n)) || (h.indirect && decide (2 ^ 20 < n))) then some 0
  else if !ring && h.indirect then some 0
  else if n ≠ len then some (min n len)
  else none

/-- What a command of opcode `opcode` and `len` parameter bytes is answered (R352, R515, R525, R342): an
authority refusal first, then what the header makes wrong, then the command's own rule; a command that needs
READY is refused before it unless a refusal of higher precedence applies; a refusal leaves no effect. -/
def State.answer (s : State) (h : Hdr) (len : Nat) (auth early : Bool) (body : State → Ans) : Ans :=
  if !auth then s.rej rejAuth
  else match hdrWrong h len with
    | some off => s.bad off
    | none =>
      let a := body s
      if !early && !s.on .MOD_STAT_READY && a.status ≠ rejAuth && a.status ≠ rejParam then s.rej rejState else a

/-- The replies kept for each source: its last 256 commands (R344). -/
def keepReply (k : Kept) (l : List Kept) : List Kept :=
  let mine := (l.filter (fun x => x.reply.src == k.reply.src)).take 255
  k :: (mine ++ l.filter (fun x => x.reply.src != k.reply.src))

/-- Room in the completion queue for a reply, for a completion sent again with it, and for every completion owed
(R348). -/
def State.roomFor (s : State) (h : Hdr) (p : Packet) (again : Option Packet := none) : Bool :=
  let also := match again with | some c => cqNeed (paramBytes c.params).length false | none => 0
  match h.src with
  | .qp q => cqNeed (paramBytes p.params).length (hdrBuffer h).isSome + also + s.owed q ≤ s.cqFree q
  | _ => true

/-- A reply too long for its completion queue (R347). -/
def State.tooLong (s : State) (h : Hdr) (a : Ans) : Bool :=
  match h.src with
  | .qp q => (hdrBuffer h).isNone && decide (s.cqSize q < 2 * cqNeed (paramBytes a.params).length false)
  | _ => false

/-- The command is held back until the host advances `PCI_CQHEAD` (R348). -/
def State.heldBack (s : State) (src : Src) : State :=
  match src with
  | .qp q => s.flag .PCI_QSTAT_CQFULL q
  | _ => s

/-- An entry that cannot be read, or whose indirect parameters cannot, is discarded with FETCHERR (R367, R447). -/
def State.fetchFailed (s : State) (src : Src) (addr n : Nat) : State :=
  match src with
  | .qp q =>
    let s := s.popEntry src
    (if s.hostIn addr n then s.hostTimeout masterQueue 0 0 else s.fabRefuse masterQueue 0 (addr % 2 ^ 40)).flag .PCI_QSTAT_FETCHERR q
  | _ => s

/-- A Winos command: taken, ordered (event 0x0901), executed unless its reply is kept, and answered (R340,
R343, R344, R347, R348). `cmd` is the command as it is compared with the kept ones. -/
def State.winos (s : State) (cmd : Instr) (h : Hdr) (opcode len : Nat) (auth early : Bool) (body : State → Ans) : State :=
  if !s.takes h then s
  else if s.paramsLost h then s.fetchFailed h.src h.paramAddr.toNat h.length.toNat
  else
    let s1 := ((s.popEntry h.src).bump .DLR_CMDCNT_COUNT).event 9 0x0901 (transportOf h.src) 0 (opcode + 65536 * h.tag.toNat)
    if s1.dealer.exhausted then s1
    else match s.dealer.kept.find? (fun k => k.reply.src == h.src && k.cmd == cmd) with
      | some k =>
        if !s1.roomFor h k.reply k.completion then s.heldBack h.src
        else
          let s2 := s1.sendPacket { k.reply with rpt := true } (hdrBuffer h)
          match k.completion with
          | some c => s2.sendPacket { c with rpt := true } none
          | none => s2
      | none =>
        let a := s1.answer h len auth early body
        let a := if s1.tooLong h a then s1.bad 0 else a
        let p : Packet := { src := h.src, kind := 1, opcode := opcode, rpt := false, lost := false, tag := h.tag, dsn := s1.lastDsn
                            status := a.status, detail := a.detail, params := a.params }
        if !a.st.roomFor h p then s.heldBack h.src
        else
          let s2 := { a.st with dealer := { a.st.dealer with kept := keepReply ⟨cmd, p, none⟩ a.st.dealer.kept } }
          a.after (s2.sendPacket p (hdrBuffer h))

/-- The command arrives on a PCI Express ring or on the UART (R352). -/
def hdrLocal (h : Hdr) : Bool := match h.src with | .mgmt _ _ => false | _ => true

/-- The command arrives on the management port. -/
def hdrOverMgmt (h : Hdr) : Bool := !hdrLocal h

/-! ### Packets and queue pairs -/

/-- A packet that is no command is discarded and counted (R340, R349); a submission entry that cannot be read sets
FETCHERR (R367, R447). -/
def State.discardPacket (s : State) (src : Src) : State :=
  if !s.hears src then s
  else
    let unread := match src with | .qp q => !s.modl.pciUp || !s.hostIn (s.entryAt q) 64 | _ => false
    let at_ := match src with | .qp q => s.entryAt q | _ => 0
    if unread then s.fetchFailed src at_ 64 else ((s.popEntry src).bump .DLR_DROP_COUNT).flag .DLR_EVT_DROP

/-- The opcodes of R354. -/
def winosOpcodes : List Nat :=
  (List.range 12).map (· + 0x0100) ++ (List.range 5).map (· + 0x0201) ++ (List.range 10).map (· + 0x0301) ++
  (List.range 3).map (· + 0x0401) ++ (List.range 5).map (· + 0x0501) ++ (List.range 5).map (· + 0x0601) ++
  (List.range 6).map (· + 0x0701) ++ (List.range 3).map (· + 0x0801) ++ (List.range 5).map (· + 0x0901) ++
  (List.range 4).map (· + 0x0A01) ++ (List.range 3).map (· + 0x0B01)

/-- WINOS_PACKET_DISCARDED (R340, R349, R367, R447): a packet that is no command, or one that finds the management
queue full. The table has no row for a command whose opcode is not defined: it comes as an operand of this one, and is
ordered and answered with REJ_PARAM (R9, R340; log 22). -/
def execWinosPacketDiscarded (p : StrayPacket) (s : State) : Host.Outcome State Fault Refusal :=
  .next <|
    match p with
    | .discarded src => s.discardPacket src
    | .undefinedOpcode h op l =>
      if winosOpcodes.contains op.toNat then s
      else s.winos (.winosPacketDiscarded (.undefinedOpcode (hdrPlain h) op l)) h op.toNat l.length true true (·.bad 0)

/-- Register writes through BAR0 are discarded from the start of a warm reset until READY (R514). -/
def State.barShut (s : State) : Bool := s.modl.warm || s.modl.mrst

/-- PCI_SQTAIL (R348, R367): the doorbell. -/
def execPciSqtail (q : QpId) (v : BitVec 12) (s : State) : Host.Outcome State Fault Refusal :=
  .next (if s.barShut then s else s.wr .PCI_SQTAIL_TAIL q.val v.toNat)

/-- PCI_CQHEAD (R348, R367): the host's completion head; entries held back may be taken again. -/
def execPciCqhead (q : QpId) (v : BitVec 12) (s : State) : Host.Outcome State Fault Refusal :=
  .next (if s.barShut then s else (s.wr .PCI_CQHEAD_HEAD q.val v.toNat).wr .PCI_QSTAT_CQFULL q.val 0)

/-- PCI_QCFG_EN (R367): clearing EN abandons the entries not yet taken. -/
def execPciQcfgEn (q : QpId) (en : Bool) (s : State) : Host.Outcome State Fault Refusal :=
  .next <|
    if s.barShut then s
    else
      let s := s.put .PCI_QCFG_EN q.val en
      if en then s else (s.wr .PCI_QSTAT_SQHEAD q.val (s.rd .PCI_SQTAIL_TAIL q.val)).wr .PCI_QSTAT_CQFULL q.val 0

end Sys2Proof.Machine
end

