-- ==== Sys2Proof/Machine/Ledger.lean ====
section
/-! DEFINITION. The ledger (R427 to R436, R154): records in their slots, copies of current records, spares,
the exchange of regions, flow snapshots, and LEDGER_READ. -/

namespace Sys2Proof.Machine

/-! ### Slots -/

/-- The physical slot that stands in for a slot (R434). -/
def State.physOf (s : State) (p : Nat) : Nat := let x := tget 0 s.ledger.remap p; if x = 0 then p else x

/-- Slots of a list of runs. -/
def runLen (l : List (Nat × Nat)) : Nat := (l.map Prod.snd).sum

/-- The `i`-th slot of a list of runs. -/
def runAt : List (Nat × Nat) → Nat → Nat
  | [], _ => 0
  | (a, n) :: r, i => if i < n then a + i else runAt r (i - n)

/-- The first `n` slots of a list of runs, and the rest. -/
def runSplit : List (Nat × Nat) → Nat → List (Nat × Nat) × List (Nat × Nat)
  | [], _ => ([], [])
  | (a, n) :: r, k =>
    if k = 0 then ([], (a, n) :: r)
    else if k < n then ([(a, k)], (a + k, n - k) :: r)
    else let x := runSplit r (k - n); ((a, n) :: x.1, x.2)

/-- The slots that the next `n` slots of the ring are, from the head on. -/
def State.ringSlots (s : State) (n : Nat) : List Nat :=
  let l := s.ledger
  (List.range n).map (fun i => runAt l.ring ((l.head + i) % runLen l.ring))

/-- `LGR_HEAD` (R442). -/
def State.headSlot (s : State) : Nat := s.physOf (runAt s.ledger.ring s.ledger.head)

/-- Bytes of the ledger window (R427, R436). -/
def State.ledgerBytes (s : State) (o n : Nat) : List Byte := tgetMany 0 s.ledger.mem o n

/-- Bytes written into the MRAM. -/
def State.ledgerPut (s : State) (o : Nat) (l : List Byte) : State :=
  { s with ledger := { s.ledger with mem := tsetMany 0 s.ledger.mem o l } }

/-! ### Records (R428 to R430) -/

/-- Bytes of a record over `n` slots (R428). -/
def LRec.bytes (r : LRec) (n : Nat) : List Byte :=
  let b := leBytes 2 0x4C47 ++ leBytes 1 r.type ++ leBytes 1 r.nslot ++ leBytes 4 r.key ++ leBytes 8 r.dsn ++
    padTo (256 * n - 24) r.payload
  b ++ leBytes 4 (crc32c b) ++ leBytes 4 r.dsn

/-- Flows of a flow set record that it does not end: flow and DSN (R432). -/
def LRec.flows (r : LRec) : List Nat :=
  ((List.range (fieldAt r.payload 0 1)).filter (fun i => fieldAt r.payload (4 + 20 * i + 7) 1 != 0)).map
    (fun i => fieldAt r.payload (4 + 20 * i) 2)

/-- A flow set record has an entry for a flow. -/
def LRec.names (r : LRec) (f : Nat) : Bool :=
  (List.range (fieldAt r.payload 0 1)).any (fun i => fieldAt r.payload (4 + 20 * i) 2 == f)

/-- No later record of `l` supersedes `r` (R432). -/
def LRec.current (r : LRec) (l : List LRec) : Bool :=
  let later := fun (q : LRec) => q.type == r.type && decide (r.dsn < q.dsn)
  if r.type = 3 then fieldAt r.payload 0 1 != 0 && !l.any (fun q => later q && q.key == r.key)
  else if r.type = 4 then r.flows.any (fun f => !l.any (fun q => later q && q.names f))
  else if r.type = 6 then !l.any (fun q => later q && q.key == r.key)
  else if r.type = 8 then decide ((l.filter later).length < 64)
  else !l.any later

/-- The current records of a type, by ascending KEY. -/
def State.currentOf (s : State) (type : Nat) : Tbl LRec :=
  (s.ledger.recs.filter (fun r => r.type == type && r.current s.ledger.recs)).foldl (fun t r => tins r.key r t) []

/-- Fields of a repair map entry (R432). -/
def LRec.kind (r : LRec) : Nat := fieldAt r.payload 0 1
def LRec.stage (r : LRec) : Nat := fieldAt r.payload 1 1
def LRec.unit (r : LRec) : Nat := fieldAt r.payload 2 2
def LRec.loc (r : LRec) : Nat := fieldAt r.payload 4 8
def LRec.cause (r : LRec) : Nat := fieldAt r.payload 12 1

/-- The entries of a kind and stage, by item number. -/
def State.repairsOf (s : State) (kind stage : Nat) : List LRec :=
  ((s.currentOf 6).map (·.2)).filter (fun r => r.kind == kind && r.stage == stage)

/-- Two lists of slots meet. -/
def meets (a b : List Nat) : Bool := a.any (fun x => b.contains x)

/-- Records whose slots are overwritten no longer exist (R429). -/
def State.overwrite (s : State) (slots : List Nat) : State :=
  { s with ledger := { s.ledger with recs := s.ledger.recs.filter (fun r => !meets r.slots slots) } }

/-- The three verified steps of R429 over physical slots: the commit word positions are cleared, header and
payload are written, then the commit word. -/
def State.writeSlots (s : State) (slots : List Nat) (b : List Byte) : State :=
  let n := slots.length
  let s := slots.foldl (fun s p => s.ledgerPut (256 * p + 248) (leBytes 8 0)) s
  let s := forN n (fun s i => s.ledgerPut (256 * slots.getD i 0) (if i + 1 = n then slice b (256 * i) 248 else slice b (256 * i) 256)) s
  s.ledgerPut (256 * slots.getD (n - 1) 0 + 248) (slice b (256 * n - 8) 8)

/-- A record is written at the ring head, and counted (R429, R442). -/
def State.writeRecord (s : State) (r : LRec) : State :=
  let at_ := s.ringSlots r.nslot
  let phys := at_.map s.physOf
  let s := (s.overwrite phys).writeSlots phys (r.bytes r.nslot)
  let l := s.ledger
  let s := { s with ledger := { l with recs := { r with slots := phys } :: l.recs, head := (l.head + r.nslot) % runLen l.ring } }
  (s.bump .LGR_RECCNT_COUNT).wr64 .LGR_LASTDSN 0 r.dsn

/-- The current records that the next `n` ring slots hold are taken out, to be copied to the head (R430). -/
def State.takeCurrent (s : State) (slots : List Nat) : State × List LRec :=
  let l := s.ledger.recs
  let hit := l.filter (fun r => meets r.slots slots && r.current l)
  ({ s with ledger := { s.ledger with recs := l.filter (fun r => !(meets r.slots slots && r.current l)) } }, hit.reverse)

/-- At the end of a pass, the region written longest ago changes places with the 4096 ring slots that follow
the head (R433). -/
def State.exchange (s : State) : State × List LRec :=
  let l := s.ledger
  match l.regions with
  | [] => (s, [])
  | (g, segs) :: rest =>
    let a := runSplit l.ring l.head
    let b := runSplit a.2 4096
    let slots := (s.ringSlots 4096).map s.physOf
    let x := s.takeCurrent slots
    ({ x.1 with ledger := { x.1.ledger with ring := a.1 ++ segs ++ b.2, regions := (g, b.1) :: rest } }, x.2)

/-- Records are written at the head, each after the current records in its way (R430, R433). -/
def State.writeQueue (fuel : Nat) (q : List LRec) (s : State) : State :=
  match fuel, q with
  | 0, _ => s
  | _, [] => s
  | f + 1, r :: rest =>
    let x := s.takeCurrent ((s.ringSlots r.nslot).map s.physOf)
    if x.2.isEmpty then
      let before := s.ledger.head
      let s := s.writeRecord r
      if s.ledger.head < before then
        let y := s.exchange
        State.writeQueue f (y.2 ++ rest) y.1
      else State.writeQueue f rest s
    else State.writeQueue f (x.2 ++ r :: rest) x.1

/-! ### Slot failures (R434, R435) -/

/-- What a failed write leaves in a slot is open (log 2). -/
def State.spoilSlot (s : State) (p : Nat) : State :=
  let b := (List.range 32).flatMap (fun i => leBytes 8 (Config.freeBits (s.fresh + i)).toNat)
  ({ s with fresh := s.fresh + 32 }).ledgerPut (256 * p) b

/-- A slot fails (R434, R435): a spare stands in, which the repair map entry names as its unit, or the ledger becomes read-only.
The record that the slot held no longer exists (R429). -/
def State.slotFails (s : State) (slot : Nat) : State :=
  if s.on .LGR_STAT_RO then s
  else
    let left := s.rd .LGR_SPARE_LEFT
    let p := s.physOf slot
    let s := (s.spoilSlot p).overwrite [p]
    if left = 0 then
      let s := ((s.flag .LGR_STAT_RO).flag .LGR_EVT_RO).event 8 0x0802 0 0 0
      let s := s.fault srcLedger 3 1
      { s with ledger := { s.ledger with pend := [], ro := true } }
    else
      let item := s.ledger.nextItem
      let s := (s.wr .LGR_SPARE_LEFT 0 (left - 1)).flag .LGR_EVT_SLOTRET
      let s := { s with ledger := { s.ledger with remap := tset 0 s.ledger.remap slot (65536 - left) } }
      let s := s.fault srcLedger 1 0 p
      let s := s.newItem.repair item 6 1 (65536 - left) p 0
      if left - 1 < 164 && !s.on .LGR_STAT_WARN then
        ((((s.flag .LGR_STAT_WARN).flag .LGR_EVT_WARN).event 8 0x0801 0 0 (left - 1))).fault srcLedger 2 0
      else s

/-- An attempt at the record in front fails in one of its slots, a free choice (log 2). The first step of R429 has by then cleared the
commit words of the slots before it; the current records that these held, and that of the failing slot, go in front (R430). -/
def State.attemptFails (s : State) (q : List LRec) : State × List LRec :=
  match q with
  | [] => (s, [])
  | r :: _ =>
    let at_ := s.ringSlots r.nslot
    let i := if r.nslot ≤ 1 then 0 else (Config.freeBits s.fresh).toNat % r.nslot
    let before := (at_.take i).map s.physOf
    let used := (at_.take (i + 1)).map s.physOf
    let recs := s.ledger.recs
    let hit := recs.filter (fun x => meets x.slots used && x.current recs)
    let s := s.drawn.overwrite before
    let s := before.foldl (fun s p => s.ledgerPut (256 * p + 248) (leBytes 8 0)) s
    (s.slotFails (at_.getD i 0), hit.reverse ++ q)

/-- A snapshot is due and not yet written: no record begins before it (R431). -/
def State.snapWaits (s : State) : Bool := s.pow.snapRun && !s.pow.snapDone

/-- LEDGER_RECORD_WRITE (R429 to R435): the oldest waiting record is written; the first `badSlots` attempts
fail. Releases that waited for their record follow (R293). -/
def execLedgerRecordWrite (badSlots : Nat) (s : State) : Host.Outcome State Fault Refusal :=
  .next <|
    match s.ledger.pend with
    | [] => s
    | r :: rest =>
      if s.on .LGR_STAT_RO || s.snapWaits then s
      else
        let s := { s with ledger := { s.ledger with pend := rest } }
        let a := (List.range badSlots).foldl (fun (a : State × List LRec) _ => a.1.attemptFails a.2) (s, [r])
        if a.1.on .LGR_STAT_RO then a.1
        else (State.writeQueue (2 * runLen a.1.ledger.ring + 4096) a.2 a.1).tryRelease

/-! ### Snapshots (R154, R431, R435) -/

/-- First sequence of a flow's oldest unreleased trick (R294, R431): that of the first sample not in a released trick,
and no sequence before the flow's anchor; where a loss of power has destroyed frames that no resume has reported yet, the first of
those (R157). -/
def State.oldestSeq (s : State) (f : Nat) : Nat :=
  let x := s.flow f
  if (s.session (s.rd .VSN_FSTAT_SESSION f)).coldKind = 3 ∧ x.lossCount ≠ 0 then x.lossFirst else
  let t := match s.unreleased with
    | k :: _ => k.first
    | [] => s.tricks.cur.getD x.exp
  let n := s.rd .VSN_FNEXT_NEXT f
  let back := ceilDiv (x.exp - max t x.anchorCount) (shT (s.flowShape f))
  (n + 2 ^ 32 - min (2 ^ 32 - 1) back) % 2 ^ 32

/-- Payload of a flow snapshot (R431). The state of the flows of a session that waits for its resume with KIND 4 is not known
(R158): a snapshot taken meanwhile leaves them out, so that the next cold start decides on KIND 4 again (DEDUCED, log 30). -/
def State.flowSnapshot (s : State) : List Byte :=
  let fs := s.flowList.filter (fun f => (s.session (s.rd .VSN_FSTAT_SESSION f)).coldKind != 4)
  let bits := (List.range 5120).map (fun i => BitVec.ofNat 8
    (((List.range 8).filter (fun j => fs.contains (8 * i + j))).foldl (fun a j => a + 2 ^ j) 0))
  bits ++ (List.range 40960).flatMap (fun f =>
    if fs.contains f then leBytes 4 (s.rd .VSN_FNEXT_NEXT f) ++ leBytes 4 (s.oldestSeq f) else [])

/-- The flow snapshot is written into the next region; with the ledger read-only nothing is (R431, R435). -/
def State.writeSnapshot (s : State) : State :=
  let payload := s.flowSnapshot
  if s.on .LGR_STAT_RO then { s with ledger := { s.ledger with hbmSnap := payload } }
  else match s.ledger.regions with
    | [] => s
    | (g, segs) :: rest =>
      let n := ceilDiv (payload.length + 24) 256
      let r : LRec := { nslot := 0, type := 5, key := n, dsn := s.lastDsn, payload := payload }
      let phys := (List.range n).map (fun i => s.physOf (runAt segs i))
      let s := (s.overwrite ((List.range 4096).map (fun i => s.physOf (runAt segs i)))).writeSlots phys (r.bytes n)
      let l := s.ledger
      let s := { s with ledger := { l with recs := { r with slots := phys } :: l.recs, regions := rest ++ [(g, segs)] } }
      ((((s.flag .LGR_STAT_SNAPVALID).wr .LGR_STAT_SNAPREG 0 g).flag .LGR_EVT_SNAP).bump .LGR_RECCNT_COUNT).wr64 .LGR_LASTDSN 0 r.dsn

/-- POWER_FAIL_SNAPSHOT (R431): one for each flush, after any record already begun (each is one step here). -/
def execPowerFailSnapshot (s : State) : Host.Outcome State Fault Refusal :=
  .next <|
    if s.snapWaits then
      let s := s.writeSnapshot
      { s with pow := { s.pow with snapDone := true } }
    else s

/-- LEDGER_READ (R354, R436): whole physical slots. -/
def execLedgerRead (h : Hdr) (first : BitVec 16) (count : BitVec 16) (s : State) : Host.Outcome State Fault Refusal :=
  .next (s.winos (.ledgerRead (hdrPlain h) first count) h 0x0801 4 true false (fun s =>
    let n := count.toNat
    if n = 0 ∨ 64 < n ∨ 65536 < first.toNat + n ∨ (hdrOverMgmt h ∧ 5 < n) then s.bad 2
    else s.ok ((List.range (256 * n)).map (fun i => (1, (tget 0 s.ledger.mem (256 * first.toNat + i)).toNat)))))

end Sys2Proof.Machine
end

