-- ==== Sys2Proof/Machine/Stacks.lean ====
section
/-! DEFINITION. HBM stacks (R404 to R416, R437 to R440): loss and rebuild, retired pseudo-channels, temperature
and refresh, rows marked for repair, and the commands MEM_STATUS and MEM_CFG. -/

namespace Sys2Proof.Machine

/-! ### Loss, retirement and rebuild (R404 to R407) -/

/-- Stack states (R439). -/
def stActive : Nat := 2
def stLost : Nat := 3

/-- A stack holds data and is in use. -/
def State.stackOn (s : State) (k : Nat) : Bool := s.rd .HBM_SSTAT_STATE k == stActive

/-- Stripes that the rebuilds have still to visit. -/
def State.showRebuild (s : State) : State :=
  s.wr .HBM_REBUILD_LEFT 0 (min (2 ^ 27 - 1) (s.hbm.jobs.map (fun j => j.2.2)).sum)

/-- A rebuild begins: of a stack (`p = 32`) or of one of its pseudo-channels. -/
def State.startRebuild (s : State) (k p n : Nat) : State :=
  ({ s with hbm := { s.hbm with jobs := s.hbm.jobs ++ [(k, p, n)] } }).showRebuild

/-- Lines lose a second chunk: unreadable, and so poisoned (R406, R415). -/
def State.linesDie (s : State) (n : Nat) : State :=
  ((s.wr .HBM_POISON_COUNT 0 (min (2 ^ 32 - 1) (s.rd .HBM_POISON_COUNT + n))).flag .HBM_GEVT_POISON).flag .FLT_GSTAT_OUTSIDE

/-- The pseudo-channel numbers that are retired in stacks other than `k`, as a count. -/
def State.otherPcs (s : State) (k : Nat) : Nat :=
  ((List.range 32).filter (fun p => (List.range 6).any (fun j => j != k && bitOf (s.rd .HBM_SPCRET_MAP j) p))).length

/-- A stack is lost (R404 to R406): powered off, recorded, numbered; `kind` is the fault that names the cause. One that
the repair map already shows lost keeps its item number (R528).
`held` is false at a cold start, where no data is held and nothing is rebuilt (R408). -/
def State.loseStack (s : State) (k kind : Nat) (held : Bool := true) : State :=
  if s.rd .HBM_SSTAT_STATE k = stLost then s
  else
    let dead := if s.rd .HBM_GSTAT_LOST != 7 then hbmLines else hbmLines / 32 * s.otherPcs k
    let known := ((s.repairsOf 3 1).find? (fun r => r.unit == k)).map (·.key)
    let item := known.getD s.ledger.nextItem
    let s := ((s.wr .HBM_SSTAT_STATE k stLost).wr .HBM_SSTAT_HOT k 0).wr .HBM_SSTAT_THROTTLE k 0
    let s := (s.whenS known.isNone (·.newItem)).repair item 3 1 k 0 kind
    let s := { s with hbm := { s.hbm with item := tset 0 s.hbm.item k item, lockLost := tset false s.hbm.lockLost k false,
                                          rows := s.hbm.rows.filter (fun r => r.1 / 8192 != k) } }
    let s := ((s.event 8 0x0803 k 0 kind).flag .HBM_GEVT_LOST).whenS (s.rd .HBM_GSTAT_LOST == 7) (·.wr .HBM_GSTAT_LOST 0 k)
    let s := s.whenS (dead != 0) (fun s => (s.linesDie dead).fault (srcStack k) 6 2 k)
    if held then (s.wr .HBM_GSTAT_PARITY 0 1).startRebuild k 32 hbmLines
    else s.wr .HBM_GSTAT_PARITY 0 2

/-- A stack fails in service: a part fault (R491). -/
def State.stackFails (s : State) (k kind : Nat) : State := s.partFault.loseStack k kind

/-- A pseudo-channel is retired (R407): recorded, its chunks rebuilt; more than 8 lose the stack (R404). -/
def State.retirePc (s : State) (k p : Nat) : State :=
  let m := s.rd .HBM_SPCRET_MAP k
  if bitOf m p || !s.stackOn k then s
  else
    let s := s.partFault
    let two := s.rd .HBM_GSTAT_LOST != 7 || (List.range 6).any (fun j => j != k && bitOf (s.rd .HBM_SPCRET_MAP j) p)
    let item := s.ledger.nextItem
    let s := ((s.wr .HBM_SPCRET_MAP k (m + 2 ^ p)).wr .HBM_SSTAT_RETIRED k (popcount 32 (m + 2 ^ p))).flag .HBM_SEVT_PCRET k
    let s := (s.fault (srcPc k p) 4 1 p).newItem.repair item 2 1 (32 * k + p) 0 4
    let s := { s with hbm := { s.hbm with item := tset 0 s.hbm.item (6 + 32 * k + p) item } }
    let s := (((s.closeRows (32 * k + p)).wr .HBM_GSTAT_PCDEGR 0 1).startRebuild k p (hbmLines / 32)).whenS two (·.linesDie (hbmLines / 32))
    if 8 < popcount 32 (m + 2 ^ p) then (s.fault (srcStack k) 3 1 k).loseStack k 3 else s

/-- The `n`-th line that a rebuild visits (R401). -/
def rebuildLine (p n : Nat) : Nat := if p = 32 then n else 6 * (32 * (n / 6) + p) + n % 6

/-- Lines a rebuild visits in all. -/
def rebuildSize (p : Nat) : Nat := if p = 32 then hbmLines else hbmLines / 32

/-- REBUILD (R405, R407): the next stripe is visited; where the lost chunk held data and the layout mark is not
set, its data goes to the parity position. At the end of a stack's rebuild no stripe holds parity. -/
def execRebuild (s : State) : Host.Outcome State Fault Refusal :=
  .next <|
    match s.hbm.jobs with
    | [] => s
    | (k, p, left) :: rest =>
      if s.inReset then s
      else
        let h := s.hbm
        let L := rebuildLine p (rebuildSize p - left)
        let lay := if L % 6 ≠ k then tset false h.layout L true else h.layout
        if left ≤ 1 then
          let s := ({ s with hbm := { h with jobs := rest, layout := lay } }).showRebuild
          (s.flag .HBM_GEVT_REBUILT).whenS (p == 32 && rest.all (fun j => j.2.1 != 32)) (·.wr .HBM_GSTAT_PARITY 0 2)
        else ({ s with hbm := { h with jobs := (k, p, left - 1) :: rest, layout := lay } }).showRebuild

/-- Counts kept for MEM_STATUS (R438): 0 corrected, 1 reconstructed, 2 replays, 3 longest block in ns. -/
def State.memTotal (s : State) (k which : Nat) : Nat := tget 0 s.hbm.total (4 * k + which)
def State.setTotal (s : State) (k which v : Nat) : State :=
  { s with hbm := { s.hbm with total := tset 0 s.hbm.total (4 * k + which) v } }

/-- Activates of a stack were blocked for `n` ns (R410, R439). -/
def State.stalled (s : State) (k n : Nat) : State :=
  (s.wr .HBM_SSTALL_NS k (min 65535 (max n (s.rd .HBM_SSTALL_NS k)))).setTotal k 3 (max n (s.memTotal k 3))

/-! ### Interface lock (R404) -/

/-- INTERFACE_LOCK_LOST (R404, R473). -/
def execInterfaceLockLost (k : StackId) (s : State) : Host.Outcome State Fault Refusal :=
  .next <|
    if !s.stackOn k.val || tget false s.hbm.lockLost k.val then s
    else (({ s with hbm := { s.hbm with lockLost := tset false s.hbm.lockLost k.val true } }).setLive (srcStack k.val) 1 2 true).fault
      (srcStack k.val) 2 1 k.val

/-- INTERFACE_LOCK_REGAINED (R482). -/
def execInterfaceLockRegained (k : StackId) (s : State) : Host.Outcome State Fault Refusal :=
  .next <|
    if !tget false s.hbm.lockLost k.val then s
    else ({ s with hbm := { s.hbm with lockLost := tset false s.hbm.lockLost k.val false } }).setLive (srcStack k.val) 1 2 false

/-- INTERFACE_LOCK_TIMEOUT (R404): not regained within 10 ms, the stack is lost. -/
def execInterfaceLockTimeout (k : StackId) (s : State) : Host.Outcome State Fault Refusal :=
  .next (if tget false s.hbm.lockLost k.val then s.stackFails k.val 2 else s)

/-! ### Temperature and refresh (R409 to R411) -/

/-- The catch-up as a stack becomes hot (R410): a debt above 4 is paid down to 4, 350 ns a command. -/
def State.catchUp (s : State) (k : Nat) : State :=
  forN 32 (fun s p =>
    let d := tget 0 s.hbm.debt (32 * k + p)
    if 4 < d then
      let s := s.closeRows (32 * k + p)
      let h := s.hbm
      ({ s with hbm := { h with debt := tset 0 h.debt (32 * k + p) 4
                                catchEnd := tset 0 h.catchEnd k (max (tget 0 h.catchEnd k) (s.clock + 350 * (d - 4))) } }).stalled k (350 * (d - 4))
    else s) s

/-- `HBM_SSTAT.CATCHUP`: a pseudo-channel is catching up, even where the stack has cooled (R410). -/
def State.catching (s : State) (k : Nat) : Bool := decide (s.clock < tget 0 s.hbm.catchEnd k)

/-- STACK_TEMPERATURE_READING (R410, R411). -/
def execStackTemperatureReading (k : StackId) (t : Int) (s : State) : Host.Outcome State Fault Refusal :=
  let k := k.val
  .next <|
    if !s.stackOn k then s
    else
      let hot := s.on .HBM_SSTAT_HOT k
      let thr := s.on .HBM_SSTAT_THROTTLE k
      let top := signed 8 (s.rd .HBM_STEMP_MAXTJ k)
      let s := (s.wr .HBM_STEMP_TJ k (code 8 t)).wr .HBM_STEMP_MAXTJ k (code 8 (max t top))
      if 100 ≤ t then ((s.flag .HBM_SEVT_SHUTDOWN k).fault (srcStack k) 5 1 k).stackFails k 5
      else
        let s := if 85 ≤ t ∧ !hot then ((s.wr .HBM_SSTAT_HOT k 1).flag .HBM_SEVT_HOT k).catchUp k
          else if t < 83 then s.wr .HBM_SSTAT_HOT k 0
          else s
        if 95 < t ∧ !thr then ((s.wr .HBM_SSTAT_THROTTLE k 1).flag .HBM_SEVT_THROTTLE k).fault (srcStack k) 4 0 k
        else if t < 93 then (s.wr .HBM_SSTAT_THROTTLE k 0).setLive (srcStack k) 0 4 false
        else s

/-- REFRESH_INTERVAL (R403, R409): one more refresh is owed. While requests are queued it is postponed up to the limit,
where a refresh is issued; an idle controller pays the debt. A refresh closes the rows. -/
def execRefreshInterval (k : StackId) (pc : Fin 32) (queued : Bool) (s : State) : Host.Outcome State Fault Refusal :=
  let key := 32 * k.val + pc.val
  let put := fun (s : State) d => { s with hbm := { s.hbm with debt := tset 0 s.hbm.debt key d } }
  .next <|
    if !s.stackOn k.val || s.inReset then s
    else if !queued then put (s.closeRows key) 0
    else
      let limit := if s.on .HBM_SSTAT_HOT k.val then 4 else 8
      let d := tget 0 s.hbm.debt key + 1
      if limit < d then (put (s.closeRows key) limit).stalled k.val 350 else put s d

/-- COMMAND_ADDRESS_PARITY_ERROR (R407): a replay; the third failure in a row retires the pseudo-channel. -/
def execCommandAddressParityError (k : StackId) (pc : Fin 32) (replayOk : Bool) (s : State) : Host.Outcome State Fault Refusal :=
  let key := 32 * k.val + pc.val
  let put := fun (s : State) n => { s with hbm := { s.hbm with capFail := tset 0 s.hbm.capFail key n } }
  .next <|
    if !s.stackOn k.val || bitOf (s.rd .HBM_SPCRET_MAP k.val) pc.val then s
    else
      let s := (s.bump .HBM_SCAPAR_COUNT k.val).setTotal k.val 2 (s.memTotal k.val 2 + 1)
      let n := tget 0 s.hbm.capFail key + 1
      if replayOk then (put s 0).fault (srcPc k.val pc.val) 3 0 pc.val
      else if 3 ≤ n then (put s 0).retirePc k.val pc.val
      else put s n

/-! ### Rows and poisoned lines (R414 to R416) -/

/-- Line of a fabric address in the data space. -/
def lineAt (addr : Nat) : Nat := (addr - hbmBase) / 1024

/-- The row of a word is marked for repair, once (R416, R528; a row is taken as its line, log 15). -/
def State.markRow (s : State) (k p addr : Nat) : State :=
  let L := lineAt addr
  if s.hbm.marked.any (fun m => m.1 == 32 * k + p && m.2.1 == L) then s
  else
    let item := s.ledger.nextItem
    let s := (s.newItem.repair item 1 0 (32 * k + p) L 0).flag .HBM_SEVT_ROWMARK k
    { s with hbm := { s.hbm with marked := s.hbm.marked ++ [(32 * k + p, L, item)] } }

/-- A word was corrected (R414, R416): counted; the fourth of its row within 24 h marks the row. -/
def State.wordCorrected (s : State) (k p addr : Nat) : State :=
  let s := (s.bump .HBM_SCE_COUNT k).setTotal k 0 (s.memTotal k 0 + 1)
  let key := hbmLines * (32 * k + p) + lineAt addr
  let l := s.clock :: (tget [] s.hbm.rowCe key).filter (fun t => s.clock < t + 86400000000000)
  let s := { s with hbm := { s.hbm with rowCe := tset [] s.hbm.rowCe key (l.take 4) } }
  if 4 ≤ l.length then s.markRow k p addr else s

/-- A chunk was reconstructed (R414, R416). -/
def State.chunkRebuilt (s : State) (k p addr : Nat) : State :=
  ((s.bump .HBM_SRECON_COUNT k).setTotal k 1 (s.memTotal k 1 + 1)).markRow k p addr

/-- A line is poisoned (R415); a poisoned line lies outside the guarantee. -/
def State.poisonLine (s : State) (addr : Nat) : State :=
  let s := { s with hbm := { s.hbm with poison := tset false s.hbm.poison (lineAt addr) true } }
  ((s.bump .HBM_POISON_COUNT).flag .HBM_GEVT_POISON).flag .FLT_GSTAT_OUTSIDE

/-! ### MEM_STATUS and MEM_CFG (R437, R438) -/

/-- MEM_STATUS (R438). -/
def execMemStatus (h : Hdr) (stack : Byte) (s : State) : Host.Outcome State Fault Refusal :=
  .next (s.winos (.memStatus (hdrPlain h) stack) h 0x0802 1 true false (fun s =>
    let k := stack.toNat
    if 6 ≤ k then s.bad 0
    else
      let lost := s.rd .HBM_GSTAT_LOST
      s.ok [(1, s.rd .HBM_SSTAT_STATE k),
        (1, s.rd .HBM_SSTAT_HOT k + 2 * s.rd .HBM_SSTAT_THROTTLE k + (if s.catching k then 4 else 0)),
        (1, s.rd .HBM_STEMP_TJ k), (1, s.rd .HBM_STEMP_MAXTJ k), (4, s.rd .HBM_SPCRET_MAP k),
        (2, s.rd .HBM_SREPAIR_ROWS k), (2, s.rd .HBM_SREPAIR_SPARE k),
        (2, (s.hbm.marked.filter (fun m => m.1 / 32 == k)).length), (2, 0),
        (8, s.memTotal k 0), (8, s.memTotal k 1), (8, s.memTotal k 2), (4, s.memTotal k 3),
        (1, s.rd .HBM_GSTAT_PARITY), (1, if lost = 7 then 0xFF else lost), (2, 0)]))

/-- MEM_CFG (R437). -/
def execMemCfg (h : Hdr) (params : List Byte) (s : State) : Host.Outcome State Fault Refusal :=
  .next (s.winos (.memCfg (hdrPlain h) params) h 0x0803 8 true false (fun s =>
    let n := fieldAt params 0 1
    let i := fieldAt params 4 4
    if params.length ≠ 8 then s.bad 0
    else if n < 6 ∨ 13 < n then s.bad 0
    else if i < 100 ∨ 1000000 < i then s.bad 4
    else (((s.wr .HBM_GCTL_NREXP 0 n).wr .SPD_PATROL_EN 0 (fieldAt params 1 1)).wr .SPD_PATROL_INTERVAL 0 i).ok))

end Sys2Proof.Machine
end

