-- ==== Sys2Proof/Machine/Scratch.lean ====
section
/-! DEFINITION. The scratchpad's banks (R417 to R424) and the secure bank (R425, R426, R327, R519): ownership,
power, zeroing, the patrol test, wipes, and the key commands. Accesses are in `Fabric`. -/

namespace Sys2Proof.Machine

/-! ### The scratchpad (R417 to R424) -/

/-- Base of the scratchpad and its size (R417). -/
def spdBase : Nat := 0x10000000
def spdSize : Nat := 0x2000000

/-- The bank of a byte offset (R417). -/
def bankOf (o : Nat) : Nat := o / 8 % 64

/-- Owner of a bank; 0xFF none (R419). -/
def State.ownerOf (s : State) (b : Nat) : Nat := s.rd .SPD_OWN_OWNER b

/-- An access refused under R419. -/
def State.notOwner (s : State) (b master type addr : Nat) : State :=
  (s.flag .SPD_EVT_NONOWNER).raise (mkFault (srcBank b) 3 1 addr master type)

/-- Fabric address of `SPD_OWN` for a bank (R441, R443). -/
def spdOwnAddr (b : Nat) : Nat := 0x20060100 + 4 * b

/-- A write of `SPD_OWN` (R419): by the present owner or the management core; any other is refused. -/
def State.setOwner (s : State) (m b owner : Nat) : State × Bool :=
  if m = 1 ∨ (m = s.ownerOf b ∧ m ≠ 0xFF) then (s.wr .SPD_OWN_OWNER b owner, true)
  else (s.notOwner b m 1 (spdOwnAddr b), false)

/-- SPD_OWN (R419): a refused write receives an error response. -/
def execSpdOwn (m : Byte) (bank : Fin 64) (owner : Byte) (s : State) : Host.Outcome State Fault Refusal :=
  let r := s.setOwner m.toNat bank.val owner.toNat
  .next (if r.2 then r.1 else r.1.send (.access m.toNat false []))

/-- Bytes of a group of four banks become 0 (R422), and every word of it good. -/
def State.zeroGroup (s : State) (g : Nat) : State :=
  { s with spd := { s.spd with mem := s.spd.mem.filter (fun c => bankOf c.1 / 4 != g)
                               bad := s.spd.bad.filter (fun c => c.1 % 64 / 4 != g) } }

/-- A group is zeroed; so a rail fault of it is recovered from (R422, R491). -/
def State.groupHealed (s : State) (g : Nat) : State :=
  { s with pow := { s.pow with spdHeal := s.pow.spdHeal.filter (· != g) } }.zeroGroup g

/-- The word of bank `b` at a fabric address is uncorrectable until it is written whole (R417; DEDUCED, log 35). -/
def State.spoilWord (s : State) (b addr : Nat) : State :=
  let o := addr - spdBase
  if spdBase ≤ addr ∧ o < spdSize ∧ bankOf o = b then { s with spd := { s.spd with bad := tset false s.spd.bad (o / 8) true } } else s

/-- Words of `n` bytes at offset `o` of the scratchpad. -/
def spdWords (o n : Nat) : List Nat := if n = 0 then [] else (List.range ((o + n - 1) / 8 - o / 8 + 1)).map (· + o / 8)

/-- The first uncorrectable word that an access meets; a write of a whole word does not meet it (R417). -/
def State.badWord (s : State) (o n : Nat) (write : Bool) : Option Nat :=
  (spdWords o n).find? (fun w => tget false s.spd.bad w && !(write && decide (o ≤ 8 * w) && decide (8 * w + 8 ≤ o + n)))

/-- No bank of a group has an owner (R422). -/
def State.unowned (s : State) (g : Nat) : Bool := (List.range 4).all (fun i => s.ownerOf (4 * g + i) == 0xFF)

/-- A bit of a map register, set or cleared. -/
def setBit (m i : Nat) (b : Bool) : Nat := m - (if bitOf m i then 2 ^ i else 0) + (if b then 2 ^ i else 0)

/-- Group `g` is requested on or off (R422). -/
def State.powerGroup (s : State) (g : Nat) (want : Bool) : State :=
  let req := s.rd .SPD_PWR_REQ
  if bitOf req g = want then s
  else if want then
    let s := (s.wr .SPD_PWR_REQ 0 (setBit req g true)).wr .SPD_STAT_ON 0 (setBit (s.rd .SPD_STAT_ON) g true)
    s.wr .SPD_STAT_CLEARING 0 (setBit (s.rd .SPD_STAT_CLEARING) g true)
  else if s.unowned g then
    let s := (s.wr .SPD_PWR_REQ 0 (setBit req g false)).wr .SPD_STAT_ON 0 (setBit (s.rd .SPD_STAT_ON) g false)
    (s.wr .SPD_STAT_CLEARING 0 (setBit (s.rd .SPD_STAT_CLEARING) g false)).groupHealed g
  else s.flag .SPD_EVT_PWRREJ

/-- A write of `SPD_PWR` (R422). -/
def State.setSpdPwr (s : State) (req : Nat) : State := forN 16 (fun s g => s.powerGroup g (bitOf req g)) s

/-- SPD_PWR (R422). -/
def execSpdPwr (req : BitVec 16) (s : State) : Host.Outcome State Fault Refusal := .next (s.setSpdPwr req.toNat)

/-- The boot ROM copies firmware image `i` of the module flash into the working SRAM, the first MiB, where its banks are on
(R449). -/
def State.copyImage (s : State) (i : Nat) : State :=
  let here := fun (o : Nat) => decide (o < 0x100000) && bitOf (s.rd .SPD_STAT_ON) (bankOf o / 4)
  let cells := (s.modl.flash.filter (fun c => decide (2 ^ 32 * i ≤ c.1) && here (c.1 - 2 ^ 32 * i)))
  let keep := s.spd.mem.filter (fun c => !here c.1)
  { s with spd := { s.spd with mem := cells.foldr (fun c t => tset 0 t (c.1 - 2 ^ 32 * i) c.2) keep
                               bad := s.spd.bad.filter (fun c => !here (8 * c.1)) } }

/-- The patrol takes the next segment; a full pass is counted (R423). -/
def State.nextSegment (s : State) : State :=
  let n := s.rd .SPD_PATPOS_SEGMENT
  if n = 16383 then (s.wr .SPD_PATPOS_SEGMENT 0 0).bump .SPD_PATPOS_PASSES else s.wr .SPD_PATPOS_SEGMENT 0 (n + 1)

/-- Redundant columns of a bank that are in use or spoken for (R424). -/
def State.columnsUsed (s : State) (b : Nat) : Nat := tget 0 s.spd.cols b + (s.spd.failed.filter (fun f => f.1 == b)).length

/-- A column failed the patrol test (R424, R528): recorded once, however many segments show it. -/
def State.columnFailed (s : State) (b col : Nat) : State :=
  let cls := if s.columnsUsed b < 8 then 0 else 1
  let s := s.flag .SPD_EVT_PATROLFAIL
  if s.spd.failed.any (fun f => f.1 == b && f.2.1 == col) then s
  else
    let item := s.ledger.nextItem
    let s := s.newItem.repair item 7 0 b col 0
    let s := { s with spd := { s.spd with failed := s.spd.failed ++ [(b, col, item)] } }
    (s.wr .SPD_COLREP_PENDING 0 (min 1023 s.spd.failed.length)).fault (srcBank b) 4 cls

/-- A scratchpad bank is under a lock (R453): its targets are numbered by bank. -/
def State.bankLocked (s : State) : Bool := s.fab.locks.any (fun l => decide (l.target < 64))

/-- PATROL_SEGMENT (R423, R424, R453): the test saves and restores the segment, so that its bytes stay. -/
def execPatrolSegment (out : PatrolOutcome) (s : State) : Host.Outcome State Fault Refusal :=
  .next <|
    if !s.on .SPD_PATROL_EN || s.inReset || s.bankLocked then s
    else match out with
      | .passed => s.nextSegment
      | .aborted => s
      | .failed b col =>
        if bitOf (s.rd .SPD_STAT_ON) (b.val / 4) then (s.columnFailed b.val col).nextSegment else s.nextSegment

/-! ### Wipes of the secure bank (R426, R519) -/

/-- A wipe of the secure bank begins (R426, R441): cause 1 lid, 2 voltage, 3 clock, 4 life-cycle. -/
def State.startWipe (s : State) (cause : Nat) : State :=
  let s := ((s.flag .SPD_SECSTAT_WIPING).wr .SPD_SECSTAT_CAUSE 0 cause).bump .SPD_SECSTAT_WIPES
  if cause = 4 then s
  else { s with sec := { s.sec with tampers := min 65535 (s.sec.tampers + 1), causes := s.sec.causes ++ [cause] } }

/-- A tamper input trips (R426, R519): while the module is off the wipe waits for the next cold start, where the detectors have power. -/
def State.tamper (s : State) (cause : Nat) : State :=
  if s.modl.running then s.startWipe cause
  else if s.pow.thermal && cause != 1 then { s with sec := { s.sec with causes := s.sec.causes ++ [cause], tampers := min 65535 (s.sec.tampers + 1) } } else s

/-- LID_OPENED (R426, R519): the lid latch trips too; where the module is off, the latch makes the next cold start wipe. -/
def execLidOpened (s : State) : Host.Outcome State Fault Refusal :=
  .next (({ s with modl := { s.modl with lid := true } }).tamper 1)

/-- VOLTAGE_GLITCH (R426). -/
def execVoltageGlitch (s : State) : Host.Outcome State Fault Refusal := .next (s.tamper 2)

/-- CLOCK_GLITCH (R426). -/
def execClockGlitch (s : State) : Host.Outcome State Fault Refusal := .next (s.tamper 3)

/-! ### KEY_ENROL and KEY_LOCK (R327, R352) -/

/-- KEY_ENROL (R327, R352, R426). -/
def execKeyEnrol (h : Hdr) (slot : Byte) (key : List Byte) (s : State) : Host.Outcome State Fault Refusal :=
  .next (s.winos (.keyEnrol (hdrPlain h) slot key) h 0x0A01 (1 + key.length) (hdrLocal h && !s.on .ENG_KSTAT_KEYLOCK) false (fun s =>
    let n := slot.toNat
    let m := s.rd .ENG_KSTAT_KEYS
    if 8 ≤ n then s.bad 0
    else if key.length ≠ 32 then s.bad 1
    else if s.on .SPD_SECSTAT_FAIL then s.rej rejState
    else if s.on .SPD_SECSTAT_WIPING then s.rej rejBusy
    else if bitOf m n then s.rej rejFull
    else
      let s := { s with sec := { s.sec with keys := tset [] s.sec.keys n key } }
      let s := (s.wr .ENG_KSTAT_KEYS 0 (m + 2 ^ n)).flag .ENG_KEVT_ENROL
      (s.lifeRecord s.lastDsn).ok))

/-- KEY_LOCK (R327, R352). -/
def execKeyLock (h : Hdr) (s : State) : Host.Outcome State Fault Refusal :=
  .next (s.winos (.keyLock (hdrPlain h)) h 0x0A02 0 (hdrLocal h) false (fun s =>
    let s := s.wr .ENG_KSTAT_KEYLOCK 0 1
    (s.lifeRecord s.lastDsn).ok))

end Sys2Proof.Machine
end

