-- ==== Sys2Proof/Machine/Faults.lean ====
section
/-! DEFINITION. The fault collector (R470 to R485, R492 to R494): captures, merging, escalation, reactions, block
resets, acknowledgement, and the commands of the Faults and service group. -/

namespace Sys2Proof.Machine

/-! ### Sources and settings (R472, R476) -/

/-- A source number that R472 assigns. -/
def srcOk (n : Nat) : Bool := decide (n ≤ 0x7C) || (decide (0x80 ≤ n) && decide (n ≤ 0x85)) || (decide (0xC0 ≤ n) && decide (n ≤ 0x1D2))

/-- A source that has a block reset (R475). -/
def hasReset (n : Nat) : Bool := decide (n ≤ 0x7C) || n == srcDma || n == srcPort 0 || n == srcPort 1

/-- Default reaction of a source and class (R476). -/
def defaultReaction (n cls : Nat) : Reaction :=
  if cls = 0 then ⟨0, 3, false⟩
  else if cls = 1 then ⟨1, 3, false⟩
  else if (0x80 ≤ n ∧ n ≤ 0x85) ∨ n = srcDealer ∨ n = srcSecure then ⟨2, 3, true⟩
  else ⟨4, 3, true⟩

/-- The setting of a source and class. -/
def State.reaction (s : State) (n cls : Nat) : Reaction := (tget none s.flt.reacts (4 * n + cls)).getD (defaultReaction n cls)

/-- A setting that R476 refuses: the byte offset of the parameter. -/
def reactBad (n cls level target : Nat) : Option Nat :=
  if !srcOk n then some 0
  else if 3 ≤ cls then some 2
  else if 4 < level ∨ (1 ≤ level ∧ target = 0) ∨ (level = 3 ∧ !hasReset n) then some 3
  else none

/-- A setting is made. -/
def State.setReaction (s : State) (n cls : Nat) (r : Reaction) : State :=
  { s with flt := { s.flt with reacts := tset none s.flt.reacts (4 * n + cls) (some r) } }

/-! ### Captures (R478 to R484) -/

/-- The pending captures, by ascending source and class. -/
def State.pendingCaps (s : State) : List (Nat × Capture) :=
  s.flt.caps.filterMap (fun p => match p.2 with | some c => if c.pending then some (p.1, c) else none | none => none)

/-- FAULT_N and ERR_N follow the pending faults and reset hold (R481, R485, R516). -/
def State.pins (s : State) : State :=
  let l := s.pendingCaps
  let fn := l.any (fun p => p.1 % 4 != 0) || s.modl.bootFail
  let en := l.any (fun p => p.2.errn) || s.on .FLT_STAT_RESETHOLD
  (((s.put .FLT_STAT_FAULTN 0 fn).put .MOD_STAT_FAULTN 0 fn).put .FLT_STAT_ERRN 0 en).put .MOD_STAT_ERRN 0 en

/-- The 40 bytes of a capture (R483). -/
def Capture.bytes (c : Capture) (cls : Nat) : List Byte :=
  leBytes 1 cls ++ leBytes 1 (1 + (if c.pending then 2 else 0) + (if c.live then 4 else 0) + (if c.escalated then 8 else 0) +
    (if c.errn then 16 else 0)) ++ leBytes 1 c.kind ++ leBytes 1 c.master ++ leBytes 1 c.type ++ leBytes 1 c.level ++
  leBytes 2 c.count ++ leBytes 6 c.address ++ leBytes 2 0 ++ leBytes 8 c.dsn ++ leBytes 6 c.sec ++ leBytes 2 0 ++
  leBytes 4 c.ns ++ leBytes 4 0

/-- The fault summary record of a capture of class U or F (R432, R484). -/
def State.summaryRecord (s : State) (n cls : Nat) (c : Capture) (dsn : Nat) : State :=
  if cls = 0 then s else s.record 8 n 1 dsn (leBytes 1 cls ++ leBytes 2 c.count ++ c.bytes cls)

/-- A capture is acknowledged (R478, R484, R526). -/
def State.ackFault (s : State) (n cls : Nat) (byReg : Bool) : State :=
  match s.capture n cls with
  | none => s
  | some c =>
    let s := s.setCapture n cls none
    let s := s.event 1 0x0103 n 0 (256 * cls + 65536 * c.count + (if byReg then 2 ^ 32 else 0))
    (s.summaryRecord n cls c s.lastDsn).pins

/-! ### Block resets (R475, R454) -/

/-- An orphan burst (R454, R467, R473). -/
def State.orphan (s : State) (master type addr : Nat) : State :=
  let s := if s.on .FAB_ORPHINFO_VALID then s
    else (((s.wr64 .FAB_ORPHADDR 0 addr).wr .FAB_ORPHINFO_MASTER 0 master).wr .FAB_ORPHINFO_TYPE 0 type).wr .FAB_ORPHINFO_VALID 0 1
  let s := (s.bump .FAB_ORPHCNT_COUNT).flag .FAB_EVT_ORPHAN
  (s.event 11 0x0B01 master 0 (addr % 2 ^ 40 + 2 ^ 40 * type)).raise (mkFault srcFabric 2 0 addr master type)

/-- A master is reset: its locks are released and its waiting requests discarded (R453, R454). -/
def State.dropLocks (s : State) (m : Nat) : State :=
  let f := s.fab
  { s with fab := { f with locks := f.locks.filter (fun l => l.master != m)
                           broken := f.broken.filter (· != m)
                           held := f.held.filter (fun h => h.acc.master.toNat != m) } }

/-- The DMA engine is reset (R475): channels under way end ABORTED, HALTED clears, bursts in flight are orphans
and its waiting requests are discarded (R454). -/
def State.resetDma (s : State) : State :=
  let s := forN 16 (fun s c =>
    let st := s.rd .DMA_CSTAT_STATE c
    let x := s.dmac c
    if st = dcFetch ∨ st = dcMove ∨ st = dcHalted then
      let s := s.whenS (st == dcMove && x.desc.any (fun d => decide (x.moved < d.count))) (·.orphan 2 1 ((x.desc.map (·.dst)).getD 0 + x.moved))
      ((s.wr .DMA_CSTAT_STATE c dcIdle).wr .DMA_CSTAT_LAST c 3).setDmac c {}
    else s) s
  (s.wr .DMA_GSTAT_HALTED 0 0).dropLocks 2

/-- The core and both banks of an engine are cleared; its kernel is copied again later (R475, R328). -/
def State.clearEngine (s : State) (e : Nat) : State :=
  let x := s.eng e
  (s.setEng e { x with core := {}, kplan := none }).dropWork e

/-- The packet at the head of a partition is marked as sent again (R289, R475). -/
def State.resendHead (s : State) (p : Nat) : State :=
  match (s.part p).queue with
  | [] => s
  | k :: r => s.setPart p { s.part p with queue := { k with flags := k.flags ||| 8 } :: r }

/-- Reaction L3 (R475). -/
def State.blockReset (s : State) (n : Nat) : State :=
  if n < 0x60 then
    let s := (s.clearEngine n).dropLocks (0x10 + n)
    let pos := s.rd .ENG_STAT_POSITION n
    if s.rd .ENG_STAT_STATE n = egActive ∧ pos < 96 then (s.recompute [n] pos).goOn else s
  else if n < 0x78 then
    let l := n - 0x60
    let st := s.lnState l
    if st = lnService ∨ st = lnStandby ∨ st = lnRetry ∨ s.climbing l then
      let s := s.loseLane l 4
      if s.lnState l = lnTest then s else s.startLadder l
    else s
  else if n ≤ 0x7C then s.bundleReset (n - 0x78)
  else if n = srcDma then s.resetDma
  else if n = srcPort 0 ∨ n = srcPort 1 then
    let q := n - srcPort 0
    ((s.wr .ETH_STAT_LINK q 0).wr .ETH_STAT_FEC_LOCK q 0).resendHead q
  else s

/-! ### Chip resets (R485) -/

/-- Reset hold (R485, R518). -/
def State.resetHold (s : State) : State :=
  let s := ((s.flag .FLT_STAT_RESETHOLD).flag .FLT_EVT_RESETHOLD).wr .MOD_STAT_READY 0 0
  s.notePause.pins

/-- A chip reset caused by a fault: the third within 10 min is reset hold instead (R485). -/
def State.faultReset (s : State) : State :=
  let l := s.flt.l4Times.filter (fun t => s.clock < t + 600000000000)
  if 2 ≤ l.length then s.resetHold
  else
    let s := { s with flt := { s.flt with l4Times := s.clock :: l } }
    (s.bump .FLT_RSTCNT_COUNT).resetDue 5

/-- Reaction L4 (R485): merged into a warm reset under way, deferred during a flush. -/
def State.chipReset (s : State) : State :=
  if s.on .FLT_STAT_RESETHOLD || s.modl.warm || s.modl.mrst || s.modl.resetDue.isSome then s
  else if s.rd .PWR_STAT_STATE = 1 then { s with pow := { s.pow with deferred := true } }
  else s.faultReset

/-- The ladder of R474: each level does what the levels below it do. -/
def State.react (s : State) (n level target : Nat) : State :=
  let s := s.whenS (decide (1 ≤ level) && bitOf target 0) (fun s => s.send (.msix (s.rd .FLT_CTL_VEC)))
  let s := s.whenS (decide (1 ≤ level) && bitOf target 1) (·.send .mgmtIrq)
  let s := s.whenS (decide (2 ≤ level)) (·.send .mgmtTrap)
  let s := s.whenS (decide (3 ≤ level)) (·.blockReset n)
  s.whenS (decide (4 ≤ level)) (·.chipReset)

/-! ### Messages (R470, R471, R477, R480) -/

/-- A word of the management core's working SRAM: it runs there, and owns the bank (R417, R449, R489). -/
def State.workingWord (s : State) (b addr : Nat) : Bool :=
  s.on .FAB_CTL_REMAP && s.ownerOf b == 1 && decide (spdBase ≤ addr ∧ addr < spdBase + 0x100000)

/-- The action that a fault's own rule prescribes and no other row takes (R215, R414 to R417, R477, R489, R492). A block of the data path that has contained an internal state error forms its work of the range channel again with the same
result, so that its message of kind 2 changes nothing more (R473; DEDUCED, log 49). -/
def State.ownAction (s : State) (m : FaultMsg) : State :=
  let n := m.source.val
  let kind := m.kind.toNat
  let c := m.cls.val
  if n < 0x60 then
    if c = 0 then s
    else
      let s := s.flag .ENG_EVT_FAULT n
      if 2 ≤ kind ∧ kind ≤ 6 ∧ (s.inService n ∨ s.rd .ENG_STAT_STATE n = egLoading) then s.retireEngine n 3 else s
  else if 0xC0 ≤ n ∧ n < 0x180 then
    let k := (n - 0xC0) / 32
    let p := (n - 0xC0) % 32
    if kind = 1 ∧ c = 0 then s.wordCorrected k p m.address.toNat
    else if kind = 2 ∧ c = 0 then s.chunkRebuilt k p m.address.toNat
    else if kind = 5 ∧ c = 1 then s.poisonLine m.address.toNat
    else s
  else if 0x180 ≤ n ∧ n < 0x1C0 then
    if kind = 1 ∧ c = 0 then (s.bump .SPD_CECNT_COUNT).flag .SPD_EVT_CE
    else if kind = 2 ∧ c = 1 then
      let s := (s.partFault.flag .SPD_EVT_UE).spoilWord (n - 0x180) m.address.toNat
      if s.workingWord (n - 0x180) m.address.toNat then (s.fault srcMgmt 1 1 m.address.toNat).chipReset else s
    else s
  else if c = 2 then s.flag .FLT_GSTAT_OUTSIDE
  else s

/-- The level that applies (R480): one higher when another source has a pending fault of the class; past L2 a
source without a block reset goes to L4 (R475). -/
def levelFor (n : Nat) (r : Reaction) (esc : Bool) : Nat :=
  if !esc then r.level
  else if r.level = 2 ∧ !hasReset n then 4
  else min 4 (r.level + 1)

/-- The event of a capture is numbered (R355). Once DSNs are exhausted, the capture of that fault alone gets DSN
2^64 - 1, as the last event; the manual gives a later capture no DSN: a free value (R77; log 2). -/
def State.captureEvent (s : State) (n kind arg : Nat) : State × Nat :=
  if s.dsnLeft && n == srcDealer && kind == 4 then (s.numberEvent 1 0x0101 n 0 arg, 2 ^ 64 - 1)
  else
    let t := s.event 1 0x0101 n 0 arg
    if t.dealer.exhausted then (t.drawn, t.freeVal.toNat) else (t, t.lastDsn)

/-- A fault is captured and its reaction made (R474, R478, R480, R484). -/
def State.captureFault (s : State) (m : FaultMsg) (count : Nat) : State :=
  let n := m.source.val
  let c := m.cls.val
  let rx := s.reaction n c
  let esc := s.pendingCaps.any (fun p => p.1 % 4 == c && p.1 / 4 != n)
  let level := levelFor n rx esc
  let target := if esc && rx.level == 0 then 3 else rx.target
  let errn := rx.errn || (esc && rx.level == 4)
  let r := s.captureEvent n m.kind.toNat
    (m.kind.toNat + 256 * c + 1024 * level + (if esc then 2 ^ 13 else 0) + (if errn then 2 ^ 14 else 0))
  let s := r.1
  let dsn := r.2
  let x : Capture := { kind := m.kind.toNat, master := m.master.toNat, type := m.type.toNat, address := m.address.toNat
                       level := level, escalated := esc, errn := errn, count := min 65535 count, dsn := dsn
                       sec := s.timeb.sec, ns := s.timeb.ns, pending := !(c == 0 && level == 0)
                       live := !tget false s.flt.ended (2 ^ 6 * fltKey m + m.kind.toNat) }
  let s := ((s.setCapture n c (some x)).flag .FLT_EVT_CAPTURE).summaryRecord n c x dsn
  let s := if esc then (s.flag .FLT_EVT_ESCALATE).event 1 0x0102 n 0 (level + 8 * rx.level + 256 * c) else s
  s.pins.react n level target

/-- A message taken from the queue is captured, or merged into a capture held (R471, R479). -/
def State.collect (s : State) (m : FaultMsg) (count : Nat) : State :=
  match s.capture m.source.val m.cls.val with
  | some c =>
    s.setCapture m.source.val m.cls.val
      (some { c with count := min 65535 (c.count + count), live := if c.kind = m.kind.toNat then !tget false s.flt.ended (2 ^ 6 * fltKey m + c.kind) else c.live })
  | none => s.captureFault m count

/-- The collector takes the next waiting message (R471, R479). What an engine's own rule prescribes follows, for the messages
merged into it too; the collector's events come before its events (R356). -/
def State.takeFault (s : State) : State :=
  match s.flt.next with
  | none => s
  | some (m, count) =>
    let own := fun (x : FaultMsg) => x.source == m.source && x.cls == m.cls
    let l := m :: (s.flt.merged.filter own).reverse
    let s := { s with flt := { s.flt with waiting := s.flt.waiting.filter (fun x => !own x.1), merged := s.flt.merged.filter (fun x => !own x) } }
    let s := s.collect m count
    if m.source.val < 0x60 then l.foldl (fun s x => s.ownAction x) s else s

/-- FAULT_CONDITION_CLEARED (R482). -/
def execFaultConditionCleared (source : Fin 1024) (cls : Fin 3) (s : State) : Host.Outcome State Fault Refusal :=
  .next <|
    let waits := (s.flt.waiting.find? (fun w => w.1.source == source && w.1.cls == cls)).map (·.1.kind.toNat)
    match (s.capture source.val cls.val).map (·.kind) <|> waits with
    | some k => s.setLive source.val cls.val k false
    | none => s

/-! ### Registers and commands (R476, R478, R483, R494) -/

/-- FLT_ACK (R478, R493). -/
def execFltAck (v : Word) (s : State) : Host.Outcome State Fault Refusal :=
  .next <|
    let n := bitsOf v.toNat 0 10
    let c := bitsOf v.toNat 16 2
    if c = 3 then s else s.ackFault n c true

/-- What `FLT_SEL` of a master selects: source and class (R494). -/
def State.selOf (s : State) (m : Nat) : Nat × Nat := let v := tget 0 s.flt.sel m; (bitsOf v 0 10, bitsOf v 16 2)

/-- A write of `FLT_REACT` by a master (R476, R494). -/
def State.writeReact (s : State) (m v : Nat) : State :=
  let x := s.selOf m
  if (reactBad x.1 x.2 (bitsOf v 0 3) (bitsOf v 3 2)).isSome then s.flag .FLT_EVT_REACTREJ
  else s.setReaction x.1 x.2 ⟨bitsOf v 0 3, bitsOf v 3 2, bitOf v 5⟩

/-- FLT_REACT (R494). -/
def execFltReact (m : Byte) (v : Word) (s : State) : Host.Outcome State Fault Refusal := .next (s.writeReact m.toNat v.toNat)

/-- The setting byte of FAULT_READ (R483). -/
def Reaction.byte (r : Reaction) : Nat := r.level + 8 * r.target + (if r.errn then 32 else 0)

/-- FAULT_READ (R472, R483). -/
def execFaultRead (h : Hdr) (source : BitVec 16) (s : State) : Host.Outcome State Fault Refusal :=
  .next (s.winos (.faultRead (hdrPlain h) source) h 0x0901 2 true true (fun s =>
    let n := source.toNat
    if !srcOk n then s.bad 0
    else
      let cap := fun c => match s.capture n c with | some x => leVal (x.bytes c) | none => 0
      s.ok [(2, n), (1, (s.reaction n 0).byte), (1, (s.reaction n 1).byte), (1, (s.reaction n 2).byte), (3, 0),
        (40, cap 0), (40, cap 1), (40, cap 2)]))

/-- FAULT_ACK (R472, R478). -/
def execFaultAck (h : Hdr) (source : BitVec 16) (cls : Byte) (s : State) : Host.Outcome State Fault Refusal :=
  .next (s.winos (.faultAck (hdrPlain h) source cls) h 0x0902 3 true true (fun s =>
    let n := source.toNat
    if !srcOk n then s.bad 0
    else if 2 < cls.toNat then s.bad 2
    else (s.ackFault n cls.toNat false).ok))

/-- REACTION_SET (R476). -/
def execReactionSet (h : Hdr) (source : BitVec 16) (cls : Byte) (level : Byte) (errn : Byte) (s : State) :
    Host.Outcome State Fault Refusal :=
  .next (s.winos (.reactionSet (hdrPlain h) source cls level errn) h 0x0905 5 true true (fun s =>
    let n := source.toNat
    let lv := bitsOf level.toNat 0 3
    let tg := bitsOf level.toNat 3 2
    match reactBad n cls.toNat lv tg with
    | some o => s.bad o
    | none => (s.setReaction n cls.toNat ⟨lv, tg, bitOf errn.toNat 0⟩).ok))

/-- ENGINE_RETIRE (R215, R354): no effect on an engine that cannot be retired (R222). -/
def execEngineRetire (h : Hdr) (engine : Byte) (s : State) : Host.Outcome State Fault Refusal :=
  .next (s.winos (.engineRetire (hdrPlain h) engine) h 0x0903 1 true false (fun s =>
    let e := engine.toNat
    if 96 ≤ e then s.bad 0
    else if s.inService e then (s.retireEngine e 4).ok
    else s.ok))

/-- ENGINE_RESTORE (R216, R354). -/
def execEngineRestore (h : Hdr) (engine : Byte) (s : State) : Host.Outcome State Fault Refusal :=
  .next (s.winos (.engineRestore (hdrPlain h) engine) h 0x0904 1 true false (fun s =>
    let e := engine.toNat
    if 96 ≤ e then s.bad 0
    else if s.rd .ENG_STAT_STATE e ≠ egRetired then s.rej rejState
    else
      let a := s.begin h 0x0904 (.engineRestore e)
      if a.status = stAccepted then { a with st := a.st.startRestore e } else a))

end Sys2Proof.Machine
end

