-- ==== Sys2Proof/Machine/PlanCmds.lean ====
section
/-! DEFINITION. Winos commands of the Plans and Tricks groups (R354, R360 to R365, R210, R63). -/

namespace Sys2Proof.Machine

/-- A table load into a slot is in progress (R354). -/
def State.tableBusy (s : State) (i : Nat) : Bool :=
  s.dealer.longs.any (fun o => match o.kind with | .tableLoad n _ _ => n == i | _ => false)

/-- PLAN_DEFINE (R354, R360): bytes of a section of the edit copy. -/
def execPlanDefine (h : Hdr) (slot sect : Byte) (off : Word) (data : List Byte) (s : State) : Host.Outcome State Fault Refusal :=
  .next (s.winos (.planDefine (hdrPlain h) slot sect off data) h 0x0301 (6 + data.length) true false (fun s =>
    let i := slot.toNat
    let x := s.slot i
    if 4 ≤ i then s.bad 0
    else if 9 < sect.toNat then s.bad 1
    else if sectionSize sect.toNat < off.toNat + data.length then s.bad 2
    else if s.tableBusy i then s.rej rejBusy
    else (s.setSlot i { x with edit := writeSection x.edit sect.toNat off.toNat data }).ok))

/-- PLAN_BUILD (R362, R59, R342). -/
def execPlanBuild (h : Hdr) (slot : Byte) (s : State) : Host.Outcome State Fault Refusal :=
  .next (s.winos (.planBuild (hdrPlain h) slot) h 0x0302 1 true false (fun s =>
    let i := slot.toNat
    if 4 ≤ i then s.bad 0
    else
      let r := s.build i
      match r.2.2 with
      | some b => s.over b.code b.need b.have_
      | none => if r.2.1 = stOk then r.1.ok [(1, s.placed i)] else s.rej r.2.1))

/-- Why a plan deal is refused when it is ordered (R363, R77), by the precedence of R525; `none` accepts it. -/
def State.dealRefusal (s : State) (slot d : Nat) : Option (Nat × Nat) :=
  let built := slot == 0xFF || (s.slot slot).built
  let offGrid := (s.plans.active.any (fun p => d % pS p.data != 0)) || (slot != 0xFF && d % pS (s.slot slot).shadow != 0)
  let opened := match s.plans.active with
    | some _ => s.deck.chans.any (fun c => decide (d ≤ c.1 / 1024 * 4096) && c.2.openAt.isSome)
    | none => false
  let late := match s.timeOf d with
    | some t => decide (t < s.nowNs + 50000000)
    | none => true
  if 3 < slot ∧ slot ≠ 0xFF then some (rejParam, 0)
  else if lastCounter ≤ d then some (rejParam, 1)
  else if built && offGrid then some (rejParam, 1)
  else if !built || late || opened then some (rejState, 0)
  else if s.dealer.deal.isSome then some (rejBusy, 0)
  else none

/-- A plan deal waits for its counter (R363, R366). -/
def State.setDeal (s : State) (slot d : Nat) : State :=
  let i := if slot = 0xFF then none else some slot
  let s := { s with dealer := { s.dealer with deal := some ⟨i, d⟩ } }
  ((s.wr .DLR_STAT_DEALPEND 0 1).wr .DLR_STAT_DEALSLOT 0 (i.getD 7)).wr64 .DLR_DEALCNT 0 d

/-- PLAN_DEAL (R363). -/
def execPlanDeal (h : Hdr) (slot : Byte) (d : BitVec 64) (s : State) : Host.Outcome State Fault Refusal :=
  .next (s.winos (.planDeal (hdrPlain h) slot d) h 0x0303 9 true false (fun s =>
    match s.dealRefusal slot.toNat d.toNat with
    | some r => { s.rej r.1 with detail := r.2 }
    | none =>
      let a := s.begin h 0x0303 .planDeal
      if a.status = stAccepted then { a with st := a.st.setDeal slot.toNat d.toNat } else a))

/-- The pending deal is withdrawn (R365). -/
def State.dropDeal (s : State) : State :=
  let s := { s with dealer := { s.dealer with deal := none } }
  (((s.wr .DLR_STAT_DEALPEND 0 0).wr .DLR_STAT_DEALSLOT 0 0).wr64 .DLR_DEALCNT 0 0).openDue

/-- PLAN_CANCEL (R354, R365): the deal's completion, after the reply, carries REJ_STATE. -/
def execPlanCancel (h : Hdr) (s : State) : Host.Outcome State Fault Refusal :=
  .next (s.winos (.planCancel (hdrPlain h)) h 0x0304 0 true false (fun s =>
    if s.dealer.deal.isNone then s.rej rejState
    else { s.dropDeal.ok with after := (·.endLongOf (fun k => k == .planDeal) rejState) }))

/-- PLAN_RESET (R354, R361): the edit copy becomes the default plan or a built slot's shadow. -/
def execPlanReset (h : Hdr) (slot source : Byte) (s : State) : Host.Outcome State Fault Refusal :=
  .next (s.winos (.planReset (hdrPlain h) slot source) h 0x0305 2 true false (fun s =>
    let i := slot.toNat
    let k := source.toNat
    if 4 ≤ i then s.bad 0
    else if 4 < k then s.bad 1
    else if k = 0 then (s.setSlot i { s.slot i with edit := defaultPlan }).ok
    else if !(s.slot (k - 1)).built then s.rej rejState
    else (s.setSlot i { s.slot i with edit := (s.slot (k - 1)).shadow }).ok))

/-- PLAN_ERASE (R354, R365, R231). -/
def execPlanErase (h : Hdr) (slot : Byte) (s : State) : Host.Outcome State Fault Refusal :=
  .next (s.winos (.planErase (hdrPlain h) slot) h 0x0306 1 true false (fun s =>
    let i := slot.toNat
    if 4 ≤ i then s.bad 0
    else if s.slotActive i || s.slotDealt i then s.rej rejState
    else ((s.setSlot i {}).allocWeights.showSlots).ok))

/-- PLAN_STATUS (R354, R61): built, admitted, flags, and the eight pairs of figures, 8 bytes each (log 9). -/
def execPlanStatus (h : Hdr) (slot : Byte) (s : State) : Host.Outcome State Fault Refusal :=
  .next (s.winos (.planStatus (hdrPlain h) slot) h 0x0307 1 true false (fun s =>
    let x := s.slot slot.toNat
    if 4 ≤ slot.toNat then s.bad 0
    else s.ok ([(1, if x.built then 1 else 0), (1, if x.built && x.admitted then 1 else 0), (1, x.flags)] ++
      (List.range 8).flatMap (fun i => let f := x.figures.getD i (0, 0); [(8, f.1), (8, f.2)]))))

/-- A pseudo-channel of the source is under a locked sequence of another master than the management core (R453). -/
def State.sourceLocked (s : State) (addr len : Nat) : Bool :=
  (linesOf (addr - hbmBase) len).any (fun L => s.fab.locks.any (fun l => l.target == 256 + L / 6 % 32 && l.master != 1))

/-- Where a command's data come from: host memory, or the HBM data space by fabric address. Answers the bytes,
or the state after the refused read (R447, R444, R415). -/
def State.sourceBytes (s : State) (hbm : Bool) (addr len : Nat) : State × Option (List Byte) :=
  if hbm then
    if addr < hbmBase ∨ hbmBase + 1024 * hbmLines < addr + len then (s.fabRefuse 1 0 (addr % 2 ^ 40), none)
    else if s.sourceLocked addr len then
      ({ s with fresh := s.fresh + len }, some ((List.range len).map (fun i => BitVec.ofNat 8 (s.freeNat i 8))))
    else if s.hbmPoisoned (addr - hbmBase) len then (s.raise (mkFault srcFabric 1 1 addr 1), none)
    else (s.linesRead (addr - hbmBase) len, some (s.hbmRead (addr - hbmBase) len))
  else if !s.hostIn addr len then (s.fabRefuse 1 0 (addr % 2 ^ 40), none)
  else if !s.modl.pciUp then (s.hostTimeout 1 0 0, none)
  else (s, some (s.hostRead addr len))

/-- The answer to a command whose data could not be read (R447): ERR_INTERNAL, without effect. -/
def State.sourceFailed (s : State) (timeout : Bool) : Ans :=
  if timeout then s.internal 0 srcPci 2 else s.internal 0 srcFabric 1

/-- PLAN_LOAD_TABLE (R354, R360, R447): the bytes are taken when the command is ordered (log 16). -/
def execPlanLoadTable (h : Hdr) (slot sect source : Byte) (addr : BitVec 64) (len : Word) (s : State) : Host.Outcome State Fault Refusal :=
  .next (s.winos (.planLoadTable (hdrPlain h) slot sect source addr len) h 0x0308 15 true false (fun s =>
    let i := slot.toNat
    if 4 ≤ i then s.bad 0
    else if 9 < sect.toNat then s.bad 1
    else if 1 < source.toNat then s.bad 2
    else if sectionSize sect.toNat < len.toNat then s.bad 11
    else
      let hbm := source.toNat == 1
      let r := s.sourceBytes hbm addr.toNat len.toNat
      if s.longsFull then s.rej rejBusy
      else match r.2 with
        | none => r.1.sourceFailed (!hbm && s.hostIn addr.toNat len.toNat)
        | some l => s.begin h 0x0308 (.tableLoad i sect.toNat l)))

/-- SET_RESERVE (R63, R365). -/
def execSetReserve (h : Hdr) (reserve : Byte) (s : State) : Host.Outcome State Fault Refusal :=
  .next (s.winos (.setReserve (hdrPlain h) reserve) h 0x0309 1 true false (fun s =>
    if 8 < reserve.toNat then s.bad 0 else (s.wr .ENG_GCTL_RESERVE 0 reserve.toNat).ok))

/-- ENGINE_RELEASE (R63, R354). -/
def execEngineRelease (h : Hdr) (s : State) : Host.Outcome State Fault Refusal :=
  .next (s.winos (.engineRelease (hdrPlain h)) h 0x030A 0 true false (fun s =>
    if s.on .ENG_GSTAT_HOLD then (s.wr .ENG_GSTAT_HOLD 0 0).ok else s.rej rejState))

/-- Why a close of an open-ended trick at a boundary is refused (R210, R62, R365, R354): the trick it would close begins
at the boundary of the close before it, if one is pending. A boundary at or before the present trick's first counter
has passed. A boundary that leaves the trick up to a later pending close shorter than L_min is refused too (R62;
DEDUCED, log 27). -/
def State.closeRefusal (s : State) (b : Nat) : Option Nat :=
  match s.plans.active with
  | none => some rejState
  | some p =>
    let first := max (s.tricks.cur.getD p.d) p.d
    let a := (s.closeBoundaries.filter (· < b)).foldl max first
    let short := b < a + pLmin p.data || (s.closeBoundaries.any (fun b2 => decide (b < b2 ∧ b2 < b + pLmin p.data)))
    let passed := match s.timeOf b with | some t => decide (t ≤ s.nowNs) | none => true
    if b % pS p.data ≠ 0 ∨ lastCounter < b then some rejParam
    else if pL p.data ≠ 0 then some rejState
    else if first < b && short then some rejParam
    else if passed || decide (b ≤ first) || decide (b ≤ s.deck.cutT) || s.dealer.deal.any (fun q => decide (q.d ≤ b)) then some rejState
    else none

/-- TRICK_CLOSE (R210). -/
def execTrickClose (h : Hdr) (boundary : BitVec 64) (s : State) : Host.Outcome State Fault Refusal :=
  .next (s.winos (.trickClose (hdrPlain h) boundary) h 0x0401 8 true false (fun s =>
    match s.closeRefusal boundary.toNat with
    | some r => s.rej r
    | none => s.begin h 0x0401 (.trickClose boundary.toNat s.lastDsn)))

/-- TRICK_STATUS (R354): 2^64 - 1 where there is no such trick; the widths are the model's (log 9). -/
def execTrickStatus (h : Hdr) (s : State) : Host.Outcome State Fault Refusal :=
  .next (s.winos (.trickStatus (hdrPlain h)) h 0x0402 0 true false (fun s =>
    let no := 2 ^ 64 - 1
    s.ok [(8, s.tricks.cur.getD no), (8, (s.exportTrick.map (fun (k : Trick) => k.first)).getD no), (8, s.rd64 .OUT_RELTRICK),
      (4, s.unreleased.length)]))

/-- The deck deadline is changed (R171). -/
def State.setDeadline (s : State) (ms : Nat) : State :=
  let old := s.rd .CUT_DECKCTL_DEADLINE
  let s := { s with deck := { s.deck with dlHist := (s.nowNs, old) :: s.deck.dlHist } }
  s.wr .CUT_DECKCTL_DEADLINE 0 ms

/-- DEADLINE_SET (R171). -/
def execDeadlineSet (h : Hdr) (ms : BitVec 16) (s : State) : Host.Outcome State Fault Refusal :=
  .next (s.winos (.deadlineSet (hdrPlain h) ms) h 0x0403 2 true false (fun s =>
    if ms.toNat = 0 ∨ 1000 < ms.toNat then s.bad 0 else (s.setDeadline ms.toNat).ok))

end Sys2Proof.Machine
end

