-- ==== Sys2Proof/Machine/OutCmds.lean ====
section
/-! DEFINITION. Winos commands of the Beams and zoom and the Output groups (R230 to R234, R247, R253, R254, R280,
R290, R292, R297, R354). -/

namespace Sys2Proof.Machine

/-- The sets of a kind (0 table, 1 polynomial) are allocated (R231). -/
def State.kindAlloc (s : State) (kind : Nat) : Bool := if kind = 0 then s.on .BMF_STAT_TALLOC else s.on .BMF_STAT_PALLOC

/-- The physical set of a kind that is the shadow (R233). -/
def State.shadowSet (s : State) (kind : Nat) : Nat := 1 - (if kind = 0 then s.rd .BMF_STAT_TACT else s.rd .BMF_STAT_PACT)

/-- Bytes of the set that a weight-write names; 0 for a kind of the other geometry. -/
def geoSize (kind : Nat) : WeightGeom → Nat
  | .table n c b => if kind = 0 then b.toNat * 64 * n.toNat * c.toNat * 2 else 0
  | .poly _ _ => if kind = 1 then polySize else 0

/-- Parameter bytes of a geometry or reference time (R354). -/
def geoLen : WeightGeom → Nat
  | .table _ _ _ => 5
  | .poly _ _ => 12

/-- A table geometry out of range (R230): the byte offset of the field. -/
def geoBad (kind : Nat) : WeightGeom → Option Nat
  | .table n c b =>
    if kind ≠ 0 then some 0
    else if n.toNat = 0 ∨ 64 < n.toNat then some 1
    else if c.toNat = 0 ∨ 1024 < c.toNat then some 2
    else if b.toNat = 0 ∨ 1024 < b.toNat then some 4
    else none
  | .poly _ ns => if kind ≠ 1 then some 0 else if 1000000000 ≤ ns.toNat then some 9 else none

/-- MiB that a table set may take (R230, R231). -/
def State.tableRoom (s : State) : Nat := if s.on .BMF_STAT_PALLOC then 448 else 512

/-- A weight command enters the order of weight commands (R233, R234). The reply names the physical set. -/
def State.beginWeightCmd (s : State) (h : Hdr) (opcode kind : Nat) (copy : Bool) (geo : Option WeightGeom) (off : Nat)
    (data : List Byte) : Ans :=
  let w : WeightCmd := { copy := copy, kind := kind, phys := s.shadowSet kind, geo := geo, off := off, data := data, running := false
                         dsn := s.lastDsn }
  let a := s.begin h opcode (.weight w) [(1, w.phys)]
  if a.status = stAccepted then { a with st := (a.st.wr .BMF_STAT_WBUSY 0 1).beginWeight } else a

/-- WEIGHT_WRITE (R230, R231, R233, R234, R447): the bytes are taken when the command is ordered (log 16). -/
def execWeightWrite (h : Hdr) (kind : Byte) (geo : WeightGeom) (off len : Word) (source : Byte) (addr : BitVec 64) (data : List Byte)
    (s : State) : Host.Outcome State Fault Refusal :=
  let g := geoLen geo
  .next (s.winos (.weightWrite (hdrPlain h) kind geo off len source addr data) h 0x0501 (18 + g + data.length) true false (fun s =>
    let k := kind.toNat
    let n := len.toNat
    if 1 < k then s.bad 0
    else match geoBad k geo with
      | some o => s.bad o
      | none =>
        if geoSize k geo < off.toNat + n then s.bad (1 + g)
        else if 2 < source.toNat then s.bad (9 + g)
        else if data.length ≠ (if source.toNat = 0 then n else 0) then s.bad (5 + g)
        else if !s.kindAlloc k then s.rej rejState
        else if s.longsFull then s.rej rejBusy
        else if k = 0 ∧ s.tableRoom * 2 ^ 20 < geoSize k geo then s.over 8 (mib (geoSize k geo)) s.tableRoom
        else if source.toNat = 0 then s.beginWeightCmd h 0x0501 k false (some geo) off.toNat data
        else
          let hbm := source.toNat == 2
          let r := s.sourceBytes hbm addr.toNat n
          match r.2 with
          | none => r.1.sourceFailed (!hbm && s.hostIn addr.toNat n)
          | some l => s.beginWeightCmd h 0x0501 k false (some geo) off.toNat l))

/-- WEIGHT_COPY (R230, R231, R233, R234). -/
def execWeightCopy (h : Hdr) (kind : Byte) (s : State) : Host.Outcome State Fault Refusal :=
  .next (s.winos (.weightCopy (hdrPlain h) kind) h 0x0502 1 true false (fun s =>
    let k := kind.toNat
    if 1 < k then s.bad 0
    else if !s.kindAlloc k then s.rej rejState
    else s.beginWeightCmd h 0x0502 k true none 0 []))

/-- Why a weight deal is refused when it is ordered (R232, R77), by R525. -/
def State.weightDealRefusal (s : State) (kinds d : Nat) : Option (Nat × Nat) :=
  let offGrid := match s.planDataAt d with
    | some x => d % pS x != 0
    | none => false
  let late := match s.timeOf d with
    | some t => decide (t < s.nowNs + 50000000)
    | none => true
  if kinds = 0 ∨ 3 < kinds then some (rejParam, 0)
  else if offGrid || decide (lastCounter ≤ d) then some (rejParam, 1)
  else if (bitOf kinds 0 && !s.kindAlloc 0) || (bitOf kinds 1 && !s.kindAlloc 1) || late then some (rejState, 0)
  else if s.weightDeal.isSome then some (rejBusy, 0)
  else none

/-- WEIGHT_DEAL (R232, R233). -/
def execWeightDeal (h : Hdr) (kinds : Byte) (d : BitVec 64) (s : State) : Host.Outcome State Fault Refusal :=
  .next (s.winos (.weightDeal (hdrPlain h) kinds d) h 0x0503 9 true false (fun s =>
    match s.weightDealRefusal kinds.toNat d.toNat with
    | some r => { s.rej r.1 with detail := r.2 }
    | none =>
      let a := s.begin h 0x0503 (.weightDeal kinds.toNat d.toNat)
      if a.status = stAccepted then { a with st := (a.st.wr .BMF_STAT_PEND 0 1).wr64 .BMF_DEALCNT 0 d.toNat } else a))

/-- Counter of the first sum of a beam and channel that is still to leave: those before it reach no slot again. -/
def State.nextSum (s : State) (beam ch : Nat) : Nat :=
  match s.plans.active with
  | none => 0
  | some p =>
    let b := (beamIdents p.data).findIdx (· == beam)
    max p.d (s.detMark (b / 64) ch)

/-- A zoom change waits for its counter (R252, R254); inputs already consumed cannot be changed, so it takes effect no
earlier than the next input of its beam and channel (log 13). -/
def State.setZoomChange (s : State) (k c : Nat) (q : ZoomSettings) : State :=
  let x := s.zslot k
  let at0 := if x.inUse then max c x.fifoAt else c
  let at0 := if x.fedBy q.beam.toNat q.chan.toNat then at0 else max at0 (s.nextSum q.beam.toNat q.chan.toNat)
  s.setZslot k (x.withChanges [⟨true, q, at0, false⟩])

/-- ZOOM_CHANGE (R252, R254, R247, R72). -/
def execZoomChange (h : Hdr) (slot : Byte) (set : ZoomSettings) (c : BitVec 64) (s : State) : Host.Outcome State Fault Refusal :=
  .next (s.winos (.zoomChange (hdrPlain h) slot set c) h 0x0504 18 true false (fun s =>
    let k := slot.toNat
    let x := s.zslot k
    let used := ((List.range 64).filter (fun i => (s.zslot i).inUse || i == k)).length
    let load := (Q.ofNat used).mul s.fch
    if 64 ≤ k then s.bad 0
    else match zoomBad (s.plans.active.map (fun p => p.data)) set with
      | some o => s.bad o
      | none =>
        if s.plans.active.isNone then s.rej rejState
        else if x.pend.isSome || x.fade != 0 || !x.redo.isEmpty || s.longsFull then s.rej rejBusy
        else if !x.inUse && !load.le (.ofNat 51200000) then s.over 7 load.ceil 51200000
        else
          let a := s.begin h 0x0504 (.zoomChange k set c.toNat)
          { a with st := a.st.setZoomChange k c.toNat set }))

/-- ZOOM_COEF (R250, R253): 32 taps of 18 bits. -/
def execZoomCoef (h : Hdr) (set : Byte) (taps : List Word) (s : State) : Host.Outcome State Fault Refusal :=
  .next (s.winos (.zoomCoef (hdrPlain h) set taps) h 0x0505 (1 + 4 * taps.length) true false (fun s =>
    let m := set.toNat
    let wide := (List.range taps.length).find? (fun i => signed 18 (taps.getD i 0).toNat != signed 32 (taps.getD i 0).toNat)
    if 16 ≤ m then s.bad 0
    else match wide with
      | some i => s.bad (1 + 4 * i)
      | none =>
        if s.setBusy m then { (s.flag .ZOM_EVT_CWREJ).rej rejBusy with detail := 0 }
        else (forN taps.length (fun s i => s.writeTap m i (taps.getD i 0).toNat) s).ok))

/-- RELEASE (R292, R293). -/
def execRelease (h : Hdr) (trick : BitVec 64) (s : State) : Host.Outcome State Fault Refusal :=
  .next (s.winos (.release (hdrPlain h) trick) h 0x0601 8 true false (fun s =>
    let r := s.askRelease trick.toNat
    { st := r.1, status := r.2 }))

/-- RESEND (R290). -/
def execResend (h : Hdr) (part : Byte) (first : BitVec 64) (count : Word) (s : State) : Host.Outcome State Fault Refusal :=
  .next (s.winos (.resend (hdrPlain h) part first count) h 0x0602 13 true false (fun s =>
    let r := s.resend part.toNat first.toNat count.toNat
    { st := r.1, status := r.2, detail := if r.2 = rejParam ∧ part.toNat ≤ 2 then 9 else 0 }))

/-- STATS_SEND (R280). -/
def execStatsSend (h : Hdr) (trick : BitVec 64) (part : Byte) (s : State) : Host.Outcome State Fault Refusal :=
  .next (s.winos (.statsSend (hdrPlain h) trick part) h 0x0603 9 true false (fun s =>
    let st := s.statsStatus trick.toNat part.toNat
    if st = rejParam then s.bad 8
    else if st = rejState then s.rej rejState
    else
      let a := s.begin h 0x0603 (.statsSend trick.toNat part.toNat)
      if a.status = stAccepted ∧ st = rejFull then s.rej rejFull else a))

/-- RING_SIZE (R286, R354, R59). -/
def execRingSize (h : Hdr) (gib : Byte) (s : State) : Host.Outcome State Fault Refusal :=
  .next (s.winos (.ringSize (hdrPlain h) gib) h 0x0604 1 true false (fun s =>
    if gib.toNat = 0 ∨ 32 < gib.toNat then s.bad 0
    else if s.plans.active.isSome || s.dealer.deal.isSome then s.rej rejState
    else ({ s with plans := { s.plans with ringGib := gib.toNat } } : State).reevaluate.ok))

/-- The host delivery settings (R297, R300, R303). -/
def State.setHostRing (s : State) (base log2 wb vec modk modus : Nat) : State :=
  let s := ((s.wr64 .OUT_HBASE 0 base).wr .OUT_HSIZE_LOG2 0 log2).wr64 .OUT_HWB 0 wb
  ((s.wr .OUT_HCTL_VEC 0 vec).wr .OUT_HCTL_MODK 0 modk).wr .OUT_HCTL_MODUS 0 modus

/-- HOST_RING (R297, R300, R303, R354): the layout of its parameters is the model's (log 9). -/
def execHostRing (h : Hdr) (base : BitVec 64) (log2 : Byte) (wb : BitVec 64) (vec modk : Byte) (modus : BitVec 16) (s : State) :
    Host.Outcome State Fault Refusal :=
  .next (s.winos (.hostRing (hdrPlain h) base log2 wb vec modk modus) h 0x0605 21 true false (fun s =>
    let k := log2.toNat
    if 20 ≤ k ∧ k ≤ 32 ∧ base.toNat % 2 ^ k ≠ 0 then s.bad 0
    else if k < 20 ∨ 32 < k then s.bad 8
    else if wb.toNat % 8 ≠ 0 then s.bad 9
    else if 63 < vec.toNat then s.bad 17
    else if 15 < modk.toNat then s.bad 18
    else if modus.toNat = 0 then s.bad 19
    else if s.on .OUT_HCTL_EN then s.rej rejState
    else (s.setHostRing base.toNat k wb.toNat vec.toNat modk.toNat modus.toNat).ok))

end Sys2Proof.Machine
end

