-- ==== Sys2Proof/Machine/TimeRef.lean ====
section
/-! DEFINITION. Device time, references, timing outputs and PTP (R368 to R400). Numbers of references: 0 A, 1 B,
2 PTP. -/

namespace Sys2Proof.Machine

def refNo : RefId → Nat
  | .a => 0 | .b => 1 | .ptp => 2

/-- States of the references (R387). -/
def rsFree : Nat := 0
def rsAcquire : Nat := 1
def rsHold : Nat := 5
def rsFault : Nat := 6

/-- Limit of ρ: 500 ppm in 2^-48 (R369). -/
def rhoMax : Int := 140737488355

/-- The state of the references, on REFST and in its registers (R387). -/
def State.setRefState (s : State) (x : Nat) : State := (s.wr .REF_STAT_STATE 0 x).wr .MOD_STAT_REFST 0 x
def State.refState (s : State) : Nat := s.rd .REF_STAT_STATE
/-- The selected reference. -/
def State.refSel (s : State) : Option Nat := let n := s.rd .REF_STAT_SEL; if n = 0 then none else some (n - 1)
/-- Whether a reference is locked to. -/
def isLocked (x : Nat) : Bool := 2 ≤ x && x ≤ 4

/-- Host trim in use and the steering term make ρ, within its limit (R369, R375, R376). -/
def State.setRate (s : State) : State :=
  let sum := s.timeb.steer + signed 64 (s.rd64 .TIM_TRIM)
  let lim := decide (sum < -rhoMax ∨ rhoMax < sum)
  let v := if sum < -rhoMax then -rhoMax else if rhoMax < sum then rhoMax else sum
  let s := s.wr64 .TIM_RATE 0 (code 64 v)
  let s := if lim && !s.on .TIM_STAT_RLIM then (s.flag .TIM_EVT_RLIM).fault srcTime 2 0 else s
  (if lim then s else s.setLive srcTime 0 2 false).put .TIM_STAT_RLIM 0 lim

/-- The steering term. -/
def State.setSteer (s : State) (v : Int) (active : Bool) : State :=
  ({ s with timeb := { s.timeb with steer := v } }.put .TIM_STAT_STEERING 0 active).setRate

/-- A setting of REF_CFG or of the registers that hold the same fields, as it is in effect: what REF_CFG set waits for the next
measurement (R397). -/
def State.ref (s : State) (f : Fld) (i : Nat := 0) : Nat :=
  match s.timeb.refWas.find? (fun x => x.1 == f.at i) with
  | some x => x.2.toNat / 2 ^ f.lo % 2 ^ f.w
  | none => s.rd f i
def State.refOn (s : State) (f : Fld) (i : Nat := 0) : Bool := s.ref f i != 0

/-- Device time of the latest PPS edge of a reference in 2^-48 ns. -/
def RefX.pps48 (x : RefX) : Int := ((x.ppsSec * 1000000000 + x.ppsNs : Nat) : Int) * 2 ^ 48 + (x.ppsFrac : Int)

/-- Time error of a reference in 2^-48 ns (R375): device time at its PPS edge, less its DELAY, less the nearest
whole second; for PTP offsetFromMaster less its DELAY. -/
def State.timeError (s : State) (r : Nat) : Int :=
  let delay := signed 32 (s.ref .REF_RDELAY_UNITS r) * 2 ^ 38
  if r = 2 then s.timeb.ptp.ofm * 2 ^ 32 - delay
  else
    let sec : Int := 1000000000 * 2 ^ 48
    let y := ((s.refx r).pps48 - delay) % sec
    if 2 * y ≤ sec then y else y - sec

/-- Steering that removes e ÷ 16 in the next second, within the slew limit (R375), rounded half up (R55). -/
def State.steerFor (s : State) (e : Int) : Int :=
  let v := rhu (-e) 16000000000
  let lim : Int := (s.rd .TIM_SLEW_PPB : Int) * 2 ^ 48 / 1000000000
  if v < -lim then -lim else if lim < v then lim else v

/-- A time error within 50 ns (R387). -/
def teGood (e : Int) : Bool := decide (e.natAbs ≤ 50 * 2 ^ 48)

/-- A reference is qualified. -/
def State.qualified (s : State) (r : Nat) : Bool := s.on .REF_RSTAT_QUALIFIED r

/-- The reference that R382 selects. -/
def State.bestRef (s : State) : Option Nat :=
  let f := s.ref .REF_CTL_FORCE
  if f = 0 then
    let q := [0, 1, 2].filter (fun r => s.qualified r && s.refOn .REF_RCFG_EN r)
    match q with
    | [] => none
    | r0 :: rest =>
      let b := rest.foldl (fun b r => if s.ref .REF_RCFG_RANK r < s.ref .REF_RCFG_RANK b then r else b) r0
      match s.refSel with
      | some c => if q.contains c && s.ref .REF_RCFG_RANK c == s.ref .REF_RCFG_RANK b then some c else some b
      | none => some b
  else if f ≤ 3 then (if s.qualified (f - 1) then some (f - 1) else none)
  else none

/-- The pairs of references that disagree, and the alarm that they raise (R383). -/
def State.setDis (s : State) (l : List DisPair) : State :=
  ({ s with timeb := { s.timeb with disRefs := l } } : State).put .REF_STAT_DISAGREE 0 (!l.isEmpty)

/-- The unselected reference of a pair (R526). -/
def State.unselected (s : State) (p : DisPair) : Nat := if s.refSel = some p.other then p.sel else p.other

/-- The alarms of the pairs that `q` names clear (R383). -/
def State.endPairs (s : State) (q : DisPair → Bool) : State :=
  (s.timeb.disRefs.filter q).foldl (fun s p => s.event 3 0x0304 (s.unselected p) 0 0)
    (s.setDis (s.timeb.disRefs.filter (fun p => !q p)))

/-- A reference is compared no more: it is disqualified or disabled (R383). -/
def State.endCompare (s : State) (r : Nat) : State :=
  (s.setRefx r { s.refx r with disCount := 0 }).endPairs (fun p => p.sel == r || p.other == r)

/-- The loop locks: a new lock, or one that a hitless switch goes on with (R386, R387). -/
def State.beginLock (s : State) (goesOn : Bool) : State :=
  let s := { s with timeb := { s.timeb with goodTe := 10, lockSecs := if goesOn then s.timeb.lockSecs else 0 } }
  if goesOn then s else s.wr .REF_STAT_LOCKMIN 0 0

/-- The selection is made again (R382, R384, R386, R387): a switch, or Holdover or Free-run. -/
def State.reselect (s : State) : State :=
  let s := s.put .REF_STAT_FORCED 0 (s.ref .REF_CTL_FORCE != 0)
  let best := s.bestRef
  if best = s.refSel then s
  else
    let old := s.refSel
    let s := forN 3 (fun s r => s.put .REF_RSTAT_SELECTED r (best == some r)) s
    -- R399: no offset against the selection of the selected reference, nor of any where none is selected
    let s := forN 3 (fun s r => if best.isNone || best == some r then s.wr .REF_ROFFS_PPT r 0 else s) s
    let s := forN 3 (fun s r => s.setRefx r { s.refx r with disCount := 0 }) s
    let s := s.wr .REF_STAT_SEL 0 (match best with | some r => r + 1 | none => 0)
    let s := { s with timeb := { s.timeb with goodTe := 0, lastSel := best.getD (old.getD s.timeb.lastSel) } }
    match best with
    | some r =>
      let s := (s.flag .REF_EVT_SWITCH).event 3 0x0302 r 0 (old.getD 0xFF)
      if s.refState = rsFault then s
      else
        let e := s.timeError r
        if old.isSome && teGood e then (s.beginLock (isLocked s.refState)).setRefState (2 + r)
        else s.setRefState rsAcquire
    | none =>
      if s.refState = rsFault then s
      else
        let st := if 60 ≤ s.timeb.lockSecs then rsHold else rsFree
        let s := ((s.setRefState st).setSteer 0 false)
        let s := if st = rsHold then s.flag .REF_EVT_HOLDOVER else s
        s.event 3 0x0303 s.timeb.lastSel 0 st

/-- A reference is disqualified (R379, R383, R526). -/
def State.disqualify (s : State) (r cause : Nat) : State :=
  if !s.qualified r then s
  else
    let s := (s.wr .REF_RSTAT_QUALIFIED r 0).wr .REF_RSTAT_WTRLEFT r 0
    let s := s.setRefx r { s.refx r with wtrRun := false, ppsBad := 0 }
    ((s.flag .REF_EVT_DISQ).event 3 0x0301 r 0 cause).endCompare r

/-- Whether an offset in 10^-12 lies within a share of a window in ppb. -/
def within (off : Int) (num den ppb : Nat) : Bool := decide (off.natAbs * den ≤ num * ppb * 1000)

/-- The measurement of one reference (R378 to R381). -/
def State.measureRef (s : State) (r : Nat) (m : RefSample) : State :=
  let s := s.put .REF_RSTAT_PRESENT r m.present
  if !s.on .REF_RCFG_EN r then
    (((s.wr .REF_RSTAT_QUALIFIED r 0).wr .REF_RSTAT_WTRLEFT r 0).setRefx r { s.refx r with wtrRun := false }).endCompare r
  else if !m.present then
    ((s.disqualify r 1).setRefx r { s.refx r with wtrRun := false, ppsBad := 0 }).wr .REF_RSTAT_WTRLEFT r 0
  else
    let w := s.rd .REF_RCFG_WINDOW r
    let s := s.wr .REF_ROFFO_PPT r (code 32 (clampTo 32 m.offOcxo))
    let s := s.wr .REF_ROFFS_PPT r (if s.refSel.isNone || s.refSel == some r then 0 else code 32 (clampTo 32 m.offSel))
    if !s.on .REF_STAT_WARM then s.wr .REF_RSTAT_QUALIFIED r 1
    else
      let bad := if within m.offOcxo 1 1 w then 0 else min 4 (s.rd .REF_RSTAT_BADCNT r + 1)
      let s := s.wr .REF_RSTAT_BADCNT r bad
      if s.qualified r then (if bad = 4 then s.disqualify r 2 else s)
      else if !within m.offOcxo 8 10 w then (s.setRefx r { s.refx r with wtrRun := false }).wr .REF_RSTAT_WTRLEFT r 0
      else if (s.refx r).wtrRun then s.wr .REF_RSTAT_WTRLEFT r (s.rd .REF_RSTAT_WTRLEFT r - 1)
      else (s.setRefx r { s.refx r with wtrRun := true }).wr .REF_RSTAT_WTRLEFT r (s.rd .REF_RCFG_WTR r)

/-- An unselected reference and the selection are qualified and of equal rank (R383). -/
def State.rivals (s : State) (r : Nat) : Bool :=
  match s.refSel with
  | none => false
  | some c => r != c && s.qualified r && s.on .REF_RCFG_EN r && s.qualified c && s.on .REF_RCFG_EN c &&
      s.rd .REF_RCFG_RANK r == s.rd .REF_RCFG_RANK c

/-- The references of a pair are compared already: their alarm stands (R383). -/
def DisPair.of (p : DisPair) (a b : Nat) : Bool := (p.sel == a && p.other == b) || (p.sel == b && p.other == a)

/-- The comparison of an unselected reference with the selection (R383). -/
def State.comparePair (s : State) (r : Nat) : State :=
  let c := s.refSel.getD 3
  let x := s.refx r
  if !s.rivals r || s.timeb.disRefs.any (·.of c r) then s.setRefx r { x with disCount := 0 }
  else
    let n := if within (signed 32 (s.rd .REF_ROFFS_PPT r)) 1 1 (s.rd .REF_DISAG_PPB) then 0 else x.disCount + 1
    if n < 4 then s.setRefx r { x with disCount := n }
    else
      (((s.setRefx r { x with disCount := 0 }).setDis (s.timeb.disRefs ++ [⟨c, r, 0⟩])).flag .REF_EVT_DISAGREE).event 3 0x0304 r 0 1

/-- The mutual offset of a pair: that of the unselected one against the selection where one of them is selected (R383). -/
def State.mutual (s : State) (p : DisPair) : Int :=
  let o := fun (f : Fld) r => signed 32 (s.rd f r)
  if s.refSel = some p.sel then o .REF_ROFFS_PPT p.other
  else if s.refSel = some p.other then o .REF_ROFFS_PPT p.sel
  else o .REF_ROFFO_PPT p.other - o .REF_ROFFO_PPT p.sel

/-- A pair that disagrees, after one more measurement of its mutual offset. -/
def State.calmed (s : State) (p : DisPair) : DisPair :=
  { p with calm := if within (s.mutual p) 8 10 (s.rd .REF_DISAG_PPB) then p.calm + 1 else 0 }

/-- The comparison of every two references of equal rank, of which one is selected; an alarm clears once the mutual offset has
stayed within 0.8 of the limit for 100 s (R383). -/
def State.compareRefs (s : State) : State :=
  let s := (s.setDis (s.timeb.disRefs.map s.calmed)).endPairs (fun p => decide (100 ≤ p.calm))
  forN 3 (fun s r => s.comparePair r) s

/-- What REF_CFG has set takes effect with a measurement (R397). -/
def State.settingsTake (s : State) : State :=
  { s with timeb := { s.timeb with refWas := [], phase := if s.timeb.refWas.isEmpty then s.timeb.phase else none } }

/-- A second of lock has passed (R386, R399). -/
def State.countLock (s : State) : State :=
  if isLocked s.refState then
    let n := s.timeb.lockSecs + 1
    ({ s with timeb := { s.timeb with lockSecs := n } } : State).wr .REF_STAT_LOCKMIN 0 (min 65535 (n / 60))
  else s

/-- Time error, lock and steering of the selected reference, once a second (R375, R387, R399). -/
def State.track (s : State) (loopLocked : Bool) : State :=
  let st := s.refState
  match s.refSel with
  | none => s
  | some r =>
    if st = rsFault then s
    else
      let e := s.timeError r
      let s := s.wr .TIM_TE_UNITS 0 (code 32 (clampTo 32 (rhu e (2 ^ 38))))
      let good := if teGood e then min 10 (s.timeb.goodTe + 1) else 0
      let s := { s with timeb := { s.timeb with goodTe := good } }
      let s := if isLocked st then (if loopLocked then s else s.setRefState rsAcquire)
        else if loopLocked && good == 10 then (s.beginLock false).setRefState (2 + r)
        else s
      if s.on .TIM_OUTCTL_STEER then s.setSteer (s.steerFor e) true else s.setSteer 0 false

/-- A or B is present: its 10 MHz input carries signal, and a PPS edge came within the last 1.1 s (R378). -/
def State.edgePresent (s : State) (r : Nat) (signal : Bool) : Bool :=
  signal && (s.refx r).ppsAt.any (fun t => decide (s.clock ≤ t + 1100000000))

/-- Nanoseconds between the Syncs of a master (R378, R393). -/
def syncNs (log : Int) : Nat := if 0 ≤ log then 1000000000 * 2 ^ min 30 log.toNat else 1000000000 / 2 ^ min 30 (-log).toNat

/-- Expected Syncs missed since the latest one. -/
def State.syncMissed (s : State) : Nat := (s.clock - s.timeb.ptp.lastSync) / max 1 (syncNs s.timeb.ptp.syncLog)

/-- PTP is present: its port is in the SLAVE state and no more than 3 Syncs in a row were missed (R378). -/
def State.ptpPresent (s : State) : Bool := s.rd .PTP_STAT_PSTATE == 9 && decide (s.syncMissed ≤ 3)

/-- REFERENCE_MEASUREMENT (R375, R378 to R383, R386, R387). For A and B the sample's `present` says that the 10 MHz input
carries signal; whether PTP is present, the state says. -/
def execReferenceMeasurement (m : RefMeas) (s : State) : Host.Outcome State Fault Refusal :=
  let a : RefSample := { m.a with present := s.edgePresent 0 m.a.present }
  let b : RefSample := { m.b with present := s.edgePresent 1 m.b.present }
  let ptp : RefSample := { m.ptp with present := s.ptpPresent }
  .next ((((((s.settingsTake).measureRef 0 a).measureRef 1 b).measureRef 2 ptp).countLock.reselect.compareRefs).track m.loopLocked)

/-- PPS_EDGE (R378, R379): time-stamped; the fourth edge in a row more than 100 ns off disqualifies, once the OCXO is warm
(R381). -/
def execPpsEdge (r : Fin 2) (posErrNs : Int) (s : State) : Host.Outcome State Fault Refusal :=
  let k := r.val
  .next <|
    let bad := if s.on .REF_STAT_WARM && decide (100 < posErrNs.natAbs) then (s.refx k).ppsBad + 1 else 0
    let s := s.setRefx k { s.refx k with ppsSec := s.timeb.sec, ppsNs := s.timeb.ns, ppsFrac := s.timeb.frac,
                                         ppsAt := some s.clock, ppsBad := bad }
    if 4 ≤ bad then (s.disqualify k 3).reselect else s

/-- REFERENCE_NO_LONGER_PRESENT (R379, R380, R386); for PTP the SLAVE state is lost (R473). -/
def execReferenceNoLongerPresent (r : RefId) (s : State) : Host.Outcome State Fault Refusal :=
  let k := refNo r
  .next <|
    let s := (s.wr .REF_RSTAT_PRESENT k 0).wr .REF_RSTAT_WTRLEFT k 0
    let s := s.setRefx k { s.refx k with wtrRun := false, ppsBad := 0 }
    let s := if k = 2 ∧ s.rd .PTP_STAT_PSTATE = 9 then
        (({ s with timeb := { s.timeb with ptp := { s.timeb.ptp with rank := none } } } : State).wr .PTP_STAT_PSTATE 0 4).fault srcPtp 1 0
      else s
    (s.disqualify k 1).reselect

/-- WTR_EXPIRY (R380, R382): the wait has run out. -/
def execWtrExpiry (r : RefId) (s : State) : Host.Outcome State Fault Refusal :=
  let k := refNo r
  .next <|
    if (s.refx k).wtrRun && s.rd .REF_RSTAT_WTRLEFT k == 0 && s.on .REF_RSTAT_PRESENT k && s.refOn .REF_RCFG_EN k && !s.qualified k then
      (((s.setRefx k { s.refx k with wtrRun := false }).wr .REF_RSTAT_QUALIFIED k 1).flag .REF_EVT_REQUAL).reselect
    else s

/-- OCXO_WARM (R381). -/
def execOcxoWarm (s : State) : Host.Outcome State Fault Refusal := .next (s.wr .REF_STAT_WARM 0 1)

/-- DISAGREEMENT_AVERAGE (R383): each 100 s average against its own window, which applies once the OCXO is warm (R381). Where
several pairs disagree, their averages come in turn (log 32). -/
def execDisagreementAverage (selPpt otherPpt : Int) (s : State) : Host.Outcome State Fault Refusal :=
  .next <|
    match s.timeb.disRefs with
    | p :: rest =>
      let warm := s.on .REF_STAT_WARM
      let badC := warm && !within selPpt 1 1 (s.ref .REF_RCFG_WINDOW p.sel)
      let badO := warm && !within otherPpt 1 1 (s.ref .REF_RCFG_WINDOW p.other)
      if badC || badO then
        ((s.whenS badC (·.disqualify p.sel 4)).whenS badO (·.disqualify p.other 4)).reselect
      else s.setDis (rest ++ [p])
    | [] => s

/-- The Fault state is entered (R388). -/
def State.refFault (s : State) : State :=
  if s.refState = rsFault then s
  else (((s.setRefState rsFault).setSteer 0 false).flag .REF_EVT_FAULT).fault srcTime 1 1

/-- OCXO_OUT_OF_REGULATION (R388). -/
def execOcxoOutOfRegulation (s : State) : Host.Outcome State Fault Refusal := .next s.refFault

/-- FAULT_STATE_END (R387, R388). -/
def execFaultStateEnd (s : State) : Host.Outcome State Fault Refusal :=
  .next <|
    if s.refState ≠ rsFault then s
    else
      let s := ({ s with timeb := { s.timeb with goodTe := 0 } }.setLive srcTime 1 1 false).domainBack 161
      (if s.refSel.isSome then s.setRefState rsAcquire else s.setRefState rsFree).reselect

/-! ### Setting device time (R370 to R374), the mapping (R40, R41) and the trim (R376) -/

/-- Why the two forms of R370 refuse their parameters; `off` is the offset of the seconds. -/
def State.timeParam (s : State) (sec ns off : Nat) : Option Nat :=
  if 2 ^ 48 ≤ sec then some off
  else if 1000000000 ≤ ns ∧ ns ≠ 0xFFFFFFFF then some (off + 8)
  else if ns = 0xFFFFFFFF ∧ s.refSel = some 2 ∧ sec ≠ 0 then some off
  else none

/-- REJ_STATE of the aligned form (R371). -/
def State.alignState (s : State) (ns : Nat) : Bool :=
  ns == 0xFFFFFFFF && (match s.refSel with
    | none => true
    | some r => r == 2 && s.rd .PTP_STAT_PSTATE != 9)

/-- REJ_BUSY of the aligned form: less than 20 ms after a PPS edge of the selected reference (R371). -/
def State.alignBusy (s : State) (ns : Nat) : Bool :=
  ns == 0xFFFFFFFF && (match s.refSel with
    | some r => r < 2 && (s.refx r).ppsAt.any (fun t => decide (s.clock < t + 20000000))
    | none => false)

/-- The device time that a form of R370 sets, in 2^-48 ns, under the epoch offset of the state. The PTP time is that
of the latest Sync whose time is known, carried on to the ordering (DEDUCED, log 17). -/
def State.timeValue (s : State) (sec ns : Nat) : Int :=
  if ns ≠ 0xFFFFFFFF then ((sec * 1000000000 + ns : Nat) : Int) * 2 ^ 48
  else match s.refSel with
    | some r =>
      if r < 2 then
        ((sec * 1000000000 : Nat) : Int) * 2 ^ 48 + signed 32 (s.ref .REF_RDELAY_UNITS r) * 2 ^ 38 +
          (s.now48 - (s.refx r).pps48)
      else
        let p := s.timeb.ptp
        ((p.syncPtpNs : Int) + ((s.clock - p.syncAt : Nat) : Int) - s.timeb.eps * 1000000000) * 2 ^ 48
    | none => 0

/-- Device time steps to a value in 2^-48 ns; the time-stamps of the last PPS edges keep their distance from it. No range is
open then, and every later one ends after the writes of DEADLINE and the pauses there were (R171, R374): what is kept of them goes,
and a pause under way counts from here. -/
def State.stepTime (s : State) (v : Int) : State :=
  let v := v.toNat
  let old := s.now48
  let s := s.setNowNs (v / 2 ^ 48)
  let s := { s with timeb := { s.timeb with frac := v % 2 ^ 48, phase := none } }
  let s := { s with deck := { s.deck with dlHist := [], pauses := [], pauseAt := s.deck.pauseAt.map (fun _ => s.nowNs) } }
  forN 2 (fun s r =>
    let x := s.refx r
    let t := (x.pps48 + v - old).toNat
    s.setRefx r { x with ppsSec := t / 2 ^ 48 / 1000000000, ppsNs := t / 2 ^ 48 % 1000000000, ppsFrac := t % 2 ^ 48 }) s

/-- TIME_SET (R370 to R372). -/
def execTimeSet (h : Hdr) (sec : BitVec 64) (ns : Word) (s : State) : Host.Outcome State Fault Refusal :=
  .next (s.winos (.timeSet (hdrPlain h) sec ns) h 0x0701 12 true true (fun s =>
    match s.timeParam sec.toNat ns.toNat 0 with
    | some o => s.bad o
    | none =>
      if s.on .TIM_STAT_SET || s.alignState ns.toNat then s.rej rejState
      else if s.alignBusy ns.toNat then s.rej rejBusy
      else
        let dsn := s.lastDsn
        let s := ((s.stepTime (s.timeValue sec.toNat ns.toNat)).wr .TIM_STAT_SET 0 1).flag .TIM_EVT_SET
        (s.event 2 0x0203 (transportOf h.src) 0 dsn).ok))

/-- A plan deal or a weight deal is pending (R365). -/
def State.dealsPending (s : State) : Bool := s.dealer.deal.isSome || s.weightDeal.isSome

/-- A trick is open, that is, a plan is active (R41, R374). -/
def State.trickOpen (s : State) : Bool := s.plans.active.isSome || s.tricks.cur.isSome

/-- RE_EPOCH (R373, R374). -/
def execReEpoch (h : Hdr) (eps : BitVec 64) (sec : BitVec 64) (ns : Word) (s : State) : Host.Outcome State Fault Refusal :=
  .next (s.winos (.reEpoch (hdrPlain h) eps sec ns) h 0x0702 20 true false (fun s =>
    match s.timeParam sec.toNat ns.toNat 8 with
    | some o => s.bad o
    | none =>
      if s.trickOpen || s.alignState ns.toNat then s.rej rejState
      else if s.dealsPending || s.alignBusy ns.toNat then s.rej rejBusy
      else
        let dsn := s.lastDsn
        let s := { s with timeb := { s.timeb with eps := signed 64 eps.toNat, map := none } }
        let s := (s.wr64 .TIM_EPOCH 0 eps.toNat).wr .TIM_STAT_MAPSET 0 0
        let s := ((s.stepTime (s.timeValue sec.toNat ns.toNat)).wr .TIM_STAT_SET 0 1).flag .TIM_EVT_EPOCH
        (s.event 2 0x0204 (transportOf h.src) 0 dsn).reevaluate.ok))

/-- MAP_SET (R40, R41, R59, R365, R372). -/
def execMapSet (h : Hdr) (sec : BitVec 64) (ns p q : Word) (s : State) : Host.Outcome State Fault Refusal :=
  .next (s.winos (.mapSet (hdrPlain h) sec ns p q) h 0x0703 20 true false (fun s =>
    let x := p.toNat
    let y := q.toNat
    if 2 ^ 48 ≤ sec.toNat then s.bad 0
    else if 1000000000 ≤ ns.toNat then s.bad 8
    else if y = 0 then s.bad 16
    else if x < 16 * y ∨ 1000000 * y < x then s.bad 12
    else if s.trickOpen || !s.on .TIM_STAT_SET then s.rej rejState
    else if s.dealsPending then s.rej rejBusy
    else
      let dsn := s.lastDsn
      let s := { s with timeb := { s.timeb with map := some ⟨sec.toNat, ns.toNat, x, y⟩ } }
      ((s.wr .TIM_STAT_MAPSET 0 1).event 2 0x0205 (transportOf h.src) 0 dsn).reevaluate.ok))

/-- TIM_TRIM_LOW (R376): held. -/
def execTimTrimLow (v : Word) (s : State) : Host.Outcome State Fault Refusal :=
  .next { s with timeb := { s.timeb with trimLow := some v } }

/-- TIM_TRIM_HIGH (R376): applied with the held low word, or refused beyond 500 ppm. -/
def execTimTrimHigh (v : Word) (s : State) : Host.Outcome State Fault Refusal :=
  .next <|
    let low := match s.timeb.trimLow with
      | some w => w.toNat
      | none => s.rd64 .TIM_TRIM % 2 ^ 32
    let n := low + 2 ^ 32 * v.toNat
    let s := { s with timeb := { s.timeb with trimLow := none } }
    if (signed 64 n).natAbs ≤ rhoMax.natAbs then (s.wr64 .TIM_TRIM 0 n).setRate else s.flag .TIM_EVT_TRIMREJ

/-! ### The timing outputs (R388, R390, R392) -/

/-- CLKOUT, PPSOUT and FRAMEOUT run: from the start of the time base on, but not in the Fault state (R388, R390). -/
def State.outputsRun (s : State) : Bool := s.modl.running && s.refState != rsFault

/-- The frequency on CLKOUT in Hz; 0 where it is off or held low (R390). -/
def State.clkOut (s : State) : Nat :=
  let c := s.ref .TIM_OUTCTL_CLKOUT
  if !s.outputsRun then 0 else if c = 0 then 10000000 else if c = 1 then 100000000 else 0

/-- The latest edge of an output of period `period` ns and offset `offset` ns, delayed by Φ: its number and its device time in
2^-48 ns. Since the delay line last moved, an edge that was out before it does not come again, and one that the move would place
before it comes at the move (R390, R392). -/
def State.lastEdge (s : State) (offset period : Nat) (before : PhaseMove → Int × Int) : Int × Int :=
  let shift := signed 32 (s.rd .TIM_PHASE_PHI) * 2 ^ 38 + (offset : Int) * 2 ^ 48
  let p := (period : Int) * 2 ^ 48
  let n := ((s.now48 : Int) - shift) / p
  match s.timeb.phase with
  | none => (n, n * p + shift)
  | some m => if n ≤ (before m).1 then before m else (n, max (n * p + shift) m.at48)

/-- The latest edges of PPSOUT and FRAMEOUT. -/
def State.ppsEdge (s : State) : Int × Int := s.lastEdge 0 1000000000 PhaseMove.pps
def State.frameEdge (s : State) : Int × Int := s.lastEdge (s.ref .TIM_FOFFSET_NS) (s.ref .TIM_FPERIOD_NS) PhaseMove.frame

/-- PPSOUT is high: for 100 µs from each edge (R390). -/
def State.ppsOut (s : State) : Bool :=
  s.outputsRun && s.refOn .TIM_OUTCTL_PPSEN && decide (s.now48 - s.ppsEdge.2 < 100000 * 2 ^ 48)

/-- FRAMEOUT is high: for the lesser of half its period and 100 µs from each edge (R390). -/
def State.frameOut (s : State) : Bool :=
  let p := s.ref .TIM_FPERIOD_NS
  s.outputsRun && s.refOn .TIM_OUTCTL_FRMEN && decide (s.now48 - s.frameEdge.2 < min ((p : Int) * 2 ^ 47) (100000 * 2 ^ 48))

/-- The delay line moves to Φ, between edges (R392): a move less than a pulse before counts from the edges that were out
then. -/
def State.movePhase (s : State) (phi : Int) : State :=
  let m : PhaseMove := ⟨s.now48, s.ppsEdge, s.frameEdge⟩
  ({ s with timeb := { s.timeb with phase := some m } } : State).wr .TIM_PHASE_PHI 0 (code 32 phi)

/-- PHASE_STEP (R392). -/
def execPhaseStep (h : Hdr) (amount : Word) (s : State) : Host.Outcome State Fault Refusal :=
  .next (s.winos (.phaseStep (hdrPlain h) amount) h 0x0705 4 true true (fun s =>
    let a := signed 32 amount.toNat
    let phi := signed 32 (s.rd .TIM_PHASE_PHI) + a
    if 512000 < a.natAbs ∨ 2 ^ 30 < phi.natAbs then s.bad 0
    else ((s.movePhase phi).flag .TIM_EVT_PHASE).ok))

/-! ### REF_CFG (R397) -/

/-- A FRAMEOUT period within R390, and an offset within it. -/
def periodOk (n : Nat) : Bool := 100 ≤ n && n ≤ 1000000000 && 1000000000 % n == 0

/-- Offset of the first field of REF_CFG out of range. -/
def refCfgBad (p : List Byte) : Option Nat :=
  let u := fun (o n : Nat) => fieldAt p o n
  let checks : List (Bool × Nat) :=
    [(decide (u 0 1 ≤ 4), 0), (decide (u 1 1 ≤ 6), 1), (decide (u 2 1 ≤ 6), 2), (decide (u 3 1 ≤ 2), 3),
     (decide (10 ≤ u 4 2 ∧ u 4 2 ≤ 50000), 4), (decide (1 ≤ u 8 4 ∧ u 8 4 ≤ 500000), 8), (periodOk (u 12 4), 12),
     (decide (u 16 4 < u 12 4), 16)] ++
    [20, 36, 52].flatMap (fun o =>
      [(decide (u o 1 ≤ 1), o), (decide (u (o + 1) 1 ≤ 3), o + 1), (decide (10 ≤ u (o + 2) 2 ∧ u (o + 2) 2 ≤ 50000), o + 2),
       (decide (u (o + 4) 2 ≤ 3600), o + 4), (decide ((signed 32 (u (o + 8) 4)).natAbs ≤ 2 ^ 30), o + 8)])
  (checks.find? (fun c => !c.1)).map Prod.snd

/-- Registers whose fields REF_CFG sets and that are read between measurements. -/
def refPlaces : List Nat :=
  [Fld.REF_CTL_FORCE.at 0, Fld.TIM_OUTCTL_CLKOUT.at 0, Fld.TIM_FPERIOD_NS.at 0, Fld.TIM_FOFFSET_NS.at 0] ++
  [0, 1, 2].flatMap (fun r => [Fld.REF_RCFG_EN.at r, Fld.REF_RDELAY_UNITS.at r])

/-- What is in effect stays so until the next measurement (R397). -/
def State.holdRefs (s : State) : State :=
  { s with timeb := { s.timeb with
      refWas := refPlaces.map (fun o => (o, ((s.timeb.refWas.find? (fun x => x.1 == o)).map (·.2)).getD (s.word o))) } }

/-- The settings of REF_CFG replace those in the registers. -/
def State.setRefs (s : State) (p : List Byte) : State :=
  let u := fun (o n : Nat) => fieldAt p o n
  let s := s.holdRefs
  let s := ((s.wr .REF_CTL_FORCE 0 (u 0 1)).wr .REF_CTL_BW 0 (u 1 1)).wr .REF_CTL_PTPBW 0 (u 2 1)
  let s := (s.wr .TIM_OUTCTL_CLKOUT 0 (u 3 1)).wr .REF_DISAG_PPB 0 (u 4 2)
  let s := (s.put .TIM_OUTCTL_PPSEN 0 (bitOf (u 6 1) 0)).put .TIM_OUTCTL_FRMEN 0 (bitOf (u 6 1) 1)
  let s := (s.put .TIM_OUTCTL_STEER 0 (bitOf (u 6 1) 2)).wr .TIM_SLEW_PPB 0 (u 8 4)
  let s := (s.wr .TIM_FPERIOD_NS 0 (u 12 4)).wr .TIM_FOFFSET_NS 0 (u 16 4)
  forN 3 (fun s r =>
    let o := 20 + 16 * r
    let s := ((s.wr .REF_RCFG_EN r (u o 1)).wr .REF_RCFG_RANK r (u (o + 1) 1)).wr .REF_RCFG_WINDOW r (u (o + 2) 2)
    (s.wr .REF_RCFG_WTR r (u (o + 4) 2)).wr .REF_RDELAY_UNITS r (u (o + 8) 4)) s

/-- REF_CFG (R397). -/
def execRefCfg (h : Hdr) (params : List Byte) (s : State) : Host.Outcome State Fault Refusal :=
  .next (s.winos (.refCfg (hdrPlain h) params) h 0x0704 68 true true (fun s =>
    match refCfgBad params with
    | some o => s.bad o
    | none => (s.setRefs params).ok))

/-! ### PTP (R393 to R396) -/

/-- Offset of the first field of PTP_CFG out of range. -/
def ptpCfgBad (p : List Byte) : Option Nat :=
  let u := fun (o n : Nat) => fieldAt p o n
  let log := signed 8 (u 6 1)
  let vid := u 8 2 % 4096
  let checks : List (Bool × Nat) :=
    [(decide (u 0 1 ≤ 1 ∨ u 0 1 = 0xFF), 0), (u 1 1 ≤ 127, 1), (u 4 1 ≤ 1, 4), (decide (-4 ≤ log ∧ log ≤ 4), 6), (u 7 1 ≤ 63, 7),
     (!bitOf (u 8 2) 15 || decide (1 ≤ vid ∧ vid ≤ 4094), 8), (decide (u 4 1 = 1 ∨ u 20 12 = 0), 20)]
  (checks.find? (fun c => !c.1)).map Prod.snd

/-- The slave is on a port, or off (PORT code of R400); its master is to be chosen afresh, and the SLAVE state is left
(R473). -/
def State.setPtpPort (s : State) (port : Nat) : State :=
  let p := s.timeb.ptp
  let s := s.whenS (s.rd .PTP_STAT_PSTATE == 9) (·.fault srcPtp 1 0)
  let s := { s with timeb := { s.timeb with ptp := { p with rank := none, waitFollow := none, t1 := 0, t2 := 0, t3 := 0 } } }
  (s.wr .PTP_CTL_PORT 0 port).wr .PTP_STAT_PSTATE 0 (if port < 2 then 4 else 3)

/-- PTP_CFG (R396). -/
def execPtpCfg (h : Hdr) (params : List Byte) (s : State) : Host.Outcome State Fault Refusal :=
  .next (s.winos (.ptpCfg (hdrPlain h) params) h 0x0706 32 true true (fun s =>
    match ptpCfgBad params with
    | some o => s.bad o
    | none =>
      let u := fun (o n : Nat) => fieldAt params o n
      let s := s.setPtpPort (if u 0 1 = 0xFF then 3 else u 0 1)
      let s := { s with timeb := { s.timeb with ptp := { s.timeb.ptp with
        cfg := params, domain := u 1 1, major := u 2 1 % 16, minor := u 3 1, logReq := signed 8 (u 6 1) } } }
      ((s.put .PTP_CTL_TCEN 0 (bitOf (u 5 1) 0)).wr .PTP_STAT_DOMAIN 0 (u 1 1)).ok))

/-- PTP time now in 2^-16 ns (R373, R394). -/
def State.ptpNow (s : State) : Int := rhu s.now48 (2 ^ 32) + s.timeb.eps * 1000000000 * 65536

/-- The time a message carries, in 2^-16 ns. -/
def PtpTime (m : PtpMsg) : Int := ((m.sec * 1000000000 + m.ns : Nat) : Int) * 65536

/-- A figure in 2^-16 ns shown in 2^-10 ns, rounded half up (R55) and saturating (R400). -/
def unitsOf (x : Int) : Nat := code 32 (clampTo 32 (rhu x 64))

/-- offsetFromMaster of the latest Sync whose time is known (R393). -/
def State.setOffset (s : State) : State :=
  let p := s.timeb.ptp
  let v := p.t2 - p.t1 - p.syncCorr - p.mpd
  ({ s with timeb := { s.timeb with ptp := { p with ofm := v } } } : State).wr .PTP_OFM_UNITS 0 (unitsOf v)

/-- The slave's clockIdentity: the SRCMAC of PTP_CFG with 0xFF and 0xFE after its third byte; its bytes make a number, the
first the most significant (R393). -/
def PtpX.clockId (p : PtpX) : Nat :=
  let b := fun i => fieldAt p.cfg (10 + i) 1
  [b 0, b 1, b 2, 0xFF, 0xFE, b 3, b 4, b 5].foldl (fun a x => 256 * a + x) 0

/-- A master is followed from now on: its offset and path delay are to be measured afresh; a slave that leaves the SLAVE
state says so (R393, R473). -/
def State.followMaster (s : State) (rank gmid : Nat) : State :=
  let p := s.timeb.ptp
  let lost := s.rd .PTP_STAT_PSTATE == 9
  let s := { s with timeb := { s.timeb with ptp := { p with rank := some rank, waitFollow := none, t1 := 0, t2 := 0, t3 := 0 } } }
  ((s.wr64 .PTP_GMID 0 gmid).wr .PTP_STAT_PSTATE 0 8).whenS lost (·.fault srcPtp 1 0)

/-- A message of the slave's own port and domain (R393). -/
def State.ptpSlave (s : State) (m : PtpMsg) : State :=
  let p := s.timeb.ptp
  let setP := fun (s : State) (p : PtpX) => { s with timeb := { s.timeb with ptp := p } }
  let mine := m.gmid.toNat == s.rd64 .PTP_GMID && p.rank.isSome
  match m.kind with
  | .announce =>
    if mine then setP s { p with rank := some m.rank }
    else if p.rank.isNone || p.rank.any (fun r => decide (m.rank < r)) then s.followMaster m.rank m.gmid.toNat
    else s
  | .sync =>
    if !mine then s
    else
      let s := s.bump .PTP_SYNCRX_COUNT
      let t2 := s.ptpNow
      if m.twoStep then
        setP s { p with pendT2 := t2, pendCorr := m.corr, waitFollow := some m.seq.toNat, pendAt := s.clock
                        lastSync := s.clock, syncLog := m.logInterval }
      else
        (setP s { p with t1 := PtpTime m, t2 := t2, syncCorr := m.corr, waitFollow := none, syncAt := s.clock
                         lastSync := s.clock, syncLog := m.logInterval, syncPtpNs := m.sec * 1000000000 + m.ns }).setOffset
  | .followUp =>
    if !mine || p.waitFollow != some m.seq.toNat then s
    else
      (setP s { p with t1 := PtpTime m, t2 := p.pendT2, syncCorr := p.pendCorr + m.corr, waitFollow := none, syncAt := p.pendAt
                       syncPtpNs := m.sec * 1000000000 + m.ns }).setOffset
  | .delayResp =>
    if m.clock.toNat != p.clockId || m.seq.toNat != p.seq || p.rank.isNone || p.t1 == 0 then s
    else
      let d := (p.t2 - p.t3 + (PtpTime m - p.t1) - p.syncCorr - m.corr)
      let d := rhu d 2
      let s := setP s { p with logReq := m.logInterval, mpd := d }
      (((s.wr .PTP_MPD_UNITS 0 (unitsOf d)).wr .PTP_STAT_PSTATE 0 9).setLive srcPtp 0 1 false).setOffset
  | .delayReq => s
  | .peerDelay => s
  | .other => s

/-- Bytes of the frame of a Delay_Req of 44 bytes under PTP_CFG (R393, R396): tag, IPv4 or IPv6, and the two bytes that
IPv6 transport adds (PRESUMED, log 31). -/
def PtpX.reqBytes (p : PtpX) : Nat :=
  18 + (if bitOf (fieldAt p.cfg 8 2) 15 then 4 else 0) + (if fieldAt p.cfg 4 1 = 1 then 42 else 20) + 8 + 44

/-- A PTP frame of `n` bytes leaves port `q`, whose link is up (R304). -/
def State.ptpSend (s : State) (q n : Nat) (m : PtpMsg) : State := (s.bump64 .ETH_TXBYTE q n).send (.ptp (Fin.ofNat 2 q) m)

/-- One's complement sum of 16-bit words. -/
def onesSum (l : List Nat) : Nat := let t := l.sum; let t := t % 65536 + t / 65536; t % 65536 + t / 65536
/-- The 16-bit words of a correctionField. -/
def corrWords (c : Int) : List Nat := (List.range 4).map (fun i => code 64 c / 65536 ^ i % 65536)

/-- The UDP checksum of a message that goes on with correctionField `c` and is else unchanged: recomputed for IPv6, and for IPv4
where the received one is not zero (R395). A checksum that comes to 0 goes as 0xFFFF, as UDP has it. -/
def udpSumWith (m : PtpMsg) (c : Int) : BitVec 16 :=
  if !m.v6 && m.sum == 0 then 0
  else
    let x := 65535 - onesSum ((65535 - m.sum.toNat) :: ((corrWords m.corr).map (65535 - ·) ++ corrWords c))
    BitVec.ofNat 16 (if x = 0 then 65535 else x)

/-- A message goes on to port `q`, its correctionField `c`: its frame keeps its length (R395). The FCS of every frame that leaves
is its own; the message does not hold it. -/
def State.forward (s : State) (q : Nat) (m : PtpMsg) (c : Int) : State :=
  s.ptpSend q m.bytes.toNat { m with corr := c, sum := udpSumWith m c }

/-- PTP_MESSAGE (R393, R395): forwarded by the transparent clock, with its residence time, a free value (log 2) of at
most 2 µs, added to an event message; processed by the slave on its own port; or discarded and counted, as a Delay_Req is, which
asks for the master role. -/
def execPtpMessage (q : PortId) (msg : PtpMsg) (s : State) : Host.Outcome State Fault Refusal :=
  .next <|
    let isEvent := msg.kind == .sync || msg.kind == .delayReq
    let out := 1 - q.val
    let forwards := s.on .PTP_CTL_TCEN && msg.overUdp && msg.kind != .peerDelay && s.on .ETH_STAT_LINK out
    let res : Int := (s.freeVal.toNat % (2000 * 65536 + 1) : Nat)
    let s1 := if forwards && isEvent then ((s.forward out msg (msg.corr + res)).drawn).bump .PTP_TCFWD_COUNT
      else if forwards then s.forward out msg msg.corr
      else s
    let unsupported := !msg.overUdp || msg.kind == .peerDelay || msg.kind == .delayReq || msg.kind == .other
    if unsupported then (if forwards then s1 else s1.bump .PTP_DISC_COUNT)
    else
      let p := s.timeb.ptp
      if s.rd .PTP_CTL_PORT = q.val ∧ msg.domain.toNat = p.domain ∧ msg.major.toNat = p.major ∧ msg.minor.toNat = p.minor then s1.ptpSlave msg
      else s1

/-- DELAY_REQ_TIMER (R393, R394): the slave sends Delay_Req while it follows a master and its port's link is up. The UDP
checksum of the message is a free value (log 2). -/
def execDelayReqTimer (s : State) : Host.Outcome State Fault Refusal :=
  .next <|
    let p := s.timeb.ptp
    let st := s.rd .PTP_STAT_PSTATE
    let port := s.rd .PTP_CTL_PORT
    if 2 ≤ port ∨ (st ≠ 8 ∧ st ≠ 9) ∨ s.on .ETH_STAT_LINK port = false then s
    else
      let t := s.ptpNow
      let n := (p.seq + 1) % 65536
      let ns := (t / 65536).toNat
      let m : PtpMsg :=
        { kind := .delayReq, overUdp := true, domain := BitVec.ofNat 8 p.domain, major := BitVec.ofNat 4 p.major
          minor := BitVec.ofNat 8 p.minor, twoStep := false, seq := BitVec.ofNat 16 n, corr := t % 65536, sec := ns / 1000000000
          ns := ns % 1000000000, gmid := 0, rank := 0, clock := BitVec.ofNat 64 p.clockId, logInterval := 0x7F
          bytes := BitVec.ofNat 14 p.reqBytes, v6 := fieldAt p.cfg 4 1 == 1, sum := BitVec.ofNat 16 s.freeVal.toNat }
      let s := { s with timeb := { s.timeb with ptp := { p with seq := n, t3 := t } } }
      let s := s.drawn
      (s.ptpSend port p.reqBytes m).bump .PTP_DREQTX_COUNT

end Sys2Proof.Machine
end

