-- ==== Sys2Proof/Machine/Views.lean ====
section
/-! DEFINITION. Reads of the register space (R10 to R13): the registers that are views of other state, the latches of
the 64-bit pairs, and registers cleared by a read. -/

namespace Sys2Proof.Machine

/-! ### Registers that show other state -/

/-- How many of the first `n` numbers satisfy `q`. -/
def countOf (n : Nat) (q : Nat → Bool) : Nat := ((List.range n).filter q).length

/-- A bit map of `n` numbers. -/
def mapOf (n : Nat) (q : Nat → Bool) : Nat := ((List.range n).map (fun i => if q i then 2 ^ i else 0)).sum

/-- A domain of R505 is powered. -/
def State.domainOn (s : State) (d : Nat) : Bool :=
  if d = 163 then true
  else if d = 161 then !tget false s.pow.railOff d
  else if !s.modl.running || tget false s.pow.railOff d then false
  else if d < 96 then let x := s.rd .ENG_STAT_STATE d; x != egOff && x != egStandby && x != egRetired
  else if d < 102 then let x := s.rd .HBM_SSTAT_STATE (d - 96); x == 1 || x == stActive
  else if d < 126 then let x := s.lnState (d - 102); x != lnOff && x != lnRetired
  else if d < 134 then bitOf (s.rd .MOD_OPT_PRESENT) 3
  else if d = 134 then !s.modl.perst
  else if d = 138 then s.beams.slots.any (fun x => x.2.inUse)
  else if 145 ≤ d ∧ d ≤ 160 then bitOf (s.rd .SPD_STAT_ON) (d - 145)
  else true

/-- `VSN_STAT` (R159). -/
def State.vsnStat (s : State) : Nat := countOf 256 (fun n => s.rd .VSN_SSTAT_STATE n != ssFree) + 2 ^ 16 * s.flowList.length

/-- `ENG_CSTAT` (R337). -/
def State.coreStat (s : State) (e : Nat) : Nat :=
  let c := s.core e
  c.pc % 2 ^ 13 + (if c.st.kmode then 2 ^ 13 else 0) + (if c.halted then 2 ^ 14 else 0) + (if c.st.ie then 2 ^ 15 else 0) + 2 ^ 16 * c.level

/-- The counts of `ENG_GSTAT` (R223). -/
def State.engCounts (s : State) : Nat :=
  s.positions + 2 ^ 7 * countOf 96 (fun e => s.rd .ENG_STAT_STATE e == egStandby) +
    2 ^ 14 * countOf 96 (fun e => s.rd .ENG_STAT_STATE e == egRetired)

/-- `FLT_GSTAT` without OUTSIDE (R493). -/
def State.guarantee (s : State) : Nat :=
  (if s.on .LGR_STAT_RO then 1 else 0) +
  (if s.rd .HBM_GSTAT_PARITY != 0 || s.on .HBM_GSTAT_PCDEGR then 2 else 0) +
  (if s.standby.isNone then 4 else 0) +
  (if (List.range 24).all (fun l => s.lnState l != lnStandby) then 8 else 0) +
  (if s.recovering then 16 else 0)

/-- `FLT_NEXT` (R493). -/
def State.nextFault (s : State) : Nat :=
  match s.pendingCaps with
  | [] => 0
  | (k, _) :: _ => k / 4 + 2 ^ 10 * (k % 4) + 2 ^ 31

/-- What a master's `FLT_SEL` selects; class 3 shows an empty capture (R494). -/
def State.viewed (s : State) (m : Nat) : Option Capture :=
  let x := s.selOf m
  if x.2 = 3 then none else s.capture x.1 x.2

/-- `FLT_CAPINFO` (R494). -/
def capInfo (c : Capture) (cls : Nat) : Nat :=
  c.kind + 2 ^ 6 * cls + 2 ^ 8 * c.master + 2 ^ 16 * c.type + 2 ^ 20 * c.level + (if c.escalated then 2 ^ 23 else 0) +
  (if c.errn then 2 ^ 24 else 0) + (if c.live then 2 ^ 25 else 0) + (if c.pending then 2 ^ 26 else 0) + 2 ^ 31

/-- The registers of the capture view (R494), by offset from `FLT_SEL`. -/
def State.captureView (s : State) (m o : Nat) : Nat :=
  let x := s.selOf m
  let c := s.viewed m
  let of := fun (f : Capture → Nat) => (c.map f).getD 0
  if o = 0 then x.1 + 2 ^ 16 * x.2
  else if o = 4 then of (fun c => capInfo c x.2)
  else if o = 8 then of (·.count)
  else if o = 0x10 then of (fun c => c.address % 2 ^ 32)
  else if o = 0x14 then of (fun c => c.address / 2 ^ 32)
  else if o = 0x18 then of (fun c => c.dsn % 2 ^ 32)
  else if o = 0x1C then of (fun c => c.dsn / 2 ^ 32)
  else if o = 0x20 then of (fun c => c.sec % 2 ^ 32)
  else if o = 0x24 then of (fun c => c.sec / 2 ^ 32)
  else if o = 0x28 then of (·.ns)
  else if x.2 = 3 then 0 else (s.reaction x.1 x.2).byte

/-- The highest junction temperature among the engines (R524); what no measurement has raised reads 0. -/
def State.coreTemp (s : State) : Int :=
  match ((List.range 96).filter s.domainOn).map (fun e => signed 8 (s.rd .ENG_TEMP_TJ e)) with
  | [] => 0
  | t :: r => r.foldl max t

/-- The bus voltage in mV (R524): what a power-fail command measured while a warning stands, else a free value above the threshold of
R508 (log 2), and 0 while the module is off. -/
def State.busMv (s : State) : Nat :=
  if !s.modl.running then 0 else if s.frozen then s.rd .PWR_VBUS_MV else max 11400 (Config.busMv s.clock).toNat

/-- The lowest bus voltage since it was rearmed (R524). -/
def State.busMin (s : State) : Nat := if s.modl.running then min s.busMv (s.rd .PWR_VBUS_MINMV) else s.rd .PWR_VBUS_MINMV

/-- Inlet air in °C (R524): as the alarm last gave it while above 40, else a free value (log 2), and 0 while the module is off. -/
def State.inletNow (s : State) : Nat :=
  if !s.modl.running then 0
  else if 40 < signed 8 (s.rd .PWR_TEMP_INLET) then s.rd .PWR_TEMP_INLET
  else (Config.inletAir s.clock).toNat

/-- `PWR_INPUT`: its reset value while the module is off, else a free value (R524, log 2). -/
def State.inputWatts (s : State) : Nat := if s.modl.running then (Config.inputWatts (s.clock / 1000000000)).toNat else 0

/-- `OUT_STALLMS` (R301): time in output stalls, the present one included. -/
def State.stallMs (s : State) : Nat :=
  min (2 ^ 32 - 1) ((s.outp.stallNs + match s.outp.stallAt with | some t => s.clock - t | none => 0) / 1000000)

/-- What the register at offset `o` holds, as a master reads it. -/
def State.view (s : State) (m o : Nat) : Nat :=
  let w := (s.word o).toNat
  if o = 0x400004 then s.vsnStat
  else if inRegs 0x100000 0x10000 6 o then w + (if s.catching ((o - 0x100000) / 0x10000) then 16 else 0)
  else if inRegs 0x100018 0x10000 6 o then tget 0 s.hbm.near ((o - 0x100018) / 0x10000)
  else if inRegs 0x600008 0x1000 96 o then w % 2 ^ 16 + 2 ^ 16 * Config.calRail (Fin.ofNat 96 ((o - 0x600008) / 0x1000))
  else if inRegs 0x600040 0x1000 96 o then s.coreStat ((o - 0x600040) / 0x1000)
  else if o = 0x680008 then w + s.engCounts
  else if inRegs 0x680050 4 3 o then mapOf 32 (fun i => s.rd .ENG_STAT_STATE (8 * (o - 0x680050) + i) == egRetired)
  else if inRegs 0x300044 0x1000 24 o then
    let l := (o - 0x300044) / 0x1000
    if s.on .VLK_PCHK_LOCK l && !s.lockedNow l then w - 256 else w
  else if inRegs 0x300048 0x1000 24 o then s.perrNow ((o - 0x300048) / 0x1000) % 2 ^ 32
  else if inRegs 0x30004c 0x1000 24 o then s.perrNow ((o - 0x30004c) / 0x1000) / 2 ^ 32
  else if inRegs 0x300050 0x1000 24 o then s.pbitsNow ((o - 0x300050) / 0x1000) % 2 ^ 32
  else if inRegs 0x300054 0x1000 24 o then s.pbitsNow ((o - 0x300054) / 0x1000) / 2 ^ 32
  else if inRegs 0x300064 0x1000 24 o then s.rawWord ((o - 0x300064) / 0x1000) % 2 ^ 32
  else if inRegs 0x300068 0x1000 24 o then s.rawWord ((o - 0x300068) / 0x1000) / 2 ^ 32
  else if o = 0x680100 then w % 2 ^ 16 + 2 ^ 16 * s.lcs + 2 ^ 18 * mapOf 4 (fun i => !(tget [] s.modl.kernels i).isEmpty)
  else if o = 0x800000 then w + (if s.frozen then 4 else 0)
  else if o = 0x80003c then s.stallMs
  else if o = 0x30000 then s.dealer.dsn % 2 ^ 32
  else if o = 0x30004 then s.dealer.dsn / 2 ^ 32
  else if o = 0x30008 then w + 2 ^ 8 * s.dealer.longs.length
  else if o = 0x200000 then s.timeb.sec % 2 ^ 32
  else if o = 0x200004 then s.timeb.sec / 2 ^ 32
  else if o = 0x200008 then s.timeb.ns
  else if o = 0x6001c then w + ((List.range 64).map (fun b => tget 0 s.spd.cols b)).sum
  else if o = 0x7000c then (if s.on .LGR_STAT_SCANNED then s.headSlot else 0)
  else if o = 0x50000 then w + mapOf 16 (fun c => if s.dmaReserved c then s.hostReady else s.dmaBusy c)
  else if o = 0x504cc ∧ s.dmaReserved 15 then w / 8 * 8 + s.hostState
  else if o = 0x504d8 ∧ s.dmaReserved 15 then s.hostLeft
  else if o = 0x20000 then w + min 2047 s.pendingCaps.length
  else if o = 0x20008 then w + s.guarantee
  else if o = 0x2000c then s.nextFault
  else if 0x20010 ≤ o ∧ o ≤ 0x2003c then s.captureView m (o - 0x20010)
  else if o = 0x10008 then s.inputWatts
  else if o = 0x1001c then s.inletNow + 2 ^ 8 * code 8 s.coreTemp
  else if o = 0x10004 then s.busMv + 2 ^ 16 * s.busMin
  else if inRegs 0x10020 4 6 o then mapOf 32 (fun i => decide (8 * (o - 0x10020) + i < 164) && s.domainOn (8 * (o - 0x10020) + i))
  else w

/-! ### Reads (R10, R12, R13, R398, R514) -/

/-- The 64-bit pairs: place of the low word, distance, count. -/
def wideRows : List (Nat × Nat × Nat) := [
  (0x300010, 0x1000, 24), (0x300018, 0x1000, 24), (0x300020, 0x1000, 24), (0x300028, 0x1000, 24),
  (0x300048, 0x1000, 24), (0x300050, 0x1000, 24), (0x300064, 0x1000, 24), (0x402008, 0x40, 256),
  (0x500008, 0x0, 1), (0x500010, 0x0, 1), (0x500018, 0x0, 1), (0x500024, 0x0, 1),
  (0x600020, 0x1000, 96), (0x600028, 0x1000, 96), (0x680018, 0x0, 1), (0x680020, 0x0, 1),
  (0x680030, 0x0, 1), (0x680038, 0x0, 1), (0x700008, 0x0, 1), (0x700010, 0x0, 1),
  (0x700018, 0x0, 1), (0x700020, 0x0, 1), (0x700030, 0x0, 1), (0x700040, 0x0, 1),
  (0x700050, 0x0, 1), (0x710108, 0x20, 64), (0x800010, 0x0, 1), (0x800018, 0x0, 1),
  (0x800028, 0x0, 1), (0x800100, 0x40, 3), (0x800108, 0x40, 3), (0x800110, 0x40, 3),
  (0x800118, 0x40, 3), (0x800120, 0x40, 3), (0x800200, 0x0, 1), (0x800210, 0x0, 1),
  (0x810008, 0x1000, 2), (0x810010, 0x1000, 2), (0x600048, 0x1000, 96), (0x600050, 0x1000, 96),
  (0x680108, 0x0, 1), (0x30000, 0x0, 1), (0x30010, 0x0, 1), (0x30018, 0x0, 1),
  (0x901000, 0x40, 16), (0x901008, 0x40, 16), (0x200000, 0x0, 1), (0x200010, 0x0, 1),
  (0x200018, 0x0, 1), (0x200028, 0x0, 1), (0x220010, 0x0, 1), (0x70010, 0x0, 1),
  (0x40008, 0x0, 1), (0x40018, 0x0, 1), (0x40020, 0x0, 1), (0x40030, 0x0, 1),
  (0x50008, 0x0, 1), (0x50100, 0x40, 16), (0x50110, 0x40, 16), (0x20020, 0x0, 1),
  (0x20028, 0x0, 1), (0x20030, 0x0, 1)]

/-- The low word of a 64-bit pair. -/
def isLow (o : Nat) : Bool := wideRows.any (fun r => inRegs r.1 r.2.1 r.2.2 o)

/-- Key of a master's latch of an offset. -/
def latchKey (m o : Nat) : Nat := 2 ^ 28 * m + o

/-- A master's latch of an offset holds a value. -/
def State.latchAt (s : State) (m o v : Nat) : State :=
  { s with fab := { s.fab with latch := tset none s.fab.latch (latchKey m o) (some (BitVec.ofNat 32 v)) } }

/-- An RC register is cleared. -/
def State.clearRc (s : State) (o : Nat) : State :=
  match regRow o with
  | some r => if r.rc = 0 then s else s.setWord o (BitVec.ofNat 32 ((s.word o).toNat &&& (2 ^ 32 - 1 - r.rc)))
  | none => s

/-- A read of a register that exists. -/
def State.readWord (s : State) (m o : Nat) : State × Word :=
  match tget none s.fab.latch (latchKey m o) with
  | some v => (s, v)
  | none =>
    let v := s.view m o
    let s1 := if isLow o then s.latchAt m (o + 4) (s.view m (o + 4)) else s
    let s2 := if o = 0x200000 then s1.latchAt m 0x200008 (s.view m 0x200008) else s1
    let s3 := s2.whenS (inRegs 0x100018 0x10000 6 o) (fun s =>
      { s with hbm := { s.hbm with near := tset 0 s.hbm.near ((o - 0x100018) / 0x10000) 0 } })
    (s3.clearRc o, BitVec.ofNat 32 v)

/-- Register accesses of the host while a warm reset runs, until READY (R514). -/
def State.barHeld (s : State) (m : Nat) : Bool := m = 0 && (s.modl.warm || s.modl.mrst)

/-- A 32-bit read of an aligned offset by a master; none where no register stands there (R12). -/
def State.readReg (s : State) (m o : Nat) : Option (State × Word) :=
  if o % 4 ≠ 0 ∨ (regRow o).isNone then none
  else if s.barHeld m && o != 0 then some (s, 0xFFFFFFFF)
  else some (s.readWord m o)

/-- An access refused under R12. -/
def State.regRefuse (s : State) (m type o : Nat) : State := s.raise (mkFault srcFabric 1 1 (0x20000000 + o) m type)

/-- A register read as a message shows it. -/
def State.showRead (s : State) (m o : Nat) : State :=
  match s.readReg m o with
  | some (t, v) => t.send (.regRead m o v)
  | none => (s.regRefuse m 0 o).send (.access m false [])

/-- READ_CLEAR (R10, R12): a read of an RC counter. -/
def execReadClear (m : Byte) (off : Nat) (s : State) : Host.Outcome State Fault Refusal := .next (s.showRead m.toNat off)

/-- LOW_WORD_READ (R13): a read of the low word of a 64-bit pair. -/
def execLowWordRead (m : Byte) (off : Nat) (s : State) : Host.Outcome State Fault Refusal := .next (s.showRead m.toNat off)

/-- TIM_SEC_LOW_READ (R398). -/
def execTimSecLowRead (m : Byte) (s : State) : Host.Outcome State Fault Refusal := .next (s.showRead m.toNat 0x200000)

end Sys2Proof.Machine
end

