-- ==== Sys2Proof/Machine/RegWrite.lean ====
section
/-! DEFINITION. Writes of the register space (R10 to R12): the plain write by access type, the range checks and
actions of each block's registers, and the rows REGISTER_WRITE, REG_READ, REG_WRITE, PWR_MINRST_REARM. -/

namespace Sys2Proof.Machine

/-- The state a row's meaning leads to. -/
def stateOf (o : Host.Outcome State Fault Refusal) (s : State) : State := match o with | .next t => t | _ => s

/-- RW bits take the value, W1C bits written as 1 clear, nothing else changes (R10). -/
def State.plainWrite (s : State) (o v : Nat) : State :=
  match regRow o with
  | some r =>
    let w := (s.word o).toNat
    let keep := w &&& (2 ^ 32 - 1 - r.rw) &&& (2 ^ 32 - 1 - (r.w1c &&& v))
    s.setWord o (BitVec.ofNat 32 (keep ||| (v &&& r.rw)))
  | none => s

/-- A field takes a value that its range check accepts. -/
def State.wrIf (s : State) (ok : Bool) (f : Fld) (i v : Nat) : State := if ok then s.wr f i v else s

/-- A value lies from `lo` to `hi`. -/
def inRange (lo hi v : Nat) : Bool := decide (lo ≤ v) && decide (v ≤ hi)

/-- One word of a 64-bit value replaced: `high` says which. -/
def putWord (old : Nat) (high : Bool) (v : Nat) : Nat := if high then old % 2 ^ 32 + 2 ^ 32 * v else old / 2 ^ 32 * 2 ^ 32 + v

/-! ### Lanes and bundles (R103 to R111) -/

/-- `VLK_CTL` (R103, R104, R108 to R110). Every write is a write of MODE, also one of the value held: in a lane state in
which the table lists no such write it sets MODE_REJ (DEDUCED, log 42). DESIGN CHOICE (log 28): a write of a reserved
TRATE, of which the manual says no more, keeps TRATE, sets MODE_REJ and carries out the rest. -/
def State.writeVlkCtl (s : State) (l : Fin 24) (v : Nat) : State :=
  let i := l.val
  let tr := bitsOf v 2 3
  let was := s.lineOut i
  let test := s.lnState i == lnTest
  let raw := s.raw i
  let own := s.ownRaw i
  let s := (s.latchRaw i).settle i
  let s := if tr < 4 then s.wr .VLK_CTL_TRATE i tr else s.flag .VLK_EVT_MODE_REJ i
  let s := if tr < 4 && test then s.testRate i tr else s
  let s := (s.wr .VLK_CTL_LOOP i (bitsOf v 5 2)).wr .VLK_CTL_RAW i (bitsOf v 7 1)
  let s := s.laneMode i (bitsOf v 0 2)
  let s := if test && s.raw i && (!raw || (own && !s.ownRaw i)) then s.enterRaw i else s
  let s := if bitOf v 8 then stateOf (execBitslip l s) s else s
  let s := if bitOf v 9 then stateOf (execRestart l s) s else s
  (if bitOf v 10 then stateOf (execCntclr l s) s else s).showLine i was

/-- `VLK_PGEN` (R105): a pattern that does not run at the lane's rate leaves the generator stopped. -/
def State.writePgen (s : State) (l v : Nat) : State :=
  let pat := bitsOf v 0 3
  let ran := s.on .VLK_PGEN_EN l && s.rd .VLK_PGEN_PAT l == pat
  let own := s.ownRaw l
  let s := (s.latchRaw l).settle l
  let s := (s.wr .VLK_PGEN_PAT l pat).wr .VLK_PGEN_INV l (bitsOf v 3 1)
  let s := if s.patOk l pat then
      let s := s.wr .VLK_PGEN_EN l (bitsOf v 4 1)
      if bitOf v 4 && !ran then s.startGen l else s
    else (s.wr .VLK_PGEN_EN l 0).flag .VLK_EVT_MODE_REJ l
  if own && !s.ownRaw l then s.enterRaw l else s

/-- `VLK_PCHK` (R105, R106). -/
def State.writePchk (s : State) (l : Fin 24) (v : Nat) : State :=
  let i := l.val
  let pat := bitsOf v 0 3
  let s := ((s.settle i).wr .VLK_PCHK_PAT i pat).wr .VLK_PCHK_INV i (bitsOf v 3 1)
  if !s.patOk i pat then ((s.wr .VLK_PCHK_EN i 0).wr .VLK_PCHK_LOCK i 0).flag .VLK_EVT_MODE_REJ i
  else if bitOf v 4 then stateOf (execVlkPchkEn l s) s
  else (s.wr .VLK_PCHK_EN i 0).wr .VLK_PCHK_LOCK i 0

/-- `VLK_INJ` (R107): with SINGLE and BURST together the burst is made and the single error falls within it. With BLEN = 0 the
burst is refused; whether the single error goes with it the manual does not say, and here it is made (DESIGN CHOICE, log 28). -/
def State.writeInj (s : State) (l : Fin 24) (v : Nat) : State :=
  let i := l.val
  let k := bitsOf v 10 6
  let s := (s.settle i).wr .VLK_INJ_BLEN i (bitsOf v 2 8)
  let s := if inRange 10 40 k then (s.wr .VLK_INJ_RATEK i k).wr .VLK_INJ_RATE_EN i (bitsOf v 16 1) else s.flag .VLK_EVT_MODE_REJ i
  let s := if bitOf v 1 then stateOf (execBurst l (BitVec.ofNat 8 (bitsOf v 2 8)) s) s else s
  if bitOf v 0 && !(bitOf v 1 && bitsOf v 2 8 != 0) then stateOf (execSingle l s) s else s

/-- A write of a lane's register at offset `r` of its window. -/
def State.writeLane (s : State) (l : Fin 24) (r v o : Nat) : State :=
  if r = 0 then s.writeVlkCtl l v
  else if r = 0x40 then s.writePgen l.val v
  else if r = 0x44 then s.writePchk l v
  else if r = 0x58 then s.writeInj l v
  else if r = 0x70 && s.lnState l.val != lnTest then s.flag .VLK_EVT_MODE_REJ l.val
  else s.plainWrite o v

/-- A home lane of a bundle that is disabled powers off (R111). One in test mode, for which R104 lists no such exit, stays there
(DESIGN CHOICE, log 28). The bundle that it serves as a substitute, or that has announced it, goes on without it; a LANE_RESTORE
under way ends without it (DEDUCED, log 29). -/
def State.powerOffHome (s : State) (l : Nat) : State :=
  let st := s.lnState l
  if st = lnRetired ∨ st = lnTest ∨ st = lnOff then s
  else
    let s := s.loseLane l 4
    if s.lnState l = lnTest then s
    else
      let s := (s.wr .VLK_STAT_BUNDLE l 7).laneOff l lnOff
      (s.setLane l { s.lane l with homing := false }).endLongOf (fun k => k == .laneRestore l) rejState

/-- A bundle is disabled: its positions empty, under the next epoch when it had any (R94), spares that served it return, its
home lanes power off (R111). -/
def State.disableBundle (s : State) (b : Nat) : State :=
  let old := s.laneMap b
  let e := s.nextEpoch b
  let gone := old.filter (fun x => decide (x < 24))
  let s := s.setBundle b { s.bundle b with change := none, gathering := false, fixed := none, lost := false }
  let s := (forN 4 (fun s p => s.setPos b p 31) s).wr .VLK_BSTAT_MASK b 0
  let s := if gone.isEmpty then s else s.wr .VLK_BSTAT_EPOCH b e
  let s := gone.foldl (fun s x => s.leaveService x) s
  let s := forN 4 (fun s p => s.powerOffHome (4 * b + p)) s
  let s := s.bundleState b
  let s := s.setBundle b { s.bundle b with lost := false }
  gone.foldl (fun s x => if x / 4 ≠ b && (s.lane x).homing && s.lnState x == lnStandby then s.takeHome x else s) s

/-- A bundle is enabled: its home lanes in data mode climb. -/
def State.enableBundle (s : State) (b : Nat) : State :=
  forN 4 (fun s p =>
    let l := 4 * b + p
    if s.lnState l = lnOff && s.rd .VLK_CTL_MODE l == 1 then s.climbOrOff l else s) s

/-- `VLK_BCTL` (R111). -/
def State.writeBctl (s : State) (b : Fin 5) (v : Nat) : State :=
  let i := b.val
  let was := s.on .VLK_BCTL_EN i
  let s := ((s.wr .VLK_BCTL_EN i (bitsOf v 0 1)).wr .VLK_BCTL_SUBST_EN i (bitsOf v 2 1)).wr .VLK_BCTL_DEGRADE_SUBST i (bitsOf v 3 1)
  let s := if was && !bitOf v 0 then s.disableBundle i else if !was && bitOf v 0 then s.enableBundle i else s
  if bitOf v 1 then stateOf (execVlkBctlReset b s) s else s

/-! ### Engines, output and queue pairs -/

/-- `ENG_CTL` (R222). -/
def State.writeEngCtl (s : State) (e : Fin 96) (v : Nat) : State :=
  let s := if bitOf v 0 then stateOf (execEngCtlRetire e s) s else s
  if bitOf v 1 then stateOf (execEngCtlRestore e s) s else s

/-- `ENG_GCTL` (R223). -/
def State.writeEngGctl (s : State) (v : Nat) : State :=
  let s := (s.wrIf (decide (bitsOf v 0 4 ≤ 8)) .ENG_GCTL_RESERVE 0 (bitsOf v 0 4)).wr .ENG_GCTL_AUTOSUBST 0 (bitsOf v 4 1)
  if bitOf v 5 then stateOf (execEngGctlRelease s) s else s

/-- `OUT_HCTL` (R303): its own fields are written whatever EN is; EN guards the other host registers. -/
def State.writeHctl (s : State) (v : Nat) : State :=
  let s := ((s.wr .OUT_HCTL_VEC 0 (bitsOf v 1 6)).wr .OUT_HCTL_MODK 0 (bitsOf v 7 4)).wrIf (bitsOf v 11 16 != 0) .OUT_HCTL_MODUS 0 (bitsOf v 11 16)
  s.wr .OUT_HCTL_EN 0 (bitsOf v 0 1)

/-- `PCI_QCFG` (R367): every field except EN is written only while EN is 0. -/
def State.writeQcfg (s : State) (q : Fin 16) (v : Nat) : State :=
  let i := q.val
  let s := if s.on .PCI_QCFG_EN i then s
    else
      let s := s.wrIf (inRange 4 12 (bitsOf v 0 4)) .PCI_QCFG_SQLOG2 i (bitsOf v 0 4)
      let s := s.wrIf (inRange 4 12 (bitsOf v 4 4)) .PCI_QCFG_CQLOG2 i (bitsOf v 4 4)
      (s.wr .PCI_QCFG_VEC i (bitsOf v 8 6)).wr .PCI_QCFG_EVQ i (bitsOf v 14 1)
  if s.on .PCI_QCFG_EN i = bitOf v 15 then s else stateOf (execPciQcfgEn q (bitOf v 15) s) s

/-- A queue pair's register at offset `r` of its window. -/
def State.writeQueue2 (s : State) (q : Fin 16) (r v o : Nat) : State :=
  if r < 0x10 then (if s.on .PCI_QCFG_EN q.val then s else s.plainWrite o v)
  else if r = 0x10 then s.writeQcfg q v
  else if r = 0x14 then stateOf (execPciSqtail q (BitVec.ofNat 12 v) s) s
  else if r = 0x18 then stateOf (execPciCqhead q (BitVec.ofNat 12 v) s) s
  else s.plainWrite o v

/-! ### Time base and references (R376, R390, R397 to R400) -/

/-- A setting written in its register takes effect at once; only those of REF_CFG wait for a measurement (R397). -/
def State.refNow (s : State) (o : Nat) : State :=
  { s with timeb := { s.timeb with refWas := s.timeb.refWas.filter (fun x => x.1 != o),
                                   phase := if o = 0x200034 ∨ o = 0x200038 then none else s.timeb.phase } }

/-- `TIM_OUTCTL`: code 11 of CLKOUT is reserved; the steering term is 0 while STEER is (R375). -/
def State.writeOutctl (s : State) (v : Nat) : State :=
  let s := s.wrIf (bitsOf v 0 2 != 3) .TIM_OUTCTL_CLKOUT 0 (bitsOf v 0 2)
  let s := ((s.wr .TIM_OUTCTL_PPSEN 0 (bitsOf v 2 1)).wr .TIM_OUTCTL_FRMEN 0 (bitsOf v 3 1)).wr .TIM_OUTCTL_STEER 0 (bitsOf v 4 1)
  if bitOf v 4 then s else s.setSteer 0 false

/-- `REF_CTL`: reserved codes leave their field as it is. -/
def State.writeRefCtl (s : State) (v : Nat) : State :=
  let s := s.wrIf (decide (bitsOf v 0 3 ≤ 4)) .REF_CTL_FORCE 0 (bitsOf v 0 3)
  let s := s.wrIf (decide (bitsOf v 3 3 ≤ 6)) .REF_CTL_BW 0 (bitsOf v 3 3)
  s.wrIf (decide (bitsOf v 6 3 ≤ 6)) .REF_CTL_PTPBW 0 (bitsOf v 6 3)

/-- A reference's register at offset `r` of its window. -/
def State.writeRef (s : State) (r v o : Nat) : State :=
  if r = 0 then (if decide (bitsOf v 3 12 ≤ 3600) && inRange 10 50000 (bitsOf v 16 16) then s.plainWrite o v else s)
  else if r = 4 then (if decide ((signed 32 v).natAbs ≤ 2 ^ 30) then s.plainWrite o v else s)
  else s.plainWrite o v

/-- `PTP_CTL`: code 10 of PORT is reserved. -/
def State.writePtpCtl (s : State) (v : Nat) : State :=
  let s := s.wr .PTP_CTL_TCEN 0 (bitsOf v 2 1)
  let p := bitsOf v 0 2
  if p = 2 ∨ p = s.rd .PTP_CTL_PORT then s else s.setPtpPort p

/-! ### DMA channels (R455, R469) -/

/-- A DMA channel's register at offset `r` of its window. -/
def State.writeDmaChan (s : State) (c r v o : Nat) : State :=
  if s.dmaReserved c then s.flag .DMA_EVT_RSVDWR
  else if r < 8 then
    if s.dmaBusy c then s else (s.plainWrite o v).setDmac c { s.dmac c with stuck := false }
  else if r = 8 then
    let s := s.wrIf (!s.dmaBusy c) .DMA_CCTL_PRIO c (bitsOf v 1 2)
    let s := s.wr .DMA_CCTL_VEC c (bitsOf v 4 6)
    let s := if bitOf v 0 then s.dmaStart c else s
    if bitOf v 3 then s.dmaAbort c else s
  else s.plainWrite o v

/-! ### The whole register space -/

/-- `FLT_SEL` of a master (R494). -/
def State.writeSel (s : State) (m v : Nat) : State :=
  { s with flt := { s.flt with sel := tset 0 s.flt.sel m (bitsOf v 0 10 + 2 ^ 16 * bitsOf v 16 2) } }

/-- `PWR_MINRST.REARM` (R524). -/
def State.rearm (s : State) : State := s.wr .PWR_VBUS_MINMV 0 0xFFFF

/-- A write of a register of the low blocks: power, faults, fabric, DMA, scratchpad, memories, time. -/
def State.writeLow (s : State) (m o v : Nat) : State :=
  if o = 0x10038 then (if bitOf v 0 then s.rearm else s)
  else if o = 0x20040 then stateOf (execFltAck (BitVec.ofNat 32 v) s) s
  else if o = 0x20010 then s.writeSel m v
  else if o = 0x2003c then s.writeReact m v
  else if o = 0x40000 then s.writeRemap m (bitOf v 0)
  else if o = 0x40008 ∨ o = 0x4000c then s.setAperture (putWord (s.rd64 .FAB_APBASE) (o == 0x4000c) v)
  else if o = 0x40018 then (if v % 2 ^ 30 = 0 then s.plainWrite o v else s)
  else if o = 0x50004 then
    let s := s.wr .DMA_GCTL_AUTORES 0 (bitsOf v 1 1)
    if bitOf v 0 then s.dmaResume else s
  else if 0x50100 ≤ o ∧ o < 0x50500 then s.writeDmaChan ((o - 0x50100) / 0x40) ((o - 0x50100) % 0x40) v o
  else if o = 0x60004 then s.setSpdPwr (bitsOf v 0 16)
  else if o = 0x60014 then
    (s.wr .SPD_PATROL_EN 0 (bitsOf v 0 1)).wrIf (inRange 100 1000000 (bitsOf v 1 20)) .SPD_PATROL_INTERVAL 0 (bitsOf v 1 20)
  else if o = 0x180004 then s.wrIf (inRange 6 13 (bitsOf v 0 4)) .HBM_GCTL_NREXP 0 (bitsOf v 0 4)
  else if o = 0x200018 then stateOf (execTimTrimLow (BitVec.ofNat 32 v) s) s
  else if o = 0x20001c then stateOf (execTimTrimHigh (BitVec.ofNat 32 v) s) s
  else if o = 0x200020 then s.wrIf (inRange 1 500000 (bitsOf v 0 19)) .TIM_SLEW_PPB 0 (bitsOf v 0 19)
  else if o = 0x200030 then (s.refNow o).writeOutctl v
  else if o = 0x200034 then
    (s.refNow o).wrIf (periodOk (bitsOf v 0 30) && decide (s.rd .TIM_FOFFSET_NS < bitsOf v 0 30)) .TIM_FPERIOD_NS 0 (bitsOf v 0 30)
  else if o = 0x200038 then (s.refNow o).wrIf (decide (bitsOf v 0 30 < s.rd .TIM_FPERIOD_NS)) .TIM_FOFFSET_NS 0 (bitsOf v 0 30)
  else if o = 0x210004 then (s.refNow o).writeRefCtl v
  else if o = 0x210008 then s.wrIf (inRange 10 50000 (bitsOf v 0 16)) .REF_DISAG_PPB 0 (bitsOf v 0 16)
  else if 0x210100 ≤ o ∧ o < 0x2101c0 then (s.refNow o).writeRef ((o - 0x210100) % 0x40) v o
  else if o = 0x220000 then s.writePtpCtl v
  else s.plainWrite o v

/-- A write of a register of the high blocks: lanes, sessions, cut, engines, zoom, output, queue pairs. -/
def State.writeHigh (s : State) (o v : Nat) : State :=
  if 0x300000 ≤ o ∧ o < 0x318000 then s.writeLane (Fin.ofNat 24 ((o - 0x300000) / 0x1000)) (o % 0x1000) v o
  else if inRegs 0x380000 0x1000 5 o then s.writeBctl (Fin.ofNat 5 ((o - 0x380000) / 0x1000)) v
  else if o = 0x400008 then s.wrIf (inRange 10 86400 (bitsOf v 0 17)) .VSN_RETAIN_SECONDS 0 (bitsOf v 0 17)
  else if inRegs 0x402010 0x40 256 o then
    let n := Fin.ofNat 256 ((o - 0x402010) / 0x40)
    let s := if bitOf v 0 then stateOf (execVsnSctlClose n s) s else s
    if bitOf v 1 then stateOf (execVsnSctlReset n s) s else s
  else if o = 0x500000 then (if inRange 1 1000 (bitsOf v 0 11) then s.setDeadline (bitsOf v 0 11) else s)
  else if inRegs 0x600014 0x1000 96 o then s.writeEngCtl (Fin.ofNat 96 ((o - 0x600014) / 0x1000)) v
  else if o = 0x680000 then s.writeEngGctl v
  else if o = 0x680004 then s.wrIf (inRange 1400 1800 (bitsOf v 0 12)) .ENG_GOVCTL_TARGET 0 (bitsOf v 0 12)
  else if inRegs 0x711000 4 512 o then s.writeTap ((o - 0x711000) / 128) ((o - 0x711000) / 4 % 32) (v % 2 ^ 18)
  else if o = 0x800024 then stateOf (execOutRelhi (BitVec.ofNat 32 v) s) s
  else if o = 0x800200 ∨ o = 0x800204 ∨ o = 0x800210 ∨ o = 0x800214 then (if s.on .OUT_HCTL_EN then s else s.plainWrite o v)
  else if o = 0x800208 then s.wrIf (!s.on .OUT_HCTL_EN && inRange 20 32 (bitsOf v 0 6)) .OUT_HSIZE_LOG2 0 (bitsOf v 0 6)
  else if o = 0x80020c then s.writeHctl v
  else if o = 0x80021c then stateOf (execOutHrd (BitVec.ofNat 32 v) s) s
  else if 0x901000 ≤ o ∧ o < 0x901400 then s.writeQueue2 (Fin.ofNat 16 ((o - 0x901000) / 0x40)) (o % 0x40) v o
  else s.plainWrite o v

/-- A 32-bit write of an aligned offset by a master; none where it is refused: no register stands there (R12), or a
bank's ownership is not this master's to give (R419). The state is the one after the refusal. -/
def State.writeReg (s : State) (m o : Nat) (v : Word) : State × Bool :=
  if o % 4 ≠ 0 ∨ (regRow o).isNone then (s.regRefuse m 1 o, false)
  else if s.barHeld m then (s, true)
  else if inRegs 0x60100 4 64 o then s.setOwner m ((o - 0x60100) / 4) (v.toNat % 256)
  else if o < 0x300000 then (s.writeLow m o v.toNat, true)
  else (s.writeHigh o v.toNat, true)

/-- REGISTER_WRITE (R10, R12): a write of `size` bytes; any other size than 4 is refused. -/
def execRegisterWrite (m : Byte) (off : Nat) (size : Nat) (v : Word) (s : State) : Host.Outcome State Fault Refusal :=
  .next <|
    if size ≠ 4 then (s.regRefuse m.toNat 1 off).send (.access m.toNat false [])
    else
      let r := s.writeReg m.toNat off v
      r.1.send (.access m.toNat r.2 [])

/-- PWR_MINRST_REARM (R524). -/
def execPwrMinrstRearm (s : State) : Host.Outcome State Fault Refusal := .next s.rearm

/-! ### REG_READ and REG_WRITE (R354): the management core makes the accesses (log 43) -/

/-- Register offset of an address: a fabric address of the register space, or an offset within it. -/
def regOffset (a : Nat) : Nat := if 0x20000000 ≤ a then a - 0x20000000 else a

/-- Consecutive registers read by the management core; the offset of the first that cannot be, where there is one. -/
def State.readRegs (s : State) (o : Nat) : Nat → State × List Nat × Option Nat
  | 0 => (s, [], none)
  | n + 1 =>
    match s.readReg 1 o with
    | none => (s, [], some o)
    | some (t, v) =>
      let r := t.readRegs (o + 4) n
      (r.1, v.toNat :: r.2.1, r.2.2)

/-- REG_READ (R12, R13, R354). Where a register after the first cannot be read, on which the manual is silent, the answer is
ERR_INTERNAL with EFFECT 0, and the RC clears and the latches of the registers already read are undone (DESIGN CHOICE,
log 33). -/
def execRegRead (h : Hdr) (addr : Word) (count : BitVec 16) (s : State) : Host.Outcome State Fault Refusal :=
  .next (s.winos (.regRead (hdrPlain h) addr count) h 0x0B01 6 true true (fun s =>
    if count.toNat = 0 ∨ 64 < count.toNat then s.bad 4
    else
      let r := s.readRegs (regOffset addr.toNat) count.toNat
      match r.2.2 with
      | some o => (s.regRefuse 1 0 o).internal 0 srcFabric 1
      | none => r.1.ok (r.2.1.map (fun v => (4, v)))))

/-- REG_WRITE (R12, R352, R354). -/
def execRegWrite (h : Hdr) (addr : Word) (value : Word) (s : State) : Host.Outcome State Fault Refusal :=
  .next (s.winos (.regWrite (hdrPlain h) addr value) h 0x0B02 8 (hdrLocal h || s.lcs != 2) true (fun s =>
    let r := s.writeReg 1 (regOffset addr.toNat) value
    if r.2 then r.1.ok else r.1.internal 0 srcFabric 1))

end Sys2Proof.Machine
end

