-- ==== Sys2Proof/Machine/Fabric.lean ====
section
/-! DEFINITION. Fabric accesses (R443 to R454): the regions of the address map and who reaches them, the scratchpad
and the secure bank (R417 to R425), engine windows (R306, R307), the ledger window (R436), HBM and the aperture
(R230, R402, R415, R446), the outbound window (R447), locked sequences (R453) and accesses that wait (R413, R422,
R452). -/

namespace Sys2Proof.Machine

/-! ### What an access gives -/

/-- State after an access, whether it was served, the data it returns, and a collision response (R421). -/
structure Served where
  st : State
  ok : Bool := true
  data : List Byte := []
  collide : Bool := false

/-- Access types of R445. -/
def tyRead : Nat := 0
def tyWrite : Nat := 1
def tyAdd : Nat := 2
def tySwap : Nat := 3
def tyFetch : Nat := 4
def tyDesc : Nat := 5
def tyLockRead : Nat := 6
def tyLockWrite : Nat := 7

def isWrite (ty : Nat) : Bool := ty == tyWrite || ty == tyLockWrite
def isAtomic (ty : Nat) : Bool := ty == tyAdd || ty == tySwap

/-- A master that R445 names. -/
def masterOk (m : Nat) : Bool := decide (m ≤ 4) || (decide (0x10 ≤ m) && decide (m ≤ 0x6F))

/-- The debug master is disabled in SEALED (R501, R520). -/
def State.debugOn (s : State) : Bool := s.lcs != 2

/-- An access lies wholly in a region. -/
def inRegion (a : Access) (base size : Nat) : Bool := decide (base ≤ a.addr.toNat) && decide (a.addr.toNat + a.size ≤ base + size)

/-- An access refused under R444. -/
def State.unmapped (s : State) (a : Access) (ty : Nat) : Served := { st := s.fabRefuse a.master.toNat ty a.addr.toNat, ok := false }

/-- An access refused with a fault of its target. -/
def State.refusedBy (s : State) (a : Access) (ty source kind : Nat) : Served :=
  { st := s.raise (mkFault source kind 1 a.addr.toNat a.master.toNat ty), ok := false }

/-! ### The scratchpad (R417 to R423) -/

/-- Banks of `n` bytes at offset `o`. -/
def banksOf (o n : Nat) : List Nat := if n = 0 then [] else (List.range ((o + n - 1) / 8 - o / 8 + 1)).map (fun i => (o / 8 + i) % 64)

/-- A bank serves a master's access on its port (R418, R419, R422). -/
def State.bankServes (s : State) (a : Access) (b : Nat) : Bool :=
  let m := a.master.toNat
  s.ownerOf b == m && m != 0xFF && bitOf (s.rd .SPD_STAT_ON) (b / 4) && (!a.portB || m == 2 || decide (0x10 ≤ m))

/-- A collision response (R421). -/
def State.collided (s : State) : Served := { st := (s.bump .SPD_COLL_COUNT).flag .SPD_EVT_COLLIDE, ok := false, collide := true }

/-- The scratchpad bytes at an offset become `l`; a word written whole is good again (R417). -/
def State.spdPut (s : State) (o : Nat) (l : List Byte) : State :=
  { s with spd := { s.spd with mem := tsetMany 0 s.spd.mem o l
                               bad := s.spd.bad.filter (fun c => !(decide (o ≤ 8 * c.1) && decide (8 * c.1 + 8 ≤ o + l.length))) } }

/-- Port A writes words in the cycle of a port B write (R421). -/
def State.spdHit (s : State) (o n : Nat) : State := { s with spd := { s.spd with hits := s.spd.hits ++ spdWords o n } }

/-- An access to `o` within the scratchpad; one that a bank of it refuses has no effect in any bank (log 44). -/
def State.spdAccess (s : State) (a : Access) (ty o : Nat) (data : List Byte) : Served :=
  match (banksOf o a.size).find? (fun b => !s.bankServes a b) with
  | some b => { st := s.notOwner b a.master.toNat ty a.addr.toNat, ok := false }
  | none =>
    let old := tgetMany 0 s.spd.mem o a.size
    let s := s.whenS (!a.portB && a.contended && (isWrite ty || isAtomic ty)) (·.spdHit o a.size)
    if isAtomic ty && (o % 8 != 0 || a.size != 8) then { st := s, ok := false }
    else if (s.badWord o a.size (isWrite ty)).isSome then
      (s.flag .SPD_EVT_UE).refusedBy a ty (srcBank (bankOf (8 * (s.badWord o a.size (isWrite ty)).getD 0))) 2
    else if isAtomic ty then
      if a.portB && a.contended then s.collided
      else
        let v := if ty = tyAdd then leBytes 8 (leVal old + leVal data) else padTo 8 data
        { st := s.spdPut o v, data := old }
    else if isWrite ty then
      if a.portB && a.contended then s.collided else { st := s.spdPut o (padTo a.size data) }
    else { st := s, data := old }

/-! ### The secure bank (R425) -/

/-- `n` free bytes (log 9). -/
def State.freeBytes (s : State) (n : Nat) : List Byte := (List.range n).map (fun i => BitVec.ofNat 8 (s.freeNat i 8))

/-- Bytes kept where they were written; elsewhere their layout is unpublished and they read free (log 9). -/
def State.keptBytes (s : State) (t : Tbl (Option Byte)) (o n : Nat) : List Byte :=
  List.zipWith (fun w f => w.getD f) (tgetMany none t o n) (s.freeBytes n)

/-- Bytes of the secure bank (R425): after a verified wipe zero, but where a key stands (R426). -/
def State.secureBytes (s : State) (o n : Nat) : List Byte :=
  ((s.keptBytes s.sec.mem o n).zip (List.range n)).map (fun x =>
    if s.sec.wiped && (tget none s.sec.mem (o + x.2)).isNone && !Config.keyPlace (o + x.2) then 0 else x.1)

def State.secureAccess (s : State) (a : Access) (ty o : Nat) (data : List Byte) : Served :=
  if a.master.toNat ≠ 1 ∨ !a.secure ∨ isAtomic ty then s.refusedBy a ty srcSecure 1
  else if isWrite ty then { st := { s with sec := { s.sec with mem := tsetMany none s.sec.mem o ((padTo a.size data).map some) } } }
  else { st := s.drawn, data := s.secureBytes o a.size }

/-! ### The boot window (R449) -/

def State.bootAccess (s : State) (a : Access) (ty : Nat) (data : List Byte) : Served :=
  let o := a.addr.toNat
  if s.on .FAB_CTL_REMAP then s.spdAccess a ty o data
  else if isWrite ty || isAtomic ty then s.unmapped a ty
  else { st := s, data := (List.range a.size).map (fun i => Config.bootRom (o + i)) }

/-! ### Register space (R12) -/

def State.regAccess (s : State) (a : Access) (ty o : Nat) (data : List Byte) : Served :=
  let m := a.master.toNat
  if a.size ≠ 4 ∨ isAtomic ty then { st := s.regRefuse m ty o, ok := false }
  else if isWrite ty then
    let r := s.writeReg m o (BitVec.ofNat 32 (leVal data))
    { st := r.1, ok := r.2 }
  else
    match s.readReg m o with
    | some (t, v) => { st := t, data := leBytes 4 v.toNat }
    | none => { st := s.regRefuse m ty o, ok := false }

/-! ### Engine windows (R306, R307) -/

/-- Base and size of the regions of a window, in order (R306). -/
def windowRegions : List (Nat × Nat) :=
  [(0, 0x10000), (0x20000, 0x20000), (0x40000, 0x20000), (0x80000, 704512), (0x140000, 1187840), (0x280000, 1187840)]

/-- The region an access within a window lies in. -/
def windowRegion (o n : Nat) : Option Nat := (List.range 6).find? (fun i =>
  let r := windowRegions.getD i (0, 0)
  decide (r.1 ≤ o) && decide (o + n ≤ r.1 + r.2))

/-- Bytes of a memory of words. -/
def wordBytes (t : Tbl Word) (o n : Nat) : List Byte :=
  (List.range n).map (fun i => BitVec.ofNat 8 ((tget 0 t ((o + i) / 4)).toNat / 256 ^ ((o + i) % 4)))

/-- A byte of a memory of words is written. -/
def putByte (t : Tbl Word) (o : Nat) (b : Byte) : Tbl Word :=
  let w := (tget 0 t (o / 4)).toNat
  let k := 256 ^ (o % 4)
  tset 0 t (o / 4) (BitVec.ofNat 32 (w - w / k % 256 * k + b.toNat * k))

/-- Consecutive bytes of a memory of words are written. -/
def putBytes (t : Tbl Word) (o : Nat) : List Byte → Tbl Word
  | [] => t
  | b :: r => putBytes (putByte t o b) (o + 1) r

/-- The hand unit and cell (64 row + column) whose short accumulator holds byte `o` of bank `b` of an engine (R189): slot
i is the i-th unit its position touches, a cell 10 bytes (log 9). -/
def State.bankCell (s : State) (e b o : Nat) : Option (Nat × Nat) :=
  match (s.eng e).bank b with
  | none => none
  | some (t, ch) => (s.planAt t).bind (fun p =>
    let pos := s.rd .ENG_STAT_POSITION e
    let u := (stretch p t ch pos).1 / pR p.data + o / 40960
    if o / 40960 < unitsTouched p t ch pos && (match unitKind p.data u with | .hand _ _ => true | .beam _ _ => false) then
      some (u, o % 40960 / 10)
    else none)

/-- The ten bytes of a cell: RE, IM, pair count (R189). -/
def ShortCell.bytes (c : ShortCell) : List Byte := leBytes 4 (code 32 c.re) ++ leBytes 4 (code 32 c.im) ++ leBytes 2 c.count
def shortCellOf (l : List Byte) : ShortCell := ⟨signed 32 (fieldAt l 0 4), signed 32 (fieldAt l 4 4), fieldAt l 8 2⟩

/-- Byte `o` of a bank; none where no cell lies. -/
def State.bankByte (s : State) (e b o : Nat) : Option Byte :=
  (s.bankCell e b o).map (fun uc => (tget {} (s.eng e).short (cellKey b uc.1 uc.2)).bytes.getD (o % 40960 % 10) 0)

/-- A byte of a bank is written. -/
def State.putBank (s : State) (e b o : Nat) (v : Byte) : State :=
  match s.bankCell e b o with
  | none => s
  | some uc =>
    let x := s.eng e
    let k := cellKey b uc.1 uc.2
    s.setEng e { x with short := tset {} x.short k (shortCellOf ((tget {} x.short k).bytes.set (o % 40960 % 10) v)) }

/-- The bytes of a block: its 64 valid bits, then its samples (R181). -/
def Block.bytes (k : Block) : List Byte := leBytes 8 k.valid ++ k.data
def Block.put (k : Block) (i : Nat) (v : Byte) : Block :=
  let l := k.bytes.set i v
  { k with valid := fieldAt l 0 8, data := l.drop 8 }

/-- Byte `o` of an input buffer: its blocks stand one after another (R186; log 9). -/
def bufByte : List Block → Nat → Option Byte
  | [], _ => none
  | k :: r, o => if o < k.bytes.length then k.bytes[o]? else bufByte r (o - k.bytes.length)

/-- A byte of an input buffer is written. -/
def putBuf : List Block → Nat → Byte → List Block
  | [], _, _ => []
  | k :: r, o, v => if o < k.bytes.length then k.put o v :: r else k :: putBuf r (o - k.bytes.length) v

/-- A byte of the input buffer (region 3) or a bank, as a window address `w` shows it. -/
def State.winByte (s : State) (e region w : Nat) : Option Byte :=
  if region = 3 then bufByte (s.eng e).blocks (w - 0x80000)
  else s.bankByte e (region - 4) (w - (windowRegions.getD region (0, 0)).1)

/-- A byte is written there: also kept, for the places that nothing of the engine's own fills. -/
def State.putWin (s : State) (e region w : Nat) (v : Byte) : State :=
  let x := s.eng e
  let s := s.setEng e { x with win := tset none x.win w (some v)
                               blocks := if region = 3 then putBuf x.blocks (w - 0x80000) v else x.blocks }
  if region = 3 then s else s.putBank e (region - 4) (w - (windowRegions.getD region (0, 0)).1) v

/-- A write through an engine window that R307 refuses. -/
def State.windowBars (s : State) (e m region o n : Nat) : Bool :=
  let st := s.rd .ENG_STAT_STATE e
  if region = 0 then
    m != 1 || st == egRetired ||
      (decide (o < 0x8000) && st != egOff && st != egSelftest && st != egLoading) ||
      (decide (0x8000 < o + n) && (s.core e).fw.isSome)
  else if region ≤ 2 then s.lcs != 1 && m != 1
  else !(m == 1 || decide (0x10 ≤ m))

/-- The write itself. -/
def State.windowPut (s : State) (e region o : Nat) (l : List Byte) : State :=
  let x := s.eng e
  let c := x.core
  if region = 0 then s.setCore e { c with prog := tsetMany 0 c.prog o l }
  else if region = 1 then s.setCore e { c with x := putBytes c.x o l }
  else if region = 2 then s.setCore e { c with y := putBytes c.y o l }
  else (List.zip (List.range l.length) l).foldl (fun s iv => s.putWin e region (o + iv.1) iv.2) s

def State.windowAccess (s : State) (a : Access) (ty o : Nat) (data : List Byte) : Served :=
  let e := o / 0x400000
  let w := o % 0x400000
  match windowRegion w a.size with
  | none => s.unmapped a ty
  | some r =>
    let off := w - (windowRegions.getD r (0, 0)).1
    let at_ := if r < 3 then off else w
    if isAtomic ty then s.unmapped a ty
    else if isWrite ty then
      if s.windowBars e a.master.toNat r off a.size then (s.flag .ENG_KEVT_SANDBOXWR).refusedBy a ty e 9
      else { st := s.windowPut e r at_ (padTo a.size data) }
    else
      let c := s.core e
      if r = 0 then { st := s, data := tgetMany 0 c.prog at_ a.size }
      else if r = 1 then { st := s, data := wordBytes c.x at_ a.size }
      else if r = 2 then { st := s, data := wordBytes c.y at_ a.size }
      else
        let kept := s.keptBytes (s.eng e).win at_ a.size
        { st := s.drawn, data := (List.zip (List.range a.size) kept).map (fun ib => (s.winByte e r (at_ + ib.1)).getD ib.2) }

/-! ### The ledger window (R436) -/

def State.ledgerAccess (s : State) (a : Access) (ty o : Nat) : Served :=
  let m := a.master.toNat
  if isWrite ty || isAtomic ty then s.refusedBy a ty srcLedger 4
  else if m = 0 ∨ m = 1 ∨ m = 3 then { st := s, data := tgetMany 0 s.ledger.mem o a.size }
  else s.unmapped a ty

/-! ### HBM (R230, R402, R415, R446) -/

/-- `n` bytes at offset `o` touch one of the regions (base, size). -/
def touches (o n : Nat) (l : List (Nat × Nat)) : Bool := l.any (fun r => decide (o < r.1 + r.2) && decide (r.1 < o + n))

/-- A write touches a weight set (R230, R231). -/
def State.touchesWeights (s : State) (o n : Nat) : Bool :=
  (s.on .BMF_STAT_TALLOC && touches o n [(s.tableBase 0, s.tableRoom * 2 ^ 20), (s.tableBase 1, s.tableRoom * 2 ^ 20)]) ||
  (s.on .BMF_STAT_PALLOC && touches o n [(s.polyBase 0, polySize), (s.polyBase 1, polySize)])

/-- Reads lie in a statistics bank of a plan (R280). -/
def State.inStats (s : State) (o n : Nat) : Bool :=
  (s.plans.active.toList ++ s.plans.outgoing.toList).any (fun p =>
    [p.stat0, p.stat1].any (fun b => decide (b ≤ o) && decide (o + n ≤ b + 64 * pNg p.data * pN p.data * 32)))

/-- Statistics entries with SAT set: bit 31 of the word at byte 16 of each entry (R276, R415). -/
def withSat (o : Nat) (l : List Byte) : List Byte :=
  (List.range l.length).map (fun i => let b := l.getD i 0; if (o + i) % 32 = 19 then b ||| 0x80 else b)

/-- Source of the fault of a poisoned line that a fabric master reads (log 45). -/
def linePc (o : Nat) : Nat := let L := o / 1024; srcPc (L % 6) (L / 6 % 32)

def State.hbmAccess (s : State) (a : Access) (ty o : Nat) (data : List Byte) : Served :=
  let m := a.master.toNat
  if isAtomic ty then s.unmapped a ty
  else if isWrite ty then
    if s.touchesWeights o a.size then (s.flag .BMF_EVT_APERT).refusedBy a ty srcBeams 4
    else { st := s.hbmWrite o (padTo a.size data) }
  else
    let l := s.hbmRead o a.size
    let s := s.linesRead o a.size
    if !s.hbmPoisoned o a.size then { st := s, data := l }
    else if m = 0 && s.inStats o a.size then { st := s.fault srcOutput 4 1, data := withSat o l }
    else s.refusedBy a ty (linePc o) 5

/-! ### The outbound window (R447, R452) -/

def State.outAccess (s : State) (a : Access) (ty o : Nat) (data : List Byte) : Served :=
  let m := a.master.toNat
  let h := s.rd64 .FAB_OBBASE + o
  if m = 0 ∨ isAtomic ty then s.unmapped a ty
  else if !s.modl.pciUp then { st := s.hostTimeout m ty a.addr.toNat, ok := false }
  else if isWrite ty then { st := s.hostWrite h (padTo a.size data) }
  else { st := s, data := s.hostRead h a.size }

/-! ### The address map (R443, R444) -/

/-- An access is routed to its region and served or refused. -/
def State.bus (s : State) (a : Access) (ty : Nat) (data : List Byte) : Served :=
  let x := a.addr.toNat
  let m := a.master.toNat
  if !masterOk m || (m == 3 && !s.debugOn) then s.unmapped a ty
  else if inRegion a 0 0x100000 then (if m = 1 ∨ m = 3 then s.bootAccess a ty data else s.unmapped a ty)
  else if inRegion a spdBase spdSize then s.spdAccess a ty (x - spdBase) data
  else if inRegion a 0x12000000 0x100000 then s.secureAccess a ty (x - 0x12000000) data
  else if inRegion a 0x20000000 0x10000000 then s.regAccess a ty (x - 0x20000000) data
  else if inRegion a 0x40000000 (96 * 0x400000) then s.windowAccess a ty (x - 0x40000000) data
  else if inRegion a 0x60000000 0x1000000 then s.ledgerAccess a ty (x - 0x60000000)
  else if inRegion a hbmBase hbmSize then s.hbmAccess a ty (x - hbmBase) data
  else if inRegion a 0x8000000000 (2 ^ 39) then s.outAccess a ty (x - 0x8000000000) data
  else s.unmapped a ty

/-- A host request for HBM outside the aperture as it stands when the request arrives (R446). -/
def State.apertureMiss (s : State) (a : Access) : Bool :=
  let o := a.addr.toNat - hbmBase
  let ap := s.rd64 .FAB_APBASE
  a.master == 0 && inRegion a hbmBase hbmSize && !(decide (ap ≤ o) && decide (o + a.size ≤ ap + 2 ^ s.rd .FAB_APSIZE_LOG2))

/-- Some region of the address map holds the access (R443). -/
def mapped (a : Access) : Bool :=
  [(0, 0x100000), (spdBase, spdSize), (0x12000000, 0x100000), (0x20000000, 0x10000000), (0x40000000, 96 * 0x400000),
   (0x60000000, 0x1000000), (hbmBase, hbmSize), (0x8000000000, 2 ^ 39)].any (fun r => inRegion a r.1 r.2)

/-! ### Accesses that wait (R413, R422, R452, R453) -/

/-- Targets that a lock may hold: scratchpad banks 0 to 63, engine windows 64 + k, pseudo-channels 256 + p. -/
def State.targetsOf (s : State) (a : Access) : List Nat :=
  let x := a.addr.toNat
  if inRegion a spdBase spdSize then banksOf (x - spdBase) a.size
  else if s.on .FAB_CTL_REMAP && inRegion a 0 0x100000 then banksOf x a.size
  else if inRegion a 0x40000000 (96 * 0x400000) then [64 + (x - 0x40000000) / 0x400000]
  else if inRegion a hbmBase hbmSize then (linesOf (x - hbmBase) a.size).map (fun L => 256 + L / 6 % 32)
  else []

/-- A target is locked by another master. -/
def State.lockedByOther (s : State) (m t : Nat) : Bool := s.fab.locks.any (fun l => l.target == t && l.master != m)

/-- Two accesses touch a granule, an aligned 64-byte block (R452). -/
def sameGranule (a b : Access) : Bool :=
  decide (a.addr.toNat / 64 ≤ (b.addr.toNat + b.size - 1) / 64) && decide (b.addr.toNat / 64 ≤ (a.addr.toNat + a.size - 1) / 64)

/-- An access changes what it reaches. -/
def changes (ty : Nat) : Bool := isWrite ty || isAtomic ty

/-- An earlier access of the same master that still waits holds this one back: they share a granule, and one of them writes (R452). -/
def State.behindOwn (s : State) (a : Access) (ty : Nat) : Bool :=
  s.fab.held.any (fun h => h.acc.master == a.master && sameGranule h.acc a && (changes ty || changes h.type))

/-- An access that waits: its target is locked by another master, its bank is being zeroed, HBM is in self-refresh, from its entry
until the exit of the same warm reset (R413), or it comes behind an access of its own master (R452). -/
def State.waits (s : State) (a : Access) (ty : Nat) : Bool :=
  s.behindOwn a ty || (s.targetsOf a).any (fun t => s.lockedByOther a.master.toNat t ||
    (decide (t < 64) && bitOf (s.rd .SPD_STAT_CLEARING) (t / 4)) || (decide (256 ≤ t) && s.inReset))

/-- An access joins those that wait. -/
def State.hold (s : State) (a : Access) (ty : Nat) (data : List Byte) (last : Bool) : State :=
  { s with fab := { s.fab with held := s.fab.held ++ [{ acc := a, type := ty, data := data, last := last }] } }

/-- The answer of an access goes to its master: data, an error response or a collision response (R421). -/
def Served.answer (r : Served) (a : Access) : State :=
  r.st.send (if r.collide then .collision a.master.toNat else .access a.master.toNat r.ok r.data)

/-! ### Locked sequences (R453) -/

/-- Masters that may lock. -/
def mayLock (m : Nat) : Bool := m == 1 || m == 3 || (decide (0x10 ≤ m) && decide (m ≤ 0x6F))

/-- The lock a master holds. -/
def State.lockOf (s : State) (m : Nat) : Option Lock := s.fab.locks.find? (fun l => l.master == m)

/-- A master's lock becomes `x`, none released. -/
def State.setLock (s : State) (m : Nat) (x : Option Lock) : State :=
  { s with fab := { s.fab with locks := s.fab.locks.filter (fun l => l.master != m) ++ x.toList } }

/-- A locked sequence is broken (R453, R473). -/
def State.breakLock (s : State) (m ty addr : Nat) : State :=
  ((s.setLock m none).flag .FAB_EVT_LOCKBRK).raise (mkFault srcFabric 3 1 addr m ty)

/-- An access refused with an error response alone. -/
def State.errorOnly (s : State) : Served := { st := s, ok := false }

/-- A locked access that does not wait: the first of a sequence takes the lock of its target; the sequence ends with
its last access, and is broken by a fifth. -/
def State.lockedAccess (s : State) (a : Access) (ty : Nat) (data : List Byte) (last : Bool) : Served :=
  let m := a.master.toNat
  let ts := s.targetsOf a
  if !mayLock m then s.unmapped a ty
  else if s.fab.broken.contains m then
    ({ s with fab := { s.fab with broken := s.fab.broken.filter (· != m) } }).errorOnly
  else match s.lockOf m with
    | some l =>
      if 4 ≤ l.count then (s.breakLock m ty a.addr.toNat).errorOnly
      else
        let s := s.setLock m (if last then none else some { l with count := l.count + 1 })
        if ts.all (· == l.target) && !ts.isEmpty then s.bus a ty data else s.errorOnly
    | none =>
      match ts with
      | [] => if mapped a then s.errorOnly else s.unmapped a ty
      | t :: r =>
        if r.any (· != t) then s.errorOnly
        else
          let x := s.bus a ty data
          if x.ok && !last then { x with st := x.st.setLock m (some ⟨m, t, 1⟩) } else x

/-- An access is served, or waits. -/
def State.serve (s : State) (a : Access) (ty : Nat) (data : List Byte) (last : Bool) : State :=
  if s.waits a ty then s.hold a ty data last
  else if ty = tyLockRead ∨ ty = tyLockWrite then (s.lockedAccess a ty data last).answer a
  else (s.bus a ty data).answer a

/-- An access that held back is taken again; a write-back of the DMA engine that fails is a bus error (R461). -/
def State.serveOne (s : State) (h : HeldAccess) : State :=
  if !h.dma then s.serve h.acc h.type h.data h.last
  else if s.waits h.acc h.type then { s with fab := { s.fab with held := s.fab.held ++ [h] } }
  else
    let r := s.bus h.acc h.type h.data
    if r.ok then r.st else r.st.busError h.acc.addr.toNat h.type r.collide

/-- The accesses that waited are taken again, oldest first; those that still wait stay. -/
def State.serveHeld (s : State) : State :=
  s.fab.held.foldl (fun s h => s.serveOne h) { s with fab := { s.fab with held := [] } }

/-- An access arrives: the host's is judged by the aperture as it stands now (R446). -/
def State.access (s : State) (a : Access) (ty : Nat) (data : List Byte) (last : Bool) : State :=
  if a.size = 0 then s
  else if s.apertureMiss a then (s.unmapped a ty).answer a
  else s.serve a ty data last

/-! ### The host's windows (R446) -/

/-- The fabric address that an access of `n` bytes at offset `o` of a window reaches; none where the window shows nothing. -/
def State.barAddr (s : State) (w : Bar) (o n : Nat) : Option Nat :=
  match w with
  | .bar0 => if o + n ≤ 0x10000000 then some (0x20000000 + o) else none
  | .bar2 =>
    if o + n ≤ spdSize then some (spdBase + o)
    else if 0x2000000 ≤ o ∧ o + n ≤ 0x2100000 then some (0x12000000 + (o - 0x2000000))
    else if 0x3000000 ≤ o ∧ o + n ≤ 0x4000000 then some (0x60000000 + (o - 0x3000000))
    else none
  | .bar4 => if o + n ≤ 2 ^ s.rd .FAB_APSIZE_LOG2 then some (hbmBase + s.rd64 .FAB_APBASE + o) else none

/-- An access as it reaches the fabric: the host's through a window at the address it shows. An offset that shows nothing is
refused; the manual gives it no fabric address, so that the capture holds a free value (R444, R446; log 2). -/
def State.request (s : State) (a : Access) (ty : Nat) (data : List Byte) (last : Bool) : State :=
  match a.bar with
  | none => s.access a ty data last
  | some w =>
    match s.barAddr w a.addr.toNat a.size with
    | some x => s.access { a with master := 0, addr := BitVec.ofNat 40 x, bar := none } ty data last
    | none =>
      let b := { a with master := 0, addr := BitVec.ofNat 40 (s.freeNat 0 40), bar := none }
      if a.size = 0 then s else (s.drawn.unmapped b ty).answer b

/-- FABRIC_READ (R443 to R452). -/
def execFabricRead (a : Access) (s : State) : Host.Outcome State Fault Refusal :=
  .next (s.request a (if a.fetch then tyFetch else tyRead) [] false)

/-- FABRIC_WRITE (R402, R443 to R452). -/
def execFabricWrite (a : Access) (data : List Byte) (s : State) : Host.Outcome State Fault Refusal :=
  .next (s.request a tyWrite data false)

/-- ATOMIC_ADD (R420). -/
def execAtomicAdd (a : Access) (v : BitVec 64) (s : State) : Host.Outcome State Fault Refusal :=
  .next (s.request a tyAdd (leBytes 8 v.toNat) false)

/-- ATOMIC_SWAP (R420). -/
def execAtomicSwap (a : Access) (v : BitVec 64) (s : State) : Host.Outcome State Fault Refusal :=
  .next (s.request a tySwap (leBytes 8 v.toNat) false)

/-- LOCKED_READ (R453). -/
def execLockedRead (a : Access) (last : Bool) (s : State) : Host.Outcome State Fault Refusal :=
  .next (s.request a tyLockRead [] last).serveHeld

/-- LOCKED_WRITE (R453). -/
def execLockedWrite (a : Access) (data : List Byte) (last : Bool) (s : State) : Host.Outcome State Fault Refusal :=
  .next (s.request a tyLockWrite data last).serveHeld

/-- LOCK_TIMEOUT (R453): 2 µs have passed; the next locked access of the sequence receives an error response. -/
def execLockTimeout (m : Byte) (s : State) : Host.Outcome State Fault Refusal :=
  .next <|
    match s.lockOf m.toNat with
    | none => s
    | some _ =>
      let s := s.breakLock m.toNat tyLockRead 0
      ({ s with fab := { s.fab with broken := s.fab.broken ++ [m.toNat] } }).serveHeld

/-- ZEROING_DONE (R422): the group reads zero, and accesses held are judged. -/
def execZeroingDone (g : Fin 16) (s : State) : Host.Outcome State Fault Refusal :=
  .next <|
    let c := s.rd .SPD_STAT_CLEARING
    if !bitOf c g.val then s
    else ((s.wr .SPD_STAT_CLEARING 0 (setBit c g.val false)).groupHealed g.val).serveHeld

/-- FAULT_MESSAGE (R470, R471, R474): the operand is a message that a block sends now, if any; then the collector
takes the message that has waited longest; what an engine's own rule prescribes is made there. A block reset may free what accesses wait for. -/
def execFaultMessage (m : Option FaultMsg) (s : State) : Host.Outcome State Fault Refusal :=
  .next <|
    match m with
    | some x => if srcOk x.source.val then (if x.source.val < 0x60 then (s.raise x).takeFault else (s.raise x).takeFault.ownAction x).serveHeld else s
    | none => s.takeFault.serveHeld

end Sys2Proof.Machine
end

