-- ==== Sys2Proof/Machine/Dma.lean ====
section
/-! DEFINITION. What the DMA engine moves (R456 to R464, R466): descriptors and their checks, bursts through the
alignment funnel, the running CRC, the end of a descriptor. -/

namespace Sys2Proof.Machine

/-! ### Accesses of the engine -/

/-- An access of the DMA engine; an address beyond 40 bits lies in no region (R443, R444). -/
def dmaAcc (addr n : Nat) : Access :=
  { master := 2, addr := BitVec.ofNat 40 addr, size := n, secure := false, handler := false, portB := false, contended := false, fetch := false }

/-- How often a write of the engine meets a port A write of one of its words (R421), where every bank serves it. -/
def State.dmaHits (s : State) (addr n ty : Nat) : Nat :=
  let o := addr - spdBase
  if isWrite ty && inRegion (dmaAcc addr n) spdBase spdSize && (banksOf o n).all (fun b => s.bankServes (dmaAcc addr n) b) then
    ((spdWords o n).map (fun w => s.spd.hits.count w)).foldl max 0
  else 0

/-- The bank cycle in which port A writes met one of the engine's is over (R421). -/
def State.hitsPast (s : State) : State := { s with spd := { s.spd with hits := [] } }

/-- An access of the engine. A write that collides once is retried; a second collision is reported (R421). -/
def State.dmaBus (s : State) (addr n ty : Nat) (data : List Byte) : Served :=
  let k := s.dmaHits addr n ty
  if 2 ^ 40 < addr + n then { st := s.fabRefuse 2 ty addr, ok := false }
  else if k = 0 then s.bus (dmaAcc addr n) ty data
  else if k = 1 then s.hitsPast.collided.st.bus (dmaAcc addr n) ty data
  else s.hitsPast.collided.st.collided

/-- An access of the engine waits at its target. -/
def State.dmaWaits (s : State) (addr n ty : Nat) : Bool := s.waits (dmaAcc addr n) ty

/-- An address in the register space. -/
def inRegSpace (a : Nat) : Bool := decide (0x20000000 ≤ a) && decide (a < 0x30000000)

/-! ### Descriptors (R456, R457) -/

/-- A descriptor from its 64 bytes. -/
def descOf (l : List Byte) : Desc :=
  { src := fieldAt l 0 8, dst := fieldAt l 8 8, count := fieldAt l 16 4, ctl := fieldAt l 20 1
    crcAddr := fieldAt l 24 8, next := fieldAt l 32 8 }

def Desc.last (d : Desc) : Bool := bitOf d.ctl 0
def Desc.crc (d : Desc) : Bool := bitOf d.ctl 1
def Desc.crcCont (d : Desc) : Bool := bitOf d.ctl 2
def Desc.irq (d : Desc) : Bool := bitOf d.ctl 3
def Desc.wb (d : Desc) : Bool := bitOf d.ctl 4

/-- Two ranges overlap. -/
def overlap (a b n : Nat) : Bool := decide (a < b + n) && decide (b < a + n)

/-- A range lies partly in the register space, and its address or count is not a multiple of 4. -/
def regMisfit (a n : Nat) : Bool := overlapRegs a n && (a % 4 != 0 || n % 4 != 0)
where
  /-- A range meets the register space. -/
  overlapRegs (a n : Nat) : Bool := decide (a < 0x30000000) && decide (0x20000000 < a + n)

/-- The checks of R457 fail. -/
def descBad (l : List Byte) : Bool :=
  let d := descOf l
  d.count == 0 || d.ctl / 32 != 0 || fieldAt l 21 3 != 0 || fieldAt l 40 8 != 0 || fieldAt l 56 8 != 0 ||
  decide (2 ^ 40 ≤ d.src) || decide (2 ^ 40 ≤ d.dst) ||
  (!d.last && d.next % 64 != 0) || (d.crc && d.crcAddr % 4 != 0) ||
  overlap d.src d.dst d.count || regMisfit d.src d.count || regMisfit d.dst d.count

/-- DESCRIPTOR_FETCH (R456, R457, R460, R462). -/
def execDescriptorFetch (c : DmaChan) (s : State) : Host.Outcome State Fault Refusal :=
  let c := c.val
  let a := s.rd64 .DMA_CCUR c
  .next <|
    if s.rd .DMA_CSTAT_STATE c ≠ dcFetch || s.dmaWaits a 64 tyDesc then s
    else
      let r := s.dmaBus a 64 tyDesc []
      if !r.ok then r.st.busError a tyDesc r.collide
      else if descBad r.data then
        (((r.st.stopChan c dsDescErr dcIdle).setDmac c {}).flag .DMA_EVT_DESCERR).raise (mkFault srcDma 3 0 a 2 tyDesc)
      else
        let d := descOf r.data
        let seed := if d.crcCont then (s.dmac c).seed else 0xFFFFFFFF
        let s := (r.st.wr .DMA_CSTAT_STATE c dcMove).setDmac c { desc := some d, seed := seed }
        (s.wr .DMA_CLEFT_BYTES c d.count).wr .DMA_CCRC_CRC c (seed ^^^ 0xFFFFFFFF)

/-! ### The end of a channel's work (R461, R464, R466) -/

/-- The write-back of a descriptor at bytes 48 to 55 (R456); one that must wait is made later (R453). -/
def State.writeBack (s : State) (c : Nat) (d : Desc) (status moved : Nat) : Served :=
  let wbAt := s.rd64 .DMA_CCUR c + 48
  if !d.wb then { st := s }
  else if s.dmaWaits wbAt 8 tyWrite then { st := s.queueBack c d status moved }
  else s.dmaBus wbAt 8 tyWrite (leBytes 4 status ++ leBytes 4 moved)

/-- A write-back whose error response is a bus error (R461, R462). -/
def State.backOr (s : State) (c : Nat) (d : Desc) (status moved : Nat) : State :=
  let r := s.writeBack c d status moved
  if r.ok then r.st else r.st.busError (s.rd64 .DMA_CCUR c + 48) tyWrite r.collide

/-- The error response of a descriptor's last write (R464): the channel ends, every other halts, and the write-back carries it. -/
def State.doneError (s : State) (c addr : Nat) : State :=
  match (s.dmac c).desc with
  | none => s
  | some d =>
    let s := ((s.stopChan c dsDoneErr dcIdle).setDmac c { stuck := true }).wr .DMA_CLEFT_BYTES c 0
    let s := ((s.dmaHalt addr tyWrite true false).flag .DMA_EVT_DONEERR).raise (mkFault srcDma 2 1 addr 2 tyWrite)
    s.backOr c d dsDoneErr d.count

/-- DONE_ERR (R464): the error response to the last write of a channel that moves. -/
def execDoneErr (c : DmaChan) (s : State) : Host.Outcome State Fault Refusal :=
  .next <|
    if s.rd .DMA_CSTAT_STATE c.val ≠ dcMove then s
    else s.doneError c.val (((s.dmac c.val).desc.map (fun d => d.dst + d.count - 1)).getD 0)

/-- A moving channel that an abort waits for stops (R466). -/
def State.endAbort (s : State) (c : Nat) : State :=
  let x := s.dmac c
  if !x.aborting || s.rd .DMA_CSTAT_STATE c != dcMove then s
  else
    let s := (s.stopChan c dsAborted dcIdle).setDmac c {}
    match x.desc with
    | none => s
    | some d => s.backOr c d dsAborted x.moved

/-- The last steps of R461: interrupt, count, next descriptor. -/
def State.endDesc (s : State) (c : Nat) (d : Desc) : State :=
  let s := s.whenS d.irq (fun s => s.send (.msix (s.rd .DMA_CCTL_VEC c)))
  let s := (s.bump .DMA_CDONE_COUNT c).setDmac c { seed := s.rd .DMA_CCRC_CRC c ^^^ 0xFFFFFFFF }
  if d.last then s.stopChan c dsDone dcDone else (s.wr .DMA_CSTAT_LAST c dsDone).fetchAt c d.next

/-- DESCRIPTOR_END (R460, R461): all bytes of the descriptor have been written. -/
def execDescriptorEnd (c : DmaChan) (s : State) : Host.Outcome State Fault Refusal :=
  let c := c.val
  let x := s.dmac c
  .next <|
    match x.desc with
    | none => s
    | some d =>
      let wbAt := s.rd64 .DMA_CCUR c + 48
      if s.rd .DMA_CSTAT_STATE c ≠ dcMove ∨ x.moved ≠ d.count then s
      else if x.aborting then s.endAbort c
      else if (d.crc && s.dmaWaits d.crcAddr 4 tyWrite) || (d.wb && s.dmaWaits wbAt 8 tyWrite) then s
      else
        let r := if d.crc then s.dmaBus d.crcAddr 4 tyWrite (leBytes 4 (s.rd .DMA_CCRC_CRC c)) else { st := s }
        if !r.ok then r.st.busError d.crcAddr tyWrite r.collide
        else
          let w := r.st.writeBack c d dsDone d.count
          if !w.ok then w.st.busError wbAt tyWrite w.collide
          else w.st.endDesc c d

/-! ### Bursts (R458 to R460) -/

/-- A channel has a burst ready. -/
def State.burstReady (s : State) (c : Nat) : Bool :=
  s.rd .DMA_CSTAT_STATE c == dcMove && ((s.dmac c).desc.any (fun d => decide ((s.dmac c).moved < d.count)))

/-- Bytes of the burst that writes at `d` with `left` bytes to go: a narrow head up to a 64-byte boundary, whole beats
within a 1 KiB block, or a narrow tail (R458, R459). -/
def burstLen (d left : Nat) : Nat :=
  if d % 64 ≠ 0 then min left (64 - d % 64)
  else
    let n := min left (1024 - d % 1024)
    if n < 64 then n else n - n % 64

/-- The source of a descriptor is read in aligned 64-byte beats, and a word at a time in the register space (R459): where the beat
begins that the funnel reads next, at `a`, how many bytes, and how many of the funnel's bytes it gives. -/
def beatOf (a last : Nat) : Nat × Nat × Nat :=
  if inRegSpace a then (a, 4, 4) else let b := a / 64 * 64; (b, 64, min (b + 64) last - a)

/-- The funnel reads beats from `a` on until it holds `n` bytes; where one is refused, its address. -/
def State.dmaRead (s : State) (a last n : Nat) : Nat → List Byte → State × List Byte × Option (Nat × Bool)
  | 0, l => (s, l, none)
  | fuel + 1, l =>
    if n ≤ l.length then (s, l, none)
    else
      let x := beatOf a last
      let r := s.dmaBus x.1 x.2.1 tyRead []
      if !r.ok then (r.st, l, some (x.1, r.collide))
      else r.st.dmaRead (a + x.2.2) last n fuel (l ++ (r.data.drop (a - x.1)).take x.2.2)

/-- Writes of bytes at `a`, one word per access in the register space; where refused, the address and whether it was
the last access. -/
def State.dmaWrite (s : State) (a : Nat) : Nat → List Byte → State × Option (Nat × Bool × Bool)
  | 0, _ => (s, none)
  | fuel + 1, l =>
    let k := if inRegSpace a then min l.length 4 else l.length
    let r := s.dmaBus a k tyWrite (l.take k)
    if !r.ok then (r.st, some (a, decide (l.length ≤ k), r.collide))
    else if l.length ≤ k then (r.st, none)
    else r.st.dmaWrite (a + k) fuel (l.drop k)

/-- The source range whose beats the next burst of a channel still has to read (R459). -/
def DmaX.source (x : DmaX) (d : Desc) (n : Nat) : Nat × Nat :=
  let a := d.src + x.moved + x.funnel.length
  if inRegSpace a then (a, n - x.funnel.length) else (a / 64 * 64, (d.src + x.moved + n + 63) / 64 * 64 - a / 64 * 64)

/-- The burst of a channel need not wait at its source or its destination (R452, R453). -/
def State.burstFree (s : State) (c : Nat) : Bool :=
  let x := s.dmac c
  x.desc.all (fun d =>
    let n := burstLen (d.dst + x.moved) (d.count - x.moved)
    let r := x.source d n
    !s.dmaWaits r.1 r.2 tyRead && !s.dmaWaits (d.dst + x.moved) n tyWrite)

/-- A burst of a channel's descriptor. -/
def State.burst (s : State) (c : Nat) (d : Desc) (x : DmaX) : State :=
  let n := burstLen (d.dst + x.moved) (d.count - x.moved)
  let r := s.dmaRead (d.src + x.moved + x.funnel.length) (d.src + d.count) n 258 x.funnel
  match r.2.2 with
  | some e => r.1.busError e.1 tyRead e.2
  | none =>
    let l := r.2.1.take n
    let w := r.1.dmaWrite (d.dst + x.moved) 257 l
    match w.2 with
    | some e => if e.2.1 && x.moved + n == d.count then w.1.doneError c e.1 else w.1.busError e.1 tyWrite e.2.2
    | none =>
      let s := w.1.setDmac c { w.1.dmac c with moved := x.moved + n, funnel := r.2.1.drop n }
      let s := s.wr .DMA_CLEFT_BYTES c (d.count - (x.moved + n))
      s.wr .DMA_CCRC_CRC c (crc32cFrom (s.rd .DMA_CCRC_CRC c ^^^ 0xFFFFFFFF) l ^^^ 0xFFFFFFFF)

/-! ### Which channel moves (R455, R458) -/

/-- Priority at which a channel runs (R455, R458). -/
def State.prioOf (s : State) (c : Nat) : Nat := if s.dmaReserved c then 0 else s.rd .DMA_CCTL_PRIO c

/-- A channel has a burst ready that need not wait. -/
def State.canMove (s : State) (c : Nat) : Bool := if s.dmaReserved c then s.hostReady else s.burstReady c && s.burstFree c

/-- The channel of priority `p` that moved last: a digit of `dmaRr` each (R458). -/
def State.lastMoved (s : State) (p : Nat) : Nat := s.dmaRr / 16 ^ p % 16

/-- The channel whose burst is next: highest priority, round-robin among equals (R458). -/
def State.nextBurst (s : State) : Option Nat :=
  (List.range 4).findSome? (fun p =>
    ((List.range 16).map (fun i => (s.lastMoved p + 1 + i) % 16)).find? (fun c => s.canMove c && s.prioOf c == p))

/-- A channel has moved a burst at its priority. -/
def State.hasMoved (s : State) (c : Nat) : State :=
  let p := s.prioOf c
  { s with dmaRr := s.dmaRr - s.lastMoved p * 16 ^ p + c * 16 ^ p }

/-- A burst of host delivery (R297, R458): the packet itself is complete, and drained, at PACKET_DRAINED. -/
def State.hostBurst (s : State) : State :=
  let x := s.dmac 15
  s.setDmac 15 { x with moved := x.moved + min 1024 s.hostLeft }

/-- DMA_BURST_COMPLETE (R453, R455, R458 to R466): the burst of the channel next in order completes; channels being aborted then stop,
and what waited for its target is taken again. -/
def execDmaBurstComplete (s : State) : Host.Outcome State Fault Refusal :=
  .next <|
    let s := match s.nextBurst with
      | none => s
      | some c =>
        if s.dmaReserved c then (s.hasMoved c).hostBurst
        else match (s.dmac c).desc with
          | none => s
          | some d => (s.hasMoved c).burst c d (s.dmac c)
    (forN 16 (fun s c => s.endAbort c) s.hitsPast).serveHeld

/-- ABORT (R466). -/
def execAbort (c : DmaChan) (s : State) : Host.Outcome State Fault Refusal := .next (s.dmaAbort c.val).serveHeld

end Sys2Proof.Machine
end

