-- ==== Sys2Proof/Machine/Ed25519.lean ====
section
/-! DEFINITION. Verification of an Ed25519 signature without prehash (RFC 8032, cited by R325), and the SHA-512 it uses
(FIPS 180-4). The manual names the standard and does not restate it: PRESUMED, log 24. -/

namespace Sys2Proof.Machine

/-! ### SHA-512 -/

/-- The largest integer whose `k`-th power is at most `n`, found bit by bit below 2^`b`. -/
def rootFloor (k n : Nat) : Nat → Nat → Nat
  | 0, acc => acc
  | b + 1, acc => rootFloor k n b (if (acc + 2 ^ b) ^ k ≤ n then acc + 2 ^ b else acc)

/-- The first `n` primes: candidates from `c` on, each divided by those found. -/
def primesFrom : Nat → Nat → List Nat → List Nat
  | 0, _, l => l
  | n + 1, c, l => primesFrom n (c + 1) (if l.all (fun p => c % p != 0) then l ++ [c] else l)

/-- The primes below 410: 80 of them. -/
def shaPrimes : List Nat := primesFrom 408 2 []

/-- The 80 round constants: 64 fraction bits of the cube roots of the first 80 primes. -/
def shaK : List Nat := shaPrimes.map (fun p => rootFloor 3 (p * 2 ^ 192) 68 0 % 2 ^ 64)

/-- The initial hash: 64 fraction bits of the square roots of the first 8 primes. -/
def shaH0 : List Nat := (shaPrimes.take 8).map (fun p => rootFloor 2 (p * 2 ^ 128) 68 0 % 2 ^ 64)

/-- Rotation of a 64-bit word to the right. -/
def shaRotr (n x : Nat) : Nat := x / 2 ^ n + x % 2 ^ n * 2 ^ (64 - n)
def bxor3 (a b c : Nat) : Nat := (a ^^^ b) ^^^ c

/-- The message schedule, newest word first: `n` more words after the 16 of the block. -/
def shaSchedule : Nat → List Nat → List Nat
  | 0, w => w
  | n + 1, w =>
    let x := w.getD 14 0
    let y := w.getD 1 0
    let s0 := bxor3 (shaRotr 1 x) (shaRotr 8 x) (x / 2 ^ 7)
    let s1 := bxor3 (shaRotr 19 y) (shaRotr 61 y) (y / 2 ^ 6)
    shaSchedule n ((w.getD 15 0 + s0 + w.getD 6 0 + s1) % 2 ^ 64 :: w)

/-- One round on the eight working variables. -/
def shaRound (v : List Nat) (kw : Nat × Nat) : List Nat :=
  match v with
  | [a, b, c, d, e, f, g, h] =>
    let t1 := h + bxor3 (shaRotr 14 e) (shaRotr 18 e) (shaRotr 41 e) + ((e &&& f) ^^^ ((2 ^ 64 - 1 - e) &&& g)) + kw.1 + kw.2
    let t2 := bxor3 (shaRotr 28 a) (shaRotr 34 a) (shaRotr 39 a) + bxor3 (a &&& b) (a &&& c) (b &&& c)
    [(t1 + t2) % 2 ^ 64, a, b, c, (d + t1) % 2 ^ 64, e, f, g]
  | v => v

/-- Value of bytes, the first the most significant. -/
def beVal (l : List Byte) : Nat := l.foldl (fun a x => 256 * a + x.toNat) 0

/-- The blocks of a padded message, hashed in order. -/
def shaBlocks : Nat → List Byte → List Nat → List Nat
  | 0, _, h => h
  | n + 1, l, h =>
    let w := (List.range 16).map (fun i => beVal ((l.drop (8 * i)).take 8))
    let ws := (shaSchedule 64 w.reverse).reverse
    let v := (shaK.zip ws).foldl shaRound h
    shaBlocks n (l.drop 128) (List.zipWith (fun a b => (a + b) % 2 ^ 64) h v)

/-- SHA-512 of bytes, as 64 bytes. -/
def sha512 (l : List Byte) : List Byte :=
  let z := (239 - l.length % 128) % 128
  let m := l ++ [0x80] ++ List.replicate z 0 ++ (leBytes 16 (8 * l.length)).reverse
  (shaBlocks (m.length / 128) m shaH0).flatMap (fun x => (leBytes 8 x).reverse)

/-! ### The curve −x² + y² = 1 + d x² y² over the integers modulo 2^255 − 19 -/

def edP : Nat := 2 ^ 255 - 19
/-- Order of the base point. -/
def edL : Nat := 2 ^ 252 + 27742317777372353535851937790883648493

/-- b^e modulo the prime, over the `n` low bits of `e`. -/
def powModP : Nat → Nat → Nat → Nat
  | 0, _, _ => 1
  | n + 1, b, e => let r := powModP n (b * b % edP) (e / 2); if e % 2 = 1 then b * r % edP else r
def invP (x : Nat) : Nat := powModP 255 x (edP - 2)
def edD : Nat := (edP - 121665) * invP 121666 % edP

/-- A point (X : Y : Z : T) with x = X ÷ Z, y = Y ÷ Z, x y = T ÷ Z. -/
structure EdPoint where
  x : Nat
  y : Nat
  z : Nat
  t : Nat
  deriving DecidableEq, Repr

def EdPoint.add (p q : EdPoint) : EdPoint :=
  let a := (p.y + edP - p.x) * (q.y + edP - q.x) % edP
  let b := (p.y + p.x) * (q.y + q.x) % edP
  let c := 2 * p.t * q.t % edP * edD % edP
  let d := 2 * p.z * q.z % edP
  let e := b + edP - a
  let f := d + edP - c
  let g := d + c
  let h := b + a
  ⟨e * f % edP, g * h % edP, f * g % edP, e * h % edP⟩

/-- k times a point, over the `n` low bits of `k`. -/
def EdPoint.mul (p : EdPoint) : Nat → Nat → EdPoint
  | 0, _ => ⟨0, 1, 1, 0⟩
  | n + 1, k =>
    let r := p.mul n (k / 2)
    let d := r.add r
    if k % 2 = 1 then d.add p else d

/-- The same point in other coordinates. -/
def EdPoint.same (p q : EdPoint) : Bool := p.x * q.z % edP == q.x * p.z % edP && p.y * q.z % edP == q.y * p.z % edP

/-- The x of a y with its sign bit; none off the curve. -/
def edRecover (y sign : Nat) : Option Nat :=
  if edP ≤ y then none
  else
    let xx := (y * y + edP - 1) * invP (edD * y % edP * y % edP + 1) % edP
    let x := powModP 255 xx ((edP + 3) / 8)
    let x := if x * x % edP = xx then x else x * powModP 255 2 ((edP - 1) / 4) % edP
    if x * x % edP ≠ xx then none
    else if x = 0 ∧ sign = 1 then none
    else some (if x % 2 = sign then x else edP - x)

/-- The point that 32 bytes encode. -/
def edDecode (l : List Byte) : Option EdPoint :=
  let v := leVal l
  let y := v % 2 ^ 255
  (edRecover y (v / 2 ^ 255)).map (fun x => ⟨x, y, 1, x * y % edP⟩)

/-- The base point: y = 4 ÷ 5, x even. -/
def edBase : Option EdPoint := edDecode (leBytes 32 (4 * invP 5 % edP))

/-- A signature verifies (RFC 8032, 5.1.7): S below the order, and S B = R + k A. -/
def ed25519Verify (key msg sig : List Byte) : Bool :=
  let s := leVal (sig.drop 32)
  let r := sig.take 32
  let k := leVal (sha512 (r ++ key ++ msg)) % edL
  key.length == 32 && sig.length == 64 && decide (s < edL) &&
  match edBase, edDecode r, edDecode key with
  | some b, some pr, some pa => (b.mul 253 s).same (pr.add (pa.mul 253 k))
  | _, _, _ => false

end Sys2Proof.Machine
end

