-- ==== Sys2Proof/Machine/SysOps.lean ====
section
/-! DEFINITION. The commands that change the module itself: RESET, firmware images, the life-cycle, output kernels
and block self-tests (R4, R325, R326, R328, R354, R485, R516, R520). -/

namespace Sys2Proof.Machine

/-! ### RESET (R354, R485, R511) -/

/-- Reset hold ends (R485). -/
def State.endHold (s : State) : State := ((s.wr .FLT_STAT_RESETHOLD 0 0).pins).notePause

/-- RESET (R354): answered before the warm reset begins; it also ends reset hold (R485). -/
def execReset (h : Hdr) (kind : Byte) (s : State) : Host.Outcome State Fault Refusal :=
  .next (s.winos (.reset (hdrPlain h) kind) h 0x0103 1 true true (fun s =>
    if kind.toNat ≠ 1 then s.bad 0 else { s.ok with after := fun s => s.endHold.resetDue 4 }))

/-! ### Firmware images (R354, R516, R520) -/

/-- The image that was booted from flash. -/
def State.bootedImage (s : State) (i : Nat) : Bool := !s.on .MOD_BOOT_UARTBOOT && s.modl.fw && s.rd .MOD_BOOT_SLOT == i

/-- FW_WRITE (R354). -/
def execFwWrite (h : Hdr) (image : Byte) (off : Word) (data : List Byte) (s : State) : Host.Outcome State Fault Refusal :=
  .next (s.winos (.fwWrite (hdrPlain h) image off data) h 0x0105 (5 + data.length) true true (fun s =>
    let i := image.toNat
    if 1 < i then s.bad 0
    else if s.bootedImage i then s.rej rejState
    else ({ s with modl := { s.modl with flash := tsetMany 0 s.modl.flash (2 ^ 32 * i + off.toNat) data } } : State).ok))

/-- FW_COMMIT (R354, R426). -/
def execFwCommit (h : Hdr) (image : Byte) (s : State) : Host.Outcome State Fault Refusal :=
  .next (s.winos (.fwCommit (hdrPlain h) image) h 0x0106 1 true true (fun s =>
    let i := image.toNat
    if 1 < i then s.bad 0
    else if s.on .SPD_SECSTAT_FAIL then s.rej rejState
    else if s.on .SPD_SECSTAT_WIPING then s.rej rejBusy
    else s.begin h 0x0106 (.fwCommit i)))

/-- FW_COMMIT_COMPLETE (R354, R520): an image that does not verify is not marked. -/
def execFwCommitComplete (sigOk : Bool) (s : State) : Host.Outcome State Fault Refusal :=
  .next <|
    match s.findLong (fun k => match k with | .fwCommit _ => true | _ => false) with
    | some o =>
      match o.kind with
      | .fwCommit i => if sigOk then (s.wr .MOD_BOOT_MARKED 0 i).endLong o stDone else s.endLong o rejAuth
      | _ => s
    | none => s

/-! ### The life-cycle (R4, R352, R426) -/

/-- LIFECYCLE (R4, R352, R354): a later state, after the wipe of the secure bank (log 46). -/
def execLifecycle (h : Hdr) (target : Byte) (s : State) : Host.Outcome State Fault Refusal :=
  .next (s.winos (.lifecycle (hdrPlain h) target) h 0x0108 1 (hdrLocal h) false (fun s =>
    let t := target.toNat
    if 3 < t then s.bad 0
    else if t ≤ s.lcs then s.rej rejState
    else if s.sec.target.isSome then s.rej rejBusy
    else
      let a := s.begin h 0x0108 (.lifecycle t)
      if a.status = stAccepted then { a with st := ({ a.st with sec := { a.st.sec with target := some t } }).startWipe 4 } else a))

/-! ### Output kernels (R325, R326, R328) -/

/-- A stored plan names a kernel slot (R328). -/
def State.kernelNamed (s : State) (k : Nat) : Bool :=
  (List.range 4).any (fun i => let x := s.slot i; x.built && pVfmt x.shadow == 3 && pKslot x.shadow == k)

/-- The byte of the first field of a kernel image that is out of range (R325); reserved bytes are ignored (R8), and KEYID
is not checked in OPEN, `free` (R326; DEDUCED, log 23). -/
def kernelBad (l : List Byte) (free : Bool) : Option Nat :=
  let p := fieldAt l 8 2
  let x := fieldAt l 10 2
  let y := fieldAt l 12 2
  let id := fieldAt l 16 1
  if l.length < 96 then some l.length
  else if fieldAt l 0 4 ≠ 0x4F4B4E4C then some 0
  else if fieldAt l 4 1 ≠ 1 then some 4
  else if fieldAt l 5 1 < 1 ∨ 16 < fieldAt l 5 1 then some 5
  else if fieldAt l 6 2 < 1 ∨ 4096 < fieldAt l 6 2 then some 6
  else if p % 8 ≠ 0 ∨ p < 8 ∨ 32768 < p then some 8
  else if x % 4 ≠ 0 ∨ 32256 < x then some 10
  else if y % 4 ≠ 0 ∨ 31744 < y then some 12
  else if p / 8 ≤ fieldAt l 14 2 then some 14
  else if !free ∧ 7 < id ∧ id ≠ 0xFF then some 16
  else if l.length ≠ 96 + p + x + y then some (min l.length (96 + p + x + y))
  else none

/-- KEYID names an enrolled key. -/
def State.keyKnown (s : State) (l : List Byte) : Bool := decide (fieldAt l 16 1 < 8) && bitOf (s.rd .ENG_KSTAT_KEYS) (fieldAt l 16 1)

/-- An image is refused under R325 or R326. -/
def State.loadRefused (s : State) (a : State → Ans) : Ans := a (s.flag .ENG_KEVT_LOADREJ)

/-- KERNEL_LOAD (R325, R326, R328, R426, R525). -/
def execKernelLoad (h : Hdr) (slot : Byte) (image : List Byte) (s : State) : Host.Outcome State Fault Refusal :=
  .next (s.winos (.kernelLoad (hdrPlain h) slot image) h 0x0A03 (1 + image.length) true false (fun s =>
    let k := slot.toNat
    if s.lcs = 2 && decide (17 ≤ image.length) && !s.keyKnown image then s.loadRefused (·.rej rejAuth)
    else if 3 < k then s.bad 0
    else match kernelBad image (s.lcs = 1) with
      | some o => s.loadRefused (·.bad (1 + o))
      | none =>
        if s.lcs ≠ 1 ∧ s.lcs ≠ 2 then s.loadRefused (·.rej rejState)
        else if s.on .SPD_SECSTAT_FAIL then s.rej rejState
        else if s.on .SPD_SECSTAT_WIPING || s.kernelNamed k then s.rej rejBusy
        else s.begin h 0x0A03 (.kernelLoad k image)))

/-- A kernel slot holds an image; empty, none. -/
def State.setKernel (s : State) (k : Nat) (l : List Byte) : State :=
  { s with modl := { s.modl with kernels := tset [] s.modl.kernels k l } }

/-- SIGNATURE verifies against the enrolled key that KEYID names: it covers bytes 0 to 31 and everything after byte 95
(R325). -/
def State.kernelSigned (s : State) (l : List Byte) : Bool :=
  s.keyKnown l && ed25519Verify (tget [] s.sec.keys (fieldAt l 16 1)) (l.take 32 ++ l.drop 96) ((l.drop 32).take 64)

/-- KERNEL_LOAD_COMPLETE (R326, R328): the earliest load into a slot ends; in OPEN the signature is not checked. -/
def execKernelLoadComplete (slot : Fin 4) (s : State) : Host.Outcome State Fault Refusal :=
  .next <|
    match s.findLong (fun k => match k with | .kernelLoad n _ => n == slot.val | _ => false) with
    | some o =>
      match o.kind with
      | .kernelLoad k l =>
        if s.lcs = 1 ∨ (s.lcs = 2 ∧ s.kernelSigned l) then (s.setKernel k l).endLong o stDone
        else (s.flag .ENG_KEVT_LOADREJ).endLong o (if s.lcs = 2 then rejAuth else rejState)
      | _ => s
    | none => s

/-- KERNEL_ERASE (R354). -/
def execKernelErase (h : Hdr) (slot : Byte) (s : State) : Host.Outcome State Fault Refusal :=
  .next (s.winos (.kernelErase (hdrPlain h) slot) h 0x0A04 1 true false (fun s =>
    if 3 < slot.toNat then s.bad 0
    else if s.kernelNamed slot.toNat then s.rej rejBusy
    else (s.setKernel slot.toNat []).ok))

/-! ### Block self-tests (R354) -/

/-- SELFTEST (R354): the manual numbers no blocks, so that every number names one (log 47). -/
def execSelftest (h : Hdr) (block : Byte) (s : State) : Host.Outcome State Fault Refusal :=
  .next (s.winos (.selftest (hdrPlain h) block) h 0x0B03 1 true false (fun s => s.begin h 0x0B03 (.selftest block.toNat)))

/-- SELFTEST_COMPLETE (R342, R354). -/
def execSelftestComplete (pass : Bool) (source : BitVec 16) (kind : Byte) (s : State) : Host.Outcome State Fault Refusal :=
  .next <|
    match s.findLong (fun k => match k with | .selftest _ => true | _ => false) with
    | some o => if pass then s.endLong o stDone else s.endLong o errInternal 0 [(1, 0), (2, source.toNat), (1, kind.toNat)]
    | none => s

end Sys2Proof.Machine
end

