-- ==== Sys2Proof/Machine/Warm.lean ====
section
/-! DEFINITION. Warm resets (R152, R154, R200, R220, R413, R511 to R514) and READY (R518). A warm reset is one step at
`WARM_RESET`, or two where MRST_N holds it at self-refresh entry (R512): `beginWarm` stops the data path, `finishWarm`
runs from the release on. `resetDue` keeps its cause from the moment it is due until it is finished. -/

namespace Sys2Proof.Machine

/-! ### The first half: to self-refresh entry -/

/-- The engine cores are told to stop at the end of their runs (R200, R322). -/
def State.stopCores (s : State) : State := s.served.foldl (fun s e => s.send (.coreIrq e .stop)) s

/-- Locks, waiting accesses and broken sequences of every master but the host go (R413, R454): what the host asked
of the HBM is held. Read latches of low-word reads go: after a reset the high word is read live (R13). -/
def State.dropMasters (s : State) : State :=
  let f := s.fab
  { s with fab := { f with latch := []
                           locks := f.locks.filter (fun l => l.master == 0)
                           broken := f.broken.filter (· == 0)
                           held := f.held.filter (fun h => h.acc.master.toNat == 0) } }

/-- The cause is shown and the reset counted (R511, R523). -/
def State.countWarm (s : State) (cause : Nat) : State :=
  ((s.wr .MOD_RSTCAUSE_CAUSE 0 cause).bump .MOD_RSTCAUSE_WARMS).wr .MOD_STAT_READY 0 0

/-- The snapshot of the reset; it serves a flush that waits for one (R154, R510). -/
def State.resetSnapshot (s : State) : State :=
  let s := s.writeSnapshot
  if s.snapWaits then { s with pow := { s.pow with snapDone := true } } else s

/-- A warm reset begins (R154, R413, R485, R513): flow snapshot, refresh debt paid, self-refresh entered, the
management core in reset. -/
def State.beginWarm (s : State) (cause : Nat) : State :=
  let s := (s.countWarm cause).endHold
  let s := { s with modl := { s.modl with warm := true, fw := false, resetDue := some cause } }
  let s := s.notePause.resetSnapshot.stopCores
  let s := { s with hbm := { s.hbm with debt := [], rows := [] } }
  (s.resetDma.dropMasters).wr .FAB_CTL_REMAP 0 0

/-! ### The second half: from self-refresh exit on -/

/-- Domains that a warm reset powers again (R506). -/
def State.repower (s : State) : State :=
  let p := s.pow
  let back := (List.range 164).filter (fun d => tget false p.railOff d && !tget false p.leftOff d)
  { s with pow := { p with railOff := back.foldl (fun t d => tset false t d false) p.railOff
                           repowered := back.foldl (fun t d => tset 0 t d (s.clock + 1)) p.repowered } }

/-- Every range channel that the cut has taken and that is not released is read again and computed by all engines
of its allotment; what was committed is skipped as a whole (R184, R220). Its sums are formed again, and the marks decide
which of them reach each consumer (R239, R240). -/
def State.recomputeAll (s : State) : State :=
  let s := s.dropRereads
  let s := { s with deck := { s.deck with handed := [] } }
  let todo := s.unfinished
  (s.cutChans (fun _ => true)).foldl (fun s tc =>
    s.reread tc.1 tc.2 (if todo.contains tc then s.served else []) 0xFFFF) s

/-- Every session that is not FREE is DETACHED, and its next resume has KIND 2 (R154, R156). -/
def State.detachAll (s : State) : State :=
  forN 256 (fun s n =>
    let st := s.rd .VSN_SSTAT_STATE n
    if st = ssFree then s
    else
      let s := s.setSession n { s.session n with warmSince := true }
      if st = ssDetached then s else (s.wr .VSN_SSTAT_STATE n ssDetached).sessionEvent n 5 0) s

/-- Held frames do not outlast the reset: the next resume names the snapshot's NEXT, and every frame after it is sent
again (R155, R156). DEDUCED (log 48). -/
def State.dropAllHeld (s : State) : State :=
  s.flowList.foldl (fun s f =>
    let s := s.dropHeld f
    s.setNext f (s.rd .VSN_FNEXT_NEXT f) (s.flow f).exp (s.rd .VSN_FNEXT_NEXT f)) s

/-- The link layer of every bundle in service starts (R118, R154). -/
def State.startLinks (s : State) : State := forN 5 (fun s b => if s.bundleUp b then s.startLink b else s) s

/-- The boot ROM of a warm reset (R500, R513, R516) takes the image that BOOT selects. The running image verifies, since
nothing writes it; with BOOT = 00 the marked image, where it is another, is tried first, and whether it verifies is free
(log 36). Firmware taken over the UART stays (log 36). -/
def State.warmBoot (s : State) : State :=
  if s.on .MOD_BOOT_UARTBOOT then s
  else
    let here := s.rd .MOD_BOOT_SLOT
    let marked := s.rd .MOD_BOOT_MARKED
    let other := decide (s.rd .MOD_STRAP_BOOT = 0 ∧ marked ≠ here)
    let fallback := other && s.freeVal.getLsbD 0
    let i := if other && !fallback then marked else here
    let s := if other then s.drawn else s
    let s := (s.wr .MOD_BOOT_SLOT 0 i).wr .MOD_BOOT_FALLBACK 0 (if fallback then 1 else 0)
    (s.whenS fallback (fun s => s.fault srcMgmt 3 1)).copyImage i

/-- The boot ROM of a warm reset goes on to firmware: not in test mode (R501), nor where it still waits for an image that verifies, or
for the wipe of the secure bank (R516, R519). -/
def State.bootsFirmware (s : State) : Bool := !s.on .MOD_STAT_TESTMODE && s.modl.waitIn.isNone && s.modl.wipeIn.isNone

/-- What the recomputation reads from the HBM system area (R204, R239, R296): an item in a poisoned line is an internal state error
that its block does not contain (R415). -/
def State.readSystem (s : State) : State :=
  [(sysCommit, srcDealer), (sysBeams, srcBeams), (sysZoom, srcZoom), (sysRing, srcOutput)].foldl (fun s x =>
    s.whenS (s.linePoisoned (Config.sysLine x.1).toNat) (·.fault x.2 3 2)) s

/-- Self-refresh is left, and what was held for it served, before the recomputation (R413). -/
def State.leaveSelfRefresh (s : State) : State := { s with modl := { s.modl with resetDue := none } }.serveHeld

/-- A warm reset runs to its end (R154, R220, R296, R413, R419, R449, R513, R516): READY is a command of its own. -/
def State.finishWarm (s : State) : State :=
  let s := s.repower
  let boots := s.bootsFirmware
  let s := s.whenS boots (fun s => s.warmBoot.wr .FAB_CTL_REMAP 0 1)
  let s := forN 64 (fun s b => s.wr .SPD_OWN_OWNER b 1) s
  let s := forN 96 (fun s e => s.clearEngine e) s
  let s := { s with outp := { s.outp with batch := none } }
  let s := s.leaveSelfRefresh.readSystem
  let s := s.restoreSlots.recomputeAll.detachAll.dropAllHeld.startLinks
  let s := forN 3 (fun s p => s.resendHead p) s
  { s with modl := { s.modl with fw := boots } }

/-! ### The commands -/

/-- WARM_RESET (R511, R513): a reset that is due runs, or one that was stopped goes on; none runs while the flush of a
power-fail warning does, and one that a warning stopped waits for the recovery (R485, R510). -/
def execWarmReset (s : State) : Host.Outcome State Fault Refusal :=
  .next <|
    match s.modl.resetDue with
    | none => s
    | some cause =>
      if !s.modl.running || s.rd .PWR_STAT_STATE = 1 then s
      else if s.modl.warm then (if s.modl.mrst || s.frozen then s else s.finishWarm)
      else (s.beginWarm cause).finishWarm

/-- MRST_N_ASSERTED (R498, R512): merged into a warm reset under way. -/
def execMrstNAsserted (s : State) : Host.Outcome State Fault Refusal :=
  .next <|
    if !s.modl.running then s
    else
      let s := if s.modl.warm then s else s.beginWarm 3
      { s with modl := { s.modl with mrst := true } }

/-- MRST_N_RELEASED (R512): the reset that was held completes, unless a warning has stopped it (R510). -/
def execMrstNReleased (s : State) : Host.Outcome State Fault Refusal :=
  .next <|
    if !s.modl.mrst then s
    else
      let s := { s with modl := { s.modl with mrst := false } }
      if s.modl.resetDue.isSome && !s.frozen then s.finishWarm else s

/-- An enabled bundle with a partner is still on the ladder: a home lane has heard an OFFER, or climbs beyond it (R86, R518). -/
def State.bundleTrains (s : State) (b : Nat) : Bool :=
  s.on .VLK_BCTL_EN b && !s.bundleUp b && (List.range 4).any (fun i =>
    let l := 4 * b + i
    s.climbing l && (s.lnState l != lnNegotiate || (s.lane l).offered))

/-- Everything READY asks for; the ladders' deadline of a bundle without a partner the command itself stands for (R518). In a warm
reset it waits for the recovery of the supply (R510). -/
def State.mayBeReady (s : State) : Bool :=
  s.modl.running && s.modl.fw && s.on .LGR_STAT_SCANNED && !s.modl.resetDue.isSome && !s.modl.mrst &&
  !s.on .FLT_STAT_RESETHOLD && !s.on .MOD_STAT_TESTMODE && !(s.modl.warm && s.frozen) && (List.range 5).all (fun b => !s.bundleTrains b)

/-- READY (R514, R518): acceptance, waiting accesses and exports go on. -/
def execReady (s : State) : Host.Outcome State Fault Refusal :=
  .next <|
    if !s.mayBeReady then s
    else
      let s := (s.wr .MOD_STAT_READY 0 1)
      let s := { s with modl := { s.modl with warm := false } }
      s.notePause.resumeAccept.serveHeld.goOn

end Sys2Proof.Machine
end

