-- ==== Sys2Proof/Machine/Boot.lean ====
section
/-! DEFINITION. What a loss of power leaves (R509, R511), the cold start (R408, R416, R424, R425, R430, R499 to R501,
R515 to R519) and the recovery of sessions from the ledger (R157, R158, R517). The tail, from the moment firmware runs, is a
step of its own where the boot ROM waits for an image over the UART (R516). -/

namespace Sys2Proof.Machine

/-! ### What survives without power (R509, R511) -/

/-- The bits `mask` of a register that a state still has. -/
def State.keepBits (z old : State) (o mask : Nat) : State :=
  z.setWord o (z.word o &&& ~~~(BitVec.ofNat 32 mask) ||| (old.word o &&& BitVec.ofNat 32 mask))

/-- Counter at which the loss of power ends an open-ended trick that began at `c`: after the sub-integration of the
newest frame accepted (R157; DEDUCED, log 30). -/
def State.openEnd (s : State) (p : ActivePlan) (c : Nat) : Nat :=
  let last := (s.flowList.map (fun f => (s.flow f).exp)).foldl max c
  c + ceilDiv (last - c) (pS p.data) * pS p.data

/-- Counter after the trick that holds counter `t`, as a loss of power ends it; 0 where no plan holds it. -/
def State.lostTrickEnd (s : State) (t : Nat) : Nat :=
  match s.planOf t with
  | some p =>
    let c := s.trickOf p t
    if pL p.data = 0 then min (s.trickEnd p c) (s.openEnd p c) else s.trickEnd p c
  | none => 0

/-- Counter after the last sample of a trick that a loss of power destroys (R157): every trick begun, and every one of which a
frame was accepted (DEDUCED, log 30). -/
def State.lostEnd (s : State) : Nat :=
  let begun := s.tricks.cur.toList
  let taken := s.flowList.filterMap (fun f =>
    let x := s.flow f
    if x.anchorCount < x.exp then some (x.exp - 1) else none)
  (s.tricks.closed.map (fun k => k.first + k.len) ++ begun ++ (begun ++ taken).map s.lostTrickEnd).foldl max s.deck.closedBefore

/-- The causes of a wipe that the next cold start repeats: one that failed verification, or was cut off (R426). -/
def State.wipeOwed (s : State) : List Nat :=
  if s.on .SPD_SECSTAT_FAIL || s.on .SPD_SECSTAT_WIPING then [s.rd .SPD_SECSTAT_CAUSE] else s.sec.causes

/-- Every domain is switched off: the ledger's MRAM, the fuses, module flash, the lid latch and what surrounds the die
stay; `cause` is what the next cold start shows (R509, R511). -/
def State.powerOff (s : State) (cause : Nat) : State :=
  let m := s.modl
  let z : State := { State.reset with
    pending := s.pending, lcs := s.lcs, fresh := s.fresh, clock := s.clock, sent := s.sent
    ledger := { s.ledger with pend := [], hbmSnap := [] }
    sec := { tampers := s.sec.tampers, causes := s.wipeOwed }
    deck := { closedBefore := s.lostEnd }
    sess := s.sess.filterMap (fun x => if x.2.tokens.isEmpty then none else some (x.1, { tokens := x.2.tokens }))
    pow := { railAt := s.pow.railAt, repowered := s.pow.repowered, thermal := s.pow.thermal }
    modl := { flash := m.flash, mgmtIp := m.mgmtIp, mgmtPlen := m.mgmtPlen, mgmtGw := m.mgmtGw, hostMem := m.hostMem
              perst := m.perst, lid := m.lid, tap := m.tap, pciWidth := m.pciWidth, pciRate := m.pciRate
              coldCause := cause } }
  (z.keepBits s 0xC 4).keepBits s 0x18 0xFF

/-! ### The head: straps, lid latch, boot image (R499 to R501, R516, R519) -/

/-- The straps are latched, and the fields that they give a reset value (R499, R500). -/
def State.latchStraps (s : State) (v : Nat) : State :=
  let s := (s.setWord 4 (BitVec.ofNat 32 (v + 2 ^ 16 * v))).wr .MOD_ID_ID 0 (v % 256)
  if bitOf v 13 then s
  else
    let s := (s.wr .ENG_GSTAT_HOLD 0 1).wr .ENG_GCTL_AUTOSUBST 0 0
    forN 5 (fun s b => s.wr .VLK_BCTL_SUBST_EN b 0) s

/-- A tripped lid latch wipes the secure bank; so does a wipe that is owed (R426, R519). -/
def State.bootWipe (s : State) (tripped : Bool) : State :=
  let lid := s.modl.lid || tripped
  let owed := s.sec.causes
  let s := { s with modl := { s.modl with lid := lid }, sec := { s.sec with causes := owed.filter (fun c => decide (1 ≤ c ∧ c ≤ 3)) } }
  let s := match owed with
    | [] => s
    | c :: _ => ((s.flag .SPD_SECSTAT_WIPING).wr .SPD_SECSTAT_CAUSE 0 c).bump .SPD_SECSTAT_WIPES
  if lid then (s.flag .MOD_EVT_LIDLATCH).startWipe 1 else s

/-- The image that BOOT selects among those that verify, and whether it is the fall-back (R500, R516). -/
def bootChoice (boot marked : Nat) (aOk bOk : Bool) : Option (Nat × Bool) :=
  let ok := fun (i : Nat) => if i = 0 then aOk else bOk
  if boot = 0 then
    if ok marked then some (marked, false) else if ok (1 - marked) then some (1 - marked, true) else none
  else if boot = 1 then (if aOk then some (0, false) else none)
  else if boot = 2 then (if bOk then some (1, false) else none)
  else none

/-! ### What the ledger scan finds (R430, R517, R528) -/

/-- The highest DSN in the ledger. -/
def State.highestDsn (s : State) : Nat := (s.ledger.recs.map (·.dsn)).foldl max 0

/-- The DSN from which the dealer resumes (R358). -/
def resumeDsn (high : Nat) : Nat := min (high + 2 ^ 32) (2 ^ 64 - 1)

/-- Spare slots that retired slots have left: they are taken in ascending order (R434). -/
def State.sparesLeft (s : State) : Nat := 65535 - (s.ledger.remap.map (·.2)).foldl max 62259

/-- The snapshot the resumes use: that with the highest DSN (R430). -/
def State.snapRecord (s : State) : Option LRec :=
  (s.ledger.recs.filter (fun r => r.type == 5)).foldl (fun a r => match a with
    | some x => if x.dsn < r.dsn then some r else a
    | none => some r) none

/-- The region that holds the snapshot (R433, R442). -/
def State.snapRegion (s : State) (r : LRec) : Nat :=
  ((s.ledger.regions.find? (fun g => (r.slots.head?.map (s.physOf (runAt g.2 0) == ·)).getD false)).map (·.1)).getD 0

/-- The ledger registers show what the scan found (R442). -/
def State.showLedger (s : State) : State :=
  let s := (s.flag .LGR_STAT_SCANNED).wr64 .LGR_LASTDSN 0 s.highestDsn
  let s := (s.wr .LGR_SPARE_LEFT 0 s.sparesLeft).put .LGR_STAT_WARN 0 (decide (s.sparesLeft < 164))
  let s := s.put .LGR_STAT_RO 0 s.ledger.ro
  match s.snapRecord with
  | some r => (s.flag .LGR_STAT_SNAPVALID).wr .LGR_STAT_SNAPREG 0 (s.snapRegion r)
  | none => s

/-- The ledger scan (R358, R430, R442, R528). -/
def State.scanLedger (s : State) : State :=
  let top := ((s.ledger.recs.filter (fun r => r.type == 6)).map (·.key)).foldl max 0
  { s with dealer := { s.dealer with dsn := resumeDsn s.highestDsn }
           ledger := { s.ledger with nextItem := top + 1 } }.showLedger

/-! ### Memories (R408, R416, R424, R425) -/

/-- A pseudo-channel retired before stays retired (R408). -/
def State.oldPc (s : State) (r : LRec) : State :=
  let k := r.unit / 32
  let m := setBit (s.rd .HBM_SPCRET_MAP k) (r.unit % 32) true
  let s := ((s.wr .HBM_SPCRET_MAP k m).wr .HBM_SSTAT_RETIRED k (popcount 32 m)).flag .HBM_GSTAT_PCDEGR
  { s with hbm := { s.hbm with item := tset 0 s.hbm.item (6 + r.unit) r.key } }

/-- The rows repaired of a stack are shown (R439). -/
def State.showRows (s : State) (k : Nat) : State :=
  let n := ((List.range 32).map (fun p => tget 0 s.hbm.repaired (32 * k + p))).sum
  (s.wr .HBM_SREPAIR_ROWS k n).wr .HBM_SREPAIR_SPARE k (512 - n)

/-- A row was repaired: one spare row of its pseudo-channel fewer. -/
def State.rowRepaired (s : State) (pc : Nat) : State :=
  ({ s with hbm := { s.hbm with repaired := tset 0 s.hbm.repaired pc (tget 0 s.hbm.repaired pc + 1) } }).showRows (pc / 32)

/-- A marked row is repaired while a spare row remains (R416). -/
def State.repairRow (s : State) (r : LRec) : State :=
  let pc := r.unit
  if tget 0 s.hbm.repaired pc < 16 then (s.rowRepaired pc).repair r.key 1 1 pc r.loc r.cause
  else
    let s := (s.flag .HBM_SEVT_SPAREOUT (pc / 32)).fault (srcPc (pc / 32) (pc % 32)) 6 0 (pc % 32)
    { s with hbm := { s.hbm with marked := s.hbm.marked ++ [(pc, r.loc, r.key)] } }

/-- A stack is trained or lost; one that was lost and trains is removed from the repair map (R404, R408, R528). -/
def State.trainStack (s : State) (k : Nat) (ok : Bool) : State :=
  if ok then
    ((s.repairsOf 3 1).filter (fun r => r.unit == k)).foldl (fun s r => s.repair r.key 3 2 k r.loc r.cause) (s.wr .HBM_SSTAT_STATE k stActive)
  else (s.fault (srcStack k) 1 1 k).loseStack k 1 false

/-- The stacks train and pending row repairs are made (R408, R416). -/
def State.startHbm (s : State) (ok : List Bool) : State :=
  let s := (s.repairsOf 2 1).foldl (fun s r => s.oldPc r) s
  let s := forN 6 (fun s k => s.trainStack k (ok.getD k true)) s
  let s := (s.repairsOf 1 1).foldl (fun s r => s.rowRepaired r.unit) s
  (s.repairsOf 1 0).foldl (fun s r => s.repairRow r) s

/-- A fuse selects a redundant column in place of one that failed, while its bank has one (R424). -/
def State.repairColumn (s : State) (r : LRec) : State :=
  let b := r.unit
  let n := tget 0 s.spd.cols b
  if n < 8 then ({ s with spd := { s.spd with cols := tset 0 s.spd.cols b (n + 1) } }).repair r.key 7 1 b r.loc r.cause
  else { s with spd := { s.spd with failed := s.spd.failed ++ [(b, r.loc, r.key)] } }

/-- Columns replaced before stay replaced, then those recorded since are (R424). -/
def State.startSpd (s : State) : State :=
  let s := (s.repairsOf 7 1).foldl (fun s r =>
    { s with spd := { s.spd with cols := tset 0 s.spd.cols r.unit (tget 0 s.spd.cols r.unit + 1) } }) s
  let s := (s.repairsOf 7 0).foldl (fun s r => s.repairColumn r) s
  s.wr .SPD_COLREP_PENDING 0 (min 1023 s.spd.failed.length)

/-- The customer keys come from the life-cycle record, unless a wipe has cleared it, or has failed (R425, R426, R517). -/
def State.loadKeys (s : State) : State :=
  match tget none ((s.currentOf 7).map (fun x => (x.1, some x.2))) 0 with
  | none => s
  | some r =>
    let p := r.payload
    let keys := fieldAt p 2 1
    let s := { s with sec := { s.sec with tampers := max s.sec.tampers (fieldAt p 3 2) } }
    if s.on .SPD_SECSTAT_WIPING || s.on .SPD_SECSTAT_FAIL || s.sec.wiped then s
    else
      let t := (List.range 8).foldl (fun t i => if bitOf keys i then tset [] t i (slice p (6 + 32 * i) 32) else t) []
      let s := { s with sec := { s.sec with keys := t } }
      ((s.wr .ENG_KSTAT_KEYLOCK 0 (fieldAt p 1 1)).wr .ENG_KSTAT_KEYS 0 keys).wr .SPD_SECSTAT_CAUSE 0 (fieldAt p 5 1)

/-! ### Engines (R215, R216, R500) -/

/-- An engine under the repair map: RETIRED, or its self-test (R215, R517). -/
def State.startEngine (s : State) (e : Nat) (ok : Bool) : State :=
  if s.rd .ENG_STAT_STATE e = egRetired then s
  else if ok then
    (s.wr .ENG_STAT_STATE e (if s.on .ENG_GSTAT_HOLD then egIdle else egStandby)).wr .ENG_RAIL_MV e (Config.calRail (Fin.ofNat 96 e))
  else (s.fault e 6 1).retireEngine e 1

/-- Engines retired before stay retired, the others test themselves (R215). -/
def State.startEngines (s : State) (ok : List Bool) : State :=
  let s := (s.repairsOf 4 1).foldl (fun s r =>
    ((s.wr .ENG_STAT_STATE r.unit egRetired).wr .ENG_RETCAUSE_CAUSE r.unit r.cause).setEng r.unit { item := r.key }) s
  forN 96 (fun s e => s.startEngine e (ok.getD e true)) s

/-! ### Sessions (R157, R158, R517) -/

/-- Flow, next expected sequence and first sequence of its oldest unreleased trick, for every flow of a snapshot (R431). -/
def snapFlows (p : List Byte) : List (Nat × Nat × Nat) :=
  let fs := (p.take 5120).zipIdx.flatMap (fun x =>
    if x.1 = 0 then [] else ((List.range 8).filter (fun j => bitOf x.1.toNat j)).map (fun j => 8 * x.2 + j))
  fs.zipIdx.map (fun x => (x.1, fieldAt p (5120 + 8 * x.2) 4, fieldAt p (5124 + 8 * x.2) 4))

/-- The latest flow set entry of each flow, with its DSN and session (R432). -/
def State.flowEntries (s : State) : Tbl (Nat × Nat × List Byte) :=
  (s.ledger.recs.filter (fun r => r.type == 4)).foldl (fun t r =>
    (List.range (fieldAt r.payload 0 1)).foldl (fun t i =>
      let x := slice r.payload (4 + 20 * i) 20
      let f := fieldAt x 0 2
      if (tget (0, 0, []) t f).1 < r.dsn then tset (0, 0, []) t f (r.dsn, r.key, x) else t) t) []

/-- Counter after the newest trick that the ledger records as delivered, where its length is recorded too (R157, R432). -/
def State.deliveredEnd (s : State) : Option Nat :=
  match (s.currentOf 2).head? with
  | some x =>
    let t := fieldAt x.2.payload 0 8
    (s.ledger.recs.find? (fun r => r.type == 1 && fieldAt r.payload 0 8 == t)).map (fun r => t + fieldAt r.payload 8 8)
  | none => none

/-- The frames of a flow that were accepted and are lost (R157): those from the oldest unreleased trick of the snapshot
on, less those of tricks delivered since. -/
def lossOf (next oldest counter perFrame : Nat) (delivered : Option Nat) : Nat :=
  let n := (next + 2 ^ 32 - oldest) % 2 ^ 32
  match delivered with
  | some e => min n (if e < counter then ceilDiv (counter - e) perFrame else 0)
  | none => n

/-- A flow of the flow set is restored, with its loss report where the session resumes from a snapshot (R157, R432). -/
def State.restoreFlow (s : State) (f n : Nat) (x : List Byte) (snap : Option (Nat × Nat)) : State :=
  let shape := fieldAt x 3 1
  let aSeq := fieldAt x 8 4
  let aCount := fieldAt x 12 8
  let next := (snap.map (·.1)).getD aSeq
  let counter := aCount + (next + 2 ^ 32 - aSeq) % 2 ^ 32 * shT shape
  let lost := match snap with | some y => lossOf next y.2 counter (shT shape) s.deliveredEnd | none => 0
  let s := ((s.wr .VSN_FSTAT_STATE f (fieldAt x 7 1)).wr .VSN_FSTAT_SESSION f n).wr .VSN_FSTAT_GROUP f (fieldAt x 2 1)
  let s := ((s.wr .VSN_FSTAT_CHCODE f (bitsOf shape 0 3)).wr .VSN_FSTAT_SCODE f (bitsOf shape 3 2)).wr .VSN_FSTAT_FMT f (bitsOf shape 5 1)
  let s := (s.wr .VSN_FNEXT_NEXT f next).wr .VSN_FCHBASE_CHBASE f (fieldAt x 4 3)
  s.setFlow f { h := next, exp := counter, anchorSeq := aSeq, anchorCount := aCount, lateBelow := s.deck.closedBefore
                lossFirst := (next + 2 ^ 32 - lost) % 2 ^ 32, lossCount := lost }

/-- A session with a checkpoint is ready to resume: KIND 3 from a snapshot that lists every flow of its flow set, else
KIND 4 (R157, R158, R517). -/
def State.restoreSession (s : State) (r : LRec) (snap : Option (List (Nat × Nat × Nat))) (fs : Tbl (Nat × Nat × List Byte)) : State :=
  let n := r.key
  let p := r.payload
  let mine := fs.filter (fun x => x.2.2.1 == n && fieldAt x.2.2.2 7 1 != 0)
  let at_ := fun (f : Nat) => match snap with | some l => (l.find? (fun y => y.1 == f)).map (·.2) | none => none
  let kind := if snap.isNone || mine.any (fun x => (at_ x.1).isNone) then 4 else 3
  let s := ((s.wr .VSN_SSTAT_STATE n ssDetached).wr .VSN_SSTAT_BUNDLE n (fieldAt p 2 1)).wr .VSN_SSTAT_EPOCH n (fieldAt p 1 1)
  let s := ((s.wr .VSN_SPEER_ENDPOINT n (fieldAt p 4 4)).wr64 .VSN_STOKEN n (fieldAt p 8 8)).wr .VSN_SSTAT_FLOWS n mine.length
  let s := s.setSession n { lastEpoch := fieldAt p 1 1, coldKind := kind, tokens := (s.session n).tokens }
  mine.foldl (fun s x => s.restoreFlow x.1 n x.2.2.2 (if kind = 3 then at_ x.1 else none)) s

/-- The recovery decision on sessions (R517). -/
def State.recoverSessions (s : State) : State :=
  let snap := if s.on .LGR_STAT_RO then none else s.snapRecord.map (fun r => snapFlows r.payload)
  let fs := s.flowEntries
  (s.currentOf 3).foldl (fun s x => if fieldAt x.2.payload 0 1 = ssFree then s else s.restoreSession x.2 snap fs) s

/-! ### Lanes (R88, R496, R515) -/

/-- Retired lanes stay retired; every other lane climbs, but those of a cage whose transceiver is not powered. -/
def State.startLanes (s : State) : State :=
  let s := (s.repairsOf 5 1).foldl (fun s r => (s.wr .VLK_STAT_STATE r.unit lnRetired).setLane r.unit { s.lane r.unit with item := r.key }) s
  forN 24 (fun s l => if s.lnState l = lnRetired || s.cageRejected l then s else s.startLadder l) s

/-! ### The end of a wipe (R426, R519) -/

/-- The life-cycle operation in progress ends. -/
def State.endLifecycle (s : State) (status : Nat) (params : List (Nat × Nat)) : State :=
  match s.findLong (fun k => match k with | .lifecycle _ => true | _ => false) with
  | some o => s.endLong o status 0 params
  | none => s

/-- The life-cycle moves to a target, forward only (R4). -/
def State.moveLcs (s : State) (t : Nat) : State := if s.lcs < t ∧ t ≤ 3 then { s with lcs := t } else s

/-- What follows a verified wipe (R426, R432): the management core writes a life-cycle record with no customer key, and raises the
tamper faults. -/
def State.wipeFollows (s : State) : State :=
  let causes := s.sec.causes
  let s := { s with sec := { s.sec with causes := [] } }.lifeRecord s.lastDsn
  causes.foldl (fun s c => s.fault srcTamper c 1) s

/-- The wipe ends (R426): verified, every word is zero but the firmware keys, which come from the fuses; its FAIL stands until the next
cold start where it does not verify, which is fatal. -/
def State.endWipe (s : State) (verified : Bool) : State :=
  let x := s.sec
  let s := s.wr .SPD_SECSTAT_WIPING 0 0
  if verified then
    let s := { s with sec := { x with keys := [], mem := [], wiped := true } }
    (s.wr .ENG_KSTAT_KEYLOCK 0 0).wr .ENG_KSTAT_KEYS 0 0
  else ({ s with sec := { x with causes := [] } }.wr .SPD_SECSTAT_FAIL 0 1).fault srcSecure 2 2

/-! ### The commands -/

/-- The tail of a cold start, from the moment firmware runs (R515, R517). -/
def State.firmwareRuns (s : State) (c : ColdInput) : State :=
  let s := { s with modl := { s.modl with fw := true, waitIn := none, bootFail := false } }
  let s := ((s.wr .FAB_CTL_REMAP 0 1).pins).scanLedger
  let s := ((s.startHbm c.stackOk).startSpd.startEngines c.engineOk).loadKeys
  ((s.whenS s.sec.wiped (·.wipeFollows)).recoverSessions).startLanes

/-- The boot ROM's choice (R500, R501, R516): test mode loads no firmware; where no image verifies, or BOOT is 11, it waits
for one over the UART. -/
def State.bootFirmware (s : State) (c : ColdInput) : State :=
  let boot := s.rd .MOD_STRAP_BOOT
  if !s.on .MOD_STRAP_TEST_N && decide (s.lcs ≤ 1) then s.flag .MOD_STAT_TESTMODE
  else match bootChoice boot (s.rd .MOD_BOOT_MARKED) c.imageAOk c.imageBOk with
    | some (i, fallback) =>
      let s := s.wr .MOD_BOOT_SLOT 0 i
      let s := s.whenS fallback (fun s => (s.flag .MOD_BOOT_FALLBACK).fault srcMgmt 3 1)
      (s.copyImage i).firmwareRuns c
    | none =>
      let s := { s with modl := { s.modl with waitIn := some c, bootFail := boot != 3 } }
      s.pins

/-- COLD_START (R499, R509, R511, R515 to R519): a wipe comes before any firmware; only a module that is off starts, after a thermal trip only once every
sensor reads below 85 °C (R522). -/
def execColdStart (c : ColdInput) (s : State) : Host.Outcome State Fault Refusal :=
  .next <|
    if s.modl.running || s.pow.thermal then s
    else
      let s := s.powerOff s.modl.coldCause
      let s := (s.wr .MOD_RSTCAUSE_CAUSE 0 s.modl.coldCause).latchStraps c.straps.toNat
      let s := { s with modl := { s.modl with running := true, coldCause := 0 } }
      let s := s.bootWipe c.lidTripped
      if s.on .SPD_SECSTAT_WIPING then { s with modl := { s.modl with wipeIn := some c } } else s.bootFirmware c

/-- SECURE_WIPE_DONE (R4, R327, R426, R519): the life-cycle moves where the wipe was for it, and the operation ends; at a cold start
the boot ROM goes on. -/
def execSecureWipeDone (verified : Bool) (s : State) : Host.Outcome State Fault Refusal :=
  .next <|
    if !s.on .SPD_SECSTAT_WIPING then s
    else
      let target := s.sec.target
      let s := s.endWipe verified
      match s.modl.wipeIn with
      | some c => ({ s with modl := { s.modl with wipeIn := none } }).bootFirmware c
      | none =>
        let s := { s with sec := { s.sec with target := none } }
        let s := if verified then (match target with | some t => s.moveLcs t | none => s) else s
        let s := s.whenS (verified && s.modl.fw) (·.wipeFollows)
        if target.isNone then s
        else if verified then s.endLifecycle stDone []
        else s.endLifecycle errInternal [(1, 1), (2, srcSecure), (1, 2)]

/-- UART_BOOT_IMAGE_RECEIVED (R500, R516): an image that verifies runs, and is not stored. -/
def execUartBootImageReceived (sigOk : Bool) (s : State) : Host.Outcome State Fault Refusal :=
  .next <|
    match s.modl.waitIn with
    | some c => if sigOk then (s.flag .MOD_BOOT_UARTBOOT).firmwareRuns c else s
    | none => s

end Sys2Proof.Machine
end

