-- ==== Sys2Proof/Machine/Power.lean ====
section
/-! DEFINITION. Supply monitoring (R508 to R510), rail faults (R505, R506) and thermal trips (R522). -/

namespace Sys2Proof.Machine

/-! ### Power-fail warnings (R200, R291, R431, R508, R510) -/

/-- The bus is measured (R524). -/
def State.measureBus (s : State) (mv : Nat) : State :=
  (s.wr .PWR_VBUS_MV 0 mv).wr .PWR_VBUS_MINMV 0 (min mv (s.rd .PWR_VBUS_MINMV))

/-- The warning's flush starts and the drains stop (R291, R431, R508): a warm reset under way has its snapshot already (R510). -/
def State.startFlush (s : State) : State :=
  let s := (s.stopDrains.wr .PWR_STAT_STATE 0 1).wr .MOD_STAT_PFW 0 1
  let s := { s with pow := { s.pow with snapRun := true, snapDone := s.modl.warm, flushStart := s.clock } }
  s.notePause.stopCores

/-- A power-fail warning (R508): counted and raised; during the flush of an earlier one, the two share it (R510). -/
def State.warn (s : State) : State :=
  let s := ((s.flag .PWR_EVT_WARN).bump .PWR_PFCNT_COUNT).fault srcPower 1 1
  if s.rd .PWR_STAT_STATE = 0 then s.startFlush else s

/-- POWER_FAIL_WARNING (R508): the bus is measured; the warning begins where the loss signal is asserted or the bus is below 11.4 V. -/
def execPowerFailWarning (loss : Bool) (mv : BitVec 16) (s : State) : Host.Outcome State Fault Refusal :=
  .next <|
    if !s.modl.running then s
    else
      let s := (s.measureBus mv.toNat).put .PWR_STAT_LOSS 0 loss
      if loss || decide (mv.toNat < 11400) then s.warn else s

/-- The module switches off once the flush of a thermal trip, or of a rail fault of the always-on domain, is complete
(R506, R522). -/
def State.switchOff (s : State) : State :=
  if s.pow.thermal then s.powerOff 2 else if s.pow.alwaysOn then s.powerOff 0 else s

/-- The flush is complete (R508): its duration, and the L4 reaction that it deferred (R485). -/
def State.endFlush (s : State) : State :=
  let p := s.pow
  let s := (s.wr .PWR_STAT_STATE 0 2).wr .PWR_FLUSHUS_US 0 (min 65535 ((s.clock - p.flushStart) / 1000))
  let s := { s with pow := { p with snapRun := false, deferred := false } }
  s.whenS (p.deferred && !s.modl.warm && s.modl.resetDue.isNone && !s.on .FLT_STAT_RESETHOLD) (·.faultReset)

/-- FLUSH_COMPLETE (R485, R508): once the snapshot is complete; a flow snapshot is the last thing it waits for. -/
def execFlushComplete (s : State) : Host.Outcome State Fault Refusal :=
  .next <| if s.rd .PWR_STAT_STATE = 1 ∧ s.pow.snapDone then s.endFlush.switchOff else s

/-- SUPPLY_RECOVERED (R510): the flush completes first; then the dip is raised and the freezes are lifted. -/
def execSupplyRecovered (s : State) : Host.Outcome State Fault Refusal :=
  .next <|
    if s.rd .PWR_STAT_STATE = 0 || s.pow.thermal || s.pow.alwaysOn then s
    else
      let s := if s.snapWaits then s.resetSnapshot else s
      let s := if s.rd .PWR_STAT_STATE = 1 then s.endFlush else s
      let s := (((s.setLive srcPower 1 1 false).fault srcPower 2 0).flag .PWR_EVT_DIP).wr .PWR_STAT_STATE 0 0
      let s := (s.wr .PWR_STAT_LOSS 0 0).wr .MOD_STAT_PFW 0 0
      let s := forN 96 (fun s e => s.setEng e { s.eng e with stopped := false }) s
      let s := forN 3 (fun s p => s.setPart p { s.part p with sending := none }) s
      s.notePause.resumeAccept.tryRelease.goOn

/-- BUS_BELOW_10_8_V (R509, R510): a snapshot that is not complete does not exist. -/
def execBusBelow108V (s : State) : Host.Outcome State Fault Refusal :=
  .next <| if s.modl.running then s.powerOff (if s.pow.thermal then 2 else 1) else s

/-! ### Thermal trips (R522) -/

/-- THERMAL_TRIP (R522): as a power-fail warning; off at once where the flush of an earlier one is complete. -/
def execThermalTrip (s : State) : Host.Outcome State Fault Refusal :=
  .next <|
    if !s.modl.running then s
    else
      let s := ({ s with pow := { s.pow with thermal := true } }).warn
      if s.rd .PWR_STAT_STATE = 2 then s.switchOff else s

/-- SENSORS_BELOW_85_C (R522): the cold start may begin, once the module has switched off. -/
def execSensorsBelow85C (s : State) : Host.Outcome State Fault Refusal :=
  .next <| if s.modl.running then s else { s with pow := { s.pow with thermal := false } }

/-! ### Rail faults (R505, R506) -/

/-- An hour. -/
def hourNs : Nat := 3600000000000

/-- One more than a clock time, within the last hour (0 none). -/
def State.within1h (s : State) (t : Nat) : Bool := t != 0 && decide (s.clock < t - 1 + hourNs)

/-- A chip reset that a rail fault calls for: merged into one that is due or under way, none in reset hold (R485, R506). -/
def State.railReset (s : State) : State :=
  if s.on .FLT_STAT_RESETHOLD || s.modl.warm || s.modl.resetDue.isSome then s else (s.bump .FLT_RSTCNT_COUNT).resetDue 5

/-- A domain without a consequence of its own: off until a warm reset, or for good when it recurs within 1 h of the
re-powering (R492, R506). -/
def State.railOther (s : State) (d : Nat) : State :=
  let again := s.within1h (tget 0 s.pow.repowered d)
  let p := s.pow
  let s := { s with pow := { p with railOff := tset false p.railOff d true
                                    leftOff := if again then tset false p.leftOff d true else p.leftOff } }
  (s.whenS again (·.flag .FLT_GSTAT_OUTSIDE)).railReset

/-- A scratchpad group: powered again at once with its banks zeroed, or left off at the second fault in 1 h (R422, R506). -/
def State.railSpd (s : State) (d : Nat) (again : Bool) : State :=
  let g := d - 145
  let on := bitOf (s.rd .SPD_STAT_ON) g
  let s := s.zeroGroup g
  if !on then s
  else if again then (s.wr .SPD_STAT_ON 0 (setBit (s.rd .SPD_STAT_ON) g false)).wr .SPD_STAT_CLEARING 0 (setBit (s.rd .SPD_STAT_CLEARING) g false)
  else { s with pow := { s.pow with spdHeal := g :: s.pow.spdHeal } }.wr .SPD_STAT_CLEARING 0 (setBit (s.rd .SPD_STAT_CLEARING) g true)

/-- An ingest lane: a lane in service or standing by is lost, one on the ladder fails its attempt (R86, R90, R506). -/
def State.railLane (s : State) (l : Nat) : State :=
  if s.climbing l then (s.sendStep l 4 1 0).failAttempt l else s.lanesFail [l] 1

/-- An egress port's link goes down (R289, R473). -/
def State.portDown (s : State) (q : Nat) : State :=
  if s.on .ETH_STAT_LINK q then ((s.wr .ETH_STAT_LINK q 0).wr .ETH_STAT_FEC_LOCK q 0).fault (srcPort q) 1 1 else s

/-- A domain is switched off. -/
def State.domainOff (s : State) (d : Nat) : State := { s with pow := { s.pow with railOff := tset false s.pow.railOff d true } }

/-- The consequence of a rail fault (R506). `again`: the domain had one within the last hour. -/
def State.railLost (s : State) (d : Nat) (again : Bool) : State :=
  if d < 96 then
    let st := s.rd .ENG_STAT_STATE d
    if s.inService d || st == egLoading then s.retireEngine d 3
    else if st = egSelftest then (s.retireEngine d 3).endLongOf (fun k => k == .engineRestore d) rejState
    else s
  else if d < 102 then (if s.stackOn (d - 96) then s.stackFails (d - 96) 2 else s)
  else if d < 126 then (s.domainOff d).railLane (d - 102)
  else if d < 134 then (s.domainOff d).portDown ((d - 126) / 4)
  else if 145 ≤ d ∧ d ≤ 160 then s.railSpd d again
  else if d = 161 then (s.domainOff d).refFault
  else if d = 163 then ({ s with pow := { s.pow with alwaysOn := true } }).warn
  else s.railOther d

/-- RAIL_FAULT (R473, R505, R506). -/
def execRailFault (d : Fin 164) (s : State) : Host.Outcome State Fault Refusal :=
  let d := d.val
  .next <|
    if !s.domainOn d || !s.modl.running then s
    else
      let again := s.within1h (tget 0 s.pow.railAt d)
      let s := { s with pow := { s.pow with railAt := tset 0 s.pow.railAt d (s.clock + 1) } }
      let s := (s.fault srcPower 3 1 d).flag .PWR_EVT_RAILFAULT
      let s := s.wr .PWR_DFAULT_MAP (d / 32) (setBit (s.rd .PWR_DFAULT_MAP (d / 32)) (d % 32) true)
      let s := (s.whenS (decide (126 ≤ d)) (·.partFault)).railLost d again
      if s.pow.alwaysOn && s.rd .PWR_STAT_STATE == 2 then s.switchOff else s

end Sys2Proof.Machine
end

