-- ==== Sys2Proof/Machine/Module.lean ====
section
/-! DEFINITION. What surrounds the die: transceivers (R496), straps and the JTAG port (R499, R501), fans and inlet air
(R473, R522), and the PCI Express link (R71, R454, R473, R505, R515). -/

namespace Sys2Proof.Machine

/-! ### Transceivers (R90, R495, R496) -/

/-- Lanes of an ingest cage; cage D carries the egress ports (R495). -/
def cageLanes (c : Nat) : List Nat := if c < 3 then (List.range 8).map (· + 8 * c) else []

/-- What `MOD_OPT` shows of a cage. -/
def State.setCage (s : State) (c : Nat) (present powered : Bool) : State :=
  (s.wr .MOD_OPT_PRESENT 0 (setBit (s.rd .MOD_OPT_PRESENT) c present)).wr .MOD_OPT_POWERED 0 (setBit (s.rd .MOD_OPT_POWERED) c powered)

/-- A lane of a transceiver that was left unpowered is OFF; a retired lane, and one in test mode, stays as it is. -/
def State.laneUnpowered (s : State) (l : Nat) : State :=
  let st := s.lnState l
  if st = lnRetired ∨ st = lnTest ∨ st = lnOff then s else s.laneOff l lnOff

/-- A lane whose transceiver is powered climbs, in data mode, once the cold start has run (R104, R496). -/
def State.lanePowered (s : State) (l : Nat) : State :=
  if s.lnState l = lnOff ∧ s.rd .VLK_CTL_MODE l = 1 ∧ s.modl.fw then s.climbOrOff l else s

/-- TRANSCEIVER_INSERTED (R496): powered up to a declared power class of 17 W, given in tenths. -/
def execTransceiverInserted (cage : Fin 4) (deciWatt : Nat) (s : State) : Host.Outcome State Fault Refusal :=
  let c := cage.val
  .next <|
    if deciWatt ≤ 170 then (cageLanes c).foldl (fun s l => s.lanePowered l) (s.setCage c true true)
    else (cageLanes c).foldl (fun s l => s.laneUnpowered l)
      (((s.setCage c true false).flag .MOD_EVT_OPTREJ).lanesFail (cageLanes c) 1)

/-- TRANSCEIVER_REMOVED (R90, R496): a loss of each of its lanes; cage D takes both ports' links down (R289). -/
def execTransceiverRemoved (cage : Fin 4) (s : State) : Host.Outcome State Fault Refusal :=
  let c := cage.val
  .next <|
    let s := s.setCage c false false
    let s := s.lanesFail (cageLanes c) 1
    if c = 3 then (s.portDown 0).portDown 1 else s

/-! ### Straps and the JTAG port (R499, R501) -/

/-- STRAP_CHANGE (R499): shown live, and an event when it differs from what was shown before. -/
def execStrapChange (live : BitVec 15) (s : State) : Host.Outcome State Fault Refusal :=
  .next <|
    let old := s.rd .MOD_STRAP_LIVE
    let s := s.wr .MOD_STRAP_LIVE 0 live.toNat
    if old = live.toNat then s else s.flag .MOD_EVT_STRAPCHG

/-- JTAG_INSTRUCTION (R501): EXTEST and CLAMP act as BYPASS outside test mode. -/
def execJtagInstruction (i : TapInstr) (s : State) : Host.Outcome State Fault Refusal :=
  .next <|
    let act := if (i = .extest ∨ i = .clamp) ∧ !s.on .MOD_STAT_TESTMODE then TapInstr.bypass else i
    { s with modl := { s.modl with tap := act } }

/-! ### Fans and air (R473, R522, R524) -/

/-- FAN_FAILED (R473). -/
def execFanFailed (i : Fin 6) (s : State) : Host.Outcome State Fault Refusal :=
  .next ((s.wr .PWR_FAN_FAILED 0 (setBit (s.rd .PWR_FAN_FAILED) i.val true)).fault srcThermal 2 1)

/-- INLET_AIR_ABOVE_40 (R522): the module keeps running. -/
def execInletAirAbove40 (t : Byte) (s : State) : Host.Outcome State Fault Refusal :=
  .next <|
    let s := s.wr .PWR_TEMP_INLET 0 t.toNat
    if 40 < signed 8 t.toNat then s.fault srcThermal 3 0 else s.setLive srcThermal 0 3 false

/-! ### PCI Express (R71, R454, R473, R505, R515) -/

/-- PCIE_LINK_DOWN (R454, R473): the host's locks are released and its waiting accesses discarded. -/
def execPcieLinkDown (s : State) : Host.Outcome State Fault Refusal :=
  .next <|
    let up := s.modl.pciUp
    let s := ({ s with modl := { s.modl with pciUp := false } }).dropLocks 0
    if up then (s.setLive srcPci 1 1 true).fault srcPci 1 1 else s

/-- The size that the host gives BAR4 through the Resizable BAR capability: no command carries it, so that a link that comes up finds
one of the seven, a free choice (R446; log 2). -/
def State.resizeBar (s : State) : State := (s.wr .FAB_APSIZE_LOG2 0 (30 + s.freeVal.toNat % 7)).drawn

/-- PCIE_LINK_TRAINED (R71, R446, R473, R500): below x16 at 64 GT/s it is a fault of class C. -/
def execPcieLinkTrained (width : Nat) (rateGT : Nat) (s : State) : Host.Outcome State Fault Refusal :=
  .next <|
    if !s.modl.running then s
    else
      let s := if s.modl.pciUp then s else s.resizeBar
      let s := { s with modl := { s.modl with pciUp := true, perst := false, pciWidth := width, pciRate := rateGT } }
      let low := decide (width < 16 ∨ rateGT < 64)
      let s := (s.setLive srcPci 1 1 false).setLive srcPci 0 4 low
      if low then s.fault srcPci 4 0 else s

/-- FUNDAMENTAL_RESET_RELEASED (R505, R515): the PCI Express domain is powered. -/
def execFundamentalResetReleased (s : State) : Host.Outcome State Fault Refusal :=
  .next { s with modl := { s.modl with perst := false } }

end Sys2Proof.Machine
end

