-- ==== Sys2Proof/Machine/SysCmds.lean ====
section
/-! DEFINITION. Winos commands of the System and the Links and sessions groups (R354, R359, R349 to R351). The
commands that reset the module, change its life-cycle or its firmware are in `Module`. -/

namespace Sys2Proof.Machine

/-- NOP (R354). -/
def execNop (h : Hdr) (s : State) : Host.Outcome State Fault Refusal :=
  .next (s.winos (.nop (hdrPlain h)) h 0x0100 0 true true (fun s => s.ok))

/-- The ordering code, 16 bytes of ASCII filled with spaces (R3, R354). -/
def orderingCode : Nat := leVal (ascii (if Config.orderedMa then "OGX-4096-MA     " else "OGX-4096-ME     "))

/-- IDENTIFY (R354). -/
def execIdentify (h : Hdr) (s : State) : Host.Outcome State Fault Refusal :=
  .next (s.winos (.identify (hdrPlain h)) h 0x0101 0 true true (fun s =>
    s.ok [(16, orderingCode), (8, Config.serial.toNat), (4, (Config.imageVersion false).toNat), (4, (Config.imageVersion true).toNat),
      (1, s.rd .MOD_BOOT_SLOT), (1, s.lcs), (1, s.moduleId)]))

/-- SET_MODID (R354, R500): an ID set by strap stands, and no session may exist. -/
def execSetModid (h : Hdr) (id : Byte) (s : State) : Host.Outcome State Fault Refusal :=
  .next (s.winos (.setModid (hdrPlain h) id) h 0x0102 1 true true (fun s =>
    if 254 < id.toNat then s.bad 0
    else if s.rd .MOD_STRAP_MODID ≠ 255 ∨ (List.range 256).any (fun n => s.rd .VSN_SSTAT_STATE n != ssFree) then s.rej rejState
    else ({ s.wr .MOD_ID_ID 0 id.toNat with modl := { s.modl with idByCmd := true } } : State).ok))

/-- Engines in a state. -/
def State.enginesIn (s : State) (st : Nat) : Nat := ((List.range 96).filter (fun e => s.rd .ENG_STAT_STATE e == st)).length

/-- STATUS (R354, R435): the items of the table in its order, then whether the power-loss part of the guarantee has lapsed;
their widths are the model's (log 9). -/
def execStatus (h : Hdr) (s : State) : Host.Outcome State Fault Refusal :=
  .next (s.winos (.status (hdrPlain h)) h 0x0104 0 true true (fun s =>
    s.ok [(1, s.rd .MOD_STAT_READY), (1, s.rd .REF_STAT_STATE), (1, s.rd .DLR_STAT_ACTIVE), (1, s.rd .DLR_STAT_DEALPEND),
      (1, s.rd .DLR_STAT_BUILT), (1, s.rd .DLR_STAT_ADMITTED), (1, s.enginesIn egActive), (1, s.enginesIn egStandby),
      (1, s.enginesIn egRetired), (1, s.rd .MOD_STAT_FAULTN), (1, s.rd .MOD_STAT_ERRN), (8, s.dealer.dsn),
      (1, s.rd .LGR_STAT_RO)]))

/-- UART_CLOSE (R351): the UART carries only log text after the reply. -/
def execUartClose (h : Hdr) (s : State) : Host.Outcome State Fault Refusal :=
  .next (s.winos (.uartClose (hdrPlain h)) h 0x0107 0 true true (fun s => (s.wr .DLR_STAT_UARTEN 0 0).ok))

/-- MGMT_CFG (R349): an address and prefix length stored in module flash, in effect after the reply. -/
def execMgmtCfg (h : Hdr) (ip : Word) (plen : Byte) (gw : Word) (s : State) : Host.Outcome State Fault Refusal :=
  .next (s.winos (.mgmtCfg (hdrPlain h) ip plen gw) h 0x0109 9 true true (fun s =>
    if 32 < plen.toNat then s.bad 4
    else ({ s with modl := { s.modl with mgmtIp := ip.toNat, mgmtPlen := plen.toNat, mgmtGw := gw.toNat } } : State).ok))

/-- The mask of a management source is replaced; a mask of 0 ends its subscription (R354, R359). -/
def putMgmt (l : List (Src × Nat)) (src : Src) (mask : Nat) : List (Src × Nat) :=
  let l := l.filter (fun p => p.1 != src)
  if mask = 0 then l else l ++ [(src, mask)]

/-- EVT_SUBSCRIBE (R354, R359): the port mask of a queue pair 0 to 15 or, as destination 16, of the command's
own management source (log 9); mask bits that are no port are refused (R9). -/
def execEvtSubscribe (h : Hdr) (mask : BitVec 16) (dest : Byte) (s : State) : Host.Outcome State Fault Refusal :=
  .next (s.winos (.evtSubscribe (hdrPlain h) mask dest) h 0x010A 3 true true (fun s =>
    let d := dest.toNat
    if mask &&& 0xF001 ≠ 0 then s.bad 0
    else if d < 16 then ({ s with dealer := { s.dealer with masks := tset 0 s.dealer.masks d mask.toNat } } : State).ok
    else if d = 16 ∧ hdrOverMgmt h then
      ({ s with dealer := { s.dealer with mgmt := putMgmt s.dealer.mgmt h.src mask.toNat } } : State).ok
    else s.bad 2))

/-- EVT_READ (R354, R350): the kept events from a DSN on, before this command's own. -/
def execEvtRead (h : Hdr) (first : BitVec 64) (count : BitVec 16) (s : State) : Host.Outcome State Fault Refusal :=
  .next (s.winos (.evtRead (hdrPlain h) first count) h 0x010B 10 true true (fun s =>
    let l := (s.dealer.events.filter (fun e => decide (first.toNat ≤ e.dsn ∧ e.dsn < s.lastDsn))).reverse
    let n := if hdrOverMgmt h then min 29 count.toNat else count.toNat
    if count.toNat = 0 ∨ 4096 < count.toNat then s.bad 8
    else if l.isEmpty then s.rej rejState
    else s.ok ((2, (l.take n).length) :: (l.take n).flatMap Event.params)))

/-- A lane operation of that lane is in progress. -/
def State.laneBusy (s : State) (l : Nat) : Bool :=
  s.dealer.longs.any (fun o => o.kind == .laneRelease l || o.kind == .laneRestore l)

/-- What LANE_RELEASE does once it is answered (R103): done at once, or when the epoch without the lane opens; without effect on
a lane whose transceiver was left unpowered, which stays OFF (R496; DEDUCED, log 29). -/
def State.goRelease (s : State) (l : Nat) : State :=
  if !s.laneBusy l then s
  else if s.cageRejected l then s.endLongOf (fun k => k == .laneRelease l) rejState
  else
    let r := s.releaseLane l
    if r.2 then r.1 else r.1.endLongOf (fun k => k == .laneRelease l) stDone

/-- What LANE_RESTORE does once it is answered (R88, R101, R104): a lane in service goes to its home role; a climbing one
takes it when it has passed; any other begins to climb. -/
def State.goRestore (s : State) (l : Nat) : State :=
  if !s.laneBusy l then s
  else if s.lnState l = lnService then s.sendHome l
  else if s.climbing l then s.setLane l { s.lane l with spare := false, homing := true }
  else s.restoreLane l

/-- LANE_RELEASE (R103, R354). -/
def execLaneRelease (h : Hdr) (lane : Byte) (s : State) : Host.Outcome State Fault Refusal :=
  .next (s.winos (.laneRelease (hdrPlain h) lane) h 0x0201 1 true false (fun s =>
    let l := lane.toNat
    if 24 ≤ l then s.bad 0
    else if s.laneBusy l then s.rej rejBusy
    else { s.begin h 0x0201 (.laneRelease l) with after := (·.goRelease l) }))

/-- LANE_RESTORE (R88, R104, R354). -/
def execLaneRestore (h : Hdr) (lane : Byte) (s : State) : Host.Outcome State Fault Refusal :=
  .next (s.winos (.laneRestore (hdrPlain h) lane) h 0x0202 1 true false (fun s =>
    let l := lane.toNat
    if 24 ≤ l then s.bad 0
    else if s.laneBusy l then s.rej rejBusy
    else { s.begin h 0x0202 (.laneRestore l) with after := (·.goRestore l) }))

/-- BUNDLE_RESET (R102). -/
def execBundleReset (h : Hdr) (bundle : Byte) (s : State) : Host.Outcome State Fault Refusal :=
  .next (s.winos (.bundleReset (hdrPlain h) bundle) h 0x0203 1 true false (fun s =>
    if 5 ≤ bundle.toNat then s.bad 0 else (s.bundleReset bundle.toNat).ok))

/-- SESSION_CLOSE (R129, R354). -/
def execSessionClose (h : Hdr) (session : Byte) (s : State) : Host.Outcome State Fault Refusal :=
  .next (s.winos (.sessionClose (hdrPlain h) session) h 0x0204 1 true false (fun s =>
    let n := session.toNat
    if s.rd .VSN_SSTAT_STATE n = ssFree then s.rej rejState else (s.closeSession n).ok))

/-- FLOW_LIST (R155, R350). -/
def execFlowList (h : Hdr) (session : Byte) (first : BitVec 16) (s : State) : Host.Outcome State Fault Refusal :=
  .next (s.winos (.flowList (hdrPlain h) session first) h 0x0205 3 true false (fun s =>
    let fs := s.flowsOf session.toNat
    let l := fs.drop first.toNat
    let l := if hdrOverMgmt h then l.take 44 else l
    s.ok ([(2, fs.length), (2, first.toNat)] ++ l.map (fun f => (32, leVal (s.fstate f))))))

end Sys2Proof.Machine
end

