-- ==== Sys2Proof/Machine/Dispatch.lean ====
section
/-! DEFINITION. The dispatch of the commands: one arm per constructor of Instr. -/

namespace Sys2Proof.Machine

def exec (i : Instr) (s : State) : Host.Outcome State Fault Refusal :=
  match i with
  | .registerWrite m off size v => Sys2Proof.Machine.execRegisterWrite m off size v s
  | .readClear m off => Sys2Proof.Machine.execReadClear m off s
  | .lowWordRead m off => Sys2Proof.Machine.execLowWordRead m off s
  | .offer l msg => Sys2Proof.Machine.execOffer l msg s
  | .offerRepeat => Sys2Proof.Machine.execOfferRepeat s
  | .offerGatherTimeout b => Sys2Proof.Machine.execOfferGatherTimeout b s
  | .ladderCheckDone l errors bits => Sys2Proof.Machine.execLadderCheckDone l errors bits s
  | .stepPass l msg => Sys2Proof.Machine.execStepPass l msg s
  | .stepFail l msg => Sys2Proof.Machine.execStepFail l msg s
  | .ladderStepDeadline l => Sys2Proof.Machine.execLadderStepDeadline l s
  | .retryWaitExpiry l => Sys2Proof.Machine.execRetryWaitExpiry l s
  | .alignDone l skewNs => Sys2Proof.Machine.execAlignDone l skewNs s
  | .laneLossOfLock l => Sys2Proof.Machine.execLaneLossOfLock l s
  | .uncorrectableCodeword l => Sys2Proof.Machine.execUncorrectableCodeword l s
  | .berMeasurement l meas => Sys2Proof.Machine.execBerMeasurement l meas s
  | .laneDownRepeat b => Sys2Proof.Machine.execLaneDownRepeat b s
  | .epochTimeout b => Sys2Proof.Machine.execEpochTimeout b s
  | .epochMarker b epoch => Sys2Proof.Machine.execEpochMarker b epoch s
  | .laneDown l msg => Sys2Proof.Machine.execLaneDown l msg s
  | .vlkCtlMode l mode => Sys2Proof.Machine.execVlkCtlMode l mode s
  | .bitslip l => Sys2Proof.Machine.execBitslip l s
  | .slipComplete l => Sys2Proof.Machine.execSlipComplete l s
  | .restart l => Sys2Proof.Machine.execRestart l s
  | .cntclr l => Sys2Proof.Machine.execCntclr l s
  | .single l => Sys2Proof.Machine.execSingle l s
  | .burst l blen => Sys2Proof.Machine.execBurst l blen s
  | .vlkPchkEn l => Sys2Proof.Machine.execVlkPchkEn l s
  | .vlkBctlReset b => Sys2Proof.Machine.execVlkBctlReset b s
  | .transceiverInserted cage deciWatt => Sys2Proof.Machine.execTransceiverInserted cage deciWatt s
  | .transceiverRemoved cage => Sys2Proof.Machine.execTransceiverRemoved cage s
  | .dataUnit b bytes => Sys2Proof.Machine.execDataUnit b bytes s
  | .linkctl b bytes => Sys2Proof.Machine.execLinkctl b bytes s
  | .initRepeat b => Sys2Proof.Machine.execInitRepeat b s
  | .unitResendTimeout b => Sys2Proof.Machine.execUnitResendTimeout b s
  | .sopen b f => Sys2Proof.Machine.execSopen b f s
  | .sready b f => Sys2Proof.Machine.execSready b f s
  | .sclose b f => Sys2Proof.Machine.execSclose b f s
  | .freq b f => Sys2Proof.Machine.execFreq b f s
  | .frelease b f => Sys2Proof.Machine.execFrelease b f s
  | .fskip b f => Sys2Proof.Machine.execFskip b f s
  | .keepalive b f => Sys2Proof.Machine.execKeepalive b f s
  | .data b f => Sys2Proof.Machine.execData b f s
  | .heldFrameAcceptance f => Sys2Proof.Machine.execHeldFrameAcceptance f s
  | .acceptAckTimer => Sys2Proof.Machine.execAcceptAckTimer s
  | .sresetRepeat sid => Sys2Proof.Machine.execSresetRepeat sid s
  | .flowSuspect f => Sys2Proof.Machine.execFlowSuspect f s
  | .flowSilent f => Sys2Proof.Machine.execFlowSilent f s
  | .retentionTimeOut sid => Sys2Proof.Machine.execRetentionTimeOut sid s
  | .vsnSctlClose sid => Sys2Proof.Machine.execVsnSctlClose sid s
  | .vsnSctlReset sid => Sys2Proof.Machine.execVsnSctlReset sid s
  | .rangeChannelClose t ch => Sys2Proof.Machine.execRangeChannelClose t ch s
  | .deckDeadline t ch => Sys2Proof.Machine.execDeckDeadline t ch s
  | .cutRangeChannel => Sys2Proof.Machine.execCutRangeChannel s
  | .rangeChannelRelease t ch => Sys2Proof.Machine.execRangeChannelRelease t ch s
  | .allot e => Sys2Proof.Machine.execAllot e s
  | .runEnd e unit run => Sys2Proof.Machine.execRunEnd e unit run s
  | .merge t ch unit => Sys2Proof.Machine.execMerge t ch unit s
  | .trickClosed => Sys2Proof.Machine.execTrickClosed s
  | .governorMeasurement ms => Sys2Proof.Machine.execGovernorMeasurement ms s
  | .paceDeficitCheck => Sys2Proof.Machine.execPaceDeficitCheck s
  | .spareArrayCheckDone e pass => Sys2Proof.Machine.execSpareArrayCheckDone e pass s
  | .engineSelftestDone e pass => Sys2Proof.Machine.execEngineSelftestDone e pass s
  | .engCtlRetire e => Sys2Proof.Machine.execEngCtlRetire e s
  | .engCtlRestore e => Sys2Proof.Machine.execEngCtlRestore e s
  | .engGctlRelease => Sys2Proof.Machine.execEngGctlRelease s
  | .beamSum t ch block run => Sys2Proof.Machine.execBeamSum t ch block run s
  | .zoomOutput slot => Sys2Proof.Machine.execZoomOutput slot s
  | .zoomSlotStart slot => Sys2Proof.Machine.execZoomSlotStart slot s
  | .zomCoefWrite set tap v => Sys2Proof.Machine.execZomCoefWrite set tap v s
  | .weightCommandBegin => Sys2Proof.Machine.execWeightCommandBegin s
  | .weightHandOver => Sys2Proof.Machine.execWeightHandOver s
  | .planHandOver => Sys2Proof.Machine.execPlanHandOver s
  | .kernelCopy e => Sys2Proof.Machine.execKernelCopy e s
  | .exportStart => Sys2Proof.Machine.execExportStart s
  | .exportComplete => Sys2Proof.Machine.execExportComplete s
  | .trickSummary p => Sys2Proof.Machine.execTrickSummary p s
  | .packetDrained p => Sys2Proof.Machine.execPacketDrained p s
  | .ringLayout => Sys2Proof.Machine.execRingLayout s
  | .hostSignalTimeout => Sys2Proof.Machine.execHostSignalTimeout s
  | .outRelhi high => Sys2Proof.Machine.execOutRelhi high s
  | .outHrd v => Sys2Proof.Machine.execOutHrd v s
  | .ethLinkUp q => Sys2Proof.Machine.execEthLinkUp q s
  | .ethLinkDown q => Sys2Proof.Machine.execEthLinkDown q s
  | .ethRxdisc q => Sys2Proof.Machine.execEthRxdisc q s
  | .ptpMessage q msg => Sys2Proof.Machine.execPtpMessage q msg s
  | .delayReqTimer => Sys2Proof.Machine.execDelayReqTimer s
  | .coreNop e mv => Sys2Proof.Machine.execCoreNop e mv s
  | .br e target mv => Sys2Proof.Machine.execBr e target mv s
  | .brc e flag target mv => Sys2Proof.Machine.execBrc e flag target mv s
  | .call e target mv => Sys2Proof.Machine.execCall e target mv s
  | .ret e mv => Sys2Proof.Machine.execRet e mv s
  | .reti e mv => Sys2Proof.Machine.execReti e mv s
  | .wait e mv => Sys2Proof.Machine.execWait e mv s
  | .halt e mv => Sys2Proof.Machine.execHalt e mv s
  | .trap e t => Sys2Proof.Machine.execTrap e t s
  | .add e d a b mv => Sys2Proof.Machine.execAdd e d a b mv s
  | .sub e d a b mv => Sys2Proof.Machine.execSub e d a b mv s
  | .and e d a b mv => Sys2Proof.Machine.execAnd e d a b mv s
  | .or e d a b mv => Sys2Proof.Machine.execOr e d a b mv s
  | .xor e d a b mv => Sys2Proof.Machine.execXor e d a b mv s
  | .shl e d a sh mv => Sys2Proof.Machine.execShl e d a sh mv s
  | .shr e d a sh mv => Sys2Proof.Machine.execShr e d a sh mv s
  | .sar e d a sh mv => Sys2Proof.Machine.execSar e d a sh mv s
  | .mul e d a b mv => Sys2Proof.Machine.execMul e d a b mv s
  | .cmp e a b mv => Sys2Proof.Machine.execCmp e a b mv s
  | .movs e toSpecial d sr mv => Sys2Proof.Machine.execMovs e toSpecial d sr mv s
  | .vadd e d a b mv => Sys2Proof.Machine.execVadd e d a b mv s
  | .vsub e d a b mv => Sys2Proof.Machine.execVsub e d a b mv s
  | .vmin e d a b mv => Sys2Proof.Machine.execVmin e d a b mv s
  | .vmax e d a b mv => Sys2Proof.Machine.execVmax e d a b mv s
  | .vabs e d a mv => Sys2Proof.Machine.execVabs e d a mv s
  | .vand e d a b mv => Sys2Proof.Machine.execVand e d a b mv s
  | .vor e d a b mv => Sys2Proof.Machine.execVor e d a b mv s
  | .vxor e d a b mv => Sys2Proof.Machine.execVxor e d a b mv s
  | .vshl e d a sh mv => Sys2Proof.Machine.execVshl e d a sh mv s
  | .vsar e d a sh mv => Sys2Proof.Machine.execVsar e d a sh mv s
  | .vsel e d a b mv => Sys2Proof.Machine.execVsel e d a b mv s
  | .vbcast e d a mv => Sys2Proof.Machine.execVbcast e d a mv s
  | .clra e acc mv => Sys2Proof.Machine.execClra e acc mv s
  | .mac e acc a b mv => Sys2Proof.Machine.execMac e acc a b mv s
  | .msu e acc a b mv => Sys2Proof.Machine.execMsu e acc a b mv s
  | .accadd e acc a mv => Sys2Proof.Machine.execAccadd e acc a mv s
  | .cjoin e acc lo hi upper mv => Sys2Proof.Machine.execCjoin e acc lo hi upper mv s
  | .mova e d d2 acc mv => Sys2Proof.Machine.execMova e d d2 acc mv s
  | .narr e d acc k mv => Sys2Proof.Machine.execNarr e d acc k mv s
  | .bxclr e w mv => Sys2Proof.Machine.execBxclr e w mv s
  | .bxacc e a mv => Sys2Proof.Machine.execBxacc e a mv s
  | .bxget e d mv => Sys2Proof.Machine.execBxget e d mv s
  | .narre e d a mv => Sys2Proof.Machine.execNarre e d a mv s
  | .fcvt e d src mv => Sys2Proof.Machine.execFcvt e d src mv s
  | .fadd e d a b mv => Sys2Proof.Machine.execFadd e d a b mv s
  | .fsub e d a b mv => Sys2Proof.Machine.execFsub e d a b mv s
  | .fmul e d a b mv => Sys2Proof.Machine.execFmul e d a b mv s
  | .fdiv e d a b mv => Sys2Proof.Machine.execFdiv e d a b mv s
  | .f16 e d a mv => Sys2Proof.Machine.execF16 e d a mv s
  | .seta e ar fld d mv => Sys2Proof.Machine.execSeta e ar fld d mv s
  | .geta e d ar fld mv => Sys2Proof.Machine.execGeta e d ar fld mv s
  | .moda e ar step mv => Sys2Proof.Machine.execModa e ar step mv s
  | .ldi e d imm => Sys2Proof.Machine.execLdi e d imm s
  | .loop e lend count mv => Sys2Proof.Machine.execLoop e lend count mv s
  | .endl e mv => Sys2Proof.Machine.execEndl e mv s
  | .arrayAndDealerInstruction e mv => Sys2Proof.Machine.execArrayAndDealerInstruction e mv s
  | .outputInstruction e mv => Sys2Proof.Machine.execOutputInstruction e mv s
  | .interruptEntry e cause => Sys2Proof.Machine.execInterruptEntry e cause s
  | .ktime e => Sys2Proof.Machine.execKtime e s
  | .winosPacketDiscarded p => Sys2Proof.Machine.execWinosPacketDiscarded p s
  | .pciSqtail q v => Sys2Proof.Machine.execPciSqtail q v s
  | .pciCqhead q v => Sys2Proof.Machine.execPciCqhead q v s
  | .pciQcfgEn q en => Sys2Proof.Machine.execPciQcfgEn q en s
  | .nop h => Sys2Proof.Machine.execNop h s
  | .identify h => Sys2Proof.Machine.execIdentify h s
  | .setModid h id => Sys2Proof.Machine.execSetModid h id s
  | .reset h kind => Sys2Proof.Machine.execReset h kind s
  | .status h => Sys2Proof.Machine.execStatus h s
  | .fwWrite h image off data => Sys2Proof.Machine.execFwWrite h image off data s
  | .fwCommit h image => Sys2Proof.Machine.execFwCommit h image s
  | .uartClose h => Sys2Proof.Machine.execUartClose h s
  | .lifecycle h target => Sys2Proof.Machine.execLifecycle h target s
  | .mgmtCfg h ip plen gw => Sys2Proof.Machine.execMgmtCfg h ip plen gw s
  | .evtSubscribe h mask dest => Sys2Proof.Machine.execEvtSubscribe h mask dest s
  | .evtRead h first count => Sys2Proof.Machine.execEvtRead h first count s
  | .laneRelease h lane => Sys2Proof.Machine.execLaneRelease h lane s
  | .laneRestore h lane => Sys2Proof.Machine.execLaneRestore h lane s
  | .bundleReset h bundle => Sys2Proof.Machine.execBundleReset h bundle s
  | .sessionClose h session => Sys2Proof.Machine.execSessionClose h session s
  | .flowList h session first => Sys2Proof.Machine.execFlowList h session first s
  | .planDefine h slot sect off data => Sys2Proof.Machine.execPlanDefine h slot sect off data s
  | .planBuild h slot => Sys2Proof.Machine.execPlanBuild h slot s
  | .planDeal h slot d => Sys2Proof.Machine.execPlanDeal h slot d s
  | .planCancel h => Sys2Proof.Machine.execPlanCancel h s
  | .planReset h slot source => Sys2Proof.Machine.execPlanReset h slot source s
  | .planErase h slot => Sys2Proof.Machine.execPlanErase h slot s
  | .planStatus h slot => Sys2Proof.Machine.execPlanStatus h slot s
  | .planLoadTable h slot sect source addr len => Sys2Proof.Machine.execPlanLoadTable h slot sect source addr len s
  | .setReserve h reserve => Sys2Proof.Machine.execSetReserve h reserve s
  | .engineRelease h => Sys2Proof.Machine.execEngineRelease h s
  | .trickClose h boundary => Sys2Proof.Machine.execTrickClose h boundary s
  | .trickStatus h => Sys2Proof.Machine.execTrickStatus h s
  | .deadlineSet h ms => Sys2Proof.Machine.execDeadlineSet h ms s
  | .weightWrite h kind geo off len source addr data => Sys2Proof.Machine.execWeightWrite h kind geo off len source addr data s
  | .weightCopy h kind => Sys2Proof.Machine.execWeightCopy h kind s
  | .weightDeal h kinds d => Sys2Proof.Machine.execWeightDeal h kinds d s
  | .zoomChange h slot set c => Sys2Proof.Machine.execZoomChange h slot set c s
  | .zoomCoef h set taps => Sys2Proof.Machine.execZoomCoef h set taps s
  | .release h trick => Sys2Proof.Machine.execRelease h trick s
  | .resend h part first count => Sys2Proof.Machine.execResend h part first count s
  | .statsSend h trick part => Sys2Proof.Machine.execStatsSend h trick part s
  | .ringSize h gib => Sys2Proof.Machine.execRingSize h gib s
  | .hostRing h base log2 wb vec modk modus => Sys2Proof.Machine.execHostRing h base log2 wb vec modk modus s
  | .timeSet h sec ns => Sys2Proof.Machine.execTimeSet h sec ns s
  | .reEpoch h eps sec ns => Sys2Proof.Machine.execReEpoch h eps sec ns s
  | .mapSet h sec ns p q => Sys2Proof.Machine.execMapSet h sec ns p q s
  | .refCfg h params => Sys2Proof.Machine.execRefCfg h params s
  | .phaseStep h amount => Sys2Proof.Machine.execPhaseStep h amount s
  | .ptpCfg h params => Sys2Proof.Machine.execPtpCfg h params s
  | .ledgerRead h first count => Sys2Proof.Machine.execLedgerRead h first count s
  | .memStatus h stack => Sys2Proof.Machine.execMemStatus h stack s
  | .memCfg h params => Sys2Proof.Machine.execMemCfg h params s
  | .faultRead h source => Sys2Proof.Machine.execFaultRead h source s
  | .faultAck h source cls => Sys2Proof.Machine.execFaultAck h source cls s
  | .engineRetire h engine => Sys2Proof.Machine.execEngineRetire h engine s
  | .engineRestore h engine => Sys2Proof.Machine.execEngineRestore h engine s
  | .reactionSet h source cls level errn => Sys2Proof.Machine.execReactionSet h source cls level errn s
  | .keyEnrol h slot key => Sys2Proof.Machine.execKeyEnrol h slot key s
  | .keyLock h => Sys2Proof.Machine.execKeyLock h s
  | .kernelLoad h slot image => Sys2Proof.Machine.execKernelLoad h slot image s
  | .kernelErase h slot => Sys2Proof.Machine.execKernelErase h slot s
  | .regRead h addr count => Sys2Proof.Machine.execRegRead h addr count s
  | .regWrite h addr value => Sys2Proof.Machine.execRegWrite h addr value s
  | .selftest h block => Sys2Proof.Machine.execSelftest h block s
  | .ppsEdge r posErrNs => Sys2Proof.Machine.execPpsEdge r posErrNs s
  | .referenceMeasurement m => Sys2Proof.Machine.execReferenceMeasurement m s
  | .referenceNoLongerPresent r => Sys2Proof.Machine.execReferenceNoLongerPresent r s
  | .wtrExpiry r => Sys2Proof.Machine.execWtrExpiry r s
  | .ocxoWarm => Sys2Proof.Machine.execOcxoWarm s
  | .disagreementAverage selPpt otherPpt => Sys2Proof.Machine.execDisagreementAverage selPpt otherPpt s
  | .ocxoOutOfRegulation => Sys2Proof.Machine.execOcxoOutOfRegulation s
  | .faultStateEnd => Sys2Proof.Machine.execFaultStateEnd s
  | .timTrimLow v => Sys2Proof.Machine.execTimTrimLow v s
  | .timTrimHigh v => Sys2Proof.Machine.execTimTrimHigh v s
  | .timSecLowRead m => Sys2Proof.Machine.execTimSecLowRead m s
  | .stackTemperatureReading sid t => Sys2Proof.Machine.execStackTemperatureReading sid t s
  | .interfaceLockLost sid => Sys2Proof.Machine.execInterfaceLockLost sid s
  | .interfaceLockTimeout sid => Sys2Proof.Machine.execInterfaceLockTimeout sid s
  | .rebuild => Sys2Proof.Machine.execRebuild s
  | .commandAddressParityError sid pc replayOk => Sys2Proof.Machine.execCommandAddressParityError sid pc replayOk s
  | .refreshInterval sid pc queued => Sys2Proof.Machine.execRefreshInterval sid pc queued s
  | .fabricRead a => Sys2Proof.Machine.execFabricRead a s
  | .fabricWrite a data => Sys2Proof.Machine.execFabricWrite a data s
  | .atomicAdd a v => Sys2Proof.Machine.execAtomicAdd a v s
  | .atomicSwap a v => Sys2Proof.Machine.execAtomicSwap a v s
  | .lockedRead a last => Sys2Proof.Machine.execLockedRead a last s
  | .lockedWrite a data last => Sys2Proof.Machine.execLockedWrite a data last s
  | .lockTimeout m => Sys2Proof.Machine.execLockTimeout m s
  | .spdOwn m bank owner => Sys2Proof.Machine.execSpdOwn m bank owner s
  | .spdPwr req => Sys2Proof.Machine.execSpdPwr req s
  | .zeroingDone g => Sys2Proof.Machine.execZeroingDone g s
  | .patrolSegment out => Sys2Proof.Machine.execPatrolSegment out s
  | .lidOpened => Sys2Proof.Machine.execLidOpened s
  | .voltageGlitch => Sys2Proof.Machine.execVoltageGlitch s
  | .clockGlitch => Sys2Proof.Machine.execClockGlitch s
  | .secureWipeDone verified => Sys2Proof.Machine.execSecureWipeDone verified s
  | .ledgerRecordWrite badSlots => Sys2Proof.Machine.execLedgerRecordWrite badSlots s
  | .powerFailSnapshot => Sys2Proof.Machine.execPowerFailSnapshot s
  | .fabApbase v => Sys2Proof.Machine.execFabApbase v s
  | .remap m v => Sys2Proof.Machine.execRemap m v s
  | .dmaStart c => Sys2Proof.Machine.execDmaStart c s
  | .abort c => Sys2Proof.Machine.execAbort c s
  | .dmaResume => Sys2Proof.Machine.execDmaResume s
  | .descriptorFetch c => Sys2Proof.Machine.execDescriptorFetch c s
  | .descriptorEnd c => Sys2Proof.Machine.execDescriptorEnd c s
  | .busError addr ty collide => Sys2Proof.Machine.execBusError addr ty collide s
  | .doneErr c => Sys2Proof.Machine.execDoneErr c s
  | .autores => Sys2Proof.Machine.execAutores s
  | .faultMessage m => Sys2Proof.Machine.execFaultMessage m s
  | .fltAck v => Sys2Proof.Machine.execFltAck v s
  | .fltReact m v => Sys2Proof.Machine.execFltReact m v s
  | .mrstNAsserted => Sys2Proof.Machine.execMrstNAsserted s
  | .mrstNReleased => Sys2Proof.Machine.execMrstNReleased s
  | .warmReset => Sys2Proof.Machine.execWarmReset s
  | .powerFailWarning loss mv => Sys2Proof.Machine.execPowerFailWarning loss mv s
  | .flushComplete => Sys2Proof.Machine.execFlushComplete s
  | .busBelow108V => Sys2Proof.Machine.execBusBelow108V s
  | .supplyRecovered => Sys2Proof.Machine.execSupplyRecovered s
  | .coldStart c => Sys2Proof.Machine.execColdStart c s
  | .ready => Sys2Proof.Machine.execReady s
  | .strapChange live => Sys2Proof.Machine.execStrapChange live s
  | .railFault d => Sys2Proof.Machine.execRailFault d s
  | .thermalTrip => Sys2Proof.Machine.execThermalTrip s
  | .fanFailed n => Sys2Proof.Machine.execFanFailed n s
  | .inletAirAbove40 t => Sys2Proof.Machine.execInletAirAbove40 t s
  | .pcieLinkDown => Sys2Proof.Machine.execPcieLinkDown s
  | .pcieLinkTrained width rateGT => Sys2Proof.Machine.execPcieLinkTrained width rateGT s
  | .weightCommandComplete => Sys2Proof.Machine.execWeightCommandComplete s
  | .tableLoadComplete => Sys2Proof.Machine.execTableLoadComplete s
  | .statsSendComplete => Sys2Proof.Machine.execStatsSendComplete s
  | .kernelLoadComplete slot => Sys2Proof.Machine.execKernelLoadComplete slot s
  | .fwCommitComplete sigOk => Sys2Proof.Machine.execFwCommitComplete sigOk s
  | .selftestComplete pass source kind => Sys2Proof.Machine.execSelftestComplete pass source kind s
  | .dmaBurstComplete => Sys2Proof.Machine.execDmaBurstComplete s
  | .interfaceLockRegained sid => Sys2Proof.Machine.execInterfaceLockRegained sid s
  | .faultConditionCleared source cls => Sys2Proof.Machine.execFaultConditionCleared source cls s
  | .prbsCheckerLock l => Sys2Proof.Machine.execPrbsCheckerLock l s
  | .prbsCheckerLockLost l compared errored => Sys2Proof.Machine.execPrbsCheckerLockLost l compared errored s
  | .uartBootImageReceived sigOk => Sys2Proof.Machine.execUartBootImageReceived sigOk s
  | .jtagInstruction ti => Sys2Proof.Machine.execJtagInstruction ti s
  | .sensorsBelow85C => Sys2Proof.Machine.execSensorsBelow85C s
  | .fundamentalResetReleased => Sys2Proof.Machine.execFundamentalResetReleased s
  | .pwrMinrstRearm => Sys2Proof.Machine.execPwrMinrstRearm s

end Sys2Proof.Machine
end

