-- ==== Sys2Proof/Safety.lean ====
section
/-! DEFINITION. What counts as a safe state, in the terms the statements use. -/

namespace Sys2Proof.Machine

/-- The canonical form of the register file, the HBM, the scratchpad, the ledger's MRAM and host memory. -/
def State.memWf (s : State) : Prop :=
  twf 0 s.regs = true ∧ twf 0 s.hbm.mem = true ∧ twf 0 s.spd.mem = true ∧ twf 0 s.ledger.mem = true ∧
    twf 0 s.modl.hostMem = true

/-- What no command of the block may do: it leaves the queue of waiting commands alone, the life-cycle never turns
back (R4) and stays one of its states, no free value is drawn twice, the cleaned clock does not run backwards, and
every memory keeps its canonical form. -/
structure Keeps (s t : State) : Prop where
  pending : t.pending = s.pending
  lcs : s.lcs ≤ t.lcs
  lcsMax : t.lcs ≤ max s.lcs 3
  fresh : s.fresh ≤ t.fresh
  clock : s.clock ≤ t.clock
  mem : s.memWf → t.memWf

/-- The registers that a refused access of the fabric may touch: its error capture, its event bit and the count of class U faults
(R444, R467). -/
def refuseWord (o : Nat) : Bool := o == 0x40020 || o == 0x40024 || o == 0x40028 || o == 0x40040 || o == 0x2004c

/-- The registers that numbering an event may touch: what is lost or delivered (R348, R359), the refusal of a completion queue that the
outbound window does not reach (R447), and the fault count of DSN exhausted (R77). -/
def eventWord (o : Nat) : Bool :=
  o == 0x30020 || o == 0x30028 || o == 0x20050 || refuseWord o ||
    (decide (0x901000 ≤ o) && decide (o < 0x901400) && o % 0x40 == 0x1c)

/-- The outbound window reaches the completion queues (R447), and their tails lie in them. -/
def QueuesReach (s : State) : Prop :=
  ∀ q : Fin 16, s.hostIn (s.rd64 .PCI_CQBASE q.val) (64 * s.cqSize q.val) = true ∧ s.rd .PCI_QSTAT_CQTAIL q.val < s.cqSize q.val

/-- The outbound window reaches what the block writes to answer a command (R447). -/
def AnswerReaches (s : State) (h : Hdr) : Prop :=
  QueuesReach s ∧ ∀ x, hdrBuffer h = some x → s.hostIn x.1 x.2 = true

/-- The registers that raising a fault message may touch. -/
def faultWord (o : Nat) : Bool := o == 0x20048 || o == 0x2004c || o == 0x20050

/-- The two registers of a 64-bit quantity. -/
def Reg64.words (r : Reg64) (i : Nat) : List Nat := [r.base + r.stride * i, r.base + r.stride * i + 4]

/-- No register changes but those of `p`. -/
def SameWords (p : Nat → Bool) (s t : State) : Prop := ∀ o, p o = false → t.word o = s.word o

/-- Nothing changes but the registers in the list. -/
def OnlyWords (l : List Nat) (s t : State) : Prop := t = { s with regs := t.regs } ∧ ∀ o, o ∉ l → t.word o = s.word o

/-- Nothing changes but the registers in the list and what the model keeps of lane `l` beside them. -/
def OnlyLane (l : Nat) (ws : List Nat) (s t : State) : Prop :=
  t = { s with regs := t.regs, lanes := t.lanes } ∧ (∀ o, o ∉ ws → t.word o = s.word o) ∧ ∀ k, k ≠ l → t.lane k = s.lane k

/-- Command `c` completes in state `s`: it answers a next state, of which `P` holds. -/
def Leads (c : Instr) (s : State) (P : State → Prop) : Prop := ∃ t, exec c s = .next t ∧ P t

/-- The active copies stand as deals leave them (R37, R199, R364): the outgoing plan ends no later than the active one begins, at
a multiple of 4096, and the two are different copies. -/
def DealOrder (s : State) : Prop :=
  (∀ r, s.plans.active = some r → r.d % 4096 = 0) ∧
  ∀ q, s.plans.outgoing = some q → ∃ e, q.ends = some e ∧ ∀ r, s.plans.active = some r → e ≤ r.d ∧ q.id ≠ r.id

/-- The frames of a bundle that have left or wait to leave, oldest first, as far as they are not acknowledged (R119). -/
def State.outFrames (s : State) (b : Nat) : List (List Byte) := (s.link b).unacked.map (·.2) ++ (s.link b).txq

/-- One frame of this type and payload has left or waits to leave on bundle `b` for session `n`, whatever acknowledgements
its PIGGY repeats (R148). -/
def FrameSent (b type n : Nat) (payload : List Byte) (s t : State) : Prop :=
  ∃ x : State, x.moduleId = s.moduleId ∧ x.rd .VSN_SSTAT_EPOCH n = s.rd .VSN_SSTAT_EPOCH n ∧
    t.outFrames b = s.outFrames b ++ [x.mkFrame type n payload]

/-- The messages that have left between two states, newest first. -/
def newMsgs (s t : State) : List Msg := t.sent.take (t.sent.length - s.sent.length)

/-- The units of a bundle that have left between two states, oldest first (R117). -/
def unitsSent (b : Nat) (s t : State) : List (List Byte) :=
  (newMsgs s t).reverse.filterMap (fun m => match m with
    | .unit c l _ => if c = b then some l else none
    | _ => none)

/-- A completion of a long operation with a status (R339, R343). -/
def completes (o : LongOp) (st : Nat) : Msg → Bool
  | .winos p => decide (p.src = o.src ∧ p.kind = 2 ∧ p.opcode = o.opcode ∧ p.tag = o.tag ∧ p.status = st)
  | _ => false

/-- A long operation has ended with a status: it is in progress no longer, and its completion has left. -/
def Ended (o : LongOp) (st : Nat) (s t : State) : Prop :=
  t.dealer.longs = s.dealer.longs.erase o ∧ (newMsgs s t).any (completes o st) = true

/-- The block takes command `cmd` from its source, `len` parameter bytes long, and answers it by its own rule with `n`
parameter bytes: its parameters can be read, its header is right, its reply is not kept from before, the module is READY or the command needs no READY,
events still have numbers, and on a queue pair that takes no events the completion queue has room (R340 to R348, R515). -/
def CmdMay (s : State) (h : Hdr) (cmd : Instr) (len : Nat) (early : Bool) (n : Nat) : Prop :=
  s.takes h = true ∧ s.paramsLost h = false ∧ s.dealer.dsn < 2 ^ 63 ∧ s.dealer.kept.find? (fun k => k.reply.src == h.src && k.cmd == cmd) = none ∧
    hdrWrong h len = none ∧ (early = true ∨ s.on .MOD_STAT_READY = true) ∧
    ∀ q, h.src = .qp q → s.on .PCI_QCFG_EVQ q.val = false ∧
      s.owed q.val + 1 + 2 * cqNeed n (hdrBuffer h).isSome ≤ s.cqFree q.val

/-- The state in which a command that was taken runs: its entry is off its queue, it is counted, and event 0x0901 numbers it
(R340, R356). -/
def State.ordered (s : State) (h : Hdr) (opcode : Nat) : State :=
  ((s.popEntry h.src).bump .DLR_CMDCNT_COUNT).event 9 0x0901 (transportOf h.src) 0 (opcode + 65536 * h.tag.toNat)

/-- A command's reply has left, with a status, a DETAIL and parameters; its DSN is that of the command (R341, R353). -/
def Replied (s : State) (h : Hdr) (opcode status detail : Nat) (params : List (Nat × Nat)) (t : State) : Prop :=
  .winos { src := h.src, kind := 1, opcode := opcode, rpt := false, lost := false, tag := h.tag, dsn := s.dealer.dsn
           status := status, detail := detail, params := params } ∈ newMsgs s t

/-- The reply of a command that is accepted or done. -/
def Answered (s : State) (h : Hdr) (opcode status : Nat) (params : List (Nat × Nat)) (t : State) : Prop :=
  Replied s h opcode status 0 params t

/-- The reply of a command that is refused. -/
def Refused (s : State) (h : Hdr) (opcode status detail : Nat) (t : State) : Prop := Replied s h opcode status detail [] t

/-- A long operation has begun: the last of those in progress. -/
def Begun (s : State) (h : Hdr) (opcode : Nat) (kind : LongKind) (t : State) : Prop :=
  t.dealer.longs = s.dealer.longs ++ [⟨h.src, h.tag, opcode, kind, s.dealer.dsn⟩]

/-- A PTP message on a port of which a condition holds. -/
def ptpWhere (f : Nat → PtpMsg → Bool) : Msg → Bool
  | .ptp p m => f p m
  | _ => false

/-- Exactly one message has left between two states, and a condition holds of it. -/
def SentOne (f : Msg → Bool) (s t : State) : Prop := t.sent.tail = s.sent ∧ t.sent.head?.any f = true

/-- A core whose step has been counted (R335). -/
def CoreState.counted (c : CoreState) : CoreState :=
  if c.fw.isSome && !c.inHandler then { c with ksteps := c.ksteps + 1 } else c

/-- The instruction after the one at the program counter. -/
def CoreState.succ (c : CoreState) : Nat := (c.pc + 1) % 8192

/-- Engine `e` executes an instruction with these moves and goes on at `next`: its core runs, no STEP code is reserved,
and in a kernel neither the moves nor `next` leave the sandbox (R310, R333). -/
def CoreMay (s : State) (e : Nat) (mv : Moves) (next : Nat) : Prop :=
  s.coreRuns e = true ∧ movesIllegal mv = false ∧
    ((s.core e).st.kmode = true → inKernel next = true ∧ (movesList mv).all (fun m => !m.forbidden (s.core e)) = true)

/-- It goes on with the instruction that follows: no loop ends at this one (R319). -/
def CoreMayGoOn (s : State) (e : Nat) (mv : Moves) : Prop :=
  CoreMay s e mv (s.core e).succ ∧
    ((s.core e).level = 0 ∨ tget 0 (s.core e).lend ((s.core e).level - 1) ≠ (s.core e).pc ∨ (s.core e).st.larm = false)

/-- One instruction of engine `e` has run: its operation changed the core as `f` says, its moves were made, execution goes
on at `next`, the step was counted, and nothing else changed (R308, R311, R337). -/
def CoreStep (s : State) (e : Nat) (mv : Moves) (f : CoreState → CoreState) (next : Nat) (t : State)
    (op : Option AddrOp := none) : Prop :=
  t.core e = { runMoves mv (s.core e) (f (s.core e).counted) op with pc := next } ∧
    t.eng e = { s.eng e with core := t.core e } ∧ (∀ j : Nat, j ≠ e → t.eng j = s.eng j) ∧
    t = { s with fresh := s.fresh + 64, regs := t.regs, engs := t.engs } ∧
    t.rd64 .ENG_CSTEPS e = (s.rd64 .ENG_CSTEPS e + 1) % 2 ^ 64 ∧
    ∀ o, o ∉ Reg64.ENG_CSTEPS.words e → o ∉ Reg64.ENG_KSTEPS.words e → t.word o = s.word o

/-- The instruction writes one D register, with a word of which `p` holds. -/
def WritesD (s : State) (e : Nat) (mv : Moves) (d : Nat) (p : Word → Prop) (t : State) : Prop :=
  ∃ w, p w ∧ CoreStep s e mv (·.setD d w) (s.core e).succ t

/-- The instruction writes the lanes of one V register, with words of which `p` holds lane by lane. -/
def WritesV (s : State) (e : Nat) (mv : Moves) (d : Nat) (p : Nat → Word → Prop) (t : State) : Prop :=
  ∃ w : Nat → Word, (∀ l, l < 16 → p l (w l)) ∧ CoreStep s e mv (·.setV d w) (s.core e).succ t

/-- A binary32 quiet NaN. -/
def isQuietNan (w : Word) : Bool := decide (w.toNat / 2 ^ 22 % 2 ^ 9 = 511)

/-- The result of FADD, FSUB, FMUL or FDIV (0 to 3) where an operand is a NaN or both are finite: a quiet NaN, or the exact
result rounded once (R317). -/
def floatResult (op : Nat) (x y : F32) (w : Word) : Bool :=
  match x, y with
  | .fin m q, .fin n r =>
    if op = 0 then w.toNat == ieeeCode fp32 (m && n) (q.add r)
    else if op = 1 then w.toNat == ieeeCode fp32 (m && !n) (q.add r.neg)
    else if op = 2 then w.toNat == ieeeCode fp32 (m != n) (q.mul r)
    else if r.n ≠ 0 then w.toNat == ieeeCode fp32 (m != n) (q.mul r.inv)
    else if q.n = 0 then isQuietNan w else w.toNat == 0x7F800000 + if m != n then 2 ^ 31 else 0
  | .nan, _ => isQuietNan w
  | _, .nan => isQuietNan w
  | _, _ => true

/-- The low half that F16 leaves: the number rounded once, an infinity, or a quiet NaN (R317). -/
def halfResult (x : F32) (w : Word) : Bool :=
  match x with
  | .fin m q => w.toNat % 2 ^ 16 == ieeeCode fp16 m q
  | .inf m => w.toNat % 2 ^ 16 == 0x7C00 + if m then 2 ^ 15 else 0
  | .nan => w.toNat / 2 ^ 9 % 64 == 63

/-- Engine `e` has taken a trap, its instruction completed in `c` and to go on at `next`: captured unless one is, entered with
`next` saved, and raised as a fault of the engine (R215, R322, R324). -/
def Trapped (s : State) (e : Nat) (c : CoreState) (next : Nat) (causes : Nat → Prop) (t : State) : Prop :=
  t.core e = c.enter next Config.trapVector.toNat ∧ t.on .ENG_CTRAP_VALID e = true ∧
    (s.on .ENG_CTRAP_VALID e = false → causes (t.rd .ENG_CTRAP_CAUSE e) ∧ t.on .ENG_CTRAP_KMODE e = false ∧
      t.rd .ENG_CTRAP_PC e = (s.core e).pc % 8192) ∧
    t.flt = s.flt.receive (mkFault e 4 1 0) s.clock ∧ ∀ j : Nat, j ≠ e → t.eng j = s.eng j

/-- Parts of the state that a command may change. -/
structure Mask where
  /-- the register words -/
  regs : Bool := false
  /-- what leaves the module: messages, host memory, the phase of the completion queues -/
  out : Bool := false
  /-- the dealer: DSN, events, kept replies, long operations -/
  dealer : Bool := false
  /-- the fault collector -/
  faults : Bool := false
  /-- the cleaned clock and the time base -/
  time : Bool := false
  /-- lanes and bundles -/
  lanes : Bool := false
  /-- the link layer -/
  links : Bool := false
  /-- sessions and flows -/
  sess : Bool := false
  /-- the deck and the cut -/
  deck : Bool := false
  /-- the engines and their cores -/
  engs : Bool := false
  /-- plan slots, active and outgoing plan -/
  plans : Bool := false
  /-- tricks -/
  tricks : Bool := false
  /-- beams, weights and zoom slots -/
  beams : Bool := false
  /-- the output stage -/
  outp : Bool := false
  /-- the HBM -/
  hbm : Bool := false
  /-- the scratchpad -/
  spd : Bool := false
  /-- the secure bank and the life-cycle state -/
  sec : Bool := false
  /-- the ledger -/
  ledger : Bool := false
  /-- the fabric -/
  fab : Bool := false
  /-- the DMA engine -/
  dma : Bool := false
  /-- power and thermal -/
  power : Bool := false
  /-- the module itself: straps, firmware, kernels -/
  modl : Bool := false
  deriving DecidableEq, Repr

/-- What no command does is not done, and no part outside the mask is changed. -/
structure Within (m : Mask) (s t : State) : Prop where
  keeps : Keeps s t
  regs : m.regs = true ∨ t.regs = s.regs
  out : m.out = true ∨ (t.sent = s.sent ∧ t.modl.hostMem = s.modl.hostMem ∧ t.pciPhase = s.pciPhase)
  dealer : m.dealer = true ∨ t.dealer = s.dealer
  faults : m.faults = true ∨ t.flt = s.flt
  time : m.time = true ∨ (t.clock = s.clock ∧ t.timeb = s.timeb)
  lanes : m.lanes = true ∨ (t.lanes = s.lanes ∧ t.bundles = s.bundles)
  links : m.links = true ∨ t.links = s.links
  sess : m.sess = true ∨ (t.sess = s.sess ∧ t.flows = s.flows)
  deck : m.deck = true ∨ t.deck = s.deck
  engs : m.engs = true ∨ t.engs = s.engs
  plans : m.plans = true ∨ t.plans = s.plans
  tricks : m.tricks = true ∨ t.tricks = s.tricks
  beams : m.beams = true ∨ t.beams = s.beams
  outp : m.outp = true ∨ t.outp = s.outp
  hbm : m.hbm = true ∨ t.hbm = s.hbm
  spd : m.spd = true ∨ t.spd = s.spd
  sec : m.sec = true ∨ (t.lcs = s.lcs ∧ t.sec = s.sec)
  ledger : m.ledger = true ∨ t.ledger = s.ledger
  fab : m.fab = true ∨ t.fab = s.fab
  dma : m.dma = true ∨ (t.dma = s.dma ∧ t.dmaRr = s.dmaRr)
  power : m.power = true ∨ t.pow = s.pow
  modl : m.modl = true ∨ t.modl = { s.modl with hostMem := t.modl.hostMem }

end Sys2Proof.Machine

namespace Sys2Proof

/-- The parts of the state that each command may change at most; every other part is as it was. -/
def Instr.touches : Instr → Machine.Mask
  | .registerWrite .. | .regWrite .. =>
    { regs := true, out := true, dealer := true, faults := true, time := true, lanes := true, links := true,
      sess := true, deck := true, engs := true, plans := true, tricks := true, hbm := true, spd := true,
      ledger := true, fab := true, dma := true, power := true }
  | .readClear .. | .lowWordRead .. | .timSecLowRead .. =>
    { regs := true, out := true, faults := true, hbm := true, fab := true }
  | .offer .. | .ladderCheckDone .. | .stepFail .. | .ladderStepDeadline .. =>
    { regs := true, out := true, dealer := true, faults := true, lanes := true, links := true,
      ledger := true }
  | .offerRepeat | .laneDownRepeat .. =>
    { out := true }
  | .offerGatherTimeout .. =>
    { regs := true, out := true, lanes := true }
  | .stepPass .. | .single .. | .burst .. | .vlkPchkEn .. | .prbsCheckerLock .. | .prbsCheckerLockLost .. =>
    { regs := true, lanes := true }
  | .retryWaitExpiry .. | .epochMarker .. | .vlkCtlMode .. | .restart .. | .transceiverInserted .. =>
    { regs := true, out := true, dealer := true, faults := true, lanes := true, links := true,
      power := true }
  | .alignDone .. | .laneRestore .. =>
    { regs := true, out := true, dealer := true, faults := true, lanes := true, links := true,
      ledger := true, power := true }
  | .laneLossOfLock .. | .uncorrectableCodeword .. | .laneDown .. | .transceiverRemoved .. | .laneRelease .. =>
    { regs := true, out := true, dealer := true, faults := true, lanes := true, links := true }
  | .berMeasurement .. =>
    { regs := true, out := true, faults := true, lanes := true }
  | .epochTimeout .. | .vlkBctlReset .. | .dataUnit .. | .paceDeficitCheck | .bundleReset .. =>
    { regs := true, out := true, dealer := true, faults := true, links := true }
  | .bitslip .. | .slipComplete .. | .cntclr .. | .engCtlRestore .. | .engGctlRelease | .zomCoefWrite .. |
  .outHrd .. | .ethRxdisc .. | .pciSqtail .. | .pciCqhead .. | .pciQcfgEn .. | .ocxoWarm | .fabApbase .. |
  .remap .. | .strapChange .. | .pwrMinrstRearm =>
    { regs := true }
  | .linkctl .. | .acceptAckTimer | .sresetRepeat .. =>
    { regs := true, out := true, links := true }
  | .initRepeat .. | .unitResendTimeout .. =>
    { out := true, links := true }
  | .sopen .. | .sready .. | .sclose .. | .freq .. | .frelease .. | .retentionTimeOut .. | .vsnSctlClose .. |
  .sessionClose .. =>
    { regs := true, out := true, dealer := true, faults := true, links := true, sess := true,
      ledger := true }
  | .fskip .. | .keepalive .. | .vsnSctlReset .. =>
    { regs := true, out := true, dealer := true, faults := true, links := true, sess := true }
  | .data .. | .heldFrameAcceptance .. =>
    { regs := true, out := true, dealer := true, faults := true, links := true, sess := true, deck := true,
      tricks := true, hbm := true }
  | .flowSuspect .. | .flowSilent .. | .winosPacketDiscarded .. | .nop .. | .identify .. | .status .. |
  .fwCommit .. | .uartClose .. | .evtSubscribe .. | .evtRead .. | .flowList .. | .planDeal .. | .planStatus .. |
  .setReserve .. | .engineRelease .. | .trickClose .. | .trickStatus .. | .weightDeal .. | .zoomCoef .. |
  .statsSend .. | .hostRing .. | .ledgerRead .. | .memStatus .. | .memCfg .. | .faultRead .. |
  .engineRestore .. | .reactionSet .. | .kernelLoad .. | .selftest .. | .fwCommitComplete .. |
  .selftestComplete .. =>
    { regs := true, out := true, dealer := true, faults := true }
  | .rangeChannelClose .. | .deckDeadline .. | .timeSet .. =>
    { regs := true, out := true, dealer := true, faults := true, time := true, deck := true }
  | .cutRangeChannel =>
    { regs := true, faults := true, deck := true, engs := true, hbm := true }
  | .rangeChannelRelease .. =>
    { regs := true, deck := true, plans := true, tricks := true, beams := true }
  | .allot .. =>
    { regs := true, out := true, engs := true }
  | .runEnd .. =>
    { regs := true, deck := true, engs := true }
  | .merge .. =>
    { regs := true, out := true, dealer := true, faults := true, deck := true, hbm := true }
  | .trickClosed =>
    { regs := true, out := true, dealer := true, faults := true, time := true, deck := true, plans := true,
      tricks := true, outp := true, hbm := true, ledger := true }
  | .governorMeasurement .. | .spareArrayCheckDone .. | .engCtlRetire .. | .engineRetire .. =>
    { regs := true, out := true, dealer := true, faults := true, deck := true, engs := true, plans := true,
      hbm := true, ledger := true }
  | .engineSelftestDone .. =>
    { regs := true, out := true, dealer := true, faults := true, engs := true, ledger := true }
  | .beamSum .. =>
    { regs := true, faults := true, deck := true, beams := true, outp := true, hbm := true }
  | .zoomOutput .. =>
    { regs := true, beams := true, outp := true, hbm := true }
  | .zoomSlotStart .. | .weightWrite .. | .weightCommandComplete =>
    { regs := true, out := true, dealer := true, faults := true, beams := true, hbm := true }
  | .weightCommandBegin =>
    { regs := true, dealer := true, beams := true }
  | .weightHandOver =>
    { regs := true, out := true, dealer := true, faults := true, time := true, beams := true }
  | .planHandOver =>
    { regs := true, out := true, dealer := true, faults := true, time := true, deck := true, plans := true,
      tricks := true, beams := true, outp := true }
  | .kernelCopy .. | .interruptEntry .. =>
    { engs := true }
  | .exportStart =>
    { regs := true, out := true, faults := true, engs := true, tricks := true, outp := true, hbm := true }
  | .exportComplete =>
    { regs := true, out := true, dealer := true, faults := true, links := true, sess := true, deck := true,
      plans := true, tricks := true, outp := true, hbm := true, ledger := true }
  | .trickSummary .. =>
    { regs := true, out := true, dealer := true, faults := true, tricks := true, outp := true, hbm := true,
      ledger := true }
  | .packetDrained .. =>
    { regs := true, out := true, dealer := true, faults := true, engs := true, tricks := true, outp := true,
      hbm := true, ledger := true, dma := true }
  | .ringLayout =>
    { regs := true, out := true, engs := true, plans := true, outp := true, hbm := true }
  | .hostSignalTimeout =>
    { out := true, outp := true }
  | .outRelhi .. | .release .. | .ledgerRecordWrite .. =>
    { regs := true, out := true, dealer := true, faults := true, tricks := true, ledger := true }
  | .ethLinkUp .. | .ethLinkDown .. | .fltReact .. | .fanFailed .. | .inletAirAbove40 .. =>
    { regs := true, faults := true }
  | .ptpMessage .. =>
    { regs := true, out := true, faults := true, time := true, lanes := true }
  | .delayReqTimer =>
    { regs := true, out := true, time := true }
  | .coreNop .. | .br .. | .brc .. | .call .. | .ret .. | .reti .. | .wait .. | .halt .. | .trap .. | .add .. |
  .sub .. | .and .. | .or .. | .xor .. | .shl .. | .shr .. | .sar .. | .mul .. | .cmp .. | .movs .. | .vadd .. |
  .vsub .. | .vmin .. | .vmax .. | .vabs .. | .vand .. | .vor .. | .vxor .. | .vshl .. | .vsar .. | .vsel .. |
  .vbcast .. | .clra .. | .mac .. | .msu .. | .accadd .. | .cjoin .. | .mova .. | .narr .. | .bxclr .. |
  .bxacc .. | .bxget .. | .narre .. | .fcvt .. | .fadd .. | .fsub .. | .fmul .. | .fdiv .. | .f16 .. |
  .seta .. | .geta .. | .moda .. | .ldi .. | .loop .. | .endl .. | .arrayAndDealerInstruction .. |
  .outputInstruction .. | .ktime .. =>
    { regs := true, out := true, dealer := true, faults := true, engs := true, outp := true, hbm := true }
  | .setModid .. | .fwWrite .. | .mgmtCfg .. | .kernelErase .. | .kernelLoadComplete .. =>
    { regs := true, out := true, dealer := true, faults := true, modl := true }
  | .reset .. =>
    { regs := true, out := true, dealer := true, faults := true, deck := true, modl := true }
  | .lifecycle .. =>
    { regs := true, out := true, dealer := true, faults := true, sec := true }
  | .planDefine .. | .planReset .. | .ringSize .. | .tableLoadComplete =>
    { regs := true, out := true, dealer := true, faults := true, plans := true }
  | .planBuild .. | .planErase .. =>
    { regs := true, out := true, dealer := true, faults := true, plans := true, hbm := true }
  | .planCancel .. | .deadlineSet .. =>
    { regs := true, out := true, dealer := true, faults := true, deck := true }
  | .planLoadTable .. =>
    { regs := true, out := true, dealer := true, faults := true, hbm := true }
  | .weightCopy .. | .zoomChange .. =>
    { regs := true, out := true, dealer := true, faults := true, beams := true }
  | .resend .. =>
    { regs := true, out := true, dealer := true, faults := true, outp := true }
  | .reEpoch .. =>
    { regs := true, out := true, dealer := true, faults := true, time := true, deck := true, plans := true }
  | .mapSet .. =>
    { regs := true, out := true, dealer := true, faults := true, time := true, plans := true }
  | .refCfg .. | .phaseStep .. | .ptpCfg .. | .ppsEdge .. | .referenceMeasurement .. |
  .referenceNoLongerPresent .. | .wtrExpiry .. | .disagreementAverage .. =>
    { regs := true, out := true, dealer := true, faults := true, time := true }
  | .faultAck .. | .keyLock .. | .fltAck .. =>
    { regs := true, out := true, dealer := true, faults := true, ledger := true }
  | .keyEnrol .. =>
    { regs := true, out := true, dealer := true, faults := true, sec := true, ledger := true }
  | .regRead .. =>
    { regs := true, out := true, dealer := true, faults := true, hbm := true, fab := true }
  | .ocxoOutOfRegulation | .timTrimHigh .. =>
    { regs := true, faults := true, time := true }
  | .faultStateEnd =>
    { regs := true, out := true, dealer := true, faults := true, time := true, power := true }
  | .timTrimLow .. =>
    { time := true }
  | .stackTemperatureReading .. | .interfaceLockTimeout .. | .commandAddressParityError .. =>
    { regs := true, out := true, dealer := true, faults := true, hbm := true, ledger := true }
  | .interfaceLockLost .. =>
    { regs := true, faults := true, hbm := true }
  | .rebuild | .refreshInterval .. =>
    { regs := true, hbm := true }
  | .fabricRead .. | .fabricWrite .. | .atomicAdd .. | .atomicSwap .. | .lockedRead .. | .lockedWrite .. |
  .lockTimeout .. | .spdOwn .. | .zeroingDone .. | .abort .. | .descriptorFetch .. | .descriptorEnd .. |
  .doneErr .. | .dmaBurstComplete =>
    { regs := true, out := true, dealer := true, faults := true, time := true, lanes := true, links := true,
      sess := true, deck := true, engs := true, plans := true, tricks := true, hbm := true, spd := true,
      sec := true, ledger := true, fab := true, dma := true, power := true }
  | .spdPwr .. =>
    { regs := true, spd := true, power := true }
  | .patrolSegment .. =>
    { regs := true, out := true, dealer := true, faults := true, spd := true, ledger := true }
  | .lidOpened =>
    { regs := true, sec := true, modl := true }
  | .voltageGlitch | .clockGlitch =>
    { regs := true, sec := true }
  | .secureWipeDone .. | .uartBootImageReceived .. =>
    { regs := true, out := true, dealer := true, faults := true, lanes := true, links := true, sess := true,
      deck := true, engs := true, plans := true, hbm := true, spd := true, sec := true, ledger := true,
      power := true, modl := true }
  | .powerFailSnapshot =>
    { regs := true, ledger := true, power := true }
  | .dmaStart .. | .dmaResume | .autores =>
    { regs := true, dma := true }
  | .busError .. =>
    { regs := true, out := true, dealer := true, faults := true, dma := true }
  | .faultMessage .. | .ready =>
    { regs := true, out := true, dealer := true, faults := true, time := true, lanes := true, links := true,
      sess := true, deck := true, engs := true, plans := true, tricks := true, outp := true, hbm := true,
      spd := true, sec := true, ledger := true, fab := true, dma := true, power := true, modl := true }
  | .mrstNAsserted =>
    { regs := true, out := true, dealer := true, faults := true, deck := true, hbm := true, ledger := true,
      fab := true, dma := true, power := true, modl := true }
  | .mrstNReleased | .warmReset | .flushComplete | .busBelow108V | .coldStart .. | .railFault .. |
  .thermalTrip =>
    { regs := true, out := true, dealer := true, faults := true, time := true, lanes := true, links := true,
      sess := true, deck := true, engs := true, plans := true, tricks := true, beams := true, outp := true,
      hbm := true, spd := true, sec := true, ledger := true, fab := true, dma := true, power := true,
      modl := true }
  | .powerFailWarning .. =>
    { regs := true, out := true, faults := true, deck := true, outp := true, power := true }
  | .supplyRecovered =>
    { regs := true, out := true, dealer := true, faults := true, links := true, sess := true, deck := true,
      engs := true, tricks := true, outp := true, hbm := true, ledger := true, power := true, modl := true }
  | .pcieLinkDown =>
    { regs := true, faults := true, fab := true, modl := true }
  | .pcieLinkTrained .. =>
    { regs := true, faults := true, modl := true }
  | .statsSendComplete =>
    { regs := true, out := true, dealer := true, faults := true, deck := true, outp := true, hbm := true }
  | .interfaceLockRegained .. =>
    { faults := true, hbm := true }
  | .faultConditionCleared .. =>
    { faults := true }
  | .jtagInstruction .. | .fundamentalResetReleased =>
    { modl := true }
  | .sensorsBelow85C =>
    { power := true }

end Sys2Proof
end

