-- ==== Sys2Proof/Certificates/Slice0/Obligations.lean ====
section
/-! DEFINITION. The statements for the provers. -/

open Sys2Proof Sys2Proof.Machine

/-! ### The whole machine -/

/-- Tier 1. The command at the front of the queue runs on the rest of the queue; on an empty queue one nanosecond of
the cleaned clock passes (the model's choice, log 4). -/
def Obligations.StepRunsFrontCommand : Prop :=
  ∀ (s : State) (c : Instr) (r : List Instr),
    step { s with pending := c :: r } = exec c { s with pending := r } ∧
    step { s with pending := [] } = .next (({ s with pending := [] } : State).advance 1)

/-- Tier 1. What reset leaves where the register tables state it: lanes in data mode, OFF and in no bundle; bundles
enabled and DOWN; sessions FREE; engines OFF; the default deadline, reserve, retention time and slew limit; READY
clear; the queue empty; the life-cycle state that the ordering code ships with (R3: MA SEALED, ME OPEN). The invariant of
StepKeepsInvariant holds: every memory in its canonical form, a legal life-cycle state. -/
def Obligations.ResetState : Prop :=
  State.reset.pending = [] ∧ State.reset.memWf ∧ State.reset.lcs ≤ 3 ∧ State.reset.lcs = (if Config.orderedMa then 2 else 1) ∧ State.reset.on .MOD_STAT_READY = false ∧
  State.reset.rd .CUT_DECKCTL_DEADLINE = 40 ∧ State.reset.rd .ENG_GCTL_RESERVE = 8 ∧
  State.reset.rd .VSN_RETAIN_SECONDS = 600 ∧ State.reset.rd .TIM_SLEW_PPB = 1000 ∧
  (∀ l : Lane, State.reset.rd .VLK_CTL_MODE l.val = 1 ∧ State.reset.rd .VLK_STAT_STATE l.val = lnOff ∧
    State.reset.rd .VLK_STAT_BUNDLE l.val = 7) ∧
  (∀ b : BundleId, State.reset.rd .VLK_BCTL_EN b.val = 1 ∧ State.reset.rd .VLK_BSTAT_STATE b.val = 0) ∧
  (∀ n : SessionId, State.reset.rd .VSN_SSTAT_STATE n.val = ssFree) ∧
  (∀ e : EngineId, State.reset.rd .ENG_STAT_STATE e.val = 0)

/-- Tier 3. Every command completes in every state: none ends in a fault or a refusal. It changes at most the parts of the state
that `Instr.touches` names for it, and never the queue, a life-cycle state backwards (R4), the supply of free values or the
cleaned clock backwards, or a memory out of its canonical form. -/
def Obligations.CommandTouchesOnlyItsParts : Prop :=
  ∀ (c : Instr) (s : State), Leads c s (Within c.touches s)

/-- Tier 3. Every step keeps the invariant: a legal life-cycle state and every memory in its canonical form; the
life-cycle never turns back, the cleaned clock never runs back, and exactly the front command leaves the queue. -/
def Obligations.StepKeepsInvariant : Prop :=
  ∀ s t : State, step s = .next t → s.memWf → s.lcs ≤ 3 →
    t.memWf ∧ t.lcs ≤ 3 ∧ s.lcs ≤ t.lcs ∧ s.clock ≤ t.clock ∧ s.fresh ≤ t.fresh ∧ t.pending = s.pending.tail

/-- Tier 2. An event that reaches the dealer gets the next DSN and is kept in front of the last 4095; the event that
would need DSN 2^64 - 1 is not numbered, and the fatal fault of kind 4 is raised in its place. Where the outbound window reaches the
completion queues, no fault comes of its delivery (R447; else the refusal is log 18). -/
def Obligations.EventsAreNumberedInOrder : Prop :=
  ∀ (s : State) (port cd source counter arg : Nat), s.dealer.exhausted = false →
    (s.dealer.dsn < 2 ^ 64 - 1 →
      let t := s.event port cd source counter arg
      t.dealer.dsn = s.dealer.dsn + 1 ∧ t.dealer.exhausted = false ∧ (QueuesReach s → t.flt = s.flt) ∧
      t.dealer.events =
        (⟨port, cd, source, counter, arg, s.timeb.sec, s.timeb.ns, s.dealer.dsn⟩ :: s.dealer.events).take 4096 ∧
      SameWords eventWord s t) ∧
    (2 ^ 64 - 1 ≤ s.dealer.dsn →
      let t := s.event port cd source counter arg
      t.dealer = { s.dealer with exhausted := true } ∧
      t.flt = s.flt.receive (mkFault srcDealer 4 2 0) s.clock ∧ t.sent = s.sent)

/-! ### Lanes and bundles -/

/-- Tier 2. The test-mode actions of a lane (R106 to R108, R110): a bit-slip waits, or is dropped while one waits, and
has no effect outside raw mode; when it completes the word is rotated right by one bit at NRZ and two at PAM4; the
counts are cleared; injected errors reach the own locked checker through a near-end loop as the bits after the present one, and a burst of 32 or
more takes its lock at the 32nd, the last bit compared; the checker starts, locks on the pattern it expects, and loses lock with
its counts brought up to date. Nothing changes but the registers named here and the lane's own record of its test. That
SLIP_COMPLETE rotates RAWDATA in every state, R108 saying so of a repeating word, is the model's choice (log 29), and so is which
line bits the rate injection inverts. -/
def Obligations.LaneTestActions : Prop :=
  ∀ (s : State) (l : Lane),
    (s.rd .VLK_STAT_STATE l.val = lnTest → s.on .VLK_CTL_RAW l.val = true →
      (s.on .VLK_RAW_SLIP_PEND l.val = false → Leads (.bitslip l) s fun t =>
        t.on .VLK_RAW_SLIP_PEND l.val = true ∧ t.rd .VLK_RAW_SLIP_POS l.val = s.rd .VLK_RAW_SLIP_POS l.val ∧
        OnlyWords [Fld.VLK_RAW_SLIP_PEND.at l.val] s t) ∧
      (s.on .VLK_RAW_SLIP_PEND l.val = true → Leads (.bitslip l) s fun t =>
        t.on .VLK_EVT_SLIP_OVR l.val = true ∧ OnlyWords [Fld.VLK_EVT_SLIP_OVR.at l.val] s t)) ∧
    (s.rd .VLK_STAT_STATE l.val ≠ lnTest ∨ s.on .VLK_CTL_RAW l.val = false → Leads (.bitslip l) s (· = s)) ∧
    (s.on .VLK_RAW_SLIP_PEND l.val = true → Leads (.slipComplete l) s fun t =>
      let n := if s.rd .VLK_STAT_RATE l.val ≤ 1 then 1 else 2
      t.on .VLK_RAW_SLIP_PEND l.val = false ∧
      t.rd .VLK_RAW_SLIP_POS l.val = (s.rd .VLK_RAW_SLIP_POS l.val + n) % 64 ∧
      BitVec.ofNat 64 (t.rd64 .VLK_RAWDATA l.val) = (BitVec.ofNat 64 (s.rd64 .VLK_RAWDATA l.val)).rotateRight n ∧
      OnlyWords (Fld.VLK_RAW_SLIP_PEND.at l.val :: Reg64.VLK_RAWDATA.words l.val) s t) ∧
    Leads (.cntclr l) s (fun t =>
      t.rd64 .VLK_FEC_CW l.val = 0 ∧ t.rd64 .VLK_FEC_CORR l.val = 0 ∧ t.rd64 .VLK_FEC_UNC l.val = 0 ∧
      t.rd64 .VLK_FEC_SYM l.val = 0 ∧
      OnlyWords (Reg64.VLK_FEC_CW.words l.val ++ Reg64.VLK_FEC_CORR.words l.val ++ Reg64.VLK_FEC_UNC.words l.val ++
        Reg64.VLK_FEC_SYM.words l.val) s t) ∧
    (s.rd .VLK_STAT_STATE l.val = lnTest → s.on .VLK_PGEN_EN l.val = true → s.on .VLK_PCHK_LOCK l.val = true →
      s.rd .VLK_CTL_LOOP l.val = 1 ∨ s.rd .VLK_CTL_LOOP l.val = 2 → (s.lane l.val).errs = [] →
      (s.lane l.val).seen ≤ s.bitNow l.val → (s.lane l.val).burstTo ≤ s.bitNow l.val →
      s.rateHits l.val (s.lane l.val).seen (s.bitNow l.val) = 0 →
      Leads (.single l) s (fun t =>
        t.rd64 .VLK_PERR l.val = (s.perrNow l.val + 1) % 2 ^ 64 ∧ t.rd64 .VLK_PBITS l.val = (s.pbitsNow l.val + 1) % 2 ^ 64 ∧
        t.on .VLK_PCHK_LOCK l.val = true ∧ OnlyLane l.val (Reg64.VLK_PERR.words l.val ++ Reg64.VLK_PBITS.words l.val) s t) ∧
      ∀ n : Byte, n ≠ 0 → Leads (.burst l n) s fun t =>
        t.rd64 .VLK_PERR l.val = (s.perrNow l.val + min n.toNat 32) % 2 ^ 64 ∧
        t.rd64 .VLK_PBITS l.val = (s.pbitsNow l.val + min n.toNat 32) % 2 ^ 64 ∧
        t.on .VLK_PCHK_LOCK l.val = decide (n.toNat < 32) ∧
        t.rd .VLK_INJ_BLEN l.val = n.toNat ∧
        OnlyLane l.val (Fld.VLK_INJ_BLEN.at l.val :: Fld.VLK_PCHK_LOCK.at l.val ::
          (Reg64.VLK_PERR.words l.val ++ Reg64.VLK_PBITS.words l.val)) s t) ∧
    (s.on .VLK_PGEN_EN l.val = false → Leads (.single l) s (· = s)) ∧
    Leads (.burst l 0) s (fun t => t.on .VLK_EVT_MODE_REJ l.val = true ∧ OnlyWords [Fld.VLK_EVT_MODE_REJ.at l.val] s t) ∧
    (s.on .VLK_PCHK_EN l.val = false → s.patOk l.val (s.rd .VLK_PCHK_PAT l.val) = true →
      Leads (.vlkPchkEn l) s fun t =>
        t.on .VLK_PCHK_EN l.val = true ∧ t.on .VLK_PCHK_LOCK l.val = false ∧
        t.rd64 .VLK_PERR l.val = 0 ∧ t.rd64 .VLK_PBITS l.val = 0 ∧
        OnlyLane l.val (Fld.VLK_PCHK_EN.at l.val :: Reg64.VLK_PERR.words l.val ++ Reg64.VLK_PBITS.words l.val) s t) ∧
    (s.on .VLK_PCHK_EN l.val = true → s.on .VLK_PCHK_LOCK l.val = false →
      (s.patternFits l.val = true → Leads (.prbsCheckerLock l) s fun t =>
        t.on .VLK_PCHK_LOCK l.val = true ∧ t.on .VLK_STAT_CLK_LOCK l.val = true ∧
        t.rd64 .VLK_PBITS l.val = s.rd64 .VLK_PBITS l.val ∧
        OnlyLane l.val [Fld.VLK_PCHK_LOCK.at l.val, Fld.VLK_STAT_CLK_LOCK.at l.val] s t) ∧
      (s.patternFits l.val = false → Leads (.prbsCheckerLock l) s (· = s))) ∧
    (∀ c e : Nat, s.lockedNow l.val = true → Leads (.prbsCheckerLockLost l c e) s fun t =>
      t.on .VLK_PCHK_LOCK l.val = false ∧ t.rd64 .VLK_PBITS l.val = (s.pbitsNow l.val + c) % 2 ^ 64 ∧
      t.rd64 .VLK_PERR l.val = (s.perrNow l.val + e) % 2 ^ 64 ∧
      OnlyLane l.val (Fld.VLK_PCHK_LOCK.at l.val :: Reg64.VLK_PERR.words l.val ++ Reg64.VLK_PBITS.words l.val) s t)

/-- Tier 2. Writes of `VLK_CTL.MODE` (R103, R104): test mode is entered from OFF, RETRY_WAIT and RETIRED, but not by a lane
whose transceiver was left unpowered, which R496 has stay OFF (the refusal is log 29), and
`TESTRET` shows the last, and MODE 00 and 01 leave it again: to RETIRED where it was entered from there, else to OFF, or to
the ladder as a spare; MODE 01 starts the ladder of a lane that is OFF where its transceiver is powered and its home bundle
enabled; in every state of the ladder and in service or standby the write only sets MODE_REJ; a retired lane's MODE 00 and 01
only set MODE_REJ. No other lane's registers change. -/
def Obligations.LaneModeWrites : Prop :=
  ∀ (s : State) (l : Lane),
    (s.lnState l.val = lnOff ∨ s.lnState l.val = lnRetry ∨ s.lnState l.val = lnRetired → s.cageRejected l.val = true →
      Leads (.vlkCtlMode l 2) s fun t =>
        t.on .VLK_EVT_MODE_REJ l.val = true ∧ OnlyWords [Fld.VLK_EVT_MODE_REJ.at l.val] s t) ∧
    (s.lnState l.val = lnOff ∨ s.lnState l.val = lnRetry ∨ s.lnState l.val = lnRetired → s.cageRejected l.val = false →
      Leads (.vlkCtlMode l 2) s fun t =>
        t.lnState l.val = lnTest ∧ t.rd .VLK_CTL_MODE l.val = 2 ∧
        t.on .VLK_STAT_TESTRET l.val = (s.lnState l.val == lnRetired) ∧
        t.rd .VLK_STAT_RATE l.val = s.rd .VLK_CTL_TRATE l.val ∧
        ∀ o, 0x300000 ≤ o → o < 0x318000 → (o - 0x300000) / 0x1000 ≠ l.val → t.word o = s.word o) ∧
    (s.lnState l.val = lnOff → s.cageRejected l.val = false → s.homeOn l.val = true → Leads (.vlkCtlMode l 1) s fun t =>
      t.lnState l.val = lnNegotiate ∧ t.rd .VLK_CTL_MODE l.val = 1 ∧ t.rd .VLK_STAT_RATE l.val = 0) ∧
    (s.lnState l.val = lnOff → s.cageRejected l.val = true ∨ s.homeOn l.val = false → Leads (.vlkCtlMode l 1) s fun t =>
      t.lnState l.val = lnOff ∧ t.rd .VLK_CTL_MODE l.val = 1 ∧ OnlyWords [Fld.VLK_CTL_MODE.at l.val] s t) ∧
    (s.lnState l.val = lnRetry → Leads (.vlkCtlMode l 0) s fun t =>
      t.lnState l.val = lnOff ∧ t.rd .VLK_CTL_MODE l.val = 0) ∧
    (s.lnState l.val = lnTest →
      Leads (.vlkCtlMode l 0) s (fun t => t.lnState l.val = (if s.on .VLK_STAT_TESTRET l.val then lnRetired else lnOff) ∧
        t.on .VLK_PGEN_EN l.val = false ∧ t.on .VLK_PCHK_EN l.val = false ∧ t.rd .VLK_CTL_LOOP l.val = 0) ∧
      (s.on .VLK_STAT_TESTRET l.val = true → Leads (.vlkCtlMode l 1) s fun t => t.lnState l.val = lnRetired) ∧
      (s.on .VLK_STAT_TESTRET l.val = false → s.cageRejected l.val = false → s.homeOn l.val = true →
        Leads (.vlkCtlMode l 1) s fun t => t.lnState l.val = lnNegotiate ∧ (t.lane l.val).spare = true)) ∧
    (1 ≤ s.lnState l.val → s.lnState l.val ≤ lnStandby → ∀ m : BitVec 2, Leads (.vlkCtlMode l m) s fun t =>
      t.on .VLK_EVT_MODE_REJ l.val = true ∧ OnlyWords [Fld.VLK_EVT_MODE_REJ.at l.val] s t) ∧
    (s.lnState l.val = lnRetired → ∀ m : BitVec 2, m ≠ 2 → Leads (.vlkCtlMode l m) s fun t =>
      t.on .VLK_EVT_MODE_REJ l.val = true ∧ OnlyWords [Fld.VLK_EVT_MODE_REJ.at l.val] s t) ∧
    (s.lnState l.val = lnTest → Leads (.vlkCtlMode l 2) s (· = s))

/-- Tier 2. The ladder (R84 to R88): OFFERs are repeated on every negotiating lane; an OFFER is recorded, and answered
with AGREE once the rate is fixed; a passed check reports STEP_PASS, and the lane climbs when both sides have passed, to
ALIGN at its agreed rate; a failed check, which sends STEP_FAIL at its rate and again after the return to the lowest, a
partner's STEP_FAIL or an overrun deadline sends the lane at rate 0 into retry, or retires it at the third attempt, under the item
of its repair entry where it has one; a lane in retry begins again at NEGOTIATE. That the deadline covers every climbing state,
NEGOTIATE without a partner included, is the model's choice (log 28). -/
def Obligations.LaneLadder : Prop :=
  ∀ (s : State) (l : Lane),
    Leads .offerRepeat s (fun t => t = { s with sent :=
      (((List.range 24).filter (fun i => s.lnState i = lnNegotiate)).map (fun i => Msg.lane i
        (laneMsg s.moduleId i 1 s.laneCap 0 0 (if s.isSpare i then 0xFF else i / 4) (if s.isSpare i then 0xFF else i % 4)
          0 0 [0xFF, 0xFF, 0xFF, 0xFF] 0))).reverse ++ s.sent }) ∧
    (∀ msg, laneMsgOk msg 1 = true → s.lnState l.val = lnNegotiate → s.isSpare l.val = false →
      ∀ r, (s.bundle (l.val / 4)).fixed = some r → s.rd .VLK_BPEER_ENDPOINT (l.val / 4) = fieldAt msg 4 4 →
      r ≤ fieldAt msg 9 1 →
      Leads (.offer l msg) s fun t =>
        t.lnState l.val = lnCheck ∧ (t.lane l.val).agreed = r ∧ t.rd .VLK_PEER_ENDPOINT l.val = fieldAt msg 4 4 ∧
        .lane l.val (laneMsg s.moduleId l.val 2 r 0 0 (l.val / 4) (l.val % 4) 0 0 [0xFF, 0xFF, 0xFF, 0xFF] 0) ∈ t.sent) ∧
    (∀ b : BundleId, (s.bundle b.val).gathering = true → Leads (.offerGatherTimeout b) s fun t =>
      (t.bundle b.val).gathering = false ∧ (t.bundle b.val).fixed =
        some ((((List.range 4).filter (s.gathered b.val)).map
          (fun i => s.rd .VLK_PEERLANE_MAXRATE (4 * b.val + i))).foldl min s.laneCap) ∧
      ∀ i, i < 4 → s.gathered b.val i = true → t.lnState (4 * b.val + i) = lnCheck) ∧
    (∀ (e : Word) (n : Nat), s.inStep l.val = true → (s.lane l.val).ownPass = false → (s.lane l.val).peerPass = true →
      checkPasses (s.rd .VLK_STAT_RATE l.val) e.toNat n = true → (s.lane l.val).agreed ≤ s.rd .VLK_STAT_RATE l.val →
      Leads (.ladderCheckDone l e n) s fun t => t.lnState l.val = lnAlign ∧ t.rd .VLK_STAT_RATE l.val = s.rd .VLK_STAT_RATE l.val) ∧
    (∀ (e : Word) (n : Nat), s.inStep l.val = true → (s.lane l.val).ownPass = false →
      checkPasses (s.rd .VLK_STAT_RATE l.val) e.toNat n = false → s.rd .VLK_STAT_ATTEMPTS l.val < 2 →
      Leads (.ladderCheckDone l e n) s fun t => t.lnState l.val = lnRetry ∧ t.rd .VLK_STAT_RATE l.val = 0 ∧
        let m := Msg.lane l.val (laneMsg s.moduleId l.val 4 s.laneCap (s.rd .VLK_STAT_RATE l.val) 2 (s.role l.val).1
          (s.role l.val).2 0 0 [0xFF, 0xFF, 0xFF, 0xFF] e.toNat)
        ∃ r, t.sent = r ++ m :: m :: s.sent) ∧
    (∀ msg, s.inStep l.val = true → (s.lane l.val).ownPass = true → laneMsgOk msg 3 = true →
      fieldAt msg 10 1 = s.rd .VLK_STAT_RATE l.val → s.rd .VLK_STAT_RATE l.val < (s.lane l.val).agreed →
      s.rd .VLK_STAT_RATE l.val < 7 →
      Leads (.stepPass l msg) s fun t =>
        t.lnState l.val = lnTrain ∧ t.rd .VLK_STAT_RATE l.val = s.rd .VLK_STAT_RATE l.val + 1) ∧
    (s.climbing l.val = true → s.rd .VLK_STAT_ATTEMPTS l.val < 2 → Leads (.ladderStepDeadline l) s fun t =>
      t.lnState l.val = lnRetry ∧ t.rd .VLK_STAT_RATE l.val = 0 ∧
      t.rd .VLK_STAT_ATTEMPTS l.val = s.rd .VLK_STAT_ATTEMPTS l.val + 1 ∧ t.on .VLK_EVT_LADDER_FAIL l.val = true) ∧
    (∀ msg, s.inStep l.val = true → laneMsgOk msg 4 = true → 2 ≤ s.rd .VLK_STAT_ATTEMPTS l.val →
      Leads (.stepFail l msg) s fun t =>
        t.lnState l.val = lnRetired ∧ t.rd .VLK_STAT_RATE l.val = 0 ∧ (t.lane l.val).item =
          (if (s.lane l.val).item = 0 then s.ledger.nextItem else (s.lane l.val).item)) ∧
    (s.lnState l.val = lnRetry →
      Leads (.retryWaitExpiry l) s (fun t =>
        t.lnState l.val = lnNegotiate ∧ t.rd .VLK_STAT_RATE l.val = 0 ∧ (t.lane l.val).offered = false) ∧
      Leads (.restart l) s fun t =>
        t.lnState l.val = lnNegotiate ∧ t.rd .VLK_STAT_RATE l.val = 0 ∧ (t.lane l.val).offered = false)

/-- Tier 2. Loss of a lane in service and the changes of the set in service (R87, R89 to R96, R99, R100, R103): a lost lane
enters retry, or test mode where it was being released, leaves its bundle's map, and the change is announced under the next
epoch, which the empty set takes at once; a third uncorrectable codeword within 1 ms loses the lane; a home lane that passes
ALIGN at its bundle's rate and endpoint brings the bundle back under the next epoch; the epoch follows the markers, a change of it
starts the scan for SOU again (R117), and an announced change opens at its epoch; an epoch not seen in time restarts the
bundle's link layer; three bad seconds declare signal degrade. That a lane lost while it is being released enters test mode, and
that the lane that brings its bundle back takes its home position, are the model's choices (log 29). -/
def Obligations.LaneLossAndEpochs : Prop :=
  ∀ (s : State) (l : Lane),
    (let b := s.rd .VLK_STAT_BUNDLE l.val
     let p := s.rd .VLK_STAT_POSITION l.val
     s.lnState l.val = lnService → b < 5 → Leads (.laneLossOfLock l) s fun t =>
      t.lnState l.val = (if (s.lane l.val).releasing then lnTest else lnRetry) ∧ t.rd .VLK_STAT_BUNDLE l.val = 7 ∧
      t.on .VLK_EVT_LOCK_LOST l.val = true ∧ t.posLane b p = 31 ∧ (s.recovering = true → t.on .FLT_GSTAT_OUTSIDE = true) ∧
      (s.posLane b p = l.val → (t.bundle b).change.map (·.epoch) = some (s.nextEpoch b) ∨
        ((t.bundle b).change = none ∧ t.rd .VLK_BSTAT_MASK b = 0 ∧ t.rd .VLK_BSTAT_EPOCH b = s.nextEpoch b))) ∧
    (2 ≤ s.rd .VLK_STAT_RATE l.val →
      ((s.lane l.val).uncTimes.filter (fun x => s.clock < x + 1000000)).length < 2 →
      Leads (.uncorrectableCodeword l) s fun t =>
        t.rd64 .VLK_FEC_UNC l.val = (s.rd64 .VLK_FEC_UNC l.val + 1) % 2 ^ 64 ∧ t.on .VLK_EVT_UNCORR l.val = true ∧
        t.lnState l.val = s.lnState l.val) ∧
    (2 ≤ s.rd .VLK_STAT_RATE l.val → s.lnState l.val = lnService → (s.lane l.val).releasing = false →
      2 ≤ ((s.lane l.val).uncTimes.filter (fun x => s.clock < x + 1000000)).length →
      Leads (.uncorrectableCodeword l) s fun t => t.lnState l.val = lnRetry) ∧
    (∀ m : BerMeas, m.bits < m.errBits * 10000 → (s.lane l.val).badSecs = 2 → s.on .VLK_STAT_DEGRADE l.val = false →
      s.lnState l.val ≠ lnService → Leads (.berMeasurement l m) s fun t =>
        t.on .VLK_STAT_DEGRADE l.val = true ∧ t.on .VLK_EVT_DEGRADE l.val = true ∧ t.lnState l.val = s.lnState l.val ∧
        t.rd .VLK_BERSEC_ERRBITS l.val = min m.errBits (2 ^ 32 - 1)) ∧
    (∀ k, s.lnState l.val = lnAlign → 500 < k → s.rd .VLK_STAT_ATTEMPTS l.val < 2 → Leads (.alignDone l k) s fun t =>
      t.lnState l.val = lnRetry) ∧
    (∀ k, s.lnState l.val = lnAlign → k ≤ 500 → 20 ≤ l.val → (∀ b : BundleId, (s.bundle b.val).lost = false) →
      Leads (.alignDone l k) s fun t => t.lnState l.val = lnStandby ∧ t.rd .VLK_STAT_ATTEMPTS l.val = 0) ∧
    (∀ k, let b := l.val / 4
      s.lnState l.val = lnAlign → k ≤ 500 → s.isSpare l.val = false → s.bundleUp b = false →
      (s.bundle b).fixed = some (s.rd .VLK_STAT_RATE l.val) → s.rd .VLK_PEER_ENDPOINT l.val = s.rd .VLK_BPEER_ENDPOINT b → Leads (.alignDone l k) s fun t =>
        t.lnState l.val = lnService ∧ t.rd .VLK_STAT_BUNDLE l.val = b ∧ t.rd .VLK_STAT_POSITION l.val = l.val % 4 ∧
        t.posLane b (l.val % 4) = l.val ∧ t.bundleUp b = true ∧ t.rd .VLK_BSTAT_RATE b = s.rd .VLK_STAT_RATE l.val ∧
        t.rd .VLK_BSTAT_EPOCH b = s.nextEpoch b ∧ t.on .VSN_LSTAT_INIT_DONE b = false) ∧
    (∀ msg, laneMsgOk msg 5 = true → s.rd .VLK_STAT_BUNDLE l.val < 5 → (∀ p : Fin 4, bitOf (fieldAt msg 14 1) p.val = true) →
      Leads (.laneDown l msg) s (· = s)) ∧
    (∀ msg, ∀ p : Fin 4, laneMsgOk msg 5 = true → s.rd .VLK_STAT_BUNDLE l.val < 5 →
      (∀ q : Fin 4, bitOf (fieldAt msg 14 1) q.val = (q != p)) →
      s.lnState (s.posLane (s.rd .VLK_STAT_BUNDLE l.val) p.val) = lnService →
      s.posLane (s.rd .VLK_STAT_BUNDLE l.val) p.val < 24 →
      (s.lane (s.posLane (s.rd .VLK_STAT_BUNDLE l.val) p.val)).releasing = false → Leads (.laneDown l msg) s fun t =>
        t.lnState (s.posLane (s.rd .VLK_STAT_BUNDLE l.val) p.val) = lnRetry) ∧
    ∀ b : BundleId,
      (∀ c, (s.bundle b.val).change = some c → c.planned = false → Leads (.laneDownRepeat b) s fun t =>
        t.regs = s.regs ∧ t.lanes = s.lanes ∧ t.bundles = s.bundles ∧
        ∀ p : Fin 4, s.posLane b.val p.val < 24 → .lane (s.posLane b.val p.val) (laneMsg s.moduleId
          (s.posLane b.val p.val) 5 s.laneCap (s.rd .VLK_STAT_RATE (s.posLane b.val p.val)) c.reason b.val p.val c.mask
          c.epoch c.replace 0) ∈ t.sent) ∧
      (∀ e : Byte, (s.bundle b.val).change = none → Leads (.epochMarker b e) s fun t =>
        t.rd .VLK_BSTAT_EPOCH b.val = e.toNat ∧ (∀ o, o ≠ Fld.VLK_BSTAT_EPOCH.at b.val → t.word o = s.word o) ∧
        (s.rd .VLK_BSTAT_EPOCH b.val ≠ e.toNat → (t.link b.val).lostEou = false) ∧
        ((s.link b.val).lostEou = false → OnlyWords [Fld.VLK_BSTAT_EPOCH.at b.val] s t) ∧
        t = { s with regs := t.regs, links := t.links }) ∧
      (∀ (e : Byte) (c : EpochChange), (s.bundle b.val).change = some c → c.epoch = e.toNat →
        (∀ i : Lane, (s.lane i.val).homing = false) → Leads (.epochMarker b e) s fun t =>
          t.rd .VLK_BSTAT_EPOCH b.val = e.toNat ∧ t.rd .VLK_BSTAT_MASK b.val = c.mask % 16 ∧
          (t.bundle b.val).change = none ∧ ∀ p : Fin 4, t.posLane b.val p.val = c.map.getD p.val 31 % 32) ∧
      (∀ c, (s.bundle b.val).change = some c → c.planned = false → Leads (.epochTimeout b) s fun t =>
        t.lanes = s.lanes ∧ t.bundles = s.bundles ∧
        (s.bundleUp b.val = true → (t.link b.val).unacked = [] ∧ t.on .VSN_LSTAT_INIT_DONE b.val = false))

/-! ### The link layer and the cages -/

/-- Tier 2. Units of the link layer (R117 to R124): the next expected DATA unit, within CLIMIT and intact, is
acknowledged and its frame enters the receive buffer, for which its credits are kept; a duplicate is acknowledged and
nothing else changes; a unit without EOU stops the scan for SOU, and the EOU of a later one starts it again; a
partner's INIT completes the exchange; INIT is repeated, and unacknowledged units are sent again in order; a damaged
LINKCTL is not seen while the scan is stopped, and no INIT leaves in a warm reset (R154). A unit that is sent leaves
as 8-byte words in order, behind the bytes that made no whole word before it (that they lead the next unit's is log
29), on positions of the epoch's set alone (R92, R94); on a bundle with all four positions the words go round them in
ascending order, and the word that completes 16 384 on every lane is followed by the markers, with position and epoch
(R93). That a unit before the next EOU, LINKCTL unit or epoch is not seen, once the frame boundary is lost, is log 30.
-/
def Obligations.LinkUnits : Prop :=
  ∀ (s : State) (b : BundleId),
    (∀ u, s.linkRunning b.val = true → (s.link b.val).lostEou = false → unitIntact u = true → fieldAt u 2 1 = 1 →
      (s.link b.val).unacked = [] → (s.link b.val).txq = [] → bitOf (fieldAt u 3 1) 0 = false →
      fieldAt u 4 2 % 4096 = s.rd .VSN_LSTAT_RX_NEXT b.val → s.overruns b.val (frameCost (unitFrame u)) = false →
      frameIntact (unitFrame u) = true → Leads (.dataUnit b u) s fun t =>
        (t.link b.val).rxq = (s.link b.val).rxq ++ [unitFrame u] ∧
        t.rd .VSN_LSTAT_RX_NEXT b.val = (s.rd .VSN_LSTAT_RX_NEXT b.val + 1) % 4096 ∧
        t.rd .VSN_LCUSED_CONSUMED b.val = (s.rd .VSN_LCUSED_CONSUMED b.val + frameCost (unitFrame u)) % 2 ^ 32 ∧
        t.rd .VSN_LBUF_FREE b.val = (s.rd .VSN_LBUF_FREE b.val - frameCost (unitFrame u)) ∧
        unitsSent b.val s t = [unitBytes 2 0 0 ((s.rd .VSN_LSTAT_RX_NEXT b.val + 1) % 4096) (s.rd .VSN_LCLIMIT_LIMIT b.val) []] ∧
        ∀ c : BundleId, c ≠ b → t.link c.val = s.link c.val) ∧
    (∀ u, s.linkRunning b.val = true → (s.link b.val).lostEou = false → unitIntact u = true → fieldAt u 2 1 = 1 →
      (s.link b.val).unacked = [] → (s.link b.val).txq = [] → bitOf (fieldAt u 3 1) 0 = false →
      (1 ≤ (s.rd .VSN_LSTAT_RX_NEXT b.val + 4096 - fieldAt u 4 2 % 4096) % 4096 ∧
        (s.rd .VSN_LSTAT_RX_NEXT b.val + 4096 - fieldAt u 4 2 % 4096) % 4096 ≤ 2048) →
      Leads (.dataUnit b u) s fun t => t.regs = s.regs ∧ (t.link b.val).rxq = (s.link b.val).rxq ∧
        unitsSent b.val s t = [unitBytes 2 0 0 (s.rd .VSN_LSTAT_RX_NEXT b.val) (s.rd .VSN_LCLIMIT_LIMIT b.val) []]) ∧
    (∀ u, s.linkRunning b.val = true → (s.link b.val).lostEou = false → endsEou u = false → Leads (.dataUnit b u) s fun t =>
      (t.link b.val).lostEou = true ∧ (t.link b.val).rxq = (s.link b.val).rxq ∧
      t.rd .VSN_LSTAT_RX_NEXT b.val = s.rd .VSN_LSTAT_RX_NEXT b.val) ∧
    (∀ u, s.linkRunning b.val = true → (s.link b.val).lostEou = true → Leads (.dataUnit b u) s fun t =>
      (t.link b.val).lostEou = !endsEou u ∧ (t.link b.val).rxq = (s.link b.val).rxq ∧ t.regs = s.regs ∧ t.sent = s.sent) ∧
    (∀ u, s.bundleUp b.val = true → s.inReset = false → unitIntact u = true → u.length = 32 → fieldAt u 2 1 = 2 →
      bitOf (fieldAt u 3 1) 1 = true → (s.link b.val).txq = [] → Leads (.linkctl b u) s fun t =>
        t.on .VSN_LSTAT_INIT_DONE b.val = true ∧ (t.link b.val).lostEou = false ∧
        (s.on .VSN_LSTAT_INIT_DONE b.val = true → (t.link b.val).unacked = [] ∧ t.rd .VSN_LSTAT_RX_NEXT b.val = 0 ∧
          t.rd .VSN_LSTAT_TX_NEXT b.val = 0 ∧ t.rd .VSN_LCUSED_CONSUMED b.val = 0 ∧
          t.rd .VSN_LCLIMIT_LIMIT b.val = s.rd .VSN_LBUF_FREE b.val)) ∧
    (∀ u, s.bundleUp b.val = true → s.inReset = false → unitIntact u = false → (s.link b.val).lostEou = true →
      Leads (.linkctl b u) s fun t => (t.link b.val).lostEou = !endsEou u ∧ t = { s with links := t.links }) ∧
    (s.inReset = true → Leads (.initRepeat b) s (· = s)) ∧
    (s.bundleUp b.val = true → s.on .VSN_LSTAT_INIT_DONE b.val = false → s.inReset = false → Leads (.initRepeat b) s fun t =>
      unitsSent b.val s t = [unitBytes 2 2 0 (s.rd .VSN_LSTAT_RX_NEXT b.val) (s.rd .VSN_LCLIMIT_LIMIT b.val) []] ∧
      t = { s with links := t.links, sent := t.sent }) ∧
    (s.linkRunning b.val = true → Leads (.unitResendTimeout b) s fun t =>
      unitsSent b.val s t = (s.link b.val).unacked.map (fun p => unitBytes 1 0 p.1
        (s.rd .VSN_LSTAT_RX_NEXT b.val) (s.rd .VSN_LCLIMIT_LIMIT b.val) p.2) ∧
      (t.link b.val).unacked = (s.link b.val).unacked ∧ t = { s with links := t.links, sent := t.sent }) ∧
    (∀ u, s.positionsOf b.val ≠ [] →
      let x := (s.link b.val).tx
      let t := s.sendUnit b.val u
      ∃ items, t.sent = .unit b.val u items :: s.sent ∧ dealtBytes items ++ (t.link b.val).tx.rest = x.rest ++ u ∧
        (t.link b.val).tx.rest.length = (x.rest ++ u).length % 8 ∧ t.regs = s.regs ∧
        ∀ i ∈ items, i.1 ∈ s.positionsOf b.val ∧ ∀ w, i.2 = .word w → w.length = 8) ∧
    (∀ u, s.positionsOf b.val = [0, 1, 2, 3] → (s.link b.val).tx.rest = [] → (s.link b.val).tx.next = 0 →
      ∀ n, u.length = 8 * n → (s.link b.val).tx.rounds + n / 4 < 16384 →
        (s.dealt b.val u).2 = (List.range n).map (fun k => (k % 4, .word ((u.drop (8 * k)).take 8))) ∧
        (s.dealt b.val u).1.next = n % 4) ∧
    (∀ u, s.positionsOf b.val = [0, 1, 2, 3] → (s.link b.val).tx.rest = [] → (s.link b.val).tx.next = 3 →
      (s.link b.val).tx.rounds = 16383 → u.length = 8 → (s.dealt b.val u).2 = (3, .word u) ::
        [0, 1, 2, 3].map (fun p => (p, .marker p (s.rd .VLK_BSTAT_EPOCH b.val))))

/-- Tier 2. A bundle reset restarts the link layer of the bundle (R102): in a bundle in service it starts again from link
sequence 0, with no unit kept and the credits free as CLIMIT (R118). It keeps the training, rate and roles of every lane and
the stripe epoch, and all the other lane registers. The sessions the bundle carries are detached (R129). -/
def Obligations.BundleResetKeepsLanes : Prop :=
  ∀ (s : State) (b : BundleId), Leads (.vlkBctlReset b) s fun t =>
    (s.bundleUp b.val = true → (t.link b.val).unacked = [] ∧ t.rd .VSN_LSTAT_RX_NEXT b.val = 0 ∧
      t.rd .VSN_LSTAT_TX_NEXT b.val = 0 ∧ t.on .VSN_LSTAT_INIT_DONE b.val = false ∧ t.rd .VSN_LCUSED_CONSUMED b.val = 0 ∧
      t.rd .VSN_LCLIMIT_LIMIT b.val = t.rd .VSN_LBUF_FREE b.val) ∧
    t.lanes = s.lanes ∧ t.bundles = s.bundles ∧ (∀ o, 0x300000 ≤ o → o < 0x400000 → t.word o = s.word o) ∧
    ∀ n : SessionId, s.rd .VSN_SSTAT_STATE n.val = ssOpen → s.rd .VSN_SSTAT_BUNDLE n.val = b.val →
      t.rd .VSN_SSTAT_STATE n.val = ssDetached

/-- Tier 2. Transceivers (R492, R496): up to 17 W one is powered, above it is left unpowered with OPTREJ; removal
clears both bits, and every lane of an ingest cage that was in service or standby is lost; two at once lie outside the
guarantee (R492). The other cages' bits stay. That a lane which was being released enters test mode is the model's
choice (log 29). -/
def Obligations.TransceiverPower : Prop :=
  ∀ (s : State) (c : Fin 4),
    (∀ w, w ≤ 170 → Leads (.transceiverInserted c w) s fun t =>
      bitOf (t.rd .MOD_OPT_PRESENT) c.val = true ∧ bitOf (t.rd .MOD_OPT_POWERED) c.val = true ∧
      ∀ d : Fin 4, d ≠ c → bitOf (t.rd .MOD_OPT_PRESENT) d.val = bitOf (s.rd .MOD_OPT_PRESENT) d.val ∧
        bitOf (t.rd .MOD_OPT_POWERED) d.val = bitOf (s.rd .MOD_OPT_POWERED) d.val) ∧
    (∀ w, 170 < w → Leads (.transceiverInserted c w) s fun t =>
      bitOf (t.rd .MOD_OPT_PRESENT) c.val = true ∧ bitOf (t.rd .MOD_OPT_POWERED) c.val = false ∧
      t.on .MOD_EVT_OPTREJ = true) ∧
    Leads (.transceiverRemoved c) s fun t =>
      bitOf (t.rd .MOD_OPT_PRESENT) c.val = false ∧ bitOf (t.rd .MOD_OPT_POWERED) c.val = false ∧
      ∀ l : Lane, l.val / 8 = c.val → s.lnState l.val = lnService ∨ s.lnState l.val = lnStandby →
        (t.lnState l.val = if (s.lane l.val).releasing then lnTest else lnRetry) ∧
        ∀ k : Lane, k ≠ l → k.val / 8 = c.val → s.lnState k.val = lnService ∨ s.lnState k.val = lnStandby →
          t.on .FLT_GSTAT_OUTSIDE = true

/-! ### The register space -/

/-- Tier 2. The register space takes only aligned 32-bit accesses of registers that exist (R12): any other write or
read, made by a register command or over the fabric, is answered with an error response and a fault message, and has no
effect but these and the collector's count of messages. -/
def Obligations.RegisterAccessesRefused : Prop :=
  ∀ (s : State) (m : Byte) (o : Nat),
    let refused := fun (m addr ty : Nat) (t : State) => t.sent = .access m false [] :: s.sent ∧
      SameWords (· == Fld.FLT_CNTU_COUNT.at 0) s t ∧
      t.flt = s.flt.receive (mkFault srcFabric 1 1 addr m ty) s.clock ∧
      t = { s with regs := t.regs, flt := t.flt, sent := t.sent }
    (∀ (n : Nat) (v : Word), n ≠ 4 ∨ o % 4 ≠ 0 ∨ regRow o = none →
      Leads (.registerWrite m o n v) s (refused m.toNat (0x20000000 + o) 1)) ∧
    (o % 4 ≠ 0 ∨ regRow o = none → Leads (.readClear m o) s (refused m.toNat (0x20000000 + o) 0) ∧
      Leads (.lowWordRead m o) s (refused m.toNat (0x20000000 + o) 0)) ∧
    (∀ (a : Access) (l : List Byte), a.bar = none → (∀ ty, s.waits a ty = false) → masterOk a.master.toNat = true → a.master.toNat ≠ 3 ∨ s.lcs ≠ 2 →
      0 < a.size → 0x20000000 ≤ a.addr.toNat → a.addr.toNat + a.size ≤ 0x30000000 →
      a.size ≠ 4 ∨ a.addr.toNat % 4 ≠ 0 ∨ regRow (a.addr.toNat - 0x20000000) = none →
      Leads (.fabricRead a) s (refused a.master.toNat a.addr.toNat (if a.fetch then tyFetch else tyRead)) ∧
      Leads (.fabricWrite a l) s (refused a.master.toNat a.addr.toNat tyWrite))

/-- Tier 2. A write of a register with neither RW nor WO bits clears the W1C bits written as 1 and changes nothing
else (R10). A range-checked field takes a value within its range and keeps its value otherwise. While a warm reset
runs, the host's writes have no effect (R514). -/
def Obligations.RegisterWritesByAccessType : Prop :=
  ∀ (s : State) (m : Byte) (v : Word),
    (s.barHeld m.toNat = false →
      (∀ o r, regRow o = some r → o % 4 = 0 → r.rw = 0 → r.wo = 0 → Leads (.registerWrite m o 4 v) s fun t =>
        t.sent = .access m.toNat true [] :: s.sent ∧ OnlyWords [o] s { t with sent := s.sent } ∧
        t.word o = s.word o &&& ~~~(v &&& BitVec.ofNat 32 r.w1c)) ∧
      Leads (.registerWrite m 0x400008 4 v) s (fun t =>
        OnlyWords [0x400008] s { t with sent := s.sent } ∧
        t.rd .VSN_RETAIN_SECONDS = (if 10 ≤ v.toNat % 2 ^ 17 ∧ v.toNat % 2 ^ 17 ≤ 86400 then v.toNat % 2 ^ 17
          else s.rd .VSN_RETAIN_SECONDS)) ∧
      Leads (.registerWrite m 0x680004 4 v) s (fun t =>
        OnlyWords [0x680004] s { t with sent := s.sent } ∧
        t.rd .ENG_GOVCTL_TARGET = (if 1400 ≤ v.toNat % 2 ^ 12 ∧ v.toNat % 2 ^ 12 ≤ 1800 then v.toNat % 2 ^ 12
          else s.rd .ENG_GOVCTL_TARGET))) ∧
    (∀ o, regRow o ≠ none → o % 4 = 0 → s.barHeld 0 = true →
      Leads (.registerWrite 0 o 4 v) s (· = s.send (.access 0 true [])))

/-- Tier 2. A read of a register with RC bits shows the value and clears those bits, and nothing else changes (R10); a read of
`HBM_SNRCNT` clears the neighbour refreshes counted for its stack (R439). -/
def Obligations.ReadClears : Prop :=
  ∀ (s : State) (m : Byte) (o : Nat) (r : RegRow), regRow o = some r → r.rc ≠ 0 → o % 4 = 0 → s.barHeld m.toNat = false →
    isLow o = false → tget none s.fab.latch (latchKey m.toNat o) = none → Leads (.readClear m o) s fun t =>
      t.sent = .regRead m.toNat o (BitVec.ofNat 32 (s.view m.toNat o)) :: s.sent ∧
      t.word o = s.word o &&& ~~~(BitVec.ofNat 32 r.rc) ∧ OnlyWords [o] s { t with sent := s.sent, hbm := s.hbm } ∧
      ((∀ k : StackId, o ≠ Fld.HBM_SNRCNT_COUNT.at k.val) → t.hbm = s.hbm) ∧
      ∀ k : StackId, o = Fld.HBM_SNRCNT_COUNT.at k.val → t.hbm = { s.hbm with near := tset 0 s.hbm.near k.val 0 }

/-- Tier 2. A read of the low word of a 64-bit pair latches the high word for its master, and for no other; a read of a
latched word shows the latch, and changes nothing; a high word that is not latched is read live (R13). A
read of the low word of `TIM_SEC` latches `TIM_NS` as well (R398). -/
def Obligations.LowWordReadsLatch : Prop :=
  ∀ (s : State) (m : Byte), s.barHeld m.toNat = false →
    (∀ o r, regRow o = some r → o % 4 = 0 → isLow o = true → o ≠ 0x200000 →
      tget none s.fab.latch (latchKey m.toNat o) = none → Leads (.lowWordRead m o) s fun t =>
        t.sent = .regRead m.toNat o (BitVec.ofNat 32 (s.view m.toNat o)) :: s.sent ∧
        tget none t.fab.latch (latchKey m.toNat (o + 4)) = some (BitVec.ofNat 32 (s.view m.toNat (o + 4))) ∧
        ∀ k, k ≠ latchKey m.toNat (o + 4) → tget none t.fab.latch k = tget none s.fab.latch k) ∧
    (∀ o r, regRow o = some r → o % 4 = 0 → isLow o = false → r.rc = 0 → tget none s.fab.latch (latchKey m.toNat o) = none →
      Leads (.lowWordRead m o) s (· = s.send (.regRead m.toNat o (BitVec.ofNat 32 (s.view m.toNat o))))) ∧
    (∀ o v, regRow o ≠ none → o % 4 = 0 → tget none s.fab.latch (latchKey m.toNat o) = some v →
      Leads (.lowWordRead m o) s (· = s.send (.regRead m.toNat o v))) ∧
    (tget none s.fab.latch (latchKey m.toNat 0x200000) = none → Leads (.timSecLowRead m) s fun t =>
      t.sent = .regRead m.toNat 0x200000 (BitVec.ofNat 32 s.timeb.sec) :: s.sent ∧ t.regs = s.regs ∧
      tget none t.fab.latch (latchKey m.toNat 0x200004) = some (BitVec.ofNat 32 (s.timeb.sec / 2 ^ 32)) ∧
      tget none t.fab.latch (latchKey m.toNat 0x200008) = some (BitVec.ofNat 32 s.timeb.ns))

/-- Tier 2. Registers with an action of their own: the host aperture takes a multiple of the BAR4 size within the data
space, and sets APREJ otherwise (R446); REMAP goes from 0 to 1 by the management core alone (R449); a low word of
`TIM_TRIM` is held until the high word, which applies both, or sets TRIMREJ beyond 500 ppm (R376); REARM puts MINMV
back to 0xFFFF (R524). -/
def Obligations.RegisterActions : Prop :=
  ∀ s : State,
    (∀ v : BitVec 64, Leads (.fabApbase v) s fun t =>
      if v.toNat % 2 ^ s.rd .FAB_APSIZE_LOG2 = 0 ∧ v.toNat + 2 ^ s.rd .FAB_APSIZE_LOG2 ≤ hbmSize then
        t.rd64 .FAB_APBASE = v.toNat ∧ OnlyWords (Reg64.FAB_APBASE.words 0) s t
      else t.on .FAB_EVT_APREJ = true ∧ OnlyWords [Fld.FAB_EVT_APREJ.at 0] s t) ∧
    (Leads (.remap 1 true) s fun t => t.on .FAB_CTL_REMAP = true ∧ OnlyWords [Fld.FAB_CTL_REMAP.at 0] s t) ∧
    (∀ (m : Byte) (v : Bool), m ≠ 1 ∨ v = false → Leads (.remap m v) s (· = s)) ∧
    (∀ v : Word, Leads (.timTrimLow v) s (· = { s with timeb := { s.timeb with trimLow := some v } })) ∧
    (∀ v w : Word, s.timeb.trimLow = some w →
      let n := signed 64 (w.toNat + 2 ^ 32 * v.toNat)
      (n.natAbs ≤ rhoMax.natAbs → Leads (.timTrimHigh v) s fun t =>
        t.rd64 .TIM_TRIM = w.toNat + 2 ^ 32 * v.toNat ∧ t.timeb.trimLow = none) ∧
      (rhoMax.natAbs < n.natAbs → Leads (.timTrimHigh v) s fun t =>
        t.on .TIM_EVT_TRIMREJ = true ∧ t.timeb = { s.timeb with trimLow := none } ∧
        SameWords (· == Fld.TIM_EVT_TRIMREJ.at 0) s t)) ∧
    Leads .pwrMinrstRearm s (fun t => t.rd .PWR_VBUS_MINMV = 0xFFFF ∧ t.rd .PWR_VBUS_MV = s.rd .PWR_VBUS_MV ∧
      OnlyWords [Fld.PWR_VBUS_MINMV.at 0] s t)

/-! ### Sessions and flows -/

/-- Tier 2. SOPEN with token 0 opens a session in the lowest FREE slot: READY_WAIT, with the slot's next epoch, a
token of the module, the slot and the epoch, and an SGRANT; the same SOPEN again, before SREADY, gets the same answer
on the bundle it came on (R128); with a known token it resumes that session under the next epoch, its flows kept, of
which it reports no frame lost; else SREFUSE gives the reason, and no session changes (R126 to R132, R155, R156). The
order of the reasons, session 0 in SREFUSE and a token that no earlier session of the slot had are the model's choices
(log 30). -/
def Obligations.SessionOpens : Prop :=
  ∀ (s : State) (b : BundleId) (f : List Byte), s.isNext b.val f = true → formOk f 0x10 32 = true →
    let ep := fieldAt (fPayload f) 0 4
    let nonce := fieldAt (fPayload f) 4 4
    let tok := fieldAt (fPayload f) 8 8
    let refused := fun (r : Nat) => Leads (.sopen b f) s fun t =>
      t.sess = s.sess ∧ t.flows = s.flows ∧ t.outFrames b.val = s.outFrames b.val ++
        [s.mkFrame 0x12 0 (leBytes 1 r ++ leBytes 3 0 ++ leBytes 4 nonce ++ leBytes 24 0)]
    (fModule f ≠ s.moduleId ∨ s.moduleId = 255 → refused 4) ∧
    (fModule f = s.moduleId → s.moduleId ≠ 255 →
      (ep ≠ s.rd .VLK_BPEER_ENDPOINT b.val → refused 5) ∧
      (ep = s.rd .VLK_BPEER_ENDPOINT b.val → ∀ n : SessionId,
        s.rd .VSN_SSTAT_STATE n.val = ssReadyWait → s.rd .VSN_SPEER_ENDPOINT n.val = ep → (s.session n.val).nonce = nonce →
        (∀ k : SessionId, k < n → s.rd .VSN_SSTAT_STATE k.val = ssReadyWait → s.rd .VSN_SPEER_ENDPOINT k.val = ep →
          (s.session k.val).nonce ≠ nonce) → Leads (.sopen b f) s fun t =>
          t.rd .VSN_SSTAT_BUNDLE n.val = b.val ∧ t.rd .VSN_SSTAT_STATE n.val = ssReadyWait ∧ t.sess = s.sess ∧ t.flows = s.flows ∧
          t.outFrames b.val = s.outFrames b.val ++ (s.session n.val).answer.map (fun p => s.mkFrame p.1 n.val p.2)) ∧
      (ep = s.rd .VLK_BPEER_ENDPOINT b.val →
        (∀ k : SessionId, s.rd .VSN_SSTAT_STATE k.val = ssReadyWait → s.rd .VSN_SPEER_ENDPOINT k.val = ep →
          (s.session k.val).nonce ≠ nonce) →
        (tok = 0 → s.on .VSN_CTL_OPEN_EN = false → refused 3) ∧
        (tok = 0 → s.on .VSN_CTL_OPEN_EN = true → (∀ k : SessionId, s.rd .VSN_SSTAT_STATE k.val ≠ ssFree) → refused 1) ∧
        (tok ≠ 0 → (∀ k : SessionId, s.rd .VSN_SSTAT_STATE k.val ≠ ssFree → s.rd64 .VSN_STOKEN k.val ≠ tok) → refused 2) ∧
        ∀ n : SessionId,
          (tok = 0 → s.on .VSN_CTL_OPEN_EN = true → s.rd .VSN_SSTAT_STATE n.val = ssFree →
            (∀ k : SessionId, k < n → s.rd .VSN_SSTAT_STATE k.val ≠ ssFree) → Leads (.sopen b f) s fun t =>
              let e := ((s.session n.val).lastEpoch + 1) % 256
              t.rd .VSN_SSTAT_STATE n.val = ssReadyWait ∧ t.rd .VSN_SSTAT_BUNDLE n.val = b.val ∧
              t.rd .VSN_SSTAT_EPOCH n.val = e ∧ t.rd .VSN_SPEER_ENDPOINT n.val = ep ∧
              t.rd64 .VSN_STOKEN n.val / 2 ^ 40 = s.moduleId * 2 ^ 16 + n.val * 2 ^ 8 + e ∧ t.flows = s.flows ∧
              t.outFrames b.val = s.outFrames b.val ++ [t.mkFrame 0x11 n.val (leBytes 1 n.val ++ leBytes 1 e ++
                leBytes 2 0 ++ leBytes 4 nonce ++ leBytes 8 (t.rd64 .VSN_STOKEN n.val) ++ leBytes 4 0 ++
                leBytes 8 (s.tricks.cur.getD (2 ^ 64 - 1)) ++ leBytes 4 0)]) ∧
          (tok ≠ 0 → s.rd .VSN_SSTAT_STATE n.val ≠ ssFree → s.rd64 .VSN_STOKEN n.val = tok →
            (∀ k : SessionId, k < n → s.rd .VSN_SSTAT_STATE k.val ≠ ssFree → s.rd64 .VSN_STOKEN k.val ≠ tok) →
            (s.session n.val).coldKind = 0 → Leads (.sopen b f) s fun t =>
              t.rd .VSN_SSTAT_STATE n.val = ssReadyWait ∧ t.rd .VSN_SSTAT_BUNDLE n.val = b.val ∧
              t.rd .VSN_SSTAT_EPOCH n.val = (s.rd .VSN_SSTAT_EPOCH n.val + 1) % 256 ∧ t.rd64 .VSN_STOKEN n.val = tok ∧
              (t.session n.val).kind = (if (s.session n.val).warmSince then 2 else 1) ∧ ∀ j : FlowId, t.flow j.val =
                (if j.val ∈ s.flowsOf n.val then { s.flow j.val with lossFirst := 0, lossCount := 0 } else s.flow j.val))))

/-- Tier 2. SREADY opens a session; SCLOSE, the retention timeout and an administrative close free it with its flows,
and its slot keeps its last epoch; while acceptance is suspended no flow is released, and a close waits (R152); a
reset sends SRESET and waits to be resumed, and SRESET is repeated; every open session gets an ACCEPT_ACK (R126, R129,
R131, R139, R161); in a warm reset neither timer sends (R154). That a close waits while acceptance is suspended is log
30. -/
def Obligations.SessionStates : Prop :=
  ∀ s : State,
    (∀ (b : BundleId) (f : List Byte), s.isNext b.val f = true →
      (s.ctlCheck b.val f 0x13 0 ssReadyWait = none → fSession f < 256 → Leads (.sready b f) s fun t =>
        t.rd .VSN_SSTAT_STATE (fSession f) = ssOpen ∧ t.rd .VSN_SSTAT_EPOCH (fSession f) = s.rd .VSN_SSTAT_EPOCH (fSession f) ∧
        t.flows = s.flows ∧ (t.session (fSession f)).answer = [] ∧
        ∀ k : SessionId, k.val ≠ fSession f → t.session k.val = s.session k.val) ∧
      (s.suspended = true → Leads (.sclose b f) s (· = s)) ∧
      (s.ctlCheck b.val f 0x14 0 ssOpen = none → fSession f < 256 → s.suspended = false → Leads (.sclose b f) s fun t =>
        t.rd .VSN_SSTAT_STATE (fSession f) = ssFree ∧ t.flowsOf (fSession f) = [] ∧ t.rd64 .VSN_STOKEN (fSession f) = 0 ∧
        (t.session (fSession f)).lastEpoch = s.rd .VSN_SSTAT_EPOCH (fSession f) ∧
        s.mkFrame 0x14 (fSession f) [] ∈ t.outFrames b.val)) ∧
    (∀ n : SessionId,
      (s.rd .VSN_SSTAT_STATE n.val ≠ ssFree → s.suspended = true →
        Leads (.retentionTimeOut n) s (· = s.setSession n.val { s.session n.val with closeDue := 7 }) ∧
        Leads (.vsnSctlClose n) s (· = s.setSession n.val { s.session n.val with closeDue := 6 })) ∧
      (s.rd .VSN_SSTAT_STATE n.val ≠ ssFree → s.suspended = false →
        Leads (.retentionTimeOut n) s (fun t => t.rd .VSN_SSTAT_STATE n.val = ssFree ∧ t.flowsOf n.val = [] ∧
          (t.session n.val).lastEpoch = s.rd .VSN_SSTAT_EPOCH n.val) ∧
        Leads (.vsnSctlClose n) s (fun t => t.rd .VSN_SSTAT_STATE n.val = ssFree ∧ t.flowsOf n.val = [] ∧
          (t.session n.val).lastEpoch = s.rd .VSN_SSTAT_EPOCH n.val)) ∧
      (s.rd .VSN_SSTAT_STATE n.val = ssReadyWait ∨ s.rd .VSN_SSTAT_STATE n.val = ssOpen ∨
          s.rd .VSN_SSTAT_STATE n.val = ssResetWait → Leads (.vsnSctlReset n) s fun t =>
        t.rd .VSN_SSTAT_STATE n.val = ssResetWait ∧ t.on .VSN_EVT_SRESET = true ∧ (t.session n.val).resetReason = 2 ∧
        t.flows = s.flows ∧ t.outFrames (s.rd .VSN_SSTAT_BUNDLE n.val) = s.outFrames (s.rd .VSN_SSTAT_BUNDLE n.val) ++
          [s.mkFrame 0x15 n.val (leBytes 1 (s.rd .VSN_SSTAT_EPOCH n.val) ++ leBytes 1 2 ++ leBytes 30 0)]) ∧
      (s.inReset = true → Leads (.sresetRepeat n) s (· = s)) ∧
      (s.rd .VSN_SSTAT_STATE n.val = ssResetWait → s.inReset = false → Leads (.sresetRepeat n) s fun t =>
        t.sess = s.sess ∧ t.outFrames (s.rd .VSN_SSTAT_BUNDLE n.val) = s.outFrames (s.rd .VSN_SSTAT_BUNDLE n.val) ++
          [s.mkFrame 0x15 n.val (leBytes 1 (s.rd .VSN_SSTAT_EPOCH n.val) ++ leBytes 1 (s.session n.val).resetReason ++
            leBytes 30 0)])) ∧
    (s.inReset = true → Leads .acceptAckTimer s (· = s)) ∧
    (s.inReset = false → Leads .acceptAckTimer s fun t => ∀ b : BundleId,
      t.outFrames b.val = s.outFrames b.val ++ ((List.range 256).filter (fun n => s.rd .VSN_SSTAT_STATE n == ssOpen &&
        s.rd .VSN_SSTAT_BUNDLE n == b.val)).map (fun n => s.mkFrame 0x30 n []))

/-- Tier 2. Flows (R134 to R139, R152): FREQ for a new flow activates the lowest FREE context at the sequence and
anchor asked for and answers FGRANT, after taking over what another session of the same endpoint held there; FREFUSE
gives the first reason that applies and changes no flow; FREQ for a flow of its own anchors it anew; FRELEASE frees a
flow, and FSKIP moves it to the sequence named, and a flow that is not assigned, or another session's, is refused; the
three wait while acceptance is suspended; a flow that is heard is ACTIVE again; flows fall SUSPECT, then SILENT. That
the three wait, reason 5 for an unassigned flow or another session's, and SEQ of the REFUSE entries are the model's
choices (log 30). -/
def Obligations.FlowStates : Prop :=
  ∀ (s : State) (b : BundleId) (f : List Byte),
    (s.isNext b.val f = true → s.suspended = true →
      Leads (.freq b f) s (· = s) ∧ Leads (.frelease b f) s (· = s) ∧ Leads (.fskip b f) s (· = s)) ∧
    (s.isNext b.val f = true → s.suspended = false → s.ctlCheck b.val f 0x20 32 ssOpen = none →
      let n := fSession f
      let g := fieldAt (fPayload f) 0 1
      let sh := fieldAt (fPayload f) 1 1 % 64
      let cb := fieldAt (fPayload f) 2 3
      let tag := fieldAt (fPayload f) 6 2
      let seq := fieldAt (fPayload f) 8 4
      let fl := fieldAt (fPayload f) 12 2
      let anchor := fieldAt (fPayload f) 16 8
      let good := g < 64 ∧ shListed sh = true ∧ cb % shC sh = 0 ∧ cb + shC sh - 1 < 2 ^ 24 ∧ anchor % shT sh = 0
      let hits := s.flowList.filter (fun o => overlaps g cb sh (s.rd .VSN_FSTAT_GROUP o) (s.rd .VSN_FCHBASE_CHBASE o) (s.flowShape o))
      let own := ∃ o ∈ hits, s.rd .VSN_FSTAT_SESSION o = n
      let other := ∃ o ∈ hits, s.rd .VSN_SPEER_ENDPOINT (s.rd .VSN_FSTAT_SESSION o) ≠ s.rd .VSN_SPEER_ENDPOINT n
      let granted := fun (k : Nat) (t : State) =>
        t.rd .VSN_FSTAT_STATE k = flActive ∧ t.rd .VSN_FSTAT_SESSION k = n ∧ t.rd .VSN_FSTAT_GROUP k = g ∧ t.flowShape k = sh ∧
        t.rd .VSN_FCHBASE_CHBASE k = cb ∧ t.rd .VSN_FNEXT_NEXT k = seq ∧ (t.flow k).exp = anchor ∧ (t.flow k).h = seq ∧
        (t.flow k).held = [] ∧ FrameSent b.val 0x21 n (leBytes 2 k ++ leBytes 2 tag ++ leBytes 4 seq ++ leBytes 8 anchor ++
          leBytes 16 0) s t
      let refused := fun (r : Nat) => Leads (.freq b f) s fun t =>
        t.flows = s.flows ∧ (∀ k : FlowId, t.rd .VSN_FSTAT_STATE k.val = s.rd .VSN_FSTAT_STATE k.val) ∧
        t.outFrames b.val = s.outFrames b.val ++ [s.mkFrame 0x22 n (leBytes 2 tag ++ leBytes 1 r ++ leBytes 29 0)]
      (¬ good → refused 3) ∧
      (good → fl = 0xFFFF →
        (own → refused 6) ∧ (¬ own → other → refused 4) ∧ (¬ own → ¬ other → s.timeb.map = none → refused 7) ∧
        (¬ own → ¬ other → s.timeb.map.isSome = true →
          ((∀ k, k < 40960 → k ∈ s.flowList ∧ k ∉ hits) → refused 1) ∧
          ∀ k, k < 40960 → (k ∉ s.flowList ∨ k ∈ hits) → (∀ j, j < k → j ∈ s.flowList ∧ j ∉ hits) →
            (s.capacityOk b.val sh hits = false → refused 2) ∧
            (s.capacityOk b.val sh hits = true →
              (hits = [] → Leads (.freq b f) s (granted k)) ∧
              (hits ≠ [] → Leads (.freq b f) s fun t => granted k t ∧ t.on .VSN_EVT_TAKEOVER = true ∧
                ∀ o ∈ hits, o ≠ k → t.rd .VSN_FSTAT_STATE o = flFree)))) ∧
      (good → fl ≠ 0xFFFF →
        let mine := fl < 40960 ∧ s.rd .VSN_FSTAT_STATE fl ≠ flFree ∧ s.rd .VSN_FSTAT_SESSION fl = n ∧
          s.rd .VSN_FSTAT_GROUP fl = g ∧ s.rd .VSN_FCHBASE_CHBASE fl = cb ∧ s.flowShape fl = sh
        (mine → Leads (.freq b f) s (granted fl)) ∧ (¬ mine → refused 5))) ∧
    (s.isNext b.val f = true → s.suspended = false → s.ctlCheck b.val f 0x23 32 ssOpen = none →
      let k := fieldAt (fPayload f) 0 2
      let refused := fun (r : Nat) => Leads (.frelease b f) s fun t => t.flows = s.flows ∧
        t.outFrames b.val = s.outFrames b.val ++ [s.mkFrame 0x30 (fSession f) (ackEntry k 5 r 0)]
      (40960 ≤ k ∨ s.rd .VSN_FSTAT_STATE k = flFree → refused 1) ∧
      (k < 40960 → s.rd .VSN_FSTAT_STATE k ≠ flFree → s.rd .VSN_FSTAT_SESSION k ≠ fSession f → refused 2) ∧
      (k < 40960 → s.rd .VSN_FSTAT_STATE k ≠ flFree → s.rd .VSN_FSTAT_SESSION k = fSession f →
        Leads (.frelease b f) s fun t => t.rd .VSN_FSTAT_STATE k = flFree ∧ t.flow k = {} ∧
          t.outFrames b.val = s.outFrames b.val ++ [t.mkFrame 0x30 (fSession f) (ackEntry k 7 0 0)] ∧
          ∀ j : FlowId, j.val ≠ k → t.flow j.val = s.flow j.val ∧ t.rd .VSN_FSTAT_STATE j.val = s.rd .VSN_FSTAT_STATE j.val)) ∧
    (s.isNext b.val f = true → s.suspended = false → s.ctlCheck b.val f 0x24 32 ssOpen = none →
      let k := fieldAt (fPayload f) 0 2
      let q := fieldAt (fPayload f) 4 4
      let e := s.rd .VSN_FNEXT_NEXT k
      let d := seqDiff q e
      let x := s.flow k
      let refused := fun (r : Nat) => Leads (.fskip b f) s fun t => t.flows = s.flows ∧
        t.outFrames b.val = s.outFrames b.val ++ [s.mkFrame 0x30 (fSession f) (ackEntry k 5 r q)]
      (40960 ≤ k ∨ s.rd .VSN_FSTAT_STATE k = flFree → refused 1) ∧
      (k < 40960 → s.rd .VSN_FSTAT_STATE k ≠ flFree → s.rd .VSN_FSTAT_SESSION k ≠ fSession f → refused 2) ∧
      (k < 40960 → s.rd .VSN_FSTAT_STATE k ≠ flFree → s.rd .VSN_FSTAT_SESSION k = fSession f →
        (d < 2 ^ 31 → Leads (.fskip b f) s fun t => t.rd .VSN_FNEXT_NEXT k = q ∧
          (t.flow k).exp = x.exp + d * shT (s.flowShape k) ∧ (t.flow k).held = x.held.drop d ∧
          (t.flow k).h = (if d ≤ seqDiff x.h e then x.h else q)) ∧
        (2 ^ 31 ≤ d → Leads (.fskip b f) s fun t => t.rd .VSN_FNEXT_NEXT k = e ∧ t.flows = s.flows))) ∧
    (s.isNext b.val f = true → s.sampleCheck b.val f (fVersion f == 1 && fType f == 2 && shListed (fShape f) && fPlen f == 0 &&
        f.length == 68) = none → s.flowCheck b.val f = none →
      s.rd .VSN_FSTAT_STATE (fFlow f) ≠ flFault → fSeq f = s.rd .VSN_FNEXT_NEXT (fFlow f) →
      fCount f = (s.flow (fFlow f)).exp → fGroup f = s.rd .VSN_FSTAT_GROUP (fFlow f) →
      fChbase f = s.rd .VSN_FCHBASE_CHBASE (fFlow f) → fShape f = s.flowShape (fFlow f) →
      Leads (.keepalive b f) s fun t => t.flows = s.flows ∧ t.rd .VSN_FSTAT_STATE (fFlow f) =
        if s.rd .VSN_FSTAT_STATE (fFlow f) = flSuspect ∨ s.rd .VSN_FSTAT_STATE (fFlow f) = flSilent then flActive
        else s.rd .VSN_FSTAT_STATE (fFlow f)) ∧
    ∀ k : FlowId,
      (s.rd .VSN_FSTAT_STATE k.val = flActive → Leads (.flowSuspect k) s fun t =>
        t.rd .VSN_FSTAT_STATE k.val = flSuspect ∧ t.on .VSN_EVT_SUSPECT = true ∧ t.flows = s.flows ∧
        ∀ j : FlowId, j ≠ k → t.rd .VSN_FSTAT_STATE j.val = s.rd .VSN_FSTAT_STATE j.val) ∧
      (s.rd .VSN_FSTAT_STATE k.val ≠ flActive → Leads (.flowSuspect k) s (· = s)) ∧
      (s.rd .VSN_FSTAT_STATE k.val = flActive ∨ s.rd .VSN_FSTAT_STATE k.val = flSuspect → Leads (.flowSilent k) s fun t =>
        t.rd .VSN_FSTAT_STATE k.val = flSilent ∧ t.on .VSN_EVT_SILENT = true ∧ t.flows = s.flows ∧
        ∀ j : FlowId, j ≠ k → t.rd .VSN_FSTAT_STATE j.val = s.rd .VSN_FSTAT_STATE j.val)

/-- Tier 2. A DATA frame of an active flow (R140 to R152): the one expected next is accepted, its samples written to the
deck, and acknowledged; a duplicate is acknowledged again; after a gap NACK_SEQ asks for the sequence to check next; a
counter that contradicts the sequence faults the flow; while acceptance is suspended the frame is held. -/
def Obligations.DataFrames : Prop :=
  ∀ (s : State) (b : BundleId) (f : List Byte), s.isNext b.val f = true → s.sampleCheck b.val f (dataFormOk f) = none →
    s.flowCheck b.val f = none →
    let k := fFlow f
    let n := fSession f
    let e := s.rd .VSN_FNEXT_NEXT k
    let ack := fun (kind q : Nat) => s.mkFrame 0x30 n (ackEntry k kind 0 q)
    s.rd .VSN_FSTAT_STATE k = flActive → (s.flow k).h = e → (s.flow k).held = [] →
    (fSeq f = e → fCount f = (s.flow k).exp → fGroup f = s.rd .VSN_FSTAT_GROUP k →
      fChbase f = s.rd .VSN_FCHBASE_CHBASE k → fShape f = s.flowShape k → s.frameLate f = false →
      (∀ c ∈ s.futureFrom, fCount f < c) → s.awaitsDeal (fCount f) = false → s.fmtBad f = false →
      (s.suspended = false → s.inWindow f = true → Leads (.data b f) s fun t =>
        t.rd .VSN_FNEXT_NEXT k = (e + 1) % 2 ^ 32 ∧ (t.flow k).exp = (s.flow k).exp + shT (fShape f) ∧
        t.rd .VSN_FACC_ACCEPTED k = (s.rd .VSN_FACC_ACCEPTED k + 1) % 2 ^ 32 ∧
        (∀ p, s.planAt (fCount f) = some p → t.hbm = (s.writeFrame p f).hbm ∧ t.deck = (s.writeFrame p f).deck) ∧
        FrameSent b.val 0x30 n (ackEntry k 1 0 ((e + 1) % 2 ^ 32)) s t ∧
        (t.link b.val).rxq = (s.link b.val).rxq.tail) ∧
      (s.suspended = true → Leads (.data b f) s fun t =>
        t.rd .VSN_FNEXT_NEXT k = e ∧ (t.flow k).held = [(b.val, f)] ∧ (t.flow k).h = (e + 1) % 2 ^ 32 ∧
        t.outFrames b.val = s.outFrames b.val ∧ t.hbm = s.hbm ∧ t.deck = s.deck)) ∧
    (2 ^ 31 ≤ seqDiff (fSeq f) e → Leads (.data b f) s fun t =>
      t.rd .VSN_SDUP_COUNT n = min (s.rd .VSN_SDUP_COUNT n + 1) (2 ^ 32 - 1) ∧ t.flows = s.flows ∧ t.hbm = s.hbm ∧
      t.outFrames b.val = s.outFrames b.val ++ [ack 1 e]) ∧
    (1 ≤ seqDiff (fSeq f) e → seqDiff (fSeq f) e < 2 ^ 31 → (s.flow k).nackAt = none → Leads (.data b f) s fun t =>
      t.rd .VSN_SGAP_COUNT n = min (s.rd .VSN_SGAP_COUNT n + 1) (2 ^ 32 - 1) ∧ t.rd .VSN_FNEXT_NEXT k = e ∧
      t.hbm = s.hbm ∧ t.outFrames b.val = s.outFrames b.val ++ [ack 2 e]) ∧
    (fSeq f = e → fCount f ≠ (s.flow k).exp → Leads (.data b f) s fun t =>
      t.rd .VSN_FSTAT_STATE k = flFault ∧ t.on .VSN_EVT_FLOWFAULT = true ∧ t.hbm = s.hbm ∧
      t.outFrames b.val = s.outFrames b.val ++ [ack 6 e])

/-- Tier 2. The oldest held frame of a flow is accepted once nothing suspends acceptance and every range channel it would
write is open: its samples are written, and an ACK of the sequence after it leaves; one whose range has closed meanwhile is passed
over, with a NACK_LATE of the sequence expected then; one that its plan's format does not fit is refused with reason 3, and the
frames held behind it are dropped; else it stays held (R142, R144, R145, R148). What PIGGY of those frames repeats, and that a frame
of a group that the plan leaves out is never late, are the model's choices (log 30). -/
def Obligations.HeldFrames : Prop :=
  ∀ (s : State) (k : FlowId) (b : Nat) (f : List Byte) (r : List (Nat × List Byte)),
    (s.flow k.val).held = (b, f) :: r → fFlow f = k.val →
    let n := s.rd .VSN_FSTAT_SESSION k.val
    let bd := s.rd .VSN_SSTAT_BUNDLE n
    (s.suspended = true ∨ s.awaitsDeal (fCount f) = true ∨ s.waitsOpen f = true → Leads (.heldFrameAcceptance k) s (· = s)) ∧
    (s.suspended = false → s.awaitsDeal (fCount f) = false → s.waitsOpen f = false →
      (s.frameLate f = false → s.fmtBad f = false → Leads (.heldFrameAcceptance k) s fun t =>
        t.rd .VSN_FNEXT_NEXT k.val = (s.rd .VSN_FNEXT_NEXT k.val + 1) % 2 ^ 32 ∧ (t.flow k.val).held = r ∧
        (t.flow k.val).exp = (s.flow k.val).exp + shT (fShape f) ∧
        FrameSent bd 0x30 n (ackEntry k.val 1 0 ((s.rd .VSN_FNEXT_NEXT k.val + 1) % 2 ^ 32)) s t ∧
        t.rd .VSN_FACC_ACCEPTED k.val = (s.rd .VSN_FACC_ACCEPTED k.val + 1) % 2 ^ 32 ∧
        (s.planAt (fCount f) = none → t.hbm = s.hbm ∧ t.deck = s.deck) ∧
        ∀ p, s.planAt (fCount f) = some p → t.hbm = (s.writeFrame p f).hbm ∧ t.deck = (s.writeFrame p f).deck) ∧
      (s.frameLate f = true → Leads (.heldFrameAcceptance k) s fun t =>
        let j := ceilDiv (s.openStart f - (s.flow k.val).exp) (shT (fShape f))
        t.rd .VSN_FNEXT_NEXT k.val = (s.rd .VSN_FNEXT_NEXT k.val + j) % 2 ^ 32 ∧ (t.flow k.val).held = ((b, f) :: r).drop j ∧
        (t.flow k.val).exp = (s.flow k.val).exp + j * shT (fShape f) ∧ t.hbm = s.hbm ∧ t.deck = s.deck ∧
        FrameSent bd 0x30 n (ackEntry k.val 3 0 ((s.rd .VSN_FNEXT_NEXT k.val + j) % 2 ^ 32)) s t) ∧
      (s.frameLate f = false → s.fmtBad f = true → Leads (.heldFrameAcceptance k) s fun t =>
        t.rd .VSN_FNEXT_NEXT k.val = s.rd .VSN_FNEXT_NEXT k.val ∧ (t.flow k.val).held = [] ∧
        (t.flow k.val).h = s.rd .VSN_FNEXT_NEXT k.val ∧ t.hbm = s.hbm ∧ t.deck = s.deck ∧
        FrameSent bd 0x30 n (ackEntry k.val 5 3 (fSeq f)) s t))

/-! ### The deck, the cut and the engines -/

/-- Tier 2. Range channels (R170 to R174, R181 to R183): one closes when every group has delivered, or at its nominal end
when no group is waited for, or at its deadline, which is counted; the cut takes the next closed one, forms its valid
vectors, and every engine is told of it; its blocks leave in order to the engines that need them, and the cut stalls while the
input buffer of one of them is full, or while a position that needs the block waits for its substitute (R218; log 10);
its release empties its place in the deck (in states whose plans stand as deals leave
them, `DealOrder`). -/
def Obligations.RangeChannels : Prop :=
  ∀ (s : State) (p : ActivePlan),
    (∀ (a : Nat) (c : Fin 1024), s.planAt a = some p → s.mayClose p a c.val = true →
      let st := (pGroups p.data).map (fun g => s.delivered g (pChanOf p.data c.val) (a + pS p.data))
      ((∀ x ∈ st, x = some true) → Leads (.rangeChannelClose a c) s fun t =>
        (t.chan a c.val).closed = true ∧ t.closedTo p c.val = a + pS p.data ∧ t.clock = s.clock ∧
        t.rd .CUT_DLCLOSE_COUNT = s.rd .CUT_DLCLOSE_COUNT) ∧
      (st.contains (some false) = false → st.contains none = true → (s.timeOf (a + pS p.data)).isSome = true →
        Leads (.rangeChannelClose a c) s fun t =>
          (t.chan a c.val).closed = true ∧ t.closedTo p c.val = a + pS p.data) ∧
      (st.contains (some false) = true → Leads (.rangeChannelClose a c) s (· = s)) ∧
      (s.paused = false → (s.deadlineOf p a c.val).isSome = true → Leads (.deckDeadline a c) s fun t =>
        (t.chan a c.val).closed = true ∧ t.closedTo p c.val = a + pS p.data ∧ t.on .CUT_EVT_DLCLOSE = true ∧
        t.rd .CUT_DLCLOSE_COUNT = min (s.rd .CUT_DLCLOSE_COUNT + 1) (2 ^ 32 - 1))) ∧
    (let a := s.deck.cutT
     let c := s.deck.cutCh
     s.planAt a = some p → (s.chan a c).closed = true → (s.chan a c).cut = false → s.frozen = false →
      s.inReset = false → s.noLoading = true → s.deck.reads = [] → c < 1024 →
      Leads .cutRangeChannel s fun t =>
        (t.chan a c).cut = true ∧ t.rd64 .CUT_CUTRANGE = a % 2 ^ 64 ∧
        (∀ e ∈ s.served, (t.eng e).inbuf = (s.eng e).inbuf ++ [⟨a, c, false⟩]) ∧
        (∀ g run, g < pNg p.data → run < pR p.data → pR p.data ≤ 256 →
          tget 0 t.deck.valid (2 ^ 16 * chanKey a c + 2 ^ 8 * g + run) =
            validBits ((s.runClasses p a c g run).map Prod.fst)) ∧
        (t.deck.cutT, t.deck.cutCh) = if pN p.data ≤ c + 1 then (a + pS p.data, 0) else (a, c + 1)) ∧
    (∀ r rest, s.deck.reads = r :: rest → s.planAt r.t = some p → r.next < r.stop → s.frozen = false → s.inReset = false →
      let run := r.next / pNg p.data
      let g := r.next % pNg p.data
      (s.blockWaits p r run g = true ∨ (∃ e ∈ s.blockTo p r run g, (s.eng e).hasRoom (16384 * pB p.data) = false) →
        Leads .cutRangeChannel s fun t =>
        t.engs = s.engs ∧ t.deck.reads = s.deck.reads) ∧
      (s.blockWaits p r run g = false → (∀ e ∈ s.blockTo p r run g, (s.eng e).hasRoom (16384 * pB p.data) = true) →
        Leads .cutRangeChannel s fun t =>
        ∀ e ∈ s.blockTo p r run g, ∃ l, (t.eng e).blocks = (s.eng e).blocks ++ s.cutBlock p r.t r.ch run g :: l)) ∧
    (∀ (a : Nat) (c : Fin 1024), s.planAt a = some p → (s.chan a c.val).cut = true → s.releasedTo p c.val = a →
      s.finished p a c.val = true → a % 4096 = 0 → pS p.data % 4096 = 0 → 0 < pS p.data → DealOrder s →
      Leads (.rangeChannelRelease a c) s fun t =>
        t.chan a c.val = {} ∧ ∀ k, k / 2 ^ 16 = chanKey a c.val →
          tget 0 t.deck.presence k = 0 ∧ tget 0 t.deck.handed k = 0 ∧ tget 0 t.deck.valid k = 0)

/-- Tier 2. The work of an engine (R187, R188, R197, R198): ALLOT takes the oldest range channel of the input buffer into
the other bank, once this one is done and that one free; the next hand-run in order, once the input buffer holds its blocks,
adds its products to the short accumulator, or hands its beam partial on, and is counted; without the blocks it waits, and at
a supply freeze only the hand-run in progress completes (R200). -/
def Obligations.EngineWork : Prop :=
  ∀ (s : State) (e : EngineId), s.rd .ENG_STAT_STATE e.val = egActive → s.inReset = false →
    let b := s.rd .ENG_STAT_BANK e.val
    let pos := s.rd .ENG_STAT_POSITION e.val
    (∀ r l p, s.frozen = false → (s.eng e.val).inbuf = r :: l → s.planAt r.t = some p → s.bankDone e.val b = true →
      s.bankFree e.val (1 - b) = true → Leads (.allot e) s fun t =>
        t.rd .ENG_STAT_BANK e.val = 1 - b ∧ (t.eng e.val).inbuf = l ∧ (t.eng e.val).bank (1 - b) = some (r.t, r.ch) ∧
        (t.eng e.val).bank b = (s.eng e.val).bank b ∧ t.sent = .coreIrq e.val .allot :: s.sent ∧
        (∀ j : EngineId, j ≠ e → t.eng j.val = s.eng j.val)) ∧
    (∀ a c p u run, (s.eng e.val).bank b = some (a, c) → s.planAt a = some p →
      (handRuns p a c pos).find? (fun x => !tget false (s.eng e.val).done (runKey b x.1 x.2)) = some (u, run) →
      let x := s.eng e.val
      let done := fun (t : State) =>
        tget false (t.eng e.val).done (runKey b u run) = true ∧ (t.eng e.val).stopped = s.frozen ∧
        t.rd64 .ENG_HRUNS e.val = (s.rd64 .ENG_HRUNS e.val + 1) % 2 ^ 64 ∧
        t.rd64 .ENG_CYC e.val = (s.rd64 .ENG_CYC e.val + 260 * pFac p.data) % 2 ^ 64 ∧
        OnlyWords (Reg64.ENG_HRUNS.words e.val ++ Reg64.ENG_CYC.words e.val) s { t with engs := s.engs, deck := s.deck }
      (s.frozen = true → x.stopped = true → Leads (.runEnd e u run) s (· = s)) ∧
      (s.frozen = false ∨ x.stopped = false →
        (∀ i j, unitKind p.data u = .hand i j →
          (∀ row col, x.block a c run i = some row → x.block a c run j = some col → Leads (.runEnd e u run) s fun t =>
            done t ∧ (t.eng e.val).short = correlate (pFmt p.data) row col b u x.short ∧ t.deck = s.deck) ∧
          (x.block a c run i = none ∨ x.block a c run j = none → Leads (.runEnd e u run) s (· = s))) ∧
        (∀ k g, unitKind p.data u = .beam k g →
          (∀ blk, x.block a c run g = some blk → Leads (.runEnd e u run) s fun t =>
            done t ∧ (t.eng e.val).short = x.short ∧ t.deck = (s.handOn a c k g run).deck) ∧
          (x.block a c run g = none → Leads (.runEnd e u run) s (· = s)))))

/-- Tier 2. A merge adds the lead's and the helper's partials of a hand to its 4096 long accumulator cells, line by line
(R203), once the channel's range before is merged (R207): the first merge of a trick writes them, a later one saturates to 48 and 31 bits; the other bytes of the HBM stay.
The last hand unit commits the range channel (R204). While the supply is frozen only range channels whose hand-runs are all
complete are merged (R200). -/
def Obligations.Merges : Prop :=
  ∀ (s : State) (a : Nat) (c : Fin 1024) (u i j first b base : Nat) (p : ActivePlan), s.planAt a = some p →
    unitKind p.data u = .hand i j → s.trickBuf a = some (first, b) → p.acc b = some base → base % 1024 = 0 →
    a % pS p.data = 0 → u < pU p.data → (s.chan a c.val).cut = true → (s.chan a c.val).merged = false →
    bitOf (s.chan a c.val).units u = false → s.inReset = false →
    (s.frozen = true → s.allRunsDone p a c.val = false → Leads (.merge a c u) s (· = s)) ∧
    (s.frozen = false ∨ s.allRunsDone p a c.val = true →
    s.partDone p a c.val (leadOf p a c.val u) u = true → s.partDone p a c.val (helperOf p a c.val u) u = true →
    s.mergeTurn p a c.val = true →
    let o := base + rowOff p.data c.val (handNo i j) 0
    let part := fun k => if helperOf p a c.val u = leadOf p a c.val u then s.shortOf a c.val (leadOf p a c.val u) u k
      else (s.shortOf a c.val (leadOf p a c.val u) u k).add (s.shortOf a c.val (helperOf p a c.val u) u k).re
        (s.shortOf a c.val (helperOf p a c.val u) u k).im (s.shortOf a c.val (helperOf p a c.val u) u k).count
    ((∃ v ∈ handUnits p.data, v ≠ u ∧ bitOf (s.chan a c.val).units v = false) →
      (first = a ∨ ∀ r : Fin 64, s.hbmPoisoned (o + 1024 * r.val) 1024 = false ∧
        tget 0 s.hbm.tag (o / 1024 + r.val) ≠ a / pS p.data % 65536) →
      Leads (.merge a c u) s fun t =>
        (∀ k : Fin 4096, t.hbmRead (o + 16 * k.val) 16 = cellBytes (if first = a then .init (part k.val)
          else (cellOf (leVal (s.hbmRead (o + 16 * k.val) 16))).merge (part k.val))) ∧
        (∀ x, x < o ∨ o + 65536 ≤ x → tget 0 t.hbm.mem x = tget 0 s.hbm.mem x) ∧
        (t.chan a c.val).units = (s.chan a c.val).units + 2 ^ u ∧ (t.chan a c.val).merged = false) ∧
    ((∀ v ∈ handUnits p.data, v ≠ u → bitOf (s.chan a c.val).units v = true) → Leads (.merge a c u) s fun t =>
      (t.chan a c.val).merged = true ∧ t.rd64 .ENG_COMMIT = a % 2 ^ 64 ∧ t.rd .ENG_COMMITCH_CHANNEL = c.val))

/-- Tier 2. Retirement and restoration (R215 to R217, R219, R222, R223): an engine in service that is retired powers off, gets a
repair item, and a standby takes its position through LOADING; with none, or AUTOSUBST 0, the positions above move down by one,
the plans have one engine fewer, and every engine that holds a position empties its banks for the new allotment; the spare's check places it or retires it with cause 1;
a retired engine is restored through its self-test; RELEASE clears HOLD. -/
def Obligations.EngineRetirement : Prop :=
  ∀ (s : State) (e : EngineId),
    (s.inService e.val = true → Leads (.engCtlRetire e) s fun t =>
      t.rd .ENG_STAT_STATE e.val = egRetired ∧ t.rd .ENG_RETCAUSE_CAUSE e.val = 4 ∧ t.rd .ENG_RAIL_MV e.val = 0 ∧
      t.on .ENG_EVT_RETIRED e.val = true ∧ (t.eng e.val).item =
        (if (s.eng e.val).item = 0 then s.ledger.nextItem else (s.eng e.val).item) ∧
      (let pos := s.rd .ENG_STAT_POSITION e.val
       pos < 96 → s.on .ENG_GCTL_AUTOSUBST = false ∨ s.standby = none →
        (∀ q, q < 96 → t.engineAt q = if q < pos then s.engineAt q else if q < 95 then s.engineAt (q + 1) else 0x7F) ∧
        t.plans.active = s.plans.active.map (fun p => if pos < p.e then { p with e := p.e - 1 } else p) ∧
        t.plans.outgoing = s.plans.outgoing.map (fun p => if pos < p.e then { p with e := p.e - 1 } else p) ∧
        ∀ j : EngineId, j ≠ e → s.rd .ENG_STAT_STATE j.val = egActive →
          (t.eng j.val).bank 0 = none ∧ (t.eng j.val).bank 1 = none ∧ (t.eng j.val).blocks = [] ∧
          .coreIrq j.val .retire ∈ t.sent) ∧
      (s.rd .ENG_STAT_POSITION e.val < 96 → s.on .ENG_GCTL_AUTOSUBST = true → ∀ n, s.standby = some n → n ≠ e.val →
        t.rd .ENG_STAT_STATE n = egLoading ∧ t.rd .ENG_STAT_POSITION n = s.rd .ENG_STAT_POSITION e.val ∧
        t.engineAt (s.rd .ENG_STAT_POSITION e.val) = 0x7F)) ∧
    (s.rd .ENG_STAT_STATE e.val = egRetired → Leads (.engCtlRestore e) s fun t =>
      t.rd .ENG_STAT_STATE e.val = egSelftest ∧ OnlyWords [Fld.ENG_STAT_STATE.at e.val] s t) ∧
    (s.rd .ENG_STAT_STATE e.val = egSelftest →
      Leads (.engineSelftestDone e true) s (fun t =>
        t.rd .ENG_STAT_STATE e.val = (if s.on .ENG_GSTAT_HOLD then egIdle else egStandby) ∧
        t.rd .ENG_RETCAUSE_CAUSE e.val = 0 ∧ (t.eng e.val).item = 0) ∧
      Leads (.engineSelftestDone e false) s (fun t => t.rd .ENG_STAT_STATE e.val = egRetired ∧ t.engs = s.engs)) ∧
    (s.rd .ENG_STAT_STATE e.val = egLoading → s.rd .ENG_STAT_POSITION e.val < 96 →
      Leads (.spareArrayCheckDone e true) s (fun t =>
        t.rd .ENG_STAT_STATE e.val = egActive ∧ t.engineAt (s.rd .ENG_STAT_POSITION e.val) = e.val) ∧
      Leads (.spareArrayCheckDone e false) s (fun t =>
        t.rd .ENG_STAT_STATE e.val = egRetired ∧ t.rd .ENG_RETCAUSE_CAUSE e.val = 1)) ∧
    Leads .engGctlRelease s (fun t => t.on .ENG_GSTAT_HOLD = false ∧ OnlyWords [Fld.ENG_GSTAT_HOLD.at 0] s t)

/-- Tier 2. The pace governor (R212 to R214): a busy engine below its target gets 5 mV more, up to 820, unless it is hot; 100
measurements above 1.03 of it take 5 mV, down to 600; without work it stays at 600; slow measurements are counted, and the
tenth in a row retires the engine where a substitution is possible; a pace deficit begins when φ falls below 64 and ends
after 1 s at 64. -/
def Obligations.PaceGovernor : Prop :=
  ∀ s : State,
    (∀ m : EngMeas, s.rd .ENG_STAT_STATE m.engine.val = egActive →
      let e := m.engine.val
      let pos := s.rd .ENG_STAT_POSITION e
      let target := s.rd .ENG_GOVCTL_TARGET
      let mv := s.rd .ENG_RAIL_MV e
      let n := s.rd .ENG_RATE_SLOWCNT e
      (s.hasWork pos = false → s.on .ENG_GCTL_AUTOSUBST = false → Leads (.governorMeasurement [m]) s fun t =>
        t.rd .ENG_RAIL_MV e = 600) ∧
      (m.busyNs ≠ 0 → s.hasWork pos = true → -128 ≤ m.tj → m.tj < 128 →
        (1400 * m.busyNs ≤ m.cycles * 1000 →
          (m.cycles * 1000 < target * m.busyNs → Leads (.governorMeasurement [m]) s fun t =>
            t.rd .ENG_RAIL_MV e = (if m.tj < 105 then min 820 (mv + 5) else mv) ∧ (t.eng e).fast = 0 ∧
            t.rd .ENG_RATE_RATE e = min 4095 (m.cycles * 1000 / m.busyNs) ∧
            signed 8 (t.rd .ENG_TEMP_TJ e) = m.tj ∧ t.rd .ENG_RATE_SLOWCNT e = 0) ∧
          (103 * target * m.busyNs < m.cycles * 100000 → Leads (.governorMeasurement [m]) s fun t =>
            if 99 ≤ (s.eng e).fast then t.rd .ENG_RAIL_MV e = max 600 (mv - 5) ∧ (t.eng e).fast = 0
            else t.rd .ENG_RAIL_MV e = mv ∧ (t.eng e).fast = (s.eng e).fast + 1)) ∧
        (m.cycles * 1000 < 1400 * m.busyNs → mv = 820 →
          (n < 9 → Leads (.governorMeasurement [m]) s fun t =>
            t.rd .ENG_RATE_SLOWCNT e = n + 1 ∧ t.on .ENG_EVT_SLOW e = true ∧ t.rd .ENG_STAT_STATE e = egActive) ∧
          (9 ≤ n → pos < 96 → s.engineAt pos = e → s.on .ENG_GCTL_AUTOSUBST = true → s.standby.isSome = true →
            Leads (.governorMeasurement [m]) s fun t =>
              t.rd .ENG_STAT_STATE e = egRetired ∧ t.rd .ENG_RETCAUSE_CAUSE e = 2)))) ∧
    (s.phi < 64 → Leads .paceDeficitCheck s fun t =>
      t.rd .ENG_PHI_PHI = s.phi ∧ t.on .ENG_GSTAT_DEFICIT = true ∧ t.dealer.phiAt = none ∧
      (s.on .ENG_GSTAT_DEFICIT = false → t.on .ENG_GEVT_DEFICIT = true)) ∧
    (s.phi = 64 →
      (s.on .ENG_GSTAT_DEFICIT = false → Leads .paceDeficitCheck s (· = s)) ∧
      (s.on .ENG_GSTAT_DEFICIT = true →
        (s.dealer.phiAt = none → Leads .paceDeficitCheck s fun t =>
          t.rd .ENG_PHI_PHI = 64 ∧ t.on .ENG_GSTAT_DEFICIT = true ∧ t.dealer.phiAt = some s.clock) ∧
        ∀ t0, s.dealer.phiAt = some t0 →
          (t0 + 1000000000 ≤ s.clock → Leads .paceDeficitCheck s fun t =>
            t.rd .ENG_PHI_PHI = 64 ∧ t.on .ENG_GSTAT_DEFICIT = false ∧ t.dealer.phiAt = none) ∧
          (s.clock < t0 + 1000000000 → Leads .paceDeficitCheck s fun t =>
            t.rd .ENG_PHI_PHI = 64 ∧ t.on .ENG_GSTAT_DEFICIT = true ∧ t.dealer.phiAt = some t0)))

/-! ### Beams, zoom slots, weights and hand-overs -/

/-- Tier 2. The sums of a beam block and run, complete and next in order, are handed on once and move the block's mark
(R237 to R240); the power total of each beam that delivers power takes the run's powers, anew at the first run of a power unit
(R244). -/
def Obligations.BeamSums : Prop :=
  ∀ (s : State) (a : Nat) (c : Fin 1024) (k : Fin 16) (run : Nat) (p : ActivePlan), s.planAt a = some p →
    a % pS p.data = 0 → run < pR p.data → run < 256 → k.val < pK p.data → c.val < pN p.data →
    tget 0 s.deck.handed (handedKey a c.val k.val run) = 2 ^ pNg p.data - 1 → pNg p.data ≤ 64 →
    (∀ r, r < run → bitOf (tget 0 s.deck.handed (handedKey a c.val k.val r)) emittedBit = true) →
    s.sumTurn p a c.val k.val run = true → s.inReset = false → s.blockRoom p k.val = true →
    (∀ b ∈ blockBeams p.data k.val, s.zoomWaits (bIdent p.data (beamEntry p.data b)) c.val (a + 256 * (run + 1)) = false) →
    Leads (.beamSum a c k run) s (fun t =>
      tget 0 t.deck.handed (handedKey a c.val k.val run) = 2 ^ pNg p.data - 1 + 2 ^ emittedBit ∧
      (s.detMark k.val c.val ≤ a + 256 * run → t.detMark k.val c.val = a + 256 * (run + 1)) ∧
      (∀ key, key ≠ handedKey a c.val k.val run → tget 0 t.deck.handed key = tget 0 s.deck.handed key)) ∧
    (s.detMark k.val c.val ≤ a + 256 * run →
      Leads (.beamSum a c k run) s fun t => ∀ b ∈ blockBeams p.data k.val,
        bDetect p.data (beamEntry p.data b) = 1 ∨ bDetect p.data (beamEntry p.data b) = 2 →
        tget 0 t.beams.power (1024 * b + c.val) =
          (if (a + 256 * run) % (256 * 2 ^ bLogD p.data (beamEntry p.data b)) = 0 then 0
            else tget 0 s.beams.power (1024 * b + c.val)) + ((s.beamRun p a c.val b run).map powerOf).sum)

/-- Tier 2. Zoom slots (R247 to R254): a pending start takes effect when the slot's data reach its counter, with 32 + N_c
outputs unsettled, and waits until then; a changed coefficient set alone fades over 64 outputs, a changed destination alone
only sends the outputs elsewhere; a pending end frees the slot; the change after it then pends; an output advances
the slot by one; a tap of a set in use, or of one that a fade names, is not written. -/
def Obligations.ZoomSlots : Prop :=
  ∀ (s : State) (k : Fin 64),
    (∀ q, (s.zslot k.val).pend = some q →
      (q.use = true → ((s.zslot k.val).inUse && (s.zslot k.val).same q.set) = false → ZoomSlot.reached k.val (s.zslot k.val) q.c = true →
        Leads (.zoomSlotStart k) s fun t =>
          t.zslot k.val = (ZoomSlot.restart k.val (s.zslot k.val) q.set q.c).settled (s.zslot k.val).later ∧
          (t.zslot k.val).unset = q.set.nc.toNat + 32 ∧ (t.zslot k.val).changes = (s.zslot k.val).later ∧
          t.on .ZOM_EVT_START = true ∧ ∀ j : Fin 64, j ≠ k → t.zslot j.val = s.zslot j.val) ∧
      (q.use = true → (s.zslot k.val).same q.set = true → (s.zslot k.val).inUse = true →
        q.c ≤ (s.zslot k.val).nextOut * (s.zslot k.val).dz + skewOf k.val (s.zslot k.val).dz →
        ((s.zslot k.val).cset ≠ q.set.cset.toNat → Leads (.zoomSlotStart k) s fun t =>
          (t.zslot k.val).fade = 64 ∧ (t.zslot k.val).oldSet = (s.zslot k.val).cset ∧
          (t.zslot k.val).cset = q.set.cset.toNat ∧ (t.zslot k.val).dest = q.set.dest.toNat ∧
          (t.zslot k.val).changes = (s.zslot k.val).later ∧ t.on .ZOM_EVT_FADE = true) ∧
        ((s.zslot k.val).cset = q.set.cset.toNat → Leads (.zoomSlotStart k) s fun t =>
          (t.zslot k.val).fade = (s.zslot k.val).fade ∧ (t.zslot k.val).cset = (s.zslot k.val).cset ∧
          (t.zslot k.val).dest = q.set.dest.toNat ∧ (t.zslot k.val).changes = (s.zslot k.val).later)) ∧
      (q.use = false ∨ ((s.zslot k.val).inUse && (s.zslot k.val).same q.set) = false →
        ZoomSlot.reached k.val (s.zslot k.val) q.c = false → Leads (.zoomSlotStart k) s (· = s)) ∧
      (q.use = false → ZoomSlot.reached k.val (s.zslot k.val) q.c = true → Leads (.zoomSlotStart k) s fun t =>
        t.zslot k.val = ({} : ZoomSlot).settled (s.zslot k.val).later ∧ (t.zslot k.val).inUse = false ∧
        (t.zslot k.val).changes = (s.zslot k.val).later ∧ ∀ j : Fin 64, j ≠ k → t.zslot j.val = s.zslot j.val)) ∧
    (∀ p, let x := ZoomSlot.redone k.val (s.zslot k.val).redo (s.zslot k.val)
      s.planAt (x.nextOut * x.dz + skewOf k.val x.dz + x.dz - 1) = some p → ZoomSlot.ready k.val x = true →
      s.inReset = false → s.mayWrite p.id x.dest = true → x.outMark ≤ x.nextOut → Leads (.zoomOutput k) s fun t =>
        t.zslot k.val = ZoomSlot.step k.val x ∧ (t.zslot k.val).nextOut = x.nextOut + 1 ∧
        t.rd64 .ZOM_SOUT k.val = x.nextOut % 2 ^ 64) ∧
    ∀ (m : Fin 16) (i : Fin 32) (v : Word),
      (s.setBusy m.val = false → Leads (.zomCoefWrite m i v) s fun t =>
        t.rd .ZOM_COEF_H (32 * m.val + i.val) = v.toNat % 2 ^ 18 ∧ OnlyWords [Fld.ZOM_COEF_H.at (32 * m.val + i.val)] s t) ∧
      (s.setBusy m.val = true → Leads (.zomCoefWrite m i v) s fun t =>
        t.on .ZOM_EVT_CWREJ = true ∧ OnlyWords [Fld.ZOM_EVT_CWREJ.at 0] s t)

/-- Tier 2. Weight sets (R230 to R234): commands run one by one in order, once the set they write is not locked, a write stores its bytes in
the shadow set and stops at a refused weight; the hand-over exchanges shadow and active sets and locks the one that leaves
until the ranges before D are past. -/
def Obligations.WeightSets : Prop :=
  ∀ s : State,
    (∀ o w r, s.weightOps = (o, w) :: r → s.dealer.longs = [o] → Leads .weightCommandBegin s fun t =>
      t.dealer.longs = [{ o with kind := .weight { w with running := w.running || !s.unlockDue.setLocked w.kind w.phys } }] ∧
      SameWords (fun x => x == Fld.BMF_STAT_TLOCK.at 0) s t) ∧
    (∀ o w g, s.weightOps = [(o, w)] → w.running = true → w.copy = false → w.geo = some g → w.kind ≤ 1 →
      let n := goodBytes w.kind w.off w.data
      let base := if w.kind = 0 then s.tableBase w.phys else s.polyBase w.phys
      Leads .weightCommandComplete s fun t =>
        Ended o (if n < w.data.length then rejParam else stDone) s t ∧
        t.hbmRead (base + w.off) n = w.data.take n ∧ t.on .BMF_STAT_WBUSY = false ∧
        (∀ x, x < base + w.off ∨ base + w.off + n ≤ x → tget 0 t.hbm.mem x = tget 0 s.hbm.mem x) ∧
        (n < w.data.length → t.on .BMF_EVT_WRREJ = true ∧
          t.on (if w.kind = 0 then .BMF_STAT_TBAD else .BMF_STAT_PBAD) = true)) ∧
    (∀ o d, s.weightDeal = some (o, 3, d) → s.weightRefusal 3 d = none → (∀ n ∈ s.timeOf d, n ≤ s.nowNs) →
      s.rangePast d = false → Leads .weightHandOver s fun t =>
        Ended o stDone s t ∧ t.rd .BMF_STAT_TACT = 1 - s.rd .BMF_STAT_TACT ∧ t.rd .BMF_STAT_PACT = 1 - s.rd .BMF_STAT_PACT ∧
        t.rd tgeom = s.rd tgeomA ∧ t.rd tgeomA = s.rd tgeom ∧ t.rd64 .BMF_PTREFA = s.rd64 .BMF_PTREF ∧
        t.rd64 .BMF_PTREF = s.rd64 .BMF_PTREFA ∧ t.beams.tLock.head? = some d ∧ t.beams.pLock.head? = some d ∧
        t.on .BMF_STAT_TLOCK = true ∧ t.on .BMF_STAT_PLOCK = true ∧ t.on .BMF_STAT_PEND = false ∧ t.on .BMF_EVT_DEAL = true) ∧
    (∀ o d r, s.weightDeal = some (o, 3, d) → s.weightRefusal 3 d = some r → (∀ n ∈ s.timeOf d, n ≤ s.nowNs) →
      Leads .weightHandOver s fun t => Ended o r s t ∧ t.rd .BMF_STAT_TACT = s.rd .BMF_STAT_TACT ∧ t.beams = s.beams ∧
        t.on .BMF_EVT_DEALREJ = true ∧ t.on .BMF_STAT_PEND = false)

/-- Tier 2. The plan hand-over (R364): at D the active plan ends and the slot's stored plan, or none, takes its place,
with its completion; a refused deal changes no plan, and the hand-over waits for a weight hand-over before it, and
while the copy before the outgoing one is not freed. A table load is in the edit copy when it completes, and a plan's
kernel is copied into an engine between calls (R328, R360). That the hand-over waits for the copy is log 10, what
refuses a deal then log 26. -/
def Obligations.PlanHandOver : Prop :=
  ∀ s : State,
    (∀ q o, s.dealer.deal = some q → s.findLong (fun k => k == .planDeal) = some o →
      (s.weightDeal.all (fun w => decide (q.d < w.2.2))) = true → s.modl.warm = false →
      (s.plans.outgoing = none ∨ s.plans.active = none) → (∀ n ∈ s.timeOf q.d, n ≤ s.nowNs) →
      ((s.dealStatus q.slot q.d).1 = stDone →
        (∀ x ∈ s.dealer.longs, (∀ c n, x.kind ≠ .trickClose c n) ∧ ∀ k z c, x.kind ≠ .zoomChange k z c) →
        Leads .planHandOver s fun t =>
          Ended o stDone s t ∧ t.dealer.deal = none ∧ t.on .DLR_EVT_DEAL = true ∧ t.on .DLR_STAT_DEALPEND = false ∧
          (∀ i, q.slot = some i → t.plans.active.map (·.slot) = some i ∧ t.plans.active.map (·.d) = some q.d ∧
            t.plans.active.map (·.data) = some (s.slot i).shadow ∧ t.plans.active.map (·.e) = some s.engAvail) ∧
          (q.slot = none → t.plans.active = none)) ∧
      ((s.dealStatus q.slot q.d).1 ≠ stDone → Leads .planHandOver s fun t =>
        Ended o (s.dealStatus q.slot q.d).1 s t ∧ t.plans = s.plans ∧ t.dealer.deal = none ∧ t.on .DLR_EVT_DEALREJ = true ∧
        t.beams = s.beams)) ∧
    (s.modl.warm = true ∨ (s.plans.outgoing.isSome = true ∧ s.plans.active.isSome = true) ∨
      (∃ q w, s.dealer.deal = some q ∧ s.weightDeal = some w ∧ w.2.2 ≤ q.d) → Leads .planHandOver s (· = s)) ∧
    (∀ o i n l, s.findLong (fun k => match k with | .tableLoad _ _ _ => true | _ => false) = some o →
      o.kind = .tableLoad i n l → Leads .tableLoadComplete s fun t =>
        Ended o stDone s t ∧ (t.slot i).edit = writeSection (s.slot i).edit n 0 l ∧ (t.slot i).shadow = (s.slot i).shadow ∧
        ∀ j, j ≠ i → t.slot j = s.slot j) ∧
    (∀ p e, s.kernelPlan = some p → s.rd .ENG_STAT_STATE (e : EngineId).val = egActive → (s.core e.val).fw = none →
      (s.eng e.val).kplan ≠ some p.id → s.inReset = false → Leads (.kernelCopy e) s fun t =>
        (t.eng e.val).kplan = some p.id ∧ t.core e.val = { s.core e.val with
          prog := (t.core e.val).prog, x := (t.core e.val).x, y := (t.core e.val).y } ∧
        (fieldAt p.kernel 8 2 ≤ p.kernel.length - 96 →
          tgetMany 0 (t.core e.val).prog (8 * 4096) (fieldAt p.kernel 8 2) = slice p.kernel 96 (fieldAt p.kernel 8 2)))

/-! ### Tricks and the output stage -/

/-- Tier 2. The life of a trick: it closes once every range channel of its last range is finished, with its event, and the
accumulator buffers change places (R209, R38), but not during a supply freeze (R200); a trick that closes while an older one is not exported begins an output
stall (R296); the oldest closed trick is exported, its records first waiting for room (R260 to R262), unless 64 older ones
are not released (R294); a finished export frees the buffer (R261). -/
def Obligations.TricksCloseAndExport : Prop :=
  ∀ s : State,
    (∀ c p, s.tricks.cur = some c → s.planOf c = some p → s.frozen = false → s.inReset = false →
      s.lastRangeDone p (s.trickEnd p c - pS p.data) = true →
      s.closeBoundaries.contains (s.trickEnd p c) = false → Leads .trickClosed s fun t =>
        let e := s.trickEnd p c
        t.tricks.closed.map (fun k => (k.first, k.len, k.isOpen, k.isPartial, k.buf, k.exported, k.released)) =
          s.tricks.closed.map (fun k => (k.first, k.len, k.isOpen, k.isPartial, k.buf, k.exported, k.released)) ++
            [(c, e - c, pL p.data == 0, partialTrick p c e, s.rd .ENG_ACCSEL_ACCUM, false, false)] ∧
        t.tricks.cur = s.nextTrick e ∧ t.rd .ENG_ACCSEL_ACCUM = 1 - s.rd .ENG_ACCSEL_ACCUM ∧
        (s.dealer.exhausted = false → s.dealer.dsn < 2 ^ 64 - 1000 →
          t.dealer.events.any (fun x => decide (x.port = 6 ∧ x.code = 0x0602 ∧ x.source = p.slot ∧ x.counter = c ∧
            x.arg = e - c ∧ x.dsn = s.dealer.dsn)) = true) ∧
        (s.tricks.closed.any (fun k => !k.exported) = true → s.on .OUT_STAT_STALL = false →
          t.on .OUT_STAT_STALL = true ∧ t.on .OUT_EVT_STALL = true ∧ t.outp.stallAt = some s.clock)) ∧
    (s.frozen = true ∨ s.inReset = true → Leads .trickClosed s (· = s)) ∧
    (∀ k, s.tricks.closed.find? (fun k => !k.exported) = some k → s.modl.warm = false → s.outp.exporting = none →
      (∀ x ∈ s.tricks.closed, x.first = k.first → x = k) →
      (s.waitsRel k.first = true → Leads .exportStart s (· = s)) ∧
      (∀ base, s.waitsRel k.first = false → k.plan.acc k.buf = some base → pVfmt k.plan.data ≠ 3 →
        s.mayWrite k.plan.id (pVdest k.plan.data) = false → Leads .exportStart s fun t =>
          t.outp.exporting = some k.first ∧ t.on .OUT_STAT_EXPORT = true ∧ t.rd64 .OUT_EXPTRICK = k.first % 2 ^ 64 ∧
          t.outp.todo = ((s.noteAveraging k).exportAll k base).2)) ∧
    (∀ k, s.exportTrick = some k → s.outp.todo = [] → s.modl.warm = false → Leads .exportComplete s fun t =>
      t.outp.exporting = none ∧ t.on .OUT_STAT_EXPORT = false ∧ ∀ x ∈ t.tricks.closed, x.first = k.first → x.exported = true)

/-- Tier 2. A trick's summary enters each partition once its records are written (R279); `OUT_RELHI` releases a trick that
is exported and summed in every partition, with every earlier one and its event, and rejects any other (R292, R293, R291);
a statistics send enters its partition in packets of 256 entries, once there is room (R280, R288). -/
def Obligations.SummariesAndReleases : Prop :=
  ∀ s : State,
    (∀ (q : PartId) k, s.tricks.closed.find? (fun k => bitOf k.parts q.val && !bitOf k.summed q.val) = some k →
      s.outp.laid.contains k.plan.id = true → (s.part q.val).fill + maxPkt ≤ s.partSize q.val → s.modl.warm = false →
      s.allWritten k = true → (∀ x ∈ s.tricks.closed, x.first = k.first → x = k) →
      (∀ i : PartId, ∀ x ∈ (s.part i.val).openPkts, x.2.trick ≠ k.first ∨ x.2.ptype ≠ 5) → Leads (.trickSummary q) s fun t =>
        (t.part q.val).queue.map (fun x => (x.ptype, x.trick, x.payload)) =
          (s.part q.val).queue.map (fun x => (x.ptype, x.trick, x.payload)) ++ [(7, k.first, s.summaryBytes k q.val)] ∧
        t.rd64 .OUT_PNEXT q.val = (s.rd64 .OUT_PNEXT q.val + 1) % 2 ^ 64 ∧
        ∀ x ∈ t.tricks.closed, x.first = k.first → bitOf x.summed q.val = true) ∧
    (∀ v : Word, let first := s.rd .OUT_RELLO_LOW + 2 ^ 32 * v.toNat
      (∀ k, s.tricks.closed.find? (fun k => k.first == first && !k.released) = some k →
        (k.allSummed = true → s.frozen = false → Leads (.outRelhi v) s fun t =>
          t.rd64 .OUT_RELTRICK = first ∧ t.tricks.newestRel = some first ∧
          (∀ x ∈ t.tricks.closed, x.first ≤ first → x.released = true) ∧
          (s.dealer.exhausted = false → s.dealer.dsn < 2 ^ 64 - 1 →
            (t.dealer.events.head?.map (fun x => (x.code, x.counter, x.arg))) = some (0x0701, first, 1))) ∧
        (k.allSummed = false ∨ s.frozen = true → Leads (.outRelhi v) s fun t =>
          t.on .OUT_EVT_RELREJ = true ∧ OnlyWords [Fld.OUT_EVT_RELREJ.at 0] s t)) ∧
      (s.tricks.closed.find? (fun k => k.first == first && !k.released) = none →
        (∀ n, s.tricks.newestRel = some n → first ≤ n →
          (s.frozen = false → Leads (.outRelhi v) s (· = s)) ∧
          (s.frozen = true → Leads (.outRelhi v) s fun t => t.on .OUT_EVT_RELREJ = true ∧ OnlyWords [Fld.OUT_EVT_RELREJ.at 0] s t)) ∧
        ((∀ n, s.tricks.newestRel = some n → n < first) → Leads (.outRelhi v) s fun t =>
          t.on .OUT_EVT_RELREJ = true ∧ OnlyWords [Fld.OUT_EVT_RELREJ.at 0] s t))) ∧
    (∀ o trick part k, s.findLong (fun k => match k with | .statsSend _ _ => true | _ => false) = some o →
      o.kind = .statsSend trick part → s.tricks.closed.find? (fun k => k.first == trick) = some k → part ≤ 2 →
      (statStream k.plan.data + (s.part part).fill ≤ s.partSize part → s.modl.warm = false →
        Leads .statsSendComplete s fun t =>
          Ended o stDone s t ∧
          t.rd64 .OUT_PNEXT part = (s.rd64 .OUT_PNEXT part + ceilDiv (64 * pNg k.plan.data * pN k.plan.data) 256) % 2 ^ 64) ∧
      (s.partSize part < statStream k.plan.data + (s.part part).fill ∨ s.modl.warm = true →
        Leads .statsSendComplete s (· = s)))

/-- Tier 2. A partition drains in order (R289): on a port with its link up the first packet leaves in its frame (R283) with the
device time, is counted and is retained, and a resend goes before it (R290); during a supply freeze only the packet that was
being sent leaves (R291); on the host side it is written into the host ring, after a pad where it would cross the end,
and the write offset follows (R297 to R299). A trick's summary waits for the record of its release (R293). The signal of
the host ring follows its timeout (R300); the read offset moves only within the filled region (R298). -/
def Obligations.PacketsDrain : Prop :=
  ∀ s : State,
    (∀ (q : PartId) k rest, (s.part q.val).resends = [] → (s.part q.val).queue = k :: rest →
      (s.mayDrain q.val k = false ∨ s.summaryWaits k = true → Leads (.packetDrained q) s (· = s)) ∧
      (s.mayDrain q.val k = true → s.summaryWaits k = false →
        (∀ a, s.hostMiss q.val k = some a → Leads (.packetDrained q) s fun t =>
          t.outp = s.outp ∧ t.on .DMA_GSTAT_HALTED = true ∧ t.on .FAB_EVT_UNMAPPED = true) ∧
        (s.hostMiss q.val k = none → s.outp.exporting = none →
          (∀ x ∈ s.ringPlaces q.val k.pos k.size, s.hbmPoisoned x.1 x.2 = false) → Leads (.packetDrained q) s fun t =>
            (t.part q.val).queue = rest ∧ (t.part q.val).retained.map (·.pseq) = (s.part q.val).retained.map (·.pseq) ++ [k.pseq] ∧
            .drained q.val k s.timeb.sec s.timeb.ns (bitOf k.flags 3) (if q.val < 2 then s.frameOf k else
              padTo (hostSize k) (s.pktBytes k s.timeb.sec s.timeb.ns)) ∈ newMsgs s t ∧
            (q.val < 2 → t.rd64 .ETH_TXPKT q.val = (s.rd64 .ETH_TXPKT q.val + 1) % 2 ^ 64 ∧
              t.rd64 .ETH_TXBYTE q.val = (s.rd64 .ETH_TXBYTE q.val + (s.frameOf k).length) % 2 ^ 64) ∧
            (q.val = 2 → s.rd .OUT_HSIZE_LOG2 ≤ 31 → s.rd .OUT_HWR_OFFSET < s.hostRing → t.rd .OUT_HWR_OFFSET =
              ((if s.hostPad k = 0 then s.rd .OUT_HWR_OFFSET else 0) + hostSize k) % s.hostRing)))) ∧
    (∀ (q : PartId) k rest, (s.part q.val).resends = k :: rest →
      (s.mayDrain q.val k = false → Leads (.packetDrained q) s (· = s)) ∧
      (s.mayDrain q.val k = true → s.hostMiss q.val k = none → s.unreleased = [] →
        (∀ x ∈ s.ringPlaces q.val k.pos k.size, s.hbmPoisoned x.1 x.2 = false) → Leads (.packetDrained q) s fun t =>
          .drained q.val k s.timeb.sec s.timeb.ns true (if q.val < 2 then s.frameOf k else
            padTo (hostSize k) (s.pktBytes k s.timeb.sec s.timeb.ns)) ∈ newMsgs s t ∧ (t.part q.val).resends = rest ∧
          (t.part q.val).queue = (s.part q.val).queue)) ∧
    (s.outp.unsignalled ≠ 0 → s.outp.unsigAt + 1000 * s.rd .OUT_HCTL_MODUS ≤ s.clock → Leads .hostSignalTimeout s fun t =>
      t.sent = .msix (s.rd .OUT_HCTL_VEC) :: s.sent ∧ t.outp = { s.outp with unsignalled := 0 } ∧ t.regs = s.regs) ∧
    (s.outp.unsignalled = 0 ∨ s.clock < s.outp.unsigAt + 1000 * s.rd .OUT_HCTL_MODUS → Leads .hostSignalTimeout s (· = s)) ∧
    ∀ v : Word, s.rd .OUT_HSIZE_LOG2 ≤ 31 →
      let d := (v.toNat + s.hostRing - s.rd .OUT_HRD_OFFSET) % s.hostRing
      (v.toNat % 64 = 0 → v.toNat < s.hostRing → d ≤ s.hostFill → Leads (.outHrd v) s fun t =>
        t.rd .OUT_HRD_OFFSET = v.toNat ∧ OnlyWords [Fld.OUT_HRD_OFFSET.at 0] s t) ∧
      (v.toNat % 64 ≠ 0 ∨ s.hostRing ≤ v.toNat ∨ s.hostFill < d → Leads (.outHrd v) s fun t =>
        t.on .OUT_EVT_HRDREJ = true ∧ OnlyWords [Fld.OUT_EVT_HRDREJ.at 0] s t)

/-- Tier 2. The ring's layout changes when nothing of an earlier plan is left to be written or drained: each partition then
begins empty with its size by the plan's rates, packed in order, its PSEQ going on (R286, R287). A port's link and its
discarded frames follow the port (R285, R289, R304); a port with a lane that a rail fault switched off stays down (R506). -/
def Obligations.RingLayoutAndPorts : Prop :=
  ∀ s : State,
    (∀ p rest, s.outp.layouts = p :: rest → s.ringNow ≠ s.ringWanted p → s.modl.warm = false → s.ringEmpty p.id = true →
      s.outp.exporting = none → Leads .ringLayout s fun t =>
        t.outp.layouts = rest ∧ t.outp.laid = [p.id] ∧
        (∀ q : PartId, (t.part q.val).queue = [] ∧ (t.part q.val).retained = [] ∧
          (t.part q.val).inUse = ((s.ringWanted p).map Prod.fst).contains q.val ∧
          t.rd64 .OUT_PNEXT q.val = s.rd64 .OUT_PNEXT q.val ∧
          ∀ m, (q.val, m) ∈ s.ringWanted p → m < 2 ^ 40 → t.rd64 .OUT_PSIZE q.val = m * 2 ^ 20)) ∧
    (∀ p rest, s.outp.layouts = p :: rest → s.ringNow = s.ringWanted p → Leads .ringLayout s
      (· = { s with outp := { s.outp with layouts := rest, laid := p.id :: s.outp.laid } })) ∧
    ∀ q : PortId,
      ((∀ i : Fin 4, tget false s.pow.railOff (126 + 4 * q.val + i.val) = false) → Leads (.ethLinkUp q) s fun t =>
        t.on .ETH_STAT_LINK q.val = true ∧ t.on .ETH_STAT_FEC_LOCK q.val = true ∧
        t = { s.setLive (srcPort q.val) 1 1 false with regs := t.regs } ∧ SameWords (· == Fld.ETH_STAT_LINK.at q.val) s t) ∧
      (∀ i : Fin 4, tget false s.pow.railOff (126 + 4 * q.val + i.val) = true → Leads (.ethLinkUp q) s (· = s)) ∧
      Leads (.ethLinkDown q) s (fun t => t.on .ETH_STAT_LINK q.val = false ∧ t.on .ETH_STAT_FEC_LOCK q.val = false ∧
        t.flt = s.flt.receive (mkFault (srcPort q.val) 1 1 0) s.clock ∧
        SameWords (fun o => o == Fld.ETH_STAT_LINK.at q.val || o == 0x2004c) s t) ∧
      Leads (.ethRxdisc q) s (fun t => t.rd .ETH_RXDISC_COUNT q.val = min (s.rd .ETH_RXDISC_COUNT q.val + 1) (2 ^ 32 - 1) ∧
        OnlyWords [Fld.ETH_RXDISC_COUNT.at q.val] s t)

/-! ### Device time and references -/

/-- Tier 2. References (R378 to R388): once the OCXO is warm, the fourth PPS edge in a row more than 100 ns off disqualifies, an
edge within 100 ns starts the count anew; two references disagree until one is outside its own window, which disqualifies
it and ends its alarms (where several pairs disagree, their averages come in turn, log 32); a measurement disqualifies a reference that is not
present, or not enabled, qualifies every other one while the OCXO warms, disqualifies after
four in a row outside the window, runs the wait to restore within 80 % of it, and the selection is that of R382; the expiry
of the wait qualifies; an absent reference is disqualified; a warm OCXO, its loss of regulation and the end of the Fault
state have their own effects. -/
def Obligations.ReferencesQualify : Prop :=
  ∀ s : State,
    (∀ (r : Fin 2) (e : Int),
      let x := s.refx r.val
      (s.on .REF_STAT_WARM = false ∨ e.natAbs ≤ 100 ∨ x.ppsBad < 3 → Leads (.ppsEdge r e) s (· = s.setRefx r.val
        { x with ppsSec := s.timeb.sec, ppsNs := s.timeb.ns, ppsFrac := s.timeb.frac, ppsAt := some s.clock,
                 ppsBad := if s.on .REF_STAT_WARM = true ∧ 100 < e.natAbs then x.ppsBad + 1 else 0 })) ∧
      (s.on .REF_STAT_WARM = true → 100 < e.natAbs → 3 ≤ x.ppsBad → s.on .REF_RSTAT_QUALIFIED r.val = true → Leads (.ppsEdge r e) s fun t =>
        t.on .REF_RSTAT_QUALIFIED r.val = false ∧ t.rd .REF_RSTAT_WTRLEFT r.val = 0 ∧ t.on .REF_EVT_DISQ = true ∧
        t.refSel ≠ some r.val)) ∧
    (∀ (m : RefMeas) (r : Fin 2),
      let x := if r.val = 0 then m.a else m.b
      let w := s.rd .REF_RCFG_WINDOW r.val
      (s.on .REF_RCFG_EN r.val = false ∨ s.edgePresent r.val x.present = false → Leads (.referenceMeasurement m) s fun t =>
        t.on .REF_RSTAT_QUALIFIED r.val = false ∧ t.on .REF_RSTAT_PRESENT r.val = s.edgePresent r.val x.present) ∧
      (s.on .REF_RCFG_EN 2 = true → s.ptpPresent = false → Leads (.referenceMeasurement m) s fun t =>
        t.on .REF_RSTAT_QUALIFIED 2 = false ∧ t.on .REF_RSTAT_PRESENT 2 = false) ∧
      (s.on .REF_RCFG_EN r.val = true → s.edgePresent r.val x.present = true → Leads (.referenceMeasurement m) s fun t =>
        t.refSel = t.bestRef ∧ t.on .REF_RSTAT_PRESENT r.val = true ∧
        (s.on .REF_STAT_WARM = false → t.on .REF_RSTAT_QUALIFIED r.val = true) ∧
        (s.on .REF_STAT_WARM = true →
          (within x.offOcxo 1 1 w = true → t.rd .REF_RSTAT_BADCNT r.val = 0 ∧
            t.on .REF_RSTAT_QUALIFIED r.val = s.on .REF_RSTAT_QUALIFIED r.val) ∧
          (within x.offOcxo 1 1 w = false → t.rd .REF_RSTAT_BADCNT r.val = min 4 (s.rd .REF_RSTAT_BADCNT r.val + 1) ∧
            t.on .REF_RSTAT_QUALIFIED r.val = (s.on .REF_RSTAT_QUALIFIED r.val && decide (s.rd .REF_RSTAT_BADCNT r.val < 3))) ∧
          (s.on .REF_RSTAT_QUALIFIED r.val = false → within x.offOcxo 8 10 w = true →
            (t.refx r.val).wtrRun = true ∧
            ((s.refx r.val).wtrRun = false → t.rd .REF_RSTAT_WTRLEFT r.val = s.rd .REF_RCFG_WTR r.val) ∧
            ((s.refx r.val).wtrRun = true → t.rd .REF_RSTAT_WTRLEFT r.val = s.rd .REF_RSTAT_WTRLEFT r.val - 1))))) ∧
    (∀ r : RefId, let k := refNo r
      let due := (s.refx k).wtrRun = true ∧ s.rd .REF_RSTAT_WTRLEFT k = 0 ∧ s.on .REF_RSTAT_PRESENT k = true ∧
        s.refOn .REF_RCFG_EN k = true ∧ s.on .REF_RSTAT_QUALIFIED k = false
      (due → Leads (.wtrExpiry r) s fun t => t.on .REF_RSTAT_QUALIFIED k = true ∧ t.on .REF_EVT_REQUAL = true ∧
        (t.refx k).wtrRun = false) ∧
      (¬ due → Leads (.wtrExpiry r) s (· = s)) ∧
      Leads (.referenceNoLongerPresent r) s (fun t => t.on .REF_RSTAT_PRESENT k = false ∧
        t.on .REF_RSTAT_QUALIFIED k = false ∧ (t.refx k).wtrRun = false ∧
        (r = .ptp → s.rd .PTP_STAT_PSTATE = 9 → t.rd .PTP_STAT_PSTATE = 4 ∧ t.timeb.ptp.rank = none))) ∧
    Leads .ocxoWarm s (fun t => t.on .REF_STAT_WARM = true ∧ OnlyWords [Fld.REF_STAT_WARM.at 0] s t) ∧
    (∀ a b : Int, s.timeb.disRefs = [] → Leads (.disagreementAverage a b) s (· = s)) ∧
    (∀ (a b : Int) (p : DisPair) (rest : List DisPair), s.timeb.disRefs = p :: rest → p.sel < 3 → p.other < 3 →
      let wc := within a 1 1 (s.ref .REF_RCFG_WINDOW p.sel)
      let wo := within b 1 1 (s.ref .REF_RCFG_WINDOW p.other)
      (s.on .REF_STAT_WARM = false ∨ (wc = true ∧ wo = true) →
        Leads (.disagreementAverage a b) s (· = s.setDis (rest ++ [p]))) ∧
      (s.on .REF_STAT_WARM = true →
        (wo = false → s.qualified p.other = true → Leads (.disagreementAverage a b) s fun t =>
          t.on .REF_RSTAT_QUALIFIED p.other = false ∧ t.on .REF_EVT_DISQ = true ∧ t.refSel ≠ some p.other ∧
          (∀ x ∈ t.timeb.disRefs, x.sel ≠ p.other ∧ x.other ≠ p.other) ∧
          t.on .REF_STAT_DISAGREE = !t.timeb.disRefs.isEmpty) ∧
        (wc = false → s.qualified p.sel = true → Leads (.disagreementAverage a b) s fun t =>
          t.on .REF_RSTAT_QUALIFIED p.sel = false ∧ t.on .REF_EVT_DISQ = true ∧ t.refSel ≠ some p.sel ∧
          (∀ x ∈ t.timeb.disRefs, x.sel ≠ p.sel ∧ x.other ≠ p.sel) ∧
          t.on .REF_STAT_DISAGREE = !t.timeb.disRefs.isEmpty))) ∧
    (s.refState ≠ rsFault → Leads .ocxoOutOfRegulation s fun t =>
      t.rd .REF_STAT_STATE = rsFault ∧ t.rd .MOD_STAT_REFST = rsFault ∧ t.on .TIM_STAT_STEERING = false ∧ t.timeb.steer = 0 ∧
      t.on .REF_EVT_FAULT = true ∧ t.clkOut = 0 ∧ t.ppsOut = false ∧ t.frameOut = false) ∧
    (s.refState = rsFault → Leads .ocxoOutOfRegulation s (· = s)) ∧
    (s.refState ≠ rsFault → Leads .faultStateEnd s (· = s)) ∧
    (s.refState = rsFault → s.bestRef = s.refSel → Leads .faultStateEnd s fun t =>
      t.refState = (if s.refSel.isSome then rsAcquire else rsFree) ∧ t.timeb.goodTe = 0)

/-- Tier 2. PTP (R393 to R395): the transparent clock forwards to the other port, an event message with its residence time
of at most 2 µs added and the UDP checksum with it, while that port's link is up; an unsupported message, and a Delay_Req, which asks for
the master role, is discarded and counted; the slave takes the best master's Announce, a
Follow_Up and a Delay_Resp give offset and path delay, a two-step Sync waits for its Follow_Up, and Delay_Req leaves while a master is followed. -/
def Obligations.PtpPort : Prop :=
  ∀ s : State,
    (∀ (q : PortId) (m : PtpMsg),
      (s.on .PTP_CTL_TCEN = true → m.overUdp = true → m.kind ≠ .peerDelay → s.on .ETH_STAT_LINK (1 - q.val) = true →
        Leads (.ptpMessage q m) s fun t =>
        SentOne (ptpWhere (fun p x => decide (p = 1 - q.val ∧ x = { m with corr := x.corr, sum := udpSumWith m x.corr } ∧
          m.corr ≤ x.corr ∧ x.corr ≤ m.corr + 131072000 ∧ (m.v6 = false → m.sum = 0 → x.sum = 0) ∧
          (m.kind ≠ .sync → m.kind ≠ .delayReq → x.corr = m.corr)))) s t ∧
        t.rd64 .ETH_TXBYTE (1 - q.val) = (s.rd64 .ETH_TXBYTE (1 - q.val) + m.bytes.toNat) % 2 ^ 64) ∧
      (s.on .ETH_STAT_LINK (1 - q.val) = false → Leads (.ptpMessage q m) s fun t => t.sent = s.sent) ∧
      (s.on .PTP_CTL_TCEN = false ∨ s.on .ETH_STAT_LINK (1 - q.val) = false ∨ m.overUdp = false ∨ m.kind = .peerDelay →
        m.overUdp = false ∨ m.kind = .peerDelay ∨ m.kind = .delayReq ∨ m.kind = .other →
        Leads (.ptpMessage q m) s fun t => t.rd .PTP_DISC_COUNT = min (s.rd .PTP_DISC_COUNT + 1) (2 ^ 32 - 1) ∧
          OnlyWords [Fld.PTP_DISC_COUNT.at 0] s t) ∧
      (m.overUdp = true → s.rd .PTP_CTL_PORT = q.val → m.domain.toNat = s.timeb.ptp.domain →
        m.major.toNat = s.timeb.ptp.major → m.minor.toNat = s.timeb.ptp.minor →
        let p := s.timeb.ptp
        (m.kind = .announce → p.rank = none ∨ (m.gmid.toNat ≠ s.rd64 .PTP_GMID ∧ ∀ r, p.rank = some r → m.rank < r) →
          Leads (.ptpMessage q m) s fun t => t.rd64 .PTP_GMID = m.gmid.toNat ∧ t.rd .PTP_STAT_PSTATE = 8 ∧
            t.timeb.ptp = { p with rank := some m.rank, waitFollow := none, t1 := 0, t2 := 0, t3 := 0 } ∧
            t.flt.waiting = (if s.rd .PTP_STAT_PSTATE = 9 then mergeWaiting (mkFault srcPtp 1 0 0) s.flt.waiting else s.flt.waiting)) ∧
        (m.kind = .announce → m.gmid.toNat = s.rd64 .PTP_GMID → p.rank ≠ none → Leads (.ptpMessage q m) s fun t =>
          t.timeb = { s.timeb with ptp := { p with rank := some m.rank } } ∧
          t.rd .PTP_STAT_PSTATE = s.rd .PTP_STAT_PSTATE) ∧
        (m.kind = .announce → m.gmid.toNat ≠ s.rd64 .PTP_GMID → (∀ r, p.rank = some r → r ≤ m.rank) → p.rank ≠ none →
          Leads (.ptpMessage q m) s fun t => t.timeb = s.timeb ∧ t.rd .PTP_STAT_PSTATE = s.rd .PTP_STAT_PSTATE) ∧
        (m.kind = .sync → m.twoStep = false → m.gmid.toNat = s.rd64 .PTP_GMID → p.rank ≠ none → Leads (.ptpMessage q m) s fun t =>
          t.rd .PTP_SYNCRX_COUNT = min (s.rd .PTP_SYNCRX_COUNT + 1) (2 ^ 32 - 1) ∧
          t.rd .PTP_OFM_UNITS = unitsOf (s.ptpNow - PtpTime m - m.corr - p.mpd)) ∧
        (m.kind = .sync → m.twoStep = true → m.gmid.toNat = s.rd64 .PTP_GMID → p.rank ≠ none → Leads (.ptpMessage q m) s fun t =>
          t.rd .PTP_SYNCRX_COUNT = min (s.rd .PTP_SYNCRX_COUNT + 1) (2 ^ 32 - 1) ∧
          t.rd .PTP_OFM_UNITS = s.rd .PTP_OFM_UNITS ∧ t.timeb.ptp.waitFollow = some m.seq.toNat ∧
          t.timeb.ptp.pendT2 = s.ptpNow ∧ t.timeb.ptp.pendCorr = m.corr) ∧
        (m.kind = .followUp → m.gmid.toNat = s.rd64 .PTP_GMID → p.rank ≠ none → p.waitFollow = some m.seq.toNat →
          Leads (.ptpMessage q m) s fun t =>
            t.rd .PTP_OFM_UNITS = unitsOf (p.pendT2 - PtpTime m - (p.pendCorr + m.corr) - p.mpd) ∧ t.timeb.ptp.waitFollow = none) ∧
        (m.kind = .delayResp → m.clock.toNat = p.clockId → m.seq.toNat = p.seq → p.rank ≠ none → p.t1 ≠ 0 → Leads (.ptpMessage q m) s fun t =>
          t.timeb.ptp.mpd = rhu (p.t2 - p.t3 + (PtpTime m - p.t1) - p.syncCorr - m.corr) 2 ∧
          t.rd .PTP_MPD_UNITS = unitsOf t.timeb.ptp.mpd ∧ t.rd .PTP_STAT_PSTATE = 9))) ∧
    (s.rd .PTP_CTL_PORT < 2 → s.rd .PTP_STAT_PSTATE = 8 ∨ s.rd .PTP_STAT_PSTATE = 9 →
      s.on .ETH_STAT_LINK (s.rd .PTP_CTL_PORT) = true → Leads .delayReqTimer s fun t =>
      t.timeb = { s.timeb with ptp := { s.timeb.ptp with seq := (s.timeb.ptp.seq + 1) % 65536, t3 := s.ptpNow } } ∧
      t.rd .PTP_DREQTX_COUNT = min (s.rd .PTP_DREQTX_COUNT + 1) (2 ^ 32 - 1) ∧
      SentOne (ptpWhere (fun p x => decide (p = s.rd .PTP_CTL_PORT ∧ x.kind = .delayReq ∧
        x.seq.toNat = (s.timeb.ptp.seq + 1) % 65536 ∧ x.domain = BitVec.ofNat 8 s.timeb.ptp.domain))) s t) ∧
    (2 ≤ s.rd .PTP_CTL_PORT ∨ (s.rd .PTP_STAT_PSTATE ≠ 8 ∧ s.rd .PTP_STAT_PSTATE ≠ 9) ∨
      s.on .ETH_STAT_LINK (s.rd .PTP_CTL_PORT) = false → Leads .delayReqTimer s (· = s))

/-! ### The programmable core of an engine -/

/-- Tier 2. The scalar instructions (R309) write their D register, and `LDI` its immediate, the moves run beside them,
and nothing else changes: sums and differences where they are in the signed or the unsigned format, shifts below 32,
the low 32 bits of a product (a result outside is the model's free value, log 8); `CMP` sets Z, N and O as those of
the signed difference, which is PRESUMED (log 8); `MOVS` reads and writes the special registers (the places of the
STATUS bits are the configuration's, log 8). -/
def Obligations.CoreScalarInstructions : Prop :=
  ∀ (s : State) (e : EngineId) (d a b : Reg4) (mv : Moves), CoreMayGoOn s e.val mv →
    let c := s.core e.val
    let x := c.dr a.val
    let y := c.dr b.val
    let sum := x.toInt + y.toInt
    let dif := x.toInt - y.toInt
    Leads (.add e d a b mv) s (WritesD s e.val mv d.val fun w =>
      x.toNat + y.toNat < 2 ^ 32 ∨ (-2147483648 ≤ sum ∧ sum < 2147483648) → w = x + y) ∧
    Leads (.sub e d a b mv) s (WritesD s e.val mv d.val fun w =>
      y.toNat ≤ x.toNat ∨ (-2147483648 ≤ dif ∧ dif < 2147483648) → w = x - y) ∧
    Leads (.and e d a b mv) s (WritesD s e.val mv d.val (· = x &&& y)) ∧
    Leads (.or e d a b mv) s (WritesD s e.val mv d.val (· = x ||| y)) ∧
    Leads (.xor e d a b mv) s (WritesD s e.val mv d.val (· = x ^^^ y)) ∧
    Leads (.mul e d a b mv) s (WritesD s e.val mv d.val (·.toNat = x.toNat * y.toNat % 2 ^ 32)) ∧
    (∀ sh : Byte,
      Leads (.shl e d a sh mv) s (WritesD s e.val mv d.val fun w => sh.toNat < 32 → w = x <<< sh.toNat) ∧
      Leads (.shr e d a sh mv) s (WritesD s e.val mv d.val fun w => sh.toNat < 32 → w = x >>> sh.toNat) ∧
      Leads (.sar e d a sh mv) s (WritesD s e.val mv d.val fun w => sh.toNat < 32 → w = x.sshiftRight sh.toNat)) ∧
    Leads (.cmp e a b mv) s (fun t => CoreStep s e.val mv (fun c => { c with st := { c.st with
      z := decide (x = y), n := (x - y).msb, c := (t.core e.val).st.c, o := decide (dif ≠ (x - y).toInt) } }) c.succ t) ∧
    (mv = ⟨0, 0⟩ → ∀ imm : Word, Leads (.ldi e d imm) s (WritesD s e.val mv d.val (· = imm))) ∧
    (∀ i : Fin 4,
      Leads (.movs e false d (.lstart i) mv) s (WritesD s e.val mv d.val (·.toNat = tget 0 c.lstart i.val % 2 ^ 32)) ∧
      Leads (.movs e false d (.lend i) mv) s (WritesD s e.val mv d.val (·.toNat = tget 0 c.lend i.val % 2 ^ 32)) ∧
      Leads (.movs e false d (.lcount i) mv) s (WritesD s e.val mv d.val (·.toNat = tget 0 c.lcount i.val % 2 ^ 32)) ∧
      Leads (.movs e true d (.lstart i) mv) s (CoreStep s e.val mv (fun z =>
        { z with lstart := tset 0 z.lstart i.val ((c.dr d.val).toNat % 8192) }) c.succ) ∧
      Leads (.movs e true d (.lcount i) mv) s (CoreStep s e.val mv (fun z =>
        { z with lcount := tset 0 z.lcount i.val (c.dr d.val).toNat }) c.succ) ∧
      (c.st.larm = false → Leads (.movs e true d (.lend i) mv) s (CoreStep s e.val mv (fun z =>
        { z with lend := tset 0 z.lend i.val ((c.dr d.val).toNat % 8192) }) c.succ)) ∧
      (c.st.larm = false → (c.dr d.val).toNat ≤ 4 → Leads (.movs e true d .lstat mv) s (CoreStep s e.val mv (fun z =>
        { z with level := (c.dr d.val).toNat }) c.succ))) ∧
    Leads (.movs e false d .lstat mv) s (WritesD s e.val mv d.val (·.toNat = c.level % 2 ^ 32)) ∧
    Leads (.movs e false d .epc mv) s (WritesD s e.val mv d.val (·.toNat = c.epc % 2 ^ 32)) ∧
    Leads (.movs e false d .status mv) s (WritesD s e.val mv d.val fun w => ∀ i : Fin 8,
      (∀ j : Fin 8, i < j → Config.statusPos j.val ≠ Config.statusPos i.val) →
        bitOf w.toNat (Config.statusPos i.val).toNat = c.st.bit i.val) ∧
    Leads (.movs e false d .estatus mv) s (WritesD s e.val mv d.val fun w => ∀ i : Fin 8,
      (∀ j : Fin 8, i < j → Config.statusPos j.val ≠ Config.statusPos i.val) →
        bitOf w.toNat (Config.statusPos i.val).toNat = c.est.bit i.val) ∧
    (c.st.kmode = false →
      Leads (.movs e true d .epc mv) s (CoreStep s e.val mv (fun z => { z with epc := (c.dr d.val).toNat % 8192 }) c.succ) ∧
      (c.level = 0 → Leads (.movs e true d .status mv) s
        (CoreStep s e.val mv (fun z => { z with st := statusOf (c.dr d.val) }) c.succ)) ∧
      Leads (.movs e true d .estatus mv) s (CoreStep s e.val mv (fun z => { z with est := statusOf (c.dr d.val) }) c.succ))

/-- Tier 2. The vector and accumulator instructions (R309, R314) work on the 16 lanes: sums, differences and absolute values
that are signed 32-bit numbers, bitwise operations, shifts below 32, minimum and maximum, selection and broadcast; an
accumulator saturates at 48 bits with its sticky SAT bits, and its parts move between registers. -/
def Obligations.CoreVectorInstructions : Prop :=
  ∀ (s : State) (e : EngineId) (d a b : Reg4) (mv : Moves), CoreMayGoOn s e.val mv →
    let c := s.core e.val
    let x := fun l => c.lane a.val l
    let y := fun l => c.lane b.val l
    let in32 := fun v : Int => -2147483648 ≤ v ∧ v < 2147483648
    let W := WritesV s e.val mv d.val
    Leads (.vadd e d a b mv) s (W fun l w => in32 ((x l).toInt + (y l).toInt) → w.toInt = (x l).toInt + (y l).toInt) ∧
    Leads (.vsub e d a b mv) s (W fun l w => in32 ((x l).toInt - (y l).toInt) → w.toInt = (x l).toInt - (y l).toInt) ∧
    Leads (.vmin e d a b mv) s (W fun l w => w.toInt = min (x l).toInt (y l).toInt) ∧
    Leads (.vmax e d a b mv) s (W fun l w => w.toInt = max (x l).toInt (y l).toInt) ∧
    Leads (.vabs e d a mv) s (W fun l w => in32 (x l).toInt.natAbs → w.toInt = (x l).toInt.natAbs) ∧
    Leads (.vand e d a b mv) s (W fun l w => w = x l &&& y l) ∧
    Leads (.vor e d a b mv) s (W fun l w => w = x l ||| y l) ∧
    Leads (.vxor e d a b mv) s (W fun l w => w = x l ^^^ y l) ∧
    (∀ sh : Byte, Leads (.vshl e d a sh mv) s (W fun l w => sh.toNat < 32 → w = x l <<< sh.toNat) ∧
      Leads (.vsar e d a sh mv) s (W fun l w => sh.toNat < 32 → w = (x l).sshiftRight sh.toNat)) ∧
    Leads (.vsel e d a b mv) s (W fun l w => w = x l ∨ w = y l) ∧
    Leads (.vbcast e d a mv) s (W fun _ w => w = c.dr a.val) ∧
    ∀ i : Fin 4,
      let A := fun (f : Nat → Int) => CoreStep s e.val mv (fun z => z.setAcc i.val f) c.succ
      let n := fun l => c.accLane i.val l
      let prod := fun l => signed 24 (x l).toNat * signed 24 (y l).toNat
      Leads (.clra e i mv) s (CoreStep s e.val mv (fun z => { z with
        acc := tsetMany 0 z.acc (16 * i.val) (List.replicate 16 0)
        accSat := tsetMany false z.accSat (16 * i.val) (List.replicate 16 false) }) c.succ) ∧
      Leads (.mac e i a b mv) s (A fun l => n l + prod l) ∧
      Leads (.msu e i a b mv) s (A fun l => n l - prod l) ∧
      Leads (.accadd e i a mv) s (A fun l => n l + (x l).toInt) ∧
      (∀ up : Bool, Leads (.cjoin e i a b up mv) s (A fun l =>
        signed 48 ((x l).toNat + 2 ^ 32 * (if up then (y l).toNat / 2 ^ 16 else (y l).toNat % 2 ^ 16)))) ∧
      (∀ d2 : Reg4, Leads (.mova e d d2 i mv) s fun t => mv = ⟨0, 0⟩ → d ≠ d2 → ∀ l : Fin 16,
        ((t.core e.val).lane d.val l.val).toNat = code 48 (n l.val) % 2 ^ 32 ∧
        ((t.core e.val).lane d2.val l.val).toNat % 2 ^ 16 = code 48 (n l.val) / 2 ^ 32 % 2 ^ 16) ∧
      (∀ k : Fin 48, Leads (.narr e d i k mv) s (CoreStep s e.val mv (fun z =>
        { z.setV d.val (fun l => wordOf (clampTo 32 (rhu (n l) (2 ^ k.val)))) with st := { z.st with
          nsat := z.st.nsat || (List.range 16).any (fun l => clampTo 32 (rhu (n l) (2 ^ k.val)) != rhu (n l) (2 ^ k.val)) } })
        c.succ)) ∧
      Leads (.fcvt e d (.acc i) mv) s (W fun l w => w.toNat = ieeeCode fp32 false ⟨n l, 1⟩)

/-- Tier 2. The block exponent and the binary32 instructions (R316, R317): BXCLR, BXACC, BXGET and NARRE work on the
block's folded minimum and maximum; a result with finite operands is the exact one rounded once, to nearest and to even,
and a result without a number is a quiet NaN. -/
def Obligations.CoreFloatInstructions : Prop :=
  ∀ (s : State) (e : EngineId) (d a b : Reg4) (mv : Moves), CoreMayGoOn s e.val mv →
    let c := s.core e.val
    let x := fun l => f32Of (c.lane a.val l)
    let y := fun l => f32Of (c.lane b.val l)
    let W := WritesV s e.val mv d.val
    (∀ w : Fin 17, Leads (.bxclr e w mv) s (CoreStep s e.val mv (fun z => { z with bx := { w := w.val } }) c.succ)) ∧
    Leads (.bxacc e a mv) s (CoreStep s e.val mv (fun z =>
      let l := (List.range 16).map (fun l => (c.lane a.val l).toInt)
      { z with bx := { w := c.bx.w, any := true, lo := l.foldl min (if c.bx.any then c.bx.lo else (c.lane a.val 0).toInt),
                       hi := l.foldl max (if c.bx.any then c.bx.hi else (c.lane a.val 0).toInt) } }) c.succ) ∧
    Leads (.bxget e d mv) s (WritesD s e.val mv d.val (·.toNat = c.bx.exp)) ∧
    Leads (.narre e d a mv) s (W fun l w => w = wordOf (rhu (c.lane a.val l).toInt (2 ^ c.bx.exp))) ∧
    (∀ i : Reg4, Leads (.fcvt e d (.vec i) mv) s (W fun l w => w.toNat = ieeeCode fp32 false ⟨(c.lane i.val l).toInt, 1⟩)) ∧
    Leads (.fadd e d a b mv) s (W fun l w => floatResult 0 (x l) (y l) w = true) ∧
    Leads (.fsub e d a b mv) s (W fun l w => floatResult 1 (x l) (y l) w = true) ∧
    Leads (.fmul e d a b mv) s (W fun l w => floatResult 2 (x l) (y l) w = true) ∧
    Leads (.fdiv e d a b mv) s (W fun l w => floatResult 3 (x l) (y l) w = true) ∧
    Leads (.f16 e d a mv) s (W fun l w => halfResult (x l) w = true)

/-- Tier 2. Control flow (R309, R318 to R324): branches, calls and returns, `RETI`, `WAIT`, `HALT`; the loop
instructions, their body not empty, push and pop levels, and at LEND the top loop repeats or is popped; an interrupt
between instructions saves the next address and STATUS; `TRAP`, an undefined instruction, a reserved STEP code, an
instruction of class 0 at LEND and the nesting limit trap with their cause, captured once, after the instruction has
completed with its moves and its end-of-loop check (R322). The vectors, the cause of `TRAP` and the list of return
addresses are log 8, what of a trapping instruction takes effect, and EPC, log 14. -/
def Obligations.CoreControlFlow : Prop :=
  ∀ (s : State) (e : EngineId) (mv : Moves),
    let c := s.core e.val
    let S := CoreStep s e.val mv
    (∀ target : BitVec 13, c.atEnd = false →
      (CoreMay s e.val mv target.toNat →
        Leads (.br e target mv) s (S id target.toNat) ∧
        Leads (.call e target mv) s (S (fun z => { z with calls := c.succ :: c.calls }) target.toNat) ∧
        (∀ g, c.st.flag g = true → Leads (.brc e g target mv) s (S id target.toNat)) ∧
        (c.calls.head? = some target.toNat → Leads (.ret e mv) s (S (fun z => { z with calls := c.calls.tail }) target.toNat))) ∧
      (CoreMay s e.val mv c.succ → ∀ g, c.st.flag g = false → Leads (.brc e g target mv) s (S id c.succ))) ∧
    (c.atEnd = false → CoreMay s e.val mv c.succ →
      Leads (.coreNop e mv) s (S id c.succ) ∧
      Leads (.wait e mv) s (S (fun z => { z with waiting := true }) c.succ) ∧
      (c.st.kmode = false →
        Leads (.halt e mv) s (S (fun z => { z with halted := true }) c.succ) ∧
        Leads (.reti e mv) s (S (fun z => { z with st := c.est, inHandler := c.inHandler && !c.est.kmode }) c.epc) ∧
        Leads (.trap e ⟨false, mv⟩) s (Trapped s e.val (runMoves mv c c.counted none) c.succ (fun k => 1 ≤ k ∧ k ≤ 4)) ∧
        Leads (.trap e ⟨true, mv⟩) s (Trapped s e.val (runMoves mv c c.counted none) c.succ (· = 1)))) ∧
    (∀ (lend : BitVec 13) (n : LoopCount),
      let k := match n with | .imm v => v.toNat | .reg d => (c.dr d.val).toNat
      c.atEnd = false →
      (c.level < 4 → k ≠ 0 → lend.toNat ≠ c.pc → CoreMay s e.val mv c.succ → Leads (.loop e lend n mv) s (S (fun z => { z with
        level := c.level + 1, st := { c.st with larm := true }, lstart := tset 0 c.lstart c.level c.succ,
        lend := tset 0 c.lend c.level lend.toNat, lcount := tset 0 c.lcount c.level k }) c.succ)) ∧
      (c.level < 4 → k = 0 → CoreMay s e.val mv ((lend.toNat + 1) % 8192) →
        Leads (.loop e lend n mv) s (S id ((lend.toNat + 1) % 8192))) ∧
      (c.level = 4 → c.st.kmode = false → CoreMay s e.val mv c.succ →
        Leads (.loop e lend n mv) s (Trapped s e.val (runMoves mv c c.counted none) c.succ (· = 2)))) ∧
    (c.atEnd = false → c.level ≠ 0 → CoreMay s e.val mv ((tget 0 c.lend (c.level - 1) + 1) % 8192) →
      Leads (.endl e mv) s (S (fun z => { z with level := c.level - 1 }) ((tget 0 c.lend (c.level - 1) + 1) % 8192))) ∧
    (∀ (d : Reg4) (imm : Word) (n : Nat), c.level = n + 1 → c.st.larm = true → tget 0 c.lend n = c.pc → mv = ⟨0, 0⟩ →
      (1 < tget 0 c.lcount n → CoreMay s e.val mv (tget 0 c.lstart n) → Leads (.ldi e d imm) s
        (S (fun z => { z.setD d.val imm with lcount := tset 0 c.lcount n (tget 0 c.lcount n - 1) }) (tget 0 c.lstart n))) ∧
      (tget 0 c.lcount n ≤ 1 → (n = 0 ∨ tget 0 c.lend (n - 1) ≠ c.pc) → CoreMay s e.val mv c.succ →
        Leads (.ldi e d imm) s (S (fun z => { z.setD d.val imm with level := n }) c.succ))) ∧
    (s.coreRuns e.val = true → movesIllegal mv = true → c.st.kmode = false → c.atEnd = false →
      Leads (.coreNop e mv) s (Trapped s e.val (runMoves mv c c.counted none) c.succ (· = 1))) ∧
    (∀ n, c.level = n + 1 → c.st.larm = true → tget 0 c.lend n = c.pc → 1 < tget 0 c.lcount n → s.coreRuns e.val = true →
      c.st.kmode = false →
      let z := { runMoves mv c c.counted none with lcount := tset 0 c.lcount n (tget 0 c.lcount n - 1) }
      Leads (.coreNop e mv) s (Trapped s e.val z (tget 0 c.lstart n) (· = 1)) ∧
      (∀ target, Leads (.br e target mv) s (Trapped s e.val z (tget 0 c.lstart n) (· = 1))) ∧
      Leads (.trap e ⟨true, mv⟩) s (Trapped s e.val z (tget 0 c.lstart n) (· = 1))) ∧
    (∀ n target, c.level = n + 1 → c.st.larm = true → tget 0 c.lend n = c.pc → tget 0 c.lcount n ≤ 1 →
      (n = 0 ∨ tget 0 c.lend (n - 1) ≠ c.pc) → s.coreRuns e.val = true → c.st.kmode = false → Leads (.br e target mv) s
        (Trapped s e.val { runMoves mv c c.counted none with level := n } target.toNat (· = 1))) ∧
    (∀ q : IrqCause,
      (c.st.ie = true → c.halted = false → s.rd .ENG_STAT_STATE e.val ≠ egOff → s.rd .ENG_STAT_STATE e.val ≠ egRetired →
        s.inReset = false → Leads (.interruptEntry e q) s (· = s.setCore e.val { c with
          waiting := false, inHandler := c.inHandler || (c.fw.isSome && c.st.kmode), epc := c.pc, est := c.st
          st := { c.st with ie := false, larm := false, kmode := false }, pc := (Config.vector q).toNat })) ∧
      (c.st.ie = false → Leads (.interruptEntry e q) s (· = s)))

/-- Tier 2. The sandbox of an output kernel (R328 to R336): the array, dealer and output classes, `HALT`, `RETI` and a
load outside the kernel's words are kernel faults with cause 3, an undefined instruction is one with cause 1, running
past COST one with cause 4; each ends the call, and the core goes on at the trap vector (R322, R324). In firmware
those classes make their moves. A return from the kernel ends the call; its records take the place of the batch's
cells. The trap vector is the configuration's (log 8); what of a forbidden instruction has no effect, and that the
core goes on at the vector, is log 14. -/
def Obligations.KernelSandbox : Prop :=
  ∀ (s : State) (e : EngineId) (mv : Moves),
    let c := s.core e.val
    let faulted := fun (cause : Nat) (t : State) => t.on .ENG_KSTAT_FAULT = true ∧ t.rd .ENG_KSTAT_FCAUSE = cause ∧
      t.rd .ENG_KFENG_ENGINE = e.val ∧ t.on .ENG_KEVT_FAULT = true ∧ (t.core e.val).fw = none ∧
      (t.core e.val).pc = Config.trapVector.toNat ∧ (t.core e.val).inHandler = false ∧ (t.core e.val).st.kmode = false ∧
      (t.core e.val).st.ie = false ∧ (t.core e.val).st.larm = false ∧
      (s.on .ENG_CTRAP_VALID e.val = false → t.on .ENG_CTRAP_VALID e.val = true ∧ t.rd .ENG_CTRAP_CAUSE e.val = cause ∧
        t.on .ENG_CTRAP_KMODE e.val = true) ∧
      ∀ k, s.exportTrick = some k → t.rd64 .ENG_KFTRICK = k.first % 2 ^ 64 ∧ t.outp.kfaults.contains k.plan.id = true
    (c.st.kmode = false → CoreMayGoOn s e.val mv →
      Leads (.arrayAndDealerInstruction e mv) s (CoreStep s e.val mv id c.succ) ∧
      Leads (.outputInstruction e mv) s (CoreStep s e.val mv id c.succ)) ∧
    (c.st.kmode = true → c.fw ≠ none → s.coreRuns e.val = true → movesIllegal mv = false →
      Leads (.arrayAndDealerInstruction e mv) s (faulted 3) ∧ Leads (.outputInstruction e mv) s (faulted 3) ∧
      ((movesList mv).any (fun m => m.forbidden c) = false → Leads (.trap e ⟨true, mv⟩) s (faulted 1)) ∧
      (c.atEnd = false → Leads (.halt e mv) s (faulted 3) ∧ Leads (.reti e mv) s (faulted 3) ∧
        ((movesList mv).any (fun m => m.forbidden c) = true → Leads (.coreNop e mv) s (faulted 3)))) ∧
    (s.overBudget e.val = true → Leads (.ktime e) s (faulted 4)) ∧
    (s.overBudget e.val = false → Leads (.ktime e) s (· = s)) ∧
    (∀ pc st l, c.st.kmode = true → c.fw = some (pc, st, l) → c.calls = [] → c.atEnd = false → CoreMay s e.val mv 4096 →
      (s.outp.batch = none → Leads (.ret e mv) s fun t => (t.core e.val).fw = none ∧ (t.core e.val).pc = pc ∧
        (t.core e.val).st = st ∧ (t.core e.val).calls = l ∧
        t.rd .ENG_KBATCH_COUNT e.val = min (s.rd .ENG_KBATCH_COUNT e.val + 1) (2 ^ 32 - 1)) ∧
      (∀ lanes k, s.outp.batch = some (e.val, lanes) → s.exportTrick = some k → 1 ≤ lanes → lanes ≤ s.outp.todo.length →
        (∀ r ∈ s.outp.todo, s.mayWrite k.plan.id r.dest = false) → Leads (.ret e mv) s fun t =>
          let n := fieldAt k.plan.kernel 5 1
          let y := (runMoves mv c c.counted none).y
          t.outp.batch = none ∧ (t.core e.val).fw = none ∧ t.outp.todo.drop lanes = s.outp.todo.drop lanes ∧
          (t.outp.todo.take lanes).map (fun r => (r.bytes, r.cell)) = (List.range lanes).map (fun i =>
            ((List.range n).flatMap (fun w => leBytes 4 (tget 0 y (0x6000 + i * n + w)).toNat), false))))

/-- Tier 2. Address registers and moves (R310 to R313): `SETA` and `GETA` reach each field, a LENGTH waits for the
next update, `MODA` updates with no access; a move loads or stores a word, or 16 lanes, of X or Y memory at the
buffer's place and moves its OFFSET by the step, circularly within LENGTH. That `GETA` answers the LENGTH in effect
and STEP sign-extended is log 14. -/
def Obligations.CoreAddressesAndMoves : Prop :=
  ∀ (s : State) (e : EngineId) (d ar : Reg4) (mv : Moves),
    let c := s.core e.val
    let x := c.ar ar.val
    let v := (c.dr d.val).toNat
    (CoreMayGoOn s e.val mv →
      (∀ fld : AddrField, fld ≠ .length ∨ v ≤ 32768 → Leads (.seta e ar fld d mv) s fun t =>
        CoreStep s e.val mv (·.setA ar.val (match fld with
          | .offset => { x with offset := v % (if x.length = 0 then 32768 else x.length) }
          | .base => { x with base := v % 32768 }
          | .length => { x with pend := some v }
          | .step => { x with step := signed 16 v })) c.succ t
          (some { reg := ar.val, len := fld == .length, alone := false, f := writeField (c.dr d.val) 0 fld })) ∧
      Leads (.geta e d ar .offset mv) s (WritesD s e.val mv d.val (·.toNat = x.offset % 2 ^ 32)) ∧
      Leads (.geta e d ar .base mv) s (WritesD s e.val mv d.val (·.toNat = x.base % 2 ^ 32)) ∧
      Leads (.geta e d ar .length mv) s (WritesD s e.val mv d.val (·.toNat = x.length % 2 ^ 32)) ∧
      Leads (.geta e d ar .step mv) s (WritesD s e.val mv d.val (· = BitVec.ofInt 32 x.step)) ∧
      (∀ st : BitVec 4, ∀ n, stepOf x st.toNat = some n → mv = ⟨0, 0⟩ → Leads (.moda e ar st mv) s
        (CoreStep s e.val mv (·.setA ar.val { x with
          offset := (((x.offset : Int) + n) % (if x.pend.getD x.length = 0 then 32768 else (x.pend.getD x.length : Int))).toNat,
          length := x.pend.getD x.length, pend := none }) c.succ))) ∧
    (∀ f : BitVec 16, c.atEnd = false → CoreMay s e.val ⟨f, 0⟩ c.succ →
      let m := moveOf f 0
      let z := c.ar m.areg
      let at_ := fun i => (if z.length = 0 then z.base + z.offset + i else z.base + (z.offset + i) % z.length) % 32768
      m.en = true → m.step ≠ 0 → Leads (.coreNop e ⟨f, 0⟩) s fun t =>
        (t.core e.val).ar m.areg = z.update ((stepOf z m.step).getD 0) ∧ (t.core e.val).y = c.y ∧
        (m.store = false → m.vec = false → (t.core e.val).dr m.dreg = tget 0 c.x (at_ 0) ∧ (t.core e.val).x = c.x ∧
          (t.core e.val).v = c.v) ∧
        (m.store = false → m.vec = true → (∀ l : Fin 16, (t.core e.val).lane m.dreg l.val = tget 0 c.x (at_ l.val)) ∧
          (t.core e.val).x = c.x ∧ (t.core e.val).d = c.d) ∧
        (m.store = true → m.vec = false → (t.core e.val).x = tset 0 c.x (at_ 0) (c.dr m.dreg) ∧ (t.core e.val).d = c.d ∧
          (t.core e.val).v = c.v) ∧
        (m.store = true → m.vec = true → (t.core e.val).d = c.d ∧ (t.core e.val).v = c.v ∧
          (z.length = 0 ∨ 16 ≤ z.length → ∀ l : Fin 16, tget 0 (t.core e.val).x (at_ l.val) = c.lane m.dreg l.val) ∧
          ∀ w, (∀ l : Fin 16, w ≠ at_ l.val) → tget 0 (t.core e.val).x w = tget 0 c.x w))

/-! ### Winos commands -/

/-- Tier 2. Every Winos command is a body run by `State.winos`. A source that is not served leaves the state as it is; else the
command is numbered by event 0x0901. On the UART and the management port, which never hold a command back, a repeated command is
answered from the kept reply, marked, and is not run again (R344). A command of no authority is refused before anything else (R352, R525), then a wrong header (R345), then, until READY, all but the
early commands (R515), in each case with nothing done; otherwise its body runs, and its reply is kept (R344). Rows of the queue
pairs: the doorbell, the completion head and EN, whose writes are discarded during a warm reset (R514); a packet that is no command, an entry or indirect parameters that cannot be read
(FETCHERR; R340, R345, R348, R367), and a command whose opcode is not defined, answered REJ_PARAM (R9, R340; which row carries it is the
model's choice, log 22). -/
def Obligations.CommandsAreTakenInOrder : Prop :=
  ∀ (s : State) (h : Hdr),
    (∀ (cmd : Instr) (opcode len : Nat) (auth early : Bool) (body : State → Ans),
      let run := s.winos cmd h opcode len auth early body
      let same := s.dealer.kept.find? (fun k => k.reply.src == h.src && k.cmd == cmd)
      (s.takes h = false → run = s) ∧
      (s.takes h = true → s.dealer.dsn < 2 ^ 63 → (∀ q, h.src ≠ .qp q) →
        (∀ k, same = some k → run.dealer.longs = s.dealer.longs ∧ run.dealer.dsn = s.dealer.dsn + 1 ∧
          .winos { k.reply with rpt := true } ∈ newMsgs s run ∧ run.plans = s.plans ∧ run.timeb = s.timeb ∧
          run.rd .DLR_CMDCNT_COUNT = min (s.rd .DLR_CMDCNT_COUNT + 1) (2 ^ 32 - 1)) ∧
        (same = none →
          (auth = false → Refused s h opcode rejAuth 0 run ∧ run.dealer.longs = s.dealer.longs ∧ run.plans = s.plans) ∧
          (auth = true → ∀ o, hdrWrong h len = some o →
            Refused s h opcode rejParam o run ∧ run.dealer.longs = s.dealer.longs ∧ run.plans = s.plans) ∧
          (auth = true → hdrWrong h len = none → early = false → s.on .MOD_STAT_READY = false →
            (body (s.ordered h opcode)).status ≠ rejAuth → (body (s.ordered h opcode)).status ≠ rejParam →
            Refused s h opcode rejState 0 run ∧ run.dealer.longs = s.dealer.longs ∧ run.plans = s.plans) ∧
          (auth = true → hdrWrong h len = none → early = true ∨ s.on .MOD_STAT_READY = true →
            let a := body (s.ordered h opcode)
            let p : Packet := ⟨h.src, 1, opcode, false, false, h.tag, s.dealer.dsn, a.status, a.detail, a.params⟩
            let d := { a.st.dealer with kept := keepReply ⟨cmd, p, none⟩ a.st.dealer.kept }
            run = a.after (({ a.st with dealer := d } : State).sendPacket p none))))) ∧
    (∀ (q : QpId) (v : BitVec 12),
      (s.barShut = true → Leads (.pciSqtail q v) s (· = s) ∧ Leads (.pciCqhead q v) s (· = s) ∧
        ∀ en, Leads (.pciQcfgEn q en) s (· = s)) ∧
      (s.barShut = false → Leads (.pciSqtail q v) s (fun t => t.rd .PCI_SQTAIL_TAIL q.val = v.toNat ∧ OnlyWords [Fld.PCI_SQTAIL_TAIL.at q.val] s t) ∧
      Leads (.pciCqhead q v) s (fun t => t.rd .PCI_CQHEAD_HEAD q.val = v.toNat ∧ t.on .PCI_QSTAT_CQFULL q.val = false ∧
        OnlyWords [Fld.PCI_CQHEAD_HEAD.at q.val, Fld.PCI_QSTAT_CQFULL.at q.val] s t) ∧
      Leads (.pciQcfgEn q true) s (fun t => t.on .PCI_QCFG_EN q.val = true ∧ OnlyWords [Fld.PCI_QCFG_EN.at q.val] s t) ∧
      Leads (.pciQcfgEn q false) s (fun t => t.on .PCI_QCFG_EN q.val = false ∧
        t.rd .PCI_QSTAT_SQHEAD q.val = s.rd .PCI_SQTAIL_TAIL q.val ∧ t.on .PCI_QSTAT_CQFULL q.val = false ∧
        OnlyWords [Fld.PCI_QCFG_EN.at q.val, Fld.PCI_QSTAT_SQHEAD.at q.val] s t)) ∧
      (s.hears (.qp q) = true →
        let popped := fun t : State =>
          t.rd .PCI_QSTAT_SQHEAD q.val = (s.rd .PCI_QSTAT_SQHEAD q.val + 1) % 2 ^ s.rd .PCI_QCFG_SQLOG2 q.val % 4096 ∧ t.sent = s.sent
        let lost := fun t : State => popped t ∧ t.on .PCI_QSTAT_FETCHERR q.val = true ∧ t.rd .DLR_DROP_COUNT = s.rd .DLR_DROP_COUNT
        (s.hostIn (s.entryAt q.val) 64 = true → s.modl.pciUp = true → Leads (.winosPacketDiscarded (.discarded (.qp q))) s fun t =>
          popped t ∧ t.rd .DLR_DROP_COUNT = min (s.rd .DLR_DROP_COUNT + 1) (2 ^ 32 - 1) ∧ t.on .DLR_EVT_DROP = true) ∧
        (s.hostIn (s.entryAt q.val) 64 = false ∨ s.modl.pciUp = false → Leads (.winosPacketDiscarded (.discarded (.qp q))) s lost) ∧
        (h.src = .qp q → s.takes h = true → s.paramsLost h = true → Leads (.nop h) s fun t => lost t ∧ t.dealer = s.dealer))) ∧
    (∀ src : Src,
      (s.hears src = false → Leads (.winosPacketDiscarded (.discarded src)) s (· = s)) ∧
      (s.hears src = true → (∀ q, src ≠ .qp q) → Leads (.winosPacketDiscarded (.discarded src)) s fun t =>
        t.rd .DLR_DROP_COUNT = min (s.rd .DLR_DROP_COUNT + 1) (2 ^ 32 - 1) ∧ t.on .DLR_EVT_DROP = true ∧
        OnlyWords [Fld.DLR_DROP_COUNT.at 0, Fld.DLR_EVT_DROP.at 0] s t)) ∧
    (∀ (op : BitVec 16) (l : List Byte),
      let p : StrayPacket := .undefinedOpcode h op l
      (winosOpcodes.contains op.toNat = false →
        CmdMay s h (.winosPacketDiscarded (.undefinedOpcode (hdrPlain h) op l)) l.length true 0 →
        Leads (.winosPacketDiscarded p) s fun t => Refused s h op.toNat rejParam 0 t ∧ t.dealer.dsn = s.dealer.dsn + 1 ∧
          t.dealer.longs = s.dealer.longs) ∧
      (winosOpcodes.contains op.toNat = true → Leads (.winosPacketDiscarded p) s (· = s)))

/-- Tier 2. The System commands (R354, R349, R351, R359, R4, R435, R485, R500, R520): their replies, what they set,
and where they are refused. The layout of the reply of STATUS is the model's choice (log 9), and so is which states
LIFECYCLE accepts (log 46). -/
def Obligations.SystemCommands : Prop :=
  ∀ (s : State) (h : Hdr),
    let may := CmdMay s h
    (may (.nop (hdrPlain h)) 0 true 0 → Leads (.nop h) s fun t => Answered s h 0x0100 stOk [] t ∧
      t.dealer.dsn = s.dealer.dsn + 1 ∧ t.dealer.longs = s.dealer.longs) ∧
    (may (.identify (hdrPlain h)) 0 true 35 → Leads (.identify h) s (Answered s h 0x0101 stOk
      [(16, orderingCode), (8, Config.serial.toNat), (4, (Config.imageVersion false).toNat), (4, (Config.imageVersion true).toNat),
       (1, s.rd .MOD_BOOT_SLOT), (1, s.lcs), (1, s.rd .MOD_ID_ID)])) ∧
    (may (.status (hdrPlain h)) 0 true 20 → Leads (.status h) s (Answered s h 0x0104 stOk
      [(1, s.rd .MOD_STAT_READY), (1, s.rd .REF_STAT_STATE), (1, s.rd .DLR_STAT_ACTIVE), (1, s.rd .DLR_STAT_DEALPEND),
       (1, s.rd .DLR_STAT_BUILT), (1, s.rd .DLR_STAT_ADMITTED), (1, s.enginesIn egActive), (1, s.enginesIn egStandby),
       (1, s.enginesIn egRetired), (1, s.rd .MOD_STAT_FAULTN), (1, s.rd .MOD_STAT_ERRN), (8, s.dealer.dsn + 1),
       (1, s.rd .LGR_STAT_RO)])) ∧
    (∀ id : Byte, may (.setModid (hdrPlain h) id) 1 true 0 →
      (id = 255 → Leads (.setModid h id) s fun t => Refused s h 0x0102 rejParam 0 t ∧ t.rd .MOD_ID_ID = s.rd .MOD_ID_ID) ∧
      (id ≠ 255 → s.rd .MOD_STRAP_MODID = 255 → (∀ n : SessionId, s.rd .VSN_SSTAT_STATE n.val = ssFree) →
        Leads (.setModid h id) s fun t => Answered s h 0x0102 stOk [] t ∧ t.rd .MOD_ID_ID = id.toNat ∧ t.modl.idByCmd = true) ∧
      (∀ n : SessionId, id ≠ 255 → s.rd .MOD_STRAP_MODID ≠ 255 ∨ s.rd .VSN_SSTAT_STATE n.val ≠ ssFree →
        Leads (.setModid h id) s fun t => Refused s h 0x0102 rejState 0 t ∧ t.rd .MOD_ID_ID = s.rd .MOD_ID_ID)) ∧
    (∀ k : Byte, may (.reset (hdrPlain h) k) 1 true 0 →
      (k = 1 → Leads (.reset h k) s fun t => Answered s h 0x0103 stOk [] t ∧ t.on .FLT_STAT_RESETHOLD = false ∧
        t.modl.resetDue = some (s.modl.resetDue.getD 4)) ∧
      (k ≠ 1 → Leads (.reset h k) s fun t => Refused s h 0x0103 rejParam 0 t ∧ t.modl.resetDue = s.modl.resetDue)) ∧
    (∀ (i : Byte) (off : Word) (l : List Byte), may (.fwWrite (hdrPlain h) i off l) (5 + l.length) true 0 →
      (i.toNat ≤ 1 → s.bootedImage i.toNat = false → Leads (.fwWrite h i off l) s fun t => Answered s h 0x0105 stOk [] t ∧
        t.modl.flash = tsetMany 0 s.modl.flash (2 ^ 32 * i.toNat + off.toNat) l) ∧
      (i.toNat ≤ 1 → s.bootedImage i.toNat = true → Leads (.fwWrite h i off l) s fun t =>
        Refused s h 0x0105 rejState 0 t ∧ t.modl.flash = s.modl.flash)) ∧
    (∀ i : Byte, may (.fwCommit (hdrPlain h) i) 1 true 0 → i.toNat ≤ 1 → s.on .SPD_SECSTAT_FAIL = false →
      (s.on .SPD_SECSTAT_WIPING = true → Leads (.fwCommit h i) s (Refused s h 0x0106 rejBusy 0)) ∧
      (s.on .SPD_SECSTAT_WIPING = false → s.dealer.longs.length < 16 → Leads (.fwCommit h i) s fun t =>
        Answered s h 0x0106 stAccepted [] t ∧ Begun s h 0x0106 (.fwCommit i.toNat) t)) ∧
    (may (.uartClose (hdrPlain h)) 0 true 0 → Leads (.uartClose h) s fun t => Answered s h 0x0107 stOk [] t ∧
      t.on .DLR_STAT_UARTEN = false) ∧
    (∀ k : Byte, may (.lifecycle (hdrPlain h) k) 1 false 0 →
      (hdrLocal h = false → Leads (.lifecycle h k) s fun t => Refused s h 0x0108 rejAuth 0 t ∧ t.lcs = s.lcs ∧ t.sec = s.sec) ∧
      (hdrLocal h = true → k.toNat ≤ s.lcs → k.toNat ≤ 3 → Leads (.lifecycle h k) s fun t =>
        Refused s h 0x0108 rejState 0 t ∧ t.lcs = s.lcs ∧ t.sec = s.sec) ∧
      (hdrLocal h = true → s.lcs < k.toNat → k.toNat ≤ 3 → s.sec.target = none → s.dealer.longs.length < 16 →
        Leads (.lifecycle h k) s fun t => Answered s h 0x0108 stAccepted [] t ∧ Begun s h 0x0108 (.lifecycle k.toNat) t ∧
          t.sec.target = some k.toNat ∧ t.on .SPD_SECSTAT_WIPING = true ∧ t.rd .SPD_SECSTAT_CAUSE = 4 ∧ t.lcs = s.lcs)) ∧
    (∀ (ip gw : Word) (n : Byte), may (.mgmtCfg (hdrPlain h) ip n gw) 9 true 0 →
      (n.toNat ≤ 32 → Leads (.mgmtCfg h ip n gw) s fun t => Answered s h 0x0109 stOk [] t ∧
        (t.modl.mgmtIp, t.modl.mgmtPlen, t.modl.mgmtGw) = (ip.toNat, n.toNat, gw.toNat)) ∧
      (32 < n.toNat → Leads (.mgmtCfg h ip n gw) s fun t => Refused s h 0x0109 rejParam 4 t ∧ t.modl.mgmtIp = s.modl.mgmtIp)) ∧
    (∀ (m : BitVec 16) (d : Byte), may (.evtSubscribe (hdrPlain h) m d) 3 true 0 → m &&& 0xF001 = 0 →
      (d.toNat < 16 → Leads (.evtSubscribe h m d) s fun t => Answered s h 0x010A stOk [] t ∧
        t.dealer.masks = tset 0 s.dealer.masks d.toNat m.toNat ∧ t.dealer.mgmt = s.dealer.mgmt) ∧
      (d.toNat = 16 → hdrOverMgmt h = true → Leads (.evtSubscribe h m d) s fun t => Answered s h 0x010A stOk [] t ∧
        t.dealer.masks = s.dealer.masks ∧ t.dealer.mgmt = putMgmt s.dealer.mgmt h.src m.toNat) ∧
      (16 < d.toNat ∨ (d.toNat = 16 ∧ hdrOverMgmt h = false) → Leads (.evtSubscribe h m d) s fun t =>
        Refused s h 0x010A rejParam 2 t ∧ t.dealer.masks = s.dealer.masks ∧ t.dealer.mgmt = s.dealer.mgmt)) ∧
    (∀ (first : BitVec 64) (n : BitVec 16),
      let l := ((s.dealer.events.take 4095).filter (fun e => decide (first.toNat ≤ e.dsn ∧ e.dsn < s.dealer.dsn))).reverse
      let k := min (if hdrOverMgmt h then min 29 n.toNat else n.toNat) l.length
      may (.evtRead (hdrPlain h) first n) 10 true (2 + 48 * k) → 0 < n.toNat → n.toNat ≤ 4096 →
        (l ≠ [] → Leads (.evtRead h first n) s (Answered s h 0x010B stOk ((2, k) :: (l.take k).flatMap Event.params))) ∧
        (l = [] → Leads (.evtRead h first n) s (Refused s h 0x010B rejState 0)))

/-- Tier 2. The Links, sessions and engines commands (R88, R102 to R104, R129, R155, R215, R216, R222, R63, R354).
That a lane whose transceiver was left unpowered is neither released nor restored, which ends with REJ_STATE, is the
model's choice (log 29), and that a close waits while acceptance is suspended (log 30). -/
def Obligations.LaneSessionAndEngineCommands : Prop :=
  ∀ (s : State) (h : Hdr),
    let may := CmdMay s h
    (∀ l : Byte, may (.laneRelease (hdrPlain h) l) 1 false 0 → l.toNat < 24 →
      (s.laneBusy l.toNat = true → Leads (.laneRelease h l) s (Refused s h 0x0201 rejBusy 0)) ∧
      (s.laneBusy l.toNat = false → s.dealer.longs.length < 16 →
        Leads (.laneRelease h l) s fun t => Answered s h 0x0201 stAccepted [] t ∧
          (s.cageRejected l.toNat = true → Ended ⟨h.src, h.tag, 0x0201, .laneRelease l.toNat, s.dealer.dsn⟩ rejState
            { s with dealer := { s.dealer with longs := s.dealer.longs ++ [⟨h.src, h.tag, 0x0201, .laneRelease l.toNat, s.dealer.dsn⟩] } } t ∧
            t.lnState l.toNat = s.lnState l.toNat) ∧
          (s.cageRejected l.toNat = false → s.lnState l.toNat ≠ lnService → Ended ⟨h.src, h.tag, 0x0201, .laneRelease l.toNat, s.dealer.dsn⟩ stDone
            { s with dealer := { s.dealer with longs := s.dealer.longs ++ [⟨h.src, h.tag, 0x0201, .laneRelease l.toNat, s.dealer.dsn⟩] } } t ∧
            t.lnState l.toNat = lnTest ∧ t.rd .VLK_CTL_MODE l.toNat = 2) ∧
          (s.cageRejected l.toNat = false → s.lnState l.toNat = lnService → s.rd .VLK_STAT_BUNDLE l.toNat < 5 → Begun s h 0x0201 (.laneRelease l.toNat) t ∧
            (t.lane l.toNat).releasing = true ∧ t.lnState l.toNat = lnService ∧
            ∃ c, (t.bundle (s.rd .VLK_STAT_BUNDLE l.toNat)).change = some c ∧ c.map.getD (s.rd .VLK_STAT_POSITION l.toNat) 31 = 31 ∧
              c.epoch = s.nextEpoch (s.rd .VLK_STAT_BUNDLE l.toNat)))) ∧
    (∀ l : Byte, may (.laneRestore (hdrPlain h) l) 1 false 0 → l.toNat < 24 →
      (s.laneBusy l.toNat = true → Leads (.laneRestore h l) s (Refused s h 0x0202 rejBusy 0)) ∧
      (s.laneBusy l.toNat = false → s.dealer.longs.length < 16 →
        Leads (.laneRestore h l) s fun t => Answered s h 0x0202 stAccepted [] t ∧
          (s.lnState l.toNat ≠ lnService → s.lnState l.toNat ≠ lnStandby → s.climbing l.toNat = false → s.homeOn l.toNat = true →
            s.cageRejected l.toNat = false →
            Begun s h 0x0202 (.laneRestore l.toNat) t ∧ (t.lane l.toNat).item = (s.lane l.toNat).item ∧ (t.lane l.toNat).homing = true ∧
            t.rd .VLK_CTL_MODE l.toNat = 1 ∧ t.climbing l.toNat = true) ∧
          (s.climbing l.toNat = true → Begun s h 0x0202 (.laneRestore l.toNat) t ∧ (t.lane l.toNat).homing = true ∧
            (t.lane l.toNat).spare = false ∧ t.lnState l.toNat = s.lnState l.toNat) ∧
          (s.lnState l.toNat ≠ lnService → s.climbing l.toNat = false → s.homeOn l.toNat = false ∨ s.cageRejected l.toNat = true →
            Ended ⟨h.src, h.tag, 0x0202, .laneRestore l.toNat, s.dealer.dsn⟩ rejState
              { s with dealer := { s.dealer with longs := s.dealer.longs ++ [⟨h.src, h.tag, 0x0202, .laneRestore l.toNat, s.dealer.dsn⟩] } } t ∧
            t.lnState l.toNat = lnOff))) ∧
    (∀ b : Byte, may (.bundleReset (hdrPlain h) b) 1 false 0 →
      (b.toNat < 5 → s.bundleUp b.toNat = true → Leads (.bundleReset h b) s fun t => Answered s h 0x0203 stOk [] t ∧
        (t.link b.toNat).unacked = [] ∧ t.rd .VSN_LSTAT_RX_NEXT b.toNat = 0 ∧ t.on .VSN_LSTAT_INIT_DONE b.toNat = false ∧
        t.lanes = s.lanes) ∧
      (5 ≤ b.toNat → Leads (.bundleReset h b) s fun t => Refused s h 0x0203 rejParam 0 t ∧ t.links = s.links)) ∧
    (∀ n : Byte, may (.sessionClose (hdrPlain h) n) 1 false 0 →
      (s.rd .VSN_SSTAT_STATE n.toNat = ssFree → Leads (.sessionClose h n) s fun t =>
        Refused s h 0x0204 rejState 0 t ∧ t.sess = s.sess) ∧
      (s.rd .VSN_SSTAT_STATE n.toNat ≠ ssFree → s.suspended = false → Leads (.sessionClose h n) s fun t =>
        Answered s h 0x0204 stOk [] t ∧ t.rd .VSN_SSTAT_STATE n.toNat = ssFree ∧ t.flowsOf n.toNat = []) ∧
      (s.rd .VSN_SSTAT_STATE n.toNat ≠ ssFree → s.suspended = true → Leads (.sessionClose h n) s fun t =>
        Answered s h 0x0204 stOk [] t ∧ t.session n.toNat = { s.session n.toNat with closeDue := 6 } ∧ t.flows = s.flows)) ∧
    (∀ (n : Byte) (first : BitVec 16),
      let l := (s.flowsOf n.toNat).drop first.toNat
      let l := if hdrOverMgmt h then l.take 44 else l
      may (.flowList (hdrPlain h) n first) 3 false (4 + 32 * l.length) → Leads (.flowList h n first) s (Answered s h 0x0205 stOk
        ([(2, (s.flowsOf n.toNat).length), (2, first.toNat)] ++ l.map (fun f => (32, leVal (s.fstate f)))))) ∧
    (∀ e : Byte, may (.engineRetire (hdrPlain h) e) 1 false 0 →
      (e.toNat < 96 → s.inService e.toNat = true → Leads (.engineRetire h e) s fun t => Answered s h 0x0903 stOk [] t ∧
        t.rd .ENG_STAT_STATE e.toNat = egRetired ∧ t.rd .ENG_RETCAUSE_CAUSE e.toNat = 4 ∧ t.rd .ENG_RAIL_MV e.toNat = 0) ∧
      (e.toNat < 96 → s.inService e.toNat = false → Leads (.engineRetire h e) s fun t =>
        Answered s h 0x0903 stOk [] t ∧ t.engs = s.engs ∧ t.rd .ENG_STAT_STATE e.toNat = s.rd .ENG_STAT_STATE e.toNat) ∧
      (96 ≤ e.toNat → Leads (.engineRetire h e) s fun t => Refused s h 0x0903 rejParam 0 t ∧ t.engs = s.engs)) ∧
    (∀ e : Byte, may (.engineRestore (hdrPlain h) e) 1 false 0 → e.toNat < 96 →
      (s.rd .ENG_STAT_STATE e.toNat ≠ egRetired → Leads (.engineRestore h e) s fun t =>
        Refused s h 0x0904 rejState 0 t ∧ t.rd .ENG_STAT_STATE e.toNat = s.rd .ENG_STAT_STATE e.toNat) ∧
      (s.rd .ENG_STAT_STATE e.toNat = egRetired → s.dealer.longs.length < 16 → Leads (.engineRestore h e) s fun t =>
        Answered s h 0x0904 stAccepted [] t ∧ Begun s h 0x0904 (.engineRestore e.toNat) t ∧
        t.rd .ENG_STAT_STATE e.toNat = egSelftest)) ∧
    (∀ n : Byte, may (.setReserve (hdrPlain h) n) 1 false 0 →
      (n.toNat ≤ 8 → Leads (.setReserve h n) s fun t => Answered s h 0x0309 stOk [] t ∧ t.rd .ENG_GCTL_RESERVE = n.toNat) ∧
      (8 < n.toNat → Leads (.setReserve h n) s fun t =>
        Refused s h 0x0309 rejParam 0 t ∧ t.rd .ENG_GCTL_RESERVE = s.rd .ENG_GCTL_RESERVE)) ∧
    (may (.engineRelease (hdrPlain h)) 0 false 0 →
      (s.on .ENG_GSTAT_HOLD = true → Leads (.engineRelease h) s fun t =>
        Answered s h 0x030A stOk [] t ∧ t.on .ENG_GSTAT_HOLD = false) ∧
      (s.on .ENG_GSTAT_HOLD = false → Leads (.engineRelease h) s (Refused s h 0x030A rejState 0)))


/-- Tier 2. The Plans and Tricks commands (R354, R360 to R363, R365, R210, R171, R61): what they change, what they
answer, and where they are refused with nothing done. The layouts of the replies of PLAN_STATUS and TRICK_STATUS (log
9), that a source is read when the command is ordered (log 16), and the answers about a close beside a pending one
(log 27) are the model's choices. -/
def Obligations.PlanCommands : Prop :=
  ∀ (s : State) (h : Hdr),
    let may := CmdMay s h
    (∀ (i n : Byte) (off : Word) (l : List Byte), may (.planDefine (hdrPlain h) i n off l) (6 + l.length) false 0 →
      i.toNat < 4 → n.toNat ≤ 9 →
      (off.toNat + l.length ≤ sectionSize n.toNat → s.tableBusy i.toNat = false → Leads (.planDefine h i n off l) s fun t =>
        Answered s h 0x0301 stOk [] t ∧
        t.slot i.toNat = { s.slot i.toNat with edit := tsetMany 0 (s.slot i.toNat).edit (2 ^ 32 * n.toNat + off.toNat) l }) ∧
      (off.toNat + l.length ≤ sectionSize n.toNat → s.tableBusy i.toNat = true → Leads (.planDefine h i n off l) s fun t =>
        Refused s h 0x0301 rejBusy 0 t ∧ t.plans = s.plans) ∧
      (sectionSize n.toNat < off.toNat + l.length → Leads (.planDefine h i n off l) s fun t =>
        Refused s h 0x0301 rejParam 2 t ∧ t.plans = s.plans)) ∧
    (∀ i : Byte, may (.planBuild (hdrPlain h) i) 1 false 16 → i.toNat < 4 →
      let d := (s.slot i.toNat).edit
      (s.planOk d = false → Leads (.planBuild h i) s fun t => Refused s h 0x0302 rejParam 0 t ∧ t.plans = s.plans) ∧
      (s.planOk d = true → s.timeb.map = none → Leads (.planBuild h i) s fun t =>
        Refused s h 0x0302 rejState 0 t ∧ t.plans = s.plans) ∧
      (∀ b, s.planOk d = true → s.timeb.map ≠ none → s.admission d 0 true = some b → Leads (.planBuild h i) s fun t =>
        Replied s h 0x0302 rejBudget b.code [(8, b.need), (8, b.have_)] t ∧ t.plans = s.plans) ∧
      (s.planOk d = true → s.timeb.map ≠ none → s.admission d 0 true = none → Leads (.planBuild h i) s fun t =>
        Answered s h 0x0302 stOk [(1, s.placed i.toNat)] t ∧ (t.slot i.toNat).shadow = d ∧ (t.slot i.toNat).edit = d ∧
        (t.slot i.toNat).built = true ∧ (t.slot i.toNat).admitted = true ∧ bitOf (t.rd .DLR_STAT_BUILT) i.toNat = true ∧
        bitOf (t.rd .DLR_STAT_ADMITTED) i.toNat = true ∧ t.plans.active = s.plans.active)) ∧
    (∀ (i : Byte) (d : BitVec 64), may (.planDeal (hdrPlain h) i d) 9 false 0 → i.toNat < 4 ∨ i.toNat = 255 → d.toNat < lastCounter →
      let x := s.slot i.toNat
      let none_ := i.toNat == 255
      let built := none_ || x.built
      let onGrid := s.plans.active.all (fun p => d.toNat % pS p.data == 0) && (none_ || d.toNat % pS x.shadow == 0)
      let inTime := (s.timeOf d.toNat).any (fun t => decide (s.nowNs + 50000000 ≤ t)) && (s.plans.active.isNone ||
        s.deck.chans.all (fun c => decide (c.1 / 1024 * 4096 < d.toNat) || c.2.openAt.isNone))
      (built = false → Leads (.planDeal h i d) s fun t => Refused s h 0x0303 rejState 0 t ∧ t.dealer.deal = s.dealer.deal) ∧
      (built = true → onGrid = false → Leads (.planDeal h i d) s fun t =>
        Refused s h 0x0303 rejParam 1 t ∧ t.dealer.deal = s.dealer.deal) ∧
      (built = true → onGrid = true → inTime = false → Leads (.planDeal h i d) s fun t =>
        Refused s h 0x0303 rejState 0 t ∧ t.dealer.deal = s.dealer.deal) ∧
      (built = true → onGrid = true → inTime = true → s.dealer.deal ≠ none → Leads (.planDeal h i d) s fun t =>
        Refused s h 0x0303 rejBusy 0 t ∧ t.dealer.deal = s.dealer.deal) ∧
      (built = true → onGrid = true → inTime = true → s.dealer.deal = none → s.dealer.longs.length < 16 →
        Leads (.planDeal h i d) s fun t => Answered s h 0x0303 stAccepted [] t ∧ Begun s h 0x0303 .planDeal t ∧
          t.dealer.deal = some ⟨if none_ then none else some i.toNat, d.toNat⟩ ∧ t.on .DLR_STAT_DEALPEND = true ∧ t.rd .DLR_STAT_DEALSLOT = (if none_ then 7 else i.toNat) ∧
          t.rd64 .DLR_DEALCNT = d.toNat ∧ t.plans = s.plans)) ∧
    (may (.planCancel (hdrPlain h)) 0 false 0 →
      (s.dealer.deal = none → Leads (.planCancel h) s (Refused s h 0x0304 rejState 0)) ∧
      (∀ o, s.dealer.deal ≠ none → s.findLong (· == .planDeal) = some o → Leads (.planCancel h) s fun t =>
        Answered s h 0x0304 stOk [] t ∧ Ended o rejState s t ∧ t.dealer.deal = none ∧ t.on .DLR_STAT_DEALPEND = false ∧
        t.plans = s.plans)) ∧
    (∀ i k : Byte, may (.planReset (hdrPlain h) i k) 2 false 0 → i.toNat < 4 →
      (k.toNat = 0 → Leads (.planReset h i k) s fun t => Answered s h 0x0305 stOk [] t ∧
        t.slot i.toNat = { s.slot i.toNat with edit := defaultPlan }) ∧
      (0 < k.toNat → k.toNat ≤ 4 → (s.slot (k.toNat - 1)).built = true → Leads (.planReset h i k) s fun t =>
        Answered s h 0x0305 stOk [] t ∧ t.slot i.toNat = { s.slot i.toNat with edit := (s.slot (k.toNat - 1)).shadow }) ∧
      (0 < k.toNat → k.toNat ≤ 4 → (s.slot (k.toNat - 1)).built = false → Leads (.planReset h i k) s fun t =>
        Refused s h 0x0305 rejState 0 t ∧ t.plans = s.plans) ∧
      (4 < k.toNat → Leads (.planReset h i k) s fun t => Refused s h 0x0305 rejParam 1 t ∧ t.plans = s.plans)) ∧
    (∀ i : Byte, may (.planErase (hdrPlain h) i) 1 false 0 → i.toNat < 4 →
      ((s.slotActive i.toNat || s.slotDealt i.toNat) = true → Leads (.planErase h i) s fun t =>
        Refused s h 0x0306 rejState 0 t ∧ t.plans = s.plans) ∧
      ((s.slotActive i.toNat || s.slotDealt i.toNat) = false → Leads (.planErase h i) s fun t =>
        Answered s h 0x0306 stOk [] t ∧ t.slot i.toNat = {} ∧ bitOf (t.rd .DLR_STAT_BUILT) i.toNat = false ∧
        t.plans.active = s.plans.active)) ∧
    (∀ i : Byte, may (.planStatus (hdrPlain h) i) 1 false 131 → i.toNat < 4 →
      let x := s.slot i.toNat
      Leads (.planStatus h i) s (Answered s h 0x0307 stOk
        ([(1, if x.built then 1 else 0), (1, if x.built && x.admitted then 1 else 0), (1, x.flags)] ++
          (List.range 8).flatMap (fun j => [(8, (x.figures.getD j (0, 0)).1), (8, (x.figures.getD j (0, 0)).2)])))) ∧
    (∀ (i n k : Byte) (a : BitVec 64) (len : Word), may (.planLoadTable (hdrPlain h) i n k a len) 15 false 4 →
      i.toNat < 4 → n.toNat ≤ 9 →
      (k.toNat ≤ 1 → sectionSize n.toNat < len.toNat →
        Leads (.planLoadTable h i n k a len) s (Refused s h 0x0308 rejParam 11)) ∧
      (len.toNat ≤ sectionSize n.toNat → s.dealer.longs.length < 16 →
        (k.toNat = 0 → s.hostIn a.toNat len.toNat = true → s.modl.pciUp = true →
          Leads (.planLoadTable h i n k a len) s fun t => Answered s h 0x0308 stAccepted [] t ∧ t.plans = s.plans ∧
            Begun s h 0x0308 (.tableLoad i.toNat n.toNat ((s.ordered h 0x0308).hostRead a.toNat len.toNat)) t) ∧
        (k.toNat = 1 → hbmBase ≤ a.toNat → a.toNat + len.toNat ≤ hbmBase + 1024 * hbmLines →
          s.sourceLocked a.toNat len.toNat = true → Leads (.planLoadTable h i n k a len) s fun t =>
            Answered s h 0x0308 stAccepted [] t ∧ t.plans = s.plans ∧ ∃ l : List Byte, l.length = len.toNat ∧
            Begun s h 0x0308 (.tableLoad i.toNat n.toNat l) t) ∧
        (k.toNat = 1 → hbmBase ≤ a.toNat → a.toNat + len.toNat ≤ hbmBase + 1024 * hbmLines →
          s.sourceLocked a.toNat len.toNat = false → s.hbmPoisoned (a.toNat - hbmBase) len.toNat = false →
          Leads (.planLoadTable h i n k a len) s fun t => Answered s h 0x0308 stAccepted [] t ∧ t.plans = s.plans ∧
            Begun s h 0x0308 (.tableLoad i.toNat n.toNat (s.hbmRead (a.toNat - hbmBase) len.toNat)) t) ∧
        (k.toNat = 0 → s.hostIn a.toNat len.toNat = false → Leads (.planLoadTable h i n k a len) s fun t =>
          Replied s h 0x0308 errInternal 0 [(1, 0), (2, srcFabric), (1, 1)] t ∧ t.dealer.longs = s.dealer.longs) ∧
        (k.toNat = 0 → s.hostIn a.toNat len.toNat = true → s.modl.pciUp = false → Leads (.planLoadTable h i n k a len) s fun t =>
          Replied s h 0x0308 errInternal 0 [(1, 0), (2, srcPci), (1, 2)] t ∧ t.dealer.longs = s.dealer.longs))) ∧
    (∀ (b : BitVec 64), may (.trickClose (hdrPlain h) b) 8 false 0 →
      (s.plans.active = none → Leads (.trickClose h b) s (Refused s h 0x0401 rejState 0)) ∧
      (∀ p, s.plans.active = some p →
        (b.toNat % pS p.data ≠ 0 ∨ lastCounter < b.toNat → Leads (.trickClose h b) s (Refused s h 0x0401 rejParam 0)) ∧
        (b.toNat % pS p.data = 0 → b.toNat ≤ lastCounter → pL p.data ≠ 0 →
          Leads (.trickClose h b) s (Refused s h 0x0401 rejState 0)) ∧
        (b.toNat % pS p.data = 0 → b.toNat ≤ lastCounter → pL p.data = 0 →
          let first := max (s.tricks.cur.getD p.d) p.d
          let short := (b.toNat < first + pLmin p.data) ∨ ∃ c ∈ s.closeBoundaries,
            (c < b.toNat ∧ b.toNat < c + pLmin p.data) ∨ (b.toNat < c ∧ c < b.toNat + pLmin p.data)
          (first < b.toNat → short → Leads (.trickClose h b) s (Refused s h 0x0401 rejParam 0)) ∧
          (b.toNat ≤ first ∨ (¬ short ∧ (b.toNat ≤ s.deck.cutT ∨ (∃ q, s.dealer.deal = some q ∧ q.d ≤ b.toNat) ∨
              (s.timeOf b.toNat).all (fun u => decide (u ≤ s.nowNs)) = true)) →
            Leads (.trickClose h b) s (Refused s h 0x0401 rejState 0)) ∧
          (first < b.toNat → ¬ short → s.deck.cutT < b.toNat → (∀ q, s.dealer.deal = some q → b.toNat < q.d) →
            (s.timeOf b.toNat).any (fun t => decide (s.nowNs < t)) = true → s.dealer.longs.length < 16 →
            Leads (.trickClose h b) s fun t => Answered s h 0x0401 stAccepted [] t ∧
              Begun s h 0x0401 (.trickClose b.toNat s.dealer.dsn) t ∧ t.tricks = s.tricks)))) ∧
    (may (.trickStatus (hdrPlain h)) 0 false 28 → Leads (.trickStatus h) s (Answered s h 0x0402 stOk
      [(8, s.tricks.cur.getD (2 ^ 64 - 1)), (8, (s.exportTrick.map (fun (k : Trick) => k.first)).getD (2 ^ 64 - 1)),
       (8, s.rd64 .OUT_RELTRICK), (4, s.unreleased.length)])) ∧
    (∀ ms : BitVec 16, may (.deadlineSet (hdrPlain h) ms) 2 false 0 →
      (0 < ms.toNat → ms.toNat ≤ 1000 → Leads (.deadlineSet h ms) s fun t => Answered s h 0x0403 stOk [] t ∧
        t.rd .CUT_DECKCTL_DEADLINE = ms.toNat ∧
        t.deck = { s.deck with dlHist := (s.nowNs, s.rd .CUT_DECKCTL_DEADLINE) :: s.deck.dlHist }) ∧
      (ms.toNat = 0 ∨ 1000 < ms.toNat → Leads (.deadlineSet h ms) s fun t => Refused s h 0x0403 rejParam 0 t ∧
        t.rd .CUT_DECKCTL_DEADLINE = s.rd .CUT_DECKCTL_DEADLINE))

/-- Tier 2. The Beams and zoom and the Output commands (R354, R230 to R234, R247, R252 to R254, R280, R286, R290,
R292, R297): what they change, what they answer, and where they are refused. The widths of the parameters of HOST_RING
(log 9), the counter from which a zoom change counts (log 13), that a source is read when the command is ordered (log
16), and the rounding of figures (log 25) are the model's choices. -/
def Obligations.BeamAndOutputCommands : Prop :=
  ∀ (s : State) (h : Hdr),
    let may := CmdMay s h
    let idle := s.weightOps = []
    let starts := fun k : Nat => !s.unlockDue.setLocked k (s.shadowSet k)
    (∀ (k n : Byte) (g : WeightGeom) (off len : Word) (a : BitVec 64) (l : List Byte),
      may (.weightWrite (hdrPlain h) k g off len n a l) (18 + geoLen g + l.length) false 16 → k.toNat ≤ 1 →
      geoBad k.toNat g = none → n.toNat ≤ 2 → l.length = (if n.toNat = 0 then len.toNat else 0) → s.dealer.longs.length < 16 →
      let size := geoSize k.toNat g
      let fits := k.toNat = 1 ∨ size ≤ s.tableRoom * 2 ^ 20
      let w : WeightCmd := { copy := false, kind := k.toNat, phys := s.shadowSet k.toNat, geo := some g, off := off.toNat, data := l
                             running := starts k.toNat, dsn := s.dealer.dsn }
      let old := (s.ordered h 0x0501).hostRead a.toNat len.toNat
      (size < off.toNat + len.toNat → Leads (.weightWrite h k g off len n a l) s fun t =>
        Refused s h 0x0501 rejParam (1 + geoLen g) t ∧ t.beams = s.beams ∧ t.hbm = s.hbm) ∧
      (off.toNat + len.toNat ≤ size → s.kindAlloc k.toNat = false → Leads (.weightWrite h k g off len n a l) s
        (Refused s h 0x0501 rejState 0)) ∧
      (off.toNat + len.toNat ≤ size → s.kindAlloc k.toNat = true → ¬ fits → Leads (.weightWrite h k g off len n a l) s
        (Replied s h 0x0501 rejBudget 8 [(8, mib size), (8, s.tableRoom)])) ∧
      (off.toNat + len.toNat ≤ size → s.kindAlloc k.toNat = true → fits → idle →
        (n.toNat = 0 → Leads (.weightWrite h k g off len n a l) s fun t => Answered s h 0x0501 stAccepted [(1, w.phys)] t ∧
          Begun s h 0x0501 (.weight w) t ∧ t.on .BMF_STAT_WBUSY = true ∧ t.hbm = s.hbm) ∧
        (n.toNat = 1 → s.hostIn a.toNat len.toNat = true → s.modl.pciUp = true → Leads (.weightWrite h k g off len n a l) s fun t =>
          Answered s h 0x0501 stAccepted [(1, w.phys)] t ∧ Begun s h 0x0501 (.weight { w with data := old }) t) ∧
        (n.toNat = 2 → hbmBase ≤ a.toNat → a.toNat + len.toNat ≤ hbmBase + 1024 * hbmLines →
          s.sourceLocked a.toNat len.toNat = false → s.hbmPoisoned (a.toNat - hbmBase) len.toNat = false → Leads (.weightWrite h k g off len n a l) s fun t =>
          Answered s h 0x0501 stAccepted [(1, w.phys)] t ∧
          Begun s h 0x0501 (.weight { w with data := s.hbmRead (a.toNat - hbmBase) len.toNat }) t))) ∧
    (∀ k : Byte, may (.weightCopy (hdrPlain h) k) 1 false 1 → k.toNat ≤ 1 →
      let w : WeightCmd := { copy := true, kind := k.toNat, phys := s.shadowSet k.toNat, geo := none, off := 0, data := []
                             running := starts k.toNat, dsn := s.dealer.dsn }
      (s.kindAlloc k.toNat = false → Leads (.weightCopy h k) s (Refused s h 0x0502 rejState 0)) ∧
      (s.kindAlloc k.toNat = true → s.dealer.longs.length < 16 →
        (idle → Leads (.weightCopy h k) s fun t => Answered s h 0x0502 stAccepted [(1, w.phys)] t ∧
          Begun s h 0x0502 (.weight w) t ∧ t.on .BMF_STAT_WBUSY = true) ∧
        (s.weightOps.head?.any (fun x => x.2.running) = true → Leads (.weightCopy h k) s fun t =>
          Begun s h 0x0502 (.weight { w with running := false }) t))) ∧
    (∀ (k : Byte) (d : BitVec 64), may (.weightDeal (hdrPlain h) k d) 9 false 0 →
      let onGrid := (s.planDataAt d.toNat).all (fun x => d.toNat % pS x == 0) && decide (d.toNat < lastCounter)
      let sets := (!bitOf k.toNat 0 || s.kindAlloc 0) && (!bitOf k.toNat 1 || s.kindAlloc 1)
      let inTime := (s.timeOf d.toNat).any (fun t => decide (s.nowNs + 50000000 ≤ t))
      (k.toNat = 0 ∨ 3 < k.toNat → Leads (.weightDeal h k d) s (Refused s h 0x0503 rejParam 0)) ∧
      (0 < k.toNat → k.toNat ≤ 3 →
        (onGrid = false → Leads (.weightDeal h k d) s (Refused s h 0x0503 rejParam 1)) ∧
        (onGrid = true → (sets && inTime) = false → Leads (.weightDeal h k d) s (Refused s h 0x0503 rejState 0)) ∧
        (onGrid = true → (sets && inTime) = true → s.weightDeal ≠ none → Leads (.weightDeal h k d) s (Refused s h 0x0503 rejBusy 0)) ∧
        (onGrid = true → (sets && inTime) = true → s.weightDeal = none → s.dealer.longs.length < 16 →
          Leads (.weightDeal h k d) s fun t => Answered s h 0x0503 stAccepted [] t ∧
            Begun s h 0x0503 (.weightDeal k.toNat d.toNat) t ∧ t.on .BMF_STAT_PEND = true ∧ t.rd64 .BMF_DEALCNT = d.toNat ∧
            t.beams = s.beams))) ∧
    (∀ (k : Byte) (q : ZoomSettings) (c : BitVec 64), may (.zoomChange (hdrPlain h) k q c) 18 false 16 → k.toNat < 64 →
      let x := s.zslot k.toNat
      let load := (Q.ofNat ((List.range 64).filter (fun i => (s.zslot i).inUse || i == k.toNat)).length).mul s.fch
      let bad := zoomBad (s.plans.active.map (fun p => p.data)) q
      (∀ o, bad = some o → Leads (.zoomChange h k q c) s (Refused s h 0x0504 rejParam o)) ∧
      (bad = none → s.plans.active = none → Leads (.zoomChange h k q c) s (Refused s h 0x0504 rejState 0)) ∧
      (bad = none → s.plans.active ≠ none →
        (x.pend ≠ none ∨ x.fade ≠ 0 ∨ x.redo ≠ [] → Leads (.zoomChange h k q c) s (Refused s h 0x0504 rejBusy 0)) ∧
        (x.pend = none → x.fade = 0 → x.redo = [] → s.dealer.longs.length < 16 →
          (x.inUse = false → load.le (.ofNat 51200000) = false → Leads (.zoomChange h k q c) s
            (Replied s h 0x0504 rejBudget 7 [(8, load.ceil), (8, 51200000)])) ∧
          (x.inUse = true ∨ load.le (.ofNat 51200000) = true → Leads (.zoomChange h k q c) s fun t =>
            Answered s h 0x0504 stAccepted [] t ∧ Begun s h 0x0504 (.zoomChange k.toNat q c.toNat) t ∧
            let at_ := if x.inUse then max c.toNat x.fifoAt else c.toNat
            t.zslot k.toNat = x.withChanges [⟨true, q, if x.fedBy q.beam.toNat q.chan.toNat then at_
              else max at_ (s.nextSum q.beam.toNat q.chan.toNat), false⟩])))) ∧
    (∀ (m : Byte) (taps : List Word), may (.zoomCoef (hdrPlain h) m taps) (1 + 4 * taps.length) false 0 → m.toNat < 16 →
      taps.length = 32 →
      (taps.all (fun v => signed 18 v.toNat == signed 32 v.toNat) = true → s.setBusy m.toNat = false →
        Leads (.zoomCoef h m taps) s fun t => Answered s h 0x0505 stOk [] t ∧
          ∀ i : Fin 32, t.tap m.toNat i.val = signed 32 (taps.getD i.val 0).toNat) ∧
      (taps.all (fun v => signed 18 v.toNat == signed 32 v.toNat) = true → s.setBusy m.toNat = true →
        Leads (.zoomCoef h m taps) s fun t => Refused s h 0x0505 rejBusy 0 t ∧ t.on .ZOM_EVT_CWREJ = true ∧
          ∀ i : Fin 32, t.tap m.toNat i.val = s.tap m.toNat i.val) ∧
      (signed 18 (taps.getD 0 0).toNat ≠ signed 32 (taps.getD 0 0).toNat →
        Leads (.zoomCoef h m taps) s (Refused s h 0x0505 rejParam 1))) ∧
    (∀ n : BitVec 64, may (.release (hdrPlain h) n) 8 false 0 →
      (∀ k, s.tricks.closed.find? (fun k => k.first == n.toNat && !k.released) = some k →
        (k.allSummed = true → s.frozen = false → Leads (.release h n) s fun t => Answered s h 0x0601 stOk [] t ∧
          t.rd64 .OUT_RELTRICK = n.toNat ∧ t.tricks.newestRel = some n.toNat) ∧
        (k.allSummed = true → s.frozen = true → Leads (.release h n) s fun t => Refused s h 0x0601 rejBusy 0 t ∧ t.tricks = s.tricks) ∧
        (k.allSummed = false → Leads (.release h n) s fun t => Refused s h 0x0601 rejState 0 t ∧ t.tricks = s.tricks ∧
          t.on .OUT_EVT_RELREJ = true)) ∧
      (s.tricks.closed.find? (fun k => k.first == n.toNat && !k.released) = none →
        s.tricks.newestRel.any (fun x => decide (n.toNat ≤ x)) = false → Leads (.release h n) s fun t =>
          Refused s h 0x0601 rejState 0 t ∧ t.tricks = s.tricks) ∧
      (s.tricks.closed.find? (fun k => k.first == n.toNat && !k.released) = none →
        s.tricks.newestRel.any (fun x => decide (n.toNat ≤ x)) = true →
        (s.frozen = false → Leads (.release h n) s fun t => Answered s h 0x0601 stOk [] t ∧ t.tricks = s.tricks) ∧
        (s.frozen = true → Leads (.release h n) s fun t => Refused s h 0x0601 rejBusy 0 t ∧ t.tricks = s.tricks))) ∧
    (∀ (p : Byte) (n : BitVec 64) (k : Word), may (.resend (hdrPlain h) p n k) 13 false 0 →
      (2 < p.toNat → Leads (.resend h p n k) s (Refused s h 0x0602 rejParam 0)) ∧
      (p.toNat ≤ 2 → k.toNat = 0 → Leads (.resend h p n k) s (Refused s h 0x0602 rejParam 9)) ∧
      (p.toNat ≤ 2 → k.toNat ≠ 0 → (s.part p.toNat).inUse = true →
        (s.retainedRange p.toNat n.toNat k.toNat = none → Leads (.resend h p n k) s (Refused s h 0x0602 rejState 0)) ∧
        (∀ l, s.retainedRange p.toNat n.toNat k.toNat = some l → Leads (.resend h p n k) s fun t =>
          Answered s h 0x0602 stOk [] t ∧ t.on .OUT_EVT_RESEND = true ∧
          (t.part p.toNat).resends = (s.part p.toNat).resends ++ l.map (fun x => { x with flags := x.flags ||| 8 }) ∧
          (t.part p.toNat).queue = (s.part p.toNat).queue))) ∧
    (∀ (n : BitVec 64) (p : Byte), may (.statsSend (hdrPlain h) n p) 9 false 0 → s.dealer.longs.length < 16 →
      (2 < p.toNat → Leads (.statsSend h n p) s (Refused s h 0x0603 rejParam 8)) ∧
      (s.statsStatus n.toNat p.toNat = rejState → Leads (.statsSend h n p) s (Refused s h 0x0603 rejState 0)) ∧
      (s.statsStatus n.toNat p.toNat = rejFull → Leads (.statsSend h n p) s (Refused s h 0x0603 rejFull 0)) ∧
      (s.statsStatus n.toNat p.toNat = stAccepted → Leads (.statsSend h n p) s fun t => Answered s h 0x0603 stAccepted [] t ∧
        Begun s h 0x0603 (.statsSend n.toNat p.toNat) t)) ∧
    (∀ g : Byte, may (.ringSize (hdrPlain h) g) 1 false 0 →
      (g.toNat = 0 ∨ 32 < g.toNat → Leads (.ringSize h g) s fun t => Refused s h 0x0604 rejParam 0 t ∧ t.plans = s.plans) ∧
      (0 < g.toNat → g.toNat ≤ 32 → s.plans.active ≠ none ∨ s.dealer.deal ≠ none → Leads (.ringSize h g) s fun t =>
        Refused s h 0x0604 rejState 0 t ∧ t.plans = s.plans) ∧
      (0 < g.toNat → g.toNat ≤ 32 → s.plans.active = none → s.dealer.deal = none → Leads (.ringSize h g) s fun t =>
        Answered s h 0x0604 stOk [] t ∧ t.plans.ringGib = g.toNat)) ∧
    (∀ (b : BitVec 64) (k : Byte) (w : BitVec 64) (v m : Byte) (u : BitVec 16),
      may (.hostRing (hdrPlain h) b k w v m u) 21 false 0 → 20 ≤ k.toNat → k.toNat ≤ 32 → v.toNat ≤ 63 → m.toNat ≤ 15 →
      (b.toNat % 2 ^ k.toNat ≠ 0 → Leads (.hostRing h b k w v m u) s fun t => Refused s h 0x0605 rejParam 0 t ∧ t.outp = s.outp) ∧
      (b.toNat % 2 ^ k.toNat = 0 → w.toNat % 8 = 0 → u.toNat = 0 → Leads (.hostRing h b k w v m u) s fun t =>
        Refused s h 0x0605 rejParam 19 t ∧ t.rd .OUT_HCTL_MODUS = s.rd .OUT_HCTL_MODUS) ∧
      (b.toNat % 2 ^ k.toNat = 0 → w.toNat % 8 = 0 → 0 < u.toNat → s.on .OUT_HCTL_EN = true → Leads (.hostRing h b k w v m u) s fun t =>
        Refused s h 0x0605 rejState 0 t ∧ t.rd64 .OUT_HBASE = s.rd64 .OUT_HBASE) ∧
      (b.toNat % 2 ^ k.toNat = 0 → w.toNat % 8 = 0 → 0 < u.toNat → s.on .OUT_HCTL_EN = false → Leads (.hostRing h b k w v m u) s fun t =>
        Answered s h 0x0605 stOk [] t ∧ t.rd64 .OUT_HBASE = b.toNat ∧ t.rd .OUT_HSIZE_LOG2 = k.toNat ∧ t.rd64 .OUT_HWB = w.toNat ∧
        t.rd .OUT_HCTL_VEC = v.toNat ∧ t.rd .OUT_HCTL_MODK = m.toNat ∧ t.rd .OUT_HCTL_MODUS = u.toNat))

/-- Tier 2. The Time and references commands (R354, R370 to R374, R40, R41, R392, R396, R397): what they set, and
where they are refused with nothing set. The PTP time that an aligned TIME_SET takes is log 17. -/
def Obligations.TimeAndReferenceCommands : Prop :=
  ∀ (s : State) (h : Hdr),
    let may := CmdMay s h
    (∀ (sec : BitVec 64) (ns : Word), may (.timeSet (hdrPlain h) sec ns) 12 true 0 →
      (2 ^ 48 ≤ sec.toNat → Leads (.timeSet h sec ns) s fun t => Refused s h 0x0701 rejParam 0 t ∧ t.timeb = s.timeb) ∧
      (sec.toNat < 2 ^ 48 → 1000000000 ≤ ns.toNat → ns.toNat ≠ 0xFFFFFFFF → Leads (.timeSet h sec ns) s fun t =>
        Refused s h 0x0701 rejParam 8 t ∧ t.timeb = s.timeb) ∧
      (sec.toNat < 2 ^ 48 → ns.toNat < 1000000000 → s.on .TIM_STAT_SET = true → Leads (.timeSet h sec ns) s fun t =>
        Refused s h 0x0701 rejState 0 t ∧ t.timeb = s.timeb) ∧
      (sec.toNat < 2 ^ 48 → ns.toNat < 1000000000 → s.on .TIM_STAT_SET = false → Leads (.timeSet h sec ns) s fun t =>
        Answered s h 0x0701 stOk [] t ∧ t.timeb.sec = sec.toNat ∧ t.timeb.ns = ns.toNat ∧ t.on .TIM_STAT_SET = true ∧
        t.on .TIM_EVT_SET = true ∧ t.timeb.map = s.timeb.map ∧
        t.dealer.events.head?.map (fun e => (e.code, e.source, e.arg)) = some (0x0203, transportOf h.src, s.dealer.dsn)) ∧
      (sec.toNat < 2 ^ 48 → ns.toNat = 0xFFFFFFFF → s.refSel = none → Leads (.timeSet h sec ns) s fun t =>
        Refused s h 0x0701 rejState 0 t ∧ t.timeb = s.timeb) ∧
      (∀ r : Fin 2, sec.toNat < 2 ^ 48 → ns.toNat = 0xFFFFFFFF → s.refSel = some r.val → s.on .TIM_STAT_SET = false →
        let v : Int := ((sec.toNat * 1000000000 : Nat) : Int) * 2 ^ 48 + signed 32 (s.ref .REF_RDELAY_UNITS r.val) * 2 ^ 38 +
          (s.now48 - (s.refx r.val).pps48)
        let recent := (s.refx r.val).ppsAt.any (fun t => decide (s.clock < t + 20000000))
        (recent = true → Leads (.timeSet h sec ns) s fun t => Refused s h 0x0701 rejBusy 0 t ∧ t.timeb = s.timeb) ∧
        (recent = false → 0 ≤ v → v < 2 ^ 96 * 1000000000 → Leads (.timeSet h sec ns) s fun t =>
          Answered s h 0x0701 stOk [] t ∧ t.now48 = v ∧ t.on .TIM_STAT_SET = true)) ∧
      (ns.toNat = 0xFFFFFFFF → s.refSel = some 2 → sec.toNat < 2 ^ 48 →
        let v : Int := (s.timeb.ptp.syncPtpNs : Int) + ((s.clock - s.timeb.ptp.syncAt : Nat) : Int) - s.timeb.eps * 1000000000
        (sec.toNat ≠ 0 → Leads (.timeSet h sec ns) s fun t => Refused s h 0x0701 rejParam 0 t ∧ t.timeb = s.timeb) ∧
        (sec.toNat = 0 → s.on .TIM_STAT_SET = true ∨ s.rd .PTP_STAT_PSTATE ≠ 9 → Leads (.timeSet h sec ns) s fun t =>
          Refused s h 0x0701 rejState 0 t ∧ t.timeb = s.timeb) ∧
        (sec.toNat = 0 → s.on .TIM_STAT_SET = false → s.rd .PTP_STAT_PSTATE = 9 → 0 ≤ v → v < 2 ^ 48 * 1000000000 →
          Leads (.timeSet h sec ns) s fun t =>
            Answered s h 0x0701 stOk [] t ∧ (t.nowNs : Int) = v ∧ t.timeb.frac = 0 ∧ t.on .TIM_STAT_SET = true))) ∧
    (∀ (eps sec : BitVec 64) (ns : Word), may (.reEpoch (hdrPlain h) eps sec ns) 20 false 0 → sec.toNat < 2 ^ 48 →
      ns.toNat < 1000000000 →
      (s.plans.active ≠ none ∨ s.tricks.cur ≠ none → Leads (.reEpoch h eps sec ns) s fun t =>
        Refused s h 0x0702 rejState 0 t ∧ t.timeb = s.timeb) ∧
      (s.plans.active = none → s.tricks.cur = none → s.dealer.deal ≠ none ∨ s.weightDeal ≠ none →
        Leads (.reEpoch h eps sec ns) s fun t => Refused s h 0x0702 rejBusy 0 t ∧ t.timeb = s.timeb) ∧
      (s.plans.active = none → s.tricks.cur = none → s.dealer.deal = none → s.weightDeal = none →
        Leads (.reEpoch h eps sec ns) s fun t => Answered s h 0x0702 stOk [] t ∧ t.timeb.eps = signed 64 eps.toNat ∧
          t.rd64 .TIM_EPOCH = eps.toNat ∧ t.timeb.map = none ∧ t.on .TIM_STAT_MAPSET = false ∧ t.timeb.sec = sec.toNat ∧
          t.timeb.ns = ns.toNat ∧ t.on .TIM_STAT_SET = true ∧ t.on .TIM_EVT_EPOCH = true)) ∧
    (∀ (sec : BitVec 64) (ns p q : Word), may (.mapSet (hdrPlain h) sec ns p q) 20 false 0 → sec.toNat < 2 ^ 48 →
      ns.toNat < 1000000000 →
      (q.toNat = 0 → Leads (.mapSet h sec ns p q) s fun t => Refused s h 0x0703 rejParam 16 t ∧ t.timeb = s.timeb) ∧
      (0 < q.toNat → p.toNat < 16 * q.toNat ∨ 1000000 * q.toNat < p.toNat → Leads (.mapSet h sec ns p q) s fun t =>
        Refused s h 0x0703 rejParam 12 t ∧ t.timeb = s.timeb) ∧
      (0 < q.toNat → 16 * q.toNat ≤ p.toNat → p.toNat ≤ 1000000 * q.toNat →
        (s.plans.active ≠ none ∨ s.tricks.cur ≠ none ∨ s.on .TIM_STAT_SET = false → Leads (.mapSet h sec ns p q) s fun t =>
          Refused s h 0x0703 rejState 0 t ∧ t.timeb = s.timeb) ∧
        (s.plans.active = none → s.tricks.cur = none → s.on .TIM_STAT_SET = true →
          (s.dealer.deal ≠ none ∨ s.weightDeal ≠ none → Leads (.mapSet h sec ns p q) s fun t =>
            Refused s h 0x0703 rejBusy 0 t ∧ t.timeb = s.timeb) ∧
          (s.dealer.deal = none → s.weightDeal = none → Leads (.mapSet h sec ns p q) s fun t =>
            Answered s h 0x0703 stOk [] t ∧ t.timeb = { s.timeb with map := some ⟨sec.toNat, ns.toNat, p.toNat, q.toNat⟩ } ∧
            t.on .TIM_STAT_MAPSET = true)))) ∧
    (∀ l : List Byte, may (.refCfg (hdrPlain h) l) 68 true 0 →
      (∀ o, refCfgBad l = some o → Leads (.refCfg h l) s fun t => Refused s h 0x0704 rejParam o t ∧
        t.rd .REF_CTL_FORCE = s.rd .REF_CTL_FORCE) ∧
      (refCfgBad l = none → Leads (.refCfg h l) s fun t => Answered s h 0x0704 stOk [] t ∧
        t.rd .REF_CTL_FORCE = fieldAt l 0 1 ∧ t.rd .REF_CTL_BW = fieldAt l 1 1 ∧ t.rd .REF_CTL_PTPBW = fieldAt l 2 1 ∧
        t.rd .TIM_OUTCTL_CLKOUT = fieldAt l 3 1 ∧ t.rd .REF_DISAG_PPB = fieldAt l 4 2 ∧
        t.on .TIM_OUTCTL_PPSEN = bitOf (fieldAt l 6 1) 0 ∧ t.on .TIM_OUTCTL_FRMEN = bitOf (fieldAt l 6 1) 1 ∧
        t.on .TIM_OUTCTL_STEER = bitOf (fieldAt l 6 1) 2 ∧ t.rd .TIM_SLEW_PPB = fieldAt l 8 4 ∧
        t.rd .TIM_FPERIOD_NS = fieldAt l 12 4 ∧ t.rd .TIM_FOFFSET_NS = fieldAt l 16 4 ∧
        t.clkOut = s.clkOut ∧ t.ref .REF_CTL_FORCE = s.ref .REF_CTL_FORCE ∧ t.bestRef = s.bestRef ∧
        ∀ r : Fin 3, t.rd .REF_RCFG_EN r.val = fieldAt l (20 + 16 * r.val) 1 ∧ t.rd .REF_RCFG_RANK r.val = fieldAt l (21 + 16 * r.val) 1 ∧
          t.rd .REF_RCFG_WINDOW r.val = fieldAt l (22 + 16 * r.val) 2 ∧ t.rd .REF_RCFG_WTR r.val = fieldAt l (24 + 16 * r.val) 2 ∧
          t.rd .REF_RDELAY_UNITS r.val = fieldAt l (28 + 16 * r.val) 4)) ∧
    (∀ a : Word, may (.phaseStep (hdrPlain h) a) 4 true 0 →
      let phi := signed 32 (s.rd .TIM_PHASE_PHI) + signed 32 a.toNat
      ((signed 32 a.toNat).natAbs ≤ 512000 → phi.natAbs ≤ 2 ^ 30 → Leads (.phaseStep h a) s fun t =>
        Answered s h 0x0705 stOk [] t ∧ signed 32 (t.rd .TIM_PHASE_PHI) = phi ∧ t.on .TIM_EVT_PHASE = true ∧
        t.timeb = { s.timeb with phase := some ⟨s.now48, s.ppsEdge, s.frameEdge⟩ }) ∧
      (512000 < (signed 32 a.toNat).natAbs ∨ 2 ^ 30 < phi.natAbs → Leads (.phaseStep h a) s fun t =>
        Refused s h 0x0705 rejParam 0 t ∧ t.rd .TIM_PHASE_PHI = s.rd .TIM_PHASE_PHI)) ∧
    (∀ l : List Byte, may (.ptpCfg (hdrPlain h) l) 32 true 0 →
      (∀ o, ptpCfgBad l = some o → Leads (.ptpCfg h l) s fun t => Refused s h 0x0706 rejParam o t ∧ t.timeb = s.timeb) ∧
      (ptpCfgBad l = none → Leads (.ptpCfg h l) s fun t => Answered s h 0x0706 stOk [] t ∧
        t.rd .PTP_CTL_PORT = (if fieldAt l 0 1 = 0xFF then 3 else fieldAt l 0 1) ∧
        t.rd .PTP_STAT_PSTATE = (if fieldAt l 0 1 = 0xFF then 3 else 4) ∧ t.on .PTP_CTL_TCEN = bitOf (fieldAt l 5 1) 0 ∧
        t.rd .PTP_STAT_DOMAIN = fieldAt l 1 1 ∧ t.timeb.ptp.rank = none ∧ t.timeb.ptp.domain = fieldAt l 1 1 ∧
        t.timeb.ptp.major = fieldAt l 2 1 % 16 ∧ t.timeb.ptp.minor = fieldAt l 3 1 ∧ t.timeb.ptp.cfg = l ∧
        t.timeb.ptp.logReq = signed 8 (fieldAt l 6 1)))

/-- Tier 2. The Memory, the Faults and the service commands (R354, R12, R436 to R438, R472, R476, R478, R483, R342):
what they answer and set, and where they are refused. The reply of a REG_READ that fails (log 33), for which master
the accesses of REG_READ and REG_WRITE are made (log 43), and that SELFTEST takes every block number (log 47) are the
model's choices. -/
def Obligations.MemoryFaultAndServiceCommands : Prop :=
  ∀ (s : State) (h : Hdr),
    let may := CmdMay s h
    (∀ first n : BitVec 16, may (.ledgerRead (hdrPlain h) first n) 4 false (256 * n.toNat) →
      let ok := 0 < n.toNat ∧ n.toNat ≤ 64 ∧ first.toNat + n.toNat ≤ 65536 ∧ (hdrOverMgmt h = true → n.toNat ≤ 5)
      (ok → Leads (.ledgerRead h first n) s fun t => Answered s h 0x0801 stOk
        ((List.range (256 * n.toNat)).map (fun i => (1, (tget 0 s.ledger.mem (256 * first.toNat + i)).toNat))) t ∧
        t.ledger = s.ledger) ∧
      (¬ ok → Leads (.ledgerRead h first n) s (Refused s h 0x0801 rejParam 2))) ∧
    (∀ k : Byte, may (.memStatus (hdrPlain h) k) 1 false 48 →
      (k.toNat < 6 → Leads (.memStatus h k) s fun t => Answered s h 0x0802 stOk
        [(1, s.rd .HBM_SSTAT_STATE k.toNat), (1, s.rd .HBM_SSTAT_HOT k.toNat + 2 * s.rd .HBM_SSTAT_THROTTLE k.toNat +
            (if s.catching k.toNat then 4 else 0)),
         (1, s.rd .HBM_STEMP_TJ k.toNat), (1, s.rd .HBM_STEMP_MAXTJ k.toNat), (4, s.rd .HBM_SPCRET_MAP k.toNat),
         (2, s.rd .HBM_SREPAIR_ROWS k.toNat), (2, s.rd .HBM_SREPAIR_SPARE k.toNat),
         (2, (s.hbm.marked.filter (fun m => m.1 / 32 == k.toNat)).length), (2, 0), (8, s.memTotal k.toNat 0),
         (8, s.memTotal k.toNat 1), (8, s.memTotal k.toNat 2), (4, s.memTotal k.toNat 3), (1, s.rd .HBM_GSTAT_PARITY),
         (1, if s.rd .HBM_GSTAT_LOST = 7 then 0xFF else s.rd .HBM_GSTAT_LOST), (2, 0)] t ∧ t.hbm = s.hbm) ∧
      (6 ≤ k.toNat → Leads (.memStatus h k) s (Refused s h 0x0802 rejParam 0))) ∧
    (∀ l : List Byte, may (.memCfg (hdrPlain h) l) 8 false 0 → l.length = 8 →
      let n := fieldAt l 0 1
      let i := fieldAt l 4 4
      (6 ≤ n → n ≤ 13 → 100 ≤ i → i ≤ 1000000 → Leads (.memCfg h l) s fun t => Answered s h 0x0803 stOk [] t ∧
        t.rd .HBM_GCTL_NREXP = n ∧ t.rd .SPD_PATROL_INTERVAL = i ∧ t.on .SPD_PATROL_EN = bitOf (fieldAt l 1 1) 0) ∧
      (n < 6 ∨ 13 < n → Leads (.memCfg h l) s fun t => Refused s h 0x0803 rejParam 0 t ∧
        t.rd .HBM_GCTL_NREXP = s.rd .HBM_GCTL_NREXP) ∧
      (6 ≤ n → n ≤ 13 → i < 100 ∨ 1000000 < i → Leads (.memCfg h l) s fun t => Refused s h 0x0803 rejParam 4 t ∧
        t.rd .SPD_PATROL_INTERVAL = s.rd .SPD_PATROL_INTERVAL)) ∧
    (∀ n : BitVec 16, may (.faultRead (hdrPlain h) n) 2 true 128 →
      let cap := fun c => match s.capture n.toNat c with | some x => leVal (x.bytes c) | none => 0
      (srcOk n.toNat = true → Leads (.faultRead h n) s fun t => Answered s h 0x0901 stOk
        [(2, n.toNat), (1, (s.reaction n.toNat 0).byte), (1, (s.reaction n.toNat 1).byte), (1, (s.reaction n.toNat 2).byte), (3, 0),
         (40, cap 0), (40, cap 1), (40, cap 2)] t ∧ (AnswerReaches s h → t.flt = s.flt)) ∧
      (srcOk n.toNat = false → Leads (.faultRead h n) s (Refused s h 0x0901 rejParam 0))) ∧
    (∀ (n : BitVec 16) (c : Byte), may (.faultAck (hdrPlain h) n c) 3 true 0 → srcOk n.toNat = true →
      (∀ x, c.toNat ≤ 2 → s.capture n.toNat c.toNat = some x → Leads (.faultAck h n c) s fun t =>
        Answered s h 0x0902 stOk [] t ∧ t.capture n.toNat c.toNat = none ∧ (AnswerReaches s h → t.flt.waiting = s.flt.waiting) ∧
        (t.dealer.events.head?.map (fun e => (e.code, e.source, e.arg))) = some (0x0103, n.toNat, 256 * c.toNat + 65536 * x.count) ∧
        (0 < c.toNat → s.on .LGR_STAT_RO = false → s.ledger.ro = false →
          t.ledger.pend.getLast?.map (fun r => (r.type, r.key, r.dsn)) = some (8, n.toNat, s.dealer.dsn + 1))) ∧
      (c.toNat ≤ 2 → s.capture n.toNat c.toNat = none → Leads (.faultAck h n c) s fun t => Answered s h 0x0902 stOk [] t ∧
        (AnswerReaches s h → t.flt = s.flt)) ∧
      (2 < c.toNat → Leads (.faultAck h n c) s fun t => Refused s h 0x0902 rejParam 2 t ∧ (AnswerReaches s h → t.flt = s.flt))) ∧
    (∀ (n : BitVec 16) (c lv e : Byte), may (.reactionSet (hdrPlain h) n c lv e) 5 true 0 →
      let r : Reaction := ⟨bitsOf lv.toNat 0 3, bitsOf lv.toNat 3 2, bitOf e.toNat 0⟩
      (reactBad n.toNat c.toNat r.level r.target = none → Leads (.reactionSet h n c lv e) s fun t =>
        Answered s h 0x0905 stOk [] t ∧ t.reaction n.toNat c.toNat = r ∧ t.flt.caps = s.flt.caps ∧
        ∀ m d : Nat, 4 * m + d ≠ 4 * n.toNat + c.toNat → t.reaction m d = s.reaction m d) ∧
      (∀ o, reactBad n.toNat c.toNat r.level r.target = some o → Leads (.reactionSet h n c lv e) s fun t =>
        Refused s h 0x0905 rejParam o t ∧ t.flt.reacts = s.flt.reacts)) ∧
    (∀ (a : Word) (n : BitVec 16), may (.regRead (hdrPlain h) a n) 6 true (4 * n.toNat) →
      let r := (s.ordered h 0x0B01).readRegs (regOffset a.toNat) n.toNat
      (0 < n.toNat → n.toNat ≤ 64 → r.2.2 = none → Leads (.regRead h a n) s
        (Answered s h 0x0B01 stOk (r.2.1.map (fun v => (4, v))))) ∧
      (∀ o, 0 < n.toNat → n.toNat ≤ 64 → r.2.2 = some o → Leads (.regRead h a n) s fun t =>
        Replied s h 0x0B01 errInternal 0 [(1, 0), (2, srcFabric), (1, 1)] t ∧
        (AnswerReaches s h → t.flt.waiting = mergeWaiting (mkFault srcFabric 1 1 (0x20000000 + o) 1 0) s.flt.waiting)) ∧
      (n.toNat = 0 ∨ 64 < n.toNat → Leads (.regRead h a n) s (Refused s h 0x0B01 rejParam 4))) ∧
    (∀ a v : Word, may (.regWrite (hdrPlain h) a v) 8 true 4 →
      let o := regOffset a.toNat
      (hdrOverMgmt h = true → s.lcs = 2 → Leads (.regWrite h a v) s fun t =>
        Refused s h 0x0B02 rejAuth 0 t ∧ SameWords (fun x => eventWord x || x == Fld.DLR_CMDCNT_COUNT.at 0) s t) ∧
      (hdrLocal h = true ∨ s.lcs ≠ 2 →
        (∀ r, regRow o = some r → o % 4 = 0 → r.rw = 0 → r.wo = 0 → eventWord o = false → o ≠ Fld.DLR_CMDCNT_COUNT.at 0 →
          (∀ q, h.src ≠ .qp q) → Leads (.regWrite h a v) s fun t => Answered s h 0x0B02 stOk [] t ∧
            t.word o = s.word o &&& ~~~(v &&& BitVec.ofNat 32 r.w1c)) ∧
        (o = 0x400008 → Leads (.regWrite h a v) s fun t => Answered s h 0x0B02 stOk [] t ∧
          t.rd .VSN_RETAIN_SECONDS = (if 10 ≤ v.toNat % 2 ^ 17 ∧ v.toNat % 2 ^ 17 ≤ 86400 then v.toNat % 2 ^ 17
            else s.rd .VSN_RETAIN_SECONDS)) ∧
        (o % 4 ≠ 0 ∨ regRow o = none → Leads (.regWrite h a v) s fun t =>
          Replied s h 0x0B02 errInternal 0 [(1, 0), (2, srcFabric), (1, 1)] t ∧
          (AnswerReaches s h → t.flt.waiting = mergeWaiting (mkFault srcFabric 1 1 (0x20000000 + o) 1 1) s.flt.waiting)))) ∧
    (∀ b : Byte, may (.selftest (hdrPlain h) b) 1 false 0 →
      (s.dealer.longs.length < 16 → Leads (.selftest h b) s fun t => Answered s h 0x0B03 stAccepted [] t ∧
        Begun s h 0x0B03 (.selftest b.toNat) t) ∧
      (16 ≤ s.dealer.longs.length → Leads (.selftest h b) s (Refused s h 0x0B03 rejBusy 0)))

/-- Tier 2. Customer keys, output kernels, and the end of a kernel load, a firmware commit and a self-test (R325 to
R328, R352, R354, R426, R432, R520): what is stored, and every refusal with nothing stored. The fields of a failed
SELFTEST's completion (log 9), and that OPEN does not check the KEYID (log 23) are the model's choices. -/
def Obligations.KeyAndKernelCommands : Prop :=
  ∀ (s : State),
    (∀ (h : Hdr) (n : Byte) (l : List Byte), CmdMay s h (.keyEnrol (hdrPlain h) n l) (1 + l.length) false 0 →
      let m := s.rd .ENG_KSTAT_KEYS
      (hdrLocal h = false ∨ s.on .ENG_KSTAT_KEYLOCK = true → Leads (.keyEnrol h n l) s fun t =>
        Refused s h 0x0A01 rejAuth 0 t ∧ t.sec = s.sec) ∧
      (hdrLocal h = true → s.on .ENG_KSTAT_KEYLOCK = false → n.toNat < 8 → l.length = 32 →
        (s.on .SPD_SECSTAT_FAIL = true → Leads (.keyEnrol h n l) s fun t => Refused s h 0x0A01 rejState 0 t ∧ t.sec = s.sec) ∧
        (s.on .SPD_SECSTAT_FAIL = false → s.on .SPD_SECSTAT_WIPING = true → Leads (.keyEnrol h n l) s fun t =>
          Refused s h 0x0A01 rejBusy 0 t ∧ t.sec = s.sec) ∧
        (s.on .SPD_SECSTAT_FAIL = false → s.on .SPD_SECSTAT_WIPING = false → bitOf m n.toNat = true → Leads (.keyEnrol h n l) s fun t =>
          Refused s h 0x0A01 rejFull 0 t ∧ t.sec = s.sec) ∧
        (s.on .SPD_SECSTAT_FAIL = false → s.on .SPD_SECSTAT_WIPING = false → bitOf m n.toNat = false → Leads (.keyEnrol h n l) s fun t =>
          Answered s h 0x0A01 stOk [] t ∧ tget [] t.sec.keys n.toNat = l ∧ t.rd .ENG_KSTAT_KEYS = m + 2 ^ n.toNat ∧
          t.on .ENG_KEVT_ENROL = true ∧ (s.on .LGR_STAT_RO = false → s.ledger.ro = false →
            t.ledger.pend.getLast?.map (fun r => (r.type, r.dsn)) = some (7, s.dealer.dsn))))) ∧
    (∀ h : Hdr, CmdMay s h (.keyLock (hdrPlain h)) 0 false 0 →
      (hdrLocal h = false → Leads (.keyLock h) s fun t => Refused s h 0x0A02 rejAuth 0 t ∧
        t.on .ENG_KSTAT_KEYLOCK = s.on .ENG_KSTAT_KEYLOCK) ∧
      (hdrLocal h = true → Leads (.keyLock h) s fun t => Answered s h 0x0A02 stOk [] t ∧ t.on .ENG_KSTAT_KEYLOCK = true ∧
        t.sec = s.sec ∧ (s.on .LGR_STAT_RO = false → s.ledger.ro = false → t.ledger.pend.getLast?.map (fun r => (r.type, r.dsn)) = some (7, s.dealer.dsn)))) ∧
    (∀ (h : Hdr) (k : Byte) (l : List Byte), CmdMay s h (.kernelLoad (hdrPlain h) k l) (1 + l.length) false 0 →
      let bad := kernelBad l (s.lcs = 1)
      (s.lcs = 2 → 17 ≤ l.length → s.keyKnown l = false → Leads (.kernelLoad h k l) s fun t =>
        Refused s h 0x0A03 rejAuth 0 t ∧ t.on .ENG_KEVT_LOADREJ = true ∧ t.modl.kernels = s.modl.kernels) ∧
      (s.lcs ≠ 2 ∨ s.keyKnown l = true ∨ l.length < 17 →
        (3 < k.toNat → Leads (.kernelLoad h k l) s fun t => Refused s h 0x0A03 rejParam 0 t ∧ t.modl.kernels = s.modl.kernels) ∧
        (∀ o, k.toNat ≤ 3 → bad = some o → Leads (.kernelLoad h k l) s fun t =>
          Refused s h 0x0A03 rejParam (1 + o) t ∧ t.on .ENG_KEVT_LOADREJ = true ∧ t.modl.kernels = s.modl.kernels) ∧
        (k.toNat ≤ 3 → bad = none → s.lcs ≠ 1 → s.lcs ≠ 2 → Leads (.kernelLoad h k l) s fun t =>
          Refused s h 0x0A03 rejState 0 t ∧ t.on .ENG_KEVT_LOADREJ = true) ∧
        (k.toNat ≤ 3 → bad = none → s.lcs = 1 ∨ s.lcs = 2 → s.on .SPD_SECSTAT_FAIL = false →
          (s.on .SPD_SECSTAT_WIPING = true ∨ s.kernelNamed k.toNat = true → Leads (.kernelLoad h k l) s (Refused s h 0x0A03 rejBusy 0)) ∧
          (s.on .SPD_SECSTAT_WIPING = false → s.kernelNamed k.toNat = false → s.dealer.longs.length < 16 →
            Leads (.kernelLoad h k l) s fun t => Answered s h 0x0A03 stAccepted [] t ∧
              Begun s h 0x0A03 (.kernelLoad k.toNat l) t ∧ t.modl.kernels = s.modl.kernels)))) ∧
    (∀ (h : Hdr) (k : Byte), CmdMay s h (.kernelErase (hdrPlain h) k) 1 false 0 → k.toNat ≤ 3 →
      (s.kernelNamed k.toNat = true → Leads (.kernelErase h k) s fun t => Refused s h 0x0A04 rejBusy 0 t ∧
        t.modl.kernels = s.modl.kernels) ∧
      (s.kernelNamed k.toNat = false → Leads (.kernelErase h k) s fun t => Answered s h 0x0A04 stOk [] t ∧
        t.modl.kernels = tset [] s.modl.kernels k.toNat [])) ∧
    (∀ (slot : Fin 4) o k l, s.findLong (fun k => match k with | .kernelLoad n _ => n == slot.val | _ => false) = some o →
      o.kind = .kernelLoad k l →
      (s.lcs = 1 ∨ (s.lcs = 2 ∧ s.kernelSigned l = true) → Leads (.kernelLoadComplete slot) s fun t =>
        Ended o stDone s t ∧ t.modl.kernels = tset [] s.modl.kernels k l) ∧
      (¬ (s.lcs = 1 ∨ (s.lcs = 2 ∧ s.kernelSigned l = true)) → Leads (.kernelLoadComplete slot) s fun t =>
        Ended o (if s.lcs = 2 then rejAuth else rejState) s t ∧ t.modl.kernels = s.modl.kernels ∧
          t.on .ENG_KEVT_LOADREJ = true)) ∧
    (∀ o i, s.findLong (fun k => match k with | .fwCommit _ => true | _ => false) = some o → o.kind = .fwCommit i → i ≤ 1 →
      Leads (.fwCommitComplete true) s (fun t => Ended o stDone s t ∧ t.rd .MOD_BOOT_MARKED = i) ∧
      Leads (.fwCommitComplete false) s fun t => Ended o rejAuth s t ∧ t.rd .MOD_BOOT_MARKED = s.rd .MOD_BOOT_MARKED) ∧
    (∀ o, s.findLong (fun k => match k with | .selftest _ => true | _ => false) = some o → ∀ (n : BitVec 16) (kind : Byte),
      Leads (.selftestComplete true n kind) s (fun t => Ended o stDone s t) ∧
      Leads (.selftestComplete false n kind) s fun t => Ended o errInternal s t ∧
        ∃ p, .winos p ∈ newMsgs s t ∧ p.kind = 2 ∧ p.params = [(1, 0), (2, n.toNat), (1, kind.toNat)])

/-! ### The fabric, memories and DMA -/

/-- Tier 2. Fabric accesses that do not wait (R13, R230, R306, R307, R402, R415, R417, R418 to R421, R425, R436, R443 to R447): each region
serves the masters that reach it with its bytes, an atomic of the scratchpad swaps whole words, and a refused access is
answered with an error response and its fault, with nothing read or written. An uncorrectable scratchpad word refuses what meets
it until it is written whole (R417, log 35). An access whose target is not ready, or that comes behind one of its own master, waits;
the host's is judged by the aperture as it arrives (R446). A write or an atomic of port B that collides receives a collision
response (R421). That an access one bank refuses reaches no bank is the model's choice (log 44), and so is the source of a
poisoned line's fault (log 45); in the secure bank the places of the keys, and in the engine windows what nothing of the
engine fills, are its own (log 9). The host's accesses through a BAR are those of the addresses it shows. -/
def Obligations.FabricAccesses : Prop :=
  ∀ (s : State) (a : Access) (l : List Byte), 0 < a.size → l.length = a.size →
    let m := a.master.toNat
    let x := a.addr.toNat
    let ty := if a.fetch then tyFetch else tyRead
    let inside := fun (base size : Nat) => base ≤ x ∧ x + a.size ≤ base + size
    let faultAt := fun (h : Hbm) (d : Spd) (src kind ty : Nat) (t : State) => t.sent = .access m false [] :: s.sent ∧ t.hbm = h ∧
      t.spd = d ∧ t.sec = s.sec ∧ t.ledger = s.ledger ∧ t.engs = s.engs ∧ t.modl = s.modl ∧
      t.flt = s.flt.receive (mkFault src kind 1 x m ty) s.clock
    let fault := faultAt s.hbm s.spd
    let R := fun (P : State → Prop) => s.waits a ty = false → Leads (.fabricRead a) s P
    let W := fun (P : State → Prop) => s.waits a tyWrite = false → Leads (.fabricWrite a l) s P
    let unmapped := fun (ty : Nat) (t : State) => fault srcFabric 1 ty t ∧ t.on .FAB_EVT_UNMAPPED = true ∧
      (s.on .FAB_ERRINFO_VALID = false → t.rd64 .FAB_ERRADDR = x ∧ t.rd .FAB_ERRINFO_MASTER = m ∧ t.rd .FAB_ERRINFO_TYPE = ty)
    let answered := fun (l : List Byte) => s.send (.access m true l)
    (a.bar = none →
    (s.apertureMiss a = false →
      (s.waits a ty = true → Leads (.fabricRead a) s
        (· = { s with fab := { s.fab with held := s.fab.held ++ [{ acc := a, type := ty, data := [] }] } })) ∧
      (s.waits a tyWrite = true → Leads (.fabricWrite a l) s
        (· = { s with fab := { s.fab with held := s.fab.held ++ [{ acc := a, type := tyWrite, data := l }] } }))) ∧
    (masterOk m = false ∨ (m = 3 ∧ s.lcs = 2) ∨ inside 0x100000 0xFF00000 →
      R (unmapped ty) ∧ W (unmapped tyWrite)) ∧
    (masterOk m = true → m ≠ 3 ∨ s.lcs ≠ 2 →
      (inside spdBase spdSize →
        let o := x - spdBase
        let old := tgetMany 0 s.spd.mem o a.size
        let met : Spd := if a.portB = false ∧ a.contended = true then { s.spd with hits := s.spd.hits ++ spdWords o a.size } else s.spd
        let stored := fun (l : List Byte) => { met with
          mem := tsetMany 0 s.spd.mem o l
          bad := s.spd.bad.filter (fun c => !(decide (o ≤ 8 * c.1) && decide (8 * c.1 + 8 ≤ o + a.size))) }
        let spoilt := fun (d : Spd) (w ty : Nat) (t : State) => faultAt s.hbm d (srcBank (w % 64)) 2 ty t ∧ t.on .SPD_EVT_UE = true
        let collides := fun (t : State) => t.sent = .collision m :: s.sent ∧ t.spd = s.spd ∧ t.flt = s.flt ∧
          t.on .SPD_EVT_COLLIDE = true ∧ t.rd .SPD_COLL_COUNT = min (s.rd .SPD_COLL_COUNT + 1) (2 ^ 32 - 1)
        ((banksOf o a.size).all (s.bankServes a) = true →
          (s.badWord o a.size false = none → R (· = answered old)) ∧
          (∀ w, s.badWord o a.size false = some w → R (spoilt s.spd w ty)) ∧
          (∀ w, s.badWord o a.size true = some w → W (spoilt met w tyWrite)) ∧
          (s.badWord o a.size true = none → (a.portB && a.contended) = false →
            W (· = { answered [] with spd := stored l })) ∧
          (s.badWord o a.size true = none → a.portB = true → a.contended = true → W collides) ∧
          ∀ v : BitVec 64, s.waits a tyAdd = false → s.waits a tySwap = false →
            (o % 8 = 0 → a.size = 8 → s.badWord o 8 false = none → (a.portB && a.contended) = false →
              Leads (.atomicAdd a v) s (· = { answered old with spd := stored (leBytes 8 (leVal old + v.toNat)) }) ∧
              Leads (.atomicSwap a v) s (· = { answered old with spd := stored (leBytes 8 v.toNat) })) ∧
            (∀ w, o % 8 = 0 → a.size = 8 → s.badWord o 8 false = some w →
              Leads (.atomicAdd a v) s (spoilt met w tyAdd) ∧ Leads (.atomicSwap a v) s (spoilt met w tySwap)) ∧
            (o % 8 = 0 → a.size = 8 → s.badWord o 8 false = none → a.portB = true → a.contended = true →
              Leads (.atomicAdd a v) s collides ∧ Leads (.atomicSwap a v) s collides) ∧
            (o % 8 ≠ 0 ∨ a.size ≠ 8 → Leads (.atomicAdd a v) s (· = ({ s with spd := met } : State).send (.access m false [])) ∧
              Leads (.atomicSwap a v) s (· = ({ s with spd := met } : State).send (.access m false [])))) ∧
        (∀ b : Fin 64, (banksOf o a.size).find? (fun b => !s.bankServes a b) = some b.val →
          R (fun t => fault (srcBank b.val) 3 ty t ∧ t.on .SPD_EVT_NONOWNER = true) ∧
          W fun t => fault (srcBank b.val) 3 tyWrite t ∧ t.on .SPD_EVT_NONOWNER = true)) ∧
      (inside 0x12000000 0x100000 →
        (m ≠ 1 ∨ a.secure = false → R (fault srcSecure 1 ty) ∧ W (fault srcSecure 1 tyWrite)) ∧
        (m = 1 → a.secure = true →
          R (fun t => t.sent = .access m true (s.secureBytes (x - 0x12000000) a.size) :: s.sent ∧
            t.sec = s.sec) ∧
          W (· = { answered [] with sec := { s.sec with
            mem := tsetMany none s.sec.mem (x - 0x12000000) (l.map some) } }))) ∧
      (inside 0x20000000 0x10000000 →
        (a.size = 4 → ∀ v, (s.readReg m (x - 0x20000000)).map (·.2) = some v → R fun t =>
          t.sent = .access m true (leBytes 4 v.toNat) :: s.sent) ∧
        (a.size = 4 → (s.writeReg m (x - 0x20000000) (BitVec.ofNat 32 (leVal l))).2 = true → W
          (· = (s.writeReg m (x - 0x20000000) (BitVec.ofNat 32 (leVal l))).1.send (.access m true []))) ∧
        (a.size ≠ 4 ∨ x % 4 ≠ 0 ∨ regRow (x - 0x20000000) = none →
          R (fault srcFabric 1 ty) ∧ W (fault srcFabric 1 tyWrite))) ∧
      (inside 0x40000000 (96 * 0x400000) →
        let e := (x - 0x40000000) / 0x400000
        let w := (x - 0x40000000) % 0x400000
        (windowRegion w a.size = none → R (unmapped ty) ∧ W (unmapped tyWrite)) ∧
        (windowRegion w a.size = some 1 →
          R (· = answered (wordBytes (s.core e).x (w - 0x20000) a.size)) ∧
          (s.lcs = 1 ∨ m = 1 → W
            (· = (s.setCore e { s.core e with x := putBytes (s.core e).x (w - 0x20000) l }).send (.access m true []))) ∧
          (s.lcs ≠ 1 → m ≠ 1 → W fun t => fault e 9 tyWrite t ∧ t.on .ENG_KEVT_SANDBOXWR = true)) ∧
        (windowRegion w a.size = some 0 → R (· = answered (tgetMany 0 (s.core e).prog w a.size)) ∧
          (m ≠ 1 → W fun t => fault e 9 tyWrite t ∧ t.on .ENG_KEVT_SANDBOXWR = true))) ∧
      (inside 0x40000000 (96 * 0x400000) →
        let e := (x - 0x40000000) / 0x400000
        let w := (x - 0x40000000) % 0x400000
        (windowRegion w a.size = some 2 →
          R (· = answered (wordBytes (s.core e).y (w - 0x40000) a.size)) ∧
          (s.lcs = 1 ∨ m = 1 → W
            (· = (s.setCore e { s.core e with y := putBytes (s.core e).y (w - 0x40000) l }).send (.access m true [])))) ∧
        (∀ r, 3 ≤ r → windowRegion w a.size = some r →
          (R fun t => ∃ b : List Byte, t.sent = .access m true b :: s.sent ∧ b.length = a.size ∧
            ∀ i v, i < a.size → s.winByte e r (w + i) = some v → b[i]? = some v) ∧
          (m = 1 ∨ 0x10 ≤ m → W (· = (s.windowPut e r w l).send (.access m true []))) ∧
          (m ≠ 1 → m < 0x10 → W fun t => fault e 9 tyWrite t ∧ t.on .ENG_KEVT_SANDBOXWR = true))) ∧
      (inside 0x60000000 0x1000000 →
        (m = 0 ∨ m = 1 ∨ m = 3 → R (· = answered (tgetMany 0 s.ledger.mem (x - 0x60000000) a.size))) ∧
        (m ≠ 0 → m ≠ 1 → m ≠ 3 → R (unmapped ty)) ∧
        W (fault srcLedger 4 tyWrite)) ∧
      (inside hbmBase hbmSize →
        let o := x - hbmBase
        let open_ := s.rd64 .FAB_APBASE ≤ o ∧ o + a.size ≤ s.rd64 .FAB_APBASE + 2 ^ s.rd .FAB_APSIZE_LOG2
        (m ≠ 0 ∨ open_ →
          (s.hbmPoisoned o a.size = false → R (· = (s.linesRead o a.size).send (.access m true (s.hbmRead o a.size)))) ∧
          (s.hbmPoisoned o a.size = true → m ≠ 0 ∨ s.inStats o a.size = false →
            R (faultAt (s.linesRead o a.size).hbm s.spd (linePc o) 5 ty)) ∧
          (s.hbmPoisoned o a.size = true → m = 0 → s.inStats o a.size = true → R fun t =>
            t.sent = .access m true (withSat o (s.hbmRead o a.size)) :: s.sent ∧
            t.flt = s.flt.receive (mkFault srcOutput 4 1 0) s.clock) ∧
          (s.touchesWeights o a.size = false → W (· = (s.hbmWrite o l).send (.access m true []))) ∧
          (s.touchesWeights o a.size = true → W fun t =>
            fault srcBeams 4 tyWrite t ∧ t.on .BMF_EVT_APERT = true)) ∧
        (m = 0 → ¬ open_ → Leads (.fabricRead a) s (unmapped ty) ∧ Leads (.fabricWrite a l) s (unmapped tyWrite))) ∧
      (inside 0x8000000000 (2 ^ 39) →
        let host := s.rd64 .FAB_OBBASE + (x - 0x8000000000)
        (m = 0 → R (unmapped ty)) ∧
        (m ≠ 0 → s.modl.pciUp = true → R (· = answered (s.hostRead host a.size)) ∧
          W (· = (s.hostWrite host l).send (.access m true []))) ∧
        (m ≠ 0 → s.modl.pciUp = false → R (fault srcPci 2 ty) ∧ W (fault srcPci 2 tyWrite))))) ∧
    (∀ w, a.bar = some w →
      let host := fun (x : Nat) => { a with master := 0, addr := BitVec.ofNat 40 x, bar := none }
      let shows := fun (x : Nat) => exec (.fabricRead a) s = exec (.fabricRead (host x)) s ∧
        exec (.fabricWrite a l) s = exec (.fabricWrite (host x) l) s ∧
        (∀ v, exec (.atomicAdd a v) s = exec (.atomicAdd (host x) v) s ∧ exec (.atomicSwap a v) s = exec (.atomicSwap (host x) v) s) ∧
        ∀ last, exec (.lockedRead a last) s = exec (.lockedRead (host x) last) s ∧
          exec (.lockedWrite a l last) s = exec (.lockedWrite (host x) l last) s
      let nothing := fun (ty : Nat) (t : State) => t.sent = .access 0 false [] :: s.sent ∧ t.on .FAB_EVT_UNMAPPED = true ∧
        (∃ y, t.flt = s.flt.receive (mkFault srcFabric 1 1 y 0 ty) s.clock) ∧
        t.hbm = s.hbm ∧ t.spd = s.spd ∧ t.sec = s.sec ∧ t.ledger = s.ledger ∧ t.engs = s.engs ∧ t.modl = s.modl
      let ends := x + a.size
      (w = .bar0 → (ends ≤ 2 ^ 28 → shows (0x20000000 + x)) ∧
        (2 ^ 28 < ends → Leads (.fabricRead a) s (nothing ty) ∧ Leads (.fabricWrite a l) s (nothing tyWrite))) ∧
      (w = .bar2 → (ends ≤ 0x2000000 → shows (0x10000000 + x)) ∧
        (0x2000000 ≤ x → ends ≤ 0x2100000 → shows (0x12000000 + (x - 0x2000000))) ∧
        (0x3000000 ≤ x → ends ≤ 0x4000000 → shows (0x60000000 + (x - 0x3000000))) ∧
        (0x2000000 < ends → x < 0x2000000 ∨ 0x2100000 < ends → x < 0x3000000 ∨ 0x4000000 < ends →
          Leads (.fabricRead a) s (nothing ty) ∧ Leads (.fabricWrite a l) s (nothing tyWrite))) ∧
      (w = .bar4 → (ends ≤ 2 ^ s.rd .FAB_APSIZE_LOG2 → shows (0x1000000000 + s.rd64 .FAB_APBASE + x)) ∧
        (2 ^ s.rd .FAB_APSIZE_LOG2 < ends → Leads (.fabricRead a) s (nothing ty) ∧ Leads (.fabricWrite a l) s (nothing tyWrite))))

/-- Tier 2. Locked sequences (R453): the first access takes the lock of its target for its master, up to the fourth keep it, the
last gives it back; a fifth access breaks it, and so do 2 µs; an access of another target, and the next one after a break,
receive an error response alone. While it is held the target's other masters wait. That a locked access of a master that never
locks is refused as unmapped, and that a refused first access takes no lock, are the model's readings (log 51). -/
def Obligations.LockedSequences : Prop :=
  ∀ (s : State) (a : Access) (l : List Byte), 0 < a.size → l.length = a.size → a.bar = none → s.fab.held = [] → (∀ ty, s.waits a ty = false) →
    let m := a.master.toNat
    let refused := fun (t : State) => t.sent = .access m false [] :: s.sent ∧ t.hbm = s.hbm ∧ t.spd = s.spd
    let broken := fun (t : State) => refused t ∧ t.lockOf m = none ∧ t.on .FAB_EVT_LOCKBRK = true
    (mayLock m = false → ∀ last,
      Leads (.lockedRead a last) s (fun t => refused t ∧ t.fab = s.fab ∧ t.on .FAB_EVT_UNMAPPED = true) ∧
      Leads (.lockedWrite a l last) s (fun t => refused t ∧ t.fab = s.fab ∧ t.on .FAB_EVT_UNMAPPED = true)) ∧
    (mayLock m = true → s.fab.broken.contains m = true → ∀ last,
      Leads (.lockedRead a last) s (fun t => refused t ∧ t.fab.broken.contains m = false ∧ t.fab.locks = s.fab.locks) ∧
      Leads (.lockedWrite a l last) s (fun t => refused t ∧ t.fab.broken.contains m = false ∧ t.fab.locks = s.fab.locks)) ∧
    (mayLock m = true → s.fab.broken.contains m = false → m ≠ 3 ∨ s.lcs ≠ 2 →
      (∀ b : Fin 64, spdBase ≤ a.addr.toNat → a.addr.toNat + a.size ≤ spdBase + spdSize → s.targetsOf a = [b.val] →
        let o := a.addr.toNat - spdBase
        (s.lockOf m = none → s.bankServes a b.val = true → s.badWord o a.size false = none →
          Leads (.lockedRead a false) s (fun t => t.sent = .access m true (tgetMany 0 s.spd.mem o a.size) :: s.sent ∧
            t.lockOf m = some ⟨m, b.val, 1⟩ ∧ t.spd = s.spd ∧ t.regs = s.regs) ∧
          Leads (.lockedRead a true) s (fun t => t.sent = .access m true (tgetMany 0 s.spd.mem o a.size) :: s.sent ∧
            t.fab = s.fab ∧ t.spd = s.spd)) ∧
        (s.lockOf m = none → s.bankServes a b.val = false → ∀ last, Leads (.lockedRead a last) s fun t => refused t ∧ t.fab = s.fab) ∧
        (∀ k, s.lockOf m = some k → k.target = b.val → k.count < 4 → s.bankServes a b.val = true →
            s.badWord o a.size true = none → (a.portB && a.contended) = false →
          Leads (.lockedWrite a l false) s (fun t => t.sent = .access m true [] :: s.sent ∧
            t.lockOf m = some { k with count := k.count + 1 } ∧ t.spd.mem = tsetMany 0 s.spd.mem o l) ∧
          Leads (.lockedWrite a l true) s (fun t => t.sent = .access m true [] :: s.sent ∧ t.lockOf m = none ∧
            t.spd.mem = tsetMany 0 s.spd.mem o l ∧ t.fab.locks = s.fab.locks.filter (fun x => x.master != m))) ∧
        (∀ k, s.lockOf m = some k → k.target ≠ b.val → k.count < 4 →
          Leads (.lockedWrite a l false) s (fun t => refused t ∧ t.lockOf m = some { k with count := k.count + 1 }))) ∧
      (∀ k, s.lockOf m = some k → 4 ≤ k.count → ∀ last,
        Leads (.lockedRead a last) s broken ∧ Leads (.lockedWrite a l last) s broken)) ∧
    (∀ k, s.lockOf m = some k → Leads (.lockTimeout a.master) s fun t => t.lockOf m = none ∧ t.fab.broken = s.fab.broken ++ [m] ∧
      t.on .FAB_EVT_LOCKBRK = true ∧ t.flt = s.flt.receive (mkFault srcFabric 3 1 0 m tyLockRead) s.clock) ∧
    (s.lockOf m = none → Leads (.lockTimeout a.master) s (· = s)) ∧
    (∀ b : Access, b.bar = none → b.master ≠ a.master → s.apertureMiss b = false → (∀ k, s.lockOf m = some k → (s.targetsOf b).contains k.target = true → 0 < b.size →
      Leads (.fabricRead b) s fun t => t = { s with fab := { s.fab with
        held := [{ acc := b, type := if b.fetch then tyFetch else tyRead, data := [] }] } }))

/-- Tier 2. The scratchpad's banks (R419, R422 to R424, R528) and the secure bank (R426, R327, R4, R519): ownership,
power and zeroing of groups, the patrol, which records a failed column once, and wipes, which clear the keys and move
the life-cycle once verified; the wipe of a cold start ends before any firmware runs. That the state of LIFECYCLE is
entered at the verified end of its wipe is log 46. -/
def Obligations.ScratchpadAndSecureBank : Prop :=
  ∀ s : State,
    let owing := fun (c : Nat) => { s.sec with tampers := min 65535 (s.sec.tampers + 1), causes := s.sec.causes ++ [c] }
    let wipes := fun (c : Nat) (t : State) => t.on .SPD_SECSTAT_WIPING = true ∧ t.rd .SPD_SECSTAT_CAUSE = c ∧
      t.sec = owing c ∧
      SameWords (fun o => o == Fld.SPD_SECSTAT_CAUSE.at 0 || o == Fld.SPD_SECSTAT_WIPES.at 0) s t
    (∀ (m owner : Byte) (b : Fin 64),
      (m.toNat = 1 ∨ (m.toNat = s.ownerOf b.val ∧ m.toNat ≠ 0xFF) → Leads (.spdOwn m b owner) s fun t =>
        t.ownerOf b.val = owner.toNat ∧ OnlyWords [Fld.SPD_OWN_OWNER.at b.val] s t) ∧
      (m.toNat ≠ 1 → m.toNat ≠ s.ownerOf b.val ∨ m.toNat = 0xFF → Leads (.spdOwn m b owner) s fun t =>
        t.ownerOf b.val = s.ownerOf b.val ∧ t.on .SPD_EVT_NONOWNER = true ∧ t.spd = s.spd ∧
        t.sent = .access m.toNat false [] :: s.sent ∧
        t.flt = s.flt.receive (mkFault (srcBank b.val) 3 1 (spdOwnAddr b.val) m.toNat 1) s.clock)) ∧
    (∀ (req : BitVec 16) (g : Fin 16) (o : Nat),
      let old := bitOf (s.rd .SPD_PWR_REQ) g.val
      let want := bitOf req.toNat g.val
      let mine := bankOf o / 4 = g.val
      (want = old → Leads (.spdPwr req) s fun t => bitOf (t.rd .SPD_PWR_REQ) g.val = old ∧
        bitOf (t.rd .SPD_STAT_ON) g.val = bitOf (s.rd .SPD_STAT_ON) g.val ∧
        (mine → tget 0 t.spd.mem o = tget 0 s.spd.mem o)) ∧
      (want = true → old = false → Leads (.spdPwr req) s fun t => bitOf (t.rd .SPD_PWR_REQ) g.val = true ∧
        bitOf (t.rd .SPD_STAT_ON) g.val = true ∧ bitOf (t.rd .SPD_STAT_CLEARING) g.val = true) ∧
      (want = false → old = true → s.unowned g.val = true → Leads (.spdPwr req) s fun t =>
        bitOf (t.rd .SPD_PWR_REQ) g.val = false ∧ bitOf (t.rd .SPD_STAT_ON) g.val = false ∧
        bitOf (t.rd .SPD_STAT_CLEARING) g.val = false ∧ (mine → tget 0 t.spd.mem o = 0)) ∧
      (want = false → old = true → s.unowned g.val = false → Leads (.spdPwr req) s fun t =>
        bitOf (t.rd .SPD_PWR_REQ) g.val = true ∧ bitOf (t.rd .SPD_STAT_ON) g.val = bitOf (s.rd .SPD_STAT_ON) g.val ∧
        t.on .SPD_EVT_PWRREJ = true ∧ (mine → tget 0 t.spd.mem o = tget 0 s.spd.mem o))) ∧
    (∀ (g : Fin 16) (o : Nat), s.fab.held = [] →
      (bitOf (s.rd .SPD_STAT_CLEARING) g.val = false → Leads (.zeroingDone g) s (· = s)) ∧
      (bitOf (s.rd .SPD_STAT_CLEARING) g.val = true → Leads (.zeroingDone g) s fun t =>
        bitOf (t.rd .SPD_STAT_CLEARING) g.val = false ∧
        tget 0 t.spd.mem o = (if bankOf o / 4 = g.val then 0 else tget 0 s.spd.mem o))) ∧
    (s.inReset = false → s.bankLocked = false →
      (∀ out, s.on .SPD_PATROL_EN = false → Leads (.patrolSegment out) s (· = s)) ∧
      (s.on .SPD_PATROL_EN = true →
        Leads (.patrolSegment .aborted) s (· = s) ∧
        (s.rd .SPD_PATPOS_SEGMENT < 16383 → Leads (.patrolSegment .passed) s fun t =>
          t.rd .SPD_PATPOS_SEGMENT = s.rd .SPD_PATPOS_SEGMENT + 1 ∧ OnlyWords [Fld.SPD_PATPOS_SEGMENT.at 0] s t) ∧
        (s.rd .SPD_PATPOS_SEGMENT = 16383 → Leads (.patrolSegment .passed) s fun t =>
          t.rd .SPD_PATPOS_SEGMENT = 0 ∧ t.rd .SPD_PATPOS_PASSES = min (s.rd .SPD_PATPOS_PASSES + 1) (2 ^ 18 - 1) ∧
          OnlyWords [Fld.SPD_PATPOS_SEGMENT.at 0] s t) ∧
        ∀ (b : Fin 64) (col : Nat), bitOf (s.rd .SPD_STAT_ON) (b.val / 4) = true →
          (s.spd.failed.any (fun f => f.1 == b.val && f.2.1 == col) = true → Leads (.patrolSegment (.failed b col)) s fun t =>
            t.spd = s.spd ∧ t.flt = s.flt ∧ t.ledger = s.ledger ∧ t.on .SPD_EVT_PATROLFAIL = true ∧
            t.rd .SPD_PATPOS_SEGMENT = (s.rd .SPD_PATPOS_SEGMENT + 1) % 16384) ∧
          (s.spd.failed.any (fun f => f.1 == b.val && f.2.1 == col) = false → Leads (.patrolSegment (.failed b col)) s fun t =>
          t.spd = { s.spd with failed := s.spd.failed ++ [(b.val, col, s.ledger.nextItem)] } ∧ t.on .SPD_EVT_PATROLFAIL = true ∧
          t.rd .SPD_COLREP_PENDING = min 1023 (s.spd.failed.length + 1) ∧ t.ledger.nextItem = s.ledger.nextItem + 1 ∧
          t.rd .SPD_PATPOS_SEGMENT = (s.rd .SPD_PATPOS_SEGMENT + 1) % 16384 ∧
          (s.dealer.exhausted = false → s.dealer.dsn < 2 ^ 64 - 1 →
            t.dealer.events.head?.map (fun e => (e.code, e.source)) = some (0x0804, s.ledger.nextItem) ∧
            (QueuesReach s →
              t.flt = s.flt.receive (mkFault (srcBank b.val) 4 (if s.columnsUsed b.val < 8 then 0 else 1) 0) s.clock))))) ∧
    (s.modl.running = true → Leads .lidOpened s (fun t => wipes 1 t ∧ t.modl = { s.modl with lid := true }) ∧
      Leads .voltageGlitch s (fun t => wipes 2 t ∧ t.modl = s.modl) ∧ Leads .clockGlitch s (fun t => wipes 3 t ∧ t.modl = s.modl)) ∧
    (s.modl.running = false → Leads .lidOpened s (· = { s with modl := { s.modl with lid := true } }) ∧
      (s.pow.thermal = false → Leads .voltageGlitch s (· = s) ∧ Leads .clockGlitch s (· = s)) ∧
      (s.pow.thermal = true → Leads .voltageGlitch s (· = { s with sec := owing 2 }) ∧ Leads .clockGlitch s (· = { s with sec := owing 3 }))) ∧
    (s.on .SPD_SECSTAT_WIPING = false → ∀ ok, Leads (.secureWipeDone ok) s (· = s)) ∧
    (∀ c ok, s.on .SPD_SECSTAT_WIPING = true → s.modl.wipeIn = some c → Leads (.secureWipeDone ok) s fun t =>
      let z := s.endWipe ok
      t = ({ z with modl := { z.modl with wipeIn := none } } : State).bootFirmware c) ∧
    (s.on .SPD_SECSTAT_WIPING = true → s.modl.wipeIn = none →
      (Leads (.secureWipeDone true) s fun t => t.on .SPD_SECSTAT_WIPING = false ∧
        t.on .SPD_SECSTAT_FAIL = s.on .SPD_SECSTAT_FAIL ∧ t.sec.keys = [] ∧
        t.sec.mem = [] ∧ t.sec.wiped = true ∧ t.sec.target = none ∧ t.rd .ENG_KSTAT_KEYS = 0 ∧ t.on .ENG_KSTAT_KEYLOCK = false ∧
        (s.sec.target = none → t.lcs = s.lcs) ∧ (∀ k, s.sec.target = some k → s.lcs < k → k ≤ 3 → t.lcs = k) ∧
        (s.sec.target = none → s.modl.fw = true → t.flt.waiting = s.sec.causes.foldl (fun w c => mergeWaiting (mkFault srcTamper c 1 0) w) s.flt.waiting) ∧
        (s.modl.fw = true → s.on .LGR_STAT_RO = false → s.ledger.ro = false →
          t.ledger.pend.map (·.type) = s.ledger.pend.map (·.type) ++ [7])) ∧
      (Leads (.secureWipeDone false) s fun t => t.on .SPD_SECSTAT_WIPING = false ∧ t.on .SPD_SECSTAT_FAIL = true ∧
        t.sec = { s.sec with target := none, causes := [] } ∧ t.lcs = s.lcs ∧
        (s.sec.target = none → t.flt.waiting = mergeWaiting (mkFault srcSecure 2 2 0) s.flt.waiting)) ∧
      (∀ o, s.sec.target ≠ none → s.findLong (fun k => match k with | .lifecycle _ => true | _ => false) = some o →
        Leads (.secureWipeDone true) s (fun t => Ended o stDone s t) ∧ Leads (.secureWipeDone false) s fun t => Ended o errInternal s t))

/-- Tier 2. HBM stacks (R404 to R411, R416): temperature and its limits, the interface lock, command replays, refresh, loss and
rebuild; a stack that the repair map already shows lost keeps its item number (R528). -/
def Obligations.StackHealth : Prop :=
  ∀ (s : State) (k : StackId),
    let was := fun (f : Fld) => s.rd f k.val
    let known := ((s.repairsOf 3 1).find? (fun r => r.unit == k.val)).map (·.key)
    let lost := fun (kind : Nat) (t : State) => t.rd .HBM_SSTAT_STATE k.val = stLost ∧ t.on .HBM_GEVT_LOST = true ∧
      t.rd .HBM_GSTAT_LOST = (if s.rd .HBM_GSTAT_LOST = 7 then k.val else s.rd .HBM_GSTAT_LOST) ∧ t.rd .HBM_GSTAT_PARITY = 1 ∧
      t.hbm.jobs = s.hbm.jobs ++ [(k.val, 32, hbmLines)] ∧ t.hbm.mem = s.hbm.mem ∧
      t.ledger.nextItem = s.ledger.nextItem + (if known.isNone then 1 else 0) ∧
      (s.rd .HBM_GSTAT_LOST ≠ 7 ∨ s.otherPcs k.val ≠ 0 ∨ s.recovering = true → t.on .FLT_GSTAT_OUTSIDE = true) ∧
      (s.on .LGR_STAT_RO = false → s.ledger.ro = false → t.ledger.pend.map (fun r => (r.type, r.key, r.payload)) =
        s.ledger.pend.map (fun r => (r.type, r.key, r.payload)) ++
          [(6, known.getD s.ledger.nextItem, leBytes 1 3 ++ leBytes 1 1 ++ leBytes 2 k.val ++ leBytes 8 0 ++ leBytes 1 kind)])
    (∀ x : Int, s.stackOn k.val = false → Leads (.stackTemperatureReading k x) s (· = s)) ∧
    (∀ x : Int, s.stackOn k.val = true → -128 ≤ x → x < 128 →
      (x < 100 → Leads (.stackTemperatureReading k x) s fun t => signed 8 (t.rd .HBM_STEMP_TJ k.val) = x ∧
        signed 8 (t.rd .HBM_STEMP_MAXTJ k.val) = max x (signed 8 (was .HBM_STEMP_MAXTJ)) ∧ t.rd .HBM_SSTAT_STATE k.val = stActive ∧
        t.on .HBM_SSTAT_HOT k.val = (if 85 ≤ x then true else if x < 83 then false else s.on .HBM_SSTAT_HOT k.val) ∧
        t.on .HBM_SSTAT_THROTTLE k.val = (if 95 < x then true else if x < 93 then false else s.on .HBM_SSTAT_THROTTLE k.val) ∧
        (85 ≤ x → s.on .HBM_SSTAT_HOT k.val = false → t.on .HBM_SEVT_HOT k.val = true ∧
          (∀ p : Fin 32, 4 < tget 0 s.hbm.debt (32 * k.val + p.val) →
            s.clock + 350 * (tget 0 s.hbm.debt (32 * k.val + p.val) - 4) ≤ tget 0 t.hbm.catchEnd k.val ∧ t.catching k.val = true) ∧
          ∀ p : Fin 32, tget 0 t.hbm.debt (32 * k.val + p.val) = min 4 (tget 0 s.hbm.debt (32 * k.val + p.val))) ∧
        (95 < x → s.on .HBM_SSTAT_THROTTLE k.val = false → t.on .HBM_SEVT_THROTTLE k.val = true ∧
          t.flt.waiting = mergeWaiting (mkFault (srcStack k.val) 4 0 k.val) s.flt.waiting)) ∧
      (100 ≤ x → Leads (.stackTemperatureReading k x) s fun t => lost 5 t ∧ t.on .HBM_SEVT_SHUTDOWN k.val = true)) ∧
    (s.stackOn k.val = true → tget false s.hbm.lockLost k.val = false → Leads (.interfaceLockLost k) s fun t =>
      tget false t.hbm.lockLost k.val = true ∧ t.rd .HBM_SSTAT_STATE k.val = stActive ∧
      t.flt.waiting = mergeWaiting (mkFault (srcStack k.val) 2 1 k.val) s.flt.waiting) ∧
    (s.stackOn k.val = false ∨ tget false s.hbm.lockLost k.val = true → Leads (.interfaceLockLost k) s (· = s)) ∧
    (tget false s.hbm.lockLost k.val = true → Leads (.interfaceLockRegained k) s fun t =>
      tget false t.hbm.lockLost k.val = false ∧ t.regs = s.regs ∧ t.flt.waiting = s.flt.waiting ∧
      ∀ c, s.capture (srcStack k.val) 1 = some c → c.kind = 2 → t.capture (srcStack k.val) 1 = some { c with live := false }) ∧
    (tget false s.hbm.lockLost k.val = true → was .HBM_SSTAT_STATE ≠ stLost → Leads (.interfaceLockTimeout k) s (lost 2)) ∧
    (tget false s.hbm.lockLost k.val = false → Leads (.interfaceLockTimeout k) s (· = s) ∧ Leads (.interfaceLockRegained k) s (· = s)) ∧
    (∀ p : Fin 32, s.stackOn k.val = true → bitOf (was .HBM_SPCRET_MAP) p.val = false →
      let n := tget 0 s.hbm.capFail (32 * k.val + p.val)
      let counted := fun (t : State) => t.rd .HBM_SCAPAR_COUNT k.val = min (was .HBM_SCAPAR_COUNT + 1) (2 ^ 32 - 1)
      (Leads (.commandAddressParityError k p true) s fun t => counted t ∧ tget 0 t.hbm.capFail (32 * k.val + p.val) = 0 ∧
        t.rd .HBM_SPCRET_MAP k.val = was .HBM_SPCRET_MAP ∧
        t.flt.waiting = mergeWaiting (mkFault (srcPc k.val p.val) 3 0 p.val) s.flt.waiting) ∧
      (n < 2 → Leads (.commandAddressParityError k p false) s fun t => counted t ∧
        tget 0 t.hbm.capFail (32 * k.val + p.val) = n + 1 ∧ t.rd .HBM_SPCRET_MAP k.val = was .HBM_SPCRET_MAP) ∧
      (2 ≤ n → Leads (.commandAddressParityError k p false) s fun t => counted t ∧
        t.rd .HBM_SPCRET_MAP k.val = was .HBM_SPCRET_MAP + 2 ^ p.val ∧ t.on .HBM_SEVT_PCRET k.val = true ∧
        t.on .HBM_GSTAT_PCDEGR = true ∧ t.rd .HBM_SSTAT_STATE k.val =
          (if 8 < popcount 32 (was .HBM_SPCRET_MAP + 2 ^ p.val) then stLost else stActive))) ∧
    (∀ p : Fin 32, s.stackOn k.val = true → s.inReset = false →
      let d := tget 0 s.hbm.debt (32 * k.val + p.val)
      let limit := if s.on .HBM_SSTAT_HOT k.val then 4 else 8
      (Leads (.refreshInterval k p false) s fun t => tget 0 t.hbm.debt (32 * k.val + p.val) = 0 ∧ t.regs = s.regs) ∧
      (d < limit → Leads (.refreshInterval k p true) s fun t => tget 0 t.hbm.debt (32 * k.val + p.val) = d + 1 ∧ t.regs = s.regs) ∧
      (limit ≤ d → Leads (.refreshInterval k p true) s fun t => tget 0 t.hbm.debt (32 * k.val + p.val) = limit ∧
        t.rd .HBM_SSTALL_NS k.val = max 350 (was .HBM_SSTALL_NS) ∧ OnlyWords [Fld.HBM_SSTALL_NS.at k.val] s { t with hbm := s.hbm })) ∧
    (s.hbm.jobs = [] ∨ s.inReset = true → Leads .rebuild s (· = s)) ∧
    (∀ j p n rest, s.inReset = false → s.hbm.jobs = (j, p, n) :: rest →
      let line := rebuildLine p (rebuildSize p - n)
      let visited := fun (t : State) => t.hbm.layout = (if line % 6 ≠ j then tset false s.hbm.layout line true else s.hbm.layout) ∧
        t.rd .HBM_REBUILD_LEFT = min (2 ^ 27 - 1) (t.hbm.jobs.map (fun x => x.2.2)).sum ∧ t.hbm.mem = s.hbm.mem
      (1 < n → Leads .rebuild s fun t => visited t ∧ t.hbm.jobs = (j, p, n - 1) :: rest) ∧
      (n ≤ 1 → Leads .rebuild s fun t => visited t ∧ t.hbm.jobs = rest ∧ t.on .HBM_GEVT_REBUILT = true ∧
        (p = 32 → (∀ x ∈ rest, x.2.1 ≠ 32) → t.rd .HBM_GSTAT_PARITY = 2)))

/-- Tier 2. The ledger (R427 to R435): the oldest waiting record goes to the slots at the head, in its stored form, and is
counted; a slot that fails is replaced by a spare, which its repair map entry names (log 52), and the record goes to the next
attempt, and without a spare the ledger is read-only, across losses of power too (R435). A power-fail snapshot is written once for its flush, before any other record. -/
def Obligations.LedgerWrites : Prop :=
  ∀ s : State,
    (∀ n, s.ledger.pend = [] ∨ s.on .LGR_STAT_RO = true ∨ s.snapWaits = true → Leads (.ledgerRecordWrite n) s (· = s)) ∧
    (∀ r rest, s.ledger.pend = r :: rest → s.on .LGR_STAT_RO = false → s.snapWaits = false → s.unreleased = [] →
      let at_ := runAt s.ledger.ring s.ledger.head
      let slot := s.physOf at_
      (s.ledger.recs = [] → r.nslot = 1 → r.payload.length ≤ 232 → s.ledger.head + 1 < runLen s.ledger.ring →
        twf 0 s.ledger.mem = true → Leads (.ledgerRecordWrite 0) s fun t =>
          t.ledger.pend = rest ∧ t.ledger.recs = [{ r with slots := [slot] }] ∧ t.ledger.head = s.ledger.head + 1 ∧
          tgetMany 0 t.ledger.mem (256 * slot) 256 = r.bytes 1 ∧
          (∀ o, o < 256 * slot ∨ 256 * slot + 256 ≤ o → tget 0 t.ledger.mem o = tget 0 s.ledger.mem o) ∧
          t.rd .LGR_RECCNT_COUNT = min (s.rd .LGR_RECCNT_COUNT + 1) (2 ^ 32 - 1) ∧
          (r.dsn < 2 ^ 64 → t.rd64 .LGR_LASTDSN = r.dsn)) ∧
      (s.rd .LGR_SPARE_LEFT = 0 → ∀ n, 0 < n → Leads (.ledgerRecordWrite n) s fun t =>
        t.on .LGR_STAT_RO = true ∧ t.ledger.ro = true ∧ t.on .LGR_EVT_RO = true ∧ t.ledger.pend = [] ∧
        (∀ x ∈ t.ledger.recs, x ∈ s.ledger.recs) ∧
        (s.dealer.exhausted = false → s.dealer.dsn < 2 ^ 64 - 1 →
          (QueuesReach s → t.flt = s.flt.receive (mkFault srcLedger 3 1 0) s.clock) ∧
          t.dealer.events.head?.map (·.code) = some 0x0802)) ∧
      (0 < s.rd .LGR_SPARE_LEFT → s.ledger.ro = false → s.ledger.recs = [] → r.nslot = 1 → s.ledger.head + 1 < runLen s.ledger.ring →
        Leads (.ledgerRecordWrite 1) s fun t => t.rd .LGR_SPARE_LEFT = s.rd .LGR_SPARE_LEFT - 1 ∧
          tget 0 t.ledger.remap at_ = 65536 - s.rd .LGR_SPARE_LEFT ∧ t.on .LGR_EVT_SLOTRET = true ∧
          t.ledger.recs = [{ r with slots := [65536 - s.rd .LGR_SPARE_LEFT] }] ∧
          t.ledger.pend.map (fun r => (r.type, r.key)) = rest.map (fun r => (r.type, r.key)) ++ [(6, s.ledger.nextItem)] ∧
          (s.lastDsn < 2 ^ 63 → t.ledger.pend.getLast?.map (fun r => (r.kind, r.stage, r.unit, r.loc)) =
            some (6, 1, 65536 - s.rd .LGR_SPARE_LEFT, s.physOf at_ % 2 ^ 64)))) ∧
    (s.snapWaits = false → Leads .powerFailSnapshot s (· = s)) ∧
    (s.snapWaits = true → s.on .LGR_STAT_RO = true → Leads .powerFailSnapshot s
      (· = { s with ledger := { s.ledger with hbmSnap := s.flowSnapshot }, pow := { s.pow with snapDone := true } })) ∧
    (∀ g segs rest, s.snapWaits = true → s.on .LGR_STAT_RO = false → s.ledger.regions = (g, segs) :: rest → g < 8 →
      Leads .powerFailSnapshot s fun t => t.snapWaits = false ∧ t.on .LGR_STAT_SNAPVALID = true ∧ t.rd .LGR_STAT_SNAPREG = g ∧
        t.on .LGR_EVT_SNAP = true ∧ t.ledger.regions = rest ++ [(g, segs)] ∧ t.ledger.pend = s.ledger.pend ∧
        t.ledger.recs.head?.map (fun r => (r.type, r.dsn, r.payload)) = some (5, s.lastDsn, s.flowSnapshot))

/-- Tier 2. The DMA engine (R455 to R466, R469): a channel starts, fetches and checks its descriptor, moves its bytes burst by burst
in the order of the channels' priorities, round-robin among equals, through the funnel that keeps what a source beat holds beyond
the burst, ends the descriptor with its CRC, count, interrupt and next; channel 15 moves the packets of host delivery; an abort
stops a channel, with its write-back, a bus error halts every channel at work, and a resume restarts the halted descriptors. -/
def Obligations.DmaChannels : Prop :=
  ∀ (s : State) (c : DmaChan),
    let st := s.rd .DMA_CSTAT_STATE c.val
    let x := s.dmac c.val
    let at_ := s.rd64 .DMA_CCUR c.val
    let ends := fun (status next : Nat) (t : State) => t.rd .DMA_CSTAT_LAST c.val = status ∧ t.rd .DMA_CSTAT_STATE c.val = next
    let readable := fun (a n : Nat) => hbmBase ≤ a ∧ a + n ≤ hbmBase + hbmSize ∧ s.hbmPoisoned (a - hbmBase) n = false
    let writable := fun (a n : Nat) => hbmBase ≤ a ∧ a + n ≤ hbmBase + hbmSize ∧ s.touchesWeights (a - hbmBase) n = false
    let free := fun (a n : Nat) => s.dmaWaits a n tyWrite = false
    let halted := fun (addr ty : Nat) (last collide : Bool) (t : State) => t.on .DMA_GSTAT_HALTED = true ∧ t.on .DMA_EVT_HALT = true ∧
      t.rd64 .DMA_ERRADDR = addr ∧ t.rd .DMA_ERRINFO_TYPE = ty ∧ t.on .DMA_ERRINFO_LASTBEAT = last ∧ t.on .DMA_ERRINFO_COLLIDE = collide ∧
      ∀ j : DmaChan, j ≠ c ∨ last = false → t.rd .DMA_CSTAT_STATE j.val = (if s.dmaBusy j.val then dcHalted else s.rd .DMA_CSTAT_STATE j.val)
    let resumed := fun (t : State) => t.on .DMA_GSTAT_HALTED = false ∧
      (st = dcHalted → ∀ d, x.desc = some d → t.rd .DMA_CSTAT_STATE c.val = dcMove ∧ t.dmac c.val = { x with moved := 0, funnel := [] } ∧
        t.rd .DMA_CLEFT_BYTES c.val = d.count % 2 ^ 32 ∧ t.rd .DMA_CCRC_CRC c.val = (x.seed ^^^ 0xFFFFFFFF) % 2 ^ 32) ∧
      (st = dcHalted → x.desc = none → t.rd .DMA_CSTAT_STATE c.val = dcFetch ∧ t.dmac c.val = x) ∧
      (st ≠ dcHalted → t.rd .DMA_CSTAT_STATE c.val = st ∧ t.dmac c.val = x)
    (s.dmaReserved c.val = true →
      Leads (.dmaStart c) s (fun t => t.on .DMA_EVT_RSVDWR = true ∧ OnlyWords [Fld.DMA_EVT_RSVDWR.at 0] s t) ∧
      (s.fab.held = [] → Leads (.abort c) s fun t => t.on .DMA_EVT_RSVDWR = true ∧ OnlyWords [Fld.DMA_EVT_RSVDWR.at 0] s t)) ∧
    (s.dmaReserved c.val = false →
      (st = dcIdle ∨ st = dcDone → x.stuck = false → Leads (.dmaStart c) s fun t =>
        t.rd .DMA_CSTAT_STATE c.val = dcFetch ∧ t.rd64 .DMA_CCUR c.val = s.rd64 .DMA_CDESC c.val ∧ t.dmac c.val = {} ∧
        ∀ j : DmaChan, j ≠ c → t.dmac j.val = s.dmac j.val) ∧
      ((st ≠ dcIdle ∧ st ≠ dcDone) ∨ x.stuck = true → Leads (.dmaStart c) s (· = s)) ∧
      (s.fab.held = [] →
        (st = dcMove → Leads (.abort c) s (· = s.setDmac c.val { x with aborting := true })) ∧
        (st = dcFetch ∨ (st = dcHalted ∧ ∀ d, x.desc = some d → d.wb = false) → Leads (.abort c) s fun t =>
          ends dsAborted dcIdle t ∧ t.dmac c.val = {} ∧ t.hbm = s.hbm) ∧
        (∀ d, st = dcHalted → x.desc = some d → d.wb = true → writable (at_ + 48) 8 → free (at_ + 48) 8 → Leads (.abort c) s fun t =>
          ends dsAborted dcIdle t ∧ t.dmac c.val = {} ∧
          t.hbm = (s.hbmWrite (at_ + 48 - hbmBase) (leBytes 4 dsAborted ++ leBytes 4 x.moved)).hbm) ∧
        (st = dcIdle ∨ st = dcDone → Leads (.abort c) s (· = s)))) ∧
    (s.on .DMA_GSTAT_HALTED = true → Leads .dmaResume s (fun t => resumed t ∧
        t.rd .DMA_HALTCNT_COUNT = min (s.rd .DMA_HALTCNT_COUNT + 1) (2 ^ 32 - 1)) ∧
      (s.on .DMA_GCTL_AUTORES = true → Leads .autores s resumed)) ∧
    (s.on .DMA_GSTAT_HALTED = false → Leads .dmaResume s (· = s)) ∧ (s.on .DMA_GCTL_AUTORES = false → Leads .autores s (· = s)) ∧
    (∀ (a : BitVec 40) (ty : BitVec 4) (col : Bool), Leads (.busError a ty col) s fun t => halted a.toNat ty.toNat false col t ∧
      (s.dmaBusy c.val = true → t.rd .DMA_CSTAT_LAST c.val = dsHalted) ∧
      (s.dmaReserved 15 = false ∨ (s.dmac 15).moved = 0 → t.dma = s.dma) ∧
      (s.dmaReserved 15 = true → (t.dmac 15).moved = 0) ∧
      (s.dealer.exhausted = false → s.dealer.dsn < 2 ^ 64 - 1 →
        (QueuesReach s → t.flt = s.flt.receive (mkFault srcDma 1 1 a.toNat 2 ty.toNat) s.clock) ∧
        t.dealer.events.head?.map (fun e => (e.code, e.arg)) = some (0x0A01, a.toNat + 2 ^ 40 * ty.toNat))) ∧
    (st ≠ dcMove → Leads (.doneErr c) s (· = s)) ∧
    (∀ d, st = dcMove → x.desc = some d → d.wb = false → Leads (.doneErr c) s fun t =>
      ends dsDoneErr dcIdle t ∧ t.dmac c.val = { stuck := true } ∧ t.rd .DMA_CLEFT_BYTES c.val = 0 ∧ t.on .DMA_EVT_DONEERR = true ∧
      (d.dst + d.count - 1 < 2 ^ 40 → halted (d.dst + d.count - 1) tyWrite true false t)) ∧
    (st ≠ dcFetch ∨ s.dmaWaits at_ 64 tyDesc = true → Leads (.descriptorFetch c) s (· = s)) ∧
    (st = dcFetch → readable at_ 64 → s.dmaWaits at_ 64 tyDesc = false →
      let l := s.hbmRead (at_ - hbmBase) 64
      (descBad l = false → Leads (.descriptorFetch c) s fun t => t.rd .DMA_CSTAT_STATE c.val = dcMove ∧
        t.dmac c.val = { desc := some (descOf l), seed := if (descOf l).crcCont then x.seed else 0xFFFFFFFF } ∧
        t.rd .DMA_CLEFT_BYTES c.val = (descOf l).count ∧ t.sent = s.sent) ∧
      (descBad l = true → Leads (.descriptorFetch c) s fun t => ends dsDescErr dcIdle t ∧ t.dmac c.val = {} ∧
        t.on .DMA_EVT_DESCERR = true ∧ t.flt = s.flt.receive (mkFault srcDma 3 0 at_ 2 tyDesc) s.clock)) ∧
    (st = dcFetch → 2 ^ 40 ≤ at_ → s.dmaWaits at_ 64 tyDesc = false → Leads (.descriptorFetch c) s fun t =>
      halted at_ tyDesc false false t ∧ ends dsHalted dcHalted t) ∧
    (∀ d, x.desc = some d →
      (st ≠ dcMove ∨ x.moved ≠ d.count → Leads (.descriptorEnd c) s (· = s)) ∧
      (st = dcMove → x.moved = d.count → x.aborting = true → d.wb = false → Leads (.descriptorEnd c) s fun t =>
        ends dsAborted dcIdle t ∧ t.dmac c.val = {}) ∧
      (st = dcMove → x.moved = d.count → x.aborting = false → d.crc = true → writable d.crcAddr 4 → free d.crcAddr 4 → d.wb = false →
        Leads (.descriptorEnd c) s fun t =>
          t.hbm = (s.hbmWrite (d.crcAddr - hbmBase) (leBytes 4 (s.rd .DMA_CCRC_CRC c.val))).hbm) ∧
      (st = dcMove → x.moved = d.count → x.aborting = false → d.crc = false → d.wb = true → writable (at_ + 48) 8 →
        free (at_ + 48) 8 →
        Leads (.descriptorEnd c) s fun t =>
          t.hbm = (s.hbmWrite (at_ + 48 - hbmBase) (leBytes 4 dsDone ++ leBytes 4 d.count)).hbm) ∧
      (st = dcMove → x.moved = d.count → x.aborting = false → d.crc = false → d.wb = false → Leads (.descriptorEnd c) s fun t =>
        t.rd .DMA_CDONE_COUNT c.val = min (s.rd .DMA_CDONE_COUNT c.val + 1) (2 ^ 32 - 1) ∧
        t.sent = (if d.irq then [.msix (s.rd .DMA_CCTL_VEC c.val)] else []) ++ s.sent ∧
        (d.last = true → ends dsDone dcDone t) ∧
        (d.last = false → ends dsDone dcFetch t ∧ (d.next < 2 ^ 64 → t.rd64 .DMA_CCUR c.val = d.next)))) ∧
    (∀ j, s.nextBurst = some j → s.canMove j = true ∧ ∀ k : DmaChan, s.canMove k.val = true → s.prioOf j ≤ s.prioOf k.val ∧
      (s.prioOf k.val = s.prioOf j →
        (j + 15 - s.lastMoved (s.prioOf j)) % 16 ≤ (k.val + 15 - s.lastMoved (s.prioOf j)) % 16)) ∧
    (s.fab.held = [] → (∀ j : DmaChan, (s.dmac j.val).aborting = false) →
      (s.nextBurst = none → Leads .dmaBurstComplete s (· = s.hitsPast)) ∧
      (s.nextBurst = some 15 → s.dmaReserved 15 = true → Leads .dmaBurstComplete s fun t =>
        (t.dmac 15).moved = (s.dmac 15).moved + min 1024 s.hostLeft ∧ t.lastMoved 0 = 15 ∧ t.hbm = s.hbm) ∧
      (∀ d, s.nextBurst = some c.val → s.dmaReserved c.val = false → x.desc = some d →
        let n := burstLen (d.dst + x.moved) (d.count - x.moved)
        let src := d.src + x.moved + x.funnel.length - hbmBase
        let w := s.hbmWrite (d.dst + x.moved - hbmBase) ((x.funnel ++ s.hbmRead src n).take n)
        readable (d.src + x.moved) n → writable (d.dst + x.moved) n → Leads .dmaBurstComplete s fun t =>
          t.hbm.mem = w.hbm.mem ∧ t.hbm.poison = w.hbm.poison ∧
          (∃ k, n ≤ x.funnel.length + k ∧
            t.dmac c.val = { x with moved := x.moved + n, funnel := (x.funnel ++ s.hbmRead src k).drop n }) ∧
          t.lastMoved (s.prioOf c.val) = c.val ∧
          (d.count < 2 ^ 32 → t.rd .DMA_CLEFT_BYTES c.val = d.count - (x.moved + n)) ∧
          ∀ j : DmaChan, j ≠ c → t.dmac j.val = s.dmac j.val))

/-! ### Faults, resets, power and boot -/

/-- Tier 2. The fault collector (R470 to R485, R494, R526): a message is counted by class; one whose source and class are captured is
merged; any other is captured with its events and its reaction, one level higher while another source of its class is
pending; a capture is acknowledged; settings are made or rejected; and what a fault's own rule does besides (R215, R414, R415, R417, R489),
for a message that was merged while it waited too. The model's choices: that kinds 3 and 6 of an engine, and a message of a LOADING
engine, give RETCAUSE 3 (log 50), the collector step, the words that the management core works in and the order of its trap and its
chip reset (log 49). -/
def Obligations.FaultCollector : Prop :=
  ∀ (s : State), s.fab.held = [] →
    (∀ v : Word, let n := v.toNat % 1024
      let c := v.toNat / 2 ^ 16 % 4
      (c = 3 ∨ s.capture n c = none → Leads (.fltAck v) s (· = s)) ∧
      (∀ x, c ≠ 3 → s.capture n c = some x → Leads (.fltAck v) s fun t => t.capture n c = none ∧
        (QueuesReach s → t.flt.waiting = s.flt.waiting) ∧
        (s.dealer.exhausted = false → s.dealer.dsn < 2 ^ 64 - 1 →
          t.dealer.events.head?.map (fun e => (e.code, e.source, e.arg)) = some (0x0103, n, 256 * c + 65536 * x.count + 2 ^ 32)))) ∧
    (∀ (m : Byte) (v : Word), let x := s.selOf m.toNat
      let r : Reaction := ⟨v.toNat % 8, v.toNat / 8 % 4, bitOf v.toNat 5⟩
      (reactBad x.1 x.2 r.level r.target = none → Leads (.fltReact m v) s fun t => t.reaction x.1 x.2 = r ∧ t.regs = s.regs ∧
        t.flt.caps = s.flt.caps ∧ ∀ n d : Nat, 4 * n + d ≠ 4 * x.1 + x.2 → t.reaction n d = s.reaction n d) ∧
      (reactBad x.1 x.2 r.level r.target ≠ none → Leads (.fltReact m v) s fun t =>
        t.on .FLT_EVT_REACTREJ = true ∧ OnlyWords [Fld.FLT_EVT_REACTREJ.at 0] s t)) ∧
    (∀ (n : Fin 1024) (c : Fin 3),
      let waits := s.flt.waiting.find? (fun w => w.1.source == n && w.1.cls == c)
      (s.capture n.val c.val = none → waits = none → Leads (.faultConditionCleared n c) s (· = s)) ∧
      (∀ w, s.capture n.val c.val = none → waits = some w → Leads (.faultConditionCleared n c) s fun t =>
        t = { s with flt := { s.flt with ended := t.flt.ended } } ∧
        tget false t.flt.ended (2 ^ 6 * (4 * n.val + c.val) + w.1.kind.toNat) = true) ∧
      (∀ x, s.capture n.val c.val = some x → Leads (.faultConditionCleared n c) s fun t =>
        t = { s with flt := { s.flt with ended := t.flt.ended, caps := t.flt.caps } } ∧
        t.capture n.val c.val = some { x with live := false } ∧
        ∀ m d : Nat, 4 * m + d ≠ 4 * n.val + c.val → t.capture m d = s.capture m d)) ∧
    (s.flt.waiting = [] → Leads (.faultMessage none) s (· = s)) ∧
    (∀ w k, s.flt.next = some (w, k) → (w, k) ∈ s.flt.waiting ∧ ∀ v l rest, s.flt.waiting = (v, l) :: rest →
      ∀ y ∈ s.flt.waiting, tget 0 s.flt.arrived (fltKey y.1) = tget 0 s.flt.arrived (fltKey v) → fltKey w ≤ fltKey y.1) ∧
    (∀ w k x, s.flt.next = some (w, k) → s.capture w.source.val w.cls.val = some x →
      let own := fun (y : FaultMsg) => y.source == w.source && y.cls == w.cls
      let later := !tget false s.flt.ended (2 ^ 6 * fltKey w + x.kind)
      (0x60 ≤ w.source.val → Leads (.faultMessage none) s fun t => t.regs = s.regs ∧ t.sent = s.sent ∧
        t.flt.waiting = s.flt.waiting.filter (fun y => !own y.1) ∧
        t.capture w.source.val w.cls.val =
          some { x with count := min 65535 (x.count + k), live := if x.kind = w.kind.toNat then later else x.live }) ∧
      (∀ e : EngineId, w.source.val = e.val → w.cls.val ≠ 0 → s.inService e.val = true ∨ s.rd .ENG_STAT_STATE e.val = egLoading →
        (∃ y ∈ w :: s.flt.merged, own y = true ∧ 2 ≤ y.kind.toNat ∧ y.kind.toNat ≤ 6) →
        Leads (.faultMessage none) s fun t => t.rd .ENG_STAT_STATE e.val = egRetired ∧ t.rd .ENG_RETCAUSE_CAUSE e.val = 3)) ∧
    (∀ m : FaultMsg, let n := m.source.val
      let c := m.cls.val
      let cnt : Fld := if c = 0 then .FLT_CNTC_COUNT else if c = 1 then .FLT_CNTU_COUNT else .FLT_CNTF_COUNT
      (srcOk n = false → Leads (.faultMessage (some m)) s (· = s)) ∧
      (srcOk n = true → s.flt.waiting = [] → ∀ x, s.capture n c = some x → Leads (.faultMessage (some m)) s fun t =>
        (0x60 ≤ n → (n < 0xC0 ∨ 0x1C0 ≤ n) → t.capture n c =
            some { x with count := min 65535 (x.count + 1), live := x.live || x.kind == m.kind.toNat } ∧
          t.rd cnt = min (s.rd cnt + 1) (2 ^ 32 - 1) ∧ t.sent = s.sent ∧ t.flt.waiting = []) ∧
        (n < 0x60 → c ≠ 0 → t.on .ENG_EVT_FAULT n = true ∧
          (2 ≤ m.kind.toNat → m.kind.toNat ≤ 6 → s.inService n = true ∨ s.rd .ENG_STAT_STATE n = egLoading →
            t.rd .ENG_STAT_STATE n = egRetired ∧ t.rd .ENG_RETCAUSE_CAUSE n = 3)) ∧
        (0xC0 ≤ n → n < 0x180 →
          (m.kind = 1 → c = 0 → t.rd .HBM_SCE_COUNT ((n - 0xC0) / 32) = min (s.rd .HBM_SCE_COUNT ((n - 0xC0) / 32) + 1) (2 ^ 32 - 1)) ∧
          (m.kind = 5 → c = 1 → tget false t.hbm.poison (lineAt m.address.toNat) = true ∧ t.on .FLT_GSTAT_OUTSIDE = true ∧
            t.hbm.mem = s.hbm.mem)) ∧
        (0x180 ≤ n → n < 0x1C0 →
          (m.kind = 1 → c = 0 → t.rd .SPD_CECNT_COUNT = min (s.rd .SPD_CECNT_COUNT + 1) (2 ^ 32 - 1)) ∧
          (m.kind = 2 → c = 1 → t.on .SPD_EVT_UE = true ∧ (s.workingWord (n - 0x180) m.address.toNat = true →
            t.flt.waiting = [(mkFault srcMgmt 1 1 m.address.toNat, 1)] ∧
            (s.on .FLT_STAT_RESETHOLD = false → s.modl.warm = false → s.modl.mrst = false → s.modl.resetDue = none →
              s.rd .PWR_STAT_STATE ≠ 1 → s.flt.l4Times = [] → t.modl.resetDue = some 5))))) ∧
      (0x1C0 ≤ n → srcOk n = true → hasReset n = false → s.flt.waiting = [] → s.capture n c = none → s.dealer.exhausted = false →
        s.dealer.dsn < 2 ^ 63 →
        let r := s.reaction n c
        let esc := s.pendingCaps.any (fun p => p.1 % 4 == c && p.1 / 4 != n)
        let level := if esc then (if r.level = 2 then 4 else min 4 (r.level + 1)) else r.level
        let target := if esc && r.level == 0 then 3 else r.target
        let errn := r.errn || (esc && r.level == 4)
        let free := s.on .FLT_STAT_RESETHOLD = false ∧ s.modl.warm = false ∧ s.modl.mrst = false ∧ s.modl.resetDue = none ∧
          s.rd .PWR_STAT_STATE ≠ 1
        let recent := (s.flt.l4Times.filter (fun t => s.clock < t + 600000000000)).length
        Leads (.faultMessage (some m)) s fun t =>
          t.capture n c = some { kind := m.kind.toNat, master := m.master.toNat, type := m.type.toNat, address := m.address.toNat
                                 level := level, escalated := esc, errn := errn, count := 1, dsn := s.dealer.dsn
                                 sec := s.timeb.sec, ns := s.timeb.ns, live := true, pending := !(c == 0 && level == 0) } ∧
          t.dealer.dsn = s.dealer.dsn + (if esc then 2 else 1) ∧ t.on .FLT_EVT_CAPTURE = true ∧
          (esc = true → t.on .FLT_EVT_ESCALATE = true) ∧ (c = 2 → t.on .FLT_GSTAT_OUTSIDE = true) ∧
          (c ≠ 0 → t.on .FLT_STAT_FAULTN = true ∧ t.on .MOD_STAT_FAULTN = true) ∧
          (errn = true → (level ≠ 0 ∨ c ≠ 0) → t.on .FLT_STAT_ERRN = true ∧ t.on .MOD_STAT_ERRN = true) ∧
          (1 ≤ level → bitOf target 0 = true → .msix (s.rd .FLT_CTL_VEC) ∈ newMsgs s t) ∧
          (1 ≤ level → bitOf target 1 = true → .mgmtIrq ∈ newMsgs s t) ∧ (2 ≤ level → .mgmtTrap ∈ newMsgs s t) ∧
          (level < 4 → t.modl = { s.modl with hostMem := t.modl.hostMem }) ∧
          (4 ≤ level → free → recent < 2 → t.modl.resetDue = some 5 ∧ t.flt.l4Times.length = recent + 1 ∧
            t.rd .FLT_RSTCNT_COUNT = min (s.rd .FLT_RSTCNT_COUNT + 1) (2 ^ 16 - 1)) ∧
          (4 ≤ level → free → 2 ≤ recent → t.modl.resetDue = none ∧ t.on .FLT_STAT_RESETHOLD = true ∧ t.on .MOD_STAT_READY = false) ∧
          (c ≠ 0 → s.on .LGR_STAT_RO = false → s.ledger.ro = false → t.ledger.pend.any (fun q => q.type == 8 && q.key == n && q.dsn == s.dealer.dsn) = true)))

/-- Tier 2. Warm resets and MRST_N (R154, R413, R449, R485, R500, R511 to R513, R516), READY (R518), and the supply
(R200, R431, R508 to R510, R522): what a reset keeps and what it ends, how a power-fail warning flushes, and how the
module switches off or recovers. Which image a warm reset boots is the model's reading (log 36). -/
def Obligations.ResetsAndSupply : Prop :=
  ∀ (s : State),
    let begun := fun (cause : Nat) (t : State) => t.rd .MOD_RSTCAUSE_CAUSE = cause % 8 ∧
      t.rd .MOD_RSTCAUSE_WARMS = min (s.rd .MOD_RSTCAUSE_WARMS + 1) (2 ^ 16 - 1) ∧ t.on .MOD_STAT_READY = false ∧
      t.on .FLT_STAT_RESETHOLD = false ∧ t.modl.warm = true ∧ t.hbm.mem = s.hbm.mem ∧ t.plans.slots = s.plans.slots ∧
      t.lcs = s.lcs ∧ t.sec = s.sec ∧ t.modl.flash = s.modl.flash ∧ t.modl.kernels = s.modl.kernels ∧ t.timeb = s.timeb ∧
      (s.on .LGR_STAT_RO = false → s.ledger.regions ≠ [] → t.on .LGR_STAT_SNAPVALID = true ∧
        t.ledger.recs.head?.map (fun r => (r.type, r.payload)) = some (5, s.flowSnapshot))
    let finished := fun (t : State) => t.modl.warm = true ∧ t.modl.fw = s.bootsFirmware ∧ t.modl.resetDue = none ∧
      (s.bootsFirmware = true → t.on .FAB_CTL_REMAP = true) ∧
      (∀ b : Fin 64, t.ownerOf b.val = 1) ∧ (∀ e : EngineId, t.core e.val = {}) ∧
      (∀ n : SessionId, t.rd .VSN_SSTAT_STATE n.val = (if s.rd .VSN_SSTAT_STATE n.val = ssFree then ssFree else ssDetached)) ∧
      (∀ n : SessionId, s.rd .VSN_SSTAT_STATE n.val ≠ ssFree → (t.session n.val).warmSince = true)
    let booted := fun (t : State) =>
      (s.on .MOD_BOOT_UARTBOOT = true ∨ s.bootsFirmware = false → t.spd = s.spd ∧ t.rd .MOD_BOOT_SLOT = s.rd .MOD_BOOT_SLOT) ∧
      (s.on .MOD_BOOT_UARTBOOT = false → s.bootsFirmware = true →
        (s.rd .MOD_STRAP_BOOT ≠ 0 ∨ s.rd .MOD_BOOT_MARKED = s.rd .MOD_BOOT_SLOT →
          t.rd .MOD_BOOT_SLOT = s.rd .MOD_BOOT_SLOT ∧ t.on .MOD_BOOT_FALLBACK = false) ∧
        (s.rd .MOD_STRAP_BOOT = 0 → t.rd .MOD_BOOT_SLOT =
          if t.on .MOD_BOOT_FALLBACK then s.rd .MOD_BOOT_SLOT else s.rd .MOD_BOOT_MARKED) ∧
        ∀ o, tget 0 t.spd.mem o = if o < 0x100000 ∧ bitOf (s.rd .SPD_STAT_ON) (bankOf o / 4) = true
          then tget 0 s.modl.flash (2 ^ 32 * t.rd .MOD_BOOT_SLOT + o) else tget 0 s.spd.mem o)
    let off := fun (cause : Nat) (t : State) => t.modl.running = false ∧ t.modl.fw = false ∧ t.modl.coldCause = cause ∧
      t.ledger = { s.ledger with pend := [], hbmSnap := [] } ∧ t.lcs = s.lcs ∧ t.modl.flash = s.modl.flash ∧ t.modl.lid = s.modl.lid ∧
      t.hbm = {} ∧ t.spd = {} ∧ t.engs = [] ∧ (∀ x ∈ t.sess, x.2 = { tokens := x.2.tokens }) ∧ t.plans = {} ∧ t.tricks = {} ∧ t.timeb = {} ∧ t.sec.keys = [] ∧
      (∀ l : Lane, t.lnState l.val = lnOff) ∧ t.rd .MOD_BOOT_MARKED = s.rd .MOD_BOOT_MARKED ∧ t.rd .LGR_SPARE_LEFT = 3276 ∧
      t.rd64 .LGR_LASTDSN = 0 ∧ t.on .LGR_STAT_SCANNED = false
    let warned := fun (t : State) => t.on .PWR_EVT_WARN = true ∧
      t.rd .PWR_PFCNT_COUNT = min (s.rd .PWR_PFCNT_COUNT + 1) (2 ^ 32 - 1) ∧
      t.flt = s.flt.receive (mkFault srcPower 1 1 0) s.clock
    let flushing := fun (t : State) => t.rd .PWR_STAT_STATE = 1 ∧ t.on .MOD_STAT_PFW = true ∧ t.pow.snapRun = true ∧
      t.pow.snapDone = s.modl.warm ∧ t.pow.flushStart = s.clock ∧ t.suspended = true ∧ t.hbm = s.hbm ∧ t.ledger = s.ledger ∧
      ∀ e ∈ s.served, .coreIrq e .stop ∈ newMsgs s t
    (s.modl.resetDue = none ∨ s.modl.running = false ∨ s.rd .PWR_STAT_STATE = 1 → Leads .warmReset s (· = s)) ∧
    (∀ c, s.modl.resetDue = some c → s.modl.running = true → s.rd .PWR_STAT_STATE ≠ 1 →
      (s.modl.warm = false → (∀ x ∈ s.fab.held, x.acc.master.toNat ≠ 0) → Leads .warmReset s fun t => begun c t ∧ finished t ∧ booted t ∧
        (s.bootsFirmware = false → t.on .FAB_CTL_REMAP = false)) ∧
      (s.modl.warm = true → s.modl.mrst = true ∨ s.frozen = true → Leads .warmReset s (· = s)) ∧
      (s.modl.warm = true → s.modl.mrst = false → s.frozen = false → s.fab.held = [] → Leads .warmReset s fun t => finished t ∧ booted t)) ∧
    (s.modl.running = false → Leads .mrstNAsserted s (· = s)) ∧
    (s.modl.running = true → s.modl.warm = false → Leads .mrstNAsserted s fun t => begun 3 t ∧ t.spd = s.spd ∧ t.modl.mrst = true ∧
      t.modl.fw = false ∧ t.modl.resetDue = some 3 ∧ t.sess = s.sess ∧ t.suspended = true) ∧
    (s.modl.running = true → s.modl.warm = true → Leads .mrstNAsserted s (· = { s with modl := { s.modl with mrst := true } })) ∧
    (s.modl.mrst = false → Leads .mrstNReleased s (· = s)) ∧
    (∀ c, s.modl.mrst = true → s.modl.resetDue = some c → s.modl.warm = true → s.frozen = false → s.fab.held = [] → Leads .mrstNReleased s fun t =>
      finished t ∧ booted t ∧ t.modl.mrst = false) ∧
    (s.modl.mrst = true → s.modl.resetDue = none ∨ s.frozen = true → Leads .mrstNReleased s
      (· = { s with modl := { s.modl with mrst := false } })) ∧
    (let may := s.modl.running = true ∧ s.modl.fw = true ∧ s.on .LGR_STAT_SCANNED = true ∧ s.modl.resetDue = none ∧
        s.modl.mrst = false ∧ s.on .FLT_STAT_RESETHOLD = false ∧ s.on .MOD_STAT_TESTMODE = false ∧
        (s.modl.warm = true → s.frozen = false) ∧ ∀ b : BundleId, s.bundleTrains b.val = false;
      (may → s.fab.held = [] → s.outp.todo = [] → (∀ n : SessionId, (s.session n.val).closeDue = 0) → Leads .ready s fun t => t.on .MOD_STAT_READY = true ∧
        t.modl = { s.modl with warm := false } ∧ t.ledger = s.ledger ∧ t.hbm = s.hbm) ∧ (¬ may → Leads .ready s (· = s))) ∧
    (∀ (b : Bool) (mv : BitVec 16),
      (s.modl.running = false → Leads (.powerFailWarning b mv) s (· = s)) ∧
      (s.modl.running = true → Leads (.powerFailWarning b mv) s fun t => t.rd .PWR_VBUS_MV = mv.toNat ∧
        t.rd .PWR_VBUS_MINMV = min mv.toNat (s.rd .PWR_VBUS_MINMV) ∧ t.on .PWR_STAT_LOSS = b ∧
        (b = true ∨ mv.toNat < 11400 → warned t ∧ (s.rd .PWR_STAT_STATE = 0 → flushing t) ∧
          (s.rd .PWR_STAT_STATE ≠ 0 → t.rd .PWR_STAT_STATE = s.rd .PWR_STAT_STATE ∧ t.pow = s.pow)) ∧
        (b = false → 11400 ≤ mv.toNat → OnlyWords [Fld.PWR_VBUS_MV.at 0, Fld.PWR_STAT_LOSS.at 0] s t))) ∧
    (s.rd .PWR_STAT_STATE ≠ 1 ∨ s.pow.snapDone = false → Leads .flushComplete s (· = s)) ∧
    (s.rd .PWR_STAT_STATE = 1 → s.pow.snapDone = true →
      (s.pow.thermal = false → s.pow.alwaysOn = false → Leads .flushComplete s fun t => t.rd .PWR_STAT_STATE = 2 ∧
        t.rd .PWR_FLUSHUS_US = min 65535 ((s.clock - s.pow.flushStart) / 1000) ∧ t.pow.snapRun = false ∧ t.pow.deferred = false ∧
        (s.pow.deferred = false → t.modl = s.modl) ∧
        (s.pow.deferred = true → s.modl.warm = false → s.modl.resetDue = none → s.on .FLT_STAT_RESETHOLD = false →
          s.flt.l4Times = [] → t.modl.resetDue = some 5)) ∧
      (s.pow.thermal = true → Leads .flushComplete s (off 2)) ∧
      (s.pow.thermal = false → s.pow.alwaysOn = true → Leads .flushComplete s (off 0))) ∧
    (s.rd .PWR_STAT_STATE = 0 ∨ s.pow.thermal = true ∨ s.pow.alwaysOn = true → Leads .supplyRecovered s (· = s)) ∧
    (s.rd .PWR_STAT_STATE ≠ 0 → s.pow.thermal = false → s.pow.alwaysOn = false → s.unreleased = [] → s.outp.todo = [] →
      s.pow.deferred = false → (∀ n : SessionId, (s.session n.val).closeDue = 0) → Leads .supplyRecovered s fun t => t.rd .PWR_STAT_STATE = 0 ∧ t.on .PWR_STAT_LOSS = false ∧
        t.on .MOD_STAT_PFW = false ∧ t.on .PWR_EVT_DIP = true ∧ t.snapWaits = false ∧
        t.flt = (s.setLive srcPower 1 1 false).flt.receive (mkFault srcPower 2 0 0) s.clock ∧ (∀ e : EngineId, (t.eng e.val).stopped = false) ∧
        ∀ p : PartId, (t.part p.val).sending = none) ∧
    (s.modl.running = false → Leads .busBelow108V s (· = s) ∧ Leads .thermalTrip s (· = s) ∧
      Leads .sensorsBelow85C s (· = { s with pow := { s.pow with thermal := false } })) ∧
    (s.modl.running = true → Leads .busBelow108V s (off (if s.pow.thermal then 2 else 1)) ∧ Leads .sensorsBelow85C s (· = s) ∧
      (s.rd .PWR_STAT_STATE = 0 → Leads .thermalTrip s fun t => warned t ∧ flushing t ∧ t.pow.thermal = true) ∧
      (s.rd .PWR_STAT_STATE = 1 → Leads .thermalTrip s fun t => warned t ∧ t.pow = { s.pow with thermal := true }) ∧
      (s.rd .PWR_STAT_STATE = 2 → Leads .thermalTrip s fun t => off 2 t ∧ t.pow.thermal = true))

/-- Tier 2. The cold start and the boot image (R4, R358, R404, R408, R425, R426, R499 to R501, R511, R515 to R519), and what surrounds
the die (R454, R473, R496, R501, R505, R506, R522): rails, fans, air, straps, the JTAG port and the PCI Express link. -/
def Obligations.BootAndSurroundings : Prop :=
  ∀ (s : State),
    (∀ c : ColdInput,
      let boot := c.straps.toNat / 256 % 4
      let marked := s.rd .MOD_BOOT_MARKED
      let test := bitOf c.straps.toNat 14 = false ∧ s.lcs ≤ 1
      let choice := bootChoice boot marked c.imageAOk c.imageBOk
      let wipes := (s.modl.lid || c.lidTripped || !s.wipeOwed.isEmpty) = true
      (s.modl.running = true ∨ s.pow.thermal = true → Leads (.coldStart c) s (· = s)) ∧
      (s.modl.running = false → s.pow.thermal = false → Leads (.coldStart c) s fun t => t.modl.running = true ∧
        t.rd .MOD_RSTCAUSE_CAUSE = s.modl.coldCause % 8 ∧ t.rd .MOD_STRAP_LIVE = c.straps.toNat ∧ t.rd .MOD_ID_ID = c.straps.toNat % 256 ∧
        t.on .MOD_STAT_READY = false ∧ t.lcs = s.lcs ∧ t.modl.lid = (s.modl.lid || c.lidTripped) ∧
        (wipes → t.on .SPD_SECSTAT_WIPING = true ∧ t.sec.keys = [] ∧ t.modl.wipeIn = some c ∧ t.modl.fw = false ∧
          ((s.modl.lid || c.lidTripped) = true → t.on .MOD_EVT_LIDLATCH = true ∧ t.rd .SPD_SECSTAT_CAUSE = 1)) ∧
        (¬ wipes → test → t.on .MOD_STAT_TESTMODE = true ∧ t.modl.fw = false) ∧
        (¬ wipes → ¬ test → choice = none → t.modl.fw = false ∧ t.modl.waitIn = some c ∧ t.on .MOD_STAT_FAULTN = decide (boot ≠ 3)) ∧
        (∀ i fall, ¬ wipes → ¬ test → choice = some (i, fall) → i ≤ 1 → t.modl.fw = true ∧ t.modl.waitIn = none ∧ t.rd .MOD_BOOT_SLOT = i ∧
          t.on .MOD_BOOT_FALLBACK = fall ∧ t.on .LGR_STAT_SCANNED = true ∧ t.on .FAB_CTL_REMAP = true ∧
          t.rd .LGR_SPARE_LEFT = s.sparesLeft ∧ t.on .LGR_STAT_RO = s.ledger.ro ∧
          min (s.highestDsn + 2 ^ 32) (2 ^ 64 - 1) ≤ t.dealer.dsn ∧
          (s.ledger.recs = [] →
            (∀ n : SessionId, t.rd .VSN_SSTAT_STATE n.val = ssFree) ∧
            (∀ l : Lane, s.cageRejected l.val = false → t.climbing l.val = true) ∧
            (∀ l : Lane, s.cageRejected l.val = true → t.lnState l.val = lnOff) ∧
            (∀ k : StackId, t.rd .HBM_SSTAT_STATE k.val = (if c.stackOk.getD k.val true then stActive else stLost)) ∧
            (∀ e : EngineId, t.rd .ENG_STAT_STATE e.val = (if c.engineOk.getD e.val true = false then egRetired
              else if bitOf c.straps.toNat 13 then egStandby else egIdle)))))) ∧
    (∀ c ok, s.on .SPD_SECSTAT_WIPING = true → s.modl.wipeIn = some c →
      let test := s.on .MOD_STRAP_TEST_N = false ∧ s.lcs ≤ 1
      let choice := bootChoice (s.rd .MOD_STRAP_BOOT) (s.rd .MOD_BOOT_MARKED) c.imageAOk c.imageBOk
      Leads (.secureWipeDone ok) s fun t => t.modl.wipeIn = none ∧ t.on .SPD_SECSTAT_WIPING = false ∧ (ok = true → t.sec.keys = []) ∧
        (test → t.on .MOD_STAT_TESTMODE = true ∧ t.modl.fw = s.modl.fw) ∧
        (¬ test → choice = none → t.modl.fw = s.modl.fw ∧ t.modl.waitIn = some c) ∧
        (∀ i fall, ¬ test → choice = some (i, fall) → i ≤ 1 → t.modl.fw = true ∧ t.modl.waitIn = none ∧ t.rd .MOD_BOOT_SLOT = i ∧
          t.on .LGR_STAT_SCANNED = true ∧ t.on .FAB_CTL_REMAP = true)) ∧
    (s.modl.waitIn = none → ∀ sig, Leads (.uartBootImageReceived sig) s (· = s)) ∧
    (∀ c, s.modl.waitIn = some c → Leads (.uartBootImageReceived false) s (· = s) ∧
      Leads (.uartBootImageReceived true) s fun t => t.modl.fw = true ∧ t.on .MOD_BOOT_UARTBOOT = true ∧ t.modl.waitIn = none ∧
        t.modl.flash = s.modl.flash ∧ t.on .LGR_STAT_SCANNED = true) ∧
    (∀ v : BitVec 15, Leads (.strapChange v) s fun t => t.rd .MOD_STRAP_LIVE = v.toNat ∧ t.rd .MOD_STRAP_MODID = s.rd .MOD_STRAP_MODID ∧
      (s.rd .MOD_STRAP_LIVE ≠ v.toNat → t.on .MOD_EVT_STRAPCHG = true) ∧
      OnlyWords [Fld.MOD_STRAP_LIVE.at 0, Fld.MOD_EVT_STRAPCHG.at 0] s t) ∧
    (∀ i : TapInstr, Leads (.jtagInstruction i) s (· = { s with modl := { s.modl with
      tap := if s.on .MOD_STAT_TESTMODE = false ∧ (i = .extest ∨ i = .clamp) then .bypass else i } })) ∧
    Leads .fundamentalResetReleased s (· = { s with modl := { s.modl with perst := false } }) ∧
    (∀ d : Fin 164, s.domainOn d.val = false ∨ s.modl.running = false → Leads (.railFault d) s (· = s)) ∧
    (∀ d : Fin 164, s.domainOn d.val = true → s.modl.running = true →
      let raised := s.flt.receive (mkFault srcPower 3 1 d.val) s.clock
      let noted := fun (t : State) => t.on .PWR_EVT_RAILFAULT = true ∧ bitOf (t.rd .PWR_DFAULT_MAP (d.val / 32)) (d.val % 32) = true ∧
        tget 0 t.pow.railAt d.val = s.clock + 1
      let again := tget 0 s.pow.repowered d.val ≠ 0 ∧ s.clock < tget 0 s.pow.repowered d.val - 1 + 3600000000000
      (d.val < 96 → s.inService d.val = true → s.pow.alwaysOn = false → Leads (.railFault d) s fun t => noted t ∧
        t.rd .ENG_STAT_STATE d.val = egRetired ∧ t.rd .ENG_RETCAUSE_CAUSE d.val = 3) ∧
      (d.val < 96 → s.rd .ENG_STAT_STATE d.val = egLoading → s.pow.alwaysOn = false → Leads (.railFault d) s fun t => noted t ∧
        t.rd .ENG_STAT_STATE d.val = egRetired ∧ t.rd .ENG_RETCAUSE_CAUSE d.val = 3) ∧
      (∀ o, d.val < 96 → s.rd .ENG_STAT_STATE d.val = egSelftest → 96 ≤ s.rd .ENG_STAT_POSITION d.val → s.pow.alwaysOn = false →
        s.findLong (fun k => k == .engineRestore d.val) = some o → Leads (.railFault d) s fun t => noted t ∧ Ended o rejState s t ∧
          t.rd .ENG_STAT_STATE d.val = egRetired ∧ t.rd .ENG_RETCAUSE_CAUSE d.val = 3) ∧
      (102 ≤ d.val → d.val < 126 → s.climbing (d.val - 102) = true → s.rd .VLK_STAT_ATTEMPTS (d.val - 102) < 2 → s.pow.alwaysOn = false →
        Leads (.railFault d) s fun t => noted t ∧ tget false t.pow.railOff d.val = true ∧ t.lnState (d.val - 102) = lnRetry) ∧
      (126 ≤ d.val → d.val < 134 → s.pow.alwaysOn = false → Leads (.railFault d) s fun t => noted t ∧
        tget false t.pow.railOff d.val = true ∧ t.on .ETH_STAT_LINK ((d.val - 126) / 4) = false ∧
        t.flt = (if s.on .ETH_STAT_LINK ((d.val - 126) / 4) then raised.receive (mkFault (srcPort ((d.val - 126) / 4)) 1 1 0) s.clock
          else raised)) ∧
      (145 ≤ d.val → d.val ≤ 160 → s.pow.alwaysOn = false → Leads (.railFault d) s fun t => noted t ∧
        (∀ o, bankOf o / 4 = d.val - 145 → tget 0 t.spd.mem o = 0) ∧
        bitOf (t.rd .SPD_STAT_ON) (d.val - 145) = !s.within1h (tget 0 s.pow.railAt d.val) ∧
        bitOf (t.rd .SPD_STAT_CLEARING) (d.val - 145) = !s.within1h (tget 0 s.pow.railAt d.val)) ∧
      (96 ≤ d.val → d.val < 102 → s.stackOn (d.val - 96) = true → s.pow.alwaysOn = false → Leads (.railFault d) s fun t => noted t ∧
        t.rd .HBM_SSTAT_STATE (d.val - 96) = stLost) ∧
      (d.val = 161 → s.pow.alwaysOn = false → s.refState ≠ rsFault → Leads (.railFault d) s fun t => noted t ∧ t.refState = rsFault ∧
        tget false t.pow.railOff 161 = true ∧ t.flt = raised.receive (mkFault srcTime 1 1 0) s.clock) ∧
      (d.val = 163 → s.rd .PWR_STAT_STATE = 0 → Leads (.railFault d) s fun t => noted t ∧ t.pow.alwaysOn = true ∧
        t.rd .PWR_STAT_STATE = 1 ∧ t.on .MOD_STAT_PFW = true) ∧
      (134 ≤ d.val ∧ d.val < 145 ∨ d.val = 162 → s.pow.alwaysOn = false → s.on .FLT_STAT_RESETHOLD = false → s.modl.warm = false →
        s.modl.resetDue = none → Leads (.railFault d) s fun t => noted t ∧ tget false t.pow.railOff d.val = true ∧
          t.modl.resetDue = some 5 ∧ t.flt = raised ∧
          (again → tget false t.pow.leftOff d.val = true ∧ t.on .FLT_GSTAT_OUTSIDE = true))) ∧
    (∀ i : Fin 6, Leads (.fanFailed i) s fun t => bitOf (t.rd .PWR_FAN_FAILED) i.val = true ∧
      t.flt = s.flt.receive (mkFault srcThermal 2 1 0) s.clock ∧ t.modl = s.modl ∧ t.pow = s.pow) ∧
    (∀ x : Byte, Leads (.inletAirAbove40 x) s fun t => t.rd .PWR_TEMP_INLET = x.toNat ∧ t.modl = s.modl ∧
      t.flt = (if 40 < signed 8 x.toNat then s.flt.receive (mkFault srcThermal 3 0 0) s.clock else (s.setLive srcThermal 0 3 false).flt)) ∧
    (Leads .pcieLinkDown s fun t => t.modl = { s.modl with pciUp := false } ∧ t.lockOf 0 = none ∧
      (∀ x ∈ t.fab.held, x.acc.master.toNat ≠ 0) ∧
      t.flt = (if s.modl.pciUp then (s.setLive srcPci 1 1 true).flt.receive (mkFault srcPci 1 1 0) s.clock else s.flt)) ∧
    (∀ w r : Nat, (s.modl.running = false → Leads (.pcieLinkTrained w r) s (· = s)) ∧
      (s.modl.running = true → Leads (.pcieLinkTrained w r) s fun t =>
        t.modl = { s.modl with pciUp := true, perst := false, pciWidth := w, pciRate := r } ∧
        (s.modl.pciUp = true → t.rd .FAB_APSIZE_LOG2 = s.rd .FAB_APSIZE_LOG2) ∧
        (s.modl.pciUp = false → 30 ≤ t.rd .FAB_APSIZE_LOG2 ∧ t.rd .FAB_APSIZE_LOG2 ≤ 36) ∧
        let z := (s.setLive srcPci 1 1 false).setLive srcPci 0 4 (decide (w < 16 ∨ r < 64))
        t.flt = (if w < 16 ∨ r < 64 then z.flt.receive (mkFault srcPci 4 0 0) s.clock else z.flt)))
end

