-- ==== Sys2Proof/Laws/State.lean ====
section
/-! SUPPORT. What each update of the state leaves alone: one lemma per field and update, true by definition. -/

namespace Sys2Proof.Machine

variable (s : State)


/-! `setLane` -/

@[simp] theorem State.setLane_pending (l : Nat) (x : LaneX) : (s.setLane l x).pending = s.pending := rfl
@[simp] theorem State.setLane_regs (l : Nat) (x : LaneX) : (s.setLane l x).regs = s.regs := rfl
@[simp] theorem State.setLane_lcs (l : Nat) (x : LaneX) : (s.setLane l x).lcs = s.lcs := rfl
@[simp] theorem State.setLane_fresh (l : Nat) (x : LaneX) : (s.setLane l x).fresh = s.fresh := rfl
@[simp] theorem State.setLane_clock (l : Nat) (x : LaneX) : (s.setLane l x).clock = s.clock := rfl
@[simp] theorem State.setLane_sent (l : Nat) (x : LaneX) : (s.setLane l x).sent = s.sent := rfl
@[simp] theorem State.setLane_bundles (l : Nat) (x : LaneX) : (s.setLane l x).bundles = s.bundles := rfl
@[simp] theorem State.setLane_links (l : Nat) (x : LaneX) : (s.setLane l x).links = s.links := rfl
@[simp] theorem State.setLane_sess (l : Nat) (x : LaneX) : (s.setLane l x).sess = s.sess := rfl
@[simp] theorem State.setLane_flows (l : Nat) (x : LaneX) : (s.setLane l x).flows = s.flows := rfl
@[simp] theorem State.setLane_deck (l : Nat) (x : LaneX) : (s.setLane l x).deck = s.deck := rfl
@[simp] theorem State.setLane_engs (l : Nat) (x : LaneX) : (s.setLane l x).engs = s.engs := rfl
@[simp] theorem State.setLane_dealer (l : Nat) (x : LaneX) : (s.setLane l x).dealer = s.dealer := rfl
@[simp] theorem State.setLane_plans (l : Nat) (x : LaneX) : (s.setLane l x).plans = s.plans := rfl
@[simp] theorem State.setLane_tricks (l : Nat) (x : LaneX) : (s.setLane l x).tricks = s.tricks := rfl
@[simp] theorem State.setLane_beams (l : Nat) (x : LaneX) : (s.setLane l x).beams = s.beams := rfl
@[simp] theorem State.setLane_outp (l : Nat) (x : LaneX) : (s.setLane l x).outp = s.outp := rfl
@[simp] theorem State.setLane_timeb (l : Nat) (x : LaneX) : (s.setLane l x).timeb = s.timeb := rfl
@[simp] theorem State.setLane_hbm (l : Nat) (x : LaneX) : (s.setLane l x).hbm = s.hbm := rfl
@[simp] theorem State.setLane_spd (l : Nat) (x : LaneX) : (s.setLane l x).spd = s.spd := rfl
@[simp] theorem State.setLane_sec (l : Nat) (x : LaneX) : (s.setLane l x).sec = s.sec := rfl
@[simp] theorem State.setLane_ledger (l : Nat) (x : LaneX) : (s.setLane l x).ledger = s.ledger := rfl
@[simp] theorem State.setLane_fab (l : Nat) (x : LaneX) : (s.setLane l x).fab = s.fab := rfl
@[simp] theorem State.setLane_dma (l : Nat) (x : LaneX) : (s.setLane l x).dma = s.dma := rfl
@[simp] theorem State.setLane_dmaRr (l : Nat) (x : LaneX) : (s.setLane l x).dmaRr = s.dmaRr := rfl
@[simp] theorem State.setLane_pciPhase (l : Nat) (x : LaneX) : (s.setLane l x).pciPhase = s.pciPhase := rfl
@[simp] theorem State.setLane_flt (l : Nat) (x : LaneX) : (s.setLane l x).flt = s.flt := rfl
@[simp] theorem State.setLane_pow (l : Nat) (x : LaneX) : (s.setLane l x).pow = s.pow := rfl
@[simp] theorem State.setLane_modl (l : Nat) (x : LaneX) : (s.setLane l x).modl = s.modl := rfl

/-! `setBundle` -/

@[simp] theorem State.setBundle_pending (b : Nat) (x : BundleX) : (s.setBundle b x).pending = s.pending := rfl
@[simp] theorem State.setBundle_regs (b : Nat) (x : BundleX) : (s.setBundle b x).regs = s.regs := rfl
@[simp] theorem State.setBundle_lcs (b : Nat) (x : BundleX) : (s.setBundle b x).lcs = s.lcs := rfl
@[simp] theorem State.setBundle_fresh (b : Nat) (x : BundleX) : (s.setBundle b x).fresh = s.fresh := rfl
@[simp] theorem State.setBundle_clock (b : Nat) (x : BundleX) : (s.setBundle b x).clock = s.clock := rfl
@[simp] theorem State.setBundle_sent (b : Nat) (x : BundleX) : (s.setBundle b x).sent = s.sent := rfl
@[simp] theorem State.setBundle_lanes (b : Nat) (x : BundleX) : (s.setBundle b x).lanes = s.lanes := rfl
@[simp] theorem State.setBundle_links (b : Nat) (x : BundleX) : (s.setBundle b x).links = s.links := rfl
@[simp] theorem State.setBundle_sess (b : Nat) (x : BundleX) : (s.setBundle b x).sess = s.sess := rfl
@[simp] theorem State.setBundle_flows (b : Nat) (x : BundleX) : (s.setBundle b x).flows = s.flows := rfl
@[simp] theorem State.setBundle_deck (b : Nat) (x : BundleX) : (s.setBundle b x).deck = s.deck := rfl
@[simp] theorem State.setBundle_engs (b : Nat) (x : BundleX) : (s.setBundle b x).engs = s.engs := rfl
@[simp] theorem State.setBundle_dealer (b : Nat) (x : BundleX) : (s.setBundle b x).dealer = s.dealer := rfl
@[simp] theorem State.setBundle_plans (b : Nat) (x : BundleX) : (s.setBundle b x).plans = s.plans := rfl
@[simp] theorem State.setBundle_tricks (b : Nat) (x : BundleX) : (s.setBundle b x).tricks = s.tricks := rfl
@[simp] theorem State.setBundle_beams (b : Nat) (x : BundleX) : (s.setBundle b x).beams = s.beams := rfl
@[simp] theorem State.setBundle_outp (b : Nat) (x : BundleX) : (s.setBundle b x).outp = s.outp := rfl
@[simp] theorem State.setBundle_timeb (b : Nat) (x : BundleX) : (s.setBundle b x).timeb = s.timeb := rfl
@[simp] theorem State.setBundle_hbm (b : Nat) (x : BundleX) : (s.setBundle b x).hbm = s.hbm := rfl
@[simp] theorem State.setBundle_spd (b : Nat) (x : BundleX) : (s.setBundle b x).spd = s.spd := rfl
@[simp] theorem State.setBundle_sec (b : Nat) (x : BundleX) : (s.setBundle b x).sec = s.sec := rfl
@[simp] theorem State.setBundle_ledger (b : Nat) (x : BundleX) : (s.setBundle b x).ledger = s.ledger := rfl
@[simp] theorem State.setBundle_fab (b : Nat) (x : BundleX) : (s.setBundle b x).fab = s.fab := rfl
@[simp] theorem State.setBundle_dma (b : Nat) (x : BundleX) : (s.setBundle b x).dma = s.dma := rfl
@[simp] theorem State.setBundle_dmaRr (b : Nat) (x : BundleX) : (s.setBundle b x).dmaRr = s.dmaRr := rfl
@[simp] theorem State.setBundle_pciPhase (b : Nat) (x : BundleX) : (s.setBundle b x).pciPhase = s.pciPhase := rfl
@[simp] theorem State.setBundle_flt (b : Nat) (x : BundleX) : (s.setBundle b x).flt = s.flt := rfl
@[simp] theorem State.setBundle_pow (b : Nat) (x : BundleX) : (s.setBundle b x).pow = s.pow := rfl
@[simp] theorem State.setBundle_modl (b : Nat) (x : BundleX) : (s.setBundle b x).modl = s.modl := rfl

/-! `setLink` -/

@[simp] theorem State.setLink_pending (b : Nat) (x : Link) : (s.setLink b x).pending = s.pending := rfl
@[simp] theorem State.setLink_regs (b : Nat) (x : Link) : (s.setLink b x).regs = s.regs := rfl
@[simp] theorem State.setLink_lcs (b : Nat) (x : Link) : (s.setLink b x).lcs = s.lcs := rfl
@[simp] theorem State.setLink_fresh (b : Nat) (x : Link) : (s.setLink b x).fresh = s.fresh := rfl
@[simp] theorem State.setLink_clock (b : Nat) (x : Link) : (s.setLink b x).clock = s.clock := rfl
@[simp] theorem State.setLink_sent (b : Nat) (x : Link) : (s.setLink b x).sent = s.sent := rfl
@[simp] theorem State.setLink_lanes (b : Nat) (x : Link) : (s.setLink b x).lanes = s.lanes := rfl
@[simp] theorem State.setLink_bundles (b : Nat) (x : Link) : (s.setLink b x).bundles = s.bundles := rfl
@[simp] theorem State.setLink_sess (b : Nat) (x : Link) : (s.setLink b x).sess = s.sess := rfl
@[simp] theorem State.setLink_flows (b : Nat) (x : Link) : (s.setLink b x).flows = s.flows := rfl
@[simp] theorem State.setLink_deck (b : Nat) (x : Link) : (s.setLink b x).deck = s.deck := rfl
@[simp] theorem State.setLink_engs (b : Nat) (x : Link) : (s.setLink b x).engs = s.engs := rfl
@[simp] theorem State.setLink_dealer (b : Nat) (x : Link) : (s.setLink b x).dealer = s.dealer := rfl
@[simp] theorem State.setLink_plans (b : Nat) (x : Link) : (s.setLink b x).plans = s.plans := rfl
@[simp] theorem State.setLink_tricks (b : Nat) (x : Link) : (s.setLink b x).tricks = s.tricks := rfl
@[simp] theorem State.setLink_beams (b : Nat) (x : Link) : (s.setLink b x).beams = s.beams := rfl
@[simp] theorem State.setLink_outp (b : Nat) (x : Link) : (s.setLink b x).outp = s.outp := rfl
@[simp] theorem State.setLink_timeb (b : Nat) (x : Link) : (s.setLink b x).timeb = s.timeb := rfl
@[simp] theorem State.setLink_hbm (b : Nat) (x : Link) : (s.setLink b x).hbm = s.hbm := rfl
@[simp] theorem State.setLink_spd (b : Nat) (x : Link) : (s.setLink b x).spd = s.spd := rfl
@[simp] theorem State.setLink_sec (b : Nat) (x : Link) : (s.setLink b x).sec = s.sec := rfl
@[simp] theorem State.setLink_ledger (b : Nat) (x : Link) : (s.setLink b x).ledger = s.ledger := rfl
@[simp] theorem State.setLink_fab (b : Nat) (x : Link) : (s.setLink b x).fab = s.fab := rfl
@[simp] theorem State.setLink_dma (b : Nat) (x : Link) : (s.setLink b x).dma = s.dma := rfl
@[simp] theorem State.setLink_dmaRr (b : Nat) (x : Link) : (s.setLink b x).dmaRr = s.dmaRr := rfl
@[simp] theorem State.setLink_pciPhase (b : Nat) (x : Link) : (s.setLink b x).pciPhase = s.pciPhase := rfl
@[simp] theorem State.setLink_flt (b : Nat) (x : Link) : (s.setLink b x).flt = s.flt := rfl
@[simp] theorem State.setLink_pow (b : Nat) (x : Link) : (s.setLink b x).pow = s.pow := rfl
@[simp] theorem State.setLink_modl (b : Nat) (x : Link) : (s.setLink b x).modl = s.modl := rfl

/-! `setSession` -/

@[simp] theorem State.setSession_pending (n : Nat) (x : SessionX) : (s.setSession n x).pending = s.pending := rfl
@[simp] theorem State.setSession_regs (n : Nat) (x : SessionX) : (s.setSession n x).regs = s.regs := rfl
@[simp] theorem State.setSession_lcs (n : Nat) (x : SessionX) : (s.setSession n x).lcs = s.lcs := rfl
@[simp] theorem State.setSession_fresh (n : Nat) (x : SessionX) : (s.setSession n x).fresh = s.fresh := rfl
@[simp] theorem State.setSession_clock (n : Nat) (x : SessionX) : (s.setSession n x).clock = s.clock := rfl
@[simp] theorem State.setSession_sent (n : Nat) (x : SessionX) : (s.setSession n x).sent = s.sent := rfl
@[simp] theorem State.setSession_lanes (n : Nat) (x : SessionX) : (s.setSession n x).lanes = s.lanes := rfl
@[simp] theorem State.setSession_bundles (n : Nat) (x : SessionX) : (s.setSession n x).bundles = s.bundles := rfl
@[simp] theorem State.setSession_links (n : Nat) (x : SessionX) : (s.setSession n x).links = s.links := rfl
@[simp] theorem State.setSession_flows (n : Nat) (x : SessionX) : (s.setSession n x).flows = s.flows := rfl
@[simp] theorem State.setSession_deck (n : Nat) (x : SessionX) : (s.setSession n x).deck = s.deck := rfl
@[simp] theorem State.setSession_engs (n : Nat) (x : SessionX) : (s.setSession n x).engs = s.engs := rfl
@[simp] theorem State.setSession_dealer (n : Nat) (x : SessionX) : (s.setSession n x).dealer = s.dealer := rfl
@[simp] theorem State.setSession_plans (n : Nat) (x : SessionX) : (s.setSession n x).plans = s.plans := rfl
@[simp] theorem State.setSession_tricks (n : Nat) (x : SessionX) : (s.setSession n x).tricks = s.tricks := rfl
@[simp] theorem State.setSession_beams (n : Nat) (x : SessionX) : (s.setSession n x).beams = s.beams := rfl
@[simp] theorem State.setSession_outp (n : Nat) (x : SessionX) : (s.setSession n x).outp = s.outp := rfl
@[simp] theorem State.setSession_timeb (n : Nat) (x : SessionX) : (s.setSession n x).timeb = s.timeb := rfl
@[simp] theorem State.setSession_hbm (n : Nat) (x : SessionX) : (s.setSession n x).hbm = s.hbm := rfl
@[simp] theorem State.setSession_spd (n : Nat) (x : SessionX) : (s.setSession n x).spd = s.spd := rfl
@[simp] theorem State.setSession_sec (n : Nat) (x : SessionX) : (s.setSession n x).sec = s.sec := rfl
@[simp] theorem State.setSession_ledger (n : Nat) (x : SessionX) : (s.setSession n x).ledger = s.ledger := rfl
@[simp] theorem State.setSession_fab (n : Nat) (x : SessionX) : (s.setSession n x).fab = s.fab := rfl
@[simp] theorem State.setSession_dma (n : Nat) (x : SessionX) : (s.setSession n x).dma = s.dma := rfl
@[simp] theorem State.setSession_dmaRr (n : Nat) (x : SessionX) : (s.setSession n x).dmaRr = s.dmaRr := rfl
@[simp] theorem State.setSession_pciPhase (n : Nat) (x : SessionX) : (s.setSession n x).pciPhase = s.pciPhase := rfl
@[simp] theorem State.setSession_flt (n : Nat) (x : SessionX) : (s.setSession n x).flt = s.flt := rfl
@[simp] theorem State.setSession_pow (n : Nat) (x : SessionX) : (s.setSession n x).pow = s.pow := rfl
@[simp] theorem State.setSession_modl (n : Nat) (x : SessionX) : (s.setSession n x).modl = s.modl := rfl

/-! `setFlow` -/

@[simp] theorem State.setFlow_pending (f : Nat) (x : FlowX) : (s.setFlow f x).pending = s.pending := rfl
@[simp] theorem State.setFlow_regs (f : Nat) (x : FlowX) : (s.setFlow f x).regs = s.regs := rfl
@[simp] theorem State.setFlow_lcs (f : Nat) (x : FlowX) : (s.setFlow f x).lcs = s.lcs := rfl
@[simp] theorem State.setFlow_fresh (f : Nat) (x : FlowX) : (s.setFlow f x).fresh = s.fresh := rfl
@[simp] theorem State.setFlow_clock (f : Nat) (x : FlowX) : (s.setFlow f x).clock = s.clock := rfl
@[simp] theorem State.setFlow_sent (f : Nat) (x : FlowX) : (s.setFlow f x).sent = s.sent := rfl
@[simp] theorem State.setFlow_lanes (f : Nat) (x : FlowX) : (s.setFlow f x).lanes = s.lanes := rfl
@[simp] theorem State.setFlow_bundles (f : Nat) (x : FlowX) : (s.setFlow f x).bundles = s.bundles := rfl
@[simp] theorem State.setFlow_links (f : Nat) (x : FlowX) : (s.setFlow f x).links = s.links := rfl
@[simp] theorem State.setFlow_sess (f : Nat) (x : FlowX) : (s.setFlow f x).sess = s.sess := rfl
@[simp] theorem State.setFlow_deck (f : Nat) (x : FlowX) : (s.setFlow f x).deck = s.deck := rfl
@[simp] theorem State.setFlow_engs (f : Nat) (x : FlowX) : (s.setFlow f x).engs = s.engs := rfl
@[simp] theorem State.setFlow_dealer (f : Nat) (x : FlowX) : (s.setFlow f x).dealer = s.dealer := rfl
@[simp] theorem State.setFlow_plans (f : Nat) (x : FlowX) : (s.setFlow f x).plans = s.plans := rfl
@[simp] theorem State.setFlow_tricks (f : Nat) (x : FlowX) : (s.setFlow f x).tricks = s.tricks := rfl
@[simp] theorem State.setFlow_beams (f : Nat) (x : FlowX) : (s.setFlow f x).beams = s.beams := rfl
@[simp] theorem State.setFlow_outp (f : Nat) (x : FlowX) : (s.setFlow f x).outp = s.outp := rfl
@[simp] theorem State.setFlow_timeb (f : Nat) (x : FlowX) : (s.setFlow f x).timeb = s.timeb := rfl
@[simp] theorem State.setFlow_hbm (f : Nat) (x : FlowX) : (s.setFlow f x).hbm = s.hbm := rfl
@[simp] theorem State.setFlow_spd (f : Nat) (x : FlowX) : (s.setFlow f x).spd = s.spd := rfl
@[simp] theorem State.setFlow_sec (f : Nat) (x : FlowX) : (s.setFlow f x).sec = s.sec := rfl
@[simp] theorem State.setFlow_ledger (f : Nat) (x : FlowX) : (s.setFlow f x).ledger = s.ledger := rfl
@[simp] theorem State.setFlow_fab (f : Nat) (x : FlowX) : (s.setFlow f x).fab = s.fab := rfl
@[simp] theorem State.setFlow_dma (f : Nat) (x : FlowX) : (s.setFlow f x).dma = s.dma := rfl
@[simp] theorem State.setFlow_dmaRr (f : Nat) (x : FlowX) : (s.setFlow f x).dmaRr = s.dmaRr := rfl
@[simp] theorem State.setFlow_pciPhase (f : Nat) (x : FlowX) : (s.setFlow f x).pciPhase = s.pciPhase := rfl
@[simp] theorem State.setFlow_flt (f : Nat) (x : FlowX) : (s.setFlow f x).flt = s.flt := rfl
@[simp] theorem State.setFlow_pow (f : Nat) (x : FlowX) : (s.setFlow f x).pow = s.pow := rfl
@[simp] theorem State.setFlow_modl (f : Nat) (x : FlowX) : (s.setFlow f x).modl = s.modl := rfl

/-! `setEng` -/

@[simp] theorem State.setEng_pending (e : Nat) (x : Engine) : (s.setEng e x).pending = s.pending := rfl
@[simp] theorem State.setEng_regs (e : Nat) (x : Engine) : (s.setEng e x).regs = s.regs := rfl
@[simp] theorem State.setEng_lcs (e : Nat) (x : Engine) : (s.setEng e x).lcs = s.lcs := rfl
@[simp] theorem State.setEng_fresh (e : Nat) (x : Engine) : (s.setEng e x).fresh = s.fresh := rfl
@[simp] theorem State.setEng_clock (e : Nat) (x : Engine) : (s.setEng e x).clock = s.clock := rfl
@[simp] theorem State.setEng_sent (e : Nat) (x : Engine) : (s.setEng e x).sent = s.sent := rfl
@[simp] theorem State.setEng_lanes (e : Nat) (x : Engine) : (s.setEng e x).lanes = s.lanes := rfl
@[simp] theorem State.setEng_bundles (e : Nat) (x : Engine) : (s.setEng e x).bundles = s.bundles := rfl
@[simp] theorem State.setEng_links (e : Nat) (x : Engine) : (s.setEng e x).links = s.links := rfl
@[simp] theorem State.setEng_sess (e : Nat) (x : Engine) : (s.setEng e x).sess = s.sess := rfl
@[simp] theorem State.setEng_flows (e : Nat) (x : Engine) : (s.setEng e x).flows = s.flows := rfl
@[simp] theorem State.setEng_deck (e : Nat) (x : Engine) : (s.setEng e x).deck = s.deck := rfl
@[simp] theorem State.setEng_dealer (e : Nat) (x : Engine) : (s.setEng e x).dealer = s.dealer := rfl
@[simp] theorem State.setEng_plans (e : Nat) (x : Engine) : (s.setEng e x).plans = s.plans := rfl
@[simp] theorem State.setEng_tricks (e : Nat) (x : Engine) : (s.setEng e x).tricks = s.tricks := rfl
@[simp] theorem State.setEng_beams (e : Nat) (x : Engine) : (s.setEng e x).beams = s.beams := rfl
@[simp] theorem State.setEng_outp (e : Nat) (x : Engine) : (s.setEng e x).outp = s.outp := rfl
@[simp] theorem State.setEng_timeb (e : Nat) (x : Engine) : (s.setEng e x).timeb = s.timeb := rfl
@[simp] theorem State.setEng_hbm (e : Nat) (x : Engine) : (s.setEng e x).hbm = s.hbm := rfl
@[simp] theorem State.setEng_spd (e : Nat) (x : Engine) : (s.setEng e x).spd = s.spd := rfl
@[simp] theorem State.setEng_sec (e : Nat) (x : Engine) : (s.setEng e x).sec = s.sec := rfl
@[simp] theorem State.setEng_ledger (e : Nat) (x : Engine) : (s.setEng e x).ledger = s.ledger := rfl
@[simp] theorem State.setEng_fab (e : Nat) (x : Engine) : (s.setEng e x).fab = s.fab := rfl
@[simp] theorem State.setEng_dma (e : Nat) (x : Engine) : (s.setEng e x).dma = s.dma := rfl
@[simp] theorem State.setEng_dmaRr (e : Nat) (x : Engine) : (s.setEng e x).dmaRr = s.dmaRr := rfl
@[simp] theorem State.setEng_pciPhase (e : Nat) (x : Engine) : (s.setEng e x).pciPhase = s.pciPhase := rfl
@[simp] theorem State.setEng_flt (e : Nat) (x : Engine) : (s.setEng e x).flt = s.flt := rfl
@[simp] theorem State.setEng_pow (e : Nat) (x : Engine) : (s.setEng e x).pow = s.pow := rfl
@[simp] theorem State.setEng_modl (e : Nat) (x : Engine) : (s.setEng e x).modl = s.modl := rfl

/-! `setCore` -/

@[simp] theorem State.setCore_pending (e : Nat) (c : CoreState) : (s.setCore e c).pending = s.pending := rfl
@[simp] theorem State.setCore_regs (e : Nat) (c : CoreState) : (s.setCore e c).regs = s.regs := rfl
@[simp] theorem State.setCore_lcs (e : Nat) (c : CoreState) : (s.setCore e c).lcs = s.lcs := rfl
@[simp] theorem State.setCore_fresh (e : Nat) (c : CoreState) : (s.setCore e c).fresh = s.fresh := rfl
@[simp] theorem State.setCore_clock (e : Nat) (c : CoreState) : (s.setCore e c).clock = s.clock := rfl
@[simp] theorem State.setCore_sent (e : Nat) (c : CoreState) : (s.setCore e c).sent = s.sent := rfl
@[simp] theorem State.setCore_lanes (e : Nat) (c : CoreState) : (s.setCore e c).lanes = s.lanes := rfl
@[simp] theorem State.setCore_bundles (e : Nat) (c : CoreState) : (s.setCore e c).bundles = s.bundles := rfl
@[simp] theorem State.setCore_links (e : Nat) (c : CoreState) : (s.setCore e c).links = s.links := rfl
@[simp] theorem State.setCore_sess (e : Nat) (c : CoreState) : (s.setCore e c).sess = s.sess := rfl
@[simp] theorem State.setCore_flows (e : Nat) (c : CoreState) : (s.setCore e c).flows = s.flows := rfl
@[simp] theorem State.setCore_deck (e : Nat) (c : CoreState) : (s.setCore e c).deck = s.deck := rfl
@[simp] theorem State.setCore_dealer (e : Nat) (c : CoreState) : (s.setCore e c).dealer = s.dealer := rfl
@[simp] theorem State.setCore_plans (e : Nat) (c : CoreState) : (s.setCore e c).plans = s.plans := rfl
@[simp] theorem State.setCore_tricks (e : Nat) (c : CoreState) : (s.setCore e c).tricks = s.tricks := rfl
@[simp] theorem State.setCore_beams (e : Nat) (c : CoreState) : (s.setCore e c).beams = s.beams := rfl
@[simp] theorem State.setCore_outp (e : Nat) (c : CoreState) : (s.setCore e c).outp = s.outp := rfl
@[simp] theorem State.setCore_timeb (e : Nat) (c : CoreState) : (s.setCore e c).timeb = s.timeb := rfl
@[simp] theorem State.setCore_hbm (e : Nat) (c : CoreState) : (s.setCore e c).hbm = s.hbm := rfl
@[simp] theorem State.setCore_spd (e : Nat) (c : CoreState) : (s.setCore e c).spd = s.spd := rfl
@[simp] theorem State.setCore_sec (e : Nat) (c : CoreState) : (s.setCore e c).sec = s.sec := rfl
@[simp] theorem State.setCore_ledger (e : Nat) (c : CoreState) : (s.setCore e c).ledger = s.ledger := rfl
@[simp] theorem State.setCore_fab (e : Nat) (c : CoreState) : (s.setCore e c).fab = s.fab := rfl
@[simp] theorem State.setCore_dma (e : Nat) (c : CoreState) : (s.setCore e c).dma = s.dma := rfl
@[simp] theorem State.setCore_dmaRr (e : Nat) (c : CoreState) : (s.setCore e c).dmaRr = s.dmaRr := rfl
@[simp] theorem State.setCore_pciPhase (e : Nat) (c : CoreState) : (s.setCore e c).pciPhase = s.pciPhase := rfl
@[simp] theorem State.setCore_flt (e : Nat) (c : CoreState) : (s.setCore e c).flt = s.flt := rfl
@[simp] theorem State.setCore_pow (e : Nat) (c : CoreState) : (s.setCore e c).pow = s.pow := rfl
@[simp] theorem State.setCore_modl (e : Nat) (c : CoreState) : (s.setCore e c).modl = s.modl := rfl

/-! `setSlot` -/

@[simp] theorem State.setSlot_pending (i : Nat) (x : PlanSlot) : (s.setSlot i x).pending = s.pending := rfl
@[simp] theorem State.setSlot_regs (i : Nat) (x : PlanSlot) : (s.setSlot i x).regs = s.regs := rfl
@[simp] theorem State.setSlot_lcs (i : Nat) (x : PlanSlot) : (s.setSlot i x).lcs = s.lcs := rfl
@[simp] theorem State.setSlot_fresh (i : Nat) (x : PlanSlot) : (s.setSlot i x).fresh = s.fresh := rfl
@[simp] theorem State.setSlot_clock (i : Nat) (x : PlanSlot) : (s.setSlot i x).clock = s.clock := rfl
@[simp] theorem State.setSlot_sent (i : Nat) (x : PlanSlot) : (s.setSlot i x).sent = s.sent := rfl
@[simp] theorem State.setSlot_lanes (i : Nat) (x : PlanSlot) : (s.setSlot i x).lanes = s.lanes := rfl
@[simp] theorem State.setSlot_bundles (i : Nat) (x : PlanSlot) : (s.setSlot i x).bundles = s.bundles := rfl
@[simp] theorem State.setSlot_links (i : Nat) (x : PlanSlot) : (s.setSlot i x).links = s.links := rfl
@[simp] theorem State.setSlot_sess (i : Nat) (x : PlanSlot) : (s.setSlot i x).sess = s.sess := rfl
@[simp] theorem State.setSlot_flows (i : Nat) (x : PlanSlot) : (s.setSlot i x).flows = s.flows := rfl
@[simp] theorem State.setSlot_deck (i : Nat) (x : PlanSlot) : (s.setSlot i x).deck = s.deck := rfl
@[simp] theorem State.setSlot_engs (i : Nat) (x : PlanSlot) : (s.setSlot i x).engs = s.engs := rfl
@[simp] theorem State.setSlot_dealer (i : Nat) (x : PlanSlot) : (s.setSlot i x).dealer = s.dealer := rfl
@[simp] theorem State.setSlot_tricks (i : Nat) (x : PlanSlot) : (s.setSlot i x).tricks = s.tricks := rfl
@[simp] theorem State.setSlot_beams (i : Nat) (x : PlanSlot) : (s.setSlot i x).beams = s.beams := rfl
@[simp] theorem State.setSlot_outp (i : Nat) (x : PlanSlot) : (s.setSlot i x).outp = s.outp := rfl
@[simp] theorem State.setSlot_timeb (i : Nat) (x : PlanSlot) : (s.setSlot i x).timeb = s.timeb := rfl
@[simp] theorem State.setSlot_hbm (i : Nat) (x : PlanSlot) : (s.setSlot i x).hbm = s.hbm := rfl
@[simp] theorem State.setSlot_spd (i : Nat) (x : PlanSlot) : (s.setSlot i x).spd = s.spd := rfl
@[simp] theorem State.setSlot_sec (i : Nat) (x : PlanSlot) : (s.setSlot i x).sec = s.sec := rfl
@[simp] theorem State.setSlot_ledger (i : Nat) (x : PlanSlot) : (s.setSlot i x).ledger = s.ledger := rfl
@[simp] theorem State.setSlot_fab (i : Nat) (x : PlanSlot) : (s.setSlot i x).fab = s.fab := rfl
@[simp] theorem State.setSlot_dma (i : Nat) (x : PlanSlot) : (s.setSlot i x).dma = s.dma := rfl
@[simp] theorem State.setSlot_dmaRr (i : Nat) (x : PlanSlot) : (s.setSlot i x).dmaRr = s.dmaRr := rfl
@[simp] theorem State.setSlot_pciPhase (i : Nat) (x : PlanSlot) : (s.setSlot i x).pciPhase = s.pciPhase := rfl
@[simp] theorem State.setSlot_flt (i : Nat) (x : PlanSlot) : (s.setSlot i x).flt = s.flt := rfl
@[simp] theorem State.setSlot_pow (i : Nat) (x : PlanSlot) : (s.setSlot i x).pow = s.pow := rfl
@[simp] theorem State.setSlot_modl (i : Nat) (x : PlanSlot) : (s.setSlot i x).modl = s.modl := rfl

/-! `setPart` -/

@[simp] theorem State.setPart_pending (p : Nat) (x : Partition) : (s.setPart p x).pending = s.pending := rfl
@[simp] theorem State.setPart_regs (p : Nat) (x : Partition) : (s.setPart p x).regs = s.regs := rfl
@[simp] theorem State.setPart_lcs (p : Nat) (x : Partition) : (s.setPart p x).lcs = s.lcs := rfl
@[simp] theorem State.setPart_fresh (p : Nat) (x : Partition) : (s.setPart p x).fresh = s.fresh := rfl
@[simp] theorem State.setPart_clock (p : Nat) (x : Partition) : (s.setPart p x).clock = s.clock := rfl
@[simp] theorem State.setPart_sent (p : Nat) (x : Partition) : (s.setPart p x).sent = s.sent := rfl
@[simp] theorem State.setPart_lanes (p : Nat) (x : Partition) : (s.setPart p x).lanes = s.lanes := rfl
@[simp] theorem State.setPart_bundles (p : Nat) (x : Partition) : (s.setPart p x).bundles = s.bundles := rfl
@[simp] theorem State.setPart_links (p : Nat) (x : Partition) : (s.setPart p x).links = s.links := rfl
@[simp] theorem State.setPart_sess (p : Nat) (x : Partition) : (s.setPart p x).sess = s.sess := rfl
@[simp] theorem State.setPart_flows (p : Nat) (x : Partition) : (s.setPart p x).flows = s.flows := rfl
@[simp] theorem State.setPart_deck (p : Nat) (x : Partition) : (s.setPart p x).deck = s.deck := rfl
@[simp] theorem State.setPart_engs (p : Nat) (x : Partition) : (s.setPart p x).engs = s.engs := rfl
@[simp] theorem State.setPart_dealer (p : Nat) (x : Partition) : (s.setPart p x).dealer = s.dealer := rfl
@[simp] theorem State.setPart_plans (p : Nat) (x : Partition) : (s.setPart p x).plans = s.plans := rfl
@[simp] theorem State.setPart_tricks (p : Nat) (x : Partition) : (s.setPart p x).tricks = s.tricks := rfl
@[simp] theorem State.setPart_beams (p : Nat) (x : Partition) : (s.setPart p x).beams = s.beams := rfl
@[simp] theorem State.setPart_timeb (p : Nat) (x : Partition) : (s.setPart p x).timeb = s.timeb := rfl
@[simp] theorem State.setPart_hbm (p : Nat) (x : Partition) : (s.setPart p x).hbm = s.hbm := rfl
@[simp] theorem State.setPart_spd (p : Nat) (x : Partition) : (s.setPart p x).spd = s.spd := rfl
@[simp] theorem State.setPart_sec (p : Nat) (x : Partition) : (s.setPart p x).sec = s.sec := rfl
@[simp] theorem State.setPart_ledger (p : Nat) (x : Partition) : (s.setPart p x).ledger = s.ledger := rfl
@[simp] theorem State.setPart_fab (p : Nat) (x : Partition) : (s.setPart p x).fab = s.fab := rfl
@[simp] theorem State.setPart_dma (p : Nat) (x : Partition) : (s.setPart p x).dma = s.dma := rfl
@[simp] theorem State.setPart_dmaRr (p : Nat) (x : Partition) : (s.setPart p x).dmaRr = s.dmaRr := rfl
@[simp] theorem State.setPart_pciPhase (p : Nat) (x : Partition) : (s.setPart p x).pciPhase = s.pciPhase := rfl
@[simp] theorem State.setPart_flt (p : Nat) (x : Partition) : (s.setPart p x).flt = s.flt := rfl
@[simp] theorem State.setPart_pow (p : Nat) (x : Partition) : (s.setPart p x).pow = s.pow := rfl
@[simp] theorem State.setPart_modl (p : Nat) (x : Partition) : (s.setPart p x).modl = s.modl := rfl

/-! `setZslot` -/

@[simp] theorem State.setZslot_pending (i : Nat) (x : ZoomSlot) : (s.setZslot i x).pending = s.pending := rfl
@[simp] theorem State.setZslot_regs (i : Nat) (x : ZoomSlot) : (s.setZslot i x).regs = s.regs := rfl
@[simp] theorem State.setZslot_lcs (i : Nat) (x : ZoomSlot) : (s.setZslot i x).lcs = s.lcs := rfl
@[simp] theorem State.setZslot_fresh (i : Nat) (x : ZoomSlot) : (s.setZslot i x).fresh = s.fresh := rfl
@[simp] theorem State.setZslot_clock (i : Nat) (x : ZoomSlot) : (s.setZslot i x).clock = s.clock := rfl
@[simp] theorem State.setZslot_sent (i : Nat) (x : ZoomSlot) : (s.setZslot i x).sent = s.sent := rfl
@[simp] theorem State.setZslot_lanes (i : Nat) (x : ZoomSlot) : (s.setZslot i x).lanes = s.lanes := rfl
@[simp] theorem State.setZslot_bundles (i : Nat) (x : ZoomSlot) : (s.setZslot i x).bundles = s.bundles := rfl
@[simp] theorem State.setZslot_links (i : Nat) (x : ZoomSlot) : (s.setZslot i x).links = s.links := rfl
@[simp] theorem State.setZslot_sess (i : Nat) (x : ZoomSlot) : (s.setZslot i x).sess = s.sess := rfl
@[simp] theorem State.setZslot_flows (i : Nat) (x : ZoomSlot) : (s.setZslot i x).flows = s.flows := rfl
@[simp] theorem State.setZslot_deck (i : Nat) (x : ZoomSlot) : (s.setZslot i x).deck = s.deck := rfl
@[simp] theorem State.setZslot_engs (i : Nat) (x : ZoomSlot) : (s.setZslot i x).engs = s.engs := rfl
@[simp] theorem State.setZslot_dealer (i : Nat) (x : ZoomSlot) : (s.setZslot i x).dealer = s.dealer := rfl
@[simp] theorem State.setZslot_plans (i : Nat) (x : ZoomSlot) : (s.setZslot i x).plans = s.plans := rfl
@[simp] theorem State.setZslot_tricks (i : Nat) (x : ZoomSlot) : (s.setZslot i x).tricks = s.tricks := rfl
@[simp] theorem State.setZslot_outp (i : Nat) (x : ZoomSlot) : (s.setZslot i x).outp = s.outp := rfl
@[simp] theorem State.setZslot_timeb (i : Nat) (x : ZoomSlot) : (s.setZslot i x).timeb = s.timeb := rfl
@[simp] theorem State.setZslot_hbm (i : Nat) (x : ZoomSlot) : (s.setZslot i x).hbm = s.hbm := rfl
@[simp] theorem State.setZslot_spd (i : Nat) (x : ZoomSlot) : (s.setZslot i x).spd = s.spd := rfl
@[simp] theorem State.setZslot_sec (i : Nat) (x : ZoomSlot) : (s.setZslot i x).sec = s.sec := rfl
@[simp] theorem State.setZslot_ledger (i : Nat) (x : ZoomSlot) : (s.setZslot i x).ledger = s.ledger := rfl
@[simp] theorem State.setZslot_fab (i : Nat) (x : ZoomSlot) : (s.setZslot i x).fab = s.fab := rfl
@[simp] theorem State.setZslot_dma (i : Nat) (x : ZoomSlot) : (s.setZslot i x).dma = s.dma := rfl
@[simp] theorem State.setZslot_dmaRr (i : Nat) (x : ZoomSlot) : (s.setZslot i x).dmaRr = s.dmaRr := rfl
@[simp] theorem State.setZslot_pciPhase (i : Nat) (x : ZoomSlot) : (s.setZslot i x).pciPhase = s.pciPhase := rfl
@[simp] theorem State.setZslot_flt (i : Nat) (x : ZoomSlot) : (s.setZslot i x).flt = s.flt := rfl
@[simp] theorem State.setZslot_pow (i : Nat) (x : ZoomSlot) : (s.setZslot i x).pow = s.pow := rfl
@[simp] theorem State.setZslot_modl (i : Nat) (x : ZoomSlot) : (s.setZslot i x).modl = s.modl := rfl

/-! `setChan` -/

@[simp] theorem State.setChan_pending (t ch : Nat) (x : RangeChan) : (s.setChan t ch x).pending = s.pending := rfl
@[simp] theorem State.setChan_regs (t ch : Nat) (x : RangeChan) : (s.setChan t ch x).regs = s.regs := rfl
@[simp] theorem State.setChan_lcs (t ch : Nat) (x : RangeChan) : (s.setChan t ch x).lcs = s.lcs := rfl
@[simp] theorem State.setChan_fresh (t ch : Nat) (x : RangeChan) : (s.setChan t ch x).fresh = s.fresh := rfl
@[simp] theorem State.setChan_clock (t ch : Nat) (x : RangeChan) : (s.setChan t ch x).clock = s.clock := rfl
@[simp] theorem State.setChan_sent (t ch : Nat) (x : RangeChan) : (s.setChan t ch x).sent = s.sent := rfl
@[simp] theorem State.setChan_lanes (t ch : Nat) (x : RangeChan) : (s.setChan t ch x).lanes = s.lanes := rfl
@[simp] theorem State.setChan_bundles (t ch : Nat) (x : RangeChan) : (s.setChan t ch x).bundles = s.bundles := rfl
@[simp] theorem State.setChan_links (t ch : Nat) (x : RangeChan) : (s.setChan t ch x).links = s.links := rfl
@[simp] theorem State.setChan_sess (t ch : Nat) (x : RangeChan) : (s.setChan t ch x).sess = s.sess := rfl
@[simp] theorem State.setChan_flows (t ch : Nat) (x : RangeChan) : (s.setChan t ch x).flows = s.flows := rfl
@[simp] theorem State.setChan_engs (t ch : Nat) (x : RangeChan) : (s.setChan t ch x).engs = s.engs := rfl
@[simp] theorem State.setChan_dealer (t ch : Nat) (x : RangeChan) : (s.setChan t ch x).dealer = s.dealer := rfl
@[simp] theorem State.setChan_plans (t ch : Nat) (x : RangeChan) : (s.setChan t ch x).plans = s.plans := rfl
@[simp] theorem State.setChan_tricks (t ch : Nat) (x : RangeChan) : (s.setChan t ch x).tricks = s.tricks := rfl
@[simp] theorem State.setChan_beams (t ch : Nat) (x : RangeChan) : (s.setChan t ch x).beams = s.beams := rfl
@[simp] theorem State.setChan_outp (t ch : Nat) (x : RangeChan) : (s.setChan t ch x).outp = s.outp := rfl
@[simp] theorem State.setChan_timeb (t ch : Nat) (x : RangeChan) : (s.setChan t ch x).timeb = s.timeb := rfl
@[simp] theorem State.setChan_hbm (t ch : Nat) (x : RangeChan) : (s.setChan t ch x).hbm = s.hbm := rfl
@[simp] theorem State.setChan_spd (t ch : Nat) (x : RangeChan) : (s.setChan t ch x).spd = s.spd := rfl
@[simp] theorem State.setChan_sec (t ch : Nat) (x : RangeChan) : (s.setChan t ch x).sec = s.sec := rfl
@[simp] theorem State.setChan_ledger (t ch : Nat) (x : RangeChan) : (s.setChan t ch x).ledger = s.ledger := rfl
@[simp] theorem State.setChan_fab (t ch : Nat) (x : RangeChan) : (s.setChan t ch x).fab = s.fab := rfl
@[simp] theorem State.setChan_dma (t ch : Nat) (x : RangeChan) : (s.setChan t ch x).dma = s.dma := rfl
@[simp] theorem State.setChan_dmaRr (t ch : Nat) (x : RangeChan) : (s.setChan t ch x).dmaRr = s.dmaRr := rfl
@[simp] theorem State.setChan_pciPhase (t ch : Nat) (x : RangeChan) : (s.setChan t ch x).pciPhase = s.pciPhase := rfl
@[simp] theorem State.setChan_flt (t ch : Nat) (x : RangeChan) : (s.setChan t ch x).flt = s.flt := rfl
@[simp] theorem State.setChan_pow (t ch : Nat) (x : RangeChan) : (s.setChan t ch x).pow = s.pow := rfl
@[simp] theorem State.setChan_modl (t ch : Nat) (x : RangeChan) : (s.setChan t ch x).modl = s.modl := rfl

/-! `setRefx` -/

@[simp] theorem State.setRefx_pending (r : Nat) (x : RefX) : (s.setRefx r x).pending = s.pending := rfl
@[simp] theorem State.setRefx_regs (r : Nat) (x : RefX) : (s.setRefx r x).regs = s.regs := rfl
@[simp] theorem State.setRefx_lcs (r : Nat) (x : RefX) : (s.setRefx r x).lcs = s.lcs := rfl
@[simp] theorem State.setRefx_fresh (r : Nat) (x : RefX) : (s.setRefx r x).fresh = s.fresh := rfl
@[simp] theorem State.setRefx_clock (r : Nat) (x : RefX) : (s.setRefx r x).clock = s.clock := rfl
@[simp] theorem State.setRefx_sent (r : Nat) (x : RefX) : (s.setRefx r x).sent = s.sent := rfl
@[simp] theorem State.setRefx_lanes (r : Nat) (x : RefX) : (s.setRefx r x).lanes = s.lanes := rfl
@[simp] theorem State.setRefx_bundles (r : Nat) (x : RefX) : (s.setRefx r x).bundles = s.bundles := rfl
@[simp] theorem State.setRefx_links (r : Nat) (x : RefX) : (s.setRefx r x).links = s.links := rfl
@[simp] theorem State.setRefx_sess (r : Nat) (x : RefX) : (s.setRefx r x).sess = s.sess := rfl
@[simp] theorem State.setRefx_flows (r : Nat) (x : RefX) : (s.setRefx r x).flows = s.flows := rfl
@[simp] theorem State.setRefx_deck (r : Nat) (x : RefX) : (s.setRefx r x).deck = s.deck := rfl
@[simp] theorem State.setRefx_engs (r : Nat) (x : RefX) : (s.setRefx r x).engs = s.engs := rfl
@[simp] theorem State.setRefx_dealer (r : Nat) (x : RefX) : (s.setRefx r x).dealer = s.dealer := rfl
@[simp] theorem State.setRefx_plans (r : Nat) (x : RefX) : (s.setRefx r x).plans = s.plans := rfl
@[simp] theorem State.setRefx_tricks (r : Nat) (x : RefX) : (s.setRefx r x).tricks = s.tricks := rfl
@[simp] theorem State.setRefx_beams (r : Nat) (x : RefX) : (s.setRefx r x).beams = s.beams := rfl
@[simp] theorem State.setRefx_outp (r : Nat) (x : RefX) : (s.setRefx r x).outp = s.outp := rfl
@[simp] theorem State.setRefx_hbm (r : Nat) (x : RefX) : (s.setRefx r x).hbm = s.hbm := rfl
@[simp] theorem State.setRefx_spd (r : Nat) (x : RefX) : (s.setRefx r x).spd = s.spd := rfl
@[simp] theorem State.setRefx_sec (r : Nat) (x : RefX) : (s.setRefx r x).sec = s.sec := rfl
@[simp] theorem State.setRefx_ledger (r : Nat) (x : RefX) : (s.setRefx r x).ledger = s.ledger := rfl
@[simp] theorem State.setRefx_fab (r : Nat) (x : RefX) : (s.setRefx r x).fab = s.fab := rfl
@[simp] theorem State.setRefx_dma (r : Nat) (x : RefX) : (s.setRefx r x).dma = s.dma := rfl
@[simp] theorem State.setRefx_dmaRr (r : Nat) (x : RefX) : (s.setRefx r x).dmaRr = s.dmaRr := rfl
@[simp] theorem State.setRefx_pciPhase (r : Nat) (x : RefX) : (s.setRefx r x).pciPhase = s.pciPhase := rfl
@[simp] theorem State.setRefx_flt (r : Nat) (x : RefX) : (s.setRefx r x).flt = s.flt := rfl
@[simp] theorem State.setRefx_pow (r : Nat) (x : RefX) : (s.setRefx r x).pow = s.pow := rfl
@[simp] theorem State.setRefx_modl (r : Nat) (x : RefX) : (s.setRefx r x).modl = s.modl := rfl

/-! `setDmac` -/

@[simp] theorem State.setDmac_pending (c : Nat) (x : DmaX) : (s.setDmac c x).pending = s.pending := rfl
@[simp] theorem State.setDmac_regs (c : Nat) (x : DmaX) : (s.setDmac c x).regs = s.regs := rfl
@[simp] theorem State.setDmac_lcs (c : Nat) (x : DmaX) : (s.setDmac c x).lcs = s.lcs := rfl
@[simp] theorem State.setDmac_fresh (c : Nat) (x : DmaX) : (s.setDmac c x).fresh = s.fresh := rfl
@[simp] theorem State.setDmac_clock (c : Nat) (x : DmaX) : (s.setDmac c x).clock = s.clock := rfl
@[simp] theorem State.setDmac_sent (c : Nat) (x : DmaX) : (s.setDmac c x).sent = s.sent := rfl
@[simp] theorem State.setDmac_lanes (c : Nat) (x : DmaX) : (s.setDmac c x).lanes = s.lanes := rfl
@[simp] theorem State.setDmac_bundles (c : Nat) (x : DmaX) : (s.setDmac c x).bundles = s.bundles := rfl
@[simp] theorem State.setDmac_links (c : Nat) (x : DmaX) : (s.setDmac c x).links = s.links := rfl
@[simp] theorem State.setDmac_sess (c : Nat) (x : DmaX) : (s.setDmac c x).sess = s.sess := rfl
@[simp] theorem State.setDmac_flows (c : Nat) (x : DmaX) : (s.setDmac c x).flows = s.flows := rfl
@[simp] theorem State.setDmac_deck (c : Nat) (x : DmaX) : (s.setDmac c x).deck = s.deck := rfl
@[simp] theorem State.setDmac_engs (c : Nat) (x : DmaX) : (s.setDmac c x).engs = s.engs := rfl
@[simp] theorem State.setDmac_dealer (c : Nat) (x : DmaX) : (s.setDmac c x).dealer = s.dealer := rfl
@[simp] theorem State.setDmac_plans (c : Nat) (x : DmaX) : (s.setDmac c x).plans = s.plans := rfl
@[simp] theorem State.setDmac_tricks (c : Nat) (x : DmaX) : (s.setDmac c x).tricks = s.tricks := rfl
@[simp] theorem State.setDmac_beams (c : Nat) (x : DmaX) : (s.setDmac c x).beams = s.beams := rfl
@[simp] theorem State.setDmac_outp (c : Nat) (x : DmaX) : (s.setDmac c x).outp = s.outp := rfl
@[simp] theorem State.setDmac_timeb (c : Nat) (x : DmaX) : (s.setDmac c x).timeb = s.timeb := rfl
@[simp] theorem State.setDmac_hbm (c : Nat) (x : DmaX) : (s.setDmac c x).hbm = s.hbm := rfl
@[simp] theorem State.setDmac_spd (c : Nat) (x : DmaX) : (s.setDmac c x).spd = s.spd := rfl
@[simp] theorem State.setDmac_sec (c : Nat) (x : DmaX) : (s.setDmac c x).sec = s.sec := rfl
@[simp] theorem State.setDmac_ledger (c : Nat) (x : DmaX) : (s.setDmac c x).ledger = s.ledger := rfl
@[simp] theorem State.setDmac_fab (c : Nat) (x : DmaX) : (s.setDmac c x).fab = s.fab := rfl
@[simp] theorem State.setDmac_dmaRr (c : Nat) (x : DmaX) : (s.setDmac c x).dmaRr = s.dmaRr := rfl
@[simp] theorem State.setDmac_pciPhase (c : Nat) (x : DmaX) : (s.setDmac c x).pciPhase = s.pciPhase := rfl
@[simp] theorem State.setDmac_flt (c : Nat) (x : DmaX) : (s.setDmac c x).flt = s.flt := rfl
@[simp] theorem State.setDmac_pow (c : Nat) (x : DmaX) : (s.setDmac c x).pow = s.pow := rfl
@[simp] theorem State.setDmac_modl (c : Nat) (x : DmaX) : (s.setDmac c x).modl = s.modl := rfl

/-! `setCapture` -/

@[simp] theorem State.setCapture_pending (a b : Nat) (c : Option Capture) : (s.setCapture a b c).pending = s.pending := rfl
@[simp] theorem State.setCapture_regs (a b : Nat) (c : Option Capture) : (s.setCapture a b c).regs = s.regs := rfl
@[simp] theorem State.setCapture_lcs (a b : Nat) (c : Option Capture) : (s.setCapture a b c).lcs = s.lcs := rfl
@[simp] theorem State.setCapture_fresh (a b : Nat) (c : Option Capture) : (s.setCapture a b c).fresh = s.fresh := rfl
@[simp] theorem State.setCapture_clock (a b : Nat) (c : Option Capture) : (s.setCapture a b c).clock = s.clock := rfl
@[simp] theorem State.setCapture_sent (a b : Nat) (c : Option Capture) : (s.setCapture a b c).sent = s.sent := rfl
@[simp] theorem State.setCapture_lanes (a b : Nat) (c : Option Capture) : (s.setCapture a b c).lanes = s.lanes := rfl
@[simp] theorem State.setCapture_bundles (a b : Nat) (c : Option Capture) : (s.setCapture a b c).bundles = s.bundles := rfl
@[simp] theorem State.setCapture_links (a b : Nat) (c : Option Capture) : (s.setCapture a b c).links = s.links := rfl
@[simp] theorem State.setCapture_sess (a b : Nat) (c : Option Capture) : (s.setCapture a b c).sess = s.sess := rfl
@[simp] theorem State.setCapture_flows (a b : Nat) (c : Option Capture) : (s.setCapture a b c).flows = s.flows := rfl
@[simp] theorem State.setCapture_deck (a b : Nat) (c : Option Capture) : (s.setCapture a b c).deck = s.deck := rfl
@[simp] theorem State.setCapture_engs (a b : Nat) (c : Option Capture) : (s.setCapture a b c).engs = s.engs := rfl
@[simp] theorem State.setCapture_dealer (a b : Nat) (c : Option Capture) : (s.setCapture a b c).dealer = s.dealer := rfl
@[simp] theorem State.setCapture_plans (a b : Nat) (c : Option Capture) : (s.setCapture a b c).plans = s.plans := rfl
@[simp] theorem State.setCapture_tricks (a b : Nat) (c : Option Capture) : (s.setCapture a b c).tricks = s.tricks := rfl
@[simp] theorem State.setCapture_beams (a b : Nat) (c : Option Capture) : (s.setCapture a b c).beams = s.beams := rfl
@[simp] theorem State.setCapture_outp (a b : Nat) (c : Option Capture) : (s.setCapture a b c).outp = s.outp := rfl
@[simp] theorem State.setCapture_timeb (a b : Nat) (c : Option Capture) : (s.setCapture a b c).timeb = s.timeb := rfl
@[simp] theorem State.setCapture_hbm (a b : Nat) (c : Option Capture) : (s.setCapture a b c).hbm = s.hbm := rfl
@[simp] theorem State.setCapture_spd (a b : Nat) (c : Option Capture) : (s.setCapture a b c).spd = s.spd := rfl
@[simp] theorem State.setCapture_sec (a b : Nat) (c : Option Capture) : (s.setCapture a b c).sec = s.sec := rfl
@[simp] theorem State.setCapture_ledger (a b : Nat) (c : Option Capture) : (s.setCapture a b c).ledger = s.ledger := rfl
@[simp] theorem State.setCapture_fab (a b : Nat) (c : Option Capture) : (s.setCapture a b c).fab = s.fab := rfl
@[simp] theorem State.setCapture_dma (a b : Nat) (c : Option Capture) : (s.setCapture a b c).dma = s.dma := rfl
@[simp] theorem State.setCapture_dmaRr (a b : Nat) (c : Option Capture) : (s.setCapture a b c).dmaRr = s.dmaRr := rfl
@[simp] theorem State.setCapture_pciPhase (a b : Nat) (c : Option Capture) : (s.setCapture a b c).pciPhase = s.pciPhase := rfl
@[simp] theorem State.setCapture_pow (a b : Nat) (c : Option Capture) : (s.setCapture a b c).pow = s.pow := rfl
@[simp] theorem State.setCapture_modl (a b : Nat) (c : Option Capture) : (s.setCapture a b c).modl = s.modl := rfl

/-! `send` -/

@[simp] theorem State.send_pending (m : Msg) : (s.send m).pending = s.pending := rfl
@[simp] theorem State.send_regs (m : Msg) : (s.send m).regs = s.regs := rfl
@[simp] theorem State.send_lcs (m : Msg) : (s.send m).lcs = s.lcs := rfl
@[simp] theorem State.send_fresh (m : Msg) : (s.send m).fresh = s.fresh := rfl
@[simp] theorem State.send_clock (m : Msg) : (s.send m).clock = s.clock := rfl
@[simp] theorem State.send_lanes (m : Msg) : (s.send m).lanes = s.lanes := rfl
@[simp] theorem State.send_bundles (m : Msg) : (s.send m).bundles = s.bundles := rfl
@[simp] theorem State.send_links (m : Msg) : (s.send m).links = s.links := rfl
@[simp] theorem State.send_sess (m : Msg) : (s.send m).sess = s.sess := rfl
@[simp] theorem State.send_flows (m : Msg) : (s.send m).flows = s.flows := rfl
@[simp] theorem State.send_deck (m : Msg) : (s.send m).deck = s.deck := rfl
@[simp] theorem State.send_engs (m : Msg) : (s.send m).engs = s.engs := rfl
@[simp] theorem State.send_dealer (m : Msg) : (s.send m).dealer = s.dealer := rfl
@[simp] theorem State.send_plans (m : Msg) : (s.send m).plans = s.plans := rfl
@[simp] theorem State.send_tricks (m : Msg) : (s.send m).tricks = s.tricks := rfl
@[simp] theorem State.send_beams (m : Msg) : (s.send m).beams = s.beams := rfl
@[simp] theorem State.send_outp (m : Msg) : (s.send m).outp = s.outp := rfl
@[simp] theorem State.send_timeb (m : Msg) : (s.send m).timeb = s.timeb := rfl
@[simp] theorem State.send_hbm (m : Msg) : (s.send m).hbm = s.hbm := rfl
@[simp] theorem State.send_spd (m : Msg) : (s.send m).spd = s.spd := rfl
@[simp] theorem State.send_sec (m : Msg) : (s.send m).sec = s.sec := rfl
@[simp] theorem State.send_ledger (m : Msg) : (s.send m).ledger = s.ledger := rfl
@[simp] theorem State.send_fab (m : Msg) : (s.send m).fab = s.fab := rfl
@[simp] theorem State.send_dma (m : Msg) : (s.send m).dma = s.dma := rfl
@[simp] theorem State.send_dmaRr (m : Msg) : (s.send m).dmaRr = s.dmaRr := rfl
@[simp] theorem State.send_pciPhase (m : Msg) : (s.send m).pciPhase = s.pciPhase := rfl
@[simp] theorem State.send_flt (m : Msg) : (s.send m).flt = s.flt := rfl
@[simp] theorem State.send_pow (m : Msg) : (s.send m).pow = s.pow := rfl
@[simp] theorem State.send_modl (m : Msg) : (s.send m).modl = s.modl := rfl

/-! `drawn` -/

@[simp] theorem State.drawn_pending : (s.drawn).pending = s.pending := rfl
@[simp] theorem State.drawn_regs : (s.drawn).regs = s.regs := rfl
@[simp] theorem State.drawn_lcs : (s.drawn).lcs = s.lcs := rfl
@[simp] theorem State.drawn_clock : (s.drawn).clock = s.clock := rfl
@[simp] theorem State.drawn_sent : (s.drawn).sent = s.sent := rfl
@[simp] theorem State.drawn_lanes : (s.drawn).lanes = s.lanes := rfl
@[simp] theorem State.drawn_bundles : (s.drawn).bundles = s.bundles := rfl
@[simp] theorem State.drawn_links : (s.drawn).links = s.links := rfl
@[simp] theorem State.drawn_sess : (s.drawn).sess = s.sess := rfl
@[simp] theorem State.drawn_flows : (s.drawn).flows = s.flows := rfl
@[simp] theorem State.drawn_deck : (s.drawn).deck = s.deck := rfl
@[simp] theorem State.drawn_engs : (s.drawn).engs = s.engs := rfl
@[simp] theorem State.drawn_dealer : (s.drawn).dealer = s.dealer := rfl
@[simp] theorem State.drawn_plans : (s.drawn).plans = s.plans := rfl
@[simp] theorem State.drawn_tricks : (s.drawn).tricks = s.tricks := rfl
@[simp] theorem State.drawn_beams : (s.drawn).beams = s.beams := rfl
@[simp] theorem State.drawn_outp : (s.drawn).outp = s.outp := rfl
@[simp] theorem State.drawn_timeb : (s.drawn).timeb = s.timeb := rfl
@[simp] theorem State.drawn_hbm : (s.drawn).hbm = s.hbm := rfl
@[simp] theorem State.drawn_spd : (s.drawn).spd = s.spd := rfl
@[simp] theorem State.drawn_sec : (s.drawn).sec = s.sec := rfl
@[simp] theorem State.drawn_ledger : (s.drawn).ledger = s.ledger := rfl
@[simp] theorem State.drawn_fab : (s.drawn).fab = s.fab := rfl
@[simp] theorem State.drawn_dma : (s.drawn).dma = s.dma := rfl
@[simp] theorem State.drawn_dmaRr : (s.drawn).dmaRr = s.dmaRr := rfl
@[simp] theorem State.drawn_pciPhase : (s.drawn).pciPhase = s.pciPhase := rfl
@[simp] theorem State.drawn_flt : (s.drawn).flt = s.flt := rfl
@[simp] theorem State.drawn_pow : (s.drawn).pow = s.pow := rfl
@[simp] theorem State.drawn_modl : (s.drawn).modl = s.modl := rfl

/-! `setNowNs` -/

@[simp] theorem State.setNowNs_pending (t : Nat) : (s.setNowNs t).pending = s.pending := rfl
@[simp] theorem State.setNowNs_regs (t : Nat) : (s.setNowNs t).regs = s.regs := rfl
@[simp] theorem State.setNowNs_lcs (t : Nat) : (s.setNowNs t).lcs = s.lcs := rfl
@[simp] theorem State.setNowNs_fresh (t : Nat) : (s.setNowNs t).fresh = s.fresh := rfl
@[simp] theorem State.setNowNs_clock (t : Nat) : (s.setNowNs t).clock = s.clock := rfl
@[simp] theorem State.setNowNs_sent (t : Nat) : (s.setNowNs t).sent = s.sent := rfl
@[simp] theorem State.setNowNs_lanes (t : Nat) : (s.setNowNs t).lanes = s.lanes := rfl
@[simp] theorem State.setNowNs_bundles (t : Nat) : (s.setNowNs t).bundles = s.bundles := rfl
@[simp] theorem State.setNowNs_links (t : Nat) : (s.setNowNs t).links = s.links := rfl
@[simp] theorem State.setNowNs_sess (t : Nat) : (s.setNowNs t).sess = s.sess := rfl
@[simp] theorem State.setNowNs_flows (t : Nat) : (s.setNowNs t).flows = s.flows := rfl
@[simp] theorem State.setNowNs_deck (t : Nat) : (s.setNowNs t).deck = s.deck := rfl
@[simp] theorem State.setNowNs_engs (t : Nat) : (s.setNowNs t).engs = s.engs := rfl
@[simp] theorem State.setNowNs_dealer (t : Nat) : (s.setNowNs t).dealer = s.dealer := rfl
@[simp] theorem State.setNowNs_plans (t : Nat) : (s.setNowNs t).plans = s.plans := rfl
@[simp] theorem State.setNowNs_tricks (t : Nat) : (s.setNowNs t).tricks = s.tricks := rfl
@[simp] theorem State.setNowNs_beams (t : Nat) : (s.setNowNs t).beams = s.beams := rfl
@[simp] theorem State.setNowNs_outp (t : Nat) : (s.setNowNs t).outp = s.outp := rfl
@[simp] theorem State.setNowNs_hbm (t : Nat) : (s.setNowNs t).hbm = s.hbm := rfl
@[simp] theorem State.setNowNs_spd (t : Nat) : (s.setNowNs t).spd = s.spd := rfl
@[simp] theorem State.setNowNs_sec (t : Nat) : (s.setNowNs t).sec = s.sec := rfl
@[simp] theorem State.setNowNs_ledger (t : Nat) : (s.setNowNs t).ledger = s.ledger := rfl
@[simp] theorem State.setNowNs_fab (t : Nat) : (s.setNowNs t).fab = s.fab := rfl
@[simp] theorem State.setNowNs_dma (t : Nat) : (s.setNowNs t).dma = s.dma := rfl
@[simp] theorem State.setNowNs_dmaRr (t : Nat) : (s.setNowNs t).dmaRr = s.dmaRr := rfl
@[simp] theorem State.setNowNs_pciPhase (t : Nat) : (s.setNowNs t).pciPhase = s.pciPhase := rfl
@[simp] theorem State.setNowNs_flt (t : Nat) : (s.setNowNs t).flt = s.flt := rfl
@[simp] theorem State.setNowNs_pow (t : Nat) : (s.setNowNs t).pow = s.pow := rfl
@[simp] theorem State.setNowNs_modl (t : Nat) : (s.setNowNs t).modl = s.modl := rfl

/-! `advance` -/

@[simp] theorem State.advance_pending (n : Nat) : (s.advance n).pending = s.pending := rfl
@[simp] theorem State.advance_regs (n : Nat) : (s.advance n).regs = s.regs := rfl
@[simp] theorem State.advance_lcs (n : Nat) : (s.advance n).lcs = s.lcs := rfl
@[simp] theorem State.advance_fresh (n : Nat) : (s.advance n).fresh = s.fresh := rfl
@[simp] theorem State.advance_sent (n : Nat) : (s.advance n).sent = s.sent := rfl
@[simp] theorem State.advance_lanes (n : Nat) : (s.advance n).lanes = s.lanes := rfl
@[simp] theorem State.advance_bundles (n : Nat) : (s.advance n).bundles = s.bundles := rfl
@[simp] theorem State.advance_links (n : Nat) : (s.advance n).links = s.links := rfl
@[simp] theorem State.advance_sess (n : Nat) : (s.advance n).sess = s.sess := rfl
@[simp] theorem State.advance_flows (n : Nat) : (s.advance n).flows = s.flows := rfl
@[simp] theorem State.advance_deck (n : Nat) : (s.advance n).deck = s.deck := rfl
@[simp] theorem State.advance_engs (n : Nat) : (s.advance n).engs = s.engs := rfl
@[simp] theorem State.advance_dealer (n : Nat) : (s.advance n).dealer = s.dealer := rfl
@[simp] theorem State.advance_plans (n : Nat) : (s.advance n).plans = s.plans := rfl
@[simp] theorem State.advance_tricks (n : Nat) : (s.advance n).tricks = s.tricks := rfl
@[simp] theorem State.advance_beams (n : Nat) : (s.advance n).beams = s.beams := rfl
@[simp] theorem State.advance_outp (n : Nat) : (s.advance n).outp = s.outp := rfl
@[simp] theorem State.advance_hbm (n : Nat) : (s.advance n).hbm = s.hbm := rfl
@[simp] theorem State.advance_spd (n : Nat) : (s.advance n).spd = s.spd := rfl
@[simp] theorem State.advance_sec (n : Nat) : (s.advance n).sec = s.sec := rfl
@[simp] theorem State.advance_ledger (n : Nat) : (s.advance n).ledger = s.ledger := rfl
@[simp] theorem State.advance_fab (n : Nat) : (s.advance n).fab = s.fab := rfl
@[simp] theorem State.advance_dma (n : Nat) : (s.advance n).dma = s.dma := rfl
@[simp] theorem State.advance_dmaRr (n : Nat) : (s.advance n).dmaRr = s.dmaRr := rfl
@[simp] theorem State.advance_pciPhase (n : Nat) : (s.advance n).pciPhase = s.pciPhase := rfl
@[simp] theorem State.advance_flt (n : Nat) : (s.advance n).flt = s.flt := rfl
@[simp] theorem State.advance_pow (n : Nat) : (s.advance n).pow = s.pow := rfl
@[simp] theorem State.advance_modl (n : Nat) : (s.advance n).modl = s.modl := rfl

/-! `hostWrite` -/

@[simp] theorem State.hostWrite_pending (a : Nat) (l : List Byte) : (s.hostWrite a l).pending = s.pending := rfl
@[simp] theorem State.hostWrite_regs (a : Nat) (l : List Byte) : (s.hostWrite a l).regs = s.regs := rfl
@[simp] theorem State.hostWrite_lcs (a : Nat) (l : List Byte) : (s.hostWrite a l).lcs = s.lcs := rfl
@[simp] theorem State.hostWrite_fresh (a : Nat) (l : List Byte) : (s.hostWrite a l).fresh = s.fresh := rfl
@[simp] theorem State.hostWrite_clock (a : Nat) (l : List Byte) : (s.hostWrite a l).clock = s.clock := rfl
@[simp] theorem State.hostWrite_sent (a : Nat) (l : List Byte) : (s.hostWrite a l).sent = s.sent := rfl
@[simp] theorem State.hostWrite_lanes (a : Nat) (l : List Byte) : (s.hostWrite a l).lanes = s.lanes := rfl
@[simp] theorem State.hostWrite_bundles (a : Nat) (l : List Byte) : (s.hostWrite a l).bundles = s.bundles := rfl
@[simp] theorem State.hostWrite_links (a : Nat) (l : List Byte) : (s.hostWrite a l).links = s.links := rfl
@[simp] theorem State.hostWrite_sess (a : Nat) (l : List Byte) : (s.hostWrite a l).sess = s.sess := rfl
@[simp] theorem State.hostWrite_flows (a : Nat) (l : List Byte) : (s.hostWrite a l).flows = s.flows := rfl
@[simp] theorem State.hostWrite_deck (a : Nat) (l : List Byte) : (s.hostWrite a l).deck = s.deck := rfl
@[simp] theorem State.hostWrite_engs (a : Nat) (l : List Byte) : (s.hostWrite a l).engs = s.engs := rfl
@[simp] theorem State.hostWrite_dealer (a : Nat) (l : List Byte) : (s.hostWrite a l).dealer = s.dealer := rfl
@[simp] theorem State.hostWrite_plans (a : Nat) (l : List Byte) : (s.hostWrite a l).plans = s.plans := rfl
@[simp] theorem State.hostWrite_tricks (a : Nat) (l : List Byte) : (s.hostWrite a l).tricks = s.tricks := rfl
@[simp] theorem State.hostWrite_beams (a : Nat) (l : List Byte) : (s.hostWrite a l).beams = s.beams := rfl
@[simp] theorem State.hostWrite_outp (a : Nat) (l : List Byte) : (s.hostWrite a l).outp = s.outp := rfl
@[simp] theorem State.hostWrite_timeb (a : Nat) (l : List Byte) : (s.hostWrite a l).timeb = s.timeb := rfl
@[simp] theorem State.hostWrite_hbm (a : Nat) (l : List Byte) : (s.hostWrite a l).hbm = s.hbm := rfl
@[simp] theorem State.hostWrite_spd (a : Nat) (l : List Byte) : (s.hostWrite a l).spd = s.spd := rfl
@[simp] theorem State.hostWrite_sec (a : Nat) (l : List Byte) : (s.hostWrite a l).sec = s.sec := rfl
@[simp] theorem State.hostWrite_ledger (a : Nat) (l : List Byte) : (s.hostWrite a l).ledger = s.ledger := rfl
@[simp] theorem State.hostWrite_fab (a : Nat) (l : List Byte) : (s.hostWrite a l).fab = s.fab := rfl
@[simp] theorem State.hostWrite_dma (a : Nat) (l : List Byte) : (s.hostWrite a l).dma = s.dma := rfl
@[simp] theorem State.hostWrite_dmaRr (a : Nat) (l : List Byte) : (s.hostWrite a l).dmaRr = s.dmaRr := rfl
@[simp] theorem State.hostWrite_pciPhase (a : Nat) (l : List Byte) : (s.hostWrite a l).pciPhase = s.pciPhase := rfl
@[simp] theorem State.hostWrite_flt (a : Nat) (l : List Byte) : (s.hostWrite a l).flt = s.flt := rfl
@[simp] theorem State.hostWrite_pow (a : Nat) (l : List Byte) : (s.hostWrite a l).pow = s.pow := rfl

/-! `setWord` -/

@[simp] theorem State.setWord_pending (o : Nat) (v : Word) : (s.setWord o v).pending = s.pending := rfl
@[simp] theorem State.setWord_lcs (o : Nat) (v : Word) : (s.setWord o v).lcs = s.lcs := rfl
@[simp] theorem State.setWord_fresh (o : Nat) (v : Word) : (s.setWord o v).fresh = s.fresh := rfl
@[simp] theorem State.setWord_clock (o : Nat) (v : Word) : (s.setWord o v).clock = s.clock := rfl
@[simp] theorem State.setWord_sent (o : Nat) (v : Word) : (s.setWord o v).sent = s.sent := rfl
@[simp] theorem State.setWord_lanes (o : Nat) (v : Word) : (s.setWord o v).lanes = s.lanes := rfl
@[simp] theorem State.setWord_bundles (o : Nat) (v : Word) : (s.setWord o v).bundles = s.bundles := rfl
@[simp] theorem State.setWord_links (o : Nat) (v : Word) : (s.setWord o v).links = s.links := rfl
@[simp] theorem State.setWord_sess (o : Nat) (v : Word) : (s.setWord o v).sess = s.sess := rfl
@[simp] theorem State.setWord_flows (o : Nat) (v : Word) : (s.setWord o v).flows = s.flows := rfl
@[simp] theorem State.setWord_deck (o : Nat) (v : Word) : (s.setWord o v).deck = s.deck := rfl
@[simp] theorem State.setWord_engs (o : Nat) (v : Word) : (s.setWord o v).engs = s.engs := rfl
@[simp] theorem State.setWord_dealer (o : Nat) (v : Word) : (s.setWord o v).dealer = s.dealer := rfl
@[simp] theorem State.setWord_plans (o : Nat) (v : Word) : (s.setWord o v).plans = s.plans := rfl
@[simp] theorem State.setWord_tricks (o : Nat) (v : Word) : (s.setWord o v).tricks = s.tricks := rfl
@[simp] theorem State.setWord_beams (o : Nat) (v : Word) : (s.setWord o v).beams = s.beams := rfl
@[simp] theorem State.setWord_outp (o : Nat) (v : Word) : (s.setWord o v).outp = s.outp := rfl
@[simp] theorem State.setWord_timeb (o : Nat) (v : Word) : (s.setWord o v).timeb = s.timeb := rfl
@[simp] theorem State.setWord_hbm (o : Nat) (v : Word) : (s.setWord o v).hbm = s.hbm := rfl
@[simp] theorem State.setWord_spd (o : Nat) (v : Word) : (s.setWord o v).spd = s.spd := rfl
@[simp] theorem State.setWord_sec (o : Nat) (v : Word) : (s.setWord o v).sec = s.sec := rfl
@[simp] theorem State.setWord_ledger (o : Nat) (v : Word) : (s.setWord o v).ledger = s.ledger := rfl
@[simp] theorem State.setWord_fab (o : Nat) (v : Word) : (s.setWord o v).fab = s.fab := rfl
@[simp] theorem State.setWord_dma (o : Nat) (v : Word) : (s.setWord o v).dma = s.dma := rfl
@[simp] theorem State.setWord_dmaRr (o : Nat) (v : Word) : (s.setWord o v).dmaRr = s.dmaRr := rfl
@[simp] theorem State.setWord_pciPhase (o : Nat) (v : Word) : (s.setWord o v).pciPhase = s.pciPhase := rfl
@[simp] theorem State.setWord_flt (o : Nat) (v : Word) : (s.setWord o v).flt = s.flt := rfl
@[simp] theorem State.setWord_pow (o : Nat) (v : Word) : (s.setWord o v).pow = s.pow := rfl
@[simp] theorem State.setWord_modl (o : Nat) (v : Word) : (s.setWord o v).modl = s.modl := rfl

/-! `wr` -/

@[simp] theorem State.wr_pending (f : Fld) (i v : Nat) : (s.wr f i v).pending = s.pending := rfl
@[simp] theorem State.wr_lcs (f : Fld) (i v : Nat) : (s.wr f i v).lcs = s.lcs := rfl
@[simp] theorem State.wr_fresh (f : Fld) (i v : Nat) : (s.wr f i v).fresh = s.fresh := rfl
@[simp] theorem State.wr_clock (f : Fld) (i v : Nat) : (s.wr f i v).clock = s.clock := rfl
@[simp] theorem State.wr_sent (f : Fld) (i v : Nat) : (s.wr f i v).sent = s.sent := rfl
@[simp] theorem State.wr_lanes (f : Fld) (i v : Nat) : (s.wr f i v).lanes = s.lanes := rfl
@[simp] theorem State.wr_bundles (f : Fld) (i v : Nat) : (s.wr f i v).bundles = s.bundles := rfl
@[simp] theorem State.wr_links (f : Fld) (i v : Nat) : (s.wr f i v).links = s.links := rfl
@[simp] theorem State.wr_sess (f : Fld) (i v : Nat) : (s.wr f i v).sess = s.sess := rfl
@[simp] theorem State.wr_flows (f : Fld) (i v : Nat) : (s.wr f i v).flows = s.flows := rfl
@[simp] theorem State.wr_deck (f : Fld) (i v : Nat) : (s.wr f i v).deck = s.deck := rfl
@[simp] theorem State.wr_engs (f : Fld) (i v : Nat) : (s.wr f i v).engs = s.engs := rfl
@[simp] theorem State.wr_dealer (f : Fld) (i v : Nat) : (s.wr f i v).dealer = s.dealer := rfl
@[simp] theorem State.wr_plans (f : Fld) (i v : Nat) : (s.wr f i v).plans = s.plans := rfl
@[simp] theorem State.wr_tricks (f : Fld) (i v : Nat) : (s.wr f i v).tricks = s.tricks := rfl
@[simp] theorem State.wr_beams (f : Fld) (i v : Nat) : (s.wr f i v).beams = s.beams := rfl
@[simp] theorem State.wr_outp (f : Fld) (i v : Nat) : (s.wr f i v).outp = s.outp := rfl
@[simp] theorem State.wr_timeb (f : Fld) (i v : Nat) : (s.wr f i v).timeb = s.timeb := rfl
@[simp] theorem State.wr_hbm (f : Fld) (i v : Nat) : (s.wr f i v).hbm = s.hbm := rfl
@[simp] theorem State.wr_spd (f : Fld) (i v : Nat) : (s.wr f i v).spd = s.spd := rfl
@[simp] theorem State.wr_sec (f : Fld) (i v : Nat) : (s.wr f i v).sec = s.sec := rfl
@[simp] theorem State.wr_ledger (f : Fld) (i v : Nat) : (s.wr f i v).ledger = s.ledger := rfl
@[simp] theorem State.wr_fab (f : Fld) (i v : Nat) : (s.wr f i v).fab = s.fab := rfl
@[simp] theorem State.wr_dma (f : Fld) (i v : Nat) : (s.wr f i v).dma = s.dma := rfl
@[simp] theorem State.wr_dmaRr (f : Fld) (i v : Nat) : (s.wr f i v).dmaRr = s.dmaRr := rfl
@[simp] theorem State.wr_pciPhase (f : Fld) (i v : Nat) : (s.wr f i v).pciPhase = s.pciPhase := rfl
@[simp] theorem State.wr_flt (f : Fld) (i v : Nat) : (s.wr f i v).flt = s.flt := rfl
@[simp] theorem State.wr_pow (f : Fld) (i v : Nat) : (s.wr f i v).pow = s.pow := rfl
@[simp] theorem State.wr_modl (f : Fld) (i v : Nat) : (s.wr f i v).modl = s.modl := rfl

/-! `wr64` -/

@[simp] theorem State.wr64_pending (r : Reg64) (i v : Nat) : (s.wr64 r i v).pending = s.pending := rfl
@[simp] theorem State.wr64_lcs (r : Reg64) (i v : Nat) : (s.wr64 r i v).lcs = s.lcs := rfl
@[simp] theorem State.wr64_fresh (r : Reg64) (i v : Nat) : (s.wr64 r i v).fresh = s.fresh := rfl
@[simp] theorem State.wr64_clock (r : Reg64) (i v : Nat) : (s.wr64 r i v).clock = s.clock := rfl
@[simp] theorem State.wr64_sent (r : Reg64) (i v : Nat) : (s.wr64 r i v).sent = s.sent := rfl
@[simp] theorem State.wr64_lanes (r : Reg64) (i v : Nat) : (s.wr64 r i v).lanes = s.lanes := rfl
@[simp] theorem State.wr64_bundles (r : Reg64) (i v : Nat) : (s.wr64 r i v).bundles = s.bundles := rfl
@[simp] theorem State.wr64_links (r : Reg64) (i v : Nat) : (s.wr64 r i v).links = s.links := rfl
@[simp] theorem State.wr64_sess (r : Reg64) (i v : Nat) : (s.wr64 r i v).sess = s.sess := rfl
@[simp] theorem State.wr64_flows (r : Reg64) (i v : Nat) : (s.wr64 r i v).flows = s.flows := rfl
@[simp] theorem State.wr64_deck (r : Reg64) (i v : Nat) : (s.wr64 r i v).deck = s.deck := rfl
@[simp] theorem State.wr64_engs (r : Reg64) (i v : Nat) : (s.wr64 r i v).engs = s.engs := rfl
@[simp] theorem State.wr64_dealer (r : Reg64) (i v : Nat) : (s.wr64 r i v).dealer = s.dealer := rfl
@[simp] theorem State.wr64_plans (r : Reg64) (i v : Nat) : (s.wr64 r i v).plans = s.plans := rfl
@[simp] theorem State.wr64_tricks (r : Reg64) (i v : Nat) : (s.wr64 r i v).tricks = s.tricks := rfl
@[simp] theorem State.wr64_beams (r : Reg64) (i v : Nat) : (s.wr64 r i v).beams = s.beams := rfl
@[simp] theorem State.wr64_outp (r : Reg64) (i v : Nat) : (s.wr64 r i v).outp = s.outp := rfl
@[simp] theorem State.wr64_timeb (r : Reg64) (i v : Nat) : (s.wr64 r i v).timeb = s.timeb := rfl
@[simp] theorem State.wr64_hbm (r : Reg64) (i v : Nat) : (s.wr64 r i v).hbm = s.hbm := rfl
@[simp] theorem State.wr64_spd (r : Reg64) (i v : Nat) : (s.wr64 r i v).spd = s.spd := rfl
@[simp] theorem State.wr64_sec (r : Reg64) (i v : Nat) : (s.wr64 r i v).sec = s.sec := rfl
@[simp] theorem State.wr64_ledger (r : Reg64) (i v : Nat) : (s.wr64 r i v).ledger = s.ledger := rfl
@[simp] theorem State.wr64_fab (r : Reg64) (i v : Nat) : (s.wr64 r i v).fab = s.fab := rfl
@[simp] theorem State.wr64_dma (r : Reg64) (i v : Nat) : (s.wr64 r i v).dma = s.dma := rfl
@[simp] theorem State.wr64_dmaRr (r : Reg64) (i v : Nat) : (s.wr64 r i v).dmaRr = s.dmaRr := rfl
@[simp] theorem State.wr64_pciPhase (r : Reg64) (i v : Nat) : (s.wr64 r i v).pciPhase = s.pciPhase := rfl
@[simp] theorem State.wr64_flt (r : Reg64) (i v : Nat) : (s.wr64 r i v).flt = s.flt := rfl
@[simp] theorem State.wr64_pow (r : Reg64) (i v : Nat) : (s.wr64 r i v).pow = s.pow := rfl
@[simp] theorem State.wr64_modl (r : Reg64) (i v : Nat) : (s.wr64 r i v).modl = s.modl := rfl

/-! `flag` -/

@[simp] theorem State.flag_pending (f : Fld) (i : Nat) : (s.flag f i).pending = s.pending := rfl
@[simp] theorem State.flag_lcs (f : Fld) (i : Nat) : (s.flag f i).lcs = s.lcs := rfl
@[simp] theorem State.flag_fresh (f : Fld) (i : Nat) : (s.flag f i).fresh = s.fresh := rfl
@[simp] theorem State.flag_clock (f : Fld) (i : Nat) : (s.flag f i).clock = s.clock := rfl
@[simp] theorem State.flag_sent (f : Fld) (i : Nat) : (s.flag f i).sent = s.sent := rfl
@[simp] theorem State.flag_lanes (f : Fld) (i : Nat) : (s.flag f i).lanes = s.lanes := rfl
@[simp] theorem State.flag_bundles (f : Fld) (i : Nat) : (s.flag f i).bundles = s.bundles := rfl
@[simp] theorem State.flag_links (f : Fld) (i : Nat) : (s.flag f i).links = s.links := rfl
@[simp] theorem State.flag_sess (f : Fld) (i : Nat) : (s.flag f i).sess = s.sess := rfl
@[simp] theorem State.flag_flows (f : Fld) (i : Nat) : (s.flag f i).flows = s.flows := rfl
@[simp] theorem State.flag_deck (f : Fld) (i : Nat) : (s.flag f i).deck = s.deck := rfl
@[simp] theorem State.flag_engs (f : Fld) (i : Nat) : (s.flag f i).engs = s.engs := rfl
@[simp] theorem State.flag_dealer (f : Fld) (i : Nat) : (s.flag f i).dealer = s.dealer := rfl
@[simp] theorem State.flag_plans (f : Fld) (i : Nat) : (s.flag f i).plans = s.plans := rfl
@[simp] theorem State.flag_tricks (f : Fld) (i : Nat) : (s.flag f i).tricks = s.tricks := rfl
@[simp] theorem State.flag_beams (f : Fld) (i : Nat) : (s.flag f i).beams = s.beams := rfl
@[simp] theorem State.flag_outp (f : Fld) (i : Nat) : (s.flag f i).outp = s.outp := rfl
@[simp] theorem State.flag_timeb (f : Fld) (i : Nat) : (s.flag f i).timeb = s.timeb := rfl
@[simp] theorem State.flag_hbm (f : Fld) (i : Nat) : (s.flag f i).hbm = s.hbm := rfl
@[simp] theorem State.flag_spd (f : Fld) (i : Nat) : (s.flag f i).spd = s.spd := rfl
@[simp] theorem State.flag_sec (f : Fld) (i : Nat) : (s.flag f i).sec = s.sec := rfl
@[simp] theorem State.flag_ledger (f : Fld) (i : Nat) : (s.flag f i).ledger = s.ledger := rfl
@[simp] theorem State.flag_fab (f : Fld) (i : Nat) : (s.flag f i).fab = s.fab := rfl
@[simp] theorem State.flag_dma (f : Fld) (i : Nat) : (s.flag f i).dma = s.dma := rfl
@[simp] theorem State.flag_dmaRr (f : Fld) (i : Nat) : (s.flag f i).dmaRr = s.dmaRr := rfl
@[simp] theorem State.flag_pciPhase (f : Fld) (i : Nat) : (s.flag f i).pciPhase = s.pciPhase := rfl
@[simp] theorem State.flag_flt (f : Fld) (i : Nat) : (s.flag f i).flt = s.flt := rfl
@[simp] theorem State.flag_pow (f : Fld) (i : Nat) : (s.flag f i).pow = s.pow := rfl
@[simp] theorem State.flag_modl (f : Fld) (i : Nat) : (s.flag f i).modl = s.modl := rfl

/-! `put` -/

@[simp] theorem State.put_pending (f : Fld) (i : Nat) (b : Bool) : (s.put f i b).pending = s.pending := rfl
@[simp] theorem State.put_lcs (f : Fld) (i : Nat) (b : Bool) : (s.put f i b).lcs = s.lcs := rfl
@[simp] theorem State.put_fresh (f : Fld) (i : Nat) (b : Bool) : (s.put f i b).fresh = s.fresh := rfl
@[simp] theorem State.put_clock (f : Fld) (i : Nat) (b : Bool) : (s.put f i b).clock = s.clock := rfl
@[simp] theorem State.put_sent (f : Fld) (i : Nat) (b : Bool) : (s.put f i b).sent = s.sent := rfl
@[simp] theorem State.put_lanes (f : Fld) (i : Nat) (b : Bool) : (s.put f i b).lanes = s.lanes := rfl
@[simp] theorem State.put_bundles (f : Fld) (i : Nat) (b : Bool) : (s.put f i b).bundles = s.bundles := rfl
@[simp] theorem State.put_links (f : Fld) (i : Nat) (b : Bool) : (s.put f i b).links = s.links := rfl
@[simp] theorem State.put_sess (f : Fld) (i : Nat) (b : Bool) : (s.put f i b).sess = s.sess := rfl
@[simp] theorem State.put_flows (f : Fld) (i : Nat) (b : Bool) : (s.put f i b).flows = s.flows := rfl
@[simp] theorem State.put_deck (f : Fld) (i : Nat) (b : Bool) : (s.put f i b).deck = s.deck := rfl
@[simp] theorem State.put_engs (f : Fld) (i : Nat) (b : Bool) : (s.put f i b).engs = s.engs := rfl
@[simp] theorem State.put_dealer (f : Fld) (i : Nat) (b : Bool) : (s.put f i b).dealer = s.dealer := rfl
@[simp] theorem State.put_plans (f : Fld) (i : Nat) (b : Bool) : (s.put f i b).plans = s.plans := rfl
@[simp] theorem State.put_tricks (f : Fld) (i : Nat) (b : Bool) : (s.put f i b).tricks = s.tricks := rfl
@[simp] theorem State.put_beams (f : Fld) (i : Nat) (b : Bool) : (s.put f i b).beams = s.beams := rfl
@[simp] theorem State.put_outp (f : Fld) (i : Nat) (b : Bool) : (s.put f i b).outp = s.outp := rfl
@[simp] theorem State.put_timeb (f : Fld) (i : Nat) (b : Bool) : (s.put f i b).timeb = s.timeb := rfl
@[simp] theorem State.put_hbm (f : Fld) (i : Nat) (b : Bool) : (s.put f i b).hbm = s.hbm := rfl
@[simp] theorem State.put_spd (f : Fld) (i : Nat) (b : Bool) : (s.put f i b).spd = s.spd := rfl
@[simp] theorem State.put_sec (f : Fld) (i : Nat) (b : Bool) : (s.put f i b).sec = s.sec := rfl
@[simp] theorem State.put_ledger (f : Fld) (i : Nat) (b : Bool) : (s.put f i b).ledger = s.ledger := rfl
@[simp] theorem State.put_fab (f : Fld) (i : Nat) (b : Bool) : (s.put f i b).fab = s.fab := rfl
@[simp] theorem State.put_dma (f : Fld) (i : Nat) (b : Bool) : (s.put f i b).dma = s.dma := rfl
@[simp] theorem State.put_dmaRr (f : Fld) (i : Nat) (b : Bool) : (s.put f i b).dmaRr = s.dmaRr := rfl
@[simp] theorem State.put_pciPhase (f : Fld) (i : Nat) (b : Bool) : (s.put f i b).pciPhase = s.pciPhase := rfl
@[simp] theorem State.put_flt (f : Fld) (i : Nat) (b : Bool) : (s.put f i b).flt = s.flt := rfl
@[simp] theorem State.put_pow (f : Fld) (i : Nat) (b : Bool) : (s.put f i b).pow = s.pow := rfl
@[simp] theorem State.put_modl (f : Fld) (i : Nat) (b : Bool) : (s.put f i b).modl = s.modl := rfl

/-! `bump` -/

@[simp] theorem State.bump_pending (f : Fld) (i n : Nat) : (s.bump f i n).pending = s.pending := rfl
@[simp] theorem State.bump_lcs (f : Fld) (i n : Nat) : (s.bump f i n).lcs = s.lcs := rfl
@[simp] theorem State.bump_fresh (f : Fld) (i n : Nat) : (s.bump f i n).fresh = s.fresh := rfl
@[simp] theorem State.bump_clock (f : Fld) (i n : Nat) : (s.bump f i n).clock = s.clock := rfl
@[simp] theorem State.bump_sent (f : Fld) (i n : Nat) : (s.bump f i n).sent = s.sent := rfl
@[simp] theorem State.bump_lanes (f : Fld) (i n : Nat) : (s.bump f i n).lanes = s.lanes := rfl
@[simp] theorem State.bump_bundles (f : Fld) (i n : Nat) : (s.bump f i n).bundles = s.bundles := rfl
@[simp] theorem State.bump_links (f : Fld) (i n : Nat) : (s.bump f i n).links = s.links := rfl
@[simp] theorem State.bump_sess (f : Fld) (i n : Nat) : (s.bump f i n).sess = s.sess := rfl
@[simp] theorem State.bump_flows (f : Fld) (i n : Nat) : (s.bump f i n).flows = s.flows := rfl
@[simp] theorem State.bump_deck (f : Fld) (i n : Nat) : (s.bump f i n).deck = s.deck := rfl
@[simp] theorem State.bump_engs (f : Fld) (i n : Nat) : (s.bump f i n).engs = s.engs := rfl
@[simp] theorem State.bump_dealer (f : Fld) (i n : Nat) : (s.bump f i n).dealer = s.dealer := rfl
@[simp] theorem State.bump_plans (f : Fld) (i n : Nat) : (s.bump f i n).plans = s.plans := rfl
@[simp] theorem State.bump_tricks (f : Fld) (i n : Nat) : (s.bump f i n).tricks = s.tricks := rfl
@[simp] theorem State.bump_beams (f : Fld) (i n : Nat) : (s.bump f i n).beams = s.beams := rfl
@[simp] theorem State.bump_outp (f : Fld) (i n : Nat) : (s.bump f i n).outp = s.outp := rfl
@[simp] theorem State.bump_timeb (f : Fld) (i n : Nat) : (s.bump f i n).timeb = s.timeb := rfl
@[simp] theorem State.bump_hbm (f : Fld) (i n : Nat) : (s.bump f i n).hbm = s.hbm := rfl
@[simp] theorem State.bump_spd (f : Fld) (i n : Nat) : (s.bump f i n).spd = s.spd := rfl
@[simp] theorem State.bump_sec (f : Fld) (i n : Nat) : (s.bump f i n).sec = s.sec := rfl
@[simp] theorem State.bump_ledger (f : Fld) (i n : Nat) : (s.bump f i n).ledger = s.ledger := rfl
@[simp] theorem State.bump_fab (f : Fld) (i n : Nat) : (s.bump f i n).fab = s.fab := rfl
@[simp] theorem State.bump_dma (f : Fld) (i n : Nat) : (s.bump f i n).dma = s.dma := rfl
@[simp] theorem State.bump_dmaRr (f : Fld) (i n : Nat) : (s.bump f i n).dmaRr = s.dmaRr := rfl
@[simp] theorem State.bump_pciPhase (f : Fld) (i n : Nat) : (s.bump f i n).pciPhase = s.pciPhase := rfl
@[simp] theorem State.bump_flt (f : Fld) (i n : Nat) : (s.bump f i n).flt = s.flt := rfl
@[simp] theorem State.bump_pow (f : Fld) (i n : Nat) : (s.bump f i n).pow = s.pow := rfl
@[simp] theorem State.bump_modl (f : Fld) (i n : Nat) : (s.bump f i n).modl = s.modl := rfl

/-! `bumpW` -/

@[simp] theorem State.bumpW_pending (f : Fld) (i n : Nat) : (s.bumpW f i n).pending = s.pending := rfl
@[simp] theorem State.bumpW_lcs (f : Fld) (i n : Nat) : (s.bumpW f i n).lcs = s.lcs := rfl
@[simp] theorem State.bumpW_fresh (f : Fld) (i n : Nat) : (s.bumpW f i n).fresh = s.fresh := rfl
@[simp] theorem State.bumpW_clock (f : Fld) (i n : Nat) : (s.bumpW f i n).clock = s.clock := rfl
@[simp] theorem State.bumpW_sent (f : Fld) (i n : Nat) : (s.bumpW f i n).sent = s.sent := rfl
@[simp] theorem State.bumpW_lanes (f : Fld) (i n : Nat) : (s.bumpW f i n).lanes = s.lanes := rfl
@[simp] theorem State.bumpW_bundles (f : Fld) (i n : Nat) : (s.bumpW f i n).bundles = s.bundles := rfl
@[simp] theorem State.bumpW_links (f : Fld) (i n : Nat) : (s.bumpW f i n).links = s.links := rfl
@[simp] theorem State.bumpW_sess (f : Fld) (i n : Nat) : (s.bumpW f i n).sess = s.sess := rfl
@[simp] theorem State.bumpW_flows (f : Fld) (i n : Nat) : (s.bumpW f i n).flows = s.flows := rfl
@[simp] theorem State.bumpW_deck (f : Fld) (i n : Nat) : (s.bumpW f i n).deck = s.deck := rfl
@[simp] theorem State.bumpW_engs (f : Fld) (i n : Nat) : (s.bumpW f i n).engs = s.engs := rfl
@[simp] theorem State.bumpW_dealer (f : Fld) (i n : Nat) : (s.bumpW f i n).dealer = s.dealer := rfl
@[simp] theorem State.bumpW_plans (f : Fld) (i n : Nat) : (s.bumpW f i n).plans = s.plans := rfl
@[simp] theorem State.bumpW_tricks (f : Fld) (i n : Nat) : (s.bumpW f i n).tricks = s.tricks := rfl
@[simp] theorem State.bumpW_beams (f : Fld) (i n : Nat) : (s.bumpW f i n).beams = s.beams := rfl
@[simp] theorem State.bumpW_outp (f : Fld) (i n : Nat) : (s.bumpW f i n).outp = s.outp := rfl
@[simp] theorem State.bumpW_timeb (f : Fld) (i n : Nat) : (s.bumpW f i n).timeb = s.timeb := rfl
@[simp] theorem State.bumpW_hbm (f : Fld) (i n : Nat) : (s.bumpW f i n).hbm = s.hbm := rfl
@[simp] theorem State.bumpW_spd (f : Fld) (i n : Nat) : (s.bumpW f i n).spd = s.spd := rfl
@[simp] theorem State.bumpW_sec (f : Fld) (i n : Nat) : (s.bumpW f i n).sec = s.sec := rfl
@[simp] theorem State.bumpW_ledger (f : Fld) (i n : Nat) : (s.bumpW f i n).ledger = s.ledger := rfl
@[simp] theorem State.bumpW_fab (f : Fld) (i n : Nat) : (s.bumpW f i n).fab = s.fab := rfl
@[simp] theorem State.bumpW_dma (f : Fld) (i n : Nat) : (s.bumpW f i n).dma = s.dma := rfl
@[simp] theorem State.bumpW_dmaRr (f : Fld) (i n : Nat) : (s.bumpW f i n).dmaRr = s.dmaRr := rfl
@[simp] theorem State.bumpW_pciPhase (f : Fld) (i n : Nat) : (s.bumpW f i n).pciPhase = s.pciPhase := rfl
@[simp] theorem State.bumpW_flt (f : Fld) (i n : Nat) : (s.bumpW f i n).flt = s.flt := rfl
@[simp] theorem State.bumpW_pow (f : Fld) (i n : Nat) : (s.bumpW f i n).pow = s.pow := rfl
@[simp] theorem State.bumpW_modl (f : Fld) (i n : Nat) : (s.bumpW f i n).modl = s.modl := rfl

/-! `bump64` -/

@[simp] theorem State.bump64_pending (r : Reg64) (i n : Nat) : (s.bump64 r i n).pending = s.pending := rfl
@[simp] theorem State.bump64_lcs (r : Reg64) (i n : Nat) : (s.bump64 r i n).lcs = s.lcs := rfl
@[simp] theorem State.bump64_fresh (r : Reg64) (i n : Nat) : (s.bump64 r i n).fresh = s.fresh := rfl
@[simp] theorem State.bump64_clock (r : Reg64) (i n : Nat) : (s.bump64 r i n).clock = s.clock := rfl
@[simp] theorem State.bump64_sent (r : Reg64) (i n : Nat) : (s.bump64 r i n).sent = s.sent := rfl
@[simp] theorem State.bump64_lanes (r : Reg64) (i n : Nat) : (s.bump64 r i n).lanes = s.lanes := rfl
@[simp] theorem State.bump64_bundles (r : Reg64) (i n : Nat) : (s.bump64 r i n).bundles = s.bundles := rfl
@[simp] theorem State.bump64_links (r : Reg64) (i n : Nat) : (s.bump64 r i n).links = s.links := rfl
@[simp] theorem State.bump64_sess (r : Reg64) (i n : Nat) : (s.bump64 r i n).sess = s.sess := rfl
@[simp] theorem State.bump64_flows (r : Reg64) (i n : Nat) : (s.bump64 r i n).flows = s.flows := rfl
@[simp] theorem State.bump64_deck (r : Reg64) (i n : Nat) : (s.bump64 r i n).deck = s.deck := rfl
@[simp] theorem State.bump64_engs (r : Reg64) (i n : Nat) : (s.bump64 r i n).engs = s.engs := rfl
@[simp] theorem State.bump64_dealer (r : Reg64) (i n : Nat) : (s.bump64 r i n).dealer = s.dealer := rfl
@[simp] theorem State.bump64_plans (r : Reg64) (i n : Nat) : (s.bump64 r i n).plans = s.plans := rfl
@[simp] theorem State.bump64_tricks (r : Reg64) (i n : Nat) : (s.bump64 r i n).tricks = s.tricks := rfl
@[simp] theorem State.bump64_beams (r : Reg64) (i n : Nat) : (s.bump64 r i n).beams = s.beams := rfl
@[simp] theorem State.bump64_outp (r : Reg64) (i n : Nat) : (s.bump64 r i n).outp = s.outp := rfl
@[simp] theorem State.bump64_timeb (r : Reg64) (i n : Nat) : (s.bump64 r i n).timeb = s.timeb := rfl
@[simp] theorem State.bump64_hbm (r : Reg64) (i n : Nat) : (s.bump64 r i n).hbm = s.hbm := rfl
@[simp] theorem State.bump64_spd (r : Reg64) (i n : Nat) : (s.bump64 r i n).spd = s.spd := rfl
@[simp] theorem State.bump64_sec (r : Reg64) (i n : Nat) : (s.bump64 r i n).sec = s.sec := rfl
@[simp] theorem State.bump64_ledger (r : Reg64) (i n : Nat) : (s.bump64 r i n).ledger = s.ledger := rfl
@[simp] theorem State.bump64_fab (r : Reg64) (i n : Nat) : (s.bump64 r i n).fab = s.fab := rfl
@[simp] theorem State.bump64_dma (r : Reg64) (i n : Nat) : (s.bump64 r i n).dma = s.dma := rfl
@[simp] theorem State.bump64_dmaRr (r : Reg64) (i n : Nat) : (s.bump64 r i n).dmaRr = s.dmaRr := rfl
@[simp] theorem State.bump64_pciPhase (r : Reg64) (i n : Nat) : (s.bump64 r i n).pciPhase = s.pciPhase := rfl
@[simp] theorem State.bump64_flt (r : Reg64) (i n : Nat) : (s.bump64 r i n).flt = s.flt := rfl
@[simp] theorem State.bump64_pow (r : Reg64) (i n : Nat) : (s.bump64 r i n).pow = s.pow := rfl
@[simp] theorem State.bump64_modl (r : Reg64) (i n : Nat) : (s.bump64 r i n).modl = s.modl := rfl

end Sys2Proof.Machine
end

