-- ==== Sys2Proof/Laws/Table.lean ====
section
/-! SUPPORT. What the table operations do, said once: a read after a write, and the canonical form. -/

namespace Sys2Proof.Machine

variable {α : Type}

@[simp] theorem tget_tdel_same (d : α) (t : Tbl α) (k : Nat) : tget d (tdel t k) k = d := by
  induction t with
  | nil => rfl
  | cons p r ih => obtain ⟨k', v⟩ := p; by_cases h : k' = k <;> simp [tdel, tget, h, ih]

theorem tget_tdel_other (d : α) (t : Tbl α) {k j : Nat} (h : j ≠ k) :
    tget d (tdel t k) j = tget d t j := by
  induction t with
  | nil => rfl
  | cons p r ih =>
    obtain ⟨k', v⟩ := p
    by_cases hk : k' = k
    · subst hk; simp [tdel, tget, ih, Ne.symm h]
    · simp only [tdel, hk, if_false, tget, ih]

theorem tget_tins_same (d : α) (k : Nat) (v : α) (t : Tbl α) (h : k ∉ tkeys t) :
    tget d (tins k v t) k = v := by
  induction t with
  | nil => simp [tins, tget]
  | cons p r ih =>
    obtain ⟨k', v'⟩ := p
    simp [tkeys] at h ih
    by_cases hl : k < k'
    · simp [tins, tget, hl]
    · simp only [tins, hl, if_false, tget]
      rw [if_neg (fun e => h.1 e.symm)]
      exact ih h.2

theorem tget_tins_other (d : α) (k : Nat) (v : α) (t : Tbl α) {j : Nat} (h : j ≠ k) :
    tget d (tins k v t) j = tget d t j := by
  induction t with
  | nil => simp [tins, tget, Ne.symm h]
  | cons p r ih =>
    obtain ⟨k', v'⟩ := p
    by_cases hl : k < k'
    · simp [tins, tget, hl, Ne.symm h]
    · simp only [tins, hl, if_false, tget, ih]

theorem not_mem_tkeys_tdel (t : Tbl α) (k : Nat) : k ∉ tkeys (tdel t k) := by
  induction t with
  | nil => simp [tdel, tkeys]
  | cons p r ih =>
    obtain ⟨k', v⟩ := p
    by_cases h : k' = k
    · simpa [tdel, h] using ih
    · simp [tdel, h, tkeys] at ih ⊢
      exact ⟨fun e => h e.symm, ih⟩

/-- A read of the key just written gives the value written. -/
@[simp] theorem tget_tset_same [DecidableEq α] (d : α) (t : Tbl α) (k : Nat) (v : α) :
    tget d (tset d t k v) k = v := by
  unfold tset
  split
  · next h => simp [h]
  · exact tget_tins_same d k v _ (not_mem_tkeys_tdel t k)

/-- A write leaves every other key alone. -/
theorem tget_tset_other [DecidableEq α] (d : α) (t : Tbl α) (k : Nat) (v : α) {j : Nat} (h : j ≠ k) :
    tget d (tset d t k v) j = tget d t j := by
  unfold tset
  split
  · exact tget_tdel_other d t h
  · rw [tget_tins_other d k v _ h, tget_tdel_other d t h]

theorem tsorted_cons (k : Nat) (v : α) (t : Tbl α) :
    tsorted ((k, v) :: t) = true ↔ (∀ j ∈ tkeys t, k < j) ∧ tsorted t = true := by
  induction t generalizing k v with
  | nil => simp [tsorted, tkeys]
  | cons p r ih =>
    obtain ⟨k', v'⟩ := p
    simp only [tsorted, Bool.and_eq_true, decide_eq_true_eq]
    rw [ih k' v']
    simp only [tkeys, List.map_cons, List.mem_cons, forall_eq_or_imp]
    constructor
    · rintro ⟨h1, h2, h3⟩
      exact ⟨⟨h1, fun j hj => lt_trans h1 (h2 j hj)⟩, h2, h3⟩
    · rintro ⟨⟨h1, _⟩, h2, h3⟩
      exact ⟨h1, h2, h3⟩

theorem mem_tkeys_tdel (t : Tbl α) (k j : Nat) (h : j ∈ tkeys (tdel t k)) : j ∈ tkeys t := by
  induction t with
  | nil => simpa [tdel] using h
  | cons p r ih =>
    obtain ⟨k', v⟩ := p
    by_cases hk : k' = k
    · simp [tdel, hk] at h; simpa [tkeys] using Or.inr (by simpa [tkeys] using ih h)
    · simp only [tdel, hk, if_false, tkeys, List.map_cons, List.mem_cons] at h ih ⊢
      rcases h with h | h
      · exact Or.inl h
      · exact Or.inr (ih h)

theorem tsorted_tdel (t : Tbl α) (k : Nat) (h : tsorted t = true) : tsorted (tdel t k) = true := by
  induction t with
  | nil => rfl
  | cons p r ih =>
    obtain ⟨k', v⟩ := p
    rw [tsorted_cons] at h
    by_cases hk : k' = k
    · simpa [tdel, hk] using ih h.2
    · simp only [tdel, hk, if_false]
      rw [tsorted_cons]
      exact ⟨fun j hj => h.1 j (mem_tkeys_tdel r k j hj), ih h.2⟩

theorem mem_tkeys_tins (k : Nat) (v : α) (t : Tbl α) (j : Nat) :
    j ∈ tkeys (tins k v t) ↔ j = k ∨ j ∈ tkeys t := by
  induction t with
  | nil => simp [tins, tkeys]
  | cons p r ih =>
    obtain ⟨k', v'⟩ := p
    by_cases hl : k < k'
    · simp [tins, hl, tkeys]
    · simp only [tins, hl, if_false, tkeys, List.map_cons, List.mem_cons] at ih ⊢
      rw [ih]; tauto

theorem tsorted_tins (k : Nat) (v : α) (t : Tbl α) (hk : k ∉ tkeys t) (h : tsorted t = true) :
    tsorted (tins k v t) = true := by
  induction t with
  | nil => rfl
  | cons p r ih =>
    obtain ⟨k', v'⟩ := p
    have h0 := (tsorted_cons k' v' r).1 h
    by_cases hl : k < k'
    · simp only [tins, hl, if_true]
      rw [tsorted_cons]
      refine ⟨?_, h⟩
      simp only [tkeys, List.map_cons, List.mem_cons, forall_eq_or_imp]
      exact ⟨hl, fun j hj => lt_trans hl (h0.1 j hj)⟩
    · simp [tkeys] at hk
      simp only [tins, hl, if_false]
      rw [tsorted_cons]
      refine ⟨fun j hj => ?_, ih (by simpa [tkeys] using hk.2) h0.2⟩
      rcases (mem_tkeys_tins k v r j).1 hj with rfl | hj
      · omega
      · exact h0.1 j hj

theorem all_tdel (q : Nat × α → Bool) (t : Tbl α) (k : Nat) (h : t.all q = true) :
    (tdel t k).all q = true := by
  induction t with
  | nil => rfl
  | cons p r ih =>
    obtain ⟨k', v⟩ := p
    simp only [List.all_cons, Bool.and_eq_true] at h
    by_cases hk : k' = k
    · simp only [tdel, hk, if_true]; exact ih h.2
    · simp only [tdel, hk, if_false, List.all_cons, Bool.and_eq_true]; exact ⟨h.1, ih h.2⟩

theorem all_tins (q : Nat × α → Bool) (k : Nat) (v : α) (t : Tbl α) (hq : q (k, v) = true)
    (h : t.all q = true) : (tins k v t).all q = true := by
  induction t with
  | nil => simp [tins, hq]
  | cons p r ih =>
    obtain ⟨k', v'⟩ := p
    simp only [List.all_cons, Bool.and_eq_true] at h
    by_cases hl : k < k'
    · simp only [tins, hl, if_true, List.all_cons, Bool.and_eq_true]; exact ⟨hq, h.1, h.2⟩
    · simp only [tins, hl, if_false, List.all_cons, Bool.and_eq_true]; exact ⟨h.1, ih h.2⟩

/-- A write keeps the canonical form. -/
theorem twf_tset [DecidableEq α] (d : α) (t : Tbl α) (k : Nat) (v : α) (h : twf d t = true) :
    twf d (tset d t k v) = true := by
  simp only [twf, Bool.and_eq_true] at h ⊢
  unfold tset
  split
  · exact ⟨tsorted_tdel t k h.1, all_tdel _ t k h.2⟩
  · next hv =>
    exact ⟨tsorted_tins k v _ (not_mem_tkeys_tdel t k) (tsorted_tdel t k h.1),
      all_tins _ k v _ (by simpa using hv) (all_tdel _ t k h.2)⟩

theorem mem_tkeys_filter (q : Nat × α → Bool) (t : Tbl α) (j : Nat) (h : j ∈ tkeys (t.filter q)) : j ∈ tkeys t := by
  simp only [tkeys, List.mem_map, List.mem_filter] at h ⊢
  obtain ⟨p, ⟨hp, _⟩, rfl⟩ := h
  exact ⟨p, hp, rfl⟩

/-- Taking entries away keeps the canonical form. -/
theorem twf_filter [DecidableEq α] (d : α) (q : Nat × α → Bool) (t : Tbl α) (h : twf d t = true) :
    twf d (t.filter q) = true := by
  simp only [twf, Bool.and_eq_true] at h ⊢
  refine ⟨?_, List.all_eq_true.2 fun p hp => List.all_eq_true.1 h.2 p (List.mem_filter.1 hp).1⟩
  have h1 := h.1
  clear h
  induction t with
  | nil => rfl
  | cons p r ih =>
    obtain ⟨k, v⟩ := p
    rw [tsorted_cons] at h1
    rw [List.filter_cons]
    split
    · rw [tsorted_cons]
      exact ⟨fun j hj => h1.1 j (mem_tkeys_filter q r j hj), ih h1.2⟩
    · exact ih h1.2

/-- Storing a list of values keeps the canonical form. -/
theorem twf_tsetMany [DecidableEq α] (d : α) (l : List α) (t : Tbl α) (k : Nat) (h : twf d t = true) :
    twf d (tsetMany d t k l) = true := by
  induction l generalizing t k with
  | nil => exact h
  | cons v r ih => exact ih _ _ (twf_tset d t k v h)

/-- Storing a list of values leaves every key outside it alone. -/
theorem tget_tsetMany_other [DecidableEq α] (d : α) (l : List α) (t : Tbl α) (k j : Nat)
    (h : j < k ∨ k + l.length ≤ j) : tget d (tsetMany d t k l) j = tget d t j := by
  induction l generalizing t k with
  | nil => rfl
  | cons v r ih =>
    simp only [List.length_cons] at h
    rw [tsetMany, ih _ _ (by omega), tget_tset_other d t k v (by omega)]

/-- A read of what was stored gives it back. -/
theorem tget_tsetMany_in [DecidableEq α] (d : α) (l : List α) (t : Tbl α) (k i : Nat)
    (h : i < l.length) : tget d (tsetMany d t k l) (k + i) = l[i] := by
  induction l generalizing t k i with
  | nil => simp at h
  | cons v r ih =>
    rw [tsetMany]
    cases i with
    | zero => rw [tget_tsetMany_other d r _ _ _ (by omega)]; simp
    | succ n =>
      have := ih (tset d t k v) (k + 1) n (by simpa using h)
      simpa [Nat.add_assoc, Nat.add_comm 1 n] using this

end Sys2Proof.Machine
end

