-- ==== Sys2Proof/Laws/Regs.lean ====
section
/-! SUPPORT. Registers: what a read gives after a write, and that a write leaves every other register, and every
other field of its own register, alone. -/

namespace Sys2Proof.Machine

variable (s : State)

/-! ### Words -/

@[simp] theorem State.word_setWord_same (o : Nat) (v : Word) : (s.setWord o v).word o = v := by
  simp [State.word, State.setWord]

theorem State.word_setWord_other (o : Nat) (v : Word) {p : Nat} (h : p ≠ o) : (s.setWord o v).word p = s.word p := by
  simp [State.word, State.setWord, tget_tset_other _ _ _ _ h]

theorem State.word_wr_other (f : Fld) (i v : Nat) {p : Nat} (h : p ≠ f.at i) : (s.wr f i v).word p = s.word p :=
  s.word_setWord_other _ _ h

theorem State.word_flag_other (f : Fld) (i : Nat) {p : Nat} (h : p ≠ f.at i) : (s.flag f i).word p = s.word p :=
  s.word_wr_other f i 1 h

theorem State.word_put_other (f : Fld) (i : Nat) (b : Bool) {p : Nat} (h : p ≠ f.at i) :
    (s.put f i b).word p = s.word p := s.word_wr_other f i _ h

theorem State.word_bump_other (f : Fld) (i n : Nat) {p : Nat} (h : p ≠ f.at i) : (s.bump f i n).word p = s.word p :=
  s.word_wr_other f i _ h

theorem State.word_wr64_other (r : Reg64) (i v : Nat) {p : Nat} (h : p ≠ r.base + r.stride * i)
    (h' : p ≠ r.base + r.stride * i + 4) : (s.wr64 r i v).word p = s.word p := by
  rw [State.wr64, State.word_setWord_other _ _ _ h', State.word_setWord_other _ _ _ h]

/-- What a register holds depends on the register file alone. -/
theorem State.word_of_regs {s t : State} (h : t.regs = s.regs) (o : Nat) : t.word o = s.word o := by
  simp [State.word, h]

theorem State.rd_of_regs {s t : State} (h : t.regs = s.regs) (f : Fld) (i : Nat) : t.rd f i = s.rd f i := by
  simp [State.rd, State.word_of_regs h]

/-- What a field holds depends on its register's word alone. -/
theorem State.rd_of_word {s t : State} (f : Fld) (i : Nat) (h : t.word (f.at i) = s.word (f.at i)) :
    t.rd f i = s.rd f i := by
  simp [State.rd, h]

/-! ### Fields -/

theorem putBits_lt (x lo w v n : Nat) (hx : x < 2 ^ n) (hn : lo + w ≤ n) : putBits x lo w v < 2 ^ n := by
  unfold putBits
  obtain ⟨k, rfl⟩ := Nat.exists_eq_add_of_le hn
  have h1 : x % 2 ^ lo < 2 ^ lo := Nat.mod_lt _ (by positivity)
  have h2 : v % 2 ^ w < 2 ^ w := Nat.mod_lt _ (by positivity)
  have h3 : x / 2 ^ (lo + w) < 2 ^ k := by
    rw [Nat.div_lt_iff_lt_mul (by positivity)]; rw [← pow_add, add_comm k]; exact hx
  have e1 : 2 ^ (lo + w) = 2 ^ lo * 2 ^ w := pow_add ..
  have e2 : 2 ^ (lo + w + k) = 2 ^ lo * 2 ^ w * 2 ^ k := by rw [pow_add, pow_add]
  rw [e2, e1]
  rw [e1] at h3
  calc x % 2 ^ lo + v % 2 ^ w * 2 ^ lo + x / (2 ^ lo * 2 ^ w) * (2 ^ lo * 2 ^ w)
      < (v % 2 ^ w + 1) * 2 ^ lo + x / (2 ^ lo * 2 ^ w) * (2 ^ lo * 2 ^ w) := by rw [Nat.add_mul]; omega
    _ ≤ 2 ^ w * 2 ^ lo + x / (2 ^ lo * 2 ^ w) * (2 ^ lo * 2 ^ w) := by
        have := Nat.mul_le_mul_right (2 ^ lo) (Nat.succ_le_of_lt h2); simp only [Nat.succ_eq_add_one] at this; omega
    _ = (x / (2 ^ lo * 2 ^ w) + 1) * (2 ^ lo * 2 ^ w) := by ring
    _ ≤ 2 ^ k * (2 ^ lo * 2 ^ w) := Nat.mul_le_mul_right _ (Nat.succ_le_of_lt h3)
    _ = 2 ^ lo * 2 ^ w * 2 ^ k := by ring

theorem putBits_read (x lo w v : Nat) : putBits x lo w v / 2 ^ lo % 2 ^ w = v % 2 ^ w := by
  unfold putBits
  have e1 : 2 ^ (lo + w) = 2 ^ lo * 2 ^ w := pow_add ..
  have : x % 2 ^ lo + v % 2 ^ w * 2 ^ lo + x / 2 ^ (lo + w) * 2 ^ (lo + w) =
      x % 2 ^ lo + 2 ^ lo * (v % 2 ^ w + 2 ^ w * (x / 2 ^ (lo + w))) := by rw [e1]; ring
  rw [this, Nat.add_mul_div_left _ _ (by positivity), Nat.div_eq_of_lt (Nat.mod_lt _ (by positivity))]
  simp

/-- Fields that share no bit do not disturb one another. -/
theorem putBits_disjoint (x lo w v lo' w' : Nat) (h : lo' + w' ≤ lo ∨ lo + w ≤ lo') :
    putBits x lo w v / 2 ^ lo' % 2 ^ w' = x / 2 ^ lo' % 2 ^ w' := by
  apply Nat.eq_of_testBit_eq
  intro j
  have key : ∀ k, (k < lo ∨ lo + w ≤ k) → (putBits x lo w v).testBit k = x.testBit k := by
    intro k hk
    unfold putBits
    have e1 : 2 ^ (lo + w) = 2 ^ lo * 2 ^ w := pow_add ..
    have hm : x % 2 ^ lo < 2 ^ lo := Nat.mod_lt _ (by positivity)
    have hv : v % 2 ^ w < 2 ^ w := Nat.mod_lt _ (by positivity)
    have hs : x % 2 ^ lo + v % 2 ^ w * 2 ^ lo + x / 2 ^ (lo + w) * 2 ^ (lo + w) =
        2 ^ lo * (2 ^ w * (x / 2 ^ (lo + w)) + v % 2 ^ w) + x % 2 ^ lo := by rw [e1]; ring
    rw [hs]
    rcases hk with hk | hk
    · rw [Nat.testBit_two_pow_mul_add _ hm, if_pos hk, Nat.testBit_mod_two_pow]; simp [hk]
    · rw [Nat.testBit_two_pow_mul_add _ hm, if_neg (by omega),
        Nat.testBit_two_pow_mul_add _ hv, if_neg (by omega), Nat.testBit_div_two_pow]
      congr 1; omega
  rw [Nat.testBit_mod_two_pow, Nat.testBit_mod_two_pow, Nat.testBit_div_two_pow, Nat.testBit_div_two_pow]
  by_cases hj : j < w'
  · rw [key (j + lo') (by omega)]
  · simp [hj]

/-- A field reads what was written to it, in its width. -/
theorem State.rd_wr_same (f : Fld) (i v : Nat) (h : f.lo + f.w ≤ 32) : (s.wr f i v).rd f i = v % 2 ^ f.w := by
  have hlt := putBits_lt (s.word (f.at i)).toNat f.lo f.w v 32 (s.word (f.at i)).isLt h
  simp only [State.rd, State.wr, State.word_setWord_same, BitVec.toNat_ofNat]
  rw [Nat.mod_eq_of_lt hlt, putBits_read]

/-- A write of one field leaves every field alone that is in another register or shares no bit with it. -/
theorem State.rd_wr_other (f g : Fld) (i j v : Nat)
    (h : g.at j ≠ f.at i ∨ ((g.lo + g.w ≤ f.lo ∨ f.lo + f.w ≤ g.lo) ∧ f.lo + f.w ≤ 32)) :
    (s.wr f i v).rd g j = s.rd g j := by
  by_cases ha : g.at j = f.at i
  · rcases h with h | ⟨h, h32⟩
    · exact absurd ha h
    · have hlt := putBits_lt (s.word (f.at i)).toNat f.lo f.w v 32 (s.word (f.at i)).isLt h32
      simp only [State.rd, State.wr, ha, State.word_setWord_same, BitVec.toNat_ofNat]
      rw [Nat.mod_eq_of_lt hlt, putBits_disjoint _ _ _ _ _ _ h]
  · exact State.rd_of_word _ _ (s.word_wr_other f i v ha)

theorem State.on_iff (f : Fld) (i : Nat) : s.on f i = true ↔ s.rd f i = 1 := by simp [State.on]

theorem State.rd_lt (f : Fld) (i : Nat) : s.rd f i < 2 ^ f.w := Nat.mod_lt _ (by positivity)

/-- A counter's next value, holding its largest. -/
theorem State.rd_bump_same (f : Fld) (i n : Nat) (h : f.lo + f.w ≤ 32) :
    (s.bump f i n).rd f i = min (s.rd f i + n) (2 ^ f.w - 1) := by
  rw [State.bump, State.rd_wr_same _ _ _ _ h, Nat.mod_eq_of_lt]
  have : 0 < 2 ^ f.w := by positivity
  omega

/-- A 64-bit quantity reads what was written to it. -/
theorem State.rd64_wr64_same (r : Reg64) (i v : Nat) : (s.wr64 r i v).rd64 r i = v % 2 ^ 64 := by
  simp only [State.rd64, State.wr64, State.word_setWord_same, BitVec.toNat_ofNat]
  rw [State.word_setWord_other _ _ _ (by omega), State.word_setWord_same]
  simp only [BitVec.toNat_ofNat]
  have : (2 : Nat) ^ 64 = 2 ^ 32 * 2 ^ 32 := by norm_num
  rw [this, Nat.mod_mul]

end Sys2Proof.Machine
end

