-- ==== Sys2Proof/Laws/Events.lean ====
section
/-! SUPPORT. What numbering an event, raising a fault and posting a packet do (R346, R355, R470): the registers they may
touch, the parts they leave alone, and the number and the record an event gets. -/

namespace Sys2Proof.Machine

variable (s : State)

/-! ### Registers -/

theorem State.word_forN (n : Nat) (f : State → Nat → State) (o : Nat) (h : ∀ t i, i < n → (f t i).word o = t.word o) :
    (forN n f s).word o = s.word o := by
  unfold forN
  have : ∀ (l : List Nat) (t : State), (∀ i ∈ l, i < n) → (l.foldl f t).word o = t.word o := by
    intro l
    induction l with
    | nil => intros; rfl
    | cons x r ih =>
      intro t hl
      rw [List.foldl_cons, ih _ (fun i hi => hl i (List.mem_cons_of_mem _ hi)), h _ _ (hl x (List.mem_cons_self ..))]
  exact this _ _ (fun i hi => List.mem_range.mp hi)

theorem State.word_ite (c : Prop) [Decidable c] (a b : State) (o : Nat) :
    (if c then a else b).word o = if c then a.word o else b.word o := by
  split <;> rfl

theorem State.word_raise (f : FaultMsg) {o : Nat} (h : o ≠ 0x20048) (h' : o ≠ 0x2004c) (h'' : o ≠ 0x20050) :
    (s.raise f).word o = s.word o := by
  unfold State.raise
  dsimp only
  split
  · rw [State.word_bump_other]; · rfl
    · exact h
  · split
    · rw [State.word_bump_other]; · rfl
      · exact h'
    · rw [State.word_bump_other]; · rfl
      · exact h''

theorem State.word_raise_u (f : FaultMsg) {o : Nat} (hc : f.cls.val = 1) (h : o ≠ 0x2004c) : (s.raise f).word o = s.word o := by
  unfold State.raise
  rw [hc]
  exact State.word_bump_other _ _ _ _ h

theorem State.word_fabRefuse (m ty a : Nat) {o : Nat} (h : refuseWord o = false) : (s.fabRefuse m ty a).word o = s.word o := by
  simp only [refuseWord, Bool.or_eq_false_iff, beq_eq_false_iff_ne] at h
  obtain ⟨⟨⟨⟨h1, h2⟩, h3⟩, h4⟩, h5⟩ := h
  unfold State.fabRefuse
  dsimp only
  rw [State.word_raise_u _ _ rfl h5, State.word_flag_other _ _ _ h4, State.word_ite]
  split
  · rfl
  · rw [State.word_wr_other _ _ _ _ h3, State.word_wr_other _ _ _ _ h3, State.word_wr_other _ _ _ _ h3,
      State.word_wr64_other _ _ _ _ h1 h2]

theorem State.word_queueWrite (q a : Nat) (l : List Byte) {o : Nat} (h : o ≠ 0x90101c + 0x40 * q) (h' : refuseWord o = false) :
    (s.queueWrite q a l).word o = s.word o := by
  unfold State.queueWrite
  split
  · rfl
  · split
    · rfl
    · rw [State.word_flag_other _ _ _ h, s.word_fabRefuse _ _ _ h']

theorem State.word_cqEntry (q : Nat) (l : List Byte) (c : Bool) {o : Nat} (h : o ≠ 0x90101c + 0x40 * q)
    (h' : refuseWord o = false) : (s.cqEntry q l c).word o = s.word o := by
  unfold State.cqEntry
  extract_lets +onlyGivenNames t e s1 s2
  have h2 : s2.word o = s1.word o := by
    unfold s2
    rw [State.word_ite]
    exact ite_self _
  exact ((State.word_wr_other _ _ _ _ h).trans h2).trans (s.word_queueWrite _ _ _ h h')

theorem State.word_cqConts (q : Nat) (l : List Byte) (n : Nat) {o : Nat} (h : o ≠ 0x90101c + 0x40 * q)
    (h' : refuseWord o = false) : (s.cqConts q l n).word o = s.word o := by
  induction n generalizing s l with
  | zero => rfl
  | succ n ih =>
    unfold State.cqConts
    split
    · rfl
    · rw [ih, State.word_cqEntry _ _ _ _ h h']

theorem State.word_cqPost (q : Nat) (p : Packet) (b : Option (Nat × Nat)) {o : Nat} (h : o ≠ 0x90101c + 0x40 * q)
    (h' : refuseWord o = false) : (s.cqPost q p b).word o = s.word o := by
  unfold State.cqPost
  dsimp only
  have e : ∀ t : State, (t.send (.msix (t.rd .PCI_QCFG_VEC q))).word o = t.word o := fun _ => rfl
  rw [e]
  split
  · rw [State.word_cqConts _ _ _ _ h h', State.word_cqEntry _ _ _ _ h h']
    split
    · rw [State.word_queueWrite _ _ _ _ h h']
    · rfl
  · rw [State.word_cqEntry _ _ _ _ h h']
    split
    · rw [State.word_queueWrite _ _ _ _ h h']
    · rfl

theorem eventWord_queue (q : Nat) (hq : q < 16) : eventWord (0x90101c + 0x40 * q) = true := by
  unfold eventWord
  simp only [Bool.or_eq_true, Bool.and_eq_true, decide_eq_true_eq, beq_iff_eq]
  right; omega

theorem eventWord_refuse {o : Nat} (h : eventWord o = false) : refuseWord o = false := by
  simp only [eventWord, Bool.or_eq_false_iff] at h
  exact h.1.2

theorem State.word_sendPacket (p : Packet) (b : Option (Nat × Nat)) {o : Nat} (h : eventWord o = false) :
    (s.sendPacket p b).word o = s.word o := by
  unfold State.sendPacket
  dsimp only
  split
  · next q _ =>
    split
    · rw [State.word_cqPost]
      · rfl
      · rintro rfl; rw [eventWord_queue q.val q.isLt] at h; exact absurd h (by decide)
      · exact eventWord_refuse h
    · rfl
  · rfl

theorem State.word_deliver (e : Event) (d : Nat) {o : Nat} (h : eventWord o = false) : (s.deliver e d).word o = s.word o := by
  have h1 : o ≠ Fld.DLR_EVLOST_COUNT.at 0 := by rintro rfl; exact absurd h (by decide)
  have h2 : o ≠ Fld.DLR_EVT_EVLOST.at 0 := by rintro rfl; exact absurd h (by decide)
  unfold State.deliver
  split
  · split
    · split
      · rw [State.word_sendPacket _ _ _ h]; rfl
      · rw [State.word_flag_other _ _ _ h2, State.word_bump_other _ _ _ _ h1]; rfl
    · rfl
  · rfl

theorem State.word_deliverMgmt (e : Event) (d : Src × Nat) {o : Nat} (h : eventWord o = false) :
    (s.deliverMgmt e d).word o = s.word o := by
  unfold State.deliverMgmt
  split
  · rw [State.word_sendPacket _ _ _ h]
  · rfl

theorem State.word_deliverAll (e : Event) (l : List (Src × Nat)) {o : Nat} (h : eventWord o = false) :
    (s.deliverAll e l).word o = s.word o := by
  unfold State.deliverAll
  induction l generalizing s with
  | nil => rfl
  | cons d l ih => rw [List.foldl_cons, ih, s.word_deliverMgmt e d h]

theorem State.word_numberEvent (a b c d e : Nat) {o : Nat} (h : eventWord o = false) :
    (s.numberEvent a b c d e).word o = s.word o := by
  unfold State.numberEvent
  dsimp only
  rw [State.word_deliverAll _ _ _ h, State.word_forN]
  · rfl
  · intro t i _; exact t.word_deliver _ _ h

/-- Numbering an event touches only the registers of `eventWord`. -/
theorem State.word_event (a b c d e : Nat) {o : Nat} (h : eventWord o = false) : (s.event a b c d e).word o = s.word o := by
  unfold State.event
  split
  · rfl
  · split
    · exact s.word_numberEvent _ _ _ _ _ h
    · exact State.word_bump_other _ _ _ _ (by rintro rfl; exact absurd h (by decide))

theorem State.word_record (a b c d : Nat) (l : List Byte) (o : Nat) : (s.record a b c d l).word o = s.word o := by
  unfold State.record; split <;> rfl

theorem State.word_repair (a b c d e f : Nat) {o : Nat} (h : eventWord o = false) :
    (s.repair a b c d e f).word o = s.word o := by
  unfold State.repair
  rw [State.word_record, State.word_event _ _ _ _ _ _ h]

/-! ### Parts -/

theorem State.forN_induct (p : State → Prop) (n : Nat) (f : State → Nat → State) (h : p s) (hf : ∀ t i, p t → p (f t i)) :
    p (forN n f s) := by
  unfold forN
  generalize List.range n = l
  induction l generalizing s with
  | nil => exact h
  | cons x r ih => exact ih _ (hf _ _ h)

end Sys2Proof.Machine
end

