-- ==== Sys2Proof/Laws/Within.lean ====
section
/-! SUPPORT. What the updates change at most (`Within`), for every update an operation is made of. The lemmas have one
shape: what is within the mask up to `t` is within it up to the operation at `t`, if the mask has the parts that the
operation touches; so a composition is proved by applying them in turn. The files Within1 and on hold the same for
every operation and every command. -/

namespace Sys2Proof.Machine

variable {M : Mask} {s t u : State}

theorem Keeps.refl (s : State) : Keeps s s :=
  ⟨rfl, Nat.le_refl _, Nat.le_max_left .., Nat.le_refl _, Nat.le_refl _, id⟩

theorem Keeps.trans (h : Keeps s t) (k : Keeps t u) : Keeps s u :=
  ⟨k.pending.trans h.pending, h.lcs.trans k.lcs, by have := h.lcsMax; have := k.lcsMax; omega,
    h.fresh.trans k.fresh, h.clock.trans k.clock, fun w => k.mem (h.mem w)⟩

theorem reset_memWf : State.reset.memWf := ⟨rfl, rfl, rfl, rfl, rfl⟩

/-- A state that carries queue, life-cycle, free values, clock and the well-formed memories over. -/
theorem Keeps.of (h1 : t.pending = s.pending) (h2 : t.lcs = s.lcs) (h3 : s.fresh ≤ t.fresh) (h4 : t.clock = s.clock)
    (h5 : s.memWf → t.memWf) : Keeps s t := ⟨h1, h2.ge, by omega, h3, h4.ge, h5⟩

theorem Within.refl (M : Mask) (s : State) : Within M s s where
  keeps := .refl s
  regs := .inr rfl
  out := .inr ⟨rfl, rfl, rfl⟩
  dealer := .inr rfl
  faults := .inr rfl
  time := .inr ⟨rfl, rfl⟩
  lanes := .inr ⟨rfl, rfl⟩
  links := .inr rfl
  sess := .inr ⟨rfl, rfl⟩
  deck := .inr rfl
  engs := .inr rfl
  plans := .inr rfl
  tricks := .inr rfl
  beams := .inr rfl
  outp := .inr rfl
  hbm := .inr rfl
  spd := .inr rfl
  sec := .inr ⟨rfl, rfl⟩
  ledger := .inr rfl
  fab := .inr rfl
  dma := .inr ⟨rfl, rfl⟩
  power := .inr rfl
  modl := .inr rfl

theorem Within.trans (h : Within M s t) (k : Within M t u) : Within M s u where
  keeps := h.keeps.trans k.keeps
  regs := h.regs.elim .inl fun a => k.regs.elim .inl fun b => .inr (b.trans a)
  out := h.out.elim .inl fun a => k.out.elim .inl fun b => .inr ⟨b.1.trans a.1, b.2.1.trans a.2.1, b.2.2.trans a.2.2⟩
  dealer := h.dealer.elim .inl fun a => k.dealer.elim .inl fun b => .inr (b.trans a)
  faults := h.faults.elim .inl fun a => k.faults.elim .inl fun b => .inr (b.trans a)
  time := h.time.elim .inl fun a => k.time.elim .inl fun b => .inr ⟨b.1.trans a.1, b.2.trans a.2⟩
  lanes := h.lanes.elim .inl fun a => k.lanes.elim .inl fun b => .inr ⟨b.1.trans a.1, b.2.trans a.2⟩
  links := h.links.elim .inl fun a => k.links.elim .inl fun b => .inr (b.trans a)
  sess := h.sess.elim .inl fun a => k.sess.elim .inl fun b => .inr ⟨b.1.trans a.1, b.2.trans a.2⟩
  deck := h.deck.elim .inl fun a => k.deck.elim .inl fun b => .inr (b.trans a)
  engs := h.engs.elim .inl fun a => k.engs.elim .inl fun b => .inr (b.trans a)
  plans := h.plans.elim .inl fun a => k.plans.elim .inl fun b => .inr (b.trans a)
  tricks := h.tricks.elim .inl fun a => k.tricks.elim .inl fun b => .inr (b.trans a)
  beams := h.beams.elim .inl fun a => k.beams.elim .inl fun b => .inr (b.trans a)
  outp := h.outp.elim .inl fun a => k.outp.elim .inl fun b => .inr (b.trans a)
  hbm := h.hbm.elim .inl fun a => k.hbm.elim .inl fun b => .inr (b.trans a)
  spd := h.spd.elim .inl fun a => k.spd.elim .inl fun b => .inr (b.trans a)
  sec := h.sec.elim .inl fun a => k.sec.elim .inl fun b => .inr ⟨b.1.trans a.1, b.2.trans a.2⟩
  ledger := h.ledger.elim .inl fun a => k.ledger.elim .inl fun b => .inr (b.trans a)
  fab := h.fab.elim .inl fun a => k.fab.elim .inl fun b => .inr (b.trans a)
  dma := h.dma.elim .inl fun a => k.dma.elim .inl fun b => .inr ⟨b.1.trans a.1, b.2.trans a.2⟩
  power := h.power.elim .inl fun a => k.power.elim .inl fun b => .inr (b.trans a)
  modl := h.modl.elim .inl fun a => k.modl.elim .inl fun b => .inr (by rw [b, a])

/-- An update of parts that the mask has. -/
theorem Within.upd {sent : List Msg} {lanes : Tbl LaneX} {bundles : Tbl BundleX} {links : Tbl Link} {sess : Tbl SessionX}
    {flows : Tbl FlowX} {deck : Deck} {engs : Tbl Engine} {dealer : Dealer} {plans : Plans} {tricks : Tricks}
    {beams : Beams} {outp : Outp} {timeb : TimeBase} {hbm : Hbm} {spd : Spd} {sec : Secure} {ledger : Ledger} {fab : Fab}
    {dma : Tbl DmaX} {dmaRr : Nat} {pciPhase : Tbl Bool} {flt : Flt} {pow : Pow} {modl : Modl}
    (h : Within M s t)
    (h_out : M.out = true ∨ (sent = t.sent ∧ modl.hostMem = t.modl.hostMem ∧ pciPhase = t.pciPhase) := by first | exact .inl ‹_› | exact .inr ⟨rfl, rfl, rfl⟩)
    (h_dealer : M.dealer = true ∨ dealer = t.dealer := by first | exact .inl ‹_› | exact .inr rfl)
    (h_faults : M.faults = true ∨ flt = t.flt := by first | exact .inl ‹_› | exact .inr rfl)
    (h_time : M.time = true ∨ timeb = t.timeb := by first | exact .inl ‹_› | exact .inr rfl)
    (h_lanes : M.lanes = true ∨ (lanes = t.lanes ∧ bundles = t.bundles) := by first | exact .inl ‹_› | exact .inr ⟨rfl, rfl⟩)
    (h_links : M.links = true ∨ links = t.links := by first | exact .inl ‹_› | exact .inr rfl)
    (h_sess : M.sess = true ∨ (sess = t.sess ∧ flows = t.flows) := by first | exact .inl ‹_› | exact .inr ⟨rfl, rfl⟩)
    (h_deck : M.deck = true ∨ deck = t.deck := by first | exact .inl ‹_› | exact .inr rfl)
    (h_engs : M.engs = true ∨ engs = t.engs := by first | exact .inl ‹_› | exact .inr rfl)
    (h_plans : M.plans = true ∨ plans = t.plans := by first | exact .inl ‹_› | exact .inr rfl)
    (h_tricks : M.tricks = true ∨ tricks = t.tricks := by first | exact .inl ‹_› | exact .inr rfl)
    (h_beams : M.beams = true ∨ beams = t.beams := by first | exact .inl ‹_› | exact .inr rfl)
    (h_outp : M.outp = true ∨ outp = t.outp := by first | exact .inl ‹_› | exact .inr rfl)
    (h_hbm : M.hbm = true ∨ hbm = t.hbm := by first | exact .inl ‹_› | exact .inr rfl)
    (h_spd : M.spd = true ∨ spd = t.spd := by first | exact .inl ‹_› | exact .inr rfl)
    (h_sec : M.sec = true ∨ sec = t.sec := by first | exact .inl ‹_› | exact .inr rfl)
    (h_ledger : M.ledger = true ∨ ledger = t.ledger := by first | exact .inl ‹_› | exact .inr rfl)
    (h_fab : M.fab = true ∨ fab = t.fab := by first | exact .inl ‹_› | exact .inr rfl)
    (h_dma : M.dma = true ∨ (dma = t.dma ∧ dmaRr = t.dmaRr) := by first | exact .inl ‹_› | exact .inr ⟨rfl, rfl⟩)
    (h_power : M.power = true ∨ pow = t.pow := by first | exact .inl ‹_› | exact .inr rfl)
    (h_modl : M.modl = true ∨ modl = { t.modl with hostMem := modl.hostMem } := by first | exact .inl ‹_› | exact .inr rfl)
    (h1 : hbm.mem = t.hbm.mem := by rfl) (h2 : spd.mem = t.spd.mem := by rfl)
    (h3 : ledger.mem = t.ledger.mem := by rfl) (h4 : modl.hostMem = t.modl.hostMem := by rfl) :
    Within M s (State.mk t.pending t.regs t.lcs t.fresh t.clock sent lanes bundles links sess flows deck engs dealer plans
      tricks beams outp timeb hbm spd sec ledger fab dma dmaRr pciPhase flt pow modl) :=
  h.trans
    { keeps := .of rfl rfl (Nat.le_refl _) rfl fun w =>
        ⟨w.1, h1 ▸ w.2.1, h2 ▸ w.2.2.1, h3 ▸ w.2.2.2.1, h4 ▸ w.2.2.2.2⟩
      regs := .inr rfl
      out := h_out
      dealer := h_dealer
      faults := h_faults
      time := h_time.imp_right fun a => ⟨rfl, a⟩
      lanes := h_lanes
      links := h_links
      sess := h_sess
      deck := h_deck
      engs := h_engs
      plans := h_plans
      tricks := h_tricks
      beams := h_beams
      outp := h_outp
      hbm := h_hbm
      spd := h_spd
      sec := h_sec.imp_right fun a => ⟨rfl, a⟩
      ledger := h_ledger
      fab := h_fab
      dma := h_dma
      power := h_power
      modl := h_modl }

/-- The same where free values are drawn. -/
theorem Within.updFresh {n : Nat} {sent : List Msg} {lanes : Tbl LaneX} {bundles : Tbl BundleX} {links : Tbl Link} {sess : Tbl SessionX}
    {flows : Tbl FlowX} {deck : Deck} {engs : Tbl Engine} {dealer : Dealer} {plans : Plans} {tricks : Tricks}
    {beams : Beams} {outp : Outp} {timeb : TimeBase} {hbm : Hbm} {spd : Spd} {sec : Secure} {ledger : Ledger} {fab : Fab}
    {dma : Tbl DmaX} {dmaRr : Nat} {pciPhase : Tbl Bool} {flt : Flt} {pow : Pow} {modl : Modl}
    (h : Within M s t)
    (h_out : M.out = true ∨ (sent = t.sent ∧ modl.hostMem = t.modl.hostMem ∧ pciPhase = t.pciPhase) := by first | exact .inl ‹_› | exact .inr ⟨rfl, rfl, rfl⟩)
    (h_dealer : M.dealer = true ∨ dealer = t.dealer := by first | exact .inl ‹_› | exact .inr rfl)
    (h_faults : M.faults = true ∨ flt = t.flt := by first | exact .inl ‹_› | exact .inr rfl)
    (h_time : M.time = true ∨ timeb = t.timeb := by first | exact .inl ‹_› | exact .inr rfl)
    (h_lanes : M.lanes = true ∨ (lanes = t.lanes ∧ bundles = t.bundles) := by first | exact .inl ‹_› | exact .inr ⟨rfl, rfl⟩)
    (h_links : M.links = true ∨ links = t.links := by first | exact .inl ‹_› | exact .inr rfl)
    (h_sess : M.sess = true ∨ (sess = t.sess ∧ flows = t.flows) := by first | exact .inl ‹_› | exact .inr ⟨rfl, rfl⟩)
    (h_deck : M.deck = true ∨ deck = t.deck := by first | exact .inl ‹_› | exact .inr rfl)
    (h_engs : M.engs = true ∨ engs = t.engs := by first | exact .inl ‹_› | exact .inr rfl)
    (h_plans : M.plans = true ∨ plans = t.plans := by first | exact .inl ‹_› | exact .inr rfl)
    (h_tricks : M.tricks = true ∨ tricks = t.tricks := by first | exact .inl ‹_› | exact .inr rfl)
    (h_beams : M.beams = true ∨ beams = t.beams := by first | exact .inl ‹_› | exact .inr rfl)
    (h_outp : M.outp = true ∨ outp = t.outp := by first | exact .inl ‹_› | exact .inr rfl)
    (h_hbm : M.hbm = true ∨ hbm = t.hbm := by first | exact .inl ‹_› | exact .inr rfl)
    (h_spd : M.spd = true ∨ spd = t.spd := by first | exact .inl ‹_› | exact .inr rfl)
    (h_sec : M.sec = true ∨ sec = t.sec := by first | exact .inl ‹_› | exact .inr rfl)
    (h_ledger : M.ledger = true ∨ ledger = t.ledger := by first | exact .inl ‹_› | exact .inr rfl)
    (h_fab : M.fab = true ∨ fab = t.fab := by first | exact .inl ‹_› | exact .inr rfl)
    (h_dma : M.dma = true ∨ (dma = t.dma ∧ dmaRr = t.dmaRr) := by first | exact .inl ‹_› | exact .inr ⟨rfl, rfl⟩)
    (h_power : M.power = true ∨ pow = t.pow := by first | exact .inl ‹_› | exact .inr rfl)
    (h_modl : M.modl = true ∨ modl = { t.modl with hostMem := modl.hostMem } := by first | exact .inl ‹_› | exact .inr rfl)
    (h1 : hbm.mem = t.hbm.mem := by rfl) (h2 : spd.mem = t.spd.mem := by rfl)
    (h3 : ledger.mem = t.ledger.mem := by rfl) (h4 : modl.hostMem = t.modl.hostMem := by rfl) :
    Within M s (State.mk t.pending t.regs t.lcs (t.fresh + n) t.clock sent lanes bundles links sess flows deck engs dealer plans
      tricks beams outp timeb hbm spd sec ledger fab dma dmaRr pciPhase flt pow modl) :=
  h.trans
    { keeps := .of rfl rfl (Nat.le_add_right ..) rfl fun w =>
        ⟨w.1, h1 ▸ w.2.1, h2 ▸ w.2.2.1, h3 ▸ w.2.2.2.1, h4 ▸ w.2.2.2.2⟩
      regs := .inr rfl
      out := h_out
      dealer := h_dealer
      faults := h_faults
      time := h_time.imp_right fun a => ⟨rfl, a⟩
      lanes := h_lanes
      links := h_links
      sess := h_sess
      deck := h_deck
      engs := h_engs
      plans := h_plans
      tricks := h_tricks
      beams := h_beams
      outp := h_outp
      hbm := h_hbm
      spd := h_spd
      sec := h_sec.imp_right fun a => ⟨rfl, a⟩
      ledger := h_ledger
      fab := h_fab
      dma := h_dma
      power := h_power
      modl := h_modl }

/-- Such an update changes nothing of what is to be shown. -/
theorem Within.upd_iff {sent : List Msg} {lanes : Tbl LaneX} {bundles : Tbl BundleX} {links : Tbl Link} {sess : Tbl SessionX}
    {flows : Tbl FlowX} {deck : Deck} {engs : Tbl Engine} {dealer : Dealer} {plans : Plans} {tricks : Tricks}
    {beams : Beams} {outp : Outp} {timeb : TimeBase} {hbm : Hbm} {spd : Spd} {sec : Secure} {ledger : Ledger} {fab : Fab}
    {dma : Tbl DmaX} {dmaRr : Nat} {pciPhase : Tbl Bool} {flt : Flt} {pow : Pow} {modl : Modl}
    (h_out : M.out = true ∨ (sent = t.sent ∧ modl.hostMem = t.modl.hostMem ∧ pciPhase = t.pciPhase))
    (h_dealer : M.dealer = true ∨ dealer = t.dealer) (h_faults : M.faults = true ∨ flt = t.flt)
    (h_time : M.time = true ∨ timeb = t.timeb) (h_lanes : M.lanes = true ∨ (lanes = t.lanes ∧ bundles = t.bundles))
    (h_links : M.links = true ∨ links = t.links) (h_sess : M.sess = true ∨ (sess = t.sess ∧ flows = t.flows))
    (h_deck : M.deck = true ∨ deck = t.deck) (h_engs : M.engs = true ∨ engs = t.engs)
    (h_plans : M.plans = true ∨ plans = t.plans) (h_tricks : M.tricks = true ∨ tricks = t.tricks)
    (h_beams : M.beams = true ∨ beams = t.beams) (h_outp : M.outp = true ∨ outp = t.outp)
    (h_hbm : M.hbm = true ∨ hbm = t.hbm) (h_spd : M.spd = true ∨ spd = t.spd) (h_sec : M.sec = true ∨ sec = t.sec)
    (h_ledger : M.ledger = true ∨ ledger = t.ledger) (h_fab : M.fab = true ∨ fab = t.fab)
    (h_dma : M.dma = true ∨ (dma = t.dma ∧ dmaRr = t.dmaRr)) (h_power : M.power = true ∨ pow = t.pow)
    (h_modl : M.modl = true ∨ modl = { t.modl with hostMem := modl.hostMem })
    (h1 : hbm.mem = t.hbm.mem) (h2 : spd.mem = t.spd.mem) (h3 : ledger.mem = t.ledger.mem)
    (h4 : modl.hostMem = t.modl.hostMem) :
    Within M s (State.mk t.pending t.regs t.lcs t.fresh t.clock sent lanes bundles links sess flows deck engs dealer plans
      tricks beams outp timeb hbm spd sec ledger fab dma dmaRr pciPhase flt pow modl) ↔ Within M s t := by
  refine ⟨fun k => k.trans ?_, fun k => k.upd h_out h_dealer h_faults h_time h_lanes h_links h_sess h_deck h_engs h_plans h_tricks h_beams h_outp h_hbm h_spd h_sec h_ledger h_fab h_dma h_power h_modl h1 h2 h3 h4⟩
  exact
    { keeps := .of rfl rfl (Nat.le_refl _) rfl fun w =>
        ⟨w.1, h1 ▸ w.2.1, h2 ▸ w.2.2.1, h3 ▸ w.2.2.2.1, h4 ▸ w.2.2.2.2⟩
      regs := .inr rfl
      out := h_out.imp_right fun a => ⟨a.1.symm, a.2.1.symm, a.2.2.symm⟩
      dealer := h_dealer.imp_right fun a => a.symm
      faults := h_faults.imp_right fun a => a.symm
      time := h_time.imp_right fun a => ⟨rfl, a.symm⟩
      lanes := h_lanes.imp_right fun a => ⟨a.1.symm, a.2.symm⟩
      links := h_links.imp_right fun a => a.symm
      sess := h_sess.imp_right fun a => ⟨a.1.symm, a.2.symm⟩
      deck := h_deck.imp_right fun a => a.symm
      engs := h_engs.imp_right fun a => a.symm
      plans := h_plans.imp_right fun a => a.symm
      tricks := h_tricks.imp_right fun a => a.symm
      beams := h_beams.imp_right fun a => a.symm
      outp := h_outp.imp_right fun a => a.symm
      hbm := h_hbm.imp_right fun a => a.symm
      spd := h_spd.imp_right fun a => a.symm
      sec := h_sec.imp_right fun a => ⟨rfl, a.symm⟩
      ledger := h_ledger.imp_right fun a => a.symm
      fab := h_fab.imp_right fun a => a.symm
      dma := h_dma.imp_right fun a => ⟨a.1.symm, a.2.symm⟩
      power := h_power.imp_right fun a => a.symm
      modl := h_modl.imp_right fun a => by rw [a] }

/-! ### One part -/

theorem Within.setLane (h : Within M s t) {l : Nat} {x : LaneX} (h_lanes : M.lanes := by assumption) :
    Within M s (t.setLane l x) :=
  h.trans { Within.refl M t with keeps := .of rfl rfl (Nat.le_refl _) rfl id, lanes := .inl h_lanes }
theorem Within.setBundle (h : Within M s t) {b : Nat} {x : BundleX} (h_lanes : M.lanes := by assumption) :
    Within M s (t.setBundle b x) :=
  h.trans { Within.refl M t with keeps := .of rfl rfl (Nat.le_refl _) rfl id, lanes := .inl h_lanes }
theorem Within.setLink (h : Within M s t) {b : Nat} {x : Link} (h_links : M.links := by assumption) :
    Within M s (t.setLink b x) :=
  h.trans { Within.refl M t with keeps := .of rfl rfl (Nat.le_refl _) rfl id, links := .inl h_links }
theorem Within.setSession (h : Within M s t) {n : Nat} {x : SessionX} (h_sess : M.sess := by assumption) :
    Within M s (t.setSession n x) :=
  h.trans { Within.refl M t with keeps := .of rfl rfl (Nat.le_refl _) rfl id, sess := .inl h_sess }
theorem Within.setFlow (h : Within M s t) {f : Nat} {x : FlowX} (h_sess : M.sess := by assumption) :
    Within M s (t.setFlow f x) :=
  h.trans { Within.refl M t with keeps := .of rfl rfl (Nat.le_refl _) rfl id, sess := .inl h_sess }
theorem Within.setEng (h : Within M s t) {e : Nat} {x : Engine} (h_engs : M.engs := by assumption) :
    Within M s (t.setEng e x) :=
  h.trans { Within.refl M t with keeps := .of rfl rfl (Nat.le_refl _) rfl id, engs := .inl h_engs }
theorem Within.setCore (h : Within M s t) {e : Nat} {c : CoreState} (h_engs : M.engs := by assumption) :
    Within M s (t.setCore e c) :=
  h.trans { Within.refl M t with keeps := .of rfl rfl (Nat.le_refl _) rfl id, engs := .inl h_engs }
theorem Within.setSlot (h : Within M s t) {i : Nat} {x : PlanSlot} (h_plans : M.plans := by assumption) :
    Within M s (t.setSlot i x) :=
  h.trans { Within.refl M t with keeps := .of rfl rfl (Nat.le_refl _) rfl id, plans := .inl h_plans }
theorem Within.setPart (h : Within M s t) {p : Nat} {x : Partition} (h_outp : M.outp := by assumption) :
    Within M s (t.setPart p x) :=
  h.trans { Within.refl M t with keeps := .of rfl rfl (Nat.le_refl _) rfl id, outp := .inl h_outp }
theorem Within.setZslot (h : Within M s t) {i : Nat} {x : ZoomSlot} (h_beams : M.beams := by assumption) :
    Within M s (t.setZslot i x) :=
  h.trans { Within.refl M t with keeps := .of rfl rfl (Nat.le_refl _) rfl id, beams := .inl h_beams }
theorem Within.setChan (h : Within M s t) {a b : Nat} {x : RangeChan} (h_deck : M.deck := by assumption) :
    Within M s (t.setChan a b x) :=
  h.trans { Within.refl M t with keeps := .of rfl rfl (Nat.le_refl _) rfl id, deck := .inl h_deck }
theorem Within.setRefx (h : Within M s t) {r : Nat} {x : RefX} (h_time : M.time := by assumption) :
    Within M s (t.setRefx r x) :=
  h.trans { Within.refl M t with keeps := .of rfl rfl (Nat.le_refl _) rfl id, time := .inl h_time }
theorem Within.setDmac (h : Within M s t) {c : Nat} {x : DmaX} (h_dma : M.dma := by assumption) :
    Within M s (t.setDmac c x) :=
  h.trans { Within.refl M t with keeps := .of rfl rfl (Nat.le_refl _) rfl id, dma := .inl h_dma }
theorem Within.setCapture (h : Within M s t) {a b : Nat} {c : Option Capture} (h_faults : M.faults := by assumption) :
    Within M s (t.setCapture a b c) :=
  h.trans { Within.refl M t with keeps := .of rfl rfl (Nat.le_refl _) rfl id, faults := .inl h_faults }
theorem Within.send (h : Within M s t) {x : Msg} (h_out : M.out := by assumption) :
    Within M s (t.send x) :=
  h.trans { Within.refl M t with keeps := .of rfl rfl (Nat.le_refl _) rfl id, out := .inl h_out }
theorem Within.setNowNs (h : Within M s t) {n : Nat} (h_time : M.time := by assumption) :
    Within M s (t.setNowNs n) :=
  h.trans { Within.refl M t with keeps := .of rfl rfl (Nat.le_refl _) rfl id, time := .inl h_time }

theorem Within.drawn (h : Within M s t) : Within M s t.drawn :=
  h.trans { Within.refl M t with keeps := .of rfl rfl (Nat.le_succ _) rfl id }

theorem Within.advance (h : Within M s t) {n : Nat} (h_time : M.time := by assumption) : Within M s (t.advance n) :=
  h.trans { Within.refl M t with
    keeps := ⟨rfl, Nat.le_refl _, Nat.le_max_left .., Nat.le_refl _, Nat.le_add_right .., id⟩, time := .inl h_time }

theorem Within.reach (h : Within M s t) {n : Nat} (h_time : M.time := by assumption) : Within M s (t.reach n) := by
  unfold State.reach; split
  · exact h.advance
  · exact h

/-! ### Registers and memories -/

theorem Within.setWord (h : Within M s t) {o : Nat} {v : Word} (h_regs : M.regs := by assumption) :
    Within M s (t.setWord o v) :=
  h.trans { Within.refl M t with
    keeps := .of rfl rfl (Nat.le_refl _) rfl fun w => ⟨twf_tset _ _ _ _ w.1, w.2⟩, regs := .inl h_regs }

theorem Within.wr (h : Within M s t) {f : Fld} {i v : Nat} (h_regs : M.regs := by assumption) :
    Within M s (t.wr f i v) := h.setWord
theorem Within.wr64 (h : Within M s t) {r : Reg64} {i v : Nat} (h_regs : M.regs := by assumption) :
    Within M s (t.wr64 r i v) := h.setWord.setWord
theorem Within.flag (h : Within M s t) {f : Fld} {i : Nat} (h_regs : M.regs := by assumption) :
    Within M s (t.flag f i) := h.setWord
theorem Within.put (h : Within M s t) {f : Fld} {i : Nat} {b : Bool} (h_regs : M.regs := by assumption) :
    Within M s (t.put f i b) := h.setWord
theorem Within.bump (h : Within M s t) {f : Fld} {i n : Nat} (h_regs : M.regs := by assumption) :
    Within M s (t.bump f i n) := h.setWord
theorem Within.bumpW (h : Within M s t) {f : Fld} {i n : Nat} (h_regs : M.regs := by assumption) :
    Within M s (t.bumpW f i n) := h.setWord
theorem Within.bump64 (h : Within M s t) {r : Reg64} {i n : Nat} (h_regs : M.regs := by assumption) :
    Within M s (t.bump64 r i n) := h.wr64

theorem Within.hostWrite (h : Within M s t) {a : Nat} {l : List Byte} (h_out : M.out := by assumption) :
    Within M s (t.hostWrite a l) :=
  h.trans { Within.refl M t with
    keeps := .of rfl rfl (Nat.le_refl _) rfl fun w => ⟨w.1, w.2.1, w.2.2.1, w.2.2.2.1, twf_tsetMany _ _ _ _ w.2.2.2.2⟩
    out := .inl h_out, modl := .inr rfl }

/-! ### Folds and choices -/

theorem Within.ite {c : Prop} [Decidable c] {a b : State} (ha : c → Within M s a) (hb : ¬c → Within M s b) :
    Within M s (if c then a else b) := by
  split
  · exact ha ‹_›
  · exact hb ‹_›

theorem Within.foldl {α : Type} {l : List α} {g : State → α → State} (hg : ∀ t x, Within M t (g t x)) (h : Within M s t) :
    Within M s (l.foldl g t) := by
  induction l generalizing t with
  | nil => exact h
  | cons x r ih => exact ih (h.trans (hg t x))

/-- A fold that carries more than the state. -/
theorem Within.foldlFst {α β : Type} {l : List α} {g : State × β → α → State × β}
    (hg : ∀ t b x, Within M t (g (t, b) x).1) {b : β} (h : Within M s t) : Within M s (l.foldl g (t, b)).1 := by
  induction l generalizing t b with
  | nil => exact h
  | cons x r ih => exact ih (h.trans (hg t b x))

theorem Within.forN {n : Nat} {g : State → Nat → State} (hg : ∀ t i, Within M t (g t i)) (h : Within M s t) :
    Within M s (Machine.forN n g t) := Within.foldl hg h

theorem Within.whenS {c : Bool} {g : State → State} (hg : ∀ t, Within M t (g t)) (h : Within M s t) :
    Within M s (t.whenS c g) := by
  unfold State.whenS; split
  · exact h.trans (hg t)
  · exact h

/-- A row's meaning used by another. -/
theorem Within.ofExec {f : State → Host.Outcome State Fault Refusal} (hf : ∀ t u, f t = .next u → Within M t u)
    (h : Within M s t) : Within M s (stateOf (f t) t) := by
  refine h.trans ?_
  unfold stateOf
  split
  · exact hf _ _ ‹_›
  · exact .refl M t

/-! ### What a Winos command's own rule answers -/

/-- The state an answer leaves, and what follows the reply, stay within. -/
structure AnsWithin (M : Mask) (s : State) (a : Ans) : Prop where
  st : Within M s a.st
  after : ∀ w, Within M w (a.after w)

theorem AnsWithin.ok (h : Within M s t) {p : List (Nat × Nat)} : AnsWithin M s (t.ok p) := ⟨h, .refl M⟩
theorem AnsWithin.rej (h : Within M s t) {n : Nat} : AnsWithin M s (t.rej n) := ⟨h, .refl M⟩
theorem AnsWithin.bad (h : Within M s t) {n : Nat} : AnsWithin M s (t.bad n) := ⟨h, .refl M⟩
theorem AnsWithin.over (h : Within M s t) {a b c : Nat} : AnsWithin M s (t.over a b c) := ⟨h, .refl M⟩
theorem AnsWithin.internal (h : Within M s t) {a b c : Nat} : AnsWithin M s (t.internal a b c) := ⟨h, .refl M⟩

theorem AnsWithin.begin (h : Within M s t) {d : Hdr} {op : Nat} {k : LongKind} {p : List (Nat × Nat)}
    (h_dealer : M.dealer := by assumption) : AnsWithin M s (t.begin d op k p) := by
  unfold State.begin; split
  · exact .rej h
  · exact ⟨h.trans { Within.refl M t with keeps := .of rfl rfl (Nat.le_refl _) rfl id, dealer := .inl h_dealer }, .refl M⟩

theorem Within.begin_after {d : Hdr} {op : Nat} {k : LongKind} {p : List (Nat × Nat)} :
    Within M u ((t.begin d op k p).after u) := by
  unfold State.begin; split <;> exact .refl M u

theorem AnsWithin.answer (h : Within M s t) {d : Hdr} {len : Nat} {auth early : Bool} {body : State → Ans}
    (hb : ∀ u, AnsWithin M u (body u)) : AnsWithin M s (t.answer d len auth early body) := by
  unfold State.answer; split
  · exact .rej h
  · split
    · exact .bad h
    · dsimp only; split
      · exact .rej h
      · exact ⟨h.trans (hb t).st, (hb t).after⟩

theorem AnsWithin.loadRefused (h : Within M s t) {a : State → Ans} (ha : ∀ u, AnsWithin M u (a u))
    (h_regs : M.regs := by assumption) : AnsWithin M s (t.loadRefused a) :=
  ⟨h.flag.trans (ha _).st, (ha _).after⟩

end Sys2Proof.Machine
end

