-- ==== Sys2Proof/Laws/Within1.lean ====
section
/-! SUPPORT. Which parts of the state the operations and meanings of Machine/Ops.lean, Machine/LinkLayer.lean,
Machine/Longs.lean, Machine/Lanes.lean may change (`Within`), one lemma each. -/

namespace Sys2Proof.Machine

set_option Elab.async false

variable {M : Mask} {s t u : State}

theorem Within.raise (h : Within M s t) {m : FaultMsg} (h_regs : M.regs := by assumption) (h_faults : M.faults := by
    assumption) : Within M s (State.raise t m) := by
  unfold State.raise
  simp (maxDischargeDepth := 40) only [Within.bump, Within.upd, Within.ite, h, true_or, or_true, and_self, implies_true, h_regs, h_faults]

theorem Within.fabRefuse (h : Within M s t) {master type addr : Nat} (h_regs : M.regs := by assumption) (h_faults :
    M.faults := by assumption) : Within M s (State.fabRefuse t master type addr) := by
  unfold State.fabRefuse
  simp (maxDischargeDepth := 40) only [Within.wr, Within.wr64, Within.raise, Within.flag, Within.ite, h, implies_true,
    h_regs, h_faults]

theorem Within.queueWrite (h : Within M s t) {q : Nat} {a : Nat} {l : List Byte} (h_regs : M.regs := by assumption) (h_out : M.out := by assumption) (h_faults : M.faults := by assumption) : Within M s (State.queueWrite t q a l) := by
  unfold State.queueWrite
  repeat' (first
      | (simp (maxDischargeDepth := 40) only [Within.ite, Within.hostWrite, Within.flag, Within.fabRefuse, h, true_or, or_true, and_self,
            implies_true, h_regs, h_out, h_faults]; done)
      | dsimp only
      | split)

theorem Within.cqEntry (h : Within M s t) {q : Nat} {contents : List Byte} {cont : Bool} (h_regs : M.regs := by
    assumption) (h_out : M.out := by assumption) (h_faults : M.faults := by assumption) : Within M s (State.cqEntry t q contents cont) := by
  unfold State.cqEntry
  simp (maxDischargeDepth := 40) only [Within.queueWrite, Within.hostWrite, Within.wr, Within.upd, Within.ite, h, true_or, or_true,
            and_self, implies_true, h_regs, h_out, h_faults]

theorem Within.cqConts (h : Within M s t) {q : Nat} {l : List Byte} {fuel : Nat} (h_regs : M.regs := by assumption)
    (h_out : M.out := by assumption) (h_faults : M.faults := by assumption) : Within M s (State.cqConts t q l fuel) := by
  induction fuel generalizing t l with
  | zero => exact h
  | succ n ih =>
    unfold State.cqConts
    split
    · exact h
    · exact ih h.cqEntry

theorem Within.cqPost (h : Within M s t) {q : Nat} {p : Packet} {buf : Option (Nat × Nat)} (h_regs : M.regs := by
    assumption) (h_out : M.out := by assumption) (h_faults : M.faults := by assumption) : Within M s (State.cqPost t q p buf) := by
  unfold State.cqPost
  repeat' (first
      | (simp (maxDischargeDepth := 40) only [Within.queueWrite, Within.hostWrite, Within.cqEntry, Within.cqConts, Within.send, Within.ite, h,
            implies_true, h_regs, h_out, true_or, or_true, and_self, h_faults]; done)
      | split)

theorem Within.sendPacket (h : Within M s t) {p : Packet} {buf : Option (Nat × Nat)} (h_regs : M.regs := by
    assumption) (h_out : M.out := by assumption) (h_faults : M.faults := by assumption) : Within M s (State.sendPacket t p buf) := by
  unfold State.sendPacket
  repeat' (first
      | (simp (maxDischargeDepth := 40) only [Within.send, Within.cqPost, Within.ite, h, implies_true, h_regs, h_out, h_faults];
            done)
      | split)

theorem Within.deliver (h : Within M s t) {e : Event} {dest : Nat} (h_regs : M.regs := by assumption) (h_out : M.out
    := by assumption) (h_dealer : M.dealer := by assumption) (h_faults : M.faults := by assumption) : Within M s (State.deliver t e dest) := by
  unfold State.deliver
  repeat' (first
      | (simp (maxDischargeDepth := 40) only [Within.sendPacket, Within.flag, Within.bump, Within.upd, Within.ite, h,
            true_or, or_true, and_self, implies_true, h_regs, h_out, h_dealer, h_faults]; done)
      | split)

theorem Within.deliverMgmt (h : Within M s t) {e : Event} {d : Src × Nat} (h_regs : M.regs := by assumption) (h_out :
    M.out := by assumption) (h_faults : M.faults := by assumption) : Within M s (State.deliverMgmt t e d) := by
  unfold State.deliverMgmt
  repeat' (first
      | (simp (maxDischargeDepth := 40) only [Within.sendPacket, Within.ite, h, true_or, or_true, and_self,
            implies_true, h_regs, h_out, h_faults]; done)
      | dsimp only
      | split)

theorem Within.deliverAll (h : Within M s t) {e : Event} {l : List (Src × Nat)} (h_regs : M.regs := by assumption)
    (h_out : M.out := by assumption) (h_faults : M.faults := by assumption) : Within M s (State.deliverAll t e l) := by
  unfold State.deliverAll
  repeat' (first
      | (simp (maxDischargeDepth := 40) only [Within.deliverMgmt, Within.foldl, Within.refl, h, true_or, or_true,
            and_self, implies_true, h_regs, h_out, h_faults]; done)
      | dsimp only
      | split)

theorem Within.numberEvent (h : Within M s t) {port : Nat} {cd : Nat} {source : Nat} {counter : Nat} {arg : Nat}
    (h_regs : M.regs := by assumption) (h_out : M.out := by assumption) (h_dealer : M.dealer := by assumption) (h_faults : M.faults := by assumption) :
    Within M s (State.numberEvent t port cd source counter arg) := by
  unfold State.numberEvent
  repeat' (first
      | (simp (maxDischargeDepth := 40) only [Within.deliver, Within.deliverAll, Within.upd, Within.forN, Within.refl,
            h, true_or, or_true, and_self, implies_true, h_regs, h_out, h_dealer, h_faults]; done)
      | dsimp only
      | split)

theorem Within.fault (h : Within M s t) {source kind cls : Nat} {addr : optParam Nat 0} (h_regs : M.regs := by
    assumption) (h_faults : M.faults := by assumption) : Within M s (State.fault t source kind cls addr) := by
  unfold State.fault
  simp (maxDischargeDepth := 40) only [Within.raise, h, h_regs, h_faults]

theorem Within.event (h : Within M s t) {port cd source counter arg : Nat} (h_regs : M.regs := by assumption) (h_out :
    M.out := by assumption) (h_dealer : M.dealer := by assumption) (h_faults : M.faults := by assumption) : Within M s
    (State.event t port cd source counter arg) := by
  unfold State.event
  simp (maxDischargeDepth := 40) only [Within.numberEvent, Within.fault, Within.upd, Within.ite, h, true_or, or_true,
    and_self, implies_true, h_regs, h_out, h_dealer, h_faults]

theorem Within.record (h : Within M s t) {type key nslot dsn : Nat} {payload : List Byte} (h_ledger : M.ledger := by
    assumption) : Within M s (State.record t type key nslot dsn payload) := by
  unfold State.record
  simp (maxDischargeDepth := 40) only [Within.upd, Within.ite, h, true_or, or_true, and_self, implies_true, h_ledger]

theorem Within.repair (h : Within M s t) {item kind stage unit loc cause : Nat} (h_regs : M.regs := by assumption)
    (h_out : M.out := by assumption) (h_dealer : M.dealer := by assumption) (h_faults : M.faults := by assumption)
    (h_ledger : M.ledger := by assumption) : Within M s (State.repair t item kind stage unit loc cause) := by
  unfold State.repair
  simp (maxDischargeDepth := 40) only [Within.event, Within.record, h, h_regs, h_out, h_dealer, h_faults, h_ledger]

theorem Within.newItem (h : Within M s t) (h_ledger : M.ledger := by assumption) : Within M s (State.newItem t) := by
  unfold State.newItem
  simp (maxDischargeDepth := 40) only [Within.upd, h, true_or, or_true, and_self, h_ledger]

theorem Within.lifeRecord (h : Within M s t) {dsn : Nat} (h_ledger : M.ledger := by assumption) : Within M s
    (State.lifeRecord t dsn) := by
  unfold State.lifeRecord
  simp (maxDischargeDepth := 40) only [Within.record, h, h_ledger]

theorem Within.resetDue (h : Within M s t) {cause : Nat} (h_modl : M.modl := by assumption) : Within M s
    (State.resetDue t cause) := by
  unfold State.resetDue
  simp (maxDischargeDepth := 40) only [Within.upd, Within.ite, h, true_or, or_true, and_self, implies_true, h_modl]

theorem Within.activate (h : Within M s t) {L : Nat} {k : Nat} (h_hbm : M.hbm := by assumption) : Within M s (State.activate t L k) := by
  unfold State.activate
  repeat' (first
      | (simp (maxDischargeDepth := 40) only [Within.ite, Within.upd, h, true_or, or_true, and_self, implies_true, h_hbm]; done)
      | dsimp only
      | split)

theorem Within.lineWrite (h : Within M s t) {L : Nat} (h_hbm : M.hbm := by assumption) : Within M s (State.lineWrite t L) := by
  unfold State.lineWrite
  repeat' (first
      | (simp (maxDischargeDepth := 40) only [Within.refl, Within.forN, Within.activate, h, true_or, or_true, and_self, implies_true, h_hbm]; done)
      | dsimp only
      | split)

theorem Within.hbmWrite (h : Within M s t) {o : Nat} {l : List Byte} {tagv : Nat} (h_hbm : M.hbm := by assumption) :
    Within M s (State.hbmWrite t o l tagv) := by
  unfold State.hbmWrite
  exact Within.foldl (fun _ _ => Within.lineWrite (.refl M _)) (h.trans { Within.refl M t with
    keeps := .of rfl rfl (Nat.le_refl _) rfl fun w => ⟨w.1, twf_tsetMany _ _ _ _ w.2.1, w.2.2⟩, hbm := .inl h_hbm })

theorem Within.setPos (h : Within M s t) {b p l : Nat} (h_regs : M.regs := by assumption) : Within M s (State.setPos t
    b p l) := by
  unfold State.setPos
  simp (maxDischargeDepth := 40) only [Within.wr, h, h_regs]

theorem Within.sendUnit (h : Within M s t) {b : Nat} {l : List Byte} (h_out : M.out := by assumption) (h_links :
    M.links := by assumption) : Within M s (State.sendUnit t b l) := by
  unfold State.sendUnit
  repeat' (first
      | (simp (maxDischargeDepth := 40) only [Within.setLink, Within.send, h, true_or, or_true, and_self,
            implies_true, h_out, h_links]; done)
      | dsimp only
      | split)

theorem Within.dealUnder (h : Within M s t) {b : Nat} {m : Nat} (h_links : M.links := by assumption) : Within M s (State.dealUnder t b m) := by
  unfold State.dealUnder
  repeat' (first
      | (simp (maxDischargeDepth := 40) only [Within.setLink, h, true_or, or_true, and_self, implies_true, h_links]; done)
      | dsimp only
      | split)

theorem Within.sendMarkers (h : Within M s t) {b : Nat} (h_out : M.out := by assumption) (h_links : M.links := by
    assumption) : Within M s (State.sendMarkers t b) := by
  unfold State.sendMarkers
  repeat' (first
      | (simp (maxDischargeDepth := 40) only [Within.dealUnder, Within.setLink, Within.send, Within.upd, h, true_or, or_true, and_self,
            implies_true, h_out, h_links]; done)
      | dsimp only
      | split)

theorem Within.sendCtl (h : Within M s t) {b : Nat} {flags : Nat} (h_out : M.out := by assumption) (h_links : M.links
    := by assumption) : Within M s (State.sendCtl t b flags) := by
  unfold State.sendCtl
  repeat' (first
      | (simp (maxDischargeDepth := 40) only [Within.sendUnit, h, true_or, or_true, and_self, implies_true, h_out,
            h_links]; done)
      | dsimp only
      | split)

theorem Within.sendData (h : Within M s t) {b : Nat} {q : Nat} {f : List Byte} (h_out : M.out := by assumption)
    (h_links : M.links := by assumption) : Within M s (State.sendData t b q f) := by
  unfold State.sendData
  repeat' (first
      | (simp (maxDischargeDepth := 40) only [Within.sendUnit, h, true_or, or_true, and_self, implies_true, h_out,
            h_links]; done)
      | dsimp only
      | split)

theorem Within.sendFrame (h : Within M s t) {b : Nat} {f : List Byte} (h_regs : M.regs := by assumption) (h_out :
    M.out := by assumption) (h_links : M.links := by assumption) : Within M s (State.sendFrame t b f) := by
  unfold State.sendFrame
  simp (maxDischargeDepth := 40) only [Within.upd, Within.sendData, Within.setLink, Within.wr, Within.ite, h, implies_true, h_regs, h_out,
            h_links, true_or, or_true, and_self]

theorem Within.flushTx (h : Within M s t) {b fuel : Nat} (h_regs : M.regs := by assumption) (h_out : M.out := by
    assumption) (h_links : M.links := by assumption) : Within M s (State.flushTx t b fuel) := by
  induction fuel generalizing t with
  | zero => exact h
  | succ n ih =>
    unfold State.flushTx
    dsimp only
    split
    · exact h
    · split
      · exact ih h.sendData.setLink.wr
      · exact h

theorem Within.resendUnits (h : Within M s t) {b : Nat} (h_out : M.out := by assumption) (h_links : M.links := by
    assumption) : Within M s (State.resendUnits t b) := by
  unfold State.resendUnits
  repeat' (first
      | (simp (maxDischargeDepth := 40) only [Within.sendData, Within.foldl, Within.refl, h, true_or, or_true,
            and_self, implies_true, h_out, h_links]; done)
      | dsimp only
      | split)

theorem Within.takeLack (h : Within M s t) {b lack : Nat} {nack : Bool} (h_regs : M.regs := by assumption) (h_out :
    M.out := by assumption) (h_links : M.links := by assumption) : Within M s (State.takeLack t b lack nack) := by
  unfold State.takeLack
  simp (maxDischargeDepth := 40) only [Within.setLink, Within.resendUnits, Within.flushTx, Within.ite, h,
    implies_true, h_regs, h_out, h_links]

theorem Within.returnCredits (h : Within M s t) {b : Nat} {n : Nat} (h_regs : M.regs := by assumption) (h_out : M.out
    := by assumption) (h_links : M.links := by assumption) : Within M s (State.returnCredits t b n) := by
  unfold State.returnCredits
  repeat' (first
      | (simp (maxDischargeDepth := 40) only [Within.setLink, Within.wr, Within.sendCtl, Within.ite, h, true_or,
            or_true, and_self, implies_true, h_regs, h_out, h_links]; done)
      | dsimp only
      | split)

theorem Within.freeCredits (h : Within M s t) {b : Nat} {n : Nat} (h_regs : M.regs := by assumption) (h_out : M.out :=
    by assumption) (h_links : M.links := by assumption) : Within M s (State.freeCredits t b n) := by
  unfold State.freeCredits
  repeat' (first
      | (simp (maxDischargeDepth := 40) only [Within.wr, Within.returnCredits, h, true_or, or_true, and_self,
            implies_true, h_regs, h_out, h_links]; done)
      | dsimp only
      | split)

theorem Within.payCredits (h : Within M s t) {b n : Nat} (h_regs : M.regs := by assumption) (h_out : M.out := by
    assumption) (h_links : M.links := by assumption) : Within M s (State.payCredits t b n) := by
  unfold State.payCredits
  simp (maxDischargeDepth := 40) only [Within.setLink, Within.sendCtl, Within.wr, Within.ite, h, implies_true, h_regs,
    h_out, h_links]

theorem Within.resumeCredits (h : Within M s t) (h_regs : M.regs := by assumption) (h_out : M.out := by assumption)
    (h_links : M.links := by assumption) : Within M s (State.resumeCredits t) := by
  unfold State.resumeCredits
  simp (maxDischargeDepth := 40) only [Within.payCredits, Within.ite, Within.refl, h, implies_true, Within.forN,
    h_regs, h_out, h_links]

theorem Within.startLink (h : Within M s t) {b : Nat} (h_regs : M.regs := by assumption) (h_out : M.out := by
    assumption) (h_links : M.links := by assumption) : Within M s (State.startLink t b) := by
  unfold State.startLink
  simp (maxDischargeDepth := 40) only [Within.setLink, Within.wr, Within.sendCtl, h, h_regs, h_out, h_links]

theorem Within.sessionEvent (h : Within M s t) {n action extra : Nat} (h_regs : M.regs := by assumption) (h_out :
    M.out := by assumption) (h_dealer : M.dealer := by assumption) (h_faults : M.faults := by assumption) : Within M s
    (State.sessionEvent t n action extra) := by
  unfold State.sessionEvent
  simp (maxDischargeDepth := 40) only [Within.event, h, h_regs, h_out, h_dealer, h_faults]

theorem Within.detach (h : Within M s t) {b : Nat} (h_regs : M.regs := by assumption) (h_out : M.out := by assumption)
    (h_dealer : M.dealer := by assumption) (h_faults : M.faults := by assumption) : Within M s (State.detach t b) :=
    by
  unfold State.detach
  simp (maxDischargeDepth := 40) only [Within.sessionEvent, Within.wr, Within.ite, Within.refl, h, implies_true,
    Within.forN, h_regs, h_out, h_dealer, h_faults]

theorem Within.bundleReset (h : Within M s t) {b : Nat} (h_regs : M.regs := by assumption) (h_out : M.out := by
    assumption) (h_dealer : M.dealer := by assumption) (h_faults : M.faults := by assumption) (h_links : M.links := by
    assumption) : Within M s (State.bundleReset t b) := by
  unfold State.bundleReset
  simp (maxDischargeDepth := 40) only [Within.detach, Within.startLink, Within.ite, h, implies_true, h_regs, h_out,
    h_dealer, h_faults, h_links]

theorem Within.nackUnit (h : Within M s t) {b : Nat} (h_regs : M.regs := by assumption) (h_out : M.out := by
    assumption) (h_links : M.links := by assumption) : Within M s (State.nackUnit t b) := by
  unfold State.nackUnit
  simp (maxDischargeDepth := 40) only [Within.setLink, Within.sendCtl, Within.bump, Within.ite, h, implies_true,
    h_regs, h_out, h_links]

theorem Within.ackUnit (h : Within M s t) {b n : Nat} (h_regs : M.regs := by assumption) (h_out : M.out := by
    assumption) (h_links : M.links := by assumption) : Within M s (State.ackUnit t b n) := by
  unfold State.ackUnit
  simp (maxDischargeDepth := 40) only [Within.setLink, Within.wr, Within.sendCtl, h, h_regs, h_out, h_links]

theorem Within.creditOverrun (h : Within M s t) {b : Nat} {n : Nat} (h_regs : M.regs := by assumption) (h_out : M.out
    := by assumption) (h_dealer : M.dealer := by assumption) (h_faults : M.faults := by assumption) (h_links : M.links
    := by assumption) : Within M s (State.creditOverrun t b n) := by
  unfold State.creditOverrun
  repeat' (first
      | (simp (maxDischargeDepth := 40) only [Within.ackUnit, Within.returnCredits, Within.bump, Within.flag,
            Within.setLink, Within.fault, Within.bundleReset, Within.ite, h, true_or, or_true, and_self, implies_true,
            h_regs, h_out, h_dealer, h_faults, h_links]; done)
      | dsimp only
      | split)

theorem Within.frameFailed (h : Within M s t) {b : Nat} {n : Nat} (h_regs : M.regs := by assumption) (h_out : M.out :=
    by assumption) (h_links : M.links := by assumption) : Within M s (State.frameFailed t b n) := by
  unfold State.frameFailed
  repeat' (first
      | (simp (maxDischargeDepth := 40) only [Within.setLink, Within.nackUnit, Within.ackUnit, Within.returnCredits,
            Within.bump, Within.flag, Within.upd, Within.ite, h, true_or, or_true, and_self, implies_true, h_regs,
            h_out, h_links]; done)
      | dsimp only
      | split)

theorem Within.unitDamaged (h : Within M s t) {b : Nat} {a_u : List Byte} (h_regs : M.regs := by assumption) (h_out :
    M.out := by assumption) (h_links : M.links := by assumption) : Within M s (State.unitDamaged t b a_u) := by
  unfold State.unitDamaged
  repeat' (first
      | (simp (maxDischargeDepth := 40) only [Within.setLink, Within.nackUnit, h, true_or, or_true, and_self,
            implies_true, h_regs, h_out, h_links]; done)
      | dsimp only
      | split)

theorem Within.scanSou (h : Within M s t) {b : Nat} (h_links : M.links := by assumption) : Within M s (State.scanSou t
    b) := by
  unfold State.scanSou
  repeat' (first
      | (simp (maxDischargeDepth := 40) only [Within.setLink, Within.ite, h, true_or, or_true, and_self, implies_true,
            h_links]; done)
      | dsimp only
      | split)

theorem Within.execDataUnit (h : Within M s t) {b : BundleId} {bytes : List Byte} (he : (Machine.execDataUnit b bytes
    t) = .next u) (h_regs : M.regs := by assumption) (h_out : M.out := by assumption) (h_dealer : M.dealer := by
    assumption) (h_faults : M.faults := by assumption) (h_links : M.links := by assumption) : Within M s u := by
  unfold Machine.execDataUnit at he
  simp only [Host.Outcome.next.injEq] at he
  subst he
  repeat' (first
      | (simp (maxDischargeDepth := 40) only [Within.scanSou, Within.unitDamaged, Within.takeLack,
            Within.creditOverrun, Within.frameFailed, Within.ackUnit, Within.wr, Within.setLink, Within.sendCtl,
            Within.ite, h, true_or, or_true, and_self, implies_true, h_regs, h_out, h_dealer, h_faults, h_links];
            done)
      | dsimp only
      | split)

theorem Within.execLinkctl (h : Within M s t) {b : BundleId} {bytes : List Byte} (he : (Machine.execLinkctl b bytes t)
    = .next u) (h_regs : M.regs := by assumption) (h_out : M.out := by assumption) (h_links : M.links := by
    assumption) : Within M s u := by
  unfold Machine.execLinkctl at he
  simp only [Host.Outcome.next.injEq] at he
  subst he
  repeat' (first
      | (simp (maxDischargeDepth := 40) only [Within.unitDamaged, Within.scanSou, Within.startLink, Within.wr, Within.flushTx, Within.takeLack,
            Within.ite, h, true_or, or_true, and_self, implies_true, h_regs, h_out, h_links]; done)
      | dsimp only
      | split)

theorem Within.execInitRepeat (h : Within M s t) {b : BundleId} (he : (Machine.execInitRepeat b t) = .next u) (h_out :
    M.out := by assumption) (h_links : M.links := by assumption) : Within M s u := by
  unfold Machine.execInitRepeat at he
  simp only [Host.Outcome.next.injEq] at he
  subst he
  repeat' (first
      | (simp (maxDischargeDepth := 40) only [Within.sendCtl, Within.ite, h, true_or, or_true, and_self, implies_true,
            h_out, h_links]; done)
      | dsimp only
      | split)

theorem Within.execUnitResendTimeout (h : Within M s t) {b : BundleId} (he : (Machine.execUnitResendTimeout b t) =
    .next u) (h_out : M.out := by assumption) (h_links : M.links := by assumption) : Within M s u := by
  unfold Machine.execUnitResendTimeout at he
  simp only [Host.Outcome.next.injEq] at he
  subst he
  repeat' (first
      | (simp (maxDischargeDepth := 40) only [Within.resendUnits, Within.ite, h, true_or, or_true, and_self,
            implies_true, h_out, h_links]; done)
      | dsimp only
      | split)

theorem Within.execVlkBctlReset (h : Within M s t) {b : BundleId} (he : (Machine.execVlkBctlReset b t) = .next u)
    (h_regs : M.regs := by assumption) (h_out : M.out := by assumption) (h_dealer : M.dealer := by assumption)
    (h_faults : M.faults := by assumption) (h_links : M.links := by assumption) : Within M s u := by
  unfold Machine.execVlkBctlReset at he
  simp only [Host.Outcome.next.injEq] at he
  subst he
  simp (maxDischargeDepth := 40) only [Within.bundleReset, h, h_regs, h_out, h_dealer, h_faults, h_links]

theorem Within.endLong (h : Within M s t) {o : LongOp} {status : Nat} {detail : optParam Nat 0} {params : optParam
    (List (Nat × Nat)) []} {dsn : optParam (Option Nat) Option.none} (h_regs : M.regs := by assumption) (h_out : M.out
    := by assumption) (h_dealer : M.dealer := by assumption) (h_faults : M.faults := by assumption) : Within M s
    (State.endLong t o status detail params dsn) := by
  unfold State.endLong
  simp (maxDischargeDepth := 40) only [Within.event, Within.sendPacket, Within.upd, h, true_or, or_true, and_self,
    h_regs, h_out, h_dealer, h_faults]

theorem Within.endLongOf (h : Within M s t) {q : LongKind → Bool} {status : Nat} (h_regs : M.regs := by assumption)
    (h_out : M.out := by assumption) (h_dealer : M.dealer := by assumption) (h_faults : M.faults := by assumption) :
    Within M s (State.endLongOf t q status) := by
  unfold State.endLongOf
  repeat' (first
      | (simp (maxDischargeDepth := 40) only [Within.endLong, h, h_regs, h_out, h_dealer, h_faults]; done)
      | split)

theorem Within.sendOffer (h : Within M s t) {l : Nat} (h_out : M.out := by assumption) : Within M s (State.sendOffer t
    l) := by
  unfold State.sendOffer
  simp (maxDischargeDepth := 40) only [Within.send, h, h_out]

theorem Within.sendStep (h : Within M s t) {l type reason errors : Nat} (h_out : M.out := by assumption) : Within M s
    (State.sendStep t l type reason errors) := by
  unfold State.sendStep
  simp (maxDischargeDepth := 40) only [Within.send, h, h_out]

theorem Within.setBlockLock (h : Within M s t) {l : Nat} {v : Nat} (h_regs : M.regs := by assumption) : Within M s
    (State.setBlockLock t l v) := by
  unfold State.setBlockLock
  repeat' (first
      | (simp (maxDischargeDepth := 40) only [Within.wr, h, true_or, or_true, and_self, implies_true, h_regs]; done)
      | dsimp only
      | split)

theorem Within.setLocks (h : Within M s t) {l : Nat} {v : Nat} (h_regs : M.regs := by assumption) : Within M s
    (State.setLocks t l v) := by
  unfold State.setLocks
  repeat' (first
      | (simp (maxDischargeDepth := 40) only [Within.setBlockLock, Within.wr, h, true_or, or_true, and_self,
            implies_true, h_regs]; done)
      | dsimp only
      | split)

theorem Within.presetTaps (h : Within M s t) {l : Nat} (h_regs : M.regs := by assumption) : Within M s
    (State.presetTaps t l) := by
  unfold State.presetTaps
  repeat' (first
      | (simp (maxDischargeDepth := 40) only [Within.setWord, h, true_or, or_true, and_self, implies_true, h_regs];
            done)
      | dsimp only
      | split)

theorem Within.trainedTaps (h : Within M s t) {l : Nat} {rate : Nat} (h_regs : M.regs := by assumption) : Within M s
    (State.trainedTaps t l rate) := by
  unfold State.trainedTaps
  repeat' (first
      | (simp (maxDischargeDepth := 40) only [Within.setWord, Within.drawn, Within.ite, h, true_or, or_true, and_self,
            implies_true, h_regs]; done)
      | dsimp only
      | split)

theorem Within.bundleState (h : Within M s t) {b : Nat} (h_regs : M.regs := by assumption) (h_out : M.out := by
    assumption) (h_dealer : M.dealer := by assumption) (h_faults : M.faults := by assumption) (h_lanes : M.lanes := by
    assumption) (h_links : M.links := by assumption) : Within M s (State.bundleState t b) := by
  unfold State.bundleState
  simp (maxDischargeDepth := 40) only [Within.dealUnder, Within.wr, Within.setBundle, Within.detach, Within.fault, Within.ite, h,
            implies_true, h_regs, h_out, h_dealer, h_faults, h_lanes, true_or, or_true, and_self, h_links]

theorem Within.homeState (h : Within M s t) {l : Nat} (h_regs : M.regs := by assumption) (h_out : M.out := by
    assumption) (h_dealer : M.dealer := by assumption) (h_faults : M.faults := by assumption) (h_lanes : M.lanes := by
    assumption) (h_links : M.links := by assumption) : Within M s (State.homeState t l) := by
  unfold State.homeState
  simp (maxDischargeDepth := 40) only [Within.bundleState, Within.ite, h, implies_true, h_regs, h_out, h_dealer,
    h_faults, h_lanes, h_links]

theorem Within.domainBack (h : Within M s t) {d : Nat} (h_power : M.power := by assumption) : Within M s (State.domainBack t d) := by
  unfold State.domainBack
  repeat' (first
      | (simp (maxDischargeDepth := 40) only [Within.upd, h, true_or, or_true, and_self, implies_true, h_power]; done)
      | dsimp only
      | split)

theorem Within.startLadder (h : Within M s t) {l : Nat} (h_regs : M.regs := by assumption) (h_out : M.out := by
    assumption) (h_dealer : M.dealer := by assumption) (h_faults : M.faults := by assumption) (h_lanes : M.lanes := by
    assumption) (h_links : M.links := by assumption) (h_power : M.power := by assumption) : Within M s (State.startLadder t l) := by
  unfold State.startLadder
  repeat' (first
      | (simp (maxDischargeDepth := 40) only [Within.domainBack, Within.setLane, Within.setLocks, Within.presetTaps, Within.wr, Within.sendOffer,
            Within.homeState, h, true_or, or_true, and_self, implies_true, h_regs, h_out, h_dealer, h_faults,
            h_lanes, h_links, h_power]; done)
      | dsimp only
      | split)

theorem Within.failAttempt (h : Within M s t) {l : Nat} (h_regs : M.regs := by assumption) (h_out : M.out := by
    assumption) (h_dealer : M.dealer := by assumption) (h_faults : M.faults := by assumption) (h_lanes : M.lanes := by
    assumption) (h_ledger : M.ledger := by assumption) (h_links : M.links := by assumption) : Within M s (State.failAttempt t l) := by
  unfold State.failAttempt
  simp (maxDischargeDepth := 40) only [Within.refl, Within.whenS, Within.fault, Within.flag, Within.wr, Within.setLocks, Within.setLane,
            Within.homeState, Within.newItem, Within.repair, Within.endLongOf, Within.ite, h, implies_true,
            h_regs, h_out, h_dealer, h_faults, h_lanes, h_ledger, h_links, true_or, or_true, and_self]

theorem Within.agree (h : Within M s t) {l r b p : Nat} (h_regs : M.regs := by assumption) (h_out : M.out := by
    assumption) (h_lanes : M.lanes := by assumption) : Within M s (State.agree t l r b p) := by
  unfold State.agree
  simp (maxDischargeDepth := 40) only [Within.send, Within.setLane, Within.wr, h, h_regs, h_out, h_lanes]

theorem Within.answerSpare (h : Within M s t) {l : Nat} (h_regs : M.regs := by assumption) (h_out : M.out := by
    assumption) (h_lanes : M.lanes := by assumption) : Within M s (State.answerSpare t l) := by
  unfold State.answerSpare
  simp (maxDischargeDepth := 40) only [Within.agree, Within.ite, h, implies_true, h_regs, h_out, h_lanes]

theorem Within.answerSpares (h : Within M s t) (h_regs : M.regs := by assumption) (h_out : M.out := by assumption)
    (h_lanes : M.lanes := by assumption) : Within M s (State.answerSpares t) := by
  unfold State.answerSpares
  simp (maxDischargeDepth := 40) only [Within.answerSpare, Within.ite, Within.refl, h, implies_true, Within.forN,
    h_regs, h_out, h_lanes]

theorem Within.fixRate (h : Within M s t) {b : Nat} (h_regs : M.regs := by assumption) (h_out : M.out := by
    assumption) (h_lanes : M.lanes := by assumption) : Within M s (State.fixRate t b) := by
  unfold State.fixRate
  simp (maxDischargeDepth := 40) only [Within.setBundle, Within.agree, Within.answerSpares, Within.ite, Within.refl,
    h, implies_true, Within.forN, h_regs, h_out, h_lanes]

theorem Within.offer (h : Within M s t) {l : Nat} {m : List Byte} (h_regs : M.regs := by assumption) (h_out : M.out :=
    by assumption) (h_dealer : M.dealer := by assumption) (h_faults : M.faults := by assumption) (h_lanes : M.lanes :=
    by assumption) (h_ledger : M.ledger := by assumption) (h_links : M.links := by assumption) : Within M s (State.offer t l m) := by
  unfold State.offer
  repeat' (first
      | (simp (maxDischargeDepth := 40) only [Within.wr, Within.setLane, Within.setBlockLock, Within.answerSpare,
            Within.setBundle, Within.agree, Within.send, Within.failAttempt, Within.fixRate, Within.upd, Within.ite,
            h, true_or, or_true, and_self, implies_true, h_regs, h_out, h_dealer, h_faults, h_lanes, h_ledger, h_links]; done)
      | dsimp only
      | split)

theorem Within.execOffer (h : Within M s t) {l : Lane} {msg : List Byte} (he : (Machine.execOffer l msg t) = .next u)
    (h_regs : M.regs := by assumption) (h_out : M.out := by assumption) (h_dealer : M.dealer := by assumption)
    (h_faults : M.faults := by assumption) (h_lanes : M.lanes := by assumption) (h_ledger : M.ledger := by assumption) (h_links : M.links := by assumption) : Within M s u := by
  unfold Machine.execOffer at he
  simp only [Host.Outcome.next.injEq] at he
  subst he
  simp (maxDischargeDepth := 40) only [Within.offer, h, h_regs, h_out, h_dealer, h_faults, h_lanes, h_ledger, h_links]

theorem Within.execOfferRepeat (h : Within M s t) (he : (Machine.execOfferRepeat t) = .next u) (h_out : M.out := by
    assumption) : Within M s u := by
  unfold Machine.execOfferRepeat at he
  simp only [Host.Outcome.next.injEq] at he
  subst he
  simp (maxDischargeDepth := 40) only [Within.sendOffer, Within.ite, Within.refl, h, implies_true, Within.forN, h_out]

theorem Within.execOfferGatherTimeout (h : Within M s t) {b : BundleId} (he : (Machine.execOfferGatherTimeout b t) =
    .next u) (h_regs : M.regs := by assumption) (h_out : M.out := by assumption) (h_lanes : M.lanes := by assumption)
    : Within M s u := by
  unfold Machine.execOfferGatherTimeout at he
  simp only [Host.Outcome.next.injEq] at he
  subst he
  simp (maxDischargeDepth := 40) only [Within.fixRate, Within.ite, h, implies_true, h_regs, h_out, h_lanes]

theorem Within.climb (h : Within M s t) {l : Nat} (h_regs : M.regs := by assumption) (h_lanes : M.lanes := by
    assumption) : Within M s (State.climb t l) := by
  unfold State.climb
  repeat' (first
      | (simp (maxDischargeDepth := 40) only [Within.setLane, Within.wr, Within.setBlockLock, Within.upd, Within.ite,
            h, true_or, or_true, and_self, implies_true, h_regs, h_lanes]; done)
      | dsimp only
      | split)

theorem Within.execLadderCheckDone (h : Within M s t) {l : Lane} {errors : Word} {bits : Nat} (he :
    (Machine.execLadderCheckDone l errors bits t) = .next u) (h_regs : M.regs := by assumption) (h_out : M.out := by
    assumption) (h_dealer : M.dealer := by assumption) (h_faults : M.faults := by assumption) (h_lanes : M.lanes := by
    assumption) (h_ledger : M.ledger := by assumption) (h_links : M.links := by assumption) : Within M s u := by
  unfold Machine.execLadderCheckDone at he
  simp only [Host.Outcome.next.injEq] at he
  subst he
  repeat' (first
      | (simp (maxDischargeDepth := 40) only [Within.trainedTaps, Within.setBlockLock, Within.sendStep, Within.wr, Within.setLane, Within.climb,
            Within.failAttempt, Within.ite, h, true_or, or_true, and_self, implies_true, h_regs, h_out,
            h_dealer, h_faults, h_lanes, h_ledger, h_links]; done)
      | dsimp only
      | split)

theorem Within.execStepPass (h : Within M s t) {l : Lane} {msg : List Byte} (he : (Machine.execStepPass l msg t) =
    .next u) (h_regs : M.regs := by assumption) (h_lanes : M.lanes := by assumption) : Within M s u := by
  unfold Machine.execStepPass at he
  simp only [Host.Outcome.next.injEq] at he
  subst he
  simp (maxDischargeDepth := 40) only [Within.climb, Within.setLane, Within.ite, h, implies_true, h_regs, h_lanes]

theorem Within.execStepFail (h : Within M s t) {l : Lane} {msg : List Byte} (he : (Machine.execStepFail l msg t) =
    .next u) (h_regs : M.regs := by assumption) (h_out : M.out := by assumption) (h_dealer : M.dealer := by
    assumption) (h_faults : M.faults := by assumption) (h_lanes : M.lanes := by assumption) (h_ledger : M.ledger := by
    assumption) (h_links : M.links := by assumption) : Within M s u := by
  unfold Machine.execStepFail at he
  simp only [Host.Outcome.next.injEq] at he
  subst he
  simp (maxDischargeDepth := 40) only [Within.failAttempt, Within.sendStep, Within.ite, h, implies_true, h_regs,
    h_out, h_dealer, h_faults, h_lanes, h_ledger, h_links]

theorem Within.execLadderStepDeadline (h : Within M s t) {l : Lane} (he : (Machine.execLadderStepDeadline l t) = .next
    u) (h_regs : M.regs := by assumption) (h_out : M.out := by assumption) (h_dealer : M.dealer := by assumption)
    (h_faults : M.faults := by assumption) (h_lanes : M.lanes := by assumption) (h_ledger : M.ledger := by assumption) (h_links : M.links := by assumption) : Within M s u := by
  unfold Machine.execLadderStepDeadline at he
  simp only [Host.Outcome.next.injEq] at he
  subst he
  simp (maxDischargeDepth := 40) only [Within.failAttempt, Within.sendStep, Within.ite, h, implies_true, h_regs,
    h_out, h_dealer, h_faults, h_lanes, h_ledger, h_links]

theorem Within.execRetryWaitExpiry (h : Within M s t) {l : Lane} (he : (Machine.execRetryWaitExpiry l t) = .next u)
    (h_regs : M.regs := by assumption) (h_out : M.out := by assumption) (h_dealer : M.dealer := by assumption)
    (h_faults : M.faults := by assumption) (h_lanes : M.lanes := by assumption) (h_links : M.links := by assumption) (h_power : M.power := by assumption) : Within M s u := by
  unfold Machine.execRetryWaitExpiry at he
  simp only [Host.Outcome.next.injEq] at he
  subst he
  simp (maxDischargeDepth := 40) only [Within.startLadder, Within.ite, h, implies_true, h_regs, h_out, h_dealer,
    h_faults, h_lanes, h_links, h_power]

theorem Within.sendChange (h : Within M s t) {b : Nat} (h_out : M.out := by assumption) : Within M s (State.sendChange
    t b) := by
  unfold State.sendChange
  repeat' (first
      | (simp (maxDischargeDepth := 40) only [Within.send, Within.ite, Within.refl, h, implies_true, Within.forN,
            h_out]; done)
      | split)

theorem Within.announce (h : Within M s t) {b : Nat} {map : List Nat} {reason : Nat} {planned : Bool} (h_out : M.out
    := by assumption) (h_lanes : M.lanes := by assumption) : Within M s (State.announce t b map reason planned) := by
  unfold State.announce
  simp (maxDischargeDepth := 40) only [Within.sendChange, Within.setBundle, h, h_out, h_lanes]

theorem Within.dropPositions (h : Within M s t) {b : Nat} {ps : List Nat} {ls : List Nat} {reason : Nat} {planned :
    Bool} (h_regs : M.regs := by assumption) (h_out : M.out := by assumption) (h_lanes : M.lanes := by assumption) :
    Within M s (State.dropPositions t b ps ls reason planned) := by
  unfold State.dropPositions
  repeat' (first
      | (simp (maxDischargeDepth := 40) only [Within.refl, Within.forN, Within.setLane, Within.wr, Within.setBundle, Within.announce, Within.ite,
            h, true_or, or_true, and_self, implies_true, h_regs, h_out, h_lanes]; done)
      | dsimp only
      | split)

theorem Within.enterRaw (h : Within M s t) {l : Nat} (h_regs : M.regs := by assumption) : Within M s (State.enterRaw t
    l) := by
  unfold State.enterRaw
  repeat' (first
      | (simp (maxDischargeDepth := 40) only [Within.wr, Within.wr64, Within.drawn, h, true_or, or_true, and_self, implies_true, h_regs]; done)
      | dsimp only
      | split)

theorem Within.settle (h : Within M s t) {l : Nat} (h_regs : M.regs := by assumption) (h_lanes : M.lanes := by
    assumption) : Within M s (State.settle t l) := by
  unfold State.settle
  repeat' (first
      | (simp (maxDischargeDepth := 40) only [Within.ite, Within.upd, Within.put, Within.setLane, Within.wr64, h, true_or, or_true, and_self,
            implies_true, h_regs, h_lanes]; done)
      | dsimp only
      | split)

theorem Within.checkPats (h : Within M s t) {l : Nat} (h_regs : M.regs := by assumption) : Within M s (State.checkPats t l) := by
  unfold State.checkPats
  repeat' (first
      | (simp (maxDischargeDepth := 40) only [Within.ite, Within.wr, Within.flag, h, true_or, or_true, and_self, implies_true, h_regs]; done)
      | dsimp only
      | split)

theorem Within.testRate (h : Within M s t) {l : Nat} {r : Nat} (h_regs : M.regs := by assumption) (h_lanes : M.lanes := by assumption) : Within M s (State.testRate t l r) := by
  unfold State.testRate
  repeat' (first
      | (simp (maxDischargeDepth := 40) only [Within.ite, Within.wr, Within.settle, Within.setLane, Within.checkPats, h, true_or, or_true,
            and_self, implies_true, h_regs, h_lanes]; done)
      | dsimp only
      | split)

theorem Within.enterTest (h : Within M s t) {l : Nat} {ret : Bool} (h_regs : M.regs := by assumption) (h_lanes : M.lanes := by assumption) : Within M s
    (State.enterTest t l ret) := by
  unfold State.enterTest
  repeat' (first
      | (simp (maxDischargeDepth := 40) only [Within.ite, Within.testRate, Within.enterRaw, Within.wr, Within.put, h, true_or, or_true, and_self,
            implies_true, h_regs, h_lanes]; done)
      | dsimp only
      | split)

theorem Within.laneGone (h : Within M s t) {l : Nat} {lost : Bool} (h_regs : M.regs := by assumption) (h_out : M.out := by assumption) (h_dealer : M.dealer := by assumption) (h_faults : M.faults := by assumption) (h_lanes : M.lanes := by assumption) : Within M s (State.laneGone t l lost) := by
  unfold State.laneGone
  repeat' (first
      | (simp (maxDischargeDepth := 40) only [Within.refl, Within.ite, Within.upd, Within.wr, Within.whenS, Within.setPos, Within.setLocks,
            Within.setLane, Within.flag, Within.fault, Within.enterTest, Within.endLongOf, h, true_or, or_true,
            and_self, implies_true, h_regs, h_out, h_dealer, h_faults, h_lanes]; done)
      | dsimp only
      | split)

theorem Within.loseLanes (h : Within M s t) {ls : List Nat} {reason : Nat} (h_regs : M.regs := by assumption) (h_out :
    M.out := by assumption) (h_dealer : M.dealer := by assumption) (h_faults : M.faults := by assumption) (h_lanes :
    M.lanes := by assumption) (h_links : M.links := by assumption) : Within M s (State.loseLanes t ls reason) := by
  unfold State.loseLanes
  repeat' (first
      | (simp (maxDischargeDepth := 40) only [Within.laneGone, Within.dropPositions, Within.bundleState, Within.ite, Within.foldl, Within.refl,
            Within.forN, h, true_or, or_true, and_self, implies_true, h_regs, h_out, h_dealer, h_faults, h_lanes, h_links]; done)
      | dsimp only
      | split)

theorem Within.loseLane (h : Within M s t) {l : Nat} {reason : Nat} (h_regs : M.regs := by assumption) (h_out : M.out
    := by assumption) (h_dealer : M.dealer := by assumption) (h_faults : M.faults := by assumption) (h_lanes : M.lanes
    := by assumption) (h_links : M.links := by assumption) : Within M s (State.loseLane t l reason) := by
  unfold State.loseLane
  repeat' (first
      | (simp (maxDischargeDepth := 40) only [Within.loseLanes, h, true_or, or_true, and_self, implies_true, h_regs,
            h_out, h_dealer, h_faults, h_lanes, h_links]; done)
      | dsimp only
      | split)

theorem Within.partFault (h : Within M s t) (h_regs : M.regs := by assumption) : Within M s (State.partFault t) := by
  unfold State.partFault
  simp (maxDischargeDepth := 40) only [Within.flag, Within.refl, h, implies_true, Within.whenS, h_regs]

theorem Within.lanesFail (h : Within M s t) {ls : List Nat} {reason : Nat} (h_regs : M.regs := by assumption) (h_out :
    M.out := by assumption) (h_dealer : M.dealer := by assumption) (h_faults : M.faults := by assumption) (h_lanes :
    M.lanes := by assumption) (h_links : M.links := by assumption) : Within M s (State.lanesFail t ls reason) := by
  unfold State.lanesFail
  simp (maxDischargeDepth := 40) only [Within.partFault, Within.flag, Within.loseLanes, Within.refl, h, implies_true,
    Within.whenS, h_regs, h_out, h_dealer, h_faults, h_lanes, h_links]

theorem Within.execLaneLossOfLock (h : Within M s t) {l : Lane} (he : (Machine.execLaneLossOfLock l t) = .next u)
    (h_regs : M.regs := by assumption) (h_out : M.out := by assumption) (h_dealer : M.dealer := by assumption)
    (h_faults : M.faults := by assumption) (h_lanes : M.lanes := by assumption) (h_links : M.links := by assumption) : Within M s u := by
  unfold Machine.execLaneLossOfLock at he
  simp only [Host.Outcome.next.injEq] at he
  subst he
  simp (maxDischargeDepth := 40) only [Within.lanesFail, h, h_regs, h_out, h_dealer, h_faults, h_lanes, h_links]

theorem Within.execUncorrectableCodeword (h : Within M s t) {l : Lane} (he : (Machine.execUncorrectableCodeword l t) =
    .next u) (h_regs : M.regs := by assumption) (h_out : M.out := by assumption) (h_dealer : M.dealer := by
    assumption) (h_faults : M.faults := by assumption) (h_lanes : M.lanes := by assumption) (h_links : M.links := by assumption) : Within M s u := by
  unfold Machine.execUncorrectableCodeword at he
  simp only [Host.Outcome.next.injEq] at he
  subst he
  simp (maxDischargeDepth := 40) only [Within.flag, Within.bump64, Within.setLane, Within.lanesFail, Within.ite, h,
    implies_true, h_regs, h_out, h_dealer, h_faults, h_lanes, h_links]

theorem Within.execLaneDown (h : Within M s t) {l : Lane} {msg : List Byte} (he : (Machine.execLaneDown l msg t) =
    .next u) (h_regs : M.regs := by assumption) (h_out : M.out := by assumption) (h_dealer : M.dealer := by
    assumption) (h_faults : M.faults := by assumption) (h_lanes : M.lanes := by assumption) (h_links : M.links := by assumption) : Within M s u := by
  unfold Machine.execLaneDown at he
  simp only [Host.Outcome.next.injEq] at he
  subst he
  repeat' (first
      | (simp (maxDischargeDepth := 40) only [Within.lanesFail, Within.ite, h, true_or, or_true, and_self,
            implies_true, h_regs, h_out, h_dealer, h_faults, h_lanes, h_links]; done)
      | dsimp only
      | split)

theorem Within.execLaneDownRepeat (h : Within M s t) {b : BundleId} (he : (Machine.execLaneDownRepeat b t) = .next u)
    (h_out : M.out := by assumption) : Within M s u := by
  unfold Machine.execLaneDownRepeat at he
  simp only [Host.Outcome.next.injEq] at he
  subst he
  repeat' (first
      | (simp (maxDischargeDepth := 40) only [Within.sendChange, Within.ite, h, implies_true, h_out]; done)
      | split)

theorem Within.execEpochTimeout (h : Within M s t) {b : BundleId} (he : (Machine.execEpochTimeout b t) = .next u)
    (h_regs : M.regs := by assumption) (h_out : M.out := by assumption) (h_dealer : M.dealer := by assumption)
    (h_faults : M.faults := by assumption) (h_links : M.links := by assumption) : Within M s u := by
  unfold Machine.execEpochTimeout at he
  simp only [Host.Outcome.next.injEq] at he
  subst he
  repeat' (first
      | (simp (maxDischargeDepth := 40) only [Within.bundleReset, Within.fault, Within.ite, h, implies_true, h_regs,
            h_out, h_dealer, h_faults, h_links]; done)
      | split)

theorem Within.setLive (h : Within M s t) {source cls kind : Nat} {b : Bool} (h_faults : M.faults := by assumption) :
    Within M s (State.setLive t source cls kind b) := by
  unfold State.setLive
  dsimp only
  repeat' (first
      | (simp (maxDischargeDepth := 40) only [Within.upd, Within.setCapture, Within.ite, h, implies_true, h_faults, true_or, or_true, and_self]; done)
      | split)

theorem Within.leaveService (h : Within M s t) {l : Nat} (h_regs : M.regs := by assumption) (h_out : M.out := by
    assumption) (h_dealer : M.dealer := by assumption) (h_faults : M.faults := by assumption) (h_lanes : M.lanes := by
    assumption) : Within M s (State.leaveService t l) := by
  unfold State.leaveService
  repeat' (first
      | (simp (maxDischargeDepth := 40) only [Within.setLive, Within.wr, Within.setLane, Within.setLocks, Within.enterTest, Within.endLongOf,
            Within.upd, Within.ite, h, true_or, or_true, and_self, implies_true, h_regs, h_out, h_dealer,
            h_faults, h_lanes]; done)
      | dsimp only
      | split)

theorem Within.atHome (h : Within M s t) {l : Nat} (h_regs : M.regs := by assumption) (h_out : M.out := by assumption)
    (h_dealer : M.dealer := by assumption) (h_faults : M.faults := by assumption) (h_lanes : M.lanes := by assumption)
    : Within M s (State.atHome t l) := by
  unfold State.atHome
  repeat' (first
      | (simp (maxDischargeDepth := 40) only [Within.setLane, Within.endLongOf, Within.ite, h, true_or, or_true,
            and_self, implies_true, h_regs, h_out, h_dealer, h_faults, h_lanes]; done)
      | dsimp only
      | split)

theorem Within.enterService (h : Within M s t) {l : Nat} {b : Nat} {p : Nat} {subst : Bool} (h_regs : M.regs := by
    assumption) (h_out : M.out := by assumption) (h_dealer : M.dealer := by assumption) (h_faults : M.faults := by
    assumption) (h_lanes : M.lanes := by assumption) : Within M s (State.enterService t l b p subst) := by
  unfold State.enterService
  repeat' (first
      | (simp (maxDischargeDepth := 40) only [Within.wr, Within.flag, Within.atHome, Within.ite, h, true_or, or_true,
            and_self, implies_true, h_regs, h_out, h_dealer, h_faults, h_lanes]; done)
      | dsimp only
      | split)

theorem Within.bringUp (h : Within M s t) {b : Nat} {p : Nat} {l : Nat} (h_regs : M.regs := by assumption) (h_out :
    M.out := by assumption) (h_dealer : M.dealer := by assumption) (h_faults : M.faults := by assumption) (h_lanes :
    M.lanes := by assumption) (h_links : M.links := by assumption) : Within M s (State.bringUp t b p l) := by
  unfold State.bringUp
  repeat' (first
      | (simp (maxDischargeDepth := 40) only [Within.setLive, Within.wr, Within.setBundle, Within.setPos, Within.enterService, Within.bundleState,
            Within.sendMarkers, Within.startLink, Within.upd, h, true_or, or_true, and_self, implies_true,
            h_regs, h_out, h_dealer, h_faults, h_lanes, h_links]; done)
      | dsimp only
      | split)

theorem Within.standSpare (h : Within M s t) {l : Nat} (h_regs : M.regs := by assumption) (h_out : M.out := by
    assumption) (h_dealer : M.dealer := by assumption) (h_faults : M.faults := by assumption) (h_lanes : M.lanes := by
    assumption) (h_links : M.links := by assumption) : Within M s (State.standSpare t l) := by
  unfold State.standSpare
  repeat' (first
      | (simp (maxDischargeDepth := 40) only [Within.bringUp, Within.setLane, Within.ite, h, true_or, or_true,
            and_self, implies_true, h_regs, h_out, h_dealer, h_faults, h_lanes, h_links]; done)
      | dsimp only
      | split)

theorem Within.takeHome (h : Within M s t) {l : Nat} (h_regs : M.regs := by assumption) (h_out : M.out := by
    assumption) (h_dealer : M.dealer := by assumption) (h_faults : M.faults := by assumption) (h_lanes : M.lanes := by
    assumption) (h_links : M.links := by assumption) (h_power : M.power := by assumption) : Within M s (State.takeHome t l) := by
  unfold State.takeHome
  repeat' (first
      | (simp (maxDischargeDepth := 40) only [Within.standSpare, Within.atHome, Within.startLadder, Within.announce, Within.bringUp, Within.ite,
            h, true_or, or_true, and_self, implies_true, h_regs, h_out, h_dealer, h_faults, h_lanes, h_links, h_power]; done)
      | dsimp only
      | split)

theorem Within.openEpoch (h : Within M s t) {b : Nat} {c : EpochChange} (h_regs : M.regs := by assumption) (h_out :
    M.out := by assumption) (h_dealer : M.dealer := by assumption) (h_faults : M.faults := by assumption) (h_lanes :
    M.lanes := by assumption) (h_links : M.links := by assumption) (h_power : M.power := by assumption) : Within M s (State.openEpoch t b c) := by
  unfold State.openEpoch
  repeat' (first
      | (simp (maxDischargeDepth := 40) only [Within.setBundle, Within.leaveService, Within.setPos, Within.enterService, Within.wr,
            Within.bundleState, Within.sendMarkers, Within.scanSou, Within.startLink, Within.takeHome,
            Within.ite, Within.foldl, Within.refl, Within.forN, h, true_or, or_true, and_self, implies_true,
            h_regs, h_out, h_dealer, h_faults, h_lanes, h_links, h_power]; done)
      | dsimp only
      | split)

theorem Within.followEpoch (h : Within M s t) {b : Nat} {e : Nat} (h_regs : M.regs := by assumption) (h_links : M.links := by assumption) : Within M s (State.followEpoch t b e) := by
  unfold State.followEpoch
  repeat' (first
      | (simp (maxDischargeDepth := 40) only [Within.ite, Within.wr, Within.scanSou, h, true_or, or_true, and_self, implies_true, h_regs, h_links]; done)
      | dsimp only
      | split)

theorem Within.execEpochMarker (h : Within M s t) {b : BundleId} {epoch : Byte} (he : (Machine.execEpochMarker b epoch
    t) = .next u) (h_regs : M.regs := by assumption) (h_out : M.out := by assumption) (h_dealer : M.dealer := by
    assumption) (h_faults : M.faults := by assumption) (h_lanes : M.lanes := by assumption) (h_links : M.links := by
    assumption) (h_power : M.power := by assumption) : Within M s u := by
  unfold Machine.execEpochMarker at he
  simp only [Host.Outcome.next.injEq] at he
  subst he
  repeat' (first
      | (simp (maxDischargeDepth := 40) only [Within.followEpoch, Within.openEpoch, Within.wr, Within.ite, h, implies_true, h_regs, h_out,
            h_dealer, h_faults, h_lanes, h_links, true_or, or_true, and_self, h_power]; done)
      | split)

theorem Within.laneBack (h : Within M s t) {l : Nat} (h_regs : M.regs := by assumption) (h_out : M.out := by assumption) (h_dealer : M.dealer := by assumption) (h_faults : M.faults := by assumption) (h_lanes : M.lanes := by assumption) (h_ledger : M.ledger := by assumption) : Within M s (State.laneBack t l) := by
  unfold State.laneBack
  repeat' (first
      | (simp (maxDischargeDepth := 40) only [Within.ite, Within.upd, Within.setLive, Within.setLane, Within.repair, h, true_or, or_true,
            and_self, implies_true, h_regs, h_out, h_dealer, h_faults, h_lanes, h_ledger]; done)
      | dsimp only
      | split)

theorem Within.aligned (h : Within M s t) {l : Nat} (h_regs : M.regs := by assumption) (h_out : M.out := by
    assumption) (h_dealer : M.dealer := by assumption) (h_faults : M.faults := by assumption) (h_lanes : M.lanes := by
    assumption) (h_links : M.links := by assumption) (h_ledger : M.ledger := by assumption) (h_power : M.power := by assumption) : Within M s (State.aligned t l) := by
  unfold State.aligned
  repeat' (first
      | (simp (maxDischargeDepth := 40) only [Within.laneBack, Within.setLocks, Within.wr, Within.takeHome, h, true_or, or_true, and_self,
            implies_true, h_regs, h_out, h_dealer, h_faults, h_lanes, h_links, h_ledger, h_power]; done)
      | dsimp only
      | split)

theorem Within.execAlignDone (h : Within M s t) {l : Lane} {skewNs : Nat} (he : (Machine.execAlignDone l skewNs t) =
    .next u) (h_regs : M.regs := by assumption) (h_out : M.out := by assumption) (h_dealer : M.dealer := by
    assumption) (h_faults : M.faults := by assumption) (h_lanes : M.lanes := by assumption) (h_links : M.links := by
    assumption) (h_ledger : M.ledger := by assumption) (h_power : M.power := by assumption) : Within M s u := by
  unfold Machine.execAlignDone at he
  simp only [Host.Outcome.next.injEq] at he
  subst he
  simp (maxDischargeDepth := 40) only [Within.failAttempt, Within.sendStep, Within.homeState, Within.aligned,
    Within.ite, h, implies_true, h_regs, h_out, h_dealer, h_faults, h_lanes, h_links, h_ledger, h_power]

theorem Within.degradeSwap (h : Within M s t) {l : Nat} (h_out : M.out := by assumption) (h_lanes : M.lanes := by
    assumption) : Within M s (State.degradeSwap t l) := by
  unfold State.degradeSwap
  repeat' (first
      | (simp (maxDischargeDepth := 40) only [Within.setLane, Within.announce, Within.ite, h, true_or, or_true,
            and_self, implies_true, h_out, h_lanes]; done)
      | dsimp only
      | split)

theorem Within.execBerMeasurement (h : Within M s t) {l : Lane} {meas : BerMeas} (he : (Machine.execBerMeasurement l
    meas t) = .next u) (h_regs : M.regs := by assumption) (h_out : M.out := by assumption) (h_faults : M.faults := by
    assumption) (h_lanes : M.lanes := by assumption) : Within M s u := by
  unfold Machine.execBerMeasurement at he
  simp only [Host.Outcome.next.injEq] at he
  subst he
  simp (maxDischargeDepth := 40) only [Within.setLive, Within.wr, Within.bump64, Within.setLane, Within.fault, Within.flag,
            Within.degradeSwap, Within.ite, h, implies_true, h_regs, h_out, h_faults, h_lanes, true_or, or_true,
            and_self]

theorem Within.showLine (h : Within M s t) {l : Nat} {was : LineOut} (h_out : M.out := by assumption) : Within M s
    (State.showLine t l was) := by
  unfold State.showLine
  repeat' (first
      | (simp (maxDischargeDepth := 40) only [Within.send, Within.ite, h, true_or, or_true, and_self, implies_true,
            h_out]; done)
      | dsimp only
      | split)

theorem Within.inject (h : Within M s t) {l : Nat} {n : Nat} (h_regs : M.regs := by assumption) (h_lanes : M.lanes :=
    by assumption) : Within M s (State.inject t l n) := by
  unfold State.inject
  repeat' (first
      | (simp (maxDischargeDepth := 40) only [Within.settle, Within.setLane, Within.bump64, Within.wr, Within.upd, Within.ite, h, true_or,
            or_true, and_self, implies_true, h_regs, h_lanes]; done)
      | dsimp only
      | split)

theorem Within.startGen (h : Within M s t) {l : Nat} (h_lanes : M.lanes := by assumption) : Within M s (State.startGen
    t l) := by
  unfold State.startGen
  repeat' (first
      | (simp (maxDischargeDepth := 40) only [Within.setLane, Within.drawn, h, true_or, or_true, and_self, implies_true, h_lanes]; done)
      | dsimp only
      | split)

theorem Within.latchRaw (h : Within M s t) {l : Nat} (h_regs : M.regs := by assumption) : Within M s (State.latchRaw t l) := by
  unfold State.latchRaw
  repeat' (first
      | (simp (maxDischargeDepth := 40) only [Within.ite, Within.wr64, h, true_or, or_true, and_self, implies_true, h_regs]; done)
      | dsimp only
      | split)

theorem Within.stopTest (h : Within M s t) {l : Nat} (h_regs : M.regs := by assumption) (h_lanes : M.lanes := by
    assumption) : Within M s (State.stopTest t l) := by
  unfold State.stopTest
  repeat' (first
      | (simp (maxDischargeDepth := 40) only [Within.latchRaw, Within.settle, Within.wr, h, true_or, or_true, and_self, implies_true, h_regs,
            h_lanes]; done)
      | dsimp only
      | split)

theorem Within.laneOff (h : Within M s t) {l st : Nat} (h_regs : M.regs := by assumption) (h_out : M.out := by
    assumption) (h_dealer : M.dealer := by assumption) (h_faults : M.faults := by assumption) (h_lanes : M.lanes := by
    assumption) (h_links : M.links := by assumption) : Within M s (State.laneOff t l st) := by
  unfold State.laneOff
  simp (maxDischargeDepth := 40) only [Within.homeState, Within.wr, Within.setLocks, h, h_regs, h_out, h_dealer,
    h_faults, h_lanes, h_links]

theorem Within.climbOrOff (h : Within M s t) {l : Nat} (h_regs : M.regs := by assumption) (h_out : M.out := by
    assumption) (h_dealer : M.dealer := by assumption) (h_faults : M.faults := by assumption) (h_lanes : M.lanes := by
    assumption) (h_links : M.links := by assumption) (h_power : M.power := by assumption) : Within M s (State.climbOrOff t l) := by
  unfold State.climbOrOff
  repeat' (first
      | (simp (maxDischargeDepth := 40) only [Within.laneOff, Within.startLadder, Within.ite, h, true_or, or_true,
            and_self, implies_true, h_regs, h_out, h_dealer, h_faults, h_lanes, h_links, h_power]; done)
      | dsimp only
      | split)

theorem Within.laneMode (h : Within M s t) {l : Nat} {m : Nat} (h_regs : M.regs := by assumption) (h_out : M.out := by
    assumption) (h_dealer : M.dealer := by assumption) (h_faults : M.faults := by assumption) (h_lanes : M.lanes := by
    assumption) (h_links : M.links := by assumption) (h_power : M.power := by assumption) : Within M s (State.laneMode t l m) := by
  unfold State.laneMode
  repeat' (first
      | (simp (maxDischargeDepth := 40) only [Within.wr, Within.stopTest, Within.laneOff, Within.setLane, Within.climbOrOff, Within.flag,
            Within.enterTest, Within.homeState, Within.ite, h, true_or, or_true, and_self, implies_true, h_regs,
            h_out, h_dealer, h_faults, h_lanes, h_links, h_power]; done)
      | dsimp only
      | split)

theorem Within.execVlkCtlMode (h : Within M s t) {l : Lane} {mode : BitVec 2} (he : (Machine.execVlkCtlMode l mode t)
    = .next u) (h_regs : M.regs := by assumption) (h_out : M.out := by assumption) (h_dealer : M.dealer := by
    assumption) (h_faults : M.faults := by assumption) (h_lanes : M.lanes := by assumption) (h_links : M.links := by assumption) (h_power : M.power := by assumption) : Within M s u := by
  unfold Machine.execVlkCtlMode at he
  simp only [Host.Outcome.next.injEq] at he
  subst he
  repeat' (first
      | (simp (maxDischargeDepth := 40) only [Within.laneMode, Within.showLine, h, true_or, or_true, and_self,
            implies_true, h_regs, h_out, h_dealer, h_faults, h_lanes, h_links, h_power]; done)
      | dsimp only
      | split)

theorem Within.execBitslip (h : Within M s t) {l : Lane} (he : (Machine.execBitslip l t) = .next u) (h_regs : M.regs
    := by assumption) : Within M s u := by
  unfold Machine.execBitslip at he
  simp only [Host.Outcome.next.injEq] at he
  subst he
  simp (maxDischargeDepth := 40) only [Within.flag, Within.wr, Within.ite, h, implies_true, h_regs]

theorem Within.execSlipComplete (h : Within M s t) {l : Lane} (he : (Machine.execSlipComplete l t) = .next u) (h_regs
    : M.regs := by assumption) : Within M s u := by
  unfold Machine.execSlipComplete at he
  simp only [Host.Outcome.next.injEq] at he
  subst he
  simp (maxDischargeDepth := 40) only [Within.wr, Within.wr64, Within.ite, h, implies_true, h_regs]

theorem Within.execRestart (h : Within M s t) {l : Lane} (he : (Machine.execRestart l t) = .next u) (h_regs : M.regs
    := by assumption) (h_out : M.out := by assumption) (h_dealer : M.dealer := by assumption) (h_faults : M.faults :=
    by assumption) (h_lanes : M.lanes := by assumption) (h_links : M.links := by assumption) (h_power : M.power := by assumption) : Within M s u := by
  unfold Machine.execRestart at he
  simp only [Host.Outcome.next.injEq] at he
  subst he
  simp (maxDischargeDepth := 40) only [Within.startLadder, Within.ite, h, implies_true, h_regs, h_out, h_dealer,
    h_faults, h_lanes, h_links, h_power]

theorem Within.execCntclr (h : Within M s t) {l : Lane} (he : (Machine.execCntclr l t) = .next u) (h_regs : M.regs :=
    by assumption) : Within M s u := by
  unfold Machine.execCntclr at he
  simp only [Host.Outcome.next.injEq] at he
  subst he
  simp (maxDischargeDepth := 40) only [Within.wr64, h, h_regs]

theorem Within.execSingle (h : Within M s t) {l : Lane} (he : (Machine.execSingle l t) = .next u) (h_regs : M.regs :=
    by assumption) (h_lanes : M.lanes := by assumption) : Within M s u := by
  unfold Machine.execSingle at he
  simp only [Host.Outcome.next.injEq] at he
  subst he
  repeat' (first
      | (simp (maxDischargeDepth := 40) only [Within.inject, h, true_or, or_true, and_self, implies_true, h_regs,
            h_lanes]; done)
      | dsimp only
      | split)

theorem Within.execBurst (h : Within M s t) {l : Lane} {blen : Byte} (he : (Machine.execBurst l blen t) = .next u)
    (h_regs : M.regs := by assumption) (h_lanes : M.lanes := by assumption) : Within M s u := by
  unfold Machine.execBurst at he
  simp only [Host.Outcome.next.injEq] at he
  subst he
  repeat' (first
      | (simp (maxDischargeDepth := 40) only [Within.flag, Within.wr, Within.inject, Within.ite, h, true_or, or_true,
            and_self, implies_true, h_regs, h_lanes]; done)
      | dsimp only
      | split)

theorem Within.execVlkPchkEn (h : Within M s t) {l : Lane} (he : (Machine.execVlkPchkEn l t) = .next u) (h_regs :
    M.regs := by assumption) (h_lanes : M.lanes := by assumption) : Within M s u := by
  unfold Machine.execVlkPchkEn at he
  simp only [Host.Outcome.next.injEq] at he
  subst he
  simp (maxDischargeDepth := 40) only [Within.setLane, Within.flag, Within.wr64, Within.wr, Within.ite, h, implies_true, h_regs, true_or,
            or_true, and_self, h_lanes]

theorem Within.execPrbsCheckerLock (h : Within M s t) {l : Lane} (he : (Machine.execPrbsCheckerLock l t) = .next u)
    (h_regs : M.regs := by assumption) (h_lanes : M.lanes := by assumption) : Within M s u := by
  unfold Machine.execPrbsCheckerLock at he
  simp only [Host.Outcome.next.injEq] at he
  subst he
  repeat' (first
      | (simp (maxDischargeDepth := 40) only [Within.settle, Within.setLane, Within.wr, Within.ite, h, true_or, or_true, and_self, implies_true,
            h_regs, h_lanes]; done)
      | dsimp only
      | split)

theorem Within.execPrbsCheckerLockLost (h : Within M s t) {l : Lane} {compared : Nat} {errored : Nat} (he :
    (Machine.execPrbsCheckerLockLost l compared errored t) = .next u) (h_regs : M.regs := by assumption) (h_lanes :
    M.lanes := by assumption) : Within M s u := by
  unfold Machine.execPrbsCheckerLockLost at he
  simp only [Host.Outcome.next.injEq] at he
  subst he
  repeat' (first
      | (simp (maxDischargeDepth := 40) only [Within.settle, Within.wr, Within.bump64, Within.ite, h, true_or, or_true, and_self, implies_true,
            h_regs, h_lanes]; done)
      | dsimp only
      | split)

theorem Within.withdrawAll (h : Within M s t) {l : Nat} (h_regs : M.regs := by assumption) (h_out : M.out := by assumption) (h_lanes : M.lanes := by assumption) : Within M s (State.withdrawAll t l) := by
  unfold State.withdrawAll
  repeat' (first
      | (simp (maxDischargeDepth := 40) only [Within.refl, Within.forN, Within.ite, Within.dropPositions, h, true_or, or_true, and_self,
            implies_true, h_regs, h_out, h_lanes]; done)
      | dsimp only
      | split)

theorem Within.releaseLane (h : Within M s t) {l : Nat} (h_regs : M.regs := by assumption) (h_out : M.out := by
    assumption) (h_dealer : M.dealer := by assumption) (h_faults : M.faults := by assumption) (h_lanes : M.lanes := by
    assumption) (h_links : M.links := by assumption) : Within M s (State.releaseLane t l).1 := by
  unfold State.releaseLane
  repeat' (first
      | (simp (maxDischargeDepth := 40) only [Within.withdrawAll, Within.whenS, Within.setLane, Within.announce, Within.setLocks,
            Within.enterTest, Within.homeState, Within.dropPositions, Within.ite, Within.forN, Within.refl, h,
            true_or, or_true, and_self, implies_true, h_regs, h_out, h_dealer, h_faults, h_lanes, h_links]; done)
      | dsimp only
      | split)

theorem Within.withdraw (h : Within M s t) {l : Nat} (h_regs : M.regs := by assumption) (h_out : M.out := by assumption) (h_lanes : M.lanes := by assumption) : Within M s (State.withdraw t l) := by
  unfold State.withdraw
  repeat' (first
      | (simp (maxDischargeDepth := 40) only [Within.refl, Within.forN, Within.ite, Within.dropPositions, h, true_or, or_true, and_self,
            implies_true, h_regs, h_out, h_lanes]; done)
      | dsimp only
      | split)

theorem Within.restoreLane (h : Within M s t) {l : Nat} (h_regs : M.regs := by assumption) (h_out : M.out := by
    assumption) (h_dealer : M.dealer := by assumption) (h_faults : M.faults := by assumption) (h_lanes : M.lanes := by
    assumption) (h_links : M.links := by assumption) (h_ledger : M.ledger := by assumption) (h_power : M.power := by assumption) : Within M s
    (State.restoreLane t l) := by
  unfold State.restoreLane
  repeat' (first
      | (simp (maxDischargeDepth := 40) only [Within.withdraw, Within.repair, Within.stopTest, Within.wr, Within.setLane, Within.laneOff,
            Within.endLongOf, Within.takeHome, Within.startLadder, Within.upd, Within.ite, h, true_or, or_true,
            and_self, implies_true, h_regs, h_out, h_dealer, h_faults, h_lanes, h_links, h_ledger, h_power]; done)
      | dsimp only
      | split)

theorem Within.sendHome (h : Within M s t) {l : Nat} (h_regs : M.regs := by assumption) (h_out : M.out := by
    assumption) (h_dealer : M.dealer := by assumption) (h_faults : M.faults := by assumption) (h_lanes : M.lanes := by
    assumption) : Within M s (State.sendHome t l) := by
  unfold State.sendHome
  repeat' (first
      | (simp (maxDischargeDepth := 40) only [Within.setLane, Within.atHome, Within.announce, Within.ite, h, true_or,
            or_true, and_self, implies_true, h_regs, h_out, h_dealer, h_faults, h_lanes]; done)
      | dsimp only
      | split)

end Sys2Proof.Machine
end

