-- ==== Sys2Proof/Laws/Within2.lean ====
section
/-! SUPPORT. Which parts of the state the operations and meanings of Machine/DeckWrite.lean, Machine/Sessions.lean,
Machine/Allot.lean, Machine/Deck.lean, Machine/Engines.lean, Machine/Ring.lean, Machine/Beams.lean, Machine/Zoom.lean
may change (`Within`), one lemma each. -/

namespace Sys2Proof.Machine

set_option Elab.async false

variable {M : Mask} {s t u : State}

theorem Within.openChan (h : Within M s t) {a1 ch : Nat} (h_regs : M.regs := by assumption) (h_deck : M.deck := by
    assumption) : Within M s (State.openChan t a1 ch) := by
  unfold State.openChan
  simp (maxDischargeDepth := 40) only [Within.setChan, Within.flag, Within.put, Within.upd, Within.ite, Within.refl,
    h, true_or, or_true, and_self, implies_true, Within.whenS, h_regs, h_deck]

theorem Within.openPlan (h : Within M s t) {p : ActivePlan} (h_regs : M.regs := by assumption) (h_deck : M.deck := by
    assumption) : Within M s (State.openPlan t p) := by
  unfold State.openPlan
  simp (maxDischargeDepth := 40) only [Within.openChan, Within.ite, Within.refl, h, implies_true, Within.forN, h_regs,
    h_deck]

theorem Within.openDue (h : Within M s t) (h_regs : M.regs := by assumption) (h_deck : M.deck := by assumption) :
    Within M s (State.openDue t) := by
  unfold State.openDue
  repeat' (first
      | (simp (maxDischargeDepth := 40) only [Within.openPlan, h, h_regs, h_deck]; done)
      | dsimp only
      | split)

theorem Within.writeFrame (h : Within M s t) {p : ActivePlan} {f : List Byte} (h_deck : M.deck := by assumption)
    (h_hbm : M.hbm := by assumption) : Within M s (State.writeFrame t p f) := by
  unfold State.writeFrame
  repeat' (first
      | (simp (maxDischargeDepth := 40) only [Within.hbmWrite, Within.upd, Within.foldl, Within.refl, h, true_or,
            or_true, and_self, implies_true, h_deck, h_hbm]; done)
      | dsimp only
      | split)

theorem Within.say (h : Within M s t) {b type sess : Nat} {payload : List Byte} (h_regs : M.regs := by assumption)
    (h_out : M.out := by assumption) (h_links : M.links := by assumption) : Within M s (State.say t b type sess
    payload) := by
  unfold State.say
  simp (maxDischargeDepth := 40) only [Within.sendFrame, h, h_regs, h_out, h_links]

theorem Within.keepAck (h : Within M s t) {sess : Nat} {flow : Nat} (h_sess : M.sess := by assumption) : Within M s
    (State.keepAck t sess flow) := by
  unfold State.keepAck
  repeat' (first
      | (simp (maxDischargeDepth := 40) only [Within.setSession, h, true_or, or_true, and_self, implies_true, h_sess];
            done)
      | dsimp only
      | split)

theorem Within.entry (h : Within M s t) {b : Nat} {sess : Nat} {flow : Nat} {kind : Nat} {reason : Nat} {seq : Nat}
    (h_regs : M.regs := by assumption) (h_out : M.out := by assumption) (h_links : M.links := by assumption) (h_sess :
    M.sess := by assumption) : Within M s (State.entry t b sess flow kind reason seq) := by
  unfold State.entry
  repeat' (first
      | (simp (maxDischargeDepth := 40) only [Within.say, Within.keepAck, Within.ite, h, true_or, or_true, and_self,
            implies_true, h_regs, h_out, h_links, h_sess]; done)
      | dsimp only
      | split)

theorem Within.refuse (h : Within M s t) {b : Nat} {sess : Nat} {flow : Nat} {reason : Nat} {seq : Nat} (h_regs :
    M.regs := by assumption) (h_out : M.out := by assumption) (h_links : M.links := by assumption) (h_sess : M.sess :=
    by assumption) : Within M s (State.refuse t b sess flow reason seq) := by
  unfold State.refuse
  repeat' (first
      | (simp (maxDischargeDepth := 40) only [Within.bump, Within.entry, Within.ite, h, true_or, or_true, and_self,
            implies_true, h_regs, h_out, h_links, h_sess]; done)
      | dsimp only
      | split)

theorem Within.flowEvent (h : Within M s t) {f action : Nat} (h_regs : M.regs := by assumption) (h_out : M.out := by
    assumption) (h_dealer : M.dealer := by assumption) (h_faults : M.faults := by assumption) : Within M s
    (State.flowEvent t f action) := by
  unfold State.flowEvent
  simp (maxDischargeDepth := 40) only [Within.event, h, h_regs, h_out, h_dealer, h_faults]

theorem Within.flowRecord (h : Within M s t) {f : Nat} (h_ledger : M.ledger := by assumption) : Within M s
    (State.flowRecord t f) := by
  unfold State.flowRecord
  simp (maxDischargeDepth := 40) only [Within.record, h, h_ledger]

theorem Within.sessRecord (h : Within M s t) {n : Nat} (h_ledger : M.ledger := by assumption) : Within M s
    (State.sessRecord t n) := by
  unfold State.sessRecord
  simp (maxDischargeDepth := 40) only [Within.record, h, h_ledger]

theorem Within.setHeld (h : Within M s t) {f : Nat} {l : List (Nat × List Byte)} (h_regs : M.regs := by assumption)
    (h_sess : M.sess := by assumption) : Within M s (State.setHeld t f l) := by
  unfold State.setHeld
  simp (maxDischargeDepth := 40) only [Within.setFlow, Within.wr, Within.refl, h, implies_true, Within.forN, h_regs,
    h_sess]

theorem Within.freeFrames (h : Within M s t) {l : List (Nat × List Byte)} (h_regs : M.regs := by assumption) (h_out :
    M.out := by assumption) (h_links : M.links := by assumption) : Within M s (State.freeFrames t l) := by
  unfold State.freeFrames
  simp (maxDischargeDepth := 40) only [Within.freeCredits, Within.foldl, Within.refl, h, implies_true, h_regs, h_out,
    h_links]

theorem Within.dropHeld (h : Within M s t) {f : Nat} (h_regs : M.regs := by assumption) (h_out : M.out := by
    assumption) (h_links : M.links := by assumption) (h_sess : M.sess := by assumption) : Within M s (State.dropHeld t
    f) := by
  unfold State.dropHeld
  simp (maxDischargeDepth := 40) only [Within.freeFrames, Within.setHeld, h, h_regs, h_out, h_links, h_sess]

theorem Within.setNext (h : Within M s t) {f e c a4 : Nat} (h_regs : M.regs := by assumption) (h_sess : M.sess := by
    assumption) : Within M s (State.setNext t f e c a4) := by
  unfold State.setNext
  simp (maxDischargeDepth := 40) only [Within.wr, Within.setFlow, h, h_regs, h_sess]

theorem Within.releaseFlow (h : Within M s t) {f : Nat} {action : Nat} (h_regs : M.regs := by assumption) (h_out :
    M.out := by assumption) (h_dealer : M.dealer := by assumption) (h_faults : M.faults := by assumption) (h_links :
    M.links := by assumption) (h_sess : M.sess := by assumption) (h_ledger : M.ledger := by assumption) : Within M s
    (State.releaseFlow t f action) := by
  unfold State.releaseFlow
  repeat' (first
      | (simp (maxDischargeDepth := 40) only [Within.dropHeld, Within.setSession, Within.wr, Within.flowEvent,
            Within.flowRecord, Within.setWord, Within.setFlow, h, true_or, or_true, and_self, implies_true, h_regs,
            h_out, h_dealer, h_faults, h_links, h_sess, h_ledger]; done)
      | dsimp only
      | split)

theorem Within.freeSession (h : Within M s t) {n action : Nat} (h_regs : M.regs := by assumption) (h_out : M.out := by
    assumption) (h_dealer : M.dealer := by assumption) (h_faults : M.faults := by assumption) (h_links : M.links := by
    assumption) (h_sess : M.sess := by assumption) (h_ledger : M.ledger := by assumption) : Within M s
    (State.freeSession t n action) := by
  unfold State.freeSession
  simp (maxDischargeDepth := 40) only [Within.releaseFlow, Within.sessRecord, Within.sessionEvent, Within.wr,
    Within.wr64, Within.setSession, Within.foldl, Within.refl, h, implies_true, h_regs, h_out, h_dealer, h_faults,
    h_links, h_sess, h_ledger]

theorem Within.endSession (h : Within M s t) {n : Nat} {action : Nat} {tell : Bool} (h_regs : M.regs := by assumption)
    (h_out : M.out := by assumption) (h_dealer : M.dealer := by assumption) (h_faults : M.faults := by assumption)
    (h_links : M.links := by assumption) (h_sess : M.sess := by assumption) (h_ledger : M.ledger := by assumption) :
    Within M s (State.endSession t n action tell) := by
  unfold State.endSession
  repeat' (first
      | (simp (maxDischargeDepth := 40) only [Within.setSession, Within.say, Within.freeSession, Within.ite, h,
            true_or, or_true, and_self, implies_true, h_regs, h_out, h_dealer, h_faults, h_links, h_sess, h_ledger];
            done)
      | dsimp only
      | split)

theorem Within.resumeAccept (h : Within M s t) (h_regs : M.regs := by assumption) (h_out : M.out := by assumption)
    (h_dealer : M.dealer := by assumption) (h_faults : M.faults := by assumption) (h_links : M.links := by assumption)
    (h_sess : M.sess := by assumption) (h_ledger : M.ledger := by assumption) : Within M s (State.resumeAccept t) :=
    by
  unfold State.resumeAccept
  repeat' (first
      | (simp (maxDischargeDepth := 40) only [Within.endSession, Within.resumeCredits, Within.ite, Within.forN,
            Within.refl, h, true_or, or_true, and_self, implies_true, h_regs, h_out, h_dealer, h_faults, h_links,
            h_sess, h_ledger]; done)
      | dsimp only
      | split)

theorem Within.resetSession (h : Within M s t) {n reason : Nat} (h_regs : M.regs := by assumption) (h_out : M.out :=
    by assumption) (h_dealer : M.dealer := by assumption) (h_faults : M.faults := by assumption) (h_links : M.links :=
    by assumption) (h_sess : M.sess := by assumption) : Within M s (State.resetSession t n reason) := by
  unfold State.resetSession
  simp (maxDischargeDepth := 40) only [Within.say, Within.flag, Within.setSession, Within.sessionEvent, Within.wr, h,
    h_regs, h_out, h_dealer, h_faults, h_links, h_sess]

theorem Within.takeFrame (h : Within M s t) {b : Nat} (h_links : M.links := by assumption) : Within M s
    (State.takeFrame t b) := by
  unfold State.takeFrame
  simp (maxDischargeDepth := 40) only [Within.setLink, h, h_links]

theorem Within.doneFrame (h : Within M s t) {b : Nat} {f : List Byte} (h_regs : M.regs := by assumption) (h_out :
    M.out := by assumption) (h_links : M.links := by assumption) : Within M s (State.doneFrame t b f) := by
  unfold State.doneFrame
  simp (maxDischargeDepth := 40) only [Within.freeCredits, Within.takeFrame, h, h_regs, h_out, h_links]

theorem Within.noSession (h : Within M s t) {b : Nat} {f : List Byte} (h_regs : M.regs := by assumption) (h_out :
    M.out := by assumption) (h_links : M.links := by assumption) : Within M s (State.noSession t b f) := by
  unfold State.noSession
  simp (maxDischargeDepth := 40) only [Within.bump, Within.doneFrame, h, h_regs, h_out, h_links]

theorem Within.ctlCheck (h : Within M s t) {b : Nat} {f : List Byte} {type plen st : Nat} (he : (State.ctlCheck t b f
    type plen st) = some u) (h_regs : M.regs := by assumption) (h_out : M.out := by assumption) (h_dealer : M.dealer
    := by assumption) (h_faults : M.faults := by assumption) (h_links : M.links := by assumption) (h_sess : M.sess :=
    by assumption) : Within M s u := by
  unfold State.ctlCheck at he
  try dsimp only at he
  repeat' split at he
  all_goals first | (cases he; done) | cases he
  all_goals simp (maxDischargeDepth := 40) only [Within.noSession, Within.resetSession, Within.doneFrame, h, h_regs,
    h_out, h_dealer, h_faults, h_links, h_sess]

theorem Within.answerOf {r : Served} (h : Within M s r.st) {a : Access} (h_out : M.out := by assumption) : Within M s
    (r.answer a) := Within.send h

theorem Within.sendAnswer (h : Within M s t) {b : Nat} {n : Nat} (h_regs : M.regs := by assumption) (h_out : M.out :=
    by assumption) (h_links : M.links := by assumption) : Within M s (State.sendAnswer t b n) := by
  unfold State.sendAnswer
  repeat' (first
      | (simp (maxDischargeDepth := 40) only [Within.say, Within.foldl, Within.refl, h, true_or, or_true, and_self,
            implies_true, h_regs, h_out, h_links]; done)
      | dsimp only
      | split)

theorem Within.sendGrant (h : Within M s t) {b : Nat} {n : Nat} (h_regs : M.regs := by assumption) (h_out : M.out :=
    by assumption) (h_links : M.links := by assumption) (h_sess : M.sess := by assumption) : Within M s
    (State.sendGrant t b n) := by
  unfold State.sendGrant
  repeat' (first
      | (simp (maxDischargeDepth := 40) only [Within.setSession, Within.answerOf, Within.sendAnswer, h, true_or,
            or_true, and_self, implies_true, h_regs, h_out, h_links, h_sess]; done)
      | dsimp only
      | split)

theorem Within.grant (h : Within M s t) {b n epoch nonce kind action : Nat} (h_regs : M.regs := by assumption) (h_out
    : M.out := by assumption) (h_dealer : M.dealer := by assumption) (h_faults : M.faults := by assumption) (h_links :
    M.links := by assumption) (h_sess : M.sess := by assumption) (h_ledger : M.ledger := by assumption) : Within M s
    (State.grant t b n epoch nonce kind action) := by
  unfold State.grant
  simp (maxDischargeDepth := 40) only [Within.wr, Within.setSession, Within.sessRecord, Within.sessionEvent,
    Within.sendGrant, h, h_regs, h_out, h_dealer, h_faults, h_links, h_sess, h_ledger]

theorem Within.resumeSession (h : Within M s t) {b : Nat} {n : Nat} {nonce : Nat} (h_regs : M.regs := by assumption)
    (h_out : M.out := by assumption) (h_dealer : M.dealer := by assumption) (h_faults : M.faults := by assumption)
    (h_links : M.links := by assumption) (h_sess : M.sess := by assumption) (h_ledger : M.ledger := by assumption) :
    Within M s (State.resumeSession t b n nonce) := by
  unfold State.resumeSession
  repeat' (first
      | (simp (maxDischargeDepth := 40) only [Within.releaseFlow, Within.flag, Within.setFlow, Within.grant,
            Within.ite, Within.foldl, Within.refl, h, true_or, or_true, and_self, implies_true, h_regs, h_out,
            h_dealer, h_faults, h_links, h_sess, h_ledger]; done)
      | dsimp only
      | split)

theorem Within.newSession (h : Within M s t) {b n ep nonce : Nat} (h_regs : M.regs := by assumption) (h_out : M.out :=
    by assumption) (h_dealer : M.dealer := by assumption) (h_faults : M.faults := by assumption) (h_links : M.links :=
    by assumption) (h_sess : M.sess := by assumption) (h_ledger : M.ledger := by assumption) : Within M s
    (State.newSession t b n ep nonce) := by
  unfold State.newSession
  simp (maxDischargeDepth := 40) only [Within.setSession, Within.drawn, Within.wr64, Within.wr, Within.grant, h,
    h_regs, h_out, h_dealer, h_faults, h_links, h_sess, h_ledger]

theorem Within.srefuse (h : Within M s t) {b reason nonce : Nat} (h_regs : M.regs := by assumption) (h_out : M.out :=
    by assumption) (h_links : M.links := by assumption) : Within M s (State.srefuse t b reason nonce) := by
  unfold State.srefuse
  simp (maxDischargeDepth := 40) only [Within.say, h, h_regs, h_out, h_links]

theorem Within.execSopen (h : Within M s t) {b : BundleId} {f : List Byte} (he : (Machine.execSopen b f t) = .next u)
    (h_regs : M.regs := by assumption) (h_out : M.out := by assumption) (h_dealer : M.dealer := by assumption)
    (h_faults : M.faults := by assumption) (h_links : M.links := by assumption) (h_sess : M.sess := by assumption)
    (h_ledger : M.ledger := by assumption) : Within M s u := by
  unfold Machine.execSopen at he
  simp only [Host.Outcome.next.injEq] at he
  subst he
  repeat' (first
      | (simp (maxDischargeDepth := 40) only [Within.noSession, Within.doneFrame, Within.srefuse, Within.wr,
            Within.sendAnswer, Within.resumeSession, Within.newSession, Within.ite, h, true_or, or_true, and_self,
            implies_true, h_regs, h_out, h_dealer, h_faults, h_links, h_sess, h_ledger]; done)
      | dsimp only
      | split)

theorem Within.execSready (h : Within M s t) {b : BundleId} {f : List Byte} (he : (Machine.execSready b f t) = .next
    u) (h_regs : M.regs := by assumption) (h_out : M.out := by assumption) (h_dealer : M.dealer := by assumption)
    (h_faults : M.faults := by assumption) (h_links : M.links := by assumption) (h_sess : M.sess := by assumption)
    (h_ledger : M.ledger := by assumption) : Within M s u := by
  unfold Machine.execSready at he
  simp only [Host.Outcome.next.injEq] at he
  subst he
  repeat' (first
      | (simp (maxDischargeDepth := 40) only [Within.doneFrame, Within.setSession, Within.wr, Within.sessionEvent,
            Within.sessRecord, Within.ite, h, true_or, or_true, and_self, implies_true, h_regs, h_out, h_dealer,
            h_faults, h_links, h_sess, h_ledger]; done)
      | exact Within.ctlCheck (by assumption) (by assumption)
      | split)

theorem Within.execSclose (h : Within M s t) {b : BundleId} {f : List Byte} (he : (Machine.execSclose b f t) = .next
    u) (h_regs : M.regs := by assumption) (h_out : M.out := by assumption) (h_dealer : M.dealer := by assumption)
    (h_faults : M.faults := by assumption) (h_links : M.links := by assumption) (h_sess : M.sess := by assumption)
    (h_ledger : M.ledger := by assumption) : Within M s u := by
  unfold Machine.execSclose at he
  simp only [Host.Outcome.next.injEq] at he
  subst he
  repeat' (first
      | (simp (maxDischargeDepth := 40) only [Within.freeSession, Within.say, Within.doneFrame, h, h_regs, h_out,
            h_dealer, h_faults, h_links, h_sess, h_ledger]; done)
      | exact Within.ctlCheck (by assumption) (by assumption)
      | split)

theorem Within.sendFgrant (h : Within M s t) {b n f tag : Nat} (h_regs : M.regs := by assumption) (h_out : M.out := by
    assumption) (h_links : M.links := by assumption) : Within M s (State.sendFgrant t b n f tag) := by
  unfold State.sendFgrant
  simp (maxDischargeDepth := 40) only [Within.say, h, h_regs, h_out, h_links]

theorem Within.sendFrefuse (h : Within M s t) {b n tag reason : Nat} (h_regs : M.regs := by assumption) (h_out : M.out
    := by assumption) (h_links : M.links := by assumption) : Within M s (State.sendFrefuse t b n tag reason) := by
  unfold State.sendFrefuse
  simp (maxDischargeDepth := 40) only [Within.say, h, h_regs, h_out, h_links]

theorem Within.anchorFlow (h : Within M s t) {f n g sh cb seq anchor : Nat} (h_regs : M.regs := by assumption) (h_sess
    : M.sess := by assumption) : Within M s (State.anchorFlow t f n g sh cb seq anchor) := by
  unfold State.anchorFlow
  simp (maxDischargeDepth := 40) only [Within.wr, Within.setFlow, h, h_regs, h_sess]

theorem Within.newFlow (h : Within M s t) {b n g sh cb seq anchor tag : Nat} (h_regs : M.regs := by assumption) (h_out
    : M.out := by assumption) (h_dealer : M.dealer := by assumption) (h_faults : M.faults := by assumption) (h_links :
    M.links := by assumption) (h_sess : M.sess := by assumption) (h_ledger : M.ledger := by assumption) : Within M s
    (State.newFlow t b n g sh cb seq anchor tag) := by
  unfold State.newFlow
  repeat' (first
      | (simp (maxDischargeDepth := 40) only [Within.sendFrefuse, Within.flag, Within.releaseFlow, Within.anchorFlow,
            Within.setFlow, Within.wr, Within.flowRecord, Within.flowEvent, Within.sendFgrant, Within.ite,
            Within.foldl, Within.refl, h, implies_true, h_regs, h_out, h_dealer, h_faults, h_links, h_sess, h_ledger];
            done)
      | dsimp only
      | split)

theorem Within.execFreq (h : Within M s t) {b : BundleId} {f : List Byte} (he : (Machine.execFreq b f t) = .next u)
    (h_regs : M.regs := by assumption) (h_out : M.out := by assumption) (h_dealer : M.dealer := by assumption)
    (h_faults : M.faults := by assumption) (h_links : M.links := by assumption) (h_sess : M.sess := by assumption)
    (h_ledger : M.ledger := by assumption) : Within M s u := by
  unfold Machine.execFreq at he
  simp only [Host.Outcome.next.injEq] at he
  subst he
  repeat' (first
      | (simp (maxDischargeDepth := 40) only [Within.doneFrame, Within.sendFrefuse, Within.newFlow, Within.anchorFlow,
            Within.dropHeld, Within.flowRecord, Within.flowEvent, Within.sendFgrant, Within.ite, h, implies_true,
            h_regs, h_out, h_dealer, h_faults, h_links, h_sess, h_ledger]; done)
      | exact Within.ctlCheck (by assumption) (by assumption)
      | split)

theorem Within.execFrelease (h : Within M s t) {b : BundleId} {f : List Byte} (he : (Machine.execFrelease b f t) =
    .next u) (h_regs : M.regs := by assumption) (h_out : M.out := by assumption) (h_dealer : M.dealer := by
    assumption) (h_faults : M.faults := by assumption) (h_links : M.links := by assumption) (h_sess : M.sess := by
    assumption) (h_ledger : M.ledger := by assumption) : Within M s u := by
  unfold Machine.execFrelease at he
  simp only [Host.Outcome.next.injEq] at he
  subst he
  repeat' (first
      | (simp (maxDischargeDepth := 40) only [Within.doneFrame, Within.refuse, Within.entry, Within.releaseFlow,
            Within.ite, h, implies_true, h_regs, h_out, h_dealer, h_faults, h_links, h_sess, h_ledger]; done)
      | exact Within.ctlCheck (by assumption) (by assumption)
      | split)

theorem Within.keepHeldFrom (h : Within M s t) {f n : Nat} (h_regs : M.regs := by assumption) (h_out : M.out := by
    assumption) (h_links : M.links := by assumption) (h_sess : M.sess := by assumption) : Within M s
    (State.keepHeldFrom t f n) := by
  unfold State.keepHeldFrom
  simp (maxDischargeDepth := 40) only [Within.freeFrames, Within.setHeld, h, h_regs, h_out, h_links, h_sess]

theorem Within.execFskip (h : Within M s t) {b : BundleId} {f : List Byte} (he : (Machine.execFskip b f t) = .next u)
    (h_regs : M.regs := by assumption) (h_out : M.out := by assumption) (h_dealer : M.dealer := by assumption)
    (h_faults : M.faults := by assumption) (h_links : M.links := by assumption) (h_sess : M.sess := by assumption) :
    Within M s u := by
  unfold Machine.execFskip at he
  simp only [Host.Outcome.next.injEq] at he
  subst he
  repeat' (first
      | (simp (maxDischargeDepth := 40) only [Within.doneFrame, Within.refuse, Within.setNext, Within.keepHeldFrom,
            Within.entry, Within.ite, h, implies_true, h_regs, h_out, h_links, h_sess]; done)
      | exact Within.ctlCheck (by assumption) (by assumption)
      | split)

theorem Within.heard (h : Within M s t) {f : Nat} (h_regs : M.regs := by assumption) (h_out : M.out := by assumption)
    (h_dealer : M.dealer := by assumption) (h_faults : M.faults := by assumption) : Within M s (State.heard t f) := by
  unfold State.heard
  simp (maxDischargeDepth := 40) only [Within.flowEvent, Within.wr, Within.ite, h, implies_true, h_regs, h_out,
    h_dealer, h_faults]

theorem Within.flowFault (h : Within M s t) {b : Nat} {n : Nat} {f : Nat} {q : Nat} (h_regs : M.regs := by assumption)
    (h_out : M.out := by assumption) (h_dealer : M.dealer := by assumption) (h_faults : M.faults := by assumption)
    (h_links : M.links := by assumption) (h_sess : M.sess := by assumption) : Within M s (State.flowFault t b n f q)
    := by
  unfold State.flowFault
  repeat' (first
      | (simp (maxDischargeDepth := 40) only [Within.wr, Within.flag, Within.flowEvent, Within.bump, Within.entry, h,
            true_or, or_true, and_self, implies_true, h_regs, h_out, h_dealer, h_faults, h_links, h_sess]; done)
      | dsimp only
      | split)

theorem Within.firstOfTrick (h : Within M s t) {f : List Byte} (h_regs : M.regs := by assumption) (h_out : M.out := by
    assumption) (h_dealer : M.dealer := by assumption) (h_faults : M.faults := by assumption) (h_tricks : M.tricks :=
    by assumption) : Within M s (State.firstOfTrick t f) := by
  unfold State.firstOfTrick
  repeat' (first
      | (simp (maxDischargeDepth := 40) only [Within.event, Within.upd, Within.ite, h, true_or, or_true, and_self,
            implies_true, h_regs, h_out, h_dealer, h_faults, h_tricks]; done)
      | split)

theorem Within.accept (h : Within M s t) {b : Nat} {f : List Byte} (h_regs : M.regs := by assumption) (h_out : M.out
    := by assumption) (h_dealer : M.dealer := by assumption) (h_faults : M.faults := by assumption) (h_links : M.links
    := by assumption) (h_sess : M.sess := by assumption) (h_deck : M.deck := by assumption) (h_tricks : M.tricks := by
    assumption) (h_hbm : M.hbm := by assumption) : Within M s (State.accept t b f) := by
  unfold State.accept
  repeat' (first
      | (simp (maxDischargeDepth := 40) only [Within.writeFrame, Within.bump, Within.setNext, Within.bumpW,
            Within.firstOfTrick, Within.freeCredits, Within.entry, Within.ite, h, implies_true, h_regs, h_out,
            h_dealer, h_faults, h_links, h_sess, h_deck, h_tricks, h_hbm]; done)
      | split)

theorem Within.passLate (h : Within M s t) {f : List Byte} (h_regs : M.regs := by assumption) (h_out : M.out := by
    assumption) (h_links : M.links := by assumption) (h_sess : M.sess := by assumption) : Within M s (State.passLate t
    f) := by
  unfold State.passLate
  simp (maxDischargeDepth := 40) only [Within.setNext, Within.keepHeldFrom, Within.bump, Within.entry, h, h_regs,
    h_out, h_links, h_sess]

theorem Within.holdFrame (h : Within M s t) {b : Nat} {f : List Byte} (h_regs : M.regs := by assumption) (h_links :
    M.links := by assumption) (h_sess : M.sess := by assumption) : Within M s (State.holdFrame t b f) := by
  unfold State.holdFrame
  simp (maxDischargeDepth := 40) only [Within.setHeld, Within.takeFrame, Within.setFlow, h, h_regs, h_links, h_sess]

theorem Within.nackSeq (h : Within M s t) {b n f : Nat} (h_regs : M.regs := by assumption) (h_out : M.out := by
    assumption) (h_links : M.links := by assumption) (h_sess : M.sess := by assumption) : Within M s (State.nackSeq t
    b n f) := by
  unfold State.nackSeq
  simp (maxDischargeDepth := 40) only [Within.entry, Within.bump, Within.setFlow, Within.ite, h, implies_true, h_regs,
    h_out, h_links, h_sess]

theorem Within.decideFrame (h : Within M s t) {b : Nat} {f : List Byte} (h_regs : M.regs := by assumption) (h_out :
    M.out := by assumption) (h_dealer : M.dealer := by assumption) (h_faults : M.faults := by assumption) (h_links :
    M.links := by assumption) (h_sess : M.sess := by assumption) (h_deck : M.deck := by assumption) (h_tricks :
    M.tricks := by assumption) (h_hbm : M.hbm := by assumption) : Within M s (State.decideFrame t b f) := by
  unfold State.decideFrame
  simp (maxDischargeDepth := 40) only [Within.setFlow, Within.doneFrame, Within.refuse, Within.passLate, Within.entry,
    Within.bump, Within.holdFrame, Within.accept, Within.takeFrame, Within.ite, h, implies_true, h_regs, h_out,
    h_dealer, h_faults, h_links, h_sess, h_deck, h_tricks, h_hbm]

theorem Within.flowCheck (h : Within M s t) {b : Nat} {f : List Byte} (he : State.flowCheck t b f = some u) (h_regs :
    M.regs := by assumption) (h_out : M.out := by assumption) (h_links : M.links := by assumption) (h_sess : M.sess :=
    by assumption) : Within M s u := by
  unfold State.flowCheck at he
  try dsimp only at he
  repeat' split at he
  all_goals first | (cases he; done) | cases he
  all_goals simp (maxDischargeDepth := 40) only [Within.refuse, Within.doneFrame, Within.ite, h, true_or, or_true,
    and_self, implies_true, h_regs, h_out, h_links, h_sess]

theorem Within.sampleCheck (h : Within M s t) {b : Nat} {f : List Byte} {formGood : Bool} (he : (State.sampleCheck t b
    f formGood) = some u) (h_regs : M.regs := by assumption) (h_out : M.out := by assumption) (h_dealer : M.dealer :=
    by assumption) (h_faults : M.faults := by assumption) (h_links : M.links := by assumption) (h_sess : M.sess := by
    assumption) : Within M s u := by
  unfold State.sampleCheck at he
  try dsimp only at he
  repeat' split at he
  all_goals first | (cases he; done) | cases he
  all_goals simp (maxDischargeDepth := 40) only [Within.doneFrame, Within.bump, Within.refuse, Within.resetSession, h,
    h_regs, h_out, h_dealer, h_faults, h_links, h_sess]

theorem Within.execData (h : Within M s t) {b : BundleId} {f : List Byte} (he : (Machine.execData b f t) = .next u)
    (h_regs : M.regs := by assumption) (h_out : M.out := by assumption) (h_dealer : M.dealer := by assumption)
    (h_faults : M.faults := by assumption) (h_links : M.links := by assumption) (h_sess : M.sess := by assumption)
    (h_deck : M.deck := by assumption) (h_tricks : M.tricks := by assumption) (h_hbm : M.hbm := by assumption) :
    Within M s u := by
  unfold Machine.execData at he
  simp only [Host.Outcome.next.injEq] at he
  subst he
  repeat' (first
      | (simp (maxDischargeDepth := 40) only [Within.heard, Within.doneFrame, Within.refuse, Within.entry,
            Within.bump, Within.nackSeq, Within.flowFault, Within.decideFrame, Within.ite, h, implies_true, h_regs,
            h_out, h_dealer, h_faults, h_links, h_sess, h_deck, h_tricks, h_hbm]; done)
      | exact Within.sampleCheck (by assumption) (by assumption)
      | exact Within.flowCheck (by assumption) (by assumption)
      | split)

theorem Within.execKeepalive (h : Within M s t) {b : BundleId} {f : List Byte} (he : (Machine.execKeepalive b f t) =
    .next u) (h_regs : M.regs := by assumption) (h_out : M.out := by assumption) (h_dealer : M.dealer := by
    assumption) (h_faults : M.faults := by assumption) (h_links : M.links := by assumption) (h_sess : M.sess := by
    assumption) : Within M s u := by
  unfold Machine.execKeepalive at he
  simp only [Host.Outcome.next.injEq] at he
  subst he
  repeat' (first
      | (simp (maxDischargeDepth := 40) only [Within.heard, Within.doneFrame, Within.refuse, Within.flowFault,
            Within.bump, Within.entry, Within.ite, h, true_or, or_true, and_self, implies_true, h_regs, h_out,
            h_dealer, h_faults, h_links, h_sess]; done)
      | exact Within.sampleCheck (by assumption) (by assumption)
      | exact Within.flowCheck (by assumption) (by assumption)
      | split)

theorem Within.execHeldFrameAcceptance (h : Within M s t) {f : FlowId} (he : (Machine.execHeldFrameAcceptance f t) =
    .next u) (h_regs : M.regs := by assumption) (h_out : M.out := by assumption) (h_dealer : M.dealer := by
    assumption) (h_faults : M.faults := by assumption) (h_links : M.links := by assumption) (h_sess : M.sess := by
    assumption) (h_deck : M.deck := by assumption) (h_tricks : M.tricks := by assumption) (h_hbm : M.hbm := by
    assumption) : Within M s u := by
  unfold Machine.execHeldFrameAcceptance at he
  simp only [Host.Outcome.next.injEq] at he
  subst he
  repeat' (first
      | (simp (maxDischargeDepth := 40) only [Within.passLate, Within.refuse, Within.dropHeld, Within.setNext,
            Within.setHeld, Within.accept, Within.ite, h, true_or, or_true, and_self, implies_true, h_regs, h_out,
            h_dealer, h_faults, h_links, h_sess, h_deck, h_tricks, h_hbm]; done)
      | dsimp only
      | split)

theorem Within.execAcceptAckTimer (h : Within M s t) (he : (Machine.execAcceptAckTimer t) = .next u) (h_regs : M.regs
    := by assumption) (h_out : M.out := by assumption) (h_links : M.links := by assumption) : Within M s u := by
  unfold Machine.execAcceptAckTimer at he
  simp only [Host.Outcome.next.injEq] at he
  subst he
  simp (maxDischargeDepth := 40) only [Within.say, Within.ite, Within.refl, h, implies_true, Within.forN, h_regs, h_out, h_links, true_or,
            or_true, and_self]

theorem Within.execSresetRepeat (h : Within M s t) {sid : SessionId} (he : (Machine.execSresetRepeat sid t) = .next u)
    (h_regs : M.regs := by assumption) (h_out : M.out := by assumption) (h_links : M.links := by assumption) : Within
    M s u := by
  unfold Machine.execSresetRepeat at he
  simp only [Host.Outcome.next.injEq] at he
  subst he
  simp (maxDischargeDepth := 40) only [Within.say, Within.ite, h, implies_true, h_regs, h_out, h_links, true_or, or_true, and_self]

theorem Within.execFlowSuspect (h : Within M s t) {f : FlowId} (he : (Machine.execFlowSuspect f t) = .next u) (h_regs
    : M.regs := by assumption) (h_out : M.out := by assumption) (h_dealer : M.dealer := by assumption) (h_faults :
    M.faults := by assumption) : Within M s u := by
  unfold Machine.execFlowSuspect at he
  simp only [Host.Outcome.next.injEq] at he
  subst he
  simp (maxDischargeDepth := 40) only [Within.flowEvent, Within.flag, Within.wr, Within.ite, h, implies_true, h_regs,
    h_out, h_dealer, h_faults]

theorem Within.execFlowSilent (h : Within M s t) {f : FlowId} (he : (Machine.execFlowSilent f t) = .next u) (h_regs :
    M.regs := by assumption) (h_out : M.out := by assumption) (h_dealer : M.dealer := by assumption) (h_faults :
    M.faults := by assumption) : Within M s u := by
  unfold Machine.execFlowSilent at he
  simp only [Host.Outcome.next.injEq] at he
  subst he
  simp (maxDischargeDepth := 40) only [Within.flowEvent, Within.flag, Within.wr, Within.ite, h, implies_true, h_regs,
    h_out, h_dealer, h_faults]

theorem Within.execRetentionTimeOut (h : Within M s t) {sid : SessionId} (he : (Machine.execRetentionTimeOut sid t) =
    .next u) (h_regs : M.regs := by assumption) (h_out : M.out := by assumption) (h_dealer : M.dealer := by
    assumption) (h_faults : M.faults := by assumption) (h_links : M.links := by assumption) (h_sess : M.sess := by
    assumption) (h_ledger : M.ledger := by assumption) : Within M s u := by
  unfold Machine.execRetentionTimeOut at he
  simp only [Host.Outcome.next.injEq] at he
  subst he
  repeat' (first
      | (simp (maxDischargeDepth := 40) only [Within.endSession, h, true_or, or_true, and_self, implies_true, h_regs,
            h_out, h_dealer, h_faults, h_links, h_sess, h_ledger]; done)
      | dsimp only
      | split)

theorem Within.closeSession (h : Within M s t) {n : Nat} (h_regs : M.regs := by assumption) (h_out : M.out := by
    assumption) (h_dealer : M.dealer := by assumption) (h_faults : M.faults := by assumption) (h_links : M.links := by
    assumption) (h_sess : M.sess := by assumption) (h_ledger : M.ledger := by assumption) : Within M s
    (State.closeSession t n) := by
  unfold State.closeSession
  repeat' (first
      | (simp (maxDischargeDepth := 40) only [Within.endSession, h, true_or, or_true, and_self, implies_true, h_regs,
            h_out, h_dealer, h_faults, h_links, h_sess, h_ledger]; done)
      | dsimp only
      | split)

theorem Within.execVsnSctlClose (h : Within M s t) {sid : SessionId} (he : (Machine.execVsnSctlClose sid t) = .next u)
    (h_regs : M.regs := by assumption) (h_out : M.out := by assumption) (h_dealer : M.dealer := by assumption)
    (h_faults : M.faults := by assumption) (h_links : M.links := by assumption) (h_sess : M.sess := by assumption)
    (h_ledger : M.ledger := by assumption) : Within M s u := by
  unfold Machine.execVsnSctlClose at he
  simp only [Host.Outcome.next.injEq] at he
  subst he
  simp (maxDischargeDepth := 40) only [Within.closeSession, h, h_regs, h_out, h_dealer, h_faults, h_links, h_sess,
    h_ledger]

theorem Within.execVsnSctlReset (h : Within M s t) {sid : SessionId} (he : (Machine.execVsnSctlReset sid t) = .next u)
    (h_regs : M.regs := by assumption) (h_out : M.out := by assumption) (h_dealer : M.dealer := by assumption)
    (h_faults : M.faults := by assumption) (h_links : M.links := by assumption) (h_sess : M.sess := by assumption) :
    Within M s u := by
  unfold Machine.execVsnSctlReset at he
  simp only [Host.Outcome.next.injEq] at he
  subst he
  simp (maxDischargeDepth := 40) only [Within.resetSession, Within.ite, h, implies_true, h_regs, h_out, h_dealer,
    h_faults, h_links, h_sess]

theorem Within.setHolder (h : Within M s t) {p e : Nat} (h_regs : M.regs := by assumption) : Within M s
    (State.setHolder t p e) := by
  unfold State.setHolder
  simp (maxDischargeDepth := 40) only [Within.wr, h, h_regs]

theorem Within.notePause (h : Within M s t) (h_deck : M.deck := by assumption) : Within M s (State.notePause t) := by
  unfold State.notePause
  repeat' (first
      | (simp (maxDischargeDepth := 40) only [Within.upd, h, true_or, or_true, and_self, h_deck]; done)
      | split)

theorem Within.closeChan (h : Within M s t) {p : ActivePlan} {a2 ch : Nat} {atDeadline : Bool} (h_regs : M.regs := by
    assumption) (h_out : M.out := by assumption) (h_dealer : M.dealer := by assumption) (h_faults : M.faults := by
    assumption) (h_deck : M.deck := by assumption) : Within M s (State.closeChan t p a2 ch atDeadline) := by
  unfold State.closeChan
  simp (maxDischargeDepth := 40) only [Within.setChan, Within.wr, Within.event, Within.flag, Within.bump, Within.upd,
    Within.ite, h, true_or, or_true, and_self, implies_true, h_regs, h_out, h_dealer, h_faults, h_deck]

theorem Within.execRangeChannelClose (h : Within M s t) {a0 : Nat} {ch : Fin 1024} (he :
    (Machine.execRangeChannelClose a0 ch t) = .next u) (h_regs : M.regs := by assumption) (h_out : M.out := by
    assumption) (h_dealer : M.dealer := by assumption) (h_faults : M.faults := by assumption) (h_time : M.time := by
    assumption) (h_deck : M.deck := by assumption) : Within M s u := by
  unfold Machine.execRangeChannelClose at he
  simp only [Host.Outcome.next.injEq] at he
  subst he
  repeat' (first
      | (simp (maxDischargeDepth := 40) only [Within.closeChan, Within.reach, h, h_regs, h_out, h_dealer, h_faults,
            h_time, h_deck]; done)
      | split)

theorem Within.execDeckDeadline (h : Within M s t) {a0 : Nat} {ch : Fin 1024} (he : (Machine.execDeckDeadline a0 ch t)
    = .next u) (h_regs : M.regs := by assumption) (h_out : M.out := by assumption) (h_dealer : M.dealer := by
    assumption) (h_faults : M.faults := by assumption) (h_time : M.time := by assumption) (h_deck : M.deck := by
    assumption) : Within M s u := by
  unfold Machine.execDeckDeadline at he
  simp only [Host.Outcome.next.injEq] at he
  subst he
  repeat' (first
      | (simp (maxDischargeDepth := 40) only [Within.closeChan, Within.reach, h, h_regs, h_out, h_dealer, h_faults,
            h_time, h_deck]; done)
      | split)

theorem Within.lineRead (h : Within M s t) {L : Nat} (h_hbm : M.hbm := by assumption) : Within M s (State.lineRead t L) := by
  unfold State.lineRead
  repeat' (first
      | (simp (maxDischargeDepth := 40) only [Within.refl, Within.forN, Within.whenS, Within.activate, h, true_or, or_true, and_self, implies_true, h_hbm]; done)
      | dsimp only
      | split)

theorem Within.linesRead (h : Within M s t) {o : Nat} {n : Nat} (h_hbm : M.hbm := by assumption) : Within M s (State.linesRead t o n) := by
  unfold State.linesRead
  repeat' (first
      | (simp (maxDischargeDepth := 40) only [Within.refl, Within.lineRead, Within.foldl, h, true_or, or_true, and_self, implies_true, h_hbm]; done)
      | dsimp only
      | split)

theorem Within.cutRun (h : Within M s t) {p : ActivePlan} {a2 ch g run : Nat} {first : Bool} (h_regs : M.regs := by
    assumption) (h_faults : M.faults := by assumption) (h_deck : M.deck := by assumption) (h_hbm : M.hbm := by assumption) : Within M s (State.cutRun t
    p a2 ch g run first) := by
  unfold State.cutRun
  simp (maxDischargeDepth := 40) only [Within.linesRead, Within.foldl, Within.fault, Within.bump, Within.upd, Within.ite, Within.refl, h,
            true_or, or_true, and_self, implies_true, Within.whenS, h_regs, h_faults, h_deck, h_hbm]

theorem Within.readChan (h : Within M s t) {p : ActivePlan} {a2 ch : Nat} {first : Bool} (h_regs : M.regs := by
    assumption) (h_faults : M.faults := by assumption) (h_deck : M.deck := by assumption) (h_hbm : M.hbm := by assumption) : Within M s (State.readChan
    t p a2 ch first) := by
  unfold State.readChan
  simp (maxDischargeDepth := 40) only [Within.cutRun, Within.upd, Within.refl, h, true_or, or_true, and_self,
    implies_true, Within.forN, h_regs, h_faults, h_deck, h_hbm]

theorem Within.sendRuns (h : Within M s t) {a1 ch : Nat} {replay : Bool} {e : Nat} (h_engs : M.engs := by assumption)
    : Within M s (State.sendRuns t a1 ch replay e) := by
  unfold State.sendRuns
  simp (maxDischargeDepth := 40) only [Within.setEng, h, h_engs]

theorem Within.cutSend (h : Within M s t) {p : ActivePlan} {r : CutRead} {fuel : Nat} (h_engs : M.engs := by assumption) :
    Within M s (State.cutSend t p r fuel).1 := by
  induction fuel generalizing t r with
  | zero => exact h
  | succ n ih =>
    unfold State.cutSend
    dsimp only
    split
    · exact h
    · exact ih (Within.foldl (fun t _ => (Within.refl M t).setEng) h)

theorem Within.cutGo (h : Within M s t) (h_deck : M.deck := by assumption) (h_engs : M.engs := by assumption) : Within
    M s (State.cutGo t) := by
  unfold State.cutGo
  repeat' (first
      | (simp (maxDischargeDepth := 40) only [Within.cutSend, Within.upd, Within.ite, h, true_or, or_true, and_self,
            implies_true, h_deck, h_engs]; done)
      | dsimp only
      | split)

theorem Within.dropRereads (h : Within M s t) (h_deck : M.deck := by assumption) : Within M s (State.dropRereads t) :=
    by
  unfold State.dropRereads
  repeat' (first
      | (simp (maxDischargeDepth := 40) only [Within.upd, h, true_or, or_true, and_self, implies_true, h_deck]; done)
      | dsimp only
      | split)

theorem Within.reread (h : Within M s t) {a_t : Nat} {ch : Nat} {es : List Nat} {pos : Nat} (h_regs : M.regs := by
    assumption) (h_out : M.out := by assumption) (h_dealer : M.dealer := by assumption) (h_faults : M.faults := by
    assumption) (h_deck : M.deck := by assumption) (h_engs : M.engs := by assumption) (h_hbm : M.hbm := by assumption) : Within M s (State.reread t a_t
    ch es pos) := by
  unfold State.reread
  repeat' (first
      | (simp (maxDischargeDepth := 40) only [Within.readChan, Within.bump, Within.flag, Within.event,
            Within.sendRuns, Within.upd, Within.ite, Within.foldl, Within.refl, h, true_or, or_true, and_self,
            implies_true, h_regs, h_out, h_dealer, h_faults, h_deck, h_engs, h_hbm]; done)
      | dsimp only
      | split)

theorem Within.execCutRangeChannel (h : Within M s t) (he : (Machine.execCutRangeChannel t) = .next u) (h_regs :
    M.regs := by assumption) (h_faults : M.faults := by assumption) (h_deck : M.deck := by assumption) (h_engs :
    M.engs := by assumption) (h_hbm : M.hbm := by assumption) : Within M s u := by
  unfold Machine.execCutRangeChannel at he
  simp only [Host.Outcome.next.injEq] at he
  subst he
  repeat' (first
      | (simp (maxDischargeDepth := 40) only [Within.cutGo, Within.setChan, Within.readChan, Within.wr64, Within.wr,
            Within.sendRuns, Within.upd, Within.ite, Within.foldl, Within.refl, h, true_or, or_true, and_self,
            implies_true, h_regs, h_faults, h_deck, h_engs, h_hbm]; done)
      | dsimp only
      | split)

theorem Within.alloced (h : Within M s t) (h_plans : M.plans := by assumption) : Within M s (State.alloced t) := by
  unfold State.alloced
  simp (maxDischargeDepth := 40) only [Within.upd, h, true_or, or_true, and_self, h_plans]

theorem Within.showBases (h : Within M s t) {p : Option ActivePlan} (h_regs : M.regs := by assumption) : Within M s
    (State.showBases t p) := by
  unfold State.showBases
  repeat' (first | (simp (maxDischargeDepth := 40) only [Within.wr64, Within.flag, Within.wr, h, h_regs]; done) | split)

theorem Within.freeOutgoing (h : Within M s t) {p : ActivePlan} (h_regs : M.regs := by assumption) (h_deck : M.deck :=
    by assumption) (h_plans : M.plans := by assumption) (h_tricks : M.tricks := by assumption) : Within M s
    (State.freeOutgoing t p) := by
  unfold State.freeOutgoing
  repeat' (first
      | (simp (maxDischargeDepth := 40) only [Within.alloced, Within.wr, Within.setHolder, Within.showBases,
            Within.upd, Within.ite, Within.forN, Within.refl, Within.whenS, h, true_or, or_true, and_self,
            implies_true, h_regs, h_deck, h_plans, h_tricks]; done)
      | simp only [Within.upd_iff, true_or, or_true, and_self, h_regs, h_deck, h_plans, h_tricks]
      | split)

theorem Within.unlockDue (h : Within M s t) (h_regs : M.regs := by assumption) (h_beams : M.beams := by assumption) :
    Within M s (State.unlockDue t) := by
  unfold State.unlockDue
  repeat' (first
      | (simp (maxDischargeDepth := 40) only [Within.put, Within.upd, h, true_or, or_true, and_self, implies_true,
            h_regs, h_beams]; done)
      | dsimp only
      | split)

theorem Within.freeDue (h : Within M s t) (h_regs : M.regs := by assumption) (h_deck : M.deck := by assumption)
    (h_plans : M.plans := by assumption) (h_tricks : M.tricks := by assumption) : Within M s (State.freeDue t) := by
  unfold State.freeDue
  repeat' (first
      | (simp (maxDischargeDepth := 40) only [Within.freeOutgoing, Within.ite, h, true_or, or_true, and_self,
            implies_true, h_regs, h_deck, h_plans, h_tricks]; done)
      | dsimp only
      | split)

theorem Within.execRangeChannelRelease (h : Within M s t) {a_t : Nat} {ch : Fin 1024} (he :
    (Machine.execRangeChannelRelease a_t ch t) = .next u) (h_regs : M.regs := by assumption) (h_deck : M.deck := by
    assumption) (h_plans : M.plans := by assumption) (h_tricks : M.tricks := by assumption) (h_beams : M.beams := by
    assumption) : Within M s u := by
  unfold Machine.execRangeChannelRelease at he
  simp only [Host.Outcome.next.injEq] at he
  subst he
  repeat' (first
      | (simp (maxDischargeDepth := 40) only [Within.setChan, Within.unlockDue, Within.freeDue, Within.openDue,
            Within.upd, Within.ite, h, true_or, or_true, and_self, implies_true, h_regs, h_deck, h_plans, h_tricks,
            h_beams]; done)
      | dsimp only
      | split)

theorem Within.execAllot (h : Within M s t) {e : EngineId} (he : (Machine.execAllot e t) = .next u) (h_regs : M.regs
    := by assumption) (h_out : M.out := by assumption) (h_engs : M.engs := by assumption) : Within M s u := by
  unfold Machine.execAllot at he
  simp only [Host.Outcome.next.injEq] at he
  subst he
  repeat' (first
      | (simp (maxDischargeDepth := 40) only [Within.setEng, Within.wr, Within.flag, Within.send, Within.refl, h,
            implies_true, Within.whenS, h_regs, h_out, h_engs]; done)
      | split)

theorem Within.handOn (h : Within M s t) {a1 ch block g run : Nat} (h_deck : M.deck := by assumption) : Within M s
    (State.handOn t a1 ch block g run) := by
  unfold State.handOn
  simp (maxDischargeDepth := 40) only [Within.upd, Within.ite, h, true_or, or_true, and_self, implies_true, h_deck]

theorem Within.handRun (h : Within M s t) {p : ActivePlan} {g at0 ch b unit run : Nat}
    (he : State.handRun t p g at0 ch b unit run = some u) (h_deck : M.deck := by assumption)
    (h_engs : M.engs := by assumption) : Within M s u := by
  unfold State.handRun at he
  dsimp only at he
  split at he
  · split at he <;> cases he
    exact h.setEng
  · obtain ⟨_, _, rfl⟩ := Option.map_eq_some_iff.mp he
    exact h.handOn

theorem Within.execRunEnd (h : Within M s t) {e : EngineId} {unit run : Nat} (he : (Machine.execRunEnd e unit run t) =
    .next u) (h_regs : M.regs := by assumption) (h_deck : M.deck := by assumption) (h_engs : M.engs := by assumption) :
    Within M s u := by
  unfold Machine.execRunEnd at he
  simp only [Host.Outcome.next.injEq] at he
  subst he
  repeat' (first
      | exact h
      | exact (Within.handRun h ‹_›).setEng.bump64.bump64
      | split)

theorem Within.mergeLine (h : Within M s t) {base k : Nat} {init : Bool} {lead : Nat} {ps : List ShortCell} (h_regs :
    M.regs := by assumption) (h_faults : M.faults := by assumption) (h_hbm : M.hbm := by assumption) : Within M s
    (State.mergeLine t base k init lead ps) := by
  unfold State.mergeLine
  simp (maxDischargeDepth := 40) only [Within.fault, Within.hbmWrite, Within.flag, Within.bump, Within.updFresh,
    Within.ite, h, or_true, and_self, implies_true, h_regs, h_faults, h_hbm]

theorem Within.commitStats (h : Within M s t) {p : ActivePlan} {a2 ch : Nat} (h_regs : M.regs := by assumption)
    (h_faults : M.faults := by assumption) (h_deck : M.deck := by assumption) (h_hbm : M.hbm := by assumption) :
    Within M s (State.commitStats t p a2 ch) := by
  unfold State.commitStats
  repeat' (first
      | (simp (maxDischargeDepth := 40) only [Within.fault, Within.flag, Within.hbmWrite, Within.setChan, Within.ite,
            Within.refl, h, implies_true, Within.forN, Within.whenS, h_regs, h_faults, h_deck, h_hbm]; done)
      | split)

theorem Within.commitChan (h : Within M s t) {p : ActivePlan} {a2 ch : Nat} (h_regs : M.regs := by assumption) (h_out
    : M.out := by assumption) (h_dealer : M.dealer := by assumption) (h_faults : M.faults := by assumption) (h_deck :
    M.deck := by assumption) (h_hbm : M.hbm := by assumption) : Within M s (State.commitChan t p a2 ch) := by
  unfold State.commitChan
  simp (maxDischargeDepth := 40) only [Within.event, Within.setChan, Within.wr, Within.wr64, Within.send,
    Within.commitStats, Within.ite, Within.foldl, Within.refl, h, implies_true, h_regs, h_out, h_dealer, h_faults,
    h_deck, h_hbm]

theorem Within.execMerge (h : Within M s t) {a0 : Nat} {ch : Fin 1024} {unit : Nat} (he : (Machine.execMerge a0 ch
    unit t) = .next u) (h_regs : M.regs := by assumption) (h_out : M.out := by assumption) (h_dealer : M.dealer := by
    assumption) (h_faults : M.faults := by assumption) (h_deck : M.deck := by assumption) (h_hbm : M.hbm := by
    assumption) : Within M s u := by
  unfold Machine.execMerge at he
  simp only [Host.Outcome.next.injEq] at he
  subst he
  repeat' (first
      | (simp (maxDischargeDepth := 40) only [Within.mergeLine, Within.commitChan, Within.setChan, Within.ite,
            Within.refl, h, implies_true, Within.forN, h_regs, h_out, h_dealer, h_faults, h_deck, h_hbm]; done)
      | split)

theorem Within.recompute (h : Within M s t) {es : List Nat} {pos : Nat} (h_regs : M.regs := by assumption) (h_out :
    M.out := by assumption) (h_dealer : M.dealer := by assumption) (h_faults : M.faults := by assumption) (h_deck :
    M.deck := by assumption) (h_engs : M.engs := by assumption) (h_hbm : M.hbm := by assumption) : Within M s (State.recompute t es pos) := by
  unfold State.recompute
  simp (maxDischargeDepth := 40) only [Within.reread, Within.foldl, Within.refl, h, implies_true, h_regs, h_out,
    h_dealer, h_faults, h_deck, h_engs, h_hbm]

theorem Within.dropWork (h : Within M s t) {e : Nat} (h_engs : M.engs := by assumption) : Within M s (State.dropWork t
    e) := by
  unfold State.dropWork
  simp (maxDischargeDepth := 40) only [Within.setEng, h, h_engs]

theorem Within.newAllotment (h : Within M s t) {pos : Nat} (h_regs : M.regs := by assumption) (h_out : M.out := by
    assumption) (h_dealer : M.dealer := by assumption) (h_faults : M.faults := by assumption) (h_deck : M.deck := by
    assumption) (h_engs : M.engs := by assumption) (h_plans : M.plans := by assumption) (h_hbm : M.hbm := by assumption) : Within M s
    (State.newAllotment t pos) := by
  unfold State.newAllotment
  repeat' (first
      | (simp (maxDischargeDepth := 40) only [Within.setHolder, Within.wr, Within.dropRereads, Within.dropWork,
            Within.send, Within.recompute, Within.upd, Within.ite, Within.foldl, Within.refl, Within.forN, h, true_or,
            or_true, and_self, implies_true, h_regs, h_out, h_dealer, h_faults, h_deck, h_engs, h_plans, h_hbm]; done)
      | dsimp only
      | split)

theorem Within.retireEngine (h : Within M s t) {e cause : Nat} (h_regs : M.regs := by assumption) (h_out : M.out := by
    assumption) (h_dealer : M.dealer := by assumption) (h_faults : M.faults := by assumption) (h_deck : M.deck := by
    assumption) (h_engs : M.engs := by assumption) (h_plans : M.plans := by assumption) (h_ledger : M.ledger := by
    assumption) (h_hbm : M.hbm := by assumption) : Within M s (State.retireEngine t e cause) := by
  unfold State.retireEngine
  repeat' (first
      | (simp (maxDischargeDepth := 40) only [Within.ite, Within.partFault, Within.wr, Within.flag, Within.setEng, Within.newItem, Within.event,
            Within.repair, Within.send, Within.setHolder, Within.newAllotment, Within.upd, Within.refl, h,
            true_or, or_true, and_self, implies_true, Within.whenS, h_regs, h_out, h_dealer, h_faults, h_deck,
            h_engs, h_plans, h_ledger, h_hbm]; done)
      | dsimp only
      | split)

theorem Within.execEngCtlRetire (h : Within M s t) {e : EngineId} (he : (Machine.execEngCtlRetire e t) = .next u)
    (h_regs : M.regs := by assumption) (h_out : M.out := by assumption) (h_dealer : M.dealer := by assumption)
    (h_faults : M.faults := by assumption) (h_deck : M.deck := by assumption) (h_engs : M.engs := by assumption)
    (h_plans : M.plans := by assumption) (h_ledger : M.ledger := by assumption) (h_hbm : M.hbm := by assumption) : Within M s u := by
  unfold Machine.execEngCtlRetire at he
  simp only [Host.Outcome.next.injEq] at he
  subst he
  simp (maxDischargeDepth := 40) only [Within.retireEngine, Within.ite, h, implies_true, h_regs, h_out, h_dealer,
    h_faults, h_deck, h_engs, h_plans, h_ledger, h_hbm]

theorem Within.startRestore (h : Within M s t) {e : Nat} (h_regs : M.regs := by assumption) : Within M s
    (State.startRestore t e) := by
  unfold State.startRestore
  simp (maxDischargeDepth := 40) only [Within.wr, h, h_regs]

theorem Within.execEngCtlRestore (h : Within M s t) {e : EngineId} (he : (Machine.execEngCtlRestore e t) = .next u)
    (h_regs : M.regs := by assumption) : Within M s u := by
  unfold Machine.execEngCtlRestore at he
  simp only [Host.Outcome.next.injEq] at he
  subst he
  simp (maxDischargeDepth := 40) only [Within.startRestore, Within.ite, h, implies_true, h_regs]

theorem Within.loadKernel (h : Within M s t) {e : Nat} {p : ActivePlan} (h_engs : M.engs := by assumption) : Within M
    s (State.loadKernel t e p) := by
  unfold State.loadKernel
  simp (maxDischargeDepth := 40) only [Within.setEng, h, h_engs]

theorem Within.execSpareArrayCheckDone (h : Within M s t) {e : EngineId} {pass : Bool} (he :
    (Machine.execSpareArrayCheckDone e pass t) = .next u) (h_regs : M.regs := by assumption) (h_out : M.out := by
    assumption) (h_dealer : M.dealer := by assumption) (h_faults : M.faults := by assumption) (h_deck : M.deck := by
    assumption) (h_engs : M.engs := by assumption) (h_plans : M.plans := by assumption) (h_ledger : M.ledger := by
    assumption) (h_hbm : M.hbm := by assumption) : Within M s u := by
  unfold Machine.execSpareArrayCheckDone at he
  simp only [Host.Outcome.next.injEq] at he
  subst he
  repeat' (first
      | (simp (maxDischargeDepth := 40) only [Within.dropWork, Within.setHolder, Within.wr, Within.loadKernel,
            Within.recompute, Within.retireEngine, Within.fault, h, h_regs, h_out, h_dealer, h_faults, h_deck, h_engs,
            h_plans, h_ledger, h_hbm]; done)
      | split)

theorem Within.execEngineSelftestDone (h : Within M s t) {e : EngineId} {pass : Bool} (he :
    (Machine.execEngineSelftestDone e pass t) = .next u) (h_regs : M.regs := by assumption) (h_out : M.out := by
    assumption) (h_dealer : M.dealer := by assumption) (h_faults : M.faults := by assumption) (h_engs : M.engs := by
    assumption) (h_ledger : M.ledger := by assumption) : Within M s u := by
  unfold Machine.execEngineSelftestDone at he
  simp only [Host.Outcome.next.injEq] at he
  subst he
  simp (maxDischargeDepth := 40) only [Within.wr, Within.setEng, Within.endLongOf, Within.repair, Within.fault,
    Within.ite, Within.refl, h, implies_true, Within.whenS, h_regs, h_out, h_dealer, h_faults, h_engs, h_ledger]

theorem Within.execEngGctlRelease (h : Within M s t) (he : (Machine.execEngGctlRelease t) = .next u) (h_regs : M.regs
    := by assumption) : Within M s u := by
  unfold Machine.execEngGctlRelease at he
  simp only [Host.Outcome.next.injEq] at he
  subst he
  simp (maxDischargeDepth := 40) only [Within.wr, h, h_regs]

theorem Within.takeTemp (h : Within M s t) {g : Nat} {tj : Int} (h_regs : M.regs := by assumption) (h_faults : M.faults := by assumption) : Within M s (State.takeTemp t g tj) := by
  unfold State.takeTemp
  repeat' (first
      | (simp (maxDischargeDepth := 40) only [Within.setLive, Within.refl, Within.wr, Within.whenS, Within.fault, h, true_or, or_true, and_self,
            implies_true, h_regs, h_faults]; done)
      | dsimp only
      | split)

theorem Within.governor (h : Within M s t) {m : EngMeas} (h_regs : M.regs := by assumption) (h_out : M.out := by
    assumption) (h_dealer : M.dealer := by assumption) (h_faults : M.faults := by assumption) (h_deck : M.deck := by
    assumption) (h_engs : M.engs := by assumption) (h_plans : M.plans := by assumption) (h_ledger : M.ledger := by
    assumption) (h_hbm : M.hbm := by assumption) : Within M s (State.governor t m) := by
  unfold State.governor
  simp (maxDischargeDepth := 40) only [Within.takeTemp, Within.wr, Within.fault, Within.flag, Within.setEng, Within.retireEngine,
            Within.ite, Within.refl, h, implies_true, Within.whenS, h_regs, h_out, h_dealer, h_faults, h_deck,
            h_engs, h_plans, h_ledger, true_or, or_true, and_self, h_hbm]

theorem Within.retireSlow (h : Within M s t) {g : Nat} (h_regs : M.regs := by assumption) (h_out : M.out := by
    assumption) (h_dealer : M.dealer := by assumption) (h_faults : M.faults := by assumption) (h_deck : M.deck := by
    assumption) (h_engs : M.engs := by assumption) (h_plans : M.plans := by assumption) (h_ledger : M.ledger := by
    assumption) (h_hbm : M.hbm := by assumption) : Within M s (State.retireSlow t g) := by
  unfold State.retireSlow
  repeat' (first
      | (simp (maxDischargeDepth := 40) only [Within.fault, Within.retireEngine, Within.ite, h, true_or, or_true,
            and_self, implies_true, h_regs, h_out, h_dealer, h_faults, h_deck, h_engs, h_plans, h_ledger, h_hbm]; done)
      | dsimp only
      | split)

theorem Within.execGovernorMeasurement (h : Within M s t) {ms : List EngMeas} (he : (Machine.execGovernorMeasurement
    ms t) = .next u) (h_regs : M.regs := by assumption) (h_out : M.out := by assumption) (h_dealer : M.dealer := by
    assumption) (h_faults : M.faults := by assumption) (h_deck : M.deck := by assumption) (h_engs : M.engs := by
    assumption) (h_plans : M.plans := by assumption) (h_ledger : M.ledger := by assumption) (h_hbm : M.hbm := by assumption) : Within M s u := by
  unfold Machine.execGovernorMeasurement at he
  simp only [Host.Outcome.next.injEq] at he
  subst he
  repeat' (first
      | (simp (maxDischargeDepth := 40) only [Within.governor, Within.retireSlow, Within.ite, Within.foldl,
            Within.refl, h, true_or, or_true, and_self, implies_true, h_regs, h_out, h_dealer, h_faults, h_deck,
            h_engs, h_plans, h_ledger, h_hbm]; done)
      | dsimp only
      | split)

theorem Within.execPaceDeficitCheck (h : Within M s t) (he : (Machine.execPaceDeficitCheck t) = .next u) (h_regs :
    M.regs := by assumption) (h_out : M.out := by assumption) (h_dealer : M.dealer := by assumption) (h_faults :
    M.faults := by assumption) (h_links : M.links := by assumption) : Within M s u := by
  unfold Machine.execPaceDeficitCheck at he
  simp only [Host.Outcome.next.injEq] at he
  subst he
  repeat' (first
      | (simp (maxDischargeDepth := 40) only [Within.payCredits, Within.wr, Within.event, Within.flag,
            Within.resumeCredits, Within.upd, Within.ite, Within.refl, h, true_or, or_true, and_self, implies_true,
            Within.forN, h_regs, h_out, h_dealer, h_faults, h_links]; done)
      | split)

theorem Within.showPart (h : Within M s t) {p : Nat} (h_regs : M.regs := by assumption) : Within M s (State.showPart t
    p) := by
  unfold State.showPart
  simp (maxDischargeDepth := 40) only [Within.wr64, Within.wr, h, h_regs]

theorem Within.ringWrite (h : Within M s t) {p pos : Nat} {l : List Byte} (h_hbm : M.hbm := by assumption) : Within M
    s (State.ringWrite t p pos l) := by
  unfold State.ringWrite
  repeat' (first | (simp (maxDischargeDepth := 40) only [Within.hbmWrite, h, h_hbm]; done) | split)

theorem Within.pushPkt (h : Within M s t) {p : Nat} {k : Pkt} (h_regs : M.regs := by assumption) (h_outp : M.outp :=
    by assumption) (h_hbm : M.hbm := by assumption) : Within M s (State.pushPkt t p k) := by
  unfold State.pushPkt
  simp (maxDischargeDepth := 40) only [Within.showPart, Within.wr64, Within.setPart, Within.ringWrite, h, h_regs,
    h_outp, h_hbm]

theorem Within.tallyAdd (h : Within M s t) {trick p k n : Nat} (h_outp : M.outp := by assumption) : Within M s
    (State.tallyAdd t trick p k n) := by
  unfold State.tallyAdd
  simp (maxDischargeDepth := 40) only [Within.upd, h, true_or, or_true, and_self, h_outp]

theorem Within.flushPkt (h : Within M s t) {p stream : Nat} {last : Bool} (h_regs : M.regs := by assumption) (h_outp :
    M.outp := by assumption) (h_hbm : M.hbm := by assumption) : Within M s (State.flushPkt t p stream last) := by
  unfold State.flushPkt
  repeat' (first
      | (simp (maxDischargeDepth := 40) only [Within.pushPkt, Within.setPart, Within.tallyAdd, Within.ite, h,
            implies_true, h_regs, h_outp, h_hbm]; done)
      | dsimp only
      | split)

theorem Within.prodNext (h : Within M s t) {stream : Nat} (h_outp : M.outp := by assumption) : Within M s
    (State.prodNext t stream) := by
  unfold State.prodNext
  simp (maxDischargeDepth := 40) only [Within.upd, h, true_or, or_true, and_self, h_outp]

theorem Within.endStream (h : Within M s t) {stream : Nat} (h_regs : M.regs := by assumption) (h_outp : M.outp := by
    assumption) (h_hbm : M.hbm := by assumption) : Within M s (State.endStream t stream) := by
  unfold State.endStream
  simp (maxDischargeDepth := 40) only [Within.prodNext, Within.flushPkt, Within.upd, Within.ite, Within.refl, h,
    true_or, or_true, and_self, implies_true, Within.forN, h_regs, h_outp, h_hbm]

theorem Within.setOpen (h : Within M s t) {p stream : Nat} {k : Pkt} (h_outp : M.outp := by assumption) : Within M s
    (State.setOpen t p stream k) := by
  unfold State.setOpen
  simp (maxDischargeDepth := 40) only [Within.setPart, h, h_outp]

theorem Within.noteCell (h : Within M s t) {r : Rec} {begins : Bool} (h_outp : M.outp := by assumption) : Within M s
    (State.noteCell t r begins) := by
  unfold State.noteCell
  simp (maxDischargeDepth := 40) only [Within.upd, Within.ite, h, true_or, or_true, and_self, implies_true, h_outp]

theorem Within.putRec (h : Within M s t) {r : Rec} (h_regs : M.regs := by assumption) (h_outp : M.outp := by
    assumption) (h_hbm : M.hbm := by assumption) : Within M s (State.putRec t r) := by
  unfold State.putRec
  repeat' (first
      | (simp (maxDischargeDepth := 40) only [Within.endStream, Within.flag, Within.bump, Within.noteCell, Within.setOpen, Within.prodNext,
            Within.flushPkt, Within.ite, Within.refl, h, implies_true, Within.whenS, h_regs, h_outp, h_hbm,
            true_or, or_true, and_self]; done)
      | dsimp only
      | split)

theorem Within.detect (h : Within M s t) {p : ActivePlan} {t0 : Nat} {ch : Nat} {run : Nat} {b : Nat} {xs : List (Int × Int)} {n : Nat} (h_regs : M.regs := by assumption) (h_beams : M.beams := by assumption) (h_outp : M.outp := by assumption) (h_hbm : M.hbm := by assumption) : Within M s (State.detect t p t0 ch run b xs n) := by
  unfold State.detect
  repeat' (first
      | (simp (maxDischargeDepth := 40) only [Within.ite, Within.upd, Within.putRec, h, true_or, or_true, and_self, implies_true, h_regs, h_beams, h_outp, h_hbm]; done)
      | dsimp only
      | split)

theorem Within.discardSum (h : Within M s t) {n : Nat} (h_regs : M.regs := by assumption) : Within M s
    (State.discardSum t n) := by
  unfold State.discardSum
  simp (maxDischargeDepth := 40) only [Within.flag, Within.bump, Within.ite, h, implies_true, h_regs]

theorem Within.toDetection (h : Within M s t) {p : ActivePlan} {a2 ch block run : Nat} (h_regs : M.regs := by
    assumption) (h_beams : M.beams := by assumption) (h_outp : M.outp := by assumption) (h_hbm : M.hbm := by
    assumption) : Within M s (State.toDetection t p a2 ch block run) := by
  unfold State.toDetection
  simp (maxDischargeDepth := 40) only [Within.discardSum, Within.detect, Within.upd, Within.ite, Within.foldl, Within.refl, h, true_or,
            or_true, and_self, implies_true, h_regs, h_beams, h_outp, h_hbm]

theorem Within.feedSlot (h : Within M s t) {k at0 : Nat} {xs : List (Int × Int)} {count : Nat} (h_regs : M.regs := by
    assumption) (h_beams : M.beams := by assumption) : Within M s (State.feedSlot t k at0 xs count) := by
  unfold State.feedSlot
  simp (maxDischargeDepth := 40) only [Within.upd, Within.discardSum, Within.setZslot, Within.ite, h, implies_true, h_regs, h_beams,
            true_or, or_true, and_self]

theorem Within.feedNext (h : Within M s t) {k : Nat} {at0 : Nat} {xs : List (Int × Int)} {count : Nat} (h_regs :
    M.regs := by assumption) (h_beams : M.beams := by assumption) : Within M s (State.feedNext t k at0 xs count) := by
  unfold State.feedNext
  repeat' (first
      | (simp (maxDischargeDepth := 40) only [Within.discardSum, Within.setZslot, Within.upd, Within.ite, h, true_or,
            or_true, and_self, implies_true, h_regs, h_beams]; done)
      | dsimp only
      | split)

theorem Within.lineFresh (h : Within M s t) {L : Nat} (h_hbm : M.hbm := by assumption) : Within M s (State.lineFresh t L) := by
  unfold State.lineFresh
  repeat' (first
      | (simp (maxDischargeDepth := 40) only [Within.upd, Within.lineWrite, h, true_or, or_true, and_self, implies_true, h_hbm]; done)
      | dsimp only
      | split)

theorem Within.checkpoint (h : Within M s t) {k : Nat} {e : Nat} {start : Bool} (h_beams : M.beams := by assumption) (h_hbm : M.hbm := by assumption) :
    Within M s (State.checkpoint t k e start) := by
  unfold State.checkpoint
  repeat' (first
      | (simp (maxDischargeDepth := 40) only [Within.lineFresh, Within.upd, h, true_or, or_true, and_self, implies_true, h_beams, h_hbm]; done)
      | dsimp only
      | split)

theorem Within.toZoom (h : Within M s t) {p : ActivePlan} {a_t : Nat} {ch : Nat} {b : Nat} {run : Nat} (h_regs :
    M.regs := by assumption) (h_beams : M.beams := by assumption) (h_hbm : M.hbm := by assumption) : Within M s (State.toZoom t p a_t ch b run) := by
  unfold State.toZoom
  repeat' (first
      | (simp (maxDischargeDepth := 40) only [Within.feedSlot, Within.checkpoint, Within.feedNext, Within.ite, Within.foldl, Within.refl, h,
            true_or, or_true, and_self, implies_true, h_regs, h_beams, h_hbm]; done)
      | dsimp only
      | simp only [Within.upd_iff, true_or, or_true, and_self, h_regs, h_beams]
      | split)

theorem Within.readWeights (h : Within M s t) {p : ActivePlan} {t0 : Nat} {ch : Nat} {b : Nat} (h_hbm : M.hbm := by assumption) : Within M s (State.readWeights t p t0 ch b) := by
  unfold State.readWeights
  repeat' (first
      | (simp (maxDischargeDepth := 40) only [Within.refl, Within.linesRead, Within.foldl, h, true_or, or_true, and_self, implies_true, h_hbm]; done)
      | dsimp only
      | split)

theorem Within.execBeamSum (h : Within M s t) {a0 : Nat} {ch : Fin 1024} {block : Fin 16} {run : Nat} (he :
    (Machine.execBeamSum a0 ch block run t) = .next u) (h_regs : M.regs := by assumption) (h_faults : M.faults := by
    assumption) (h_deck : M.deck := by assumption) (h_beams : M.beams := by assumption) (h_outp : M.outp := by
    assumption) (h_hbm : M.hbm := by assumption) : Within M s u := by
  unfold Machine.execBeamSum at he
  simp only [Host.Outcome.next.injEq] at he
  subst he
  repeat' (first
      | (simp (maxDischargeDepth := 40) only [Within.readWeights, Within.fault, Within.toDetection, Within.toZoom, Within.upd, Within.ite,
            Within.foldl, Within.refl, h, true_or, or_true, and_self, implies_true, Within.whenS, h_regs,
            h_faults, h_deck, h_beams, h_outp, h_hbm]; done)
      | split)

theorem Within.setLong (h : Within M s t) {o o' : LongOp} (h_dealer : M.dealer := by assumption) : Within M s
    (State.setLong t o o') := by
  unfold State.setLong
  simp (maxDischargeDepth := 40) only [Within.upd, h, true_or, or_true, and_self, h_dealer]

theorem Within.beginWeight (h : Within M s t) (h_regs : M.regs := by assumption) (h_dealer : M.dealer := by
    assumption) (h_beams : M.beams := by assumption) : Within M s (State.beginWeight t) := by
  unfold State.beginWeight
  repeat' (first
      | (simp (maxDischargeDepth := 40) only [Within.unlockDue, Within.setLong, Within.ite, h, implies_true, h_regs,
            h_dealer, h_beams]; done)
      | dsimp only
      | split)

theorem Within.execWeightCommandBegin (h : Within M s t) (he : (Machine.execWeightCommandBegin t) = .next u) (h_regs :
    M.regs := by assumption) (h_dealer : M.dealer := by assumption) (h_beams : M.beams := by assumption) : Within M s
    u := by
  unfold Machine.execWeightCommandBegin at he
  simp only [Host.Outcome.next.injEq] at he
  subst he
  simp (maxDischargeDepth := 40) only [Within.beginWeight, h, h_regs, h_dealer, h_beams]

theorem Within.writeWeights (h : Within M s t) {w : WeightCmd} {g : WeightGeom} (h_regs : M.regs := by assumption)
    (h_hbm : M.hbm := by assumption) : Within M s (State.writeWeights t w g).1 := by
  unfold State.writeWeights
  repeat' (first
      | (simp (maxDischargeDepth := 40) only [Within.wr, Within.wr64, Within.hbmWrite, Within.flag, h, h_regs, h_hbm];
            done)
      | dsimp only
      | split)

theorem Within.copyWeights (h : Within M s t) {w : WeightCmd} (h_regs : M.regs := by assumption) (h_hbm : M.hbm := by
    assumption) : Within M s (State.copyWeights t w) := by
  unfold State.copyWeights
  simp (maxDischargeDepth := 40) only [Within.linesRead, Within.wr, Within.hbmWrite, Within.wr64, Within.ite, h, implies_true, h_regs,
            h_hbm, true_or, or_true, and_self]

theorem Within.execWeightCommandComplete (h : Within M s t) (he : (Machine.execWeightCommandComplete t) = .next u)
    (h_regs : M.regs := by assumption) (h_out : M.out := by assumption) (h_dealer : M.dealer := by assumption)
    (h_faults : M.faults := by assumption) (h_beams : M.beams := by assumption) (h_hbm : M.hbm := by assumption) :
    Within M s u := by
  unfold Machine.execWeightCommandComplete at he
  simp only [Host.Outcome.next.injEq] at he
  subst he
  repeat' (first
      | (simp (maxDischargeDepth := 40) only [Within.copyWeights, Within.writeWeights, Within.endLong,
            Within.beginWeight, Within.put, h, h_regs, h_out, h_dealer, h_faults, h_beams, h_hbm]; done)
      | split)

theorem Within.swapSets (h : Within M s t) {kinds d : Nat} (h_regs : M.regs := by assumption) (h_beams : M.beams := by
    assumption) : Within M s (State.swapSets t kinds d) := by
  unfold State.swapSets
  simp (maxDischargeDepth := 40) only [Within.wr, Within.flag, Within.wr64, Within.unlockDue, Within.upd, Within.ite,
    h, true_or, or_true, and_self, implies_true, h_regs, h_beams]

theorem Within.weightHandOver (h : Within M s t) {o : LongOp} {kinds d : Nat} (h_regs : M.regs := by assumption)
    (h_out : M.out := by assumption) (h_dealer : M.dealer := by assumption) (h_faults : M.faults := by assumption)
    (h_time : M.time := by assumption) (h_beams : M.beams := by assumption) : Within M s (State.weightHandOver t o
    kinds d) := by
  unfold State.weightHandOver
  repeat' (first
      | (simp (maxDischargeDepth := 40) only [Within.reach, Within.event, Within.flag, Within.swapSets, Within.wr64,
            Within.wr, Within.endLong, Within.ite, h, implies_true, h_regs, h_out, h_dealer, h_faults, h_time,
            h_beams]; done)
      | split)

theorem Within.execWeightHandOver (h : Within M s t) (he : (Machine.execWeightHandOver t) = .next u) (h_regs : M.regs
    := by assumption) (h_out : M.out := by assumption) (h_dealer : M.dealer := by assumption) (h_faults : M.faults :=
    by assumption) (h_time : M.time := by assumption) (h_beams : M.beams := by assumption) : Within M s u := by
  unfold Machine.execWeightHandOver at he
  simp only [Host.Outcome.next.injEq] at he
  subst he
  repeat' (first
      | (simp (maxDischargeDepth := 40) only [Within.weightHandOver, h, h_regs, h_out, h_dealer, h_faults, h_time,
            h_beams]; done)
      | split)

theorem Within.showSlot (h : Within M s t) {k : Nat} (h_regs : M.regs := by assumption) : Within M s (State.showSlot t
    k) := by
  unfold State.showSlot
  simp (maxDischargeDepth := 40) only [Within.setWord, Within.wr, Within.ite, h, implies_true, h_regs]

theorem Within.showZoom (h : Within M s t) (h_regs : M.regs := by assumption) : Within M s (State.showZoom t) := by
  unfold State.showZoom
  simp (maxDischargeDepth := 40) only [Within.wr, h, h_regs]

theorem Within.startSlot (h : Within M s t) {k : Nat} {q : ZoomPend} (h_regs : M.regs := by assumption) (h_beams :
    M.beams := by assumption) (h_hbm : M.hbm := by assumption) : Within M s (State.startSlot t k q) := by
  unfold State.startSlot
  repeat' (first
      | (simp (maxDischargeDepth := 40) only [Within.setZslot, Within.flag, Within.checkpoint, Within.upd, Within.ite, Within.whenS, Within.refl,
            h, true_or, or_true, and_self, implies_true, h_regs, h_beams, h_hbm]; done)
      | dsimp only
      | simp only [Within.upd_iff, true_or, or_true, and_self, h_regs, h_beams]
      | split)

theorem Within.execZoomSlotStart (h : Within M s t) {slot : Fin 64} (he : (Machine.execZoomSlotStart slot t) = .next
    u) (h_regs : M.regs := by assumption) (h_out : M.out := by assumption) (h_dealer : M.dealer := by assumption)
    (h_faults : M.faults := by assumption) (h_beams : M.beams := by assumption) (h_hbm : M.hbm := by assumption) : Within M s u := by
  unfold Machine.execZoomSlotStart at he
  simp only [Host.Outcome.next.injEq] at he
  subst he
  repeat' (first
      | (simp (maxDischargeDepth := 40) only [Within.startSlot, Within.showZoom, Within.showSlot, Within.endLongOf, Within.ite, h, implies_true,
            h_regs, h_out, h_dealer, h_faults, h_beams, true_or, or_true, and_self, h_hbm]; done)
      | split)

theorem Within.execZoomOutput (h : Within M s t) {slot : Fin 64} (he : (Machine.execZoomOutput slot t) = .next u)
    (h_regs : M.regs := by assumption) (h_beams : M.beams := by assumption) (h_outp : M.outp := by assumption) (h_hbm
    : M.hbm := by assumption) : Within M s u := by
  unfold Machine.execZoomOutput at he
  simp only [Host.Outcome.next.injEq] at he
  subst he
  repeat' (first
      | (simp (maxDischargeDepth := 40) only [Within.setZslot, Within.showSlot, Within.wr64, Within.putRec,
            Within.ite, h, implies_true, h_regs, h_beams, h_outp, h_hbm]; done)
      | split)

theorem Within.writeTap (h : Within M s t) {m i v : Nat} (h_regs : M.regs := by assumption) : Within M s
    (State.writeTap t m i v) := by
  unfold State.writeTap
  simp (maxDischargeDepth := 40) only [Within.flag, Within.wr, Within.ite, h, implies_true, h_regs]

theorem Within.execZomCoefWrite (h : Within M s t) {set : Fin 16} {tap : Fin 32} {v : Word} (he :
    (Machine.execZomCoefWrite set tap v t) = .next u) (h_regs : M.regs := by assumption) : Within M s u := by
  unfold Machine.execZomCoefWrite at he
  simp only [Host.Outcome.next.injEq] at he
  subst he
  simp (maxDischargeDepth := 40) only [Within.writeTap, h, h_regs]

theorem Within.planSlots (h : Within M s t) {p : Option ActivePlan} {c : Nat} (h_beams : M.beams := by assumption) :
    Within M s (State.planSlots t p c) := by
  unfold State.planSlots
  repeat' (first
      | (simp (maxDischargeDepth := 40) only [Within.forN, Within.setZslot, Within.ite, Within.refl, h, implies_true, h_beams, true_or, or_true,
            and_self]; done)
      | with_reducible refine Within.forN (fun t x => ?_) ?_
      | dsimp only
      | split)

theorem Within.restoreSlot (h : Within M s t) {k : Nat} {c : ZoomCkpt} (h_regs : M.regs := by assumption) (h_faults : M.faults := by assumption) (h_beams : M.beams := by assumption) : Within M s (State.restoreSlot t k c) := by
  unfold State.restoreSlot
  repeat' (first
      | (simp (maxDischargeDepth := 40) only [Within.ite, Within.setZslot, Within.fault, h, true_or, or_true, and_self, implies_true, h_regs, h_faults, h_beams]; done)
      | dsimp only
      | split)

theorem Within.restoreSlots (h : Within M s t) (h_regs : M.regs := by assumption) (h_beams : M.beams := by assumption) (h_faults : M.faults := by assumption) : Within M s (State.restoreSlots t) := by
  unfold State.restoreSlots
  repeat' (first
      | (simp (maxDischargeDepth := 40) only [Within.forN, Within.ite, Within.restoreSlot, Within.flag, Within.setZslot, Within.refl, h, h_regs,
            h_beams, true_or, or_true, and_self, implies_true, h_faults]; done)
      | with_reducible refine Within.forN (fun t x => ?_) ?_
      | with_reducible apply Within.flag
      | dsimp only
      | split)

end Sys2Proof.Machine
end

