-- ==== Sys2Proof/Laws/Within3.lean ====
section
/-! SUPPORT. Which parts of the state the operations and meanings of Machine/HostMem.lean, Machine/DmaCtl.lean,
Machine/Output.lean, Machine/EngineCore.lean may change (`Within`), one lemma each. -/

namespace Sys2Proof.Machine

set_option Elab.async false

variable {M : Mask} {s t u : State}

theorem Within.hostTimeout (h : Within M s t) {master type addr : Nat} (h_regs : M.regs := by assumption) (h_faults :
    M.faults := by assumption) : Within M s (State.hostTimeout t master type addr) := by
  unfold State.hostTimeout
  simp (maxDischargeDepth := 40) only [Within.raise, h, h_regs, h_faults]

theorem Within.fetchAt (h : Within M s t) {c addr : Nat} (h_regs : M.regs := by assumption) : Within M s
    (State.fetchAt t c addr) := by
  unfold State.fetchAt
  simp (maxDischargeDepth := 40) only [Within.wr64, Within.wr, h, h_regs]

theorem Within.stopChan (h : Within M s t) {c status st : Nat} (h_regs : M.regs := by assumption) : Within M s
    (State.stopChan t c status st) := by
  unfold State.stopChan
  simp (maxDischargeDepth := 40) only [Within.wr, h, h_regs]

theorem Within.dmaStart (h : Within M s t) {c : Nat} (h_regs : M.regs := by assumption) (h_dma : M.dma := by
    assumption) : Within M s (State.dmaStart t c) := by
  unfold State.dmaStart
  simp (maxDischargeDepth := 40) only [Within.flag, Within.setDmac, Within.fetchAt, Within.ite, h, implies_true,
    h_regs, h_dma]

theorem Within.queueBack (h : Within M s t) {c : Nat} {d : Desc} {status : Nat} {moved : Nat} (h_fab : M.fab := by assumption) : Within M s (State.queueBack t c d status moved) := by
  unfold State.queueBack
  repeat' (first
      | (simp (maxDischargeDepth := 40) only [Within.ite, Within.upd, h, true_or, or_true, and_self, implies_true, h_fab]; done)
      | dsimp only
      | split)

theorem Within.dmaAbort (h : Within M s t) {c : Nat} (h_regs : M.regs := by assumption) (h_dma : M.dma := by
    assumption) (h_fab : M.fab := by assumption) : Within M s (State.dmaAbort t c) := by
  unfold State.dmaAbort
  repeat' (first
      | (simp (maxDischargeDepth := 40) only [Within.queueBack, Within.flag, Within.setDmac, Within.stopChan, Within.ite, h, implies_true, h_regs,
            h_dma, true_or, or_true, and_self, h_fab]; done)
      | dsimp only
      | split)

theorem Within.restartDesc (h : Within M s t) {c : Nat} (h_regs : M.regs := by assumption) (h_dma : M.dma := by
    assumption) : Within M s (State.restartDesc t c) := by
  unfold State.restartDesc
  repeat' (first
      | (simp (maxDischargeDepth := 40) only [Within.ite, Within.upd, Within.setDmac, Within.wr, h, h_regs, h_dma, true_or, or_true, and_self,
            implies_true]; done)
      | dsimp only
      | split)

theorem Within.dmaResume (h : Within M s t) (h_regs : M.regs := by assumption) (h_dma : M.dma := by assumption) :
    Within M s (State.dmaResume t) := by
  unfold State.dmaResume
  simp (maxDischargeDepth := 40) only [Within.bump, Within.restartDesc, Within.wr, Within.ite, Within.refl, h,
    implies_true, Within.forN, h_regs, h_dma]

theorem Within.dmaHalt (h : Within M s t) {addr type : Nat} {last collide : Bool} (h_regs : M.regs := by assumption)
    (h_out : M.out := by assumption) (h_dealer : M.dealer := by assumption) (h_faults : M.faults := by assumption) (h_dma : M.dma := by assumption) :
    Within M s (State.dmaHalt t addr type last collide) := by
  unfold State.dmaHalt
  simp (maxDischargeDepth := 40) only [Within.setDmac, Within.stopChan, Within.put, Within.wr, Within.wr64, Within.flag, Within.event,
            Within.ite, Within.refl, h, implies_true, Within.forN, h_regs, h_out, h_dealer, h_faults, true_or,
            or_true, and_self, h_dma]

theorem Within.busError (h : Within M s t) {addr type : Nat} {collide : Bool} (h_regs : M.regs := by assumption)
    (h_out : M.out := by assumption) (h_dealer : M.dealer := by assumption) (h_faults : M.faults := by assumption) (h_dma : M.dma := by assumption) :
    Within M s (State.busError t addr type collide) := by
  unfold State.busError
  simp (maxDischargeDepth := 40) only [Within.raise, Within.dmaHalt, h, h_regs, h_out, h_dealer, h_faults, h_dma]

theorem Within.execDmaStart (h : Within M s t) {c : DmaChan} (he : (Machine.execDmaStart c t) = .next u) (h_regs :
    M.regs := by assumption) (h_dma : M.dma := by assumption) : Within M s u := by
  unfold Machine.execDmaStart at he
  simp only [Host.Outcome.next.injEq] at he
  subst he
  simp (maxDischargeDepth := 40) only [Within.dmaStart, h, h_regs, h_dma]

theorem Within.unmapped (h : Within M s t) {a : Access} {ty : Nat} (h_regs : M.regs := by assumption) (h_faults :
    M.faults := by assumption) : Within M s (State.unmapped t a ty).st := by
  unfold State.unmapped
  simp (maxDischargeDepth := 40) only [Within.fabRefuse, h, h_regs, h_faults]

theorem Within.notOwner (h : Within M s t) {b master type addr : Nat} (h_regs : M.regs := by assumption) (h_faults :
    M.faults := by assumption) : Within M s (State.notOwner t b master type addr) := by
  unfold State.notOwner
  simp (maxDischargeDepth := 40) only [Within.raise, Within.flag, h, h_regs, h_faults]

theorem Within.refusedBy (h : Within M s t) {a : Access} {ty source kind : Nat} (h_regs : M.regs := by assumption)
    (h_faults : M.faults := by assumption) : Within M s (State.refusedBy t a ty source kind).st := by
  unfold State.refusedBy
  simp (maxDischargeDepth := 40) only [Within.raise, h, h_regs, h_faults]

theorem Within.collided (h : Within M s t) (h_regs : M.regs := by assumption) : Within M s (State.collided t).st := by
  unfold State.collided
  simp (maxDischargeDepth := 40) only [Within.flag, Within.bump, h, h_regs]

theorem Within.spdPut (h : Within M s t) {o : Nat} {l : List Byte} (h_spd : M.spd := by assumption) : Within M s
    (State.spdPut t o l) :=
  h.trans { Within.refl M t with
    keeps := .of rfl rfl (Nat.le_refl _) rfl fun w => ⟨w.1, w.2.1, twf_tsetMany _ _ _ _ w.2.2.1, w.2.2.2⟩, spd := .inl
      h_spd }

theorem Within.spdHit (h : Within M s t) {o : Nat} {n : Nat} (h_spd : M.spd := by assumption) : Within M s (State.spdHit t o n) := by
  unfold State.spdHit
  repeat' (first
      | (simp (maxDischargeDepth := 40) only [Within.upd, h, true_or, or_true, and_self, implies_true, h_spd]; done)
      | dsimp only
      | split)

theorem Within.spdAccess (h : Within M s t) {a : Access} {ty o : Nat} {data : List Byte} (h_regs : M.regs := by
    assumption) (h_faults : M.faults := by assumption) (h_spd : M.spd := by assumption) : Within M s (State.spdAccess
    t a ty o data).st := by
  unfold State.spdAccess
  repeat' (first
      | (simp (maxDischargeDepth := 40) only [Within.refl, Within.ite, Within.whenS, Within.spdHit, Within.notOwner, Within.collided,
            Within.spdPut, Within.refusedBy, Within.flag, h, h_regs, h_faults, h_spd, true_or, or_true,
            and_self, implies_true]; done)
      | dsimp only
      | split)

theorem Within.secureAccess (h : Within M s t) {a : Access} {ty o : Nat} {data : List Byte} (h_regs : M.regs := by
    assumption) (h_faults : M.faults := by assumption) (h_sec : M.sec := by assumption) : Within M s
    (State.secureAccess t a ty o data).st := by
  unfold State.secureAccess
  repeat' (first
      | (simp (maxDischargeDepth := 40) only [Within.ite, Within.refusedBy, Within.drawn, Within.upd, h, true_or, or_true, and_self, h_regs,
            h_faults, h_sec, implies_true]; done)
      | split)

theorem Within.bootAccess (h : Within M s t) {a : Access} {ty : Nat} {data : List Byte} (h_regs : M.regs := by
    assumption) (h_faults : M.faults := by assumption) (h_spd : M.spd := by assumption) : Within M s (State.bootAccess
    t a ty data).st := by
  unfold State.bootAccess
  repeat' (first
      | (simp (maxDischargeDepth := 40) only [Within.spdAccess, Within.unmapped, h, h_regs, h_faults, h_spd]; done)
      | split)

theorem Within.latchAt (h : Within M s t) {m o v : Nat} (h_fab : M.fab := by assumption) : Within M s (State.latchAt t
    m o v) := by
  unfold State.latchAt
  simp (maxDischargeDepth := 40) only [Within.upd, h, true_or, or_true, and_self, h_fab]

theorem Within.clearRc (h : Within M s t) {o : Nat} (h_regs : M.regs := by assumption) : Within M s (State.clearRc t
    o) := by
  unfold State.clearRc
  repeat' (first
      | (simp (maxDischargeDepth := 40) only [Within.setWord, Within.ite, h, implies_true, h_regs]; done)
      | split)

theorem Within.readWord (h : Within M s t) {m o : Nat} (h_regs : M.regs := by assumption) (h_fab : M.fab := by
    assumption) (h_hbm : M.hbm := by assumption) : Within M s (State.readWord t m o).1 := by
  unfold State.readWord
  repeat' (first
      | (simp (maxDischargeDepth := 40) only [Within.upd, Within.latchAt, Within.clearRc, Within.drawn, Within.forN, Within.refl, Within.ite,
            Within.whenS, h, implies_true, h_regs, h_fab, true_or, or_true, and_self, h_hbm]; done)
      | split)

theorem Within.readReg (h : Within M s t) {m o : Nat} {w : Word} (he : State.readReg t m o = some (u, w)) (h_regs :
    M.regs := by assumption) (h_fab : M.fab := by assumption) (h_hbm : M.hbm := by assumption) : Within M s u := by
  unfold State.readReg at he
  split at he
  · cases he
  · split at he
    · cases he; exact h
    · have k := h.readWord (m := m) (o := o)
      rw [Option.some.inj he] at k
      exact k

theorem Within.regRefuse (h : Within M s t) {m type o : Nat} (h_regs : M.regs := by assumption) (h_faults : M.faults
    := by assumption) : Within M s (State.regRefuse t m type o) := by
  unfold State.regRefuse
  simp (maxDischargeDepth := 40) only [Within.raise, h, h_regs, h_faults]

theorem Within.setOwner (h : Within M s t) {m b owner : Nat} (h_regs : M.regs := by assumption) (h_faults : M.faults
    := by assumption) : Within M s (State.setOwner t m b owner).1 := by
  unfold State.setOwner
  repeat' (first
      | (simp (maxDischargeDepth := 40) only [Within.wr, Within.notOwner, h, h_regs, h_faults]; done)
      | split)

theorem Within.setAperture (h : Within M s t) {v : Nat} (h_regs : M.regs := by assumption) : Within M s
    (State.setAperture t v) := by
  unfold State.setAperture
  simp (maxDischargeDepth := 40) only [Within.wr64, Within.flag, Within.ite, h, implies_true, h_regs]

theorem Within.writeRemap (h : Within M s t) {m : Nat} {v : Bool} (h_regs : M.regs := by assumption) : Within M s
    (State.writeRemap t m v) := by
  unfold State.writeRemap
  simp (maxDischargeDepth := 40) only [Within.wr, Within.ite, h, implies_true, h_regs]

theorem Within.zeroGroup (h : Within M s t) {g : Nat} (h_spd : M.spd := by assumption) : Within M s (State.zeroGroup t
    g) :=
  h.trans { Within.refl M t with
    keeps := .of rfl rfl (Nat.le_refl _) rfl fun w => ⟨w.1, w.2.1, twf_filter _ _ _ w.2.2.1, w.2.2.2⟩, spd := .inl
      h_spd }

theorem Within.groupHealed (h : Within M s t) {g : Nat} (h_spd : M.spd := by assumption) (h_power : M.power := by assumption) : Within M s (State.groupHealed t g) := by
  unfold State.groupHealed
  repeat' (first
      | (simp (maxDischargeDepth := 40) only [Within.upd, Within.zeroGroup, h, true_or, or_true, and_self, implies_true, h_spd, h_power]; done)
      | dsimp only
      | split)

theorem Within.powerGroup (h : Within M s t) {g : Nat} {want : Bool} (h_regs : M.regs := by assumption) (h_spd : M.spd
    := by assumption) (h_power : M.power := by assumption) : Within M s (State.powerGroup t g want) := by
  unfold State.powerGroup
  simp (maxDischargeDepth := 40) only [Within.groupHealed, Within.wr, Within.zeroGroup, Within.flag, Within.ite, h, implies_true, h_regs,
            h_spd, true_or, or_true, and_self, h_power]

theorem Within.setSpdPwr (h : Within M s t) {req : Nat} (h_regs : M.regs := by assumption) (h_spd : M.spd := by
    assumption) (h_power : M.power := by assumption) : Within M s (State.setSpdPwr t req) := by
  unfold State.setSpdPwr
  simp (maxDischargeDepth := 40) only [Within.powerGroup, Within.refl, h, implies_true, Within.forN, h_regs, h_spd, h_power]

theorem Within.pins (h : Within M s t) (h_regs : M.regs := by assumption) : Within M s (State.pins t) := by
  unfold State.pins
  simp (maxDischargeDepth := 40) only [Within.put, h, h_regs]

theorem Within.summaryRecord (h : Within M s t) {n cls : Nat} {c : Capture} {dsn : Nat} (h_ledger : M.ledger := by
    assumption) : Within M s (State.summaryRecord t n cls c dsn) := by
  unfold State.summaryRecord
  simp (maxDischargeDepth := 40) only [Within.record, Within.ite, h, implies_true, h_ledger]

theorem Within.ackFault (h : Within M s t) {n cls : Nat} {byReg : Bool} (h_regs : M.regs := by assumption) (h_out :
    M.out := by assumption) (h_dealer : M.dealer := by assumption) (h_faults : M.faults := by assumption) (h_ledger :
    M.ledger := by assumption) : Within M s (State.ackFault t n cls byReg) := by
  unfold State.ackFault
  repeat' (first
      | (simp (maxDischargeDepth := 40) only [Within.setCapture, Within.event, Within.pins, Within.summaryRecord, h,
            h_regs, h_out, h_dealer, h_faults, h_ledger]; done)
      | split)

theorem Within.execFltAck (h : Within M s t) {v : Word} (he : (Machine.execFltAck v t) = .next u) (h_regs : M.regs :=
    by assumption) (h_out : M.out := by assumption) (h_dealer : M.dealer := by assumption) (h_faults : M.faults := by
    assumption) (h_ledger : M.ledger := by assumption) : Within M s u := by
  unfold Machine.execFltAck at he
  simp only [Host.Outcome.next.injEq] at he
  subst he
  simp (maxDischargeDepth := 40) only [Within.ackFault, Within.ite, h, implies_true, h_regs, h_out, h_dealer,
    h_faults, h_ledger]

theorem Within.setReaction (h : Within M s t) {n cls : Nat} {r : Reaction} (h_faults : M.faults := by assumption) :
    Within M s (State.setReaction t n cls r) := by
  unfold State.setReaction
  simp (maxDischargeDepth := 40) only [Within.upd, h, true_or, or_true, and_self, h_faults]

theorem Within.writeReact (h : Within M s t) {m v : Nat} (h_regs : M.regs := by assumption) (h_faults : M.faults := by
    assumption) : Within M s (State.writeReact t m v) := by
  unfold State.writeReact
  simp (maxDischargeDepth := 40) only [Within.flag, Within.setReaction, Within.ite, h, implies_true, h_regs, h_faults]

theorem Within.execTimTrimLow (h : Within M s t) {v : Word} (he : (Machine.execTimTrimLow v t) = .next u) (h_time :
    M.time := by assumption) : Within M s u := by
  unfold Machine.execTimTrimLow at he
  simp only [Host.Outcome.next.injEq] at he
  subst he
  simp (maxDischargeDepth := 40) only [Within.upd, h, true_or, or_true, and_self, h_time]

theorem Within.setRate (h : Within M s t) (h_regs : M.regs := by assumption) (h_faults : M.faults := by assumption) :
    Within M s (State.setRate t) := by
  unfold State.setRate
  simp (maxDischargeDepth := 40) only [Within.setLive, Within.wr64, Within.fault, Within.flag, Within.put, Within.ite, h, implies_true,
            h_regs, h_faults, true_or, or_true, and_self]

theorem Within.execTimTrimHigh (h : Within M s t) {v : Word} (he : (Machine.execTimTrimHigh v t) = .next u) (h_regs :
    M.regs := by assumption) (h_faults : M.faults := by assumption) (h_time : M.time := by assumption) : Within M s u
    := by
  unfold Machine.execTimTrimHigh at he
  simp only [Host.Outcome.next.injEq] at he
  subst he
  simp (maxDischargeDepth := 40) only [Within.setRate, Within.wr64, Within.flag, Within.upd, Within.ite, h, true_or,
    or_true, and_self, implies_true, h_regs, h_faults, h_time]

theorem Within.plainWrite (h : Within M s t) {o v : Nat} (h_regs : M.regs := by assumption) : Within M s
    (State.plainWrite t o v) := by
  unfold State.plainWrite
  repeat' (first | (simp (maxDischargeDepth := 40) only [Within.setWord, h, h_regs]; done) | split)

theorem Within.wrIf (h : Within M s t) {ok : Bool} {f : Fld} {i v : Nat} (h_regs : M.regs := by assumption) : Within M
    s (State.wrIf t ok f i v) := by
  unfold State.wrIf
  simp (maxDischargeDepth := 40) only [Within.wr, Within.ite, h, implies_true, h_regs]

theorem Within.setSteer (h : Within M s t) {v : Int} {active : Bool} (h_regs : M.regs := by assumption) (h_faults :
    M.faults := by assumption) (h_time : M.time := by assumption) : Within M s (State.setSteer t v active) := by
  unfold State.setSteer
  simp (maxDischargeDepth := 40) only [Within.setRate, Within.put, Within.upd, h, true_or, or_true, and_self, h_regs,
    h_faults, h_time]

theorem Within.writeOutctl (h : Within M s t) {v : Nat} (h_regs : M.regs := by assumption) (h_faults : M.faults := by
    assumption) (h_time : M.time := by assumption) : Within M s (State.writeOutctl t v) := by
  unfold State.writeOutctl
  repeat' (first
      | (simp (maxDischargeDepth := 40) only [Within.wrIf, Within.wr, Within.setSteer, Within.ite, h, true_or,
            or_true, and_self, implies_true, h_regs, h_faults, h_time]; done)
      | dsimp only
      | split)

theorem Within.writeRefCtl (h : Within M s t) {v : Nat} (h_regs : M.regs := by assumption) : Within M s
    (State.writeRefCtl t v) := by
  unfold State.writeRefCtl
  simp (maxDischargeDepth := 40) only [Within.wrIf, h, h_regs]

theorem Within.writeRef (h : Within M s t) {r v o : Nat} (h_regs : M.regs := by assumption) : Within M s
    (State.writeRef t r v o) := by
  unfold State.writeRef
  simp (maxDischargeDepth := 40) only [Within.plainWrite, Within.ite, h, implies_true, h_regs]

theorem Within.setPtpPort (h : Within M s t) {port : Nat} (h_regs : M.regs := by assumption) (h_faults : M.faults :=
    by assumption) (h_time : M.time := by assumption) : Within M s (State.setPtpPort t port) := by
  unfold State.setPtpPort
  simp (maxDischargeDepth := 40) only [Within.wr, Within.fault, Within.upd, Within.refl, h, true_or, or_true, and_self,
    implies_true, Within.whenS, h_regs, h_faults, h_time]

theorem Within.writePtpCtl (h : Within M s t) {v : Nat} (h_regs : M.regs := by assumption) (h_faults : M.faults := by
    assumption) (h_time : M.time := by assumption) : Within M s (State.writePtpCtl t v) := by
  unfold State.writePtpCtl
  simp (maxDischargeDepth := 40) only [Within.wr, Within.setPtpPort, Within.ite, h, implies_true, h_regs, h_faults,
    h_time]

theorem Within.writeDmaChan (h : Within M s t) {c r v o : Nat} (h_regs : M.regs := by assumption) (h_dma : M.dma := by
    assumption) (h_fab : M.fab := by assumption) : Within M s (State.writeDmaChan t c r v o) := by
  unfold State.writeDmaChan
  simp (maxDischargeDepth := 40) only [Within.flag, Within.setDmac, Within.plainWrite, Within.wrIf, Within.wr,
    Within.dmaStart, Within.dmaAbort, Within.ite, h, implies_true, h_regs, h_dma, h_fab]

theorem Within.writeSel (h : Within M s t) {m v : Nat} (h_faults : M.faults := by assumption) : Within M s
    (State.writeSel t m v) := by
  unfold State.writeSel
  simp (maxDischargeDepth := 40) only [Within.upd, h, true_or, or_true, and_self, h_faults]

theorem Within.rearm (h : Within M s t) (h_regs : M.regs := by assumption) : Within M s (State.rearm t) := by
  unfold State.rearm
  simp (maxDischargeDepth := 40) only [Within.wr, h, h_regs]

theorem Within.refNow (h : Within M s t) {o : Nat} (h_time : M.time := by assumption) : Within M s (State.refNow t o) := by
  unfold State.refNow
  repeat' (first
      | (simp (maxDischargeDepth := 40) only [Within.ite, Within.upd, h, true_or, or_true, and_self, implies_true, h_time]; done)
      | dsimp only
      | split)

theorem Within.writeLow (h : Within M s t) {m o v : Nat} (h_regs : M.regs := by assumption) (h_out : M.out := by
    assumption) (h_dealer : M.dealer := by assumption) (h_faults : M.faults := by assumption) (h_time : M.time := by
    assumption) (h_spd : M.spd := by assumption) (h_ledger : M.ledger := by assumption) (h_dma : M.dma := by
    assumption) (h_fab : M.fab := by assumption) (h_power : M.power := by assumption) : Within M s (State.writeLow t m o v) := by
  unfold State.writeLow
  repeat' with_reducible (first
    | exact h | exact h.plainWrite | exact h.wrIf | exact h.wr.wrIf | exact h.rearm
    | exact h.writeSel | exact h.writeReact | exact h.writeRemap | exact h.setAperture | exact h.writeDmaChan | exact
      h.setSpdPwr
    | exact h.refNow.writeOutctl | exact h.refNow.writeRefCtl | exact h.refNow.writeRef | exact h.refNow.wrIf | exact h.writePtpCtl | exact h.wr.dmaResume |
      exact h.wr
    | refine Within.ite (fun _ => ?_) (fun _ => ?_))
  · exact .ofExec (f := Machine.execFltAck _) (fun _ _ => (Within.refl _ _).execFltAck) h
  · exact .ofExec (f := Machine.execTimTrimLow _) (fun _ _ => (Within.refl _ _).execTimTrimLow) h
  · exact .ofExec (f := Machine.execTimTrimHigh _) (fun _ _ => (Within.refl _ _).execTimTrimHigh) h

theorem Within.showTricks (h : Within M s t) (h_regs : M.regs := by assumption) : Within M s (State.showTricks t) := by
  unfold State.showTricks
  simp (maxDischargeDepth := 40) only [Within.wr, Within.put, h, h_regs]

theorem Within.forgetTricks (h : Within M s t) (h_tricks : M.tricks := by assumption) : Within M s (State.forgetTricks
    t) := by
  unfold State.forgetTricks
  simp (maxDischargeDepth := 40) only [Within.upd, h, true_or, or_true, and_self, h_tricks]

theorem Within.release (h : Within M s t) {first : Nat} {byCommand : Bool} (h_regs : M.regs := by assumption) (h_out :
    M.out := by assumption) (h_dealer : M.dealer := by assumption) (h_faults : M.faults := by assumption) (h_tricks :
    M.tricks := by assumption) (h_ledger : M.ledger := by assumption) : Within M s (State.release t first byCommand)
    := by
  unfold State.release
  simp (maxDischargeDepth := 40) only [Within.wr64, Within.event, Within.record, Within.forgetTricks,
    Within.showTricks, Within.upd, h, true_or, or_true, and_self, h_regs, h_out, h_dealer, h_faults, h_tricks,
    h_ledger]

theorem Within.askRelease (h : Within M s t) {first : Nat} (h_regs : M.regs := by assumption) (h_out : M.out := by
    assumption) (h_dealer : M.dealer := by assumption) (h_faults : M.faults := by assumption) (h_tricks : M.tricks :=
    by assumption) (h_ledger : M.ledger := by assumption) : Within M s (State.askRelease t first).1 := by
  unfold State.askRelease
  repeat' (first
      | (simp (maxDischargeDepth := 40) only [Within.flag, Within.release, h, h_regs, h_out, h_dealer, h_faults,
            h_tricks, h_ledger]; done)
      | dsimp only
      | split)

theorem Within.execOutRelhi (h : Within M s t) {high : Word} (he : (Machine.execOutRelhi high t) = .next u) (h_regs :
    M.regs := by assumption) (h_out : M.out := by assumption) (h_dealer : M.dealer := by assumption) (h_faults :
    M.faults := by assumption) (h_tricks : M.tricks := by assumption) (h_ledger : M.ledger := by assumption) : Within
    M s u := by
  unfold Machine.execOutRelhi at he
  simp only [Host.Outcome.next.injEq] at he
  subst he
  simp (maxDischargeDepth := 40) only [Within.askRelease, h, h_regs, h_out, h_dealer, h_faults, h_tricks, h_ledger]

theorem Within.execOutHrd (h : Within M s t) {v : Word} (he : (Machine.execOutHrd v t) = .next u) (h_regs : M.regs :=
    by assumption) : Within M s u := by
  unfold Machine.execOutHrd at he
  simp only [Host.Outcome.next.injEq] at he
  subst he
  simp (maxDischargeDepth := 40) only [Within.wr, Within.flag, Within.ite, h, implies_true, h_regs]

theorem Within.setDeadline (h : Within M s t) {ms : Nat} (h_regs : M.regs := by assumption) (h_deck : M.deck := by
    assumption) : Within M s (State.setDeadline t ms) := by
  unfold State.setDeadline
  simp (maxDischargeDepth := 40) only [Within.wr, Within.upd, h, true_or, or_true, and_self, h_regs, h_deck]

theorem Within.writeVlkCtl (h : Within M s t) {l : Fin 24} {v : Nat} (h_regs : M.regs := by assumption) (h_out : M.out
    := by assumption) (h_dealer : M.dealer := by assumption) (h_faults : M.faults := by assumption) (h_lanes : M.lanes
    := by assumption) (h_links : M.links := by assumption) (h_power : M.power := by assumption) : Within M s (State.writeVlkCtl t l v) := by
  unfold State.writeVlkCtl
  extract_lets i tr was test raw own s0 s1 s2 s3 s4 s6 s7 s8
  have h0 : Within M s s0 := h.latchRaw.settle
  have h1 : Within M s s1 := .ite (fun _ => h0.wr) (fun _ => h0.flag)
  have h2 : Within M s s2 := .ite (fun _ => h1.testRate) (fun _ => h1)
  have h3 : Within M s s3 := h2.wr.wr
  have h4 : Within M s s4 := h3.laneMode
  clear_value s4
  have h6 : Within M s s6 := .ite (fun _ => h4.enterRaw) (fun _ => h4)
  have h7 : Within M s s7 := .ite (fun _ => .ofExec (f := Machine.execBitslip l) (fun _ _ => (Within.refl _
    _).execBitslip) h6) (fun _ => h6)
  have h8 : Within M s s8 := .ite (fun _ => .ofExec (f := Machine.execRestart l) (fun _ _ => (Within.refl _
    _).execRestart) h7) (fun _ => h7)
  exact (Within.ite (fun _ => .ofExec (f := Machine.execCntclr l) (fun _ _ => (Within.refl _ _).execCntclr) h8)
    (fun _ => h8)).showLine

theorem Within.writePgen (h : Within M s t) {l : Nat} {v : Nat} (h_regs : M.regs := by assumption) (h_lanes : M.lanes
    := by assumption) : Within M s (State.writePgen t l v) := by
  unfold State.writePgen
  repeat' (first
      | (simp (maxDischargeDepth := 40) only [Within.latchRaw, Within.enterRaw, Within.settle, Within.wr, Within.startGen, Within.flag,
            Within.ite, h, true_or, or_true, and_self, implies_true, h_regs, h_lanes]; done)
      | dsimp only
      | split)

theorem Within.writePchk (h : Within M s t) {l : Fin 24} {v : Nat} (h_regs : M.regs := by assumption) (h_lanes :
    M.lanes := by assumption) : Within M s (State.writePchk t l v) := by
  unfold State.writePchk
  extract_lets i pat s1
  have h1 : Within M s s1 := h.settle.wr.wr
  exact .ite (fun _ => h1.wr.wr.flag) (fun _ => .ite
    (fun _ => .ofExec (f := Machine.execVlkPchkEn l) (fun _ _ => (Within.refl _ _).execVlkPchkEn) h1) (fun _ =>
      h1.wr.wr))

theorem Within.writeInj (h : Within M s t) {l : Fin 24} {v : Nat} (h_regs : M.regs := by assumption) (h_lanes :
    M.lanes := by assumption) : Within M s (State.writeInj t l v) := by
  unfold State.writeInj
  extract_lets i k s1 s2 s3
  have h1 : Within M s s1 := h.settle.wr
  have h2 : Within M s s2 := .ite (fun _ => h1.wr.wr) (fun _ => h1.flag)
  have h3 : Within M s s3 := .ite
    (fun _ => .ofExec (f := Machine.execBurst l (BitVec.ofNat 8 (bitsOf v 2 8))) (fun _ _ => (Within.refl _
      _).execBurst) h2) (fun _ => h2)
  exact .ite (fun _ => .ofExec (f := Machine.execSingle l) (fun _ _ => (Within.refl _ _).execSingle) h3) (fun _ => h3)

theorem Within.writeLane (h : Within M s t) {l : Fin 24} {r v o : Nat} (h_regs : M.regs := by assumption) (h_out :
    M.out := by assumption) (h_dealer : M.dealer := by assumption) (h_faults : M.faults := by assumption) (h_lanes :
    M.lanes := by assumption) (h_links : M.links := by assumption) (h_power : M.power := by assumption) : Within M s (State.writeLane t l r v o) := by
  unfold State.writeLane
  simp (maxDischargeDepth := 40) only [Within.writeVlkCtl, Within.writePgen, Within.writePchk, Within.writeInj,
    Within.flag, Within.plainWrite, Within.ite, h, implies_true, h_regs, h_out, h_dealer, h_faults, h_lanes, h_links, h_power]

theorem Within.powerOffHome (h : Within M s t) {l : Nat} (h_regs : M.regs := by assumption) (h_out : M.out := by assumption) (h_dealer : M.dealer := by assumption) (h_faults : M.faults := by assumption) (h_lanes : M.lanes := by assumption) (h_links : M.links := by assumption) : Within M s (State.powerOffHome t l) := by
  unfold State.powerOffHome
  repeat' (first
      | (simp (maxDischargeDepth := 40) only [Within.ite, Within.wr, Within.setLane, Within.loseLane, Within.laneOff, Within.endLongOf, h,
            true_or, or_true, and_self, implies_true, h_regs, h_out, h_dealer, h_faults, h_lanes, h_links]; done)
      | dsimp only
      | split)

theorem Within.disableBundle (h : Within M s t) {b : Nat} (h_regs : M.regs := by assumption) (h_out : M.out := by
    assumption) (h_dealer : M.dealer := by assumption) (h_faults : M.faults := by assumption) (h_lanes : M.lanes := by
    assumption) (h_links : M.links := by assumption) (h_power : M.power := by assumption) : Within M s (State.disableBundle t b) := by
  unfold State.disableBundle
  simp (maxDischargeDepth := 40) only [Within.takeHome, Within.powerOffHome, Within.foldl, Within.bundleState, Within.setBundle,
            Within.setPos, Within.leaveService, Within.wr, Within.loseLane, Within.laneOff, Within.ite,
            Within.refl, h, implies_true, Within.forN, h_regs, h_out, h_dealer, h_faults, h_lanes, true_or,
            or_true, and_self, h_links, h_power]

theorem Within.enableBundle (h : Within M s t) {b : Nat} (h_regs : M.regs := by assumption) (h_out : M.out := by
    assumption) (h_dealer : M.dealer := by assumption) (h_faults : M.faults := by assumption) (h_lanes : M.lanes := by
    assumption) (h_links : M.links := by assumption) (h_power : M.power := by assumption) : Within M s (State.enableBundle t b) := by
  unfold State.enableBundle
  repeat' (first
      | (simp (maxDischargeDepth := 40) only [Within.climbOrOff, Within.ite, Within.forN, Within.refl, h, true_or,
            or_true, and_self, implies_true, h_regs, h_out, h_dealer, h_faults, h_lanes, h_links, h_power]; done)
      | dsimp only
      | split)

theorem Within.writeBctl (h : Within M s t) {b : Fin 5} {v : Nat} (h_regs : M.regs := by assumption) (h_out : M.out :=
    by assumption) (h_dealer : M.dealer := by assumption) (h_faults : M.faults := by assumption) (h_lanes : M.lanes :=
    by assumption) (h_links : M.links := by assumption) (h_power : M.power := by assumption) : Within M s (State.writeBctl t b v) := by
  unfold State.writeBctl
  extract_lets i was s1 s2
  have h1 : Within M s s1 := h.wr.wr.wr
  have h2 : Within M s s2 := .ite (fun _ => h1.disableBundle) (fun _ => .ite (fun _ => h1.enableBundle) (fun _ => h1))
  exact .ite (fun _ => .ofExec (f := Machine.execVlkBctlReset b) (fun _ _ => (Within.refl _ _).execVlkBctlReset) h2)
    (fun _ => h2)

theorem Within.writeEngCtl (h : Within M s t) {e : Fin 96} {v : Nat} (h_regs : M.regs := by assumption) (h_out : M.out
    := by assumption) (h_dealer : M.dealer := by assumption) (h_faults : M.faults := by assumption) (h_deck : M.deck
    := by assumption) (h_engs : M.engs := by assumption) (h_plans : M.plans := by assumption) (h_ledger : M.ledger :=
    by assumption) (h_hbm : M.hbm := by assumption) : Within M s (State.writeEngCtl t e v) := by
  unfold State.writeEngCtl
  extract_lets s1
  have h1 : Within M s s1 :=
    .ite (fun _ => .ofExec (f := Machine.execEngCtlRetire e) (fun _ _ => (Within.refl _ _).execEngCtlRetire) h) (fun _
      => h)
  exact .ite (fun _ => .ofExec (f := Machine.execEngCtlRestore e) (fun _ _ => (Within.refl _ _).execEngCtlRestore) h1)
    (fun _ => h1)

theorem Within.writeEngGctl (h : Within M s t) {v : Nat} (h_regs : M.regs := by assumption) : Within M s
    (State.writeEngGctl t v) := by
  unfold State.writeEngGctl
  extract_lets s1
  have h1 : Within M s s1 := h.wrIf.wr
  exact .ite (fun _ => .ofExec (f := Machine.execEngGctlRelease) (fun _ _ => (Within.refl _ _).execEngGctlRelease) h1)
    (fun _ => h1)

theorem Within.writeHctl (h : Within M s t) {v : Nat} (h_regs : M.regs := by assumption) : Within M s (State.writeHctl
    t v) := by
  unfold State.writeHctl
  simp (maxDischargeDepth := 40) only [Within.wrIf, Within.wr, Within.ite, h, implies_true, h_regs]

theorem Within.execPciSqtail (h : Within M s t) {q : QpId} {v : BitVec 12} (he : (Machine.execPciSqtail q v t) = .next
    u) (h_regs : M.regs := by assumption) : Within M s u := by
  unfold Machine.execPciSqtail at he
  simp only [Host.Outcome.next.injEq] at he
  subst he
  simp (maxDischargeDepth := 40) only [Within.ite, Within.wr, h, h_regs, true_or, or_true, and_self, implies_true]

theorem Within.execPciCqhead (h : Within M s t) {q : QpId} {v : BitVec 12} (he : (Machine.execPciCqhead q v t) = .next
    u) (h_regs : M.regs := by assumption) : Within M s u := by
  unfold Machine.execPciCqhead at he
  simp only [Host.Outcome.next.injEq] at he
  subst he
  simp (maxDischargeDepth := 40) only [Within.ite, Within.wr, h, h_regs, true_or, or_true, and_self, implies_true]

theorem Within.execPciQcfgEn (h : Within M s t) {q : QpId} {en : Bool} (he : (Machine.execPciQcfgEn q en t) = .next u)
    (h_regs : M.regs := by assumption) : Within M s u := by
  unfold Machine.execPciQcfgEn at he
  simp only [Host.Outcome.next.injEq] at he
  subst he
  simp (maxDischargeDepth := 40) only [Within.put, Within.wr, Within.ite, h, implies_true, h_regs, true_or, or_true, and_self]

theorem Within.writeQcfg (h : Within M s t) {q : Fin 16} {v : Nat} (h_regs : M.regs := by assumption) : Within M s
    (State.writeQcfg t q v) := by
  unfold State.writeQcfg
  extract_lets i a b s1
  have h1 : Within M s s1 := .ite (fun _ => h) (fun _ => h.wrIf.wrIf.wr.wr)
  exact .ite (fun _ => h1) (fun _ => .ofExec (f := Machine.execPciQcfgEn q (bitOf v 15)) (fun _ _ => (Within.refl _
    _).execPciQcfgEn) h1)

theorem Within.writeQueue2 (h : Within M s t) {q : Fin 16} {r v o : Nat} (h_regs : M.regs := by assumption) : Within M
    s (State.writeQueue2 t q r v o) := by
  unfold State.writeQueue2
  repeat' with_reducible refine Within.ite (fun _ => ?_) (fun _ => ?_)
  · exact h
  · exact h.plainWrite
  · exact h.writeQcfg
  · exact .ofExec (f := Machine.execPciSqtail q _) (fun _ _ => (Within.refl _ _).execPciSqtail) h
  · exact .ofExec (f := Machine.execPciCqhead q _) (fun _ _ => (Within.refl _ _).execPciCqhead) h
  · exact h.plainWrite

theorem Within.writeHigh (h : Within M s t) {o v : Nat} (h_regs : M.regs := by assumption) (h_out : M.out := by
    assumption) (h_dealer : M.dealer := by assumption) (h_faults : M.faults := by assumption) (h_lanes : M.lanes := by
    assumption) (h_links : M.links := by assumption) (h_sess : M.sess := by assumption) (h_deck : M.deck := by
    assumption) (h_engs : M.engs := by assumption) (h_plans : M.plans := by assumption) (h_tricks : M.tricks := by
    assumption) (h_ledger : M.ledger := by assumption) (h_hbm : M.hbm := by assumption) (h_power : M.power := by assumption) : Within M s (State.writeHigh t o v) := by
  unfold State.writeHigh
  repeat' with_reducible (first
    | exact h | exact h.plainWrite | exact h.wrIf | exact h.writeLane | exact h.writeBctl
    | exact h.setDeadline | exact h.writeEngCtl | exact h.writeEngGctl | exact h.writeTap | exact h.writeHctl | exact
      h.writeQueue2
    | refine Within.ite (fun _ => ?_) (fun _ => ?_))
  · exact .ofExec (f := Machine.execVsnSctlReset _) (fun _ _ => (Within.refl _ _).execVsnSctlReset)
      (.ite (fun _ => .ofExec (f := Machine.execVsnSctlClose _) (fun _ _ => (Within.refl _ _).execVsnSctlClose) h)
        (fun _ => h))
  · exact .ofExec (f := Machine.execVsnSctlClose _) (fun _ _ => (Within.refl _ _).execVsnSctlClose) h
  · exact .ofExec (f := Machine.execOutRelhi _) (fun _ _ => (Within.refl _ _).execOutRelhi) h
  · exact .ofExec (f := Machine.execOutHrd _) (fun _ _ => (Within.refl _ _).execOutHrd) h

theorem Within.writeReg (h : Within M s t) {m o : Nat} {v : Word} (h_regs : M.regs := by assumption) (h_out : M.out :=
    by assumption) (h_dealer : M.dealer := by assumption) (h_faults : M.faults := by assumption) (h_time : M.time :=
    by assumption) (h_lanes : M.lanes := by assumption) (h_links : M.links := by assumption) (h_sess : M.sess := by
    assumption) (h_deck : M.deck := by assumption) (h_engs : M.engs := by assumption) (h_plans : M.plans := by
    assumption) (h_tricks : M.tricks := by assumption) (h_spd : M.spd := by assumption) (h_ledger : M.ledger := by
    assumption) (h_dma : M.dma := by assumption) (h_hbm : M.hbm := by assumption) (h_fab : M.fab := by assumption) (h_power : M.power := by assumption) : Within M s (State.writeReg t m o v).1 := by
  unfold State.writeReg
  repeat' (first
      | (simp (maxDischargeDepth := 40) only [Within.regRefuse, Within.setOwner, Within.writeLow, Within.writeHigh, h,
            h_regs, h_out, h_dealer, h_faults, h_time, h_lanes, h_links, h_sess, h_deck, h_engs, h_plans, h_tricks,
            h_spd, h_ledger, h_dma, h_hbm, h_fab, h_power]; done)
      | split)

theorem Within.regAccess (h : Within M s t) {a : Access} {ty o : Nat} {data : List Byte} (h_regs : M.regs := by
    assumption) (h_out : M.out := by assumption) (h_dealer : M.dealer := by assumption) (h_faults : M.faults := by
    assumption) (h_time : M.time := by assumption) (h_lanes : M.lanes := by assumption) (h_links : M.links := by
    assumption) (h_sess : M.sess := by assumption) (h_deck : M.deck := by assumption) (h_engs : M.engs := by
    assumption) (h_plans : M.plans := by assumption) (h_tricks : M.tricks := by assumption) (h_spd : M.spd := by
    assumption) (h_ledger : M.ledger := by assumption) (h_fab : M.fab := by assumption) (h_dma : M.dma := by
    assumption) (h_hbm : M.hbm := by assumption) (h_power : M.power := by assumption) : Within M s (State.regAccess t a ty o data).st := by
  unfold State.regAccess
  repeat' (first
      | (simp (maxDischargeDepth := 40) only [Within.regRefuse, Within.writeReg, h, h_regs, h_out, h_dealer, h_faults,
            h_time, h_lanes, h_links, h_sess, h_deck, h_engs, h_plans, h_tricks, h_spd, h_ledger, h_fab, h_dma, h_hbm, h_power]; done)
      | exact Within.readReg (by assumption) (by assumption)
      | dsimp only
      | split)

theorem Within.putBank (h : Within M s t) {e : Nat} {b : Nat} {o : Nat} {v : Byte} (h_engs : M.engs := by assumption)
    : Within M s (State.putBank t e b o v) := by
  unfold State.putBank
  repeat' (first
      | (simp (maxDischargeDepth := 40) only [Within.setEng, Within.upd, h, true_or, or_true, and_self, implies_true,
            h_engs]; done)
      | dsimp only
      | split)

theorem Within.putWin (h : Within M s t) {e : Nat} {region : Nat} {w : Nat} {v : Byte} (h_engs : M.engs := by
    assumption) : Within M s (State.putWin t e region w v) := by
  unfold State.putWin
  repeat' (first
      | (simp (maxDischargeDepth := 40) only [Within.setEng, Within.putBank, Within.upd, Within.ite, h, true_or,
            or_true, and_self, implies_true, h_engs]; done)
      | dsimp only
      | split)

theorem Within.windowPut (h : Within M s t) {e : Nat} {region : Nat} {o : Nat} {l : List Byte} (h_engs : M.engs := by
    assumption) : Within M s (State.windowPut t e region o l) := by
  unfold State.windowPut
  repeat' (first
      | (simp (maxDischargeDepth := 40) only [Within.setCore, Within.putWin, Within.upd, Within.ite, Within.foldl,
            Within.refl, h, true_or, or_true, and_self, implies_true, h_engs]; done)
      | dsimp only
      | split)

theorem Within.windowAccess (h : Within M s t) {a : Access} {ty o : Nat} {data : List Byte} (h_regs : M.regs := by
    assumption) (h_faults : M.faults := by assumption) (h_engs : M.engs := by assumption) : Within M s
    (State.windowAccess t a ty o data).st := by
  unfold State.windowAccess
  repeat' (first
      | (simp (maxDischargeDepth := 40) only [Within.unmapped, Within.refusedBy, Within.flag, Within.windowPut,
            Within.drawn, h, h_regs, h_faults, h_engs]; done)
      | dsimp only
      | split)

theorem Within.ledgerAccess (h : Within M s t) {a : Access} {ty o : Nat} (h_regs : M.regs := by assumption) (h_faults
    : M.faults := by assumption) : Within M s (State.ledgerAccess t a ty o).st := by
  unfold State.ledgerAccess
  repeat' (first
      | (simp (maxDischargeDepth := 40) only [Within.refusedBy, Within.unmapped, h, h_regs, h_faults]; done)
      | dsimp only
      | split)

theorem Within.hbmAccess (h : Within M s t) {a : Access} {ty o : Nat} {data : List Byte} (h_regs : M.regs := by
    assumption) (h_faults : M.faults := by assumption) (h_hbm : M.hbm := by assumption) : Within M s (State.hbmAccess
    t a ty o data).st := by
  unfold State.hbmAccess
  repeat' (first
      | (simp (maxDischargeDepth := 40) only [Within.ite, Within.linesRead, Within.unmapped, Within.refusedBy, Within.flag, Within.hbmWrite,
            Within.fault, h, h_regs, h_faults, h_hbm, true_or, or_true, and_self, implies_true]; done)
      | dsimp only
      | split)

theorem Within.outAccess (h : Within M s t) {a : Access} {ty o : Nat} {data : List Byte} (h_regs : M.regs := by
    assumption) (h_out : M.out := by assumption) (h_faults : M.faults := by assumption) : Within M s (State.outAccess
    t a ty o data).st := by
  unfold State.outAccess
  repeat' (first
      | (simp (maxDischargeDepth := 40) only [Within.unmapped, Within.hostTimeout, Within.hostWrite, h, h_regs, h_out,
            h_faults]; done)
      | dsimp only
      | split)

theorem Within.bus (h : Within M s t) {a : Access} {ty : Nat} {data : List Byte} (h_regs : M.regs := by assumption)
    (h_out : M.out := by assumption) (h_dealer : M.dealer := by assumption) (h_faults : M.faults := by assumption)
    (h_time : M.time := by assumption) (h_lanes : M.lanes := by assumption) (h_links : M.links := by assumption)
    (h_sess : M.sess := by assumption) (h_deck : M.deck := by assumption) (h_engs : M.engs := by assumption) (h_plans
    : M.plans := by assumption) (h_tricks : M.tricks := by assumption) (h_hbm : M.hbm := by assumption) (h_spd : M.spd
    := by assumption) (h_sec : M.sec := by assumption) (h_ledger : M.ledger := by assumption) (h_fab : M.fab := by
    assumption) (h_dma : M.dma := by assumption) (h_power : M.power := by assumption) : Within M s (State.bus t a ty data).st := by
  unfold State.bus
  repeat' (first
      | (simp (maxDischargeDepth := 40) only [Within.unmapped, Within.bootAccess, Within.spdAccess,
            Within.secureAccess, Within.regAccess, Within.windowAccess, Within.ledgerAccess, Within.hbmAccess,
            Within.outAccess, h, h_regs, h_out, h_dealer, h_faults, h_time, h_lanes, h_links, h_sess, h_deck, h_engs,
            h_plans, h_tricks, h_hbm, h_spd, h_sec, h_ledger, h_fab, h_dma, h_power]; done)
      | dsimp only
      | split)

theorem Within.hold (h : Within M s t) {a : Access} {ty : Nat} {data : List Byte} {last : Bool} (h_fab : M.fab := by
    assumption) : Within M s (State.hold t a ty data last) := by
  unfold State.hold
  simp (maxDischargeDepth := 40) only [Within.upd, h, true_or, or_true, and_self, h_fab]

theorem Within.setLock (h : Within M s t) {m : Nat} {x : Option Lock} (h_fab : M.fab := by assumption) : Within M s
    (State.setLock t m x) := by
  unfold State.setLock
  simp (maxDischargeDepth := 40) only [Within.upd, h, true_or, or_true, and_self, h_fab]

theorem Within.breakLock (h : Within M s t) {m ty addr : Nat} (h_regs : M.regs := by assumption) (h_faults : M.faults
    := by assumption) (h_fab : M.fab := by assumption) : Within M s (State.breakLock t m ty addr) := by
  unfold State.breakLock
  simp (maxDischargeDepth := 40) only [Within.raise, Within.flag, Within.setLock, h, h_regs, h_faults, h_fab]

theorem Within.errorOnly (h : Within M s t)  : Within M s (State.errorOnly t).st := by
  unfold State.errorOnly
  simp (maxDischargeDepth := 40) only [h]

theorem Within.lockedAccess (h : Within M s t) {a : Access} {ty : Nat} {data : List Byte} {last : Bool} (h_regs :
    M.regs := by assumption) (h_out : M.out := by assumption) (h_dealer : M.dealer := by assumption) (h_faults :
    M.faults := by assumption) (h_time : M.time := by assumption) (h_lanes : M.lanes := by assumption) (h_links :
    M.links := by assumption) (h_sess : M.sess := by assumption) (h_deck : M.deck := by assumption) (h_engs : M.engs
    := by assumption) (h_plans : M.plans := by assumption) (h_tricks : M.tricks := by assumption) (h_hbm : M.hbm := by
    assumption) (h_spd : M.spd := by assumption) (h_sec : M.sec := by assumption) (h_ledger : M.ledger := by
    assumption) (h_fab : M.fab := by assumption) (h_dma : M.dma := by assumption) (h_power : M.power := by assumption) : Within M s (State.lockedAccess t a
    ty data last).st := by
  unfold State.lockedAccess
  repeat' (first
      | (simp (maxDischargeDepth := 40) only [Within.ite, Within.unmapped, Within.errorOnly, Within.breakLock, Within.setLock, Within.bus,
            Within.upd, h, true_or, or_true, and_self, h_regs, h_out, h_dealer, h_faults, h_time, h_lanes,
            h_links, h_sess, h_deck, h_engs, h_plans, h_tricks, h_hbm, h_spd, h_sec, h_ledger, h_fab, h_dma,
            implies_true, h_power]; done)
      | dsimp only
      | split)

theorem Within.serve (h : Within M s t) {a : Access} {ty : Nat} {data : List Byte} {last : Bool} (h_regs : M.regs := by assumption) (h_out : M.out := by assumption) (h_dealer : M.dealer := by assumption) (h_faults : M.faults := by assumption) (h_time : M.time := by assumption) (h_lanes : M.lanes := by assumption) (h_links : M.links := by assumption) (h_sess : M.sess := by assumption) (h_deck : M.deck := by assumption) (h_engs : M.engs := by assumption) (h_plans : M.plans := by assumption) (h_tricks : M.tricks := by assumption) (h_hbm : M.hbm := by assumption) (h_spd : M.spd := by assumption) (h_sec : M.sec := by assumption) (h_ledger : M.ledger := by assumption) (h_fab : M.fab := by assumption) (h_dma : M.dma := by assumption) (h_power : M.power := by assumption) : Within M s (State.serve t a ty data last) := by
  unfold State.serve
  split
  · exact h.hold
  · split
    · exact Within.answerOf h.lockedAccess
    · exact Within.answerOf h.bus

theorem Within.access (h : Within M s t) {a : Access} {ty : Nat} {data : List Byte} {last : Bool} (h_regs : M.regs :=
    by assumption) (h_out : M.out := by assumption) (h_dealer : M.dealer := by assumption) (h_faults : M.faults := by
    assumption) (h_time : M.time := by assumption) (h_lanes : M.lanes := by assumption) (h_links : M.links := by
    assumption) (h_sess : M.sess := by assumption) (h_deck : M.deck := by assumption) (h_engs : M.engs := by
    assumption) (h_plans : M.plans := by assumption) (h_tricks : M.tricks := by assumption) (h_hbm : M.hbm := by
    assumption) (h_spd : M.spd := by assumption) (h_sec : M.sec := by assumption) (h_ledger : M.ledger := by
    assumption) (h_fab : M.fab := by assumption) (h_dma : M.dma := by assumption) (h_power : M.power := by assumption) :
    Within M s (State.access t a ty data last) := by
  unfold State.access
  split
  · exact h
  · split
    · exact Within.answerOf h.unmapped
    · exact h.serve

theorem Within.serveOne (h : Within M s t) {k : HeldAccess} (h_regs : M.regs := by assumption) (h_out : M.out := by assumption) (h_dealer : M.dealer := by assumption) (h_faults : M.faults := by assumption) (h_time : M.time := by assumption) (h_lanes : M.lanes := by assumption) (h_links : M.links := by assumption) (h_sess : M.sess := by assumption) (h_deck : M.deck := by assumption) (h_engs : M.engs := by assumption) (h_plans : M.plans := by assumption) (h_tricks : M.tricks := by assumption) (h_hbm : M.hbm := by assumption) (h_spd : M.spd := by assumption) (h_sec : M.sec := by assumption) (h_ledger : M.ledger := by assumption) (h_fab : M.fab := by assumption) (h_dma : M.dma := by assumption) (h_power : M.power := by assumption) : Within M s (State.serveOne t k) := by
  unfold State.serveOne
  split
  · exact h.serve
  · split
    · exact h.upd
    · dsimp only
      split
      · exact h.bus
      · exact h.bus.busError

theorem Within.serveHeld (h : Within M s t) (h_regs : M.regs := by assumption) (h_out : M.out := by assumption)
    (h_dealer : M.dealer := by assumption) (h_faults : M.faults := by assumption) (h_time : M.time := by assumption)
    (h_lanes : M.lanes := by assumption) (h_links : M.links := by assumption) (h_sess : M.sess := by assumption)
    (h_deck : M.deck := by assumption) (h_engs : M.engs := by assumption) (h_plans : M.plans := by assumption)
    (h_tricks : M.tricks := by assumption) (h_hbm : M.hbm := by assumption) (h_spd : M.spd := by assumption) (h_sec :
    M.sec := by assumption) (h_ledger : M.ledger := by assumption) (h_fab : M.fab := by assumption) (h_dma : M.dma :=
    by assumption) (h_power : M.power := by assumption) : Within M s (State.serveHeld t) := by
  unfold State.serveHeld
  simp (maxDischargeDepth := 40) only [Within.serveOne, Within.access, Within.upd, Within.foldl, Within.refl, h, true_or, or_true,
            and_self, implies_true, h_regs, h_out, h_dealer, h_faults, h_time, h_lanes, h_links, h_sess, h_deck,
            h_engs, h_plans, h_tricks, h_hbm, h_spd, h_sec, h_ledger, h_fab, h_dma, h_power]

theorem Within.execAbort (h : Within M s t) {c : DmaChan} (he : (Machine.execAbort c t) = .next u) (h_regs : M.regs :=
    by assumption) (h_dma : M.dma := by assumption) (h_out : M.out := by assumption) (h_dealer : M.dealer := by assumption) (h_faults : M.faults := by assumption) (h_time : M.time := by assumption) (h_lanes : M.lanes := by assumption) (h_links : M.links := by assumption) (h_sess : M.sess := by assumption) (h_deck : M.deck := by assumption) (h_engs : M.engs := by assumption) (h_plans : M.plans := by assumption) (h_tricks : M.tricks := by assumption) (h_hbm : M.hbm := by assumption) (h_spd : M.spd := by assumption) (h_sec : M.sec := by assumption) (h_ledger : M.ledger := by assumption) (h_fab : M.fab := by assumption) (h_power : M.power := by assumption) : Within M s u := by
  unfold Machine.execAbort at he
  simp only [Host.Outcome.next.injEq] at he
  subst he
  simp (maxDischargeDepth := 40) only [Within.serveHeld, Within.dmaAbort, h, h_regs, h_dma, true_or, or_true, and_self, implies_true, h_out, h_dealer, h_faults, h_time, h_lanes, h_links, h_sess, h_deck, h_engs, h_plans, h_tricks, h_hbm, h_spd, h_sec, h_ledger, h_fab, h_power]

theorem Within.execDmaResume (h : Within M s t) (he : (Machine.execDmaResume t) = .next u) (h_regs : M.regs := by
    assumption) (h_dma : M.dma := by assumption) : Within M s u := by
  unfold Machine.execDmaResume at he
  simp only [Host.Outcome.next.injEq] at he
  subst he
  simp (maxDischargeDepth := 40) only [Within.dmaResume, h, h_regs, h_dma]

theorem Within.execAutores (h : Within M s t) (he : (Machine.execAutores t) = .next u) (h_regs : M.regs := by
    assumption) (h_dma : M.dma := by assumption) : Within M s u := by
  unfold Machine.execAutores at he
  simp only [Host.Outcome.next.injEq] at he
  subst he
  simp (maxDischargeDepth := 40) only [Within.dmaResume, Within.refl, h, implies_true, Within.whenS, h_regs, h_dma]

theorem Within.execBusError (h : Within M s t) {addr : BitVec 40} {ty : BitVec 4} {collide : Bool} (he :
    (Machine.execBusError addr ty collide t) = .next u) (h_regs : M.regs := by assumption) (h_out : M.out := by
    assumption) (h_dealer : M.dealer := by assumption) (h_faults : M.faults := by assumption) (h_dma : M.dma := by assumption) : Within M s u := by
  unfold Machine.execBusError at he
  simp only [Host.Outcome.next.injEq] at he
  subst he
  simp (maxDischargeDepth := 40) only [Within.busError, h, h_regs, h_out, h_dealer, h_faults, h_dma]

theorem Within.execFabApbase (h : Within M s t) {v : BitVec 64} (he : (Machine.execFabApbase v t) = .next u) (h_regs :
    M.regs := by assumption) : Within M s u := by
  unfold Machine.execFabApbase at he
  simp only [Host.Outcome.next.injEq] at he
  subst he
  simp (maxDischargeDepth := 40) only [Within.setAperture, h, h_regs]

theorem Within.execRemap (h : Within M s t) {m : Byte} {v : Bool} (he : (Machine.execRemap m v t) = .next u) (h_regs :
    M.regs := by assumption) : Within M s u := by
  unfold Machine.execRemap at he
  simp only [Host.Outcome.next.injEq] at he
  subst he
  simp (maxDischargeDepth := 40) only [Within.writeRemap, h, h_regs]

theorem Within.setAvg (h : Within M s t) {m k : Nat} {c : LongCell} (h_outp : M.outp := by assumption) : Within M s
    (State.setAvg t m k c) := by
  unfold State.setAvg
  simp (maxDischargeDepth := 40) only [Within.upd, h, true_or, or_true, and_self, h_outp]

theorem Within.exportGroup (h : Within M s t) {k : Trick} {base c m : Nat} {es : List Entry} (h_outp : M.outp := by
    assumption) : Within M s (State.exportGroup t k base c m es).1 := by
  unfold State.exportGroup
  repeat' (first
      | (simp (maxDischargeDepth := 40) only [Within.setAvg, Within.refl, h, h_outp]; done)
      | with_reducible refine Within.foldlFst (fun t b x => ?_) ?_
      | split)

theorem Within.exportAll (h : Within M s t) {k : Trick} {base : Nat} (h_outp : M.outp := by assumption) : Within M s
    (State.exportAll t k base).1 := by
  unfold State.exportAll
  repeat' (first
      | (simp (maxDischargeDepth := 40) only [Within.exportGroup, Within.refl, h, h_outp]; done)
      | with_reducible refine Within.foldlFst (fun t b x => ?_) ?_
      | dsimp only
      | split)

theorem Within.noteLines (h : Within M s t) {d : Tbl Byte} {base : Nat} (h_regs : M.regs := by assumption) (h_faults :
    M.faults := by assumption) (h_hbm : M.hbm := by assumption) : Within M s (State.noteLines t d base) := by
  unfold State.noteLines
  simp (maxDischargeDepth := 40) only [Within.upd, Within.lineRead, Within.fault, Within.updFresh, Within.refl, h, or_true, and_self,
            implies_true, Within.forN, Within.whenS, h_regs, h_faults, true_or, h_hbm]

theorem Within.setTrick (h : Within M s t) {first : Nat} {f : Trick → Trick} (h_tricks : M.tricks := by assumption) :
    Within M s (State.setTrick t first f) := by
  unfold State.setTrick
  simp (maxDischargeDepth := 40) only [Within.upd, h, true_or, or_true, and_self, h_tricks]

theorem Within.tryRelease (h : Within M s t) (h_regs : M.regs := by assumption) (h_out : M.out := by assumption)
    (h_dealer : M.dealer := by assumption) (h_faults : M.faults := by assumption) (h_tricks : M.tricks := by
    assumption) (h_ledger : M.ledger := by assumption) : Within M s (State.tryRelease t) := by
  unfold State.tryRelease
  simp (maxDischargeDepth := 40) only [Within.release, Within.ite, Within.foldl, Within.refl, h, implies_true, h_regs,
    h_out, h_dealer, h_faults, h_tricks, h_ledger]

theorem Within.startBatch (h : Within M s t) (h_out : M.out := by assumption) (h_engs : M.engs := by assumption)
    (h_outp : M.outp := by assumption) : Within M s (State.startBatch t) := by
  unfold State.startBatch
  repeat' (first
      | (simp (maxDischargeDepth := 40) only [Within.setCore, Within.send, Within.updFresh, Within.ite, h, true_or,
            or_true, and_self, implies_true, h_out, h_engs, h_outp]; done)
      | split)

theorem Within.writeTodo (h : Within M s t) {n : Nat} (h_regs : M.regs := by assumption) (h_out : M.out := by
    assumption) (h_engs : M.engs := by assumption) (h_outp : M.outp := by assumption) (h_hbm : M.hbm := by assumption)
    : Within M s (State.writeTodo t n) := by
  induction n generalizing t with
  | zero => exact h
  | succ n ih =>
    unfold State.writeTodo
    split
    · split
      · exact h.startBatch
      · split
        · exact ih (Within.upd h).putRec
        · exact h
    · exact h

theorem Within.goOn (h : Within M s t) (h_regs : M.regs := by assumption) (h_out : M.out := by assumption) (h_engs :
    M.engs := by assumption) (h_outp : M.outp := by assumption) (h_hbm : M.hbm := by assumption) : Within M s
    (State.goOn t) := by
  unfold State.goOn
  simp (maxDischargeDepth := 40) only [Within.writeTodo, Within.ite, h, implies_true, h_regs, h_out, h_engs, h_outp,
    h_hbm]

theorem Within.leaveKernel (h : Within M s t) {e : Nat} (h_engs : M.engs := by assumption) : Within M s
    (State.leaveKernel t e) := by
  unfold State.leaveKernel
  repeat' (first | (simp (maxDischargeDepth := 40) only [Within.setCore, h, h_engs]; done) | dsimp only | split)

theorem Within.kernelReturn (h : Within M s t) {e : Nat} (h_regs : M.regs := by assumption) (h_out : M.out := by
    assumption) (h_engs : M.engs := by assumption) (h_outp : M.outp := by assumption) (h_hbm : M.hbm := by assumption)
    : Within M s (State.kernelReturn t e) := by
  unfold State.kernelReturn
  repeat' (first
      | (simp (maxDischargeDepth := 40) only [Within.bump, Within.leaveKernel, Within.goOn, Within.upd, Within.ite, h,
            true_or, or_true, and_self, implies_true, h_regs, h_out, h_engs, h_outp, h_hbm]; done)
      | dsimp only
      | split)

theorem Within.stopKernel (h : Within M s t) {e : Nat} (h_engs : M.engs := by assumption) : Within M s (State.stopKernel t e) := by
  unfold State.stopKernel
  repeat' (first
      | (simp (maxDischargeDepth := 40) only [Within.setCore, h, true_or, or_true, and_self, implies_true, h_engs]; done)
      | dsimp only
      | split)

theorem Within.kernelFault (h : Within M s t) {e cause : Nat} (h_regs : M.regs := by assumption) (h_out : M.out := by
    assumption) (h_dealer : M.dealer := by assumption) (h_faults : M.faults := by assumption) (h_engs : M.engs := by
    assumption) (h_outp : M.outp := by assumption) (h_hbm : M.hbm := by assumption) : Within M s (State.kernelFault t
    e cause) := by
  unfold State.kernelFault
  repeat' (first
      | (simp (maxDischargeDepth := 40) only [Within.ite, Within.stopKernel, Within.foldl, Within.leaveKernel, Within.wr, Within.flag,
            Within.fault, Within.event, Within.wr64, Within.setPart, Within.goOn, Within.upd, Within.refl, h,
            true_or, or_true, and_self, implies_true, Within.forN, h_regs, h_out, h_dealer, h_faults, h_engs,
            h_outp, h_hbm]; done)
      | dsimp only
      | split)

theorem Within.execKernelCopy (h : Within M s t) {e : EngineId} (he : (Machine.execKernelCopy e t) = .next u) (h_engs
    : M.engs := by assumption) : Within M s u := by
  unfold Machine.execKernelCopy at he
  simp only [Host.Outcome.next.injEq] at he
  subst he
  repeat' (first
      | (simp (maxDischargeDepth := 40) only [Within.loadKernel, Within.ite, h, implies_true, h_engs]; done)
      | split)

theorem Within.endTrickStreams (h : Within M s t) {trick : Nat} {q : Pkt → Bool} (h_regs : M.regs := by assumption)
    (h_outp : M.outp := by assumption) (h_hbm : M.hbm := by assumption) : Within M s (State.endTrickStreams t trick q)
    := by
  unfold State.endTrickStreams
  simp (maxDischargeDepth := 40) only [Within.endStream, Within.foldl, Within.refl, h, implies_true, h_regs, h_outp,
    h_hbm]

theorem Within.beginStall (h : Within M s t) {first : Nat} (h_regs : M.regs := by assumption) (h_out : M.out := by
    assumption) (h_dealer : M.dealer := by assumption) (h_faults : M.faults := by assumption) (h_deck : M.deck := by
    assumption) (h_outp : M.outp := by assumption) : Within M s (State.beginStall t first) := by
  unfold State.beginStall
  simp (maxDischargeDepth := 40) only [Within.bump, Within.flag, Within.notePause, Within.event, Within.upd,
    Within.ite, h, true_or, or_true, and_self, implies_true, h_regs, h_out, h_dealer, h_faults, h_deck, h_outp]

theorem Within.endStall (h : Within M s t) (h_regs : M.regs := by assumption) (h_out : M.out := by assumption)
    (h_dealer : M.dealer := by assumption) (h_faults : M.faults := by assumption) (h_links : M.links := by assumption)
    (h_sess : M.sess := by assumption) (h_deck : M.deck := by assumption) (h_outp : M.outp := by assumption) (h_ledger
    : M.ledger := by assumption) : Within M s (State.endStall t) := by
  unfold State.endStall
  repeat' (first
      | (simp (maxDischargeDepth := 40) only [Within.wr, Within.event, Within.notePause, Within.resumeAccept,
            Within.upd, Within.ite, h, true_or, or_true, and_self, implies_true, h_regs, h_out, h_dealer, h_faults,
            h_links, h_sess, h_deck, h_outp, h_ledger]; done)
      | dsimp only
      | split)

theorem Within.closeTrick (h : Within M s t) {p : ActivePlan} {c e : Nat} (h_regs : M.regs := by assumption) (h_out :
    M.out := by assumption) (h_dealer : M.dealer := by assumption) (h_faults : M.faults := by assumption) (h_time :
    M.time := by assumption) (h_deck : M.deck := by assumption) (h_plans : M.plans := by assumption) (h_tricks :
    M.tricks := by assumption) (h_outp : M.outp := by assumption) (h_hbm : M.hbm := by assumption) (h_ledger :
    M.ledger := by assumption) : Within M s (State.closeTrick t p c e) := by
  unfold State.closeTrick
  extract_lets +onlyGivenNames named s1
  have h1 : Within M s s1 := by
    refine .foldl (fun t o => ?_) h
    dsimp only
    split
    · split
      · exact ((Within.refl M t).reach).event
      · exact (Within.refl M t).event
    · exact .refl M t
  clear_value s1
  extract_lets +onlyGivenNames s2 dsn s3 s4
  have h4 : Within M s s4 := h1.event.record.endTrickStreams
  clear_value s4
  extract_lets +onlyGivenNames b busy parts k k2
  clear_value k2 busy b
  extract_lets +onlyGivenNames src1 s5 src2 s6 s7 s8 s9 s10 s11
  have h5 : Within M s s5 := h4.upd
  clear_value s5
  have h6 : Within M s s6 := h5.upd
  clear_value s6
  have h9 : Within M s s9 := h6.wr.wr64.wr64.showTricks
  clear_value s9
  have h10 : Within M s s10 := .ite (fun _ => h9.beginStall) (fun _ => h9)
  clear_value s10
  have h11 : Within M s s11 := .foldl (fun t o => (Within.refl M t).endLong) h10
  exact h11.freeDue.openDue

theorem Within.execTrickClosed (h : Within M s t) (he : (Machine.execTrickClosed t) = .next u) (h_regs : M.regs := by
    assumption) (h_out : M.out := by assumption) (h_dealer : M.dealer := by assumption) (h_faults : M.faults := by
    assumption) (h_time : M.time := by assumption) (h_deck : M.deck := by assumption) (h_plans : M.plans := by
    assumption) (h_tricks : M.tricks := by assumption) (h_outp : M.outp := by assumption) (h_hbm : M.hbm := by
    assumption) (h_ledger : M.ledger := by assumption) : Within M s u := by
  unfold Machine.execTrickClosed at he
  simp only [Host.Outcome.next.injEq] at he
  subst he
  repeat' (first
      | (simp (maxDischargeDepth := 40) only [Within.closeTrick, Within.ite, h, true_or, or_true, and_self,
            implies_true, h_regs, h_out, h_dealer, h_faults, h_time, h_deck, h_plans, h_tricks, h_outp, h_hbm,
            h_ledger]; done)
      | dsimp only
      | simp only [Within.upd_iff, true_or, or_true, and_self, h_regs, h_out, h_dealer, h_faults, h_time, h_deck,
            h_plans, h_tricks, h_outp, h_hbm, h_ledger]
      | split)

theorem Within.noteAveraging (h : Within M s t) {k : Trick} (h_regs : M.regs := by assumption) (h_faults : M.faults := by assumption) : Within M s (State.noteAveraging t k) := by
  unfold State.noteAveraging
  repeat' (first
      | (simp (maxDischargeDepth := 40) only [Within.refl, Within.whenS, Within.foldl, Within.fault, h, true_or, or_true, and_self, implies_true, h_regs, h_faults]; done)
      | dsimp only
      | split)

theorem Within.writeAveraging (h : Within M s t) {k : Trick} (h_hbm : M.hbm := by assumption) : Within M s (State.writeAveraging t k) := by
  unfold State.writeAveraging
  repeat' (first
      | (simp (maxDischargeDepth := 40) only [Within.refl, Within.lineFresh, Within.foldl, h, true_or, or_true, and_self, implies_true, h_hbm]; done)
      | dsimp only
      | split)

theorem Within.execExportStart (h : Within M s t) (he : (Machine.execExportStart t) = .next u) (h_regs : M.regs := by
    assumption) (h_out : M.out := by assumption) (h_faults : M.faults := by assumption) (h_engs : M.engs := by
    assumption) (h_tricks : M.tricks := by assumption) (h_outp : M.outp := by assumption) (h_hbm : M.hbm := by
    assumption) : Within M s u := by
  unfold Machine.execExportStart at he
  simp only [Host.Outcome.next.injEq] at he
  subst he
  repeat' (first
      | (simp (maxDischargeDepth := 40) only [Within.ite, Within.writeAveraging, Within.noteAveraging, Within.goOn, Within.exportAll,
            Within.noteLines, Within.wr64, Within.flag, Within.setTrick, Within.upd, h, true_or, or_true,
            and_self, h_regs, h_out, h_faults, h_engs, h_tricks, h_outp, h_hbm, implies_true]; done)
      | split)

theorem Within.allocAcc (h : Within M s t) (h_regs : M.regs := by assumption) (h_plans : M.plans := by assumption) :
    Within M s (State.allocAcc t) := by
  unfold State.allocAcc
  repeat' (first
      | (simp (maxDischargeDepth := 40) only [Within.alloced, Within.showBases, Within.upd, Within.ite, h, true_or,
            or_true, and_self, implies_true, h_regs, h_plans]; done)
      | split)

theorem Within.execExportComplete (h : Within M s t) (he : (Machine.execExportComplete t) = .next u) (h_regs : M.regs
    := by assumption) (h_out : M.out := by assumption) (h_dealer : M.dealer := by assumption) (h_faults : M.faults :=
    by assumption) (h_links : M.links := by assumption) (h_sess : M.sess := by assumption) (h_deck : M.deck := by
    assumption) (h_plans : M.plans := by assumption) (h_tricks : M.tricks := by assumption) (h_outp : M.outp := by
    assumption) (h_hbm : M.hbm := by assumption) (h_ledger : M.ledger := by assumption) : Within M s u := by
  unfold Machine.execExportComplete at he
  simp only [Host.Outcome.next.injEq] at he
  subst he
  repeat' (first
      | (simp (maxDischargeDepth := 40) only [Within.endTrickStreams, Within.setTrick, Within.wr, Within.showTricks,
            Within.allocAcc, Within.endStall, Within.tryRelease, Within.upd, Within.ite, h, true_or, or_true,
            and_self, implies_true, h_regs, h_out, h_dealer, h_faults, h_links, h_sess, h_deck, h_plans, h_tricks,
            h_outp, h_hbm, h_ledger]; done)
      | dsimp only
      | split)

theorem Within.execTrickSummary (h : Within M s t) {p : PartId} (he : (Machine.execTrickSummary p t) = .next u)
    (h_regs : M.regs := by assumption) (h_out : M.out := by assumption) (h_dealer : M.dealer := by assumption)
    (h_faults : M.faults := by assumption) (h_tricks : M.tricks := by assumption) (h_outp : M.outp := by assumption)
    (h_hbm : M.hbm := by assumption) (h_ledger : M.ledger := by assumption) : Within M s u := by
  unfold Machine.execTrickSummary at he
  simp only [Host.Outcome.next.injEq] at he
  subst he
  repeat' (first
      | (simp (maxDischargeDepth := 40) only [Within.endTrickStreams, Within.pushPkt, Within.tryRelease,
            Within.setTrick, Within.upd, Within.ite, h, true_or, or_true, and_self, implies_true, h_regs, h_out,
            h_dealer, h_faults, h_tricks, h_outp, h_hbm, h_ledger]; done)
      | split)

theorem Within.takeOut (h : Within M s t) {p : Nat} {k : Pkt} (h_regs : M.regs := by assumption) (h_faults : M.faults
    := by assumption) (h_hbm : M.hbm := by assumption) : Within M s (State.takeOut t p k).1 := by
  unfold State.takeOut
  repeat' (first
      | (simp (maxDischargeDepth := 40) only [Within.refl, Within.ite, Within.linesRead, Within.foldl, Within.fault, h, h_regs, h_faults, true_or,
            or_true, and_self, implies_true, h_hbm]; done)
      | dsimp only
      | split)

theorem Within.portSend (h : Within M s t) {q : Nat} {k : Pkt} {again : Bool} (h_regs : M.regs := by assumption)
    (h_out : M.out := by assumption) : Within M s (State.portSend t q k again) := by
  unfold State.portSend
  simp (maxDischargeDepth := 40) only [Within.bump64, Within.send, h, h_regs, h_out]

theorem Within.hostSignal (h : Within M s t) (h_out : M.out := by assumption) (h_outp : M.outp := by assumption) :
    Within M s (State.hostSignal t) := by
  unfold State.hostSignal
  simp (maxDischargeDepth := 40) only [Within.send, Within.upd, h, true_or, or_true, and_self, h_out, h_outp]

theorem Within.hostSend (h : Within M s t) {k : Pkt} {again : Bool} (h_regs : M.regs := by assumption) (h_out : M.out
    := by assumption) (h_outp : M.outp := by assumption) : Within M s (State.hostSend t k again) := by
  unfold State.hostSend
  simp (maxDischargeDepth := 40) only [Within.hostWrite, Within.wr, Within.send, Within.hostSignal, Within.upd,
    Within.ite, h, true_or, or_true, and_self, implies_true, h_regs, h_out, h_outp]

theorem Within.stopDrains (h : Within M s t) (h_outp : M.outp := by assumption) : Within M s (State.stopDrains t) :=
    by
  unfold State.stopDrains
  repeat' (first
      | (simp (maxDischargeDepth := 40) only [Within.setPart, Within.forN, Within.refl, h, true_or, or_true, and_self,
            implies_true, h_outp]; done)
      | dsimp only
      | split)

theorem Within.deliveryError (h : Within M s t) {a : Nat} (h_regs : M.regs := by assumption) (h_out : M.out := by
    assumption) (h_dealer : M.dealer := by assumption) (h_faults : M.faults := by assumption) (h_dma : M.dma := by assumption) : Within M s
    (State.deliveryError t a) := by
  unfold State.deliveryError
  simp (maxDischargeDepth := 40) only [Within.wr, Within.busError, Within.fabRefuse, h, h_regs, h_out, h_dealer, h_faults, true_or,
            or_true, and_self, implies_true, h_dma]

theorem Within.sendOut (h : Within M s t) {p : Nat} {k : Pkt} {again : Bool} (h_regs : M.regs := by assumption) (h_out
    : M.out := by assumption) (h_faults : M.faults := by assumption) (h_outp : M.outp := by assumption) (h_hbm : M.hbm := by assumption) (h_dma : M.dma := by assumption) : Within M s
    (State.sendOut t p k again) := by
  unfold State.sendOut
  simp (maxDischargeDepth := 40) only [Within.wr, Within.setDmac, Within.takeOut, Within.portSend, Within.hostSend, Within.ite, h,
            implies_true, h_regs, h_out, h_faults, h_outp, true_or, or_true, and_self, h_hbm, h_dma]

theorem Within.execPacketDrained (h : Within M s t) {p : PartId} (he : (Machine.execPacketDrained p t) = .next u)
    (h_regs : M.regs := by assumption) (h_out : M.out := by assumption) (h_dealer : M.dealer := by assumption)
    (h_faults : M.faults := by assumption) (h_engs : M.engs := by assumption) (h_tricks : M.tricks := by assumption)
    (h_outp : M.outp := by assumption) (h_hbm : M.hbm := by assumption) (h_ledger : M.ledger := by assumption) (h_dma : M.dma := by assumption) :
    Within M s u := by
  unfold Machine.execPacketDrained at he
  simp only [Host.Outcome.next.injEq] at he
  subst he
  repeat' (first
      | (simp (maxDischargeDepth := 40) only [Within.deliveryError, Within.tryRelease, Within.sendOut, Within.setPart,
            Within.showPart, Within.goOn, h, h_regs, h_out, h_dealer, h_faults, h_engs, h_tricks, h_outp, h_hbm,
            h_ledger, h_dma]; done)
      | split)

theorem Within.execHostSignalTimeout (h : Within M s t) (he : (Machine.execHostSignalTimeout t) = .next u) (h_out :
    M.out := by assumption) (h_outp : M.outp := by assumption) : Within M s u := by
  unfold Machine.execHostSignalTimeout at he
  simp only [Host.Outcome.next.injEq] at he
  subst he
  simp (maxDischargeDepth := 40) only [Within.hostSignal, Within.ite, h, implies_true, h_out, h_outp]

theorem Within.execEthLinkUp (h : Within M s t) {q : PortId} (he : (Machine.execEthLinkUp q t) = .next u) (h_regs :
    M.regs := by assumption) (h_faults : M.faults := by assumption) : Within M s u := by
  unfold Machine.execEthLinkUp at he
  simp only [Host.Outcome.next.injEq] at he
  subst he
  simp (maxDischargeDepth := 40) only [Within.ite, Within.setLive, Within.wr, h, h_regs, true_or, or_true, and_self, implies_true, h_faults]

theorem Within.execEthLinkDown (h : Within M s t) {q : PortId} (he : (Machine.execEthLinkDown q t) = .next u) (h_regs
    : M.regs := by assumption) (h_faults : M.faults := by assumption) : Within M s u := by
  unfold Machine.execEthLinkDown at he
  simp only [Host.Outcome.next.injEq] at he
  subst he
  simp (maxDischargeDepth := 40) only [Within.fault, Within.wr, h, h_regs, h_faults]

theorem Within.execEthRxdisc (h : Within M s t) {q : PortId} (he : (Machine.execEthRxdisc q t) = .next u) (h_regs :
    M.regs := by assumption) : Within M s u := by
  unfold Machine.execEthRxdisc at he
  simp only [Host.Outcome.next.injEq] at he
  subst he
  simp (maxDischargeDepth := 40) only [Within.bump, h, h_regs]

theorem Within.resend (h : Within M s t) {p first count : Nat} (h_regs : M.regs := by assumption) (h_outp : M.outp :=
    by assumption) : Within M s (State.resend t p first count).1 := by
  unfold State.resend
  repeat' (first | (simp (maxDischargeDepth := 40) only [Within.flag, Within.setPart, h, h_regs, h_outp]; done) | split)

theorem Within.sendStats (h : Within M s t) {k : Trick} {part : Nat} (h_regs : M.regs := by assumption) (h_faults :
    M.faults := by assumption) (h_outp : M.outp := by assumption) (h_hbm : M.hbm := by assumption) : Within M s
    (State.sendStats t k part) := by
  unfold State.sendStats
  simp (maxDischargeDepth := 40) only [Within.ite, Within.linesRead, Within.fault, Within.pushPkt, Within.foldl, Within.refl, h,
            implies_true, Within.forN, h_regs, h_faults, h_outp, h_hbm, true_or, or_true, and_self]

theorem Within.commitWaiting (h : Within M s t) (h_regs : M.regs := by assumption) (h_faults : M.faults := by
    assumption) (h_deck : M.deck := by assumption) (h_hbm : M.hbm := by assumption) : Within M s (State.commitWaiting
    t) := by
  unfold State.commitWaiting
  repeat' (first
      | (simp (maxDischargeDepth := 40) only [Within.commitStats, Within.refl, h, h_regs, h_faults, h_deck, h_hbm];
            done)
      | with_reducible refine Within.foldl (fun t x => ?_) ?_
      | split)

theorem Within.execStatsSendComplete (h : Within M s t) (he : (Machine.execStatsSendComplete t) = .next u) (h_regs :
    M.regs := by assumption) (h_out : M.out := by assumption) (h_dealer : M.dealer := by assumption) (h_faults :
    M.faults := by assumption) (h_deck : M.deck := by assumption) (h_outp : M.outp := by assumption) (h_hbm : M.hbm :=
    by assumption) : Within M s u := by
  unfold Machine.execStatsSendComplete at he
  simp only [Host.Outcome.next.injEq] at he
  subst he
  repeat' (first
      | (simp (maxDischargeDepth := 40) only [Within.sendStats, Within.commitWaiting, Within.endLong, h, h_regs,
            h_out, h_dealer, h_faults, h_deck, h_outp, h_hbm]; done)
      | split)

theorem Within.layRing (h : Within M s t) {l : List (Nat × Nat)} (h_regs : M.regs := by assumption) (h_plans : M.plans
    := by assumption) (h_outp : M.outp := by assumption) : Within M s (State.layRing t l) := by
  unfold State.layRing
  repeat' (first
      | (simp (maxDischargeDepth := 40) only [Within.alloced, Within.setPart, Within.showPart, Within.wr64,
            Within.refl, h, h_regs, h_plans, h_outp]; done)
      | with_reducible refine Within.forN (fun t x => ?_) ?_
      | with_reducible apply Within.wr
      | split)

theorem Within.askLayout (h : Within M s t) {p : ActivePlan} (h_outp : M.outp := by assumption) : Within M s
    (State.askLayout t p) := by
  unfold State.askLayout
  simp (maxDischargeDepth := 40) only [Within.upd, Within.ite, h, true_or, or_true, and_self, implies_true, h_outp]

theorem Within.execRingLayout (h : Within M s t) (he : (Machine.execRingLayout t) = .next u) (h_regs : M.regs := by
    assumption) (h_out : M.out := by assumption) (h_engs : M.engs := by assumption) (h_plans : M.plans := by
    assumption) (h_outp : M.outp := by assumption) (h_hbm : M.hbm := by assumption) : Within M s u := by
  unfold Machine.execRingLayout at he
  simp only [Host.Outcome.next.injEq] at he
  subst he
  repeat' (first
      | (simp (maxDischargeDepth := 40) only [Within.layRing, Within.goOn, Within.upd, Within.ite, h, true_or,
            or_true, and_self, implies_true, h_regs, h_out, h_engs, h_plans, h_outp, h_hbm]; done)
      | split)

theorem Within.trap (h : Within M s t) {e cause at0 next : Nat} {c : CoreState} (h_regs : M.regs := by assumption)
    (h_out : M.out := by assumption) (h_dealer : M.dealer := by assumption) (h_faults : M.faults := by assumption)
    (h_engs : M.engs := by assumption) (h_outp : M.outp := by assumption) (h_hbm : M.hbm := by assumption) : Within M
    s (State.trap t e cause at0 next c) := by
  unfold State.trap
  simp (maxDischargeDepth := 40) only [Within.wr, Within.put, Within.flag, Within.setCore, Within.kernelFault,
    Within.fault, Within.ite, h, implies_true, h_regs, h_out, h_dealer, h_faults, h_engs, h_outp, h_hbm]

theorem Within.countStep (h : Within M s t) {e : Nat} (h_regs : M.regs := by assumption) (h_engs : M.engs := by
    assumption) : Within M s (State.countStep t e) := by
  unfold State.countStep
  simp (maxDischargeDepth := 40) only [Within.bump64, Within.setCore, Within.updFresh, Within.ite, h, or_true,
    and_self, implies_true, h_regs, h_engs]

theorem Within.coreStep (h : Within M s t) {e : Nat} {mv : Moves} {op : CoreOp} (h_regs : M.regs := by assumption)
    (h_out : M.out := by assumption) (h_dealer : M.dealer := by assumption) (h_faults : M.faults := by assumption)
    (h_engs : M.engs := by assumption) (h_outp : M.outp := by assumption) (h_hbm : M.hbm := by assumption) : Within M
    s (State.coreStep t e mv op) := by
  unfold State.coreStep
  repeat' (first
      | (simp (maxDischargeDepth := 40) only [Within.countStep, Within.trap, Within.setCore, Within.ite, h,
            implies_true, h_regs, h_out, h_dealer, h_faults, h_engs, h_outp, h_hbm]; done)
      | dsimp only
      | split)

theorem Within.execCoreNop (h : Within M s t) {e : EngineId} {mv : Moves} (he : (Machine.execCoreNop e mv t) = .next
    u) (h_regs : M.regs := by assumption) (h_out : M.out := by assumption) (h_dealer : M.dealer := by assumption)
    (h_faults : M.faults := by assumption) (h_engs : M.engs := by assumption) (h_outp : M.outp := by assumption)
    (h_hbm : M.hbm := by assumption) : Within M s u := by
  unfold Machine.execCoreNop at he
  simp only [Host.Outcome.next.injEq] at he
  subst he
  simp (maxDischargeDepth := 40) only [Within.coreStep, h, h_regs, h_out, h_dealer, h_faults, h_engs, h_outp, h_hbm]

theorem Within.execBr (h : Within M s t) {e : EngineId} {target : BitVec 13} {mv : Moves} (he : (Machine.execBr e
    target mv t) = .next u) (h_regs : M.regs := by assumption) (h_out : M.out := by assumption) (h_dealer : M.dealer
    := by assumption) (h_faults : M.faults := by assumption) (h_engs : M.engs := by assumption) (h_outp : M.outp := by
    assumption) (h_hbm : M.hbm := by assumption) : Within M s u := by
  unfold Machine.execBr at he
  simp only [Host.Outcome.next.injEq] at he
  subst he
  simp (maxDischargeDepth := 40) only [Within.coreStep, h, h_regs, h_out, h_dealer, h_faults, h_engs, h_outp, h_hbm]

theorem Within.execBrc (h : Within M s t) {e : EngineId} {flag : CoreFlag} {target : BitVec 13} {mv : Moves} (he :
    (Machine.execBrc e flag target mv t) = .next u) (h_regs : M.regs := by assumption) (h_out : M.out := by
    assumption) (h_dealer : M.dealer := by assumption) (h_faults : M.faults := by assumption) (h_engs : M.engs := by
    assumption) (h_outp : M.outp := by assumption) (h_hbm : M.hbm := by assumption) : Within M s u := by
  unfold Machine.execBrc at he
  simp only [Host.Outcome.next.injEq] at he
  subst he
  simp (maxDischargeDepth := 40) only [Within.coreStep, h, h_regs, h_out, h_dealer, h_faults, h_engs, h_outp, h_hbm]

theorem Within.execCall (h : Within M s t) {e : EngineId} {target : BitVec 13} {mv : Moves} (he : (Machine.execCall e
    target mv t) = .next u) (h_regs : M.regs := by assumption) (h_out : M.out := by assumption) (h_dealer : M.dealer
    := by assumption) (h_faults : M.faults := by assumption) (h_engs : M.engs := by assumption) (h_outp : M.outp := by
    assumption) (h_hbm : M.hbm := by assumption) : Within M s u := by
  unfold Machine.execCall at he
  simp only [Host.Outcome.next.injEq] at he
  subst he
  simp (maxDischargeDepth := 40) only [Within.coreStep, h, h_regs, h_out, h_dealer, h_faults, h_engs, h_outp, h_hbm]

theorem Within.execRet (h : Within M s t) {e : EngineId} {mv : Moves} (he : (Machine.execRet e mv t) = .next u)
    (h_regs : M.regs := by assumption) (h_out : M.out := by assumption) (h_dealer : M.dealer := by assumption)
    (h_faults : M.faults := by assumption) (h_engs : M.engs := by assumption) (h_outp : M.outp := by assumption)
    (h_hbm : M.hbm := by assumption) : Within M s u := by
  unfold Machine.execRet at he
  simp only [Host.Outcome.next.injEq] at he
  subst he
  simp (maxDischargeDepth := 40) only [Within.coreStep, Within.kernelReturn, Within.ite, h, implies_true, h_regs,
    h_out, h_dealer, h_faults, h_engs, h_outp, h_hbm]

theorem Within.execReti (h : Within M s t) {e : EngineId} {mv : Moves} (he : (Machine.execReti e mv t) = .next u)
    (h_regs : M.regs := by assumption) (h_out : M.out := by assumption) (h_dealer : M.dealer := by assumption)
    (h_faults : M.faults := by assumption) (h_engs : M.engs := by assumption) (h_outp : M.outp := by assumption)
    (h_hbm : M.hbm := by assumption) : Within M s u := by
  unfold Machine.execReti at he
  simp only [Host.Outcome.next.injEq] at he
  subst he
  simp (maxDischargeDepth := 40) only [Within.coreStep, h, h_regs, h_out, h_dealer, h_faults, h_engs, h_outp, h_hbm]

theorem Within.execWait (h : Within M s t) {e : EngineId} {mv : Moves} (he : (Machine.execWait e mv t) = .next u)
    (h_regs : M.regs := by assumption) (h_out : M.out := by assumption) (h_dealer : M.dealer := by assumption)
    (h_faults : M.faults := by assumption) (h_engs : M.engs := by assumption) (h_outp : M.outp := by assumption)
    (h_hbm : M.hbm := by assumption) : Within M s u := by
  unfold Machine.execWait at he
  simp only [Host.Outcome.next.injEq] at he
  subst he
  simp (maxDischargeDepth := 40) only [Within.coreStep, h, h_regs, h_out, h_dealer, h_faults, h_engs, h_outp, h_hbm]

theorem Within.execHalt (h : Within M s t) {e : EngineId} {mv : Moves} (he : (Machine.execHalt e mv t) = .next u)
    (h_regs : M.regs := by assumption) (h_out : M.out := by assumption) (h_dealer : M.dealer := by assumption)
    (h_faults : M.faults := by assumption) (h_engs : M.engs := by assumption) (h_outp : M.outp := by assumption)
    (h_hbm : M.hbm := by assumption) : Within M s u := by
  unfold Machine.execHalt at he
  simp only [Host.Outcome.next.injEq] at he
  subst he
  simp (maxDischargeDepth := 40) only [Within.coreStep, h, h_regs, h_out, h_dealer, h_faults, h_engs, h_outp, h_hbm]

theorem Within.execTrap (h : Within M s t) {e : EngineId} {i : TrapInstr} (he : (Machine.execTrap e
    i t) = .next u) (h_regs : M.regs := by assumption) (h_out : M.out := by assumption) (h_dealer :
    M.dealer := by assumption) (h_faults : M.faults := by assumption) (h_engs : M.engs := by assumption) (h_outp :
    M.outp := by assumption) (h_hbm : M.hbm := by assumption) : Within M s u := by
  unfold Machine.execTrap at he
  simp only [Host.Outcome.next.injEq] at he
  subst he
  repeat' (first
      | (simp (maxDischargeDepth := 40) only [Within.coreStep, Within.ite, h, true_or, or_true, and_self,
            implies_true, h_regs, h_out, h_dealer, h_faults, h_engs, h_outp, h_hbm]; done)
      | dsimp only
      | split)

theorem Within.execInterruptEntry (h : Within M s t) {e : EngineId} {cause : IrqCause} (he :
    (Machine.execInterruptEntry e cause t) = .next u) (h_engs : M.engs := by assumption) : Within M s u := by
  unfold Machine.execInterruptEntry at he
  simp only [Host.Outcome.next.injEq] at he
  subst he
  simp (maxDischargeDepth := 40) only [Within.setCore, Within.ite, h, implies_true, h_engs]

theorem Within.execKtime (h : Within M s t) {e : EngineId} (he : (Machine.execKtime e t) = .next u) (h_regs : M.regs
    := by assumption) (h_out : M.out := by assumption) (h_dealer : M.dealer := by assumption) (h_faults : M.faults :=
    by assumption) (h_engs : M.engs := by assumption) (h_outp : M.outp := by assumption) (h_hbm : M.hbm := by
    assumption) : Within M s u := by
  unfold Machine.execKtime at he
  simp only [Host.Outcome.next.injEq] at he
  subst he
  simp (maxDischargeDepth := 40) only [Within.trap, Within.ite, h, implies_true, h_regs, h_out, h_dealer, h_faults,
    h_engs, h_outp, h_hbm]

theorem Within.execAdd (h : Within M s t) {e : EngineId} {d a b : Reg4} {mv : Moves} (he : (Machine.execAdd e d a b mv
    t) = .next u) (h_regs : M.regs := by assumption) (h_out : M.out := by assumption) (h_dealer : M.dealer := by
    assumption) (h_faults : M.faults := by assumption) (h_engs : M.engs := by assumption) (h_outp : M.outp := by
    assumption) (h_hbm : M.hbm := by assumption) : Within M s u := by
  unfold Machine.execAdd at he
  simp only [Host.Outcome.next.injEq] at he
  subst he
  simp (maxDischargeDepth := 40) only [Within.coreStep, h, h_regs, h_out, h_dealer, h_faults, h_engs, h_outp, h_hbm]

theorem Within.execSub (h : Within M s t) {e : EngineId} {d a b : Reg4} {mv : Moves} (he : (Machine.execSub e d a b mv
    t) = .next u) (h_regs : M.regs := by assumption) (h_out : M.out := by assumption) (h_dealer : M.dealer := by
    assumption) (h_faults : M.faults := by assumption) (h_engs : M.engs := by assumption) (h_outp : M.outp := by
    assumption) (h_hbm : M.hbm := by assumption) : Within M s u := by
  unfold Machine.execSub at he
  simp only [Host.Outcome.next.injEq] at he
  subst he
  simp (maxDischargeDepth := 40) only [Within.coreStep, h, h_regs, h_out, h_dealer, h_faults, h_engs, h_outp, h_hbm]

theorem Within.execAnd (h : Within M s t) {e : EngineId} {d a b : Reg4} {mv : Moves} (he : (Machine.execAnd e d a b mv
    t) = .next u) (h_regs : M.regs := by assumption) (h_out : M.out := by assumption) (h_dealer : M.dealer := by
    assumption) (h_faults : M.faults := by assumption) (h_engs : M.engs := by assumption) (h_outp : M.outp := by
    assumption) (h_hbm : M.hbm := by assumption) : Within M s u := by
  unfold Machine.execAnd at he
  simp only [Host.Outcome.next.injEq] at he
  subst he
  simp (maxDischargeDepth := 40) only [Within.coreStep, h, h_regs, h_out, h_dealer, h_faults, h_engs, h_outp, h_hbm]

theorem Within.execOr (h : Within M s t) {e : EngineId} {d a b : Reg4} {mv : Moves} (he : (Machine.execOr e d a b mv
    t) = .next u) (h_regs : M.regs := by assumption) (h_out : M.out := by assumption) (h_dealer : M.dealer := by
    assumption) (h_faults : M.faults := by assumption) (h_engs : M.engs := by assumption) (h_outp : M.outp := by
    assumption) (h_hbm : M.hbm := by assumption) : Within M s u := by
  unfold Machine.execOr at he
  simp only [Host.Outcome.next.injEq] at he
  subst he
  simp (maxDischargeDepth := 40) only [Within.coreStep, h, h_regs, h_out, h_dealer, h_faults, h_engs, h_outp, h_hbm]

theorem Within.execXor (h : Within M s t) {e : EngineId} {d a b : Reg4} {mv : Moves} (he : (Machine.execXor e d a b mv
    t) = .next u) (h_regs : M.regs := by assumption) (h_out : M.out := by assumption) (h_dealer : M.dealer := by
    assumption) (h_faults : M.faults := by assumption) (h_engs : M.engs := by assumption) (h_outp : M.outp := by
    assumption) (h_hbm : M.hbm := by assumption) : Within M s u := by
  unfold Machine.execXor at he
  simp only [Host.Outcome.next.injEq] at he
  subst he
  simp (maxDischargeDepth := 40) only [Within.coreStep, h, h_regs, h_out, h_dealer, h_faults, h_engs, h_outp, h_hbm]

theorem Within.execShl (h : Within M s t) {e : EngineId} {d a : Reg4} {sh : Byte} {mv : Moves} (he : (Machine.execShl
    e d a sh mv t) = .next u) (h_regs : M.regs := by assumption) (h_out : M.out := by assumption) (h_dealer : M.dealer
    := by assumption) (h_faults : M.faults := by assumption) (h_engs : M.engs := by assumption) (h_outp : M.outp := by
    assumption) (h_hbm : M.hbm := by assumption) : Within M s u := by
  unfold Machine.execShl at he
  simp only [Host.Outcome.next.injEq] at he
  subst he
  simp (maxDischargeDepth := 40) only [Within.coreStep, h, h_regs, h_out, h_dealer, h_faults, h_engs, h_outp, h_hbm]

theorem Within.execShr (h : Within M s t) {e : EngineId} {d a : Reg4} {sh : Byte} {mv : Moves} (he : (Machine.execShr
    e d a sh mv t) = .next u) (h_regs : M.regs := by assumption) (h_out : M.out := by assumption) (h_dealer : M.dealer
    := by assumption) (h_faults : M.faults := by assumption) (h_engs : M.engs := by assumption) (h_outp : M.outp := by
    assumption) (h_hbm : M.hbm := by assumption) : Within M s u := by
  unfold Machine.execShr at he
  simp only [Host.Outcome.next.injEq] at he
  subst he
  simp (maxDischargeDepth := 40) only [Within.coreStep, h, h_regs, h_out, h_dealer, h_faults, h_engs, h_outp, h_hbm]

theorem Within.execSar (h : Within M s t) {e : EngineId} {d a : Reg4} {sh : Byte} {mv : Moves} (he : (Machine.execSar
    e d a sh mv t) = .next u) (h_regs : M.regs := by assumption) (h_out : M.out := by assumption) (h_dealer : M.dealer
    := by assumption) (h_faults : M.faults := by assumption) (h_engs : M.engs := by assumption) (h_outp : M.outp := by
    assumption) (h_hbm : M.hbm := by assumption) : Within M s u := by
  unfold Machine.execSar at he
  simp only [Host.Outcome.next.injEq] at he
  subst he
  simp (maxDischargeDepth := 40) only [Within.coreStep, h, h_regs, h_out, h_dealer, h_faults, h_engs, h_outp, h_hbm]

theorem Within.execMul (h : Within M s t) {e : EngineId} {d a b : Reg4} {mv : Moves} (he : (Machine.execMul e d a b mv
    t) = .next u) (h_regs : M.regs := by assumption) (h_out : M.out := by assumption) (h_dealer : M.dealer := by
    assumption) (h_faults : M.faults := by assumption) (h_engs : M.engs := by assumption) (h_outp : M.outp := by
    assumption) (h_hbm : M.hbm := by assumption) : Within M s u := by
  unfold Machine.execMul at he
  simp only [Host.Outcome.next.injEq] at he
  subst he
  simp (maxDischargeDepth := 40) only [Within.coreStep, h, h_regs, h_out, h_dealer, h_faults, h_engs, h_outp, h_hbm]

theorem Within.execCmp (h : Within M s t) {e : EngineId} {a b : Reg4} {mv : Moves} (he : (Machine.execCmp e a b mv t)
    = .next u) (h_regs : M.regs := by assumption) (h_out : M.out := by assumption) (h_dealer : M.dealer := by
    assumption) (h_faults : M.faults := by assumption) (h_engs : M.engs := by assumption) (h_outp : M.outp := by
    assumption) (h_hbm : M.hbm := by assumption) : Within M s u := by
  unfold Machine.execCmp at he
  simp only [Host.Outcome.next.injEq] at he
  subst he
  simp (maxDischargeDepth := 40) only [Within.coreStep, h, h_regs, h_out, h_dealer, h_faults, h_engs, h_outp, h_hbm]

theorem Within.execMovs (h : Within M s t) {e : EngineId} {toSpecial : Bool} {d : Reg4} {sr : SpecialReg} {mv : Moves}
    (he : (Machine.execMovs e toSpecial d sr mv t) = .next u) (h_regs : M.regs := by assumption) (h_out : M.out := by
    assumption) (h_dealer : M.dealer := by assumption) (h_faults : M.faults := by assumption) (h_engs : M.engs := by
    assumption) (h_outp : M.outp := by assumption) (h_hbm : M.hbm := by assumption) : Within M s u := by
  unfold Machine.execMovs at he
  simp only [Host.Outcome.next.injEq] at he
  subst he
  simp (maxDischargeDepth := 40) only [Within.coreStep, h, h_regs, h_out, h_dealer, h_faults, h_engs, h_outp, h_hbm]

theorem Within.execVadd (h : Within M s t) {e : EngineId} {d a b : Reg4} {mv : Moves} (he : (Machine.execVadd e d a b
    mv t) = .next u) (h_regs : M.regs := by assumption) (h_out : M.out := by assumption) (h_dealer : M.dealer := by
    assumption) (h_faults : M.faults := by assumption) (h_engs : M.engs := by assumption) (h_outp : M.outp := by
    assumption) (h_hbm : M.hbm := by assumption) : Within M s u := by
  unfold Machine.execVadd at he
  simp only [Host.Outcome.next.injEq] at he
  subst he
  simp (maxDischargeDepth := 40) only [Within.coreStep, h, h_regs, h_out, h_dealer, h_faults, h_engs, h_outp, h_hbm]

theorem Within.execVsub (h : Within M s t) {e : EngineId} {d a b : Reg4} {mv : Moves} (he : (Machine.execVsub e d a b
    mv t) = .next u) (h_regs : M.regs := by assumption) (h_out : M.out := by assumption) (h_dealer : M.dealer := by
    assumption) (h_faults : M.faults := by assumption) (h_engs : M.engs := by assumption) (h_outp : M.outp := by
    assumption) (h_hbm : M.hbm := by assumption) : Within M s u := by
  unfold Machine.execVsub at he
  simp only [Host.Outcome.next.injEq] at he
  subst he
  simp (maxDischargeDepth := 40) only [Within.coreStep, h, h_regs, h_out, h_dealer, h_faults, h_engs, h_outp, h_hbm]

theorem Within.execVmin (h : Within M s t) {e : EngineId} {d a b : Reg4} {mv : Moves} (he : (Machine.execVmin e d a b
    mv t) = .next u) (h_regs : M.regs := by assumption) (h_out : M.out := by assumption) (h_dealer : M.dealer := by
    assumption) (h_faults : M.faults := by assumption) (h_engs : M.engs := by assumption) (h_outp : M.outp := by
    assumption) (h_hbm : M.hbm := by assumption) : Within M s u := by
  unfold Machine.execVmin at he
  simp only [Host.Outcome.next.injEq] at he
  subst he
  simp (maxDischargeDepth := 40) only [Within.coreStep, h, h_regs, h_out, h_dealer, h_faults, h_engs, h_outp, h_hbm]

theorem Within.execVmax (h : Within M s t) {e : EngineId} {d a b : Reg4} {mv : Moves} (he : (Machine.execVmax e d a b
    mv t) = .next u) (h_regs : M.regs := by assumption) (h_out : M.out := by assumption) (h_dealer : M.dealer := by
    assumption) (h_faults : M.faults := by assumption) (h_engs : M.engs := by assumption) (h_outp : M.outp := by
    assumption) (h_hbm : M.hbm := by assumption) : Within M s u := by
  unfold Machine.execVmax at he
  simp only [Host.Outcome.next.injEq] at he
  subst he
  simp (maxDischargeDepth := 40) only [Within.coreStep, h, h_regs, h_out, h_dealer, h_faults, h_engs, h_outp, h_hbm]

theorem Within.execVabs (h : Within M s t) {e : EngineId} {d a : Reg4} {mv : Moves} (he : (Machine.execVabs e d a mv
    t) = .next u) (h_regs : M.regs := by assumption) (h_out : M.out := by assumption) (h_dealer : M.dealer := by
    assumption) (h_faults : M.faults := by assumption) (h_engs : M.engs := by assumption) (h_outp : M.outp := by
    assumption) (h_hbm : M.hbm := by assumption) : Within M s u := by
  unfold Machine.execVabs at he
  simp only [Host.Outcome.next.injEq] at he
  subst he
  simp (maxDischargeDepth := 40) only [Within.coreStep, h, h_regs, h_out, h_dealer, h_faults, h_engs, h_outp, h_hbm]

theorem Within.execVand (h : Within M s t) {e : EngineId} {d a b : Reg4} {mv : Moves} (he : (Machine.execVand e d a b
    mv t) = .next u) (h_regs : M.regs := by assumption) (h_out : M.out := by assumption) (h_dealer : M.dealer := by
    assumption) (h_faults : M.faults := by assumption) (h_engs : M.engs := by assumption) (h_outp : M.outp := by
    assumption) (h_hbm : M.hbm := by assumption) : Within M s u := by
  unfold Machine.execVand at he
  simp only [Host.Outcome.next.injEq] at he
  subst he
  simp (maxDischargeDepth := 40) only [Within.coreStep, h, h_regs, h_out, h_dealer, h_faults, h_engs, h_outp, h_hbm]

theorem Within.execVor (h : Within M s t) {e : EngineId} {d a b : Reg4} {mv : Moves} (he : (Machine.execVor e d a b mv
    t) = .next u) (h_regs : M.regs := by assumption) (h_out : M.out := by assumption) (h_dealer : M.dealer := by
    assumption) (h_faults : M.faults := by assumption) (h_engs : M.engs := by assumption) (h_outp : M.outp := by
    assumption) (h_hbm : M.hbm := by assumption) : Within M s u := by
  unfold Machine.execVor at he
  simp only [Host.Outcome.next.injEq] at he
  subst he
  simp (maxDischargeDepth := 40) only [Within.coreStep, h, h_regs, h_out, h_dealer, h_faults, h_engs, h_outp, h_hbm]

theorem Within.execVxor (h : Within M s t) {e : EngineId} {d a b : Reg4} {mv : Moves} (he : (Machine.execVxor e d a b
    mv t) = .next u) (h_regs : M.regs := by assumption) (h_out : M.out := by assumption) (h_dealer : M.dealer := by
    assumption) (h_faults : M.faults := by assumption) (h_engs : M.engs := by assumption) (h_outp : M.outp := by
    assumption) (h_hbm : M.hbm := by assumption) : Within M s u := by
  unfold Machine.execVxor at he
  simp only [Host.Outcome.next.injEq] at he
  subst he
  simp (maxDischargeDepth := 40) only [Within.coreStep, h, h_regs, h_out, h_dealer, h_faults, h_engs, h_outp, h_hbm]

theorem Within.execVshl (h : Within M s t) {e : EngineId} {d a : Reg4} {sh : Byte} {mv : Moves} (he :
    (Machine.execVshl e d a sh mv t) = .next u) (h_regs : M.regs := by assumption) (h_out : M.out := by assumption)
    (h_dealer : M.dealer := by assumption) (h_faults : M.faults := by assumption) (h_engs : M.engs := by assumption)
    (h_outp : M.outp := by assumption) (h_hbm : M.hbm := by assumption) : Within M s u := by
  unfold Machine.execVshl at he
  simp only [Host.Outcome.next.injEq] at he
  subst he
  simp (maxDischargeDepth := 40) only [Within.coreStep, h, h_regs, h_out, h_dealer, h_faults, h_engs, h_outp, h_hbm]

theorem Within.execVsar (h : Within M s t) {e : EngineId} {d a : Reg4} {sh : Byte} {mv : Moves} (he :
    (Machine.execVsar e d a sh mv t) = .next u) (h_regs : M.regs := by assumption) (h_out : M.out := by assumption)
    (h_dealer : M.dealer := by assumption) (h_faults : M.faults := by assumption) (h_engs : M.engs := by assumption)
    (h_outp : M.outp := by assumption) (h_hbm : M.hbm := by assumption) : Within M s u := by
  unfold Machine.execVsar at he
  simp only [Host.Outcome.next.injEq] at he
  subst he
  simp (maxDischargeDepth := 40) only [Within.coreStep, h, h_regs, h_out, h_dealer, h_faults, h_engs, h_outp, h_hbm]

theorem Within.execVsel (h : Within M s t) {e : EngineId} {d a b : Reg4} {mv : Moves} (he : (Machine.execVsel e d a b
    mv t) = .next u) (h_regs : M.regs := by assumption) (h_out : M.out := by assumption) (h_dealer : M.dealer := by
    assumption) (h_faults : M.faults := by assumption) (h_engs : M.engs := by assumption) (h_outp : M.outp := by
    assumption) (h_hbm : M.hbm := by assumption) : Within M s u := by
  unfold Machine.execVsel at he
  simp only [Host.Outcome.next.injEq] at he
  subst he
  simp (maxDischargeDepth := 40) only [Within.coreStep, h, h_regs, h_out, h_dealer, h_faults, h_engs, h_outp, h_hbm]

theorem Within.execVbcast (h : Within M s t) {e : EngineId} {d a : Reg4} {mv : Moves} (he : (Machine.execVbcast e d a
    mv t) = .next u) (h_regs : M.regs := by assumption) (h_out : M.out := by assumption) (h_dealer : M.dealer := by
    assumption) (h_faults : M.faults := by assumption) (h_engs : M.engs := by assumption) (h_outp : M.outp := by
    assumption) (h_hbm : M.hbm := by assumption) : Within M s u := by
  unfold Machine.execVbcast at he
  simp only [Host.Outcome.next.injEq] at he
  subst he
  simp (maxDischargeDepth := 40) only [Within.coreStep, h, h_regs, h_out, h_dealer, h_faults, h_engs, h_outp, h_hbm]

theorem Within.execClra (h : Within M s t) {e : EngineId} {acc : Fin 4} {mv : Moves} (he : (Machine.execClra e acc mv
    t) = .next u) (h_regs : M.regs := by assumption) (h_out : M.out := by assumption) (h_dealer : M.dealer := by
    assumption) (h_faults : M.faults := by assumption) (h_engs : M.engs := by assumption) (h_outp : M.outp := by
    assumption) (h_hbm : M.hbm := by assumption) : Within M s u := by
  unfold Machine.execClra at he
  simp only [Host.Outcome.next.injEq] at he
  subst he
  simp (maxDischargeDepth := 40) only [Within.coreStep, h, h_regs, h_out, h_dealer, h_faults, h_engs, h_outp, h_hbm]

theorem Within.execMac (h : Within M s t) {e : EngineId} {acc : Fin 4} {a b : Reg4} {mv : Moves} (he :
    (Machine.execMac e acc a b mv t) = .next u) (h_regs : M.regs := by assumption) (h_out : M.out := by assumption)
    (h_dealer : M.dealer := by assumption) (h_faults : M.faults := by assumption) (h_engs : M.engs := by assumption)
    (h_outp : M.outp := by assumption) (h_hbm : M.hbm := by assumption) : Within M s u := by
  unfold Machine.execMac at he
  simp only [Host.Outcome.next.injEq] at he
  subst he
  simp (maxDischargeDepth := 40) only [Within.coreStep, h, h_regs, h_out, h_dealer, h_faults, h_engs, h_outp, h_hbm]

theorem Within.execMsu (h : Within M s t) {e : EngineId} {acc : Fin 4} {a b : Reg4} {mv : Moves} (he :
    (Machine.execMsu e acc a b mv t) = .next u) (h_regs : M.regs := by assumption) (h_out : M.out := by assumption)
    (h_dealer : M.dealer := by assumption) (h_faults : M.faults := by assumption) (h_engs : M.engs := by assumption)
    (h_outp : M.outp := by assumption) (h_hbm : M.hbm := by assumption) : Within M s u := by
  unfold Machine.execMsu at he
  simp only [Host.Outcome.next.injEq] at he
  subst he
  simp (maxDischargeDepth := 40) only [Within.coreStep, h, h_regs, h_out, h_dealer, h_faults, h_engs, h_outp, h_hbm]

theorem Within.execAccadd (h : Within M s t) {e : EngineId} {acc : Fin 4} {a : Reg4} {mv : Moves} (he :
    (Machine.execAccadd e acc a mv t) = .next u) (h_regs : M.regs := by assumption) (h_out : M.out := by assumption)
    (h_dealer : M.dealer := by assumption) (h_faults : M.faults := by assumption) (h_engs : M.engs := by assumption)
    (h_outp : M.outp := by assumption) (h_hbm : M.hbm := by assumption) : Within M s u := by
  unfold Machine.execAccadd at he
  simp only [Host.Outcome.next.injEq] at he
  subst he
  simp (maxDischargeDepth := 40) only [Within.coreStep, h, h_regs, h_out, h_dealer, h_faults, h_engs, h_outp, h_hbm]

theorem Within.execCjoin (h : Within M s t) {e : EngineId} {acc : Fin 4} {lo hi : Reg4} {upper : Bool} {mv : Moves}
    (he : (Machine.execCjoin e acc lo hi upper mv t) = .next u) (h_regs : M.regs := by assumption) (h_out : M.out :=
    by assumption) (h_dealer : M.dealer := by assumption) (h_faults : M.faults := by assumption) (h_engs : M.engs :=
    by assumption) (h_outp : M.outp := by assumption) (h_hbm : M.hbm := by assumption) : Within M s u := by
  unfold Machine.execCjoin at he
  simp only [Host.Outcome.next.injEq] at he
  subst he
  simp (maxDischargeDepth := 40) only [Within.coreStep, h, h_regs, h_out, h_dealer, h_faults, h_engs, h_outp, h_hbm]

theorem Within.execMova (h : Within M s t) {e : EngineId} {d d2 : Reg4} {acc : Fin 4} {mv : Moves} (he :
    (Machine.execMova e d d2 acc mv t) = .next u) (h_regs : M.regs := by assumption) (h_out : M.out := by assumption)
    (h_dealer : M.dealer := by assumption) (h_faults : M.faults := by assumption) (h_engs : M.engs := by assumption)
    (h_outp : M.outp := by assumption) (h_hbm : M.hbm := by assumption) : Within M s u := by
  unfold Machine.execMova at he
  simp only [Host.Outcome.next.injEq] at he
  subst he
  simp (maxDischargeDepth := 40) only [Within.coreStep, h, h_regs, h_out, h_dealer, h_faults, h_engs, h_outp, h_hbm]

theorem Within.execNarr (h : Within M s t) {e : EngineId} {d : Reg4} {acc : Fin 4} {k : Fin 48} {mv : Moves} (he :
    (Machine.execNarr e d acc k mv t) = .next u) (h_regs : M.regs := by assumption) (h_out : M.out := by assumption)
    (h_dealer : M.dealer := by assumption) (h_faults : M.faults := by assumption) (h_engs : M.engs := by assumption)
    (h_outp : M.outp := by assumption) (h_hbm : M.hbm := by assumption) : Within M s u := by
  unfold Machine.execNarr at he
  simp only [Host.Outcome.next.injEq] at he
  subst he
  simp (maxDischargeDepth := 40) only [Within.coreStep, h, h_regs, h_out, h_dealer, h_faults, h_engs, h_outp, h_hbm]

theorem Within.execBxclr (h : Within M s t) {e : EngineId} {w : Fin 17} {mv : Moves} (he : (Machine.execBxclr e w mv
    t) = .next u) (h_regs : M.regs := by assumption) (h_out : M.out := by assumption) (h_dealer : M.dealer := by
    assumption) (h_faults : M.faults := by assumption) (h_engs : M.engs := by assumption) (h_outp : M.outp := by
    assumption) (h_hbm : M.hbm := by assumption) : Within M s u := by
  unfold Machine.execBxclr at he
  simp only [Host.Outcome.next.injEq] at he
  subst he
  simp (maxDischargeDepth := 40) only [Within.coreStep, h, h_regs, h_out, h_dealer, h_faults, h_engs, h_outp, h_hbm]

theorem Within.execBxacc (h : Within M s t) {e : EngineId} {a : Reg4} {mv : Moves} (he : (Machine.execBxacc e a mv t)
    = .next u) (h_regs : M.regs := by assumption) (h_out : M.out := by assumption) (h_dealer : M.dealer := by
    assumption) (h_faults : M.faults := by assumption) (h_engs : M.engs := by assumption) (h_outp : M.outp := by
    assumption) (h_hbm : M.hbm := by assumption) : Within M s u := by
  unfold Machine.execBxacc at he
  simp only [Host.Outcome.next.injEq] at he
  subst he
  simp (maxDischargeDepth := 40) only [Within.coreStep, h, h_regs, h_out, h_dealer, h_faults, h_engs, h_outp, h_hbm]

theorem Within.execBxget (h : Within M s t) {e : EngineId} {d : Reg4} {mv : Moves} (he : (Machine.execBxget e d mv t)
    = .next u) (h_regs : M.regs := by assumption) (h_out : M.out := by assumption) (h_dealer : M.dealer := by
    assumption) (h_faults : M.faults := by assumption) (h_engs : M.engs := by assumption) (h_outp : M.outp := by
    assumption) (h_hbm : M.hbm := by assumption) : Within M s u := by
  unfold Machine.execBxget at he
  simp only [Host.Outcome.next.injEq] at he
  subst he
  simp (maxDischargeDepth := 40) only [Within.coreStep, h, h_regs, h_out, h_dealer, h_faults, h_engs, h_outp, h_hbm]

theorem Within.execNarre (h : Within M s t) {e : EngineId} {d a : Reg4} {mv : Moves} (he : (Machine.execNarre e d a mv
    t) = .next u) (h_regs : M.regs := by assumption) (h_out : M.out := by assumption) (h_dealer : M.dealer := by
    assumption) (h_faults : M.faults := by assumption) (h_engs : M.engs := by assumption) (h_outp : M.outp := by
    assumption) (h_hbm : M.hbm := by assumption) : Within M s u := by
  unfold Machine.execNarre at he
  simp only [Host.Outcome.next.injEq] at he
  subst he
  simp (maxDischargeDepth := 40) only [Within.coreStep, h, h_regs, h_out, h_dealer, h_faults, h_engs, h_outp, h_hbm]

theorem Within.execFcvt (h : Within M s t) {e : EngineId} {d : Reg4} {src : FcvtSrc} {mv : Moves} (he :
    (Machine.execFcvt e d src mv t) = .next u) (h_regs : M.regs := by assumption) (h_out : M.out := by assumption)
    (h_dealer : M.dealer := by assumption) (h_faults : M.faults := by assumption) (h_engs : M.engs := by assumption)
    (h_outp : M.outp := by assumption) (h_hbm : M.hbm := by assumption) : Within M s u := by
  unfold Machine.execFcvt at he
  simp only [Host.Outcome.next.injEq] at he
  subst he
  simp (maxDischargeDepth := 40) only [Within.coreStep, h, h_regs, h_out, h_dealer, h_faults, h_engs, h_outp, h_hbm]

theorem Within.execFadd (h : Within M s t) {e : EngineId} {d a b : Reg4} {mv : Moves} (he : (Machine.execFadd e d a b
    mv t) = .next u) (h_regs : M.regs := by assumption) (h_out : M.out := by assumption) (h_dealer : M.dealer := by
    assumption) (h_faults : M.faults := by assumption) (h_engs : M.engs := by assumption) (h_outp : M.outp := by
    assumption) (h_hbm : M.hbm := by assumption) : Within M s u := by
  unfold Machine.execFadd at he
  simp only [Host.Outcome.next.injEq] at he
  subst he
  simp (maxDischargeDepth := 40) only [Within.coreStep, h, h_regs, h_out, h_dealer, h_faults, h_engs, h_outp, h_hbm]

theorem Within.execFsub (h : Within M s t) {e : EngineId} {d a b : Reg4} {mv : Moves} (he : (Machine.execFsub e d a b
    mv t) = .next u) (h_regs : M.regs := by assumption) (h_out : M.out := by assumption) (h_dealer : M.dealer := by
    assumption) (h_faults : M.faults := by assumption) (h_engs : M.engs := by assumption) (h_outp : M.outp := by
    assumption) (h_hbm : M.hbm := by assumption) : Within M s u := by
  unfold Machine.execFsub at he
  simp only [Host.Outcome.next.injEq] at he
  subst he
  simp (maxDischargeDepth := 40) only [Within.coreStep, h, h_regs, h_out, h_dealer, h_faults, h_engs, h_outp, h_hbm]

theorem Within.execFmul (h : Within M s t) {e : EngineId} {d a b : Reg4} {mv : Moves} (he : (Machine.execFmul e d a b
    mv t) = .next u) (h_regs : M.regs := by assumption) (h_out : M.out := by assumption) (h_dealer : M.dealer := by
    assumption) (h_faults : M.faults := by assumption) (h_engs : M.engs := by assumption) (h_outp : M.outp := by
    assumption) (h_hbm : M.hbm := by assumption) : Within M s u := by
  unfold Machine.execFmul at he
  simp only [Host.Outcome.next.injEq] at he
  subst he
  simp (maxDischargeDepth := 40) only [Within.coreStep, h, h_regs, h_out, h_dealer, h_faults, h_engs, h_outp, h_hbm]

theorem Within.execFdiv (h : Within M s t) {e : EngineId} {d a b : Reg4} {mv : Moves} (he : (Machine.execFdiv e d a b
    mv t) = .next u) (h_regs : M.regs := by assumption) (h_out : M.out := by assumption) (h_dealer : M.dealer := by
    assumption) (h_faults : M.faults := by assumption) (h_engs : M.engs := by assumption) (h_outp : M.outp := by
    assumption) (h_hbm : M.hbm := by assumption) : Within M s u := by
  unfold Machine.execFdiv at he
  simp only [Host.Outcome.next.injEq] at he
  subst he
  simp (maxDischargeDepth := 40) only [Within.coreStep, h, h_regs, h_out, h_dealer, h_faults, h_engs, h_outp, h_hbm]

theorem Within.execF16 (h : Within M s t) {e : EngineId} {d a : Reg4} {mv : Moves} (he : (Machine.execF16 e d a mv t)
    = .next u) (h_regs : M.regs := by assumption) (h_out : M.out := by assumption) (h_dealer : M.dealer := by
    assumption) (h_faults : M.faults := by assumption) (h_engs : M.engs := by assumption) (h_outp : M.outp := by
    assumption) (h_hbm : M.hbm := by assumption) : Within M s u := by
  unfold Machine.execF16 at he
  simp only [Host.Outcome.next.injEq] at he
  subst he
  simp (maxDischargeDepth := 40) only [Within.coreStep, h, h_regs, h_out, h_dealer, h_faults, h_engs, h_outp, h_hbm]

theorem Within.execSeta (h : Within M s t) {e : EngineId} {ar : Reg4} {fld : AddrField} {d : Reg4} {mv : Moves} (he :
    (Machine.execSeta e ar fld d mv t) = .next u) (h_regs : M.regs := by assumption) (h_out : M.out := by assumption)
    (h_dealer : M.dealer := by assumption) (h_faults : M.faults := by assumption) (h_engs : M.engs := by assumption)
    (h_outp : M.outp := by assumption) (h_hbm : M.hbm := by assumption) : Within M s u := by
  unfold Machine.execSeta at he
  simp only [Host.Outcome.next.injEq] at he
  subst he
  simp (maxDischargeDepth := 40) only [Within.coreStep, h, h_regs, h_out, h_dealer, h_faults, h_engs, h_outp, h_hbm]

theorem Within.execGeta (h : Within M s t) {e : EngineId} {d ar : Reg4} {fld : AddrField} {mv : Moves} (he :
    (Machine.execGeta e d ar fld mv t) = .next u) (h_regs : M.regs := by assumption) (h_out : M.out := by assumption)
    (h_dealer : M.dealer := by assumption) (h_faults : M.faults := by assumption) (h_engs : M.engs := by assumption)
    (h_outp : M.outp := by assumption) (h_hbm : M.hbm := by assumption) : Within M s u := by
  unfold Machine.execGeta at he
  simp only [Host.Outcome.next.injEq] at he
  subst he
  simp (maxDischargeDepth := 40) only [Within.coreStep, h, h_regs, h_out, h_dealer, h_faults, h_engs, h_outp, h_hbm]

theorem Within.execModa (h : Within M s t) {e : EngineId} {ar : Reg4} {step : BitVec 4} {mv : Moves} (he :
    (Machine.execModa e ar step mv t) = .next u) (h_regs : M.regs := by assumption) (h_out : M.out := by assumption)
    (h_dealer : M.dealer := by assumption) (h_faults : M.faults := by assumption) (h_engs : M.engs := by assumption)
    (h_outp : M.outp := by assumption) (h_hbm : M.hbm := by assumption) : Within M s u := by
  unfold Machine.execModa at he
  simp only [Host.Outcome.next.injEq] at he
  subst he
  simp (maxDischargeDepth := 40) only [Within.coreStep, h, h_regs, h_out, h_dealer, h_faults, h_engs, h_outp, h_hbm]

theorem Within.execLdi (h : Within M s t) {e : EngineId} {d : Reg4} {imm : Word} (he : (Machine.execLdi e d imm t) =
    .next u) (h_regs : M.regs := by assumption) (h_out : M.out := by assumption) (h_dealer : M.dealer := by
    assumption) (h_faults : M.faults := by assumption) (h_engs : M.engs := by assumption) (h_outp : M.outp := by
    assumption) (h_hbm : M.hbm := by assumption) : Within M s u := by
  unfold Machine.execLdi at he
  simp only [Host.Outcome.next.injEq] at he
  subst he
  simp (maxDischargeDepth := 40) only [Within.coreStep, h, h_regs, h_out, h_dealer, h_faults, h_engs, h_outp, h_hbm]

theorem Within.execLoop (h : Within M s t) {e : EngineId} {lend : BitVec 13} {count : LoopCount} {mv : Moves} (he :
    (Machine.execLoop e lend count mv t) = .next u) (h_regs : M.regs := by assumption) (h_out : M.out := by
    assumption) (h_dealer : M.dealer := by assumption) (h_faults : M.faults := by assumption) (h_engs : M.engs := by
    assumption) (h_outp : M.outp := by assumption) (h_hbm : M.hbm := by assumption) : Within M s u := by
  unfold Machine.execLoop at he
  simp only [Host.Outcome.next.injEq] at he
  subst he
  simp (maxDischargeDepth := 40) only [Within.coreStep, h, h_regs, h_out, h_dealer, h_faults, h_engs, h_outp, h_hbm]

theorem Within.execEndl (h : Within M s t) {e : EngineId} {mv : Moves} (he : (Machine.execEndl e mv t) = .next u)
    (h_regs : M.regs := by assumption) (h_out : M.out := by assumption) (h_dealer : M.dealer := by assumption)
    (h_faults : M.faults := by assumption) (h_engs : M.engs := by assumption) (h_outp : M.outp := by assumption)
    (h_hbm : M.hbm := by assumption) : Within M s u := by
  unfold Machine.execEndl at he
  simp only [Host.Outcome.next.injEq] at he
  subst he
  simp (maxDischargeDepth := 40) only [Within.coreStep, h, h_regs, h_out, h_dealer, h_faults, h_engs, h_outp, h_hbm]

theorem Within.execArrayAndDealerInstruction (h : Within M s t) {e : EngineId} {mv : Moves} (he :
    (Machine.execArrayAndDealerInstruction e mv t) = .next u) (h_regs : M.regs := by assumption) (h_out : M.out := by
    assumption) (h_dealer : M.dealer := by assumption) (h_faults : M.faults := by assumption) (h_engs : M.engs := by
    assumption) (h_outp : M.outp := by assumption) (h_hbm : M.hbm := by assumption) : Within M s u := by
  unfold Machine.execArrayAndDealerInstruction at he
  simp only [Host.Outcome.next.injEq] at he
  subst he
  simp (maxDischargeDepth := 40) only [Within.coreStep, h, h_regs, h_out, h_dealer, h_faults, h_engs, h_outp, h_hbm]

theorem Within.execOutputInstruction (h : Within M s t) {e : EngineId} {mv : Moves} (he :
    (Machine.execOutputInstruction e mv t) = .next u) (h_regs : M.regs := by assumption) (h_out : M.out := by
    assumption) (h_dealer : M.dealer := by assumption) (h_faults : M.faults := by assumption) (h_engs : M.engs := by
    assumption) (h_outp : M.outp := by assumption) (h_hbm : M.hbm := by assumption) : Within M s u := by
  unfold Machine.execOutputInstruction at he
  simp only [Host.Outcome.next.injEq] at he
  subst he
  simp (maxDischargeDepth := 40) only [Within.coreStep, h, h_regs, h_out, h_dealer, h_faults, h_engs, h_outp, h_hbm]

end Sys2Proof.Machine
end

