-- ==== Sys2Proof/Laws/Within4.lean ====
section
/-! SUPPORT. Which parts of the state the operations and meanings of Machine/Plans.lean, Machine/Winos.lean,
Machine/SysCmds.lean, Machine/PlanCmds.lean, Machine/OutCmds.lean, Machine/TimeRef.lean, Machine/Ledger.lean,
Machine/Stacks.lean, Machine/Scratch.lean, Machine/Faults.lean may change (`Within`), one lemma each. -/

namespace Sys2Proof.Machine

set_option Elab.async false

variable {M : Mask} {s t u : State}

theorem Within.showSlots (h : Within M s t) (h_regs : M.regs := by assumption) : Within M s (State.showSlots t) := by
  unfold State.showSlots
  simp (maxDischargeDepth := 40) only [Within.wr, h, h_regs]

theorem Within.allocWeights (h : Within M s t) (h_regs : M.regs := by assumption) (h_plans : M.plans := by assumption)
    (h_hbm : M.hbm := by assumption) : Within M s (State.allocWeights t) := by
  unfold State.allocWeights
  simp (maxDischargeDepth := 40) only [Within.linesRead, Within.alloced, Within.flag, Within.wr64, Within.wr, Within.hbmWrite, Within.ite,
            Within.refl, h, implies_true, Within.forN, h_regs, h_plans, h_hbm, true_or, or_true, and_self]

theorem Within.reevaluate (h : Within M s t) (h_regs : M.regs := by assumption) (h_plans : M.plans := by assumption) :
    Within M s (State.reevaluate t) := by
  unfold State.reevaluate
  simp (maxDischargeDepth := 40) only [Within.showSlots, Within.setSlot, Within.ite, Within.refl, h, implies_true,
    Within.forN, h_regs, h_plans]

theorem Within.build (h : Within M s t) {i : Nat} (h_regs : M.regs := by assumption) (h_plans : M.plans := by
    assumption) (h_hbm : M.hbm := by assumption) : Within M s (State.build t i).1 := by
  unfold State.build
  repeat' (first
      | (simp (maxDischargeDepth := 40) only [Within.setSlot, Within.showSlots, Within.allocWeights, h, h_regs,
            h_plans, h_hbm]; done)
      | dsimp only
      | split)

theorem Within.takePosition (h : Within M s t) {p e : Nat} (h_regs : M.regs := by assumption) : Within M s
    (State.takePosition t p e) := by
  unfold State.takePosition
  simp (maxDischargeDepth := 40) only [Within.setHolder, Within.wr, h, h_regs]

theorem Within.allotPositions (h : Within M s t) {e : Nat} (h_regs : M.regs := by assumption) : Within M s
    (State.allotPositions t e) := by
  unfold State.allotPositions
  repeat' (first
      | (simp (maxDischargeDepth := 40) only [Within.takePosition, Within.setHolder, Within.wr, Within.ite,
            Within.refl, h, implies_true, h_regs]; done)
      | with_reducible refine Within.forN (fun t x => ?_) ?_
      | split)

theorem Within.showPlan (h : Within M s t) (h_regs : M.regs := by assumption) : Within M s (State.showPlan t) := by
  unfold State.showPlan
  repeat' (first | (simp (maxDischargeDepth := 40) only [Within.wr, Within.put, h, h_regs]; done) | split)

theorem Within.clearKernelFault (h : Within M s t) (h_regs : M.regs := by assumption) : Within M s
    (State.clearKernelFault t) := by
  unfold State.clearKernelFault
  simp (maxDischargeDepth := 40) only [Within.wr, h, h_regs]

theorem Within.endCloses (h : Within M s t) {d : Nat} (h_regs : M.regs := by assumption) (h_out : M.out := by
    assumption) (h_dealer : M.dealer := by assumption) (h_faults : M.faults := by assumption) : Within M s
    (State.endCloses t d) := by
  unfold State.endCloses
  simp (maxDischargeDepth := 40) only [Within.endLong, Within.foldl, Within.refl, h, implies_true, h_regs, h_out,
    h_dealer, h_faults]

theorem Within.endZoomChanges (h : Within M s t) (h_regs : M.regs := by assumption) (h_out : M.out := by assumption)
    (h_dealer : M.dealer := by assumption) (h_faults : M.faults := by assumption) : Within M s (State.endZoomChanges
    t) := by
  unfold State.endZoomChanges
  simp (maxDischargeDepth := 40) only [Within.endLongOf, Within.ite, Within.refl, h, implies_true, Within.forN, h_regs, h_out, h_dealer,
            h_faults, true_or, or_true, and_self]

theorem Within.makeDeal (h : Within M s t) {slot : Option Nat} {d : Nat} (h_regs : M.regs := by assumption) (h_out :
    M.out := by assumption) (h_dealer : M.dealer := by assumption) (h_faults : M.faults := by assumption) (h_deck :
    M.deck := by assumption) (h_plans : M.plans := by assumption) (h_tricks : M.tricks := by assumption) (h_beams :
    M.beams := by assumption) (h_outp : M.outp := by assumption) : Within M s (State.makeDeal t slot d) := by
  unfold State.makeDeal
  repeat' (first
      | (simp (maxDischargeDepth := 40) only [Within.planSlots, Within.endZoomChanges, Within.showPlan,
            Within.freeDue, Within.alloced, Within.wr64, Within.allotPositions, Within.clearKernelFault,
            Within.askLayout, Within.showBases, Within.allocAcc, Within.openDue, Within.upd, Within.ite, h, true_or,
            or_true, and_self, implies_true, h_regs, h_out, h_dealer, h_faults, h_deck, h_plans, h_tricks, h_beams,
            h_outp]; done)
      | dsimp only
      | split)

theorem Within.admitAgain (h : Within M s t) {slot : Option Nat} (h_regs : M.regs := by assumption) (h_plans : M.plans := by assumption) : Within M s (State.admitAgain t slot) := by
  unfold State.admitAgain
  repeat' (first
      | (simp (maxDischargeDepth := 40) only [Within.upd, Within.showSlots, Within.setSlot, h, true_or, or_true, and_self, implies_true, h_regs, h_plans]; done)
      | dsimp only
      | split)

theorem Within.execPlanHandOver (h : Within M s t) (he : Machine.execPlanHandOver t = .next u) (h_regs : M.regs := by
    assumption) (h_out : M.out := by assumption) (h_dealer : M.dealer := by assumption) (h_faults : M.faults := by
    assumption) (h_time : M.time := by assumption) (h_deck : M.deck := by assumption) (h_plans : M.plans := by
    assumption) (h_tricks : M.tricks := by assumption) (h_beams : M.beams := by assumption) (h_outp : M.outp := by
    assumption) : Within M s u := by
  unfold Machine.execPlanHandOver at he
  simp -zeta only [Host.Outcome.next.injEq] at he
  subst he
  split
  · exact h
  · next q _ =>
    extract_lets +onlyGivenNames early
    clear_value early
    split
    · exact h
    · extract_lets +onlyGivenNames s1 st code s2
      have h1 : Within M s s1 := by
        unfold s1
        split
        · exact h.reach
        · exact h
      have h2 : Within M s s2 := h1.event
      clear_value s2 code st s1
      extract_lets +onlyGivenNames dsn src s3 s4 s5
      clear_value dsn
      have h3 : Within M s s3 := h2.upd
      clear_value s3
      have h5 : Within M s s5 := h3.wr.wr.wr64.wr64
      clear_value s5
      extract_lets +onlyGivenNames s6
      have h6 : Within M s s6 := .ite (fun _ => h5.admitAgain.endCloses.makeDeal.flag) (fun _ => h5.flag.openDue)
      clear_value s6
      split
      · exact h6.endLong
      · exact h6

theorem Within.execTableLoadComplete (h : Within M s t) (he : (Machine.execTableLoadComplete t) = .next u) (h_regs :
    M.regs := by assumption) (h_out : M.out := by assumption) (h_dealer : M.dealer := by assumption) (h_faults :
    M.faults := by assumption) (h_plans : M.plans := by assumption) : Within M s u := by
  unfold Machine.execTableLoadComplete at he
  simp only [Host.Outcome.next.injEq] at he
  subst he
  repeat' (first
      | (simp (maxDischargeDepth := 40) only [Within.endLong, Within.setSlot, h, h_regs, h_out, h_dealer, h_faults,
            h_plans]; done)
      | split)

theorem Within.popEntry (h : Within M s t) {src : Src} (h_regs : M.regs := by assumption) : Within M s (State.popEntry
    t src) := by
  unfold State.popEntry
  repeat' (first | (simp (maxDischargeDepth := 40) only [Within.wr, h, h_regs]; done) | split)

theorem Within.heldBack (h : Within M s t) {src : Src} (h_regs : M.regs := by assumption) : Within M s (State.heldBack
    t src) := by
  unfold State.heldBack
  repeat' (first | (simp (maxDischargeDepth := 40) only [Within.flag, h, h_regs]; done) | split)

theorem Within.fetchFailed (h : Within M s t) {src : Src} {addr n : Nat} (h_regs : M.regs := by assumption) (h_faults :
    M.faults := by assumption) : Within M s (State.fetchFailed t src addr n) := by
  unfold State.fetchFailed
  repeat' (first
      | (simp (maxDischargeDepth := 40) only [Within.popEntry, Within.fabRefuse, Within.hostTimeout, Within.flag,
            Within.ite, h, true_or, or_true, and_self, implies_true, h_regs, h_faults]; done)
      | dsimp only
      | split)

theorem Within.winos (h : Within M s t) {cmd : Instr} {d : Hdr} {op len : Nat} {auth early : Bool} {body : State → Ans}
    (hb : ∀ u, AnsWithin M u (body u)) (h_regs : M.regs := by assumption) (h_out : M.out := by assumption) (h_dealer :
      M.dealer := by assumption) (h_faults : M.faults := by assumption) : Within M s (t.winos cmd d op len auth early
      body) := by
  have ha := fun u => AnsWithin.answer (s := u) (.refl _ u) (d := d) (len := len) (auth := auth) (early := early) hb
  unfold State.winos
  split
  · exact h
  split
  · exact h.fetchFailed
  dsimp only
  have h1 : Within M s (((t.popEntry d.src).bump .DLR_CMDCNT_COUNT).event 9 0x0901 (transportOf d.src) 0
      (op + 65536 * d.tag.toNat)) := h.popEntry.bump.event
  generalize ((t.popEntry d.src).bump .DLR_CMDCNT_COUNT).event 9 0x0901 (transportOf d.src) 0
    (op + 65536 * d.tag.toNat) = v at h1 ⊢
  split
  · exact h1
  · split
    · split
      · exact h.heldBack
      · split
        · exact h1.sendPacket.sendPacket
        · exact h1.sendPacket
    · have hk : AnsWithin M v (if v.tooLong d (v.answer d len auth early body) then v.bad 0
          else v.answer d len auth early body) := by
        split
        · exact .bad (.refl _ v)
        · exact ha v
      generalize (if v.tooLong d (v.answer d len auth early body) then v.bad 0
        else v.answer d len auth early body) = a at hk ⊢
      split
      · exact h.heldBack
      · exact (h1.trans hk.st).upd.sendPacket.trans (hk.after _)

theorem Within.discardPacket (h : Within M s t) {src : Src} (h_regs : M.regs := by assumption) (h_faults : M.faults :=
    by assumption) : Within M s (State.discardPacket t src) := by
  unfold State.discardPacket
  repeat' (first
      | (simp (maxDischargeDepth := 40) only [Within.fetchFailed, Within.popEntry, Within.bump, Within.flag,
            Within.ite, h, true_or, or_true, and_self, implies_true, h_regs, h_faults]; done)
      | dsimp only
      | split)

theorem Within.execWinosPacketDiscarded (h : Within M s t) {p : StrayPacket} (he :
    (Machine.execWinosPacketDiscarded p t) = .next u) (h_regs : M.regs := by assumption) (h_out : M.out := by
    assumption) (h_dealer : M.dealer := by assumption) (h_faults : M.faults := by assumption) : Within M s u := by
  unfold Machine.execWinosPacketDiscarded at he
  simp only [Host.Outcome.next.injEq] at he
  subst he
  split
  · exact h.discardPacket
  · split
    · exact h
    · exact Within.winos h fun u => .bad (.refl _ u)

theorem Within.ledgerPut (h : Within M s t) {o : Nat} {l : List Byte} (h_ledger : M.ledger := by assumption) : Within
    M s (State.ledgerPut t o l) :=
  h.trans { Within.refl M t with
    keeps := .of rfl rfl (Nat.le_refl _) rfl fun w => ⟨w.1, w.2.1, w.2.2.1, twf_tsetMany _ _ _ _ w.2.2.2.1, w.2.2.2.2⟩
    ledger := .inl h_ledger }

theorem Within.overwrite (h : Within M s t) {slots : List Nat} (h_ledger : M.ledger := by assumption) : Within M s
    (State.overwrite t slots) := by
  unfold State.overwrite
  simp (maxDischargeDepth := 40) only [Within.upd, h, true_or, or_true, and_self, h_ledger]

theorem Within.writeSlots (h : Within M s t) {slots : List Nat} {b : List Byte} (h_ledger : M.ledger := by assumption)
    : Within M s (State.writeSlots t slots b) := by
  unfold State.writeSlots
  simp (maxDischargeDepth := 40) only [Within.ledgerPut, Within.foldl, Within.refl, h, implies_true, Within.forN,
    h_ledger]

theorem Within.writeRecord (h : Within M s t) {r : LRec} (h_regs : M.regs := by assumption) (h_ledger : M.ledger := by
    assumption) : Within M s (State.writeRecord t r) := by
  unfold State.writeRecord
  simp (maxDischargeDepth := 40) only [Within.writeSlots, Within.overwrite, Within.wr64, Within.bump, Within.upd, h, true_or, or_true,
            and_self, h_regs, h_ledger, implies_true]

theorem Within.takeCurrent (h : Within M s t) {slots : List Nat} (h_ledger : M.ledger := by assumption) : Within M s
    (State.takeCurrent t slots).1 := by
  unfold State.takeCurrent
  simp (maxDischargeDepth := 40) only [Within.upd, h, true_or, or_true, and_self, h_ledger]

theorem Within.exchange (h : Within M s t) (h_ledger : M.ledger := by assumption) : Within M s (State.exchange t).1 :=
    by
  unfold State.exchange
  repeat' (first
      | (simp (maxDischargeDepth := 40) only [Within.takeCurrent, Within.upd, h, true_or, or_true, and_self,
            h_ledger]; done)
      | dsimp only
      | split)

theorem Within.writeQueue {fuel : Nat} {q : List LRec} (h : Within M s t) (h_regs : M.regs := by assumption) (h_ledger
    : M.ledger := by assumption) : Within M s (State.writeQueue fuel q t) := by
  induction fuel generalizing t q with
  | zero => unfold State.writeQueue; exact h
  | succ f ih =>
    cases q with
    | nil => unfold State.writeQueue; exact h
    | cons r rest =>
      unfold State.writeQueue
      dsimp only
      split
      · split
        · exact ih h.writeRecord.exchange
        · exact ih h.writeRecord
      · exact ih h.takeCurrent

theorem Within.spoilSlot (h : Within M s t) {p : Nat} (h_ledger : M.ledger := by assumption) : Within M s
    (State.spoilSlot t p) :=
  Within.ledgerPut (t := { t with fresh := t.fresh + 32 }) h.updFresh

theorem Within.slotFails (h : Within M s t) {slot : Nat} (h_regs : M.regs := by assumption) (h_out : M.out := by
    assumption) (h_dealer : M.dealer := by assumption) (h_faults : M.faults := by assumption) (h_ledger : M.ledger :=
    by assumption) : Within M s (State.slotFails t slot) := by
  unfold State.slotFails
  simp (maxDischargeDepth := 40) only [Within.event, Within.flag, Within.spoilSlot, Within.fault, Within.wr, Within.overwrite,
            Within.repair, Within.newItem, Within.upd, Within.ite, h, true_or, or_true, and_self, implies_true,
            h_regs, h_out, h_dealer, h_faults, h_ledger]

theorem Within.attemptFails (h : Within M s t) {q : List LRec} (h_regs : M.regs := by assumption) (h_out : M.out := by assumption) (h_dealer : M.dealer := by assumption) (h_faults : M.faults := by assumption) (h_ledger : M.ledger := by assumption) : Within M s (State.attemptFails t q).1 := by
  unfold State.attemptFails
  repeat' (first
      | (simp (maxDischargeDepth := 40) only [Within.refl, Within.ite, Within.slotFails, Within.overwrite, Within.ledgerPut, Within.foldl,
            Within.drawn, h, true_or, or_true, and_self, implies_true, h_regs, h_out, h_dealer, h_faults, h_ledger]; done)
      | dsimp only
      | split)

theorem Within.execLedgerRecordWrite (h : Within M s t) {badSlots : Nat} (he : (Machine.execLedgerRecordWrite badSlots
    t) = .next u) (h_regs : M.regs := by assumption) (h_out : M.out := by assumption) (h_dealer : M.dealer := by
    assumption) (h_faults : M.faults := by assumption) (h_tricks : M.tricks := by assumption) (h_ledger : M.ledger :=
    by assumption) : Within M s u := by
  unfold Machine.execLedgerRecordWrite at he
  simp only [Host.Outcome.next.injEq] at he
  subst he
  split
  · exact h
  · split
    · exact h
    · next q r rest _ _ =>
      have a : Within M s ((List.range badSlots).foldl (fun (a : State × List LRec) _ => a.1.attemptFails a.2)
          ({ t with ledger := { t.ledger with pend := rest } }, [r])).1 :=
        Within.foldlFst (fun _ _ _ => Within.attemptFails (.refl M _)) h.upd
      split
      · exact a
      · exact a.writeQueue.tryRelease

theorem Within.writeSnapshot (h : Within M s t) (h_regs : M.regs := by assumption) (h_ledger : M.ledger := by
    assumption) : Within M s (State.writeSnapshot t) := by
  unfold State.writeSnapshot
  repeat' (first
      | (simp (maxDischargeDepth := 40) only [Within.ite, Within.writeSlots, Within.overwrite, Within.wr64, Within.bump, Within.flag, Within.wr,
            Within.upd, h, true_or, or_true, and_self, h_regs, h_ledger, implies_true]; done)
      | split)

theorem Within.execPowerFailSnapshot (h : Within M s t) (he : (Machine.execPowerFailSnapshot t) = .next u) (h_regs :
    M.regs := by assumption) (h_ledger : M.ledger := by assumption) (h_power : M.power := by assumption) : Within M s
    u := by
  unfold Machine.execPowerFailSnapshot at he
  simp only [Host.Outcome.next.injEq] at he
  subst he
  simp (maxDischargeDepth := 40) only [Within.writeSnapshot, Within.upd, Within.ite, h, true_or, or_true, and_self,
    implies_true, h_regs, h_ledger, h_power]

theorem Within.execLedgerRead (h : Within M s t) {a0 : Hdr} {first count : BitVec 16} (he : (Machine.execLedgerRead a0
    first count t) = .next u) (h_regs : M.regs := by assumption) (h_out : M.out := by assumption) (h_dealer : M.dealer
    := by assumption) (h_faults : M.faults := by assumption) : Within M s u := by
  unfold Machine.execLedgerRead at he
  simp only [Host.Outcome.next.injEq] at he
  subst he
  repeat' (first
      | with_reducible assumption
      | (with_reducible refine Within.winos ?_ (fun u => ?_))
      | split
      | (refine AnsWithin.mk ?_ (fun w => ?_))
      | exact Within.refl _ _)

theorem Within.showRebuild (h : Within M s t) (h_regs : M.regs := by assumption) : Within M s (State.showRebuild t) :=
    by
  unfold State.showRebuild
  simp (maxDischargeDepth := 40) only [Within.wr, h, h_regs]

theorem Within.startRebuild (h : Within M s t) {k p n : Nat} (h_regs : M.regs := by assumption) (h_hbm : M.hbm := by
    assumption) : Within M s (State.startRebuild t k p n) := by
  unfold State.startRebuild
  simp (maxDischargeDepth := 40) only [Within.showRebuild, Within.upd, h, true_or, or_true, and_self, h_regs, h_hbm]

theorem Within.linesDie (h : Within M s t) {n : Nat} (h_regs : M.regs := by assumption) : Within M s (State.linesDie t n) := by
  unfold State.linesDie
  simp (maxDischargeDepth := 40) only [Within.wr, Within.flag, h, h_regs]

theorem Within.loseStack (h : Within M s t) {k kind : Nat} {held : optParam Bool Bool.true} (h_regs : M.regs := by
    assumption) (h_out : M.out := by assumption) (h_dealer : M.dealer := by assumption) (h_faults : M.faults := by
    assumption) (h_hbm : M.hbm := by assumption) (h_ledger : M.ledger := by assumption) : Within M s (State.loseStack
    t k kind held) := by
  unfold State.loseStack
  simp (maxDischargeDepth := 40) only [Within.wr, Within.repair, Within.newItem, Within.flag, Within.event, Within.fault, Within.linesDie,
            Within.startRebuild, Within.upd, Within.ite, Within.refl, h, true_or, or_true, and_self,
            implies_true, Within.whenS, h_regs, h_out, h_dealer, h_faults, h_hbm, h_ledger]

theorem Within.stackFails (h : Within M s t) {k kind : Nat} (h_regs : M.regs := by assumption) (h_out : M.out := by
    assumption) (h_dealer : M.dealer := by assumption) (h_faults : M.faults := by assumption) (h_hbm : M.hbm := by
    assumption) (h_ledger : M.ledger := by assumption) : Within M s (State.stackFails t k kind) := by
  unfold State.stackFails
  exact h.partFault.loseStack

theorem Within.closeRows (h : Within M s t) {pc : Nat} (h_hbm : M.hbm := by assumption) : Within M s (State.closeRows t pc) := by
  unfold State.closeRows
  repeat' (first
      | (simp (maxDischargeDepth := 40) only [Within.upd, h, true_or, or_true, and_self, implies_true, h_hbm]; done)
      | dsimp only
      | split)

theorem Within.retirePc (h : Within M s t) {k p : Nat} (h_regs : M.regs := by assumption) (h_out : M.out := by
    assumption) (h_dealer : M.dealer := by assumption) (h_faults : M.faults := by assumption) (h_hbm : M.hbm := by
    assumption) (h_ledger : M.ledger := by assumption) : Within M s (State.retirePc t k p) := by
  unfold State.retirePc
  simp (maxDischargeDepth := 40) only [Within.closeRows, Within.flag, Within.wr, Within.repair, Within.newItem, Within.fault,
            Within.startRebuild, Within.loseStack, Within.partFault, Within.linesDie, Within.upd, Within.ite,
            Within.refl, h, true_or, or_true, and_self, implies_true, Within.whenS, h_regs, h_out, h_dealer,
            h_faults, h_hbm, h_ledger]

theorem Within.execRebuild (h : Within M s t) (he : (Machine.execRebuild t) = .next u) (h_regs : M.regs := by
    assumption) (h_hbm : M.hbm := by assumption) : Within M s u := by
  unfold Machine.execRebuild at he
  simp only [Host.Outcome.next.injEq] at he
  subst he
  repeat' (first
      | (simp (maxDischargeDepth := 40) only [Within.showRebuild, Within.flag, Within.wr, Within.upd, Within.ite,
            Within.refl, h, true_or, or_true, and_self, implies_true, Within.whenS, h_regs, h_hbm]; done)
      | split)

theorem Within.setTotal (h : Within M s t) {k which v : Nat} (h_hbm : M.hbm := by assumption) : Within M s
    (State.setTotal t k which v) := by
  unfold State.setTotal
  simp (maxDischargeDepth := 40) only [Within.upd, h, true_or, or_true, and_self, h_hbm]

theorem Within.stalled (h : Within M s t) {k n : Nat} (h_regs : M.regs := by assumption) (h_hbm : M.hbm := by
    assumption) : Within M s (State.stalled t k n) := by
  unfold State.stalled
  simp (maxDischargeDepth := 40) only [Within.setTotal, Within.wr, h, h_regs, h_hbm]

theorem Within.execInterfaceLockLost (h : Within M s t) {k : StackId} (he : (Machine.execInterfaceLockLost k t) =
    .next u) (h_regs : M.regs := by assumption) (h_faults : M.faults := by assumption) (h_hbm : M.hbm := by
    assumption) : Within M s u := by
  unfold Machine.execInterfaceLockLost at he
  simp only [Host.Outcome.next.injEq] at he
  subst he
  simp (maxDischargeDepth := 40) only [Within.fault, Within.setLive, Within.upd, Within.ite, h, true_or, or_true,
    and_self, implies_true, h_regs, h_faults, h_hbm]

theorem Within.execInterfaceLockRegained (h : Within M s t) {k : StackId} (he : (Machine.execInterfaceLockRegained k
    t) = .next u) (h_faults : M.faults := by assumption) (h_hbm : M.hbm := by assumption) : Within M s u := by
  unfold Machine.execInterfaceLockRegained at he
  simp only [Host.Outcome.next.injEq] at he
  subst he
  simp (maxDischargeDepth := 40) only [Within.setLive, Within.upd, Within.ite, h, true_or, or_true, and_self,
    implies_true, h_faults, h_hbm]

theorem Within.execInterfaceLockTimeout (h : Within M s t) {k : StackId} (he : (Machine.execInterfaceLockTimeout k t)
    = .next u) (h_regs : M.regs := by assumption) (h_out : M.out := by assumption) (h_dealer : M.dealer := by
    assumption) (h_faults : M.faults := by assumption) (h_hbm : M.hbm := by assumption) (h_ledger : M.ledger := by
    assumption) : Within M s u := by
  unfold Machine.execInterfaceLockTimeout at he
  simp only [Host.Outcome.next.injEq] at he
  subst he
  simp (maxDischargeDepth := 40) only [Within.stackFails, Within.ite, h, implies_true, h_regs, h_out, h_dealer,
    h_faults, h_hbm, h_ledger]

theorem Within.catchUp (h : Within M s t) {k : Nat} (h_regs : M.regs := by assumption) (h_hbm : M.hbm := by
    assumption) : Within M s (State.catchUp t k) := by
  unfold State.catchUp
  simp (maxDischargeDepth := 40) only [Within.closeRows, Within.stalled, Within.upd, Within.ite, Within.refl, h, true_or, or_true,
            and_self, implies_true, Within.forN, h_regs, h_hbm]

theorem Within.execStackTemperatureReading (h : Within M s t) {k : StackId} {a1 : Int} (he :
    (Machine.execStackTemperatureReading k a1 t) = .next u) (h_regs : M.regs := by assumption) (h_out : M.out := by
    assumption) (h_dealer : M.dealer := by assumption) (h_faults : M.faults := by assumption) (h_hbm : M.hbm := by
    assumption) (h_ledger : M.ledger := by assumption) : Within M s u := by
  unfold Machine.execStackTemperatureReading at he
  simp only [Host.Outcome.next.injEq] at he
  subst he
  simp (maxDischargeDepth := 40) only [Within.wr, Within.stackFails, Within.fault, Within.flag, Within.catchUp,
    Within.setLive, Within.ite, h, implies_true, h_regs, h_out, h_dealer, h_faults, h_hbm, h_ledger]

theorem Within.execRefreshInterval (h : Within M s t) {k : StackId} {pc : Fin 32} {queued : Bool} (he :
    (Machine.execRefreshInterval k pc queued t) = .next u) (h_regs : M.regs := by assumption) (h_hbm : M.hbm := by
    assumption) : Within M s u := by
  unfold Machine.execRefreshInterval at he
  simp only [Host.Outcome.next.injEq] at he
  subst he
  simp (maxDischargeDepth := 40) only [Within.closeRows, Within.stalled, Within.upd, Within.ite, h, true_or, or_true, and_self,
            implies_true, h_regs, h_hbm]

theorem Within.execCommandAddressParityError (h : Within M s t) {k : StackId} {pc : Fin 32} {replayOk : Bool} (he :
    (Machine.execCommandAddressParityError k pc replayOk t) = .next u) (h_regs : M.regs := by assumption) (h_out :
    M.out := by assumption) (h_dealer : M.dealer := by assumption) (h_faults : M.faults := by assumption) (h_hbm :
    M.hbm := by assumption) (h_ledger : M.ledger := by assumption) : Within M s u := by
  unfold Machine.execCommandAddressParityError at he
  simp only [Host.Outcome.next.injEq] at he
  subst he
  simp (maxDischargeDepth := 40) only [Within.setTotal, Within.bump, Within.fault, Within.retirePc, Within.upd,
    Within.ite, h, true_or, or_true, and_self, implies_true, h_regs, h_out, h_dealer, h_faults, h_hbm, h_ledger]

theorem Within.markRow (h : Within M s t) {k p addr : Nat} (h_regs : M.regs := by assumption) (h_out : M.out := by
    assumption) (h_dealer : M.dealer := by assumption) (h_faults : M.faults := by assumption) (h_hbm : M.hbm := by
    assumption) (h_ledger : M.ledger := by assumption) : Within M s (State.markRow t k p addr) := by
  unfold State.markRow
  simp (maxDischargeDepth := 40) only [Within.flag, Within.repair, Within.newItem, Within.upd, Within.ite, h, true_or,
    or_true, and_self, implies_true, h_regs, h_out, h_dealer, h_faults, h_hbm, h_ledger]

theorem Within.wordCorrected (h : Within M s t) {k p addr : Nat} (h_regs : M.regs := by assumption) (h_out : M.out :=
    by assumption) (h_dealer : M.dealer := by assumption) (h_faults : M.faults := by assumption) (h_hbm : M.hbm := by
    assumption) (h_ledger : M.ledger := by assumption) : Within M s (State.wordCorrected t k p addr) := by
  unfold State.wordCorrected
  simp (maxDischargeDepth := 40) only [Within.setTotal, Within.bump, Within.markRow, Within.upd, Within.ite, h,
    true_or, or_true, and_self, implies_true, h_regs, h_out, h_dealer, h_faults, h_hbm, h_ledger]

theorem Within.chunkRebuilt (h : Within M s t) {k p addr : Nat} (h_regs : M.regs := by assumption) (h_out : M.out :=
    by assumption) (h_dealer : M.dealer := by assumption) (h_faults : M.faults := by assumption) (h_hbm : M.hbm := by
    assumption) (h_ledger : M.ledger := by assumption) : Within M s (State.chunkRebuilt t k p addr) := by
  unfold State.chunkRebuilt
  simp (maxDischargeDepth := 40) only [Within.markRow, Within.setTotal, Within.bump, h, h_regs, h_out, h_dealer,
    h_faults, h_hbm, h_ledger]

theorem Within.poisonLine (h : Within M s t) {addr : Nat} (h_regs : M.regs := by assumption) (h_hbm : M.hbm := by
    assumption) : Within M s (State.poisonLine t addr) := by
  unfold State.poisonLine
  simp (maxDischargeDepth := 40) only [Within.flag, Within.bump, Within.upd, h, true_or, or_true, and_self, h_regs,
    h_hbm]

theorem Within.execMemStatus (h : Within M s t) {a0 : Hdr} {stack : Byte} (he : (Machine.execMemStatus a0 stack t) =
    .next u) (h_regs : M.regs := by assumption) (h_out : M.out := by assumption) (h_dealer : M.dealer := by
    assumption) (h_faults : M.faults := by assumption) : Within M s u := by
  unfold Machine.execMemStatus at he
  simp only [Host.Outcome.next.injEq] at he
  subst he
  repeat' (first
      | with_reducible assumption
      | (with_reducible refine Within.winos ?_ (fun u => ?_))
      | split
      | (refine AnsWithin.mk ?_ (fun w => ?_))
      | exact Within.refl _ _)

theorem Within.execMemCfg (h : Within M s t) {a0 : Hdr} {params : List Byte} (he : (Machine.execMemCfg a0 params t) =
    .next u) (h_regs : M.regs := by assumption) (h_out : M.out := by assumption) (h_dealer : M.dealer := by
    assumption) (h_faults : M.faults := by assumption) : Within M s u := by
  unfold Machine.execMemCfg at he
  simp only [Host.Outcome.next.injEq] at he
  subst he
  repeat' (first
      | with_reducible assumption
      | with_reducible apply Within.wr
      | dsimp only [State.ok]
      | (with_reducible refine Within.winos ?_ (fun u => ?_))
      | split
      | (refine AnsWithin.mk ?_ (fun w => ?_))
      | exact Within.refl _ _)

theorem Within.execSpdOwn (h : Within M s t) {m : Byte} {bank : Fin 64} {owner : Byte} (he : (Machine.execSpdOwn m
    bank owner t) = .next u) (h_regs : M.regs := by assumption) (h_faults : M.faults := by assumption) (h_out : M.out := by assumption) (h_dealer : M.dealer := by assumption) (h_time : M.time := by assumption) (h_lanes : M.lanes := by assumption) (h_links : M.links := by assumption) (h_sess : M.sess := by assumption) (h_deck : M.deck := by assumption) (h_engs : M.engs := by assumption) (h_plans : M.plans := by assumption) (h_tricks : M.tricks := by assumption) (h_hbm : M.hbm := by assumption) (h_spd : M.spd := by assumption) (h_sec : M.sec := by assumption) (h_ledger : M.ledger := by assumption) (h_fab : M.fab := by assumption) (h_dma : M.dma := by assumption) (h_power : M.power := by assumption) : Within M s u
    := by
  unfold Machine.execSpdOwn at he
  simp only [Host.Outcome.next.injEq] at he
  subst he
  simp (maxDischargeDepth := 40) only [Within.ite, Within.send, Within.access, Within.setOwner, h, h_regs, h_faults, true_or, or_true,
            and_self, implies_true, h_out, h_dealer, h_time, h_lanes, h_links, h_sess, h_deck, h_engs, h_plans, h_tricks, h_hbm, h_spd, h_sec, h_ledger, h_fab, h_dma, h_power]

theorem Within.spoilWord (h : Within M s t) {b addr : Nat} (h_spd : M.spd := by assumption) : Within M s
    (State.spoilWord t b addr) := by
  unfold State.spoilWord
  simp (maxDischargeDepth := 40) only [Within.upd, Within.ite, h, true_or, or_true, and_self, implies_true, h_spd]

/-- Cells written one after another keep a table's canonical form. -/
theorem twf_foldr_tset {α β : Type} [DecidableEq α] (d : α) (k : β → Nat) (v : β → α) (t : Tbl α) (h : twf d t = true) :
    ∀ l : List β, twf d (l.foldr (fun c t => tset d t (k c) (v c)) t) = true
  | [] => h
  | c :: l => twf_tset d _ (k c) (v c) (twf_foldr_tset d k v t h l)

theorem Within.copyImage (h : Within M s t) {i : Nat} (h_spd : M.spd := by assumption) : Within M s (State.copyImage t
    i) :=
  h.trans { Within.refl M t with
    keeps := .of rfl rfl (Nat.le_refl _) rfl fun w =>
      ⟨w.1, w.2.1, twf_foldr_tset _ _ _ _ (twf_filter _ _ _ w.2.2.1) _, w.2.2.2⟩, spd := .inl h_spd }

theorem Within.execSpdPwr (h : Within M s t) {req : BitVec 16} (he : (Machine.execSpdPwr req t) = .next u) (h_regs :
    M.regs := by assumption) (h_spd : M.spd := by assumption) (h_power : M.power := by assumption) : Within M s u := by
  unfold Machine.execSpdPwr at he
  simp only [Host.Outcome.next.injEq] at he
  subst he
  simp (maxDischargeDepth := 40) only [Within.setSpdPwr, h, h_regs, h_spd, h_power]

theorem Within.nextSegment (h : Within M s t) (h_regs : M.regs := by assumption) : Within M s (State.nextSegment t) :=
    by
  unfold State.nextSegment
  simp (maxDischargeDepth := 40) only [Within.bump, Within.wr, Within.ite, h, implies_true, h_regs]

theorem Within.columnFailed (h : Within M s t) {b : Nat} {col : Nat} (h_regs : M.regs := by assumption) (h_out : M.out := by assumption) (h_dealer : M.dealer := by assumption) (h_faults : M.faults := by assumption) (h_spd : M.spd := by assumption) (h_ledger : M.ledger := by assumption) : Within M s (State.columnFailed t b col) := by
  unfold State.columnFailed
  repeat' (first
      | (simp (maxDischargeDepth := 40) only [Within.ite, Within.upd, Within.wr, Within.repair, Within.newItem, Within.flag, Within.fault, h,
            true_or, or_true, and_self, implies_true, h_regs, h_out, h_dealer, h_faults, h_spd, h_ledger]; done)
      | dsimp only
      | split)

theorem Within.execPatrolSegment (h : Within M s t) {out : PatrolOutcome} (he : (Machine.execPatrolSegment out t) =
    .next u) (h_regs : M.regs := by assumption) (h_out : M.out := by assumption) (h_dealer : M.dealer := by
    assumption) (h_faults : M.faults := by assumption) (h_spd : M.spd := by assumption) (h_ledger : M.ledger := by
    assumption) : Within M s u := by
  unfold Machine.execPatrolSegment at he
  simp only [Host.Outcome.next.injEq] at he
  subst he
  repeat' (first
      | (simp (maxDischargeDepth := 40) only [Within.nextSegment, Within.columnFailed, Within.ite, h, implies_true, h_regs, h_out, h_dealer,
            h_faults, h_spd, h_ledger, true_or, or_true, and_self]; done)
      | split)

theorem Within.startWipe (h : Within M s t) {cause : Nat} (h_regs : M.regs := by assumption) (h_sec : M.sec := by
    assumption) : Within M s (State.startWipe t cause) := by
  unfold State.startWipe
  simp (maxDischargeDepth := 40) only [Within.bump, Within.wr, Within.flag, Within.upd, Within.ite, h, true_or,
    or_true, and_self, implies_true, h_regs, h_sec]

theorem Within.tamper (h : Within M s t) {cause : Nat} (h_regs : M.regs := by assumption) (h_sec : M.sec := by assumption) : Within M s (State.tamper t cause) := by
  unfold State.tamper
  repeat' (first
      | (simp (maxDischargeDepth := 40) only [Within.ite, Within.upd, Within.startWipe, h, true_or, or_true, and_self, implies_true, h_regs, h_sec]; done)
      | dsimp only
      | split)

theorem Within.execLidOpened (h : Within M s t) (he : (Machine.execLidOpened t) = .next u) (h_regs : M.regs := by
    assumption) (h_sec : M.sec := by assumption) (h_modl : M.modl := by assumption) : Within M s u := by
  unfold Machine.execLidOpened at he
  simp only [Host.Outcome.next.injEq] at he
  subst he
  simp (maxDischargeDepth := 40) only [Within.tamper, Within.startWipe, Within.upd, h, true_or, or_true, and_self, h_regs, h_sec, h_modl,
            implies_true]

theorem Within.execVoltageGlitch (h : Within M s t) (he : (Machine.execVoltageGlitch t) = .next u) (h_regs : M.regs :=
    by assumption) (h_sec : M.sec := by assumption) : Within M s u := by
  unfold Machine.execVoltageGlitch at he
  simp only [Host.Outcome.next.injEq] at he
  subst he
  simp (maxDischargeDepth := 40) only [Within.tamper, Within.startWipe, h, h_regs, h_sec, true_or, or_true, and_self, implies_true]

theorem Within.execClockGlitch (h : Within M s t) (he : (Machine.execClockGlitch t) = .next u) (h_regs : M.regs := by
    assumption) (h_sec : M.sec := by assumption) : Within M s u := by
  unfold Machine.execClockGlitch at he
  simp only [Host.Outcome.next.injEq] at he
  subst he
  simp (maxDischargeDepth := 40) only [Within.tamper, Within.startWipe, h, h_regs, h_sec, true_or, or_true, and_self, implies_true]

theorem Within.endLifecycle (h : Within M s t) {status : Nat} {params : List (Nat × Nat)} (h_regs : M.regs := by
    assumption) (h_out : M.out := by assumption) (h_dealer : M.dealer := by assumption) (h_faults : M.faults := by
    assumption) : Within M s (State.endLifecycle t status params) := by
  unfold State.endLifecycle
  repeat' (first
      | (simp (maxDischargeDepth := 40) only [Within.endLong, h, h_regs, h_out, h_dealer, h_faults]; done)
      | split)

theorem Within.moveLcs (h : Within M s t) {n : Nat} (h_sec : M.sec := by assumption) : Within M s (State.moveLcs t n)
    := by
  unfold State.moveLcs
  split
  · next c =>
    exact h.trans { Within.refl M t with
      keeps := ⟨rfl, c.1.le, by dsimp only; omega, Nat.le_refl _, Nat.le_refl _, id⟩, sec := .inl h_sec }
  · exact h

theorem Within.showLedger (h : Within M s t) (h_regs : M.regs := by assumption) : Within M s (State.showLedger t) := by
  unfold State.showLedger
  repeat' (first
      | (simp (maxDischargeDepth := 40) only [Within.wr64, Within.wr, Within.put, Within.flag, h, true_or, or_true, and_self, implies_true, h_regs]; done)
      | dsimp only
      | split)

theorem Within.scanLedger (h : Within M s t) (h_regs : M.regs := by assumption) (h_dealer : M.dealer := by assumption)
    (h_ledger : M.ledger := by assumption) : Within M s (State.scanLedger t) := by
  unfold State.scanLedger
  simp (maxDischargeDepth := 40) only [Within.refl, Within.showLedger, Within.foldl, Within.flag, Within.upd, h, true_or, or_true,
            and_self, h_regs, h_dealer, h_ledger, implies_true]

theorem Within.oldPc (h : Within M s t) {r : LRec} (h_regs : M.regs := by assumption) (h_hbm : M.hbm := by assumption)
    : Within M s (State.oldPc t r) := by
  unfold State.oldPc
  simp (maxDischargeDepth := 40) only [Within.flag, Within.wr, Within.upd, h, true_or, or_true, and_self, h_regs, h_hbm]

theorem Within.showRows (h : Within M s t) {k : Nat} (h_regs : M.regs := by assumption) : Within M s (State.showRows t
    k) := by
  unfold State.showRows
  simp (maxDischargeDepth := 40) only [Within.wr, h, h_regs]

theorem Within.rowRepaired (h : Within M s t) {pc : Nat} (h_regs : M.regs := by assumption) (h_hbm : M.hbm := by
    assumption) : Within M s (State.rowRepaired t pc) := by
  unfold State.rowRepaired
  simp (maxDischargeDepth := 40) only [Within.showRows, Within.upd, h, true_or, or_true, and_self, h_regs, h_hbm]

theorem Within.repairRow (h : Within M s t) {r : LRec} (h_regs : M.regs := by assumption) (h_out : M.out := by
    assumption) (h_dealer : M.dealer := by assumption) (h_faults : M.faults := by assumption) (h_hbm : M.hbm := by
    assumption) (h_ledger : M.ledger := by assumption) : Within M s (State.repairRow t r) := by
  unfold State.repairRow
  simp (maxDischargeDepth := 40) only [Within.repair, Within.rowRepaired, Within.fault, Within.flag, Within.upd,
    Within.ite, h, true_or, or_true, and_self, implies_true, h_regs, h_out, h_dealer, h_faults, h_hbm, h_ledger]

theorem Within.trainStack (h : Within M s t) {k : Nat} {ok : Bool} (h_regs : M.regs := by assumption) (h_out : M.out
    := by assumption) (h_dealer : M.dealer := by assumption) (h_faults : M.faults := by assumption) (h_hbm : M.hbm :=
    by assumption) (h_ledger : M.ledger := by assumption) : Within M s (State.trainStack t k ok) := by
  unfold State.trainStack
  simp (maxDischargeDepth := 40) only [Within.repair, Within.wr, Within.loseStack, Within.fault, Within.ite,
    Within.foldl, Within.refl, h, implies_true, h_regs, h_out, h_dealer, h_faults, h_hbm, h_ledger]

theorem Within.startHbm (h : Within M s t) {ok : List Bool} (h_regs : M.regs := by assumption) (h_out : M.out := by
    assumption) (h_dealer : M.dealer := by assumption) (h_faults : M.faults := by assumption) (h_hbm : M.hbm := by
    assumption) (h_ledger : M.ledger := by assumption) : Within M s (State.startHbm t ok) := by
  unfold State.startHbm
  simp (maxDischargeDepth := 40) only [Within.oldPc, Within.trainStack, Within.rowRepaired, Within.repairRow,
    Within.foldl, Within.refl, h, implies_true, Within.forN, h_regs, h_out, h_dealer, h_faults, h_hbm, h_ledger]

theorem Within.repairColumn (h : Within M s t) {r : LRec} (h_regs : M.regs := by assumption) (h_out : M.out := by
    assumption) (h_dealer : M.dealer := by assumption) (h_faults : M.faults := by assumption) (h_spd : M.spd := by
    assumption) (h_ledger : M.ledger := by assumption) : Within M s (State.repairColumn t r) := by
  unfold State.repairColumn
  simp (maxDischargeDepth := 40) only [Within.repair, Within.upd, Within.ite, h, true_or, or_true, and_self, implies_true, h_regs, h_out,
            h_dealer, h_faults, h_spd, h_ledger]

theorem Within.startSpd (h : Within M s t) (h_regs : M.regs := by assumption) (h_out : M.out := by assumption)
    (h_dealer : M.dealer := by assumption) (h_faults : M.faults := by assumption) (h_spd : M.spd := by assumption)
    (h_ledger : M.ledger := by assumption) : Within M s (State.startSpd t) := by
  unfold State.startSpd
  simp (maxDischargeDepth := 40) only [Within.repairColumn, Within.wr, Within.upd, Within.foldl, Within.refl, h,
    true_or, or_true, and_self, implies_true, h_regs, h_out, h_dealer, h_faults, h_spd, h_ledger]

theorem Within.loadKeys (h : Within M s t) (h_regs : M.regs := by assumption) (h_sec : M.sec := by assumption) :
    Within M s (State.loadKeys t) := by
  unfold State.loadKeys
  repeat' (first
      | (simp (maxDischargeDepth := 40) only [Within.refl, Within.foldl, Within.wr, Within.upd, Within.ite, h, true_or, or_true, and_self,
            implies_true, h_regs, h_sec]; done)
      | split)

theorem Within.startEngine (h : Within M s t) {e : Nat} {ok : Bool} (h_regs : M.regs := by assumption) (h_out : M.out
    := by assumption) (h_dealer : M.dealer := by assumption) (h_faults : M.faults := by assumption) (h_deck : M.deck
    := by assumption) (h_engs : M.engs := by assumption) (h_plans : M.plans := by assumption) (h_ledger : M.ledger :=
    by assumption) (h_hbm : M.hbm := by assumption) : Within M s (State.startEngine t e ok) := by
  unfold State.startEngine
  simp (maxDischargeDepth := 40) only [Within.wr, Within.retireEngine, Within.fault, Within.ite, h, implies_true,
    h_regs, h_out, h_dealer, h_faults, h_deck, h_engs, h_plans, h_ledger, h_hbm]

theorem Within.startEngines (h : Within M s t) {ok : List Bool} (h_regs : M.regs := by assumption) (h_out : M.out :=
    by assumption) (h_dealer : M.dealer := by assumption) (h_faults : M.faults := by assumption) (h_deck : M.deck :=
    by assumption) (h_engs : M.engs := by assumption) (h_plans : M.plans := by assumption) (h_ledger : M.ledger := by
    assumption) (h_hbm : M.hbm := by assumption) : Within M s (State.startEngines t ok) := by
  unfold State.startEngines
  simp (maxDischargeDepth := 40) only [Within.setEng, Within.wr, Within.startEngine, Within.foldl, Within.refl, h,
    implies_true, Within.forN, h_regs, h_out, h_dealer, h_faults, h_deck, h_engs, h_plans, h_ledger, h_hbm]

theorem Within.restoreFlow (h : Within M s t) {f n : Nat} {x : List Byte} {snap : Option (Nat × Nat)} (h_regs : M.regs
    := by assumption) (h_sess : M.sess := by assumption) : Within M s (State.restoreFlow t f n x snap) := by
  unfold State.restoreFlow
  simp (maxDischargeDepth := 40) only [Within.wr, Within.setFlow, h, h_regs, h_sess]

theorem Within.restoreSession (h : Within M s t) {r : LRec} {snap : Option (List (Nat × Nat × Nat))} {fs : Tbl (Nat ×
    Nat × List Byte)} (h_regs : M.regs := by assumption) (h_sess : M.sess := by assumption) : Within M s
    (State.restoreSession t r snap fs) := by
  unfold State.restoreSession
  simp (maxDischargeDepth := 40) only [Within.wr, Within.wr64, Within.setSession, Within.restoreFlow, Within.foldl,
    Within.refl, h, implies_true, h_regs, h_sess]

theorem Within.recoverSessions (h : Within M s t) (h_regs : M.regs := by assumption) (h_sess : M.sess := by
    assumption) : Within M s (State.recoverSessions t) := by
  unfold State.recoverSessions
  simp (maxDischargeDepth := 40) only [Within.restoreSession, Within.ite, Within.foldl, Within.refl, h, implies_true,
    h_regs, h_sess]

theorem Within.startLanes (h : Within M s t) (h_regs : M.regs := by assumption) (h_out : M.out := by assumption)
    (h_dealer : M.dealer := by assumption) (h_faults : M.faults := by assumption) (h_lanes : M.lanes := by assumption) (h_links : M.links := by assumption) (h_power : M.power := by assumption) : Within M s (State.startLanes t) := by
  unfold State.startLanes
  simp (maxDischargeDepth := 40) only [Within.setLane, Within.wr, Within.startLadder, Within.ite, Within.foldl,
    Within.refl, h, implies_true, Within.forN, h_regs, h_out, h_dealer, h_faults, h_lanes, h_links, h_power]

theorem Within.wipeFollows (h : Within M s t) (h_regs : M.regs := by assumption) (h_faults : M.faults := by assumption) (h_sec : M.sec := by assumption) (h_ledger : M.ledger := by assumption) : Within M s (State.wipeFollows t) := by
  unfold State.wipeFollows
  repeat' (first
      | (simp (maxDischargeDepth := 40) only [Within.refl, Within.upd, Within.lifeRecord, Within.foldl, Within.fault, h, true_or, or_true,
            and_self, implies_true, h_regs, h_faults, h_sec, h_ledger]; done)
      | dsimp only
      | split)

theorem Within.firmwareRuns (h : Within M s t) {c : ColdInput} (h_regs : M.regs := by assumption) (h_out : M.out := by
    assumption) (h_dealer : M.dealer := by assumption) (h_faults : M.faults := by assumption) (h_lanes : M.lanes := by
    assumption) (h_sess : M.sess := by assumption) (h_deck : M.deck := by assumption) (h_engs : M.engs := by
    assumption) (h_plans : M.plans := by assumption) (h_hbm : M.hbm := by assumption) (h_spd : M.spd := by assumption)
    (h_sec : M.sec := by assumption) (h_ledger : M.ledger := by assumption) (h_modl : M.modl := by assumption) (h_links : M.links := by assumption) (h_power : M.power := by assumption) :
    Within M s (State.firmwareRuns t c) := by
  unfold State.firmwareRuns
  simp (maxDischargeDepth := 40) only [Within.refl, Within.wipeFollows, Within.whenS, Within.scanLedger, Within.pins, Within.wr,
            Within.startLanes, Within.recoverSessions, Within.loadKeys, Within.startEngines, Within.startSpd,
            Within.startHbm, Within.upd, h, true_or, or_true, and_self, h_regs, h_out, h_dealer, h_faults,
            h_lanes, h_sess, h_deck, h_engs, h_plans, h_hbm, h_spd, h_sec, h_ledger, h_modl, h_links,
            implies_true, h_power]

theorem Within.bootFirmware (h : Within M s t) {c : ColdInput} (h_regs : M.regs := by assumption) (h_out : M.out := by
    assumption) (h_dealer : M.dealer := by assumption) (h_faults : M.faults := by assumption) (h_lanes : M.lanes := by
    assumption) (h_sess : M.sess := by assumption) (h_deck : M.deck := by assumption) (h_engs : M.engs := by
    assumption) (h_plans : M.plans := by assumption) (h_hbm : M.hbm := by assumption) (h_spd : M.spd := by assumption)
    (h_sec : M.sec := by assumption) (h_ledger : M.ledger := by assumption) (h_modl : M.modl := by assumption) (h_links : M.links := by assumption) (h_power : M.power := by assumption) :
    Within M s (State.bootFirmware t c) := by
  unfold State.bootFirmware
  repeat' (first
      | (simp (maxDischargeDepth := 40) only [Within.flag, Within.wr, Within.fault, Within.copyImage, Within.firmwareRuns, Within.pins,
            Within.upd, Within.refl, h, true_or, or_true, and_self, implies_true, Within.whenS, h_regs, h_out,
            h_dealer, h_faults, h_lanes, h_sess, h_deck, h_engs, h_plans, h_hbm, h_spd, h_sec, h_ledger, h_modl, h_links, h_power];
            done)
      | dsimp only
      | split)

theorem Within.endWipe (h : Within M s t) {verified : Bool} (h_regs : M.regs := by assumption) (h_faults : M.faults := by assumption) (h_sec : M.sec := by assumption) : Within M s (State.endWipe t verified) := by
  unfold State.endWipe
  repeat' (first
      | (simp (maxDischargeDepth := 40) only [Within.ite, Within.upd, Within.wr, Within.fault, h, true_or, or_true, and_self, implies_true, h_regs, h_faults, h_sec]; done)
      | dsimp only
      | split)

theorem Within.execSecureWipeDone (h : Within M s t) {verified : Bool} (he : (Machine.execSecureWipeDone verified t) =
    .next u) (h_regs : M.regs := by assumption) (h_out : M.out := by assumption) (h_dealer : M.dealer := by
    assumption) (h_faults : M.faults := by assumption) (h_sec : M.sec := by assumption) (h_ledger : M.ledger := by
    assumption) (h_lanes : M.lanes := by assumption) (h_links : M.links := by assumption) (h_sess : M.sess := by assumption) (h_deck : M.deck := by assumption) (h_engs : M.engs := by assumption) (h_plans : M.plans := by assumption) (h_hbm : M.hbm := by assumption) (h_spd : M.spd := by assumption) (h_power : M.power := by assumption) (h_modl : M.modl := by assumption) : Within M s u := by
  unfold Machine.execSecureWipeDone at he
  simp only [Host.Outcome.next.injEq] at he
  subst he
  repeat' (first
      | (simp (maxDischargeDepth := 40) only [Within.wipeFollows, Within.whenS, Within.endWipe, Within.bootFirmware, Within.wr, Within.moveLcs,
            Within.lifeRecord, Within.fault, Within.endLifecycle, Within.upd, Within.ite, Within.foldl,
            Within.refl, h, true_or, or_true, and_self, implies_true, h_regs, h_out, h_dealer, h_faults, h_sec,
            h_ledger, h_lanes, h_links, h_sess, h_deck, h_engs, h_plans, h_hbm, h_spd, h_power, h_modl]; done)
      | split)

theorem Within.execKeyEnrol (h : Within M s t) {a0 : Hdr} {slot : Byte} {key : List Byte} (he : (Machine.execKeyEnrol
    a0 slot key t) = .next u) (h_regs : M.regs := by assumption) (h_out : M.out := by assumption) (h_dealer : M.dealer
    := by assumption) (h_faults : M.faults := by assumption) (h_sec : M.sec := by assumption) (h_ledger : M.ledger :=
    by assumption) : Within M s u := by
  unfold Machine.execKeyEnrol at he
  simp only [Host.Outcome.next.injEq] at he
  subst he
  repeat' (first
      | with_reducible assumption
      | with_reducible (first
      | apply Within.flag
      | apply Within.wr
      | apply Within.lifeRecord)
      | simp only [Within.upd_iff, true_or, or_true, and_self, h_regs, h_out, h_dealer, h_faults, h_sec, h_ledger]
      | dsimp only [State.ok]
      | (with_reducible refine Within.winos ?_ (fun u => ?_))
      | split
      | (refine AnsWithin.mk ?_ (fun w => ?_))
      | exact Within.refl _ _)

theorem Within.execKeyLock (h : Within M s t) {a0 : Hdr} (he : (Machine.execKeyLock a0 t) = .next u) (h_regs : M.regs
    := by assumption) (h_out : M.out := by assumption) (h_dealer : M.dealer := by assumption) (h_faults : M.faults :=
    by assumption) (h_ledger : M.ledger := by assumption) : Within M s u := by
  unfold Machine.execKeyLock at he
  simp only [Host.Outcome.next.injEq] at he
  subst he
  repeat' (first
      | with_reducible assumption
      | with_reducible (first
      | apply Within.wr
      | apply Within.lifeRecord)
      | dsimp only [State.ok]
      | (with_reducible refine Within.winos ?_ (fun u => ?_))
      | (refine AnsWithin.mk ?_ (fun w => ?_))
      | exact Within.refl _ _)

theorem Within.orphan (h : Within M s t) {master type addr : Nat} (h_regs : M.regs := by assumption) (h_out : M.out :=
    by assumption) (h_dealer : M.dealer := by assumption) (h_faults : M.faults := by assumption) : Within M s
    (State.orphan t master type addr) := by
  unfold State.orphan
  simp (maxDischargeDepth := 40) only [Within.wr, Within.wr64, Within.flag, Within.bump, Within.raise, Within.event,
    Within.ite, h, implies_true, h_regs, h_out, h_dealer, h_faults]

theorem Within.dropLocks (h : Within M s t) {m : Nat} (h_fab : M.fab := by assumption) : Within M s (State.dropLocks t
    m) := by
  unfold State.dropLocks
  simp (maxDischargeDepth := 40) only [Within.upd, h, true_or, or_true, and_self, h_fab]

theorem Within.resetDma (h : Within M s t) (h_regs : M.regs := by assumption) (h_out : M.out := by assumption)
    (h_dealer : M.dealer := by assumption) (h_faults : M.faults := by assumption) (h_dma : M.dma := by assumption) (h_fab : M.fab := by assumption) :
    Within M s (State.resetDma t) := by
  unfold State.resetDma
  simp (maxDischargeDepth := 40) only [Within.dropLocks, Within.orphan, Within.setDmac, Within.wr, Within.ite, Within.refl, h,
            implies_true, Within.forN, Within.whenS, h_regs, h_out, h_dealer, h_faults, h_dma, true_or, or_true,
            and_self, h_fab]

theorem Within.clearEngine (h : Within M s t) {e : Nat} (h_engs : M.engs := by assumption) : Within M s
    (State.clearEngine t e) := by
  unfold State.clearEngine
  simp (maxDischargeDepth := 40) only [Within.dropWork, Within.setEng, h, h_engs]

theorem Within.resendHead (h : Within M s t) {p : Nat} (h_outp : M.outp := by assumption) : Within M s
    (State.resendHead t p) := by
  unfold State.resendHead
  repeat' (first | (simp (maxDischargeDepth := 40) only [Within.setPart, h, h_outp]; done) | split)

theorem Within.blockReset (h : Within M s t) {n : Nat} (h_regs : M.regs := by assumption) (h_out : M.out := by
    assumption) (h_dealer : M.dealer := by assumption) (h_faults : M.faults := by assumption) (h_lanes : M.lanes := by
    assumption) (h_links : M.links := by assumption) (h_deck : M.deck := by assumption) (h_engs : M.engs := by
    assumption) (h_outp : M.outp := by assumption) (h_hbm : M.hbm := by assumption) (h_fab : M.fab := by assumption)
    (h_dma : M.dma := by assumption) (h_power : M.power := by assumption) : Within M s (State.blockReset t n) := by
  unfold State.blockReset
  simp (maxDischargeDepth := 40) only [Within.dropLocks, Within.clearEngine, Within.goOn, Within.recompute, Within.startLadder,
            Within.loseLane, Within.bundleReset, Within.resetDma, Within.resendHead, Within.wr, Within.ite, h,
            implies_true, h_regs, h_out, h_dealer, h_faults, h_lanes, h_links, h_deck, h_engs, h_outp, h_hbm,
            h_fab, h_dma, true_or, or_true, and_self, h_power]

theorem Within.resetHold (h : Within M s t) (h_regs : M.regs := by assumption) (h_deck : M.deck := by assumption) :
    Within M s (State.resetHold t) := by
  unfold State.resetHold
  simp (maxDischargeDepth := 40) only [Within.wr, Within.flag, Within.pins, Within.notePause, h, h_regs, h_deck]

theorem Within.faultReset (h : Within M s t) (h_regs : M.regs := by assumption) (h_faults : M.faults := by assumption)
    (h_deck : M.deck := by assumption) (h_modl : M.modl := by assumption) : Within M s (State.faultReset t) := by
  unfold State.faultReset
  simp (maxDischargeDepth := 40) only [Within.resetHold, Within.resetDue, Within.bump, Within.upd, Within.ite, h,
    true_or, or_true, and_self, implies_true, h_regs, h_faults, h_deck, h_modl]

theorem Within.chipReset (h : Within M s t) (h_regs : M.regs := by assumption) (h_faults : M.faults := by assumption)
    (h_deck : M.deck := by assumption) (h_power : M.power := by assumption) (h_modl : M.modl := by assumption) :
    Within M s (State.chipReset t) := by
  unfold State.chipReset
  simp (maxDischargeDepth := 40) only [Within.faultReset, Within.upd, Within.ite, h, true_or, or_true, and_self,
    implies_true, h_regs, h_faults, h_deck, h_power, h_modl]

theorem Within.react (h : Within M s t) {n level target : Nat} (h_regs : M.regs := by assumption) (h_out : M.out := by
    assumption) (h_dealer : M.dealer := by assumption) (h_faults : M.faults := by assumption) (h_lanes : M.lanes := by
    assumption) (h_links : M.links := by assumption) (h_deck : M.deck := by assumption) (h_engs : M.engs := by
    assumption) (h_outp : M.outp := by assumption) (h_hbm : M.hbm := by assumption) (h_fab : M.fab := by assumption)
    (h_dma : M.dma := by assumption) (h_power : M.power := by assumption) (h_modl : M.modl := by assumption) : Within
    M s (State.react t n level target) := by
  unfold State.react
  simp (maxDischargeDepth := 40) only [Within.send, Within.blockReset, Within.chipReset, Within.refl, h, implies_true,
    Within.whenS, h_regs, h_out, h_dealer, h_faults, h_lanes, h_links, h_deck, h_engs, h_outp, h_hbm, h_fab, h_dma,
    h_power, h_modl]

theorem Within.ownAction (h : Within M s t) {m : FaultMsg} (h_regs : M.regs := by assumption) (h_out : M.out := by
    assumption) (h_dealer : M.dealer := by assumption) (h_faults : M.faults := by assumption) (h_deck : M.deck := by
    assumption) (h_engs : M.engs := by assumption) (h_plans : M.plans := by assumption) (h_hbm : M.hbm := by
    assumption) (h_spd : M.spd := by assumption) (h_ledger : M.ledger := by assumption) (h_power : M.power := by assumption) (h_modl : M.modl := by assumption) : Within M s (State.ownAction
    t m) := by
  unfold State.ownAction
  simp (maxDischargeDepth := 40) only [Within.fault, Within.chipReset, Within.flag, Within.retireEngine, Within.wordCorrected,
            Within.chunkRebuilt, Within.poisonLine, Within.bump, Within.partFault, Within.spoilWord, Within.ite,
            h, implies_true, h_regs, h_out, h_dealer, h_faults, h_deck, h_engs, h_plans, h_hbm, h_spd, h_ledger,
            true_or, or_true, and_self, h_power, h_modl]

theorem Within.captureEvent (h : Within M s t) {n : Nat} {kind : Nat} {arg : Nat} (h_regs : M.regs := by assumption)
    (h_out : M.out := by assumption) (h_dealer : M.dealer := by assumption) (h_faults : M.faults := by assumption) :
    Within M s (State.captureEvent t n kind arg).1 := by
  unfold State.captureEvent
  repeat' (first
      | (simp (maxDischargeDepth := 40) only [Within.numberEvent, Within.event, Within.drawn, Within.ite, h, true_or,
            or_true, and_self, implies_true, h_regs, h_out, h_dealer, h_faults]; done)
      | dsimp only
      | split)

theorem Within.captureFault (h : Within M s t) {m : FaultMsg} {count : Nat} (h_regs : M.regs := by assumption) (h_out
    : M.out := by assumption) (h_dealer : M.dealer := by assumption) (h_faults : M.faults := by assumption) (h_lanes :
    M.lanes := by assumption) (h_links : M.links := by assumption) (h_deck : M.deck := by assumption) (h_engs : M.engs
    := by assumption) (h_outp : M.outp := by assumption) (h_hbm : M.hbm := by assumption) (h_ledger : M.ledger := by
    assumption) (h_fab : M.fab := by assumption) (h_dma : M.dma := by assumption) (h_power : M.power := by assumption)
    (h_modl : M.modl := by assumption) : Within M s (State.captureFault t m count) := by
  unfold State.captureFault
  repeat' (first
      | (simp (maxDischargeDepth := 40) only [Within.captureEvent, Within.setCapture, Within.flag, Within.summaryRecord, Within.event,
            Within.pins, Within.react, Within.ite, h, true_or, or_true, and_self, implies_true, h_regs, h_out,
            h_dealer, h_faults, h_lanes, h_links, h_deck, h_engs, h_outp, h_hbm, h_ledger, h_fab, h_dma,
            h_power, h_modl]; done)
      | dsimp only
      | split)

theorem Within.collect (h : Within M s t) {m : FaultMsg} {count : Nat} (h_regs : M.regs := by assumption) (h_out : M.out := by assumption) (h_dealer : M.dealer := by assumption) (h_faults : M.faults := by assumption) (h_lanes : M.lanes := by assumption) (h_links : M.links := by assumption) (h_deck : M.deck := by assumption) (h_engs : M.engs := by assumption) (h_outp : M.outp := by assumption) (h_hbm : M.hbm := by assumption) (h_ledger : M.ledger := by assumption) (h_fab : M.fab := by assumption) (h_dma : M.dma := by assumption) (h_power : M.power := by assumption) (h_modl : M.modl := by assumption) : Within M s (State.collect t m count) := by
  unfold State.collect
  repeat' (first
      | (simp (maxDischargeDepth := 40) only [Within.ite, Within.upd, Within.setCapture, Within.captureFault, h, true_or, or_true, and_self,
            implies_true, h_regs, h_out, h_dealer, h_faults, h_lanes, h_links, h_deck, h_engs, h_outp, h_hbm,
            h_ledger, h_fab, h_dma, h_power, h_modl]; done)
      | dsimp only
      | split)

theorem Within.takeFault (h : Within M s t) (h_regs : M.regs := by assumption) (h_out : M.out := by assumption)
    (h_dealer : M.dealer := by assumption) (h_faults : M.faults := by assumption) (h_lanes : M.lanes := by assumption)
    (h_links : M.links := by assumption) (h_deck : M.deck := by assumption) (h_engs : M.engs := by assumption)
    (h_plans : M.plans := by assumption) (h_outp : M.outp := by assumption) (h_hbm : M.hbm := by assumption) (h_spd : M.spd := by assumption) (h_ledger
    : M.ledger := by assumption) (h_fab : M.fab := by assumption) (h_dma : M.dma := by assumption) (h_power : M.power
    := by assumption) (h_modl : M.modl := by assumption) : Within M s (State.takeFault t) := by
  unfold State.takeFault
  repeat' (first
      | (simp (maxDischargeDepth := 40) only [Within.refl, Within.foldl, Within.collect, Within.ownAction, Within.setCapture, Within.captureFault,
            Within.upd, Within.ite, h, true_or, or_true, and_self, implies_true, h_regs, h_out, h_dealer,
            h_faults, h_lanes, h_links, h_deck, h_engs, h_plans, h_outp, h_hbm, h_spd, h_ledger, h_fab, h_dma,
            h_power, h_modl]; done)
      | dsimp only
      | split)

theorem Within.execFaultConditionCleared (h : Within M s t) {source : Fin 1024} {cls : Fin 3} (he :
    (Machine.execFaultConditionCleared source cls t) = .next u) (h_faults : M.faults := by assumption) : Within M s u
    := by
  unfold Machine.execFaultConditionCleared at he
  simp only [Host.Outcome.next.injEq] at he
  subst he
  repeat' (first | (simp (maxDischargeDepth := 40) only [Within.setLive, Within.setCapture, h, h_faults, true_or, or_true, and_self, implies_true]; done) | split)

theorem Within.execFltReact (h : Within M s t) {m : Byte} {v : Word} (he : (Machine.execFltReact m v t) = .next u)
    (h_regs : M.regs := by assumption) (h_faults : M.faults := by assumption) : Within M s u := by
  unfold Machine.execFltReact at he
  simp only [Host.Outcome.next.injEq] at he
  subst he
  simp (maxDischargeDepth := 40) only [Within.writeReact, h, h_regs, h_faults]

theorem Within.execFaultRead (h : Within M s t) {a0 : Hdr} {source : BitVec 16} (he : (Machine.execFaultRead a0 source
    t) = .next u) (h_regs : M.regs := by assumption) (h_out : M.out := by assumption) (h_dealer : M.dealer := by
    assumption) (h_faults : M.faults := by assumption) : Within M s u := by
  unfold Machine.execFaultRead at he
  simp only [Host.Outcome.next.injEq] at he
  subst he
  repeat' (first
      | with_reducible assumption
      | (with_reducible refine Within.winos ?_ (fun u => ?_))
      | split
      | (refine AnsWithin.mk ?_ (fun w => ?_))
      | exact Within.refl _ _)

theorem Within.execFaultAck (h : Within M s t) {a0 : Hdr} {source : BitVec 16} {cls : Byte} (he :
    (Machine.execFaultAck a0 source cls t) = .next u) (h_regs : M.regs := by assumption) (h_out : M.out := by
    assumption) (h_dealer : M.dealer := by assumption) (h_faults : M.faults := by assumption) (h_ledger : M.ledger :=
    by assumption) : Within M s u := by
  unfold Machine.execFaultAck at he
  simp only [Host.Outcome.next.injEq] at he
  subst he
  repeat' (first
      | with_reducible assumption
      | with_reducible apply Within.ackFault
      | dsimp only [State.ok]
      | (with_reducible refine Within.winos ?_ (fun u => ?_))
      | split
      | (refine AnsWithin.mk ?_ (fun w => ?_))
      | exact Within.refl _ _)

theorem Within.execReactionSet (h : Within M s t) {a0 : Hdr} {source : BitVec 16} {cls level errn : Byte} (he :
    (Machine.execReactionSet a0 source cls level errn t) = .next u) (h_regs : M.regs := by assumption) (h_out : M.out
    := by assumption) (h_dealer : M.dealer := by assumption) (h_faults : M.faults := by assumption) : Within M s u :=
    by
  unfold Machine.execReactionSet at he
  simp only [Host.Outcome.next.injEq] at he
  subst he
  repeat' (first
      | with_reducible assumption
      | with_reducible apply Within.setReaction
      | dsimp only [State.ok]
      | (with_reducible refine Within.winos ?_ (fun u => ?_))
      | split
      | (refine AnsWithin.mk ?_ (fun w => ?_))
      | exact Within.refl _ _)

theorem Within.execEngineRetire (h : Within M s t) {a0 : Hdr} {engine : Byte} (he : (Machine.execEngineRetire a0
    engine t) = .next u) (h_regs : M.regs := by assumption) (h_out : M.out := by assumption) (h_dealer : M.dealer :=
    by assumption) (h_faults : M.faults := by assumption) (h_deck : M.deck := by assumption) (h_engs : M.engs := by
    assumption) (h_plans : M.plans := by assumption) (h_ledger : M.ledger := by assumption) (h_hbm : M.hbm := by assumption) : Within M s u := by
  unfold Machine.execEngineRetire at he
  simp only [Host.Outcome.next.injEq] at he
  subst he
  repeat' (first
      | with_reducible assumption
      | with_reducible apply Within.retireEngine
      | dsimp only [State.ok]
      | (with_reducible refine Within.winos ?_ (fun u => ?_))
      | split
      | (refine AnsWithin.mk ?_ (fun w => ?_))
      | exact Within.refl _ _)

theorem Within.execEngineRestore (h : Within M s t) {a0 : Hdr} {engine : Byte} (he : (Machine.execEngineRestore a0
    engine t) = .next u) (h_regs : M.regs := by assumption) (h_out : M.out := by assumption) (h_dealer : M.dealer :=
    by assumption) (h_faults : M.faults := by assumption) : Within M s u := by
  unfold Machine.execEngineRestore at he
  simp only [Host.Outcome.next.injEq] at he
  subst he
  repeat' (first
      | with_reducible assumption
      | with_reducible apply Within.startRestore
      | exact (AnsWithin.begin (.refl _ _)).st
      | exact Within.begin_after
      | (with_reducible refine Within.winos ?_ (fun u => ?_))
      | split
      | (refine AnsWithin.mk ?_ (fun w => ?_))
      | exact Within.refl _ _)

theorem Within.execPlanDefine (h : Within M s t) {a0 : Hdr} {slot sect : Byte} {off : Word} {data : List Byte} (he :
    (Machine.execPlanDefine a0 slot sect off data t) = .next u) (h_regs : M.regs := by assumption) (h_out : M.out :=
    by assumption) (h_dealer : M.dealer := by assumption) (h_faults : M.faults := by assumption) (h_plans : M.plans :=
    by assumption) : Within M s u := by
  unfold Machine.execPlanDefine at he
  simp only [Host.Outcome.next.injEq] at he
  subst he
  repeat' (first
      | with_reducible assumption
      | with_reducible apply Within.setSlot
      | dsimp only [State.ok]
      | (with_reducible refine Within.winos ?_ (fun u => ?_))
      | split
      | (refine AnsWithin.mk ?_ (fun w => ?_))
      | exact Within.refl _ _)

theorem Within.execPlanBuild (h : Within M s t) {a0 : Hdr} {slot : Byte} (he : (Machine.execPlanBuild a0 slot t) =
    .next u) (h_regs : M.regs := by assumption) (h_out : M.out := by assumption) (h_dealer : M.dealer := by
    assumption) (h_faults : M.faults := by assumption) (h_plans : M.plans := by assumption) (h_hbm : M.hbm := by
    assumption) : Within M s u := by
  unfold Machine.execPlanBuild at he
  simp only [Host.Outcome.next.injEq] at he
  subst he
  repeat' (first
      | with_reducible assumption
      | with_reducible apply Within.build
      | dsimp only [State.ok]
      | (with_reducible refine Within.winos ?_ (fun u => ?_))
      | split
      | (refine AnsWithin.mk ?_ (fun w => ?_))
      | exact Within.refl _ _)

theorem Within.setDeal (h : Within M s t) {slot d : Nat} (h_regs : M.regs := by assumption) (h_dealer : M.dealer := by
    assumption) : Within M s (State.setDeal t slot d) := by
  unfold State.setDeal
  simp (maxDischargeDepth := 40) only [Within.wr64, Within.wr, Within.upd, h, true_or, or_true, and_self, h_regs,
    h_dealer]

theorem Within.execPlanDeal (h : Within M s t) {a0 : Hdr} {slot : Byte} {d : BitVec 64} (he : (Machine.execPlanDeal a0
    slot d t) = .next u) (h_regs : M.regs := by assumption) (h_out : M.out := by assumption) (h_dealer : M.dealer :=
    by assumption) (h_faults : M.faults := by assumption) : Within M s u := by
  unfold Machine.execPlanDeal at he
  simp only [Host.Outcome.next.injEq] at he
  subst he
  repeat' (first
      | with_reducible assumption
      | with_reducible apply Within.setDeal
      | exact (AnsWithin.begin (.refl _ _)).st
      | exact Within.begin_after
      | (with_reducible refine Within.winos ?_ (fun u => ?_))
      | split
      | (refine AnsWithin.mk ?_ (fun w => ?_))
      | exact Within.refl _ _)

theorem Within.dropDeal (h : Within M s t) (h_regs : M.regs := by assumption) (h_dealer : M.dealer := by assumption)
    (h_deck : M.deck := by assumption) : Within M s (State.dropDeal t) := by
  unfold State.dropDeal
  simp (maxDischargeDepth := 40) only [Within.openDue, Within.wr64, Within.wr, Within.upd, h, true_or, or_true,
    and_self, h_regs, h_dealer, h_deck]

theorem Within.execPlanCancel (h : Within M s t) {a0 : Hdr} (he : (Machine.execPlanCancel a0 t) = .next u) (h_regs :
    M.regs := by assumption) (h_out : M.out := by assumption) (h_dealer : M.dealer := by assumption) (h_faults :
    M.faults := by assumption) (h_deck : M.deck := by assumption) : Within M s u := by
  unfold Machine.execPlanCancel at he
  simp only [Host.Outcome.next.injEq] at he
  subst he
  repeat' (first
      | with_reducible assumption
      | with_reducible (first
      | apply Within.dropDeal
      | apply Within.endLongOf)
      | dsimp only [State.ok]
      | (with_reducible refine Within.winos ?_ (fun u => ?_))
      | split
      | (refine AnsWithin.mk ?_ (fun w => ?_))
      | exact Within.refl _ _)

theorem Within.execPlanReset (h : Within M s t) {a0 : Hdr} {slot source : Byte} (he : (Machine.execPlanReset a0 slot
    source t) = .next u) (h_regs : M.regs := by assumption) (h_out : M.out := by assumption) (h_dealer : M.dealer :=
    by assumption) (h_faults : M.faults := by assumption) (h_plans : M.plans := by assumption) : Within M s u := by
  unfold Machine.execPlanReset at he
  simp only [Host.Outcome.next.injEq] at he
  subst he
  repeat' (first
      | with_reducible assumption
      | with_reducible apply Within.setSlot
      | dsimp only [State.ok]
      | (with_reducible refine Within.winos ?_ (fun u => ?_))
      | split
      | (refine AnsWithin.mk ?_ (fun w => ?_))
      | exact Within.refl _ _)

theorem Within.execPlanErase (h : Within M s t) {a0 : Hdr} {slot : Byte} (he : (Machine.execPlanErase a0 slot t) =
    .next u) (h_regs : M.regs := by assumption) (h_out : M.out := by assumption) (h_dealer : M.dealer := by
    assumption) (h_faults : M.faults := by assumption) (h_plans : M.plans := by assumption) (h_hbm : M.hbm := by
    assumption) : Within M s u := by
  unfold Machine.execPlanErase at he
  simp only [Host.Outcome.next.injEq] at he
  subst he
  repeat' (first
      | with_reducible assumption
      | with_reducible (first
      | apply Within.showSlots
      | apply Within.allocWeights
      | apply Within.setSlot)
      | dsimp only [State.ok]
      | (with_reducible refine Within.winos ?_ (fun u => ?_))
      | split
      | (refine AnsWithin.mk ?_ (fun w => ?_))
      | exact Within.refl _ _)

theorem Within.execPlanStatus (h : Within M s t) {a0 : Hdr} {slot : Byte} (he : (Machine.execPlanStatus a0 slot t) =
    .next u) (h_regs : M.regs := by assumption) (h_out : M.out := by assumption) (h_dealer : M.dealer := by
    assumption) (h_faults : M.faults := by assumption) : Within M s u := by
  unfold Machine.execPlanStatus at he
  simp only [Host.Outcome.next.injEq] at he
  subst he
  repeat' (first
      | with_reducible assumption
      | (with_reducible refine Within.winos ?_ (fun u => ?_))
      | split
      | (refine AnsWithin.mk ?_ (fun w => ?_))
      | exact Within.refl _ _)

theorem Within.sourceBytes (h : Within M s t) {hbm : Bool} {addr len : Nat} (h_regs : M.regs := by assumption)
    (h_faults : M.faults := by assumption) (h_hbm : M.hbm := by assumption) : Within M s (State.sourceBytes t hbm addr len).1 := by
  unfold State.sourceBytes
  repeat' (first
      | (simp (maxDischargeDepth := 40) only [Within.ite, Within.upd, Within.linesRead, Within.fabRefuse, Within.raise, Within.hostTimeout, h,
            h_regs, h_faults, true_or, or_true, and_self, implies_true, h_hbm]; done)
      | exact h.updFresh
      | split)

theorem AnsWithin.sourceFailed (h : Within M s t) {timeout : Bool} : AnsWithin M s (State.sourceFailed t timeout)
    := by
  unfold State.sourceFailed
  split
  · exact .internal h
  · exact .internal h

theorem Within.execPlanLoadTable (h : Within M s t) {a0 : Hdr} {slot sect source : Byte} {addr : BitVec 64} {len :
    Word} (he : (Machine.execPlanLoadTable a0 slot sect source addr len t) = .next u) (h_regs : M.regs := by
    assumption) (h_out : M.out := by assumption) (h_dealer : M.dealer := by assumption) (h_faults : M.faults := by
    assumption) (h_hbm : M.hbm := by assumption) : Within M s u := by
  unfold Machine.execPlanLoadTable at he
  simp only [Host.Outcome.next.injEq] at he
  subst he
  repeat' (first
      | with_reducible assumption
      | with_reducible (first
      | apply Within.sourceBytes
      | apply AnsWithin.sourceFailed)
      | exact (AnsWithin.begin (.refl _ _)).st
      | exact Within.begin_after
      | (with_reducible refine Within.winos ?_ (fun u => ?_))
      | split
      | (refine AnsWithin.mk ?_ (fun w => ?_))
      | exact Within.refl _ _)

theorem Within.execSetReserve (h : Within M s t) {a0 : Hdr} {reserve : Byte} (he : (Machine.execSetReserve a0 reserve
    t) = .next u) (h_regs : M.regs := by assumption) (h_out : M.out := by assumption) (h_dealer : M.dealer := by
    assumption) (h_faults : M.faults := by assumption) : Within M s u := by
  unfold Machine.execSetReserve at he
  simp only [Host.Outcome.next.injEq] at he
  subst he
  repeat' (first
      | with_reducible assumption
      | with_reducible apply Within.wr
      | dsimp only [State.ok]
      | (with_reducible refine Within.winos ?_ (fun u => ?_))
      | split
      | (refine AnsWithin.mk ?_ (fun w => ?_))
      | exact Within.refl _ _)

theorem Within.execEngineRelease (h : Within M s t) {a0 : Hdr} (he : (Machine.execEngineRelease a0 t) = .next u)
    (h_regs : M.regs := by assumption) (h_out : M.out := by assumption) (h_dealer : M.dealer := by assumption)
    (h_faults : M.faults := by assumption) : Within M s u := by
  unfold Machine.execEngineRelease at he
  simp only [Host.Outcome.next.injEq] at he
  subst he
  repeat' (first
      | with_reducible assumption
      | with_reducible apply Within.wr
      | dsimp only [State.ok]
      | (with_reducible refine Within.winos ?_ (fun u => ?_))
      | split
      | (refine AnsWithin.mk ?_ (fun w => ?_))
      | exact Within.refl _ _)

theorem Within.execTrickClose (h : Within M s t) {a0 : Hdr} {boundary : BitVec 64} (he : (Machine.execTrickClose a0
    boundary t) = .next u) (h_regs : M.regs := by assumption) (h_out : M.out := by assumption) (h_dealer : M.dealer :=
    by assumption) (h_faults : M.faults := by assumption) : Within M s u := by
  unfold Machine.execTrickClose at he
  simp only [Host.Outcome.next.injEq] at he
  subst he
  repeat' (first
      | with_reducible assumption
      | exact (AnsWithin.begin (.refl _ _)).st
      | exact Within.begin_after
      | (with_reducible refine Within.winos ?_ (fun u => ?_))
      | split
      | (refine AnsWithin.mk ?_ (fun w => ?_))
      | exact Within.refl _ _)

theorem Within.execTrickStatus (h : Within M s t) {a0 : Hdr} (he : (Machine.execTrickStatus a0 t) = .next u) (h_regs :
    M.regs := by assumption) (h_out : M.out := by assumption) (h_dealer : M.dealer := by assumption) (h_faults :
    M.faults := by assumption) : Within M s u := by
  unfold Machine.execTrickStatus at he
  simp only [Host.Outcome.next.injEq] at he
  subst he
  repeat' (first
      | with_reducible assumption
      | (with_reducible refine Within.winos ?_ (fun u => ?_))
      | (refine AnsWithin.mk ?_ (fun w => ?_))
      | exact Within.refl _ _)

theorem Within.execDeadlineSet (h : Within M s t) {a0 : Hdr} {ms : BitVec 16} (he : (Machine.execDeadlineSet a0 ms t)
    = .next u) (h_regs : M.regs := by assumption) (h_out : M.out := by assumption) (h_dealer : M.dealer := by
    assumption) (h_faults : M.faults := by assumption) (h_deck : M.deck := by assumption) : Within M s u := by
  unfold Machine.execDeadlineSet at he
  simp only [Host.Outcome.next.injEq] at he
  subst he
  repeat' (first
      | with_reducible assumption
      | with_reducible apply Within.setDeadline
      | dsimp only [State.ok]
      | (with_reducible refine Within.winos ?_ (fun u => ?_))
      | split
      | (refine AnsWithin.mk ?_ (fun w => ?_))
      | exact Within.refl _ _)

theorem AnsWithin.beginWeightCmd (h : Within M s t) {a1 : Hdr} {opcode kind : Nat} {copy : Bool} {geo : Option
    WeightGeom} {off : Nat} {data : List Byte} (h_regs : M.regs := by assumption) (h_dealer : M.dealer := by
    assumption) (h_beams : M.beams := by assumption) : AnsWithin M s (State.beginWeightCmd t a1 opcode kind copy geo
    off data) := by
  unfold State.beginWeightCmd
  repeat' (first
      | with_reducible assumption
      | with_reducible (first
      | apply Within.beginWeight
      | apply Within.wr)
      | dsimp only
      | exact (AnsWithin.begin (by assumption)).st
      | exact Within.begin_after
      | split
      | (refine AnsWithin.mk ?_ (fun w => ?_)))

theorem Within.execWeightWrite (h : Within M s t) {a0 : Hdr} {kind : Byte} {geo : WeightGeom} {off len : Word} {source
    : Byte} {addr : BitVec 64} {data : List Byte} (he : (Machine.execWeightWrite a0 kind geo off len source addr data
    t) = .next u) (h_regs : M.regs := by assumption) (h_out : M.out := by assumption) (h_dealer : M.dealer := by
    assumption) (h_faults : M.faults := by assumption) (h_beams : M.beams := by assumption) (h_hbm : M.hbm := by assumption) : Within M s u := by
  unfold Machine.execWeightWrite at he
  simp only [Host.Outcome.next.injEq] at he
  subst he
  repeat' (first
      | with_reducible assumption
      | with_reducible (first
      | apply AnsWithin.beginWeightCmd
      | apply Within.sourceBytes
      | apply AnsWithin.sourceFailed)
      | (with_reducible refine Within.winos ?_ (fun u => ?_))
      | split
      | (refine AnsWithin.mk ?_ (fun w => ?_))
      | exact Within.refl _ _)

theorem Within.execWeightCopy (h : Within M s t) {a0 : Hdr} {kind : Byte} (he : (Machine.execWeightCopy a0 kind t) =
    .next u) (h_regs : M.regs := by assumption) (h_out : M.out := by assumption) (h_dealer : M.dealer := by
    assumption) (h_faults : M.faults := by assumption) (h_beams : M.beams := by assumption) : Within M s u := by
  unfold Machine.execWeightCopy at he
  simp only [Host.Outcome.next.injEq] at he
  subst he
  repeat' (first
      | with_reducible assumption
      | with_reducible apply AnsWithin.beginWeightCmd
      | (with_reducible refine Within.winos ?_ (fun u => ?_))
      | split
      | (refine AnsWithin.mk ?_ (fun w => ?_))
      | exact Within.refl _ _)

theorem Within.execWeightDeal (h : Within M s t) {a0 : Hdr} {kinds : Byte} {d : BitVec 64} (he :
    (Machine.execWeightDeal a0 kinds d t) = .next u) (h_regs : M.regs := by assumption) (h_out : M.out := by
    assumption) (h_dealer : M.dealer := by assumption) (h_faults : M.faults := by assumption) : Within M s u := by
  unfold Machine.execWeightDeal at he
  simp only [Host.Outcome.next.injEq] at he
  subst he
  repeat' (first
      | with_reducible assumption
      | with_reducible (first
      | apply Within.wr64
      | apply Within.wr)
      | exact (AnsWithin.begin (.refl _ _)).st
      | exact Within.begin_after
      | (with_reducible refine Within.winos ?_ (fun u => ?_))
      | split
      | (refine AnsWithin.mk ?_ (fun w => ?_))
      | exact Within.refl _ _)

theorem Within.setZoomChange (h : Within M s t) {k c : Nat} {q : ZoomSettings} (h_beams : M.beams := by assumption) :
    Within M s (State.setZoomChange t k c q) := by
  unfold State.setZoomChange
  simp (maxDischargeDepth := 40) only [Within.ite, Within.setZslot, h, h_beams, true_or, or_true, and_self, implies_true]

theorem Within.execZoomChange (h : Within M s t) {a0 : Hdr} {slot : Byte} {set : ZoomSettings} {c : BitVec 64} (he :
    (Machine.execZoomChange a0 slot set c t) = .next u) (h_regs : M.regs := by assumption) (h_out : M.out := by
    assumption) (h_dealer : M.dealer := by assumption) (h_faults : M.faults := by assumption) (h_beams : M.beams := by
    assumption) : Within M s u := by
  unfold Machine.execZoomChange at he
  simp only [Host.Outcome.next.injEq] at he
  subst he
  repeat' (first
      | with_reducible assumption
      | with_reducible apply Within.setZoomChange
      | exact (AnsWithin.begin (.refl _ _)).st
      | exact Within.begin_after
      | (with_reducible refine Within.winos ?_ (fun u => ?_))
      | split
      | (refine AnsWithin.mk ?_ (fun w => ?_))
      | exact Within.refl _ _)

theorem Within.execZoomCoef (h : Within M s t) {a0 : Hdr} {set : Byte} {taps : List Word} (he : (Machine.execZoomCoef
    a0 set taps t) = .next u) (h_regs : M.regs := by assumption) (h_out : M.out := by assumption) (h_dealer : M.dealer
    := by assumption) (h_faults : M.faults := by assumption) : Within M s u := by
  unfold Machine.execZoomCoef at he
  simp only [Host.Outcome.next.injEq] at he
  subst he
  repeat' (first
      | with_reducible assumption
      | with_reducible refine Within.forN (fun t x => ?_) ?_
      | with_reducible (first
      | apply Within.flag
      | apply Within.writeTap)
      | dsimp only [State.ok]
      | dsimp only [State.rej]
      | (with_reducible refine Within.winos ?_ (fun u => ?_))
      | split
      | (refine AnsWithin.mk ?_ (fun w => ?_))
      | exact Within.refl _ _)

theorem Within.execRelease (h : Within M s t) {a0 : Hdr} {trick : BitVec 64} (he : (Machine.execRelease a0 trick t) =
    .next u) (h_regs : M.regs := by assumption) (h_out : M.out := by assumption) (h_dealer : M.dealer := by
    assumption) (h_faults : M.faults := by assumption) (h_tricks : M.tricks := by assumption) (h_ledger : M.ledger :=
    by assumption) : Within M s u := by
  unfold Machine.execRelease at he
  simp only [Host.Outcome.next.injEq] at he
  subst he
  repeat' (first
      | (simp (maxDischargeDepth := 40) only [Within.askRelease, Within.refl, h, h_regs, h_out, h_dealer, h_faults,
            h_tricks, h_ledger]; done)
      | (with_reducible refine Within.winos ?_ (fun u => ?_))
      | (refine AnsWithin.mk ?_ (fun w => ?_))
      | exact Within.refl _ _)

theorem Within.execResend (h : Within M s t) {a0 : Hdr} {part : Byte} {first : BitVec 64} {count : Word} (he :
    (Machine.execResend a0 part first count t) = .next u) (h_regs : M.regs := by assumption) (h_out : M.out := by
    assumption) (h_dealer : M.dealer := by assumption) (h_faults : M.faults := by assumption) (h_outp : M.outp := by
    assumption) : Within M s u := by
  unfold Machine.execResend at he
  simp only [Host.Outcome.next.injEq] at he
  subst he
  repeat' (first
      | (simp (maxDischargeDepth := 40) only [Within.resend, Within.refl, h, h_regs, h_outp]; done)
      | (with_reducible refine Within.winos ?_ (fun u => ?_))
      | (refine AnsWithin.mk ?_ (fun w => ?_))
      | exact Within.refl _ _)

theorem Within.execStatsSend (h : Within M s t) {a0 : Hdr} {trick : BitVec 64} {part : Byte} (he :
    (Machine.execStatsSend a0 trick part t) = .next u) (h_regs : M.regs := by assumption) (h_out : M.out := by
    assumption) (h_dealer : M.dealer := by assumption) (h_faults : M.faults := by assumption) : Within M s u := by
  unfold Machine.execStatsSend at he
  simp only [Host.Outcome.next.injEq] at he
  subst he
  repeat' (first
      | with_reducible assumption
      | exact (AnsWithin.begin (.refl _ _)).st
      | exact Within.begin_after
      | (with_reducible refine Within.winos ?_ (fun u => ?_))
      | split
      | (refine AnsWithin.mk ?_ (fun w => ?_))
      | exact Within.refl _ _)

theorem Within.execRingSize (h : Within M s t) {a0 : Hdr} {gib : Byte} (he : (Machine.execRingSize a0 gib t) = .next
    u) (h_regs : M.regs := by assumption) (h_out : M.out := by assumption) (h_dealer : M.dealer := by assumption)
    (h_faults : M.faults := by assumption) (h_plans : M.plans := by assumption) : Within M s u := by
  unfold Machine.execRingSize at he
  simp only [Host.Outcome.next.injEq] at he
  subst he
  repeat' (first
      | with_reducible assumption
      | with_reducible apply Within.reevaluate
      | simp only [Within.upd_iff, true_or, or_true, and_self, h_regs, h_out, h_dealer, h_faults, h_plans]
      | dsimp only [State.ok]
      | (with_reducible refine Within.winos ?_ (fun u => ?_))
      | split
      | (refine AnsWithin.mk ?_ (fun w => ?_))
      | exact Within.refl _ _)

theorem Within.setHostRing (h : Within M s t) {base log2 wb vec modk modus : Nat} (h_regs : M.regs := by assumption) :
    Within M s (State.setHostRing t base log2 wb vec modk modus) := by
  unfold State.setHostRing
  simp (maxDischargeDepth := 40) only [Within.wr64, Within.wr, h, h_regs]

theorem Within.execHostRing (h : Within M s t) {a0 : Hdr} {base : BitVec 64} {log2 : Byte} {wb : BitVec 64} {vec modk
    : Byte} {modus : BitVec 16} (he : (Machine.execHostRing a0 base log2 wb vec modk modus t) = .next u) (h_regs :
    M.regs := by assumption) (h_out : M.out := by assumption) (h_dealer : M.dealer := by assumption) (h_faults :
    M.faults := by assumption) : Within M s u := by
  unfold Machine.execHostRing at he
  simp only [Host.Outcome.next.injEq] at he
  subst he
  repeat' (first
      | with_reducible assumption
      | with_reducible apply Within.setHostRing
      | dsimp only [State.ok]
      | (with_reducible refine Within.winos ?_ (fun u => ?_))
      | split
      | (refine AnsWithin.mk ?_ (fun w => ?_))
      | exact Within.refl _ _)

theorem Within.setRefState (h : Within M s t) {x : Nat} (h_regs : M.regs := by assumption) : Within M s
    (State.setRefState t x) := by
  unfold State.setRefState
  simp (maxDischargeDepth := 40) only [Within.wr, h, h_regs]

theorem Within.setDis (h : Within M s t) {l : List DisPair} (h_regs : M.regs := by assumption) (h_time : M.time := by assumption) : Within M s (State.setDis t l) := by
  unfold State.setDis
  repeat' (first
      | (simp (maxDischargeDepth := 40) only [Within.upd, Within.put, h, true_or, or_true, and_self, implies_true, h_regs, h_time]; done)
      | dsimp only
      | split)

theorem Within.beginLock (h : Within M s t) {goesOn : Bool} (h_regs : M.regs := by assumption) (h_time : M.time := by
    assumption) : Within M s (State.beginLock t goesOn) := by
  unfold State.beginLock
  repeat' (first
      | (simp (maxDischargeDepth := 40) only [Within.wr, Within.upd, Within.ite, h, true_or, or_true, and_self,
            implies_true, h_regs, h_time]; done)
      | dsimp only
      | split)

theorem Within.reselect (h : Within M s t) (h_regs : M.regs := by assumption) (h_out : M.out := by assumption)
    (h_dealer : M.dealer := by assumption) (h_faults : M.faults := by assumption) (h_time : M.time := by assumption) :
    Within M s (State.reselect t) := by
  unfold State.reselect
  repeat' (first
      | (simp (maxDischargeDepth := 40) only [Within.setRefx, Within.put, Within.wr, Within.flag, Within.event, Within.beginLock,
            Within.setRefState, Within.setSteer, Within.upd, Within.ite, Within.forN, Within.refl, h, true_or,
            or_true, and_self, implies_true, h_regs, h_out, h_dealer, h_faults, h_time]; done)
      | dsimp only
      | split)

theorem Within.endPairs (h : Within M s t) {q : DisPair → Bool} (h_regs : M.regs := by assumption) (h_out : M.out := by assumption) (h_dealer : M.dealer := by assumption) (h_faults : M.faults := by assumption) (h_time : M.time := by assumption) : Within M s (State.endPairs t q) := by
  unfold State.endPairs
  repeat' (first
      | (simp (maxDischargeDepth := 40) only [Within.refl, Within.setDis, Within.foldl, Within.event, h, true_or, or_true, and_self, implies_true, h_regs, h_out, h_dealer, h_faults, h_time]; done)
      | dsimp only
      | split)

theorem Within.endCompare (h : Within M s t) {r : Nat} (h_regs : M.regs := by assumption) (h_out : M.out := by assumption) (h_dealer : M.dealer := by assumption) (h_faults : M.faults := by assumption) (h_time : M.time := by assumption) : Within M s (State.endCompare t r) := by
  unfold State.endCompare
  repeat' (first
      | (simp (maxDischargeDepth := 40) only [Within.setRefx, Within.endPairs, h, true_or, or_true, and_self, implies_true, h_regs, h_out, h_dealer, h_faults, h_time]; done)
      | dsimp only
      | split)

theorem Within.disqualify (h : Within M s t) {r cause : Nat} (h_regs : M.regs := by assumption) (h_out : M.out := by
    assumption) (h_dealer : M.dealer := by assumption) (h_faults : M.faults := by assumption) (h_time : M.time := by
    assumption) : Within M s (State.disqualify t r cause) := by
  unfold State.disqualify
  simp (maxDischargeDepth := 40) only [Within.endCompare, Within.wr, Within.setRefx, Within.event, Within.flag, Within.ite, h,
            implies_true, h_regs, h_out, h_dealer, h_faults, h_time, true_or, or_true, and_self]

theorem Within.measureRef (h : Within M s t) {r : Nat} {m : RefSample} (h_regs : M.regs := by assumption) (h_out :
    M.out := by assumption) (h_dealer : M.dealer := by assumption) (h_faults : M.faults := by assumption) (h_time :
    M.time := by assumption) : Within M s (State.measureRef t r m) := by
  unfold State.measureRef
  simp (maxDischargeDepth := 40) only [Within.endCompare, Within.put, Within.setRefx, Within.wr, Within.disqualify, Within.ite, h,
            implies_true, h_regs, h_out, h_dealer, h_faults, h_time, true_or, or_true, and_self]

theorem Within.comparePair (h : Within M s t) {r : Nat} (h_regs : M.regs := by assumption) (h_out : M.out := by
    assumption) (h_dealer : M.dealer := by assumption) (h_faults : M.faults := by assumption) (h_time : M.time := by
    assumption) : Within M s (State.comparePair t r) := by
  unfold State.comparePair
  repeat' (first
      | (simp (maxDischargeDepth := 40) only [Within.setRefx, Within.setDis, Within.flag, Within.event, Within.upd, Within.ite, h, true_or,
            or_true, and_self, implies_true, h_regs, h_out, h_dealer, h_faults, h_time]; done)
      | dsimp only
      | split)

theorem Within.compareRefs (h : Within M s t) (h_regs : M.regs := by assumption) (h_out : M.out := by assumption)
    (h_dealer : M.dealer := by assumption) (h_faults : M.faults := by assumption) (h_time : M.time := by assumption) :
    Within M s (State.compareRefs t) := by
  unfold State.compareRefs
  repeat' (first
      | (simp (maxDischargeDepth := 40) only [Within.setDis, Within.endPairs, Within.comparePair, Within.forN, Within.refl, h, true_or, or_true,
            and_self, implies_true, h_regs, h_out, h_dealer, h_faults, h_time]; done)
      | dsimp only
      | split)

theorem Within.countLock (h : Within M s t) (h_regs : M.regs := by assumption) (h_time : M.time := by assumption) :
    Within M s (State.countLock t) := by
  unfold State.countLock
  repeat' (first
      | (simp (maxDischargeDepth := 40) only [Within.wr, Within.upd, Within.ite, h, true_or, or_true, and_self,
            implies_true, h_regs, h_time]; done)
      | dsimp only
      | split)

theorem Within.track (h : Within M s t) {loopLocked : Bool} (h_regs : M.regs := by assumption) (h_faults : M.faults :=
    by assumption) (h_time : M.time := by assumption) : Within M s (State.track t loopLocked) := by
  unfold State.track
  repeat' (first
      | (simp (maxDischargeDepth := 40) only [Within.wr, Within.setRefState, Within.beginLock, Within.setSteer,
            Within.upd, Within.ite, h, true_or, or_true, and_self, implies_true, h_regs, h_faults, h_time]; done)
      | dsimp only
      | split)

theorem Within.settingsTake (h : Within M s t) (h_time : M.time := by assumption) : Within M s (State.settingsTake t) := by
  unfold State.settingsTake
  repeat' (first
      | (simp (maxDischargeDepth := 40) only [Within.ite, Within.upd, h, true_or, or_true, and_self, implies_true, h_time]; done)
      | dsimp only
      | split)

theorem Within.execReferenceMeasurement (h : Within M s t) {m : RefMeas} (he : (Machine.execReferenceMeasurement m t)
    = .next u) (h_regs : M.regs := by assumption) (h_out : M.out := by assumption) (h_dealer : M.dealer := by
    assumption) (h_faults : M.faults := by assumption) (h_time : M.time := by assumption) : Within M s u := by
  unfold Machine.execReferenceMeasurement at he
  simp only [Host.Outcome.next.injEq] at he
  subst he
  repeat' (first
      | (simp (maxDischargeDepth := 40) only [Within.settingsTake, Within.measureRef, Within.countLock, Within.reselect, Within.compareRefs,
            Within.track, h, true_or, or_true, and_self, implies_true, h_regs, h_out, h_dealer, h_faults, h_time]; done)
      | dsimp only
      | split)

theorem Within.execPpsEdge (h : Within M s t) {r : Fin 2} {posErrNs : Int} (he : (Machine.execPpsEdge r posErrNs t) =
    .next u) (h_regs : M.regs := by assumption) (h_out : M.out := by assumption) (h_dealer : M.dealer := by
    assumption) (h_faults : M.faults := by assumption) (h_time : M.time := by assumption) : Within M s u := by
  unfold Machine.execPpsEdge at he
  simp only [Host.Outcome.next.injEq] at he
  subst he
  simp (maxDischargeDepth := 40) only [Within.setRefx, Within.reselect, Within.disqualify, Within.ite, h, implies_true, h_regs, h_out,
            h_dealer, h_faults, h_time, true_or, or_true, and_self]

theorem Within.execReferenceNoLongerPresent (h : Within M s t) {r : RefId} (he : (Machine.execReferenceNoLongerPresent
    r t) = .next u) (h_regs : M.regs := by assumption) (h_out : M.out := by assumption) (h_dealer : M.dealer := by
    assumption) (h_faults : M.faults := by assumption) (h_time : M.time := by assumption) : Within M s u := by
  unfold Machine.execReferenceNoLongerPresent at he
  simp only [Host.Outcome.next.injEq] at he
  subst he
  simp (maxDischargeDepth := 40) only [Within.wr, Within.setRefx, Within.fault, Within.reselect, Within.disqualify,
    Within.upd, Within.ite, h, true_or, or_true, and_self, implies_true, h_regs, h_out, h_dealer, h_faults, h_time]

theorem Within.execWtrExpiry (h : Within M s t) {r : RefId} (he : (Machine.execWtrExpiry r t) = .next u) (h_regs :
    M.regs := by assumption) (h_out : M.out := by assumption) (h_dealer : M.dealer := by assumption) (h_faults :
    M.faults := by assumption) (h_time : M.time := by assumption) : Within M s u := by
  unfold Machine.execWtrExpiry at he
  simp only [Host.Outcome.next.injEq] at he
  subst he
  simp (maxDischargeDepth := 40) only [Within.reselect, Within.flag, Within.wr, Within.setRefx, Within.ite, h,
    implies_true, h_regs, h_out, h_dealer, h_faults, h_time]

theorem Within.execOcxoWarm (h : Within M s t) (he : (Machine.execOcxoWarm t) = .next u) (h_regs : M.regs := by
    assumption) : Within M s u := by
  unfold Machine.execOcxoWarm at he
  simp only [Host.Outcome.next.injEq] at he
  subst he
  simp (maxDischargeDepth := 40) only [Within.wr, h, h_regs]

theorem Within.execDisagreementAverage (h : Within M s t) {selPpt : Int} {otherPpt : Int} (he :
    (Machine.execDisagreementAverage selPpt otherPpt t) = .next u) (h_regs : M.regs := by assumption) (h_out : M.out
    := by assumption) (h_dealer : M.dealer := by assumption) (h_faults : M.faults := by assumption) (h_time : M.time
    := by assumption) : Within M s u := by
  unfold Machine.execDisagreementAverage at he
  simp only [Host.Outcome.next.injEq] at he
  subst he
  repeat' (first
      | (simp (maxDischargeDepth := 40) only [Within.disqualify, Within.reselect, Within.setDis, Within.ite, Within.whenS, Within.refl, h,
            true_or, or_true, and_self, implies_true, h_regs, h_out, h_dealer, h_faults, h_time]; done)
      | dsimp only
      | split)

theorem Within.refFault (h : Within M s t) (h_regs : M.regs := by assumption) (h_faults : M.faults := by assumption)
    (h_time : M.time := by assumption) : Within M s (State.refFault t) := by
  unfold State.refFault
  simp (maxDischargeDepth := 40) only [Within.fault, Within.flag, Within.setSteer, Within.setRefState, Within.ite, h,
    implies_true, h_regs, h_faults, h_time]

theorem Within.execOcxoOutOfRegulation (h : Within M s t) (he : (Machine.execOcxoOutOfRegulation t) = .next u) (h_regs
    : M.regs := by assumption) (h_faults : M.faults := by assumption) (h_time : M.time := by assumption) : Within M s
    u := by
  unfold Machine.execOcxoOutOfRegulation at he
  simp only [Host.Outcome.next.injEq] at he
  subst he
  simp (maxDischargeDepth := 40) only [Within.refFault, h, h_regs, h_faults, h_time]

theorem Within.execFaultStateEnd (h : Within M s t) (he : (Machine.execFaultStateEnd t) = .next u) (h_regs : M.regs :=
    by assumption) (h_out : M.out := by assumption) (h_dealer : M.dealer := by assumption) (h_faults : M.faults := by
    assumption) (h_time : M.time := by assumption) (h_power : M.power := by assumption) : Within M s u := by
  unfold Machine.execFaultStateEnd at he
  simp only [Host.Outcome.next.injEq] at he
  subst he
  simp (maxDischargeDepth := 40) only [Within.setLive, Within.domainBack, Within.reselect, Within.setRefState, Within.upd, Within.ite, h,
            true_or, or_true, and_self, implies_true, h_regs, h_out, h_dealer, h_faults, h_time, h_power]

theorem Within.stepTime (h : Within M s t) {v : Int} (h_time : M.time := by assumption) (h_deck : M.deck := by assumption) : Within M s (State.stepTime t
    v) := by
  unfold State.stepTime
  simp (maxDischargeDepth := 40) only [Within.setNowNs, Within.setRefx, Within.upd, Within.refl, h, true_or, or_true, and_self,
            implies_true, Within.forN, h_time, h_deck]

theorem Within.execTimeSet (h : Within M s t) {a0 : Hdr} {sec : BitVec 64} {ns : Word} (he : (Machine.execTimeSet a0
    sec ns t) = .next u) (h_regs : M.regs := by assumption) (h_out : M.out := by assumption) (h_dealer : M.dealer :=
    by assumption) (h_faults : M.faults := by assumption) (h_time : M.time := by assumption) (h_deck : M.deck := by assumption) : Within M s u := by
  unfold Machine.execTimeSet at he
  simp only [Host.Outcome.next.injEq] at he
  subst he
  repeat' (first
      | with_reducible assumption
      | with_reducible (first
      | apply Within.flag
      | apply Within.wr
      | apply Within.stepTime
      | apply Within.event)
      | dsimp only [State.ok]
      | (with_reducible refine Within.winos ?_ (fun u => ?_))
      | split
      | (refine AnsWithin.mk ?_ (fun w => ?_))
      | exact Within.refl _ _)

theorem Within.execReEpoch (h : Within M s t) {a0 : Hdr} {eps sec : BitVec 64} {ns : Word} (he : (Machine.execReEpoch
    a0 eps sec ns t) = .next u) (h_regs : M.regs := by assumption) (h_out : M.out := by assumption) (h_dealer :
    M.dealer := by assumption) (h_faults : M.faults := by assumption) (h_time : M.time := by assumption) (h_plans :
    M.plans := by assumption) (h_deck : M.deck := by assumption) : Within M s u := by
  unfold Machine.execReEpoch at he
  simp only [Host.Outcome.next.injEq] at he
  subst he
  repeat' (first
      | with_reducible assumption
      | with_reducible (first
      | apply Within.wr
      | apply Within.wr64
      | apply Within.flag
      | apply Within.stepTime
      | apply Within.reevaluate
      | apply Within.event)
      | simp only [Within.upd_iff, true_or, or_true, and_self, h_regs, h_out, h_dealer, h_faults, h_time, h_plans]
      | dsimp only [State.ok]
      | (with_reducible refine Within.winos ?_ (fun u => ?_))
      | split
      | (refine AnsWithin.mk ?_ (fun w => ?_))
      | exact Within.refl _ _)

theorem Within.execMapSet (h : Within M s t) {a0 : Hdr} {sec : BitVec 64} {ns p q : Word} (he : (Machine.execMapSet a0
    sec ns p q t) = .next u) (h_regs : M.regs := by assumption) (h_out : M.out := by assumption) (h_dealer : M.dealer
    := by assumption) (h_faults : M.faults := by assumption) (h_time : M.time := by assumption) (h_plans : M.plans :=
    by assumption) : Within M s u := by
  unfold Machine.execMapSet at he
  simp only [Host.Outcome.next.injEq] at he
  subst he
  repeat' (first
      | with_reducible assumption
      | with_reducible (first
      | apply Within.reevaluate
      | apply Within.event
      | apply Within.wr)
      | simp only [Within.upd_iff, true_or, or_true, and_self, h_regs, h_out, h_dealer, h_faults, h_time, h_plans]
      | dsimp only [State.ok]
      | (with_reducible refine Within.winos ?_ (fun u => ?_))
      | split
      | (refine AnsWithin.mk ?_ (fun w => ?_))
      | exact Within.refl _ _)

theorem Within.movePhase (h : Within M s t) {phi : Int} (h_regs : M.regs := by assumption) (h_time : M.time := by assumption) : Within M s (State.movePhase t phi) := by
  unfold State.movePhase
  repeat' (first
      | (simp (maxDischargeDepth := 40) only [Within.upd, Within.wr, h, true_or, or_true, and_self, implies_true, h_regs, h_time]; done)
      | dsimp only
      | split)

theorem Within.execPhaseStep (h : Within M s t) {a0 : Hdr} {amount : Word} (he : (Machine.execPhaseStep a0 amount t) =
    .next u) (h_regs : M.regs := by assumption) (h_out : M.out := by assumption) (h_dealer : M.dealer := by
    assumption) (h_faults : M.faults := by assumption) (h_time : M.time := by assumption) : Within M s u := by
  unfold Machine.execPhaseStep at he
  simp only [Host.Outcome.next.injEq] at he
  subst he
  repeat' (first
      | with_reducible assumption
      | with_reducible (first
      | apply Within.flag
      | apply Within.movePhase)
      | dsimp only [State.ok]
      | (with_reducible refine Within.winos ?_ (fun u => ?_))
      | split
      | (refine AnsWithin.mk ?_ (fun w => ?_))
      | exact Within.refl _ _)

theorem Within.holdRefs (h : Within M s t) (h_time : M.time := by assumption) : Within M s (State.holdRefs t) := by
  unfold State.holdRefs
  repeat' (first
      | (simp (maxDischargeDepth := 40) only [Within.upd, h, true_or, or_true, and_self, implies_true, h_time]; done)
      | dsimp only
      | split)

theorem Within.setRefs (h : Within M s t) {p : List Byte} (h_regs : M.regs := by assumption) (h_time : M.time := by assumption) : Within M s
    (State.setRefs t p) := by
  unfold State.setRefs
  simp (maxDischargeDepth := 40) only [Within.holdRefs, Within.wr, Within.put, Within.refl, h, implies_true, Within.forN, h_regs, true_or,
            or_true, and_self, h_time]

theorem Within.execRefCfg (h : Within M s t) {a0 : Hdr} {params : List Byte} (he : (Machine.execRefCfg a0 params t) =
    .next u) (h_regs : M.regs := by assumption) (h_out : M.out := by assumption) (h_dealer : M.dealer := by
    assumption) (h_faults : M.faults := by assumption) (h_time : M.time := by assumption) : Within M s u := by
  unfold Machine.execRefCfg at he
  simp only [Host.Outcome.next.injEq] at he
  subst he
  repeat' (first
      | with_reducible assumption
      | with_reducible apply Within.setRefs
      | dsimp only [State.ok]
      | (with_reducible refine Within.winos ?_ (fun u => ?_))
      | split
      | (refine AnsWithin.mk ?_ (fun w => ?_))
      | exact Within.refl _ _)

theorem Within.execPtpCfg (h : Within M s t) {a0 : Hdr} {params : List Byte} (he : (Machine.execPtpCfg a0 params t) =
    .next u) (h_regs : M.regs := by assumption) (h_out : M.out := by assumption) (h_dealer : M.dealer := by
    assumption) (h_faults : M.faults := by assumption) (h_time : M.time := by assumption) : Within M s u := by
  unfold Machine.execPtpCfg at he
  simp only [Host.Outcome.next.injEq] at he
  subst he
  repeat' (first
      | with_reducible assumption
      | with_reducible (first
      | apply Within.setPtpPort
      | apply Within.wr
      | apply Within.put)
      | simp only [Within.upd_iff, true_or, or_true, and_self, h_regs, h_out, h_dealer, h_faults, h_time]
      | dsimp only [State.ok]
      | (with_reducible refine Within.winos ?_ (fun u => ?_))
      | split
      | (refine AnsWithin.mk ?_ (fun w => ?_))
      | exact Within.refl _ _)

theorem Within.setOffset (h : Within M s t) (h_regs : M.regs := by assumption) (h_time : M.time := by assumption) :
    Within M s (State.setOffset t) := by
  unfold State.setOffset
  repeat' (first
      | (simp (maxDischargeDepth := 40) only [Within.wr, Within.upd, h, true_or, or_true, and_self, implies_true,
            h_regs, h_time]; done)
      | dsimp only
      | split)

theorem Within.followMaster (h : Within M s t) {rank gmid : Nat} (h_regs : M.regs := by assumption) (h_faults :
    M.faults := by assumption) (h_time : M.time := by assumption) : Within M s (State.followMaster t rank gmid) := by
  unfold State.followMaster
  simp (maxDischargeDepth := 40) only [Within.wr, Within.wr64, Within.fault, Within.upd, Within.refl, h, true_or,
    or_true, and_self, implies_true, Within.whenS, h_regs, h_faults, h_time]

theorem Within.ptpSlave (h : Within M s t) {m : PtpMsg} (h_regs : M.regs := by assumption) (h_faults : M.faults := by
    assumption) (h_time : M.time := by assumption) (h_out : M.out := by assumption) (h_lanes : M.lanes := by assumption) : Within M s (State.ptpSlave t m) := by
  unfold State.ptpSlave
  repeat' (first
      | (simp (maxDischargeDepth := 40) only [Within.setLive, Within.announce, Within.wr, Within.bump, Within.setOffset, Within.followMaster,
            Within.upd, Within.ite, h, true_or, or_true, and_self, implies_true, h_regs, h_faults, h_time, h_out, h_lanes]; done)
      | split)

theorem Within.ptpSend (h : Within M s t) {q : Nat} {n : Nat} {m : PtpMsg} (h_regs : M.regs := by assumption) (h_out :
    M.out := by assumption) : Within M s (State.ptpSend t q n m) := by
  unfold State.ptpSend
  repeat' (first
      | (simp (maxDischargeDepth := 40) only [Within.bump64, Within.send, h, true_or, or_true, and_self, implies_true, h_regs, h_out]; done)
      | dsimp only
      | split)

theorem Within.forward (h : Within M s t) {q : Nat} {m : PtpMsg} {c : Int} (h_regs : M.regs := by assumption) (h_out : M.out := by assumption) : Within M s (State.forward t q m c) := by
  unfold State.forward
  repeat' (first
      | (simp (maxDischargeDepth := 40) only [Within.upd, Within.ptpSend, h, true_or, or_true, and_self, implies_true, h_regs, h_out]; done)
      | dsimp only
      | split)

theorem Within.execPtpMessage (h : Within M s t) {q : PortId} {msg : PtpMsg} (he : (Machine.execPtpMessage q msg t) =
    .next u) (h_regs : M.regs := by assumption) (h_out : M.out := by assumption) (h_faults : M.faults := by assumption) (h_time : M.time := by assumption) (h_lanes : M.lanes := by assumption) :
    Within M s u := by
  unfold Machine.execPtpMessage at he
  simp only [Host.Outcome.next.injEq] at he
  subst he
  repeat' (first
      | (simp (maxDischargeDepth := 40) only [Within.forward, Within.ptpSend, Within.drawn, Within.bump, Within.ptpSlave, Within.upd, Within.ite,
            h, true_or, or_true, and_self, implies_true, h_regs, h_out, h_faults, h_time, h_lanes]; done)
      | dsimp only
      | split)

theorem Within.execDelayReqTimer (h : Within M s t) (he : (Machine.execDelayReqTimer t) = .next u) (h_regs : M.regs :=
    by assumption) (h_out : M.out := by assumption) (h_time : M.time := by assumption) : Within M s u := by
  unfold Machine.execDelayReqTimer at he
  simp only [Host.Outcome.next.injEq] at he
  subst he
  repeat' (first
      | (simp (maxDischargeDepth := 40) only [Within.drawn, Within.ptpSend, Within.bump, Within.upd, Within.ite, h, true_or, or_true, and_self,
            implies_true, h_regs, h_out, h_time]; done)
      | dsimp only
      | split)

end Sys2Proof.Machine
end

