-- ==== Sys2Proof/Laws/Within5.lean ====
section
/-! SUPPORT. Which parts of the state the operations and meanings of Machine/Views.lean, Machine/RegWrite.lean,
Machine/Fabric.lean, Machine/Dma.lean, Machine/SysOps.lean, Machine/Warm.lean, Machine/Boot.lean, Machine/Power.lean,
Machine/Module.lean may change (`Within`), one lemma each. -/

namespace Sys2Proof.Machine

set_option Elab.async false

variable {M : Mask} {s t u : State}

theorem Within.showRead (h : Within M s t) {m o : Nat} (h_regs : M.regs := by assumption) (h_out : M.out := by
    assumption) (h_faults : M.faults := by assumption) (h_fab : M.fab := by assumption) (h_hbm : M.hbm := by assumption) : Within M s (State.showRead t
    m o) := by
  unfold State.showRead
  repeat' (first
      | (simp (maxDischargeDepth := 40) only [Within.send, Within.regRefuse, h, h_regs, h_out, h_faults, h_hbm]; done)
      | exact Within.readReg (by assumption) (by assumption)
      | with_reducible apply Within.send
      | split)

theorem Within.execReadClear (h : Within M s t) {m : Byte} {off : Nat} (he : (Machine.execReadClear m off t) = .next
    u) (h_regs : M.regs := by assumption) (h_out : M.out := by assumption) (h_faults : M.faults := by assumption)
    (h_fab : M.fab := by assumption) (h_hbm : M.hbm := by assumption) : Within M s u := by
  unfold Machine.execReadClear at he
  simp only [Host.Outcome.next.injEq] at he
  subst he
  simp (maxDischargeDepth := 40) only [Within.showRead, h, h_regs, h_out, h_faults, h_fab, h_hbm]

theorem Within.execLowWordRead (h : Within M s t) {m : Byte} {off : Nat} (he : (Machine.execLowWordRead m off t) =
    .next u) (h_regs : M.regs := by assumption) (h_out : M.out := by assumption) (h_faults : M.faults := by
    assumption) (h_fab : M.fab := by assumption) (h_hbm : M.hbm := by assumption) : Within M s u := by
  unfold Machine.execLowWordRead at he
  simp only [Host.Outcome.next.injEq] at he
  subst he
  simp (maxDischargeDepth := 40) only [Within.showRead, h, h_regs, h_out, h_faults, h_fab, h_hbm]

theorem Within.execTimSecLowRead (h : Within M s t) {m : Byte} (he : (Machine.execTimSecLowRead m t) = .next u)
    (h_regs : M.regs := by assumption) (h_out : M.out := by assumption) (h_faults : M.faults := by assumption) (h_fab
    : M.fab := by assumption) (h_hbm : M.hbm := by assumption) : Within M s u := by
  unfold Machine.execTimSecLowRead at he
  simp only [Host.Outcome.next.injEq] at he
  subst he
  simp (maxDischargeDepth := 40) only [Within.showRead, h, h_regs, h_out, h_faults, h_fab, h_hbm]

theorem Within.execRegisterWrite (h : Within M s t) {m : Byte} {off size : Nat} {v : Word} (he :
    (Machine.execRegisterWrite m off size v t) = .next u) (h_regs : M.regs := by assumption) (h_out : M.out := by
    assumption) (h_dealer : M.dealer := by assumption) (h_faults : M.faults := by assumption) (h_time : M.time := by
    assumption) (h_lanes : M.lanes := by assumption) (h_links : M.links := by assumption) (h_sess : M.sess := by
    assumption) (h_deck : M.deck := by assumption) (h_engs : M.engs := by assumption) (h_plans : M.plans := by
    assumption) (h_tricks : M.tricks := by assumption) (h_spd : M.spd := by assumption) (h_ledger : M.ledger := by
    assumption) (h_dma : M.dma := by assumption) (h_hbm : M.hbm := by assumption) (h_fab : M.fab := by assumption) (h_power : M.power := by assumption) : Within M s u := by
  unfold Machine.execRegisterWrite at he
  simp only [Host.Outcome.next.injEq] at he
  subst he
  simp (maxDischargeDepth := 40) only [Within.send, Within.regRefuse, Within.writeReg, Within.ite, h, implies_true,
    h_regs, h_out, h_dealer, h_faults, h_time, h_lanes, h_links, h_sess, h_deck, h_engs, h_plans, h_tricks, h_spd,
    h_ledger, h_dma, h_hbm, h_fab, h_power]

theorem Within.execPwrMinrstRearm (h : Within M s t) (he : (Machine.execPwrMinrstRearm t) = .next u) (h_regs : M.regs
    := by assumption) : Within M s u := by
  unfold Machine.execPwrMinrstRearm at he
  simp only [Host.Outcome.next.injEq] at he
  subst he
  simp (maxDischargeDepth := 40) only [Within.rearm, h, h_regs]

theorem Within.readRegs (h : Within M s t) {o n : Nat} (h_regs : M.regs := by assumption) (h_fab : M.fab := by
    assumption) (h_hbm : M.hbm := by assumption) : Within M s (State.readRegs t o n).1 := by
  induction n generalizing t o with
  | zero => exact h
  | succ n ih =>
    unfold State.readRegs
    split
    · exact h
    · exact ih (h.readReg ‹_›)

theorem Within.execRegRead (h : Within M s t) {a0 : Hdr} {addr : Word} {count : BitVec 16} (he : (Machine.execRegRead
    a0 addr count t) = .next u) (h_regs : M.regs := by assumption) (h_out : M.out := by assumption) (h_dealer :
    M.dealer := by assumption) (h_faults : M.faults := by assumption) (h_fab : M.fab := by assumption) (h_hbm : M.hbm := by assumption) : Within M s u
    := by
  unfold Machine.execRegRead at he
  simp only [Host.Outcome.next.injEq] at he
  subst he
  repeat' (first
      | with_reducible assumption
      | with_reducible (first
      | apply Within.readRegs
      | apply Within.regRefuse)
      | dsimp only [State.internal]
      | dsimp only [State.ok]
      | (with_reducible refine Within.winos ?_ (fun u => ?_))
      | split
      | (refine AnsWithin.mk ?_ (fun w => ?_))
      | exact Within.refl _ _)

theorem Within.execRegWrite (h : Within M s t) {a0 : Hdr} {addr value : Word} (he : (Machine.execRegWrite a0 addr
    value t) = .next u) (h_regs : M.regs := by assumption) (h_out : M.out := by assumption) (h_dealer : M.dealer := by
    assumption) (h_faults : M.faults := by assumption) (h_time : M.time := by assumption) (h_lanes : M.lanes := by
    assumption) (h_links : M.links := by assumption) (h_sess : M.sess := by assumption) (h_deck : M.deck := by
    assumption) (h_engs : M.engs := by assumption) (h_plans : M.plans := by assumption) (h_tricks : M.tricks := by
    assumption) (h_spd : M.spd := by assumption) (h_ledger : M.ledger := by assumption) (h_dma : M.dma := by
    assumption) (h_hbm : M.hbm := by assumption) (h_fab : M.fab := by assumption) (h_power : M.power := by assumption) : Within M s u := by
  unfold Machine.execRegWrite at he
  simp only [Host.Outcome.next.injEq] at he
  subst he
  repeat' (first
      | with_reducible assumption
      | with_reducible apply Within.writeReg
      | dsimp only [State.internal]
      | dsimp only [State.ok]
      | (with_reducible refine Within.winos ?_ (fun u => ?_))
      | split
      | (refine AnsWithin.mk ?_ (fun w => ?_))
      | exact Within.refl _ _)

theorem Within.request (h : Within M s t) {a : Access} {ty : Nat} {data : List Byte} {last : Bool} (h_regs : M.regs :=
    by assumption) (h_out : M.out := by assumption) (h_dealer : M.dealer := by assumption) (h_faults : M.faults := by
    assumption) (h_time : M.time := by assumption) (h_lanes : M.lanes := by assumption) (h_links : M.links := by
    assumption) (h_sess : M.sess := by assumption) (h_deck : M.deck := by assumption) (h_engs : M.engs := by
    assumption) (h_plans : M.plans := by assumption) (h_tricks : M.tricks := by assumption) (h_hbm : M.hbm := by
    assumption) (h_spd : M.spd := by assumption) (h_sec : M.sec := by assumption) (h_ledger : M.ledger := by
    assumption) (h_fab : M.fab := by assumption) (h_dma : M.dma := by assumption) (h_power : M.power := by assumption) :
    Within M s (State.request t a ty data last) := by
  unfold State.request
  split
  · exact h.access
  · split
    · exact h.access
    · dsimp only
      split
      · exact h
      · exact Within.answerOf h.drawn.unmapped

theorem Within.execFabricRead (h : Within M s t) {a : Access} (he : (Machine.execFabricRead a t) = .next u) (h_regs :
    M.regs := by assumption) (h_out : M.out := by assumption) (h_dealer : M.dealer := by assumption) (h_faults :
    M.faults := by assumption) (h_time : M.time := by assumption) (h_lanes : M.lanes := by assumption) (h_links :
    M.links := by assumption) (h_sess : M.sess := by assumption) (h_deck : M.deck := by assumption) (h_engs : M.engs
    := by assumption) (h_plans : M.plans := by assumption) (h_tricks : M.tricks := by assumption) (h_hbm : M.hbm := by
    assumption) (h_spd : M.spd := by assumption) (h_sec : M.sec := by assumption) (h_ledger : M.ledger := by
    assumption) (h_fab : M.fab := by assumption) (h_dma : M.dma := by assumption) (h_power : M.power := by assumption) : Within M s u := by
  unfold Machine.execFabricRead at he
  simp only [Host.Outcome.next.injEq] at he
  subst he
  simp (maxDischargeDepth := 40) only [Within.request, h, h_regs, h_out, h_dealer, h_faults, h_time, h_lanes, h_links,
    h_sess, h_deck, h_engs, h_plans, h_tricks, h_hbm, h_spd, h_sec, h_ledger, h_fab, h_dma, h_power]

theorem Within.execFabricWrite (h : Within M s t) {a : Access} {data : List Byte} (he : (Machine.execFabricWrite a
    data t) = .next u) (h_regs : M.regs := by assumption) (h_out : M.out := by assumption) (h_dealer : M.dealer := by
    assumption) (h_faults : M.faults := by assumption) (h_time : M.time := by assumption) (h_lanes : M.lanes := by
    assumption) (h_links : M.links := by assumption) (h_sess : M.sess := by assumption) (h_deck : M.deck := by
    assumption) (h_engs : M.engs := by assumption) (h_plans : M.plans := by assumption) (h_tricks : M.tricks := by
    assumption) (h_hbm : M.hbm := by assumption) (h_spd : M.spd := by assumption) (h_sec : M.sec := by assumption)
    (h_ledger : M.ledger := by assumption) (h_fab : M.fab := by assumption) (h_dma : M.dma := by assumption) (h_power : M.power := by assumption) : Within
    M s u := by
  unfold Machine.execFabricWrite at he
  simp only [Host.Outcome.next.injEq] at he
  subst he
  simp (maxDischargeDepth := 40) only [Within.request, h, h_regs, h_out, h_dealer, h_faults, h_time, h_lanes, h_links,
    h_sess, h_deck, h_engs, h_plans, h_tricks, h_hbm, h_spd, h_sec, h_ledger, h_fab, h_dma, h_power]

theorem Within.execAtomicAdd (h : Within M s t) {a : Access} {v : BitVec 64} (he : (Machine.execAtomicAdd a v t) =
    .next u) (h_regs : M.regs := by assumption) (h_out : M.out := by assumption) (h_dealer : M.dealer := by
    assumption) (h_faults : M.faults := by assumption) (h_time : M.time := by assumption) (h_lanes : M.lanes := by
    assumption) (h_links : M.links := by assumption) (h_sess : M.sess := by assumption) (h_deck : M.deck := by
    assumption) (h_engs : M.engs := by assumption) (h_plans : M.plans := by assumption) (h_tricks : M.tricks := by
    assumption) (h_hbm : M.hbm := by assumption) (h_spd : M.spd := by assumption) (h_sec : M.sec := by assumption)
    (h_ledger : M.ledger := by assumption) (h_fab : M.fab := by assumption) (h_dma : M.dma := by assumption) (h_power : M.power := by assumption) : Within
    M s u := by
  unfold Machine.execAtomicAdd at he
  simp only [Host.Outcome.next.injEq] at he
  subst he
  simp (maxDischargeDepth := 40) only [Within.request, h, h_regs, h_out, h_dealer, h_faults, h_time, h_lanes, h_links,
    h_sess, h_deck, h_engs, h_plans, h_tricks, h_hbm, h_spd, h_sec, h_ledger, h_fab, h_dma, h_power]

theorem Within.execAtomicSwap (h : Within M s t) {a : Access} {v : BitVec 64} (he : (Machine.execAtomicSwap a v t) =
    .next u) (h_regs : M.regs := by assumption) (h_out : M.out := by assumption) (h_dealer : M.dealer := by
    assumption) (h_faults : M.faults := by assumption) (h_time : M.time := by assumption) (h_lanes : M.lanes := by
    assumption) (h_links : M.links := by assumption) (h_sess : M.sess := by assumption) (h_deck : M.deck := by
    assumption) (h_engs : M.engs := by assumption) (h_plans : M.plans := by assumption) (h_tricks : M.tricks := by
    assumption) (h_hbm : M.hbm := by assumption) (h_spd : M.spd := by assumption) (h_sec : M.sec := by assumption)
    (h_ledger : M.ledger := by assumption) (h_fab : M.fab := by assumption) (h_dma : M.dma := by assumption) (h_power : M.power := by assumption) : Within
    M s u := by
  unfold Machine.execAtomicSwap at he
  simp only [Host.Outcome.next.injEq] at he
  subst he
  simp (maxDischargeDepth := 40) only [Within.request, h, h_regs, h_out, h_dealer, h_faults, h_time, h_lanes, h_links,
    h_sess, h_deck, h_engs, h_plans, h_tricks, h_hbm, h_spd, h_sec, h_ledger, h_fab, h_dma, h_power]

theorem Within.execLockedRead (h : Within M s t) {a : Access} {last : Bool} (he : (Machine.execLockedRead a last t) =
    .next u) (h_regs : M.regs := by assumption) (h_out : M.out := by assumption) (h_dealer : M.dealer := by
    assumption) (h_faults : M.faults := by assumption) (h_time : M.time := by assumption) (h_lanes : M.lanes := by
    assumption) (h_links : M.links := by assumption) (h_sess : M.sess := by assumption) (h_deck : M.deck := by
    assumption) (h_engs : M.engs := by assumption) (h_plans : M.plans := by assumption) (h_tricks : M.tricks := by
    assumption) (h_hbm : M.hbm := by assumption) (h_spd : M.spd := by assumption) (h_sec : M.sec := by assumption)
    (h_ledger : M.ledger := by assumption) (h_fab : M.fab := by assumption) (h_dma : M.dma := by assumption) (h_power : M.power := by assumption) : Within
    M s u := by
  unfold Machine.execLockedRead at he
  simp only [Host.Outcome.next.injEq] at he
  subst he
  simp (maxDischargeDepth := 40) only [Within.serveHeld, Within.request, h, h_regs, h_out, h_dealer, h_faults, h_time,
    h_lanes, h_links, h_sess, h_deck, h_engs, h_plans, h_tricks, h_hbm, h_spd, h_sec, h_ledger, h_fab, h_dma, h_power]

theorem Within.execLockedWrite (h : Within M s t) {a : Access} {data : List Byte} {last : Bool} (he :
    (Machine.execLockedWrite a data last t) = .next u) (h_regs : M.regs := by assumption) (h_out : M.out := by
    assumption) (h_dealer : M.dealer := by assumption) (h_faults : M.faults := by assumption) (h_time : M.time := by
    assumption) (h_lanes : M.lanes := by assumption) (h_links : M.links := by assumption) (h_sess : M.sess := by
    assumption) (h_deck : M.deck := by assumption) (h_engs : M.engs := by assumption) (h_plans : M.plans := by
    assumption) (h_tricks : M.tricks := by assumption) (h_hbm : M.hbm := by assumption) (h_spd : M.spd := by
    assumption) (h_sec : M.sec := by assumption) (h_ledger : M.ledger := by assumption) (h_fab : M.fab := by
    assumption) (h_dma : M.dma := by assumption) (h_power : M.power := by assumption) : Within M s u := by
  unfold Machine.execLockedWrite at he
  simp only [Host.Outcome.next.injEq] at he
  subst he
  simp (maxDischargeDepth := 40) only [Within.serveHeld, Within.request, h, h_regs, h_out, h_dealer, h_faults, h_time,
    h_lanes, h_links, h_sess, h_deck, h_engs, h_plans, h_tricks, h_hbm, h_spd, h_sec, h_ledger, h_fab, h_dma, h_power]

theorem Within.execLockTimeout (h : Within M s t) {m : Byte} (he : (Machine.execLockTimeout m t) = .next u) (h_regs :
    M.regs := by assumption) (h_out : M.out := by assumption) (h_dealer : M.dealer := by assumption) (h_faults :
    M.faults := by assumption) (h_time : M.time := by assumption) (h_lanes : M.lanes := by assumption) (h_links :
    M.links := by assumption) (h_sess : M.sess := by assumption) (h_deck : M.deck := by assumption) (h_engs : M.engs
    := by assumption) (h_plans : M.plans := by assumption) (h_tricks : M.tricks := by assumption) (h_hbm : M.hbm := by
    assumption) (h_spd : M.spd := by assumption) (h_sec : M.sec := by assumption) (h_ledger : M.ledger := by
    assumption) (h_fab : M.fab := by assumption) (h_dma : M.dma := by assumption) (h_power : M.power := by assumption) : Within M s u := by
  unfold Machine.execLockTimeout at he
  simp only [Host.Outcome.next.injEq] at he
  subst he
  repeat' (first
      | (simp (maxDischargeDepth := 40) only [Within.breakLock, Within.serveHeld, Within.upd, h, true_or, or_true,
            and_self, h_regs, h_out, h_dealer, h_faults, h_time, h_lanes, h_links, h_sess, h_deck, h_engs, h_plans,
            h_tricks, h_hbm, h_spd, h_sec, h_ledger, h_fab, h_dma, h_power]; done)
      | split)

theorem Within.execZeroingDone (h : Within M s t) {g : Fin 16} (he : (Machine.execZeroingDone g t) = .next u) (h_regs
    : M.regs := by assumption) (h_out : M.out := by assumption) (h_dealer : M.dealer := by assumption) (h_faults :
    M.faults := by assumption) (h_time : M.time := by assumption) (h_lanes : M.lanes := by assumption) (h_links :
    M.links := by assumption) (h_sess : M.sess := by assumption) (h_deck : M.deck := by assumption) (h_engs : M.engs
    := by assumption) (h_plans : M.plans := by assumption) (h_tricks : M.tricks := by assumption) (h_hbm : M.hbm := by
    assumption) (h_spd : M.spd := by assumption) (h_sec : M.sec := by assumption) (h_ledger : M.ledger := by
    assumption) (h_fab : M.fab := by assumption) (h_dma : M.dma := by assumption) (h_power : M.power := by assumption) : Within M s u := by
  unfold Machine.execZeroingDone at he
  simp only [Host.Outcome.next.injEq] at he
  subst he
  simp (maxDischargeDepth := 40) only [Within.groupHealed, Within.serveHeld, Within.zeroGroup, Within.wr, Within.ite, h, implies_true,
            h_regs, h_out, h_dealer, h_faults, h_time, h_lanes, h_links, h_sess, h_deck, h_engs, h_plans,
            h_tricks, h_hbm, h_spd, h_sec, h_ledger, h_fab, h_dma, true_or, or_true, and_self, h_power]

theorem Within.execFaultMessage (h : Within M s t) {m : Option FaultMsg} (he : (Machine.execFaultMessage m t) = .next
    u) (h_regs : M.regs := by assumption) (h_out : M.out := by assumption) (h_dealer : M.dealer := by assumption)
    (h_faults : M.faults := by assumption) (h_time : M.time := by assumption) (h_lanes : M.lanes := by assumption)
    (h_links : M.links := by assumption) (h_sess : M.sess := by assumption) (h_deck : M.deck := by assumption) (h_engs
    : M.engs := by assumption) (h_plans : M.plans := by assumption) (h_tricks : M.tricks := by assumption) (h_outp :
    M.outp := by assumption) (h_hbm : M.hbm := by assumption) (h_spd : M.spd := by assumption) (h_sec : M.sec := by
    assumption) (h_ledger : M.ledger := by assumption) (h_fab : M.fab := by assumption) (h_dma : M.dma := by
    assumption) (h_power : M.power := by assumption) (h_modl : M.modl := by assumption) : Within M s u := by
  unfold Machine.execFaultMessage at he
  simp only [Host.Outcome.next.injEq] at he
  subst he
  repeat' (first
      | (simp (maxDischargeDepth := 40) only [Within.serveHeld, Within.takeFault, Within.ownAction, Within.raise, Within.ite, h, implies_true,
            h_regs, h_out, h_dealer, h_faults, h_time, h_lanes, h_links, h_sess, h_deck, h_engs, h_plans,
            h_tricks, h_outp, h_hbm, h_spd, h_sec, h_ledger, h_fab, h_dma, h_power, h_modl, true_or, or_true,
            and_self]; done)
      | split)

theorem Within.hitsPast (h : Within M s t) (h_spd : M.spd := by assumption) : Within M s (State.hitsPast t) := by
  unfold State.hitsPast
  repeat' (first
      | (simp (maxDischargeDepth := 40) only [Within.upd, h, true_or, or_true, and_self, implies_true, h_spd]; done)
      | dsimp only
      | split)

theorem Within.dmaBus (h : Within M s t) {addr n ty : Nat} {data : List Byte} (h_regs : M.regs := by assumption)
    (h_out : M.out := by assumption) (h_dealer : M.dealer := by assumption) (h_faults : M.faults := by assumption)
    (h_time : M.time := by assumption) (h_lanes : M.lanes := by assumption) (h_links : M.links := by assumption)
    (h_sess : M.sess := by assumption) (h_deck : M.deck := by assumption) (h_engs : M.engs := by assumption) (h_plans
    : M.plans := by assumption) (h_tricks : M.tricks := by assumption) (h_hbm : M.hbm := by assumption) (h_spd : M.spd
    := by assumption) (h_sec : M.sec := by assumption) (h_ledger : M.ledger := by assumption) (h_fab : M.fab := by
    assumption) (h_dma : M.dma := by assumption) (h_power : M.power := by assumption) : Within M s (State.dmaBus t addr n ty data).st := by
  unfold State.dmaBus
  repeat' (first
      | (simp (maxDischargeDepth := 40) only [Within.ite, Within.hitsPast, Within.collided, Within.fabRefuse, Within.bus, h, h_regs, h_out,
            h_dealer, h_faults, h_time, h_lanes, h_links, h_sess, h_deck, h_engs, h_plans, h_tricks, h_hbm,
            h_spd, h_sec, h_ledger, h_fab, h_dma, true_or, or_true, and_self, implies_true, h_power]; done)
      | dsimp only
      | split)

theorem Within.execDescriptorFetch (h : Within M s t) {c : DmaChan} (he : (Machine.execDescriptorFetch c t) = .next u)
    (h_regs : M.regs := by assumption) (h_out : M.out := by assumption) (h_dealer : M.dealer := by assumption)
    (h_faults : M.faults := by assumption) (h_time : M.time := by assumption) (h_lanes : M.lanes := by assumption)
    (h_links : M.links := by assumption) (h_sess : M.sess := by assumption) (h_deck : M.deck := by assumption) (h_engs
    : M.engs := by assumption) (h_plans : M.plans := by assumption) (h_tricks : M.tricks := by assumption) (h_hbm :
    M.hbm := by assumption) (h_spd : M.spd := by assumption) (h_sec : M.sec := by assumption) (h_ledger : M.ledger :=
    by assumption) (h_fab : M.fab := by assumption) (h_dma : M.dma := by assumption) (h_power : M.power := by assumption) : Within M s u := by
  unfold Machine.execDescriptorFetch at he
  simp only [Host.Outcome.next.injEq] at he
  subst he
  simp (maxDischargeDepth := 40) only [Within.dmaBus, Within.busError, Within.raise, Within.flag, Within.setDmac, Within.stopChan,
            Within.wr, Within.ite, h, implies_true, h_regs, h_out, h_dealer, h_faults, h_time, h_lanes, h_links,
            h_sess, h_deck, h_engs, h_plans, h_tricks, h_hbm, h_spd, h_sec, h_ledger, h_fab, h_dma, true_or,
            or_true, and_self, h_power]

theorem Within.writeBack (h : Within M s t) {c : Nat} {d : Desc} {status moved : Nat} (h_regs : M.regs := by
    assumption) (h_out : M.out := by assumption) (h_dealer : M.dealer := by assumption) (h_faults : M.faults := by
    assumption) (h_time : M.time := by assumption) (h_lanes : M.lanes := by assumption) (h_links : M.links := by
    assumption) (h_sess : M.sess := by assumption) (h_deck : M.deck := by assumption) (h_engs : M.engs := by
    assumption) (h_plans : M.plans := by assumption) (h_tricks : M.tricks := by assumption) (h_hbm : M.hbm := by
    assumption) (h_spd : M.spd := by assumption) (h_sec : M.sec := by assumption) (h_ledger : M.ledger := by
    assumption) (h_fab : M.fab := by assumption) (h_dma : M.dma := by assumption) (h_power : M.power := by assumption) : Within M s (State.writeBack t c d
    status moved).st := by
  unfold State.writeBack
  repeat' (first
      | (simp (maxDischargeDepth := 40) only [Within.ite, Within.queueBack, Within.dmaBus, h, h_regs, h_out, h_dealer, h_faults, h_time, h_lanes,
            h_links, h_sess, h_deck, h_engs, h_plans, h_tricks, h_hbm, h_spd, h_sec, h_ledger, h_fab, h_dma,
            true_or, or_true, and_self, implies_true, h_power]; done)
      | dsimp only
      | split)

theorem Within.backOr (h : Within M s t) {c : Nat} {d : Desc} {status : Nat} {moved : Nat} (h_regs : M.regs := by assumption) (h_out : M.out := by assumption) (h_dealer : M.dealer := by assumption) (h_faults : M.faults := by assumption) (h_time : M.time := by assumption) (h_lanes : M.lanes := by assumption) (h_links : M.links := by assumption) (h_sess : M.sess := by assumption) (h_deck : M.deck := by assumption) (h_engs : M.engs := by assumption) (h_plans : M.plans := by assumption) (h_tricks : M.tricks := by assumption) (h_hbm : M.hbm := by assumption) (h_spd : M.spd := by assumption) (h_sec : M.sec := by assumption) (h_ledger : M.ledger := by assumption) (h_fab : M.fab := by assumption) (h_dma : M.dma := by assumption) (h_power : M.power := by assumption) : Within M s (State.backOr t c d status moved) := by
  unfold State.backOr
  repeat' (first
      | (simp (maxDischargeDepth := 40) only [Within.ite, Within.writeBack, Within.busError, h, true_or, or_true, and_self, implies_true, h_regs, h_out, h_dealer, h_faults, h_time, h_lanes, h_links, h_sess, h_deck, h_engs, h_plans, h_tricks, h_hbm, h_spd, h_sec, h_ledger, h_fab, h_dma, h_power]; done)
      | dsimp only
      | split)

theorem Within.doneError (h : Within M s t) {c addr : Nat} (h_regs : M.regs := by assumption) (h_out : M.out := by
    assumption) (h_dealer : M.dealer := by assumption) (h_faults : M.faults := by assumption) (h_time : M.time := by
    assumption) (h_lanes : M.lanes := by assumption) (h_links : M.links := by assumption) (h_sess : M.sess := by
    assumption) (h_deck : M.deck := by assumption) (h_engs : M.engs := by assumption) (h_plans : M.plans := by
    assumption) (h_tricks : M.tricks := by assumption) (h_hbm : M.hbm := by assumption) (h_spd : M.spd := by
    assumption) (h_sec : M.sec := by assumption) (h_ledger : M.ledger := by assumption) (h_fab : M.fab := by
    assumption) (h_dma : M.dma := by assumption) (h_power : M.power := by assumption) : Within M s (State.doneError t c addr) := by
  unfold State.doneError
  repeat' (first
      | (simp (maxDischargeDepth := 40) only [Within.backOr, Within.wr, Within.setDmac, Within.stopChan, Within.writeBack, Within.raise,
            Within.flag, Within.dmaHalt, h, h_regs, h_out, h_dealer, h_faults, h_time, h_lanes, h_links, h_sess,
            h_deck, h_engs, h_plans, h_tricks, h_hbm, h_spd, h_sec, h_ledger, h_fab, h_dma, true_or, or_true,
            and_self, implies_true, h_power]; done)
      | split)

theorem Within.execDoneErr (h : Within M s t) {c : DmaChan} (he : (Machine.execDoneErr c t) = .next u) (h_regs :
    M.regs := by assumption) (h_out : M.out := by assumption) (h_dealer : M.dealer := by assumption) (h_faults :
    M.faults := by assumption) (h_time : M.time := by assumption) (h_lanes : M.lanes := by assumption) (h_links :
    M.links := by assumption) (h_sess : M.sess := by assumption) (h_deck : M.deck := by assumption) (h_engs : M.engs
    := by assumption) (h_plans : M.plans := by assumption) (h_tricks : M.tricks := by assumption) (h_hbm : M.hbm := by
    assumption) (h_spd : M.spd := by assumption) (h_sec : M.sec := by assumption) (h_ledger : M.ledger := by
    assumption) (h_fab : M.fab := by assumption) (h_dma : M.dma := by assumption) (h_power : M.power := by assumption) : Within M s u := by
  unfold Machine.execDoneErr at he
  simp only [Host.Outcome.next.injEq] at he
  subst he
  simp (maxDischargeDepth := 40) only [Within.doneError, Within.ite, h, implies_true, h_regs, h_out, h_dealer,
    h_faults, h_time, h_lanes, h_links, h_sess, h_deck, h_engs, h_plans, h_tricks, h_hbm, h_spd, h_sec, h_ledger,
    h_fab, h_dma, h_power]

theorem Within.endAbort (h : Within M s t) {c : Nat} (h_regs : M.regs := by assumption) (h_out : M.out := by
    assumption) (h_dealer : M.dealer := by assumption) (h_faults : M.faults := by assumption) (h_time : M.time := by
    assumption) (h_lanes : M.lanes := by assumption) (h_links : M.links := by assumption) (h_sess : M.sess := by
    assumption) (h_deck : M.deck := by assumption) (h_engs : M.engs := by assumption) (h_plans : M.plans := by
    assumption) (h_tricks : M.tricks := by assumption) (h_hbm : M.hbm := by assumption) (h_spd : M.spd := by
    assumption) (h_sec : M.sec := by assumption) (h_ledger : M.ledger := by assumption) (h_fab : M.fab := by
    assumption) (h_dma : M.dma := by assumption) (h_power : M.power := by assumption) : Within M s (State.endAbort t c) := by
  unfold State.endAbort
  repeat' (first
      | (simp (maxDischargeDepth := 40) only [Within.backOr, Within.setDmac, Within.stopChan, Within.writeBack, Within.busError, Within.ite, h,
            implies_true, h_regs, h_out, h_dealer, h_faults, h_time, h_lanes, h_links, h_sess, h_deck, h_engs,
            h_plans, h_tricks, h_hbm, h_spd, h_sec, h_ledger, h_fab, h_dma, true_or, or_true, and_self, h_power]; done)
      | dsimp only
      | split)

theorem Within.endDesc (h : Within M s t) {c : Nat} {d : Desc} (h_regs : M.regs := by assumption) (h_out : M.out := by
    assumption) (h_dma : M.dma := by assumption) : Within M s (State.endDesc t c d) := by
  unfold State.endDesc
  simp (maxDischargeDepth := 40) only [Within.send, Within.setDmac, Within.bump, Within.stopChan, Within.fetchAt,
    Within.wr, Within.ite, Within.refl, h, implies_true, Within.whenS, h_regs, h_out, h_dma]

theorem Within.execDescriptorEnd (h : Within M s t) {c : DmaChan} (he : (Machine.execDescriptorEnd c t) = .next u)
    (h_regs : M.regs := by assumption) (h_out : M.out := by assumption) (h_dealer : M.dealer := by assumption)
    (h_faults : M.faults := by assumption) (h_time : M.time := by assumption) (h_lanes : M.lanes := by assumption)
    (h_links : M.links := by assumption) (h_sess : M.sess := by assumption) (h_deck : M.deck := by assumption) (h_engs
    : M.engs := by assumption) (h_plans : M.plans := by assumption) (h_tricks : M.tricks := by assumption) (h_hbm :
    M.hbm := by assumption) (h_spd : M.spd := by assumption) (h_sec : M.sec := by assumption) (h_ledger : M.ledger :=
    by assumption) (h_fab : M.fab := by assumption) (h_dma : M.dma := by assumption) (h_power : M.power := by assumption) : Within M s u := by
  unfold Machine.execDescriptorEnd at he
  simp only [Host.Outcome.next.injEq] at he
  subst he
  repeat' (first
      | (simp (maxDischargeDepth := 40) only [Within.endAbort, Within.dmaBus, Within.busError, Within.writeBack, Within.endDesc, Within.ite, h,
            implies_true, h_regs, h_out, h_dealer, h_faults, h_time, h_lanes, h_links, h_sess, h_deck, h_engs,
            h_plans, h_tricks, h_hbm, h_spd, h_sec, h_ledger, h_fab, h_dma, true_or, or_true, and_self, h_power]; done)
      | split)

theorem Within.dmaRead (h : Within M s t) {a : Nat} {last : Nat} {n fuel : Nat} {l : List Byte} (h_regs : M.regs := by assumption) (h_out : M.out := by assumption) (h_dealer : M.dealer := by assumption) (h_faults : M.faults := by assumption) (h_time : M.time := by assumption) (h_lanes : M.lanes := by assumption) (h_links : M.links := by assumption) (h_sess : M.sess := by assumption) (h_deck : M.deck := by assumption) (h_engs : M.engs := by assumption) (h_plans : M.plans := by assumption) (h_tricks : M.tricks := by assumption) (h_hbm : M.hbm := by assumption) (h_spd : M.spd := by assumption) (h_sec : M.sec := by assumption) (h_ledger : M.ledger := by assumption) (h_fab : M.fab := by assumption) (h_dma : M.dma := by assumption) (h_power : M.power := by assumption) : Within M s (State.dmaRead t a last n fuel l).1 := by
  induction fuel generalizing t a l with
  | zero => exact h
  | succ f ih =>
    unfold State.dmaRead
    split
    · exact h
    · dsimp only
      split
      · exact h.dmaBus
      · exact ih h.dmaBus

theorem Within.dmaWrite (h : Within M s t) {a fuel : Nat} {l : List Byte} (h_regs : M.regs := by assumption) (h_out :
    M.out := by assumption) (h_dealer : M.dealer := by assumption) (h_faults : M.faults := by assumption) (h_time :
    M.time := by assumption) (h_lanes : M.lanes := by assumption) (h_links : M.links := by assumption) (h_sess :
    M.sess := by assumption) (h_deck : M.deck := by assumption) (h_engs : M.engs := by assumption) (h_plans : M.plans
    := by assumption) (h_tricks : M.tricks := by assumption) (h_hbm : M.hbm := by assumption) (h_spd : M.spd := by
    assumption) (h_sec : M.sec := by assumption) (h_ledger : M.ledger := by assumption) (h_fab : M.fab := by
    assumption) (h_dma : M.dma := by assumption) (h_power : M.power := by assumption) : Within M s (State.dmaWrite t a fuel l).1 := by
  induction fuel generalizing t a l with
  | zero => exact h
  | succ f ih =>
    unfold State.dmaWrite
    dsimp only
    generalize (if inRegSpace a then _ else _) = k
    split
    · exact h.dmaBus
    · split
      · exact h.dmaBus
      · exact ih h.dmaBus

theorem Within.burst (h : Within M s t) {c : Nat} {d : Desc} {x : DmaX} (h_regs : M.regs := by assumption) (h_out :
    M.out := by assumption) (h_dealer : M.dealer := by assumption) (h_faults : M.faults := by assumption) (h_time :
    M.time := by assumption) (h_lanes : M.lanes := by assumption) (h_links : M.links := by assumption) (h_sess :
    M.sess := by assumption) (h_deck : M.deck := by assumption) (h_engs : M.engs := by assumption) (h_plans : M.plans
    := by assumption) (h_tricks : M.tricks := by assumption) (h_hbm : M.hbm := by assumption) (h_spd : M.spd := by
    assumption) (h_sec : M.sec := by assumption) (h_ledger : M.ledger := by assumption) (h_fab : M.fab := by
    assumption) (h_dma : M.dma := by assumption) (h_power : M.power := by assumption) : Within M s (State.burst t c d x) := by
  unfold State.burst
  repeat' (first
      | (simp (maxDischargeDepth := 40) only [Within.dmaRead, Within.busError, Within.dmaWrite, Within.doneError, Within.setDmac, Within.wr,
            Within.ite, h, implies_true, h_regs, h_out, h_dealer, h_faults, h_time, h_lanes, h_links, h_sess,
            h_deck, h_engs, h_plans, h_tricks, h_hbm, h_spd, h_sec, h_ledger, h_fab, h_dma, true_or, or_true,
            and_self, h_power];
            done)
      | dsimp only
      | split)

theorem Within.hasMoved (h : Within M s t) {c : Nat} (h_dma : M.dma := by assumption) : Within M s (State.hasMoved t c) := by
  unfold State.hasMoved
  repeat' (first
      | (simp (maxDischargeDepth := 40) only [Within.upd, h, true_or, or_true, and_self, implies_true, h_dma]; done)
      | dsimp only
      | split)

theorem Within.hostBurst (h : Within M s t) (h_dma : M.dma := by assumption) : Within M s (State.hostBurst t) := by
  unfold State.hostBurst
  repeat' (first
      | (simp (maxDischargeDepth := 40) only [Within.upd, Within.setDmac, h, true_or, or_true, and_self, implies_true, h_dma]; done)
      | dsimp only
      | split)

theorem Within.execDmaBurstComplete (h : Within M s t) (he : (Machine.execDmaBurstComplete t) = .next u) (h_regs :
    M.regs := by assumption) (h_out : M.out := by assumption) (h_dealer : M.dealer := by assumption) (h_faults :
    M.faults := by assumption) (h_time : M.time := by assumption) (h_lanes : M.lanes := by assumption) (h_links :
    M.links := by assumption) (h_sess : M.sess := by assumption) (h_deck : M.deck := by assumption) (h_engs : M.engs
    := by assumption) (h_plans : M.plans := by assumption) (h_tricks : M.tricks := by assumption) (h_hbm : M.hbm := by
    assumption) (h_spd : M.spd := by assumption) (h_sec : M.sec := by assumption) (h_ledger : M.ledger := by
    assumption) (h_fab : M.fab := by assumption) (h_dma : M.dma := by assumption) (h_power : M.power := by assumption) : Within M s u := by
  unfold Machine.execDmaBurstComplete at he
  simp only [Host.Outcome.next.injEq] at he
  subst he
  repeat' (first
      | (simp (maxDischargeDepth := 40) only [Within.serveHeld, Within.hostBurst, Within.hitsPast, Within.hasMoved,
            Within.endAbort, Within.burst, Within.upd, Within.ite, Within.refl, h, true_or, or_true, and_self,
            implies_true, Within.forN, h_regs, h_out, h_dealer, h_faults, h_time, h_lanes, h_links, h_sess,
            h_deck, h_engs, h_plans, h_tricks, h_hbm, h_spd, h_sec, h_ledger, h_fab, h_dma, h_power]; done)
      | split)

theorem Within.endHold (h : Within M s t) (h_regs : M.regs := by assumption) (h_deck : M.deck := by assumption) :
    Within M s (State.endHold t) := by
  unfold State.endHold
  repeat' (first
      | (simp (maxDischargeDepth := 40) only [Within.wr, Within.pins, Within.notePause, h, true_or, or_true, and_self,
            implies_true, h_regs, h_deck]; done)
      | dsimp only
      | split)

theorem Within.execReset (h : Within M s t) {a0 : Hdr} {kind : Byte} (he : (Machine.execReset a0 kind t) = .next u)
    (h_regs : M.regs := by assumption) (h_out : M.out := by assumption) (h_dealer : M.dealer := by assumption)
    (h_faults : M.faults := by assumption) (h_deck : M.deck := by assumption) (h_modl : M.modl := by assumption) :
    Within M s u := by
  unfold Machine.execReset at he
  simp only [Host.Outcome.next.injEq] at he
  subst he
  repeat' (first
      | with_reducible assumption
      | with_reducible (first
      | apply Within.resetDue
      | apply Within.endHold)
      | (with_reducible refine Within.winos ?_ (fun u => ?_))
      | split
      | (refine AnsWithin.mk ?_ (fun w => ?_))
      | exact Within.refl _ _)

theorem Within.execFwWrite (h : Within M s t) {a0 : Hdr} {image : Byte} {off : Word} {data : List Byte} (he :
    (Machine.execFwWrite a0 image off data t) = .next u) (h_regs : M.regs := by assumption) (h_out : M.out := by
    assumption) (h_dealer : M.dealer := by assumption) (h_faults : M.faults := by assumption) (h_modl : M.modl := by
    assumption) : Within M s u := by
  unfold Machine.execFwWrite at he
  simp only [Host.Outcome.next.injEq] at he
  subst he
  repeat' (first
      | with_reducible assumption
      | simp only [Within.upd_iff, true_or, or_true, and_self, h_regs, h_out, h_dealer, h_faults, h_modl]
      | dsimp only [State.ok]
      | (with_reducible refine Within.winos ?_ (fun u => ?_))
      | split
      | (refine AnsWithin.mk ?_ (fun w => ?_))
      | exact Within.refl _ _)

theorem Within.execFwCommit (h : Within M s t) {a0 : Hdr} {image : Byte} (he : (Machine.execFwCommit a0 image t) =
    .next u) (h_regs : M.regs := by assumption) (h_out : M.out := by assumption) (h_dealer : M.dealer := by
    assumption) (h_faults : M.faults := by assumption) : Within M s u := by
  unfold Machine.execFwCommit at he
  simp only [Host.Outcome.next.injEq] at he
  subst he
  repeat' (first
      | with_reducible assumption
      | exact (AnsWithin.begin (.refl _ _)).st
      | exact Within.begin_after
      | (with_reducible refine Within.winos ?_ (fun u => ?_))
      | split
      | (refine AnsWithin.mk ?_ (fun w => ?_))
      | exact Within.refl _ _)

theorem Within.execFwCommitComplete (h : Within M s t) {sigOk : Bool} (he : (Machine.execFwCommitComplete sigOk t) =
    .next u) (h_regs : M.regs := by assumption) (h_out : M.out := by assumption) (h_dealer : M.dealer := by
    assumption) (h_faults : M.faults := by assumption) : Within M s u := by
  unfold Machine.execFwCommitComplete at he
  simp only [Host.Outcome.next.injEq] at he
  subst he
  repeat' (first
      | (simp (maxDischargeDepth := 40) only [Within.endLong, Within.wr, Within.ite, h, implies_true, h_regs, h_out,
            h_dealer, h_faults]; done)
      | split)

theorem Within.execLifecycle (h : Within M s t) {a0 : Hdr} {target : Byte} (he : (Machine.execLifecycle a0 target t) =
    .next u) (h_regs : M.regs := by assumption) (h_out : M.out := by assumption) (h_dealer : M.dealer := by
    assumption) (h_faults : M.faults := by assumption) (h_sec : M.sec := by assumption) : Within M s u := by
  unfold Machine.execLifecycle at he
  simp only [Host.Outcome.next.injEq] at he
  subst he
  repeat' (first
      | with_reducible assumption
      | with_reducible apply Within.startWipe
      | simp only [Within.upd_iff, true_or, or_true, and_self, h_regs, h_out, h_dealer, h_faults, h_sec]
      | exact (AnsWithin.begin (.refl _ _)).st
      | exact Within.begin_after
      | (with_reducible refine Within.winos ?_ (fun u => ?_))
      | split
      | (refine AnsWithin.mk ?_ (fun w => ?_))
      | exact Within.refl _ _)

theorem Within.execKernelLoad (h : Within M s t) {a0 : Hdr} {slot : Byte} {image : List Byte} (he :
    (Machine.execKernelLoad a0 slot image t) = .next u) (h_regs : M.regs := by assumption) (h_out : M.out := by
    assumption) (h_dealer : M.dealer := by assumption) (h_faults : M.faults := by assumption) : Within M s u := by
  unfold Machine.execKernelLoad at he
  simp only [Host.Outcome.next.injEq] at he
  subst he
  repeat' (first
      | with_reducible assumption
      | exact (AnsWithin.begin (.refl _ _)).st
      | exact Within.begin_after
      | with_reducible refine AnsWithin.loadRefused ?_ (fun u => ?_)
      | (with_reducible refine Within.winos ?_ (fun u => ?_))
      | split
      | (refine AnsWithin.mk ?_ (fun w => ?_))
      | exact Within.refl _ _)

theorem Within.setKernel (h : Within M s t) {k : Nat} {l : List Byte} (h_modl : M.modl := by assumption) : Within M s
    (State.setKernel t k l) := by
  unfold State.setKernel
  simp (maxDischargeDepth := 40) only [Within.upd, h, true_or, or_true, and_self, h_modl]

theorem Within.execKernelLoadComplete (h : Within M s t) {slot : Fin 4} (he : (Machine.execKernelLoadComplete slot t) = .next u) (h_regs :
    M.regs := by assumption) (h_out : M.out := by assumption) (h_dealer : M.dealer := by assumption) (h_faults :
    M.faults := by assumption) (h_modl : M.modl := by assumption) : Within M s u := by
  unfold Machine.execKernelLoadComplete at he
  simp only [Host.Outcome.next.injEq] at he
  subst he
  repeat' (first
      | (simp (maxDischargeDepth := 40) only [Within.setKernel, Within.endLong, Within.flag, Within.ite, h, true_or,
            or_true, and_self, implies_true, h_regs, h_out, h_dealer, h_faults, h_modl]; done)
      | dsimp only
      | split)

theorem Within.execKernelErase (h : Within M s t) {a0 : Hdr} {slot : Byte} (he : (Machine.execKernelErase a0 slot t) =
    .next u) (h_regs : M.regs := by assumption) (h_out : M.out := by assumption) (h_dealer : M.dealer := by
    assumption) (h_faults : M.faults := by assumption) (h_modl : M.modl := by assumption) : Within M s u := by
  unfold Machine.execKernelErase at he
  simp only [Host.Outcome.next.injEq] at he
  subst he
  repeat' (first
      | with_reducible assumption
      | with_reducible apply Within.setKernel
      | dsimp only [State.ok]
      | (with_reducible refine Within.winos ?_ (fun u => ?_))
      | split
      | (refine AnsWithin.mk ?_ (fun w => ?_))
      | exact Within.refl _ _)

theorem Within.execSelftest (h : Within M s t) {a0 : Hdr} {block : Byte} (he : (Machine.execSelftest a0 block t) =
    .next u) (h_regs : M.regs := by assumption) (h_out : M.out := by assumption) (h_dealer : M.dealer := by
    assumption) (h_faults : M.faults := by assumption) : Within M s u := by
  unfold Machine.execSelftest at he
  simp only [Host.Outcome.next.injEq] at he
  subst he
  repeat' (first
      | with_reducible assumption
      | exact (AnsWithin.begin (.refl _ _)).st
      | exact Within.begin_after
      | (with_reducible refine Within.winos ?_ (fun u => ?_))
      | (refine AnsWithin.mk ?_ (fun w => ?_)))

theorem Within.execSelftestComplete (h : Within M s t) {pass : Bool} {source : BitVec 16} {kind : Byte} (he :
    (Machine.execSelftestComplete pass source kind t) = .next u) (h_regs : M.regs := by assumption) (h_out : M.out :=
    by assumption) (h_dealer : M.dealer := by assumption) (h_faults : M.faults := by assumption) : Within M s u := by
  unfold Machine.execSelftestComplete at he
  simp only [Host.Outcome.next.injEq] at he
  subst he
  repeat' (first
      | (simp (maxDischargeDepth := 40) only [Within.endLong, Within.ite, h, implies_true, h_regs, h_out, h_dealer,
            h_faults]; done)
      | split)

theorem Within.stopCores (h : Within M s t) (h_out : M.out := by assumption) : Within M s (State.stopCores t) := by
  unfold State.stopCores
  simp (maxDischargeDepth := 40) only [Within.send, Within.foldl, Within.refl, h, implies_true, h_out]

theorem Within.dropMasters (h : Within M s t) (h_fab : M.fab := by assumption) : Within M s (State.dropMasters t) := by
  unfold State.dropMasters
  simp (maxDischargeDepth := 40) only [Within.upd, h, true_or, or_true, and_self, h_fab]

theorem Within.countWarm (h : Within M s t) {cause : Nat} (h_regs : M.regs := by assumption) : Within M s
    (State.countWarm t cause) := by
  unfold State.countWarm
  simp (maxDischargeDepth := 40) only [Within.wr, Within.bump, h, h_regs]

theorem Within.resetSnapshot (h : Within M s t) (h_regs : M.regs := by assumption) (h_ledger : M.ledger := by
    assumption) (h_power : M.power := by assumption) : Within M s (State.resetSnapshot t) := by
  unfold State.resetSnapshot
  simp (maxDischargeDepth := 40) only [Within.writeSnapshot, Within.upd, Within.ite, h, true_or, or_true, and_self,
    implies_true, h_regs, h_ledger, h_power]

theorem Within.beginWarm (h : Within M s t) {cause : Nat} (h_regs : M.regs := by assumption) (h_out : M.out := by
    assumption) (h_dealer : M.dealer := by assumption) (h_faults : M.faults := by assumption) (h_deck : M.deck := by
    assumption) (h_hbm : M.hbm := by assumption) (h_ledger : M.ledger := by assumption) (h_fab : M.fab := by
    assumption) (h_dma : M.dma := by assumption) (h_power : M.power := by assumption) (h_modl : M.modl := by
    assumption) : Within M s (State.beginWarm t cause) := by
  have a : ∀ {v : State}, Within M s v → Within M s { v with modl := { v.modl with warm := true, fw := false, resetDue := some cause } } :=
    fun k => k.upd
  have b : ∀ {v : State}, Within M s v → Within M s { v with hbm := { v.hbm with debt := [], rows := [] } } := fun k => k.upd
  have c : ∀ {v : State}, Within M s v → Within M s v.notePause.resetSnapshot.stopCores := fun k =>
    k.notePause.resetSnapshot.stopCores
  have d : ∀ {v : State}, Within M s v → Within M s ((v.resetDma.dropMasters).wr .FAB_CTL_REMAP 0 0) := fun k =>
    k.resetDma.dropMasters.wr
  exact d (b (c (a h.countWarm.endHold)))

theorem Within.repower (h : Within M s t) (h_power : M.power := by assumption) : Within M s (State.repower t) := by
  unfold State.repower
  simp (maxDischargeDepth := 40) only [Within.upd, h, true_or, or_true, and_self, h_power]

theorem Within.recomputeAll (h : Within M s t) (h_regs : M.regs := by assumption) (h_out : M.out := by assumption)
    (h_dealer : M.dealer := by assumption) (h_faults : M.faults := by assumption) (h_deck : M.deck := by assumption)
    (h_engs : M.engs := by assumption) (h_hbm : M.hbm := by assumption) : Within M s (State.recomputeAll t) := by
  unfold State.recomputeAll
  repeat' (first
      | (simp (maxDischargeDepth := 40) only [Within.dropRereads, Within.reread, Within.upd, Within.ite, Within.foldl,
            Within.refl, h, true_or, or_true, and_self, implies_true, h_regs, h_out, h_dealer, h_faults, h_deck,
            h_engs, h_hbm]; done)
      | dsimp only
      | split)

theorem Within.detachAll (h : Within M s t) (h_regs : M.regs := by assumption) (h_out : M.out := by assumption)
    (h_dealer : M.dealer := by assumption) (h_faults : M.faults := by assumption) (h_sess : M.sess := by assumption) :
    Within M s (State.detachAll t) := by
  unfold State.detachAll
  simp (maxDischargeDepth := 40) only [Within.setSession, Within.sessionEvent, Within.wr, Within.ite, Within.refl, h,
    implies_true, Within.forN, h_regs, h_out, h_dealer, h_faults, h_sess]

theorem Within.dropAllHeld (h : Within M s t) (h_regs : M.regs := by assumption) (h_out : M.out := by assumption)
    (h_links : M.links := by assumption) (h_sess : M.sess := by assumption) : Within M s (State.dropAllHeld t) := by
  unfold State.dropAllHeld
  simp (maxDischargeDepth := 40) only [Within.dropHeld, Within.setNext, Within.foldl, Within.refl, h, implies_true,
    h_regs, h_out, h_links, h_sess]

theorem Within.startLinks (h : Within M s t) (h_regs : M.regs := by assumption) (h_out : M.out := by assumption)
    (h_links : M.links := by assumption) : Within M s (State.startLinks t) := by
  unfold State.startLinks
  simp (maxDischargeDepth := 40) only [Within.startLink, Within.ite, Within.refl, h, implies_true, Within.forN,
    h_regs, h_out, h_links]

theorem Within.warmBoot (h : Within M s t) (h_regs : M.regs := by assumption) (h_out : M.out := by assumption)
    (h_dealer : M.dealer := by assumption) (h_faults : M.faults := by assumption) (h_spd : M.spd := by assumption) :
    Within M s (State.warmBoot t) := by
  unfold State.warmBoot
  simp (maxDischargeDepth := 40) only [Within.wr, Within.whenS, Within.fault, Within.copyImage, Within.drawn, Within.ite,
    Within.refl, h, implies_true, h_regs, h_out, h_dealer, h_faults, h_spd]

theorem Within.readSystem (h : Within M s t) (h_regs : M.regs := by assumption) (h_faults : M.faults := by assumption) : Within M s (State.readSystem t) := by
  unfold State.readSystem
  repeat' (first
      | (simp (maxDischargeDepth := 40) only [Within.refl, Within.whenS, Within.foldl, Within.fault, h, true_or, or_true, and_self, implies_true, h_regs, h_faults]; done)
      | dsimp only
      | split)

theorem Within.leaveSelfRefresh (h : Within M s t) (h_regs : M.regs := by assumption) (h_out : M.out := by assumption) (h_dealer : M.dealer := by assumption) (h_faults : M.faults := by assumption) (h_time : M.time := by assumption) (h_lanes : M.lanes := by assumption) (h_links : M.links := by assumption) (h_sess : M.sess := by assumption) (h_deck : M.deck := by assumption) (h_engs : M.engs := by assumption) (h_plans : M.plans := by assumption) (h_tricks : M.tricks := by assumption) (h_hbm : M.hbm := by assumption) (h_spd : M.spd := by assumption) (h_sec : M.sec := by assumption) (h_ledger : M.ledger := by assumption) (h_fab : M.fab := by assumption) (h_dma : M.dma := by assumption) (h_power : M.power := by assumption) (h_modl : M.modl := by assumption) : Within M s (State.leaveSelfRefresh t) := by
  unfold State.leaveSelfRefresh
  repeat' (first
      | (simp (maxDischargeDepth := 40) only [Within.upd, Within.serveHeld, h, true_or, or_true, and_self, implies_true, h_regs, h_out, h_dealer, h_faults, h_time, h_lanes, h_links, h_sess, h_deck, h_engs, h_plans, h_tricks, h_hbm, h_spd, h_sec, h_ledger, h_fab, h_dma, h_power, h_modl]; done)
      | dsimp only
      | split)

theorem Within.finishWarm (h : Within M s t) (h_regs : M.regs := by assumption) (h_out : M.out := by assumption)
    (h_dealer : M.dealer := by assumption) (h_faults : M.faults := by assumption) (h_links : M.links := by assumption)
    (h_sess : M.sess := by assumption) (h_spd : M.spd := by assumption) (h_deck : M.deck := by assumption) (h_engs : M.engs := by assumption) (h_beams
    : M.beams := by assumption) (h_outp : M.outp := by assumption) (h_power : M.power := by assumption) (h_modl :
    M.modl := by assumption) (h_time : M.time := by assumption) (h_lanes : M.lanes := by assumption) (h_plans : M.plans := by assumption) (h_tricks : M.tricks := by assumption) (h_hbm : M.hbm := by assumption) (h_sec : M.sec := by assumption) (h_ledger : M.ledger := by assumption) (h_fab : M.fab := by assumption) (h_dma : M.dma := by assumption) : Within M s (State.finishWarm t) := by
  unfold State.finishWarm
  simp (maxDischargeDepth := 40) only [Within.whenS, Within.readSystem, Within.leaveSelfRefresh, Within.wr, Within.warmBoot,
            Within.repower, Within.clearEngine, Within.startLinks, Within.dropAllHeld, Within.detachAll,
            Within.recomputeAll, Within.restoreSlots, Within.resendHead, Within.upd, Within.refl, h, true_or,
            or_true, and_self, implies_true, Within.forN, h_regs, h_out, h_dealer, h_faults, h_links, h_sess,
            h_deck, h_engs, h_beams, h_outp, h_power, h_spd, h_modl, h_time, h_lanes, h_plans, h_tricks, h_hbm, h_sec, h_ledger, h_fab, h_dma]

theorem Within.execWarmReset (h : Within M s t) (he : (Machine.execWarmReset t) = .next u) (h_regs : M.regs := by
    assumption) (h_out : M.out := by assumption) (h_dealer : M.dealer := by assumption) (h_faults : M.faults := by
    assumption) (h_links : M.links := by assumption) (h_sess : M.sess := by assumption) (h_spd : M.spd := by assumption) (h_deck : M.deck := by
    assumption) (h_engs : M.engs := by assumption) (h_beams : M.beams := by assumption) (h_outp : M.outp := by
    assumption) (h_hbm : M.hbm := by assumption) (h_ledger : M.ledger := by assumption) (h_fab : M.fab := by
    assumption) (h_dma : M.dma := by assumption) (h_power : M.power := by assumption) (h_modl : M.modl := by
    assumption) (h_time : M.time := by assumption) (h_lanes : M.lanes := by assumption) (h_plans : M.plans := by assumption) (h_tricks : M.tricks := by assumption) (h_sec : M.sec := by assumption) : Within M s u := by
  unfold Machine.execWarmReset at he
  simp only [Host.Outcome.next.injEq] at he
  subst he
  repeat' (first
      | (simp (maxDischargeDepth := 40) only [Within.finishWarm, Within.beginWarm, Within.ite, h, implies_true,
            h_regs, h_out, h_dealer, h_faults, h_links, h_sess, h_deck, h_engs, h_spd, h_beams, h_outp, h_hbm, h_ledger,
            h_fab, h_dma, h_power, h_modl, h_time, h_lanes, h_plans, h_tricks, h_sec]; done)
      | split)

theorem Within.execMrstNAsserted (h : Within M s t) (he : (Machine.execMrstNAsserted t) = .next u) (h_regs : M.regs :=
    by assumption) (h_out : M.out := by assumption) (h_dealer : M.dealer := by assumption) (h_faults : M.faults := by
    assumption) (h_deck : M.deck := by assumption) (h_hbm : M.hbm := by assumption) (h_ledger : M.ledger := by
    assumption) (h_fab : M.fab := by assumption) (h_dma : M.dma := by assumption) (h_power : M.power := by assumption)
    (h_modl : M.modl := by assumption) : Within M s u := by
  unfold Machine.execMrstNAsserted at he
  simp only [Host.Outcome.next.injEq] at he
  subst he
  simp (maxDischargeDepth := 40) only [Within.beginWarm, Within.upd, Within.ite, h, true_or, or_true, and_self,
    implies_true, h_regs, h_out, h_dealer, h_faults, h_deck, h_hbm, h_ledger, h_fab, h_dma, h_power, h_modl]

theorem Within.execMrstNReleased (h : Within M s t) (he : (Machine.execMrstNReleased t) = .next u) (h_regs : M.regs :=
    by assumption) (h_out : M.out := by assumption) (h_dealer : M.dealer := by assumption) (h_faults : M.faults := by
    assumption) (h_links : M.links := by assumption) (h_sess : M.sess := by assumption) (h_spd : M.spd := by assumption) (h_deck : M.deck := by
    assumption) (h_engs : M.engs := by assumption) (h_beams : M.beams := by assumption) (h_outp : M.outp := by
    assumption) (h_power : M.power := by assumption) (h_modl : M.modl := by assumption) (h_time : M.time := by assumption) (h_lanes : M.lanes := by assumption) (h_plans : M.plans := by assumption) (h_tricks : M.tricks := by assumption) (h_hbm : M.hbm := by assumption) (h_sec : M.sec := by assumption) (h_ledger : M.ledger := by assumption) (h_fab : M.fab := by assumption) (h_dma : M.dma := by assumption) : Within M s u := by
  unfold Machine.execMrstNReleased at he
  simp only [Host.Outcome.next.injEq] at he
  subst he
  simp (maxDischargeDepth := 40) only [Within.finishWarm, Within.upd, Within.ite, h, true_or, or_true, and_self,
    implies_true, h_regs, h_out, h_dealer, h_faults, h_links, h_sess, h_deck, h_engs, h_spd, h_beams, h_outp, h_power,
    h_modl, h_time, h_lanes, h_plans, h_tricks, h_hbm, h_sec, h_ledger, h_fab, h_dma]

theorem Within.execReady (h : Within M s t) (he : (Machine.execReady t) = .next u) (h_regs : M.regs := by assumption)
    (h_out : M.out := by assumption) (h_dealer : M.dealer := by assumption) (h_faults : M.faults := by assumption)
    (h_time : M.time := by assumption) (h_lanes : M.lanes := by assumption) (h_links : M.links := by assumption)
    (h_sess : M.sess := by assumption) (h_deck : M.deck := by assumption) (h_engs : M.engs := by assumption) (h_plans
    : M.plans := by assumption) (h_tricks : M.tricks := by assumption) (h_outp : M.outp := by assumption) (h_hbm :
    M.hbm := by assumption) (h_spd : M.spd := by assumption) (h_sec : M.sec := by assumption) (h_ledger : M.ledger :=
    by assumption) (h_fab : M.fab := by assumption) (h_dma : M.dma := by assumption) (h_modl : M.modl := by
    assumption) (h_power : M.power := by assumption) : Within M s u := by
  unfold Machine.execReady at he
  simp only [Host.Outcome.next.injEq] at he
  subst he
  repeat' (first
      | (simp (maxDischargeDepth := 40) only [Within.wr, Within.notePause, Within.resumeAccept, Within.serveHeld,
            Within.goOn, Within.upd, Within.ite, h, true_or, or_true, and_self, implies_true, h_regs, h_out, h_dealer,
            h_faults, h_time, h_lanes, h_links, h_sess, h_deck, h_engs, h_plans, h_tricks, h_outp, h_hbm, h_spd,
            h_sec, h_ledger, h_fab, h_dma, h_modl, h_power]; done)
      | dsimp only
      | split)

theorem Within.keepBits (h : Within M s t) {b : State} {o mask : Nat} (h_regs : M.regs := by assumption) : Within M s
    (State.keepBits t b o mask) := h.setWord

theorem Within.powerOff (h : Within M s t) {cause : Nat} (h_regs : M.regs := by assumption) (h_out : M.out := by
    assumption) (h_dealer : M.dealer := by assumption) (h_faults : M.faults := by assumption) (h_time : M.time := by
    assumption) (h_lanes : M.lanes := by assumption) (h_links : M.links := by assumption) (h_sess : M.sess := by
    assumption) (h_deck : M.deck := by assumption) (h_engs : M.engs := by assumption) (h_plans : M.plans := by
    assumption) (h_tricks : M.tricks := by assumption) (h_beams : M.beams := by assumption) (h_outp : M.outp := by
    assumption) (h_hbm : M.hbm := by assumption) (h_spd : M.spd := by assumption) (h_sec : M.sec := by assumption)
    (h_ledger : M.ledger := by assumption) (h_fab : M.fab := by assumption) (h_dma : M.dma := by assumption) (h_power
    : M.power := by assumption) (h_modl : M.modl := by assumption) : Within M s (State.powerOff t cause) := by
  unfold State.powerOff
  extract_lets +onlyGivenNames m src src2 z
  have hz : Within M s z := h.trans
    { keeps := .of rfl rfl (Nat.le_refl _) rfl fun w =>
        ⟨reset_memWf.1, reset_memWf.2.1, reset_memWf.2.2.1, w.2.2.2.1, w.2.2.2.2⟩
      regs := .inl h_regs
      out := .inl h_out
      dealer := .inl h_dealer
      faults := .inl h_faults
      time := .inl h_time
      lanes := .inl h_lanes
      links := .inl h_links
      sess := .inl h_sess
      deck := .inl h_deck
      engs := .inl h_engs
      plans := .inl h_plans
      tricks := .inl h_tricks
      beams := .inl h_beams
      outp := .inl h_outp
      hbm := .inl h_hbm
      spd := .inl h_spd
      sec := .inl h_sec
      ledger := .inl h_ledger
      fab := .inl h_fab
      dma := .inl h_dma
      power := .inl h_power
      modl := .inl h_modl }
  clear_value z
  exact hz.keepBits.keepBits

theorem Within.latchStraps (h : Within M s t) {v : Nat} (h_regs : M.regs := by assumption) : Within M s
    (State.latchStraps t v) := by
  unfold State.latchStraps
  simp (maxDischargeDepth := 40) only [Within.wr, Within.setWord, Within.ite, Within.refl, h, implies_true,
    Within.forN, h_regs]

theorem Within.bootWipe (h : Within M s t) {tripped : Bool} (h_regs : M.regs := by assumption) (h_sec : M.sec := by
    assumption) (h_modl : M.modl := by assumption) : Within M s (State.bootWipe t tripped) := by
  unfold State.bootWipe
  repeat' (first
      | (simp (maxDischargeDepth := 40) only [Within.bump, Within.wr, Within.flag, Within.startWipe, Within.upd, h,
            true_or, or_true, and_self, h_regs, h_sec, h_modl]; done)
      | dsimp only
      | split)

theorem Within.execColdStart (h : Within M s t) {c : ColdInput} (he : (Machine.execColdStart c t) = .next u) (h_regs :
    M.regs := by assumption) (h_out : M.out := by assumption) (h_dealer : M.dealer := by assumption) (h_faults :
    M.faults := by assumption) (h_time : M.time := by assumption) (h_lanes : M.lanes := by assumption) (h_links :
    M.links := by assumption) (h_sess : M.sess := by assumption) (h_deck : M.deck := by assumption) (h_engs : M.engs
    := by assumption) (h_plans : M.plans := by assumption) (h_tricks : M.tricks := by assumption) (h_beams : M.beams
    := by assumption) (h_outp : M.outp := by assumption) (h_hbm : M.hbm := by assumption) (h_spd : M.spd := by
    assumption) (h_sec : M.sec := by assumption) (h_ledger : M.ledger := by assumption) (h_fab : M.fab := by
    assumption) (h_dma : M.dma := by assumption) (h_power : M.power := by assumption) (h_modl : M.modl := by
    assumption) : Within M s u := by
  unfold Machine.execColdStart at he
  simp only [Host.Outcome.next.injEq] at he
  subst he
  simp (maxDischargeDepth := 40) only [Within.powerOff, Within.latchStraps, Within.wr, Within.bootFirmware, Within.bootWipe, Within.upd,
            Within.ite, h, true_or, or_true, and_self, implies_true, h_regs, h_out, h_dealer, h_faults, h_time,
            h_lanes, h_links, h_sess, h_deck, h_engs, h_plans, h_tricks, h_beams, h_outp, h_hbm, h_spd, h_sec,
            h_ledger, h_fab, h_dma, h_power, h_modl]

theorem Within.execUartBootImageReceived (h : Within M s t) {sigOk : Bool} (he : (Machine.execUartBootImageReceived
    sigOk t) = .next u) (h_regs : M.regs := by assumption) (h_out : M.out := by assumption) (h_dealer : M.dealer := by
    assumption) (h_faults : M.faults := by assumption) (h_lanes : M.lanes := by assumption) (h_sess : M.sess := by
    assumption) (h_deck : M.deck := by assumption) (h_engs : M.engs := by assumption) (h_plans : M.plans := by
    assumption) (h_hbm : M.hbm := by assumption) (h_spd : M.spd := by assumption) (h_sec : M.sec := by assumption)
    (h_ledger : M.ledger := by assumption) (h_modl : M.modl := by assumption) (h_links : M.links := by assumption) (h_power : M.power := by assumption) : Within M s u := by
  unfold Machine.execUartBootImageReceived at he
  simp only [Host.Outcome.next.injEq] at he
  subst he
  repeat' (first
      | (simp (maxDischargeDepth := 40) only [Within.firmwareRuns, Within.flag, Within.ite, h, implies_true, h_regs,
            h_out, h_dealer, h_faults, h_lanes, h_sess, h_deck, h_engs, h_plans, h_hbm, h_spd, h_sec, h_ledger,
            h_modl, h_links, h_power]; done)
      | split)

theorem Within.measureBus (h : Within M s t) {mv : Nat} (h_regs : M.regs := by assumption) : Within M s
    (State.measureBus t mv) := by
  unfold State.measureBus
  simp (maxDischargeDepth := 40) only [Within.wr, h, h_regs]

theorem Within.startFlush (h : Within M s t) (h_regs : M.regs := by assumption) (h_out : M.out := by assumption)
    (h_deck : M.deck := by assumption) (h_outp : M.outp := by assumption) (h_power : M.power := by assumption) :
    Within M s (State.startFlush t) := by
  unfold State.startFlush
  repeat' (first
      | (simp (maxDischargeDepth := 40) only [Within.stopDrains, Within.wr, Within.notePause, Within.stopCores,
            Within.upd, h, true_or, or_true, and_self, implies_true, h_regs, h_out, h_deck, h_outp, h_power]; done)
      | dsimp only
      | split)

theorem Within.warn (h : Within M s t) (h_regs : M.regs := by assumption) (h_out : M.out := by assumption) (h_faults :
    M.faults := by assumption) (h_deck : M.deck := by assumption) (h_outp : M.outp := by assumption) (h_power :
    M.power := by assumption) : Within M s (State.warn t) := by
  unfold State.warn
  repeat' (first
      | (simp (maxDischargeDepth := 40) only [Within.flag, Within.bump, Within.fault, Within.startFlush, Within.ite,
            h, true_or, or_true, and_self, implies_true, h_regs, h_out, h_faults, h_deck, h_outp, h_power]; done)
      | dsimp only
      | split)

theorem Within.execPowerFailWarning (h : Within M s t) {loss : Bool} {mv : BitVec 16} (he :
    (Machine.execPowerFailWarning loss mv t) = .next u) (h_regs : M.regs := by assumption) (h_out : M.out := by
    assumption) (h_faults : M.faults := by assumption) (h_deck : M.deck := by assumption) (h_outp : M.outp := by
    assumption) (h_power : M.power := by assumption) : Within M s u := by
  unfold Machine.execPowerFailWarning at he
  simp only [Host.Outcome.next.injEq] at he
  subst he
  repeat' (first
      | (simp (maxDischargeDepth := 40) only [Within.measureBus, Within.put, Within.warn, Within.ite, h, true_or, or_true, and_self, implies_true,
            h_regs, h_out, h_faults, h_deck, h_outp, h_power]; done)
      | dsimp only
      | split)

theorem Within.switchOff (h : Within M s t) (h_regs : M.regs := by assumption) (h_out : M.out := by assumption)
    (h_dealer : M.dealer := by assumption) (h_faults : M.faults := by assumption) (h_time : M.time := by assumption)
    (h_lanes : M.lanes := by assumption) (h_links : M.links := by assumption) (h_sess : M.sess := by assumption)
    (h_deck : M.deck := by assumption) (h_engs : M.engs := by assumption) (h_plans : M.plans := by assumption)
    (h_tricks : M.tricks := by assumption) (h_beams : M.beams := by assumption) (h_outp : M.outp := by assumption)
    (h_hbm : M.hbm := by assumption) (h_spd : M.spd := by assumption) (h_sec : M.sec := by assumption) (h_ledger :
    M.ledger := by assumption) (h_fab : M.fab := by assumption) (h_dma : M.dma := by assumption) (h_power : M.power :=
    by assumption) (h_modl : M.modl := by assumption) : Within M s (State.switchOff t) := by
  unfold State.switchOff
  simp (maxDischargeDepth := 40) only [Within.powerOff, Within.ite, h, implies_true, h_regs, h_out, h_dealer,
    h_faults, h_time, h_lanes, h_links, h_sess, h_deck, h_engs, h_plans, h_tricks, h_beams, h_outp, h_hbm, h_spd,
    h_sec, h_ledger, h_fab, h_dma, h_power, h_modl]

theorem Within.endFlush (h : Within M s t) (h_regs : M.regs := by assumption) (h_faults : M.faults := by assumption)
    (h_deck : M.deck := by assumption) (h_power : M.power := by assumption) (h_modl : M.modl := by assumption) :
    Within M s (State.endFlush t) := by
  unfold State.endFlush
  simp (maxDischargeDepth := 40) only [Within.wr, Within.faultReset, Within.upd, Within.refl, h, true_or, or_true,
    and_self, implies_true, Within.whenS, h_regs, h_faults, h_deck, h_power, h_modl]

theorem Within.execFlushComplete (h : Within M s t) (he : (Machine.execFlushComplete t) = .next u) (h_regs : M.regs :=
    by assumption) (h_out : M.out := by assumption) (h_dealer : M.dealer := by assumption) (h_faults : M.faults := by
    assumption) (h_time : M.time := by assumption) (h_lanes : M.lanes := by assumption) (h_links : M.links := by
    assumption) (h_sess : M.sess := by assumption) (h_deck : M.deck := by assumption) (h_engs : M.engs := by
    assumption) (h_plans : M.plans := by assumption) (h_tricks : M.tricks := by assumption) (h_beams : M.beams := by
    assumption) (h_outp : M.outp := by assumption) (h_hbm : M.hbm := by assumption) (h_spd : M.spd := by assumption)
    (h_sec : M.sec := by assumption) (h_ledger : M.ledger := by assumption) (h_fab : M.fab := by assumption) (h_dma :
    M.dma := by assumption) (h_power : M.power := by assumption) (h_modl : M.modl := by assumption) : Within M s u :=
    by
  unfold Machine.execFlushComplete at he
  simp only [Host.Outcome.next.injEq] at he
  subst he
  simp (maxDischargeDepth := 40) only [Within.switchOff, Within.endFlush, Within.ite, h, implies_true, h_regs, h_out,
    h_dealer, h_faults, h_time, h_lanes, h_links, h_sess, h_deck, h_engs, h_plans, h_tricks, h_beams, h_outp, h_hbm,
    h_spd, h_sec, h_ledger, h_fab, h_dma, h_power, h_modl]

theorem Within.execSupplyRecovered (h : Within M s t) (he : (Machine.execSupplyRecovered t) = .next u) (h_regs :
    M.regs := by assumption) (h_out : M.out := by assumption) (h_dealer : M.dealer := by assumption) (h_faults :
    M.faults := by assumption) (h_links : M.links := by assumption) (h_sess : M.sess := by assumption) (h_deck :
    M.deck := by assumption) (h_engs : M.engs := by assumption) (h_tricks : M.tricks := by assumption) (h_outp :
    M.outp := by assumption) (h_hbm : M.hbm := by assumption) (h_ledger : M.ledger := by assumption) (h_power :
    M.power := by assumption) (h_modl : M.modl := by assumption) : Within M s u := by
  unfold Machine.execSupplyRecovered at he
  simp only [Host.Outcome.next.injEq] at he
  subst he
  repeat' (first
      | (simp (maxDischargeDepth := 40) only [Within.setLive, Within.resetSnapshot, Within.endFlush, Within.fault, Within.flag, Within.wr,
            Within.setEng, Within.setPart, Within.notePause, Within.resumeAccept, Within.tryRelease,
            Within.goOn, Within.ite, Within.forN, Within.refl, h, true_or, or_true, and_self, implies_true,
            h_regs, h_out, h_dealer, h_faults, h_links, h_sess, h_deck, h_engs, h_tricks, h_outp, h_hbm,
            h_ledger, h_power, h_modl]; done)
      | dsimp only
      | split)

theorem Within.execBusBelow108V (h : Within M s t) (he : (Machine.execBusBelow108V t) = .next u) (h_regs : M.regs :=
    by assumption) (h_out : M.out := by assumption) (h_dealer : M.dealer := by assumption) (h_faults : M.faults := by
    assumption) (h_time : M.time := by assumption) (h_lanes : M.lanes := by assumption) (h_links : M.links := by
    assumption) (h_sess : M.sess := by assumption) (h_deck : M.deck := by assumption) (h_engs : M.engs := by
    assumption) (h_plans : M.plans := by assumption) (h_tricks : M.tricks := by assumption) (h_beams : M.beams := by
    assumption) (h_outp : M.outp := by assumption) (h_hbm : M.hbm := by assumption) (h_spd : M.spd := by assumption)
    (h_sec : M.sec := by assumption) (h_ledger : M.ledger := by assumption) (h_fab : M.fab := by assumption) (h_dma :
    M.dma := by assumption) (h_power : M.power := by assumption) (h_modl : M.modl := by assumption) : Within M s u :=
    by
  unfold Machine.execBusBelow108V at he
  simp only [Host.Outcome.next.injEq] at he
  subst he
  simp (maxDischargeDepth := 40) only [Within.powerOff, Within.ite, h, implies_true, h_regs, h_out, h_dealer,
    h_faults, h_time, h_lanes, h_links, h_sess, h_deck, h_engs, h_plans, h_tricks, h_beams, h_outp, h_hbm, h_spd,
    h_sec, h_ledger, h_fab, h_dma, h_power, h_modl]

theorem Within.execThermalTrip (h : Within M s t) (he : (Machine.execThermalTrip t) = .next u) (h_regs : M.regs := by
    assumption) (h_out : M.out := by assumption) (h_dealer : M.dealer := by assumption) (h_faults : M.faults := by
    assumption) (h_time : M.time := by assumption) (h_lanes : M.lanes := by assumption) (h_links : M.links := by
    assumption) (h_sess : M.sess := by assumption) (h_deck : M.deck := by assumption) (h_engs : M.engs := by
    assumption) (h_plans : M.plans := by assumption) (h_tricks : M.tricks := by assumption) (h_beams : M.beams := by
    assumption) (h_outp : M.outp := by assumption) (h_hbm : M.hbm := by assumption) (h_spd : M.spd := by assumption)
    (h_sec : M.sec := by assumption) (h_ledger : M.ledger := by assumption) (h_fab : M.fab := by assumption) (h_dma :
    M.dma := by assumption) (h_power : M.power := by assumption) (h_modl : M.modl := by assumption) : Within M s u :=
    by
  unfold Machine.execThermalTrip at he
  simp only [Host.Outcome.next.injEq] at he
  subst he
  simp (maxDischargeDepth := 40) only [Within.warn, Within.switchOff, Within.upd, Within.ite, h, true_or, or_true,
    and_self, implies_true, h_regs, h_out, h_dealer, h_faults, h_time, h_lanes, h_links, h_sess, h_deck, h_engs,
    h_plans, h_tricks, h_beams, h_outp, h_hbm, h_spd, h_sec, h_ledger, h_fab, h_dma, h_power, h_modl]

theorem Within.execSensorsBelow85C (h : Within M s t) (he : (Machine.execSensorsBelow85C t) = .next u) (h_power :
    M.power := by assumption) : Within M s u := by
  unfold Machine.execSensorsBelow85C at he
  simp only [Host.Outcome.next.injEq] at he
  subst he
  simp (maxDischargeDepth := 40) only [Within.upd, Within.ite, h, true_or, or_true, and_self, implies_true, h_power]

theorem Within.railReset (h : Within M s t) (h_regs : M.regs := by assumption) (h_modl : M.modl := by assumption) :
    Within M s (State.railReset t) := by
  unfold State.railReset
  simp (maxDischargeDepth := 40) only [Within.resetDue, Within.bump, Within.ite, h, implies_true, h_regs, h_modl]

theorem Within.railOther (h : Within M s t) {d : Nat} (h_regs : M.regs := by assumption) (h_power : M.power := by
    assumption) (h_modl : M.modl := by assumption) : Within M s (State.railOther t d) := by
  unfold State.railOther
  simp (maxDischargeDepth := 40) only [Within.railReset, Within.flag, Within.upd, Within.refl, h, true_or, or_true,
    and_self, implies_true, Within.whenS, h_regs, h_power, h_modl]

theorem Within.railSpd (h : Within M s t) {d : Nat} {again : Bool} (h_regs : M.regs := by assumption) (h_spd : M.spd
    := by assumption) (h_power : M.power := by assumption) : Within M s (State.railSpd t d again) := by
  unfold State.railSpd
  simp (maxDischargeDepth := 40) only [Within.upd, Within.zeroGroup, Within.wr, Within.ite, h, implies_true, h_regs, h_spd, true_or,
            or_true, and_self, h_power]

theorem Within.railLane (h : Within M s t) {l : Nat} (h_regs : M.regs := by assumption) (h_out : M.out := by
    assumption) (h_dealer : M.dealer := by assumption) (h_faults : M.faults := by assumption) (h_lanes : M.lanes := by
    assumption) (h_ledger : M.ledger := by assumption) (h_links : M.links := by assumption) : Within M s (State.railLane t l) := by
  unfold State.railLane
  simp (maxDischargeDepth := 40) only [Within.failAttempt, Within.sendStep, Within.lanesFail, Within.ite, h,
    implies_true, h_regs, h_out, h_dealer, h_faults, h_lanes, h_ledger, h_links]

theorem Within.portDown (h : Within M s t) {q : Nat} (h_regs : M.regs := by assumption) (h_faults : M.faults := by
    assumption) : Within M s (State.portDown t q) := by
  unfold State.portDown
  simp (maxDischargeDepth := 40) only [Within.fault, Within.wr, Within.ite, h, implies_true, h_regs, h_faults]

theorem Within.domainOff (h : Within M s t) {d : Nat} (h_power : M.power := by assumption) : Within M s (State.domainOff t d) := by
  unfold State.domainOff
  repeat' (first
      | (simp (maxDischargeDepth := 40) only [Within.upd, h, true_or, or_true, and_self, implies_true, h_power]; done)
      | dsimp only
      | split)

theorem Within.railLost (h : Within M s t) {d : Nat} {again : Bool} (h_regs : M.regs := by assumption) (h_out : M.out
    := by assumption) (h_dealer : M.dealer := by assumption) (h_faults : M.faults := by assumption) (h_time : M.time
    := by assumption) (h_lanes : M.lanes := by assumption) (h_deck : M.deck := by assumption) (h_engs : M.engs := by
    assumption) (h_plans : M.plans := by assumption) (h_outp : M.outp := by assumption) (h_hbm : M.hbm := by
    assumption) (h_spd : M.spd := by assumption) (h_ledger : M.ledger := by assumption) (h_power : M.power := by
    assumption) (h_modl : M.modl := by assumption) (h_links : M.links := by assumption) : Within M s (State.railLost t d again) := by
  unfold State.railLost
  repeat' (first
      | (simp (maxDischargeDepth := 40) only [Within.endLongOf, Within.domainOff, Within.retireEngine, Within.stackFails, Within.railLane,
            Within.portDown, Within.railSpd, Within.refFault, Within.warn, Within.railOther, Within.upd,
            Within.ite, h, true_or, or_true, and_self, implies_true, h_regs, h_out, h_dealer, h_faults, h_time,
            h_lanes, h_deck, h_engs, h_plans, h_outp, h_hbm, h_spd, h_ledger, h_power, h_modl, h_links]; done)
      | dsimp only
      | split)

theorem Within.execRailFault (h : Within M s t) {d : Fin 164} (he : (Machine.execRailFault d t) = .next u) (h_regs :
    M.regs := by assumption) (h_out : M.out := by assumption) (h_dealer : M.dealer := by assumption) (h_faults :
    M.faults := by assumption) (h_time : M.time := by assumption) (h_lanes : M.lanes := by assumption) (h_links :
    M.links := by assumption) (h_sess : M.sess := by assumption) (h_deck : M.deck := by assumption) (h_engs : M.engs
    := by assumption) (h_plans : M.plans := by assumption) (h_tricks : M.tricks := by assumption) (h_beams : M.beams
    := by assumption) (h_outp : M.outp := by assumption) (h_hbm : M.hbm := by assumption) (h_spd : M.spd := by
    assumption) (h_sec : M.sec := by assumption) (h_ledger : M.ledger := by assumption) (h_fab : M.fab := by
    assumption) (h_dma : M.dma := by assumption) (h_power : M.power := by assumption) (h_modl : M.modl := by
    assumption) : Within M s u := by
  unfold Machine.execRailFault at he
  simp only [Host.Outcome.next.injEq] at he
  subst he
  simp (maxDischargeDepth := 40) only [Within.flag, Within.fault, Within.wr, Within.railLost, Within.switchOff,
    Within.partFault, Within.whenS, Within.refl, Within.upd, Within.ite, h, true_or, or_true, and_self, implies_true, h_regs, h_out, h_dealer, h_faults, h_time,
    h_lanes, h_links, h_sess, h_deck, h_engs, h_plans, h_tricks, h_beams, h_outp, h_hbm, h_spd, h_sec, h_ledger,
    h_fab, h_dma, h_power, h_modl]

theorem Within.setCage (h : Within M s t) {c : Nat} {present powered : Bool} (h_regs : M.regs := by assumption) :
    Within M s (State.setCage t c present powered) := by
  unfold State.setCage
  simp (maxDischargeDepth := 40) only [Within.wr, h, h_regs]

theorem Within.laneUnpowered (h : Within M s t) {l : Nat} (h_regs : M.regs := by assumption) (h_out : M.out := by
    assumption) (h_dealer : M.dealer := by assumption) (h_faults : M.faults := by assumption) (h_lanes : M.lanes := by
    assumption) (h_links : M.links := by assumption) : Within M s (State.laneUnpowered t l) := by
  unfold State.laneUnpowered
  simp (maxDischargeDepth := 40) only [Within.laneOff, Within.loseLane, Within.ite, h, implies_true, h_regs, h_out,
    h_dealer, h_faults, h_lanes, h_links]

theorem Within.lanePowered (h : Within M s t) {l : Nat} (h_regs : M.regs := by assumption) (h_out : M.out := by
    assumption) (h_dealer : M.dealer := by assumption) (h_faults : M.faults := by assumption) (h_lanes : M.lanes := by
    assumption) (h_links : M.links := by assumption) (h_power : M.power := by assumption) : Within M s (State.lanePowered t l) := by
  unfold State.lanePowered
  repeat' (first
      | (simp (maxDischargeDepth := 40) only [Within.climbOrOff, Within.ite, h, true_or, or_true, and_self,
            implies_true, h_regs, h_out, h_dealer, h_faults, h_lanes, h_links, h_power]; done)
      | dsimp only
      | split)

theorem Within.execTransceiverInserted (h : Within M s t) {cage : Fin 4} {deciWatt : Nat} (he :
    (Machine.execTransceiverInserted cage deciWatt t) = .next u) (h_regs : M.regs := by assumption) (h_out : M.out :=
    by assumption) (h_dealer : M.dealer := by assumption) (h_faults : M.faults := by assumption) (h_lanes : M.lanes :=
    by assumption) (h_links : M.links := by assumption) (h_power : M.power := by assumption) : Within M s u := by
  unfold Machine.execTransceiverInserted at he
  simp only [Host.Outcome.next.injEq] at he
  subst he
  repeat' (first
      | (simp (maxDischargeDepth := 40) only [Within.lanePowered, Within.setCage, Within.laneUnpowered, Within.flag,
            Within.lanesFail, Within.ite, Within.foldl, Within.refl, h, true_or, or_true, and_self, implies_true,
            h_regs, h_out, h_dealer, h_faults, h_lanes, h_links, h_power]; done)
      | dsimp only
      | split)

theorem Within.execTransceiverRemoved (h : Within M s t) {cage : Fin 4} (he : (Machine.execTransceiverRemoved cage t)
    = .next u) (h_regs : M.regs := by assumption) (h_out : M.out := by assumption) (h_dealer : M.dealer := by
    assumption) (h_faults : M.faults := by assumption) (h_lanes : M.lanes := by assumption) (h_links : M.links := by assumption) : Within M s u := by
  unfold Machine.execTransceiverRemoved at he
  simp only [Host.Outcome.next.injEq] at he
  subst he
  repeat' (first
      | (simp (maxDischargeDepth := 40) only [Within.setCage, Within.lanesFail, Within.portDown, Within.ite, h,
            true_or, or_true, and_self, implies_true, h_regs, h_out, h_dealer, h_faults, h_lanes, h_links]; done)
      | dsimp only
      | split)

theorem Within.execStrapChange (h : Within M s t) {live : BitVec 15} (he : (Machine.execStrapChange live t) = .next u)
    (h_regs : M.regs := by assumption) : Within M s u := by
  unfold Machine.execStrapChange at he
  simp only [Host.Outcome.next.injEq] at he
  subst he
  simp (maxDischargeDepth := 40) only [Within.wr, Within.flag, Within.ite, h, implies_true, h_regs]

theorem Within.execJtagInstruction (h : Within M s t) {i : TapInstr} (he : (Machine.execJtagInstruction i t) = .next
    u) (h_modl : M.modl := by assumption) : Within M s u := by
  unfold Machine.execJtagInstruction at he
  simp only [Host.Outcome.next.injEq] at he
  subst he
  simp (maxDischargeDepth := 40) only [Within.upd, h, true_or, or_true, and_self, h_modl]

theorem Within.execFanFailed (h : Within M s t) {i : Fin 6} (he : (Machine.execFanFailed i t) = .next u) (h_regs :
    M.regs := by assumption) (h_faults : M.faults := by assumption) : Within M s u := by
  unfold Machine.execFanFailed at he
  simp only [Host.Outcome.next.injEq] at he
  subst he
  simp (maxDischargeDepth := 40) only [Within.fault, Within.wr, h, h_regs, h_faults]

theorem Within.execInletAirAbove40 (h : Within M s t) {a0 : Byte} (he : (Machine.execInletAirAbove40 a0 t) = .next u)
    (h_regs : M.regs := by assumption) (h_faults : M.faults := by assumption) : Within M s u := by
  unfold Machine.execInletAirAbove40 at he
  simp only [Host.Outcome.next.injEq] at he
  subst he
  simp (maxDischargeDepth := 40) only [Within.setLive, Within.wr, Within.fault, Within.ite, h, implies_true, h_regs, h_faults, true_or,
            or_true, and_self]

theorem Within.execPcieLinkDown (h : Within M s t) (he : (Machine.execPcieLinkDown t) = .next u) (h_regs : M.regs :=
    by assumption) (h_faults : M.faults := by assumption) (h_fab : M.fab := by assumption) (h_modl : M.modl := by
    assumption) : Within M s u := by
  unfold Machine.execPcieLinkDown at he
  simp only [Host.Outcome.next.injEq] at he
  subst he
  simp (maxDischargeDepth := 40) only [Within.dropLocks, Within.fault, Within.setLive, Within.upd, Within.ite, h,
    true_or, or_true, and_self, implies_true, h_regs, h_faults, h_fab, h_modl]

theorem Within.resizeBar (h : Within M s t) (h_regs : M.regs := by assumption) : Within M s (State.resizeBar t) := by
  unfold State.resizeBar
  repeat' (first
      | (simp (maxDischargeDepth := 40) only [Within.wr, Within.drawn, h, true_or, or_true, and_self, implies_true, h_regs]; done)
      | dsimp only
      | split)

theorem Within.execPcieLinkTrained (h : Within M s t) {width rateGT : Nat} (he : (Machine.execPcieLinkTrained width
    rateGT t) = .next u) (h_regs : M.regs := by assumption) (h_faults : M.faults := by assumption) (h_modl : M.modl :=
    by assumption) : Within M s u := by
  unfold Machine.execPcieLinkTrained at he
  simp only [Host.Outcome.next.injEq] at he
  subst he
  simp (maxDischargeDepth := 40) only [Within.resizeBar, Within.setLive, Within.fault, Within.upd, Within.ite, h, true_or, or_true,
            and_self, implies_true, h_regs, h_faults, h_modl]

theorem Within.execFundamentalResetReleased (h : Within M s t) (he : (Machine.execFundamentalResetReleased t) = .next
    u) (h_modl : M.modl := by assumption) : Within M s u := by
  unfold Machine.execFundamentalResetReleased at he
  simp only [Host.Outcome.next.injEq] at he
  subst he
  simp (maxDischargeDepth := 40) only [Within.upd, h, true_or, or_true, and_self, h_modl]

theorem Within.execNop (h : Within M s t) {a0 : Hdr} (he : (Machine.execNop a0 t) = .next u) (h_regs : M.regs := by
    assumption) (h_out : M.out := by assumption) (h_dealer : M.dealer := by assumption) (h_faults : M.faults := by
    assumption) : Within M s u := by
  unfold Machine.execNop at he
  simp only [Host.Outcome.next.injEq] at he
  subst he
  repeat' (first
      | with_reducible assumption
      | (with_reducible refine Within.winos ?_ (fun u => ?_))
      | (refine AnsWithin.mk ?_ (fun w => ?_))
      | exact Within.refl _ _)

theorem Within.execIdentify (h : Within M s t) {a0 : Hdr} (he : (Machine.execIdentify a0 t) = .next u) (h_regs :
    M.regs := by assumption) (h_out : M.out := by assumption) (h_dealer : M.dealer := by assumption) (h_faults :
    M.faults := by assumption) : Within M s u := by
  unfold Machine.execIdentify at he
  simp only [Host.Outcome.next.injEq] at he
  subst he
  repeat' (first
      | with_reducible assumption
      | (with_reducible refine Within.winos ?_ (fun u => ?_))
      | (refine AnsWithin.mk ?_ (fun w => ?_))
      | exact Within.refl _ _)

theorem Within.execSetModid (h : Within M s t) {a0 : Hdr} {id : Byte} (he : Machine.execSetModid a0 id t = .next u)
    (h_regs : M.regs := by assumption) (h_out : M.out := by assumption) (h_dealer : M.dealer := by assumption)
    (h_faults : M.faults := by assumption) (h_modl : M.modl := by assumption) : Within M s u := by
  unfold Machine.execSetModid at he
  simp only [Host.Outcome.next.injEq] at he
  subst he
  refine Within.winos h (fun u => ?_)
  split
  · exact .bad (.refl _ u)
  · split
    · exact .rej (.refl _ u)
    · exact .ok (Within.upd (Within.refl _ u).wr)

theorem Within.execStatus (h : Within M s t) {a0 : Hdr} (he : (Machine.execStatus a0 t) = .next u) (h_regs : M.regs :=
    by assumption) (h_out : M.out := by assumption) (h_dealer : M.dealer := by assumption) (h_faults : M.faults := by
    assumption) : Within M s u := by
  unfold Machine.execStatus at he
  simp only [Host.Outcome.next.injEq] at he
  subst he
  repeat' (first
      | with_reducible assumption
      | (with_reducible refine Within.winos ?_ (fun u => ?_))
      | (refine AnsWithin.mk ?_ (fun w => ?_))
      | exact Within.refl _ _)

theorem Within.execUartClose (h : Within M s t) {a0 : Hdr} (he : (Machine.execUartClose a0 t) = .next u) (h_regs :
    M.regs := by assumption) (h_out : M.out := by assumption) (h_dealer : M.dealer := by assumption) (h_faults :
    M.faults := by assumption) : Within M s u := by
  unfold Machine.execUartClose at he
  simp only [Host.Outcome.next.injEq] at he
  subst he
  repeat' (first
      | with_reducible assumption
      | with_reducible apply Within.wr
      | dsimp only [State.ok]
      | (with_reducible refine Within.winos ?_ (fun u => ?_))
      | (refine AnsWithin.mk ?_ (fun w => ?_))
      | exact Within.refl _ _)

theorem Within.execMgmtCfg (h : Within M s t) {a0 : Hdr} {ip : Word} {plen : Byte} {gw : Word} (he :
    (Machine.execMgmtCfg a0 ip plen gw t) = .next u) (h_regs : M.regs := by assumption) (h_out : M.out := by
    assumption) (h_dealer : M.dealer := by assumption) (h_faults : M.faults := by assumption) (h_modl : M.modl := by
    assumption) : Within M s u := by
  unfold Machine.execMgmtCfg at he
  simp only [Host.Outcome.next.injEq] at he
  subst he
  repeat' (first
      | with_reducible assumption
      | simp only [Within.upd_iff, true_or, or_true, and_self, h_regs, h_out, h_dealer, h_faults, h_modl]
      | dsimp only [State.ok]
      | (with_reducible refine Within.winos ?_ (fun u => ?_))
      | split
      | (refine AnsWithin.mk ?_ (fun w => ?_))
      | exact Within.refl _ _)

theorem Within.execEvtSubscribe (h : Within M s t) {a0 : Hdr} {mask : BitVec 16} {dest : Byte} (he :
    (Machine.execEvtSubscribe a0 mask dest t) = .next u) (h_regs : M.regs := by assumption) (h_out : M.out := by
    assumption) (h_dealer : M.dealer := by assumption) (h_faults : M.faults := by assumption) : Within M s u := by
  unfold Machine.execEvtSubscribe at he
  simp only [Host.Outcome.next.injEq] at he
  subst he
  repeat' (first
      | with_reducible assumption
      | simp only [Within.upd_iff, true_or, or_true, and_self, h_regs, h_out, h_dealer, h_faults]
      | dsimp only [State.ok]
      | (with_reducible refine Within.winos ?_ (fun u => ?_))
      | split
      | (refine AnsWithin.mk ?_ (fun w => ?_))
      | exact Within.refl _ _)

theorem Within.execEvtRead (h : Within M s t) {a0 : Hdr} {first : BitVec 64} {count : BitVec 16} (he :
    (Machine.execEvtRead a0 first count t) = .next u) (h_regs : M.regs := by assumption) (h_out : M.out := by
    assumption) (h_dealer : M.dealer := by assumption) (h_faults : M.faults := by assumption) : Within M s u := by
  unfold Machine.execEvtRead at he
  simp only [Host.Outcome.next.injEq] at he
  subst he
  repeat' (first
      | with_reducible assumption
      | (with_reducible refine Within.winos ?_ (fun u => ?_))
      | split
      | (refine AnsWithin.mk ?_ (fun w => ?_))
      | exact Within.refl _ _)

theorem Within.goRelease (h : Within M s t) {l : Nat} (h_regs : M.regs := by assumption) (h_out : M.out := by
    assumption) (h_dealer : M.dealer := by assumption) (h_faults : M.faults := by assumption) (h_lanes : M.lanes := by
    assumption) (h_links : M.links := by assumption) : Within M s (State.goRelease t l) := by
  unfold State.goRelease
  simp (maxDischargeDepth := 40) only [Within.releaseLane, Within.endLongOf, Within.ite, h, implies_true, h_regs, h_out, h_dealer,
            h_faults, h_lanes, true_or, or_true, and_self, h_links]

theorem Within.goRestore (h : Within M s t) {l : Nat} (h_regs : M.regs := by assumption) (h_out : M.out := by
    assumption) (h_dealer : M.dealer := by assumption) (h_faults : M.faults := by assumption) (h_lanes : M.lanes := by
    assumption) (h_links : M.links := by assumption) (h_ledger : M.ledger := by assumption) (h_power : M.power := by assumption) : Within M s
    (State.goRestore t l) := by
  unfold State.goRestore
  repeat' (first
      | (simp (maxDischargeDepth := 40) only [Within.sendHome, Within.setLane, Within.restoreLane, Within.ite, h,
            true_or, or_true, and_self, implies_true, h_regs, h_out, h_dealer, h_faults, h_lanes, h_links, h_ledger, h_power];
            done)
      | dsimp only
      | split)

theorem Within.execLaneRelease (h : Within M s t) {a0 : Hdr} {lane : Byte} (he : (Machine.execLaneRelease a0 lane t) =
    .next u) (h_regs : M.regs := by assumption) (h_out : M.out := by assumption) (h_dealer : M.dealer := by
    assumption) (h_faults : M.faults := by assumption) (h_lanes : M.lanes := by assumption) (h_links : M.links := by assumption) : Within M s u := by
  unfold Machine.execLaneRelease at he
  simp only [Host.Outcome.next.injEq] at he
  subst he
  repeat' (first
      | with_reducible assumption
      | with_reducible apply Within.goRelease
      | exact (AnsWithin.begin (.refl _ _)).st
      | (with_reducible refine Within.winos ?_ (fun u => ?_))
      | split
      | (refine AnsWithin.mk ?_ (fun w => ?_))
      | exact Within.refl _ _)

theorem Within.execLaneRestore (h : Within M s t) {a0 : Hdr} {lane : Byte} (he : (Machine.execLaneRestore a0 lane t) =
    .next u) (h_regs : M.regs := by assumption) (h_out : M.out := by assumption) (h_dealer : M.dealer := by
    assumption) (h_faults : M.faults := by assumption) (h_lanes : M.lanes := by assumption) (h_links : M.links := by
    assumption) (h_ledger : M.ledger := by assumption) (h_power : M.power := by assumption) : Within M s u := by
  unfold Machine.execLaneRestore at he
  simp only [Host.Outcome.next.injEq] at he
  subst he
  repeat' (first
      | with_reducible assumption
      | with_reducible apply Within.goRestore
      | exact (AnsWithin.begin (.refl _ _)).st
      | (with_reducible refine Within.winos ?_ (fun u => ?_))
      | split
      | (refine AnsWithin.mk ?_ (fun w => ?_))
      | exact Within.refl _ _)

theorem Within.execBundleReset (h : Within M s t) {a0 : Hdr} {bundle : Byte} (he : (Machine.execBundleReset a0 bundle
    t) = .next u) (h_regs : M.regs := by assumption) (h_out : M.out := by assumption) (h_dealer : M.dealer := by
    assumption) (h_faults : M.faults := by assumption) (h_links : M.links := by assumption) : Within M s u := by
  unfold Machine.execBundleReset at he
  simp only [Host.Outcome.next.injEq] at he
  subst he
  repeat' (first
      | with_reducible assumption
      | with_reducible apply Within.bundleReset
      | dsimp only [State.ok]
      | (with_reducible refine Within.winos ?_ (fun u => ?_))
      | split
      | (refine AnsWithin.mk ?_ (fun w => ?_))
      | exact Within.refl _ _)

theorem Within.execSessionClose (h : Within M s t) {a0 : Hdr} {session : Byte} (he : (Machine.execSessionClose a0
    session t) = .next u) (h_regs : M.regs := by assumption) (h_out : M.out := by assumption) (h_dealer : M.dealer :=
    by assumption) (h_faults : M.faults := by assumption) (h_links : M.links := by assumption) (h_sess : M.sess := by
    assumption) (h_ledger : M.ledger := by assumption) : Within M s u := by
  unfold Machine.execSessionClose at he
  simp only [Host.Outcome.next.injEq] at he
  subst he
  repeat' (first
      | with_reducible assumption
      | with_reducible apply Within.closeSession
      | dsimp only [State.ok]
      | (with_reducible refine Within.winos ?_ (fun u => ?_))
      | split
      | (refine AnsWithin.mk ?_ (fun w => ?_))
      | exact Within.refl _ _)

theorem Within.execFlowList (h : Within M s t) {a0 : Hdr} {session : Byte} {first : BitVec 16} (he :
    (Machine.execFlowList a0 session first t) = .next u) (h_regs : M.regs := by assumption) (h_out : M.out := by
    assumption) (h_dealer : M.dealer := by assumption) (h_faults : M.faults := by assumption) : Within M s u := by
  unfold Machine.execFlowList at he
  simp only [Host.Outcome.next.injEq] at he
  subst he
  repeat' (first
      | with_reducible assumption
      | (with_reducible refine Within.winos ?_ (fun u => ?_))
      | (refine AnsWithin.mk ?_ (fun w => ?_))
      | exact Within.refl _ _)

end Sys2Proof.Machine
end

