-- ==== Sys2Proof/WellFormed.lean ====
section
/-! DEFINITION. The shapes of operands that the row itself fixes. What the module judges (checksums,
lengths, ranges) is not part of it: those commands are executed and refused by the machine. -/

namespace Sys2Proof

/-- Well-formed commands: operands of the size their row fixes. -/
def WellFormed : Instr → Bool
  | .registerWrite _ _ size _ => decide (size ≤ 8)
  | .fabricRead a | .atomicAdd a _ | .atomicSwap a _ | .lockedRead a _ => decide (1 ≤ a.size)
  | .fabricWrite a d | .lockedWrite a d _ => decide (1 ≤ a.size) && decide (d.length = a.size)
  | .offer _ m | .stepPass _ m | .stepFail _ m | .laneDown _ m => decide (m.length = 32)
  | .bxclr _ w _ => decide (2 ≤ w.val) && decide (w.val ≤ 16)
  | .zoomCoef _ _ taps => decide (taps.length = 32)
  | .keyEnrol _ _ k => decide (k.length = 32)
  | .refCfg _ p => decide (p.length = 68)
  | .ptpCfg _ p => decide (p.length = 32)
  | .memCfg _ p => decide (p.length = 8)
  | .coldStart c => decide (c.stackOk.length = 6) && decide (c.engineOk.length = 96)
  | .ptpMessage _ m => decide (m.ns < 1000000000)
  | _ => true

end Sys2Proof
end

