-- ==== Sys2Proof/Tests/Slice0.lean ====
section
/-! SUPPORT. Tests of single commands on small states: the well-formedness smoke, then, per statement, states and operands
that meet its premises at the edges of their ranges. Expected values are those of the rules of spec/
that the statement cites; values that the spec leaves open are never evaluated. -/

set_option Elab.async false

open Sys2Proof Sys2Proof.Machine

namespace Sys2Proof.Tests

/-- Whether a command completes in a state with a next state of which `p` holds. -/
def after (c : Instr) (s : State) (p : State → Bool) : Bool :=
  match exec c s with
  | .next t => p t
  | _ => false
/-- The state after reset of an engineering sample, in OPEN (R3, R4). -/
def base : State := { State.reset with lcs := 1 }
/-- A state with fields written: field, index, value. -/
def sWith (l : List (Fld × Nat × Nat)) (s : State := base) : State := l.foldl (fun s x => s.wr x.1 x.2.1 x.2.2) s
/-- An access by master `m` of `n` bytes. -/
def acc (m : Byte) (a n : Nat) : Access := ⟨m, BitVec.ofNat 40 a, n, false, false, false, false, false, none⟩
/-- The header of a command over the UART, `len` parameter bytes long. -/
def uhl (len : Nat) : Hdr := ⟨.uart, 7, 1, false, BitVec.ofNat 32 len, none, 0⟩
def uh : Hdr := uhl 0
/-- A PTP message. -/
def ptpM : PtpMsg := ⟨.sync, true, 0, 2, 0, false, 1, 0, 5, 6, 77, 3, 0x000000FFFE000000, 0, 86, false, 0⟩

/-! ### What a well-formed command is: an ill-formed term for each check -/

theorem test_wf_register_write : WellFormed (.registerWrite 1 0 9 0) = false ∧ WellFormed (.registerWrite 1 0 4 0) = true := by decide
theorem test_wf_fabric_read : WellFormed (.fabricRead (acc 1 0 0)) = false ∧ WellFormed (.fabricRead (acc 1 0 4)) = true := by decide
theorem test_wf_atomics : WellFormed (.atomicAdd (acc 1 0 0) 1) = false ∧ WellFormed (.atomicSwap (acc 1 0 0) 1) = false ∧
    WellFormed (.lockedRead (acc 1 0 0) true) = false := by decide
theorem test_wf_fabric_write : WellFormed (.fabricWrite (acc 1 0 4) [1, 2]) = false ∧
    WellFormed (.lockedWrite (acc 1 0 4) [1] false) = false ∧ WellFormed (.fabricWrite (acc 1 0 0) []) = false := by decide
theorem test_wf_lane_messages : WellFormed (.offer 0 []) = false ∧ WellFormed (.stepPass 0 []) = false ∧
    WellFormed (.stepFail 0 []) = false ∧ WellFormed (.laneDown 0 []) = false := by decide
theorem test_wf_bxclr : WellFormed (.bxclr 0 1 ⟨0, 0⟩) = false ∧ WellFormed (.bxclr 0 17 ⟨0, 0⟩) = false ∧
    WellFormed (.bxclr 0 16 ⟨0, 0⟩) = true := by decide
theorem test_wf_lists : WellFormed (.zoomCoef uh 0 []) = false ∧ WellFormed (.keyEnrol uh 0 []) = false ∧
    WellFormed (.refCfg uh []) = false ∧ WellFormed (.ptpCfg uh []) = false ∧ WellFormed (.memCfg uh []) = false := by decide
theorem test_wf_cold_start : WellFormed (.coldStart ⟨0, false, true, true, [], List.replicate 96 true⟩) = false ∧
    WellFormed (.coldStart ⟨0, false, true, true, List.replicate 6 true, []⟩) = false := by decide
theorem test_wf_ptp : WellFormed (.ptpMessage 0 { ptpM with ns := 1000000000 }) = false ∧ WellFormed (.ptpMessage 0 ptpM) = true := by
  decide

/-! ### The step and reset -/

theorem test_step_front : step { State.reset with pending := [.ocxoWarm] } = exec .ocxoWarm State.reset := rfl
theorem test_step_idle : (match step State.reset with | .next t => t.clock == 1 && t.timeb.ns == 1 | _ => false) = true := by decide +kernel
theorem test_reset_table_values : State.reset.rd .CUT_DECKCTL_DEADLINE = 40 ∧ State.reset.rd .ENG_GCTL_RESERVE = 8 ∧
    State.reset.rd .VSN_RETAIN_SECONDS = 600 ∧ State.reset.rd .TIM_SLEW_PPB = 1000 := by decide +kernel
theorem test_reset_lcs : State.reset.lcs ≤ 3 := by show (if Config.orderedMa then 2 else 1) ≤ 3; split <;> decide
theorem test_reset_inv : State.reset.memWf := by unfold State.memWf; decide +kernel
theorem test_StepKeepsInvariant_premises : ∃ t, step State.reset = .next t ∧ State.reset.memWf ∧ State.reset.lcs ≤ 3 :=
  ⟨State.reset.advance 1, rfl, test_reset_inv, test_reset_lcs⟩
theorem test_EventsAreNumberedInOrder_premises :
    (State.reset.dealer.exhausted = false ∧ State.reset.dealer.dsn < 2 ^ 64 - 1) ∧
    (let s := { State.reset with dealer := { State.reset.dealer with dsn := 2 ^ 64 - 1 } }
     s.dealer.exhausted = false ∧ 2 ^ 64 - 1 ≤ s.dealer.dsn) := by decide

/-! ### Lanes and bundles -/

theorem test_LaneTestActions_slip :
    (let s := sWith [(.VLK_STAT_STATE, 3, lnTest), (.VLK_CTL_RAW, 3, 1)]
     (s.rd .VLK_STAT_STATE 3 = lnTest ∧ s.on .VLK_CTL_RAW 3 = true ∧ s.on .VLK_RAW_SLIP_PEND 3 = false) ∧
     after (.bitslip 3) s (fun t => t.on .VLK_RAW_SLIP_PEND 3) = true) ∧
    (let s := sWith [(.VLK_STAT_STATE, 3, lnTest), (.VLK_CTL_RAW, 3, 1), (.VLK_RAW_SLIP_PEND, 3, 1), (.VLK_RAW_SLIP_POS, 3, 63)]
     (s.rd .VLK_STAT_STATE 3 = lnTest ∧ s.on .VLK_CTL_RAW 3 = true ∧ s.on .VLK_RAW_SLIP_PEND 3 = true) ∧
     after (.slipComplete 3) s (fun t => t.rd .VLK_RAW_SLIP_POS 3 == 0) = true) ∧
    base.rd .VLK_STAT_STATE 3 ≠ lnTest := by decide +kernel
theorem test_LaneTestActions_patterns :
    (let s := sWith [(.VLK_STAT_STATE, 3, lnTest), (.VLK_PGEN_EN, 3, 1), (.VLK_PCHK_EN, 3, 1), (.VLK_PCHK_LOCK, 3, 1), (.VLK_CTL_LOOP, 3, 2)]
     s.rd .VLK_STAT_STATE 3 = lnTest ∧ s.on .VLK_PGEN_EN 3 = true ∧ s.on .VLK_PCHK_LOCK 3 = true ∧ s.rd .VLK_CTL_LOOP 3 = 2 ∧
     (s.lane 3).errs = [] ∧ s.on .VLK_PCHK_EN 3 = true ∧
     after (.burst 3 31) s (fun t => t.rd64 .VLK_PERR 3 == 31 && t.on .VLK_PCHK_LOCK 3) = true ∧
     after (.burst 3 32) s (fun t => t.rd64 .VLK_PERR 3 == 32 && !t.on .VLK_PCHK_LOCK 3) = true) ∧
    (let s := sWith [(.VLK_STAT_STATE, 3, lnTest), (.VLK_PGEN_EN, 3, 1), (.VLK_PCHK_EN, 3, 1), (.VLK_CTL_LOOP, 3, 1), (.VLK_PCHK_INV, 3, 1)]
     s.on .VLK_PCHK_EN 3 = true ∧ s.on .VLK_PCHK_LOCK 3 = false ∧ s.patternFits 3 = false ∧
     (s.wr .VLK_PCHK_INV 3 0).patternFits 3 = true) ∧
    base.on .VLK_PGEN_EN 3 = false ∧ base.on .VLK_PCHK_EN 3 = false ∧
    base.patOk 3 (base.rd .VLK_PCHK_PAT 3) = true := by decide +kernel
theorem test_LaneModeWrites_premises :
    base.lnState 0 = lnOff ∧ (sWith [(.VLK_STAT_STATE, 0, lnRetry)]).lnState 0 = lnRetry ∧
    (sWith [(.VLK_STAT_STATE, 0, lnRetired)]).lnState 0 = lnRetired ∧ (sWith [(.VLK_STAT_STATE, 0, lnTest)]).lnState 0 = lnTest ∧
    (1 ≤ (sWith [(.VLK_STAT_STATE, 0, lnStandby)]).lnState 0 ∧ (sWith [(.VLK_STAT_STATE, 0, lnStandby)]).lnState 0 ≤ lnStandby) ∧
    after (.vlkCtlMode 0 2) base (fun t => t.lnState 0 == lnTest) = true := by decide +kernel

/-- Lane 1 climbs in a state with module ID 9, beside a bundle whose rate is fixed. -/
def ladder (l : List (Fld × Nat × Nat)) (x : LaneX) : State :=
  { sWith ([(.MOD_ID_ID, 0, 9), (.VLK_BPEER_ENDPOINT, 0, 5)] ++ l) with
    lanes := [(1, x)], bundles := [(0, { fixed := some 2, gathering := true })] }
def msgTo (type step rate : Nat) : List Byte := laneMsg 5 1 type rate step 0 0 1 0 0 [0xFF, 0xFF, 0xFF, 0xFF] 0

theorem test_LaneLadder_offer :
    let s := ladder [(.VLK_STAT_STATE, 1, lnNegotiate)] {}
    let m := msgTo 1 0 3
    laneMsgOk m 1 = true ∧ s.lnState 1 = lnNegotiate ∧ s.isSpare 1 = false ∧ (s.bundle 0).fixed = some 2 ∧
    s.rd .VLK_BPEER_ENDPOINT 0 = fieldAt m 4 4 ∧ 2 ≤ fieldAt m 9 1 ∧ (s.bundle 0).gathering = true ∧
    after (.offer 1 m) s (fun t => t.lnState 1 == lnCheck) = true := by decide +kernel
theorem test_LaneLadder_pass :
    (let s := ladder [(.VLK_STAT_STATE, 1, lnCheck)] { peerPass := true, agreed := 0 }
     s.inStep 1 = true ∧ (s.lane 1).ownPass = false ∧ (s.lane 1).peerPass = true ∧ checkPasses (s.rd .VLK_STAT_RATE 1) 0 100000 = true ∧
     (s.lane 1).agreed ≤ s.rd .VLK_STAT_RATE 1 ∧ after (.ladderCheckDone 1 0 100000) s (fun t => t.lnState 1 == lnAlign) = true) ∧
    checkPasses 2 1 100000 = true ∧ checkPasses 2 2 100000 = false ∧ checkPasses 1 1 100000 = false ∧
    (let s := ladder [(.VLK_STAT_STATE, 1, lnCheck), (.VLK_STAT_RATE, 1, 1)] { ownPass := true, agreed := 2 }
     let m := msgTo 3 1 0
     s.inStep 1 = true ∧ (s.lane 1).ownPass = true ∧ laneMsgOk m 3 = true ∧ fieldAt m 10 1 = s.rd .VLK_STAT_RATE 1 ∧
     s.rd .VLK_STAT_RATE 1 < (s.lane 1).agreed ∧ s.rd .VLK_STAT_RATE 1 < 7 ∧
     after (.stepPass 1 m) s (fun t => t.lnState 1 == lnTrain && t.rd .VLK_STAT_RATE 1 == 2) = true) := by decide +kernel
theorem test_LaneLadder_fail :
    (let s := ladder [(.VLK_STAT_STATE, 1, lnTrain)] {}
     s.climbing 1 = true ∧ s.rd .VLK_STAT_ATTEMPTS 1 < 2 ∧ after (.ladderStepDeadline 1) s (fun t => t.lnState 1 == lnRetry) = true) ∧
    (let s := ladder [(.VLK_STAT_STATE, 1, lnTrain), (.VLK_STAT_ATTEMPTS, 1, 2)] {}
     s.inStep 1 = true ∧ laneMsgOk (msgTo 4 0 0) 4 = true ∧ 2 ≤ s.rd .VLK_STAT_ATTEMPTS 1 ∧
     after (.stepFail 1 (msgTo 4 0 0)) s (fun t => t.lnState 1 == lnRetired) = true) ∧
    (let s := ladder [(.VLK_STAT_STATE, 1, lnRetry)] {}
     s.lnState 1 = lnRetry ∧ after (.retryWaitExpiry 1) s (fun t => t.lnState 1 == lnNegotiate) = true) := by decide +kernel

/-- Lanes 0 and 1 in service in bundle 0. -/
def inService (l : List (Fld × Nat × Nat)) (x : BundleX := {}) : State :=
  { ((sWith ([(.MOD_ID_ID, 0, 9), (.VLK_STAT_STATE, 0, lnService), (.VLK_STAT_STATE, 1, lnService), (.VLK_STAT_BUNDLE, 0, 0),
      (.VLK_STAT_BUNDLE, 1, 0), (.VLK_STAT_POSITION, 1, 1), (.VLK_STAT_RATE, 0, 4), (.VLK_STAT_RATE, 1, 4), (.VLK_BSTAT_STATE, 0, 2),
      (.VLK_BSTAT_MASK, 0, 3)] ++ l)).setPos 0 0 0).setPos 0 1 1 with bundles := [(0, x)] }

theorem test_LaneLossAndEpochs_loss :
    (let s := inService []
     s.lnState 0 = lnService ∧ s.rd .VLK_STAT_BUNDLE 0 < 5 ∧
     after (.laneLossOfLock 0) s (fun t => t.lnState 0 == lnRetry && t.posLane 0 0 == 31) = true) ∧
    (let s := inService []
     2 ≤ s.rd .VLK_STAT_RATE 0 ∧ ((s.lane 0).uncTimes.filter (fun x => s.clock < x + 1000000)).length < 2 ∧
     after (.uncorrectableCodeword 0) s (fun t => t.lnState 0 == lnService) = true) ∧
    (let s := { inService [] with lanes := [(0, { uncTimes := [0, 0] })] }
     2 ≤ ((s.lane 0).uncTimes.filter (fun x => s.clock < x + 1000000)).length ∧
     after (.uncorrectableCodeword 0) s (fun t => t.lnState 0 == lnRetry) = true) := by decide +kernel
theorem test_LaneLossAndEpochs_rest :
    (let s := { base with lanes := [(0, { badSecs := 2 })] }
     (s.lane 0).badSecs = 2 ∧ s.on .VLK_STAT_DEGRADE 0 = false ∧ s.lnState 0 ≠ lnService ∧
     after (.berMeasurement 0 ⟨0, 0, 0, 7, 10000⟩) s (fun t => t.on .VLK_STAT_DEGRADE 0) = true) ∧
    (let s := sWith [(.VLK_STAT_STATE, 1, lnAlign), (.VLK_STAT_STATE, 20, lnAlign)]
     s.lnState 1 = lnAlign ∧ s.rd .VLK_STAT_ATTEMPTS 1 < 2 ∧ s.lnState 20 = lnAlign ∧ (s.lane 20).homing = false) ∧
    (let s := inService []
     let m := laneMsg 5 0 5 0 0 0 0 0 0xF 0 [0xFF, 0xFF, 0xFF, 0xFF] 0
     laneMsgOk m 5 = true ∧ s.rd .VLK_STAT_BUNDLE 0 < 5 ∧ ∀ p : Fin 4, bitOf (fieldAt m 14 1) p.val = true) ∧
    (let s := inService []
     let m := laneMsg 5 0 5 0 0 0 0 0 0xD 1 [0xFF, 0xFF, 0xFF, 0xFF] 0
     laneMsgOk m 5 = true ∧ (∀ q : Fin 4, bitOf (fieldAt m 14 1) q.val = (q != 1)) ∧ s.posLane 0 1 < 24 ∧
     s.lnState (s.posLane 0 1) = lnService ∧ after (.laneDown 0 m) s (fun t => t.lnState 1 == lnRetry) = true) ∧
    (let c : EpochChange := { mask := 2, map := [31, 1, 31, 31], epoch := 1, planned := false, reason := 0, replace := [0xFF, 0xFF, 0xFF, 0xFF] }
     let s := inService [] { change := some c }
     (s.bundle 0).change = some c ∧ c.planned = false) ∧
    (inService []).bundle 0 = {} := by decide +kernel

/-! ### The link layer, the cages and bundle resets -/

/-- Bundle 0 runs with INIT done and 100 credits granted. -/
def linkUp : State := (inService [(.VSN_LSTAT_INIT_DONE, 0, 1), (.VSN_LCLIMIT_LIMIT, 0, 100)]).setLink 0 { tx := { set := 3 } }
def someFrame : List Byte := linkUp.mkFrame 0x30 0 []
def dataUnit (lseq : Nat) : List Byte := unitBytes 1 0 lseq 0 0 someFrame

theorem test_LinkUnits_data :
    let s := linkUp
    let u := dataUnit 0
    s.linkRunning 0 = true ∧ unitIntact u = true ∧ fieldAt u 2 1 = 1 ∧ (s.link 0).unacked = [] ∧ (s.link 0).txq = [] ∧
    bitOf (fieldAt u 3 1) 0 = false ∧ fieldAt u 4 2 % 4096 = s.rd .VSN_LSTAT_RX_NEXT 0 ∧
    s.overruns 0 (frameCost (unitFrame u)) = false ∧ frameIntact (unitFrame u) = true ∧
    after (.dataUnit 0 u) s (fun t => (t.link 0).rxq == [someFrame] && t.rd .VSN_LSTAT_RX_NEXT 0 == 1) = true := by decide +kernel
theorem test_LinkUnits_rest :
    (let s := linkUp
     let u := dataUnit 4095
     unitIntact u = true ∧ (s.rd .VSN_LSTAT_RX_NEXT 0 + 4096 - fieldAt u 4 2 % 4096) % 4096 = 1 ∧
     after (.dataUnit 0 u) s (fun t => decide (t.regs = s.regs)) = true) ∧
    (let s := inService []
     let u := unitBytes 2 2 0 0 0 []
     s.bundleUp 0 = true ∧ s.inReset = false ∧ unitIntact u = true ∧ u.length = 32 ∧ fieldAt u 2 1 = 2 ∧
     bitOf (fieldAt u 3 1) 1 = true ∧ (s.link 0).txq = [] ∧ s.on .VSN_LSTAT_INIT_DONE 0 = false ∧
     after (.linkctl 0 u) s (fun t => t.on .VSN_LSTAT_INIT_DONE 0) = true) := by decide +kernel
theorem test_BundleResetKeepsLanes_premises :
    let s := sWith [(.VSN_SSTAT_STATE, 4, ssOpen), (.VSN_SSTAT_BUNDLE, 4, 0)] linkUp
    s.bundleUp 0 = true ∧ s.rd .VSN_SSTAT_STATE 4 = ssOpen ∧ s.rd .VSN_SSTAT_BUNDLE 4 = 0 ∧
    after (.vlkBctlReset 0) s (fun t => t.rd .VSN_SSTAT_STATE 4 == ssDetached && t.rd .VSN_LCLIMIT_LIMIT 0 == t.rd .VSN_LBUF_FREE 0 &&
      !t.on .VSN_LSTAT_INIT_DONE 0 && decide (t.lanes = s.lanes)) = true := by decide +kernel
theorem test_BundleReset_down : after (.vlkBctlReset 0) (sWith [(.VSN_SSTAT_STATE, 4, ssOpen), (.VSN_SSTAT_BUNDLE, 4, 0)])
    (fun t => t.rd .VSN_SSTAT_STATE 4 == ssDetached && t.rd .VLK_BSTAT_STATE 0 == 0) = true := by decide +kernel
theorem test_TransceiverPower_limits :
    after (.transceiverInserted 2 170) base (fun t => t.rd .MOD_OPT_POWERED == 4) = true ∧
    after (.transceiverInserted 2 171) base (fun t => t.rd .MOD_OPT_POWERED == 0 && t.on .MOD_EVT_OPTREJ) = true ∧
    after (.transceiverRemoved 0) (inService []) (fun t => t.lnState 0 == lnRetry && t.lnState 1 == lnRetry) = true := by decide +kernel
theorem test_TransceiverPower_outside :
    let s := sWith [(.VLK_STAT_STATE, 20, lnStandby), (.VLK_STAT_STATE, 21, lnStandby)]
    after (.transceiverRemoved 2) s (fun t => t.on .FLT_GSTAT_OUTSIDE && t.lnState 20 == lnRetry) = true ∧
    after (.transceiverRemoved 2) (s.wr .VLK_STAT_STATE 21 lnOff) (fun t => !t.on .FLT_GSTAT_OUTSIDE) = true := by decide +kernel

theorem test_LaneModeWrites_powers :
    base.cageRejected 0 = false ∧ base.homeOn 0 = true ∧ base.homeOn 20 = true ∧ (sWith [(.VLK_BCTL_EN, 0, 0)]).homeOn 3 = false ∧
    (sWith [(.MOD_OPT_PRESENT, 0, 1)]).cageRejected 7 = true ∧ (sWith [(.MOD_OPT_PRESENT, 0, 1)]).cageRejected 8 = false ∧
    after (.vlkCtlMode 0 1) base (fun t => t.lnState 0 == lnNegotiate) = true ∧
    after (.vlkCtlMode 3 1) (sWith [(.VLK_BCTL_EN, 0, 0)]) (fun t => t.lnState 3 == lnOff) = true ∧
    (let s := sWith [(.VLK_STAT_STATE, 0, lnTest), (.VLK_STAT_TESTRET, 0, 1)]
     s.on .VLK_STAT_TESTRET 0 = true ∧ after (.vlkCtlMode 0 1) s (fun t => t.lnState 0 == lnRetired) = true) ∧
    after (.vlkCtlMode 0 1) (sWith [(.VLK_STAT_STATE, 0, lnTest)]) (fun t => t.lnState 0 == lnNegotiate && (t.lane 0).spare) = true := by
  decide +kernel
theorem test_LaneLadder_gather :
    let s := ladder [(.VLK_STAT_STATE, 1, lnNegotiate), (.VLK_STAT_STATE, 2, lnNegotiate), (.VLK_PEERLANE_MAXRATE, 1, 3)] { offered := true }
    (s.bundle 0).gathering = true ∧ s.gathered 0 1 = true ∧ s.gathered 0 2 = false ∧
    after (.offerGatherTimeout 0) s (fun t => (t.bundle 0).fixed == some (min 3 s.laneCap) && t.lnState 1 == lnCheck &&
      t.lnState 2 == lnNegotiate) = true := by decide +kernel
theorem test_LaneLossAndEpochs_roles :
    (let s : State := { inService [] with lanes := [(0, { releasing := true })] }
     (s.lane 0).releasing = true ∧ after (.laneLossOfLock 0) s (fun t => t.lnState 0 == lnTest) = true) ∧
    (let s : State := { sWith [(.VLK_STAT_STATE, 5, lnAlign), (.VLK_STAT_RATE, 5, 2), (.VLK_BSTAT_EPOCH, 1, 255)] with bundles := [(1, { fixed := some 2 })] }
     s.isSpare 5 = false ∧ s.bundleUp 1 = false ∧ (s.bundle 1).fixed = some (s.rd .VLK_STAT_RATE 5) ∧
     after (.alignDone 5 500) s (fun t => t.lnState 5 == lnService && t.rd .VLK_BSTAT_EPOCH 1 == 0 && t.posLane 1 1 == 5) = true) ∧
    (let s := sWith [(.VLK_STAT_STATE, 20, lnAlign)]
     (∀ b : BundleId, (s.bundle b.val).lost = false) ∧ after (.alignDone 20 500) s (fun t => t.lnState 20 == lnStandby) = true) ∧
    after (.alignDone 1 501) (sWith [(.VLK_STAT_STATE, 1, lnAlign)]) (fun t => t.lnState 1 == lnRetry) = true ∧
    (let c : EpochChange := { mask := 2, map := [31, 1, 31, 31], epoch := 1, planned := false, reason := 0, replace := [0xFF, 0xFF, 0xFF, 0xFF] }
     let s := inService [] { change := some c }
     (∀ i : Lane, (s.lane i.val).homing = false) ∧
     after (.epochMarker 0 1) s (fun t => t.rd .VLK_BSTAT_MASK 0 == 2 && t.posLane 0 1 == 1 && (t.bundle 0).change.isNone) = true ∧
     after (.epochTimeout 0) s (fun t => !t.on .VSN_LSTAT_INIT_DONE 0) = true) ∧
    after (.epochMarker 0 9) (inService []) (fun t => t.rd .VLK_BSTAT_EPOCH 0 == 9) = true := by decide +kernel
theorem test_LinkUnits_scan :
    (linkUp.link 0).lostEou = false ∧ endsEou ((dataUnit 0).dropLast) = false ∧ endsEou (dataUnit 0) = true ∧
    after (.dataUnit 0 (dataUnit 0).dropLast) linkUp (fun t => (t.link 0).lostEou && (t.link 0).rxq.isEmpty) = true ∧
    (let s : State := { linkUp with links := [(0, { linkUp.link 0 with lostEou := true })] }
     (s.link 0).lostEou = true ∧ after (.dataUnit 0 (dataUnit 0)) s (fun t => !(t.link 0).lostEou && (t.link 0).rxq.isEmpty) = true) := by
  decide +kernel
/-- Bundle 0 with all four positions, its stripe at `next` of round `rounds`. -/
def striped (rest : List Byte) (next rounds : Nat) : State :=
  { sWith [(.VLK_BSTAT_MASK, 0, 15), (.VLK_BSTAT_EPOCH, 0, 7)] with links := [(0, { tx := { set := 15, rest := rest, next := next, rounds := rounds } })] }
theorem test_LinkUnits_words :
    (striped [] 0 0).positionsOf 0 = [0, 1, 2, 3] ∧ linkUp.positionsOf 0 ≠ [] ∧
    ((striped [] 0 0).dealt 0 (List.replicate 40 1)).2.map (·.1) = [0, 1, 2, 3, 0] ∧
    ((striped [1, 2] 2 5).dealt 0 [3, 4, 5, 6, 7, 8, 9]).2 = [(2, .word [1, 2, 3, 4, 5, 6, 7, 8])] ∧
    ((striped [] 3 16383).dealt 0 (List.replicate 8 1)).2.map (·.1) = [3, 0, 1, 2, 3] := by decide +kernel

/-! ### The register space -/

theorem test_RegisterAccessesRefused_premises :
    regRow 0x318000 = none ∧ base.waits (acc 2 0x20000002 4) tyRead = false ∧ masterOk 2 = true ∧
    base.waits (acc 2 0x20000000 8) tyWrite = false ∧
    after (.registerWrite 2 0x20000 2 1) base (fun t => t.sent == [.access 2 false []] &&
      t.flt.waiting == [(mkFault srcFabric 1 1 0x20020000 2 1, 1)]) = true ∧
    after (.fabricWrite (acc 2 0x20000002 4) [0, 0, 0, 0]) base (fun t => t.sent == [.access 2 false []] &&
      decide (t = { base with regs := t.regs, flt := t.flt, sent := t.sent })) = true := by decide +kernel
theorem test_RegisterWrites_premises :
    (regRow 0x400008).isSome = true ∧ base.barHeld 1 = false ∧
    State.barHeld { base with modl := { base.modl with warm := true } } 0 = true ∧
    after (.registerWrite 1 0x400008 4 10) base (fun t => t.rd .VSN_RETAIN_SECONDS == 10) = true ∧
    after (.registerWrite 1 0x400008 4 9) base (fun t => t.rd .VSN_RETAIN_SECONDS == 600) = true ∧
    after (.registerWrite 1 0x680004 4 1800) base (fun t => t.rd .ENG_GOVCTL_TARGET == 1800) = true := by decide +kernel
theorem test_RegisterWrites_w1c :
    (regRow (Fld.DLR_EVT_DROP.at 0)).any (fun r => r.rw == 0 && r.wo == 0) = true ∧
    after (.registerWrite 1 (Fld.DLR_EVT_DROP.at 0) 4 0xFFFFFFFF) (base.flag .DLR_EVT_DROP) (fun t => !t.on .DLR_EVT_DROP) = true := by
  decide +kernel
theorem test_ReadClears_premises :
    let s := sWith [(.DLR_DROP_COUNT, 0, 7)]
    let o := Fld.DLR_DROP_COUNT.at 0
    (regRow o).any (fun r => r.rc != 0) = true ∧ o % 4 = 0 ∧ s.barHeld 1 = false ∧ isLow o = false ∧
    tget none s.fab.latch (latchKey 1 o) = none ∧
    after (.readClear 1 o) s (fun t => t.rd .DLR_DROP_COUNT == 0 && t.sent == [.regRead 1 o 7]) = true := by decide +kernel
theorem test_LowWordReadsLatch_premises :
    let s := base.wr64 .OUT_HBASE 0 (5 * 2 ^ 32 + 6)
    let o := Reg64.OUT_HBASE.base
    s.barHeld 2 = false ∧ (regRow o).isSome = true ∧ isLow o = true ∧ o ≠ 0x200000 ∧ tget none s.fab.latch (latchKey 2 o) = none ∧
    isLow (o + 4) = false ∧ tget none s.fab.latch (latchKey 2 0x200000) = none ∧
    after (.lowWordRead 2 o) s (fun t => t.sent == [.regRead 2 o 6] && tget none t.fab.latch (latchKey 2 (o + 4)) == some 5 &&
      after (.lowWordRead 2 (o + 4)) (t.wr64 .OUT_HBASE 0 0) (fun u => u.sent.head? == some (.regRead 2 (o + 4) 5))) = true := by
  decide +kernel
theorem test_RegisterActions_limits :
    after (.fabApbase (BitVec.ofNat 64 (119 * 2 ^ 30))) base (fun t => t.rd64 .FAB_APBASE == 119 * 2 ^ 30) = true ∧
    after (.fabApbase (BitVec.ofNat 64 (120 * 2 ^ 30))) base (fun t => t.on .FAB_EVT_APREJ) = true ∧
    (let s := { base with timeb := { base.timeb with trimLow := some 1 } }
     s.timeb.trimLow = some 1 ∧ after (.timTrimHigh 0) s (fun t => t.rd64 .TIM_TRIM == 1) = true ∧
     after (.timTrimHigh 0x7FFFFFFF) s (fun t => t.on .TIM_EVT_TRIMREJ) = true) := by decide +kernel

/-! ### Sessions, flows and frames -/

/-- A frame of module 9 (R112). -/
def frm (type sess flow epoch seq count chbase shape group : Nat) (payload : List Byte) : List Byte :=
  leBytes 1 1 ++ leBytes 1 type ++ leBytes 1 9 ++ leBytes 1 sess ++ leBytes 2 flow ++ leBytes 1 epoch ++ leBytes 1 0 ++ leBytes 4 seq ++
    leBytes 8 count ++ leBytes 3 chbase ++ leBytes 1 shape ++ leBytes 1 group ++ leBytes 1 0 ++ leBytes 2 payload.length ++ leBytes 36 0 ++
    payload ++ leBytes 4 0
/-- The endpoint behind bundle 0 is 5, and frame `f` is the next of the bundle. -/
def withFrame (l : List (Fld × Nat × Nat)) (f : List Byte) : State :=
  { sWith ([(.MOD_ID_ID, 0, 9), (.VLK_BPEER_ENDPOINT, 0, 5)] ++ l) with links := [(0, { rxq := [f] })] }
def sopenOf (ep tok : Nat) : List Byte := frm 0x10 0 0 0 0 0 0 0 0 (leBytes 4 ep ++ leBytes 4 77 ++ leBytes 8 tok ++ leBytes 16 0)

theorem test_SessionOpens_opens :
    let f := sopenOf 5 0
    let s := withFrame [(.VSN_CTL_OPEN_EN, 0, 1), (.VSN_SSTAT_STATE, 0, ssOpen)] f
    s.isNext 0 f = true ∧ formOk f 0x10 32 = true ∧ fModule f = s.moduleId ∧ s.moduleId ≠ 255 ∧
    fieldAt (fPayload f) 0 4 = s.rd .VLK_BPEER_ENDPOINT 0 ∧ (∀ k : SessionId, s.rd .VSN_SSTAT_STATE k.val ≠ ssReadyWait) ∧
    s.on .VSN_CTL_OPEN_EN = true ∧ s.rd .VSN_SSTAT_STATE 1 = ssFree ∧
    (∀ k : SessionId, k < 1 → s.rd .VSN_SSTAT_STATE k.val ≠ ssFree) := by decide +kernel
theorem test_SessionOpens_resumes :
    let f := sopenOf 5 99
    let s := (withFrame [(.VSN_SSTAT_STATE, 2, ssDetached), (.VSN_SSTAT_EPOCH, 2, 255)] f).wr64 .VSN_STOKEN 2 99
    s.isNext 0 f = true ∧ formOk f 0x10 32 = true ∧ s.rd .VSN_SSTAT_STATE 2 ≠ ssFree ∧ s.rd64 .VSN_STOKEN 2 = 99 ∧
    (∀ k : SessionId, k < 2 → s.rd .VSN_SSTAT_STATE k.val = ssFree) ∧ (s.session 2).coldKind = 0 ∧
    after (.sopen 0 f) s (fun t => t.rd .VSN_SSTAT_STATE 2 == ssReadyWait && t.rd .VSN_SSTAT_EPOCH 2 == 0) = true := by decide +kernel
/-- Every way to be refused: reasons 4, 5, 3, 1 and 2 of R127. -/
theorem test_SessionOpens_refuses :
    (withFrame [(.MOD_ID_ID, 0, 255)] (sopenOf 5 0)).moduleId = 255 ∧ (withFrame [(.MOD_ID_ID, 0, 8)] (sopenOf 5 0)).moduleId = 8 ∧
    ((withFrame [] (sopenOf 6 0)).isNext 0 (sopenOf 6 0) = true ∧ formOk (sopenOf 6 0) 0x10 32 = true ∧
      fieldAt (fPayload (sopenOf 6 0)) 0 4 ≠ (withFrame [] (sopenOf 6 0)).rd .VLK_BPEER_ENDPOINT 0) ∧
    (withFrame [(.VSN_CTL_OPEN_EN, 0, 0)] (sopenOf 5 0)).on .VSN_CTL_OPEN_EN = false ∧
    (let s := withFrame [(.VSN_CTL_OPEN_EN, 0, 1)] (sopenOf 5 0)
     let lo := Fld.VSN_SSTAT_STATE.at 0
     let slots : Tbl Word := (List.range 256).map (fun n => (Fld.VSN_SSTAT_STATE.at n, 2))
     let r := s.regs.filter (fun x => x.1 < lo) ++ slots ++ s.regs.filter (fun x => Fld.VSN_SSTAT_STATE.at 255 < x.1)
     let t : State := { s with regs := r }
     t.isNext 0 (sopenOf 5 0) = true ∧ t.on .VSN_CTL_OPEN_EN = true ∧ fieldAt (fPayload (sopenOf 5 0)) 0 4 = t.rd .VLK_BPEER_ENDPOINT 0 ∧
     t.moduleId = 9 ∧ ∀ k : SessionId, t.rd .VSN_SSTAT_STATE k.val = ssOpen) ∧
    (∀ k : SessionId, (withFrame [] (sopenOf 5 7)).rd .VSN_SSTAT_STATE k.val = ssFree) ∧
    after (.sopen 0 (sopenOf 5 7)) (withFrame [] (sopenOf 5 7)) (fun t => (t.outFrames 0).map (fun f => fieldAt (fPayload f) 0 1) == [2]) = true := by
  decide +kernel
/-- Session 3 of endpoint 5 over bundle 0, in a state. -/
def sess3 (st : Nat) (f : List Byte) (l : List (Fld × Nat × Nat) := []) : State :=
  withFrame ([(.VSN_SSTAT_STATE, 3, st), (.VSN_SSTAT_BUNDLE, 3, 0), (.VSN_SSTAT_EPOCH, 3, 1), (.VSN_SPEER_ENDPOINT, 3, 5)] ++ l) f
theorem test_SessionStates_frames :
    (let f := frm 0x13 3 0 1 0 0 0 0 0 []
     let s := sess3 ssReadyWait f
     s.isNext 0 f = true ∧ (s.ctlCheck 0 f 0x13 0 ssReadyWait).isNone = true ∧ fSession f < 256 ∧
     after (.sready 0 f) s (fun t => t.rd .VSN_SSTAT_STATE 3 == ssOpen) = true) ∧
    (let f := frm 0x14 3 0 1 0 0 0 0 0 []
     let s := sess3 ssOpen f [(.VSN_FSTAT_STATE, 6, flActive), (.VSN_FSTAT_SESSION, 6, 3)]
     s.isNext 0 f = true ∧ (s.ctlCheck 0 f 0x14 0 ssOpen).isNone = true ∧
     after (.sclose 0 f) s (fun t => t.rd .VSN_SSTAT_STATE 3 == ssFree && t.rd .VSN_FSTAT_STATE 6 == flFree) = true) := by decide +kernel
theorem test_SessionStates_slots :
    (sess3 ssOpen []).rd .VSN_SSTAT_STATE 3 ≠ ssFree ∧ (sess3 ssReadyWait []).rd .VSN_SSTAT_STATE 3 = ssReadyWait ∧
    (sess3 ssResetWait []).rd .VSN_SSTAT_STATE 3 = ssResetWait ∧
    after (.retentionTimeOut 3) (sess3 ssDetached []) (fun t => t.rd .VSN_SSTAT_STATE 3 == ssFree && (t.session 3).lastEpoch == 1) = true ∧
    after (.vsnSctlReset 3) (sess3 ssOpen []) (fun t => t.rd .VSN_SSTAT_STATE 3 == ssResetWait && (t.outFrames 0).map fType == [0x15]) = true ∧
    after .acceptAckTimer (sess3 ssOpen []) (fun t => (t.outFrames 0).map (fun f => (fType f, fSession f)) == [(0x30, 3)]) = true := by
  decide +kernel

/-- Flow 6 of session 3: group 0, channel 5, shape 0, sequence 10 at counter 160 next. -/
def flow6 (st : Nat) (f : List Byte) (x : FlowX := { h := 10, exp := 160 }) : State :=
  { sess3 ssOpen f [(.VSN_FSTAT_STATE, 6, st), (.VSN_FSTAT_SESSION, 6, 3), (.VSN_FCHBASE_CHBASE, 6, 5), (.VSN_FNEXT_NEXT, 6, 10)] with
    flows := [(6, x)] }
theorem test_FlowStates_freq :
    let f := frm 0x20 3 0 1 0 0 0 0 0 (leBytes 1 0 ++ leBytes 1 0 ++ leBytes 3 5 ++ leBytes 1 0 ++ leBytes 2 77 ++ leBytes 4 10 ++
      leBytes 2 0xFFFF ++ leBytes 2 0 ++ leBytes 8 160 ++ leBytes 8 0)
    let s := { sess3 ssOpen f [(.VLK_BSTAT_MASK, 0, 15), (.VLK_BSTAT_RATE, 0, 3)] with
      timeb := { base.timeb with map := some ⟨0, 0, 1000, 1⟩ } }
    s.isNext 0 f = true ∧ s.suspended = false ∧ (s.ctlCheck 0 f 0x20 32 ssOpen).isNone = true ∧ s.flowList = [] ∧
    s.timeb.map.isSome = true ∧ shListed (fieldAt (fPayload f) 1 1 % 64) = true ∧ fieldAt (fPayload f) 12 2 = 0xFFFF ∧
    fieldAt (fPayload f) 16 8 % 16 = 0 ∧ s.capacityOk 0 0 [] = true ∧
    after (.freq 0 f) s (fun t => t.rd .VSN_FSTAT_STATE 0 == flActive && t.rd .VSN_FNEXT_NEXT 0 == 10) = true := by decide +kernel
theorem test_FlowStates_frames :
    (let f := frm 0x23 3 0 1 0 0 0 0 0 (leBytes 2 6 ++ leBytes 30 0)
     let s := flow6 flActive f
     s.isNext 0 f = true ∧ s.suspended = false ∧ (s.ctlCheck 0 f 0x23 32 ssOpen).isNone = true ∧ fieldAt (fPayload f) 0 2 = 6 ∧
     s.rd .VSN_FSTAT_STATE 6 ≠ flFree ∧ s.rd .VSN_FSTAT_SESSION 6 = fSession f ∧
     after (.frelease 0 f) s (fun t => t.rd .VSN_FSTAT_STATE 6 == flFree) = true) ∧
    (let f := frm 0x24 3 0 1 0 0 0 0 0 (leBytes 2 6 ++ leBytes 2 0 ++ leBytes 4 12 ++ leBytes 24 0)
     let s := flow6 flActive f
     s.isNext 0 f = true ∧ (s.ctlCheck 0 f 0x24 32 ssOpen).isNone = true ∧ fieldAt (fPayload f) 0 2 = 6 ∧
     seqDiff (fieldAt (fPayload f) 4 4) (s.rd .VSN_FNEXT_NEXT 6) < 2 ^ 31 ∧
     after (.fskip 0 f) s (fun t => t.rd .VSN_FNEXT_NEXT 6 == 12 && (t.flow 6).exp == 192) = true) ∧
    (let f := frm 2 3 6 1 10 160 5 0 0 []
     let s := flow6 flSuspect f
     s.isNext 0 f = true ∧ s.suspended = false ∧
     (s.sampleCheck 0 f (fVersion f == 1 && fType f == 2 && shListed (fShape f) && fPlen f == 0 && f.length == 68)).isNone = true ∧
     (s.flowCheck 0 f).isNone = true ∧ s.rd .VSN_FSTAT_STATE (fFlow f) = flSuspect ∧ fSeq f = s.rd .VSN_FNEXT_NEXT (fFlow f) ∧
     fCount f = (s.flow (fFlow f)).exp ∧ fGroup f = s.rd .VSN_FSTAT_GROUP (fFlow f) ∧ fChbase f = s.rd .VSN_FCHBASE_CHBASE (fFlow f) ∧
     fShape f = s.flowShape (fFlow f) ∧ after (.keepalive 0 f) s (fun t => t.rd .VSN_FSTAT_STATE 6 == flActive) = true) ∧
    after (.flowSuspect 6) (flow6 flActive []) (fun t => t.rd .VSN_FSTAT_STATE 6 == flSuspect) = true := by decide +kernel

/-- A C4 plan of one group and one channel, 5, with sub-integrations of 4096 samples, dealt at counter 0. -/
def planBytes : Tbl Byte := [(1, 12), (24, 1), (48, 1), (2 ^ 32, 5)]
def planA : ActivePlan :=
  { slot := 0, id := 1, data := planBytes, d := 0, e := 96, deck0 := some 0, deck1 := some 262144, acc0 := some 0x100000,
    acc1 := some 0x200000 }
def plan0 (s : State) : State := { s with plans := { s.plans with active := some planA } }
def dataFrame (seq count : Nat) : List Byte := frm 1 3 6 1 seq count 5 0 0 (List.replicate 1024 0x21)
/-- Flow 6 with that plan, its range channel open. -/
def dataState (f : List Byte) (x : FlowX := { h := 10, exp := 160 }) : State :=
  { plan0 (flow6 flActive f x) with deck := { base.deck with chans := [(0, { openAt := some 0 })] } }
/-- What `DataFrames` asks of every frame. -/
def dataPre (s : State) (f : List Byte) : Bool :=
  s.isNext 0 f && (s.sampleCheck 0 f (dataFormOk f)).isNone && (s.flowCheck 0 f).isNone && s.rd .VSN_FSTAT_STATE (fFlow f) == flActive &&
    (s.flow (fFlow f)).h == s.rd .VSN_FNEXT_NEXT (fFlow f) && (s.flow (fFlow f)).held.isEmpty
theorem test_DataFrames_accepted :
    let f := dataFrame 10 160
    let s := dataState f
    dataPre s f = true ∧ fSeq f = s.rd .VSN_FNEXT_NEXT 6 ∧ fCount f = (s.flow 6).exp ∧ fGroup f = s.rd .VSN_FSTAT_GROUP 6 ∧
    fChbase f = s.rd .VSN_FCHBASE_CHBASE 6 ∧ fShape f = s.flowShape 6 ∧ s.frameLate f = false ∧ s.futureFrom = none ∧
    s.awaitsDeal (fCount f) = false ∧ s.fmtBad f = false ∧ s.suspended = false ∧ s.inWindow f = true ∧
    (s.flag .OUT_STAT_STALL).suspended = true ∧ dataPre (s.flag .OUT_STAT_STALL) f = true ∧
    after (.data 0 f) s (fun t => t.rd .VSN_FNEXT_NEXT 6 == 11 && (t.flow 6).exp == 176 && tget 0 t.deck.presence 0 == 16) = true := by
  decide +kernel
theorem test_DataFrames_others :
    (let f := dataFrame 9 144
     dataPre (dataState f) f = true ∧ 2 ^ 31 ≤ seqDiff (fSeq f) 10 ∧
     after (.data 0 f) (dataState f) (fun t => t.rd .VSN_SDUP_COUNT 3 == 1) = true) ∧
    (let f := dataFrame 11 176
     dataPre (dataState f) f = true ∧ 1 ≤ seqDiff (fSeq f) 10 ∧ seqDiff (fSeq f) 10 < 2 ^ 31 ∧ ((dataState f).flow 6).nackAt = none ∧
     after (.data 0 f) (dataState f) (fun t => t.rd .VSN_SGAP_COUNT 3 == 1 && t.rd .VSN_FNEXT_NEXT 6 == 10) = true) ∧
    (let f := dataFrame 10 144
     dataPre (dataState f) f = true ∧ fSeq f = 10 ∧ fCount f ≠ ((dataState f).flow 6).exp ∧
     after (.data 0 f) (dataState f) (fun t => t.rd .VSN_FSTAT_STATE 6 == flFault) = true) := by decide +kernel
theorem test_HeldFrames_premises :
    let f := dataFrame 10 160
    let s := dataState [] { h := 11, exp := 160, held := [(0, f)] }
    (s.flow 6).held = [(0, f)] ∧ fFlow f = 6 ∧ s.suspended = false ∧ s.awaitsDeal (fCount f) = false ∧ s.frameLate f = false ∧
    s.fmtBad f = false ∧ s.inWindow f = true ∧
    State.frameLate { s with deck := { s.deck with closedTo := [(1024, 4096)] } } f = true ∧
    after (.heldFrameAcceptance 6) s (fun t => t.rd .VSN_FNEXT_NEXT 6 == 11) = true := by decide +kernel

theorem test_SessionOpens_again :
    let f := sopenOf 5 0
    let s := (withFrame [(.VSN_CTL_OPEN_EN, 0, 1), (.VSN_SSTAT_STATE, 2, ssReadyWait), (.VSN_SPEER_ENDPOINT, 2, 5), (.VSN_SSTAT_BUNDLE, 2, 4)] f).setSession 2
      { nonce := 77, answer := [(0x11, [1, 2])] }
    s.isNext 0 f = true ∧ s.rd .VSN_SSTAT_STATE 2 = ssReadyWait ∧ s.rd .VSN_SPEER_ENDPOINT 2 = 5 ∧ (s.session 2).nonce = fieldAt (fPayload f) 4 4 ∧
    (∀ k : SessionId, k < 2 → s.rd .VSN_SSTAT_STATE k.val ≠ ssReadyWait) ∧
    after (.sopen 0 f) s (fun t => t.rd .VSN_SSTAT_BUNDLE 2 == 0 && (t.outFrames 0).map fType == [0x11]) = true := by decide +kernel
/-- Acceptance suspended by an output stall. -/
def stalled (s : State) : State := s.flag .OUT_STAT_STALL
theorem test_SessionStates_suspended :
    let f := frm 0x14 3 0 1 0 0 0 0 0 []
    let s := stalled (sess3 ssOpen f)
    s.suspended = true ∧ s.isNext 0 f = true ∧ (sess3 ssOpen f).suspended = false ∧
    after (.sclose 0 f) s (fun t => decide (t = s)) = true ∧
    after (.retentionTimeOut 3) (stalled (sess3 ssDetached [])) (fun t => t.rd .VSN_SSTAT_STATE 3 == ssDetached && (t.session 3).closeDue == 7) = true ∧
    after (.vsnSctlClose 3) s (fun t => t.rd .VSN_SSTAT_STATE 3 == ssOpen && (t.session 3).closeDue == 6) = true := by decide +kernel
def freqOf (g sh cb fl anchor : Nat) : List Byte :=
  frm 0x20 3 0 1 0 0 0 0 0 (leBytes 1 g ++ leBytes 1 sh ++ leBytes 3 cb ++ leBytes 1 0 ++ leBytes 2 77 ++ leBytes 4 10 ++ leBytes 2 fl ++ leBytes 2 0 ++
    leBytes 8 anchor ++ leBytes 8 0)
/-- The REASON of the FREFUSE that answers a FREQ. -/
def frefused (s : State) (f : List Byte) : Option Nat :=
  match exec (.freq 0 f) s with
  | .next t => (t.outFrames 0).head?.bind (fun x => if fType x = 0x22 then some (fieldAt (fPayload x) 2 1) else none)
  | _ => none
/-- Session 3 is open with flow 6 at group 0 and channel 5; the map is set, and bundle 0 has a lane at 100 Gbit/s. -/
def freqState (f : List Byte) (l : List (Fld × Nat × Nat) := []) (map : Option Mapping := some ⟨0, 0, 1000, 1⟩) : State :=
  { sess3 ssOpen f ([(.VLK_BSTAT_MASK, 0, 15), (.VLK_BSTAT_RATE, 0, 3), (.VSN_FSTAT_STATE, 6, flActive), (.VSN_FSTAT_SESSION, 6, 3),
      (.VSN_FCHBASE_CHBASE, 6, 5)] ++ l) with timeb := { base.timeb with map := map } }
theorem test_FlowStates_refused :
    (let r := fun (f : List Byte) (l : List (Fld × Nat × Nat)) => frefused (freqState f l) f
     r (freqOf 64 0 8 0xFFFF 160) [] = some 3 ∧ r (freqOf 0 0 8 0xFFFF 161) [] = some 3 ∧ r (freqOf 0 0 5 0xFFFF 160) [] = some 6 ∧
     r (freqOf 0 0 5 0xFFFF 160) [(.VSN_FSTAT_SESSION, 6, 4), (.VSN_SPEER_ENDPOINT, 4, 8)] = some 4 ∧
     r (freqOf 0 0 8 0xFFFF 160) [(.VLK_BSTAT_MASK, 0, 0)] = some 2 ∧ r (freqOf 0 0 8 6 160) [] = some 5 ∧ r (freqOf 0 0 5 7 160) [] = some 5) ∧
    (let f := freqOf 0 0 8 0xFFFF 160
     frefused (freqState f [] none) f = some 7) ∧
    (let f := freqOf 0 0 8 0xFFFF 160
     let s := freqState f
     s.isNext 0 f = true ∧ s.suspended = false ∧ (s.ctlCheck 0 f 0x20 32 ssOpen).isNone = true ∧ (stalled s).suspended = true ∧
     after (.freq 0 f) (stalled s) (fun t => decide (t = stalled s)) = true) := by decide +kernel
theorem test_FlowStates_granted :
    (let f := freqOf 0 0 5 0xFFFF 160
     let s := freqState f [(.VSN_FSTAT_SESSION, 6, 4), (.VSN_SPEER_ENDPOINT, 4, 5)]
     s.capacityOk 0 0 [6] = true ∧
     after (.freq 0 f) s (fun t => t.on .VSN_EVT_TAKEOVER && t.rd .VSN_FSTAT_STATE 6 == flFree && t.rd .VSN_FSTAT_SESSION 0 == 3) = true) ∧
    (let f := freqOf 0 0 5 6 160
     let s := freqState f
     6 < 40960 ∧ s.rd .VSN_FSTAT_STATE 6 ≠ flFree ∧ s.rd .VSN_FSTAT_SESSION 6 = fSession f ∧ s.flowShape 6 = 0 ∧
     after (.freq 0 f) s (fun t => t.rd .VSN_FNEXT_NEXT 6 == 10 && (t.flow 6).exp == 160) = true) := by decide +kernel
theorem test_FlowStates_notOwned :
    let rel := fun (k : Nat) => frm 0x23 3 0 1 0 0 0 0 0 (leBytes 2 k ++ leBytes 30 0)
    let skip := fun (k q : Nat) => frm 0x24 3 0 1 0 0 0 0 0 (leBytes 2 k ++ leBytes 2 0 ++ leBytes 4 q ++ leBytes 24 0)
    let entry := fun (c : Instr) (s : State) => match exec c s with
      | .next t => (t.outFrames 0).map (fun f => (fPayload f).map (·.toNat))
      | _ => []
    entry (.frelease 0 (rel 40960)) (flow6 flActive (rel 40960)) = [(ackEntry 40960 5 1 0).map (·.toNat)] ∧
    entry (.frelease 0 (rel 6)) ((flow6 flActive (rel 6)).wr .VSN_FSTAT_SESSION 6 4) = [(ackEntry 6 5 2 0).map (·.toNat)] ∧
    entry (.fskip 0 (skip 7 3)) (flow6 flActive (skip 7 3)) = [(ackEntry 7 5 1 3).map (·.toNat)] ∧
    entry (.fskip 0 (skip 6 3)) ((flow6 flActive (skip 6 3)).wr .VSN_FSTAT_SESSION 6 4) = [(ackEntry 6 5 2 3).map (·.toNat)] ∧
    2 ^ 31 ≤ seqDiff 9 10 ∧ after (.fskip 0 (skip 6 9)) (flow6 flActive (skip 6 9)) (fun t => t.rd .VSN_FNEXT_NEXT 6 == 10) = true ∧
    (flow6 flSilent []).rd .VSN_FSTAT_STATE 6 ≠ flActive ∧
    after (.flowSilent 6) (flow6 flSuspect []) (fun t => t.rd .VSN_FSTAT_STATE 6 == flSilent) = true := by decide +kernel
theorem test_HeldFrames_others :
    let f := dataFrame 10 160
    let x : FlowX := { h := 12, exp := 160, held := [(0, f), (0, dataFrame 11 176)] }
    let s := dataState [] x
    (let u : State := { s with deck := { s.deck with chans := [] } }
     u.waitsOpen f = true ∧ s.waitsOpen f = false ∧ after (.heldFrameAcceptance 6) u (fun t => decide (t = u)) = true) ∧
    (let g := frm 1 3 6 1 10 160 5 32 0 (List.replicate 2048 0x21)
     let u := dataState [] { x with held := [(0, g), (0, dataFrame 11 176)] }
     u.fmtBad g = true ∧ u.waitsOpen g = false ∧ u.frameLate g = false ∧
     after (.heldFrameAcceptance 6) u (fun t => (t.flow 6).held.isEmpty && (t.flow 6).h == 10 && t.rd .VSN_FNEXT_NEXT 6 == 10) = true) ∧
    (let u : State := { s with deck := { s.deck with closedTo := [(1024, 4096)] } }
     u.waitsOpen f = false ∧ after (.heldFrameAcceptance 6) u (fun t => (t.flow 6).held.length == 0 && (t.flow 6).exp == 4096) = true) := by
  decide +kernel
/-- Every flow context is assigned, to session 0 with group 0 and channel 0. -/
def allFlows (first n : Nat) : Tbl Word := (List.range' first n).map (fun k => (0x410000 + 16 * k, 1))
theorem allFlows_get (first n o : Nat) : tget 0 (allFlows first n) o =
    if 0x410000 + 16 * first ≤ o ∧ o < 0x410000 + 16 * (first + n) ∧ o % 16 = 0 then 1 else 0 := by
  induction n generalizing first with
  | zero => rw [if_neg (by omega)]; rfl
  | succ n ih =>
    simp only [allFlows, List.range'_succ, List.map_cons, tget] at ih ⊢
    rw [ih]
    split_ifs <;> first | rfl | omega
def fullState (f : List Byte) : State :=
  let s := freqState f [(.VSN_FSTAT_STATE, 6, flFree), (.VSN_FSTAT_SESSION, 6, 0), (.VSN_FCHBASE_CHBASE, 6, 0)]
  { s with regs := s.regs ++ allFlows 0 40960 }
theorem tget_append_above (a b : Tbl Word) (o : Nat) (h : ∀ x ∈ a, x.1 < 0x410000) (ho : 0x410000 ≤ o) : tget 0 (a ++ b) o = tget 0 b o := by
  induction a with
  | nil => rfl
  | cons x a ih =>
    have := h x (by simp)
    rw [List.cons_append, tget, if_neg (by omega), ih (fun y hy => h y (by simp [hy]))]
theorem resetWord_flows {o : Nat} (h1 : 0x410000 ≤ o) (h2 : o < 0x4B0000) : resetWord o = 0 := by
  have : ∀ r ∈ resetRows, r.1 + r.2.1 * r.2.2.1 < 0x410000 ∧ r.1 < 0x410000 ∨ 0x4B0000 ≤ r.1 := by decide +kernel
  have h : resetRows.find? (fun r => inRegs r.1 r.2.1 r.2.2.1 o) = none := by
    rw [List.find?_eq_none]
    intro r hr
    unfold inRegs
    rcases this r hr with h | h
    · split
      · simp; omega
      · have := Nat.div_mul_le_self (o - r.1) r.2.1
        simp only [Bool.and_eq_true, decide_eq_true_eq, beq_iff_eq, not_and, not_lt]
        intro _ _
        by_contra hc
        have h3 : (o - r.1) / r.2.1 * r.2.1 < r.2.2.1 * r.2.1 := Nat.mul_lt_mul_of_pos_right (by omega) (by omega)
        have h4 : (o - r.1) % r.2.1 = 0 := by assumption
        have := Nat.div_add_mod (o - r.1) r.2.1
        rw [h4, Nat.mul_comm] at this
        rw [Nat.mul_comm r.2.2.1] at h3
        omega
    · simp; omega
  unfold resetWord
  rw [h]
theorem fullState_word (f : List Byte) {o : Nat} (h1 : 0x410000 ≤ o) (h2 : o < 0x4B0000) :
    (fullState f).word o = if o % 16 = 0 then 1 else 0 := by
  have h := tget_append_above (freqState f [(.VSN_FSTAT_STATE, 6, flFree), (.VSN_FSTAT_SESSION, 6, 0), (.VSN_FCHBASE_CHBASE, 6, 0)]).regs
    (allFlows 0 40960) o (show ∀ x ∈ (freqState [] [(.VSN_FSTAT_STATE, 6, flFree), (.VSN_FSTAT_SESSION, 6, 0), (.VSN_FCHBASE_CHBASE, 6, 0)]).regs,
      x.1 < 0x410000 by decide +kernel) h1
  show tget 0 (_ ++ _) o ^^^ resetWord o = _
  rw [h, allFlows_get, resetWord_flows h1 h2]
  split_ifs <;> first | rfl | omega
/-- Every context is taken, and none by a flow that the request would displace (R136, reason 1). -/
theorem test_FlowStates_full :
    let f := freqOf 0 0 8 0xFFFF 160
    let s := fullState f
    (s.isNext 0 f = true ∧ s.suspended = false ∧ (s.ctlCheck 0 f 0x20 32 ssOpen).isNone = true ∧ s.timeb.map.isSome = true) ∧
    (∀ o, overlaps 0 8 0 (s.rd .VSN_FSTAT_GROUP o) (s.rd .VSN_FCHBASE_CHBASE o) (s.flowShape o) = false ∨ o ∉ s.flowList) ∧
    ∀ k, k < 40960 → k ∈ s.flowList := by
  intro f s
  refine ⟨by decide +kernel, fun o => ?_, fun k hk => ?_⟩
  · by_cases ho : o < 40960
    · left
      have h1 := fullState_word f (o := 0x410000 + 16 * o) (by omega) (by omega)
      have h2 := fullState_word f (o := 0x410008 + 16 * o) (by omega) (by omega)
      rw [if_pos (by omega)] at h1
      rw [if_neg (by omega)] at h2
      simp only [s, State.flowShape, State.rd, Fld.at, Fld.VSN_FSTAT_GROUP, Fld.VSN_FCHBASE_CHBASE, Fld.VSN_FSTAT_CHCODE, Fld.VSN_FSTAT_SCODE,
        Fld.VSN_FSTAT_FMT, h1, h2]
      decide
    · right
      simp only [State.flowList, List.mem_filterMap, not_exists, not_and]
      rintro x - hx
      split at hx
      · simp only [Option.some.injEq] at hx; omega
      · cases hx
  · simp only [State.flowList, List.mem_filterMap]
    refine ⟨0x410000 + 16 * k, ?_, ?_⟩
    · simp only [s, fullState, tkeys, List.map_append, List.mem_append, allFlows, List.map_map, List.mem_map, List.mem_range']
      exact .inr ⟨k, ⟨k, hk, by omega⟩, rfl⟩
    · have h1 := fullState_word f (o := 0x410000 + 16 * k) (by omega) (by omega)
      rw [if_pos (by omega)] at h1
      have h3 : (0x410000 + 16 * k - 0x410000) / 16 = k := by omega
      rw [h3, if_pos]
      refine ⟨by omega, by omega, by omega, ?_⟩
      simp only [s, State.rd, Fld.at, Fld.VSN_FSTAT_STATE, h1]
      decide

/-! ### The deck, the cut and the engines -/

/-- The state with that plan, its range channel `x` at counter 0, and flow 6 expecting counter `exp`. -/
def deckState (x : RangeChan) (exp : Nat) (fl : Nat := flActive) : State :=
  { plan0 (flow6 fl [] { h := 10, exp := exp }) with
    deck := { base.deck with chans := [(0, x)] }
    timeb := { base.timeb with map := some ⟨0, 0, 1000, 1⟩ } }
theorem test_RangeChannels_close :
    (let s := deckState { openAt := some 0 } 4096
     s.planAt 0 = some planA ∧ s.mayClose planA 0 0 = true ∧ (pGroups planA.data).map (fun g => s.delivered g 5 4096) = [some true] ∧
     pChanOf planA.data 0 = 5 ∧ after (.rangeChannelClose 0 0) s (fun t => (t.chan 0 0).closed && t.closedTo planA 0 == 4096) = true) ∧
    (let s := deckState { openAt := some 0 } 4096 flSilent
     s.mayClose planA 0 0 = true ∧ (pGroups planA.data).map (fun g => s.delivered g 5 4096) = [none] ∧ (s.timeOf 4096).isSome = true) ∧
    (let s := deckState { openAt := some 0 } 4080
     (pGroups planA.data).map (fun g => s.delivered g 5 4096) = [some false] ∧ s.paused = false ∧
     (s.deadlineOf planA 0 0).isSome = true ∧
     after (.deckDeadline 0 0) s (fun t => (t.chan 0 0).closed && t.rd .CUT_DLCLOSE_COUNT == 1) = true) := by decide +kernel
theorem test_RangeChannels_cut :
    (let s := (deckState { openAt := some 0, closed := true } 4096).wr .ENG_STAT_STATE 7 egActive
     s.deck.cutT = 0 ∧ s.deck.cutCh = 0 ∧ s.planAt 0 = some planA ∧ (s.chan 0 0).closed = true ∧ (s.chan 0 0).cut = false ∧
     s.frozen = false ∧ s.inReset = false ∧ s.noLoading = true ∧ s.served = [7] ∧ (s.eng 7).inbuf = []) ∧
    (let s := deckState { openAt := some 0, closed := true, cut := true, merged := true, stats := true } 4096
     s.planAt 0 = some planA ∧ (s.chan 0 0).cut = true ∧ s.releasedTo planA 0 = 0 ∧ s.finished planA 0 0 = true ∧
     pS planA.data = 4096 ∧ after (.rangeChannelRelease 0 0) s (fun t => t.releasedTo planA 0 == 4096) = true) := by decide +kernel

/-- Engine 7 holds position 0 of a plan. -/
def engState (data : Tbl Byte) (x : Engine) (l : List (Fld × Nat × Nat) := []) : State :=
  { sWith ([(.ENG_STAT_STATE, 7, egActive), (.ENG_STAT_POSITION, 7, 0), (posFld 0, 0, 7)] ++ l) with
    plans := { base.plans with active := some { planA with data := data } }, engs := [(7, x)]
    tricks := { base.tricks with cur := some 0 } }
/-- That plan with one beam, detected as P32 with D = 1024. -/
def beamPlan : Tbl Byte := [(1, 12), (24, 1), (48, 1), (50, 1), (2 ^ 32, 5), (3 * 2 ^ 32 + 3, 1), (3 * 2 ^ 32 + 4, 2)]
theorem test_EngineWork_premises :
    (let s := engState planBytes { inbuf := [⟨0, 0, false⟩] }
     s.rd .ENG_STAT_STATE 7 = egActive ∧ s.frozen = false ∧ s.inReset = false ∧ s.rd .ENG_STAT_BANK 7 = 0 ∧
     (s.planAt 0).isSome = true ∧ s.bankDone 7 0 = true ∧ s.bankFree 7 1 = true ∧
     after (.allot 7) s (fun t => t.rd .ENG_STAT_BANK 7 == 1 && (t.eng 7).bank1 == some (0, 0)) = true) ∧
    (let s := engState planBytes { bank0 := some (0, 0), done := [(0, true)] }
     (s.eng 7).bank 0 = some (0, 0) ∧ unitKind planBytes 0 = .hand 0 0 ∧
     (handRuns planA 0 0 0).find? (fun x => !tget false (s.eng 7).done (runKey 0 x.1 x.2)) = some (0, 1)) ∧
    (let s := engState beamPlan { bank0 := some (0, 0) } [(.ENG_STAT_POSITION, 7, 1)]
     unitKind beamPlan 1 = .beam 0 0 ∧
     (handRuns { planA with data := beamPlan } 0 0 1).find? (fun x => !tget false (s.eng 7).done (runKey 0 x.1 x.2)) = some (1, 0)) := by
  decide +kernel
/-- Two groups: three hands. -/
def twoGroups : Tbl Byte := [(1, 12), (24, 3), (48, 1), (2 ^ 32, 5)]
def allRuns : Tbl Bool := (List.range 16).map (fun r => (r, true))
/-- The clauses of `Merges`: another hand waits, in the trick's first merge and in a later one; the last hand. -/
theorem test_Merges_premises :
    ([(0, 0), (4096, 4)].all fun (x : Nat × Nat) =>
      let a := x.1
      let p : ActivePlan := { planA with data := twoGroups }
      let s : State := { engState twoGroups { bank0 := some (a, 0), done := allRuns } with
        deck := { base.deck with chans := [(1024 * (a / 4096), { cut := true })] } }
      decide (s.planAt a = some p) && decide (unitKind twoGroups 0 = .hand 0 0) && decide (s.trickBuf a = some (0, 0)) &&
      decide (p.acc 0 = some 0x100000) && a % pS twoGroups == 0 && decide (0 < pU twoGroups) && (s.chan a 0).cut &&
      !(s.chan a 0).merged && !bitOf (s.chan a 0).units 0 && !s.inReset && !s.frozen && s.partDone p a 0 (leadOf p a 0 0) 0 &&
      s.partDone p a 0 (helperOf p a 0 0) 0 && (handUnits twoGroups).any (fun v => v != 0 && !bitOf (s.chan a 0).units v) &&
      decide (a = 0 ∨ ∀ r : Fin 64, s.hbmPoisoned (0x100000 + 1024 * r.val) 1024 = false ∧
        tget 0 s.hbm.tag (0x100000 / 1024 + r.val) ≠ a / pS twoGroups % 65536)) = true ∧
    (let s : State := { engState planBytes { bank0 := some (0, 0), done := allRuns } with
       deck := { base.deck with chans := [(0, { cut := true })] } }
     s.partDone planA 0 0 (leadOf planA 0 0 0) 0 = true ∧ handUnits planBytes = [0]) := by decide +kernel
theorem test_EngineRetirement_premises :
    (let s := engState planBytes {} [(.ENG_STAT_STATE, 9, egStandby), (.ENG_GCTL_AUTOSUBST, 0, 1)]
     s.inService 7 = true ∧ s.rd .ENG_STAT_POSITION 7 < 96 ∧ s.on .ENG_GCTL_AUTOSUBST = true ∧ s.standby = some 9) ∧
    (sWith [(.ENG_STAT_STATE, 7, egRetired)]).rd .ENG_STAT_STATE 7 = egRetired ∧
    (sWith [(.ENG_STAT_STATE, 7, egSelftest)]).rd .ENG_STAT_STATE 7 = egSelftest ∧
    ((engState planBytes {} [(.ENG_STAT_STATE, 7, egLoading)]).rd .ENG_STAT_STATE 7 = egLoading ∧
      (engState planBytes {} [(.ENG_STAT_STATE, 7, egLoading)]).rd .ENG_STAT_POSITION 7 < 96) ∧
    after (.spareArrayCheckDone 7 true) (engState planBytes {} [(.ENG_STAT_STATE, 7, egLoading)])
      (fun t => t.rd .ENG_STAT_STATE 7 == egActive && t.engineAt 0 == 7) = true ∧
    after (.engineSelftestDone 7 false) (sWith [(.ENG_STAT_STATE, 7, egSelftest)]) (fun t => t.rd .ENG_STAT_STATE 7 == egRetired) = true := by
  decide +kernel
theorem test_PaceGovernor_premises :
    (let s := engState planBytes {} [(.ENG_GOVCTL_TARGET, 0, 1800), (.ENG_RAIL_MV, 7, 700)]
     let m : EngMeas := ⟨7, 1500, 1000, 60⟩
     s.rd .ENG_STAT_STATE 7 = egActive ∧ m.busyNs ≠ 0 ∧ s.hasWork 0 = true ∧ s.rd .ENG_GOVCTL_TARGET = 1800 ∧ -128 ≤ m.tj ∧ m.tj < 128 ∧
     1400 * m.busyNs ≤ m.cycles * 1000 ∧ m.cycles * 1000 < s.rd .ENG_GOVCTL_TARGET * m.busyNs ∧
     after (.governorMeasurement [m]) s (fun t => t.rd .ENG_RAIL_MV 7 == 705 && t.rd .ENG_RATE_RATE 7 == 1500) = true) ∧
    (let s : State := { engState planBytes { meas := some (100, 1000) } with timeb := { base.timeb with map := some ⟨0, 0, 1, 1⟩ } }
     s.phi = 6 ∧ s.on .ENG_GSTAT_DEFICIT = false ∧ after .paceDeficitCheck s (fun t => t.on .ENG_GSTAT_DEFICIT && t.rd .ENG_PHI_PHI == 6) = true) ∧
    ([1000000000, 999999999].all fun now =>
      let s : State := { sWith [(.ENG_GSTAT_DEFICIT, 0, 1)] with clock := now, dealer := { base.dealer with phiAt := some 0 } }
      s.phi == 64 && s.on .ENG_GSTAT_DEFICIT && s.dealer.phiAt == some 0 &&
      after .paceDeficitCheck s (fun t => t.on .ENG_GSTAT_DEFICIT == decide (now < 1000000000))) = true := by decide +kernel

/-! ### Beams, zoom slots, weights and hand-overs -/

/-- Run 1 of the beam's block is complete and next; its partition has room. -/
theorem test_BeamSums_premises :
    let p : ActivePlan := { planA with data := beamPlan }
    let s : State := { (sWith []).wr64 .OUT_PSIZE 0 (2 ^ 30) with
      plans := { base.plans with active := some p }
      deck := { base.deck with handed := [(0, 1 + 2 ^ 64), (1, 1)] }
      beams := { base.beams with mark := [(0, 256)] }
      outp := { base.outp with laid := [1], parts := [(0, { inUse := true })] } }
    s.planAt 0 = some p ∧ pR p.data = 16 ∧ pK p.data = 1 ∧ tget 0 s.deck.handed (handedKey 0 0 0 1) = 2 ^ pNg p.data - 1 ∧
    (∀ r, r < 1 → bitOf (tget 0 s.deck.handed (handedKey 0 0 0 r)) emittedBit = true) ∧ s.sumTurn p 0 0 0 1 = true ∧
    s.inReset = false ∧ s.blockRoom p 0 = true ∧ blockBeams p.data 0 = [0] ∧
    s.zoomWaits (bIdent p.data (beamEntry p.data 0)) 0 512 = false ∧ s.detMark 0 0 ≤ 256 ∧
    bDetect p.data (beamEntry p.data 0) = 1 ∧ 512 % (256 * 2 ^ bLogD p.data (beamEntry p.data 0)) ≠ 0 := by decide +kernel
def zset (cset : Byte) : ZoomSettings := ⟨1, 2, 3, 4, cset, 0⟩
def zState (x : ZoomSlot) : State := { plan0 base with beams := { base.beams with slots := [(5, x)] } }
theorem test_ZoomSlots_changes :
    (let q : ZoomPend := ⟨true, zset 1, 4096, true⟩
     let s := zState { pend := some q }
     (s.zslot 5).pend = some q ∧ (s.zslot 5).same q.set = false ∧ ZoomSlot.reached 5 (s.zslot 5) q.c = true ∧
     after (.zoomSlotStart 5) s (fun t => (t.zslot 5).inUse && (t.zslot 5).unset == 35 && t.on .ZOM_EVT_START) = true) ∧
    (let q : ZoomPend := ⟨true, zset 1, 4096, true⟩
     let s := zState { inUse := true, beam := 1, chan := 2, nextOut := 1024, pend := some q }
     (s.zslot 5).pend = some q ∧ (s.zslot 5).same q.set = true ∧
     q.c ≤ (s.zslot 5).nextOut * (s.zslot 5).dz + skewOf 5 (s.zslot 5).dz ∧ (s.zslot 5).cset ≠ q.set.cset.toNat ∧
     after (.zoomSlotStart 5) s (fun t => (t.zslot 5).fade == 64 && (t.zslot 5).cset == 1) = true) ∧
    (let q : ZoomPend := ⟨false, zset 1, 4096, true⟩
     let s := zState { inUse := true, beam := 1, chan := 2, nextOut := 1024, inMark := 4096, pend := some q }
     (s.zslot 5).pend = some q ∧ ZoomSlot.reached 5 (s.zslot 5) q.c = true ∧
     after (.zoomSlotStart 5) s (fun t => !(t.zslot 5).inUse) = true) := by decide +kernel
theorem test_ZoomSlots_output :
    (let x : ZoomSlot := { inUse := true, integ := List.replicate 3 (0, 0), comb := List.replicate 3 (0, 0), fifo := [(1, 0), (2, 0), (3, 0), (4, 0)],
                           fifoAt := 4096, nextOut := 1024, outMark := 1024 }
     let s : State := { (zState x).wr64 .OUT_PSIZE 0 (2 ^ 30) with outp := { base.outp with laid := [1], parts := [(0, { inUse := true })] } }
     (s.planAt (x.nextOut * x.dz + skewOf 5 x.dz + x.dz - 1)).isSome = true ∧ ZoomSlot.ready 5 (s.zslot 5) = true ∧ s.inReset = false ∧
     s.mayWrite 1 x.dest = true ∧ x.outMark ≤ x.nextOut ∧
     after (.zoomOutput 5) s (fun t => (t.zslot 5).nextOut == 1025 && t.rd64 .ZOM_SOUT 5 == 1024) = true) ∧
    base.setBusy 3 = false ∧ (zState { inUse := true, cset := 3 }).setBusy 3 = true := by decide +kernel

def longOf (k : LongKind) : LongOp := ⟨.uart, 7, 0x0404, k, 0⟩
def withLong (k : LongKind) (s : State := base) : State := { s with dealer := { s.dealer with longs := [longOf k] } }
def wcmd (data : List Byte) (running : Bool) : WeightCmd := ⟨false, 0, 0, some (.table 1 1 1), 0, data, running, 5⟩
theorem test_WeightSets_premises :
    (let s := withLong (.weight (wcmd [1, 2] false))
     s.weightOps = [(longOf (.weight (wcmd [1, 2] false)), wcmd [1, 2] false)] ∧ s.dealer.longs = [longOf (.weight (wcmd [1, 2] false))] ∧
     s.unlockDue.setLocked 0 0 = false ∧ State.setLocked { s with beams := { s.beams with tLock := [4096] } } 0 (s.shadowSet 0) = true) ∧
    after .weightCommandComplete (withLong (.weight (wcmd [1, 2] true))) (fun t => t.dealer.longs == [] && t.sent.length == 1) = true ∧
    after .weightCommandComplete (withLong (.weight (wcmd [1, 2, 128, 0] true))) (fun t => t.on .BMF_STAT_TBAD && t.on .BMF_EVT_WRREJ) = true ∧
    (let s := withLong (.weightDeal 3 4096) (plan0 base)
     s.weightDeal = some (longOf (.weightDeal 3 4096), 3, 4096) ∧
     s.weightRefusal 3 4096 = none ∧ s.timeOf 4096 = none ∧ s.rangePast 4096 = false ∧
     after .weightHandOver s (fun t => t.rd .BMF_STAT_TACT == 1 - s.rd .BMF_STAT_TACT && t.on .BMF_STAT_TLOCK) = true) ∧
    (withLong (.weightDeal 3 4096) (sWith [(.BMF_STAT_TBAD, 0, 1)])).weightRefusal 3 4096 = some rejParam := by decide +kernel
def dealState (slot : Option Nat) (s : State := base) : State :=
  { s with dealer := { s.dealer with deal := some ⟨slot, 4096⟩, longs := [longOf .planDeal] } }
theorem test_PlanHandOver_none :
    let s := dealState none
    s.findLong (fun k => k == .planDeal) = some (longOf .planDeal) ∧ s.weightDeal = none ∧ s.modl.warm = false ∧ s.plans.outgoing = none ∧
    s.timeOf 4096 = none ∧ (s.dealStatus none 4096).1 = stDone ∧ (∀ k : Fin 64, (s.zslot k.val).pend = none) ∧
    after .planHandOver s (fun t => t.dealer.deal.isNone && t.on .DLR_EVT_DEAL && t.plans.active.isNone) = true := by decide +kernel
/-- Slot 2 holds the plan of one group and channel; bundle 0 and the engines are there for it. -/
def dealOne : State :=
  { dealState (some 2) (inService [(.ENG_GSTAT_HOLD, 0, 0)]) with
    plans := { base.plans with slots := [(2, { shadow := planBytes })] }
    timeb := { base.timeb with map := some ⟨0, 0, 10000, 1⟩, sec := 9 } }
theorem test_PlanHandOver_plan :
    dealOne.findLong (fun k => k == .planDeal) = some (longOf .planDeal) ∧ dealOne.dealer.deal = some ⟨some 2, 4096⟩ ∧
    dealOne.timeOf 4096 = some 40960000 ∧ 40960000 ≤ dealOne.nowNs ∧ (dealOne.dealStatus (some 2) 4096).1 = stDone ∧
    dealOne.dealer.longs = [longOf .planDeal] ∧ (∀ k : Fin 64, (dealOne.zslot k.val).pend = none) := by decide +kernel
theorem test_PlanHandOver_refused :
    let s := dealState (some 2)
    (s.dealStatus (some 2) 4096).1 ≠ stDone ∧ after .planHandOver s (fun t => t.dealer.deal.isNone && t.on .DLR_EVT_DEALREJ) = true := by
  decide +kernel
theorem test_PlanHandOver_rest :
    (let s := withLong (.tableLoad 1 6 [9, 8])
     after .tableLoadComplete s (fun t => (t.slot 1).edit == [(6 * 2 ^ 32, 9), (6 * 2 ^ 32 + 1, 8)]) = true) ∧
    (let s := engState [(1, 12), (3, 3), (24, 1), (48, 1), (2 ^ 32, 5)] {}
     s.kernelPlan.map (·.id) = some 1 ∧ (s.core 7).fw = none ∧ (s.eng 7).kplan ≠ some 1 ∧ s.inReset = false ∧
     after (.kernelCopy 7) s (fun t => (t.eng 7).kplan == some 1) = true) := by decide +kernel

/-! ### Tricks and the output stage -/

/-- The plan with tricks of 4096 samples. -/
def planL : ActivePlan := { planA with data := [(1, 12), (9, 16), (24, 1), (48, 1), (2 ^ 32, 5)] }
def trickK (first : Nat) (exported : Bool) (parts summed : Nat) : Trick :=
  { first := first, len := 4096, plan := planL, isOpen := false, isPartial := false, buf := 0, dsn := 5, exported := exported, parts := parts
    summed := summed }
def trickState (closed : List Trick) (cur : Option Nat := none) : State :=
  { base with plans := { base.plans with active := some planL }, tricks := { base.tricks with cur := cur, closed := closed } }
theorem test_TricksClose_premises :
    let s : State := { trickState [trickK 0 false 0 0] (some 4096) with
      deck := { base.deck with chans := [(1024, { cut := true, merged := true, stats := true })] } }
    s.planAt 4096 = some planL ∧ s.trickEnd planL 4096 = 8192 ∧ s.frozen = false ∧ s.inReset = false ∧ pN planL.data = 1 ∧
    s.finished planL 4096 0 = true ∧ s.closeBoundaries = [] ∧ s.dealer.exhausted = false ∧ s.dealer.dsn < 2 ^ 64 - 1000 ∧
    s.tricks.closed.any (fun k => !k.exported) = true ∧ s.on .OUT_STAT_STALL = false ∧
    after .trickClosed s (fun t => t.tricks.closed.map (·.first) == [0, 4096] && t.on .OUT_STAT_STALL) = true := by decide +kernel
theorem test_Export_premises :
    (let s := trickState (List.replicate 64 (trickK 0 true 0 0) ++ [trickK 4096 false 0 0])
     (s.tricks.closed.find? (fun k => !k.exported)).map (·.first) = some 4096 ∧ s.modl.warm = false ∧ s.outp.exporting = none ∧
     s.waitsRel 4096 = true) ∧
    (let s := trickState [trickK 4096 false 0 0]
     s.waitsRel 4096 = false ∧ planL.acc 0 = some 0x100000 ∧ pVfmt planL.data ≠ 3 ∧ s.mayWrite 1 (pVdest planL.data) = false) ∧
    (let s : State := { trickState [trickK 4096 false 0 0] with outp := { base.outp with exporting := some 4096 } }
     s.exportTrick = some (trickK 4096 false 0 0) ∧ s.outp.todo = [] ∧
     after .exportComplete s (fun t => t.outp.exporting.isNone && t.tricks.closed.all (·.exported)) = true) := by decide +kernel
theorem test_Summaries_premises :
    let s : State := { trickState [trickK 4096 true 1 0] with outp := { base.outp with laid := [1], parts := [(0, { inUse := true })] } }.wr64 .OUT_PSIZE 0 (2 ^ 30)
    (s.tricks.closed.find? (fun k => bitOf k.parts 0 && !bitOf k.summed 0)).map (·.first) = some 4096 ∧ s.outp.laid.contains 1 = true ∧
    (s.part 0).fill + maxPkt ≤ s.partSize 0 ∧ s.modl.warm = false ∧ s.allWritten (trickK 4096 true 1 0) = true ∧
    (s.part 0).openPkts = [] ∧
    after (.trickSummary 0) s (fun t => (t.part 0).queue.map (·.ptype) == [7] && t.rd64 .OUT_PNEXT 0 == 1) = true := by decide +kernel
theorem test_Releases_premises :
    (let s := (trickState [trickK 4096 true 1 1]).wr .OUT_RELLO_LOW 0 4096
     s.rd .OUT_RELLO_LOW = 4096 ∧ (trickK 4096 true 1 1).allSummed = true ∧ s.frozen = false ∧ s.tricks.newestRel = none ∧
     after (.outRelhi 0) s (fun t => t.rd64 .OUT_RELTRICK == 4096 && t.tricks.newestRel == some 4096) = true) ∧
    (trickK 4096 true 1 0).allSummed = false ∧
    (let s : State := { base with tricks := { base.tricks with newestRel := some 4096 } }
     s.tricks.closed = [] ∧ after (.outRelhi 0) s (fun t => !t.on .OUT_EVT_RELREJ) = true ∧
     after (.outRelhi 1) s (fun t => t.on .OUT_EVT_RELREJ) = true) ∧
    (let r := withLong (.statsSend 4096 0) (trickState [trickK 4096 true 1 1])
     let s := r.wr64 .OUT_PSIZE 0 (2 ^ 20)
     statStream planL.data + (s.part 0).fill ≤ s.partSize 0 ∧ r.partSize 0 < statStream planL.data + (r.part 0).fill ∧
     s.modl.warm = false ∧ s.findLong (fun k => match k with | .statsSend _ _ => true | _ => false) = some (longOf (.statsSend 4096 0)) ∧
     (s.tricks.closed.find? (fun k => k.first == 4096)).isSome = true ∧
     after .statsSendComplete s (fun t => t.rd64 .OUT_PNEXT 0 == 1) = true) := by decide +kernel
def pktOf (n : Nat) : Pkt :=
  { pseq := n, ptype := 2, pfmt := 0, flags := 0, trick := 0, start := 0, tsec := 0, tns := 0, first := 0, chan := 0, nrec := 1, subid := 0
    payload := [1, 2, 3, 4] }
def drainState (x : Partition) (q : Nat) (l : List (Fld × Nat × Nat)) : State :=
  { (sWith ([(.OUT_CTL_DRAIN, 0, 7), (.ETH_STAT_LINK, 0, 1), (.OUT_HSIZE_LOG2, 0, 16), (.OUT_HCTL_EN, 0, 1)] ++ l)).wr64 .OUT_PSIZE q (2 ^ 20) with
    outp := { base.outp with parts := [(q, x)] } }
theorem test_PacketsDrain_port :
    (let s := drainState { inUse := true, queue := [pktOf 3] } 0 []
     (s.part 0).resends = [] ∧ (s.part 0).queue = [pktOf 3] ∧ s.mayDrain 0 (pktOf 3) = true ∧ s.summaryWaits (pktOf 3) = false ∧
     s.hostMiss 0 (pktOf 3) = none ∧ s.outp.exporting = none ∧
     (∀ x ∈ s.ringPlaces 0 (pktOf 3).pos (pktOf 3).size, s.hbmPoisoned x.1 x.2 = false)) ∧
    (drainState { queue := [pktOf 3] } 0 [(.OUT_CTL_DRAIN, 0, 0)]).mayDrain 0 (pktOf 3) = false ∧
    (let s := drainState { inUse := true, resends := [pktOf 3] } 0 []
     (s.part 0).resends = [pktOf 3] ∧ s.mayDrain 0 (pktOf 3) = true ∧ s.unreleased = []) := by decide +kernel
theorem test_PacketsDrain_host :
    (let s : State := { drainState { inUse := true, queue := [pktOf 3] } 2 [] with modl := { base.modl with pciUp := true } }
     s.mayDrain 2 (pktOf 3) = true ∧ s.summaryWaits (pktOf 3) = false ∧ s.hostMiss 2 (pktOf 3) = none ∧
     s.rd .OUT_HWR_OFFSET < s.hostRing) ∧
    (let s : State := { base with outp := { base.outp with unsignalled := 1 }, clock := 2 ^ 40 }
     s.outp.unsignalled ≠ 0 ∧ s.outp.unsigAt + 1000 * s.rd .OUT_HCTL_MODUS ≤ s.clock ∧
     after .hostSignalTimeout s (fun t => t.outp.unsignalled == 0 && t.sent.length == 1) = true) ∧
    base.outp.unsignalled = 0 ∧
    (let s := sWith [(.OUT_HSIZE_LOG2, 0, 16), (.OUT_HWR_OFFSET, 0, 128)]
     s.hostFill = 128 ∧ s.rd .OUT_HSIZE_LOG2 ≤ 31 ∧
     [0, 64, 128].all (fun v => after (.outHrd (BitVec.ofNat 32 v)) s (fun t => t.rd .OUT_HRD_OFFSET == v)) = true ∧
     [63, 192, 65536].all (fun v => after (.outHrd (BitVec.ofNat 32 v)) s (fun t => t.on .OUT_EVT_HRDREJ)) = true) := by decide +kernel
theorem test_RingLayout_premises :
    (let p : ActivePlan := { planA with data := beamPlan }
     let s : State := { base with outp := { base.outp with layouts := [p] }, timeb := { base.timeb with map := some ⟨0, 0, 1000, 1⟩ } }
     s.ringNow = [] ∧ s.ringWanted p = [(0, 8192)] ∧ s.modl.warm = false ∧ s.ringEmpty p.id = true ∧ s.outp.exporting = none) ∧
    (let p : ActivePlan := { planA with data := (1, 12) :: [(2 ^ 32, 5)] }
     base.ringWanted p = base.ringNow) := by decide +kernel

/-! ### Device time and references -/

def goodRef : RefSample := ⟨true, 0, 0⟩
theorem test_ReferencesQualify_pps :
    (let s : State := (sWith [(.REF_STAT_WARM, 0, 1)] { base with timeb := { base.timeb with refs := [(0, { ppsBad := 3 })] } }).wr .REF_RSTAT_QUALIFIED 0 1
     (s.refx 0).ppsBad = 3 ∧ s.on .REF_RSTAT_QUALIFIED 0 = true ∧ s.on .REF_STAT_WARM = true ∧
     after (.ppsEdge 0 101) (s.wr .REF_STAT_WARM 0 0) (fun t => t.on .REF_RSTAT_QUALIFIED 0 && (t.refx 0).ppsBad == 0) = true ∧
     after (.ppsEdge 0 101) s (fun t => !t.on .REF_RSTAT_QUALIFIED 0 && t.on .REF_EVT_DISQ) = true) ∧
    (base.refx 0).ppsBad < 3 ∧ after (.ppsEdge 0 101) (sWith [(.REF_STAT_WARM, 0, 1)]) (fun t => (t.refx 0).ppsBad == 1) = true ∧
    (let s : State := { sWith [(.REF_RSTAT_PRESENT, 0, 1), (.REF_RCFG_EN, 0, 1), (.REF_RSTAT_WTRLEFT, 0, 0)] with
       timeb := { base.timeb with refs := [(0, { wtrRun := true })] } }
     (s.refx (refNo .a)).wtrRun = true ∧ s.rd .REF_RSTAT_WTRLEFT 0 = 0 ∧ s.on .REF_RSTAT_PRESENT 0 = true ∧ s.on .REF_RCFG_EN 0 = true ∧
     s.on .REF_RSTAT_QUALIFIED 0 = false ∧ after (.wtrExpiry .a) s (fun t => t.on .REF_RSTAT_QUALIFIED 0 && t.on .REF_EVT_REQUAL) = true) ∧
    (base.refx 0).wtrRun = false := by decide +kernel
/-- Every clause of a measurement: the OCXO cold, warm and within, warm and outside, and a wait that begins. -/
theorem test_ReferencesQualify_measurement :
    let w := base.rd .REF_RCFG_WINDOW 0
    let m : RefMeas := ⟨goodRef, goodRef, goodRef, true⟩
    let out : RefMeas := ⟨⟨true, 10 ^ 12, 10 ^ 12⟩, goodRef, goodRef, true⟩
    let seen := fun (s : State) => s.setRefx 0 { ppsAt := some 0 }
    let cold := seen (sWith [(.REF_RCFG_EN, 0, 1)])
    let warm := seen (sWith [(.REF_RCFG_EN, 0, 1), (.REF_STAT_WARM, 0, 1)])
    cold.edgePresent 0 m.a.present = true ∧ warm.edgePresent 0 m.a.present = true ∧ base.edgePresent 0 m.a.present = false ∧
    State.edgePresent { cold with clock := 1100000000 } 0 true = true ∧ State.edgePresent { cold with clock := 1100000001 } 0 true = false ∧
    (sWith [(.REF_RCFG_EN, 2, 1)]).on .REF_RCFG_EN 2 = true ∧ (sWith [(.REF_RCFG_EN, 2, 1)]).ptpPresent = false ∧
    cold.on .REF_RCFG_EN 0 = true ∧ cold.rd .REF_CTL_FORCE ≤ 3 ∧ cold.on .REF_STAT_WARM = false ∧ warm.on .REF_STAT_WARM = true ∧
    within m.a.offOcxo 1 1 w = true ∧ within m.a.offOcxo 8 10 w = true ∧ within out.a.offOcxo 1 1 w = false ∧
    warm.on .REF_RSTAT_QUALIFIED 0 = false ∧ (warm.refx 0).wtrRun = false ∧
    after (.referenceMeasurement m) cold (fun t => t.on .REF_RSTAT_QUALIFIED 0) = true ∧
    after (.referenceMeasurement m) warm (fun t => (t.refx 0).wtrRun) = true ∧
    after (.referenceMeasurement out) warm (fun t => t.rd .REF_RSTAT_BADCNT 0 == 1) = true := by decide +kernel
theorem test_ReferencesQualify_rest :
    (let s : State := { sWith [(.REF_STAT_DISAGREE, 0, 1), (.REF_STAT_SEL, 0, 1), (.REF_STAT_WARM, 0, 1), (.REF_RSTAT_QUALIFIED, 0, 1),
         (.REF_RSTAT_QUALIFIED, 1, 1)] with timeb := { base.timeb with disRefs := [⟨0, 1, 0⟩, ⟨0, 2, 0⟩] } }
     let dis := fun (l : List (Nat × Nat)) (t : State) => t.timeb.disRefs.map (fun p => (p.sel, p.other)) == l
     s.on .REF_STAT_WARM = true ∧ s.qualified 0 = true ∧ s.qualified 1 = true ∧ s.refSel = some 0 ∧
     within (10 ^ 12) 1 1 (s.ref .REF_RCFG_WINDOW 0) = false ∧ within 0 1 1 (s.ref .REF_RCFG_WINDOW 1) = true ∧
     after (.disagreementAverage 0 0) s (dis [(0, 2), (0, 1)]) = true ∧
     after (.disagreementAverage 0 (10 ^ 12)) (s.wr .REF_STAT_WARM 0 0) (dis [(0, 2), (0, 1)]) = true ∧
     after (.disagreementAverage 0 (10 ^ 12)) s (fun t => !t.on .REF_RSTAT_QUALIFIED 1 && dis [(0, 2)] t && t.on .REF_STAT_DISAGREE) = true ∧
     after (.disagreementAverage (10 ^ 12) 0) s (fun t => !t.on .REF_RSTAT_QUALIFIED 0 && !t.on .REF_STAT_DISAGREE) = true) ∧
    base.timeb.disRefs = [] ∧ base.refState ≠ rsFault ∧
    after .ocxoOutOfRegulation base (fun t => t.refState == rsFault && t.on .REF_EVT_FAULT) = true ∧
    (let s := sWith [(.REF_STAT_STATE, 0, rsFault)]
     s.refState = rsFault ∧ s.bestRef = s.refSel ∧ after .faultStateEnd s (fun t => t.refState == rsFree) = true) := by decide +kernel
/-- The slave follows grandmaster 77 on port 0. -/
def ptpState (x : PtpX) (l : List (Fld × Nat × Nat) := []) : State :=
  { (sWith ([(.PTP_CTL_PORT, 0, 0), (.PTP_STAT_PSTATE, 0, 8)] ++ l)).wr64 .PTP_GMID 0 77 with
    timeb := { base.timeb with sec := 9, ptp := { x with major := 2, minor := 0, domain := 0 } } }
theorem test_PtpPort_clock :
    (sWith [(.PTP_CTL_TCEN, 0, 1)]).on .PTP_CTL_TCEN = true ∧ ptpM.overUdp = true ∧ ptpM.kind ≠ .peerDelay ∧
    (sWith [(.PTP_CTL_TCEN, 0, 0)]).on .PTP_CTL_TCEN = false ∧
    after (.ptpMessage 0 { ptpM with overUdp := false }) (sWith [(.PTP_CTL_TCEN, 0, 0)]) (fun t => t.rd .PTP_DISC_COUNT == 1) = true := by
  decide +kernel
theorem test_PtpPort_slave :
    (let s := ptpState { rank := some 5 }
     s.rd .PTP_CTL_PORT = 0 ∧ ptpM.domain.toNat = s.timeb.ptp.domain ∧ ptpM.major.toNat = s.timeb.ptp.major ∧
     ptpM.minor.toNat = s.timeb.ptp.minor ∧ ptpM.rank < 5 ∧ ptpM.gmid.toNat = s.rd64 .PTP_GMID ∧ ptpM.twoStep = false) ∧
    (let s := (ptpState { rank := some 3, waitFollow := some 1, seq := 1, t1 := 100 }).wr .ETH_STAT_LINK 0 1
     s.timeb.ptp.rank ≠ none ∧ s.timeb.ptp.waitFollow = some ptpM.seq.toNat ∧ ptpM.clock.toNat = s.timeb.ptp.clockId ∧
     ptpM.seq.toNat = s.timeb.ptp.seq ∧ s.timeb.ptp.t1 ≠ 0 ∧ s.rd .PTP_STAT_PSTATE = 8 ∧ s.on .ETH_STAT_LINK = true ∧
     after .delayReqTimer s (fun t => t.rd .PTP_DREQTX_COUNT == 1 && t.timeb.ptp.seq == 2) = true ∧
     after (.ptpMessage 0 { ptpM with kind := .delayResp }) s (fun t => t.rd .PTP_STAT_PSTATE == 9) = true) ∧
    2 ≤ (sWith [(.PTP_CTL_PORT, 0, 2)]).rd .PTP_CTL_PORT := by decide +kernel

/-- A read of the range channel at counter 0 is in progress, and engine 7 holds position 0. -/
def readState (blocks : List Block) : State :=
  { plan0 (sWith [(.ENG_STAT_STATE, 7, egActive), (.ENG_STAT_POSITION, 7, 0)]) with
    engs := [(7, { blocks := blocks })], deck := { base.deck with reads := [⟨0, 0, none, 0, 16⟩] } }
def blk (t run g n : Nat) : Block := ⟨t, 0, run, g, 0, List.replicate n 0⟩
theorem test_RangeChannels_read :
    (let s := readState []
     s.planAt 0 = some planA ∧ s.blockTo planA ⟨0, 0, none, 0, 16⟩ 0 0 = [7] ∧ (s.eng 7).hasRoom 16384 = true ∧
     s.frozen = false ∧ s.inReset = false) := by decide +kernel
/-- The input buffer holds one more block of 16 KiB up to the edge of its 688 KiB. -/
theorem test_RangeChannels_stall (n : Nat) : ((readState [blk 4096 0 0 n]).eng 7).hasRoom 16384 = decide (n + 16400 ≤ 704512) := by
  have h : (readState [blk 4096 0 0 n]).eng 7 = { blocks := [blk 4096 0 0 n] } := by simp only [readState, State.eng, tget, if_true]
  rw [h]
  simp only [Engine.hasRoom, blk, blockRoomOf, List.map_cons, List.map_nil, List.length_replicate, List.sum_cons, List.sum_nil]
  exact decide_eq_decide.mpr (by omega)
theorem test_DealOrder : DealOrder (plan0 base) := ⟨fun r h => by cases h; decide, fun q h => nomatch h⟩
/-- Engine 7 at work on hand unit 0 with the blocks of run 1, without them, and stopped in a supply freeze. -/
theorem test_EngineWork_runs :
    (let x : Engine := { bank0 := some (0, 0), done := [(0, true)] }
     let s := engState planBytes { x with blocks := [blk 0 1 0 16384] }
     ((s.eng 7).block 0 0 1 0).isSome = true ∧ ((engState planBytes x).eng 7).block 0 0 1 0 = none ∧
     after (.runEnd 7 0 1) s (fun t => t.rd64 .ENG_HRUNS 7 == 1 && t.rd64 .ENG_CYC 7 == 260) = true ∧
     after (.runEnd 7 0 1) (engState planBytes x) (fun t => t.rd64 .ENG_HRUNS 7 == 0) = true ∧
     (let f := (engState planBytes { x with stopped := true }).wr .PWR_STAT_STATE 0 1
      f.frozen = true ∧ (f.eng 7).stopped = true ∧ after (.runEnd 7 0 1) f (fun t => decide (t = f)) = true)) ∧
    (let s := engState beamPlan { bank0 := some (0, 0), blocks := [blk 0 0 0 16384] } [(.ENG_STAT_POSITION, 7, 1)]
     (s.eng 7).block 0 0 0 0 ≠ none ∧ after (.runEnd 7 1 0) s (fun t => t.rd64 .ENG_HRUNS 7 == 1) = true ∧
     ((engState beamPlan { bank0 := some (0, 0) } [(.ENG_STAT_POSITION, 7, 1)]).eng 7).block 0 0 0 0 = none) := by decide +kernel
theorem test_Merges_turn :
    (engState planBytes {}).mergeTurn planA 0 0 = true ∧ (engState planBytes {}).mergeTurn planA 4096 0 = false ∧
    State.mergeTurn { engState planBytes {} with deck := { base.deck with chans := [(0, { merged := true })] } } planA 4096 0 = true := by decide +kernel
theorem test_PaceGovernor_rest :
    (let s := engState planBytes {} [(.ENG_GCTL_AUTOSUBST, 0, 0), (.ENG_STAT_POSITION, 7, 5), (.ENG_RAIL_MV, 7, 700)]
     s.hasWork 5 = false ∧ after (.governorMeasurement [⟨7, 0, 0, 0⟩]) s (fun t => t.rd .ENG_RAIL_MV 7 == 600) = true) ∧
    (let s := fun (fast : Nat) => engState planBytes { fast := fast } [(.ENG_GOVCTL_TARGET, 0, 1400), (.ENG_RAIL_MV, 7, 700)]
     let m : EngMeas := ⟨7, 1443, 1000, 60⟩
     103 * 1400 * m.busyNs < m.cycles * 100000 ∧
     after (.governorMeasurement [m]) (s 98) (fun t => t.rd .ENG_RAIL_MV 7 == 700 && (t.eng 7).fast == 99) = true ∧
     after (.governorMeasurement [m]) (s 99) (fun t => t.rd .ENG_RAIL_MV 7 == 695 && (t.eng 7).fast == 0) = true) ∧
    (let s := fun (n : Nat) => engState planBytes {} [(.ENG_RAIL_MV, 7, 820), (.ENG_RATE_SLOWCNT, 7, n), (.ENG_STAT_STATE, 9, egStandby), (.ENG_GCTL_AUTOSUBST, 0, 1)]
     let m : EngMeas := ⟨7, 1399, 1000, 104⟩
     (s 9).engineAt 0 = 7 ∧ (s 9).on .ENG_GCTL_AUTOSUBST = true ∧ (s 9).standby.isSome = true ∧
     after (.governorMeasurement [m]) (s 8) (fun t => t.rd .ENG_RATE_SLOWCNT 7 == 9 && t.rd .ENG_STAT_STATE 7 == egActive) = true) := by
  decide +kernel
theorem test_ZoomSlots_waits :
    (let q : ZoomPend := ⟨true, zset 1, 4096, true⟩
     let s := zState { inUse := true, beam := 5, chan := 2, nextOut := 255, inMark := 4095, pend := some q }
     (s.zslot 5).same q.set = false ∧ ZoomSlot.reached 5 (s.zslot 5) q.c = false ∧ after (.zoomSlotStart 5) s (fun t => decide (t = s)) = true) ∧
    (let q : ZoomPend := ⟨true, { zset 0 with dest := 2 }, 4096, true⟩
     let s := zState { inUse := true, beam := 1, chan := 2, nextOut := 1024, pend := some q }
     (s.zslot 5).same q.set = true ∧ (s.zslot 5).cset = q.set.cset.toNat ∧
     after (.zoomSlotStart 5) s (fun t => (t.zslot 5).dest == 2 && (t.zslot 5).fade == 0 && (t.zslot 5).pend.isNone) = true) ∧
    (zState {}).zslot 5 = ZoomSlot.redone 5 ((zState {}).zslot 5).redo ((zState {}).zslot 5) := by decide +kernel
theorem test_PlanHandOver_waits :
    (let s : State := { dealState none with plans := { base.plans with outgoing := some { planA with ends := some 4096 } } }
     (s.plans.outgoing = none ∨ s.plans.active = none) ∧ s.dealer.longs.all (fun x => x.kind == .planDeal) = true ∧
     after .planHandOver s (fun t => t.on .DLR_EVT_DEAL) = true) ∧
    (let s : State := { dealState none with plans := { base.plans with outgoing := some { planA with ends := some 4096 }, active := some { planA with d := 4096 } } }
     s.plans.outgoing.isSome = true ∧ s.plans.active.isSome = true ∧ after .planHandOver s (fun t => decide (t = s)) = true) ∧
    (let s : State := { dealState none with modl := { base.modl with warm := true } }
     s.modl.warm = true ∧ after .planHandOver s (fun t => decide (t = s)) = true) := by decide +kernel
theorem test_TricksClose_waits :
    (let s := { (trickState [] (some 0)).wr .PWR_STAT_STATE 0 1 with deck := { base.deck with chans := [(0, { merged := true, stats := true })] } }
     s.frozen = true ∧ after .trickClosed s (fun t => decide (t = s)) = true) ∧
    (let s : State := { trickState [] (some 0) with plans := { base.plans with active := none }, tricks := { base.tricks with cur := some 0, past := [{ planL with ends := some 4096 }] } }
     (s.planOf 0).isSome = true ∧ s.lastRangeDone { planL with ends := some 4096 } 0 = true ∧
     after .trickClosed s (fun t => t.tricks.closed.map (·.first) == [0]) = true) := by decide +kernel
theorem test_Releases_refused :
    (let s := (trickState [trickK 4096 true 1 1]).wr .OUT_RELLO_LOW 0 4096
     (s.wr .PWR_STAT_STATE 0 1).frozen = true ∧ after (.outRelhi 0) (s.wr .PWR_STAT_STATE 0 1) (fun t => t.on .OUT_EVT_RELREJ) = true) ∧
    (let s : State := { sWith [(.PWR_STAT_STATE, 0, 1)] with tricks := { base.tricks with newestRel := some 4096 } }
     s.frozen = true ∧ after (.outRelhi 0) s (fun t => t.on .OUT_EVT_RELREJ) = true) ∧
    after (.outRelhi 0) base (fun t => t.on .OUT_EVT_RELREJ) = true := by decide +kernel
theorem test_PacketsDrain_refused :
    (let s : State := { drainState { inUse := true, queue := [pktOf 3] } 2 [] with modl := { base.modl with pciUp := true } }
     let u := s.wr64 .OUT_HBASE 0 (2 ^ 63)
     u.mayDrain 2 (pktOf 3) = true ∧ u.summaryWaits (pktOf 3) = false ∧ (u.hostMiss 2 (pktOf 3)).isSome = true ∧
     after (.packetDrained 2) u (fun t => t.on .DMA_GSTAT_HALTED && (t.part 2).queue.length == 1) = true) ∧
    (let s := (drainState { inUse := true, queue := [pktOf 3], sending := none } 0 []).wr .PWR_STAT_STATE 0 1
     s.mayDrain 0 (pktOf 3) = false) ∧
    (let s := (drainState { inUse := true, queue := [pktOf 3], sending := some 3 } 0 []).wr .PWR_STAT_STATE 0 1
     s.mayDrain 0 (pktOf 3) = true) := by decide +kernel
theorem test_PtpPort_twoStep :
    let s := ptpState { rank := some 3, waitFollow := some 1, t1 := 100, pendT2 := 7 }
    let m := { ptpM with twoStep := true, seq := 9 }
    m.gmid.toNat = s.rd64 .PTP_GMID ∧ s.timeb.ptp.rank ≠ none ∧
    after (.ptpMessage 0 m) s (fun t => t.timeb.ptp.waitFollow == some 9 && t.rd .PTP_SYNCRX_COUNT == 1) = true ∧
    after (.ptpMessage 0 { ptpM with kind := .followUp }) s (fun t => t.timeb.ptp.waitFollow.isNone) = true ∧
    after (.ptpMessage 0 { ptpM with kind := .announce, rank := 7 }) s (fun t => t.timeb.ptp.rank == some 7 && t.timeb.ptp.t1 == 100) = true ∧
    after (.ptpMessage 0 { ptpM with kind := .announce, gmid := 5 }) s (fun t => decide (t.timeb = s.timeb)) = true ∧
    after (.ptpMessage 0 { ptpM with kind := .announce, gmid := 5, rank := 2 }) (s.wr .PTP_STAT_PSTATE 0 9) (fun t =>
      t.rd64 .PTP_GMID == 5 && t.rd .PTP_STAT_PSTATE == 8 && t.timeb.ptp.t1 == 0 && t.flt.waiting.length == 1) = true := by decide +kernel

/-! ### The programmable core of an engine -/

def nm : Moves := ⟨0, 0⟩
/-- The core of engine 7. -/
def coreS (c : CoreState) : State := { sWith [(.ENG_STAT_STATE, 7, egActive)] with engs := [(7, { core := c })] }
def fwCore : CoreState := { halted := false, pc := 10, d := [(1, 7), (2, 5)], v := [(16, 3), (32, 4)], acc := [(0, 9)] }
/-- The core after a command. -/
def core7 (c : Instr) (s : State) (p : CoreState → Bool) : Bool := after c s (fun t => p (t.core 7))
theorem test_CoreMayGoOn : CoreMayGoOn (coreS fwCore) 7 nm := by unfold CoreMayGoOn CoreMay; decide +kernel
theorem test_CoreMayGoOn_kernel : ∃ s : State, CoreMayGoOn s 7 nm ∧ (s.core 7).st.kmode = true :=
  ⟨coreS { halted := false, pc := 4096, st := { kmode := true } }, by unfold CoreMayGoOn CoreMay; decide +kernel, by decide +kernel⟩
theorem test_CoreScalar :
    core7 (.add 7 0 1 2 nm) (coreS fwCore) (fun c => c.dr 0 == 12 && c.pc == 11) = true ∧
    core7 (.sub 7 0 2 1 nm) (coreS fwCore) (fun c => c.dr 0 == 0xFFFFFFFE) = true ∧
    core7 (.mul 7 0 1 2 nm) (coreS fwCore) (fun c => c.dr 0 == 35) = true ∧
    core7 (.shl 7 0 1 31 nm) (coreS fwCore) (fun c => c.dr 0 == 0x80000000) = true ∧
    core7 (.cmp 7 1 2 nm) (coreS fwCore) (fun c => !c.st.z && !c.st.n) = true ∧
    core7 (.ldi 7 0 99) (coreS fwCore) (fun c => c.dr 0 == 99) = true ∧
    core7 (.movs 7 true 1 .epc nm) (coreS fwCore) (fun c => c.epc == 7) = true ∧
    ((coreS fwCore).core 7).st.larm = false ∧ ((coreS fwCore).core 7).st.kmode = false ∧ ((coreS fwCore).core 7).level = 0 := by decide +kernel
theorem test_CoreVector :
    core7 (.vadd 7 0 1 2 nm) (coreS fwCore) (fun c => c.lane 0 0 == 7 && c.lane 0 1 == 0) = true ∧
    core7 (.mac 7 0 1 2 nm) (coreS fwCore) (fun c => c.accLane 0 0 == 21) = true ∧
    core7 (.clra 7 0 nm) (coreS fwCore) (fun c => c.accLane 0 0 == 0) = true := by decide +kernel
theorem test_CoreFloat :
    core7 (.bxclr 7 16 nm) (coreS fwCore) (fun c => c.bx.w == 16) = true ∧
    core7 (.bxacc 7 1 nm) (coreS fwCore) (fun c => c.bx.any && c.bx.hi == 3) = true := by decide +kernel
/-- Branches and calls; a flag set and clear; a return; the ends of loops; traps; an interrupt. -/
theorem test_CoreControl_premises :
    (let c : CoreState := { fwCore with st := { z := true }, calls := [5] }
     c.atEnd = false ∧ c.st.flag .z = true ∧ c.st.flag .n = false ∧ c.calls.head? = some 5 ∧ c.st.kmode = false) ∧
    core7 (.br 7 100 nm) (coreS fwCore) (fun c => c.pc == 100) = true ∧
    core7 (.call 7 100 nm) (coreS fwCore) (fun c => c.pc == 100 && c.calls == [11]) = true ∧
    core7 (.ret 7 nm) (coreS { fwCore with calls := [5] }) (fun c => c.pc == 5 && c.calls == []) = true ∧
    core7 (.brc 7 .z 100 nm) (coreS { fwCore with st := { z := true } }) (fun c => c.pc == 100) = true ∧
    core7 (.brc 7 .z 100 nm) (coreS fwCore) (fun c => c.pc == 11) = true ∧
    core7 (.halt 7 nm) (coreS fwCore) (fun c => c.halted) = true ∧
    core7 (.reti 7 nm) (coreS { fwCore with epc := 44 }) (fun c => c.pc == 44) = true := by decide +kernel
theorem test_CoreLoops :
    core7 (.loop 7 20 (.imm 3) nm) (coreS fwCore) (fun c => c.level == 1 && tget 0 c.lcount 0 == 3 && c.pc == 11) = true ∧
    core7 (.loop 7 20 (.imm 0) nm) (coreS fwCore) (fun c => c.level == 0 && c.pc == 21) = true ∧
    (let c : CoreState := { fwCore with level := 1, st := { larm := true }, lstart := [(0, 4)], lend := [(0, 10)], lcount := [(0, 2)] }
     c.level = 0 + 1 ∧ c.st.larm = true ∧ tget 0 c.lend 0 = c.pc ∧ 1 < tget 0 c.lcount 0 ∧
     core7 (.ldi 7 0 1) (coreS c) (fun z => z.pc == 4 && tget 0 z.lcount 0 == 1) = true ∧
     core7 (.ldi 7 0 1) (coreS { c with lcount := [(0, 1)] }) (fun z => z.pc == 11 && z.level == 0) = true) ∧
    core7 (.endl 7 nm) (coreS { fwCore with level := 1, lend := [(0, 30)] }) (fun c => c.level == 0 && c.pc == 31) = true ∧
    { fwCore with level := 4 : CoreState }.atEnd = false := by decide +kernel
theorem test_CoreTraps :
    (coreS fwCore).coreRuns 7 = true ∧ movesIllegal ⟨0x8018, 0⟩ = true ∧ ((coreS fwCore).core 7).st.kmode = false ∧
    (let s := coreS { fwCore with st := { ie := true } }
     (s.core 7).st.ie = true ∧ (s.core 7).halted = false ∧ s.rd .ENG_STAT_STATE 7 ≠ egOff ∧ s.rd .ENG_STAT_STATE 7 ≠ egRetired ∧
     s.inReset = false) ∧ ((coreS fwCore).core 7).st.ie = false := by decide +kernel
/-- A kernel call of two output words and 100 steps a batch runs on engine 7. -/
def kCall (c : CoreState) (batch : Option (Nat × Nat)) (todo : List Rec) : State :=
  { coreS c with
    tricks := { base.tricks with closed := [{ trickK 4096 false 0 0 with plan := { planL with kernel := [0, 0, 0, 0, 0, 2, 100, 0] } }] }
    outp := { base.outp with exporting := some 4096, batch := batch, todo := todo } }
def kCore : CoreState := { halted := false, pc := 4100, st := { kmode := true }, fw := some (10, {}, [3]) }
theorem test_KernelSandbox_faults :
    let s := kCall kCore none []
    (s.core 7).st.kmode = true ∧ (s.core 7).fw ≠ none ∧ s.coreRuns 7 = true ∧ movesIllegal nm = false ∧ (s.core 7).atEnd = false ∧
    (movesList ⟨0x8004, 0⟩).any (fun m => m.forbidden (s.core 7)) = true ∧ s.overBudget 7 = false ∧
    (kCall { kCore with ksteps := 100 } none []).overBudget 7 = true := by decide +kernel
def cellRec : Rec := { dest := 0, stream := 0, ptype := 1, pfmt := 0, trick := 4096, start := 0, first := 0, chan := 0, subid := 0, flags := 0, bytes := [], cell := true }
theorem test_KernelSandbox_return : CoreMay (kCall kCore none []) 7 nm 4096 ∧ CoreMay (kCall kCore (some (7, 1)) [cellRec]) 7 nm 4096 := by
  unfold CoreMay; decide +kernel
theorem test_KernelSandbox_batch :
    let s := kCall kCore (some (7, 1)) [cellRec]
    kCore.calls = [] ∧ s.outp.batch = some (7, 1) ∧ s.exportTrick.isSome = true ∧ 1 ≤ s.outp.todo.length ∧
    (∀ r ∈ s.outp.todo, s.mayWrite 1 r.dest = false) ∧
    after (.ret 7 nm) (kCall kCore none []) (fun t => (t.core 7).pc == 10 && (t.core 7).calls == [3] && t.rd .ENG_KBATCH_COUNT 7 == 1) = true ∧
    after (.ret 7 nm) s (fun t => t.outp.batch.isNone && t.outp.todo.map (·.bytes.length) == [8]) = true := by decide +kernel
theorem test_CoreAddresses :
    (moveOf 0x8004 0).en = true ∧ (moveOf 0x8004 0).step = 1 ∧ fwCore.atEnd = false ∧ stepOf (fwCore.ar 0) 3 = some 16 ∧
    core7 (.coreNop 7 ⟨0x8044, 0⟩) (coreS { fwCore with x := [(0, 77)] }) (fun c => c.dr 1 == 77 && (c.ar 0).offset == 1) = true ∧
    core7 (.coreNop 7 ⟨0xC044, 0⟩) (coreS fwCore) (fun c => tget 0 c.x 0 == 7) = true ∧
    core7 (.coreNop 7 ⟨0xE044, 0⟩) (coreS fwCore) (fun c => tget 0 c.x 0 == 3) = true ∧
    core7 (.seta 7 0 .base 1 nm) (coreS fwCore) (fun c => (c.ar 0).base == 7) = true ∧
    core7 (.moda 7 0 3 nm) (coreS fwCore) (fun c => (c.ar 0).offset == 16) = true := by decide +kernel

/-! ### Winos commands -/

/-- A state in which the module is READY and takes commands over the UART. -/
def rdy (s : State := base) : State := { s.wr .MOD_STAT_READY 0 1 with modl := { s.modl with fw := true } }
theorem test_takes : (rdy).takes uh = true ∧ (rdy).dealer.dsn < 2 ^ 63 ∧ (rdy).dealer.kept = [] ∧ (rdy).on .MOD_STAT_READY = true ∧
    base.takes uh = false := by decide +kernel
/-- What every command statement asks, met over the UART by any command whose LENGTH is right. -/
theorem test_CmdMay (s : State) (cmd : Instr) (len n : Nat) (early : Bool) (h1 : s.takes uh = true) (h2 : s.dealer.dsn < 2 ^ 63)
    (h3 : s.dealer.kept = []) (h4 : s.on .MOD_STAT_READY = true) (h5 : len < 2 ^ 32) : CmdMay s (uhl len) cmd len early n := by
  refine ⟨h1, rfl, h2, by rw [h3]; rfl, ?_, .inr h4, fun q hq => nomatch hq⟩
  simpa [hdrWrong, uhl] using h5
/-- The status of the reply that a command is answered with. -/
def stat (c : Instr) (s : State) : Option Nat :=
  match exec c s with
  | .next t => (newMsgs s t).findSome? (fun m => match m with | .winos p => if p.kind = 1 then some p.status else none | _ => none)
  | _ => none
def mh (len : Nat) : Hdr := ⟨.mgmt 5 6, 7, 1, false, BitVec.ofNat 32 len, none, 0⟩
/-- A command runs, is kept, and is answered again from what was kept; no READY; no authority; a wrong header. -/
theorem test_CommandsAreTakenInOrder :
    (match exec (.nop uh) (rdy) with
     | .next t => t.dealer.kept.length == 1 && after (.nop uh) t (fun u => decide (u.dealer.dsn = t.dealer.dsn + 1) &&
         u.dealer.kept.any (fun k => k.cmd == .nop (hdrPlain uh)))
     | _ => false) = true ∧
    hdrWrong (uhl 3) 0 = some 0 ∧ stat (.nop (uhl 3)) (rdy) = some rejParam ∧
    stat (.laneRelease (uhl 1) 0) ((rdy).wr .MOD_STAT_READY 0 0) = some rejState ∧
    stat (.keyLock (mh 0)) ((rdy)) = some rejAuth := by decide +kernel
/-- An opcode outside the table is answered, numbered; a packet that is no command is counted alone. -/
theorem test_StrayPackets :
    winosOpcodes.contains 0x010C = false ∧ winosOpcodes.contains 0x0B03 = true ∧ (rdy).hears .uart = true ∧ base.hears .uart = false ∧
    stat (.winosPacketDiscarded (.undefinedOpcode uh 0x010C [])) (rdy) = some rejParam ∧
    after (.winosPacketDiscarded (.undefinedOpcode uh 0x0100 [])) (rdy) (fun t => decide (t = rdy)) = true ∧
    after (.winosPacketDiscarded (.discarded .uart)) (rdy) (fun t => t.rd .DLR_DROP_COUNT == 1 && t.dealer.events.isEmpty) = true := by decide +kernel
/-- Queue pair 0 runs, with one entry waiting. -/
def qpS (link : Bool) : State := { rdy (sWith [(.PCI_QCFG_EN, 0, 1), (.PCI_SQTAIL_TAIL, 0, 1)]) with modl := { (rdy).modl with pciUp := link } }
def qh : Hdr := ⟨.qp 0, 7, 1, true, 40, none, 0⟩
theorem test_QueuePairs :
    (qpS true).hears (.qp 0) = true ∧ (qpS true).hostIn ((qpS true).entryAt 0) 64 = true ∧ base.hears (.qp 0) = false ∧
    after (.winosPacketDiscarded (.discarded (.qp 0))) (qpS true)
      (fun t => t.rd .DLR_DROP_COUNT == 1 && t.rd .PCI_QSTAT_SQHEAD == 1 && !t.on .PCI_QSTAT_FETCHERR) = true ∧
    after (.winosPacketDiscarded (.discarded (.qp 0))) (qpS false)
      (fun t => t.rd .DLR_DROP_COUNT == 0 && t.rd .PCI_QSTAT_SQHEAD == 1 && t.on .PCI_QSTAT_FETCHERR) = true ∧
    (let s := { qpS true with sent := [] }
     let h : Hdr := { qh with paramAddr := 0xFFFFFFFFFFFFFFF0 }
     s.takes h = true ∧ s.paramsLost h = true ∧ s.paramsLost { qh with paramAddr := 0 } = false ∧
     after (.nop h) s (fun t => t.on .PCI_QSTAT_FETCHERR && decide (t.dealer = s.dealer)) = true) := by decide +kernel
theorem test_SystemCommands :
    stat (.nop uh) (rdy) = some stOk ∧ stat (.status uh) (rdy) = some stOk ∧ stat (.identify uh) (rdy) = some stOk ∧
    stat (.setModid (uhl 1) 255) (rdy) = some rejParam ∧ stat (.setModid (uhl 1) 3) ((rdy).wr .MOD_STRAP_MODID 0 255) = some stOk ∧
    stat (.setModid (uhl 1) 3) ((rdy).wr .MOD_STRAP_MODID 0 4) = some rejState ∧
    stat (.reset (uhl 1) 1) (rdy) = some stOk ∧ stat (.reset (uhl 1) 2) (rdy) = some rejParam ∧
    stat (.fwWrite (uhl 6) 1 0 [9]) (rdy) = some stOk ∧ stat (.fwWrite (uhl 6) 0 0 [9]) ((rdy).wr .MOD_BOOT_SLOT 0 0) = some rejState ∧
    stat (.fwCommit (uhl 1) 1) (rdy) = some stAccepted ∧ stat (.fwCommit (uhl 1) 1) ((rdy).wr .SPD_SECSTAT_WIPING 0 1) = some rejBusy ∧
    stat (.uartClose uh) (rdy) = some stOk ∧ stat (.mgmtCfg (uhl 9) 1 33 2) (rdy) = some rejParam ∧
    stat (.mgmtCfg (uhl 9) 1 24 2) (rdy) = some stOk := by decide +kernel
theorem test_LifecycleAndEvents :
    stat (.lifecycle (mh 1) 3) (rdy) = some rejAuth ∧ stat (.lifecycle (uhl 1) 0) (rdy) = some rejState ∧
    stat (.lifecycle (uhl 1) 3) { rdy with lcs := 1 } = some stAccepted ∧
    stat (.evtSubscribe (uhl 3) 2 0) (rdy) = some stOk ∧ stat (.evtSubscribe (mh 3) 2 16) (rdy) = some stOk ∧
    stat (.evtSubscribe (uhl 3) 2 17) (rdy) = some rejParam ∧ stat (.evtSubscribe (uhl 3) 2 16) (rdy) = some rejParam ∧
    stat (.evtRead (uhl 10) (BitVec.ofNat 64 (2 ^ 40)) 1) (rdy) = some rejState ∧
    (let e : Event := ⟨9, 0x0901, 17, 0, 0, 0, 0, 2 ^ 32⟩
     stat (.evtRead (uhl 10) (BitVec.ofNat 64 (2 ^ 32)) 1) { rdy with dealer := { (rdy).dealer with events := [e], dsn := 2 ^ 32 + 1 } } = some stOk) := by
  decide +kernel
theorem test_LaneCommands :
    stat (.laneRelease (uhl 1) 0) (withLong (.laneRelease 0) (rdy)) = some rejBusy ∧ stat (.laneRelease (uhl 1) 0) (rdy) = some stAccepted ∧
    stat (.laneRestore (uhl 1) 0) (withLong (.laneRestore 0) (rdy)) = some rejBusy ∧
    (rdy (sWith [(.VLK_STAT_STATE, 0, lnRetired)])).lnState 0 = lnRetired ∧
    stat (.bundleReset (uhl 1) 0) (rdy (inService [])) = some stOk ∧ (rdy (inService [])).bundleUp 0 = true ∧
    stat (.bundleReset (uhl 1) 5) (rdy) = some rejParam ∧
    stat (.sessionClose (uhl 1) 3) (rdy) = some rejState ∧ stat (.sessionClose (uhl 1) 3) (rdy (sess3 ssOpen [])) = some stOk ∧
    stat (.flowList (uhl 3) 3 0) (rdy (flow6 flActive [])) = some stOk := by decide +kernel
theorem test_EngineCommands :
    stat (.engineRetire (uhl 1) 9) (rdy) = some stOk ∧ stat (.engineRetire (uhl 1) 96) (rdy) = some rejParam ∧
    (rdy (sWith [(.ENG_STAT_STATE, 9, egStandby)])).inService 9 = true ∧ (rdy).inService 9 = false ∧
    stat (.engineRestore (uhl 1) 9) (rdy) = some rejState ∧
    stat (.engineRestore (uhl 1) 9) (rdy (sWith [(.ENG_STAT_STATE, 9, egRetired)])) = some stAccepted ∧
    stat (.setReserve (uhl 1) 8) (rdy) = some stOk ∧ stat (.setReserve (uhl 1) 9) (rdy) = some rejParam ∧
    stat (.engineRelease uh) (rdy (sWith [(.ENG_GSTAT_HOLD, 0, 1)])) = some stOk ∧
    stat (.engineRelease uh) (rdy (sWith [(.ENG_GSTAT_HOLD, 0, 0)])) = some rejState := by decide +kernel
/-- Slot 2 holds an edit copy that passes the structure checks, and a built plan. -/
def slot2 (x : PlanSlot) : State := { rdy (inService [(.ENG_GSTAT_HOLD, 0, 0)]) with plans := { base.plans with slots := [(2, x)] } }
def mapped (s : State) : State := { s with timeb := { s.timeb with map := some ⟨0, 0, 10000, 1⟩ } }
theorem test_PlanCommands_define :
    stat (.planDefine (uhl 7) 1 0 0 [9]) (rdy) = some stOk ∧
    stat (.planDefine (uhl 7) 1 0 0 [9]) (withLong (.tableLoad 1 0 []) (rdy)) = some rejBusy ∧
    stat (.planDefine (uhl 7) 1 0 64 [9]) (rdy) = some rejParam ∧
    stat (.planReset (uhl 2) 1 0) (rdy) = some stOk ∧ stat (.planReset (uhl 2) 1 3) (slot2 { built := true }) = some stOk ∧
    stat (.planReset (uhl 2) 1 3) (rdy) = some rejState ∧ stat (.planReset (uhl 2) 1 5) (rdy) = some rejParam ∧
    stat (.planErase (uhl 1) 2) (slot2 { built := true }) = some stOk ∧ stat (.planErase (uhl 1) 0) (rdy (plan0 base)) = some rejState ∧
    stat (.planStatus (uhl 1) 2) (rdy) = some stOk := by decide +kernel
/-- The plan with its visibilities sent to the host. -/
def planHost : Tbl Byte := [(1, 12), (20, 3), (24, 1), (48, 1), (2 ^ 32, 5)]
theorem test_PlanCommands_build :
    let s := slot2 { edit := planHost }
    (rdy).planOk ((rdy).slot 2).edit = false ∧ s.planOk planHost = true ∧ s.timeb.map = none ∧
    ((mapped s).admission planHost 0 true).isNone = true ∧ ((mapped (s.wr .ENG_GSTAT_HOLD 0 1)).admission planHost 0 true).isSome = true ∧
    stat (.planBuild (uhl 1) 2) (rdy) = some rejParam ∧ stat (.planBuild (uhl 1) 2) s = some rejState ∧
    stat (.planBuild (uhl 1) 2) (mapped s) = some stOk := by decide +kernel
theorem test_PlanCommands_deal :
    (let d := fun (n : Nat) (s : State) => stat (.planDeal (uhl 9) 2 (BitVec.ofNat 64 n)) s
     let s := mapped (slot2 { built := true, shadow := planBytes })
     d 4096 (rdy) = some rejState ∧ d 4095 s = some rejParam ∧ d 4096 s = some rejState ∧ d 40960 s = some stAccepted ∧
     d 40960 { s with dealer := { s.dealer with deal := some ⟨none, 4096⟩ } } = some rejBusy) ∧
    stat (.planCancel uh) (rdy) = some rejState ∧ stat (.planCancel uh) (rdy (dealState none)) = some stOk := by decide +kernel
theorem test_PlanCommands_table :
    stat (.planLoadTable (uhl 15) 1 6 1 0x1000000000 33) (rdy) = some rejParam ∧
    (rdy).hbmPoisoned 0 4 = false ∧ stat (.planLoadTable (uhl 15) 1 6 1 0x1000000000 4) (rdy) = some stAccepted ∧
    (rdy).hostIn 0x8000000000 4 = false ∧ stat (.planLoadTable (uhl 15) 1 6 0 0x8000000000 4) (rdy) = some errInternal ∧
    (let s : State := { rdy with modl := { (rdy).modl with pciUp := true } }
     s.hostIn 0 4 = true ∧ stat (.planLoadTable (uhl 15) 1 6 0 0 4) s = some stAccepted) := by decide +kernel
/-- The plan with L_min = 8192. -/
def planMin : Tbl Byte := [(1, 12), (24, 1), (48, 1), (57, 32), (2 ^ 32, 5)]
theorem test_PlanCommands_tricks :
    (let c := fun (n : Nat) (s : State) => stat (.trickClose (uhl 8) (BitVec.ofNat 64 n)) s
     let s : State := { rdy (plan0 base) with tricks := { base.tricks with cur := some 4096 } }
     let m := mapped s
     c 4096 (rdy) = some rejState ∧ c 4095 s = some rejParam ∧ c 4096 (rdy (trickState [])) = some rejState ∧ c 4096 s = some rejState ∧
     c 8192 { s with deck := { s.deck with cutT := 8192 } } = some rejState ∧ c 8192 m = some stAccepted ∧
     (let q := { m with plans := { m.plans with active := some { planA with data := planMin } } }
      let q := { q with dealer := { q.dealer with longs := [longOf (.trickClose 20480 3)] } }
      pLmin planMin = 8192 ∧ q.closeBoundaries = [20480] ∧ c 8192 q = some rejParam ∧ c 12288 q = some stAccepted ∧
      c 16384 q = some rejParam ∧ c 20480 q = some stAccepted ∧ c 24576 q = some rejParam ∧ c 28672 q = some stAccepted)) ∧
    stat (.trickStatus uh) (rdy) = some stOk ∧ stat (.deadlineSet (uhl 2) 1000) (rdy) = some stOk ∧
    stat (.deadlineSet (uhl 2) 0) (rdy) = some rejParam := by decide +kernel

theorem test_WeightCommands :
    (let w := fun (len src : Nat) (addr : BitVec 64) (l : List Byte) (s : State) =>
       stat (.weightWrite (uhl (23 + l.length)) 0 (.table 1 1 1) 0 (BitVec.ofNat 32 len) (BitVec.ofNat 8 src) addr l) s
     let s := (rdy).wr .BMF_STAT_TALLOC 0 1
     let big := stat (.weightWrite (uhl 24) 0 (.table 64 1024 1024) 0 1 0 0 [1]) s
     w 129 1 0 [] s = some rejParam ∧ w 2 0 0 [1, 2] (rdy) = some rejState ∧ big = some rejBudget ∧ w 2 0 0 [1, 2] s = some stAccepted ∧
     w 2 1 0 [] { s with modl := { s.modl with pciUp := true } } = some stAccepted ∧ w 2 2 0x1000000000 [] s = some stAccepted ∧
     s.weightOps = [] ∧ s.unlockDue.setLocked 0 (s.shadowSet 0) = false ∧
     stat (.weightCopy (uhl 1) 0) (rdy) = some rejState ∧ stat (.weightCopy (uhl 1) 0) s = some stAccepted ∧
     stat (.weightCopy (uhl 1) 0) (withLong (.weight (wcmd [1] true)) s) = some stAccepted) := by decide +kernel
theorem test_WeightDeal :
    (let d := fun (k n : Nat) (s : State) => stat (.weightDeal (uhl 9) (BitVec.ofNat 8 k) (BitVec.ofNat 64 n)) s
     let s := mapped ((rdy (plan0 base)).wr .BMF_STAT_TALLOC 0 1)
     d 0 4096 s = some rejParam ∧ d 4 4096 s = some rejParam ∧ d 1 4095 s = some rejParam ∧ d 1 4096 s = some rejState ∧
     d 1 40960 (withLong (.weightDeal 1 8192) s) = some rejBusy ∧ d 1 40960 s = some stAccepted) := by decide +kernel
theorem test_ZoomCommands :
    (let z := fun (q : ZoomSettings) (s : State) => stat (.zoomChange (uhl 18) 5 q 0) s
     let q : ZoomSettings := ⟨0, 0, 3, 4, 1, 0⟩
     let s := mapped (rdy (engState beamPlan {}))
     let fast := { s with timeb := { s.timeb with map := some ⟨0, 0, 16, 1⟩ } }
     let slots := fun (x : ZoomSlot) (s : State) => { s with beams := { s.beams with slots := [(5, x)] } }
     z q (rdy) = some rejState ∧ z { q with dz := 3 } s = some rejParam ∧ z q (slots { fade := 3 } s) = some rejBusy ∧
     z q fast = some rejBudget ∧ z q s = some stAccepted ∧ z q (slots { inUse := true } s) = some stAccepted) ∧
    stat (.zoomCoef (uhl 129) 1 (List.replicate 32 5)) (rdy) = some stOk ∧
    stat (.zoomCoef (uhl 129) 1 (List.replicate 32 5)) (rdy (zState { inUse := true, cset := 1 })) = some rejBusy ∧
    stat (.zoomCoef (uhl 129) 1 (List.replicate 32 0x20000)) (rdy) = some rejParam := by decide +kernel
theorem test_ReleaseAndResend :
    (let r := fun (s : State) => stat (.release (uhl 8) 4096) s
     r (rdy (trickState [trickK 4096 true 1 1])) = some stOk ∧ r ((rdy (trickState [trickK 4096 true 1 1])).wr .PWR_STAT_STATE 0 1) = some rejBusy ∧
     r (rdy (trickState [trickK 4096 true 1 0])) = some rejState ∧ r (rdy) = some rejState) ∧
    (let r := fun (p k : Nat) (s : State) => stat (.resend (uhl 13) (BitVec.ofNat 8 p) 3 (BitVec.ofNat 32 k)) s
     let s := rdy (drainState { inUse := true, retained := [pktOf 3] } 0 [])
     r 3 1 s = some rejParam ∧ r 0 0 s = some rejParam ∧ r 0 2 s = some rejState ∧ r 0 1 s = some stOk ∧
     s.retainedRange 0 3 1 = some [pktOf 3]) ∧
    stat (.statsSend (uhl 9) 4096 3) (rdy) = some rejParam ∧ stat (.statsSend (uhl 9) 4096 0) (rdy) = some rejState ∧
    (let s := rdy { drainState { inUse := true } 0 [] with plans := (trickState []).plans, tricks := (trickState [trickK 4096 true 1 1]).tricks }
     stat (.statsSend (uhl 9) 4096 0) s = some stAccepted ∧ stat (.statsSend (uhl 9) 4096 0) (s.wr64 .OUT_PSIZE 0 0) = some rejFull) := by
  decide +kernel
theorem test_RingCommands :
    stat (.ringSize (uhl 1) 33) (rdy) = some rejParam ∧ stat (.ringSize (uhl 1) 32) (rdy) = some stOk ∧
    stat (.ringSize (uhl 1) 1) (rdy (plan0 base)) = some rejState ∧
    (let r := fun (b : Nat) (s : State) => stat (.hostRing (uhl 21) (BitVec.ofNat 64 b) 20 8 63 15 100) s
     r 4096 (rdy) = some rejParam ∧ r (2 ^ 20) ((rdy).wr .OUT_HCTL_EN 0 1) = some rejState ∧ r (2 ^ 20) (rdy) = some stOk) := by decide +kernel
theorem test_TimeCommands :
    (let t := fun (sec ns : Nat) (s : State) => stat (.timeSet (uhl 12) (BitVec.ofNat 64 sec) (BitVec.ofNat 32 ns)) s
     let pps := fun (at_ : Nat) => { rdy (sWith [(.REF_STAT_SEL, 0, 1)]) with clock := 20000000, timeb := { base.timeb with refs := [(0, { ppsAt := at_ })] } }
     t (2 ^ 48) 0 (rdy) = some rejParam ∧ t 5 1000000000 (rdy) = some rejParam ∧ t 5 6 ((rdy).wr .TIM_STAT_SET 0 1) = some rejState ∧
     t 5 6 (rdy) = some stOk ∧ t 5 0xFFFFFFFF (rdy) = some rejState ∧ t 5 0xFFFFFFFF (pps 1) = some rejBusy ∧
     t 5 0xFFFFFFFF (pps 0) = some stOk) ∧
    (let e := fun (s : State) => stat (.reEpoch (uhl 20) 9 5 6) s
     e (rdy (plan0 base)) = some rejState ∧ e (rdy (dealState none)) = some rejBusy ∧ e (rdy) = some stOk) ∧
    (let m := fun (p q : Nat) (s : State) => stat (.mapSet (uhl 20) 5 6 (BitVec.ofNat 32 p) (BitVec.ofNat 32 q)) s
     let s := rdy (sWith [(.TIM_STAT_SET, 0, 1)])
     m 1000 0 s = some rejParam ∧ m 15 1 s = some rejParam ∧ m 16 1 (rdy) = some rejState ∧ m 16 1 (dealState none s) = some rejBusy ∧
     m 16 1 s = some stOk ∧ m 1000000 1 s = some stOk) := by decide +kernel
def refCfgBytes : List Byte :=
  [0, 0, 0, 0] ++ leBytes 2 10 ++ leBytes 2 0 ++ leBytes 4 500000 ++ leBytes 4 1000000000 ++ leBytes 4 0 ++
    (List.replicate 3 ([1, 0] ++ leBytes 2 10 ++ leBytes 2 3600 ++ leBytes 10 0)).flatten
theorem test_ReferenceCommands :
    refCfgBad refCfgBytes = none ∧ stat (.refCfg (uhl 68) refCfgBytes) (rdy) = some stOk ∧
    stat (.refCfg (uhl 68) (5 :: refCfgBytes.drop 1)) (rdy) = some rejParam ∧
    stat (.phaseStep (uhl 4) 512000) (rdy) = some stOk ∧ stat (.phaseStep (uhl 4) 512001) (rdy) = some rejParam ∧
    stat (.ptpCfg (uhl 32) (0xFF :: List.replicate 31 0)) (rdy) = some stOk ∧
    stat (.ptpCfg (uhl 32) (2 :: List.replicate 31 0)) (rdy) = some rejParam := by decide +kernel
def someCapture : Capture := ⟨1, 0, 0, 0, 1, false, false, 3, 5, 0, 0, true, true⟩
def captured (n c : Nat) (s : State := base) : State := s.setCapture n c (some someCapture)
theorem test_MemoryAndFaultCommands :
    stat (.ledgerRead (uhl 4) 0 1) (rdy) = some stOk ∧ stat (.ledgerRead (uhl 4) 65535 2) (rdy) = some rejParam ∧
    stat (.ledgerRead (mh 4) 0 6) (rdy) = some rejParam ∧
    stat (.memStatus (uhl 1) 5) (rdy) = some stOk ∧ stat (.memStatus (uhl 1) 6) (rdy) = some rejParam ∧
    stat (.memCfg (uhl 8) [6, 0, 0, 0, 100, 0, 0, 0]) (rdy) = some stOk ∧ stat (.memCfg (uhl 8) [5, 0, 0, 0, 100, 0, 0, 0]) (rdy) = some rejParam ∧
    stat (.memCfg (uhl 8) [6, 0, 0, 0, 99, 0, 0, 0]) (rdy) = some rejParam ∧
    stat (.faultRead (uhl 2) 0x7C) (rdy) = some stOk ∧ stat (.faultRead (uhl 2) 0x7D) (rdy) = some rejParam ∧
    stat (.faultAck (uhl 3) 3 1) (rdy (captured 3 1)) = some stOk ∧ (rdy).capture 3 1 = none ∧
    stat (.faultAck (uhl 3) 3 1) (rdy) = some stOk ∧ stat (.faultAck (uhl 3) 3 3) (rdy) = some rejParam ∧
    stat (.reactionSet (uhl 5) 3 1 9 0) (rdy) = some stOk ∧ stat (.reactionSet (uhl 5) 3 3 9 0) (rdy) = some rejParam := by decide +kernel
theorem test_ServiceCommands :
    stat (.regRead (uhl 6) 0x400008 1) (rdy) = some stOk ∧ stat (.regRead (uhl 6) 0x318000 1) (rdy) = some errInternal ∧
    stat (.regRead (uhl 6) 0x400008 65) (rdy) = some rejParam ∧
    stat (.regWrite (mh 8) 0x400008 10) { rdy with lcs := 2 } = some rejAuth ∧ stat (.regWrite (uhl 8) 0x400008 10) (rdy) = some stOk ∧
    stat (.regWrite (uhl 8) 0x318000 10) (rdy) = some errInternal ∧
    eventWord (Fld.HBM_GEVT_LOST.at 0) = false ∧ stat (.regWrite (uhl 8) (BitVec.ofNat 32 (Fld.HBM_GEVT_LOST.at 0)) 10) (rdy) = some stOk ∧
    stat (.selftest (uhl 1) 0) (rdy) = some stAccepted ∧
    (let s : State := { rdy with dealer := { (rdy).dealer with longs := List.replicate 16 (longOf .planDeal) } }
     stat (.selftest (uhl 1) 0) s = some rejBusy) := by decide +kernel
/-- A kernel image of 8 program bytes, signed with key 0 or with none. -/
def image (id : Byte) : List Byte := leBytes 4 0x4F4B4E4C ++ [1, 2, 100, 0, 8, 0, 0, 0, 0, 0, 0, 0, id] ++ leBytes 15 0 ++ leBytes 72 0
theorem test_KeyCommands :
    (let k := fun (s : State) => stat (.keyEnrol (uhl 33) 1 (List.replicate 32 7)) s
     k (rdy (sWith [(.ENG_KSTAT_KEYLOCK, 0, 1)])) = some rejAuth ∧ k (rdy (sWith [(.SPD_SECSTAT_FAIL, 0, 1)])) = some rejState ∧
     k (rdy (sWith [(.SPD_SECSTAT_WIPING, 0, 1)])) = some rejBusy ∧ k (rdy (sWith [(.ENG_KSTAT_KEYS, 0, 2)])) = some rejFull ∧
     k (rdy) = some stOk) ∧ stat (.keyLock uh) (rdy) = some stOk ∧
    (let l := fun (i : List Byte) (s : State) => stat (.kernelLoad (uhl (1 + i.length)) 1 i) s
     kernelBad (image 0xFF) true = none ∧ kernelBad (image 0xFF) false = none ∧ kernelBad (image 9) false = some 16 ∧ kernelBad (image 9) true = none ∧ l (image 0) { rdy with lcs := 2 } = some rejAuth ∧ l [] { rdy with lcs := 1 } = some rejParam ∧
     l (image 0xFF) { rdy with lcs := 3 } = some rejState ∧ l (image 0xFF) { rdy with lcs := 1 } = some stAccepted ∧
     l (image 0xFF) { rdy (sWith [(.SPD_SECSTAT_WIPING, 0, 1)]) with lcs := 1 } = some rejBusy) := by decide +kernel
/-- RFC 8032, section 7.1, test 1: the public key, the empty message and its signature; and another message. -/
theorem test_Ed25519 :
    let key := leBytes 32 0x1a5107f7681a02af2523a6daf372e10e3a0764c9d3fe4bd5b70ab18201985ad7
    let sig := leBytes 64 0x0b107a8e4341516524be5b59f0f55bd26bb4f91c70391ec6ac3ba3901582b85f5501492265e073d874d9e5b81e7f87848a826e80cce2869072ac60c3004356e5
    ed25519Verify key [] sig = true ∧ ed25519Verify key [0] sig = false := by decide +kernel
theorem test_KernelEnds :
    stat (.kernelErase (uhl 1) 1) (rdy) = some stOk ∧
    stat (.kernelErase (uhl 1) 1) (slot2 { built := true, shadow := [(3, 3), (5, 1)] }) = some rejBusy ∧
    after (.kernelLoadComplete 1) { withLong (.kernelLoad 1 [9]) with lcs := 1 } (fun t => tget [] t.modl.kernels 1 == [9]) = true ∧
    after (.kernelLoadComplete 1) { withLong (.kernelLoad 1 [9]) with lcs := 2 } (fun t => t.on .ENG_KEVT_LOADREJ) = true ∧
    after (.fwCommitComplete true) (withLong (.fwCommit 1)) (fun t => t.rd .MOD_BOOT_MARKED == 1 && t.dealer.longs == []) = true ∧
    after (.selftestComplete true 0 0) (withLong (.selftest 0)) (fun t => t.dealer.longs == []) = true := by decide +kernel

/-! ### Fabric, memories, DMA, faults, resets, power and boot (R402 to R528) -/
/-- Bank 0 is owned by `m` and its group is on. -/
def spdState (m : Nat) : State := sWith [(.SPD_OWN_OWNER, 0, m), (.SPD_STAT_ON, 0, 1)]
/-- Whether the last message is the answer of an access by `m`, with bytes or with an error. -/
def answers (m : Nat) (ok : Bool) (l : List Byte) (t : State) : Bool := t.sent.head? == some (.access m ok l)
theorem test_FabricScratchpad :
    (let s := spdState 0x10
     let a := acc 0x10 spdBase 8
     s.waits a tyRead = false ∧ masterOk 0x10 = true ∧ (banksOf 0 8).all (s.bankServes a) = true ∧
     after (.atomicSwap a 0x0102030405060708) s (fun t => answers 0x10 true (List.replicate 8 0) t &&
       tgetMany 0 t.spd.mem 0 8 == leBytes 8 0x0102030405060708) = true ∧
     after (.atomicAdd a 2) { s with spd := { s.spd with mem := tsetMany 0 [] 0 (leBytes 8 (2 ^ 64 - 1)) } }
       (fun t => tgetMany 0 t.spd.mem 0 8 == leBytes 8 1) = true ∧
     after (.atomicAdd (acc 0x10 (spdBase + 4) 8) 2) s (answers 0x10 false []) = true ∧
     after (.fabricWrite { a with portB := true, contended := true } (List.replicate 8 1)) s
       (fun t => t.sent.head? == some (.collision 0x10) && t.on .SPD_EVT_COLLIDE) = true ∧
     (banksOf 0 8).find? (fun b => !s.bankServes (acc 0x11 spdBase 8) b) = some 0 ∧
     after (.fabricRead (acc 0x11 spdBase 8)) s (fun t => answers 0x11 false [] t && t.on .SPD_EVT_NONOWNER) = true ∧
     (s.wr .SPD_STAT_CLEARING 0 1).waits a tyRead = true) := by decide +kernel
theorem test_FabricScratchpad_bad :
    (let s : State := { spdState 0x10 with spd := { bad := [(0, true)] } }
     let a := acc 0x10 spdBase 8
     let ue := fun (t : State) => answers 0x10 false [] t && t.on .SPD_EVT_UE && t.flt.waiting == [(mkFault (srcBank 0) 2 1 spdBase 0x10 tyRead, 1)]
     s.badWord 0 8 false = some 0 ∧ s.badWord 0 8 true = none ∧ s.badWord 0 4 true = some 0 ∧
     after (.fabricRead a) s ue = true ∧ after (.atomicAdd a 1) s (fun t => answers 0x10 false [] t && t.on .SPD_EVT_UE) = true ∧
     after (.fabricWrite (acc 0x10 spdBase 4) [1, 2, 3, 4]) s (fun t => answers 0x10 false [] t && t.spd.bad == [(0, true)]) = true ∧
     after (.fabricWrite a (List.replicate 8 1)) s (fun t => answers 0x10 true [] t && t.spd.bad == [] && tget 0 t.spd.mem 7 == 1) = true) := by
  decide +kernel
theorem test_FabricBars :
    (let b := fun (w : Bar) (o n : Nat) => { acc 9 o n with bar := some w }
     let no := fun (a : Access) (s : State) => after (.fabricRead a) s (fun t => answers 0 false [] t && t.on .FAB_EVT_UNMAPPED)
     base.barAddr .bar0 0x318008 4 = some 0x20318008 ∧ base.barAddr .bar2 0x1FFFFF8 8 = some 0x11FFFFF8 ∧
     base.barAddr .bar2 0x2000000 4 = some 0x12000000 ∧ base.barAddr .bar2 0x3FFFFFC 4 = some 0x60FFFFFC ∧
     (sWith [(.FAB_APSIZE_LOG2, 0, 30)]).barAddr .bar4 0x3FFFFFFC 4 = some 0x103FFFFFFC ∧
     after (.fabricRead (b .bar2 0 8)) (spdState 0) (answers 0 true (List.replicate 8 0)) = true ∧
     let v : State := sWith [(.FAB_ERRINFO_VALID, 0, 1), (.FAB_APSIZE_LOG2, 0, 30)]
     no (b .bar0 0xFFFFFFE 4) v = true ∧ no (b .bar2 0x1FFFFFC 8) v = true ∧ no (b .bar2 0x2100000 4) v = true ∧
     no (b .bar2 0x3FFFFFE 4) v = true ∧ no (b .bar4 0x3FFFFFFE 4) v = true) := by decide +kernel
theorem test_FabricRegions :
    (let s := base
     let no := fun (a : Access) (s : State) => after (.fabricRead a) s (answers a.master.toNat false [])
     let yes := fun (a : Access) (s : State) => after (.fabricRead a) s (answers a.master.toNat true (List.replicate a.size 0))
     masterOk 5 = false ∧ no (acc 5 spdBase 8) s = true ∧ no (acc 1 0x100000 4) s = true ∧
     no (acc 3 0x20000000 4) { s with lcs := 2 } = true ∧ no (acc 0 0x12000000 4) s = true ∧
     after (.fabricWrite { acc 1 0x12000000 2 with secure := true } [1, 2]) s
       (fun t => answers 1 true [] t && tgetMany none t.sec.mem 0 2 == [some 1, some 2]) = true ∧
     yes (acc 1 0x20318008 4) s = false ∧ regRow 0x318000 = none ∧ no (acc 1 0x20318000 4) s = true ∧
     windowRegion 0x10000 4 = none ∧ windowRegion 0x20000 4 = some 1 ∧ windowRegion 0 4 = some 0 ∧
     no (acc 1 0x40010000 4) s = true ∧ yes (acc 1 0x40020000 4) s = true ∧ yes (acc 1 0x40000000 4) s = true ∧
     after (.fabricWrite (acc 0 0x40020000 4) [1, 2, 3, 4]) { s with lcs := 2 } (fun t => t.on .ENG_KEVT_SANDBOXWR) = true ∧
     yes (acc 1 0x60000000 4) s = true ∧ no (acc 2 0x60000000 4) s = true ∧
     after (.fabricWrite (acc 1 0x60000000 1) [1]) s (answers 1 false []) = true) := by decide +kernel
theorem test_FabricHbmAndHost :
    (let s := base
     let bad : State := { s with hbm := { s.hbm with poison := [(1, true)] } }
     s.hbmPoisoned 0 8 = false ∧ bad.hbmPoisoned 1024 8 = true ∧ s.touchesWeights 0 8 = false ∧
     after (.fabricWrite (acc 1 hbmBase 2) [1, 2]) s (fun t => answers 1 true [] t && t.hbmRead 0 2 == [1, 2]) = true ∧
     after (.fabricRead (acc 1 (hbmBase + 1024) 8)) bad (answers 1 false []) = true ∧
     after (.fabricRead (acc 0 (hbmBase + 2 ^ 36) 8)) s (answers 0 false []) = true ∧
     after (.fabricRead (acc 1 0x8000000000 1)) s (answers 1 false []) = true ∧
     after (.fabricRead (acc 1 0x8000000000 1)) { s with modl := { s.modl with pciUp := true } } (answers 1 true [0]) = true) := by
  decide +kernel
/-- Master 0x10 holds bank 0 locked after `n` accesses. -/
def lockState (n : Nat) : State :=
  let s := spdState 0x10
  { s with fab := { s.fab with locks := [⟨0x10, 0, n⟩] } }
theorem test_LockedSequences :
    (let a := acc 0x10 spdBase 8
     let l := List.replicate 8 9
     mayLock 0x10 = true ∧ mayLock 0 = false ∧ (spdState 0x10).targetsOf a = [0] ∧
     after (.lockedRead (acc 0 spdBase 8) true) (spdState 0) (fun t => answers 0 false [] t && t.on .FAB_EVT_UNMAPPED) = true ∧
     after (.lockedRead a false) (spdState 0x10) (fun t => t.lockOf 0x10 == some ⟨0x10, 0, 1⟩) = true ∧
     after (.lockedRead a true) (spdState 0x10) (fun t => t.lockOf 0x10 == none && answers 0x10 true (List.replicate 8 0) t) = true ∧
     after (.lockedWrite a l false) (lockState 3) (fun t => t.lockOf 0x10 == some ⟨0x10, 0, 4⟩ && tget 0 t.spd.mem 0 == 9) = true ∧
     after (.lockedWrite a l true) (lockState 3) (fun t => t.lockOf 0x10 == none && answers 0x10 true [] t) = true ∧
     after (.lockedWrite a l true) (lockState 4) (fun t => answers 0x10 false [] t && t.on .FAB_EVT_LOCKBRK && t.spd.mem == []) = true ∧
     after (.lockedWrite (acc 0x10 (spdBase + 8) 8) l false) (lockState 3)
       (fun t => answers 0x10 false [] t && t.lockOf 0x10 == some ⟨0x10, 0, 4⟩) = true ∧
     after (.lockTimeout 0x10) (lockState 1) (fun t => t.fab.broken == [0x10] && t.lockOf 0x10 == none) = true ∧
     after (.lockedRead a false) { spdState 0x10 with fab := { (spdState 0x10).fab with broken := [0x10] } }
       (fun t => answers 0x10 false [] t && t.fab.broken == []) = true ∧
     after (.fabricRead (acc 0x11 spdBase 8)) (lockState 1) (fun t => t.fab.held.length == 1) = true) := by decide +kernel
theorem test_ScratchpadBanks :
    after (.spdOwn 1 0 0x10) base (fun t => t.ownerOf 0 == 0x10) = true ∧
    after (.spdOwn 0x11 0 0x11) (spdState 0x10) (fun t => t.ownerOf 0 == 0x10 && t.on .SPD_EVT_NONOWNER) = true ∧
    (let p := fun (req : BitVec 16) (s : State) (f : State → Bool) => after (.spdPwr req) s f
     let on := sWith [(.SPD_PWR_REQ, 0, 1)] (spdState 0xFF)
     let free := sWith [(.SPD_OWN_OWNER, 1, 0xFF), (.SPD_OWN_OWNER, 2, 0xFF), (.SPD_OWN_OWNER, 3, 0xFF)] on
     let offs := sWith [(.SPD_PWR_REQ, 0, 0)]
     bitOf (offs.rd .SPD_PWR_REQ) 0 = false ∧ p 1 offs (fun t => bitOf (t.rd .SPD_STAT_CLEARING) 0) = true ∧
     free.unowned 0 = true ∧ p 0 free (fun t => t.rd .SPD_STAT_ON == 0) = true ∧
     (spdState 0x10).unowned 0 = false ∧ p 0 (sWith [(.SPD_PWR_REQ, 0, 1)] (spdState 0x10)) (fun t => t.on .SPD_EVT_PWRREJ) = true) ∧
    after (.zeroingDone 0) (sWith [(.SPD_STAT_CLEARING, 0, 1)]) (fun t => t.rd .SPD_STAT_CLEARING == 0) = true := by decide +kernel
theorem test_PatrolAndWipes :
    (let p := sWith [(.SPD_PATROL_EN, 0, 1), (.SPD_STAT_ON, 0, 1)]
     let s := { p with modl := { p.modl with warm := false, mrst := false } }
     s.inReset = false ∧ s.bankLocked = false ∧
     after (.patrolSegment .passed) (s.wr .SPD_PATPOS_SEGMENT 0 16383) (fun t => t.rd .SPD_PATPOS_SEGMENT == 0) = true ∧
     after (.patrolSegment (.failed 0 5)) s (fun t => t.on .SPD_EVT_PATROLFAIL && t.spd.failed == [(0, 5, s.ledger.nextItem)]) = true ∧
     (let k : State := { s with spd := { s.spd with failed := [(0, 5, 3)] } }
      k.spd.failed.any (fun f => f.1 == 0 && f.2.1 == 5) = true ∧ k.spd.failed.any (fun f => f.1 == 0 && f.2.1 == 6) = false ∧
      after (.patrolSegment (.failed 0 5)) k (fun t => t.spd.failed.length == 1 && t.on .SPD_EVT_PATROLFAIL) = true ∧
      after (.patrolSegment (.failed 0 6)) k (fun t => t.spd.failed.length == 2) = true)) ∧
    (let r : State := { base with modl := { base.modl with running := true } }
     let o : State := { base with modl := { base.modl with running := false } }
     let th : State := { o with pow := { o.pow with thermal := true } }
     after .lidOpened r (fun t => t.on .SPD_SECSTAT_WIPING && t.rd .SPD_SECSTAT_CAUSE == 1) = true ∧
     after .lidOpened o (fun t => t.modl.lid && !t.on .SPD_SECSTAT_WIPING) = true ∧
     after .voltageGlitch o (fun t => decide (t = o)) = true ∧ after .voltageGlitch th (fun t => t.sec.causes == [2]) = true) ∧
    (let w := fun (k : Option Nat) => { sWith [(.SPD_SECSTAT_WIPING, 0, 1)] with sec := { keys := [(0, [1])], target := k } }
     after (.secureWipeDone true) (w (some 3)) (fun t => t.lcs == 3 && t.sec.keys == []) = true ∧
     after (.secureWipeDone false) (w none) (fun t => t.on .SPD_SECSTAT_FAIL) = true) := by decide +kernel
theorem test_StackHealth :
    (let on : State := sWith [(.HBM_SSTAT_STATE, 0, 2)] { base with modl := { base.modl with warm := false, mrst := false } }
     let t := fun (x : Int) (s : State) (f : State → Bool) => after (.stackTemperatureReading 0 x) s f
     let lost := fun (t : State) => t.rd .HBM_SSTAT_STATE == stLost
     let unlocked : State := { on with hbm := { on.hbm with lockLost := [(0, true)] } }
     let deep : State := { on with hbm := { on.hbm with debt := [(0, 8)], capFail := [(0, 2)] } }
     on.stackOn 0 = true ∧ base.stackOn 0 = false ∧ on.inReset = false ∧
     t 85 on (fun t => t.on .HBM_SSTAT_HOT) = true ∧ t 82 (on.wr .HBM_SSTAT_HOT 0 1) (fun t => !t.on .HBM_SSTAT_HOT) = true ∧
     t 95 on (fun t => !t.on .HBM_SSTAT_THROTTLE) = true ∧ t 96 on (fun t => t.on .HBM_SSTAT_THROTTLE) = true ∧
     t 100 on lost = true ∧ t 85 deep (fun t => t.hbm.debt == [(0, 4)] && t.hbm.catchEnd == [(0, deep.clock + 1400)] && t.catching 0) = true ∧
     after (.interfaceLockLost 0) on (fun t => tget false t.hbm.lockLost 0) = true ∧
     after (.interfaceLockRegained 0) unlocked (fun t => !tget false t.hbm.lockLost 0) = true ∧
     after (.interfaceLockTimeout 0) unlocked lost = true ∧
     after (.commandAddressParityError 0 0 false) deep (fun t => bitOf (t.rd .HBM_SPCRET_MAP) 0) = true ∧
     after (.commandAddressParityError 0 0 true) deep (fun t => t.hbm.capFail == []) = true ∧
     after (.refreshInterval 0 0 true) deep (fun t => t.rd .HBM_SSTALL_NS == 350) = true ∧
     after (.refreshInterval 0 0 false) deep (fun t => t.hbm.debt == []) = true ∧
     after .rebuild { on with hbm := { on.hbm with jobs := [(0, 32, 1)] } } (fun t => t.on .HBM_GEVT_REBUILT && t.hbm.jobs == []) = true ∧
     after .rebuild { on with hbm := { on.hbm with jobs := [(0, 32, 2)] } } (fun t => t.hbm.jobs == [(0, 32, 1)]) = true) := by
  decide +kernel
theorem test_LedgerWrites :
    (let r : LRec := { nslot := 1, type := 7, key := 5, dsn := 9, payload := [1, 2, 3] }
     let s : State := { sWith [] with ledger := { base.ledger with pend := [r] } }
     let snap : State := { s with pow := { s.pow with snapRun := true } }
     let w := fun (n : Nat) (s : State) (f : State → Bool) => after (.ledgerRecordWrite n) s f
     s.snapWaits = false ∧ s.unreleased = [] ∧ s.on .LGR_STAT_RO = false ∧ s.ledger.recs = [] ∧ twf 0 s.ledger.mem = true ∧
     s.ledger.head + 1 < runLen s.ledger.ring ∧ 0 < s.rd .LGR_SPARE_LEFT ∧
     w 0 s (fun t => tgetMany 0 t.ledger.mem 0 256 == r.bytes 1 && t.ledger.head == 1 && t.rd .LGR_RECCNT_COUNT == 1) = true ∧
     w 1 s (fun t => t.on .LGR_EVT_SLOTRET && t.rd .LGR_SPARE_LEFT == s.rd .LGR_SPARE_LEFT - 1) = true ∧
     w 1 (s.wr .LGR_SPARE_LEFT 0 0) (fun t => t.on .LGR_STAT_RO && t.ledger.pend == []) = true ∧
     snap.snapWaits = true ∧ w 0 snap (fun t => t.ledger.pend == [r]) = true ∧
     (snap.ledger.regions.head?).map (·.1) = some 0 ∧
     after .powerFailSnapshot (snap.wr .LGR_STAT_RO 0 1) (fun t => t.pow.snapDone) = true) := by decide +kernel
/-- DMA channel 0 in state `st`, moving with descriptor `d` or with none. -/
def dmaState (st : Nat) (x : DmaX) : State :=
  let s := (sWith [(.DMA_CSTAT_STATE, 0, st)]).wr64 .DMA_CCUR 0 hbmBase
  { s with dma := [(0, x)] }
def aDesc (ctl : Nat) : Desc := ⟨hbmBase, hbmBase + 4096, 64, ctl, 0, 128⟩
/-- A descriptor's 64 bytes at the start of the HBM. -/
def withDesc (d : Desc) (s : State) : State :=
  s.hbmWrite 0 (leBytes 8 d.src ++ leBytes 8 d.dst ++ leBytes 4 d.count ++ leBytes 4 d.ctl ++ leBytes 40 0)
theorem test_DmaChannels :
    (let st := fun (n : Nat) (t : State) => t.rd .DMA_CSTAT_STATE == n
     let x : DmaX := { desc := some (aDesc 1) }
     let halted := (dmaState dcHalted x).wr .DMA_GSTAT_HALTED 0 1
     (dmaState 0 {}).dmaReserved 0 = false ∧ ((dmaState 0 {}).wr .OUT_HCTL_EN 0 1).dmaReserved 15 = true ∧
     after (.dmaStart 15) ((dmaState 0 {}).wr .OUT_HCTL_EN 0 1) (fun t => t.on .DMA_EVT_RSVDWR) = true ∧
     after (.dmaStart 0) (dmaState 0 {}) (st dcFetch) = true ∧ after (.dmaStart 0) (dmaState 0 { stuck := true }) (st 0) = true ∧
     after (.abort 0) (dmaState dcMove x) (fun t => (t.dmac 0).aborting) = true ∧
     after (.abort 0) (dmaState dcFetch {}) (fun t => st 0 t && t.rd .DMA_CSTAT_LAST == dsAborted) = true ∧
     after .dmaResume halted (fun t => st dcMove t && t.rd .DMA_HALTCNT_COUNT == 1) = true ∧
     after .autores (halted.wr .DMA_GCTL_AUTORES 0 1) (st dcMove) = true ∧
     after (.busError 5 3 true) (dmaState dcMove x) (fun t => st dcHalted t && t.rd64 .DMA_ERRADDR == 5) = true ∧
     after (.doneErr 0) (dmaState dcMove x) (fun t => t.on .DMA_EVT_DONEERR && (t.dmac 0).stuck) = true ∧
     after (.descriptorFetch 0) (withDesc (aDesc 1) (dmaState dcFetch {})) (st dcMove) = true ∧
     after (.descriptorFetch 0) (dmaState dcFetch {}) (fun t => st 0 t && t.on .DMA_EVT_DESCERR) = true ∧
     after (.descriptorFetch 0) ((dmaState dcFetch {}).wr64 .DMA_CCUR 0 (2 ^ 40)) (st dcHalted) = true) := by decide +kernel
theorem test_DmaMoves :
    (let x : DmaX := { desc := some (aDesc 1) }
     let s := dmaState dcMove x
     let e := fun (ctl : Nat) => dmaState dcMove { desc := some (aDesc ctl), moved := 64 }
     s.nextBurst = some 0 ∧ (dmaState 0 {}).nextBurst = none ∧ s.dmaWaits hbmBase 64 tyRead = false ∧ burstLen (hbmBase + 4096) 64 = 64 ∧
     after .dmaBurstComplete (s.hbmWrite 0 (List.replicate 64 7))
       (fun t => t.hbmRead 4096 64 == List.replicate 64 7 && (t.dmac 0).moved == 64) = true ∧
     after (.descriptorEnd 0) (e 9) (fun t => t.rd .DMA_CSTAT_STATE == dcDone && t.sent == [.msix 0]) = true ∧
     after (.descriptorEnd 0) (e 0) (fun t => t.rd .DMA_CSTAT_STATE == dcFetch && t.rd64 .DMA_CCUR == 128) = true ∧
     after (.descriptorEnd 0) (e 17) (fun t => t.hbmRead 48 8 == leBytes 4 dsDone ++ leBytes 4 64) = true) := by decide +kernel
theorem test_FaultCollector :
    (let msg := fun (n k c : Nat) => mkFault n k c 0
     let f := fun (n k c : Nat) (s : State) (p : State → Bool) => after (.faultMessage (some (msg n k c))) s p
     base.fab.held = [] ∧ base.flt.waiting = [] ∧ base.dealer.exhausted = false ∧ base.dealer.dsn < 2 ^ 63 ∧
     srcOk 0x7D = false ∧ srcOk srcPower = true ∧ hasReset srcPower = false ∧ 0x1C0 ≤ srcPower ∧
     after (.fltAck (BitVec.ofNat 32 (3 + 2 ^ 16))) (captured 3 1) (fun t => t.capture 3 1 == none && t.dealer.events.length == 1) = true ∧
     after (.fltReact 0 9) base (fun t => t.reaction (base.selOf 0).1 (base.selOf 0).2 == ⟨1, 1, false⟩) = true ∧
     after (.fltReact 0 7) base (fun t => t.on .FLT_EVT_REACTREJ) = true ∧
     after (.faultConditionCleared 3 1) (captured 3 1) (fun t => t.capture 3 1 == some { someCapture with live := false }) = true ∧
     after (.faultMessage none) { captured 0x60 1 with flt := { (captured 0x60 1).flt with waiting := [(msg 0x60 1 1, 4)] } }
       (fun t => (t.capture 0x60 1).map (·.count) == some 7 && t.flt.waiting == []) = true ∧
     f 0x60 1 1 (captured 0x60 1) (fun t => (t.capture 0x60 1).map (·.count) == some 4 && t.rd .FLT_CNTU_COUNT == 1) = true ∧
     f 0 2 1 (sWith [(.ENG_STAT_STATE, 0, egIdle)] (captured 0 1)) (fun t => t.rd .ENG_STAT_STATE == egRetired) = true ∧
     f 0x180 2 1 (captured 0x180 1) (fun t => t.on .SPD_EVT_UE) = true ∧
     f srcPower 1 1 base (fun t => t.on .FLT_EVT_CAPTURE && t.on .FLT_STAT_FAULTN &&
       (t.capture srcPower 1).map (·.level) == some 1) = true ∧
     f srcPower 1 1 (captured 3 1) (fun t => t.on .FLT_EVT_ESCALATE && (t.capture srcPower 1).map (·.level) == some 2) = true) := by
  decide +kernel
/-- A module that is running and out of reset, with fields written. -/
def up (l : List (Fld × Nat × Nat)) : State :=
  let s := sWith l
  { s with modl := { s.modl with running := true, fw := true, warm := false, mrst := false, resetDue := none } }
theorem test_ResetsAndSupply :
    (let due := fun (s : State) => { s with modl := { s.modl with resetDue := some 5 } }
     let u := up [(.PWR_STAT_STATE, 0, 0)]
     let st := fun (n : Nat) (t : State) => t.rd .PWR_STAT_STATE == n
     let flush := fun (th ao : Bool) => { up [(.PWR_STAT_STATE, 0, 1)] with pow := { snapRun := true, snapDone := true, thermal := th, alwaysOn := ao } }
     (due u).modl.resetDue = some 5 ∧ u.modl.running = true ∧ u.modl.warm = false ∧ u.rd .PWR_STAT_STATE = 0 ∧ u.frozen = false ∧
     after .mrstNAsserted { u with modl := { u.modl with warm := true } } (fun t => t.modl.mrst) = true ∧
     (let m : State := { u with modl := { u.modl with mrst := true, warm := true, resetDue := some 3 } }
      m.modl.mrst = true ∧ m.modl.resetDue = some 3 ∧ m.modl.warm = true ∧ m.frozen = false ∧ m.fab.held = [] ∧ m.bootsFirmware = true ∧
      State.bootsFirmware { m with modl := { m.modl with waitIn := some ⟨0, false, false, false, [], []⟩ } } = false ∧
      after .mrstNReleased (m.wr .PWR_STAT_STATE 0 2) (fun t => !t.modl.mrst && t.modl.resetDue == some 3) = true) ∧
     after .ready { (up [(.LGR_STAT_SCANNED, 0, 1), (.FLT_STAT_RESETHOLD, 0, 0), (.MOD_STAT_TESTMODE, 0, 0)]) with lcs := 0 }
       (fun t => t.on .MOD_STAT_READY) = true ∧
     after (.powerFailWarning true 400) u (fun t => st 1 t && t.pow.snapRun && t.on .PWR_STAT_LOSS) = true ∧
     after .flushComplete (flush false false) (st 2) = true ∧ after .flushComplete (flush true false) (fun t => !t.modl.running) = true ∧
     after .flushComplete (flush false true) (fun t => t.modl.coldCause == 0 && !t.modl.running) = true ∧
     (up [(.PWR_STAT_STATE, 0, 2)]).unreleased = [] ∧
     after .supplyRecovered (up [(.PWR_STAT_STATE, 0, 2)]) (fun t => st 0 t && t.on .PWR_EVT_DIP) = true ∧
     after .busBelow108V u (fun t => !t.modl.running && t.modl.coldCause == 1) = true ∧
     after .thermalTrip u (fun t => st 1 t && t.pow.thermal) = true ∧
     after .thermalTrip (up [(.PWR_STAT_STATE, 0, 2)]) (fun t => !t.modl.running && t.modl.coldCause == 2) = true) := by decide +kernel
theorem test_ResetsAndSupply_image :
    (let s := fun (l : List (Fld × Nat × Nat)) => { (up (l ++ [(.SPD_STAT_ON, 0, 0xFFFF)])) with spd := { mem := [(3, 9), (0x100000, 8)] } }
     let f := fun (l : List (Fld × Nat × Nat)) => { s l with modl := { (s l).modl with flash := [(0, 5), (2 ^ 32 + 1, 6)] } }
     (f [(.MOD_BOOT_UARTBOOT, 0, 1)]).on .MOD_BOOT_UARTBOOT = true ∧ (f [(.MOD_BOOT_UARTBOOT, 0, 1)]).warmBoot.spd = (s []).spd ∧
     (f []).on .MOD_BOOT_UARTBOOT = false ∧ (f [(.MOD_STRAP_BOOT, 0, 1)]).warmBoot.spd.mem = [(0, 5), (0x100000, 8)] ∧
     (f [(.MOD_STRAP_BOOT, 0, 2), (.MOD_BOOT_SLOT, 0, 1)]).warmBoot.spd.mem = [(1, 6), (0x100000, 8)] ∧
     (f [(.MOD_STRAP_BOOT, 0, 0), (.MOD_BOOT_SLOT, 0, 1), (.MOD_BOOT_MARKED, 0, 1)]).warmBoot.rd .MOD_BOOT_SLOT = 1) := by decide +kernel
theorem test_Boot :
    (let off : State := { base with modl := { base.modl with running := false, waitIn := none, fw := false } }
     let cold := fun (straps : Nat) (a : Bool) => (⟨BitVec.ofNat 15 straps, false, a, a, [], []⟩ : ColdInput)
     off.pow.thermal = false ∧ bootChoice 0 0 true true = some (0, false) ∧ bootChoice 0 0 false true = some (1, true) ∧
     bootChoice 1 0 false true = none ∧ off.ledger.recs = [] ∧
     off.modl.running = false ∧ 0x4005 / 256 % 4 = 0 ∧ bitOf 0x4005 14 = true ∧
     after (.coldStart (cold 0x4000 false)) off (fun t => t.modl.waitIn == some (cold 0x4000 false) && t.on .MOD_STAT_FAULTN) = true ∧
     after (.coldStart (cold 0 true)) off (fun t => t.on .MOD_STAT_TESTMODE && !t.modl.fw) = true ∧
     after (.uartBootImageReceived false) { off with modl := { off.modl with running := true, waitIn := some (cold 0x4000 false) } }
       (fun t => !t.modl.fw && t.modl.waitIn.isSome) = true) := by decide +kernel
theorem test_Surroundings :
    (let rail := fun (d : Fin 164) (s : State) (p : State → Bool) => after (.railFault d) s p
     let again : State := { up [] with pow := { repowered := [(134, 1)] }, modl := { (up []).modl with perst := false } }
     after (.strapChange 77) base (fun t => t.rd .MOD_STRAP_LIVE == 77 && t.on .MOD_EVT_STRAPCHG) = true ∧
     after (.jtagInstruction .extest) (sWith [(.MOD_STAT_TESTMODE, 0, 0)]) (fun t => decide (t.modl.tap = .bypass)) = true ∧
     after .fundamentalResetReleased base (fun t => !t.modl.perst) = true ∧
     rail 0 (up [(.ENG_STAT_STATE, 0, egIdle)]) (fun t => t.rd .ENG_STAT_STATE == egRetired && t.on .PWR_EVT_RAILFAULT) = true ∧
     rail 96 (up [(.HBM_SSTAT_STATE, 0, 2)]) (fun t => t.rd .HBM_SSTAT_STATE == stLost) = true ∧
     rail 161 (up []) (fun t => t.refState == rsFault) = true ∧
     rail 163 (up []) (fun t => t.pow.alwaysOn && t.rd .PWR_STAT_STATE == 1) = true ∧
     again.domainOn 134 = true ∧ rail 134 again (fun t => t.modl.resetDue == some 5 && tget false t.pow.leftOff 134) = true ∧
     after (.fanFailed 5) base (fun t => bitOf (t.rd .PWR_FAN_FAILED) 5) = true ∧
     after (.inletAirAbove40 41) base (fun t => t.flt.waiting.length == 1) = true ∧
     after (.inletAirAbove40 40) base (fun t => t.flt.waiting.length == 0) = true ∧
     after .pcieLinkDown { base with modl := { base.modl with pciUp := true } } (fun t => !t.modl.pciUp) = true ∧
     after (.pcieLinkTrained 8 64) (up []) (fun t => t.modl.pciUp && t.flt.waiting.length == 1) = true) := by decide +kernel

theorem test_LaneCommands_service :
    (let s := rdy (inService [])
     s.lnState 0 = lnService ∧ s.rd .VLK_STAT_BUNDLE 0 < 5 ∧ s.laneBusy 0 = false ∧
     after (.laneRelease (uhl 1) 0) s (fun t => (t.lane 0).releasing && t.dealer.longs.length == 1 && (t.bundle 0).change.map (·.epoch) == some 1) = true) ∧
    (let s := rdy (sWith [(.VLK_STAT_STATE, 5, lnCheck)])
     s.climbing 5 = true ∧ after (.laneRestore (uhl 1) 5) s (fun t => (t.lane 5).homing && t.lnState 5 == lnCheck) = true) ∧
    (let s := rdy (sWith [(.VLK_BCTL_EN, 1, 0)])
     s.homeOn 5 = false ∧ s.climbing 5 = false ∧ s.lnState 5 ≠ lnService ∧
     after (.laneRestore (uhl 1) 5) s (fun t => t.lnState 5 == lnOff && t.dealer.longs.isEmpty) = true) ∧
    (let s := rdy (stalled (sess3 ssOpen []))
     s.suspended = true ∧ stat (.sessionClose (uhl 1) 3) s = some stOk ∧
     after (.sessionClose (uhl 1) 3) s (fun t => (t.session 3).closeDue == 6 && t.rd .VSN_SSTAT_STATE 3 == ssOpen) = true) := by decide +kernel
theorem test_PlanCommands_dealNone :
    (let d := fun (n : Nat) (s : State) => stat (.planDeal (uhl 9) 255 (BitVec.ofNat 64 n)) s
     let s := mapped (rdy)
     d 40960 s = some stAccepted ∧ after (.planDeal (uhl 9) 255 40960) s (fun t => t.rd .DLR_STAT_DEALSLOT == 7 && t.rd64 .DLR_DEALCNT == 40960) = true ∧
     d 4097 (mapped (rdy (plan0 base))) = some rejParam ∧ d 40960 { s with dealer := { s.dealer with deal := some ⟨none, 4096⟩ } } = some rejBusy) ∧
    (let s := rdy
     stat (.hostRing (uhl 21) 0x100000 20 8 63 15 0) s = some rejParam ∧ stat (.hostRing (uhl 21) 0x100000 20 8 63 15 1) s = some stOk) ∧
    (let s := rdy { (trickState [trickK 4096 true 1 1]) with tricks := { base.tricks with newestRel := some 8192 } }
     stat (.release (uhl 8) 4096) s = some stOk ∧ stat (.release (uhl 8) 4096) (s.wr .PWR_STAT_STATE 0 1) = some rejBusy) := by decide +kernel
theorem test_FabricWindows :
    (let s : State := coreS { fwCore with y := [(0, 0x01020304)] }
     let at_ := fun (w : Nat) => acc 1 (0x40000000 + 7 * 0x400000 + w) 4
     windowRegion 0x40000 4 = some 2 ∧ windowRegion 0x80000 4 = some 3 ∧ windowRegion 0x12C000 4 = none ∧ s.waits (at_ 0x40000) tyRead = false ∧
     after (.fabricRead (at_ 0x40000)) s (answers 1 true [4, 3, 2, 1]) = true ∧
     after (.fabricWrite (at_ 0x40000) [1, 0, 0, 0]) s (fun t => tget 0 (t.core 7).y 0 == 1) = true) := by decide +kernel
/-- The slots of the sessions with no close waiting. -/
theorem test_closeDue : (∀ n : SessionId, ((up []).session n.val).closeDue = 0) ∧ (up []).outp.todo = [] ∧ (up []).fab.held = [] ∧
    (up [(.PWR_STAT_STATE, 0, 2)]).pow.deferred = false := by decide +kernel
theorem test_FaultCollector_engine :
    let s := sWith [(.ENG_STAT_STATE, 0, egLoading)] (captured 0 1)
    s.rd .ENG_STAT_STATE 0 = egLoading ∧ s.capture 0 1 = some someCapture ∧ srcOk 0 = true ∧ s.flt.waiting = [] ∧ s.fab.held = [] := by decide +kernel
/-- At the end of a fourth loop, and where an instruction ends a loop that goes on. -/
theorem test_CoreTraps_premises : CoreMay (coreS { fwCore with level := 4 }) 7 nm 11 ∧
    (let c : CoreState := { fwCore with level := 1, st := { larm := true }, lstart := [(0, 4)], lend := [(0, 10)], lcount := [(0, 2)] }
     c.level = 0 + 1 ∧ c.st.larm = true ∧ tget 0 c.lend 0 = c.pc ∧ 1 < tget 0 c.lcount 0 ∧ (coreS c).coreRuns 7 = true ∧ c.st.kmode = false) ∧
    (movesList nm).any (fun m => m.forbidden ((kCall kCore none []).core 7)) = false := by
  unfold CoreMay; decide +kernel
theorem test_TimeSet_ptp :
    let s : State := rdy { sWith [(.REF_STAT_SEL, 0, 3), (.PTP_STAT_PSTATE, 0, 9)] with
      timeb := { base.timeb with ptp := { base.timeb.ptp with syncPtpNs := 5000000007, syncAt := 0 } }, clock := 3 }
    s.refSel = some 2 ∧ s.rd .PTP_STAT_PSTATE = 9 ∧ s.timeb.eps = 0 ∧
    stat (.timeSet (uhl 12) 1 0xFFFFFFFF) s = some rejParam ∧
    after (.timeSet (uhl 12) 0 0xFFFFFFFF) s (fun t => t.timeb.sec == 5 && t.timeb.ns == 10) = true := by decide +kernel

/-! ### Further premises: each clause of a statement at a state that meets it -/

theorem test_QueuesReach : QueuesReach base ∧ (∀ h, hdrBuffer h = none → AnswerReaches base h) := by
  have h : QueuesReach base := by unfold QueuesReach; decide +kernel
  exact ⟨h, fun _ hb => ⟨h, fun x hx => by simp [hb] at hx⟩⟩
theorem test_LaneTest_burst :
    let s := sWith [(.VLK_STAT_STATE, 3, lnTest), (.VLK_PGEN_EN, 3, 1), (.VLK_PCHK_EN, 3, 1), (.VLK_PCHK_LOCK, 3, 1), (.VLK_CTL_LOOP, 3, 2)]
    (s.lane 3).seen ≤ s.bitNow 3 ∧ (s.lane 3).burstTo ≤ s.bitNow 3 ∧ s.rateHits 3 (s.lane 3).seen (s.bitNow 3) = 0 ∧ s.lockedNow 3 = true ∧
    after (.prbsCheckerLockLost 3 0 0) s (fun t => !t.on .VLK_PCHK_LOCK 3) = true := by decide +kernel
theorem test_LaneModeWrites_rejected :
    let s := sWith [(.MOD_OPT_PRESENT, 0, 1)]
    s.lnState 0 = lnOff ∧ s.cageRejected 0 = true ∧
    after (.vlkCtlMode 0 2) s (fun t => t.on .VLK_EVT_MODE_REJ 0 && t.lnState 0 == lnOff) = true := by decide +kernel
theorem test_LaneLadder_checkFails :
    let s := ladder [(.VLK_STAT_STATE, 1, lnCheck)] {}
    s.inStep 1 = true ∧ (s.lane 1).ownPass = false ∧ checkPasses (s.rd .VLK_STAT_RATE 1) 9 100000 = false ∧ s.rd .VLK_STAT_ATTEMPTS 1 < 2 ∧
    after (.ladderCheckDone 1 9 100000) s (fun t => t.lnState 1 == lnRetry && t.sent.length == 2) = true := by decide +kernel
theorem test_LaneLoss_scan :
    (let s : State := { inService [] with links := [(0, { lostEou := true })] }
     (s.bundle 0).change = none ∧ s.rd .VLK_BSTAT_EPOCH 0 ≠ 9 ∧ (s.link 0).lostEou = true ∧
     after (.epochMarker 0 9) s (fun t => !(t.link 0).lostEou && t.rd .VLK_BSTAT_EPOCH 0 == 9) = true) ∧
    (let s : State := { sWith [(.VLK_STAT_STATE, 5, lnAlign), (.VLK_STAT_RATE, 5, 2)] with bundles := [(1, { fixed := some 2 })] }
     s.rd .VLK_PEER_ENDPOINT 5 = s.rd .VLK_BPEER_ENDPOINT 1) := by decide +kernel
theorem test_LinkUnits_ctl :
    (let s : State := { linkUp with links := [(0, { linkUp.link 0 with lostEou := true })] }
     let u := (unitBytes 2 2 0 0 0 []).dropLast ++ [9]
     s.bundleUp 0 = true ∧ s.inReset = false ∧ unitIntact u = false ∧ (s.link 0).lostEou = true ∧
     after (.linkctl 0 u) s (fun t => (t.link 0).lostEou && t.sent.isEmpty) = true) ∧
    (let s := inService []
     let r : State := { s with modl := { s.modl with warm := true, resetDue := some 4 } }
     r.inReset = true ∧ after (.initRepeat 0) r (fun t => decide (t = r)) = true ∧
     s.bundleUp 0 = true ∧ s.on .VSN_LSTAT_INIT_DONE 0 = false ∧ after (.initRepeat 0) s (fun t => t.sent.length == 1) = true) := by
  decide +kernel
theorem test_ReadClears_neighbours :
    let o := Fld.HBM_SNRCNT_COUNT.at 2
    let s : State := { base with hbm := { base.hbm with near := [(2, 7)] } }
    (regRow o).any (fun r => r.rc != 0) = true ∧ isLow o = false ∧
    after (.readClear 1 o) s (fun t => t.sent == [.regRead 1 o 7] && tget 0 t.hbm.near 2 == 0) = true := by decide +kernel
theorem test_SessionStates_reset :
    let s := sess3 ssResetWait []
    let r : State := { s with modl := { s.modl with warm := true, resetDue := some 4 } }
    s.inReset = false ∧ r.inReset = true ∧ after (.sresetRepeat 3) r (fun t => decide (t = r)) = true ∧
    after .acceptAckTimer r (fun t => decide (t = r)) = true ∧ after (.sresetRepeat 3) s (fun t => (t.outFrames 0).length == 1) = true := by
  decide +kernel
theorem test_HeldFrames_entries :
    let f := dataFrame 10 160
    let entry := fun (s : State) => match exec (.heldFrameAcceptance 6) s with
      | .next t => (t.outFrames 0).map (fun x => (fType x, (fPayload x).map (·.toNat)))
      | _ => []
    let x : FlowX := { h := 12, exp := 160, held := [(0, f), (0, dataFrame 11 176)] }
    let late : State := { dataState [] { x with held := [(0, f)], h := 11 } with deck := { base.deck with closedTo := [(1024, 4096)] } }
    let g := frm 1 3 6 1 10 160 5 32 0 (List.replicate 2048 0x21)
    entry (dataState [] x) = [(0x30, (ackEntry 6 1 0 11).map (·.toNat))] ∧
    (entry late).map (fun y => y.2.take 4) = [(ackEntry 6 3 0 0).map (·.toNat)].map (·.take 4) ∧
    entry (dataState [] { x with held := [(0, g)], h := 11 }) = [(0x30, (ackEntry 6 5 3 10).map (·.toNat))] := by decide +kernel
theorem test_RangeChannels_waits :
    let s := (readState []).wr .ENG_STAT_STATE 9 egLoading
    let s := s.wr .ENG_STAT_POSITION 9 0
    s.blockWaits planA ⟨0, 0, none, 0, 16⟩ 0 0 = true ∧ (readState []).blockWaits planA ⟨0, 0, none, 0, 16⟩ 0 0 = false := by decide +kernel
/-- All runs of a range channel are complete in a supply freeze, and not complete. -/
theorem test_Merges_frozen :
    let s := fun (done : Tbl Bool) => sWith [(.PWR_STAT_STATE, 0, 1)]
      { engState planBytes { bank0 := some (0, 0), done := done } with deck := { base.deck with chans := [(0, { cut := true })] } }
    (s allRuns).frozen = true ∧ (s allRuns).allRunsDone planA 0 0 = true ∧ (s []).allRunsDone planA 0 0 = false ∧
    (s allRuns).inReset = false ∧ ((s allRuns).chan 0 0).cut = true ∧ ((s allRuns).chan 0 0).merged = false ∧
    after (.merge 0 0 0) (s []) (fun t => !(t.chan 0 0).merged) = true := by decide +kernel
theorem test_EngineRetirement_allotment :
    let s : State := { sWith [(.ENG_STAT_STATE, 7, egActive), (.ENG_STAT_POSITION, 7, 0), (posFld 0, 0, 7), (.ENG_STAT_STATE, 8, egActive),
      (.ENG_STAT_POSITION, 8, 1), (posFld 1, 1, 8), (.ENG_GCTL_AUTOSUBST, 0, 0)] with
      plans := { base.plans with active := some { planA with e := 2 } }, engs := [(8, { bank0 := some (0, 0) })] }
    s.inService 7 = true ∧ s.rd .ENG_STAT_POSITION 7 = 0 ∧ s.on .ENG_GCTL_AUTOSUBST = false ∧ s.rd .ENG_STAT_STATE 8 = egActive ∧
    after (.engCtlRetire 7) s (fun t => t.rd .ENG_STAT_STATE 7 == egRetired && t.plans.active.map (·.e) == some 1 && ((t.eng 8).bank 0).isNone) = true := by
  decide +kernel
theorem test_ZoomSlots_later :
    let q : ZoomPend := ⟨true, zset 1, 4096, true⟩
    let r : ZoomPend := ⟨true, zset 2, 8192, true⟩
    let s := zState { pend := some q, later := [r] }
    (s.zslot 5).pend = some q ∧ (s.zslot 5).later = [r] ∧
    after (.zoomSlotStart 5) s (fun t => (t.zslot 5).cset == 1 && (t.zslot 5).changes == [r]) = true := by decide +kernel
theorem test_PacketsDrain_link :
    let s : State := { base with pow := { base.pow with railOff := [(127, true)] } }
    tget false s.pow.railOff (126 + 4 * 0 + 1) = true ∧ after (.ethLinkUp 0) s (fun t => decide (t = s)) = true ∧
    after (.ethLinkUp 1) s (fun t => t.on .ETH_STAT_LINK 1) = true := by decide +kernel
theorem test_PtpPort_links :
    let s := sWith [(.PTP_CTL_TCEN, 0, 1), (.ETH_STAT_LINK, 1, 1)]
    s.on .PTP_CTL_TCEN = true ∧ s.on .ETH_STAT_LINK (1 - 0) = true ∧ s.on .ETH_STAT_LINK (1 - 1) = false ∧ ptpM.bytes.toNat = 86 ∧
    after (.ptpMessage 0 { ptpM with kind := .other }) s (fun t => t.rd64 .ETH_TXBYTE 1 == 86 && t.sent.length == 1) = true ∧
    after (.ptpMessage 1 { ptpM with kind := .delayReq }) s (fun t => t.rd .PTP_DISC_COUNT == 1 && t.sent.isEmpty) = true := by decide +kernel
theorem test_CoreControlFlow_end :
    let c : CoreState := { fwCore with level := 1, st := { larm := true }, lstart := [(0, 4)], lend := [(0, 10)], lcount := [(0, 2)] }
    c.level = 0 + 1 ∧ c.st.larm = true ∧ tget 0 c.lend 0 = c.pc ∧ (coreS c).coreRuns 7 = true ∧ c.st.kmode = false ∧
    1 < tget 0 c.lcount 0 ∧ tget 0 { c with lcount := [(0, 1)] : CoreState }.lcount 0 ≤ 1 ∧ (0 = 0 ∨ tget 0 c.lend (0 - 1) ≠ c.pc) := by decide +kernel
theorem test_QueuePairs_shut :
    let s : State := { base with modl := { base.modl with warm := true } }
    s.barShut = true ∧ base.barShut = false ∧ after (.pciSqtail 0 5) s (fun t => decide (t = s)) = true ∧
    after (.pciSqtail 0 5) base (fun t => t.rd .PCI_SQTAIL_TAIL == 5) = true := by decide +kernel
theorem test_LaneCommands_rejected :
    let s := rdy (sWith [(.MOD_OPT_PRESENT, 0, 1)])
    s.cageRejected 0 = true ∧ s.climbing 0 = false ∧ s.lnState 0 ≠ lnService ∧ (rdy).cageRejected 0 = false ∧
    after (.laneRelease (uhl 1) 0) s (fun t => t.dealer.longs.isEmpty && t.lnState 0 == lnOff) = true ∧
    after (.laneRestore (uhl 1) 0) s (fun t => t.dealer.longs.isEmpty && t.lnState 0 == lnOff) = true := by decide +kernel
/-- Master 0x10 holds pseudo-channel 0 locked. -/
def pcLocked (s : State) : State := { s with fab := { s.fab with locks := [⟨0x10, 256, 1⟩] } }
theorem test_SourceLocked :
    (pcLocked (rdy)).sourceLocked hbmBase 4 = true ∧ (rdy).sourceLocked hbmBase 4 = false ∧
    stat (.planLoadTable (uhl 15) 1 6 1 0x1000000000 4) (pcLocked (rdy)) = some stAccepted ∧
    stat (.weightWrite (uhl 23) 0 (.table 1 1 1) 0 2 2 0x1000000000 []) (pcLocked ((rdy).wr .BMF_STAT_TALLOC 0 1)) = some stAccepted := by decide +kernel
theorem test_ZoomCommands_redo :
    let q : ZoomSettings := ⟨0, 0, 3, 4, 1, 0⟩
    let s := mapped (rdy (engState beamPlan {}))
    let slots := fun (x : ZoomSlot) (s : State) => { s with beams := { s.beams with slots := [(5, x)] } }
    stat (.zoomChange (uhl 18) 5 q 0) (slots { redo := [⟨true, zset 1, 4096, true⟩] } s) = some rejBusy ∧
    after (.zoomChange (uhl 18) 5 q 0) s (fun t => (t.zslot 5).pend.isSome) = true := by decide +kernel
theorem test_FabricAccesses_rest :
    (let a := acc 0 (hbmBase + 2 ^ 31) 8
     let s := sWith [(.FAB_APSIZE_LOG2, 0, 30)]
     s.apertureMiss a = true ∧ s.apertureMiss (acc 0 hbmBase 8) = false ∧ s.apertureMiss (acc 1 (hbmBase + 2 ^ 31) 8) = false) ∧
    (let a := { acc 0x10 spdBase 8 with portB := true, contended := true }
     after (.atomicAdd a 1) (spdState 0x10) (fun t => t.sent.head? == some (.collision 0x10) && t.on .SPD_EVT_COLLIDE) = true ∧
     after (.fabricWrite { a with portB := false } (List.replicate 8 1)) (spdState 0x10)
       (fun t => t.spd.hits == spdWords 0 8 && answers 0x10 true [] t) = true) ∧
    (let s : State := { plan0 base with hbm := { base.hbm with poison := [(1, true)] }, plans := { base.plans with active := some { planA with stat0 := 1024 } } }
     s.inStats 1024 8 = true ∧ s.hbmPoisoned 1024 8 = true ∧
     after (.fabricRead (acc 0 (hbmBase + 1024) 32)) (s.wr .FAB_APSIZE_LOG2 0 30)
       (fun t => answers 0 true (withSat 1024 (List.replicate 32 0)) t && t.flt.waiting == [(mkFault srcOutput 4 1 0, 1)]) = true) := by decide +kernel
theorem test_waits_never : ∀ ty, base.waits (acc 0x10 spdBase 8) ty = false := by
  intro ty
  have h : base.behindOwn (acc 0x10 spdBase 8) ty = false := rfl
  have k : ((base.targetsOf (acc 0x10 spdBase 8)).any fun t => base.lockedByOther (acc 0x10 spdBase 8).master.toNat t ||
    (decide (t < 64) && bitOf (base.rd .SPD_STAT_CLEARING) (t / 4)) || (decide (256 ≤ t) && base.inReset)) = false := by decide +kernel
  rw [State.waits, h, k]
  rfl
theorem test_Wipes_cold :
    let c : ColdInput := ⟨0x4000, true, false, false, [], []⟩
    let s : State := { sWith [(.SPD_SECSTAT_WIPING, 0, 1), (.MOD_STRAP_TEST_N, 0, 1)] with modl := { base.modl with running := true, fw := false, wipeIn := some c } }
    s.on .SPD_SECSTAT_WIPING = true ∧ s.modl.wipeIn = some c ∧
    bootChoice (s.rd .MOD_STRAP_BOOT) (s.rd .MOD_BOOT_MARKED) c.imageAOk c.imageBOk = none ∧
    after (.secureWipeDone true) s (fun t => t.modl.waitIn == some c && t.modl.wipeIn.isNone && !t.on .SPD_SECSTAT_WIPING && t.sec.wiped) = true ∧
    after (.secureWipeDone false) s (fun t => t.on .SPD_SECSTAT_FAIL && t.modl.waitIn == some c) = true ∧
    bootChoice 0 0 true false = some (0, false) := by decide +kernel
theorem test_StackHealth_known :
    let r : LRec := { nslot := 1, type := 6, key := 9, dsn := 3, payload := leBytes 1 3 ++ leBytes 1 1 ++ leBytes 2 0 ++ leBytes 8 0 ++ leBytes 1 1 }
    let s : State := { base with ledger := { base.ledger with recs := [r] } }
    ((s.repairsOf 3 1).find? (fun x => x.unit == 0)).map (·.key) = some 9 ∧ ((base.repairsOf 3 1).find? (fun x => x.unit == 0)).map (·.key) = none := by
  decide +kernel
theorem test_Ledger_repairEntry :
    let r : LRec := { nslot := 1, type := 7, key := 5, dsn := 9, payload := [1, 2, 3] }
    let s : State := { base with ledger := { base.ledger with pend := [r] } }
    s.ledger.ro = false ∧ s.ledger.recs = [] ∧ s.lastDsn < 2 ^ 63 ∧
    after (.ledgerRecordWrite 1) s (fun t => t.ledger.pend.map (fun x => (x.type, x.kind, x.stage, x.unit)) == [(6, 6, 1, 62260)]) = true := by
  decide +kernel
theorem test_Dma_rest :
    (let s := dmaState dcHalted { desc := some (aDesc 17), moved := 8 }
     let w := s.wr64 .DMA_CCUR 0 hbmBase
     after (.abort 0) w (fun t => t.rd .DMA_CSTAT_LAST == dsAborted && t.hbmRead 48 8 == leBytes 4 dsAborted ++ leBytes 4 8) = true ∧
     w.dmaWaits (hbmBase + 48) 8 tyWrite = false ∧ w.touchesWeights 48 8 = false ∧ w.fab.held = []) ∧
    (let s := dmaState dcMove { desc := some (aDesc 1) }
     s.canMove 0 = true ∧ s.lastMoved 2 = 0 ∧ s.prioOf 0 = 2 ∧ (∀ j : DmaChan, (s.dmac j.val).aborting = false) ∧
     after .dmaBurstComplete (dmaState 0 {}) (fun t => decide (t = (dmaState 0 {}).hitsPast)) = true) ∧
    (let s : State := { drainState { inUse := true, queue := [pktOf 3], sending := some 3 } 2 [] with modl := { base.modl with pciUp := true } }
     s.dmaReserved 15 = true ∧ s.fab.held = [] ∧ s.hostReady = s.hostPkt.isSome) := by decide +kernel
theorem test_FaultCollector_next :
    (let a := mkFault srcPower 1 1 0
     let b := mkFault 0x60 1 1 0
     let s : State := { captured 0x60 1 with flt := { (captured 0x60 1).flt with waiting := [(a, 1), (b, 2)] } }
     s.flt.next = some (b, 2) ∧ s.capture 0x60 1 = some someCapture ∧
     after (.faultMessage none) s (fun t => t.flt.waiting == [(a, 1)] && (t.capture 0x60 1).map (·.count) == some 5) = true ∧
     (State.flt { s with flt := { s.flt with arrived := [(fltKey b, 3)] } }).next = some (a, 1) ∧
     after (.faultConditionCleared 0x1D0 1) s (fun t => tget false t.flt.ended (2 ^ 6 * (4 * 0x1D0 + 1) + 1)) = true) ∧
    (let w := mkFault 0 8 1 0
     let y := mkFault 0 4 1 0
     let s0 := sWith [(.ENG_STAT_STATE, 0, egIdle)] (captured 0 1)
     let s : State := { s0 with flt := (s0.flt.receive w 0).receive y 0 }
     s.flt.waiting = [(w, 2)] ∧ s.flt.merged = [y] ∧ s.flt.next = some (w, 2) ∧ s.inService 0 = true ∧
     after (.faultMessage none) s (fun t => t.rd .ENG_STAT_STATE == egRetired && t.rd .ENG_RETCAUSE_CAUSE == 3 && t.flt.merged.isEmpty) = true) ∧
    (let s := sWith [(.FAB_CTL_REMAP, 0, 1), (.SPD_OWN_OWNER, 0, 1), (.FLT_STAT_RESETHOLD, 0, 0), (.PWR_STAT_STATE, 0, 0)] (captured 0x180 1)
     let s : State := { s with modl := { s.modl with warm := false, mrst := false, resetDue := none } }
     s.workingWord 0 spdBase = true ∧ s.flt.l4Times = [] ∧
     after (.faultMessage (some (mkFault 0x180 2 1 spdBase))) s
       (fun t => t.flt.waiting == [(mkFault srcMgmt 1 1 spdBase, 1)] && t.modl.resetDue == some 5) = true) := by decide +kernel
theorem test_ResetsAndSupply_rest :
    (∀ b : BundleId, (up []).bundleTrains b.val = false) ∧
    (let s := up [(.PWR_STAT_STATE, 0, 0), (.PWR_STAT_LOSS, 0, 0)]
     after (.powerFailWarning false 11400) s (fun t => t.rd .PWR_STAT_STATE == 0 && !t.on .PWR_EVT_WARN && t.rd .PWR_VBUS_MV == 11400) = true ∧
     after (.powerFailWarning false 11399) s (fun t => t.rd .PWR_STAT_STATE == 1 && t.on .PWR_EVT_WARN) = true) ∧
    (let s : State := { sWith [(.VLK_BCTL_EN, 0, 1), (.VLK_STAT_STATE, 0, lnNegotiate)] with lanes := [(0, { offered := true })] }
     s.bundleTrains 0 = true) := by decide +kernel
theorem test_Boot_wipes :
    let off : State := { base with modl := { base.modl with running := false, waitIn := none, fw := false } }
    let lid : ColdInput := ⟨0x4000, true, true, true, [], []⟩
    let owed := off.wr .SPD_SECSTAT_FAIL 0 1
    off.wipeOwed = [] ∧ off.modl.lid = false ∧ owed.wipeOwed.isEmpty = false ∧ off.sparesLeft = 3276 ∧
    after (.coldStart lid) off (fun t => t.on .SPD_SECSTAT_WIPING && t.modl.wipeIn == some lid && !t.modl.fw && t.on .MOD_EVT_LIDLATCH && t.rd .SPD_SECSTAT_CAUSE == 1) = true ∧
    after (.coldStart ⟨0x4000, false, true, true, [], []⟩) owed (fun t => t.on .SPD_SECSTAT_WIPING && t.modl.wipeIn.isSome) = true := by decide +kernel
theorem test_Surroundings_rails :
    (let rail := fun (d : Fin 164) (s : State) (p : State → Bool) => after (.railFault d) s p
     rail 0 (up [(.ENG_STAT_STATE, 0, egLoading)]) (fun t => t.rd .ENG_STAT_STATE == egRetired && t.rd .ENG_RETCAUSE_CAUSE == 3) = true ∧
     (let s := withLong (.engineRestore 0) (up [(.ENG_STAT_STATE, 0, egSelftest), (.ENG_STAT_POSITION, 0, 0x7F)])
      s.findLong (fun k => k == .engineRestore 0) = some (longOf (.engineRestore 0)) ∧ 96 ≤ s.rd .ENG_STAT_POSITION 0 ∧
      rail 0 s (fun t => t.rd .ENG_STAT_STATE == egRetired && t.dealer.longs.isEmpty) = true) ∧
     (let s := up [(.VLK_STAT_STATE, 0, lnCheck)]
      s.climbing 0 = true ∧ s.domainOn 102 = true ∧ s.rd .VLK_STAT_ATTEMPTS 0 < 2 ∧
      rail 102 s (fun t => t.lnState 0 == lnRetry && tget false t.pow.railOff 102 && !t.domainOn 102) = true) ∧
     (let s := up [(.MOD_OPT_PRESENT, 0, 8), (.ETH_STAT_LINK, 1, 1)]
      s.domainOn 130 = true ∧ rail 130 s (fun t => !t.on .ETH_STAT_LINK 1 && t.flt.waiting.length == 2) = true) ∧
     (let s := up [(.SPD_STAT_ON, 0, 3)]
      let r : State := { s with pow := { s.pow with railAt := [(146, 1)] } }
      s.domainOn 146 = true ∧ s.within1h (tget 0 s.pow.railAt 146) = false ∧ r.within1h (tget 0 r.pow.railAt 146) = true ∧
      rail 146 s (fun t => t.rd .SPD_STAT_ON == 3 && t.rd .SPD_STAT_CLEARING == 2) = true ∧
      rail 146 r (fun t => t.rd .SPD_STAT_ON == 1 && t.rd .SPD_STAT_CLEARING == 0) = true) ∧
     rail 162 (up [(.FLT_STAT_RESETHOLD, 0, 0)]) (fun t => t.modl.resetDue == some 5) = true) ∧
    (let s : State := { up [] with modl := { (up []).modl with pciUp := true } }
     after (.pcieLinkTrained 16 64) s (fun t => t.rd .FAB_APSIZE_LOG2 == s.rd .FAB_APSIZE_LOG2 && t.flt.waiting.isEmpty) = true) := by decide +kernel

end Sys2Proof.Tests
end

/-! # The command at large: it completes, and stays within the parts named for it -/

namespace Sys2Proof.Machine

/-- No arm of the dispatch answers a fault or a refusal. -/
theorem exec_completes (c : Instr) (s : State) : ∃ t, exec c s = .next t := by
  cases c <;> exact ⟨_, rfl⟩

/-- The dispatch of the `Within` lemmas: each command stays within `Instr.touches`. The side conditions that the mask has
a part are found as `maskHas`, since the mask is closed for each constructor. -/
theorem exec_within {c : Instr} {s t : State} (h : exec c s = .next t) : Within c.touches s t := by
  have maskHas : true = true := rfl
  have r := Within.refl c.touches s
  cases c with
  | registerWrite => exact r.execRegisterWrite h
  | readClear => exact r.execReadClear h
  | lowWordRead => exact r.execLowWordRead h
  | offer => exact r.execOffer h
  | offerRepeat => exact r.execOfferRepeat h
  | offerGatherTimeout => exact r.execOfferGatherTimeout h
  | ladderCheckDone => exact r.execLadderCheckDone h
  | stepPass => exact r.execStepPass h
  | stepFail => exact r.execStepFail h
  | ladderStepDeadline => exact r.execLadderStepDeadline h
  | retryWaitExpiry => exact r.execRetryWaitExpiry h
  | alignDone => exact r.execAlignDone h
  | laneLossOfLock => exact r.execLaneLossOfLock h
  | uncorrectableCodeword => exact r.execUncorrectableCodeword h
  | berMeasurement => exact r.execBerMeasurement h
  | laneDownRepeat => exact r.execLaneDownRepeat h
  | epochTimeout => exact r.execEpochTimeout h
  | epochMarker => exact r.execEpochMarker h
  | laneDown => exact r.execLaneDown h
  | vlkCtlMode => exact r.execVlkCtlMode h
  | bitslip => exact r.execBitslip h
  | slipComplete => exact r.execSlipComplete h
  | restart => exact r.execRestart h
  | cntclr => exact r.execCntclr h
  | single => exact r.execSingle h
  | burst => exact r.execBurst h
  | vlkPchkEn => exact r.execVlkPchkEn h
  | vlkBctlReset => exact r.execVlkBctlReset h
  | transceiverInserted => exact r.execTransceiverInserted h
  | transceiverRemoved => exact r.execTransceiverRemoved h
  | dataUnit => exact r.execDataUnit h
  | linkctl => exact r.execLinkctl h
  | initRepeat => exact r.execInitRepeat h
  | unitResendTimeout => exact r.execUnitResendTimeout h
  | sopen => exact r.execSopen h
  | sready => exact r.execSready h
  | sclose => exact r.execSclose h
  | freq => exact r.execFreq h
  | frelease => exact r.execFrelease h
  | fskip => exact r.execFskip h
  | keepalive => exact r.execKeepalive h
  | data => exact r.execData h
  | heldFrameAcceptance => exact r.execHeldFrameAcceptance h
  | acceptAckTimer => exact r.execAcceptAckTimer h
  | sresetRepeat => exact r.execSresetRepeat h
  | flowSuspect => exact r.execFlowSuspect h
  | flowSilent => exact r.execFlowSilent h
  | retentionTimeOut => exact r.execRetentionTimeOut h
  | vsnSctlClose => exact r.execVsnSctlClose h
  | vsnSctlReset => exact r.execVsnSctlReset h
  | rangeChannelClose => exact r.execRangeChannelClose h
  | deckDeadline => exact r.execDeckDeadline h
  | cutRangeChannel => exact r.execCutRangeChannel h
  | rangeChannelRelease => exact r.execRangeChannelRelease h
  | allot => exact r.execAllot h
  | runEnd => exact r.execRunEnd h
  | merge => exact r.execMerge h
  | trickClosed => exact r.execTrickClosed h
  | governorMeasurement => exact r.execGovernorMeasurement h
  | paceDeficitCheck => exact r.execPaceDeficitCheck h
  | spareArrayCheckDone => exact r.execSpareArrayCheckDone h
  | engineSelftestDone => exact r.execEngineSelftestDone h
  | engCtlRetire => exact r.execEngCtlRetire h
  | engCtlRestore => exact r.execEngCtlRestore h
  | engGctlRelease => exact r.execEngGctlRelease h
  | beamSum => exact r.execBeamSum h
  | zoomOutput => exact r.execZoomOutput h
  | zoomSlotStart => exact r.execZoomSlotStart h
  | zomCoefWrite => exact r.execZomCoefWrite h
  | weightCommandBegin => exact r.execWeightCommandBegin h
  | weightHandOver => exact r.execWeightHandOver h
  | planHandOver => exact r.execPlanHandOver h
  | kernelCopy => exact r.execKernelCopy h
  | exportStart => exact r.execExportStart h
  | exportComplete => exact r.execExportComplete h
  | trickSummary => exact r.execTrickSummary h
  | packetDrained => exact r.execPacketDrained h
  | ringLayout => exact r.execRingLayout h
  | hostSignalTimeout => exact r.execHostSignalTimeout h
  | outRelhi => exact r.execOutRelhi h
  | outHrd => exact r.execOutHrd h
  | ethLinkUp => exact r.execEthLinkUp h
  | ethLinkDown => exact r.execEthLinkDown h
  | ethRxdisc => exact r.execEthRxdisc h
  | ptpMessage => exact r.execPtpMessage h
  | delayReqTimer => exact r.execDelayReqTimer h
  | coreNop => exact r.execCoreNop h
  | br => exact r.execBr h
  | brc => exact r.execBrc h
  | call => exact r.execCall h
  | ret => exact r.execRet h
  | reti => exact r.execReti h
  | wait => exact r.execWait h
  | halt => exact r.execHalt h
  | trap => exact r.execTrap h
  | add => exact r.execAdd h
  | sub => exact r.execSub h
  | and => exact r.execAnd h
  | or => exact r.execOr h
  | xor => exact r.execXor h
  | shl => exact r.execShl h
  | shr => exact r.execShr h
  | sar => exact r.execSar h
  | mul => exact r.execMul h
  | cmp => exact r.execCmp h
  | movs => exact r.execMovs h
  | vadd => exact r.execVadd h
  | vsub => exact r.execVsub h
  | vmin => exact r.execVmin h
  | vmax => exact r.execVmax h
  | vabs => exact r.execVabs h
  | vand => exact r.execVand h
  | vor => exact r.execVor h
  | vxor => exact r.execVxor h
  | vshl => exact r.execVshl h
  | vsar => exact r.execVsar h
  | vsel => exact r.execVsel h
  | vbcast => exact r.execVbcast h
  | clra => exact r.execClra h
  | mac => exact r.execMac h
  | msu => exact r.execMsu h
  | accadd => exact r.execAccadd h
  | cjoin => exact r.execCjoin h
  | mova => exact r.execMova h
  | narr => exact r.execNarr h
  | bxclr => exact r.execBxclr h
  | bxacc => exact r.execBxacc h
  | bxget => exact r.execBxget h
  | narre => exact r.execNarre h
  | fcvt => exact r.execFcvt h
  | fadd => exact r.execFadd h
  | fsub => exact r.execFsub h
  | fmul => exact r.execFmul h
  | fdiv => exact r.execFdiv h
  | f16 => exact r.execF16 h
  | seta => exact r.execSeta h
  | geta => exact r.execGeta h
  | moda => exact r.execModa h
  | ldi => exact r.execLdi h
  | loop => exact r.execLoop h
  | endl => exact r.execEndl h
  | arrayAndDealerInstruction => exact r.execArrayAndDealerInstruction h
  | outputInstruction => exact r.execOutputInstruction h
  | interruptEntry => exact r.execInterruptEntry h
  | ktime => exact r.execKtime h
  | winosPacketDiscarded => exact r.execWinosPacketDiscarded h
  | pciSqtail => exact r.execPciSqtail h
  | pciCqhead => exact r.execPciCqhead h
  | pciQcfgEn => exact r.execPciQcfgEn h
  | nop => exact r.execNop h
  | identify => exact r.execIdentify h
  | setModid => exact r.execSetModid h
  | reset => exact r.execReset h
  | status => exact r.execStatus h
  | fwWrite => exact r.execFwWrite h
  | fwCommit => exact r.execFwCommit h
  | uartClose => exact r.execUartClose h
  | lifecycle => exact r.execLifecycle h
  | mgmtCfg => exact r.execMgmtCfg h
  | evtSubscribe => exact r.execEvtSubscribe h
  | evtRead => exact r.execEvtRead h
  | laneRelease => exact r.execLaneRelease h
  | laneRestore => exact r.execLaneRestore h
  | bundleReset => exact r.execBundleReset h
  | sessionClose => exact r.execSessionClose h
  | flowList => exact r.execFlowList h
  | planDefine => exact r.execPlanDefine h
  | planBuild => exact r.execPlanBuild h
  | planDeal => exact r.execPlanDeal h
  | planCancel => exact r.execPlanCancel h
  | planReset => exact r.execPlanReset h
  | planErase => exact r.execPlanErase h
  | planStatus => exact r.execPlanStatus h
  | planLoadTable => exact r.execPlanLoadTable h
  | setReserve => exact r.execSetReserve h
  | engineRelease => exact r.execEngineRelease h
  | trickClose => exact r.execTrickClose h
  | trickStatus => exact r.execTrickStatus h
  | deadlineSet => exact r.execDeadlineSet h
  | weightWrite => exact r.execWeightWrite h
  | weightCopy => exact r.execWeightCopy h
  | weightDeal => exact r.execWeightDeal h
  | zoomChange => exact r.execZoomChange h
  | zoomCoef => exact r.execZoomCoef h
  | release => exact r.execRelease h
  | resend => exact r.execResend h
  | statsSend => exact r.execStatsSend h
  | ringSize => exact r.execRingSize h
  | hostRing => exact r.execHostRing h
  | timeSet => exact r.execTimeSet h
  | reEpoch => exact r.execReEpoch h
  | mapSet => exact r.execMapSet h
  | refCfg => exact r.execRefCfg h
  | phaseStep => exact r.execPhaseStep h
  | ptpCfg => exact r.execPtpCfg h
  | ledgerRead => exact r.execLedgerRead h
  | memStatus => exact r.execMemStatus h
  | memCfg => exact r.execMemCfg h
  | faultRead => exact r.execFaultRead h
  | faultAck => exact r.execFaultAck h
  | engineRetire => exact r.execEngineRetire h
  | engineRestore => exact r.execEngineRestore h
  | reactionSet => exact r.execReactionSet h
  | keyEnrol => exact r.execKeyEnrol h
  | keyLock => exact r.execKeyLock h
  | kernelLoad => exact r.execKernelLoad h
  | kernelErase => exact r.execKernelErase h
  | regRead => exact r.execRegRead h
  | regWrite => exact r.execRegWrite h
  | selftest => exact r.execSelftest h
  | ppsEdge => exact r.execPpsEdge h
  | referenceMeasurement => exact r.execReferenceMeasurement h
  | referenceNoLongerPresent => exact r.execReferenceNoLongerPresent h
  | wtrExpiry => exact r.execWtrExpiry h
  | ocxoWarm => exact r.execOcxoWarm h
  | disagreementAverage => exact r.execDisagreementAverage h
  | ocxoOutOfRegulation => exact r.execOcxoOutOfRegulation h
  | faultStateEnd => exact r.execFaultStateEnd h
  | timTrimLow => exact r.execTimTrimLow h
  | timTrimHigh => exact r.execTimTrimHigh h
  | timSecLowRead => exact r.execTimSecLowRead h
  | stackTemperatureReading => exact r.execStackTemperatureReading h
  | interfaceLockLost => exact r.execInterfaceLockLost h
  | interfaceLockTimeout => exact r.execInterfaceLockTimeout h
  | rebuild => exact r.execRebuild h
  | commandAddressParityError => exact r.execCommandAddressParityError h
  | refreshInterval => exact r.execRefreshInterval h
  | fabricRead => exact r.execFabricRead h
  | fabricWrite => exact r.execFabricWrite h
  | atomicAdd => exact r.execAtomicAdd h
  | atomicSwap => exact r.execAtomicSwap h
  | lockedRead => exact r.execLockedRead h
  | lockedWrite => exact r.execLockedWrite h
  | lockTimeout => exact r.execLockTimeout h
  | spdOwn => exact r.execSpdOwn h
  | spdPwr => exact r.execSpdPwr h
  | zeroingDone => exact r.execZeroingDone h
  | patrolSegment => exact r.execPatrolSegment h
  | lidOpened => exact r.execLidOpened h
  | voltageGlitch => exact r.execVoltageGlitch h
  | clockGlitch => exact r.execClockGlitch h
  | secureWipeDone => exact r.execSecureWipeDone h
  | ledgerRecordWrite => exact r.execLedgerRecordWrite h
  | powerFailSnapshot => exact r.execPowerFailSnapshot h
  | fabApbase => exact r.execFabApbase h
  | remap => exact r.execRemap h
  | dmaStart => exact r.execDmaStart h
  | abort => exact r.execAbort h
  | dmaResume => exact r.execDmaResume h
  | descriptorFetch => exact r.execDescriptorFetch h
  | descriptorEnd => exact r.execDescriptorEnd h
  | busError => exact r.execBusError h
  | doneErr => exact r.execDoneErr h
  | autores => exact r.execAutores h
  | faultMessage => exact r.execFaultMessage h
  | fltAck => exact r.execFltAck h
  | fltReact => exact r.execFltReact h
  | mrstNAsserted => exact r.execMrstNAsserted h
  | mrstNReleased => exact r.execMrstNReleased h
  | warmReset => exact r.execWarmReset h
  | powerFailWarning => exact r.execPowerFailWarning h
  | flushComplete => exact r.execFlushComplete h
  | busBelow108V => exact r.execBusBelow108V h
  | supplyRecovered => exact r.execSupplyRecovered h
  | coldStart => exact r.execColdStart h
  | ready => exact r.execReady h
  | strapChange => exact r.execStrapChange h
  | railFault => exact r.execRailFault h
  | thermalTrip => exact r.execThermalTrip h
  | fanFailed => exact r.execFanFailed h
  | inletAirAbove40 => exact r.execInletAirAbove40 h
  | pcieLinkDown => exact r.execPcieLinkDown h
  | pcieLinkTrained => exact r.execPcieLinkTrained h
  | weightCommandComplete => exact r.execWeightCommandComplete h
  | tableLoadComplete => exact r.execTableLoadComplete h
  | statsSendComplete => exact r.execStatsSendComplete h
  | kernelLoadComplete => exact r.execKernelLoadComplete h
  | fwCommitComplete => exact r.execFwCommitComplete h
  | selftestComplete => exact r.execSelftestComplete h
  | dmaBurstComplete => exact r.execDmaBurstComplete h
  | interfaceLockRegained => exact r.execInterfaceLockRegained h
  | faultConditionCleared => exact r.execFaultConditionCleared h
  | prbsCheckerLock => exact r.execPrbsCheckerLock h
  | prbsCheckerLockLost => exact r.execPrbsCheckerLockLost h
  | uartBootImageReceived => exact r.execUartBootImageReceived h
  | jtagInstruction => exact r.execJtagInstruction h
  | sensorsBelow85C => exact r.execSensorsBelow85C h
  | fundamentalResetReleased => exact r.execFundamentalResetReleased h
  | pwrMinrstRearm => exact r.execPwrMinrstRearm h

/-- What is to be shown of a command follows from what it does to any next state. -/
theorem Leads.of_exec {c : Instr} {s : State} {P : State → Prop} (h : ∀ t, exec c s = .next t → P t) : Leads c s P :=
  let ⟨t, ht⟩ := exec_completes c s
  ⟨t, ht, h t ht⟩

theorem exec_keeps {c : Instr} {s t : State} (h : exec c s = .next t) : Keeps s t := (exec_within h).keeps

/-- A step runs the front command on the rest of the queue, or lets a nanosecond pass; both keep what `Keeps` names. -/
theorem step_keeps {s t : State} (h : step s = .next t) : Keeps { s with pending := s.pending.tail } t := by
  unfold step at h
  split at h
  next hp =>
    obtain rfl := Host.Outcome.next.inj h
    rw [hp, List.tail_nil, ← hp]
    exact ((Within.refl { time := true } s).advance rfl).keeps
  next c r hp =>
    rw [hp]
    exact exec_keeps h

/-- Settles O3: every arm of the dispatch completes, and each command has its `Within` lemma. -/
theorem commandTouchesOnlyItsParts : Obligations.CommandTouchesOnlyItsParts :=
  fun _ _ => .of_exec fun _ => exec_within

/-- Settles O4: `Keeps` of the step, where the bound of the life-cycle state is `lcsMax`. -/
theorem stepKeepsInvariant : Obligations.StepKeepsInvariant := by
  intro s t h hmem hlcs
  obtain ⟨hp, hle, hmax, hfresh, hclock, hm⟩ := step_keeps h
  exact ⟨hm hmem, by rw [max_eq_right hlcs] at hmax; exact hmax, hle, hclock, hfresh, hp⟩

end Sys2Proof.Machine

/-! # The register space (R10 to R13): what an access that R12 refuses leaves, and what reads do -/

namespace Sys2Proof.Machine

variable (s : State)

/-! ### Refused accesses -/

/-- A fault message changes the collector and the count of its class. -/
theorem State.raise_eq (f : FaultMsg) : s.raise f = { s with regs := (s.raise f).regs, flt := s.flt.receive f s.clock } := by
  unfold State.raise
  dsimp only
  split
  · rfl
  · split <;> rfl

@[simp] theorem State.raise_flt (f : FaultMsg) : (s.raise f).flt = s.flt.receive f s.clock := by rw [State.raise_eq]

/-- Master `m`'s access of address `addr` and type `ty` is refused: an error response, a fault message of class U and its
count, and no other effect (R12, R444). -/
def AccessRefused (s : State) (m addr ty : Nat) (t : State) : Prop :=
  t.sent = .access m false [] :: s.sent ∧ SameWords (· == Fld.FLT_CNTU_COUNT.at 0) s t ∧
    t.flt = s.flt.receive (mkFault srcFabric 1 1 addr m ty) s.clock ∧ t = { s with regs := t.regs, flt := t.flt, sent := t.sent }

theorem State.regRefuse_answer (m ty o : Nat) :
    AccessRefused s m (0x20000000 + o) ty ((s.regRefuse m ty o).send (.access m false [])) := by
  have h := s.raise_eq (mkFault srcFabric 1 1 (0x20000000 + o) m ty)
  refine ⟨?_, fun p hp => ?_, ?_, ?_⟩
  · rw [State.regRefuse, h]; rfl
  · exact s.word_raise_u _ rfl (by simpa using hp : p ≠ Fld.FLT_CNTU_COUNT.at 0)
  · exact s.raise_flt _
  · rw [State.regRefuse, h]; rfl

theorem State.writeReg_refused {o : Nat} (h : o % 4 ≠ 0 ∨ regRow o = none) (m : Nat) (v : Word) :
    s.writeReg m o v = (s.regRefuse m 1 o, false) := by
  rw [State.writeReg, if_pos (by simpa using h)]

theorem State.readReg_refused {o : Nat} (h : o % 4 ≠ 0 ∨ regRow o = none) (m : Nat) : s.readReg m o = none := by
  rw [State.readReg, if_pos (by simpa using h)]

theorem State.showRead_refused {o : Nat} (h : o % 4 ≠ 0 ∨ regRow o = none) (m : Nat) :
    s.showRead m o = (s.regRefuse m 0 o).send (.access m false []) := by
  rw [State.showRead, s.readReg_refused h]

theorem exec_registerWrite_refused {n o : Nat} (h : n ≠ 4 ∨ o % 4 ≠ 0 ∨ regRow o = none) (m : Byte) (v : Word) :
    exec (.registerWrite m o n v) s = .next ((s.regRefuse m.toNat 1 o).send (.access m.toNat false [])) := by
  show Host.Outcome.next (ite _ _ _) = _
  by_cases hn : n = 4
  · rw [if_neg (not_not.mpr hn), s.writeReg_refused (h.resolve_left (not_not.mpr hn))]
  · rw [if_pos hn]

/-! ### The register space seen from the fabric -/

theorem inRegion_iff (a : Access) (b n : Nat) : inRegion a b n = true ↔ b ≤ a.addr.toNat ∧ a.addr.toNat + a.size ≤ b + n := by
  simp [inRegion]

theorem inRegion_outside {a : Access} {b n : Nat} (h : a.addr.toNat < b ∨ b + n < a.addr.toNat + a.size) :
    inRegion a b n = false := by
  rw [← Bool.not_eq_true, inRegion_iff]; omega

/-- An access without a host window that does not wait is answered by the bus. -/
theorem State.request_eq_bus {a : Access} {ty : Nat} (hbar : a.bar = none) (hsize : 0 < a.size)
    (hmiss : s.apertureMiss a = false) (hwait : s.waits a ty = false) (hlock : ¬ (ty = tyLockRead ∨ ty = tyLockWrite))
    (data : List Byte) (last : Bool) : s.request a ty data last = (s.bus a ty data).answer a := by
  have hz : ¬ a.size = 0 := by omega
  simp only [State.request, hbar, State.access, if_neg hz, hmiss, State.serve, hwait, if_neg hlock, Bool.false_eq_true, if_false]

/-- The bus routes an access within the register space there (R443). -/
theorem State.bus_eq_regAccess {a : Access} (hm : masterOk a.master.toNat = true) (hd : a.master.toNat ≠ 3 ∨ s.lcs ≠ 2)
    (hlo : 0x20000000 ≤ a.addr.toNat) (hhi : a.addr.toNat + a.size ≤ 0x30000000) (hsize : 0 < a.size) (ty : Nat) (data : List Byte) :
    s.bus a ty data = s.regAccess a ty (a.addr.toNat - 0x20000000) data := by
  have hdebug : (a.master.toNat == 3 && !s.debugOn) = false := by
    rcases hd with h | h <;> simp [State.debugOn, h]
  unfold State.bus
  simp only [hm, hdebug, Bool.not_true, Bool.or_self, Bool.false_eq_true, if_false,
    inRegion_outside (a := a) (b := 0) (n := 0x100000) (by omega),
    inRegion_outside (a := a) (b := spdBase) (n := spdSize) (by unfold spdBase spdSize; omega),
    inRegion_outside (a := a) (b := 0x12000000) (n := 0x100000) (by omega),
    (inRegion_iff a 0x20000000 0x10000000).mpr ⟨hlo, by omega⟩, if_true]

theorem State.apertureMiss_of_low {a : Access} (h : a.addr.toNat < hbmBase) : s.apertureMiss a = false := by
  simp [State.apertureMiss, inRegion_outside (a := a) (b := hbmBase) (n := hbmSize) (.inl h)]

/-- An access that the register space does not take is refused with the type under which it came. -/
theorem State.regAccess_refused {a : Access} {ty o : Nat} (h : a.size ≠ 4 ∨ o % 4 ≠ 0 ∨ regRow o = none)
    (hw : isWrite ty = true → ty = 1) (data : List Byte) :
    s.regAccess a ty o data = { st := s.regRefuse a.master.toNat ty o, ok := false } := by
  unfold State.regAccess
  by_cases hz : a.size ≠ 4 ∨ isAtomic ty = true
  · rw [if_pos hz]
  · rw [if_neg hz]
    have hrow := h.resolve_left fun h4 => hz (.inl h4)
    by_cases hty : isWrite ty = true
    · rw [if_pos hty, s.writeReg_refused hrow, hw hty]
    · rw [if_neg hty, s.readReg_refused hrow]

/-- So an access of the fabric to the register space that R12 refuses. -/
theorem State.request_regRefused {a : Access} {ty : Nat} (hbar : a.bar = none) (hwait : s.waits a ty = false)
    (hm : masterOk a.master.toNat = true) (hd : a.master.toNat ≠ 3 ∨ s.lcs ≠ 2) (hsize : 0 < a.size)
    (hlo : 0x20000000 ≤ a.addr.toNat) (hhi : a.addr.toNat + a.size ≤ 0x30000000)
    (h : a.size ≠ 4 ∨ a.addr.toNat % 4 ≠ 0 ∨ regRow (a.addr.toNat - 0x20000000) = none)
    (hw : isWrite ty = true → ty = 1) (hlock : ¬ (ty = tyLockRead ∨ ty = tyLockWrite)) (data : List Byte) :
    AccessRefused s a.master.toNat a.addr.toNat ty (s.request a ty data false) := by
  have hoff : a.addr.toNat = 0x20000000 + (a.addr.toNat - 0x20000000) := by omega
  have h4 : a.size ≠ 4 ∨ (a.addr.toNat - 0x20000000) % 4 ≠ 0 ∨ regRow (a.addr.toNat - 0x20000000) = none :=
    h.imp_right (Or.imp_left fun h => by omega)
  have key := s.regRefuse_answer a.master.toNat ty (a.addr.toNat - 0x20000000)
  rw [← hoff] at key
  rw [s.request_eq_bus hbar hsize (s.apertureMiss_of_low (by unfold hbmBase; omega)) hwait hlock,
    s.bus_eq_regAccess hm hd hlo hhi hsize, s.regAccess_refused h4 hw]
  exact key

/-- Settles O13: every refusing path of the register space ends in `regRefuse` and an error response. -/
theorem registerAccessesRefused : Obligations.RegisterAccessesRefused := by
  intro s m o
  refine ⟨fun n v h => ?_, fun h => ⟨?_, ?_⟩, fun a l hbar hwait hm hd hsize hlo hhi h => ⟨?_, ?_⟩⟩
  · exact ⟨_, exec_registerWrite_refused s h m v, s.regRefuse_answer _ _ _⟩
  · exact ⟨_, congrArg Host.Outcome.next (s.showRead_refused h m.toNat), s.regRefuse_answer _ _ _⟩
  · exact ⟨_, congrArg Host.Outcome.next (s.showRead_refused h m.toNat), s.regRefuse_answer _ _ _⟩
  · refine ⟨_, rfl, s.request_regRefused hbar (hwait _) hm hd hsize hlo hhi h ?_ ?_ []⟩
    · split <;> decide
    · split <;> decide
  · exact ⟨_, rfl, s.request_regRefused hbar (hwait _) hm hd hsize hlo hhi h (fun _ => rfl) (by decide) l⟩

/-! ### Writes by access type -/

/-- The state after reset with host delivery enabled: channel 15 of the DMA engine belongs to it (R455). -/
def hostDeliveryOn : State := State.reset.wr .OUT_HCTL_EN 0 1

/-- `DMA_CSTAT` of channel 15, which has no bit that a write changes. -/
theorem regRow_dmaCstat15 : regRow 0x504cc = some ⟨0x5010c, 0x40, 16, 0, 0, 0, 0⟩ := by decide +kernel

/-- R455: a write of any register of the reserved channel sets `DMA_EVT.RSVDWR`, which was clear. -/
theorem write_reservedChannel_flags :
    (hostDeliveryOn.writeReg 1 0x504cc 0).1.on .DMA_EVT_RSVDWR = true ∧ hostDeliveryOn.on .DMA_EVT_RSVDWR = false := by
  decide +kernel

/-- Refutes O14: while host delivery is enabled, a write of the read-only `DMA_CSTAT` of channel 15 sets `DMA_EVT.RSVDWR`, a
register beside the one written. -/
theorem not_registerWritesByAccessType : ¬ Obligations.RegisterWritesByAccessType := by
  intro h
  obtain ⟨hrow, -⟩ := (h hostDeliveryOn 1 0).1 rfl
  obtain ⟨t, ht, -, ⟨-, hsame⟩, -⟩ := hrow 0x504cc _ regRow_dmaCstat15 rfl rfl rfl
  obtain rfl := Host.Outcome.next.inj ht
  have hevt := State.rd_of_word .DMA_EVT_RSVDWR 0 (hsame (Fld.DMA_EVT_RSVDWR.at 0) (by decide))
  obtain ⟨hafter, hbefore⟩ := write_reservedChannel_flags
  rw [State.on, ← hevt] at hbefore
  exact absurd (hafter.symm.trans hbefore) (by decide)

/-! ### Reads -/

/-- The registers `inRegs` names, counted out. -/
theorem inRegs_iff {b st c o : Nat} (hst : 0 < st) : inRegs b st c o = true ↔ ∃ k < c, o = b + st * k := by
  have hne : st ≠ 0 := by omega
  simp only [inRegs, if_neg hne, Bool.and_eq_true, decide_eq_true_eq, beq_iff_eq]
  constructor
  · rintro ⟨hle, hmod, hlt⟩
    have := Nat.div_add_mod (o - b) st
    exact ⟨(o - b) / st, hlt, by omega⟩
  · rintro ⟨k, hk, rfl⟩
    rw [Nat.add_sub_cancel_left, Nat.mul_mod_right, Nat.mul_div_cancel_left _ hst]
    exact ⟨Nat.le_add_right .., rfl, hk⟩

/-- A read of `HBM_SNRCNT` clears the neighbour refreshes counted for its stack (R439). -/
def State.nearRead (s : State) (o : Nat) : State :=
  s.whenS (inRegs 0x100018 0x10000 6 o) (fun s =>
    { s with hbm := { s.hbm with near := tset 0 s.hbm.near ((o - 0x100018) / 0x10000) 0 } })

theorem State.nearRead_eq (o : Nat) : s.nearRead o = { s with hbm := (s.nearRead o).hbm } := by
  unfold State.nearRead State.whenS; split <;> rfl

theorem State.nearRead_count (k : StackId) :
    (s.nearRead (Fld.HBM_SNRCNT_COUNT.at k.val)).hbm = { s.hbm with near := tset 0 s.hbm.near k.val 0 } := by
  have hin : inRegs 0x100018 0x10000 6 (0x100018 + 0x10000 * k.val) = true := (inRegs_iff (by decide)).mpr ⟨k.val, k.isLt, rfl⟩
  show (State.nearRead s (0x100018 + 0x10000 * k.val)).hbm = _
  rw [State.nearRead, State.whenS, if_pos hin, Nat.add_sub_cancel_left, Nat.mul_div_cancel_left _ (by decide)]

theorem State.nearRead_other {o : Nat} (h : ∀ k : StackId, o ≠ Fld.HBM_SNRCNT_COUNT.at k.val) : s.nearRead o = s := by
  have hin : ¬ inRegs 0x100018 0x10000 6 o = true := by
    rw [inRegs_iff (by decide)]
    rintro ⟨k, hk, rfl⟩
    exact h ⟨k, hk⟩ rfl
  rw [State.nearRead, State.whenS, if_neg hin]

/-- What a read does to the latches: the low word of a pair latches the high one, that of `TIM_SEC` `TIM_NS` as well (R13, R398). -/
def State.latchRead (s : State) (m o : Nat) : State :=
  let s1 := if isLow o then s.latchAt m (o + 4) (s.view m (o + 4)) else s
  if o = 0x200000 then s1.latchAt m 0x200008 (s.view m 0x200008) else s1

/-- A read shows the latch where its master holds one, and changes nothing. -/
theorem State.readWord_latched {m o : Nat} {v : Word} (h : tget none s.fab.latch (latchKey m o) = some v) :
    s.readWord m o = (s, v) := by
  rw [State.readWord, h]

/-- Any other read shows what the register holds. -/
theorem State.readWord_live {m o : Nat} (h : tget none s.fab.latch (latchKey m o) = none) :
    s.readWord m o = (((s.latchRead m o).nearRead o).clearRc o, BitVec.ofNat 32 (s.view m o)) := by
  rw [State.readWord, h]; rfl

theorem State.showRead_readWord {m o : Nat} (hrow : regRow o ≠ none) (ho : o % 4 = 0) (hb : s.barHeld m = false) :
    s.showRead m o = (s.readWord m o).1.send (.regRead m o (s.readWord m o).2) := by
  have hread : s.readReg m o = some (s.readWord m o) := by
    rw [State.readReg, if_neg (by simpa [ho, Option.isNone_iff_eq_none] using hrow), hb]; rfl
  rw [State.showRead, hread]

/-- A read of a latched word. -/
theorem State.showRead_latched {m o : Nat} {v : Word} (hrow : regRow o ≠ none) (ho : o % 4 = 0) (hb : s.barHeld m = false)
    (h : tget none s.fab.latch (latchKey m o) = some v) : s.showRead m o = s.send (.regRead m o v) := by
  rw [s.showRead_readWord hrow ho hb, s.readWord_latched h]

/-- A read of a register that holds no latch for its master. -/
theorem State.showRead_live {m o : Nat} (hrow : regRow o ≠ none) (ho : o % 4 = 0) (hb : s.barHeld m = false)
    (h : tget none s.fab.latch (latchKey m o) = none) :
    s.showRead m o = (((s.latchRead m o).nearRead o).clearRc o).send (.regRead m o (BitVec.ofNat 32 (s.view m o))) := by
  rw [s.showRead_readWord hrow ho hb, s.readWord_live h]

theorem State.latchRead_of_not_low {m o : Nat} (h : isLow o = false) : s.latchRead m o = s := by
  have hsec : o ≠ 0x200000 := by rintro rfl; exact absurd h (by decide)
  simp [State.latchRead, h, hsec]

/-- No row of the register map holds more than 32 RC bits. -/
theorem regRow_rc_lt {o : Nat} {r : RegRow} (h : regRow o = some r) : r.rc < 2 ^ 32 := by
  have hall : regRows.all (fun r => decide (r.rc < 2 ^ 32)) = true := by decide +kernel
  exact of_decide_eq_true (List.all_eq_true.mp hall r (List.mem_of_find?_eq_some h))

theorem State.clearRc_none {o : Nat} {r : RegRow} (h : regRow o = some r) (hrc : r.rc = 0) : s.clearRc o = s := by
  simp [State.clearRc, h, hrc]

theorem State.clearRc_some {o : Nat} {r : RegRow} (h : regRow o = some r) (hrc : r.rc ≠ 0) :
    s.clearRc o = s.setWord o (s.word o &&& ~~~(BitVec.ofNat 32 r.rc)) := by
  simp only [State.clearRc, h, if_neg hrc]
  congr 1
  apply BitVec.eq_of_toNat_eq
  have hlt := regRow_rc_lt h
  have hand : (s.word o).toNat &&& (2 ^ 32 - 1 - r.rc) < 2 ^ 32 := Nat.lt_of_le_of_lt Nat.and_le_left (s.word o).isLt
  rw [BitVec.toNat_ofNat, Nat.mod_eq_of_lt hand, BitVec.toNat_and, BitVec.toNat_not, BitVec.toNat_ofNat, Nat.mod_eq_of_lt hlt]

/-- A read that clears changes the one register. -/
theorem State.clearRc_onlyWords (o : Nat) : OnlyWords [o] s (s.clearRc o) := by
  unfold State.clearRc
  split
  · split
    · exact ⟨rfl, fun _ _ => rfl⟩
    · exact ⟨rfl, fun p hp => s.word_setWord_other _ _ (by simpa using hp)⟩
  · exact ⟨rfl, fun _ _ => rfl⟩

/-- Settles O15: such a read is `clearRc` after `nearRead`. -/
theorem readClears : Obligations.ReadClears := by
  intro s m o r hrow hrc ho hb hlow hlatch
  refine ⟨_, congrArg Host.Outcome.next (s.showRead_live (by simp [hrow]) ho hb hlatch), ?_⟩
  rw [s.latchRead_of_not_low hlow]
  obtain ⟨hframe, hwords⟩ := (s.nearRead o).clearRc_onlyWords o
  have hnear := s.nearRead_eq o
  generalize hu : s.nearRead o = u at hframe hwords hnear ⊢
  have hclear := u.clearRc_some hrow hrc
  have hword : u.word = s.word := by rw [hnear]; rfl
  refine ⟨by rw [hframe, hnear]; rfl, ?_, ⟨?_, fun p hp => ?_⟩, fun hk => ?_, fun k hk => ?_⟩
  · show (u.clearRc o).word o = _
    rw [hclear, State.word_setWord_same, hword]
  · rw [hframe, hnear]; rfl
  · show (u.clearRc o).word p = _
    rw [hwords p hp, hword]
  · rw [hframe, ← hu, s.nearRead_other hk]; rfl
  · subst hk
    rw [hframe, ← hu]
    exact s.nearRead_count k

@[simp] theorem State.nearRead_fab (o : Nat) : (s.nearRead o).fab = s.fab := by rw [s.nearRead_eq]
@[simp] theorem State.nearRead_regs (o : Nat) : (s.nearRead o).regs = s.regs := by rw [s.nearRead_eq]
@[simp] theorem State.nearRead_sent (o : Nat) : (s.nearRead o).sent = s.sent := by rw [s.nearRead_eq]
@[simp] theorem State.clearRc_fab (o : Nat) : (s.clearRc o).fab = s.fab := by rw [(s.clearRc_onlyWords o).1]
@[simp] theorem State.clearRc_sent (o : Nat) : (s.clearRc o).sent = s.sent := by rw [(s.clearRc_onlyWords o).1]

/-- The neighbour counts are RC registers. -/
theorem regRow_snrcnt (k : StackId) {r : RegRow} (h : regRow (Fld.HBM_SNRCNT_COUNT.at k.val) = some r) : r.rc ≠ 0 := by
  have hall : ∀ k : StackId, (regRow (Fld.HBM_SNRCNT_COUNT.at k.val)).all (fun r => r.rc != 0) = true := by decide +kernel
  simpa [h] using hall k

/-- A read that neither latches nor clears. -/
theorem State.showRead_plain {m o : Nat} {r : RegRow} (hrow : regRow o = some r) (ho : o % 4 = 0) (hb : s.barHeld m = false)
    (hlow : isLow o = false) (hrc : r.rc = 0) (h : tget none s.fab.latch (latchKey m o) = none) :
    s.showRead m o = s.send (.regRead m o (BitVec.ofNat 32 (s.view m o))) := by
  have hnear : ∀ k : StackId, o ≠ Fld.HBM_SNRCNT_COUNT.at k.val := fun k hk => regRow_snrcnt k (hk ▸ hrow) hrc
  rw [s.showRead_live (by simp [hrow]) ho hb h, s.latchRead_of_not_low hlow, s.nearRead_other hnear, s.clearRc_none hrow hrc]

theorem State.latchRead_low {m o : Nat} (hlow : isLow o = true) (hsec : o ≠ 0x200000) :
    s.latchRead m o = s.latchAt m (o + 4) (s.view m (o + 4)) := by
  simp [State.latchRead, hlow, hsec]

theorem State.view_timSec (m : Nat) : s.view m 0x200000 = s.timeb.sec % 2 ^ 32 := rfl

/-- A read of the low word of `TIM_SEC` latches its high word, then `TIM_NS` (R398). -/
theorem State.latchRead_timSec (m : Nat) :
    s.latchRead m 0x200000 = (s.latchAt m 0x200004 (s.timeb.sec / 2 ^ 32)).latchAt m 0x200008 s.timeb.ns := rfl

theorem State.latchAt_same (m o v : Nat) : tget none (s.latchAt m o v).fab.latch (latchKey m o) = some (BitVec.ofNat 32 v) := by
  simp [State.latchAt]

theorem State.latchAt_other (m o v : Nat) {k : Nat} (h : k ≠ latchKey m o) :
    tget none (s.latchAt m o v).fab.latch k = tget none s.fab.latch k := by
  simp only [State.latchAt, tget_tset_other _ _ _ _ h]

theorem latchKey_ne (m : Nat) {o p : Nat} (h : o ≠ p) : latchKey m o ≠ latchKey m p := by unfold latchKey; omega

/-- Settles O16: the four cases are `showRead_live` of a low word, `showRead_plain`, `showRead_latched`, and `latchRead_timSec`. -/
theorem lowWordReadsLatch : Obligations.LowWordReadsLatch := by
  intro s m hb
  refine ⟨fun o r hrow ho hlow hsec h => ?_, fun o r hrow ho hlow hrc h => ?_, fun o v hrow ho h => ?_, fun h => ?_⟩
  · refine ⟨_, congrArg Host.Outcome.next (s.showRead_live (by simp [hrow]) ho hb h), ?_⟩
    rw [s.latchRead_low hlow hsec]
    refine ⟨by simp [State.send, State.latchAt], ?_, fun k hk => ?_⟩
    · simpa [State.send] using s.latchAt_same m.toNat (o + 4) _
    · simpa [State.send] using s.latchAt_other m.toNat (o + 4) _ hk
  · exact ⟨_, congrArg Host.Outcome.next (s.showRead_plain hrow ho hb hlow hrc h), rfl⟩
  · exact ⟨_, congrArg Host.Outcome.next (s.showRead_latched hrow ho hb h), rfl⟩
  · have hrow : regRow 0x200000 = some ⟨0x200000, 0, 1, 0, 0, 0, 0⟩ := by decide +kernel
    have hnear : ∀ k : StackId, 0x200000 ≠ Fld.HBM_SNRCNT_COUNT.at k.val := by decide
    refine ⟨_, congrArg Host.Outcome.next (s.showRead_live (by simp [hrow]) (by decide) hb h), ?_⟩
    rw [s.latchRead_timSec, State.nearRead_other _ hnear, State.clearRc_none _ hrow rfl, s.view_timSec]
    refine ⟨?_, rfl, ?_, State.latchAt_same ..⟩
    · rw [show BitVec.ofNat 32 (s.timeb.sec % 2 ^ 32) = BitVec.ofNat 32 s.timeb.sec from BitVec.eq_of_toNat_eq (by simp)]
      rfl
    · have hother := (s.latchAt m.toNat 0x200004 (s.timeb.sec / 2 ^ 32)).latchAt_other m.toNat 0x200008 s.timeb.ns
        (latchKey_ne m.toNat (by decide : 0x200004 ≠ 0x200008))
      exact hother.trans (State.latchAt_same ..)

end Sys2Proof.Machine

/-! # Winos commands on a ring whose completion queue other packets fill -/

namespace Sys2Proof.Machine

/-- A management subscription to port 9 that names queue pair 0 as its source, which EVT_SUBSCRIBE never makes. -/
def strayMgmt : Src × Nat := (.qp 0, 2 ^ 9)

/-- The firmware runs; queue pair 0 is enabled with one entry waiting and 4 entries of its completion queue free; two stray
subscriptions stand in the dealer. -/
def crowdedRing : State :=
  let s : State := { State.reset with dealer := { State.reset.dealer with mgmt := [strayMgmt, strayMgmt] }
                                      modl := { State.reset.modl with fw := true, pciUp := true } }
  ((s.wr .PCI_QCFG_EN 0 1).wr .PCI_SQTAIL_TAIL 0 1).wr .PCI_QSTAT_CQTAIL 0 4091

/-- A command of `n` inline parameter bytes on queue pair 0. -/
def ringHdr (n : Nat) : Hdr :=
  { src := .qp 0, tag := 0, version := 1, indirect := false, length := BitVec.ofNat 32 n, replyBuf := none, paramAddr := 0 }

/-- Queue pair 0 takes commands, and keeps what `CmdMay` asks for a reply without parameters. -/
theorem crowdedRing_ready : crowdedRing.takes (ringHdr 0) = true ∧ crowdedRing.dealer.dsn < 2 ^ 63 ∧
    crowdedRing.on .PCI_QCFG_EVQ 0 = false ∧ crowdedRing.owed 0 + 1 + 2 * cqNeed 0 false ≤ crowdedRing.cqFree 0 := by
  decide +kernel

theorem hdrWrong_ringHdr_zero : hdrWrong (ringHdr 0) 0 = none := by decide +kernel

theorem hdrWrong_ringHdr_three : hdrWrong (ringHdr 3) 3 = none := by decide +kernel

theorem crowdedRing_may (cmd : Instr) {n : Nat} (h : hdrWrong (ringHdr n) n = none) : CmdMay crowdedRing (ringHdr n) cmd n true 0 := by
  obtain ⟨htakes, hdsn, hevq, hroom⟩ := crowdedRing_ready
  refine ⟨htakes, rfl, hdsn, rfl, h, .inl rfl, fun q hq => ?_⟩
  obtain rfl := Src.qp.inj hq
  exact ⟨hevq, hroom⟩

/-- Where nothing has left, no reply has. -/
theorem not_replied_of_sent_nil {s t : State} {h : Hdr} {op st d : Nat} {l : List (Nat × Nat)} (ht : t.sent = []) :
    ¬ Replied s h op st d l t := by
  simp [Replied, newMsgs, ht]

/-- The two event packets of event 0x0901 fill the completion queue, so that the command is held back (R348). -/
theorem crowdedRing_nop_unanswered : (stateOf (exec (.nop (ringHdr 0)) crowdedRing) crowdedRing).sent = [] := by decide +kernel

theorem crowdedRing_faultAck_unanswered :
    (stateOf (exec (.faultAck (ringHdr 3) 0 3) crowdedRing) crowdedRing).sent = [] := by decide +kernel

/-- Refutes O45: `CmdMay` reserves room against the event queues alone, and a subscription of `Dealer.mgmt` that names the
command's own queue pair takes that room; a NOP there is held back without a reply. -/
theorem not_systemCommands : ¬ Obligations.SystemCommands := by
  intro h
  obtain ⟨hnop, -⟩ := h crowdedRing (ringHdr 0)
  obtain ⟨t, ht, hreply, -⟩ := hnop (crowdedRing_may _ hdrWrong_ringHdr_zero)
  have hsent := crowdedRing_nop_unanswered
  rw [ht] at hsent
  exact not_replied_of_sent_nil hsent hreply

/-- Refutes O50, in the state that refutes O45: a FAULT_ACK of class 3, which the statement has refused with REJ_PARAM, is held
back without a reply. -/
theorem not_memoryFaultAndServiceCommands : ¬ Obligations.MemoryFaultAndServiceCommands := by
  intro h
  obtain ⟨-, -, -, -, hack, -⟩ := h crowdedRing (ringHdr 3)
  obtain ⟨-, -, hclass⟩ := hack 0 3 (crowdedRing_may _ hdrWrong_ringHdr_three) (by decide)
  obtain ⟨t, ht, hreply, -⟩ := hclass (by decide)
  have hsent := crowdedRing_faultAck_unanswered
  rw [ht] at hsent
  exact not_replied_of_sent_nil hsent hreply

end Sys2Proof.Machine

/-! # Fields, folds over groups, and the scratchpad's power (R419, R422) -/

namespace Sys2Proof.Machine

variable (s : State)

/-! ### Fields -/

theorem State.on_of_word {s t : State} (f : Fld) (i : Nat) (h : t.word (f.at i) = s.word (f.at i)) : t.on f i = s.on f i := by
  simp [State.on, State.rd_of_word f i h]

theorem State.on_flag_same (f : Fld) (i : Nat) (h : f.lo + f.w ≤ 32) (hw : f.w ≠ 0) : (s.flag f i).on f i = true := by
  have h1 : 1 < 2 ^ f.w := Nat.one_lt_two_pow hw
  simp [State.on, State.flag, s.rd_wr_same f i 1 h, Nat.mod_eq_of_lt h1]

theorem State.on_wr_zero (f : Fld) (i : Nat) (h : f.lo + f.w ≤ 32) : (s.wr f i 0).on f i = false := by
  simp [State.on, s.rd_wr_same f i 0 h]

/-- A state that differs in the registers alone, and there in the words of a list alone. -/
theorem OnlyWords.wr {l : List Nat} {t : State} (h : OnlyWords l s t) (f : Fld) (i v : Nat) (hf : f.at i ∈ l) :
    OnlyWords l s (t.wr f i v) := by
  refine ⟨?_, fun o ho => ?_⟩
  · show { t with regs := _ } = { s with regs := _ }
    rw [h.1]; rfl
  · rw [t.word_wr_other f i v (by rintro rfl; exact ho hf), h.2 o ho]

theorem OnlyWords.refl (l : List Nat) : OnlyWords l s s := ⟨rfl, fun _ _ => rfl⟩

/-! ### Folds in which one index matters -/

theorem forN_succ (n : Nat) (f : State → Nat → State) : forN (n + 1) f s = f (forN n f s) n := by
  simp [forN, List.range_succ]

/-- Where every index but `g` keeps the relation `R`, the fold is one step of index `g` with steps of `R` around it. -/
theorem forN_around {R : State → State → Prop} (hrefl : ∀ t, R t t) (htrans : ∀ {t u v}, R t u → R u v → R t v)
    {n g : Nat} {f : State → Nat → State} (hf : ∀ t i, i < n → i ≠ g → R t (f t i)) (hg : g < n) :
    ∃ t, R s t ∧ R (f t g) (forN n f s) := by
  have hlow : ∀ m, m ≤ n → m ≤ g → R s (forN m f s) := by
    intro m
    induction m with
    | zero => exact fun _ _ => hrefl s
    | succ m ih => intro hm hg; rw [forN_succ]; exact htrans (ih (by omega) (by omega)) (hf _ m (by omega) (by omega))
  refine ⟨forN g f s, hlow g hg.le le_rfl, ?_⟩
  have hhigh : ∀ k, g + 1 + k ≤ n → R (f (forN g f s) g) (forN (g + 1 + k) f s) := by
    intro k
    induction k with
    | zero => intro _; rw [Nat.add_zero, forN_succ]; exact hrefl _
    | succ k ih => intro hk; rw [← Nat.add_assoc, forN_succ]; exact htrans (ih (by omega)) (hf _ _ (by omega) (by omega))
  have := hhigh (n - (g + 1)) (by omega)
  rwa [Nat.add_sub_cancel' (by omega)] at this

/-! ### Bits of a map register -/

/-- `setBit` is a write of a field of one bit. -/
theorem setBit_eq_putBits (m i : Nat) (b : Bool) : setBit m i b = putBits m i 1 b.toNat := by
  have hsplit : m / 2 ^ i = 2 * (m / 2 ^ (i + 1)) + m / 2 ^ i % 2 := by
    rw [pow_succ, ← Nat.div_div_eq_div_mul]; omega
  have hm := Nat.mod_add_div m (2 ^ i)
  have hpow : 2 ^ (i + 1) = 2 * 2 ^ i := by rw [pow_succ, Nat.mul_comm]
  have hm' : m = m % 2 ^ i + (m / 2 ^ i % 2) * 2 ^ i + m / 2 ^ (i + 1) * 2 ^ (i + 1) := by
    rw [hsplit] at hm; rw [hpow] at hm ⊢; linarith
  rw [setBit, putBits, bitOf]
  rcases Nat.mod_two_eq_zero_or_one (m / 2 ^ i) with h | h <;> rw [h] at hm' ⊢ <;> cases b <;> simp <;> omega

theorem bitOf_setBit_same (m i : Nat) (b : Bool) : bitOf (setBit m i b) i = b := by
  have h := putBits_read m i 1 b.toNat
  rw [pow_one] at h
  rw [setBit_eq_putBits, bitOf, h]
  cases b <;> rfl

theorem bitOf_setBit_other (m : Nat) {i j : Nat} (b : Bool) (h : j ≠ i) : bitOf (setBit m i b) j = bitOf m j := by
  have h := putBits_disjoint m i 1 b.toNat j 1 (by omega)
  rw [pow_one] at h
  rw [setBit_eq_putBits, bitOf, bitOf, h]

theorem bitOf_mod (m : Nat) {i w : Nat} (h : i < w) : bitOf (m % 2 ^ w) i = bitOf m i := by
  have h : (m % 2 ^ w) / 2 ^ i % 2 ^ 1 = m / 2 ^ i % 2 ^ 1 := by
    apply Nat.eq_of_testBit_eq
    intro j
    simp only [Nat.testBit_mod_two_pow, Nat.testBit_div_two_pow]
    by_cases hj : j < 1 <;> simp [hj]; omega
  rw [pow_one] at h
  rw [bitOf, bitOf, h]

/-- A map register in which one bit is set or cleared shows that bit so. -/
theorem State.bit_wr_setBit_same (f : Fld) (i m g : Nat) (b : Bool) (h : f.lo + f.w ≤ 32) (hg : g < f.w) :
    bitOf ((s.wr f i (setBit m g b)).rd f i) g = b := by
  rw [s.rd_wr_same f i _ h, bitOf_mod _ hg, bitOf_setBit_same]

theorem State.bit_wr_setBit_other (f : Fld) (i : Nat) {g k : Nat} (b : Bool) (h : f.lo + f.w ≤ 32) (hk : k < f.w) (hne : k ≠ g) :
    bitOf ((s.wr f i (setBit (s.rd f i) g b)).rd f i) k = bitOf (s.rd f i) k := by
  rw [s.rd_wr_same f i _ h, bitOf_mod _ hk, bitOf_setBit_other _ _ hne]

/-! ### Tables of bytes -/

theorem tget_filter {α : Type} (d : α) (q : Nat × α → Bool) {t : Tbl α} {k : Nat} (h : ∀ v, q (k, v) = true) :
    tget d (t.filter q) k = tget d t k := by
  induction t with
  | nil => rfl
  | cons c r ih =>
    obtain ⟨j, v⟩ := c
    by_cases hj : j = k
    · subst hj; simp [tget, h v]
    · by_cases hq : q (j, v) = true <;> simp [tget, hq, hj, ih]

theorem tget_filter_none {α : Type} (d : α) (q : Nat × α → Bool) {t : Tbl α} {k : Nat} (h : ∀ v, q (k, v) = false) :
    tget d (t.filter q) k = d := by
  induction t with
  | nil => rfl
  | cons c r ih =>
    obtain ⟨j, v⟩ := c
    by_cases hj : j = k
    · subst hj; simp [h v, ih]
    · by_cases hq : q (j, v) = true <;> simp [tget, hq, hj, ih]

/-! ### Groups of banks -/

theorem State.groupHealed_mem (g o : Nat) :
    tget 0 (s.groupHealed g).spd.mem o = if bankOf o / 4 = g then 0 else tget 0 s.spd.mem o := by
  split
  · next h => exact tget_filter_none _ _ (by simp [h])
  · next h => exact tget_filter _ _ (by simp [h])

@[simp] theorem State.groupHealed_fab (g : Nat) : (s.groupHealed g).fab = s.fab := rfl

@[simp] theorem State.groupHealed_rd (g : Nat) (f : Fld) (i : Nat) : (s.groupHealed g).rd f i = s.rd f i :=
  State.rd_of_regs rfl f i

/-- Group `g` is as it was: its bits, its bytes and its owners; a refusal recorded stays so. -/
structure SameGroup (g : Nat) (s t : State) : Prop where
  req : bitOf (t.rd .SPD_PWR_REQ) g = bitOf (s.rd .SPD_PWR_REQ) g
  on : bitOf (t.rd .SPD_STAT_ON) g = bitOf (s.rd .SPD_STAT_ON) g
  clearing : bitOf (t.rd .SPD_STAT_CLEARING) g = bitOf (s.rd .SPD_STAT_CLEARING) g
  unowned : t.unowned g = s.unowned g
  mem : ∀ o, bankOf o / 4 = g → tget 0 t.spd.mem o = tget 0 s.spd.mem o
  refused : s.on .SPD_EVT_PWRREJ = true → t.on .SPD_EVT_PWRREJ = true

theorem SameGroup.refl (g : Nat) (s : State) : SameGroup g s s := ⟨rfl, rfl, rfl, rfl, fun _ _ => rfl, id⟩

theorem SameGroup.trans {g : Nat} {s t u : State} (h : SameGroup g s t) (k : SameGroup g t u) : SameGroup g s u :=
  ⟨k.req.trans h.req, k.on.trans h.on, k.clearing.trans h.clearing, k.unowned.trans h.unowned,
    fun o ho => (k.mem o ho).trans (h.mem o ho), k.refused ∘ h.refused⟩

/-- The registers of the scratchpad's power control. -/
def powerWord (o : Nat) : Prop := o = 0x60000 ∨ o = 0x60004 ∨ o = 0x60008

theorem State.unowned_of_words {s t : State} (h : ∀ o, ¬ powerWord o → t.word o = s.word o) (g : Nat) : t.unowned g = s.unowned g := by
  have hrd : ∀ b, t.ownerOf b = s.ownerOf b := fun b => State.rd_of_word _ _ (h _ (by simp only [powerWord, Fld.at, Fld.SPD_OWN_OWNER]; omega))
  simp [State.unowned, hrd]

/-- The three bits of group `g`, set or cleared together. -/
def State.powerBits (s : State) (g : Nat) (b : Bool) : State :=
  let t := (s.wr .SPD_PWR_REQ 0 (setBit (s.rd .SPD_PWR_REQ) g b)).wr .SPD_STAT_ON 0 (setBit (s.rd .SPD_STAT_ON) g b)
  t.wr .SPD_STAT_CLEARING 0 (setBit (t.rd .SPD_STAT_CLEARING) g b)

theorem State.powerGroup_eq (g : Nat) (want : Bool) : s.powerGroup g want =
    if bitOf (s.rd .SPD_PWR_REQ) g = want then s
    else if want = true then s.powerBits g true
    else if s.unowned g = true then (s.powerBits g false).groupHealed g
    else s.flag .SPD_EVT_PWRREJ := by
  cases want <;> rfl

theorem State.rd_powerBits_req (g : Nat) (b : Bool) :
    (s.powerBits g b).rd .SPD_PWR_REQ = (s.wr .SPD_PWR_REQ 0 (setBit (s.rd .SPD_PWR_REQ) g b)).rd .SPD_PWR_REQ := by
  rw [State.powerBits, State.rd_wr_other _ _ _ _ _ _ (by decide), State.rd_wr_other _ _ _ _ _ _ (by decide)]

theorem State.rd_powerBits_on (g : Nat) (b : Bool) :
    (s.powerBits g b).rd .SPD_STAT_ON = (s.wr .SPD_STAT_ON 0 (setBit (s.rd .SPD_STAT_ON) g b)).rd .SPD_STAT_ON := by
  rw [State.powerBits, State.rd_wr_other _ _ _ _ _ _ (by decide), State.rd_wr_same _ _ _ _ (by decide), State.rd_wr_same _ _ _ _ (by decide)]

theorem State.rd_powerBits_clearing (g : Nat) (b : Bool) : (s.powerBits g b).rd .SPD_STAT_CLEARING =
    (s.wr .SPD_STAT_CLEARING 0 (setBit (s.rd .SPD_STAT_CLEARING) g b)).rd .SPD_STAT_CLEARING := by
  have hrd : ((s.wr .SPD_PWR_REQ 0 (setBit (s.rd .SPD_PWR_REQ) g b)).wr .SPD_STAT_ON 0
      (setBit (s.rd .SPD_STAT_ON) g b)).rd .SPD_STAT_CLEARING = s.rd .SPD_STAT_CLEARING := by
    rw [State.rd_wr_other _ _ _ _ _ _ (by decide), State.rd_wr_other _ _ _ _ _ _ (by decide)]
  have hset : ∀ t : State, t.rd .SPD_STAT_CLEARING = s.rd .SPD_STAT_CLEARING →
      (t.wr .SPD_STAT_CLEARING 0 (setBit (t.rd .SPD_STAT_CLEARING) g b)).rd .SPD_STAT_CLEARING =
        (s.wr .SPD_STAT_CLEARING 0 (setBit (s.rd .SPD_STAT_CLEARING) g b)).rd .SPD_STAT_CLEARING := fun t ht => by
    rw [t.rd_wr_same _ _ _ (by decide), s.rd_wr_same _ _ _ (by decide), ht]
  exact hset _ hrd

theorem State.word_powerBits (g : Nat) (b : Bool) {o : Nat} (hstat : o ≠ 0x60000) (hreq : o ≠ 0x60004) :
    (s.powerBits g b).word o = s.word o := by
  rw [State.powerBits, State.word_wr_other _ _ _ _ hstat, State.word_wr_other _ _ _ _ hstat, State.word_wr_other _ _ _ _ hreq]

@[simp] theorem State.powerBits_spd (g : Nat) (b : Bool) : (s.powerBits g b).spd = s.spd := by
  rw [State.powerBits, State.wr_spd, State.wr_spd, State.wr_spd]

/-- Setting or clearing the bits of a group sets or clears all three, and leaves the other groups. -/
theorem State.powerBits_same {g : Nat} (hg : g < 16) (b : Bool) : bitOf ((s.powerBits g b).rd .SPD_PWR_REQ) g = b ∧
    bitOf ((s.powerBits g b).rd .SPD_STAT_ON) g = b ∧ bitOf ((s.powerBits g b).rd .SPD_STAT_CLEARING) g = b := by
  rw [s.rd_powerBits_req, s.rd_powerBits_on, s.rd_powerBits_clearing]
  exact ⟨s.bit_wr_setBit_same _ _ _ _ _ (by decide) hg, s.bit_wr_setBit_same _ _ _ _ _ (by decide) hg,
    s.bit_wr_setBit_same _ _ _ _ _ (by decide) hg⟩

theorem State.powerBits_other {g i : Nat} (hg : g < 16) (hi : i ≠ g) (b : Bool) : SameGroup g s (s.powerBits i b) where
  req := by rw [s.rd_powerBits_req]; exact s.bit_wr_setBit_other _ _ _ (by decide) hg hi.symm
  on := by rw [s.rd_powerBits_on]; exact s.bit_wr_setBit_other _ _ _ (by decide) hg hi.symm
  clearing := by rw [s.rd_powerBits_clearing]; exact s.bit_wr_setBit_other _ _ _ (by decide) hg hi.symm
  unowned := State.unowned_of_words (fun o h => s.word_powerBits i b (fun e => h (.inl e)) fun e => h (.inr (.inl e))) g
  mem := fun _ _ => by rw [s.powerBits_spd]
  refused := by
    rw [State.on_of_word .SPD_EVT_PWRREJ 0 (s.word_powerBits i b (by decide) (by decide))]
    exact id

theorem State.groupHealed_other {g i : Nat} (hi : i ≠ g) : SameGroup g s (s.groupHealed i) where
  req := rfl
  on := rfl
  clearing := rfl
  unowned := rfl
  mem := fun o ho => by rw [s.groupHealed_mem, if_neg (by omega)]
  refused := id

theorem State.flagPwrRej_group (g : Nat) : SameGroup g s (s.flag .SPD_EVT_PWRREJ) where
  req := by rw [State.flag, State.rd_wr_other _ _ _ _ _ _ (by decide)]
  on := by rw [State.flag, State.rd_wr_other _ _ _ _ _ _ (by decide)]
  clearing := by rw [State.flag, State.rd_wr_other _ _ _ _ _ _ (by decide)]
  unowned := State.unowned_of_words (fun _ h => s.word_flag_other _ _ (by simp only [powerWord, not_or] at h; exact h.2.2)) g
  mem := fun _ _ => rfl
  refused := fun _ => s.on_flag_same _ _ (by decide) (by decide)

/-- A request for one group leaves the others. -/
theorem State.powerGroup_other {g i : Nat} (hg : g < 16) (hi : i ≠ g) (want : Bool) : SameGroup g s (s.powerGroup i want) := by
  rw [s.powerGroup_eq]
  split
  · exact .refl g s
  · split
    · exact s.powerBits_other hg hi true
    · split
      · exact (s.powerBits_other hg hi false).trans (State.groupHealed_other _ hi)
      · exact s.flagPwrRej_group g

/-- `SPD_PWR` acts on a group as `powerGroup` does, whatever the other groups are asked. -/
theorem State.setSpdPwr_group (req : Nat) {g : Nat} (hg : g < 16) :
    ∃ t, SameGroup g s t ∧ SameGroup g (t.powerGroup g (bitOf req g)) (s.setSpdPwr req) :=
  forN_around s (R := SameGroup g) (.refl g) .trans (fun t i _ hi => t.powerGroup_other hg hi (bitOf req i)) hg

end Sys2Proof.Machine

/-! # O54: ownership, power and zeroing of the scratchpad's groups -/

namespace Sys2Proof.Machine

variable (s : State)

/-! ### Ownership (R419) -/

theorem State.setOwner_taken {m b : Nat} (owner : Nat) (h : m = 1 ∨ (m = s.ownerOf b ∧ m ≠ 0xFF)) :
    s.setOwner m b owner = (s.wr .SPD_OWN_OWNER b owner, true) := by rw [State.setOwner, if_pos h]

theorem State.setOwner_refused {m b : Nat} (owner : Nat) (h : ¬ (m = 1 ∨ (m = s.ownerOf b ∧ m ≠ 0xFF))) :
    s.setOwner m b owner = (s.notOwner b m 1 (spdOwnAddr b), false) := by rw [State.setOwner, if_neg h]

theorem exec_spdOwn (m owner : Byte) (b : Fin 64) : exec (.spdOwn m b owner) s =
    .next (if (s.setOwner m.toNat b.val owner.toNat).2 = true then (s.setOwner m.toNat b.val owner.toNat).1
      else (s.setOwner m.toNat b.val owner.toNat).1.send (.access m.toNat false [])) := rfl

/-- A refusal under R419 sets its event bit and raises its fault; beside them only the collector's count of class U moves. -/
theorem State.notOwner_effect (b m ty addr : Nat) :
    (s.notOwner b m ty addr).on .SPD_EVT_NONOWNER = true ∧ (s.notOwner b m ty addr).ownerOf b = s.ownerOf b ∧
      (s.notOwner b m ty addr).spd = s.spd ∧ (s.notOwner b m ty addr).sent = s.sent ∧
      (s.notOwner b m ty addr).flt = s.flt.receive (mkFault (srcBank b) 3 1 addr m ty) s.clock := by
  rw [State.notOwner]
  refine ⟨?_, ?_, ?_, ?_, by simp⟩
  · rw [State.on_of_word _ _ (State.word_raise_u _ _ rfl (by decide)), s.on_flag_same _ _ (by decide) (by decide)]
  · rw [State.ownerOf, State.rd_of_word _ _ (State.word_raise_u _ _ rfl (by simp only [Fld.at, Fld.SPD_OWN_OWNER]; omega)),
      State.flag, s.rd_wr_other _ _ _ _ _ (.inl (by simp only [Fld.at, Fld.SPD_OWN_OWNER, Fld.SPD_EVT_NONOWNER]; omega))]; rfl
  all_goals rw [State.raise_eq]; simp

/-! ### The clauses -/

theorem spdOwn_taken (m owner : Byte) (b : Fin 64) (h : m.toNat = 1 ∨ (m.toNat = s.ownerOf b.val ∧ m.toNat ≠ 0xFF)) :
    Leads (.spdOwn m b owner) s fun t => t.ownerOf b.val = owner.toNat ∧ OnlyWords [Fld.SPD_OWN_OWNER.at b.val] s t := by
  refine ⟨s.wr .SPD_OWN_OWNER b.val owner.toNat, by rw [exec_spdOwn, s.setOwner_taken _ h]; rfl, ?_, ?_⟩
  · rw [State.ownerOf, s.rd_wr_same _ _ _ (by decide)]; exact Nat.mod_eq_of_lt owner.isLt
  · exact (OnlyWords.refl s _).wr _ _ _ _ (by simp)

theorem spdOwn_refused (m owner : Byte) (b : Fin 64) (h1 : m.toNat ≠ 1) (h : m.toNat ≠ s.ownerOf b.val ∨ m.toNat = 0xFF) :
    Leads (.spdOwn m b owner) s fun t => t.ownerOf b.val = s.ownerOf b.val ∧ t.on .SPD_EVT_NONOWNER = true ∧ t.spd = s.spd ∧
      t.sent = .access m.toNat false [] :: s.sent ∧
      t.flt = s.flt.receive (mkFault (srcBank b.val) 3 1 (spdOwnAddr b.val) m.toNat 1) s.clock := by
  refine ⟨(s.notOwner b.val m.toNat 1 (spdOwnAddr b.val)).send (.access m.toNat false []),
    by rw [exec_spdOwn, s.setOwner_refused _ (by omega)]; rfl, ?_⟩
  obtain ⟨hevt, hown, hspd, hsent, hflt⟩ := s.notOwner_effect b.val m.toNat 1 (spdOwnAddr b.val)
  exact ⟨hown, hevt, hspd, congrArg _ hsent, hflt⟩

/-- `SPD_PWR` leaves a group whose request does not change. -/
theorem spdPwr_kept (req : BitVec 16) (g : Fin 16) (h : bitOf req.toNat g.val = bitOf (s.rd .SPD_PWR_REQ) g.val) :
    SameGroup g.val s (s.setSpdPwr req.toNat) := by
  obtain ⟨t, hst, htu⟩ := s.setSpdPwr_group req.toNat g.isLt
  rw [t.powerGroup_eq, if_pos (hst.req.trans h.symm)] at htu
  exact hst.trans htu

/-- A group requested on is on and being zeroed. -/
theorem spdPwr_on (req : BitVec 16) (g : Fin 16) (h : bitOf req.toNat g.val = true) (hold : bitOf (s.rd .SPD_PWR_REQ) g.val = false) :
    bitOf ((s.setSpdPwr req.toNat).rd .SPD_PWR_REQ) g.val = true ∧ bitOf ((s.setSpdPwr req.toNat).rd .SPD_STAT_ON) g.val = true ∧
      bitOf ((s.setSpdPwr req.toNat).rd .SPD_STAT_CLEARING) g.val = true := by
  obtain ⟨t, hst, htu⟩ := s.setSpdPwr_group req.toNat g.isLt
  rw [h, t.powerGroup_eq, if_neg (by rw [hst.req, hold]; decide), if_pos rfl] at htu
  obtain ⟨hreq, hon, hclr⟩ := t.powerBits_same g.isLt true
  exact ⟨htu.req.trans hreq, htu.on.trans hon, htu.clearing.trans hclr⟩

/-- A group without owners that is requested off is off, and its bytes are gone. -/
theorem spdPwr_off (req : BitVec 16) (g : Fin 16) (o : Nat) (h : bitOf req.toNat g.val = false)
    (hold : bitOf (s.rd .SPD_PWR_REQ) g.val = true) (hown : s.unowned g.val = true) :
    bitOf ((s.setSpdPwr req.toNat).rd .SPD_PWR_REQ) g.val = false ∧ bitOf ((s.setSpdPwr req.toNat).rd .SPD_STAT_ON) g.val = false ∧
      bitOf ((s.setSpdPwr req.toNat).rd .SPD_STAT_CLEARING) g.val = false ∧
      (bankOf o / 4 = g.val → tget 0 (s.setSpdPwr req.toNat).spd.mem o = 0) := by
  obtain ⟨t, hst, htu⟩ := s.setSpdPwr_group req.toNat g.isLt
  rw [h, t.powerGroup_eq, if_neg (by rw [hst.req, hold]; decide), if_neg (by decide), if_pos (hst.unowned.trans hown)] at htu
  obtain ⟨hreq, hon, hclr⟩ := t.powerBits_same g.isLt false
  rw [← (t.powerBits g.val false).groupHealed_rd g.val] at hreq hon hclr
  refine ⟨htu.req.trans hreq, htu.on.trans hon, htu.clearing.trans hclr, fun hmine => ?_⟩
  rw [htu.mem o hmine, State.groupHealed_mem, if_pos hmine]

/-- A group with an owner that is requested off stays on, and the refusal is recorded. -/
theorem spdPwr_refused (req : BitVec 16) (g : Fin 16) (h : bitOf req.toNat g.val = false)
    (hold : bitOf (s.rd .SPD_PWR_REQ) g.val = true) (hown : s.unowned g.val = false) :
    SameGroup g.val s (s.setSpdPwr req.toNat) ∧ (s.setSpdPwr req.toNat).on .SPD_EVT_PWRREJ = true := by
  obtain ⟨t, hst, htu⟩ := s.setSpdPwr_group req.toNat g.isLt
  rw [h, t.powerGroup_eq, if_neg (by rw [hst.req, hold]; decide), if_neg (by decide),
    if_neg (by rw [hst.unowned, hown]; decide)] at htu
  exact ⟨(hst.trans (t.flagPwrRej_group g.val)).trans htu, htu.refused (t.on_flag_same _ _ (by decide) (by decide))⟩

theorem exec_zeroingDone (g : Fin 16) : exec (.zeroingDone g) s = .next
    (if !bitOf (s.rd .SPD_STAT_CLEARING) g.val then s
      else ((s.wr .SPD_STAT_CLEARING 0 (setBit (s.rd .SPD_STAT_CLEARING) g.val false)).groupHealed g.val).serveHeld) := rfl

theorem State.serveHeld_of_none {s : State} (h : s.fab.held = []) : s.serveHeld = s := by
  have hs : ({ s with fab := { s.fab with held := [] } } : State) = s := by rw [← h]
  rw [State.serveHeld, h, List.foldl_nil, hs]

/-- The end of zeroing: the group reads zero, and nothing of the rest changes. -/
theorem zeroingDone_zeroes (g : Fin 16) (o : Nat) (hheld : s.fab.held = []) (h : bitOf (s.rd .SPD_STAT_CLEARING) g.val = true) :
    Leads (.zeroingDone g) s fun t => bitOf (t.rd .SPD_STAT_CLEARING) g.val = false ∧
      tget 0 t.spd.mem o = (if bankOf o / 4 = g.val then 0 else tget 0 s.spd.mem o) := by
  refine ⟨(s.wr .SPD_STAT_CLEARING 0 (setBit (s.rd .SPD_STAT_CLEARING) g.val false)).groupHealed g.val, ?_, ?_, ?_⟩
  · rw [exec_zeroingDone, h, State.serveHeld_of_none (by rw [State.groupHealed_fab, State.wr_fab, hheld])]; rfl
  · rw [State.groupHealed_rd]; exact s.bit_wr_setBit_same _ _ _ _ _ (by decide) g.isLt
  · rw [State.groupHealed_mem, State.wr_spd]

end Sys2Proof.Machine

/-! # What an event leaves and numbers (R346, R355) -/

namespace Sys2Proof.Machine

variable (s : State)

/-! ### Packets that reach their queue raise no fault (R447) -/

theorem length_padTo (n : Nat) (l : List Byte) : (padTo n l).length = n := by
  simp [padTo]; omega

theorem length_leBytes (n v : Nat) : (leBytes n v).length = n := by
  induction n generalizing v with
  | zero => rfl
  | succ n ih => simp [leBytes, ih]

/-- A state whose collector holds `f` and whose completion queues can be written. -/
def Reaching (f : Flt) (t : State) : Prop := QueuesReach t ∧ t.flt = f

/-- The registers of the queue pairs and the base of the outbound window. -/
def queueWord (o : Nat) : Prop := 0x901000 ≤ o ∨ o = 0x40018 ∨ o = 0x4001c

/-- Of the queues' registers only the tail word of queue `q` has changed, and its tail lies in the queue. -/
theorem QueuesReach.of_tail {s t : State} (h : QueuesReach s) (q : Nat)
    (hw : ∀ o, queueWord o → o ≠ 0x90101c + 0x40 * q → t.word o = s.word o)
    (ht : t.rd .PCI_QSTAT_CQTAIL q < s.cqSize q) : QueuesReach t := by
  have hsize : ∀ k, t.cqSize k = s.cqSize k := fun k => by
    rw [State.cqSize, State.cqSize, State.rd_of_word .PCI_QCFG_CQLOG2 k (hw _ (.inl (by simp only [Fld.at, Fld.PCI_QCFG_CQLOG2]; omega))
      (by simp only [Fld.at, Fld.PCI_QCFG_CQLOG2]; omega))]
  have hbase : ∀ k, t.rd64 .PCI_CQBASE k = s.rd64 .PCI_CQBASE k := fun k => by
    rw [State.rd64, State.rd64, hw _ (.inl (by simp only [Reg64.PCI_CQBASE]; omega)) (by simp only [Reg64.PCI_CQBASE]; omega),
      hw _ (.inl (by simp only [Reg64.PCI_CQBASE]; omega)) (by simp only [Reg64.PCI_CQBASE]; omega)]
  have hob : t.rd64 .FAB_OBBASE = s.rd64 .FAB_OBBASE := by
    have hlo := hw 0x40018 (.inr (.inl rfl)) (by omega)
    have hhi := hw 0x4001c (.inr (.inr rfl)) (by omega)
    simp only [State.rd64, Reg64.FAB_OBBASE, Nat.zero_mul, Nat.add_zero, Nat.reduceAdd, hlo, hhi]
  intro k
  obtain ⟨hin, htail⟩ := h k
  refine ⟨by rw [State.hostIn, hob, hbase, hsize]; exact hin, ?_⟩
  by_cases hk : k.val = q
  · rw [hk, hsize]; exact ht
  · rw [hsize, State.rd_of_word .PCI_QSTAT_CQTAIL k.val (hw _ (.inl (by simp only [Fld.at, Fld.PCI_QSTAT_CQTAIL]; omega))
      (by simp only [Fld.at, Fld.PCI_QSTAT_CQTAIL]; omega))]
    exact htail

theorem QueuesReach.of_words {s t : State} (h : QueuesReach s) (hw : ∀ o, queueWord o → t.word o = s.word o) : QueuesReach t :=
  h.of_tail 0 (fun o ho _ => hw o ho) (by rw [State.rd_of_word .PCI_QSTAT_CQTAIL 0 (hw _ (.inl (by decide)))]; exact (h 0).2)

theorem QueuesReach.of_regs {s t : State} (h : QueuesReach s) (hr : t.regs = s.regs) : QueuesReach t :=
  h.of_words fun o _ => State.word_of_regs hr o

theorem Reaching.of_regs {f : Flt} {s t : State} (h : Reaching f s) (hr : t.regs = s.regs) (hf : t.flt = s.flt) : Reaching f t :=
  ⟨h.1.of_regs hr, hf.trans h.2⟩

theorem length_cqEntry (l : List Byte) (a b : Nat) : (padTo 60 l ++ leBytes 2 a ++ leBytes 1 b ++ leBytes 1 0).length = 64 := by
  simp [length_padTo, length_leBytes]

/-- An entry at the tail of a queue that the outbound window reaches is written. -/
theorem QueuesReach.queueWrite {s : State} (h : QueuesReach s) (q : Fin 16) {l : List Byte} (hl : l.length = 64) :
    s.queueWrite q.val (s.rd64 .PCI_CQBASE q.val + 64 * s.rd .PCI_QSTAT_CQTAIL q.val) l =
      s.hostWrite (s.rd64 .PCI_CQBASE q.val + 64 * s.rd .PCI_QSTAT_CQTAIL q.val) l := by
  obtain ⟨hin, htail⟩ := h q
  have hne : l.isEmpty = false := by cases l with | nil => cases hl | cons => rfl
  simp only [State.hostIn, Bool.and_eq_true, decide_eq_true_eq] at hin
  rw [State.queueWrite, hne, if_neg (by decide), if_pos]
  simp only [State.hostIn, Bool.and_eq_true, decide_eq_true_eq]
  omega

theorem Reaching.cqEntry {f : Flt} {t : State} (h : Reaching f t) (q : Fin 16) (l : List Byte) (c : Bool) :
    Reaching f (t.cqEntry q.val l c) := by
  obtain ⟨hreach, hflt⟩ := h
  have hpos : 0 < t.cqSize q.val := Nat.two_pow_pos _
  unfold State.cqEntry
  extract_lets +onlyGivenNames tl e v u
  have hv : v.regs = t.regs ∧ v.flt = t.flt := by
    unfold v; rw [show t.queueWrite q.val _ e = _ from hreach.queueWrite q (length_cqEntry _ _ _)]; exact ⟨rfl, rfl⟩
  have hu : u.regs = t.regs ∧ u.flt = t.flt := by unfold u; split <;> exact hv
  refine ⟨(hreach.of_regs hu.1).of_tail q.val (fun o _ ho => u.word_wr_other _ _ _ ho) ?_, by rw [State.wr_flt, hu.2, hflt]⟩
  have hsize : u.cqSize q.val = t.cqSize q.val := by rw [State.cqSize, State.cqSize, State.rd_of_regs hu.1]
  rw [u.rd_wr_same _ _ _ (by decide), hsize]
  exact (Nat.mod_le _ _).trans_lt (Nat.mod_lt _ hpos)

theorem Reaching.cqConts {f : Flt} {t : State} (h : Reaching f t) (q : Fin 16) (l : List Byte) (n : Nat) :
    Reaching f (t.cqConts q.val l n) := by
  induction n generalizing t l with
  | zero => exact h
  | succ n ih =>
    rw [State.cqConts]
    split
    · exact h
    · exact ih (h.cqEntry q _ _) _

theorem Reaching.sendPacket {f : Flt} {t : State} (h : Reaching f t) (p : Packet) : Reaching f (t.sendPacket p none) := by
  have hsend : Reaching f (t.send (.winos p)) := h.of_regs rfl rfl
  rw [State.sendPacket]
  split
  · next q _ =>
    split
    · exact ((hsend.cqEntry q _ _).cqConts q _ _).of_regs rfl rfl
    · exact hsend
  · exact hsend

theorem Reaching.deliver {f : Flt} {t : State} (h : Reaching f t) (e : Event) (d : Nat) : Reaching f (t.deliver e d) := by
  have hlost : ∀ b, Reaching f { t with dealer := { t.dealer with lost := tset false t.dealer.lost d b } } := fun b => h.of_regs rfl rfl
  unfold State.deliver
  split
  · split
    · split
      · exact (hlost false).sendPacket _
      · have hw : ∀ o, queueWord o → o ≠ 0x30020 ∧ o ≠ 0x30028 := fun o ho => by unfold queueWord at ho; omega
        exact ⟨(hlost true).1.of_words fun o ho =>
          (State.word_flag_other _ .DLR_EVT_EVLOST 0 (hw o ho).1).trans (State.word_bump_other _ .DLR_EVLOST_COUNT 0 1 (hw o ho).2),
          by rw [State.flag_flt, State.bump_flt, (hlost true).2]⟩
    · exact h
  · exact h

theorem Reaching.deliverAll {f : Flt} {t : State} (h : Reaching f t) (e : Event) (l : List (Src × Nat)) : Reaching f (t.deliverAll e l) := by
  unfold State.deliverAll
  induction l generalizing t with
  | nil => exact h
  | cons d l ih =>
    refine ih ?_
    show Reaching f (t.deliverMgmt e d)
    unfold State.deliverMgmt
    split
    · exact h.sendPacket _
    · exact h

/-- An event that the completion queues take raises no fault, while it has a number (R77, R447). -/
theorem State.event_flt {s : State} (hreach : QueuesReach s) (hex : s.dealer.exhausted = false) (hdsn : s.dealer.dsn < 2 ^ 64 - 1)
    (port cd source counter arg : Nat) : (s.event port cd source counter arg).flt = s.flt := by
  have h : Reaching s.flt s := ⟨hreach, rfl⟩
  rw [State.event, hex, if_neg (by decide), if_pos hdsn]
  unfold State.numberEvent
  refine (Reaching.deliverAll (State.forN_induct _ (Reaching s.flt) _ _ ?_ fun t i ht => ht.deliver _ i) _ _).2
  exact h.of_regs rfl rfl

end Sys2Proof.Machine

/-! # What an event does to the dealer and to what leaves (R355), and the end of a long operation (R343) -/

namespace Sys2Proof.Machine

variable (s : State)

/-- What a packet may touch. -/
def packetMask : Mask := { regs := true, out := true, faults := true }

/-- What an event may touch. -/
def eventMask : Mask := { regs := true, out := true, dealer := true, faults := true }

theorem State.sendPacket_within (p : Packet) (b : Option (Nat × Nat)) : Within packetMask s (s.sendPacket p b) :=
  (Within.refl _ s).sendPacket (h_regs := rfl) (h_out := rfl) (h_faults := rfl)

theorem State.event_within (a b c d e : Nat) : Within eventMask s (s.event a b c d e) :=
  (Within.refl _ s).event (h_regs := rfl) (h_out := rfl) (h_dealer := rfl) (h_faults := rfl)

/-! ### The dealer -/

@[simp] theorem State.sendPacket_dealer (p : Packet) (b : Option (Nat × Nat)) : (s.sendPacket p b).dealer = s.dealer :=
  (s.sendPacket_within p b).dealer.resolve_left (by decide)

/-- The dealer is as it was but for its memory of lost events. -/
def SameDealer (s t : State) : Prop := t.dealer = { s.dealer with lost := t.dealer.lost }

theorem SameDealer.refl : SameDealer s s := rfl

theorem SameDealer.trans {s t u : State} (h : SameDealer s t) (k : SameDealer t u) : SameDealer s u := by
  unfold SameDealer at h k
  rw [SameDealer, k, h]

theorem State.deliver_dealer (e : Event) (d : Nat) : SameDealer s (s.deliver e d) := by
  unfold State.deliver
  split
  · split
    · split
      · rw [SameDealer, State.sendPacket_dealer]
      · rw [SameDealer, State.flag_dealer, State.bump_dealer]
    · rfl
  · rfl

theorem State.deliverAll_dealer (e : Event) (l : List (Src × Nat)) : (s.deliverAll e l).dealer = s.dealer := by
  unfold State.deliverAll
  induction l generalizing s with
  | nil => rfl
  | cons d l ih =>
    rw [List.foldl_cons, ih]
    unfold State.deliverMgmt
    split
    · exact s.sendPacket_dealer _ _
    · rfl

theorem State.numberEvent_dealer (port cd source counter arg : Nat) : ∃ lost, (s.numberEvent port cd source counter arg).dealer =
    { s.dealer with
      dsn := s.dealer.dsn + 1, lost := lost
      events := ((⟨port, cd, source, counter, arg, s.timeb.sec, s.timeb.ns, s.dealer.dsn⟩ : Event) :: s.dealer.events).take 4096 } := by
  unfold State.numberEvent
  rw [State.deliverAll_dealer]
  exact ⟨_, State.forN_induct _ (SameDealer _) _ _ (.refl _) fun t i ht => ht.trans (t.deliver_dealer _ i)⟩

theorem State.fault_dealer (a b c d : Nat) : (s.fault a b c d).dealer = s.dealer := by rw [State.fault, State.raise_eq]

/-- No event ends a long operation. -/
@[simp] theorem State.event_longs (a b c d e : Nat) : (s.event a b c d e).dealer.longs = s.dealer.longs := by
  unfold State.event
  split
  · rfl
  · split
    · obtain ⟨lost, h⟩ := s.numberEvent_dealer a b c d e
      rw [h]
    · rw [State.fault_dealer]

/-- An event that has a number is the newest of those kept. -/
theorem State.event_newest {s : State} (hex : s.dealer.exhausted = false) (hdsn : s.dealer.dsn < 2 ^ 64 - 1) (port cd source counter arg : Nat) :
    (s.event port cd source counter arg).dealer.events.head?.map (fun e => (e.code, e.source)) = some (cd, source) := by
  rw [State.event, hex, if_neg (by decide), if_pos hdsn]
  obtain ⟨lost, h⟩ := s.numberEvent_dealer port cd source counter arg
  rw [h]; rfl

/-! ### What leaves -/

theorem State.raise_sent (f : FaultMsg) : (s.raise f).sent = s.sent := by rw [State.raise_eq]

theorem State.queueWrite_sent (q a : Nat) (l : List Byte) : (s.queueWrite q a l).sent = s.sent := by
  have hrefuse : ∀ m ty a, (s.fabRefuse m ty a).sent = s.sent := fun m ty a =>
    (((Within.refl { regs := true, faults := true } s).fabRefuse (h_regs := rfl) (h_faults := rfl)).out.resolve_left (by decide)).1
  unfold State.queueWrite
  split
  · rfl
  · split
    · rw [State.hostWrite_sent]
    · rw [State.flag_sent, hrefuse]

theorem State.cqEntry_sent (q : Nat) (l : List Byte) (c : Bool) : (s.cqEntry q l c).sent = s.sent := by
  unfold State.cqEntry
  extract_lets +onlyGivenNames t e u v
  have hv : v.sent = u.sent := by unfold v; split <;> rfl
  rw [State.wr_sent, hv, State.queueWrite_sent]

theorem State.cqConts_sent (q : Nat) (l : List Byte) (n : Nat) : (s.cqConts q l n).sent = s.sent := by
  induction n generalizing s l with
  | zero => rfl
  | succ n ih =>
    unfold State.cqConts
    split
    · rfl
    · rw [ih, State.cqEntry_sent]

theorem State.cqPost_sent (q : Nat) (p : Packet) (b : Option (Nat × Nat)) : ∃ m, (s.cqPost q p b).sent = m :: s.sent := by
  unfold State.cqPost
  extract_lets +onlyGivenNames pb u v w
  have hu : u.sent = s.sent := by
    unfold u
    split
    · exact s.queueWrite_sent _ _ _
    · rfl
  have hv : v.sent = s.sent := by unfold v; rw [State.cqEntry_sent, hu]
  have hw : w.sent = s.sent := by
    unfold w
    split
    · rw [State.cqConts_sent, hv]
    · exact hv
  exact ⟨_, congrArg _ hw⟩

/-- The packet itself leaves, after what left before. -/
theorem State.sendPacket_sent (p : Packet) (b : Option (Nat × Nat)) : .winos p :: s.sent <:+ (s.sendPacket p b).sent := by
  unfold State.sendPacket
  dsimp only
  split
  · next q _ =>
    split
    · obtain ⟨m, h⟩ := (s.send (.winos p)).cqPost_sent q.val p b
      rw [h]; exact List.suffix_cons _ _
    · exact List.suffix_rfl
  · exact List.suffix_rfl

theorem State.deliver_sent (e : Event) (d : Nat) : s.sent <:+ (s.deliver e d).sent := by
  unfold State.deliver
  split
  · split
    · split
      · refine List.IsSuffix.trans ?_ ((List.suffix_cons _ _).trans (State.sendPacket_sent _ _ _))
        exact List.suffix_rfl
      · rw [State.flag_sent, State.bump_sent]
    · exact List.suffix_rfl
  · exact List.suffix_rfl

theorem State.deliverAll_sent (e : Event) (l : List (Src × Nat)) : s.sent <:+ (s.deliverAll e l).sent := by
  unfold State.deliverAll
  induction l generalizing s with
  | nil => exact List.suffix_rfl
  | cons d l ih =>
    refine List.IsSuffix.trans ?_ (ih _)
    show s.sent <:+ (s.deliverMgmt e d).sent
    unfold State.deliverMgmt
    split
    · exact (List.suffix_cons _ _).trans (s.sendPacket_sent _ _)
    · exact List.suffix_rfl

theorem State.event_sent (a b c d e : Nat) : s.sent <:+ (s.event a b c d e).sent := by
  unfold State.event
  split
  · exact List.suffix_rfl
  · split
    · unfold State.numberEvent
      refine List.IsSuffix.trans ?_ (State.deliverAll_sent _ _ _)
      refine State.forN_induct _ (fun t => s.sent <:+ t.sent) _ _ ?_ fun t i ht => ht.trans (t.deliver_sent _ i)
      exact List.suffix_rfl
    · rw [State.fault, State.raise_sent]

theorem mem_newMsgs {s t : State} {m : Msg} {l : List Msg} (hl : s.sent <:+ l) (h : m :: l <:+ t.sent) : m ∈ newMsgs s t := by
  obtain ⟨a, ha⟩ := hl
  obtain ⟨b, hb⟩ := h
  have ht : t.sent = (b ++ m :: a) ++ s.sent := by rw [← hb, ← ha]; simp
  rw [newMsgs, ht, List.length_append, Nat.add_sub_cancel, List.take_left]
  simp

/-! ### A long operation ends (R343) -/

theorem State.endLong_longs (o : LongOp) (st d : Nat) (l : List (Nat × Nat)) (n : Option Nat) :
    (s.endLong o st d l n).dealer.longs = s.dealer.longs.erase o := by
  rw [State.endLong, State.sendPacket_dealer, State.event_longs]

/-- The completion leaves. -/
theorem State.endLong_sent (o : LongOp) (st d : Nat) (l : List (Nat × Nat)) (n : Option Nat) :
    ∃ k, ∀ r : State, r.sent <:+ s.sent → .winos (o.packet k st d l) ∈ newMsgs r (s.endLong o st d l n) := by
  unfold State.endLong
  extract_lets d0 v u p d1 w
  have hv : s.sent <:+ u.sent := v.event_sent _ _ _ _ _
  exact ⟨_, fun r hr => mem_newMsgs (hr.trans hv) (w.sendPacket_sent p none)⟩

/-- The completion leaves, and the operation is in progress no longer. -/
theorem State.endLong_ended {s t : State} (o : LongOp) (st d : Nat) (l : List (Nat × Nat)) (n : Option Nat)
    (hlongs : t.dealer.longs = s.dealer.longs) (hsent : s.sent <:+ t.sent) : Ended o st s (t.endLong o st d l n) := by
  refine ⟨by rw [State.endLong_longs, hlongs], ?_⟩
  obtain ⟨k, hk⟩ := t.endLong_sent o st d l n
  exact List.any_eq_true.mpr ⟨_, hk s hsent, by simp [completes, LongOp.packet]⟩

theorem State.word_endLong (o : LongOp) (st d : Nat) (l : List (Nat × Nat)) (n : Option Nat) {p : Nat} (h : eventWord p = false) :
    (s.endLong o st d l n).word p = s.word p := by
  rw [State.endLong, State.word_sendPacket _ _ _ h]
  exact State.word_event _ _ _ _ _ _ h

end Sys2Proof.Machine

/-! # O54: the patrol (R423, R424) and the wipes of the secure bank (R426) -/

namespace Sys2Proof.Machine

variable (s : State)

/-! ### The patrol's position -/

theorem State.nextSegment_onlyWords : OnlyWords [Fld.SPD_PATPOS_SEGMENT.at 0] s s.nextSegment := by
  unfold State.nextSegment
  dsimp only
  split
  · exact ((OnlyWords.refl s _).wr _ _ _ _ (by simp)).wr _ _ _ _ (by simp [Fld.at, Fld.SPD_PATPOS_SEGMENT, Fld.SPD_PATPOS_PASSES])
  · exact (OnlyWords.refl s _).wr _ _ _ _ (by simp)

theorem State.rd_nextSegment : s.nextSegment.rd .SPD_PATPOS_SEGMENT = (s.rd .SPD_PATPOS_SEGMENT + 1) % 16384 := by
  unfold State.nextSegment
  dsimp only
  split
  · next h => rw [h, State.bump, State.rd_wr_other _ _ _ _ _ _ (by decide), s.rd_wr_same _ _ _ (by decide)]; rfl
  · rw [s.rd_wr_same _ _ _ (by decide)]; rfl

theorem State.nextSegment_passes (h : s.rd .SPD_PATPOS_SEGMENT = 16383) :
    s.nextSegment.rd .SPD_PATPOS_PASSES = min (s.rd .SPD_PATPOS_PASSES + 1) (2 ^ 18 - 1) := by
  rw [State.nextSegment, if_pos h, State.rd_bump_same _ _ _ _ (by decide), s.rd_wr_other _ _ _ _ _ (by decide)]; rfl

/-- What the patrol's position does not touch. -/
theorem State.nextSegment_frame : s.nextSegment.spd = s.spd ∧ s.nextSegment.flt = s.flt ∧ s.nextSegment.ledger = s.ledger ∧
    s.nextSegment.dealer = s.dealer := by
  rw [s.nextSegment_onlyWords.1]; exact ⟨rfl, rfl, rfl, rfl⟩

theorem State.word_nextSegment {o : Nat} (h : o ≠ 0x60018) : s.nextSegment.word o = s.word o :=
  s.nextSegment_onlyWords.2 o (by simpa [Fld.at, Fld.SPD_PATPOS_SEGMENT] using h)

/-! ### A repair map entry (R432, R528) -/

/-- What a repair map entry may touch. -/
def repairMask : Mask := { regs := true, out := true, dealer := true, faults := true, ledger := true }

theorem State.repair_within (a b c d e f : Nat) : Within repairMask s (s.repair a b c d e f) :=
  (Within.refl _ s).repair (h_regs := rfl) (h_out := rfl) (h_dealer := rfl) (h_faults := rfl) (h_ledger := rfl)

theorem State.record_eq (a b c d : Nat) (l : List Byte) :
    s.record a b c d l = { s with ledger := { s.ledger with pend := (s.record a b c d l).ledger.pend } } := by
  unfold State.record
  split <;> rfl

theorem State.event_ledger (a b c d e : Nat) : (s.event a b c d e).ledger = s.ledger :=
  (s.event_within a b c d e).ledger.resolve_left (by decide)

theorem State.repair_nextItem (a b c d e f : Nat) : (s.repair a b c d e f).ledger.nextItem = s.ledger.nextItem := by
  rw [State.repair, State.record_eq]
  show (s.event 8 0x0804 a 0 (b + 256 * c + 65536 * d)).ledger.nextItem = _
  rw [State.event_ledger]

theorem State.repair_event (a b c d e f : Nat) :
    (s.repair a b c d e f).dealer = (s.event 8 0x0804 a 0 (b + 256 * c + 65536 * d)).dealer ∧
      (s.repair a b c d e f).flt = (s.event 8 0x0804 a 0 (b + 256 * c + 65536 * d)).flt := by
  rw [State.repair, State.record_eq]; exact ⟨rfl, rfl⟩

/-! ### A column that fails (R424) -/

/-- The state with the item of the failed column assigned and its entry issued. -/
def State.columnEntry (s : State) (b col : Nat) : State :=
  (s.flag .SPD_EVT_PATROLFAIL).newItem.repair s.ledger.nextItem 7 0 b col 0

theorem State.columnFailed_known {b col : Nat} (h : s.spd.failed.any (fun f => f.1 == b && f.2.1 == col) = true) :
    s.columnFailed b col = s.flag .SPD_EVT_PATROLFAIL := by
  rw [State.columnFailed, State.flag_spd, if_pos h]

/-- The failed column is among those recorded, shown, and reported. -/
def State.columnNoted (s : State) (b col item cls : Nat) : State :=
  let t := { s with spd := { s.spd with failed := s.spd.failed ++ [(b, col, item)] } }
  (t.wr .SPD_COLREP_PENDING 0 (min 1023 t.spd.failed.length)).fault (srcBank b) 4 cls

theorem State.columnFailed_new {b col : Nat} (h : s.spd.failed.any (fun f => f.1 == b && f.2.1 == col) = false) :
    s.columnFailed b col = (s.columnEntry b col).columnNoted b col s.ledger.nextItem (if s.columnsUsed b < 8 then 0 else 1) := by
  unfold State.columnFailed
  dsimp only
  rw [State.flag_spd, h, if_neg (by decide)]
  rfl

theorem State.word_fault (a b c d : Nat) {o : Nat} (h : o ≠ 0x20048) (h' : o ≠ 0x2004c) (h'' : o ≠ 0x20050) :
    (s.fault a b c d).word o = s.word o := s.word_raise _ h h' h''

theorem State.fault_eq (a b c d : Nat) : s.fault a b c d =
    { s with regs := (s.fault a b c d).regs, flt := s.flt.receive (mkFault a b c d) s.clock } := s.raise_eq _

theorem State.columnNoted_effect (b col item cls : Nat) :
    (s.columnNoted b col item cls).spd = { s.spd with failed := s.spd.failed ++ [(b, col, item)] } ∧
      (s.columnNoted b col item cls).rd .SPD_COLREP_PENDING = min 1023 (s.spd.failed.length + 1) ∧
      (s.columnNoted b col item cls).ledger = s.ledger ∧ (s.columnNoted b col item cls).dealer = s.dealer ∧
      (s.columnNoted b col item cls).flt = s.flt.receive (mkFault (srcBank b) 4 cls 0) s.clock := by
  have hmin : min 1023 (s.spd.failed.length + 1) % 2 ^ Fld.SPD_COLREP_PENDING.w = min 1023 (s.spd.failed.length + 1) :=
    Nat.mod_eq_of_lt (by simp only [Fld.SPD_COLREP_PENDING]; omega)
  unfold State.columnNoted
  extract_lets d t
  refine ⟨?_, ?_, ?_, ?_, ?_⟩
  · rw [State.fault_eq, State.wr_spd]
  · rw [State.rd_of_word _ _ (State.word_fault _ _ _ _ _ (by decide) (by decide) (by decide)), State.rd_wr_same _ _ _ _ (by decide)]
    simpa [t, d] using hmin
  · rw [State.fault_eq, State.wr_ledger]
  · rw [State.fault_eq, State.wr_dealer]
  · rw [State.fault_eq, State.wr_flt, State.wr_clock]

theorem State.word_columnNoted (b col item cls : Nat) {o : Nat} (h : o ≠ 0x6001c) (h1 : o ≠ 0x20048) (h2 : o ≠ 0x2004c)
    (h3 : o ≠ 0x20050) : (s.columnNoted b col item cls).word o = s.word o := by
  unfold State.columnNoted
  extract_lets d t
  rw [State.word_fault _ _ _ _ _ h1 h2 h3]
  exact t.word_wr_other _ _ _ h

theorem State.word_columnEntry (b col : Nat) {o : Nat} (h : eventWord o = false) :
    (s.columnEntry b col).word o = (s.flag .SPD_EVT_PATROLFAIL).word o := State.word_repair _ _ _ _ _ _ _ h

theorem State.columnEntry_frame (b col : Nat) : (s.columnEntry b col).spd = s.spd ∧ (s.columnEntry b col).clock = s.clock ∧
    (s.columnEntry b col).ledger.nextItem = s.ledger.nextItem + 1 := by
  have h := (s.flag .SPD_EVT_PATROLFAIL).newItem.repair_within s.ledger.nextItem 7 0 b col 0
  exact ⟨h.spd.resolve_left (by decide), (h.time.resolve_left (by decide)).1, State.repair_nextItem _ _ _ _ _ _ _⟩

/-- The entry of a failed column is the newest event, and its packets raise no fault. -/
theorem State.columnEntry_event {s : State} (b col : Nat) (hex : s.dealer.exhausted = false) (hdsn : s.dealer.dsn < 2 ^ 64 - 1) :
    (s.columnEntry b col).dealer.events.head?.map (fun e => (e.code, e.source)) = some (0x0804, s.ledger.nextItem) ∧
      (QueuesReach s → (s.columnEntry b col).flt = s.flt) := by
  obtain ⟨hdealer, hflt⟩ := (s.flag .SPD_EVT_PATROLFAIL).newItem.repair_event s.ledger.nextItem 7 0 b col 0
  refine ⟨?_, fun hreach => ?_⟩
  · rw [State.columnEntry, hdealer]; exact State.event_newest (by exact hex) (by exact hdsn) _ _ _ _ _
  · rw [State.columnEntry, hflt]
    have hu : QueuesReach (s.flag .SPD_EVT_PATROLFAIL).newItem := hreach.of_words fun o ho =>
      s.word_flag_other _ _ (by unfold queueWord at ho; simp only [Fld.at, Fld.SPD_EVT_PATROLFAIL]; omega)
    rw [State.event_flt hu hex hdsn]
    exact s.flag_flt .SPD_EVT_PATROLFAIL 0

/-! ### The patrol's clauses -/

theorem exec_patrolSegment {s : State} (hreset : s.inReset = false) (hlock : s.bankLocked = false) (out : PatrolOutcome) :
    exec (.patrolSegment out) s = .next (if s.on .SPD_PATROL_EN = false then s else match out with
      | .passed => s.nextSegment
      | .aborted => s
      | .failed b col => if bitOf (s.rd .SPD_STAT_ON) (b.val / 4) = true then (s.columnFailed b.val col).nextSegment else s.nextSegment) := by
  show Host.Outcome.next (ite _ _ _) = _
  rw [hreset, hlock]
  cases s.on .SPD_PATROL_EN <;> rfl

theorem State.nextSegment_passed (hlt : s.rd .SPD_PATPOS_SEGMENT < 16383) :
    s.nextSegment.rd .SPD_PATPOS_SEGMENT = s.rd .SPD_PATPOS_SEGMENT + 1 := by
  rw [s.rd_nextSegment]; omega

/-- A column that failed before: the event bit and the position alone. -/
theorem State.columnFailed_known_effect {b col : Nat} (h : s.spd.failed.any (fun f => f.1 == b && f.2.1 == col) = true) :
    let t := (s.columnFailed b col).nextSegment
    t.spd = s.spd ∧ t.flt = s.flt ∧ t.ledger = s.ledger ∧ t.on .SPD_EVT_PATROLFAIL = true ∧
      t.rd .SPD_PATPOS_SEGMENT = (s.rd .SPD_PATPOS_SEGMENT + 1) % 16384 := by
  obtain ⟨hspd, hflt, hledger, -⟩ := (s.flag .SPD_EVT_PATROLFAIL).nextSegment_frame
  dsimp only
  rw [s.columnFailed_known h]
  refine ⟨hspd, hflt, hledger, ?_, ?_⟩
  · rw [State.on_of_word _ _ (State.word_nextSegment _ (by decide)), s.on_flag_same _ _ (by decide) (by decide)]
  · rw [State.rd_nextSegment, State.flag, s.rd_wr_other _ _ _ _ _ (by decide)]

/-- A column that fails for the first time: it is recorded with an item number of its own, and reported. -/
theorem State.columnFailed_new_effect {b : Fin 64} {col : Nat} (h : s.spd.failed.any (fun f => f.1 == b.val && f.2.1 == col) = false) :
    let t := (s.columnFailed b.val col).nextSegment
    t.spd = { s.spd with failed := s.spd.failed ++ [(b.val, col, s.ledger.nextItem)] } ∧ t.on .SPD_EVT_PATROLFAIL = true ∧
      t.rd .SPD_COLREP_PENDING = min 1023 (s.spd.failed.length + 1) ∧ t.ledger.nextItem = s.ledger.nextItem + 1 ∧
      t.rd .SPD_PATPOS_SEGMENT = (s.rd .SPD_PATPOS_SEGMENT + 1) % 16384 ∧
      (s.dealer.exhausted = false → s.dealer.dsn < 2 ^ 64 - 1 →
        t.dealer.events.head?.map (fun e => (e.code, e.source)) = some (0x0804, s.ledger.nextItem) ∧
        (QueuesReach s →
          t.flt = s.flt.receive (mkFault (srcBank b.val) 4 (if s.columnsUsed b.val < 8 then 0 else 1) 0) s.clock)) := by
  dsimp only
  rw [s.columnFailed_new h]
  obtain ⟨espd, eclock, eitem⟩ := s.columnEntry_frame b.val col
  obtain ⟨nspd, npending, nledger, ndealer, nflt⟩ :=
    (s.columnEntry b.val col).columnNoted_effect b.val col s.ledger.nextItem (if s.columnsUsed b.val < 8 then 0 else 1)
  generalize hz : (s.columnEntry b.val col).columnNoted b.val col s.ledger.nextItem (if s.columnsUsed b.val < 8 then 0 else 1) = z at *
  obtain ⟨zspd, zflt, zledger, zdealer⟩ := z.nextSegment_frame
  have hword : ∀ o, eventWord o = false → o ≠ 0x6001c → o ≠ 0x20048 → o ≠ 0x2004c → o ≠ 0x20050 →
      z.word o = (s.flag .SPD_EVT_PATROLFAIL).word o := fun o he h0 h1 h2 h3 => by
    rw [← hz, State.word_columnNoted _ _ _ _ _ h0 h1 h2 h3, s.word_columnEntry _ _ he]
  refine ⟨by rw [zspd, nspd, espd], ?_, ?_, by rw [zledger, nledger, eitem], ?_, fun hex hdsn => ?_⟩
  · rw [State.on_of_word _ _ (z.word_nextSegment (by decide)),
      State.on_of_word _ _ (hword _ (by decide) (by decide) (by decide) (by decide) (by decide)),
      s.on_flag_same _ _ (by decide) (by decide)]
  · rw [State.rd_of_word _ _ (z.word_nextSegment (by decide)), npending, espd]
  · rw [z.rd_nextSegment, State.rd_of_word _ _ (hword _ (by decide) (by decide) (by decide) (by decide) (by decide)), State.flag,
      s.rd_wr_other _ _ _ _ _ (by decide)]
  · obtain ⟨hhead, hflt⟩ := State.columnEntry_event b.val col hex hdsn
    exact ⟨by rw [zdealer, ndealer, hhead], fun hreach => by rw [zflt, nflt, hflt hreach, eclock]⟩

end Sys2Proof.Machine

/-! # O54: the wipes of the secure bank (R426) -/

namespace Sys2Proof.Machine

variable (s : State)

/-! ### A wipe begins -/

theorem Within.modl_eq {M : Mask} {s t : State} (h : Within M s t) (hm : M.modl = false) (ho : M.out = false) : t.modl = s.modl := by
  have h1 := h.modl.resolve_left (by simp [hm])
  obtain ⟨-, hhost, -⟩ := h.out.resolve_left (by simp [ho])
  rw [h1, hhost]

theorem State.on_of_regs {s t : State} (h : t.regs = s.regs) (f : Fld) (i : Nat) : t.on f i = s.on f i := by
  simp [State.on, State.rd_of_regs h]

theorem SameWords.refl (p : Nat → Bool) : SameWords p s s := fun _ _ => rfl

theorem SameWords.wr {p : Nat → Bool} {t : State} (h : SameWords p s t) (f : Fld) (i v : Nat) (hf : p (f.at i) = true) :
    SameWords p s (t.wr f i v) := fun o ho => by
  rw [t.word_wr_other f i v (by rintro rfl; rw [hf] at ho; cases ho), h o ho]

/-- The registers of a wipe: WIPING, its cause and the count. -/
def State.wipeShown (s : State) (c : Nat) : State := ((s.flag .SPD_SECSTAT_WIPING).wr .SPD_SECSTAT_CAUSE 0 c).bump .SPD_SECSTAT_WIPES

theorem State.wipeShown_effect {c : Nat} (hc : c < 8) : (s.wipeShown c).on .SPD_SECSTAT_WIPING = true ∧
    (s.wipeShown c).rd .SPD_SECSTAT_CAUSE = c ∧
    SameWords (fun o => o == Fld.SPD_SECSTAT_CAUSE.at 0 || o == Fld.SPD_SECSTAT_WIPES.at 0) s (s.wipeShown c) := by
  unfold State.wipeShown
  refine ⟨?_, ?_, ?_⟩
  · rw [State.on, State.bump, State.rd_wr_other _ _ _ _ _ _ (by decide), State.rd_wr_other _ _ _ _ _ _ (by decide)]
    exact s.on_flag_same _ _ (by decide) (by decide)
  · rw [State.bump, State.rd_wr_other _ _ _ _ _ _ (by decide), State.rd_wr_same _ _ _ _ (by decide)]
    exact Nat.mod_eq_of_lt hc
  · exact (((SameWords.refl s _).wr _ _ _ _ (by decide)).wr _ _ _ _ (by decide)).wr _ _ _ _ (by decide)

theorem State.startWipe_eq {c : Nat} (hc : c ≠ 4) : s.startWipe c =
    { s.wipeShown c with sec := { s.sec with tampers := min 65535 (s.sec.tampers + 1), causes := s.sec.causes ++ [c] } } := by
  have hsec : (s.wipeShown c).sec = s.sec := by rw [State.wipeShown, State.bump_sec, State.wr_sec, State.flag_sec]
  rw [State.startWipe, if_neg hc, ← State.wipeShown, hsec]

theorem State.wipeShown_modl (c : Nat) : (s.wipeShown c).modl = s.modl := by
  rw [State.wipeShown, State.bump_modl, State.wr_modl, State.flag_modl]

/-- A tamper input of a module that runs starts a wipe. -/
theorem State.tamper_wipes {c : Nat} (hrun : s.modl.running = true) (hc : c < 4) :
    (s.tamper c).on .SPD_SECSTAT_WIPING = true ∧ (s.tamper c).rd .SPD_SECSTAT_CAUSE = c ∧
      (s.tamper c).sec = { s.sec with tampers := min 65535 (s.sec.tampers + 1), causes := s.sec.causes ++ [c] } ∧
      SameWords (fun o => o == Fld.SPD_SECSTAT_CAUSE.at 0 || o == Fld.SPD_SECSTAT_WIPES.at 0) s (s.tamper c) ∧
      (s.tamper c).modl = s.modl := by
  rw [State.tamper, if_pos hrun, s.startWipe_eq (by omega)]
  obtain ⟨hon, hcause, hwords⟩ := s.wipeShown_effect (c := c) (by omega)
  have hregs : ∀ x, ({ s.wipeShown c with sec := x } : State).regs = (s.wipeShown c).regs := fun _ => rfl
  refine ⟨?_, ?_, rfl, fun o ho => ?_, s.wipeShown_modl c⟩
  · rw [State.on_of_regs (hregs _), hon]
  · rw [State.rd_of_regs (hregs _), hcause]
  · rw [State.word_of_regs (hregs _), hwords o ho]

/-! ### A wipe ends -/

theorem exec_secureWipeDone_idle (h : s.on .SPD_SECSTAT_WIPING = false) (ok : Bool) : exec (.secureWipeDone ok) s = .next s := by
  show Host.Outcome.next (ite _ _ _) = _
  rw [h]; rfl

theorem exec_secureWipeDone (h : s.on .SPD_SECSTAT_WIPING = true) (ok : Bool) : exec (.secureWipeDone ok) s = .next
    (match (s.endWipe ok).modl.wipeIn with
      | some c => ({ s.endWipe ok with modl := { (s.endWipe ok).modl with wipeIn := none } } : State).bootFirmware c
      | none =>
        let z := { s.endWipe ok with sec := { (s.endWipe ok).sec with target := none } }
        let z := if ok then (match s.sec.target with | some t => z.moveLcs t | none => z) else z
        let z := z.whenS (ok && z.modl.fw) (·.wipeFollows)
        if s.sec.target.isNone then z
        else if ok then z.endLifecycle stDone []
        else z.endLifecycle errInternal [(1, 1), (2, srcSecure), (1, 2)]) := by
  show Host.Outcome.next (ite _ _ _) = _
  rw [h]; rfl

/-- The words that the end of a wipe may touch. -/
def wipeWord (o : Nat) : Bool := o == 0x60020 || o == 0x680100 || o == 0x20048 || o == 0x2004c || o == 0x20050

/-- What the end of a wipe touches at most. -/
def wipeMask : Mask := { regs := true, faults := true, sec := true }

theorem State.endWipe_within (ok : Bool) : Within wipeMask s (s.endWipe ok) :=
  (Within.refl _ s).endWipe (h_regs := rfl) (h_faults := rfl) (h_sec := rfl)

/-- What a wipe that verified leaves in the secure bank and in its registers. -/
theorem State.endWipe_verified : (s.endWipe true).on .SPD_SECSTAT_WIPING = false ∧
    (s.endWipe true).on .SPD_SECSTAT_FAIL = s.on .SPD_SECSTAT_FAIL ∧ (s.endWipe true).rd .ENG_KSTAT_KEYS = 0 ∧
    (s.endWipe true).on .ENG_KSTAT_KEYLOCK = false ∧ (s.endWipe true).sec = { s.sec with keys := [], mem := [], wiped := true } ∧
    (s.endWipe true).lcs = s.lcs ∧ (s.endWipe true).flt = s.flt ∧ ∀ o, wipeWord o = false → (s.endWipe true).word o = s.word o := by
  have hz : s.endWipe true = ((({ s.wr .SPD_SECSTAT_WIPING 0 0 with sec := { s.sec with keys := [], mem := [], wiped := true } } : State).wr
      .ENG_KSTAT_KEYLOCK 0 0).wr .ENG_KSTAT_KEYS 0 0) := rfl
  rw [hz]
  refine ⟨?_, ?_, ?_, ?_, ?_, ?_, ?_, fun o ho => ?_⟩
  · rw [State.on, State.rd_wr_other _ _ _ _ _ _ (by decide), State.rd_wr_other _ _ _ _ _ _ (by decide)]
    exact s.on_wr_zero _ _ (by decide)
  · rw [State.on, State.rd_wr_other _ _ _ _ _ _ (by decide), State.rd_wr_other _ _ _ _ _ _ (by decide)]
    exact congrArg (· == 1) (s.rd_wr_other _ _ _ _ _ (by decide))
  · exact State.rd_wr_same _ _ _ _ (by decide)
  · rw [State.on, State.rd_wr_other _ _ _ _ _ _ (by decide)]
    exact State.on_wr_zero _ _ _ (by decide)
  · rw [State.wr_sec, State.wr_sec]
  · rw [State.wr_lcs, State.wr_lcs, State.wr_lcs]
  · rw [State.wr_flt, State.wr_flt, State.wr_flt]
  · simp only [wipeWord, Bool.or_eq_false_iff, beq_eq_false_iff_ne] at ho
    obtain ⟨⟨⟨⟨h1, h2⟩, -⟩, -⟩, -⟩ := ho
    rw [State.word_wr_other _ _ _ _ h2, State.word_wr_other _ _ _ _ h2]
    exact s.word_wr_other _ _ _ h1

/-- What a wipe that did not verify leaves: FAIL, and a fault of class F. -/
theorem State.endWipe_failed : (s.endWipe false).on .SPD_SECSTAT_WIPING = false ∧ (s.endWipe false).on .SPD_SECSTAT_FAIL = true ∧
    (s.endWipe false).sec = { s.sec with causes := [] } ∧ (s.endWipe false).lcs = s.lcs ∧
    (s.endWipe false).flt = s.flt.receive (mkFault srcSecure 2 2 0) s.clock := by
  have hz : s.endWipe false = ((({ s.wr .SPD_SECSTAT_WIPING 0 0 with sec := { s.sec with causes := [] } } : State).wr
      .SPD_SECSTAT_FAIL 0 1).fault srcSecure 2 2) := by
    unfold State.endWipe
    exact if_neg (by decide)
  have hw := State.word_fault ((({ s.wr .SPD_SECSTAT_WIPING 0 0 with sec := { s.sec with causes := [] } } : State).wr
      .SPD_SECSTAT_FAIL 0 1)) srcSecure 2 2 0 (o := 0x60020) (by decide) (by decide) (by decide)
  rw [hz]
  refine ⟨?_, ?_, ?_, ?_, ?_⟩
  · rw [State.on_of_word .SPD_SECSTAT_WIPING 0 hw, State.on, State.rd_wr_other _ _ _ _ _ _ (by decide)]
    exact s.on_wr_zero _ _ (by decide)
  · rw [State.on_of_word .SPD_SECSTAT_FAIL 0 hw]
    exact State.on_flag_same _ .SPD_SECSTAT_FAIL 0 (by decide) (by decide)
  · rw [State.fault_eq, State.wr_sec]
  · rw [State.fault_eq, State.wr_lcs, State.wr_lcs]
  · rw [State.fault_eq, State.wr_flt, State.wr_flt, State.wr_clock, State.wr_clock]

/-! ### What follows a verified wipe (R426, R432) -/

/-- The faults of a list of causes: registers and collector alone. -/
theorem State.foldFaults (l : List Nat) : (l.foldl (fun s c => s.fault srcTamper c 1) s).flt.waiting =
      l.foldl (fun w c => mergeWaiting (mkFault srcTamper c 1 0) w) s.flt.waiting ∧
    (l.foldl (fun s c => s.fault srcTamper c 1) s) = { s with
      regs := (l.foldl (fun s c => s.fault srcTamper c 1) s).regs, flt := (l.foldl (fun s c => s.fault srcTamper c 1) s).flt } ∧
    ∀ o, o ≠ 0x20048 ∧ o ≠ 0x2004c ∧ o ≠ 0x20050 → (l.foldl (fun s c => s.fault srcTamper c 1) s).word o = s.word o := by
  induction l generalizing s with
  | nil => exact ⟨rfl, rfl, fun _ _ => rfl⟩
  | cons c l ih =>
    obtain ⟨hw, heq, hword⟩ := ih (s.fault srcTamper c 1)
    have hf := s.fault_eq srcTamper c 1 0
    refine ⟨?_, ?_, fun o ho => ?_⟩
    · rw [List.foldl_cons, List.foldl_cons, hw, hf]; rfl
    · rw [List.foldl_cons, heq, hf]
    · rw [List.foldl_cons, hword o ho, State.word_fault _ _ _ _ _ ho.1 ho.2.1 ho.2.2]

end Sys2Proof.Machine

/-! # O54: what follows the end of a wipe, and the obligation -/

namespace Sys2Proof.Machine

variable (s : State)

/-- Words that the faults of a wipe leave alone. -/
def faultFree (o : Nat) : Prop := o ≠ 0x20048 ∧ o ≠ 0x2004c ∧ o ≠ 0x20050

theorem State.lifeRecord_pend {s : State} (hro : s.on .LGR_STAT_RO = false) (hl : s.ledger.ro = false) (n : Nat) :
    (s.lifeRecord n).ledger.pend.map (·.type) = s.ledger.pend.map (·.type) ++ [7] := by
  simp [State.lifeRecord, State.record, hro, hl]

/-- What follows a verified wipe: a life-cycle record, the faults of the causes, and no cause is left. -/
theorem State.wipeFollows_effect :
    s.wipeFollows.sec = { s.sec with causes := [] } ∧ s.wipeFollows.lcs = s.lcs ∧ s.wipeFollows.dealer = s.dealer ∧
      s.wipeFollows.sent = s.sent ∧ (∀ o, faultFree o → s.wipeFollows.word o = s.word o) ∧
      s.wipeFollows.flt.waiting = s.sec.causes.foldl (fun w c => mergeWaiting (mkFault srcTamper c 1 0) w) s.flt.waiting ∧
      (s.on .LGR_STAT_RO = false → s.ledger.ro = false →
        s.wipeFollows.ledger.pend.map (·.type) = s.ledger.pend.map (·.type) ++ [7]) := by
  unfold State.wipeFollows
  extract_lets causes x r
  obtain ⟨hwait, heq, hword⟩ := r.foldFaults causes
  have hr : r = { s with sec := { s.sec with causes := [] }, ledger := { s.ledger with pend := r.ledger.pend } } := State.record_eq _ _ _ _ _ _
  have hrflt : r.flt = s.flt := by rw [hr]
  refine ⟨?_, ?_, ?_, ?_, fun o ho => ?_, by rw [hwait, hrflt], fun hro hl => ?_⟩
  · rw [heq]; show r.sec = _; rw [hr]
  · rw [heq]; show r.lcs = _; rw [hr]
  · rw [heq]; show r.dealer = _; rw [hr]
  · rw [heq]; show r.sent = _; rw [hr]
  · rw [hword o ho, State.word_of_regs (s := s) (t := r) (by rw [hr])]
  · rw [heq]
    exact State.lifeRecord_pend (s := { s with sec := { s.sec with causes := [] } }) hro hl _

/-- The state after a verified wipe, before the life-cycle operation ends. -/
def State.verifiedEnd (s : State) : State :=
  let z := { s.endWipe true with sec := { (s.endWipe true).sec with target := none } }
  let z := match s.sec.target with | some t => z.moveLcs t | none => z
  z.whenS z.modl.fw (·.wipeFollows)

/-- The state after a wipe that did not verify, before the life-cycle operation ends. -/
def State.failedEnd (s : State) : State := { s.endWipe false with sec := { (s.endWipe false).sec with target := none } }

theorem State.endWipe_wipeIn (ok : Bool) : (s.endWipe ok).modl = s.modl := (s.endWipe_within ok).modl_eq rfl rfl

theorem exec_secureWipeDone_boot {c : ColdInput} (h : s.on .SPD_SECSTAT_WIPING = true) (hin : s.modl.wipeIn = some c) (ok : Bool) :
    exec (.secureWipeDone ok) s = .next
      (({ s.endWipe ok with modl := { (s.endWipe ok).modl with wipeIn := none } } : State).bootFirmware c) := by
  rw [exec_secureWipeDone s h ok, s.endWipe_wipeIn ok, hin]

theorem exec_secureWipeDone_verified (h : s.on .SPD_SECSTAT_WIPING = true) (hin : s.modl.wipeIn = none) :
    exec (.secureWipeDone true) s = .next
      (if s.sec.target.isNone = true then s.verifiedEnd else s.verifiedEnd.endLifecycle stDone []) := by
  rw [exec_secureWipeDone s h true, s.endWipe_wipeIn true, hin]
  rfl

theorem exec_secureWipeDone_failed (h : s.on .SPD_SECSTAT_WIPING = true) (hin : s.modl.wipeIn = none) :
    exec (.secureWipeDone false) s = .next (if s.sec.target.isNone = true then s.failedEnd
      else s.failedEnd.endLifecycle errInternal [(1, 1), (2, srcSecure), (1, 2)]) := by
  rw [exec_secureWipeDone s h false, s.endWipe_wipeIn false, hin]
  rfl

/-- The life-cycle state that a verified wipe reaches from `l` (R4). -/
def reachedLcs (l : Nat) : Option Nat → Nat
  | some t => if l < t ∧ t ≤ 3 then t else l
  | none => l

/-- The state when the bank is wiped and the life-cycle has moved, before firmware acts. -/
def State.wipedBank (s : State) : State :=
  { s.endWipe true with
    sec := { s.sec with keys := [], mem := [], wiped := true, target := none }
    lcs := reachedLcs s.lcs s.sec.target }

theorem State.verifiedEnd_eq : s.verifiedEnd = s.wipedBank.whenS s.modl.fw (·.wipeFollows) := by
  obtain ⟨-, -, -, -, hsec, hlcs, -, -⟩ := s.endWipe_verified
  have hmodl := s.endWipe_wipeIn true
  unfold State.verifiedEnd State.wipedBank
  rw [hsec]
  cases s.sec.target with
  | none =>
    dsimp only [reachedLcs]
    rw [hmodl, ← hlcs]
  | some t =>
    dsimp only [State.moveLcs, reachedLcs]
    rw [hlcs]
    split
    · rw [← hmodl]
    · rw [← hmodl, ← hlcs]

theorem State.wipedBank_regs : s.wipedBank.regs = (s.endWipe true).regs := rfl

theorem State.wipedBank_effect : s.wipedBank.on .SPD_SECSTAT_WIPING = false ∧
    s.wipedBank.on .SPD_SECSTAT_FAIL = s.on .SPD_SECSTAT_FAIL ∧ s.wipedBank.rd .ENG_KSTAT_KEYS = 0 ∧
    s.wipedBank.on .ENG_KSTAT_KEYLOCK = false ∧ s.wipedBank.on .LGR_STAT_RO = s.on .LGR_STAT_RO ∧
    s.wipedBank.dealer = s.dealer ∧ s.wipedBank.sent = s.sent ∧ s.wipedBank.flt = s.flt ∧ s.wipedBank.ledger = s.ledger := by
  obtain ⟨hwip, hfail, hkeys, hlock, -, -, hflt, hword⟩ := s.endWipe_verified
  have hw := s.endWipe_within true
  have hon : ∀ f, s.wipedBank.on f = (s.endWipe true).on f := fun f => State.on_of_regs s.wipedBank_regs f 0
  refine ⟨by rw [hon, hwip], by rw [hon, hfail], by rw [State.rd_of_regs s.wipedBank_regs, hkeys], by rw [hon, hlock],
    by rw [hon, State.on_of_word .LGR_STAT_RO 0 (hword _ (by decide))], hw.dealer.resolve_left (by decide),
    (hw.out.resolve_left (by decide)).1, hflt, hw.ledger.resolve_left (by decide)⟩

/-- A verified wipe before the life-cycle operation ends: WIPING off, no key, and the target reached. -/
theorem State.verifiedEnd_effect : s.verifiedEnd.on .SPD_SECSTAT_WIPING = false ∧
    s.verifiedEnd.on .SPD_SECSTAT_FAIL = s.on .SPD_SECSTAT_FAIL ∧ s.verifiedEnd.rd .ENG_KSTAT_KEYS = 0 ∧
    s.verifiedEnd.on .ENG_KSTAT_KEYLOCK = false ∧ s.verifiedEnd.sec.keys = [] ∧ s.verifiedEnd.sec.mem = [] ∧
    s.verifiedEnd.sec.wiped = true ∧ s.verifiedEnd.sec.target = none ∧ s.verifiedEnd.lcs = reachedLcs s.lcs s.sec.target ∧
    s.verifiedEnd.dealer = s.dealer ∧ s.verifiedEnd.sent = s.sent := by
  obtain ⟨hwip, hfail, hkeys, hlock, -, hdealer, hsent, -, -⟩ := s.wipedBank_effect
  rw [s.verifiedEnd_eq]
  cases s.modl.fw
  · exact ⟨hwip, hfail, hkeys, hlock, rfl, rfl, rfl, rfl, rfl, hdealer, hsent⟩
  · obtain ⟨fsec, flcs, fdealer, fsent, fword, -, -⟩ := s.wipedBank.wipeFollows_effect
    have hon : ∀ f : Fld, faultFree (f.at 0) → s.wipedBank.wipeFollows.on f = s.wipedBank.on f :=
      fun f hf => State.on_of_word f 0 (fword _ hf)
    show s.wipedBank.wipeFollows.on .SPD_SECSTAT_WIPING = false ∧ _
    simp only [State.whenS, if_true]
    refine ⟨by rw [hon _ (by unfold faultFree; decide), hwip], by rw [hon _ (by unfold faultFree; decide), hfail],
      by rw [State.rd_of_word .ENG_KSTAT_KEYS 0 (fword _ (by unfold faultFree; decide)), hkeys],
      by rw [hon _ (by unfold faultFree; decide), hlock], ?_, ?_, ?_, ?_, by rw [flcs]; rfl, by rw [fdealer, hdealer], by rw [fsent, hsent]⟩
    all_goals rw [fsec]; rfl

/-- With firmware running a verified wipe raises the faults of its causes, and is recorded. -/
theorem State.verifiedEnd_follows (hfw : s.modl.fw = true) :
    s.verifiedEnd.flt.waiting = s.sec.causes.foldl (fun w c => mergeWaiting (mkFault srcTamper c 1 0) w) s.flt.waiting ∧
      (s.on .LGR_STAT_RO = false → s.ledger.ro = false →
        s.verifiedEnd.ledger.pend.map (·.type) = s.ledger.pend.map (·.type) ++ [7]) := by
  obtain ⟨-, -, -, -, hro, -, -, hflt, hledger⟩ := s.wipedBank_effect
  obtain ⟨-, -, -, -, -, fwait, fpend⟩ := s.wipedBank.wipeFollows_effect
  rw [s.verifiedEnd_eq, State.whenS, if_pos hfw, fwait, hflt]
  rw [hro, hledger] at fpend
  exact ⟨rfl, fpend⟩

/-- The end of the life-cycle operation touches what an event touches. -/
theorem State.endLifecycle_frame (st : Nat) (l : List (Nat × Nat)) : (s.endLifecycle st l).sec = s.sec ∧
    (s.endLifecycle st l).lcs = s.lcs ∧ (s.endLifecycle st l).ledger = s.ledger ∧
    ∀ o, eventWord o = false → (s.endLifecycle st l).word o = s.word o := by
  have h : Within eventMask s (s.endLifecycle st l) :=
    (Within.refl _ s).endLifecycle (h_regs := rfl) (h_out := rfl) (h_dealer := rfl) (h_faults := rfl)
  obtain ⟨hlcs, hsec⟩ := h.sec.resolve_left (by decide)
  refine ⟨hsec, hlcs, h.ledger.resolve_left (by decide), fun o ho => ?_⟩
  unfold State.endLifecycle
  split
  · exact s.word_endLong _ _ _ _ _ ho
  · rfl

/-- A long operation of LIFECYCLE. -/
def isLifecycle : LongKind → Bool
  | .lifecycle _ => true
  | _ => false

theorem State.endLifecycle_some {s : State} {o : LongOp} (ho : s.findLong isLifecycle = some o) (st : Nat) (l : List (Nat × Nat)) :
    s.endLifecycle st l = s.endLong o st 0 l := by
  have h : s.endLifecycle st l = (match s.findLong isLifecycle with | some o => s.endLong o st 0 l | none => s) := rfl
  rw [h, ho]

theorem State.endLifecycle_ended {s t : State} {o : LongOp} (hdealer : t.dealer = s.dealer) (hsent : t.sent = s.sent)
    (ho : s.findLong isLifecycle = some o) (st : Nat) (l : List (Nat × Nat)) : Ended o st s (t.endLifecycle st l) := by
  have hfind : t.findLong isLifecycle = some o := by rw [← ho, State.findLong, State.findLong, hdealer]
  rw [State.endLifecycle_some hfind]
  exact State.endLong_ended o st 0 l none (by rw [hdealer]) (by rw [hsent])

theorem State.tamper_off {c : Nat} (hrun : s.modl.running = false) (h : s.pow.thermal = false ∨ c = 1) : s.tamper c = s := by
  rw [State.tamper, hrun, if_neg (by decide), if_neg (by rcases h with h | h <;> simp [h])]

theorem State.tamper_owed {c : Nat} (hrun : s.modl.running = false) (h : s.pow.thermal = true) (hc : c ≠ 1) : s.tamper c =
    { s with sec := { s.sec with tampers := min 65535 (s.sec.tampers + 1), causes := s.sec.causes ++ [c] } } := by
  rw [State.tamper, hrun, if_neg (by decide), h, if_pos (by simpa using hc)]

theorem lidOpened_wipes (hrun : s.modl.running = true) : Leads .lidOpened s fun t =>
    (t.on .SPD_SECSTAT_WIPING = true ∧ t.rd .SPD_SECSTAT_CAUSE = 1 ∧
      t.sec = { s.sec with tampers := min 65535 (s.sec.tampers + 1), causes := s.sec.causes ++ [1] } ∧
      SameWords (fun o => o == Fld.SPD_SECSTAT_CAUSE.at 0 || o == Fld.SPD_SECSTAT_WIPES.at 0) s t) ∧ t.modl = { s.modl with lid := true } := by
  obtain ⟨hon, hcause, hsec, hwords, hmodl⟩ :=
    State.tamper_wipes { s with modl := { s.modl with lid := true } } (c := 1) hrun (by decide)
  exact ⟨_, rfl, ⟨hon, hcause, hsec, hwords⟩, hmodl⟩

theorem verifiedEnd_leads (h : s.on .SPD_SECSTAT_WIPING = true) (hin : s.modl.wipeIn = none) :
    ∃ t, exec (.secureWipeDone true) s = .next t ∧ t.sec = s.verifiedEnd.sec ∧ t.lcs = s.verifiedEnd.lcs ∧
      t.ledger = s.verifiedEnd.ledger ∧ (∀ o, eventWord o = false → t.word o = s.verifiedEnd.word o) ∧
      (s.sec.target = none → t = s.verifiedEnd) := by
  rw [exec_secureWipeDone_verified s h hin]
  cases s.sec.target with
  | none => exact ⟨_, rfl, rfl, rfl, rfl, fun _ _ => rfl, fun _ => rfl⟩
  | some k =>
    obtain ⟨hsec, hlcs, hledger, hword⟩ := s.verifiedEnd.endLifecycle_frame stDone []
    exact ⟨_, rfl, hsec, hlcs, hledger, hword, fun hk => nomatch hk⟩

theorem failedEnd_leads (h : s.on .SPD_SECSTAT_WIPING = true) (hin : s.modl.wipeIn = none) :
    ∃ t, exec (.secureWipeDone false) s = .next t ∧ t.sec = s.failedEnd.sec ∧ t.lcs = s.failedEnd.lcs ∧
      (∀ o, eventWord o = false → t.word o = s.failedEnd.word o) ∧ (s.sec.target = none → t = s.failedEnd) := by
  rw [exec_secureWipeDone_failed s h hin]
  cases s.sec.target with
  | none => exact ⟨_, rfl, rfl, rfl, fun _ _ => rfl, fun _ => rfl⟩
  | some k =>
    obtain ⟨hsec, hlcs, -, hword⟩ := s.failedEnd.endLifecycle_frame errInternal [(1, 1), (2, srcSecure), (1, 2)]
    exact ⟨_, rfl, hsec, hlcs, hword, fun hk => nomatch hk⟩

theorem State.failedEnd_effect : s.failedEnd.on .SPD_SECSTAT_WIPING = false ∧ s.failedEnd.on .SPD_SECSTAT_FAIL = true ∧
    s.failedEnd.sec = { s.sec with target := none, causes := [] } ∧ s.failedEnd.lcs = s.lcs ∧
    s.failedEnd.flt = s.flt.receive (mkFault srcSecure 2 2 0) s.clock ∧ s.failedEnd.dealer = s.dealer ∧ s.failedEnd.sent = s.sent := by
  obtain ⟨hwip, hfail, hsec, hlcs, hflt⟩ := s.endWipe_failed
  have hw := s.endWipe_within false
  have hregs : s.failedEnd.regs = (s.endWipe false).regs := rfl
  refine ⟨by rw [State.on_of_regs hregs, hwip], by rw [State.on_of_regs hregs, hfail], ?_, hlcs, hflt,
    hw.dealer.resolve_left (by decide), (hw.out.resolve_left (by decide)).1⟩
  unfold State.failedEnd
  rw [hsec]

/-! ### The obligation -/

/-- Settles O54, by one lemma for each of its commands. -/
theorem scratchpadAndSecureBank : Obligations.ScratchpadAndSecureBank := by
  intro s
  refine ⟨fun m owner b => ⟨spdOwn_taken s m owner b, spdOwn_refused s m owner b⟩, fun req g o => ⟨fun h => ?_, fun h hold => ?_,
    fun h hold hown => ?_, fun h hold hown => ?_⟩, fun g o hheld => ⟨fun h => ?_, zeroingDone_zeroes s g o hheld⟩,
    fun hreset hlock => ⟨fun out hen => ?_, fun hen => ?_⟩, fun hrun => ?_, fun hrun => ?_, fun h ok => ?_, fun c ok h hin => ?_,
    fun h hin => ⟨?_, ?_, fun o htarget ho => ?_⟩⟩
  · obtain ⟨hreq, hon, -, -, hmem, -⟩ := spdPwr_kept s req g h
    exact ⟨_, rfl, hreq, hon, hmem o⟩
  · exact ⟨_, rfl, spdPwr_on s req g h hold⟩
  · exact ⟨_, rfl, spdPwr_off s req g o h hold hown⟩
  · obtain ⟨⟨hreq, hon, -, -, hmem, -⟩, hrej⟩ := spdPwr_refused s req g h hold hown
    exact ⟨_, rfl, hreq.trans hold, hon, hrej, hmem o⟩
  · exact ⟨s, by rw [exec_zeroingDone, h]; rfl, rfl⟩
  · exact ⟨s, by rw [exec_patrolSegment hreset hlock, if_pos hen], rfl⟩
  · have hpat : ∀ out, exec (.patrolSegment out) s = _ := fun out => exec_patrolSegment hreset hlock out
    simp only [hen, Bool.true_eq_false, if_false] at hpat
    refine ⟨⟨s, hpat _, rfl⟩, fun hlt => ⟨_, hpat _, s.nextSegment_passed hlt, s.nextSegment_onlyWords⟩,
      fun heq => ⟨_, hpat _, ?_, s.nextSegment_passes heq, s.nextSegment_onlyWords⟩, fun b col hon => ⟨fun hk => ?_, fun hk => ?_⟩⟩
    · rw [s.rd_nextSegment, heq]
    · exact ⟨_, (hpat _).trans (congrArg _ (if_pos hon)), s.columnFailed_known_effect hk⟩
    · exact ⟨_, (hpat _).trans (congrArg _ (if_pos hon)), s.columnFailed_new_effect hk⟩
  · refine ⟨lidOpened_wipes s hrun, ?_, ?_⟩
    · obtain ⟨hon, hcause, hsec, hwords, hmodl⟩ := s.tamper_wipes (c := 2) hrun (by decide)
      exact ⟨_, rfl, ⟨hon, hcause, hsec, hwords⟩, hmodl⟩
    · obtain ⟨hon, hcause, hsec, hwords, hmodl⟩ := s.tamper_wipes (c := 3) hrun (by decide)
      exact ⟨_, rfl, ⟨hon, hcause, hsec, hwords⟩, hmodl⟩
  · refine ⟨⟨_, rfl, State.tamper_off _ hrun (.inr rfl)⟩, fun hcold => ⟨⟨_, rfl, s.tamper_off hrun (.inl hcold)⟩,
      ⟨_, rfl, s.tamper_off hrun (.inl hcold)⟩⟩, fun hhot => ⟨⟨_, rfl, s.tamper_owed hrun hhot (by decide)⟩,
      ⟨_, rfl, s.tamper_owed hrun hhot (by decide)⟩⟩⟩
  · exact ⟨s, exec_secureWipeDone_idle s h ok, rfl⟩
  · exact ⟨_, exec_secureWipeDone_boot s h hin ok, rfl⟩
  · obtain ⟨t, ht, tsec, tlcs, tledger, tword, tnone⟩ := verifiedEnd_leads s h hin
    obtain ⟨hwip, hfail, hkeys, hlock, skeys, smem, swiped, starget, hlcs, -, -⟩ := s.verifiedEnd_effect
    refine ⟨t, ht, by rw [State.on_of_word .SPD_SECSTAT_WIPING 0 (tword _ (by decide)), hwip],
      by rw [State.on_of_word .SPD_SECSTAT_FAIL 0 (tword _ (by decide)), hfail], by rw [tsec, skeys], by rw [tsec, smem],
      by rw [tsec, swiped], by rw [tsec, starget], by rw [State.rd_of_word .ENG_KSTAT_KEYS 0 (tword _ (by decide)), hkeys],
      by rw [State.on_of_word .ENG_KSTAT_KEYLOCK 0 (tword _ (by decide)), hlock], fun hn => by rw [tlcs, hlcs, hn]; rfl,
      fun k hk hlt hle => by rw [tlcs, hlcs, hk]; exact if_pos ⟨hlt, hle⟩,
      fun hn hfw => by rw [tnone hn, (s.verifiedEnd_follows hfw).1],
      fun hfw hro hl => by rw [tledger, (s.verifiedEnd_follows hfw).2 hro hl]⟩
  · obtain ⟨t, ht, tsec, tlcs, tword, tnone⟩ := failedEnd_leads s h hin
    obtain ⟨hwip, hfail, hsec, hlcs, hflt, -, -⟩ := s.failedEnd_effect
    exact ⟨t, ht, by rw [State.on_of_word .SPD_SECSTAT_WIPING 0 (tword _ (by decide)), hwip],
      by rw [State.on_of_word .SPD_SECSTAT_FAIL 0 (tword _ (by decide)), hfail], by rw [tsec, hsec], by rw [tlcs, hlcs],
      fun hn => by rw [tnone hn, hflt]; rfl⟩
  · obtain ⟨k, hk⟩ := Option.ne_none_iff_exists'.mp htarget
    obtain ⟨-, -, -, -, -, -, -, -, -, vdealer, vsent⟩ := s.verifiedEnd_effect
    obtain ⟨-, -, -, -, -, fdealer, fsent⟩ := s.failedEnd_effect
    refine ⟨⟨_, (exec_secureWipeDone_verified s h hin).trans (by rw [hk]; rfl), State.endLifecycle_ended vdealer vsent ho _ _⟩,
      ⟨_, (exec_secureWipeDone_failed s h hin).trans (by rw [hk]; rfl), State.endLifecycle_ended fdealer fsent ho _ _⟩⟩

end Sys2Proof.Machine

/-! # A rail fault of the oscillator while the rate limit is reported -/

namespace Sys2Proof.Machine

/-- The module runs, and the collector has still to take the message of the rate limit (source TIM, class C, kind 2; R369, R473). -/
def limitReported : State :=
  { State.reset with modl := { State.reset.modl with running := true }
                     flt := { State.reset.flt with waiting := [(mkFault srcTime 2 0 0, 1)] } }

/-- The key under which the collector learns that the rate limit has ended (R482). -/
def limitEnded : Nat := 2 ^ 6 * (4 * srcTime) + 2

theorem limitReported_domain : limitReported.domainOn 161 = true ∧ limitReported.refState ≠ rsFault := by decide +kernel

/-- The Fault state gives up the steering term, which ends the rate limit: the collector learns it (R388, R482). -/
theorem limitReported_ends :
    tget false (stateOf (exec (.railFault 161) limitReported) limitReported).flt.ended limitEnded = true := by decide +kernel

/-- The two messages that the statement names leave what the collector knows of the rate limit. -/
theorem limitReported_received : tget false ((limitReported.flt.receive (mkFault srcPower 3 1 161) limitReported.clock).receive
    (mkFault srcTime 1 1 0) limitReported.clock).ended limitEnded = false := by decide +kernel

/-- Refutes O60: where the message of the rate limit still waits, a rail fault of the oscillator's domain does more to the collector
than raise its two messages; the Fault state drops the steering term, and the collector learns that the rate limit has ended. -/
theorem not_bootAndSurroundings : ¬ Obligations.BootAndSurroundings := by
  intro h
  obtain ⟨-, -, -, -, -, -, -, -, hrail, -⟩ := h limitReported
  obtain ⟨hon, hfree⟩ := limitReported_domain
  obtain ⟨-, -, -, -, -, -, -, hosc, -⟩ := hrail 161 hon rfl
  obtain ⟨t, ht, -, -, -, hflt⟩ := hosc rfl rfl hfree
  have hends := limitReported_ends
  rw [ht] at hends
  have hkeeps : tget false t.flt.ended limitEnded = false :=
    (congrArg (fun f => tget false f.ended limitEnded) hflt).trans limitReported_received
  exact absurd (hends.symm.trans hkeeps) (by decide)

end Sys2Proof.Machine

/-! # TIME_SET on a ring whose completion queue other packets fill (R348) -/

namespace Sys2Proof.Machine

/-- A header of inline parameters is right for a command of that length (R340, R345). -/
theorem hdrWrong_ringHdr {n : Nat} (hn : n ≤ 32) : hdrWrong (ringHdr n) n = none := by
  have hlen : (BitVec.ofNat 32 n).toNat = n := Nat.mod_eq_of_lt (by omega)
  have hinline : ¬ 32 < n := by omega
  simp only [hdrWrong, ringHdr, hlen, hinline, decide_false, Bool.and_false, Bool.false_and, Bool.or_false, Bool.not_true, ne_eq,
    not_true_eq_false, Bool.false_eq_true, ↓reduceIte]

/-- The two event packets of event 0x0901 fill the completion queue, so that a TIME_SET of seconds out of range is held back (R348). -/
theorem crowdedRing_timeSet_unanswered :
    (stateOf (exec (.timeSet (ringHdr 12) (BitVec.ofNat 64 (2 ^ 48)) 0) crowdedRing) crowdedRing).sent = [] := by decide +kernel

/-- Refutes O49, in the state that refutes O45: `CmdMay` leaves out the subscriptions of `Dealer.mgmt`, and one that names the
command's own queue pair takes the room reserved for the reply; a TIME_SET of 2^48 seconds, which the statement has refused with
REJ_PARAM, is held back there without a reply. -/
theorem not_timeAndReferenceCommands : ¬ Obligations.TimeAndReferenceCommands := by
  intro h
  obtain ⟨htimeSet, -⟩ := h crowdedRing (ringHdr 12)
  obtain ⟨hrange, -⟩ := htimeSet (BitVec.ofNat 64 (2 ^ 48)) 0 (crowdedRing_may _ (hdrWrong_ringHdr (by decide)))
  obtain ⟨t, ht, hreply, -⟩ := hrange (by decide)
  have hsent := crowdedRing_timeSet_unanswered
  rw [ht] at hsent
  exact not_replied_of_sent_nil hsent hreply

end Sys2Proof.Machine

/-! # The numbering of events (R77, R355) -/

namespace Sys2Proof.Machine

/-- While a DSN below the last is left, an event that reaches the dealer is numbered (R355). -/
theorem State.event_eq_numberEvent {s : State} (hex : s.dealer.exhausted = false) (hdsn : s.dealer.dsn < 2 ^ 64 - 1)
    (port cd source counter arg : Nat) : s.event port cd source counter arg = s.numberEvent port cd source counter arg := by
  rw [State.event, hex, if_neg (by decide), if_pos hdsn]

/-- The event that would need the last DSN raises DSN exhausted in its place (R77). -/
theorem State.event_eq_fault {s : State} (hex : s.dealer.exhausted = false) (hlast : 2 ^ 64 - 1 ≤ s.dealer.dsn)
    (port cd source counter arg : Nat) : s.event port cd source counter arg =
      ({ s with dealer := { s.dealer with exhausted := true } } : State).fault srcDealer 4 2 := by
  rw [State.event, hex, if_neg (by decide), if_neg hlast.not_gt]
  rfl

/-- Settles O5: the dealer's record is that of `numberEvent`, whose deliveries change only what it knows of lost events and the
registers of `eventWord`; the last DSN leaves only DSN exhausted. -/
theorem eventsAreNumberedInOrder : Obligations.EventsAreNumberedInOrder := by
  intro s port cd source counter arg hex
  refine ⟨fun hdsn => ?_, fun hlast => ?_⟩
  · have hflt : QueuesReach s → (s.event port cd source counter arg).flt = s.flt := fun hreach =>
      State.event_flt hreach hex hdsn port cd source counter arg
    have hwords : SameWords eventWord s (s.event port cd source counter arg) := fun _ ho => s.word_event port cd source counter arg ho
    obtain ⟨lost, hdealer⟩ := s.numberEvent_dealer port cd source counter arg
    rw [← State.event_eq_numberEvent hex hdsn] at hdealer
    refine ⟨?_, ?_, hflt, ?_, hwords⟩
    · rw [hdealer]
    · rw [hdealer]; exact hex
    · rw [hdealer]
  · dsimp only
    rw [State.event_eq_fault hex hlast]
    refine ⟨State.fault_dealer _ _ _ _ _, ?_, State.raise_sent _ _⟩
    rw [State.fault, State.raise_eq]

end Sys2Proof.Machine

/-! # Commands that need READY on a ring whose completion queue other packets fill (R348) -/

namespace Sys2Proof.Machine

/-- The crowded ring of a module that is READY. -/
def crowdedReadyRing : State := crowdedRing.wr .MOD_STAT_READY 0 1

/-- Queue pair 0 takes commands, and keeps what `CmdMay` asks for a reply without parameters. -/
theorem crowdedReadyRing_ready : crowdedReadyRing.takes (ringHdr 0) = true ∧ crowdedReadyRing.dealer.dsn < 2 ^ 63 ∧
    crowdedReadyRing.on .MOD_STAT_READY = true ∧ crowdedReadyRing.on .PCI_QCFG_EVQ 0 = false ∧
    crowdedReadyRing.owed 0 + 1 + 2 * cqNeed 0 false ≤ crowdedReadyRing.cqFree 0 := by
  decide +kernel

theorem crowdedReadyRing_may (cmd : Instr) {n : Nat} (hn : n ≤ 32) : CmdMay crowdedReadyRing (ringHdr n) cmd n false 0 := by
  obtain ⟨htakes, hdsn, hready, hevq, hroom⟩ := crowdedReadyRing_ready
  refine ⟨htakes, rfl, hdsn, rfl, hdrWrong_ringHdr hn, .inr hready, fun q hq => ?_⟩
  obtain rfl := Src.qp.inj hq
  exact ⟨hevq, hroom⟩

/-- The two event packets of event 0x0901 fill the completion queue, so that a BUNDLE_RESET of no bundle is held back (R348). -/
theorem crowdedReadyRing_bundleReset_unanswered :
    (stateOf (exec (.bundleReset (ringHdr 1) 5) crowdedReadyRing) crowdedReadyRing).sent = [] := by decide +kernel

theorem crowdedReadyRing_planReset_unanswered :
    (stateOf (exec (.planReset (ringHdr 2) 0 5) crowdedReadyRing) crowdedReadyRing).sent = [] := by decide +kernel

/-- Refutes O46, as O45 is refuted: `CmdMay` leaves out the subscriptions of `Dealer.mgmt`, and one that names the command's own
queue pair takes the room reserved for the reply; a BUNDLE_RESET of bundle 5, which the statement has refused with REJ_PARAM, is
held back there without a reply. -/
theorem not_laneSessionAndEngineCommands : ¬ Obligations.LaneSessionAndEngineCommands := by
  intro h
  obtain ⟨-, -, hreset, -⟩ := h crowdedReadyRing (ringHdr 1)
  obtain ⟨-, hnone⟩ := hreset 5 (crowdedReadyRing_may _ (by decide))
  obtain ⟨t, ht, hreply, -⟩ := hnone (by decide)
  have hsent := crowdedReadyRing_bundleReset_unanswered
  rw [ht] at hsent
  exact not_replied_of_sent_nil hsent hreply

/-- Refutes O47, in the state that refutes O46: a PLAN_RESET from source 5, which the statement has refused with REJ_PARAM, is held
back without a reply. -/
theorem not_planCommands : ¬ Obligations.PlanCommands := by
  intro h
  obtain ⟨-, -, -, -, hreset, -⟩ := h crowdedReadyRing (ringHdr 2)
  obtain ⟨-, -, -, hsource⟩ := hreset 0 5 (crowdedReadyRing_may _ (by decide)) (by decide)
  obtain ⟨t, ht, hreply, -⟩ := hsource (by decide)
  have hsent := crowdedReadyRing_planReset_unanswered
  rw [ht] at hsent
  exact not_replied_of_sent_nil hsent hreply

end Sys2Proof.Machine

/-! # The registers of lanes and bundles: what a write leaves of the other fields -/

namespace Sys2Proof.Machine

variable (s : State)

/-! ### Fields of one index -/

/-- Two fields of tables with one stride that share no bit at the same index. -/
def Fld.apart (f g : Fld) : Bool :=
  f.stride == g.stride &&
    (g.base != f.base || (decide (g.lo + g.w ≤ f.lo ∨ f.lo + f.w ≤ g.lo) && decide (f.lo + f.w ≤ 32)))

theorem State.rd_wr_apart {f g : Fld} (h : f.apart g = true) (i v : Nat) : (s.wr f i v).rd g i = s.rd g i := by
  simp only [Fld.apart, Bool.and_eq_true, Bool.or_eq_true, beq_iff_eq, bne_iff_ne, decide_eq_true_eq] at h
  obtain ⟨hstride, hbase | hbits⟩ := h
  · exact s.rd_wr_other _ _ _ _ _ (.inl (by simp only [Fld.at, hstride]; omega))
  · exact s.rd_wr_other _ _ _ _ _ (.inr hbits)

/-- A field that lies in neither word of a 64-bit quantity of the same index. -/
def Reg64.apart (r : Reg64) (g : Fld) : Bool := r.stride == g.stride && g.base != r.base && g.base != r.base + 4

theorem State.rd_wr64_apart {r : Reg64} {g : Fld} (h : r.apart g = true) (i v : Nat) : (s.wr64 r i v).rd g i = s.rd g i := by
  simp only [Reg64.apart, Bool.and_eq_true, beq_iff_eq, bne_iff_ne] at h
  obtain ⟨⟨hstride, hlow⟩, hhigh⟩ := h
  refine State.rd_of_word _ _ (s.word_wr64_other r i v ?_ ?_) <;> simp only [Fld.at, hstride] <;> omega

/-- Two 64-bit quantities of one index that share no word. -/
def Reg64.apart64 (r q : Reg64) : Bool := r.stride == q.stride && decide (q.base + 8 ≤ r.base ∨ r.base + 8 ≤ q.base)

theorem State.rd64_wr64_apart {r q : Reg64} (h : r.apart64 q = true) (i v : Nat) : (s.wr64 r i v).rd64 q i = s.rd64 q i := by
  simp only [Reg64.apart64, Bool.and_eq_true, beq_iff_eq, decide_eq_true_eq] at h
  obtain ⟨hstride, hbase⟩ := h
  have hne : r.stride * i = q.stride * i := by rw [hstride]
  rw [State.rd64, State.rd64, s.word_wr64_other _ _ _ (by omega) (by omega), s.word_wr64_other _ _ _ (by omega) (by omega)]

/-- A field that lies in neither word of a 64-bit quantity of the same index, which a write of it leaves. -/
theorem State.rd64_wr_apart {f : Fld} {q : Reg64} (h : q.apart f = true) (i v : Nat) : (s.wr f i v).rd64 q i = s.rd64 q i := by
  simp only [Reg64.apart, Bool.and_eq_true, beq_iff_eq, bne_iff_ne] at h
  obtain ⟨⟨hstride, hlow⟩, hhigh⟩ := h
  have hne : q.stride * i = f.stride * i := by rw [hstride]
  rw [State.rd64, State.rd64, s.word_wr_other _ _ _ (by simp only [Fld.at]; omega), s.word_wr_other _ _ _ (by simp only [Fld.at]; omega)]

/-- A write of the value held changes no register. -/
theorem putBits_self {x lo w v : Nat} (h : v % 2 ^ w = x / 2 ^ lo % 2 ^ w) : putBits x lo w v = x := by
  rw [putBits, h, pow_add, ← Nat.div_div_eq_div_mul]
  have h1 := Nat.div_add_mod x (2 ^ lo)
  have h2 := Nat.div_add_mod (x / 2 ^ lo) (2 ^ w)
  generalize x / 2 ^ lo / 2 ^ w = q at *
  rw [← h2] at h1
  linarith

theorem State.word_wr_held {f : Fld} {i v : Nat} (h : v % 2 ^ f.w = s.rd f i) (o : Nat) : (s.wr f i v).word o = s.word o := by
  by_cases ho : o = f.at i
  · subst ho
    rw [State.wr, State.word_setWord_same, putBits_self h, BitVec.ofNat_toNat, BitVec.setWidth_eq]
  · exact s.word_wr_other _ _ _ ho

/-! ### What does not touch the registers, or not the records of lanes and bundles -/

theorem State.lane_of_lanes {s t : State} (h : t.lanes = s.lanes) (l : Nat) : t.lane l = s.lane l := by simp only [State.lane, h]
theorem State.bundle_of_bundles {s t : State} (h : t.bundles = s.bundles) (b : Nat) : t.bundle b = s.bundle b := by
  simp only [State.bundle, h]
theorem State.link_of_links {s t : State} (h : t.links = s.links) (b : Nat) : t.link b = s.link b := by simp only [State.link, h]
theorem State.rd64_of_regs {s t : State} (h : t.regs = s.regs) (r : Reg64) (i : Nat) : t.rd64 r i = s.rd64 r i := by
  simp only [State.rd64, State.word_of_regs h]

@[simp] theorem State.rd_setLane (l : Nat) (x : LaneX) (f : Fld) (i : Nat) : (s.setLane l x).rd f i = s.rd f i :=
  State.rd_of_regs rfl f i
@[simp] theorem State.rd_setBundle (b : Nat) (x : BundleX) (f : Fld) (i : Nat) : (s.setBundle b x).rd f i = s.rd f i :=
  State.rd_of_regs rfl f i
@[simp] theorem State.rd_send (m : Msg) (f : Fld) (i : Nat) : (s.send m).rd f i = s.rd f i :=
  State.rd_of_regs rfl f i
@[simp] theorem State.rd_drawn (f : Fld) (i : Nat) : s.drawn.rd f i = s.rd f i :=
  State.rd_of_regs rfl f i
@[simp] theorem State.rd_domainBack (d : Nat) (f : Fld) (i : Nat) : (s.domainBack d).rd f i = s.rd f i :=
  State.rd_of_regs rfl f i
@[simp] theorem State.rd_sendStep (l ty r e : Nat) (f : Fld) (i : Nat) : (s.sendStep l ty r e).rd f i = s.rd f i :=
  State.rd_of_regs rfl f i
@[simp] theorem State.rd_sendMarkers (b : Nat) (f : Fld) (i : Nat) : (s.sendMarkers b).rd f i = s.rd f i :=
  State.rd_of_regs rfl f i
@[simp] theorem State.rd64_setLane (l : Nat) (x : LaneX) (r : Reg64) (i : Nat) : (s.setLane l x).rd64 r i = s.rd64 r i :=
  State.rd64_of_regs rfl r i

@[simp] theorem State.lane_setLane_same (l : Nat) (x : LaneX) : (s.setLane l x).lane l = x := tget_tset_same ..
theorem State.lane_setLane_other {k l : Nat} (x : LaneX) (h : k ≠ l) : (s.setLane l x).lane k = s.lane k := tget_tset_other _ _ _ _ h
@[simp] theorem State.lane_wr (f : Fld) (i v l : Nat) : (s.wr f i v).lane l = s.lane l := State.lane_of_lanes rfl _
@[simp] theorem State.lane_wr64 (r : Reg64) (i v l : Nat) : (s.wr64 r i v).lane l = s.lane l := State.lane_of_lanes rfl _
@[simp] theorem State.lane_flag (f : Fld) (i l : Nat) : (s.flag f i).lane l = s.lane l := State.lane_of_lanes rfl _
@[simp] theorem State.lane_put (f : Fld) (i : Nat) (b : Bool) (l : Nat) : (s.put f i b).lane l = s.lane l := State.lane_of_lanes rfl _
@[simp] theorem State.lane_setBundle (b : Nat) (x : BundleX) (l : Nat) : (s.setBundle b x).lane l = s.lane l := State.lane_of_lanes rfl _
@[simp] theorem State.lane_send (m : Msg) (l : Nat) : (s.send m).lane l = s.lane l := State.lane_of_lanes rfl _
@[simp] theorem State.lane_domainBack (d l : Nat) : (s.domainBack d).lane l = s.lane l := State.lane_of_lanes rfl _
@[simp] theorem State.lane_sendStep (k ty r e l : Nat) : (s.sendStep k ty r e).lane l = s.lane l := State.lane_of_lanes rfl _

@[simp] theorem State.bundle_setBundle_same (b : Nat) (x : BundleX) : (s.setBundle b x).bundle b = x := tget_tset_same ..
theorem State.bundle_setBundle_other {c b : Nat} (x : BundleX) (h : c ≠ b) : (s.setBundle b x).bundle c = s.bundle c :=
  tget_tset_other _ _ _ _ h
@[simp] theorem State.bundle_wr (f : Fld) (i v b : Nat) : (s.wr f i v).bundle b = s.bundle b := State.bundle_of_bundles rfl _
@[simp] theorem State.link_setLink_same (b : Nat) (x : Link) : (s.setLink b x).link b = x := tget_tset_same ..
@[simp] theorem State.link_wr (f : Fld) (i v b : Nat) : (s.wr f i v).link b = s.link b := State.link_of_links rfl _

/-! ### Where the registers of lanes and bundles lie -/

/-- The registers that events, faults and the sessions show (R346, R355, R470), and those from the sessions' on. -/
def sideWord (o : Nat) : Prop := eventWord o = true ∨ faultWord o = true ∨ 0x400000 ≤ o

/-- The registers of lane `l`. -/
def lanePage (l o : Nat) : Prop := 0x300000 + 0x1000 * l ≤ o ∧ o < 0x301000 + 0x1000 * l

/-- A field of the lanes' registers. -/
def Fld.isLane (f : Fld) : Bool := f.stride == 0x1000 && decide (0x300000 ≤ f.base ∧ f.base < 0x301000)

/-- A field of the registers of lanes or bundles. -/
def Fld.isVlk (f : Fld) : Bool := f.stride == 0x1000 && decide (0x300000 ≤ f.base ∧ f.base < 0x381000)

theorem not_sideWord {o : Nat} (hlo : 0x300000 ≤ o) (hhi : o < 0x400000) : ¬ sideWord o := by
  simp only [sideWord, eventWord, refuseWord, faultWord, Bool.or_eq_true, Bool.and_eq_true, beq_iff_eq, decide_eq_true_eq]
  omega

theorem not_sideWord_iff {o : Nat} : ¬ sideWord o ↔ eventWord o = false ∧ faultWord o = false ∧ o < 0x400000 := by
  simp [sideWord]

theorem Fld.at_lanePage {f : Fld} (hf : f.isLane = true) (l : Nat) : lanePage l (f.at l) := by
  simp only [Fld.isLane, Bool.and_eq_true, beq_iff_eq, decide_eq_true_eq] at hf
  simp only [lanePage, Fld.at, hf.1]
  omega

theorem Fld.at_not_sideWord {f : Fld} (hf : f.isVlk = true) {i : Nat} (hi : i < 127) : ¬ sideWord (f.at i) := by
  simp only [Fld.isVlk, Bool.and_eq_true, beq_iff_eq, decide_eq_true_eq] at hf
  refine not_sideWord ?_ ?_ <;> simp only [Fld.at, hf.1] <;> omega

theorem Fld.isVlk_of_isLane {f : Fld} (hf : f.isLane = true) : f.isVlk = true := by
  simp only [Fld.isVlk, Fld.isLane, Bool.and_eq_true, beq_iff_eq, decide_eq_true_eq] at hf ⊢
  omega

/-! ### Frames -/

/-- Beside the registers of `sideWord`, nothing of the lanes and bundles differs but the registers of `W`, the records of the lanes of
`L` and those of the bundles of `B`. -/
structure LaneFrame (W L B : Nat → Prop) (s t : State) : Prop where
  word : ∀ o, ¬ sideWord o → ¬ W o → t.word o = s.word o
  lane : ∀ l, ¬ L l → t.lane l = s.lane l
  bundle : ∀ b, ¬ B b → t.bundle b = s.bundle b

/-- Nothing of lanes and bundles differs. -/
abbrev Quiet : State → State → Prop := LaneFrame (fun _ => False) (fun _ => False) (fun _ => False)

section
variable {s} {W L B W' L' B' : Nat → Prop} {t u : State}

theorem LaneFrame.refl (s : State) : LaneFrame W L B s s := ⟨fun _ _ _ => rfl, fun _ _ => rfl, fun _ _ => rfl⟩

theorem LaneFrame.trans (h : LaneFrame W L B s t) (k : LaneFrame W L B t u) : LaneFrame W L B s u :=
  ⟨fun o hs hw => (k.word o hs hw).trans (h.word o hs hw), fun l hl => (k.lane l hl).trans (h.lane l hl),
    fun b hb => (k.bundle b hb).trans (h.bundle b hb)⟩

theorem LaneFrame.mono (h : LaneFrame W L B s t) (hW : ∀ o, W o → W' o) (hL : ∀ l, L l → L' l) (hB : ∀ b, B b → B' b) :
    LaneFrame W' L' B' s t :=
  ⟨fun o hs hw => h.word o hs (hw ∘ hW o), fun l hl => h.lane l (hl ∘ hL l), fun b hb => h.bundle b (hb ∘ hB b)⟩

/-- A step of which nothing of lanes and bundles shows. -/
theorem LaneFrame.quiet (h : LaneFrame W L B s t) (k : Quiet t u) : LaneFrame W L B s u :=
  h.trans (k.mono (fun _ => False.elim) (fun _ => False.elim) fun _ => False.elim)

theorem Quiet.of_regs (hr : t.regs = s.regs) (hl : t.lanes = s.lanes) (hb : t.bundles = s.bundles) : Quiet s t :=
  ⟨fun o _ _ => State.word_of_regs hr o, fun l _ => State.lane_of_lanes hl l, fun b _ => State.bundle_of_bundles hb b⟩

/-- A step that stays within a mask without the lanes, and writes only registers of `sideWord`. -/
theorem Quiet.of_within {M : Mask} (h : Within M s t) (hM : M.lanes = false) (hw : ∀ o, ¬ sideWord o → t.word o = s.word o) :
    Quiet s t := by
  obtain ⟨hl, hb⟩ := h.lanes.resolve_left (by simp [hM])
  exact ⟨fun o hs _ => hw o hs, fun l _ => State.lane_of_lanes hl l, fun b _ => State.bundle_of_bundles hb b⟩

theorem LaneFrame.setWord (h : LaneFrame W L B s t) {o : Nat} (v : Word) (hw : W o ∨ sideWord o) : LaneFrame W L B s (t.setWord o v) :=
  h.trans ⟨fun p hs hp => t.word_setWord_other _ _ (by rintro rfl; exact hw.elim hp hs), fun _ _ => rfl, fun _ _ => rfl⟩

theorem LaneFrame.wr (h : LaneFrame W L B s t) {f : Fld} {i : Nat} (v : Nat) (hw : W (f.at i) ∨ sideWord (f.at i)) :
    LaneFrame W L B s (t.wr f i v) := h.setWord _ hw

theorem LaneFrame.setLane (h : LaneFrame W L B s t) {l : Nat} (x : LaneX) (hl : L l) : LaneFrame W L B s (t.setLane l x) :=
  h.trans ⟨fun _ _ _ => rfl, fun k hk => t.lane_setLane_other x (by rintro rfl; exact hk hl), fun _ _ => rfl⟩

theorem LaneFrame.setBundle (h : LaneFrame W L B s t) {b : Nat} (x : BundleX) (hb : B b) : LaneFrame W L B s (t.setBundle b x) :=
  h.trans ⟨fun _ _ _ => rfl, fun _ _ => rfl, fun c hc => t.bundle_setBundle_other x (by rintro rfl; exact hc hb)⟩

theorem LaneFrame.ite {c : Prop} [Decidable c] (h : LaneFrame W L B s t) (k : LaneFrame W L B s u) :
    LaneFrame W L B s (if c then t else u) := by split <;> assumption

theorem LaneFrame.foldl {α : Type} {g : State → α → State} (l : List α) (hg : ∀ t, ∀ x ∈ l, LaneFrame W L B t (g t x))
    (h : LaneFrame W L B s t) : LaneFrame W L B s (l.foldl g t) := by
  induction l generalizing t with
  | nil => exact h
  | cons x r ih =>
    exact ih (fun t y hy => hg t y (List.mem_cons_of_mem _ hy)) (h.trans (hg t x (List.mem_cons_self ..)))

theorem LaneFrame.forN {n : Nat} {g : State → Nat → State} (hg : ∀ t i, i < n → LaneFrame W L B t (g t i))
    (h : LaneFrame W L B s t) : LaneFrame W L B s (Machine.forN n g t) :=
  LaneFrame.foldl _ (fun t i hi => hg t i (List.mem_range.mp hi)) h

/-- What a register of a lane or a bundle shows, where the frame does not hold it. -/
theorem LaneFrame.rd (h : LaneFrame W L B s t) {f : Fld} {i : Nat} (hs : ¬ sideWord (f.at i)) (hw : ¬ W (f.at i)) :
    t.rd f i = s.rd f i := State.rd_of_word f i (h.word _ hs hw)

theorem Quiet.rd (h : Quiet s t) {n : Nat} (hn : n ≤ 127) {f : Fld} (hf : f.isVlk = true) (i : Fin n) : t.rd f i.val = s.rd f i.val :=
  LaneFrame.rd h (Fld.at_not_sideWord hf (by omega)) id

end

/-! ### Operations that leave lanes and bundles alone -/

theorem State.word_endLongOf (q : LongKind → Bool) (st : Nat) {o : Nat} (h : eventWord o = false) : (s.endLongOf q st).word o = s.word o := by
  unfold State.endLongOf
  split
  · exact s.word_endLong _ _ _ _ _ h
  · rfl

theorem State.fault_quiet (a b c d : Nat) : Quiet s (s.fault a b c d) := by
  refine .of_within (M := { regs := true, faults := true }) ((Within.refl _ s).fault rfl rfl) rfl fun o ho => ?_
  obtain ⟨-, hfault, -⟩ := not_sideWord_iff.mp ho
  simp only [faultWord, Bool.or_eq_false_iff, beq_eq_false_iff_ne] at hfault
  obtain ⟨⟨h1, h2⟩, h3⟩ := hfault
  exact s.word_fault _ _ _ _ h1 h2 h3

theorem State.event_quiet (a b c d e : Nat) : Quiet s (s.event a b c d e) :=
  .of_within (s.event_within a b c d e) rfl fun _ ho => s.word_event _ _ _ _ _ (not_sideWord_iff.mp ho).1

theorem State.repair_quiet (a b c d e f : Nat) : Quiet s (s.repair a b c d e f) :=
  .of_within (s.repair_within a b c d e f) rfl fun _ ho => s.word_repair _ _ _ _ _ _ (not_sideWord_iff.mp ho).1

theorem State.endLongOf_quiet (q : LongKind → Bool) (st : Nat) : Quiet s (s.endLongOf q st) :=
  .of_within (M := eventMask) ((Within.refl _ s).endLongOf rfl rfl rfl rfl) rfl fun _ ho => s.word_endLongOf _ _ (not_sideWord_iff.mp ho).1

theorem State.setLive_quiet (a b c : Nat) (v : Bool) : Quiet s (s.setLive a b c v) := by
  have h : Within { faults := true } s (s.setLive a b c v) := (Within.refl _ s).setLive rfl
  exact .of_within h rfl fun o _ => State.word_of_regs (h.regs.resolve_left (by decide)) o

theorem State.setLink_quiet (b : Nat) (x : Link) : Quiet s (s.setLink b x) := .of_regs rfl rfl rfl
theorem State.dealUnder_quiet (b m : Nat) : Quiet s (s.dealUnder b m) := .of_regs rfl rfl rfl
theorem State.sendMarkers_quiet (b : Nat) : Quiet s (s.sendMarkers b) := .of_regs rfl rfl rfl
theorem State.sendCtl_quiet (b f : Nat) : Quiet s (s.sendCtl b f) := .of_regs rfl rfl rfl

theorem State.scanSou_quiet (b : Nat) : Quiet s (s.scanSou b) := by
  unfold State.scanSou
  exact LaneFrame.ite (s.setLink_quiet _ _) (.refl s)

theorem State.sessionEvent_quiet (n a x : Nat) : Quiet s (s.sessionEvent n a x) := s.event_quiet _ _ _ _ _

/-- The word of a session's state. -/
theorem sstat_sideWord (n : Nat) : sideWord (Fld.VSN_SSTAT_STATE.at n) := by
  simp only [sideWord, Fld.at, Fld.VSN_SSTAT_STATE]; omega

theorem State.detach_quiet (b : Nat) : Quiet s (s.detach b) := by
  unfold State.detach
  refine LaneFrame.forN (fun t n _ => LaneFrame.ite ?_ (.refl t)) (.refl s)
  exact ((LaneFrame.refl t).wr _ (.inr (sstat_sideWord n))).quiet (State.sessionEvent_quiet ..)

theorem State.startLink_quiet (b : Nat) : Quiet s (s.startLink b) := by
  have hside : ∀ f : Fld, 0x400000 ≤ f.base → sideWord (f.at b) := fun f hf => .inr (.inr (by simp only [Fld.at]; omega))
  unfold State.startLink
  extract_lets k u v w
  have hu : Quiet s u := s.setLink_quiet _ _
  have hv : Quiet s v := ((LaneFrame.wr hu _ (.inr (hside _ (by decide)))).wr _ (.inr (hside _ (by decide)))).wr _
    (.inr (hside _ (by decide)))
  have hw : Quiet s w := (LaneFrame.wr hv _ (.inr (hside _ (by decide)))).wr _ (.inr (hside _ (by decide)))
  exact LaneFrame.quiet hw (w.sendCtl_quiet b 2)

section
variable {n : Nat} {f : Fld} (i : Fin n)

/-! What a register of lanes or bundles shows after them. -/

@[simp] theorem State.rd_fault (hn : n ≤ 127) (hf : f.isVlk = true) (a b c d : Nat) : (s.fault a b c d).rd f i.val = s.rd f i.val :=
  (s.fault_quiet a b c d).rd hn hf i
@[simp] theorem State.rd_repair (hn : n ≤ 127) (hf : f.isVlk = true) (a b c d e g : Nat) :
    (s.repair a b c d e g).rd f i.val = s.rd f i.val := (s.repair_quiet a b c d e g).rd hn hf i
@[simp] theorem State.rd_endLongOf (hn : n ≤ 127) (hf : f.isVlk = true) (q : LongKind → Bool) (st : Nat) :
    (s.endLongOf q st).rd f i.val = s.rd f i.val := (s.endLongOf_quiet q st).rd hn hf i
@[simp] theorem State.rd_setLive (hn : n ≤ 127) (hf : f.isVlk = true) (a b c : Nat) (v : Bool) :
    (s.setLive a b c v).rd f i.val = s.rd f i.val := (s.setLive_quiet a b c v).rd hn hf i
@[simp] theorem State.rd_startLink (hn : n ≤ 127) (hf : f.isVlk = true) (b : Nat) : (s.startLink b).rd f i.val = s.rd f i.val :=
  (s.startLink_quiet b).rd hn hf i
@[simp] theorem State.rd_scanSou (b : Nat) (f : Fld) (i : Nat) : (s.scanSou b).rd f i = s.rd f i := by
  unfold State.scanSou; split <;> rfl

end

@[simp] theorem State.lane_fault (a b c d l : Nat) : (s.fault a b c d).lane l = s.lane l := (s.fault_quiet a b c d).lane l id
@[simp] theorem State.lane_repair (a b c d e f l : Nat) : (s.repair a b c d e f).lane l = s.lane l := (s.repair_quiet a b c d e f).lane l id
@[simp] theorem State.lane_endLongOf (q : LongKind → Bool) (st l : Nat) : (s.endLongOf q st).lane l = s.lane l :=
  (s.endLongOf_quiet q st).lane l id
@[simp] theorem State.lane_setLive (a b c : Nat) (v : Bool) (l : Nat) : (s.setLive a b c v).lane l = s.lane l :=
  (s.setLive_quiet a b c v).lane l id

/-! ### The state of a bundle (R99, R111) -/

/-- `VLK_BSTAT.STATE` as the positions in service and the home lanes give it. -/
def State.bundleShown (s : State) (b : Nat) : State :=
  s.wr .VLK_BSTAT_STATE b (if s.rd .VLK_BSTAT_MASK b = 15 then 1 else if s.rd .VLK_BSTAT_MASK b ≠ 0 then 2
    else if (List.range 4).any (fun i => s.climbing (4 * b + i)) then 3 else 0)

/-- The loss of the last lane gives up the agreed rate. -/
def BundleX.givenUp (x : BundleX) : BundleX := { x with fixed := none, gathering := false, lost := true }

theorem State.bundleState_eq (b : Nat) : s.bundleState b =
    if (s.bundleUp b && s.rd .VLK_BSTAT_MASK b == 0) = true then
      ((((s.bundleShown b).setBundle b (s.bundle b).givenUp).dealUnder b 0).fault (srcBundle b) 3 1 b).detach b
    else s.bundleShown b := rfl

/-- Beside the state it shows, only its agreed rate and its loss are recorded. -/
theorem State.bundleState_frame (b : Nat) :
    LaneFrame (fun _ => False) (fun _ => False) (· = b) (s.bundleShown b) (s.bundleState b) := by
  rw [s.bundleState_eq]
  refine .ite ?_ (.refl _)
  have h := (LaneFrame.refl (W := fun _ => False) (L := fun _ => False) (B := (· = b)) (s.bundleShown b)).setBundle (s.bundle b).givenUp rfl
  exact ((h.quiet (State.dealUnder_quiet ..)).quiet (State.fault_quiet ..)).quiet (State.detach_quiet ..)

theorem State.bundleState_change (b c : Nat) : ((s.bundleState b).bundle c).change = (s.bundle c).change := by
  by_cases hc : c = b
  · subst hc
    rw [s.bundleState_eq]
    split
    · rw [(State.detach_quiet _ _).bundle _ id, (State.fault_quiet _ _ _ _ _).bundle _ id]
      show (((s.bundleShown c).setBundle c (s.bundle c).givenUp).bundle c).change = _
      rw [State.bundle_setBundle_same]; rfl
    · rfl
  · rw [(s.bundleState_frame b).bundle c hc]; rfl

@[simp] theorem State.lane_bundleState (b l : Nat) : (s.bundleState b).lane l = s.lane l := (s.bundleState_frame b).lane l id

@[simp] theorem State.lane_homeState (k l : Nat) : (s.homeState k).lane l = s.lane l := by
  unfold State.homeState; split <;> simp

/-- The registers of a bundle's state alone follow. -/
theorem State.bundleState_frame' (b : Nat) : LaneFrame (· = Fld.VLK_BSTAT_STATE.at b) (fun _ => False) (· = b) s (s.bundleState b) :=
  LaneFrame.trans (LaneFrame.wr (.refl s) _ (.inl rfl))
    ((s.bundleState_frame b).mono (fun _ => False.elim) (fun _ => id) fun _ => id)

theorem State.homeState_frame (k : Nat) :
    LaneFrame (· = Fld.VLK_BSTAT_STATE.at (k / 4)) (fun _ => False) (· = k / 4) s (s.homeState k) := by
  unfold State.homeState
  exact .ite (s.bundleState_frame' _) (.refl s)

/-- Any other field of lanes and bundles. -/
theorem State.rd_bundleState {n : Nat} (i : Fin n) (hn : n ≤ 127) {f : Fld} (hf : f.isVlk = true) (b : Nat) :
    (s.bundleState b).rd f i.val = (s.bundleShown b).rd f i.val :=
  (s.bundleState_frame b).rd (Fld.at_not_sideWord hf (by omega)) id

/-- The registers of lanes are not those of bundles. -/
theorem lanePage_ne_bstat (l : Lane) (b : Nat) {o : Nat} (h : lanePage l.val o) : o ≠ Fld.VLK_BSTAT_STATE.at b := by
  obtain ⟨hlo, hhi⟩ := h
  simp only [Fld.at, Fld.VLK_BSTAT_STATE]
  omega

@[simp] theorem State.rd_bundleState_lane (l : Lane) {f : Fld} (hf : f.isLane = true) (b : Nat) :
    (s.bundleState b).rd f l.val = s.rd f l.val :=
  (s.bundleState_frame' b).rd (Fld.at_not_sideWord (Fld.isVlk_of_isLane hf) (by omega)) (lanePage_ne_bstat l b (Fld.at_lanePage hf l.val))

@[simp] theorem State.rd_homeState_lane (l : Lane) {f : Fld} (hf : f.isLane = true) (k : Nat) :
    (s.homeState k).rd f l.val = s.rd f l.val := by
  unfold State.homeState
  split
  · exact s.rd_bundleState_lane l hf _
  · rfl

end Sys2Proof.Machine

/-! # What the operations of a lane leave in its registers (R86, R103, R104, R109) -/

namespace Sys2Proof.Machine

variable (s : State)

/-! ### Locks, taps and the line -/

/-- The registers of the receive locks. -/
def lockFlds : List Fld := [.VLK_STAT_CLK_LOCK, .VLK_STAT_BLK_LOCK, .VLK_STAT_MRK_LOCK]

theorem lockFlds_stat : ∀ f ∈ lockFlds, f.stride = 0x1000 ∧ f.base = 0x300004 := by decide

@[simp] theorem State.rd_setBlockLock {g : Fld} (h : lockFlds.all (·.apart g) = true) (l v : Nat) :
    (s.setBlockLock l v).rd g l = s.rd g l := by
  simp only [lockFlds, List.all_cons, Bool.and_eq_true] at h
  rw [State.setBlockLock, State.rd_wr_apart _ h.2.1, State.rd_wr_apart _ h.1]

@[simp] theorem State.rd_setLocks {g : Fld} (h : lockFlds.all (·.apart g) = true) (l v : Nat) :
    (s.setLocks l v).rd g l = s.rd g l := by
  have hmrk := h
  simp only [lockFlds, List.all_cons, Bool.and_eq_true] at hmrk
  rw [State.setLocks, State.rd_wr_apart _ hmrk.2.2.1, State.rd_setBlockLock _ h]

@[simp] theorem State.lane_setBlockLock (l v k : Nat) : (s.setBlockLock l v).lane k = s.lane k := State.lane_of_lanes rfl _
@[simp] theorem State.lane_setLocks (l v k : Nat) : (s.setLocks l v).lane k = s.lane k := State.lane_of_lanes rfl _

/-- A field outside the taps. -/
def Fld.noTap (g : Fld) : Bool := g.stride == 0x1000 && g.base != 0x300070

theorem State.rd_setWord_taps {g : Fld} (h : g.noTap = true) (l : Nat) (v : Word) :
    (s.setWord (0x300070 + 0x1000 * l) v).rd g l = s.rd g l := by
  simp only [Fld.noTap, Bool.and_eq_true, beq_iff_eq, bne_iff_ne] at h
  exact State.rd_of_word _ _ (s.word_setWord_other _ _ (by simp only [Fld.at, h.1]; omega))

@[simp] theorem State.rd_presetTaps {g : Fld} (h : g.noTap = true) (l : Nat) : (s.presetTaps l).rd g l = s.rd g l :=
  s.rd_setWord_taps h l _

@[simp] theorem State.rd_trainedTaps {g : Fld} (h : g.noTap = true) (l r : Nat) : (s.trainedTaps l r).rd g l = s.rd g l := by
  unfold State.trainedTaps
  split
  · rfl
  · exact s.rd_setWord_taps h l _

@[simp] theorem State.lane_presetTaps (l k : Nat) : (s.presetTaps l).lane k = s.lane k := State.lane_of_lanes rfl _

@[simp] theorem State.lane_trainedTaps (l r k : Nat) : (s.trainedTaps l r).lane k = s.lane k := by
  unfold State.trainedTaps; split <;> rfl

/-- The line output depends on the lane's state and its loop (R109). -/
theorem State.lineOut_of_rd {s t : State} {l : Nat} (hstate : t.lnState l = s.lnState l)
    (hloop : t.rd .VLK_CTL_LOOP l = s.rd .VLK_CTL_LOOP l) : t.lineOut l = s.lineOut l := by
  unfold State.lineOut State.loopOf
  rw [hstate, hloop]

theorem State.showLine_same {l : Nat} {was : LineOut} (h : s.lineOut l = was) : s.showLine l was = s := if_pos h

@[simp] theorem State.rd_showLine (l : Nat) (was : LineOut) (f : Fld) (i : Nat) : (s.showLine l was).rd f i = s.rd f i := by
  unfold State.showLine; split <;> rfl

@[simp] theorem State.lnState_showLine (l : Nat) (was : LineOut) (k : Nat) : (s.showLine l was).lnState k = s.lnState k :=
  s.rd_showLine l was _ _

@[simp] theorem State.lane_showLine (l : Nat) (was : LineOut) (k : Nat) : (s.showLine l was).lane k = s.lane k := by
  unfold State.showLine; split <;> rfl

theorem State.showLine_quiet (l : Nat) (was : LineOut) : Quiet s (s.showLine l was) :=
  LaneFrame.ite (.refl s) (Quiet.of_regs rfl rfl rfl)

/-! ### The ladder begins again, a lane powers down -/

/-- A lane at step 0 of the ladder, before its home bundle follows. -/
theorem State.startLadder_effect (l : Lane) :
    let t := s.startLadder l.val
    t.lnState l.val = lnNegotiate ∧ t.rd .VLK_STAT_RATE l.val = 0 ∧ (t.lane l.val).offered = false ∧
      (t.lane l.val).spare = (s.lane l.val).spare ∧ t.rd .VLK_CTL_MODE l.val = s.rd .VLK_CTL_MODE l.val := by
  simp (disch := decide) [State.startLadder, State.lnState, State.rd_wr_apart, State.rd_wr_same, lnNegotiate, State.sendOffer]

theorem State.laneOff_effect (l : Lane) {st : Nat} (hst : st < 16) :
    (s.laneOff l.val st).lnState l.val = st ∧
      ∀ g : Fld, g.isLane = true → g.base ≠ 0x300004 → (s.laneOff l.val st).rd g l.val = s.rd g l.val := by
  constructor
  · rw [State.lnState, State.laneOff, State.rd_homeState_lane _ _ (by decide), State.rd_wr_apart _ (by decide), State.rd_wr_apart _ (by decide),
      State.rd_wr_same _ _ _ _ (by decide)]
    exact Nat.mod_eq_of_lt hst
  · intro g hg hbase
    have hap : ∀ f : Fld, f.stride = 0x1000 → f.base = 0x300004 → f.apart g = true := fun f hs hb => by
      simp only [Fld.isLane, Bool.and_eq_true, beq_iff_eq] at hg
      simp [Fld.apart, hs, hb, hg.1, hbase]
    rw [State.laneOff, State.rd_homeState_lane _ _ hg, State.rd_wr_apart _ (hap _ rfl rfl), State.rd_wr_apart _ (hap _ rfl rfl),
      State.rd_wr_apart _ (hap _ rfl rfl)]
    exact State.rd_setLocks _ (List.all_eq_true.mpr fun f hf => hap f (lockFlds_stat f hf).1 (lockFlds_stat f hf).2) _ _

/-! ### Test mode is entered (R103, R105, R108) -/

/-- The fields and counts that the test rate, its checks and raw mode may change. -/
def testFlds : List Fld :=
  [.VLK_STAT_RATE, .VLK_STAT_BLK_LOCK, .VLK_PGEN_EN, .VLK_PCHK_EN, .VLK_PCHK_LOCK, .VLK_EVT_MODE_REJ]
def testRegs : List Reg64 := [.VLK_PBITS, .VLK_PERR, .VLK_RAWDATA]

/-- A field that none of them holds. -/
def Fld.keptInTest (g : Fld) : Bool := testFlds.all (·.apart g) && testRegs.all (·.apart g)

section
variable {g : Fld} (h : g.keptInTest = true) (l : Nat)
include h

theorem Fld.keptInTest_flds : ∀ f ∈ testFlds, f.apart g = true := by
  simp only [Fld.keptInTest, Bool.and_eq_true, List.all_eq_true] at h
  exact h.1

theorem Fld.keptInTest_regs : ∀ r ∈ testRegs, r.apart g = true := by
  simp only [Fld.keptInTest, Bool.and_eq_true, List.all_eq_true] at h
  exact h.2

theorem State.rd_wr_kept (f : Fld) (v : Nat) (hf : f ∈ testFlds) : (s.wr f l v).rd g l = s.rd g l :=
  s.rd_wr_apart (Fld.keptInTest_flds h f hf) l v

theorem State.rd_wr64_kept (r : Reg64) (v : Nat) (hr : r ∈ testRegs) : (s.wr64 r l v).rd g l = s.rd g l :=
  s.rd_wr64_apart (Fld.keptInTest_regs h r hr) l v

theorem State.rd_settle : (s.settle l).rd g l = s.rd g l := by
  rw [State.settle, State.put, State.rd_wr_kept _ h _ _ _ (by decide), State.rd_wr64_kept _ h _ _ _ (by decide),
    State.rd_wr64_kept _ h _ _ _ (by decide), State.rd_setLane]

theorem State.rd_enterRaw : (s.enterRaw l).rd g l = s.rd g l := by
  rw [State.enterRaw, State.rd_wr_kept _ h _ _ _ (by decide), State.rd_drawn, State.rd_wr64_kept _ h _ _ _ (by decide)]

end

/-- A pattern check stops generator and checker at most. -/
theorem State.rd_checkPats {g : Fld} (h : [Fld.VLK_PGEN_EN, .VLK_PCHK_EN, .VLK_PCHK_LOCK, .VLK_EVT_MODE_REJ].all (·.apart g) = true)
    (l : Nat) : (s.checkPats l).rd g l = s.rd g l := by
  simp only [List.all_cons, List.all_nil, Bool.and_true, Bool.and_eq_true] at h
  obtain ⟨hgen, hchk, hlock, hrej⟩ := h
  unfold State.checkPats
  extract_lets u
  have hu : u.rd g l = s.rd g l := by
    unfold u
    split
    · rw [State.flag, State.rd_wr_apart _ hrej, State.rd_wr_apart _ hgen]
    · rfl
  split
  · rw [State.flag, State.rd_wr_apart _ hrej, State.rd_wr_apart _ hlock, State.rd_wr_apart _ hchk, hu]
  · exact hu

theorem State.rd_testRate {g : Fld} (h : g.keptInTest = true) (l r : Nat) : (s.testRate l r).rd g l = s.rd g l := by
  have hchk : [Fld.VLK_PGEN_EN, .VLK_PCHK_EN, .VLK_PCHK_LOCK, .VLK_EVT_MODE_REJ].all (·.apart g) = true := by
    exact List.all_eq_true.mpr fun f hf => Fld.keptInTest_flds h f (List.mem_of_mem_drop (i := 2) hf)
  unfold State.testRate
  split
  · exact s.rd_checkPats hchk l
  · rw [State.rd_checkPats _ hchk, State.rd_setLane, State.rd_wr_kept _ h _ _ _ (by decide), s.rd_settle h]

theorem State.rate_testRate (l : Nat) {r : Nat} (hr : r < 8) : (s.testRate l r).rd .VLK_STAT_RATE l = r := by
  unfold State.testRate
  split
  · next h => rw [s.rd_checkPats (by decide), h]
  · rw [State.rd_checkPats _ (by decide), State.rd_setLane, State.rd_wr_same _ _ _ _ (by decide)]
    exact Nat.mod_eq_of_lt hr

/-- What entering test mode leaves of the lane's other fields. -/
theorem State.rd_enterTest {g : Fld} (h : g.keptInTest = true)
    (h' : [Fld.VLK_STAT_STATE, .VLK_STAT_TESTRET, .VLK_CTL_MODE].all (·.apart g) = true) (l : Nat) (ret : Bool) :
    (s.enterTest l ret).rd g l = s.rd g l := by
  simp only [List.all_cons, List.all_nil, Bool.and_true, Bool.and_eq_true] at h'
  unfold State.enterTest
  extract_lets v
  have hv : v.rd g l = s.rd g l := by
    rw [State.rd_testRate _ h, State.rd_wr_apart _ h'.2.2, State.put, State.rd_wr_apart _ h'.2.1, State.rd_wr_apart _ h'.1]
  split
  · rw [v.rd_enterRaw h, hv]
  · exact hv

theorem State.enterTest_effect (l : Nat) (ret : Bool) :
    let t := s.enterTest l ret
    t.lnState l = lnTest ∧ t.rd .VLK_CTL_MODE l = 2 ∧ t.on .VLK_STAT_TESTRET l = ret ∧
      t.rd .VLK_STAT_RATE l = s.rd .VLK_CTL_TRATE l := by
  have hraw : ∀ (v : State) (g : Fld), (Fld.VLK_STAT_BLK_LOCK.apart g && Reg64.VLK_RAWDATA.apart g) = true →
      (if v.on .VLK_CTL_RAW l = true then v.enterRaw l else v).rd g l = v.rd g l := fun v g h => by
    simp only [Bool.and_eq_true] at h
    split
    · rw [State.enterRaw, State.rd_wr_apart _ h.1, State.rd_drawn, State.rd_wr64_apart _ h.2]
    · rfl
  unfold State.enterTest
  refine ⟨?_, ?_, ?_, ?_⟩
  · rw [State.lnState, hraw _ _ (by decide), State.rd_testRate _ (by decide), State.rd_wr_apart _ (by decide), State.put,
      State.rd_wr_apart _ (by decide), State.rd_wr_same _ _ _ _ (by decide)]
    rfl
  · rw [hraw _ _ (by decide), State.rd_testRate _ (by decide), State.rd_wr_same _ _ _ _ (by decide)]
    rfl
  · rw [State.on, hraw _ _ (by decide), State.rd_testRate _ (by decide), State.rd_wr_apart _ (by decide), State.put,
      State.rd_wr_same _ _ _ _ (by decide)]
    cases ret <;> rfl
  · rw [hraw _ _ (by decide), State.rate_testRate _ _ (State.rd_lt ..)]

/-! ### Test mode is left (R104) -/

theorem State.stopTest_stopped (l : Nat) : (s.stopTest l).rd .VLK_PGEN_EN l = 0 ∧ (s.stopTest l).rd .VLK_PCHK_EN l = 0 ∧
    (s.stopTest l).rd .VLK_CTL_LOOP l = 0 := by
  refine ⟨?_, ?_, ?_⟩ <;> simp (disch := decide) [State.stopTest, State.rd_wr_apart, State.rd_wr_same]

/-! ### Which lanes and bundles these leave -/

section
variable {s} {t : State} {l : Nat}

/-- A step that writes only registers of one lane, and its record. -/
abbrev LaneOnly (l : Nat) : State → State → Prop := LaneFrame (lanePage l) (· = l) (fun _ => False)

theorem LaneFrame.laneSet (h : LaneOnly l s t) (x : LaneX) : LaneOnly l s (t.setLane l x) := h.setLane x rfl

theorem LaneFrame.laneWr (h : LaneOnly l s t) {f : Fld} (v : Nat) (hf : f.isLane = true) : LaneOnly l s (t.wr f l v) :=
  h.wr v (.inl (Fld.at_lanePage hf l))

/-- A 64-bit quantity of the lanes' registers. -/
def Reg64.isLane (r : Reg64) : Bool := r.stride == 0x1000 && decide (0x300000 ≤ r.base ∧ r.base < 0x300ffc)

theorem LaneFrame.laneWr64 (h : LaneOnly l s t) {r : Reg64} (v : Nat) (hr : r.isLane = true) : LaneOnly l s (t.wr64 r l v) := by
  simp only [Reg64.isLane, Bool.and_eq_true, beq_iff_eq, decide_eq_true_eq] at hr
  refine LaneFrame.setWord (LaneFrame.setWord h _ (.inl ?_)) _ (.inl ?_) <;> simp only [lanePage, hr.1] <;> omega

end

theorem State.settle_only (l : Nat) : LaneOnly l s (s.settle l) := by
  unfold State.settle
  exact ((((LaneFrame.refl s).laneSet _).laneWr64 _ rfl).laneWr64 _ rfl).laneWr _ rfl

theorem State.checkPats_only (l : Nat) : LaneOnly l s (s.checkPats l) := by
  unfold State.checkPats
  extract_lets u
  have hu : LaneOnly l s u := .ite (((LaneFrame.refl s).laneWr _ rfl).laneWr _ rfl) (.refl s)
  exact .ite (((hu.laneWr _ rfl).laneWr _ rfl).laneWr _ rfl) hu

theorem State.testRate_only (l r : Nat) : LaneOnly l s (s.testRate l r) := by
  unfold State.testRate
  refine .ite (s.checkPats_only l) (LaneFrame.trans ?_ (State.checkPats_only ..))
  exact ((s.settle_only l).laneWr _ rfl).laneSet _

theorem State.drawn_quiet : Quiet s s.drawn := .of_regs rfl rfl rfl

theorem State.enterRaw_only (l : Nat) : LaneOnly l s (s.enterRaw l) := by
  have hdata : LaneOnly l s (s.wr64 .VLK_RAWDATA l s.freeVal.toNat) := LaneFrame.laneWr64 (.refl s) _ rfl
  exact (hdata.quiet (State.drawn_quiet _)).laneWr _ rfl

theorem State.enterTest_only (l : Nat) (ret : Bool) : LaneOnly l s (s.enterTest l ret) := by
  unfold State.enterTest
  extract_lets v
  have hv : LaneOnly l s v := LaneFrame.trans ((((LaneFrame.refl s).laneWr _ rfl).laneWr _ rfl).laneWr _ rfl) (State.testRate_only ..)
  exact .ite (hv.trans (v.enterRaw_only l)) hv

theorem State.stopTest_only (l : Nat) : LaneOnly l s (s.stopTest l) := by
  unfold State.stopTest
  have hraw : LaneOnly l s (s.latchRaw l) := .ite ((LaneFrame.refl s).laneWr64 _ rfl) (.refl s)
  exact (((((((hraw.trans (State.settle_only ..)).laneWr _ rfl).laneWr _ rfl).laneWr _ rfl).laneWr _ rfl).laneWr _ rfl).laneWr
    _ rfl).laneWr _ rfl

section
variable {s} {L B : Nat → Prop} {t : State} {l : Nat}

theorem LaneFrame.cageRejected (h : LaneFrame (lanePage l) L B s t) (k : Nat) : t.cageRejected k = s.cageRejected k := by
  have hside : ¬ sideWord 0x18 := by unfold sideWord; decide
  have hpage : ¬ lanePage l 0x18 := by simp only [lanePage]; omega
  have hword : t.word 0x18 = s.word 0x18 := h.word _ hside hpage
  rw [State.cageRejected, State.cageRejected, State.rd_of_word .MOD_OPT_PRESENT 0 hword, State.rd_of_word .MOD_OPT_POWERED 0 hword]

theorem LaneFrame.homeOn (h : LaneFrame (lanePage l) L B s t) (hl : l < 24) {k : Nat} (hk : k < 24) : t.homeOn k = s.homeOn k := by
  have hpage : ¬ lanePage l (Fld.VLK_BCTL_EN.at (k / 4)) := by simp only [lanePage, Fld.at, Fld.VLK_BCTL_EN]; omega
  rw [State.homeOn, State.homeOn, State.on, State.on, h.rd (Fld.at_not_sideWord (by decide) (by omega)) hpage]

end

end Sys2Proof.Machine

/-! # O7: writes of `VLK_CTL.MODE` (R103, R104) -/

namespace Sys2Proof.Machine

variable (s : State)

theorem exec_vlkCtlMode (l : Lane) (m : BitVec 2) :
    exec (.vlkCtlMode l m) s = .next ((s.laneMode l.val m.toNat).showLine l.val (s.lineOut l.val)) := rfl

/-- A write that changes neither the lane's state nor its loop is not seen on the line. -/
theorem vlkCtlMode_quiet (l : Lane) (m : BitVec 2) (hstate : (s.laneMode l.val m.toNat).lnState l.val = s.lnState l.val)
    (hloop : (s.laneMode l.val m.toNat).rd .VLK_CTL_LOOP l.val = s.rd .VLK_CTL_LOOP l.val) :
    exec (.vlkCtlMode l m) s = .next (s.laneMode l.val m.toNat) := by
  rw [exec_vlkCtlMode, State.showLine_same _ (State.lineOut_of_rd hstate hloop)]

/-- A refused write sets MODE_REJ, and nothing else. -/
theorem vlkCtlMode_rejected {l : Lane} {m : BitVec 2} (h : s.laneMode l.val m.toNat = s.flag .VLK_EVT_MODE_REJ l.val) :
    Leads (.vlkCtlMode l m) s fun t =>
      t.on .VLK_EVT_MODE_REJ l.val = true ∧ OnlyWords [Fld.VLK_EVT_MODE_REJ.at l.val] s t := by
  have hrd : ∀ f : Fld, Fld.VLK_EVT_MODE_REJ.apart f = true → (s.laneMode l.val m.toNat).rd f l.val = s.rd f l.val := fun f hf => by
    rw [h, State.flag, s.rd_wr_apart hf]
  refine ⟨_, vlkCtlMode_quiet s l m (hrd _ (by decide)) (hrd _ (by decide)), ?_⟩
  rw [h]
  exact ⟨s.on_flag_same _ _ (by decide) (by decide), (OnlyWords.refl s _).wr _ _ _ _ (by simp)⟩

/-! ### What `laneMode` does, by the state of the lane -/

section
variable {s} {l : Nat}

theorem State.laneMode_enter (h : s.lnState l = lnOff ∨ s.lnState l = lnRetry ∨ s.lnState l = lnRetired) :
    s.laneMode l 2 = if s.cageRejected l = true then s.flag .VLK_EVT_MODE_REJ l
      else (s.enterTest l (s.lnState l == lnRetired)).homeState l := by
  have htest : s.lnState l ≠ lnTest := by rcases h with h | h | h <;> rw [h] <;> decide
  cases hc : s.cageRejected l <;> simp [State.laneMode, htest, hc, h]

theorem State.laneMode_off_data (h : s.lnState l = lnOff) : s.laneMode l 1 = (s.wr .VLK_CTL_MODE l 1).climbOrOff l := by
  have htest : lnOff ≠ lnTest := by decide
  simp [State.laneMode, h, htest]

theorem State.laneMode_retry_off (h : s.lnState l = lnRetry) : s.laneMode l 0 = (s.wr .VLK_CTL_MODE l 0).laneOff l lnOff := by
  have htest : lnRetry ≠ lnTest := by decide
  simp [State.laneMode, h, htest]

theorem State.laneMode_test_off (h : s.lnState l = lnTest) : s.laneMode l 0 =
    ((s.stopTest l).wr .VLK_CTL_MODE l 0).laneOff l (if s.on .VLK_STAT_TESTRET l = true then lnRetired else lnOff) := by
  simp [State.laneMode, h]

theorem State.laneMode_test_data (h : s.lnState l = lnTest) : s.laneMode l 1 =
    if s.on .VLK_STAT_TESTRET l = true then ((s.stopTest l).wr .VLK_CTL_MODE l 1).laneOff l lnRetired
    else ((((s.stopTest l).wr .VLK_CTL_MODE l 1).setLane l { (s.stopTest l).lane l with spare := true }).wr
      .VLK_STAT_TESTRET l 0).climbOrOff l := by
  simp [State.laneMode, h]

theorem State.laneMode_test_again (h : s.lnState l = lnTest) : s.laneMode l 2 = s := by
  simp [State.laneMode, h]

/-- On the ladder, in service and in STANDBY every write is refused. -/
theorem State.laneMode_busy (hlo : 1 ≤ s.lnState l) (hhi : s.lnState l ≤ lnStandby) (m : Nat) :
    s.laneMode l m = s.flag .VLK_EVT_MODE_REJ l := by
  unfold lnStandby at hhi
  have htest : s.lnState l ≠ lnTest := by unfold lnTest; omega
  have hoff : s.lnState l ≠ lnOff := by unfold lnOff; omega
  have hretry : s.lnState l ≠ lnRetry := by unfold lnRetry; omega
  have hretired : s.lnState l ≠ lnRetired := by unfold lnRetired; omega
  simp [State.laneMode, htest, hoff, hretry, hretired]

/-- A retired lane takes no mode but the test mode. -/
theorem State.laneMode_retired (h : s.lnState l = lnRetired) {m : Nat} (hm : m ≠ 2) : s.laneMode l m = s.flag .VLK_EVT_MODE_REJ l := by
  have htest : lnRetired ≠ lnTest := by decide
  have hoff : lnRetired ≠ lnOff := by decide
  have hretry : lnRetired ≠ lnRetry := by decide
  simp [State.laneMode, h, htest, hoff, hretry, hm]

theorem State.climbOrOff_climbs (hcage : s.cageRejected l = false) (hhome : s.homeOn l = true) : s.climbOrOff l = s.startLadder l := by
  simp [State.climbOrOff, hcage, hhome]

theorem State.climbOrOff_stays (h : s.cageRejected l = true ∨ s.homeOn l = false) (hoff : s.lnState l = lnOff) :
    s.climbOrOff l = s := by
  rcases h with h | h <;> simp [State.climbOrOff, h, hoff]

end

/-! ### The clauses -/

/-- A write of the mode field alone. -/
theorem State.modeWr_only (l m : Nat) : LaneOnly l s (s.wr .VLK_CTL_MODE l m) := (LaneFrame.refl s).laneWr m rfl

theorem vlkCtlMode_entersTest {l : Lane} (h : s.lnState l.val = lnOff ∨ s.lnState l.val = lnRetry ∨ s.lnState l.val = lnRetired)
    (hcage : s.cageRejected l.val = false) : Leads (.vlkCtlMode l 2) s fun t =>
      t.lnState l.val = lnTest ∧ t.rd .VLK_CTL_MODE l.val = 2 ∧
      t.on .VLK_STAT_TESTRET l.val = (s.lnState l.val == lnRetired) ∧
      t.rd .VLK_STAT_RATE l.val = s.rd .VLK_CTL_TRATE l.val ∧
      ∀ o, 0x300000 ≤ o → o < 0x318000 → (o - 0x300000) / 0x1000 ≠ l.val → t.word o = s.word o := by
  have hmode : s.laneMode l.val 2 = (s.enterTest l.val (s.lnState l.val == lnRetired)).homeState l.val := by
    rw [State.laneMode_enter h, hcage, if_neg (by decide)]
  obtain ⟨hstate, hctl, hret, hrate⟩ := s.enterTest_effect l.val (s.lnState l.val == lnRetired)
  refine ⟨_, exec_vlkCtlMode s l 2, ?_⟩
  rw [show (2 : BitVec 2).toNat = 2 from rfl, hmode]
  generalize hu : s.enterTest l.val (s.lnState l.val == lnRetired) = u at hstate hctl hret hrate ⊢
  refine ⟨?_, ?_, ?_, ?_, fun o hlo hhi ho => ?_⟩
  · simpa (disch := decide) [State.lnState] using hstate
  · simpa (disch := decide) using hctl
  · simpa (disch := decide) [State.on] using hret
  · simpa (disch := decide) using hrate
  · have hside := not_sideWord hlo (by omega : o < 0x400000)
    have hbstat : o ≠ Fld.VLK_BSTAT_STATE.at (l.val / 4) := by simp only [Fld.at, Fld.VLK_BSTAT_STATE]; omega
    have hpage : ¬ lanePage l.val o := by simp only [lanePage]; omega
    rw [(State.showLine_quiet _ _ _).word o hside id, (u.homeState_frame l.val).word o hside hbstat, ← hu,
      (s.enterTest_only l.val _).word o hside hpage]

theorem vlkCtlMode_startsLadder {l : Lane} (h : s.lnState l.val = lnOff) (hcage : s.cageRejected l.val = false)
    (hhome : s.homeOn l.val = true) : Leads (.vlkCtlMode l 1) s fun t =>
      t.lnState l.val = lnNegotiate ∧ t.rd .VLK_CTL_MODE l.val = 1 ∧ t.rd .VLK_STAT_RATE l.val = 0 := by
  have honly := s.modeWr_only l.val 1
  have hclimb := State.climbOrOff_climbs ((honly.cageRejected _).trans hcage) ((honly.homeOn l.isLt l.isLt).trans hhome)
  obtain ⟨hstate, hrate, -, -, hmode⟩ := (s.wr .VLK_CTL_MODE l.val 1).startLadder_effect l
  refine ⟨_, exec_vlkCtlMode s l 1, ?_⟩
  rw [show (1 : BitVec 2).toNat = 1 from rfl, State.laneMode_off_data h, hclimb]
  simp only [State.lnState, State.rd_showLine] at hstate ⊢
  exact ⟨hstate, by rw [hmode, State.rd_wr_same _ _ _ _ (by decide)]; rfl, hrate⟩

theorem vlkCtlMode_staysOff {l : Lane} (h : s.lnState l.val = lnOff) (hno : s.cageRejected l.val = true ∨ s.homeOn l.val = false) :
    Leads (.vlkCtlMode l 1) s fun t =>
      t.lnState l.val = lnOff ∧ t.rd .VLK_CTL_MODE l.val = 1 ∧ OnlyWords [Fld.VLK_CTL_MODE.at l.val] s t := by
  have honly := s.modeWr_only l.val 1
  have hkept : ∀ f : Fld, Fld.VLK_CTL_MODE.apart f = true → (s.wr .VLK_CTL_MODE l.val 1).rd f l.val = s.rd f l.val :=
    fun f hf => s.rd_wr_apart hf _ _
  have hstate : (s.wr .VLK_CTL_MODE l.val 1).lnState l.val = s.lnState l.val := hkept _ (by decide)
  have hmode : s.laneMode l.val (1 : BitVec 2).toNat = s.wr .VLK_CTL_MODE l.val 1 := by
    rw [show (1 : BitVec 2).toNat = 1 from rfl, State.laneMode_off_data h]
    exact State.climbOrOff_stays (by rwa [honly.cageRejected, honly.homeOn l.isLt l.isLt]) (hstate.trans h)
  refine ⟨_, vlkCtlMode_quiet s l 1 (by rw [hmode, hstate]) (by rw [hmode, hkept _ (by decide)]), ?_⟩
  rw [hmode]
  exact ⟨hstate.trans h, s.rd_wr_same _ _ _ (by decide), (OnlyWords.refl s _).wr _ _ _ _ (by simp)⟩

theorem vlkCtlMode_retryOff {l : Lane} (h : s.lnState l.val = lnRetry) :
    Leads (.vlkCtlMode l 0) s fun t => t.lnState l.val = lnOff ∧ t.rd .VLK_CTL_MODE l.val = 0 := by
  obtain ⟨hstate, hkept⟩ := (s.wr .VLK_CTL_MODE l.val 0).laneOff_effect l (st := lnOff) (by decide)
  refine ⟨_, exec_vlkCtlMode s l 0, ?_⟩
  rw [show (0 : BitVec 2).toNat = 0 from rfl, State.laneMode_retry_off h]
  simp only [State.lnState, State.rd_showLine] at hstate ⊢
  exact ⟨hstate, by rw [hkept _ rfl (by decide), State.rd_wr_same _ _ _ _ (by decide)]; rfl⟩

theorem vlkCtlMode_testOff {l : Lane} (h : s.lnState l.val = lnTest) : Leads (.vlkCtlMode l 0) s fun t =>
    t.lnState l.val = (if s.on .VLK_STAT_TESTRET l.val then lnRetired else lnOff) ∧
      t.on .VLK_PGEN_EN l.val = false ∧ t.on .VLK_PCHK_EN l.val = false ∧ t.rd .VLK_CTL_LOOP l.val = 0 := by
  have hst : (if s.on .VLK_STAT_TESTRET l.val = true then lnRetired else lnOff) < 16 := by split <;> decide
  obtain ⟨hstate, hkept⟩ := ((s.stopTest l.val).wr .VLK_CTL_MODE l.val 0).laneOff_effect l hst
  obtain ⟨hgen, hchk, hloop⟩ := s.stopTest_stopped l.val
  refine ⟨_, exec_vlkCtlMode s l 0, ?_⟩
  rw [show (0 : BitVec 2).toNat = 0 from rfl, State.laneMode_test_off h]
  refine ⟨by rw [State.lnState_showLine, hstate], ?_, ?_, ?_⟩
  · rw [State.on, State.rd_showLine, hkept _ rfl (by decide), State.rd_wr_apart _ (by decide), hgen]; rfl
  · rw [State.on, State.rd_showLine, hkept _ rfl (by decide), State.rd_wr_apart _ (by decide), hchk]; rfl
  · rw [State.rd_showLine, hkept _ rfl (by decide), State.rd_wr_apart _ (by decide), hloop]

theorem vlkCtlMode_testRetired {l : Lane} (h : s.lnState l.val = lnTest) (hret : s.on .VLK_STAT_TESTRET l.val = true) :
    Leads (.vlkCtlMode l 1) s fun t => t.lnState l.val = lnRetired := by
  refine ⟨_, exec_vlkCtlMode s l 1, ?_⟩
  rw [show (1 : BitVec 2).toNat = 1 from rfl, State.laneMode_test_data h, if_pos hret]
  exact (State.lnState_showLine ..).trans (State.laneOff_effect _ l (by decide)).1

theorem vlkCtlMode_testSpare {l : Lane} (h : s.lnState l.val = lnTest) (hret : s.on .VLK_STAT_TESTRET l.val = false)
    (hcage : s.cageRejected l.val = false) (hhome : s.homeOn l.val = true) :
    Leads (.vlkCtlMode l 1) s fun t => t.lnState l.val = lnNegotiate ∧ (t.lane l.val).spare = true := by
  have honly : LaneOnly l.val s ((((s.stopTest l.val).wr .VLK_CTL_MODE l.val 1).setLane l.val
      { (s.stopTest l.val).lane l.val with spare := true }).wr .VLK_STAT_TESTRET l.val 0) :=
    (((s.stopTest_only l.val).laneWr _ rfl).laneSet _).laneWr _ rfl
  have hclimb := State.climbOrOff_climbs ((honly.cageRejected _).trans hcage) ((honly.homeOn l.isLt l.isLt).trans hhome)
  refine ⟨_, exec_vlkCtlMode s l 1, ?_⟩
  rw [show (1 : BitVec 2).toNat = 1 from rfl, State.laneMode_test_data h, hret, if_neg (by decide), hclimb]
  obtain ⟨hstate, -, -, hspare, -⟩ := State.startLadder_effect _ l
  simp only [State.lnState, State.rd_showLine, State.lane_showLine] at hstate ⊢
  exact ⟨hstate, by rw [hspare]; simp⟩

/-- Settles O7: `laneMode` by the state of the lane. -/
theorem laneModeWrites : Obligations.LaneModeWrites := by
  intro s l
  refine ⟨fun h hcage => vlkCtlMode_rejected s ?_, fun h hcage => vlkCtlMode_entersTest s h hcage,
    fun h hcage hhome => vlkCtlMode_startsLadder s h hcage hhome, fun h hno => vlkCtlMode_staysOff s h hno,
    fun h => vlkCtlMode_retryOff s h, fun h => ⟨vlkCtlMode_testOff s h, fun hret => vlkCtlMode_testRetired s h hret,
      fun hret hcage hhome => vlkCtlMode_testSpare s h hret hcage hhome⟩,
    fun hlo hhi m => vlkCtlMode_rejected s (State.laneMode_busy hlo hhi _), fun h m hm => vlkCtlMode_rejected s ?_, fun h => ?_⟩
  · exact (State.laneMode_enter h).trans (if_pos hcage)
  · exact State.laneMode_retired h fun he => hm (BitVec.eq_of_toNat_eq he)
  · have hsame : s.laneMode l.val (2 : BitVec 2).toNat = s := State.laneMode_test_again h
    exact ⟨s, by rw [vlkCtlMode_quiet s l 2 (by rw [hsame]) (by rw [hsame]), hsame], rfl⟩

end Sys2Proof.Machine

/-! # O2 and O11: reset, and the reset of a bundle (R102, R118, R129) -/

namespace Sys2Proof.Machine

variable (s : State)

/-- Settles O2: nothing has been written at reset, so every register named reads its table value, entry by entry of the index. -/
theorem resetState : Obligations.ResetState := by
  have hlcs : State.reset.lcs ≤ 3 := by
    show (if Config.orderedMa then 2 else 1) ≤ 3
    split <;> decide
  refine ⟨rfl, reset_memWf, hlcs, rfl, ?_, ?_, ?_, ?_, ?_, fun l => ⟨?_, ?_, ?_⟩, fun b => ⟨?_, ?_⟩, fun n => ?_, fun e => ?_⟩
  · decide +kernel
  · decide +kernel
  · decide +kernel
  · decide +kernel
  · decide +kernel
  · revert l; decide +kernel
  · revert l; decide +kernel
  · revert l; decide +kernel
  · revert b; decide +kernel
  · revert b; decide +kernel
  · revert n; decide +kernel
  · revert e; decide +kernel

/-! ### The link layer starts (R118) -/

/-- The receive and send side before INIT leaves: nothing waits, no unit is kept. -/
def Link.cleared (k : Link) : Link :=
  { k with rxWait := false, lostEou := false, failLseq := 0, failCount := 0, lastNack := none, unacked := [], owed := 0 }

/-- The registers of the link layer before INIT leaves. -/
def State.linkZeroed (s : State) (b : Nat) : State :=
  let v := ((s.wr .VSN_LSTAT_RX_NEXT b 0).wr .VSN_LSTAT_TX_NEXT b 0).wr .VSN_LSTAT_INIT_DONE b 0
  (v.wr .VSN_LCUSED_CONSUMED b 0).wr .VSN_LCLIMIT_LIMIT b (v.rd .VSN_LBUF_FREE b)

theorem State.startLink_eq (b : Nat) : s.startLink b = ((s.setLink b (s.link b).cleared).linkZeroed b).sendCtl b 2 := rfl

theorem State.sendCtl_regs (b f : Nat) : (s.sendCtl b f).regs = s.regs := rfl

theorem State.sendCtl_unacked (b f : Nat) : ((s.sendCtl b f).link b).unacked = (s.link b).unacked := by
  simp only [State.sendCtl, State.sendUnit, State.send, State.link, State.setLink, tget_tset_same]

theorem State.linkZeroed_effect (b : Nat) :
    (s.linkZeroed b).rd .VSN_LSTAT_RX_NEXT b = 0 ∧ (s.linkZeroed b).rd .VSN_LSTAT_TX_NEXT b = 0 ∧
      (s.linkZeroed b).rd .VSN_LSTAT_INIT_DONE b = 0 ∧ (s.linkZeroed b).rd .VSN_LCUSED_CONSUMED b = 0 ∧
      (s.linkZeroed b).rd .VSN_LCLIMIT_LIMIT b = (s.linkZeroed b).rd .VSN_LBUF_FREE b := by
  unfold State.linkZeroed
  refine ⟨?_, ?_, ?_, ?_, ?_⟩
  · simp (disch := decide) [State.rd_wr_apart, State.rd_wr_same]
  · simp (disch := decide) [State.rd_wr_apart, State.rd_wr_same]
  · simp (disch := decide) [State.rd_wr_apart, State.rd_wr_same]
  · simp (disch := decide) [State.rd_wr_apart, State.rd_wr_same]
  · simp (disch := decide) only [State.rd_wr_apart, State.rd_wr_same]
    exact Nat.mod_eq_of_lt ((s.rd_lt .VSN_LBUF_FREE b).trans (by decide))

/-- What a start of the link layer leaves: no unit kept, sequences at 0, the INIT exchange still to be made, and the credits free as
CLIMIT. -/
theorem State.startLink_effect (b : Nat) : ((s.startLink b).link b).unacked = [] ∧ (s.startLink b).rd .VSN_LSTAT_RX_NEXT b = 0 ∧
    (s.startLink b).rd .VSN_LSTAT_TX_NEXT b = 0 ∧ (s.startLink b).on .VSN_LSTAT_INIT_DONE b = false ∧
    (s.startLink b).rd .VSN_LCUSED_CONSUMED b = 0 ∧
    (s.startLink b).rd .VSN_LCLIMIT_LIMIT b = (s.startLink b).rd .VSN_LBUF_FREE b := by
  obtain ⟨hrx, htx, hinit, hused, hlimit⟩ := (s.setLink b (s.link b).cleared).linkZeroed_effect b
  rw [s.startLink_eq]
  simp only [State.on, State.rd_of_regs (State.sendCtl_regs _ b 2), State.sendCtl_unacked]
  refine ⟨?_, hrx, htx, by rw [hinit]; rfl, hused, hlimit⟩
  simp only [State.linkZeroed, State.link_wr, State.link_setLink_same]
  rfl

/-- The registers of a bundle's link layer that its start writes. -/
def linkWord (b o : Nat) : Prop := o = 0x401000 + 0x100 * b ∨ o = 0x401004 + 0x100 * b ∨ o = 0x401008 + 0x100 * b

theorem State.word_linkZeroed (b : Nat) {o : Nat} (h : ¬ linkWord b o) : (s.linkZeroed b).word o = s.word o := by
  simp only [linkWord, not_or] at h
  obtain ⟨hstat, hlimit, hused⟩ := h
  rw [State.linkZeroed, State.word_wr_other _ _ _ _ hlimit, State.word_wr_other _ _ _ _ hused, State.word_wr_other _ _ _ _ hstat,
    State.word_wr_other _ _ _ _ hstat, State.word_wr_other _ _ _ _ hstat]

theorem State.word_startLink (b : Nat) {o : Nat} (h : ¬ linkWord b o) : (s.startLink b).word o = s.word o := by
  rw [s.startLink_eq, State.word_of_regs (State.sendCtl_regs _ b 2), State.word_linkZeroed _ _ h, State.word_of_regs (s.setLink_regs _ _)]

/-! ### The sessions a bundle carries are detached (R129) -/

/-- One session of the loop of `detach`. -/
def State.detachOne (s : State) (b n : Nat) : State :=
  if ((s.rd .VSN_SSTAT_STATE n == 1 || s.rd .VSN_SSTAT_STATE n == 2 || s.rd .VSN_SSTAT_STATE n == 3) &&
      s.rd .VSN_SSTAT_BUNDLE n == b) = true then (s.wr .VSN_SSTAT_STATE n 4).sessionEvent n 5 0 else s

theorem State.detach_eq (b : Nat) : s.detach b = forN 256 (fun s n => s.detachOne b n) s := rfl

/-- The word of a session's state is no word of an event. -/
theorem eventWord_sstat (n : SessionId) : eventWord (Fld.VSN_SSTAT_STATE.at n.val) = false := by
  simp only [eventWord, refuseWord, Fld.at, Fld.VSN_SSTAT_STATE, Bool.or_eq_false_iff, beq_eq_false_iff_ne, Bool.and_eq_false_iff]
  omega

/-- It leaves every other word that no event shows. -/
theorem State.word_detachOne (b n : Nat) {o : Nat} (hev : eventWord o = false) (ho : o ≠ Fld.VSN_SSTAT_STATE.at n) :
    (s.detachOne b n).word o = s.word o := by
  unfold State.detachOne
  split
  · rw [State.sessionEvent, State.word_event _ _ _ _ _ _ hev, s.word_wr_other _ _ _ ho]
  · rfl

/-- An open session of the bundle becomes DETACHED. -/
theorem State.detachOne_open {b : Nat} {n : SessionId} (hst : s.rd .VSN_SSTAT_STATE n.val = ssOpen)
    (hb : s.rd .VSN_SSTAT_BUNDLE n.val = b) : (s.detachOne b n.val).rd .VSN_SSTAT_STATE n.val = ssDetached := by
  rw [State.detachOne, if_pos (by simp [hst, hb, ssOpen]), State.sessionEvent,
    State.rd_of_word _ _ (State.word_event _ _ _ _ _ _ (eventWord_sstat n)), State.rd_wr_same _ _ _ _ (by decide)]
  rfl

theorem State.detach_open {b : Nat} {n : SessionId} (hst : s.rd .VSN_SSTAT_STATE n.val = ssOpen)
    (hb : s.rd .VSN_SSTAT_BUNDLE n.val = b) : (s.detach b).rd .VSN_SSTAT_STATE n.val = ssDetached := by
  have hother : ∀ (t : State) (i : Nat), i < 256 → i ≠ n.val →
      (t.detachOne b i).word (Fld.VSN_SSTAT_STATE.at n.val) = t.word (Fld.VSN_SSTAT_STATE.at n.val) := fun t i _ hi =>
    t.word_detachOne b i (eventWord_sstat n) (by simp only [Fld.at, Fld.VSN_SSTAT_STATE]; omega)
  obtain ⟨t, hbefore, hafter⟩ := forN_around s (R := fun s t => t.word (Fld.VSN_SSTAT_STATE.at n.val) = s.word (Fld.VSN_SSTAT_STATE.at n.val))
    (fun _ => rfl) (fun h k => k.trans h) hother n.isLt
  rw [s.detach_eq, State.rd_of_word _ _ hafter]
  exact t.detachOne_open ((State.rd_of_word _ _ hbefore).trans hst) ((State.rd_of_word .VSN_SSTAT_BUNDLE _ hbefore).trans hb)

/-- The word of a session's state is no word of a link layer. -/
theorem not_linkWord_sstat (b : BundleId) (n : SessionId) : ¬ linkWord b.val (Fld.VSN_SSTAT_STATE.at n.val) := by
  simp only [linkWord, Fld.at, Fld.VSN_SSTAT_STATE]
  omega

/-! ### The reset of a bundle (R102) -/

theorem State.bundleReset_eq (b : BundleId) :
    s.bundleReset b.val = if s.bundleUp b.val = true then (s.detach b.val).startLink b.val else s.detach b.val := by
  have hup : (s.detach b.val).bundleUp b.val = s.bundleUp b.val := by
    rw [State.bundleUp, State.bundleUp, (s.detach_quiet b.val).rd (by decide) (by decide) b]
  rw [State.bundleReset, hup]

/-- Lanes and bundles keep their training, rates, roles and epochs. -/
theorem State.bundleReset_quiet (b : BundleId) : Quiet s (s.bundleReset b.val) := by
  rw [s.bundleReset_eq]
  exact .ite (LaneFrame.trans (s.detach_quiet _) (State.startLink_quiet ..)) (s.detach_quiet _)

theorem State.bundleReset_keeps (b : Nat) : (s.bundleReset b).lanes = s.lanes ∧ (s.bundleReset b).bundles = s.bundles := by
  have h : Within { regs := true, out := true, dealer := true, faults := true, links := true } s (s.bundleReset b) :=
    (Within.refl _ s).bundleReset rfl rfl rfl rfl rfl
  exact h.lanes.resolve_left (by decide)

theorem State.bundleReset_detaches (b : BundleId) {n : SessionId} (hst : s.rd .VSN_SSTAT_STATE n.val = ssOpen)
    (hb : s.rd .VSN_SSTAT_BUNDLE n.val = b.val) : (s.bundleReset b.val).rd .VSN_SSTAT_STATE n.val = ssDetached := by
  have hopen := s.detach_open hst hb
  rw [s.bundleReset_eq]
  split
  · rw [State.rd_of_word _ _ (State.word_startLink _ _ (not_linkWord_sstat b n)), hopen]
  · exact hopen

/-- Settles O11: the sessions are detached, which touches nothing of the lanes, and the link layer of a bundle in service starts. -/
theorem bundleResetKeepsLanes : Obligations.BundleResetKeepsLanes := by
  intro s b
  obtain ⟨hlanes, hbundles⟩ := s.bundleReset_keeps b.val
  refine ⟨_, rfl, fun hup => ?_, hlanes, hbundles, fun o hlo hhi => (s.bundleReset_quiet b).word o (not_sideWord hlo hhi) id,
    fun n hst hb => s.bundleReset_detaches b hst hb⟩
  rw [s.bundleReset_eq, if_pos hup]
  exact State.startLink_effect _ _

end Sys2Proof.Machine

/-! # O8: the speed ladder (R84 to R88) -/

namespace Sys2Proof.Machine

variable (s : State)

/-! ### What leaves the module is kept behind what leaves later -/

theorem State.fault_sent (a b c d : Nat) : (s.fault a b c d).sent = s.sent := State.raise_sent _ _

theorem State.detach_sent (b : Nat) : s.sent <:+ (s.detach b).sent := by
  rw [s.detach_eq]
  refine State.forN_induct s (fun t => s.sent <:+ t.sent) _ _ List.suffix_rfl fun t n ht => ht.trans ?_
  unfold State.detachOne
  split
  · exact (t.wr_sent _ _ _ ▸ State.event_sent _ _ _ _ _ _)
  · exact List.suffix_rfl

theorem State.bundleState_sent (b : Nat) : s.sent <:+ (s.bundleState b).sent := by
  rw [s.bundleState_eq]
  split
  · have hsent : ((((s.bundleShown b).setBundle b (s.bundle b).givenUp).dealUnder b 0).fault (srcBundle b) 3 1 b).sent = s.sent :=
      State.fault_sent _ _ _ _ _
    rw [← hsent]
    exact State.detach_sent _ _
  · exact List.suffix_rfl

theorem State.homeState_sent (l : Nat) : s.sent <:+ (s.homeState l).sent := by
  unfold State.homeState
  split
  · exact s.bundleState_sent _
  · exact List.suffix_rfl

/-! ### OFFER (R84) -/

/-- The OFFER of a negotiating lane. -/
def State.offerMsg (s : State) (i : Nat) : Msg :=
  .lane i (laneMsg s.moduleId i 1 s.laneCap 0 0 (if s.isSpare i then 0xFF else i / 4) (if s.isSpare i then 0xFF else i % 4)
    0 0 [0xFF, 0xFF, 0xFF, 0xFF] 0)

theorem State.sendOffer_negotiating {l : Nat} (h : s.lnState l = lnNegotiate) : s.sendOffer l = s.send (s.offerMsg l) := by
  have hrole : s.role l = (if s.isSpare l then 0xFF else l / 4, if s.isSpare l then 0xFF else l % 4) := by
    rw [State.role, h, if_neg (by decide)]
    split <;> rfl
  rw [State.sendOffer, hrole, State.offerMsg]

/-- One OFFER after the other, on the lanes of a list that negotiate. -/
theorem State.offers_sent (ls : List Nat) (x : List Msg) :
    ls.foldl (fun s l => if s.lnState l = lnNegotiate then s.sendOffer l else s) { s with sent := x } =
      { s with sent := ((ls.filter (fun i => s.lnState i = lnNegotiate)).map s.offerMsg).reverse ++ x } := by
  induction ls generalizing x with
  | nil => rfl
  | cons l r ih =>
    have hstate : ({ s with sent := x } : State).lnState l = s.lnState l := State.rd_of_regs rfl _ _
    by_cases h : s.lnState l = lnNegotiate
    · rw [List.foldl_cons, if_pos (hstate.trans h), State.sendOffer_negotiating _ (hstate.trans h), List.filter_cons_of_pos (by simpa using h),
        List.map_cons, List.reverse_cons, List.append_assoc]
      exact ih _
    · rw [List.foldl_cons, if_neg (by rwa [hstate]), List.filter_cons_of_neg (by simpa using h)]
      exact ih x

theorem exec_offerRepeat : exec .offerRepeat s = .next { s with sent :=
    (((List.range 24).filter (fun i => s.lnState i = lnNegotiate)).map s.offerMsg).reverse ++ s.sent } :=
  congrArg Host.Outcome.next (s.offers_sent (List.range 24) s.sent)

/-! ### AGREE (R84) -/

/-- The AGREE of a lane. -/
def State.agreeMsg (s : State) (l r b p : Nat) : Msg :=
  .lane l (laneMsg s.moduleId l 2 r 0 0 b p 0 0 [0xFF, 0xFF, 0xFF, 0xFF] 0)

theorem State.agree_only (l r b p : Nat) : LaneOnly l s (s.agree l r b p) := by
  have hsend : LaneOnly l s (s.send (s.agreeMsg l r b p)) := LaneFrame.quiet (.refl s) (.of_regs rfl rfl rfl)
  exact ((hsend.laneSet _).laneWr _ rfl).laneWr _ rfl

theorem State.agree_effect (l r b p : Nat) : (s.agree l r b p).lnState l = lnCheck ∧ ((s.agree l r b p).lane l).agreed = r ∧
    (s.agree l r b p).sent = s.agreeMsg l r b p :: s.sent ∧
    ∀ g : Fld, (Fld.VLK_STAT_STATE.apart g && Fld.VLK_STAT_RATE.apart g) = true → (s.agree l r b p).rd g l = s.rd g l := by
  unfold State.agree
  refine ⟨?_, ?_, rfl, fun g hg => ?_⟩
  · rw [State.lnState, State.rd_wr_apart _ (by decide), State.rd_wr_same _ _ _ _ (by decide)]; rfl
  · simp only [State.lane_wr, State.lane_setLane_same]
  · simp only [Bool.and_eq_true] at hg
    rw [State.rd_wr_apart _ hg.2, State.rd_wr_apart _ hg.1, State.rd_setLane, State.rd_send]

theorem State.answerSpare_only (l : Nat) : LaneOnly l s (s.answerSpare l) := by
  unfold State.answerSpare
  exact .ite (s.agree_only _ _ _ _) (.refl s)

theorem LaneFrame.moduleId {W L B : Nat → Prop} {s t : State} (h : LaneFrame W L B s t) (hW : ¬ W 8) : t.moduleId = s.moduleId :=
  h.rd (f := .MOD_ID_ID) (by unfold sideWord; decide) hW

/-! ### An OFFER that is answered at once (R84) -/

/-- The OFFER is recorded. -/
def State.offerSeen (s : State) (l : Nat) (m : List Byte) : State :=
  let t := ((s.wr .VLK_PEER_ENDPOINT l (fieldAt m 4 4)).wr .VLK_PEERLANE_LANE l (fieldAt m 8 1)).wr .VLK_PEERLANE_MAXRATE l
    (min (fieldAt m 9 1) 7)
  (t.setLane l { t.lane l with offered := true }).setBlockLock l 1

theorem State.offerSeen_only (l : Nat) (m : List Byte) : LaneOnly l s (s.offerSeen l m) := by
  unfold State.offerSeen
  exact ((((((LaneFrame.refl s).laneWr _ rfl).laneWr _ rfl).laneWr _ rfl).laneSet _).laneWr _ rfl).laneWr _ rfl

theorem State.offerSeen_spare (l : Nat) (m : List Byte) : (s.offerSeen l m).isSpare l = s.isSpare l := by
  simp [State.isSpare, State.offerSeen]

theorem State.offerSeen_endpoint (l : Nat) {m : List Byte} :
    (s.offerSeen l m).rd .VLK_PEER_ENDPOINT l = fieldAt m 4 4 % 2 ^ 32 := by
  simp (disch := decide) only [State.offerSeen, State.rd_setBlockLock, State.rd_setLane, State.rd_wr_apart, State.rd_wr_same]
  rfl

/-- Where the home bundle's rate is fixed for this endpoint, and the partner can go as fast, the lane is agreed at once. -/
theorem State.offer_agreed {l : Lane} {m : List Byte} {r : Nat} (hok : laneMsgOk m 1 = true) (hst : s.lnState l.val = lnNegotiate)
    (hspare : s.isSpare l.val = false) (hfixed : (s.bundle (l.val / 4)).fixed = some r)
    (hep : s.rd .VLK_BPEER_ENDPOINT (l.val / 4) = fieldAt m 4 4) (hr : r ≤ fieldAt m 9 1) :
    s.offer l.val m = (s.offerSeen l.val m).agree l.val r (l.val / 4) (l.val % 4) := by
  have honly := s.offerSeen_only l.val m
  have hbundle : (s.offerSeen l.val m).bundle (l.val / 4) = s.bundle (l.val / 4) := honly.bundle _ id
  have hpeer : (s.offerSeen l.val m).rd .VLK_BPEER_ENDPOINT (l.val / 4) = fieldAt m 4 4 := by
    rw [honly.rd (Fld.at_not_sideWord (by decide) (by omega)) (by simp only [lanePage, Fld.at, Fld.VLK_BPEER_ENDPOINT]; omega), hep]
  have hseen : s.offer l.val m = (
      if (s.offerSeen l.val m).isSpare l.val = true then (s.offerSeen l.val m).answerSpare l.val
      else
        let u := s.offerSeen l.val m
        let x := u.bundle (l.val / 4)
        let u := if (!x.gathering && x.fixed.isNone) = true then
          (u.wr .VLK_BPEER_ENDPOINT (l.val / 4) (fieldAt m 4 4)).setBundle (l.val / 4) { x with gathering := true } else u
        if u.rd .VLK_BPEER_ENDPOINT (l.val / 4) ≠ fieldAt m 4 4 then
          (u.setLane l.val { u.lane l.val with spare := true }).answerSpare l.val
        else match (u.bundle (l.val / 4)).fixed with
          | some r =>
            if r ≤ fieldAt m 9 1 then u.agree l.val r (l.val / 4) (l.val % 4)
            else (u.send (.lane l.val (laneMsg u.moduleId l.val 2 (fieldAt m 9 1) 0 0 0xFF 0xFF 0 0 [0xFF, 0xFF, 0xFF, 0xFF] 0))).failAttempt l.val
          | none => if (List.range 4).all (u.gathered (l.val / 4)) = true then u.fixRate (l.val / 4) else u) := by
    unfold State.offer
    rw [hok, hst, if_neg (by decide)]
    rfl
  rw [hseen, s.offerSeen_spare, hspare]
  simp [hbundle, hfixed, hpeer, hr]

/-! ### The rate of a bundle is fixed (R84) -/

/-- Another lane's step leaves a lane as it is. -/
theorem LaneFrame.otherLane {s t : State} {k l : Nat} (h : LaneOnly k s t) (hne : l ≠ k) (hl : l < 24) :
    t.lane l = s.lane l ∧ t.lnState l = s.lnState l := by
  have hpage : ¬ lanePage k (Fld.VLK_STAT_STATE.at l) := by simp only [lanePage, Fld.at, Fld.VLK_STAT_STATE]; omega
  exact ⟨h.lane l hne, h.rd (Fld.at_not_sideWord (by decide) (by omega)) hpage⟩

theorem State.answerSpares_checked {l : Nat} (hl : l < 24) (h : s.lnState l = lnCheck) : s.answerSpares.lnState l = lnCheck := by
  unfold State.answerSpares
  refine State.forN_induct s (fun t => t.lnState l = lnCheck) _ _ h fun t k ht => ?_
  by_cases hk : l = k
  · subst hk
    rw [ht, if_neg (by simp [lnCheck, lnNegotiate])]
    exact ht
  · split
    · rw [((t.answerSpare_only k).otherLane hk hl).2, ht]
    · exact ht

/-- The rate and who gathers, recorded. -/
def State.rateFixed (s : State) (b r : Nat) : State := s.setBundle b { s.bundle b with gathering := false, fixed := some r }

/-- The least of the partners' rates and the module's cap. -/
def State.gatheredRate (s : State) (b : Nat) : Nat :=
  (((List.range 4).filter (s.gathered b)).map (fun i => s.rd .VLK_PEERLANE_MAXRATE (4 * b + i))).foldl min s.laneCap

/-- Every lane that has offered is answered. -/
def State.agreeAll (s : State) (b r : Nat) : State :=
  forN 4 (fun s i => if s.gathered b i = true then s.agree (4 * b + i) r b i else s) s

theorem State.fixRate_eq (b : Nat) :
    s.fixRate b = ((s.rateFixed b (s.gatheredRate b)).agreeAll b (s.gatheredRate b)).answerSpares := rfl

/-- A lane that has offered is in CHECK after the answers. -/
theorem State.agreeAll_checked {b i : Nat} (r : Nat) (hb : b < 5) (hi : i < 4) (h : s.gathered b i = true) :
    (s.agreeAll b r).lnState (4 * b + i) = lnCheck := by
  have hother : ∀ (t : State) (j : Nat), j < 4 → j ≠ i →
      let u := if t.gathered b j = true then t.agree (4 * b + j) r b j else t
      u.lane (4 * b + i) = t.lane (4 * b + i) ∧ u.lnState (4 * b + i) = t.lnState (4 * b + i) := fun t j hj hne => by
    dsimp only
    split
    · exact (t.agree_only _ _ _ _).otherLane (by omega) (by omega)
    · exact ⟨rfl, rfl⟩
  obtain ⟨t, ⟨hlane, hstate⟩, -, hafter⟩ := forN_around s
    (R := fun t u => u.lane (4 * b + i) = t.lane (4 * b + i) ∧ u.lnState (4 * b + i) = t.lnState (4 * b + i))
    (fun _ => ⟨rfl, rfl⟩) (fun h k => ⟨k.1.trans h.1, k.2.trans h.2⟩) hother hi
  have hgathered : t.gathered b i = true := by
    rw [← h, State.gathered, State.gathered, State.isSpare, State.isSpare, hlane, hstate]
  rw [if_pos hgathered] at hafter
  exact hafter.trans (t.agree_effect _ _ _ _).1

/-- Answers leave the bundles alone. -/
theorem State.answers_bundle (b r c : Nat) : ((s.agreeAll b r).answerSpares).bundle c = s.bundle c := by
  have hany : ∀ {t u : State} {l : Nat}, LaneOnly l t u → LaneFrame (fun _ => True) (fun _ => True) (fun _ => False) t u :=
    fun h => h.mono (fun _ _ => trivial) (fun _ _ => trivial) fun _ => id
  have hagree : LaneFrame (fun _ => True) (fun _ => True) (fun _ => False) s (s.agreeAll b r) :=
    .forN (fun t i _ => .ite (hany (t.agree_only _ _ _ _)) (.refl t)) (.refl s)
  have hspares : LaneFrame (fun _ => True) (fun _ => True) (fun _ => False) (s.agreeAll b r) (s.agreeAll b r).answerSpares :=
    .forN (fun t i _ => .ite (hany (t.answerSpare_only _)) (.refl t)) (.refl _)
  exact (hagree.trans hspares).bundle c id

theorem State.fixRate_bundle (b : Nat) :
    ((s.fixRate b).bundle b).gathering = false ∧ ((s.fixRate b).bundle b).fixed = some (s.gatheredRate b) := by
  rw [s.fixRate_eq, State.answers_bundle, State.rateFixed, State.bundle_setBundle_same]
  exact ⟨rfl, rfl⟩

theorem State.fixRate_checked {b i : Nat} (hb : b < 5) (hi : i < 4) (h : s.gathered b i = true) :
    (s.fixRate b).lnState (4 * b + i) = lnCheck := by
  rw [s.fixRate_eq]
  exact State.answerSpares_checked _ (by omega) (State.agreeAll_checked _ _ hb hi h)

/-! ### A step is passed (R86, R87) -/

section
variable {s} {l : Nat}

theorem State.climb_align (hown : (s.lane l).ownPass = true) (hpeer : (s.lane l).peerPass = true)
    (hle : (s.lane l).agreed ≤ s.rd .VLK_STAT_RATE l) :
    (s.climb l).lnState l = lnAlign ∧ (s.climb l).rd .VLK_STAT_RATE l = s.rd .VLK_STAT_RATE l := by
  simp only [State.climb, hown, hpeer, Bool.and_self, if_true, State.rd_setLane, if_pos hle]
  refine ⟨?_, ?_⟩
  · rw [State.lnState, State.rd_wr_same _ _ _ _ (by decide)]; rfl
  · rw [State.rd_wr_apart _ (by decide), State.rd_setLane]

theorem State.climb_train (hown : (s.lane l).ownPass = true) (hpeer : (s.lane l).peerPass = true)
    (hlt : s.rd .VLK_STAT_RATE l < (s.lane l).agreed) (h7 : s.rd .VLK_STAT_RATE l < 7) :
    (s.climb l).lnState l = lnTrain ∧ (s.climb l).rd .VLK_STAT_RATE l = s.rd .VLK_STAT_RATE l + 1 := by
  simp only [State.climb, hown, hpeer, Bool.and_self, if_true, State.rd_setLane, if_neg hlt.not_ge]
  refine ⟨?_, ?_⟩
  · rw [State.lnState, State.rd_wr_same _ _ _ _ (by decide)]; rfl
  · simp (disch := decide) only [State.rd_wr_apart, State.rd_wr_same]
    exact Nat.mod_eq_of_lt (show _ < 8 by omega)

end

/-! ### An attempt fails (R86, R88) -/

/-- The failure is shown, and the lane falls back to the lowest rate. -/
def State.attemptLost (s : State) (l : Nat) : State :=
  let t := (((s.flag .VLK_EVT_LADDER_FAIL l).fault (srcLane l) 3 0 l).setLocks l 0).wr .VLK_STAT_RATE l 0
  t.setLane l { t.lane l with ownPass := false, peerPass := false, offered := false, agreed := 0 }

theorem State.failAttempt_again {l : Nat} (h : s.rd .VLK_STAT_ATTEMPTS l < 2) : s.failAttempt l =
    (((s.attemptLost l).wr .VLK_STAT_ATTEMPTS l (s.rd .VLK_STAT_ATTEMPTS l + 1)).wr .VLK_STAT_STATE l lnRetry).homeState l :=
  if_pos (show s.rd .VLK_STAT_ATTEMPTS l + 1 < 3 by omega)

theorem State.attemptLost_sent (l : Nat) : (s.attemptLost l).sent = s.sent := by
  rw [State.attemptLost, State.setLane_sent, State.wr_sent, State.setLocks, State.wr_sent, State.setBlockLock, State.wr_sent,
    State.wr_sent, State.fault_sent, State.flag_sent]

/-- A lane that fails its first or second attempt goes into retry. -/
theorem State.failAttempt_retry {l : Lane} (h : s.rd .VLK_STAT_ATTEMPTS l.val < 2) :
    (s.failAttempt l.val).lnState l.val = lnRetry ∧ (s.failAttempt l.val).rd .VLK_STAT_RATE l.val = 0 ∧
      (s.failAttempt l.val).rd .VLK_STAT_ATTEMPTS l.val = s.rd .VLK_STAT_ATTEMPTS l.val + 1 ∧
      (s.failAttempt l.val).on .VLK_EVT_LADDER_FAIL l.val = true ∧ s.sent <:+ (s.failAttempt l.val).sent := by
  have hkept : ∀ g : Fld, (Fld.VLK_STAT_ATTEMPTS.apart g && Fld.VLK_STAT_STATE.apart g && g.isLane) = true →
      (s.failAttempt l.val).rd g l.val = (s.attemptLost l.val).rd g l.val := fun g hg => by
    simp only [Bool.and_eq_true] at hg
    rw [s.failAttempt_again h, State.rd_homeState_lane _ _ hg.2, State.rd_wr_apart _ hg.1.2, State.rd_wr_apart _ hg.1.1]
  refine ⟨?_, ?_, ?_, ?_, ?_⟩
  · rw [s.failAttempt_again h, State.lnState, State.rd_homeState_lane _ _ (by decide), State.rd_wr_same _ _ _ _ (by decide)]; rfl
  · rw [hkept _ (by decide), State.attemptLost, State.rd_setLane, State.rd_wr_same _ _ _ _ (by decide)]; rfl
  · rw [s.failAttempt_again h, State.rd_homeState_lane _ _ (by decide), State.rd_wr_apart _ (by decide),
      State.rd_wr_same _ _ _ _ (by decide)]
    exact Nat.mod_eq_of_lt (show _ < 4 by omega)
  · rw [State.on, hkept _ (by decide)]
    simp (disch := decide) [State.attemptLost, State.rd_wr_apart, State.flag, State.rd_wr_same]
  · have hend := State.homeState_sent (((s.attemptLost l.val).wr .VLK_STAT_ATTEMPTS l.val (s.rd .VLK_STAT_ATTEMPTS l.val + 1)).wr
      .VLK_STAT_STATE l.val lnRetry) l.val
    rwa [← s.failAttempt_again h, State.wr_sent, State.wr_sent, s.attemptLost_sent] at hend

/-- The item of a retiring lane: that of its entry, or the next number (R528). -/
def State.retireItem (s : State) (l : Nat) : Nat := if (s.lane l).item = 0 then s.ledger.nextItem else (s.lane l).item

/-- The retirement is recorded and reported. -/
def State.laneRetired (s : State) (l : Nat) : State :=
  let t := (s.wr .VLK_STAT_ATTEMPTS l 3).wr .VLK_STAT_STATE l lnRetired
  let t := (t.whenS ((s.lane l).item == 0) (·.newItem)).setLane l { t.lane l with item := s.retireItem l }
  ((t.repair (s.retireItem l) 5 1 l 0 0).fault (srcLane l) 4 1 l).endLongOf (fun k => k == .laneRestore l) rejState

theorem State.whenS_newItem (c : Bool) :
    (∀ f i, (s.whenS c (·.newItem)).rd f i = s.rd f i) ∧ ∀ l, (s.whenS c (·.newItem)).lane l = s.lane l := by
  rw [State.whenS]
  split
  · exact ⟨fun _ _ => State.rd_of_regs rfl _ _, fun _ => State.lane_of_lanes rfl _⟩
  · exact ⟨fun _ _ => rfl, fun _ => rfl⟩

theorem State.failAttempt_last {l : Nat} (h : 2 ≤ s.rd .VLK_STAT_ATTEMPTS l) :
    s.failAttempt l = ((s.attemptLost l).laneRetired l).homeState l :=
  if_neg (show ¬ s.rd .VLK_STAT_ATTEMPTS l + 1 < 3 by omega)

theorem State.attemptLost_item (l : Nat) : ((s.attemptLost l).lane l).item = (s.lane l).item ∧ (s.attemptLost l).ledger = s.ledger := by
  refine ⟨by simp [State.attemptLost], ?_⟩
  rw [State.attemptLost, State.setLane_ledger, State.wr_ledger, State.setLocks, State.wr_ledger, State.setBlockLock,
    State.wr_ledger, State.wr_ledger, State.fault_eq, State.flag_ledger]

/-- The third failure in a row retires the lane under the item of its entry. -/
theorem State.failAttempt_retired {l : Lane} (h : 2 ≤ s.rd .VLK_STAT_ATTEMPTS l.val) :
    (s.failAttempt l.val).lnState l.val = lnRetired ∧ (s.failAttempt l.val).rd .VLK_STAT_RATE l.val = 0 ∧
      ((s.failAttempt l.val).lane l.val).item = s.retireItem l.val := by
  obtain ⟨hitem, hledger⟩ := s.attemptLost_item l.val
  rw [s.failAttempt_last h]
  refine ⟨?_, ?_, ?_⟩
  · simp (disch := decide) only [State.lnState, State.laneRetired, State.rd_homeState_lane, State.rd_endLongOf, State.rd_fault,
      State.rd_repair, State.rd_setLane, (State.whenS_newItem _ _).1, State.rd_wr_same]
    rfl
  · simp (disch := decide) only [State.laneRetired, State.rd_homeState_lane, State.rd_endLongOf, State.rd_fault,
      State.rd_repair, State.rd_setLane, (State.whenS_newItem _ _).1, State.rd_wr_apart, State.attemptLost, State.rd_wr_same]
    rfl
  · simp only [State.laneRetired, State.lane_homeState, State.lane_endLongOf, State.lane_fault, State.lane_repair,
      State.lane_setLane_same]
    rw [State.retireItem, State.retireItem, hitem, hledger]

/-! ### STEP_FAIL (R86) -/

/-- The message that reports a step. -/
def State.stepMsg (s : State) (l type reason errors : Nat) : Msg :=
  .lane l (laneMsg s.moduleId l type s.laneCap (s.rd .VLK_STAT_RATE l) reason (s.role l).1 (s.role l).2 0 0
    [0xFF, 0xFF, 0xFF, 0xFF] errors)

theorem State.sendStep_eq (l type reason errors : Nat) : s.sendStep l type reason errors = s.send (s.stepMsg l type reason errors) := rfl

theorem State.stepMsg_send (m : Msg) (l type reason errors : Nat) :
    (s.send m).stepMsg l type reason errors = s.stepMsg l type reason errors := by
  simp only [State.stepMsg, State.moduleId, State.laneCap, State.role, State.lnState, State.isSpare, State.rd_send, State.lane_send]
  rfl

theorem State.sendStep_twice_sent (l type reason errors : Nat) :
    ((s.sendStep l type reason errors).sendStep l type reason errors).sent =
      s.stepMsg l type reason errors :: s.stepMsg l type reason errors :: s.sent := by
  rw [State.sendStep_eq, s.sendStep_eq, s.stepMsg_send]
  rfl

/-! ### The clauses -/

theorem offer_agrees {l : Lane} {msg : List Byte} (hok : laneMsgOk msg 1 = true) (hst : s.lnState l.val = lnNegotiate)
    (hspare : s.isSpare l.val = false) {r : Nat} (hfixed : (s.bundle (l.val / 4)).fixed = some r)
    (hep : s.rd .VLK_BPEER_ENDPOINT (l.val / 4) = fieldAt msg 4 4) (hr : r ≤ fieldAt msg 9 1) :
    Leads (.offer l msg) s fun t => t.lnState l.val = lnCheck ∧ (t.lane l.val).agreed = r ∧
      t.rd .VLK_PEER_ENDPOINT l.val = fieldAt msg 4 4 ∧ s.agreeMsg l.val r (l.val / 4) (l.val % 4) ∈ t.sent := by
  obtain ⟨hstate, hagreed, hsent, hkept⟩ := (s.offerSeen l.val msg).agree_effect l.val r (l.val / 4) (l.val % 4)
  have hid : (s.offerSeen l.val msg).moduleId = s.moduleId := (s.offerSeen_only l.val msg).moduleId (by simp only [lanePage]; omega)
  have hlt : fieldAt msg 4 4 < 2 ^ 32 := hep ▸ s.rd_lt .VLK_BPEER_ENDPOINT _
  refine ⟨_, congrArg Host.Outcome.next (s.offer_agreed hok hst hspare hfixed hep hr), hstate, hagreed, ?_, ?_⟩
  · rw [hkept _ (by decide), s.offerSeen_endpoint, Nat.mod_eq_of_lt hlt]
  · rw [hsent, State.agreeMsg, State.agreeMsg, hid]
    exact List.mem_cons_self ..

theorem ladderCheckDone_passes {l : Lane} {e : Word} {n : Nat} (hstep : s.inStep l.val = true) (hown : (s.lane l.val).ownPass = false)
    (hpeer : (s.lane l.val).peerPass = true) (hpass : checkPasses (s.rd .VLK_STAT_RATE l.val) e.toNat n = true)
    (hle : (s.lane l.val).agreed ≤ s.rd .VLK_STAT_RATE l.val) :
    Leads (.ladderCheckDone l e n) s fun t =>
      t.lnState l.val = lnAlign ∧ t.rd .VLK_STAT_RATE l.val = s.rd .VLK_STAT_RATE l.val := by
  let u := (((s.trainedTaps l.val (s.rd .VLK_STAT_RATE l.val)).setBlockLock l.val 1).sendStep l.val 3 0 e.toNat).wr .VLK_STAT_STATE l.val lnCheck
  have hexec : exec (.ladderCheckDone l e n) s = .next ((u.setLane l.val { u.lane l.val with ownPass := true }).climb l.val) := by
    show execLadderCheckDone l e n s = _
    rw [execLadderCheckDone]
    simp only [hstep, hown, hpass, Bool.not_true, Bool.or_self, Bool.false_eq_true, if_false, if_true]
    rfl
  have hlane : u.lane l.val = s.lane l.val := by simp [u]
  have hrate : u.rd .VLK_STAT_RATE l.val = s.rd .VLK_STAT_RATE l.val := by simp (disch := decide) [u, State.rd_wr_apart]
  obtain ⟨hstate, hkept⟩ := State.climb_align (s := u.setLane l.val { u.lane l.val with ownPass := true }) (l := l.val)
    (by simp) (by simp [hlane, hpeer]) (by simpa [hlane, hrate] using hle)
  exact ⟨_, hexec, hstate, by rw [hkept, State.rd_setLane, hrate]⟩

theorem ladderCheckDone_fails {l : Lane} {e : Word} {n : Nat} (hstep : s.inStep l.val = true) (hown : (s.lane l.val).ownPass = false)
    (hfail : checkPasses (s.rd .VLK_STAT_RATE l.val) e.toNat n = false) (hatt : s.rd .VLK_STAT_ATTEMPTS l.val < 2) :
    Leads (.ladderCheckDone l e n) s fun t => t.lnState l.val = lnRetry ∧ t.rd .VLK_STAT_RATE l.val = 0 ∧
      ∃ r, t.sent = r ++ s.stepMsg l.val 4 2 e.toNat :: s.stepMsg l.val 4 2 e.toNat :: s.sent := by
  have hexec : exec (.ladderCheckDone l e n) s =
      .next (((s.sendStep l.val 4 2 e.toNat).sendStep l.val 4 2 e.toNat).failAttempt l.val) := by
    show execLadderCheckDone l e n s = _
    rw [execLadderCheckDone]
    simp only [hstep, hown, hfail, Bool.not_true, Bool.or_self, Bool.false_eq_true, if_false]
  obtain ⟨hstate, hrate, -, -, r, hsent⟩ := State.failAttempt_retry ((s.sendStep l.val 4 2 e.toNat).sendStep l.val 4 2 e.toNat) (l := l)
    (by simpa only [State.rd_sendStep] using hatt)
  exact ⟨_, hexec, hstate, hrate, r, by rw [← hsent, State.sendStep_twice_sent]⟩

theorem stepPass_climbs {l : Lane} {msg : List Byte} (hstep : s.inStep l.val = true) (hown : (s.lane l.val).ownPass = true)
    (hok : laneMsgOk msg 3 = true) (hrate : fieldAt msg 10 1 = s.rd .VLK_STAT_RATE l.val)
    (hlt : s.rd .VLK_STAT_RATE l.val < (s.lane l.val).agreed) (h7 : s.rd .VLK_STAT_RATE l.val < 7) :
    Leads (.stepPass l msg) s fun t =>
      t.lnState l.val = lnTrain ∧ t.rd .VLK_STAT_RATE l.val = s.rd .VLK_STAT_RATE l.val + 1 := by
  have hexec : exec (.stepPass l msg) s = .next ((s.setLane l.val { s.lane l.val with peerPass := true }).climb l.val) := by
    show execStepPass l msg s = _
    rw [execStepPass]
    simp only [hstep, hok, hrate, beq_self_eq_true, Bool.and_self, if_true]
  exact ⟨_, hexec, State.climb_train (by simp [hown]) (by simp) (by simpa using hlt) (by simpa using h7)⟩

theorem ladderStepDeadline_retries {l : Lane} (hclimb : s.climbing l.val = true) (hatt : s.rd .VLK_STAT_ATTEMPTS l.val < 2) :
    Leads (.ladderStepDeadline l) s fun t => t.lnState l.val = lnRetry ∧ t.rd .VLK_STAT_RATE l.val = 0 ∧
      t.rd .VLK_STAT_ATTEMPTS l.val = s.rd .VLK_STAT_ATTEMPTS l.val + 1 ∧ t.on .VLK_EVT_LADDER_FAIL l.val = true := by
  obtain ⟨hstate, hrate, hattempts, hevt, -⟩ := (s.sendStep l.val 4 1 0).failAttempt_retry (l := l)
    (by simpa only [State.rd_sendStep] using hatt)
  exact ⟨_, congrArg Host.Outcome.next (if_pos hclimb), hstate, hrate, by rw [hattempts, State.rd_sendStep], hevt⟩

theorem stepFail_retires {l : Lane} {msg : List Byte} (hstep : s.inStep l.val = true) (hok : laneMsgOk msg 4 = true)
    (hatt : 2 ≤ s.rd .VLK_STAT_ATTEMPTS l.val) : Leads (.stepFail l msg) s fun t =>
      t.lnState l.val = lnRetired ∧ t.rd .VLK_STAT_RATE l.val = 0 ∧ (t.lane l.val).item = s.retireItem l.val :=
  ⟨_, congrArg Host.Outcome.next (if_pos (by simp [hstep, hok])),
    (s.sendStep l.val 4 (fieldAt msg 11 1) 0).failAttempt_retired (by simpa only [State.rd_sendStep] using hatt)⟩

/-- Settles O8, by one lemma for each command of the ladder. -/
theorem laneLadder : Obligations.LaneLadder := by
  intro s l
  refine ⟨⟨_, exec_offerRepeat s, rfl⟩, fun msg hok hst hspare r hfixed hep hr => offer_agrees s hok hst hspare hfixed hep hr,
    fun b hgather => ⟨_, congrArg Host.Outcome.next (if_pos hgather), (s.fixRate_bundle b.val).1, (s.fixRate_bundle b.val).2,
      fun i hi hg => s.fixRate_checked b.isLt hi hg⟩,
    fun e n hstep hown hpeer hpass hle => ladderCheckDone_passes s hstep hown hpeer hpass hle,
    fun e n hstep hown hfail hatt => ladderCheckDone_fails s hstep hown hfail hatt,
    fun msg hstep hown hok hrate hlt h7 => stepPass_climbs s hstep hown hok hrate hlt h7,
    fun hclimb hatt => ladderStepDeadline_retries s hclimb hatt, fun msg hstep hok hatt => stepFail_retires s hstep hok hatt,
    fun hretry => ?_⟩
  obtain ⟨hstate, hrate, hoffered, -, -⟩ := s.startLadder_effect l
  exact ⟨⟨_, congrArg Host.Outcome.next (if_pos hretry), hstate, hrate, hoffered⟩,
    ⟨_, congrArg Host.Outcome.next (if_pos hretry), hstate, hrate, hoffered⟩⟩

end Sys2Proof.Machine

/-! # The test-mode actions of a lane (R106 to R108, R110): settles O6 -/

namespace Sys2Proof.Machine

variable (s : State)

/-! ### States that differ in some registers and one lane's record -/

section
variable {s} {l : Nat} {ws ws' : List Nat} {t : State}

theorem OnlyWords.wr64 (h : OnlyWords ws s t) {r : Reg64} {i : Nat} (v : Nat) (hr : ∀ o ∈ r.words i, o ∈ ws) :
    OnlyWords ws s (t.wr64 r i v) := by
  refine ⟨congrArg (fun u : State => { u with regs := (t.wr64 r i v).regs }) h.1, fun o ho => ?_⟩
  rw [t.word_wr64_other r i v (fun he => ho (hr o (by simp [Reg64.words, he]))) (fun he => ho (hr o (by simp [Reg64.words, he]))), h.2 o ho]

theorem OnlyLane.refl (s : State) : OnlyLane l ws s s := ⟨rfl, fun _ _ => rfl, fun _ _ => rfl⟩

theorem OnlyLane.trans {u : State} (h : OnlyLane l ws s t) (k : OnlyLane l ws t u) : OnlyLane l ws s u :=
  ⟨k.1.trans (congrArg (fun v : State => { v with regs := u.regs, lanes := u.lanes }) h.1), fun o ho => (k.2.1 o ho).trans (h.2.1 o ho),
    fun n hn => (k.2.2 n hn).trans (h.2.2 n hn)⟩

theorem OnlyLane.mono (h : OnlyLane l ws s t) (hws : ∀ o ∈ ws, o ∈ ws') : OnlyLane l ws' s t :=
  ⟨h.1, fun o ho => h.2.1 o (ho ∘ hws o), h.2.2⟩

/-- A step that changes registers alone. -/
theorem OnlyLane.regs (h : OnlyLane l ws s t) {u : State} (hu : u = { t with regs := u.regs }) (hw : ∀ o, o ∉ ws → u.word o = t.word o) :
    OnlyLane l ws s u := by
  refine ⟨?_, fun o ho => (hw o ho).trans (h.2.1 o ho), fun k hk => ?_⟩
  · rw [hu]
    exact congrArg (fun v : State => { v with regs := u.regs }) h.1
  · rw [hu]
    exact h.2.2 k hk

theorem OnlyLane.wr (h : OnlyLane l ws s t) {f : Fld} {i : Nat} (v : Nat) (hf : f.at i ∈ ws) : OnlyLane l ws s (t.wr f i v) :=
  h.regs rfl fun _ ho => t.word_wr_other _ _ _ (by rintro rfl; exact ho hf)

/-- A write of the value held. -/
theorem OnlyLane.wrHeld (h : OnlyLane l ws s t) {f : Fld} {i v : Nat} (hv : v % 2 ^ f.w = t.rd f i) : OnlyLane l ws s (t.wr f i v) :=
  h.regs rfl fun _ _ => t.word_wr_held hv _

theorem OnlyLane.wr64 (h : OnlyLane l ws s t) {r : Reg64} {i : Nat} (v : Nat) (hr : ∀ o ∈ r.words i, o ∈ ws) :
    OnlyLane l ws s (t.wr64 r i v) :=
  h.regs rfl fun o ho => t.word_wr64_other r i v (fun he => ho (hr o (by simp [Reg64.words, he])))
    (fun he => ho (hr o (by simp [Reg64.words, he])))

theorem OnlyLane.setLane (h : OnlyLane l ws s t) (x : LaneX) : OnlyLane l ws s (t.setLane l x) :=
  ⟨congrArg (fun u : State => { u with lanes := (t.setLane l x).lanes }) h.1, h.2.1,
    fun k hk => (t.lane_setLane_other x hk).trans (h.2.2 k hk)⟩

end

/-! ### The slip and the counts (R108, R110) -/

/-- The model's rotation of a 64-bit word is that of bit vectors. -/
theorem ofNat_rotr64 (v : Nat) {n : Nat} (h0 : 0 < n) (h : n < 64) (hv : v < 2 ^ 64) :
    BitVec.ofNat 64 (rotr64 v n % 2 ^ 64) = (BitVec.ofNat 64 v).rotateRight n := by
  refine BitVec.eq_of_toNat_eq ?_
  have hhigh : v * 2 ^ (64 - n) % 2 ^ 64 = v % 2 ^ n * 2 ^ (64 - n) := by
    have hpow : 2 ^ 64 = 2 ^ n * 2 ^ (64 - n) := by rw [← pow_add]; congr 1; omega
    rw [hpow, Nat.mul_mod_mul_right]
  have hlow : v / 2 ^ n < 2 ^ (64 - n) := by
    rw [Nat.div_lt_iff_lt_mul (by positivity), ← pow_add]
    exact hv.trans_le (Nat.pow_le_pow_right (by norm_num) (by omega))
  rw [BitVec.rotateRight_def, Nat.mod_eq_of_lt h, BitVec.toNat_or, BitVec.toNat_ushiftRight, BitVec.toNat_shiftLeft, BitVec.toNat_ofNat,
    BitVec.toNat_ofNat, Nat.mod_eq_of_lt hv, Nat.shiftRight_eq_div_pow, Nat.shiftLeft_eq, hhigh, Nat.mod_mod, rotr64,
    Nat.or_comm, mul_comm _ (2 ^ (64 - n)), ← Nat.two_pow_add_eq_or_of_lt hlow, add_comm]
  refine Nat.mod_eq_of_lt ?_
  have hlt : v % 2 ^ n < 2 ^ n := Nat.mod_lt _ (by positivity)
  calc 2 ^ (64 - n) * (v % 2 ^ n) + v / 2 ^ n < 2 ^ (64 - n) * (v % 2 ^ n + 1) := by rw [Nat.mul_succ]; omega
    _ ≤ 2 ^ (64 - n) * 2 ^ n := Nat.mul_le_mul_left _ hlt
    _ = 2 ^ 64 := by rw [← pow_add]; congr 1; omega

theorem State.rd64_lt (r : Reg64) (i : Nat) : s.rd64 r i < 2 ^ 64 := by
  rw [State.rd64]
  have h1 := (s.word (r.base + r.stride * i)).isLt
  have h2 := (s.word (r.base + r.stride * i + 4)).isLt
  omega

theorem slipComplete_rotates {l : Lane} (h : s.on .VLK_RAW_SLIP_PEND l.val = true) : Leads (.slipComplete l) s fun t =>
    let n := if s.rd .VLK_STAT_RATE l.val ≤ 1 then 1 else 2
    t.on .VLK_RAW_SLIP_PEND l.val = false ∧ t.rd .VLK_RAW_SLIP_POS l.val = (s.rd .VLK_RAW_SLIP_POS l.val + n) % 64 ∧
      BitVec.ofNat 64 (t.rd64 .VLK_RAWDATA l.val) = (BitVec.ofNat 64 (s.rd64 .VLK_RAWDATA l.val)).rotateRight n ∧
      OnlyWords (Fld.VLK_RAW_SLIP_PEND.at l.val :: Reg64.VLK_RAWDATA.words l.val) s t := by
  refine ⟨_, congrArg Host.Outcome.next (if_pos h), ?_⟩
  extract_lets n
  have hn : 0 < n ∧ n < 64 := by unfold n; split <;> decide
  refine ⟨?_, ?_, ?_, ?_⟩
  · rw [State.on, State.rd_wr64_apart _ (by decide), State.rd_wr_apart _ (by decide), State.rd_wr_same _ _ _ _ (by decide)]
    rfl
  · rw [State.rd_wr64_apart _ (by decide), State.rd_wr_same _ _ _ _ (by decide)]
    exact Nat.mod_mod _ 64
  · rw [State.rd64_wr64_same]
    have hdata : ((s.wr .VLK_RAW_SLIP_PEND l.val 0).wr .VLK_RAW_SLIP_POS l.val ((s.rd .VLK_RAW_SLIP_POS l.val + n) % 64)).rd64
        .VLK_RAWDATA l.val = s.rd64 .VLK_RAWDATA l.val := by
      rw [State.rd64_wr_apart _ (by decide), State.rd64_wr_apart _ (by decide)]
    exact hdata ▸ ofNat_rotr64 _ hn.1 hn.2 (State.rd64_lt _ _ _)
  · have hpend := (OnlyWords.refl s (Fld.VLK_RAW_SLIP_PEND.at l.val :: Reg64.VLK_RAWDATA.words l.val)).wr _ .VLK_RAW_SLIP_PEND l.val 0
      (List.mem_cons_self ..)
    have hpos := hpend.wr _ .VLK_RAW_SLIP_POS l.val ((s.rd .VLK_RAW_SLIP_POS l.val + n) % 64) (List.mem_cons_self ..)
    exact hpos.wr64 _ fun _ => List.mem_cons_of_mem _

theorem cntclr_clears (l : Lane) : Leads (.cntclr l) s fun t =>
    t.rd64 .VLK_FEC_CW l.val = 0 ∧ t.rd64 .VLK_FEC_CORR l.val = 0 ∧ t.rd64 .VLK_FEC_UNC l.val = 0 ∧
      t.rd64 .VLK_FEC_SYM l.val = 0 ∧
      OnlyWords (Reg64.VLK_FEC_CW.words l.val ++ Reg64.VLK_FEC_CORR.words l.val ++ Reg64.VLK_FEC_UNC.words l.val ++
        Reg64.VLK_FEC_SYM.words l.val) s t := by
  refine ⟨_, rfl, ?_, ?_, ?_, ?_, ?_⟩
  · rw [State.rd64_wr64_apart _ (by decide), State.rd64_wr64_apart _ (by decide), State.rd64_wr64_apart _ (by decide),
      State.rd64_wr64_same, Nat.zero_mod]
  · rw [State.rd64_wr64_apart _ (by decide), State.rd64_wr64_apart _ (by decide), State.rd64_wr64_same, Nat.zero_mod]
  · rw [State.rd64_wr64_apart _ (by decide), State.rd64_wr64_same, Nat.zero_mod]
  · rw [State.rd64_wr64_same, Nat.zero_mod]
  · refine ((((OnlyWords.refl s _).wr64 _ ?_).wr64 _ ?_).wr64 _ ?_).wr64 _ ?_ <;> intro o ho <;> simp [ho]

/-! ### Injected errors (R106, R107) -/

/-- Errors that follow bit by bit take the lock at the 32nd, the last one compared. -/
theorem errorRun_bursts (n : Nat) : ∀ (a : Nat) (l : List Nat) (k : Nat), l.length < 32 → (∀ x ∈ l, a ≤ x + l.length) →
    (errorRun n a l k).1 = k + min n (32 - l.length) ∧ (errorRun n a l k).2.2 = decide (32 ≤ n + l.length) := by
  induction n with
  | zero =>
    intro a l k hlen _
    exact ⟨by simp [errorRun], by simp [errorRun, hlen]⟩
  | succ n ih =>
    intro a l k hlen hnear
    have hfilter : l.filter (fun x => decide (a < x + 256)) = l :=
      List.filter_eq_self.mpr fun x hx => by have := hnear x hx; simp only [decide_eq_true_eq]; omega
    rw [errorRun, hfilter]
    by_cases hfull : 32 ≤ (a :: l).length
    · rw [List.length_cons] at hfull
      simp only [List.length_cons, if_pos hfull]
      exact ⟨by omega, by simp only [true_eq_decide_iff]; omega⟩
    · obtain ⟨hcount, hlost⟩ := ih (a + 1) (a :: l) (k + 1) (by omega) fun x hx => by
        rw [List.length_cons]
        rcases List.mem_cons.mp hx with rfl | hx
        · omega
        · have := hnear x hx; omega
      rw [List.length_cons] at hfull hcount hlost
      simp only [List.length_cons, if_neg hfull, hcount, hlost]
      exact ⟨by omega, by rw [Nat.succ_add_eq_add_succ]⟩

/-- The words of a lane's error and bit counts. -/
def countWords (l : Nat) : List Nat := Reg64.VLK_PERR.words l ++ Reg64.VLK_PBITS.words l

theorem mem_countWords_err (l o : Nat) : ∀ p ∈ Reg64.VLK_PERR.words l, p ∈ o :: countWords l :=
  fun _ h => List.mem_cons_of_mem _ (List.mem_append_left _ h)

theorem mem_countWords_bits (l o : Nat) : ∀ p ∈ Reg64.VLK_PBITS.words l, p ∈ o :: countWords l :=
  fun _ h => List.mem_cons_of_mem _ (List.mem_append_right _ h)

/-- Settling brings the counts up to date, and of the registers changes nothing else where the lock still stands. -/
theorem State.settle_effect (l : Nat) : (s.settle l).rd64 .VLK_PBITS l = s.pbitsNow l % 2 ^ 64 ∧
    (s.settle l).rd64 .VLK_PERR l = s.perrNow l % 2 ^ 64 ∧ (s.settle l).on .VLK_PCHK_LOCK l = s.lockedNow l := by
  refine ⟨?_, ?_, ?_⟩
  · rw [State.settle, State.put, State.rd64_wr_apart _ (by decide), State.rd64_wr64_apart _ (by decide), State.rd64_wr64_same]
  · rw [State.settle, State.put, State.rd64_wr_apart _ (by decide), State.rd64_wr64_same]
  · rw [State.settle, State.put, State.on, State.rd_wr_same _ _ _ _ (by decide)]
    cases s.lockedNow l <;> rfl

theorem State.settle_onlyLane {l : Nat} (h : s.lockedNow l = s.on .VLK_PCHK_LOCK l) : OnlyLane l (countWords l) s (s.settle l) := by
  unfold State.settle
  refine OnlyLane.wrHeld ((((OnlyLane.refl s).setLane _).wr64 _ fun o ho => List.mem_append_right _ ho).wr64 _
    fun o ho => List.mem_append_left _ ho) ?_
  rw [State.rd_wr64_apart _ (by decide), State.rd_wr64_apart _ (by decide), State.rd_setLane, h, State.on]
  have hlt : s.rd .VLK_PCHK_LOCK l < 2 := s.rd_lt _ _
  interval_cases s.rd .VLK_PCHK_LOCK l <;> rfl

/-- The lane's own generator feeds its locked checker, and no error is pending: the premises of the clauses on injection. -/
structure State.CleanLoop (s : State) (l : Nat) : Prop where
  own : s.ownPattern l = true
  locked : s.on .VLK_PCHK_LOCK l = true
  clean : (s.lane l).errs = []
  seen : (s.lane l).seen ≤ s.bitNow l
  burst : (s.lane l).burstTo ≤ s.bitNow l
  hits : s.rateHits l (s.lane l).seen (s.bitNow l) = 0

section
variable {s} {l : Nat}

theorem State.CleanLoop.rateLoss (h : s.CleanLoop l) : s.rateLoss l = none := by simp [State.rateLoss, h.clean]

theorem State.CleanLoop.lockedNow (h : s.CleanLoop l) : s.lockedNow l = true := by simp [State.lockedNow, h.locked, h.rateLoss]

theorem State.CleanLoop.seenTo (h : s.CleanLoop l) : s.seenTo l = s.bitNow l := by simp [State.seenTo, h.rateLoss, h.seen]

theorem State.CleanLoop.settle_lane (h : s.CleanLoop l) : ((s.settle l).lane l).seen = s.bitNow l ∧
    ((s.settle l).lane l).errs = [] ∧ ((s.settle l).lane l).burstTo = (s.lane l).burstTo := by
  simp only [State.settle, State.lane_put, State.lane_wr64, State.lane_setLane_same, h.seenTo, h.hits, h.clean]
  simp

theorem State.ownPattern_of_rd {t : State} (h : ∀ g ∈ [Fld.VLK_PGEN_EN, .VLK_STAT_STATE, .VLK_CTL_LOOP], t.rd g l = s.rd g l) :
    t.ownPattern l = s.ownPattern l := by
  simp only [List.forall_mem_cons] at h
  obtain ⟨hgen, hst, hloop, -⟩ := h
  rw [State.ownPattern, State.ownPattern, State.loopOf, State.loopOf, State.lnState, State.lnState, State.on, State.on, hgen, hst, hloop]

theorem State.settle_ownPattern : (s.settle l).ownPattern l = s.ownPattern l := by
  refine State.ownPattern_of_rd fun g hg => ?_
  have hap : ∀ g ∈ [Fld.VLK_PGEN_EN, .VLK_STAT_STATE, .VLK_CTL_LOOP],
      (Fld.VLK_PCHK_LOCK.apart g && Reg64.VLK_PERR.apart g && Reg64.VLK_PBITS.apart g) = true := by decide
  have hg := hap g hg
  simp only [Bool.and_eq_true] at hg
  rw [State.settle, State.put, State.rd_wr_apart _ hg.1.1, State.rd_wr64_apart _ hg.1.2, State.rd_wr64_apart _ hg.2, State.rd_setLane]

theorem State.settle_bitNow : (s.settle l).bitNow l = s.bitNow l := by
  simp only [State.bitNow, State.settle, State.put]
  simp (disch := decide) only [State.rd_wr_apart, State.rd_wr64_apart, State.rd_setLane]
  rfl

/-- The state after `k` injected bits were compared, all of them errors, with the lock as it stood. -/
def State.injected (s : State) (l : Nat) (x : LaneX) (k : Nat) : State :=
  (((s.settle l).setLane l x).bump64 .VLK_PERR l k).bump64 .VLK_PBITS l k

theorem State.CleanLoop.inject_eq (h : s.CleanLoop l) (n : Nat) : ∃ x, s.inject l n =
    if 32 ≤ n then (s.injected l x (min n 32)).wr .VLK_PCHK_LOCK l 0 else s.injected l x (min n 32) := by
  obtain ⟨hseen, herrs, hburst⟩ := h.settle_lane
  have hgen : s.on .VLK_PGEN_EN l = true := (Bool.and_eq_true _ _ ▸ h.own).1
  have hloop : ((s.settle l).ownPattern l && (s.settle l).on .VLK_PCHK_LOCK l) = true := by
    rw [State.settle_ownPattern, (s.settle_effect l).2.2, h.own, h.lockedNow]; rfl
  have hbit : max ((s.settle l).bitNow l) ((s.settle l).lane l).burstTo = s.bitNow l := by
    rw [State.settle_bitNow, hburst]; exact max_eq_left h.burst
  obtain ⟨hcount, hlost⟩ := errorRun_bursts n (s.bitNow l + 1) [] 0 (by decide) (by simp)
  simp only [List.length_nil, zero_add, Nat.sub_zero, add_zero] at hcount hlost
  simp only [State.inject, hgen, hloop, hbit, herrs, hseen, hcount, hlost, Bool.not_true, Bool.false_eq_true, if_false, if_true,
    Nat.sub_self, zero_add, decide_eq_true_eq]
  exact ⟨_, rfl⟩

theorem State.injected_effect (x : LaneX) (k : Nat) :
    (s.injected l x k).rd64 .VLK_PERR l = (s.perrNow l + k) % 2 ^ 64 ∧ (s.injected l x k).rd64 .VLK_PBITS l = (s.pbitsNow l + k) % 2 ^ 64 ∧
      (s.injected l x k).on .VLK_PCHK_LOCK l = s.lockedNow l ∧ (s.injected l x k).rd .VLK_INJ_BLEN l = s.rd .VLK_INJ_BLEN l := by
  obtain ⟨hbits, herr, hlock⟩ := s.settle_effect l
  refine ⟨?_, ?_, ?_, ?_⟩
  · rw [State.injected, State.bump64, State.rd64_wr64_apart _ (by decide), State.bump64, State.rd64_wr64_same, State.rd64_setLane, herr,
      Nat.mod_add_mod]
  · rw [State.injected, State.bump64, State.rd64_wr64_same, State.bump64, State.rd64_wr64_apart _ (by decide), State.rd64_setLane, hbits,
      Nat.mod_add_mod]
  · rw [State.on, State.injected, State.bump64, State.rd_wr64_apart _ (by decide), State.bump64, State.rd_wr64_apart _ (by decide),
      State.rd_setLane]
    exact hlock
  · rw [State.injected, State.bump64, State.rd_wr64_apart _ (by decide), State.bump64, State.rd_wr64_apart _ (by decide),
      State.rd_setLane, s.rd_settle (by decide)]

theorem State.CleanLoop.injected_onlyLane (h : s.CleanLoop l) (x : LaneX) (k : Nat) : OnlyLane l (countWords l) s (s.injected l x k) :=
  (((s.settle_onlyLane (h.lockedNow.trans h.locked.symm)).setLane x).wr64 _ fun _ ho => List.mem_append_left _ ho).wr64 _
    fun _ ho => List.mem_append_right _ ho

/-- What the injection of `n` bits does: the lock goes where there are 32. -/
theorem State.CleanLoop.inject_effect (h : s.CleanLoop l) (n : Nat) :
    (s.inject l n).rd64 .VLK_PERR l = (s.perrNow l + min n 32) % 2 ^ 64 ∧
      (s.inject l n).rd64 .VLK_PBITS l = (s.pbitsNow l + min n 32) % 2 ^ 64 ∧
      (s.inject l n).on .VLK_PCHK_LOCK l = decide (n < 32) ∧ (s.inject l n).rd .VLK_INJ_BLEN l = s.rd .VLK_INJ_BLEN l ∧
      OnlyLane l (Fld.VLK_PCHK_LOCK.at l :: countWords l) s (s.inject l n) ∧
      (n < 32 → OnlyLane l (countWords l) s (s.inject l n)) := by
  obtain ⟨x, hx⟩ := h.inject_eq n
  obtain ⟨herr, hbits, hlock, hblen⟩ := s.injected_effect (l := l) x (min n 32)
  have honly := h.injected_onlyLane x (min n 32)
  by_cases hn : 32 ≤ n
  · rw [hx, if_pos hn]
    refine ⟨?_, ?_, ?_, ?_, (honly.mono fun _ => List.mem_cons_of_mem _).wr _ (List.mem_cons_self ..), fun hlt => absurd hn hlt.not_ge⟩
    · rw [State.rd64_wr_apart _ (by decide), herr]
    · rw [State.rd64_wr_apart _ (by decide), hbits]
    · rw [State.on_wr_zero _ _ _ (by decide)]; simp [hn]
    · rw [State.rd_wr_apart _ (by decide), hblen]
  · rw [hx, if_neg hn]
    refine ⟨herr, hbits, ?_, hblen, honly.mono fun _ => List.mem_cons_of_mem _, fun _ => honly⟩
    rw [hlock, h.lockedNow]; simp [Nat.lt_of_not_le hn]

/-- The register of the burst's length is not read by the checker. -/
theorem State.wr_blen (v : Nat) : (s.wr .VLK_INJ_BLEN l v).perrNow l = s.perrNow l ∧ (s.wr .VLK_INJ_BLEN l v).pbitsNow l = s.pbitsNow l ∧
    (s.CleanLoop l → (s.wr .VLK_INJ_BLEN l v).CleanLoop l) := by
  have hkept : ∀ g : Fld, Fld.VLK_INJ_BLEN.apart g = true → (s.wr .VLK_INJ_BLEN l v).rd g l = s.rd g l := fun g hg => s.rd_wr_apart hg l v
  have hbit : (s.wr .VLK_INJ_BLEN l v).bitNow l = s.bitNow l := by rw [State.bitNow, hkept _ (by decide)]; rfl
  have hon : ∀ g : Fld, Fld.VLK_INJ_BLEN.apart g = true → (s.wr .VLK_INJ_BLEN l v).on g l = s.on g l := fun g hg => by
    rw [State.on, State.on, hkept g hg]
  have hown : (s.wr .VLK_INJ_BLEN l v).ownPattern l = s.ownPattern l := State.ownPattern_of_rd fun g hg =>
    hkept g (List.all_eq_true.mp (show [Fld.VLK_PGEN_EN, .VLK_STAT_STATE, .VLK_CTL_LOOP].all (Fld.VLK_INJ_BLEN.apart ·) = true by decide) g hg)
  have hstep : (s.wr .VLK_INJ_BLEN l v).rateStep l = s.rateStep l := by rw [State.rateStep, hkept _ (by decide)]; rfl
  have hhits : ∀ a b, (s.wr .VLK_INJ_BLEN l v).rateHits l a b = s.rateHits l a b := fun a b => by
    rw [State.rateHits, State.rateHits, hown, hstep, State.lane_wr, hon _ (by decide)]
  have hseen : (s.wr .VLK_INJ_BLEN l v).seenTo l = s.seenTo l := by
    rw [State.seenTo, State.seenTo, State.rateLoss, State.rateLoss, State.nextRate, State.nextRate, hown, hbit, hstep, State.lane_wr,
      hon _ (by decide)]
  refine ⟨?_, ?_, fun h => ⟨hown.trans h.own, ?_, ?_, ?_, ?_, ?_⟩⟩
  · rw [State.perrNow, State.perrNow, hon _ (by decide), hseen, hhits, State.lane_wr, State.rd64_wr_apart _ (by decide)]
  · rw [State.pbitsNow, State.pbitsNow, hon _ (by decide), hseen, State.lane_wr, State.rd64_wr_apart _ (by decide)]
  · rw [State.on, hkept _ (by decide)]; exact h.locked
  · rw [State.lane_wr]; exact h.clean
  · rw [State.lane_wr, hbit]; exact h.seen
  · rw [State.lane_wr, hbit]; exact h.burst
  · rw [State.lane_wr, hhits, hbit]; exact h.hits

end

theorem single_counts {l : Lane} (h : s.CleanLoop l.val) : Leads (.single l) s fun t =>
    t.rd64 .VLK_PERR l.val = (s.perrNow l.val + 1) % 2 ^ 64 ∧ t.rd64 .VLK_PBITS l.val = (s.pbitsNow l.val + 1) % 2 ^ 64 ∧
      t.on .VLK_PCHK_LOCK l.val = true ∧ OnlyLane l.val (Reg64.VLK_PERR.words l.val ++ Reg64.VLK_PBITS.words l.val) s t := by
  obtain ⟨herr, hbits, hlock, -, -, honly⟩ := h.inject_effect 1
  exact ⟨_, rfl, herr, hbits, hlock, honly (by decide)⟩

theorem burst_counts {l : Lane} (h : s.CleanLoop l.val) {n : Byte} (hn : n ≠ 0) : Leads (.burst l n) s fun t =>
    t.rd64 .VLK_PERR l.val = (s.perrNow l.val + min n.toNat 32) % 2 ^ 64 ∧
      t.rd64 .VLK_PBITS l.val = (s.pbitsNow l.val + min n.toNat 32) % 2 ^ 64 ∧
      t.on .VLK_PCHK_LOCK l.val = decide (n.toNat < 32) ∧ t.rd .VLK_INJ_BLEN l.val = n.toNat ∧
      OnlyLane l.val (Fld.VLK_INJ_BLEN.at l.val :: Fld.VLK_PCHK_LOCK.at l.val ::
        (Reg64.VLK_PERR.words l.val ++ Reg64.VLK_PBITS.words l.val)) s t := by
  have hn0 : n.toNat ≠ 0 := fun h0 => hn (BitVec.eq_of_toNat_eq h0)
  obtain ⟨hperr, hpbits, hclean⟩ := s.wr_blen (l := l.val) n.toNat
  obtain ⟨herr, hbits, hlock, hblen, honly, -⟩ := (hclean h).inject_effect n.toNat
  refine ⟨_, congrArg Host.Outcome.next (if_neg hn0), hperr ▸ herr, hpbits ▸ hbits, hlock, ?_, ?_⟩
  · rw [hblen, State.rd_wr_same _ _ _ _ (by decide)]
    exact Nat.mod_eq_of_lt n.isLt
  · have hfirst := (OnlyLane.refl (l := l.val) (ws := Fld.VLK_INJ_BLEN.at l.val :: Fld.VLK_PCHK_LOCK.at l.val :: countWords l.val) s).wr
      (f := .VLK_INJ_BLEN) n.toNat (List.mem_cons_self ..)
    exact hfirst.trans (honly.mono fun _ => List.mem_cons_of_mem _)

/-! ### The checker starts, locks and loses lock (R105, R106) -/

theorem vlkPchkEn_starts {l : Lane} (hoff : s.on .VLK_PCHK_EN l.val = false) (hpat : s.patOk l.val (s.rd .VLK_PCHK_PAT l.val) = true) :
    Leads (.vlkPchkEn l) s fun t =>
      t.on .VLK_PCHK_EN l.val = true ∧ t.on .VLK_PCHK_LOCK l.val = false ∧ t.rd64 .VLK_PERR l.val = 0 ∧ t.rd64 .VLK_PBITS l.val = 0 ∧
        OnlyLane l.val (Fld.VLK_PCHK_EN.at l.val :: Reg64.VLK_PERR.words l.val ++ Reg64.VLK_PBITS.words l.val) s t := by
  refine ⟨((((s.setLane l.val { s.lane l.val with errs := [] }).wr .VLK_PCHK_EN l.val 1).wr .VLK_PCHK_LOCK l.val 0).wr64 .VLK_PERR
    l.val 0).wr64 .VLK_PBITS l.val 0, ?_, ?_, ?_, ?_, ?_, ?_⟩
  · show execVlkPchkEn l s = _
    simp only [execVlkPchkEn, hoff, hpat, Bool.not_true, Bool.false_eq_true, if_false]
  · rw [State.on, State.rd_wr64_apart _ (by decide), State.rd_wr64_apart _ (by decide), State.rd_wr_apart _ (by decide),
      State.rd_wr_same _ _ _ _ (by decide)]
    rfl
  · rw [State.on, State.rd_wr64_apart _ (by decide), State.rd_wr64_apart _ (by decide), State.rd_wr_same _ _ _ _ (by decide)]
    rfl
  · rw [State.rd64_wr64_apart _ (by decide), State.rd64_wr64_same, Nat.zero_mod]
  · rw [State.rd64_wr64_same, Nat.zero_mod]
  · have hset := (OnlyLane.refl (l := l.val) (ws := Fld.VLK_PCHK_EN.at l.val :: countWords l.val) s).setLane
      { s.lane l.val with errs := [] }
    have hen := hset.wr (f := .VLK_PCHK_EN) (i := l.val) 1 (List.mem_cons_self ..)
    have hlock := hen.wr (f := .VLK_PCHK_LOCK) (i := l.val) 0 (List.mem_cons_self ..)
    exact (hlock.wr64 _ (mem_countWords_err _ _)).wr64 _ (mem_countWords_bits _ _)

theorem prbsCheckerLock_locks {l : Lane} (hen : s.on .VLK_PCHK_EN l.val = true) (hlock : s.on .VLK_PCHK_LOCK l.val = false)
    (hfits : s.patternFits l.val = true) : Leads (.prbsCheckerLock l) s fun t =>
      t.on .VLK_PCHK_LOCK l.val = true ∧ t.on .VLK_STAT_CLK_LOCK l.val = true ∧ t.rd64 .VLK_PBITS l.val = s.rd64 .VLK_PBITS l.val ∧
        OnlyLane l.val [Fld.VLK_PCHK_LOCK.at l.val, Fld.VLK_STAT_CLK_LOCK.at l.val] s t := by
  refine ⟨((s.setLane l.val { s.lane l.val with seen := s.bitNow l.val, errs := [] }).wr .VLK_PCHK_LOCK l.val 1).wr .VLK_STAT_CLK_LOCK
    l.val 1, ?_, ?_, ?_, ?_, ?_⟩
  · show execPrbsCheckerLock l s = _
    simp only [execPrbsCheckerLock, hen, hlock, hfits, Bool.false_and, Bool.false_eq_true, if_false, Bool.not_false, Bool.and_self,
      if_true]
  · rw [State.on, State.rd_wr_apart _ (by decide), State.rd_wr_same _ _ _ _ (by decide)]
    rfl
  · rw [State.on, State.rd_wr_same _ _ _ _ (by decide)]
    rfl
  · rw [State.rd64_wr_apart _ (by decide), State.rd64_wr_apart _ (by decide), State.rd64_setLane]
  · exact (((OnlyLane.refl s).setLane _).wr _ (by simp)).wr _ (by simp)

theorem prbsCheckerLock_unfit {l : Lane} (hlock : s.on .VLK_PCHK_LOCK l.val = false) (hfits : s.patternFits l.val = false) :
    Leads (.prbsCheckerLock l) s (· = s) := by
  refine ⟨s, ?_, rfl⟩
  show execPrbsCheckerLock l s = _
  simp only [execPrbsCheckerLock, hlock, hfits, Bool.false_and, Bool.and_false, Bool.false_eq_true, if_false]

theorem prbsCheckerLockLost_settles {l : Lane} (c e : Nat) (h : s.lockedNow l.val = true) :
    Leads (.prbsCheckerLockLost l c e) s fun t =>
      t.on .VLK_PCHK_LOCK l.val = false ∧ t.rd64 .VLK_PBITS l.val = (s.pbitsNow l.val + c) % 2 ^ 64 ∧
        t.rd64 .VLK_PERR l.val = (s.perrNow l.val + e) % 2 ^ 64 ∧
        OnlyLane l.val (Fld.VLK_PCHK_LOCK.at l.val :: Reg64.VLK_PERR.words l.val ++ Reg64.VLK_PBITS.words l.val) s t := by
  have hlock : s.on .VLK_PCHK_LOCK l.val = true := (Bool.and_eq_true _ _ ▸ h).1
  obtain ⟨hbits, herr, -⟩ := s.settle_effect l.val
  refine ⟨(((s.settle l.val).wr .VLK_PCHK_LOCK l.val 0).bump64 .VLK_PBITS l.val c).bump64 .VLK_PERR l.val e, ?_, ?_, ?_, ?_, ?_⟩
  · show execPrbsCheckerLockLost l c e s = _
    simp only [execPrbsCheckerLockLost, hlock, h, Bool.not_true, Bool.and_false, Bool.false_eq_true, if_false, if_true]
  · rw [State.on, State.bump64, State.rd_wr64_apart _ (by decide), State.bump64, State.rd_wr64_apart _ (by decide)]
    exact State.on_wr_zero _ _ _ (by decide)
  · rw [State.bump64, State.rd64_wr64_apart _ (by decide), State.bump64, State.rd64_wr64_same, State.rd64_wr_apart _ (by decide), hbits,
      Nat.mod_add_mod]
  · rw [State.bump64, State.rd64_wr64_same, State.bump64, State.rd64_wr64_apart _ (by decide), State.rd64_wr_apart _ (by decide), herr,
      Nat.mod_add_mod]
  · have hsettle := (s.settle_onlyLane (h.trans hlock.symm)).mono (ws' := Fld.VLK_PCHK_LOCK.at l.val :: countWords l.val)
      fun _ => List.mem_cons_of_mem _
    have hoff := hsettle.wr (f := .VLK_PCHK_LOCK) (i := l.val) 0 (List.mem_cons_self ..)
    exact (hoff.wr64 _ (mem_countWords_bits _ _)).wr64 _ (mem_countWords_err _ _)

/-! ### The clauses -/

theorem bitslip_waits {l : Lane} (hst : s.rd .VLK_STAT_STATE l.val = lnTest) (hraw : s.on .VLK_CTL_RAW l.val = true) :
    (s.on .VLK_RAW_SLIP_PEND l.val = false → Leads (.bitslip l) s fun t =>
      t.on .VLK_RAW_SLIP_PEND l.val = true ∧ t.rd .VLK_RAW_SLIP_POS l.val = s.rd .VLK_RAW_SLIP_POS l.val ∧
        OnlyWords [Fld.VLK_RAW_SLIP_PEND.at l.val] s t) ∧
    (s.on .VLK_RAW_SLIP_PEND l.val = true → Leads (.bitslip l) s fun t =>
      t.on .VLK_EVT_SLIP_OVR l.val = true ∧ OnlyWords [Fld.VLK_EVT_SLIP_OVR.at l.val] s t) := by
  have hexec : exec (.bitslip l) s = .next (if s.on .VLK_RAW_SLIP_PEND l.val then s.flag .VLK_EVT_SLIP_OVR l.val
      else s.wr .VLK_RAW_SLIP_PEND l.val 1) := congrArg Host.Outcome.next (if_pos (by simp [State.lnState, hst, hraw]))
  refine ⟨fun hpend => ⟨_, hexec.trans (congrArg _ (if_neg (by simp [hpend]))), ?_, ?_, ?_⟩,
    fun hpend => ⟨_, hexec.trans (congrArg _ (if_pos hpend)), ?_, ?_⟩⟩
  · exact s.on_flag_same _ _ (by decide) (by decide)
  · exact s.rd_wr_apart (by decide) _ _
  · exact (OnlyWords.refl s _).wr _ _ _ _ (List.mem_cons_self ..)
  · exact s.on_flag_same _ _ (by decide) (by decide)
  · exact (OnlyWords.refl s _).wr _ _ _ _ (List.mem_cons_self ..)

/-- Settles O6, by one lemma for each of the actions. -/
theorem laneTestActions : Obligations.LaneTestActions := by
  intro s l
  refine ⟨fun hst hraw => bitslip_waits s hst hraw, fun h => ⟨s, congrArg Host.Outcome.next (if_neg ?_), rfl⟩,
    fun h => slipComplete_rotates s h, cntclr_clears s l, fun hst hgen hlock hloop herrs hseen hburst hhits => ?_,
    fun hgen => ⟨s, congrArg Host.Outcome.next (if_pos (by simp [hgen])), rfl⟩, ⟨_, rfl, s.on_flag_same _ _ (by decide) (by decide),
      (OnlyWords.refl s _).wr _ _ _ _ (List.mem_cons_self ..)⟩, fun hoff hpat => vlkPchkEn_starts s hoff hpat,
    fun hen hlock => ⟨fun hfits => prbsCheckerLock_locks s hen hlock hfits, fun hfits => prbsCheckerLock_unfit s hlock hfits⟩,
    fun c e h => prbsCheckerLockLost_settles s c e h⟩
  · rcases h with h | h <;> simp [State.lnState, h]
  · have hclean : s.CleanLoop l.val := ⟨?_, hlock, herrs, hseen, hburst, hhits⟩
    · exact ⟨single_counts s hclean, fun n hn => burst_counts s hclean hn⟩
    · rcases hloop with h | h <;> simp [State.ownPattern, State.loopOf, State.lnState, hst, hgen, h]

end Sys2Proof.Machine

/-! # Lanes are lost, and their bundles go on without them (R90, R94 to R100) -/

namespace Sys2Proof.Machine

variable (s : State)

/-! ### The positions of a bundle -/

/-- The register field of a position. -/
def seatFld (p : Nat) : Fld := ⟨0x380008, 0x1000, 8 * p, 5⟩

theorem seatFld_isVlk (p : Nat) : (seatFld p).isVlk = true := by simp [Fld.isVlk, seatFld]

theorem State.posLane_eq (b p : Nat) : s.posLane b p = s.rd (seatFld p) b := rfl
theorem State.setPos_eq (b p l : Nat) : s.setPos b p l = s.wr (seatFld p) b l := rfl

theorem State.posLane_setPos_same (b l : Nat) {p : Nat} (hp : p < 4) : (s.setPos b p l).posLane b p = l % 32 :=
  s.rd_wr_same (seatFld p) _ _ (show 8 * p + 5 ≤ 32 by omega)

theorem State.posLane_setPos_other (b l : Nat) {p q : Nat} (hp : p < 4) (h : q ≠ p) : (s.setPos b p l).posLane b q = s.posLane b q :=
  s.rd_wr_other (seatFld p) (seatFld q) _ _ _
    (.inr (show (8 * q + 5 ≤ 8 * p ∨ 8 * p + 5 ≤ 8 * q) ∧ 8 * p + 5 ≤ 32 by omega))

/-- What a bundle register shows while a lane's position is set, and the other way round. -/
theorem State.rd_setPos_apart (b p l : Nat) {f : Fld} (h : (seatFld 0).base ≠ f.base) (hf : f.stride = 0x1000) :
    (s.setPos b p l).rd f b = s.rd f b :=
  s.rd_wr_apart (by simpa [Fld.apart, seatFld, hf] using .inl (Ne.symm h)) _ _

theorem State.posLane_wr (b p : Nat) {f : Fld} (h : f.base ≠ 0x380008) (hf : f.stride = 0x1000) (v : Nat) :
    (s.wr f b v).posLane b p = s.posLane b p :=
  s.rd_wr_apart (g := seatFld p) (by simpa [Fld.apart, seatFld, hf] using .inl (Ne.symm h)) _ _

/-- A lane's register is no register of a bundle. -/
theorem State.rd_wr_bundleWord (l : Lane) {f g : Fld} (hg : g.isLane = true) {b : Nat} (hf : 0x380000 ≤ f.at b) (v : Nat) :
    (s.wr f b v).rd g l.val = s.rd g l.val := by
  obtain ⟨-, hhi⟩ := Fld.at_lanePage hg l.val
  exact s.rd_wr_other _ _ _ _ _ (.inl (by omega))

/-! ### A change of a bundle's set -/

/-- A step that touches only the state register and the record of one bundle, and the records of lanes. -/
abbrev BundleStep (b : Nat) : State → State → Prop := LaneFrame (· = Fld.VLK_BSTAT_STATE.at b) (fun _ => True) (· = b)

theorem State.nextEpoch_of {s t : State} {b : Nat} (hb : t.bundle b = s.bundle b) (he : t.rd .VLK_BSTAT_EPOCH b = s.rd .VLK_BSTAT_EPOCH b) :
    t.nextEpoch b = s.nextEpoch b := by
  rw [State.nextEpoch, State.nextEpoch, hb, he]

theorem State.nextEpoch_lt (b : Nat) : s.nextEpoch b < 256 := Nat.mod_lt _ (by decide)

theorem State.sendChange_quiet (b : Nat) : Quiet s (s.sendChange b) := by
  unfold State.sendChange
  split
  · exact .refl s
  · exact LaneFrame.forN (fun t p _ => LaneFrame.ite (Quiet.of_regs rfl rfl rfl) (.refl t)) (.refl s)

theorem State.announce_step (b : Nat) (map : List Nat) (r : Nat) (planned : Bool) : BundleStep b s (s.announce b map r planned) := by
  unfold State.announce
  extract_lets lost cur rep c
  have hset : BundleStep b s (s.setBundle b { s.bundle b with change := some c }) := LaneFrame.setBundle (.refl s) _ rfl
  exact hset.quiet (State.sendChange_quiet ..)

theorem State.announce_epoch (b : Nat) (map : List Nat) (r : Nat) (planned : Bool) :
    ((s.announce b map r planned).bundle b).change.map (·.epoch) = some (s.nextEpoch b) := by
  unfold State.announce
  extract_lets lost cur rep c
  rw [(State.sendChange_quiet _ b).bundle b id, State.bundle_setBundle_same]
  rfl

/-- The map of a bundle without the lanes that go (R97 to R100). -/
def State.dropMap (s : State) (b : Nat) (ps ls : List Nat) : List Nat :=
  s.keepDegraded b (if s.on .VLK_BCTL_SUBST_EN b = true then s.fillPositions b (s.mapWithout b ls) ls ps else s.mapWithout b ls) ls

/-- A degraded lane that goes on serving is no longer to be swapped. -/
def State.keepServing (s : State) (b : Nat) (map : List Nat) : State :=
  forN 4 (fun s p => if map.getD p 31 = s.posLane b p ∧ s.posLane b p < 24 then
    s.setLane (s.posLane b p) { s.lane (s.posLane b p) with swapped := false } else s) s

theorem State.dropPositions_eq (b : Nat) (ps ls : List Nat) (r : Nat) (planned : Bool) : s.dropPositions b ps ls r planned =
    (let t := s.keepServing b (s.dropMap b ps ls)
     if t.rd .VLK_BSTAT_MASK b = 0 ∧ maskOf (s.dropMap b ps ls) = 0 then
       (t.wr .VLK_BSTAT_EPOCH b (t.nextEpoch b)).setBundle b { t.bundle b with change := none }
     else t.announce b (s.dropMap b ps ls) r planned) := rfl

theorem State.keepServing_frame (b : Nat) (map : List Nat) :
    LaneFrame (fun _ => False) (fun _ => True) (fun _ => False) s (s.keepServing b map) :=
  .forN (fun t _ _ => .ite ((LaneFrame.refl t).setLane _ trivial) (.refl t)) (.refl s)

theorem State.dropPositions_step (b : Nat) (ps ls : List Nat) (r : Nat) (planned : Bool) :
    BundleStep b s (s.dropPositions b ps ls r planned) := by
  have hkeep : BundleStep b s (s.keepServing b (s.dropMap b ps ls)) :=
    (s.keepServing_frame b _).mono (fun _ => False.elim) (fun _ _ => trivial) fun _ => False.elim
  rw [s.dropPositions_eq]
  generalize s.keepServing b (s.dropMap b ps ls) = t at hkeep
  dsimp only
  split
  · have hepoch : BundleStep b s (t.wr .VLK_BSTAT_EPOCH b (t.nextEpoch b)) := hkeep.wr _ (.inl rfl)
    exact hepoch.setBundle _ rfl
  · exact hkeep.trans (t.announce_step ..)

/-- The bundle's change is under the next epoch, which an empty set takes at once. -/
def State.Moved (s : State) (b e : Nat) : Prop :=
  (s.bundle b).change.map (·.epoch) = some e ∨
    ((s.bundle b).change = none ∧ s.rd .VLK_BSTAT_MASK b = 0 ∧ s.rd .VLK_BSTAT_EPOCH b = e)

theorem State.dropPositions_moved (b : BundleId) (ps ls : List Nat) (r : Nat) (planned : Bool) :
    (s.dropPositions b.val ps ls r planned).Moved b.val (s.nextEpoch b.val) := by
  have hkeep := s.keepServing_frame b.val (s.dropMap b.val ps ls)
  have hnext : (s.keepServing b.val (s.dropMap b.val ps ls)).nextEpoch b.val = s.nextEpoch b.val :=
    State.nextEpoch_of (hkeep.bundle _ id) (hkeep.rd (Fld.at_not_sideWord (by decide) (by omega)) id)
  rw [s.dropPositions_eq, ← hnext]
  generalize s.keepServing b.val (s.dropMap b.val ps ls) = t
  dsimp only
  split
  · next hempty =>
    refine .inr ⟨?_, ?_, ?_⟩
    · rw [State.bundle_setBundle_same]
    · rw [State.rd_setBundle, State.rd_wr_apart _ (by decide), hempty.1]
    · rw [State.rd_setBundle, State.rd_wr_same _ _ _ _ (by decide)]
      exact Nat.mod_eq_of_lt (t.nextEpoch_lt _)
  · exact .inl (t.announce_epoch _ _ _ _)

/-- What a bundle's state shows follows; its change and its epoch stay. -/
theorem State.Moved.bundleState {s : State} {b : BundleId} {e : Nat} (h : s.Moved b.val e) : (s.bundleState b.val).Moved b.val e := by
  rw [State.Moved, s.bundleState_change, s.rd_bundleState b (by decide) (by decide), s.rd_bundleState b (by decide) (by decide),
    State.bundleShown, State.rd_wr_apart _ (by decide), State.rd_wr_apart _ (by decide)]
  exact h

/-- Other steps leave it. -/
theorem State.Moved.of_frame {W L B : Nat → Prop} {s t : State} {b : BundleId} {e : Nat} (h : s.Moved b.val e) (k : LaneFrame W L B s t)
    (hW : ¬ W (Fld.VLK_BSTAT_STATE.at b.val)) (hB : ¬ B b.val) : t.Moved b.val e := by
  have hside : ¬ sideWord (Fld.VLK_BSTAT_STATE.at b.val) := Fld.at_not_sideWord (by decide) (by omega)
  rw [State.Moved, k.bundle _ hB, k.rd (f := .VLK_BSTAT_MASK) hside hW, k.rd (f := .VLK_BSTAT_EPOCH) hside hW]
  exact h

/-! ### The bundles that lost lanes served (R95, R97 to R100) -/

/-- A bundle goes on without the lanes that went, if it lost a position. -/
def State.bundleLoses (s : State) (b : Nat) (ps ls : List Nat) (r : Nat) : State :=
  if ps.isEmpty = true then s else (s.dropPositions b ps ls r false).bundleState b

/-- The lanes of a list that are in service or stand by. -/
def State.present (s : State) (ls : List Nat) : List Nat := ls.filter (fun l => s.lnState l == lnService || s.lnState l == lnStandby)

theorem State.loseLanes_eq (ls : List Nat) (r : Nat) : s.loseLanes ls r =
    forN 5 (fun t b => t.bundleLoses b (s.lostPositions b (s.present ls)) (s.present ls) r)
      ((s.present ls).foldl (fun t l => t.laneGone l (r != 4)) s) := rfl

theorem State.bundleLoses_step (b : Nat) (ps ls : List Nat) (r : Nat) : BundleStep b s (s.bundleLoses b ps ls r) := by
  unfold State.bundleLoses
  refine .ite (.refl s) ((s.dropPositions_step b ps ls r false).trans ?_)
  exact (State.bundleState_frame' _ b).mono (fun _ => id) (fun _ => False.elim) fun _ => id

/-- The state registers of the bundles. -/
def bstatWord (o : Nat) : Prop := ∃ b < 5, o = Fld.VLK_BSTAT_STATE.at b

theorem State.bundlesLose_frame (ps : Nat → List Nat) (ls : List Nat) (r : Nat) :
    LaneFrame bstatWord (fun _ => True) (fun _ => True) s (forN 5 (fun t b => t.bundleLoses b (ps b) ls r) s) :=
  .forN (fun t b hb => (t.bundleLoses_step b (ps b) ls r).mono (fun _ ho => ⟨b, hb, ho⟩) (fun _ => id) fun _ _ => trivial) (.refl s)

/-- A bundle that lost a position has moved on. -/
theorem State.bundlesLose_moved {ps : Nat → List Nat} (ls : List Nat) (r : Nat) (b : BundleId) (hps : ps b.val ≠ []) :
    (forN 5 (fun t c => t.bundleLoses c (ps c) ls r) s).Moved b.val (s.nextEpoch b.val) := by
  have hne : ∀ c, c ≠ b.val → Fld.VLK_BSTAT_STATE.at b.val ≠ Fld.VLK_BSTAT_STATE.at c := fun c hc => by
    simp only [Fld.at, Fld.VLK_BSTAT_STATE]; omega
  obtain ⟨t, hbefore, hafter⟩ := forN_around s (f := fun t c => t.bundleLoses c (ps c) ls r)
    (R := LaneFrame (· ≠ Fld.VLK_BSTAT_STATE.at b.val) (fun _ => True) (· ≠ b.val)) LaneFrame.refl LaneFrame.trans
    (fun t c _ hc => (t.bundleLoses_step c (ps c) ls r).mono (fun o ho => by rw [ho]; exact (hne c hc).symm) (fun _ => id)
      fun d hd => by rw [hd]; exact hc) b.isLt
  have hnext : t.nextEpoch b.val = s.nextEpoch b.val :=
    State.nextEpoch_of (hbefore.bundle _ (by simp)) (hbefore.rd (Fld.at_not_sideWord (by decide) (by omega)) (not_not.mpr rfl))
  refine State.Moved.of_frame ?_ hafter (by simp) (by simp)
  rw [State.bundleLoses, if_neg (by simpa using hps), ← hnext]
  exact (t.dropPositions_moved b _ _ _ _).bundleState

/-! ### A lane goes (R90, R95, R103) -/

/-- The lane's own part of its loss: retry, or test mode where it was being released. -/
def State.laneDropped (s : State) (l : Nat) (lost : Bool) : State :=
  let t := s.whenS lost (fun s => (s.flag .VLK_EVT_LOCK_LOST l).fault (srcLane l) 1 1 l)
  let t := ((t.setLocks l 0).wr .VLK_STAT_STATE l lnRetry).wr .VLK_STAT_BUNDLE l 7
  let t := t.setLane l { s.lane l with uncTimes := [], swapped := false, releasing := false }
  if (s.lane l).releasing = true then (t.enterTest l false).endLongOf (fun k => k == .laneRelease l) stDone else t

/-- The position is empty. -/
def State.positionLeft (s : State) (b p : Nat) : State :=
  (s.setPos b p 31).wr .VLK_BSTAT_MASK b (maskOf ((s.setPos b p 31).laneMap b))

theorem State.laneGone_eq (l : Nat) (lost : Bool) : s.laneGone l lost =
    if (s.lnState l == lnService && decide (s.rd .VLK_STAT_BUNDLE l < 5)) = true then
      (s.laneDropped l lost).positionLeft (s.rd .VLK_STAT_BUNDLE l) (s.rd .VLK_STAT_POSITION l)
    else s.laneDropped l lost := rfl

theorem State.laneDropped_only (l : Nat) (lost : Bool) : LaneOnly l s (s.laneDropped l lost) := by
  have hlost : LaneOnly l s (s.whenS lost (fun s => (s.flag .VLK_EVT_LOCK_LOST l).fault (srcLane l) 1 1 l)) :=
    .ite (((LaneFrame.refl s).laneWr _ rfl).quiet (State.fault_quiet ..)) (.refl s)
  have hretry := (((((hlost.laneWr 0 (f := .VLK_STAT_CLK_LOCK) rfl).laneWr 0 (f := .VLK_STAT_BLK_LOCK) rfl).laneWr 0
    (f := .VLK_STAT_MRK_LOCK) rfl).laneWr lnRetry (f := .VLK_STAT_STATE) rfl).laneWr 7 (f := .VLK_STAT_BUNDLE) rfl).laneSet
    { s.lane l with uncTimes := [], swapped := false, releasing := false }
  unfold State.laneDropped
  exact .ite ((hretry.trans (State.enterTest_only ..)).quiet (State.endLongOf_quiet ..)) hretry

theorem State.laneDropped_effect (l : Lane) (lost : Bool) :
    (s.laneDropped l.val lost).lnState l.val = (if (s.lane l.val).releasing = true then lnTest else lnRetry) ∧
      (s.laneDropped l.val lost).rd .VLK_STAT_BUNDLE l.val = 7 ∧
      (lost = true → (s.laneDropped l.val lost).on .VLK_EVT_LOCK_LOST l.val = true) := by
  unfold State.laneDropped
  extract_lets u v x w
  have hbundle : w.rd .VLK_STAT_BUNDLE l.val = 7 := by
    rw [State.rd_setLane, State.rd_wr_same _ _ _ _ (by decide)]; rfl
  have hstate : w.rd .VLK_STAT_STATE l.val = lnRetry := by
    rw [State.rd_setLane, State.rd_wr_apart _ (by decide), State.rd_wr_same _ _ _ _ (by decide)]; rfl
  have hlost : lost = true → w.rd .VLK_EVT_LOCK_LOST l.val = 1 := fun h => by
    rw [State.rd_setLane, State.rd_wr_apart _ (by decide), State.rd_wr_apart _ (by decide), State.rd_setLocks _ (by decide)]
    simp only [u, h, State.whenS, if_true]
    rw [State.rd_fault _ _ (by decide) (by decide), State.flag, State.rd_wr_same _ _ _ _ (by decide)]
    rfl
  by_cases hrel : (s.lane l.val).releasing = true
  · simp only [if_pos hrel, State.lnState, State.on]
    simp (disch := decide) only [State.rd_endLongOf, State.rd_enterTest]
    exact ⟨(w.enterTest_effect l.val false).1, hbundle, fun h => by rw [hlost h]; rfl⟩
  · simp only [if_neg hrel, State.lnState, State.on]
    exact ⟨hstate, hbundle, fun h => by rw [hlost h]; rfl⟩

/-- The registers of a bundle in which a loss shows. -/
theorem State.positionLeft_frame (b p : Nat) :
    LaneFrame (fun o => o = (seatFld p).at b ∨ o = Fld.VLK_BSTAT_STATE.at b) (fun _ => False) (fun _ => False) s (s.positionLeft b p) :=
  ((LaneFrame.refl s).wr _ (.inl (.inl rfl))).wr _ (.inl (.inr rfl))

theorem State.positionLeft_effect (b : Nat) {p : Nat} (hp : p < 4) : (s.positionLeft b p).posLane b p = 31 ∧
    (s.positionLeft b p).rd .VLK_BSTAT_EPOCH b = s.rd .VLK_BSTAT_EPOCH b := by
  refine ⟨?_, ?_⟩
  · rw [State.positionLeft, State.posLane_wr _ _ _ (by decide) rfl, State.posLane_setPos_same _ _ _ hp]
  · rw [State.positionLeft, State.rd_wr_apart _ (by decide), State.rd_setPos_apart _ _ _ _ (by decide) rfl]

/-- Bundle registers are not the lanes' pages. -/
theorem not_lanePage {l o : Nat} (hl : l < 24) (ho : 0x318000 ≤ o) : ¬ lanePage l o := by
  simp only [lanePage]; omega

/-- The lane's own registers after its loss. -/
theorem State.rd_laneGone (l : Lane) (lost : Bool) {g : Fld} (hg : g.isLane = true) :
    (s.laneGone l.val lost).rd g l.val = (s.laneDropped l.val lost).rd g l.val := by
  rw [s.laneGone_eq]
  split
  · refine (State.positionLeft_frame ..).rd (Fld.at_not_sideWord (Fld.isVlk_of_isLane hg) (by omega)) ?_
    obtain ⟨-, hhi⟩ := Fld.at_lanePage hg l.val
    simp only [Fld.at, seatFld, Fld.VLK_BSTAT_STATE] at hhi ⊢
    omega
  · rfl

/-! ### One lane is declared lost -/

/-- The register that shows a fault outside the guarantee (R490). -/
theorem gstat_not_sideWord : ¬ sideWord 0x20008 := by unfold sideWord; decide

theorem State.partFault_frame : LaneFrame (· = 0x20008) (fun _ => False) (fun _ => False) s s.partFault := by
  unfold State.partFault
  exact .ite ((LaneFrame.refl s).wr _ (.inl rfl)) (.refl s)

section
variable {s} {l : Lane}

/-- A register of lanes and bundles is not touched by the note of a part fault. -/
theorem State.rd_partFault {n : Nat} (i : Fin n) (hn : n ≤ 127) {f : Fld} (hf : f.isVlk = true) : s.partFault.rd f i.val = s.rd f i.val := by
  refine s.partFault_frame.rd (Fld.at_not_sideWord hf (by omega)) ?_
  simp only [Fld.isVlk, Bool.and_eq_true, decide_eq_true_eq] at hf
  simp only [Fld.at]
  omega

theorem State.lanesFail_service (hst : s.lnState l.val = lnService) (r : Nat) : s.lanesFail [l.val] r =
    forN 5 (fun t b => t.bundleLoses b (s.partFault.lostPositions b [l.val]) [l.val] r) (s.partFault.laneGone l.val (r != 4)) := by
  have hstate : s.partFault.lnState l.val = lnService := (State.rd_partFault l (by decide) (by decide)).trans hst
  have hpresent : s.partFault.present [l.val] = [l.val] := by simp [State.present, hstate]
  have hfail : s.lanesFail [l.val] r = s.partFault.loseLanes [l.val] r := by
    simp [State.lanesFail, hst, State.whenS]
  rw [hfail, State.loseLanes_eq, hpresent, List.foldl_cons, List.foldl_nil]

/-- Its own registers: it is in retry, or in test mode where it was being released, and in no bundle. -/
theorem State.lanesFail_lane (hst : s.lnState l.val = lnService) (r : Nat) :
    (s.lanesFail [l.val] r).lnState l.val = (if (s.lane l.val).releasing = true then lnTest else lnRetry) ∧
      (s.lanesFail [l.val] r).rd .VLK_STAT_BUNDLE l.val = 7 ∧
      (r ≠ 4 → (s.lanesFail [l.val] r).on .VLK_EVT_LOCK_LOST l.val = true) := by
  have hkept : ∀ g : Fld, g.isLane = true →
      (s.lanesFail [l.val] r).rd g l.val = (s.partFault.laneDropped l.val (r != 4)).rd g l.val := fun g hg => by
    rw [State.lanesFail_service hst, ← State.rd_laneGone _ l _ hg]
    refine (State.bundlesLose_frame ..).rd (Fld.at_not_sideWord (Fld.isVlk_of_isLane hg) (by omega)) ?_
    rintro ⟨b, -, hb⟩
    exact lanePage_ne_bstat l b (Fld.at_lanePage hg l.val) hb
  obtain ⟨hstate, hbundle, hlost⟩ := s.partFault.laneDropped_effect l (r != 4)
  rw [s.partFault_frame.lane l.val id] at hstate
  exact ⟨(hkept _ (by decide)).trans hstate, (hkept _ (by decide)).trans hbundle,
    fun h => (congrArg (· == 1) (hkept _ (by decide))).trans (hlost (by simpa using h))⟩

/-- The loss leaves the registers outside the lane and its bundle. -/
theorem State.laneGone_frame (lost : Bool) : LaneFrame
    (fun o => lanePage l.val o ∨ o = (seatFld 0).at (s.rd .VLK_STAT_BUNDLE l.val) ∨ o = Fld.VLK_BSTAT_STATE.at (s.rd .VLK_STAT_BUNDLE l.val))
    (· = l.val) (fun _ => False) s (s.laneGone l.val lost) := by
  have hdrop := (s.laneDropped_only l.val lost).mono
    (W' := fun o => lanePage l.val o ∨ o = (seatFld 0).at (s.rd .VLK_STAT_BUNDLE l.val) ∨
      o = Fld.VLK_BSTAT_STATE.at (s.rd .VLK_STAT_BUNDLE l.val)) (fun _ => .inl) (fun _ => id) fun _ => id
  rw [s.laneGone_eq]
  exact .ite (hdrop.trans ((State.positionLeft_frame ..).mono (fun _ => .inr) (fun _ => False.elim) fun _ => id)) hdrop

/-- A recovery not yet complete: the loss lies outside the guarantee. -/
theorem State.lanesFail_outside (hst : s.lnState l.val = lnService) (r : Nat) (h : s.recovering = true) :
    (s.lanesFail [l.val] r).on .FLT_GSTAT_OUTSIDE = true := by
  have hnote : s.partFault.on .FLT_GSTAT_OUTSIDE = true := by
    rw [State.partFault, State.whenS, if_pos h]
    exact s.on_flag_same _ _ (by decide) (by decide)
  have hgone := State.laneGone_frame (s := s.partFault) (l := l) (r != 4)
  have hlose := (s.partFault.laneGone l.val (r != 4)).bundlesLose_frame (fun b => s.partFault.lostPositions b [l.val]) [l.val] r
  rw [State.lanesFail_service hst, ← hnote, State.on, State.on, hlose.rd (f := .FLT_GSTAT_OUTSIDE) (i := 0) gstat_not_sideWord,
    hgone.rd (f := .FLT_GSTAT_OUTSIDE) (i := 0) gstat_not_sideWord]
  · simp only [lanePage, Fld.at, seatFld, Fld.VLK_BSTAT_STATE, Fld.FLT_GSTAT_OUTSIDE]
    omega
  · rintro ⟨b, -, hb⟩
    simp only [Fld.at, Fld.FLT_GSTAT_OUTSIDE, Fld.VLK_BSTAT_STATE] at hb
    omega

/-- Its bundle: the position is empty, and where the lane held it the bundle moves on under the next epoch. -/
theorem State.lanesFail_bundle (hst : s.lnState l.val = lnService) (r : Nat) {b : BundleId} (hb : s.rd .VLK_STAT_BUNDLE l.val = b.val) :
    (s.lanesFail [l.val] r).posLane b.val (s.rd .VLK_STAT_POSITION l.val) = 31 ∧
      (s.posLane b.val (s.rd .VLK_STAT_POSITION l.val) = l.val → (s.lanesFail [l.val] r).Moved b.val (s.nextEpoch b.val)) := by
  have hp : s.rd .VLK_STAT_POSITION l.val < 4 := s.rd_lt .VLK_STAT_POSITION _
  have hdrop := s.partFault.laneDropped_only l.val (r != 4)
  have hgone : s.partFault.laneGone l.val (r != 4) =
      (s.partFault.laneDropped l.val (r != 4)).positionLeft b.val (s.rd .VLK_STAT_POSITION l.val) := by
    rw [State.laneGone_eq, State.lnState, State.rd_partFault l (by decide) (by decide), State.rd_partFault l (by decide) (by decide),
      State.rd_partFault l (by decide) (by decide), hb, if_pos]
    rw [← State.lnState, hst]
    simp
  obtain ⟨hempty, hepoch⟩ := (s.partFault.laneDropped l.val (r != 4)).positionLeft_effect b.val hp
  have hframe := (s.partFault.laneDropped l.val (r != 4)).positionLeft_frame b.val (s.rd .VLK_STAT_POSITION l.val)
  rw [State.lanesFail_service hst, hgone]
  refine ⟨?_, fun hpos => ?_⟩
  · rw [State.posLane_eq, (State.bundlesLose_frame ..).rd (Fld.at_not_sideWord (seatFld_isVlk _) (by omega)), ← State.posLane_eq, hempty]
    rintro ⟨c, -, hc⟩
    simp only [Fld.at, seatFld, Fld.VLK_BSTAT_STATE] at hc
    omega
  · have hnext : ((s.partFault.laneDropped l.val (r != 4)).positionLeft b.val (s.rd .VLK_STAT_POSITION l.val)).nextEpoch b.val =
        s.nextEpoch b.val := by
      refine State.nextEpoch_of ?_ ?_
      · rw [hframe.bundle _ id, hdrop.bundle _ id, s.partFault_frame.bundle _ id]
      · rw [hepoch, hdrop.rd (Fld.at_not_sideWord (by decide) (by omega)), State.rd_partFault b (by decide) (by decide)]
        exact not_lanePage l.isLt (by simp only [Fld.at, Fld.VLK_BSTAT_EPOCH]; omega)
    rw [← hnext]
    refine State.bundlesLose_moved _ _ _ b (List.ne_nil_of_mem (a := s.rd .VLK_STAT_POSITION l.val) ?_)
    have hpart : s.partFault.posLane b.val (s.rd .VLK_STAT_POSITION l.val) = l.val :=
      (State.rd_partFault b (by decide) (seatFld_isVlk _)).trans hpos
    simp [State.lostPositions, hp, hpart]

end

end Sys2Proof.Machine

/-! # O9: the loss of lanes, and the changes of the set in service (R87, R89 to R96, R99, R100, R103) -/

namespace Sys2Proof.Machine

variable (s : State)

/-! ### Losses (R89, R90, R95, R100) -/

theorem laneLossOfLock_lost {l : Lane} (hst : s.lnState l.val = lnService) (hb : s.rd .VLK_STAT_BUNDLE l.val < 5) :
    let b := s.rd .VLK_STAT_BUNDLE l.val
    let p := s.rd .VLK_STAT_POSITION l.val
    Leads (.laneLossOfLock l) s fun t =>
      t.lnState l.val = (if (s.lane l.val).releasing then lnTest else lnRetry) ∧ t.rd .VLK_STAT_BUNDLE l.val = 7 ∧
        t.on .VLK_EVT_LOCK_LOST l.val = true ∧ t.posLane b p = 31 ∧ (s.recovering = true → t.on .FLT_GSTAT_OUTSIDE = true) ∧
        (s.posLane b p = l.val → t.Moved b (s.nextEpoch b)) := by
  obtain ⟨hstate, hbundle, hlost⟩ := State.lanesFail_lane hst 1
  obtain ⟨hempty, hmoved⟩ := State.lanesFail_bundle hst 1 (b := ⟨_, hb⟩) rfl
  exact ⟨_, rfl, hstate, hbundle, hlost (by decide), hempty, State.lanesFail_outside hst 1, hmoved⟩

/-- A lane in service that is not being released is in retry after its loss. -/
theorem State.lanesFail_retry {s : State} {l : Lane} (hst : s.lnState l.val = lnService) (hrel : (s.lane l.val).releasing = false)
    (r : Nat) : (s.lanesFail [l.val] r).lnState l.val = lnRetry := by
  rw [(State.lanesFail_lane hst r).1, hrel]; rfl

/-- An uncorrectable codeword is counted and shown. -/
def State.codewordLost (s : State) (l : Nat) : State := ((s.bump64 .VLK_FEC_CW l).bump64 .VLK_FEC_UNC l).flag .VLK_EVT_UNCORR l

/-- The times of the uncorrectable codewords of the last millisecond, the present one included. -/
def State.uncRecent (s : State) (l : Nat) : List Nat := s.clock :: (s.lane l).uncTimes.filter (fun t => s.clock < t + 1000000)

theorem exec_uncorrectableCodeword {l : Lane} (h : 2 ≤ s.rd .VLK_STAT_RATE l.val) : exec (.uncorrectableCodeword l) s =
    .next (if (s.uncRecent l.val).length < 3 then
        (s.codewordLost l.val).setLane l.val { (s.codewordLost l.val).lane l.val with uncTimes := s.uncRecent l.val }
      else ((s.codewordLost l.val).setLane l.val { (s.codewordLost l.val).lane l.val with uncTimes := [] }).lanesFail [l.val] 2) :=
  congrArg Host.Outcome.next (if_neg h.not_gt)

theorem State.rd_codewordLost (l : Nat) {g : Fld}
    (h : (Fld.VLK_EVT_UNCORR.apart g && Reg64.VLK_FEC_UNC.apart g && Reg64.VLK_FEC_CW.apart g) = true) :
    (s.codewordLost l).rd g l = s.rd g l := by
  simp only [Bool.and_eq_true] at h
  rw [State.codewordLost, State.flag, State.rd_wr_apart _ h.1.1, State.bump64, State.rd_wr64_apart _ h.1.2, State.bump64,
    State.rd_wr64_apart _ h.2]

theorem State.lane_codewordLost (l k : Nat) : (s.codewordLost l).lane k = s.lane k := State.lane_of_lanes rfl _

theorem uncorrectableCodeword_counts {l : Lane} (hrate : 2 ≤ s.rd .VLK_STAT_RATE l.val)
    (hfew : ((s.lane l.val).uncTimes.filter (fun x => s.clock < x + 1000000)).length < 2) :
    Leads (.uncorrectableCodeword l) s fun t =>
      t.rd64 .VLK_FEC_UNC l.val = (s.rd64 .VLK_FEC_UNC l.val + 1) % 2 ^ 64 ∧ t.on .VLK_EVT_UNCORR l.val = true ∧
        t.lnState l.val = s.lnState l.val := by
  refine ⟨_, (exec_uncorrectableCodeword s hrate).trans (congrArg _ (if_pos ?_)), ?_, ?_, ?_⟩
  · rw [State.uncRecent, List.length_cons]; omega
  · rw [State.rd64_setLane, State.codewordLost, State.flag, State.rd64_wr_apart _ (by decide), State.bump64, State.rd64_wr64_same,
      State.bump64, State.rd64_wr64_apart _ (by decide)]
  · rw [State.on, State.rd_setLane]
    exact State.on_flag_same _ _ _ (by decide) (by decide)
  · rw [State.lnState, State.rd_setLane, s.rd_codewordLost _ (by decide)]; rfl

theorem uncorrectableCodeword_third {l : Lane} (hrate : 2 ≤ s.rd .VLK_STAT_RATE l.val) (hst : s.lnState l.val = lnService)
    (hrel : (s.lane l.val).releasing = false)
    (hmany : 2 ≤ ((s.lane l.val).uncTimes.filter (fun x => s.clock < x + 1000000)).length) :
    Leads (.uncorrectableCodeword l) s fun t => t.lnState l.val = lnRetry := by
  refine ⟨_, (exec_uncorrectableCodeword s hrate).trans (congrArg _ (if_neg ?_)), ?_⟩
  · rw [State.uncRecent, List.length_cons]; omega
  · refine State.lanesFail_retry ?_ ?_ 2
    · rw [State.lnState, State.rd_setLane, s.rd_codewordLost _ (by decide)]; exact hst
    · rw [State.lane_setLane_same, s.lane_codewordLost]; exact hrel

/-- A request that takes no lane out of service. -/
theorem laneDown_none {l : Lane} {msg : List Byte} (hbits : ∀ p : Fin 4, bitOf (fieldAt msg 14 1) p.val = true) :
    Leads (.laneDown l msg) s (· = s) := by
  have hnone : (List.range 4).filter (fun p => !bitOf (fieldAt msg 14 1) p) = [] :=
    List.filter_eq_nil_iff.mpr fun p hp => by simp [hbits ⟨p, List.mem_range.mp hp⟩]
  have hempty : ∀ b, s.lostPositions b [] = [] := fun b => List.filter_eq_nil_iff.mpr fun p _ => by simp
  have hlose : s.loseLanes [] (fieldAt msg 11 1) = s := by
    rw [s.loseLanes_eq]
    refine State.forN_induct s (· = s) _ _ rfl fun t b ht => ?_
    rw [show s.present [] = [] from rfl, hempty, ht]
    rfl
  have hfail : s.lanesFail [] (fieldAt msg 11 1) = s := hlose
  refine ⟨s, ?_, rfl⟩
  show execLaneDown l msg s = _
  rw [execLaneDown, hnone, List.map_nil, hfail]
  exact congrArg _ (ite_self _)

/-- A request that takes one position out of service. -/
theorem laneDown_one {l : Lane} {msg : List Byte} {p : Fin 4} (hok : laneMsgOk msg 5 = true) (hb : s.rd .VLK_STAT_BUNDLE l.val < 5)
    (hbits : ∀ q : Fin 4, bitOf (fieldAt msg 14 1) q.val = (q != p)) :
    exec (.laneDown l msg) s = .next (s.lanesFail [s.posLane (s.rd .VLK_STAT_BUNDLE l.val) p.val] (fieldAt msg 11 1)) := by
  have hone : (List.range 4).filter (fun q => !bitOf (fieldAt msg 14 1) q) = [p.val] := by
    have hcongr : (List.range 4).filter (fun q => !bitOf (fieldAt msg 14 1) q) = (List.range 4).filter (· == p.val) :=
      List.filter_congr fun q hq => by
        rw [hbits ⟨q, List.mem_range.mp hq⟩, bne, Bool.not_not, Bool.eq_iff_iff, beq_iff_eq, beq_iff_eq, Fin.ext_iff]
    rw [hcongr]
    exact (by decide : ∀ p : Fin 4, (List.range 4).filter (· == p.val) = [p.val]) p
  show execLaneDown l msg s = _
  rw [execLaneDown, hone, hok]
  exact congrArg _ (if_pos (by simpa using hb))

theorem laneDown_retries {l : Lane} {msg : List Byte} {p : Fin 4} (hok : laneMsgOk msg 5 = true) (hb : s.rd .VLK_STAT_BUNDLE l.val < 5)
    (hbits : ∀ q : Fin 4, bitOf (fieldAt msg 14 1) q.val = (q != p))
    (hst : s.lnState (s.posLane (s.rd .VLK_STAT_BUNDLE l.val) p.val) = lnService)
    (hk : s.posLane (s.rd .VLK_STAT_BUNDLE l.val) p.val < 24)
    (hrel : (s.lane (s.posLane (s.rd .VLK_STAT_BUNDLE l.val) p.val)).releasing = false) :
    Leads (.laneDown l msg) s fun t => t.lnState (s.posLane (s.rd .VLK_STAT_BUNDLE l.val) p.val) = lnRetry :=
  ⟨_, laneDown_one s hok hb hbits, State.lanesFail_retry (l := ⟨_, hk⟩) hst hrel _⟩

/-! ### Signal degrade (R91) -/

/-- The counts of a measurement. -/
def State.measured (s : State) (l : Nat) (m : BerMeas) : State :=
  (((s.bump64 .VLK_FEC_CW l m.codewords).bump64 .VLK_FEC_CORR l m.corrected).bump64 .VLK_FEC_SYM l m.symbols).wr
    .VLK_BERSEC_ERRBITS l (min m.errBits (2 ^ 32 - 1))

/-- One more bad second. -/
def State.badSecond (s : State) (l : Nat) : State := s.setLane l { s.lane l with badSecs := (s.lane l).badSecs + 1 }

/-- Signal degrade is declared. -/
def State.degraded (s : State) (l : Nat) : State :=
  if s.on .VLK_STAT_DEGRADE l = true then s
  else ((s.wr .VLK_STAT_DEGRADE l 1).flag .VLK_EVT_DEGRADE l).fault (srcLane l) 2 0 l

theorem exec_berMeasurement_bad {l : Lane} {m : BerMeas} (h : m.bits < m.errBits * 10000) : exec (.berMeasurement l m) s = .next
    (if ((s.measured l.val m).lane l.val).badSecs + 1 < 3 then (s.measured l.val m).badSecond l.val
      else (((s.measured l.val m).badSecond l.val).degraded l.val).degradeSwap l.val) :=
  congrArg Host.Outcome.next (if_pos h)

theorem State.lane_measured (l : Nat) (m : BerMeas) (k : Nat) : (s.measured l m).lane k = s.lane k := by
  rw [State.measured, State.lane_wr]
  exact State.lane_of_lanes (by rw [State.bump64_lanes, State.bump64_lanes, State.bump64_lanes]) _

theorem State.rd_measured (l : Nat) (m : BerMeas) {g : Fld} (h : (Fld.VLK_BERSEC_ERRBITS.apart g && Reg64.VLK_FEC_SYM.apart g &&
    Reg64.VLK_FEC_CORR.apart g && Reg64.VLK_FEC_CW.apart g) = true) : (s.measured l m).rd g l = s.rd g l := by
  simp only [Bool.and_eq_true] at h
  obtain ⟨⟨⟨hbits, hsym⟩, hcorr⟩, hcw⟩ := h
  rw [State.measured, State.rd_wr_apart _ hbits, State.bump64, State.rd_wr64_apart _ hsym, State.bump64,
    State.rd_wr64_apart _ hcorr, State.bump64, State.rd_wr64_apart _ hcw]

theorem State.degraded_effect (l : Lane) (h : s.on .VLK_STAT_DEGRADE l.val = false) :
    (s.degraded l.val).on .VLK_STAT_DEGRADE l.val = true ∧ (s.degraded l.val).on .VLK_EVT_DEGRADE l.val = true ∧
      ∀ g : Fld, (Fld.VLK_EVT_DEGRADE.apart g && Fld.VLK_STAT_DEGRADE.apart g && g.isVlk) = true →
        (s.degraded l.val).rd g l.val = s.rd g l.val := by
  rw [State.degraded, if_neg (by simp [h])]
  refine ⟨?_, ?_, fun g hg => ?_⟩
  · rw [State.on, State.rd_fault _ l (by decide) (by decide), State.flag, State.rd_wr_apart _ (by decide),
      State.rd_wr_same _ _ _ _ (by decide)]
    rfl
  · rw [State.on, State.rd_fault _ l (by decide) (by decide)]
    exact State.on_flag_same _ _ _ (by decide) (by decide)
  · simp only [Bool.and_eq_true] at hg
    rw [State.rd_fault _ l (by decide) hg.2, State.flag, State.rd_wr_apart _ hg.1.1, State.rd_wr_apart _ hg.1.2]

/-- A lane out of service is not swapped. -/
theorem State.degradeSwap_same {l : Nat} (h : s.lnState l ≠ lnService) : s.degradeSwap l = s := by
  unfold State.degradeSwap
  rw [show (s.lnState l == lnService) = false from beq_eq_false_iff_ne.mpr h]
  rfl

theorem berMeasurement_degrades {l : Lane} {m : BerMeas} (hbad : m.bits < m.errBits * 10000) (hsecs : (s.lane l.val).badSecs = 2)
    (hoff : s.on .VLK_STAT_DEGRADE l.val = false) (hst : s.lnState l.val ≠ lnService) : Leads (.berMeasurement l m) s fun t =>
      t.on .VLK_STAT_DEGRADE l.val = true ∧ t.on .VLK_EVT_DEGRADE l.val = true ∧ t.lnState l.val = s.lnState l.val ∧
        t.rd .VLK_BERSEC_ERRBITS l.val = min m.errBits (2 ^ 32 - 1) := by
  obtain ⟨hdegrade, hevt, hkept⟩ := ((s.measured l.val m).badSecond l.val).degraded_effect l (by
    rw [State.on, State.badSecond, State.rd_setLane, s.rd_measured _ _ (by decide)]; exact hoff)
  have hstate : (((s.measured l.val m).badSecond l.val).degraded l.val).lnState l.val = s.lnState l.val := by
    rw [State.lnState, hkept _ (by decide), State.badSecond, State.rd_setLane, s.rd_measured _ _ (by decide)]; rfl
  refine ⟨((s.measured l.val m).badSecond l.val).degraded l.val, ?_, hdegrade, hevt, hstate, ?_⟩
  · rw [exec_berMeasurement_bad s hbad, s.lane_measured, hsecs, if_neg (by decide), State.degradeSwap_same _ (hstate ▸ hst)]
  · rw [hkept _ (by decide), State.badSecond, State.rd_setLane, State.measured, State.rd_wr_same _ _ _ _ (by decide)]
    exact Nat.mod_eq_of_lt (lt_of_le_of_lt (Nat.min_le_right ..) (by decide))

/-! ### LANE_DOWN is repeated (R95) -/

/-- The message of a pending change for one position. -/
def State.changeMsg (s : State) (b : Nat) (c : EpochChange) (p : Nat) : Msg :=
  .lane (s.posLane b p) (laneMsg s.moduleId (s.posLane b p) (if c.planned then 6 else 5) s.laneCap
    (s.rd .VLK_STAT_RATE (s.posLane b p)) c.reason b p c.mask c.epoch c.replace 0)

/-- One message after the other, for the positions of a list that hold a lane. -/
theorem State.changes_sent (b : Nat) (c : EpochChange) (ps : List Nat) (x : List Msg) :
    ps.foldl (fun s p => if s.posLane b p < 24 then s.send (s.changeMsg b c p) else s) { s with sent := x } =
      { s with sent := ((ps.filter (fun p => s.posLane b p < 24)).map (s.changeMsg b c)).reverse ++ x } := by
  induction ps generalizing x with
  | nil => rfl
  | cons p r ih =>
    have hpos : ({ s with sent := x } : State).posLane b p = s.posLane b p := State.rd_of_regs rfl _ _
    by_cases h : s.posLane b p < 24
    · rw [List.foldl_cons, if_pos (hpos.symm ▸ h), List.filter_cons_of_pos (by simpa using h), List.map_cons, List.reverse_cons,
        List.append_assoc]
      exact ih _
    · rw [List.foldl_cons, if_neg (by rwa [hpos]), List.filter_cons_of_neg (by simpa using h)]
      exact ih x

theorem State.sendChange_eq {b : Nat} {c : EpochChange} (h : (s.bundle b).change = some c) : s.sendChange b =
    { s with sent := (((List.range 4).filter (fun p => s.posLane b p < 24)).map (s.changeMsg b c)).reverse ++ s.sent } := by
  rw [← s.changes_sent b c (List.range 4) s.sent, State.sendChange, h]
  rfl

theorem laneDownRepeat_sends {b : BundleId} {c : EpochChange} (h : (s.bundle b.val).change = some c) (hc : c.planned = false) :
    Leads (.laneDownRepeat b) s fun t => t.regs = s.regs ∧ t.lanes = s.lanes ∧ t.bundles = s.bundles ∧
      ∀ p : Fin 4, s.posLane b.val p.val < 24 → s.changeMsg b.val c p.val ∈ t.sent := by
  refine ⟨s.sendChange b.val, ?_, ?_⟩
  · show execLaneDownRepeat b s = _
    rw [execLaneDownRepeat, h]
    simp only [hc, Bool.false_eq_true, if_false]
  · rw [s.sendChange_eq h]
    refine ⟨rfl, rfl, rfl, fun p hp => List.mem_append_left _ (List.mem_reverse.mpr (List.mem_map_of_mem ?_))⟩
    simpa using hp

/-! ### The epoch follows the markers (R94, R117) -/

theorem State.scanSou_link (b : Nat) : ((s.scanSou b).link b).lostEou = false := by
  unfold State.scanSou
  split
  · rw [State.link_setLink_same]
  · next h => simpa using h

theorem State.scanSou_only (b : Nat) : s.scanSou b = { s with links := (s.scanSou b).links } := by
  unfold State.scanSou; split <;> rfl

theorem State.scanSou_same {b : Nat} (h : (s.link b).lostEou = false) : s.scanSou b = s := if_neg (by simp [h])

theorem epochMarker_followed {b : BundleId} {e : Byte} (h : (s.bundle b.val).change = none) : Leads (.epochMarker b e) s fun t =>
    t.rd .VLK_BSTAT_EPOCH b.val = e.toNat ∧ (∀ o, o ≠ Fld.VLK_BSTAT_EPOCH.at b.val → t.word o = s.word o) ∧
      (s.rd .VLK_BSTAT_EPOCH b.val ≠ e.toNat → (t.link b.val).lostEou = false) ∧
      ((s.link b.val).lostEou = false → OnlyWords [Fld.VLK_BSTAT_EPOCH.at b.val] s t) ∧
      t = { s with regs := t.regs, links := t.links } := by
  have hexec : exec (.epochMarker b e) s = .next (s.followEpoch b.val e.toNat) := by
    show execEpochMarker b e s = _
    rw [execEpochMarker, h]
  have hset : (s.wr .VLK_BSTAT_EPOCH b.val e.toNat).rd .VLK_BSTAT_EPOCH b.val = e.toNat := by
    rw [State.rd_wr_same _ _ _ _ (by decide)]; exact Nat.mod_eq_of_lt e.isLt
  have hword : ∀ o, o ≠ Fld.VLK_BSTAT_EPOCH.at b.val → (s.wr .VLK_BSTAT_EPOCH b.val e.toNat).word o = s.word o := fun o ho =>
    s.word_wr_other _ _ _ ho
  have honly : OnlyWords [Fld.VLK_BSTAT_EPOCH.at b.val] s (s.wr .VLK_BSTAT_EPOCH b.val e.toNat) :=
    (OnlyWords.refl s _).wr _ _ _ _ (List.mem_cons_self ..)
  refine ⟨_, hexec, ?_⟩
  by_cases he : s.rd .VLK_BSTAT_EPOCH b.val = e.toNat
  · rw [State.followEpoch, if_pos he]
    exact ⟨hset, hword, fun hne => absurd he hne, fun _ => honly, rfl⟩
  · rw [State.followEpoch, if_neg he]
    refine ⟨by rw [State.rd_scanSou, hset], fun o ho => ?_, fun _ => State.scanSou_link _ _, fun hlink => ?_, ?_⟩
    · rw [State.scanSou_only, ← hword o ho]; rfl
    · rw [State.scanSou_same _ ((congrArg Link.lostEou (s.link_wr ..)).trans hlink)]; exact honly
    · rw [State.scanSou_only]; rfl

/-! ### An epoch is not seen in time (R96) -/

theorem epochTimeout_resets {b : BundleId} {c : EpochChange} (h : (s.bundle b.val).change = some c) (hc : c.planned = false) :
    Leads (.epochTimeout b) s fun t => t.lanes = s.lanes ∧ t.bundles = s.bundles ∧
      (s.bundleUp b.val = true → (t.link b.val).unacked = [] ∧ t.on .VSN_LSTAT_INIT_DONE b.val = false) := by
  have hexec : exec (.epochTimeout b) s = .next ((s.fault (srcBundle b.val) 2 1 b.val).bundleReset b.val) := by
    show execEpochTimeout b s = _
    rw [execEpochTimeout, h]
    simp only [hc, Bool.false_eq_true, if_false]
  have hfault : Within { regs := true, faults := true } s (s.fault (srcBundle b.val) 2 1 b.val) := (Within.refl _ s).fault rfl rfl
  obtain ⟨hlanes, hbundles⟩ := hfault.lanes.resolve_left (by decide)
  obtain ⟨hlanes', hbundles'⟩ := (s.fault (srcBundle b.val) 2 1 b.val).bundleReset_keeps b.val
  refine ⟨_, hexec, hlanes'.trans hlanes, hbundles'.trans hbundles, fun hup => ?_⟩
  have hup' : (s.fault (srcBundle b.val) 2 1 b.val).bundleUp b.val = true := by
    rw [State.bundleUp, State.rd_fault _ b (by decide) (by decide)]; exact hup
  obtain ⟨hunacked, -, -, hinit, -, -⟩ := ((s.fault (srcBundle b.val) 2 1 b.val).detach b.val).startLink_effect b.val
  rw [State.bundleReset_eq, if_pos hup']
  exact ⟨hunacked, hinit⟩

end Sys2Proof.Machine

/-! # O9, the lanes that come back and the change that opens (R87, R94, R99, R101) -/

namespace Sys2Proof.Machine

variable (s : State)

/-! ### The map of a bundle shows which positions are in service -/

theorem State.laneMap_eq (b : Nat) : s.laneMap b = [s.posLane b 0, s.posLane b 1, s.posLane b 2, s.posLane b 3] := rfl

theorem maskOf_four (i j k n : Nat) : maskOf [i, j, k, n] =
    (if i < 24 then 1 else 0) + ((if j < 24 then 2 else 0) + ((if k < 24 then 4 else 0) + if n < 24 then 8 else 0)) := rfl

theorem State.maskOf_laneMap_lt (b : Nat) : maskOf (s.laneMap b) < 16 := by
  rw [s.laneMap_eq, maskOf_four]
  split_ifs <;> decide

/-- A position that holds a lane. -/
theorem State.maskOf_laneMap_ne_zero {b p : Nat} (hp : p < 4) (h : s.posLane b p < 24) : maskOf (s.laneMap b) ≠ 0 := by
  rw [s.laneMap_eq, maskOf_four]
  interval_cases p <;> rw [if_pos h] <;> omega

/-- A bundle with a position in service shows that alone, and is up. -/
theorem State.bundleState_served {b : Nat} (h : s.rd .VLK_BSTAT_MASK b ≠ 0) :
    s.bundleState b = s.bundleShown b ∧ (s.bundleShown b).bundleUp b = true := by
  refine ⟨?_, ?_⟩
  · rw [s.bundleState_eq, if_neg (by simp [h])]
  · rw [State.bundleUp, State.bundleShown, State.rd_wr_same _ _ _ _ (by decide)]
    by_cases h15 : s.rd .VLK_BSTAT_MASK b = 15
    · rw [if_pos h15]; rfl
    · rw [if_neg h15, if_pos h]; rfl

theorem State.rd_bundleShown {g : Fld} (h : Fld.VLK_BSTAT_STATE.apart g = true) (b : Nat) : (s.bundleShown b).rd g b = s.rd g b :=
  s.rd_wr_apart h b _

/-! ### A lane takes a position (R91, R99, R101) -/

theorem State.atHome_frame (l : Nat) : LaneFrame (fun _ => False) (· = l) (fun _ => False) s (s.atHome l) := by
  unfold State.atHome
  have hset : LaneFrame (fun _ => False) (· = l) (fun _ => False) s (s.setLane l { s.lane l with homing := false }) :=
    LaneFrame.setLane (.refl s) _ rfl
  exact .ite (hset.quiet (State.endLongOf_quiet ..)) (.refl s)

/-- A lane in service at a position, before its home role is noted. -/
def State.seated (s : State) (l b p : Nat) (subst : Bool) : State :=
  let t := ((s.wr .VLK_STAT_STATE l lnService).wr .VLK_STAT_BUNDLE l b).wr .VLK_STAT_POSITION l p
  if subst = true then t.flag .VLK_EVT_SUBST l else t

theorem State.enterService_eq (l b p : Nat) (subst : Bool) : s.enterService l b p subst =
    if l / 4 = b ∧ l % 4 = p then (s.seated l b p subst).atHome l else s.seated l b p subst := rfl

theorem State.seated_only (l b p : Nat) (subst : Bool) : LaneOnly l s (s.seated l b p subst) := by
  have h := (((LaneFrame.refl s : LaneOnly l s s).laneWr lnService (f := .VLK_STAT_STATE) rfl).laneWr b (f := .VLK_STAT_BUNDLE) rfl).laneWr p
    (f := .VLK_STAT_POSITION) rfl
  unfold State.seated
  exact .ite (h.laneWr _ rfl) h

theorem State.enterService_only (l b p : Nat) (subst : Bool) : LaneOnly l s (s.enterService l b p subst) := by
  rw [s.enterService_eq]
  exact .ite ((s.seated_only l b p subst).trans ((State.atHome_frame _ l).mono (fun _ => False.elim) (fun _ => id) fun _ => id))
    (s.seated_only l b p subst)

theorem State.enterService_effect (l : Lane) {b p : Nat} (hb : b < 5) (hp : p < 4) (subst : Bool) :
    (s.enterService l.val b p subst).lnState l.val = lnService ∧ (s.enterService l.val b p subst).rd .VLK_STAT_BUNDLE l.val = b ∧
      (s.enterService l.val b p subst).rd .VLK_STAT_POSITION l.val = p := by
  have hseated : ∀ g : Fld, (Fld.VLK_EVT_SUBST.apart g && g.isVlk) = true → (s.enterService l.val b p subst).rd g l.val =
      (((s.wr .VLK_STAT_STATE l.val lnService).wr .VLK_STAT_BUNDLE l.val b).wr .VLK_STAT_POSITION l.val p).rd g l.val := fun g hg => by
    simp only [Bool.and_eq_true] at hg
    have hhome : (s.enterService l.val b p subst).rd g l.val = (s.seated l.val b p subst).rd g l.val := by
      rw [s.enterService_eq]
      split
      · exact (State.atHome_frame _ _).rd (Fld.at_not_sideWord hg.2 (by omega)) id
      · rfl
    rw [hhome, State.seated]
    split
    · exact State.rd_wr_apart _ hg.1 _ _
    · rfl
  refine ⟨?_, ?_, ?_⟩
  · rw [State.lnState, hseated _ (by decide), State.rd_wr_apart _ (by decide), State.rd_wr_apart _ (by decide),
      State.rd_wr_same _ _ _ _ (by decide)]
    rfl
  · rw [hseated _ (by decide), State.rd_wr_apart _ (by decide), State.rd_wr_same _ _ _ _ (by decide)]
    exact Nat.mod_eq_of_lt (show b < 8 by omega)
  · rw [hseated _ (by decide), State.rd_wr_same _ _ _ _ (by decide)]
    exact Nat.mod_eq_of_lt hp

/-- A lane's own registers leave those of the bundles as they are. -/
theorem LaneFrame.rd_bundle {L B : Nat → Prop} {s t : State} {l : Nat} (h : LaneFrame (lanePage l) L B s t) (hl : l < 24)
    {f : Fld} (hf : f.isVlk = true) (hbase : 0x380000 ≤ f.base) (b : BundleId) : t.rd f b.val = s.rd f b.val :=
  h.rd (Fld.at_not_sideWord hf (by omega)) (not_lanePage hl (by simp only [Fld.at]; omega))

/-! ### A bundle comes back with its first lane (R87, R94, R99) -/

/-- The bundle under its next epoch, with its lane's rate and endpoint. -/
def State.raised (s : State) (b l : Nat) : State :=
  let t := (s.wr .VLK_BSTAT_EPOCH b (s.nextEpoch b)).setBundle b { s.bundle b with
    change := none, lost := false, gathering := false, fixed := some ((s.wr .VLK_BSTAT_EPOCH b (s.nextEpoch b)).rd .VLK_STAT_RATE l) }
  (t.wr .VLK_BSTAT_RATE b (t.rd .VLK_STAT_RATE l)).wr .VLK_BPEER_ENDPOINT b (t.rd .VLK_PEER_ENDPOINT l)

/-- Its lane in service at the position. -/
def State.manned (s : State) (b p l : Nat) : State :=
  let t := ((s.raised b l).setPos b p l).enterService l b p (l / 4 != b || l % 4 != p)
  t.wr .VLK_BSTAT_MASK b (maskOf (t.laneMap b))

theorem State.bringUp_eq (b p l : Nat) : s.bringUp b p l =
    (((((s.manned b p l).bundleState b).sendMarkers b).startLink b).setLive (srcBundle b) 1 3 false) := rfl

theorem State.raised_effect (b : BundleId) (l : Lane) :
    (s.raised b.val l.val).rd .VLK_BSTAT_EPOCH b.val = s.nextEpoch b.val ∧
      (s.raised b.val l.val).rd .VLK_BSTAT_RATE b.val = s.rd .VLK_STAT_RATE l.val := by
  have hrate : ∀ v, (s.wr .VLK_BSTAT_EPOCH b.val v).rd .VLK_STAT_RATE l.val = s.rd .VLK_STAT_RATE l.val := fun v =>
    s.rd_wr_bundleWord l (by decide) (by simp only [Fld.at, Fld.VLK_BSTAT_EPOCH]; omega) v
  refine ⟨?_, ?_⟩
  · rw [State.raised, State.rd_wr_apart _ (by decide), State.rd_wr_apart _ (by decide), State.rd_setBundle,
      State.rd_wr_same _ _ _ _ (by decide)]
    exact Nat.mod_eq_of_lt (s.nextEpoch_lt _)
  · rw [State.raised, State.rd_wr_apart _ (by decide), State.rd_wr_same _ _ _ _ (by decide), State.rd_setBundle, hrate]
    exact Nat.mod_eq_of_lt (s.rd_lt .VLK_STAT_RATE _)

theorem State.manned_effect (b : BundleId) (l : Lane) {p : Nat} (hp : p < 4) :
    let t := s.manned b.val p l.val
    t.lnState l.val = lnService ∧ t.rd .VLK_STAT_BUNDLE l.val = b.val ∧ t.rd .VLK_STAT_POSITION l.val = p ∧
      t.posLane b.val p = l.val ∧ t.rd .VLK_BSTAT_MASK b.val ≠ 0 ∧ t.rd .VLK_BSTAT_RATE b.val = s.rd .VLK_STAT_RATE l.val ∧
      t.rd .VLK_BSTAT_EPOCH b.val = s.nextEpoch b.val := by
  intro t
  let u := (s.raised b.val l.val).setPos b.val p l.val
  let v := u.enterService l.val b.val p (l.val / 4 != b.val || l.val % 4 != p)
  have hv : t = v.wr .VLK_BSTAT_MASK b.val (maskOf (v.laneMap b.val)) := rfl
  obtain ⟨hstate, hbundle, hposition⟩ := u.enterService_effect l b.isLt hp (l.val / 4 != b.val || l.val % 4 != p)
  have honly := u.enterService_only l.val b.val p (l.val / 4 != b.val || l.val % 4 != p)
  obtain ⟨hepoch, hrate⟩ := s.raised_effect b l
  have hpos : v.posLane b.val p = l.val := by
    rw [State.posLane_eq, honly.rd_bundle l.isLt (seatFld_isVlk p) (by simp [seatFld]), ← State.posLane_eq,
      State.posLane_setPos_same _ _ _ hp]
    exact Nat.mod_eq_of_lt (by omega)
  have hmask : 0x380000 ≤ Fld.VLK_BSTAT_MASK.at b.val := by simp only [Fld.at, Fld.VLK_BSTAT_MASK]; omega
  have hbstat : ∀ g : Fld, g.isVlk = true → 0x380000 ≤ g.base → (seatFld 0).base ≠ g.base → Fld.VLK_BSTAT_MASK.apart g = true →
      t.rd g b.val = (s.raised b.val l.val).rd g b.val := fun g hg hbase hseat hap => by
    rw [hv, State.rd_wr_apart _ hap, honly.rd_bundle l.isLt hg hbase, State.rd_setPos_apart _ _ _ _ hseat]
    simp only [Fld.isVlk, Bool.and_eq_true, beq_iff_eq] at hg
    exact hg.1
  refine ⟨?_, ?_, ?_, ?_, ?_, ?_, ?_⟩
  · rw [hv, State.lnState, State.rd_wr_bundleWord _ l (by decide) hmask]; exact hstate
  · rw [hv, State.rd_wr_bundleWord _ l (by decide) hmask]; exact hbundle
  · rw [hv, State.rd_wr_bundleWord _ l (by decide) hmask]; exact hposition
  · rw [hv, State.posLane_wr _ _ _ (by decide) rfl]; exact hpos
  · rw [hv, State.rd_wr_same _ _ _ _ (by decide), Nat.mod_eq_of_lt (show _ < 2 ^ Fld.VLK_BSTAT_MASK.w from v.maskOf_laneMap_lt _)]
    exact v.maskOf_laneMap_ne_zero hp (by omega)
  · rw [hbstat _ (by decide) (by decide) (by decide) (by decide), hrate]
  · rw [hbstat _ (by decide) (by decide) (by decide) (by decide), hepoch]

/-- What the bundle's start leaves of the registers of lanes and bundles: it shows its state. -/
theorem State.bringUp_rd (b : BundleId) (p l : Nat) (h : (s.manned b.val p l).rd .VLK_BSTAT_MASK b.val ≠ 0) {n : Nat} (i : Fin n)
    (hn : n ≤ 127) {f : Fld} (hf : f.isVlk = true) : (s.bringUp b.val p l).rd f i.val = ((s.manned b.val p l).bundleShown b.val).rd f i.val := by
  rw [s.bringUp_eq, State.rd_setLive _ i hn hf, State.rd_startLink _ i hn hf, State.rd_sendMarkers, (State.bundleState_served _ h).1]

theorem State.setLive_regs (a b c : Nat) (v : Bool) : (s.setLive a b c v).regs = s.regs :=
  have h : Within { faults := true } s (s.setLive a b c v) := (Within.refl _ s).setLive rfl
  h.regs.resolve_left (by decide)

theorem State.bringUp_init (b p l : Nat) : (s.bringUp b p l).on .VSN_LSTAT_INIT_DONE b = false := by
  rw [s.bringUp_eq, State.on_of_regs (State.setLive_regs _ _ _ _ _)]
  exact (State.startLink_effect _ b).2.2.2.1

/-! ### A lane has passed ALIGN (R87, R99, R101) -/

/-- The lane stands by, its loss over. -/
def State.standsBy (s : State) (l : Nat) : State :=
  (((s.laneBack l).setLocks l 1).wr .VLK_STAT_ATTEMPTS l 0).wr .VLK_STAT_STATE l lnStandby

theorem State.aligned_eq (l : Nat) : s.aligned l = (s.standsBy l).takeHome l := rfl

theorem exec_alignDone {l : Lane} {k : Nat} (hst : s.lnState l.val = lnAlign) (hk : k ≤ 500) :
    exec (.alignDone l k) s = .next (((s.standsBy l.val).takeHome l.val).homeState l.val) := by
  show execAlignDone l k s = _
  rw [execAlignDone, if_neg (not_not.mpr hst), if_neg hk.not_gt, State.aligned_eq]

theorem State.laneBack_frame (l : Nat) : LaneFrame (fun _ => False) (· = l) (fun _ => False) s (s.laneBack l) := by
  unfold State.laneBack
  extract_lets x t
  have ht : LaneFrame (fun _ => False) (· = l) (fun _ => False) s t := LaneFrame.quiet (.refl s) (s.setLive_quiet ..)
  exact .ite ht (((ht.quiet (State.repair_quiet ..)).setLane _ rfl).quiet (State.setLive_quiet ..))

theorem State.laneBack_spare (l : Nat) : ((s.laneBack l).lane l).spare = (s.lane l).spare := by
  unfold State.laneBack
  extract_lets x t
  split
  · rw [State.lane_setLive]
  · rw [State.lane_setLive, State.lane_setLane_same]

theorem State.standsBy_only (l : Nat) : LaneOnly l s (s.standsBy l) := by
  have hback : LaneOnly l s (s.laneBack l) := (s.laneBack_frame l).mono (fun _ => False.elim) (fun _ => id) fun _ => id
  exact ((((hback.laneWr 1 (f := .VLK_STAT_CLK_LOCK) rfl).laneWr 1 (f := .VLK_STAT_BLK_LOCK) rfl).laneWr 1
    (f := .VLK_STAT_MRK_LOCK) rfl).laneWr 0 (f := .VLK_STAT_ATTEMPTS) rfl).laneWr lnStandby (f := .VLK_STAT_STATE) rfl

theorem State.standsBy_effect (l : Lane) : (s.standsBy l.val).lnState l.val = lnStandby ∧
    (s.standsBy l.val).rd .VLK_STAT_ATTEMPTS l.val = 0 ∧ (s.standsBy l.val).isSpare l.val = s.isSpare l.val ∧
    (s.standsBy l.val).rd .VLK_STAT_RATE l.val = s.rd .VLK_STAT_RATE l.val ∧
    (s.standsBy l.val).rd .VLK_PEER_ENDPOINT l.val = s.rd .VLK_PEER_ENDPOINT l.val := by
  have hkept : ∀ g : Fld, (Fld.VLK_STAT_STATE.apart g && Fld.VLK_STAT_ATTEMPTS.apart g && lockFlds.all (·.apart g) && g.isVlk) = true →
      (s.standsBy l.val).rd g l.val = s.rd g l.val := fun g hg => by
    simp only [Bool.and_eq_true] at hg
    obtain ⟨⟨⟨hstate, hattempts⟩, hlocks⟩, hvlk⟩ := hg
    rw [State.standsBy, State.rd_wr_apart _ hstate, State.rd_wr_apart _ hattempts, State.rd_setLocks _ hlocks,
      (s.laneBack_frame l.val).rd (Fld.at_not_sideWord hvlk (by omega)) id]
  refine ⟨?_, ?_, ?_, hkept _ (by decide), hkept _ (by decide)⟩
  · rw [State.standsBy, State.lnState, State.rd_wr_same _ _ _ _ (by decide)]; rfl
  · rw [State.standsBy, State.rd_wr_apart _ (by decide), State.rd_wr_same _ _ _ _ (by decide)]; rfl
  · rw [State.isSpare, State.isSpare, State.standsBy, State.lane_wr, State.lane_wr, State.lane_setLocks, s.laneBack_spare]

/-- A lane fails ALIGN as it fails a step. -/
theorem alignDone_fails {l : Lane} {k : Nat} (hst : s.lnState l.val = lnAlign) (hk : 500 < k) (hatt : s.rd .VLK_STAT_ATTEMPTS l.val < 2) :
    Leads (.alignDone l k) s fun t => t.lnState l.val = lnRetry := by
  refine ⟨(s.sendStep l.val 4 3 0).failAttempt l.val, ?_, (State.failAttempt_retry _ (by simpa only [State.rd_sendStep] using hatt)).1⟩
  show execAlignDone l k s = _
  rw [execAlignDone, if_neg (not_not.mpr hst), if_pos hk]

/-- A home spare stands by where no bundle was lost whole. -/
theorem alignDone_spare {l : Lane} {k : Nat} (hst : s.lnState l.val = lnAlign) (hk : k ≤ 500) (hl : 20 ≤ l.val)
    (hlost : ∀ b : BundleId, (s.bundle b.val).lost = false) :
    Leads (.alignDone l k) s fun t => t.lnState l.val = lnStandby ∧ t.rd .VLK_STAT_ATTEMPTS l.val = 0 := by
  obtain ⟨hstate, hattempts, -, -, -⟩ := s.standsBy_effect l
  have hnone : (s.standsBy l.val).lostBundle l.val = none := by
    rw [State.lostBundle, if_neg (by omega)]
    refine List.find?_eq_none.mpr fun b hb => ?_
    rw [(s.standsBy_only l.val).bundle b id, hlost ⟨b, List.mem_range.mp hb⟩]
    simp
  have htake : (s.standsBy l.val).takeHome l.val = (s.standsBy l.val).atHome l.val := by
    have hspare : (s.standsBy l.val).isSpare l.val = true := by simp [State.isSpare, hl]
    have hstand : (s.standsBy l.val).standSpare l.val = s.standsBy l.val := by
      rw [State.standSpare, hnone]
      exact if_neg (by omega)
    rw [State.takeHome, if_pos hspare, hstand]
  have hkept : ∀ f : Fld, f.isLane = true → ((((s.standsBy l.val).takeHome l.val).homeState l.val).rd f l.val) =
      (s.standsBy l.val).rd f l.val := fun f hf => by
    rw [State.rd_homeState_lane _ l hf, htake, (State.atHome_frame _ _).rd (Fld.at_not_sideWord (Fld.isVlk_of_isLane hf) (by omega)) id]
  exact ⟨_, exec_alignDone s hst hk, (hkept _ (by decide)).trans hstate, (hkept _ (by decide)).trans hattempts⟩

/-- A home lane at its bundle's rate and endpoint brings the bundle up at its home position. -/
theorem State.takeHome_bringsUp {l b : Nat} (hb : l / 4 = b) (hspare : s.isSpare l = false) (hdown : s.bundleUp b = false)
    (hfixed : (s.bundle b).fixed = some (s.rd .VLK_STAT_RATE l)) (hep : s.rd .VLK_PEER_ENDPOINT l = s.rd .VLK_BPEER_ENDPOINT b) :
    s.takeHome l = s.bringUp b (l % 4) l := by
  subst hb
  simp [State.takeHome, hspare, hdown, hfixed, hep]

theorem alignDone_bringsUp {l : Lane} {b : BundleId} {k : Nat} (hb : l.val / 4 = b.val) (hst : s.lnState l.val = lnAlign) (hk : k ≤ 500)
    (hspare : s.isSpare l.val = false) (hdown : s.bundleUp b.val = false) (hfixed : (s.bundle b.val).fixed = some (s.rd .VLK_STAT_RATE l.val))
    (hep : s.rd .VLK_PEER_ENDPOINT l.val = s.rd .VLK_BPEER_ENDPOINT b.val) : Leads (.alignDone l k) s fun t =>
      t.lnState l.val = lnService ∧ t.rd .VLK_STAT_BUNDLE l.val = b.val ∧ t.rd .VLK_STAT_POSITION l.val = l.val % 4 ∧
        t.posLane b.val (l.val % 4) = l.val ∧ t.bundleUp b.val = true ∧ t.rd .VLK_BSTAT_RATE b.val = s.rd .VLK_STAT_RATE l.val ∧
        t.rd .VLK_BSTAT_EPOCH b.val = s.nextEpoch b.val ∧ t.on .VSN_LSTAT_INIT_DONE b.val = false := by
  have honly := s.standsBy_only l.val
  have hkept : ∀ f : Fld, f.isVlk = true → 0x380000 ≤ f.base → (s.standsBy l.val).rd f b.val = s.rd f b.val := fun f hf hbase =>
    honly.rd_bundle l.isLt hf hbase b
  obtain ⟨-, -, hspare', hrate', hep'⟩ := s.standsBy_effect l
  have htake : (s.standsBy l.val).takeHome l.val = (s.standsBy l.val).bringUp b.val (l.val % 4) l.val := by
    refine State.takeHome_bringsUp _ hb (hspare'.trans hspare) ?_ ?_ ?_
    · rw [State.bundleUp, hkept _ (by decide) (by decide)]; exact hdown
    · rw [honly.bundle _ id, hrate']; exact hfixed
    · rw [hep', hkept _ (by decide) (by decide)]; exact hep
  have hnext : (s.standsBy l.val).nextEpoch b.val = s.nextEpoch b.val :=
    State.nextEpoch_of (honly.bundle _ id) (hkept _ (by decide) (by decide))
  obtain ⟨hstate, hbundle, hposition, hpos, hmask, hrate, hepoch⟩ :=
    (s.standsBy l.val).manned_effect b l (Nat.mod_lt l.val (by decide : 0 < 4))
  let u := (s.standsBy l.val).bringUp b.val (l.val % 4) l.val
  have hu : ∀ {n : Nat} (i : Fin n), n ≤ 127 → ∀ {f : Fld}, f.isVlk = true →
      u.rd f i.val = (((s.standsBy l.val).manned b.val (l.val % 4) l.val).bundleShown b.val).rd f i.val :=
    fun i hn _ hf => State.bringUp_rd _ b _ _ hmask i hn hf
  have hlane : ∀ {f : Fld}, f.isLane = true → (u.bundleShown b.val).rd f l.val =
      ((s.standsBy l.val).manned b.val (l.val % 4) l.val).rd f l.val := fun {f} hf => by
    have hstat : 0x380000 ≤ Fld.VLK_BSTAT_STATE.at b.val := by simp only [Fld.at, Fld.VLK_BSTAT_STATE]; omega
    rw [State.bundleShown, State.rd_wr_bundleWord _ l hf hstat, hu l (by decide) (Fld.isVlk_of_isLane hf), State.bundleShown,
      State.rd_wr_bundleWord _ l hf hstat]
  have hbstat : ∀ {f : Fld}, f.isVlk = true → Fld.VLK_BSTAT_STATE.apart f = true → (u.bundleShown b.val).rd f b.val =
      ((s.standsBy l.val).manned b.val (l.val % 4) l.val).rd f b.val := fun hf hap => by
    rw [State.rd_bundleShown _ hap, hu b (by decide) hf, State.rd_bundleShown _ hap]
  have hserved : u.rd .VLK_BSTAT_MASK b.val ≠ 0 := by
    rw [hu b (by decide) (by decide), State.rd_bundleShown _ (by decide)]; exact hmask
  obtain ⟨hshown, hup⟩ := u.bundleState_served hserved
  have hexec : exec (.alignDone l k) s = .next (u.bundleShown b.val) := by
    rw [exec_alignDone s hst hk, htake, State.homeState, if_pos (by omega), hb, hshown]
  refine ⟨_, hexec, (hlane (by decide)).trans hstate, (hlane (by decide)).trans hbundle, (hlane (by decide)).trans hposition, ?_, hup,
    ?_, ?_, ?_⟩
  · rw [State.posLane_eq, hbstat (seatFld_isVlk _) (by simp [Fld.apart, seatFld, Fld.VLK_BSTAT_STATE]), ← State.posLane_eq, hpos]
  · rw [hbstat (by decide) (by decide), hrate, hrate']
  · rw [hbstat (by decide) (by decide), hepoch, hnext]
  · have hinit := State.bringUp_init (s.standsBy l.val) b.val (l.val % 4) l.val
    have hword : Fld.VSN_LSTAT_INIT_DONE.at b.val ≠ Fld.VLK_BSTAT_STATE.at b.val := by
      simp only [Fld.at, Fld.VSN_LSTAT_INIT_DONE, Fld.VLK_BSTAT_STATE]; omega
    rw [State.on, State.bundleShown, State.rd_wr_other _ _ _ _ _ _ (.inl hword)]
    exact hinit

end Sys2Proof.Machine

/-! # An announced change opens (R94): settles O9 -/

namespace Sys2Proof.Machine

variable (s : State)

/-! ### No lane is newly on its way home (R101) -/

/-- Lanes that are not on their way home stay so. -/
def KeepsHome (s t : State) : Prop := ∀ i, (s.lane i).homing = false → (t.lane i).homing = false

theorem KeepsHome.refl (s : State) : KeepsHome s s := fun _ => id

theorem KeepsHome.trans {s t u : State} (h : KeepsHome s t) (k : KeepsHome t u) : KeepsHome s u := fun i hi => k i (h i hi)

/-- A step of one lane that keeps the lane's own. -/
theorem LaneFrame.keepsHome {W B : Nat → Prop} {s t : State} {l : Nat} (h : LaneFrame W (· = l) B s t)
    (hl : (s.lane l).homing = false → (t.lane l).homing = false) : KeepsHome s t := fun i hi => by
  by_cases hil : i = l
  · exact hil ▸ hl (hil ▸ hi)
  · rw [h.lane i hil]; exact hi

theorem State.lane_checkPats (l k : Nat) : (s.checkPats l).lane k = s.lane k := by
  unfold State.checkPats
  extract_lets u
  have hu : u.lane k = s.lane k := by
    unfold u
    split
    · rw [State.lane_flag, State.lane_wr]
    · rfl
  split
  · rw [State.lane_flag, State.lane_wr, State.lane_wr, hu]
  · exact hu

theorem State.testRate_homing (l r : Nat) : ((s.testRate l r).lane l).homing = (s.lane l).homing := by
  unfold State.testRate
  split
  · rw [s.lane_checkPats]
  · rw [State.lane_checkPats, State.lane_setLane_same]
    simp only [State.lane_wr, State.settle, State.lane_put, State.lane_wr64, State.lane_setLane_same]

theorem State.enterTest_homing (l : Nat) (ret : Bool) : ((s.enterTest l ret).lane l).homing = (s.lane l).homing := by
  unfold State.enterTest
  extract_lets v
  have hv : (v.lane l).homing = (s.lane l).homing := by
    rw [State.testRate_homing, State.lane_wr, State.lane_put, State.lane_wr]
  split
  · rw [State.enterRaw, State.lane_wr, (State.drawn_quiet _).lane l id, State.lane_wr64]; exact hv
  · exact hv

theorem State.atHome_home (l : Nat) : ((s.atHome l).lane l).homing = false := by
  unfold State.atHome
  split
  · rw [State.lane_endLongOf, State.lane_setLane_same]
  · next h => simpa using h

/-! ### Lanes leave and lanes take their positions -/

/-- A lane leaves service: its registers and its record alone. -/
theorem State.leaveService_only (l : Nat) : LaneOnly l s (s.leaveService l) := by
  unfold State.leaveService
  extract_lets x u
  have hu : LaneOnly l s u := ((LaneFrame.refl s).laneWr _ rfl).laneWr _ rfl
  have hlocks : ∀ y, LaneOnly l s ((u.setLane l y).setLocks l 0) := fun y => (((hu.laneSet y).laneWr 0 (f := .VLK_STAT_CLK_LOCK) rfl).laneWr 0
    (f := .VLK_STAT_BLK_LOCK) rfl).laneWr 0 (f := .VLK_STAT_MRK_LOCK) rfl
  split
  · exact ((hlocks _).trans (State.enterTest_only ..)).quiet (State.endLongOf_quiet ..)
  · split
    · exact (((hlocks _).laneWr _ rfl).laneWr _ rfl).quiet (State.setLive_quiet ..)
    · exact (hu.laneWr _ rfl).laneSet _

theorem State.leaveService_homing (l : Nat) : ((s.leaveService l).lane l).homing = (s.lane l).homing := by
  unfold State.leaveService
  extract_lets x u
  split
  · rw [State.lane_endLongOf, State.enterTest_homing, State.lane_setLocks, State.lane_setLane_same]
  · split
    · rw [State.lane_setLive, State.lane_wr, State.lane_wr, State.lane_setLocks, State.lane_setLane_same]
    · rw [State.lane_setLane_same]

/-- The registers of the lanes. -/
def lanesWord (o : Nat) : Prop := 0x300000 ≤ o ∧ o < 0x318000

theorem lanePage_lanesWord {l o : Nat} (hl : l < 24) (h : lanePage l o) : lanesWord o := by
  simp only [lanePage] at h
  simp only [lanesWord]
  omega

/-- The lanes of a list leave. -/
theorem State.leaveAll_frame {ls : List Nat} (hls : ∀ l ∈ ls, l < 24) :
    LaneFrame lanesWord (fun _ => True) (fun _ => False) s (ls.foldl (fun t l => t.leaveService l) s) :=
  .foldl ls (fun t l hl => (t.leaveService_only l).mono (fun _ => lanePage_lanesWord (hls l hl)) (fun _ _ => trivial) fun _ => id) (.refl s)

theorem State.leaveAll_home (ls : List Nat) : KeepsHome s (ls.foldl (fun t l => t.leaveService l) s) := by
  induction ls generalizing s with
  | nil => exact .refl s
  | cons l r ih => exact ((s.leaveService_only l).keepsHome fun h => (s.leaveService_homing l).trans h).trans (ih _)

/-- One position of the new set. -/
def State.seat (s : State) (b p n : Nat) (old : List Nat) : State :=
  if (decide (n < 24) && !old.contains n) = true then (s.setPos b p n).enterService n b p (n / 4 != b || n % 4 != p) else s.setPos b p n

theorem State.enterService_home (l b p : Nat) (subst : Bool) : KeepsHome s (s.enterService l b p subst) := by
  have hseated : (s.seated l b p subst).lane l = s.lane l := by
    unfold State.seated
    extract_lets t
    have ht : t.lane l = s.lane l := by unfold t; rw [State.lane_wr, State.lane_wr, State.lane_wr]
    split
    · rw [State.lane_flag, ht]
    · exact ht
  refine (s.enterService_only l b p subst).keepsHome fun h => ?_
  rw [s.enterService_eq]
  split
  · exact State.atHome_home _ _
  · rw [hseated]; exact h

theorem State.setPos_home (b p n : Nat) : KeepsHome s (s.setPos b p n) := fun i hi => by
  rw [State.setPos_eq, State.lane_wr]; exact hi

theorem State.seat_home (b p n : Nat) (old : List Nat) : KeepsHome s (s.seat b p n old) := by
  unfold State.seat
  split
  · exact (s.setPos_home b p n).trans (State.enterService_home _ _ _ _ _)
  · exact s.setPos_home b p n

/-- It touches the registers of the lane that enters and the positions of the bundle. -/
theorem State.seat_frame (b p n : Nat) (old : List Nat) :
    LaneFrame (fun o => lanesWord o ∨ o = (seatFld 0).at b) (fun _ => True) (fun _ => False) s (s.seat b p n old) := by
  have hpos : LaneFrame (fun o => lanesWord o ∨ o = (seatFld 0).at b) (fun _ => True) (fun _ => False) s (s.setPos b p n) :=
    (LaneFrame.refl s).wr _ (.inl (.inr rfl))
  unfold State.seat
  split
  · next h =>
    simp only [Bool.and_eq_true, decide_eq_true_eq] at h
    exact hpos.trans ((State.enterService_only ..).mono (fun _ ho => .inl (lanePage_lanesWord h.1 ho)) (fun _ _ => trivial) fun _ => id)
  · exact hpos

/-- What it leaves of the positions. -/
theorem State.seat_posLane (b : BundleId) (p n : Nat) (old : List Nat) (q : Nat) :
    (s.seat b.val p n old).posLane b.val q = (s.setPos b.val p n).posLane b.val q := by
  unfold State.seat
  split
  · next h =>
    simp only [Bool.and_eq_true, decide_eq_true_eq] at h
    exact (State.enterService_only ..).rd_bundle h.1 (seatFld_isVlk q) (by simp [seatFld]) b
  · rfl

/-- All four positions of the new set. -/
def State.seatAll (s : State) (b : Nat) (map old : List Nat) : State := forN 4 (fun t p => t.seat b p (map.getD p 31) old) s

theorem State.seatAll_posLane (b : BundleId) (map old : List Nat) (q : Fin 4) :
    (s.seatAll b.val map old).posLane b.val q.val = map.getD q.val 31 % 32 := by
  obtain ⟨t, -, hafter⟩ := forN_around s (f := fun t p => t.seat b.val p (map.getD p 31) old)
    (R := fun t u => u.posLane b.val q.val = t.posLane b.val q.val) (fun _ => rfl) (fun h k => k.trans h)
    (fun t p hp hne => (t.seat_posLane b _ _ _ _).trans (t.posLane_setPos_other _ _ hp (Ne.symm hne))) q.isLt
  rw [State.seatAll, hafter, t.seat_posLane, State.posLane_setPos_same _ _ _ q.isLt]

theorem State.seatAll_home (b : Nat) (map old : List Nat) : KeepsHome s (s.seatAll b map old) :=
  State.forN_induct s (KeepsHome s) _ _ (.refl s) fun t p h => h.trans (t.seat_home b p _ old)

theorem State.seatAll_frame (b : Nat) (map old : List Nat) :
    LaneFrame (fun o => lanesWord o ∨ o = (seatFld 0).at b) (fun _ => True) (fun _ => False) s (s.seatAll b map old) :=
  .forN (fun t p _ => t.seat_frame b p _ old) (.refl s)

/-! ### The change opens -/

/-- The lanes that the change takes out of service. -/
def State.leavers (s : State) (b : Nat) (c : EpochChange) : List Nat :=
  (s.laneMap b).filter (fun o => decide (o < 24) && !c.map.contains o)

/-- The lanes of the old and the new set have left and taken their positions. -/
def State.reseated (s : State) (b : Nat) (c : EpochChange) : State :=
  ((s.leavers b c).foldl (fun t o => t.leaveService o) (s.setBundle b { s.bundle b with change := none, lost := false })).seatAll b c.map
    (s.laneMap b)

/-- The new set is shown under its epoch, and its markers leave. -/
def State.epochShown (s : State) (b : Nat) (c : EpochChange) : State :=
  ((((s.wr .VLK_BSTAT_MASK b c.mask).wr .VLK_BSTAT_EPOCH b c.epoch).bundleState b).sendMarkers b).scanSou b

/-- The link layer of a bundle that comes up by it starts. -/
def State.linkOpened (s : State) (b : Nat) (wasUp : Bool) : State :=
  if (s.bundleUp b && !wasUp) = true then
    (s.setBundle b { s.bundle b with fixed := some (s.rd .VLK_BSTAT_RATE b), gathering := false }).startLink b
  else s

theorem State.openEpoch_eq (b : Nat) (c : EpochChange) : s.openEpoch b c =
    (s.leavers b c).foldl (fun t o => if ((t.lane o).homing && t.lnState o == lnStandby) = true then t.takeHome o else t)
      (((s.reseated b c).epochShown b c).linkOpened b (s.bundleUp b)) := rfl

theorem State.reseated_home (b : Nat) (c : EpochChange) : KeepsHome s (s.reseated b c) := by
  have hset : KeepsHome s (s.setBundle b { s.bundle b with change := none, lost := false }) := fun i hi => by
    rw [State.lane_setBundle]; exact hi
  exact (hset.trans (State.leaveAll_home _ _)).trans (State.seatAll_home _ _ _ _)

theorem State.reseated_change (b : Nat) (c : EpochChange) : ((s.reseated b c).bundle b).change = none := by
  have hleave := (s.setBundle b { s.bundle b with change := none, lost := false }).leaveAll_frame (ls := s.leavers b c) fun l hl => by
    have h := (List.mem_filter.mp hl).2
    simp only [Bool.and_eq_true, decide_eq_true_eq] at h
    exact h.1
  rw [State.reseated, (State.seatAll_frame ..).bundle b id, hleave.bundle b id, State.bundle_setBundle_same]

/-- Showing the epoch changes of lanes and bundles only the state of the one. -/
theorem State.epochShown_lane (b : Nat) (c : EpochChange) (l : Nat) : (s.epochShown b c).lane l = s.lane l := by
  rw [State.epochShown, (State.scanSou_quiet _ b).lane l id, (State.sendMarkers_quiet _ b).lane l id, State.lane_bundleState,
    State.lane_wr, State.lane_wr]

theorem State.epochShown_change (b : Nat) (c : EpochChange) : ((s.epochShown b c).bundle b).change = (s.bundle b).change := by
  rw [State.epochShown, (State.scanSou_quiet _ b).bundle b id, (State.sendMarkers_quiet _ b).bundle b id, State.bundleState_change,
    State.bundle_wr, State.bundle_wr]

theorem State.rd_epochShown (b : BundleId) (c : EpochChange) {f : Fld} (hf : f.isVlk = true) (hap : Fld.VLK_BSTAT_STATE.apart f = true) :
    (s.epochShown b.val c).rd f b.val = ((s.wr .VLK_BSTAT_MASK b.val c.mask).wr .VLK_BSTAT_EPOCH b.val c.epoch).rd f b.val := by
  rw [State.epochShown, State.rd_scanSou, State.rd_sendMarkers, State.rd_bundleState _ b (by decide) hf, State.rd_bundleShown _ hap]

theorem State.linkOpened_frame (b : Nat) (wasUp : Bool) :
    LaneFrame (fun _ => False) (fun _ => False) (· = b) s (s.linkOpened b wasUp) := by
  have hset : LaneFrame (fun _ => False) (fun _ => False) (· = b) s
      (s.setBundle b { s.bundle b with fixed := some (s.rd .VLK_BSTAT_RATE b), gathering := false }) := LaneFrame.setBundle (.refl s) _ rfl
  unfold State.linkOpened
  exact .ite (hset.quiet (State.startLink_quiet ..)) (.refl s)

theorem State.linkOpened_change (b : Nat) (wasUp : Bool) : ((s.linkOpened b wasUp).bundle b).change = (s.bundle b).change := by
  unfold State.linkOpened
  split
  · rw [(State.startLink_quiet _ b).bundle b id, State.bundle_setBundle_same]
  · rfl

/-- A fold whose steps all leave the state. -/
theorem foldl_same {α : Type} {g : State → α → State} {s : State} {l : List α} (h : ∀ x ∈ l, g s x = s) : l.foldl g s = s := by
  induction l with
  | nil => rfl
  | cons x r ih =>
    rw [List.foldl_cons, h x (List.mem_cons_self ..)]
    exact ih fun y hy => h y (List.mem_cons_of_mem _ hy)

theorem epochMarker_opens {b : BundleId} {e : Byte} {c : EpochChange} (h : (s.bundle b.val).change = some c) (he : c.epoch = e.toNat)
    (hhome : ∀ i : Lane, (s.lane i.val).homing = false) : Leads (.epochMarker b e) s fun t =>
      t.rd .VLK_BSTAT_EPOCH b.val = e.toNat ∧ t.rd .VLK_BSTAT_MASK b.val = c.mask % 16 ∧ (t.bundle b.val).change = none ∧
        ∀ p : Fin 4, t.posLane b.val p.val = c.map.getD p.val 31 % 32 := by
  let t := s.reseated b.val c
  let u := (t.epochShown b.val c).linkOpened b.val (s.bundleUp b.val)
  have hlink := (t.epochShown b.val c).linkOpened_frame b.val (s.bundleUp b.val)
  have hstay : s.openEpoch b.val c = u := by
    rw [s.openEpoch_eq]
    refine foldl_same fun o ho => if_neg ?_
    have hlt : o < 24 := by
      have h := (List.mem_filter.mp ho).2
      simp only [Bool.and_eq_true, decide_eq_true_eq] at h
      exact h.1
    have hlane : (u.lane o).homing = false := by
      rw [hlink.lane o id, t.epochShown_lane]
      exact s.reseated_home b.val c o (hhome ⟨o, hlt⟩)
    rw [show ((t.epochShown b.val c).linkOpened b.val (s.bundleUp b.val)).lane o = u.lane o from rfl, hlane]
    simp
  have hexec : exec (.epochMarker b e) s = .next u := by
    show execEpochMarker b e s = _
    rw [execEpochMarker, h]
    exact congrArg _ ((if_pos he).trans hstay)
  have hbstat : ∀ {f : Fld}, f.isVlk = true → Fld.VLK_BSTAT_STATE.apart f = true →
      u.rd f b.val = ((t.wr .VLK_BSTAT_MASK b.val c.mask).wr .VLK_BSTAT_EPOCH b.val c.epoch).rd f b.val := fun hf hap => by
    rw [hlink.rd (Fld.at_not_sideWord hf (by omega)) id, t.rd_epochShown b c hf hap]
  refine ⟨u, hexec, ?_, ?_, ?_, fun p => ?_⟩
  · rw [hbstat (by decide) (by decide), State.rd_wr_same _ _ _ _ (by decide), he]
    exact Nat.mod_eq_of_lt e.isLt
  · rw [hbstat (by decide) (by decide), State.rd_wr_apart _ (by decide), State.rd_wr_same _ _ _ _ (by decide)]
    rfl
  · rw [State.linkOpened_change, t.epochShown_change, s.reseated_change]
  · rw [State.posLane_eq, hbstat (seatFld_isVlk _) (by simp [Fld.apart, seatFld, Fld.VLK_BSTAT_STATE]), ← State.posLane_eq,
      State.posLane_wr _ _ _ (by decide) rfl, State.posLane_wr _ _ _ (by decide) rfl]
    exact State.seatAll_posLane _ b _ _ p

/-! ### The clauses -/

/-- Settles O9, by one lemma for each event. -/
theorem laneLossAndEpochs : Obligations.LaneLossAndEpochs := by
  intro s l
  refine ⟨fun hst hb => laneLossOfLock_lost s hst hb, fun hrate hfew => uncorrectableCodeword_counts s hrate hfew,
    fun hrate hst hrel hmany => uncorrectableCodeword_third s hrate hst hrel hmany,
    fun m hbad hsecs hoff hst => berMeasurement_degrades s hbad hsecs hoff hst,
    fun k hst hk hatt => alignDone_fails s hst hk hatt, fun k hst hk hl hlost => alignDone_spare s hst hk hl hlost, fun k => ?_,
    fun msg _ _ hbits => laneDown_none s hbits, fun msg p hok hb hbits hst hk hrel => laneDown_retries s hok hb hbits hst hk hrel,
    fun b => ⟨fun c h hc => ?_, fun e h => epochMarker_followed s h, fun e c h he hhome => epochMarker_opens s h he hhome,
      fun c h hc => epochTimeout_resets s h hc⟩⟩
  · intro b hst hk hspare hdown hfixed hep
    have hl : l.val < 20 := by
      rw [State.isSpare, Bool.or_eq_false_iff, decide_eq_false_iff_not] at hspare
      omega
    exact alignDone_bringsUp s (b := ⟨l.val / 4, by omega⟩) rfl hst hk hspare hdown hfixed hep
  · obtain ⟨t, hexec, hregs, hlanes, hbundles, hsent⟩ := laneDownRepeat_sends s h hc
    refine ⟨t, hexec, hregs, hlanes, hbundles, fun p hp => ?_⟩
    have hmsg := hsent p hp
    rw [State.changeMsg, hc] at hmsg
    exact hmsg

end Sys2Proof.Machine

/-! # A held frame of a bundle that the module does not have (R124, R144) -/

namespace Sys2Proof.Machine

/-- Flow 0 holds one frame, noted as of bundle 240. The module has no such bundle, but the statement does not leave it out, and the
credit limit of one would have the address of `VSN_FNEXT` of flow 0. -/
def heldBeyond : State := State.reset.setFlow 0 { State.reset.flow 0 with held := [(240, [])] }

theorem heldBeyond_accepts : heldBeyond.suspended = false ∧ heldBeyond.awaitsDeal (fCount []) = false ∧
    heldBeyond.waitsOpen [] = false ∧ heldBeyond.frameLate [] = false ∧ heldBeyond.fmtBad [] = false := by decide +kernel

/-- The sequence expected next goes up twice: by the acceptance, and by the credit that the frame gives back (R124). -/
theorem heldBeyond_next : heldBeyond.rd .VSN_FNEXT_NEXT 0 = 0 ∧
    (stateOf (exec (.heldFrameAcceptance 0) heldBeyond) heldBeyond).rd .VSN_FNEXT_NEXT 0 = 2 := by decide +kernel

/-- Refutes O22: the statement takes a held frame of any bundle number. Acceptance ends with the frame's credits, which go to the
registers of that bundle, and for bundle 240 these are `VSN_FNEXT` and `VSN_FACC` of flow 0: the sequence of an accepted frame is
then counted on by two. -/
theorem not_heldFrames : ¬ Obligations.HeldFrames := by
  intro h
  obtain ⟨-, haccept⟩ := h heldBeyond 0 240 [] [] rfl rfl
  obtain ⟨hrun, hdeal, hopen, hlate, hfmt⟩ := heldBeyond_accepts
  obtain ⟨hacc, -, -⟩ := haccept hrun hdeal hopen
  obtain ⟨t, ht, hnext, -⟩ := hacc hlate hfmt
  obtain ⟨hbefore, hafter⟩ := heldBeyond_next
  rw [ht] at hafter
  have htwo : (2 : Nat) = (0 + 1) % 2 ^ 32 := hafter.symm.trans (hnext.trans (congrArg (fun n => (n + 1) % 2 ^ 32) hbefore))
  exact absurd htwo (by decide)

end Sys2Proof.Machine

/-! # The rules of the link layer: what a unit does (R92, R93, R117 to R121) -/

namespace Sys2Proof.Machine

variable (s : State)

/-! ### Messages that have left -/

theorem newMsgs_append {s t u : State} (hst : s.sent <:+ t.sent) (htu : t.sent <:+ u.sent) : newMsgs s u = newMsgs t u ++ newMsgs s t := by
  obtain ⟨l, hl⟩ := hst
  obtain ⟨k, hk⟩ := htu
  simp only [newMsgs, ← hk, ← hl, List.length_append]
  rw [show k.length + (l.length + s.sent.length) - (l.length + s.sent.length) = k.length by omega,
    show k.length + (l.length + s.sent.length) - s.sent.length = k.length + l.length by omega,
    show l.length + s.sent.length - s.sent.length = l.length by omega]
  simp [List.take_append]

theorem unitsSent_append (b : Nat) {s t u : State} (hst : s.sent <:+ t.sent) (htu : t.sent <:+ u.sent) :
    unitsSent b s u = unitsSent b s t ++ unitsSent b t u := by
  simp [unitsSent, newMsgs_append hst htu]

theorem unitsSent_of_sent (b : Nat) {s t : State} (h : t.sent = s.sent) : unitsSent b s t = [] := by
  simp [unitsSent, newMsgs, h]

theorem unitsSent_of_unit {b : Nat} {s t : State} {u : List Byte} {items : List (Nat × StripeItem)}
    (h : t.sent = .unit b u items :: s.sent) : unitsSent b s t = [u] := by
  simp [unitsSent, newMsgs, h]

/-! ### A word is dealt (R92, R93) -/

@[simp] theorem dealtBytes_nil : dealtBytes [] = [] := rfl

theorem dealtBytes_append (l m : List (Nat × StripeItem)) : dealtBytes (l ++ m) = dealtBytes l ++ dealtBytes m :=
  List.flatMap_append

@[simp] theorem dealtBytes_word (p : Nat) (w : List Byte) (l : List (Nat × StripeItem)) :
    dealtBytes ((p, .word w) :: l) = w ++ dealtBytes l := rfl

/-- Markers carry no bytes of units. -/
@[simp] theorem dealtBytes_markersOf (ps : List Nat) (e : Nat) : dealtBytes (markersOf ps e) = [] := by
  simp [dealtBytes, markersOf]

section
variable (ps : List Nat) (e : Nat) (x : Stripe) (w : List Byte)

/-- The position that takes the next word. -/
def nextPos (ps : List Nat) (x : Stripe) : Nat := (ps.find? (fun q => decide (x.next ≤ q))).getD (ps.headD 0)

theorem nextPos_mem {ps : List Nat} (h : ps ≠ []) (x : Stripe) : nextPos ps x ∈ ps := by
  unfold nextPos
  cases hf : ps.find? (fun q => decide (x.next ≤ q)) with
  | some p => exact List.mem_of_find?_eq_some hf
  | none =>
    obtain ⟨p, r, rfl⟩ := List.exists_cons_of_ne_nil h
    exact List.mem_cons_self ..

/-- A word is followed by nothing, or by the markers. -/
theorem dealWord_items : (dealWord ps e x w).2 = [(nextPos ps x, .word w)] ∨
    (dealWord ps e x w).2 = (nextPos ps x, .word w) :: markersOf ps e := by
  unfold dealWord nextPos
  dsimp only
  split
  · exact .inl rfl
  · split
    · exact .inl rfl
    · exact .inr rfl

theorem dealtBytes_dealWord : dealtBytes (dealWord ps e x w).2 = w := by
  rcases dealWord_items ps e x w with h | h <;> simp [h]

/-- Words and markers go to positions of the set. -/
theorem dealWord_positions (h : ps ≠ []) {i : Nat × StripeItem} (hi : i ∈ (dealWord ps e x w).2) :
    i.1 ∈ ps ∧ ∀ v, i.2 = .word v → v = w := by
  have hword : ((nextPos ps x, StripeItem.word w) : Nat × StripeItem).1 ∈ ps ∧
      ∀ v, ((nextPos ps x, StripeItem.word w) : Nat × StripeItem).2 = .word v → v = w :=
    ⟨nextPos_mem h x, fun v hv => (StripeItem.word.inj hv).symm⟩
  rcases dealWord_items ps e x w with hs | hs
  · rw [hs] at hi
    obtain rfl := List.mem_singleton.mp hi
    exact hword
  · rw [hs] at hi
    rcases List.mem_cons.mp hi with rfl | hm
    · exact hword
    · obtain ⟨p, hp, rfl⟩ := List.mem_map.mp hm
      exact ⟨hp, fun v hv => by cases hv⟩

/-- What `n` words carry and leave, and where they go. -/
theorem dealWords_effect {ps : List Nat} (h : ps ≠ []) : ∀ (n : Nat) (x : Stripe) (l : List Byte), 8 * n ≤ l.length →
    dealtBytes (dealWords ps e n x l).2 ++ (dealWords ps e n x l).1.rest = l ∧
    (dealWords ps e n x l).1.rest.length = l.length - 8 * n ∧
    ∀ i ∈ (dealWords ps e n x l).2, i.1 ∈ ps ∧ ∀ w, i.2 = .word w → w.length = 8
  | 0, x, l, _ => ⟨rfl, rfl, fun i hi => absurd hi List.not_mem_nil⟩
  | n + 1, x, l, hl => by
    obtain ⟨hbytes, hrest, hitems⟩ := dealWords_effect h n (dealWord ps e x (l.take 8)).1 (l.drop 8)
      (by rw [List.length_drop]; omega)
    refine ⟨?_, ?_, fun i hi => ?_⟩
    · rw [dealWords, dealtBytes_append, dealtBytes_dealWord, List.append_assoc, hbytes, List.take_append_drop]
    · rw [dealWords, hrest, List.length_drop]; omega
    · rcases List.mem_append.mp hi with hw | hr
      · obtain ⟨hp, hv⟩ := dealWord_positions ps e x (l.take 8) h hw
        exact ⟨hp, fun w hw => by rw [hv w hw, List.length_take]; omega⟩
      · exact hitems i hr

end

/-! ### The words go round four positions (R92) -/

/-- A word goes to the position named; the last one ends the round. -/
theorem dealWord_four (e : Nat) (x : Stripe) (w : List Byte) {j : Nat} (hj : j < 4) (hx : x.next = j)
    (hr : x.rounds + (j + 1) / 4 < 16384) :
    dealWord [0, 1, 2, 3] e x w = ({ x with next := (j + 1) % 4, rounds := x.rounds + (j + 1) / 4 }, [(j, .word w)]) := by
  interval_cases j
  · simp [dealWord, hx]
  · simp [dealWord, hx]
  · simp [dealWord, hx]
  · simp [dealWord, hx, hr]

theorem dealWords_four (e : Nat) : ∀ (n j : Nat) (x : Stripe) (l : List Byte), j < 4 → x.next = j →
    x.rounds + (j + n) / 4 < 16384 →
    (dealWords [0, 1, 2, 3] e n x l).2 = (List.range n).map (fun k => ((j + k) % 4, .word ((l.drop (8 * k)).take 8))) ∧
    (dealWords [0, 1, 2, 3] e n x l).1.next = (j + n) % 4
  | 0, j, x, l, hj, hx, _ => ⟨rfl, by rw [dealWords, hx, Nat.add_zero, Nat.mod_eq_of_lt hj]⟩
  | n + 1, j, x, l, hj, hx, hr => by
    have hword := dealWord_four e x (l.take 8) hj hx (by omega)
    obtain ⟨hitems, hnext⟩ := dealWords_four e n ((j + 1) % 4)
      { x with next := (j + 1) % 4, rounds := x.rounds + (j + 1) / 4 } (l.drop 8) (by omega) rfl (by dsimp only; omega)
    refine ⟨?_, ?_⟩
    · rw [dealWords, hword, hitems, List.range_succ_eq_map, List.map_cons, List.map_map, List.singleton_append]
      refine congrArg₂ _ ?_ ?_
      · simp [Nat.mod_eq_of_lt hj]
      · refine List.map_congr_left fun k _ => ?_
        simp only [Function.comp, List.drop_drop, Prod.mk.injEq, StripeItem.word.injEq]
        exact ⟨by omega, by rw [show 8 + 8 * k = 8 * (k + 1) by omega]⟩
    · rw [dealWords, hword, hnext]; omega

/-! ### A unit leaves (R92, R117) -/

section
variable (b : Nat) (u : List Byte)

theorem State.sendUnit_only : s.sendUnit b u = { s with links := (s.sendUnit b u).links, sent := (s.sendUnit b u).sent } := rfl

theorem State.sendUnit_sent : (s.sendUnit b u).sent = .unit b u (s.dealt b u).2 :: s.sent := rfl

theorem State.sendUnit_suffix : s.sent <:+ (s.sendUnit b u).sent := ⟨[_], rfl⟩

theorem State.link_sendUnit_same : (s.sendUnit b u).link b = { s.link b with tx := (s.dealt b u).1 } := tget_tset_same ..

theorem State.link_setLink_other {c b : Nat} (h : c ≠ b) (x : Link) : (s.setLink b x).link c = s.link c := tget_tset_other _ _ _ _ h

theorem State.link_sendUnit_other {c : Nat} (h : c ≠ b) : (s.sendUnit b u).link c = s.link c := s.link_setLink_other h _

theorem State.unitsSent_sendUnit : unitsSent b s (s.sendUnit b u) = [u] := unitsSent_of_unit (s.sendUnit_sent b u)

/-- What a unit of the module says is what the registers show. -/
theorem State.unitsSent_sendCtl (f : Nat) : unitsSent b s (s.sendCtl b f) =
    [unitBytes 2 f 0 (s.rd .VSN_LSTAT_RX_NEXT b) (s.rd .VSN_LCLIMIT_LIMIT b) []] := s.unitsSent_sendUnit b _

theorem State.sendCtl_sent (f : Nat) : ∃ items, (s.sendCtl b f).sent =
    .unit b (unitBytes 2 f 0 (s.rd .VSN_LSTAT_RX_NEXT b) (s.rd .VSN_LCLIMIT_LIMIT b) []) items :: s.sent := ⟨_, s.sendUnit_sent b _⟩

theorem State.link_sendCtl_same (f : Nat) : ∃ x, (s.sendCtl b f).link b = { s.link b with tx := x } :=
  ⟨_, s.link_sendUnit_same b _⟩

theorem State.link_sendCtl_other (f : Nat) {c : Nat} (h : c ≠ b) : (s.sendCtl b f).link c = s.link c := s.link_sendUnit_other b _ h

/-- A unit's bytes lie on the lanes behind those that made no whole word before it, and what makes no whole word of them waits. -/
theorem State.sendUnit_effect (h : s.positionsOf b ≠ []) :
    dealtBytes (s.dealt b u).2 ++ (s.dealt b u).1.rest = (s.link b).tx.rest ++ u ∧
    (s.dealt b u).1.rest.length = ((s.link b).tx.rest ++ u).length % 8 ∧
    ∀ i ∈ (s.dealt b u).2, i.1 ∈ s.positionsOf b ∧ ∀ w, i.2 = .word w → w.length = 8 := by
  rw [State.dealt, if_neg (by simpa using h)]
  obtain ⟨hbytes, hrest, hitems⟩ := dealWords_effect (s.rd .VLK_BSTAT_EPOCH b) h (((s.link b).tx.rest ++ u).length / 8) (s.link b).tx
    ((s.link b).tx.rest ++ u) (Nat.mul_div_le _ _)
  exact ⟨hbytes, by rw [hrest]; omega, hitems⟩

theorem State.dealt_four (hp : s.positionsOf b = [0, 1, 2, 3]) (hr : (s.link b).tx.rest = []) :
    s.dealt b u = dealWords [0, 1, 2, 3] (s.rd .VLK_BSTAT_EPOCH b) (u.length / 8) (s.link b).tx u := by
  simp [State.dealt, hp, hr]

end

/-! ### Units are sent again (R121) -/

theorem State.resend_effect (b : Nat) (l : List (Nat × List Byte)) :
    let t := l.foldl (fun s p => s.sendData b p.1 p.2) s
    t = { s with links := t.links, sent := t.sent } ∧ (t.link b).unacked = (s.link b).unacked ∧ s.sent <:+ t.sent ∧
    unitsSent b s t = l.map (fun p => unitBytes 1 0 p.1 (s.rd .VSN_LSTAT_RX_NEXT b) (s.rd .VSN_LCLIMIT_LIMIT b) p.2) := by
  induction l generalizing s with
  | nil => exact ⟨rfl, rfl, List.suffix_rfl, unitsSent_of_sent b rfl⟩
  | cons p r ih =>
    have hsuf := s.sendUnit_suffix b (unitBytes 1 0 p.1 (s.rd .VSN_LSTAT_RX_NEXT b) (s.rd .VSN_LCLIMIT_LIMIT b) p.2)
    obtain ⟨honly, hun, hsent, hunits⟩ := ih (s.sendData b p.1 p.2)
    refine ⟨honly, hun.trans ?_, hsuf.trans hsent, ?_⟩
    · rw [State.sendData, State.link_sendUnit_same]
    · rw [List.foldl_cons, unitsSent_append b hsuf hsent]
      exact congrArg₂ _ (s.unitsSent_sendUnit b _) hunits

/-! ### What a received unit acknowledges (R119, R120) -/

/-- With no unit kept and none waiting, an acknowledgement changes nothing. -/
theorem State.takeLack_nothing {b : Nat} (lack : Nat) (hu : (s.link b).unacked = []) (hq : (s.link b).txq = []) :
    s.takeLack b lack false = s.setLink b (s.link b) := by
  have hkept : s.takeLack b lack false = (s.setLink b { s.link b with unacked := [] }).flushTx b 0 := by
    simp [State.takeLack, hu, hq]
  rw [hkept, ← hu]; rfl

theorem State.flushTx_nothing {b : Nat} (h : (s.link b).txq = []) : s.flushTx b (s.link b).txq.length = s := by
  rw [h]; rfl

end Sys2Proof.Machine

/-! # O10: units of the link layer (R117 to R124, R154) -/

namespace Sys2Proof.Machine

variable (s : State)

/-! ### The next expected unit is taken (R119, R123) -/

/-- The registers and the receive side before the acknowledgement leaves. -/
def State.unitCounted (s : State) (b n : Nat) : State :=
  ((s.setLink b { s.link b with rxWait := false, failCount := 0 }).wr .VSN_LSTAT_RX_NEXT b ((s.rd .VSN_LSTAT_RX_NEXT b + 1) % 4096)).wr
    .VSN_LCUSED_CONSUMED b (s.rd .VSN_LCUSED_CONSUMED b + n)

theorem State.ackUnit_eq (b n : Nat) : s.ackUnit b n = (s.unitCounted b n).sendCtl b 0 := by
  unfold State.ackUnit
  extract_lets _ t u
  have hnext : t.rd .VSN_LSTAT_RX_NEXT b = s.rd .VSN_LSTAT_RX_NEXT b := State.rd_of_regs (s.setLink_regs _ _) _ _
  have hused : u.rd .VSN_LCUSED_CONSUMED b = s.rd .VSN_LCUSED_CONSUMED b :=
    (t.rd_wr_apart (f := .VSN_LSTAT_RX_NEXT) (by decide) b _).trans (State.rd_of_regs (s.setLink_regs _ _) _ _)
  rw [hused, State.unitCounted, ← hnext]

theorem State.unitCounted_effect (b n : Nat) :
    (s.unitCounted b n).rd .VSN_LSTAT_RX_NEXT b = (s.rd .VSN_LSTAT_RX_NEXT b + 1) % 4096 ∧
    (s.unitCounted b n).rd .VSN_LCUSED_CONSUMED b = (s.rd .VSN_LCUSED_CONSUMED b + n) % 2 ^ 32 ∧
    (s.unitCounted b n).rd .VSN_LBUF_FREE b = s.rd .VSN_LBUF_FREE b ∧
    (s.unitCounted b n).rd .VSN_LCLIMIT_LIMIT b = s.rd .VSN_LCLIMIT_LIMIT b := by
  have hreg := fun f => State.rd_of_regs (s.setLink_regs b { s.link b with rxWait := false, failCount := 0 }) f b
  unfold State.unitCounted
  refine ⟨?_, ?_, ?_, ?_⟩
  · rw [State.rd_wr_apart _ (by decide), State.rd_wr_same _ _ _ _ (by decide)]
    exact Nat.mod_mod _ _
  · rw [State.rd_wr_same _ _ _ _ (by decide)]; rfl
  · rw [State.rd_wr_apart _ (by decide), State.rd_wr_apart _ (by decide), hreg]
  · rw [State.rd_wr_apart _ (by decide), State.rd_wr_apart _ (by decide), hreg]

theorem State.ackUnit_effect (b n : Nat) :
    (s.ackUnit b n).rd .VSN_LSTAT_RX_NEXT b = (s.rd .VSN_LSTAT_RX_NEXT b + 1) % 4096 ∧
    (s.ackUnit b n).rd .VSN_LCUSED_CONSUMED b = (s.rd .VSN_LCUSED_CONSUMED b + n) % 2 ^ 32 ∧
    (s.ackUnit b n).rd .VSN_LBUF_FREE b = s.rd .VSN_LBUF_FREE b ∧ ((s.ackUnit b n).link b).rxq = (s.link b).rxq ∧
    (∀ c, c ≠ b → (s.ackUnit b n).link c = s.link c) ∧ ∃ items, (s.ackUnit b n).sent =
      .unit b (unitBytes 2 0 0 ((s.rd .VSN_LSTAT_RX_NEXT b + 1) % 4096) (s.rd .VSN_LCLIMIT_LIMIT b) []) items :: s.sent := by
  obtain ⟨hnext, hused, hfree, hlimit⟩ := s.unitCounted_effect b n
  obtain ⟨x, hx⟩ := (s.unitCounted b n).link_sendCtl_same b 0
  obtain ⟨items, hsent⟩ := (s.unitCounted b n).sendCtl_sent b 0
  have hreg := fun f => State.rd_of_regs ((s.unitCounted b n).sendCtl_regs b 0) f b
  rw [s.ackUnit_eq]
  refine ⟨(hreg _).trans hnext, (hreg _).trans hused, (hreg _).trans hfree, ?_, fun c hc => ?_, items, ?_⟩
  · rw [hx, State.unitCounted, State.link_wr, State.link_wr, State.link_setLink_same]
  · rw [State.link_sendCtl_other _ _ _ hc, State.unitCounted, State.link_wr, State.link_wr, State.link_setLink_other _ hc]
  · rw [hsent, hnext, hlimit, State.unitCounted, State.wr_sent, State.wr_sent, State.setLink_sent]

/-- An intact unit with the next expected sequence, within the credits: its frame enters the receive buffer. -/
def State.takeUnit (s : State) (b : Nat) (f : List Byte) : State :=
  let t := s.ackUnit b (frameCost f)
  let t := t.wr .VSN_LBUF_FREE b (t.rd .VSN_LBUF_FREE b - frameCost f)
  t.setLink b { t.link b with rxq := (t.link b).rxq ++ [f] }

theorem State.takeUnit_effect (b : Nat) (f : List Byte) :
    ((s.takeUnit b f).link b).rxq = (s.link b).rxq ++ [f] ∧
    (s.takeUnit b f).rd .VSN_LSTAT_RX_NEXT b = (s.rd .VSN_LSTAT_RX_NEXT b + 1) % 4096 ∧
    (s.takeUnit b f).rd .VSN_LCUSED_CONSUMED b = (s.rd .VSN_LCUSED_CONSUMED b + frameCost f) % 2 ^ 32 ∧
    (s.takeUnit b f).rd .VSN_LBUF_FREE b = s.rd .VSN_LBUF_FREE b - frameCost f ∧
    unitsSent b s (s.takeUnit b f) =
      [unitBytes 2 0 0 ((s.rd .VSN_LSTAT_RX_NEXT b + 1) % 4096) (s.rd .VSN_LCLIMIT_LIMIT b) []] ∧
    ∀ c, c ≠ b → (s.takeUnit b f).link c = s.link c := by
  obtain ⟨hnext, hused, hfree, hrxq, hothers, items, hsent⟩ := s.ackUnit_effect b (frameCost f)
  unfold State.takeUnit
  refine ⟨?_, ?_, ?_, ?_, unitsSent_of_unit (Eq.trans ?_ hsent), fun c hc => ?_⟩
  · simp only [State.link_setLink_same, State.link_wr, hrxq]
  · simp (disch := decide) only [State.rd_of_regs (State.setLink_regs ..), State.rd_wr_apart, hnext]
  · simp (disch := decide) only [State.rd_of_regs (State.setLink_regs ..), State.rd_wr_apart, hused]
  · simp (disch := decide) only [State.rd_of_regs (State.setLink_regs ..), State.rd_wr_same, hfree]
    exact Nat.mod_eq_of_lt ((Nat.sub_le _ _).trans_lt (s.rd_lt .VSN_LBUF_FREE b))
  · rw [State.setLink_sent]; rfl
  · rw [State.link_setLink_other _ hc, State.link_wr, hothers c hc]

section
variable {s : State} {b : BundleId} {u : List Byte}

theorem exec_dataUnit_next (hrun : s.linkRunning b.val = true) (heou : (s.link b.val).lostEou = false) (hin : unitIntact u = true)
    (hty : fieldAt u 2 1 = 1) (hun : (s.link b.val).unacked = []) (hq : (s.link b.val).txq = [])
    (hnack : bitOf (fieldAt u 3 1) 0 = false) (hseq : fieldAt u 4 2 % 4096 = s.rd .VSN_LSTAT_RX_NEXT b.val)
    (hover : s.overruns b.val (frameCost (unitFrame u)) = false) (hframe : frameIntact (unitFrame u) = true) :
    exec (.dataUnit b u) s = .next ((s.setLink b.val (s.link b.val)).takeUnit b.val (unitFrame u)) := by
  have hlt : s.rd .VSN_LSTAT_RX_NEXT b.val < 4096 := s.rd_lt _ _
  have hzero : (s.rd .VSN_LSTAT_RX_NEXT b.val + 4096 - s.rd .VSN_LSTAT_RX_NEXT b.val) % 4096 = 0 := by omega
  have hsame : ∀ f i, (s.setLink b.val (s.link b.val)).rd f i = s.rd f i := fun f i => State.rd_of_regs (s.setLink_regs _ _) f i
  have hover' : (s.setLink b.val (s.link b.val)).overruns b.val (frameCost (unitFrame u)) = false := hover
  show execDataUnit b u s = _
  simp only [execDataUnit, hrun, heou, hin, hty, hnack, s.takeLack_nothing _ hun hq, hsame, hseq, hzero, hover', hframe,
    Bool.not_true, Bool.false_eq_true, if_false, if_true, ne_eq, not_true_eq_false]
  rfl

theorem exec_dataUnit_old (hrun : s.linkRunning b.val = true) (heou : (s.link b.val).lostEou = false) (hin : unitIntact u = true)
    (hty : fieldAt u 2 1 = 1) (hun : (s.link b.val).unacked = []) (hq : (s.link b.val).txq = [])
    (hnack : bitOf (fieldAt u 3 1) 0 = false) (hlo : 1 ≤ (s.rd .VSN_LSTAT_RX_NEXT b.val + 4096 - fieldAt u 4 2 % 4096) % 4096)
    (hhi : (s.rd .VSN_LSTAT_RX_NEXT b.val + 4096 - fieldAt u 4 2 % 4096) % 4096 ≤ 2048) :
    exec (.dataUnit b u) s = .next ((s.setLink b.val (s.link b.val)).sendCtl b.val 0) := by
  have hsame : ∀ f i, (s.setLink b.val (s.link b.val)).rd f i = s.rd f i := fun f i => State.rd_of_regs (s.setLink_regs _ _) f i
  have hne : ¬ (s.rd .VSN_LSTAT_RX_NEXT b.val + 4096 - fieldAt u 4 2 % 4096) % 4096 = 0 := by omega
  show execDataUnit b u s = _
  simp only [execDataUnit, hrun, heou, hin, hty, hnack, s.takeLack_nothing _ hun hq, hsame, hne, hhi,
    Bool.not_true, Bool.false_eq_true, if_false, if_true, ne_eq, not_true_eq_false]

end

/-- The unit that is looked for is asked for again: the registers keep what they say of sequences. -/
theorem State.nackUnit_effect (b : Nat) : ((s.nackUnit b).link b).lostEou = (s.link b).lostEou ∧
    ((s.nackUnit b).link b).rxq = (s.link b).rxq ∧ (s.nackUnit b).rd .VSN_LSTAT_RX_NEXT b = s.rd .VSN_LSTAT_RX_NEXT b := by
  unfold State.nackUnit
  extract_lets k e again
  split
  · simp only [State.link_setLink_same]
    exact ⟨rfl, rfl, State.rd_of_regs (s.setLink_regs _ _) _ _⟩
  · obtain ⟨x, hx⟩ := State.link_sendCtl_same
      ((s.setLink b { k with rxWait := true, lastNack := some (e, s.clock) }).bump .VSN_LNACK_COUNT b) b 1
    rw [hx, State.rd_of_regs (State.sendCtl_regs ..)]
    simp (disch := decide) only [State.bump, State.link_wr, State.link_setLink_same, State.rd_wr_apart]
    exact ⟨rfl, rfl, State.rd_of_regs (s.setLink_regs _ _) _ _⟩

section
variable {s : State} {b : BundleId}

theorem dataUnit_lostEou (u : List Byte) (hrun : s.linkRunning b.val = true) (heou : (s.link b.val).lostEou = false)
    (hend : endsEou u = false) : Leads (.dataUnit b u) s fun t => (t.link b.val).lostEou = true ∧
      (t.link b.val).rxq = (s.link b.val).rxq ∧ t.rd .VSN_LSTAT_RX_NEXT b.val = s.rd .VSN_LSTAT_RX_NEXT b.val := by
  have hin : unitIntact u = false := by simp [unitIntact, hend]
  refine ⟨s.unitDamaged b.val u, ?_, ?_⟩
  · show execDataUnit b u s = _
    simp only [execDataUnit, hrun, heou, hin, Bool.not_true, Bool.not_false, Bool.false_eq_true, if_false, if_true]
  · obtain ⟨hlost, hrxq, hnext⟩ := (s.setLink b.val { s.link b.val with failCount := 0, lostEou := !endsEou u }).nackUnit_effect b.val
    refine ⟨hlost.trans ?_, hrxq.trans ?_, hnext.trans (State.rd_of_regs (s.setLink_regs _ _) _ _)⟩
    · rw [State.link_setLink_same]; simp [hend]
    · rw [State.link_setLink_same]

/-- While the scan is stopped, only the EOU of a unit is seen. -/
def State.seekEou (s : State) (b : Nat) (u : List Byte) : State := if endsEou u then s.scanSou b else s

theorem State.seekEou_effect {b : Nat} (u : List Byte) (h : (s.link b).lostEou = true) :
    ((s.seekEou b u).link b).lostEou = !endsEou u ∧ ((s.seekEou b u).link b).rxq = (s.link b).rxq ∧
    s.seekEou b u = { s with links := (s.seekEou b u).links } := by
  unfold State.seekEou
  cases hend : endsEou u with
  | true =>
    refine ⟨s.scanSou_link b, ?_, s.scanSou_only b⟩
    simp only [State.scanSou, h, if_true, State.link_setLink_same]
  | false => exact ⟨h, rfl, rfl⟩

theorem exec_dataUnit_unseen (u : List Byte) (hrun : s.linkRunning b.val = true) (heou : (s.link b.val).lostEou = true) :
    exec (.dataUnit b u) s = .next (s.seekEou b.val u) := by
  show execDataUnit b u s = _
  simp only [execDataUnit, hrun, heou, Bool.not_true, Bool.false_eq_true, if_false, if_true]
  rfl

/-! ### LINKCTL units (R117, R118) -/

theorem exec_linkctl_unseen {u : List Byte} (hup : s.bundleUp b.val = true) (hrun : s.inReset = false) (hin : unitIntact u = false)
    (heou : (s.link b.val).lostEou = true) : exec (.linkctl b u) s = .next (s.seekEou b.val u) := by
  show execLinkctl b u s = _
  simp only [execLinkctl, hup, hrun, hin, heou, Bool.not_true, Bool.not_false, Bool.or_self, Bool.false_and, Bool.false_eq_true,
    if_false, if_true]
  rfl

/-- The partner's INIT: where the exchange was complete, the link layer starts again; either way it is complete now. -/
def State.initTaken (s : State) (b : Nat) : State :=
  let t := s.scanSou b
  (if t.on .VSN_LSTAT_INIT_DONE b then t.startLink b else t).wr .VSN_LSTAT_INIT_DONE b 1

theorem State.scanSou_txq (b : Nat) : ((s.scanSou b).link b).txq = (s.link b).txq := by
  unfold State.scanSou
  split
  · rw [State.link_setLink_same]
  · rfl

/-- Frames that wait stay. -/
theorem State.startLink_txq (b : Nat) : ((s.startLink b).link b).txq = (s.link b).txq := by
  rw [s.startLink_eq]
  obtain ⟨x, hx⟩ := ((s.setLink b (s.link b).cleared).linkZeroed b).link_sendCtl_same b 2
  rw [hx]
  simp only [State.linkZeroed, State.link_wr, State.link_setLink_same]
  rfl

theorem State.startLink_lostEou (b : Nat) : ((s.startLink b).link b).lostEou = false := by
  rw [s.startLink_eq]
  obtain ⟨x, hx⟩ := ((s.setLink b (s.link b).cleared).linkZeroed b).link_sendCtl_same b 2
  rw [hx]
  simp only [State.linkZeroed, State.link_wr, State.link_setLink_same]
  rfl

theorem State.initTaken_txq (b : Nat) : ((s.initTaken b).link b).txq = (s.link b).txq := by
  unfold State.initTaken
  dsimp only
  rw [State.link_wr]
  split
  · rw [State.startLink_txq, State.scanSou_txq]
  · rw [State.scanSou_txq]

theorem exec_linkctl_init {u : List Byte} (hup : s.bundleUp b.val = true) (hrun : s.inReset = false) (hin : unitIntact u = true)
    (hlen : u.length = 32) (hty : fieldAt u 2 1 = 2) (hinit : bitOf (fieldAt u 3 1) 1 = true) (hq : (s.link b.val).txq = []) :
    exec (.linkctl b u) s = .next (s.initTaken b.val) := by
  have hwaits : (s.initTaken b.val).flushTx b.val ((s.initTaken b.val).link b.val).txq.length = s.initTaken b.val :=
    State.flushTx_nothing _ (by rw [State.initTaken_txq, hq])
  refine Eq.trans ?_ (congrArg _ hwaits)
  show execLinkctl b u s = _
  simp only [execLinkctl, hup, hrun, hin, hlen, hty, hinit, Bool.not_true, Bool.or_self, Bool.and_self, beq_self_eq_true, Bool.false_eq_true,
    if_false, if_true, ne_eq, not_true_eq_false]
  rfl

theorem State.initTaken_effect (b : Nat) : (s.initTaken b).on .VSN_LSTAT_INIT_DONE b = true ∧
    ((s.initTaken b).link b).lostEou = false ∧
    (s.on .VSN_LSTAT_INIT_DONE b = true → ((s.initTaken b).link b).unacked = [] ∧ (s.initTaken b).rd .VSN_LSTAT_RX_NEXT b = 0 ∧
      (s.initTaken b).rd .VSN_LSTAT_TX_NEXT b = 0 ∧ (s.initTaken b).rd .VSN_LCUSED_CONSUMED b = 0 ∧
      (s.initTaken b).rd .VSN_LCLIMIT_LIMIT b = s.rd .VSN_LBUF_FREE b) := by
  refine ⟨?_, ?_, fun hon => ?_⟩
  · rw [State.on_iff, State.initTaken, State.rd_wr_same _ _ _ _ (by decide)]; rfl
  · unfold State.initTaken
    dsimp only
    rw [State.link_wr]
    split
    · exact State.startLink_lostEou b
    · exact s.scanSou_link b
  · have hon' : (s.scanSou b).on .VSN_LSTAT_INIT_DONE b = true := by rw [State.on, State.rd_scanSou]; exact hon
    have heq : s.initTaken b = ((s.scanSou b).startLink b).wr .VSN_LSTAT_INIT_DONE b 1 := by simp only [State.initTaken, hon', if_true]
    obtain ⟨hun, hrx, htx, -, hused, hlimit⟩ := (s.scanSou b).startLink_effect b
    have hfree : ((s.scanSou b).startLink b).rd .VSN_LBUF_FREE b = s.rd .VSN_LBUF_FREE b := by
      rw [State.rd_of_word _ _ (State.word_startLink _ b (by simp only [linkWord, Fld.at, Fld.VSN_LBUF_FREE]; omega)), State.rd_scanSou]
    rw [heq]
    simp (disch := decide) only [State.link_wr, State.rd_wr_apart]
    exact ⟨hun, hrx, htx, hused, hlimit.trans hfree⟩

end

/-- Settles O10: each received unit by what `exec` makes of it, and the dealing of words by `dealWords_effect` and `dealWords_four`. -/
theorem linkUnits : Obligations.LinkUnits := by
  intro s b
  refine ⟨fun u hrun heou hin hty hun hq hnack hseq hover hframe => ?_, fun u hrun heou hin hty hun hq hnack ⟨hlo, hhi⟩ => ?_,
    fun u hrun heou hend => dataUnit_lostEou u hrun heou hend, fun u hrun heou => ?_, fun u hup hrun hin hlen hty hinit hq => ?_,
    fun u hup hrun hin heou => ?_, fun hres => ?_, fun hup hinit hrun => ?_, fun hrun => ?_, fun u hpos => ?_,
    fun u hpos hrest hnext n hlen hrounds => ?_, fun u hpos hrest hnext hrounds hlen => ?_⟩
  · obtain ⟨hrxq, hnext, hused, hfree, hsent, hothers⟩ := (s.setLink b.val (s.link b.val)).takeUnit_effect b.val (unitFrame u)
    exact ⟨_, exec_dataUnit_next hrun heou hin hty hun hq hnack hseq hover hframe, by rw [hrxq, State.link_setLink_same],
      hnext, hused, hfree, hsent, fun c hc => by
        have hne : c.val ≠ b.val := fun h => hc (Fin.ext h)
        rw [hothers c.val hne, s.link_setLink_other hne]⟩
  · refine ⟨_, exec_dataUnit_old hrun heou hin hty hun hq hnack hlo hhi, rfl, ?_, ?_⟩
    · obtain ⟨x, hx⟩ := (s.setLink b.val (s.link b.val)).link_sendCtl_same b.val 0
      rw [hx, State.link_setLink_same]
    · exact State.unitsSent_sendCtl (s.setLink b.val (s.link b.val)) b.val 0
  · obtain ⟨hlost, hrxq, honly⟩ := State.seekEou_effect (s := s) u heou
    exact ⟨_, exec_dataUnit_unseen u hrun heou, hlost, hrxq, by rw [honly], by rw [honly]⟩
  · exact ⟨_, exec_linkctl_init hup hrun hin hlen hty hinit hq, State.initTaken_effect b.val⟩
  · obtain ⟨hlost, -, honly⟩ := State.seekEou_effect (s := s) u heou
    exact ⟨_, exec_linkctl_unseen hup hrun hin heou, hlost, honly⟩
  · refine ⟨s, ?_, rfl⟩
    show execInitRepeat b s = _
    simp [execInitRepeat, hres]
  · refine ⟨s.sendCtl b.val 2, ?_, s.unitsSent_sendCtl b.val 2, rfl⟩
    show execInitRepeat b s = _
    simp [execInitRepeat, hup, hinit, hrun]
  · obtain ⟨honly, hun, -, hunits⟩ := s.resend_effect b.val (s.link b.val).unacked
    refine ⟨s.resendUnits b.val, ?_, hunits, hun, honly⟩
    show execUnitResendTimeout b s = _
    simp [execUnitResendTimeout, hrun]
  · obtain ⟨hbytes, hrest, hitems⟩ := s.sendUnit_effect b.val u hpos
    exact ⟨(s.dealt b.val u).2, rfl, by rw [State.link_sendUnit_same]; exact hbytes, by rw [State.link_sendUnit_same]; exact hrest, rfl, hitems⟩
  · rw [s.dealt_four b.val u hpos hrest, show u.length / 8 = n by omega]
    obtain ⟨hitems, hend⟩ := dealWords_four (s.rd .VLK_BSTAT_EPOCH b.val) n 0 (s.link b.val).tx u (by decide) hnext (by omega)
    simp only [Nat.zero_add] at hitems hend
    exact ⟨hitems, hend⟩
  · rw [s.dealt_four b.val u hpos hrest, hlen]
    simp [dealWords, dealWord, hnext, hrounds, markersOf, List.take_of_length_le hlen.le]

end Sys2Proof.Machine

/-! # The rules of sessions and flows: what lies beside them -/

namespace Sys2Proof.Machine

variable (s : State)

/-! ### Records of sessions and flows -/

@[simp] theorem State.session_setSession_same (n : Nat) (x : SessionX) : (s.setSession n x).session n = x := tget_tset_same ..
theorem State.session_setSession_other {k n : Nat} (h : k ≠ n) (x : SessionX) : (s.setSession n x).session k = s.session k :=
  tget_tset_other _ _ _ _ h
@[simp] theorem State.flow_setFlow_same (f : Nat) (x : FlowX) : (s.setFlow f x).flow f = x := tget_tset_same ..
theorem State.flow_setFlow_other {k f : Nat} (h : k ≠ f) (x : FlowX) : (s.setFlow f x).flow k = s.flow k := tget_tset_other _ _ _ _ h

theorem State.session_of_sess {s t : State} (h : t.sess = s.sess) (n : Nat) : t.session n = s.session n := by
  simp only [State.session, h]
theorem State.flow_of_flows {s t : State} (h : t.flows = s.flows) (f : Nat) : t.flow f = s.flow f := by simp only [State.flow, h]

@[simp] theorem State.rd_setSession (n : Nat) (x : SessionX) (f : Fld) (i : Nat) : (s.setSession n x).rd f i = s.rd f i :=
  State.rd_of_regs rfl f i
@[simp] theorem State.rd_setFlow (k : Nat) (x : FlowX) (f : Fld) (i : Nat) : (s.setFlow k x).rd f i = s.rd f i :=
  State.rd_of_regs rfl f i
@[simp] theorem State.rd_setLink (b : Nat) (x : Link) (f : Fld) (i : Nat) : (s.setLink b x).rd f i = s.rd f i :=
  State.rd_of_regs rfl f i

/-! ### Registers of sessions and flows -/

/-- The registers that units, frames, events and event bits of the sessions may touch: those of the link layers, of `VSN_EVT` and of
numbered events. -/
def asideWord (o : Nat) : Prop := eventWord o = true ∨ o = 0x40000c ∨ (0x401000 ≤ o ∧ o < 0x402000)

/-- The registers of the link layers alone. -/
def linkPage (o : Nat) : Prop := 0x401000 ≤ o ∧ o < 0x402000

theorem asideWord_of_linkPage {o : Nat} (h : linkPage o) : asideWord o := .inr (.inr h)

/-- A field of a session or of a flow that they leave alone, whatever the session or flow. -/
def Fld.calm (f : Fld) : Bool := decide (0x402000 ≤ f.base) && f.base % 16 != 12 && f.stride % 16 == 0

theorem Fld.at_calm {f : Fld} (h : f.calm = true) (i : Nat) : 0x402000 ≤ f.at i ∧ f.at i % 16 ≠ 12 := by
  simp only [Fld.calm, Bool.and_eq_true, decide_eq_true_eq, bne_iff_ne, beq_iff_eq] at h
  obtain ⟨⟨hbase, hne⟩, hstride⟩ := h
  obtain ⟨k, hk⟩ := Nat.dvd_of_mod_eq_zero hstride
  have hat : f.at i = f.base + 16 * (k * i) := by rw [Fld.at, hk, Nat.mul_assoc]
  omega

theorem not_asideWord_iff {o : Nat} : ¬ asideWord o ↔ eventWord o = false ∧ o ≠ 0x40000c ∧ (o < 0x401000 ∨ 0x402000 ≤ o) := by
  simp only [asideWord, not_or, Bool.not_eq_true]
  exact and_congr Iff.rfl (and_congr Iff.rfl (by omega))

theorem eventWord_of_mod {o : Nat} (h : 0x400000 ≤ o) (hm : o % 16 ≠ 12) : eventWord o = false := by
  simp only [eventWord, refuseWord, Bool.or_eq_false_iff, beq_eq_false_iff_ne, Bool.and_eq_false_iff, decide_eq_false_iff_not]
  omega

theorem eventWord_of_session {o : Nat} (h : 0x400000 ≤ o) (hm : o < 0x901000) : eventWord o = false := by
  simp only [eventWord, refuseWord, Bool.or_eq_false_iff, beq_eq_false_iff_ne, Bool.and_eq_false_iff, decide_eq_false_iff_not]
  omega

theorem Fld.calm_not_asideWord {f : Fld} (h : f.calm = true) (i : Nat) : ¬ asideWord (f.at i) := by
  obtain ⟨hlo, hmod⟩ := Fld.at_calm h i
  exact not_asideWord_iff.mpr ⟨eventWord_of_mod (by omega) hmod, by omega, .inr hlo⟩

/-! ### What frames, units, events and records leave alone -/

/-- Sessions, flows, the deck and its memory are as they were, and the registers but those of `W`. -/
structure Aside (W : Nat → Prop) (s t : State) : Prop where
  sess : t.sess = s.sess
  flows : t.flows = s.flows
  deck : t.deck = s.deck
  hbm : t.hbm = s.hbm
  plans : t.plans = s.plans
  tricks : t.tricks = s.tricks
  timeb : t.timeb = s.timeb
  word : ∀ o, ¬ W o → t.word o = s.word o

section
variable {s} {t u : State} {W : Nat → Prop}

theorem Aside.refl (s : State) : Aside W s s := ⟨rfl, rfl, rfl, rfl, rfl, rfl, rfl, fun _ _ => rfl⟩

theorem Aside.trans (h : Aside W s t) (k : Aside W t u) : Aside W s u :=
  ⟨k.sess.trans h.sess, k.flows.trans h.flows, k.deck.trans h.deck, k.hbm.trans h.hbm, k.plans.trans h.plans, k.tricks.trans h.tricks,
    k.timeb.trans h.timeb, fun o ho => (k.word o ho).trans (h.word o ho)⟩

theorem Aside.mono {V : Nat → Prop} (h : Aside W s t) (hV : ∀ o, W o → V o) : Aside V s t :=
  ⟨h.sess, h.flows, h.deck, h.hbm, h.plans, h.tricks, h.timeb, fun o ho => h.word o fun hw => ho (hV o hw)⟩

theorem Aside.rd (h : Aside W s t) {f : Fld} {i : Nat} (hf : ¬ W (f.at i)) : t.rd f i = s.rd f i := State.rd_of_word f i (h.word _ hf)

theorem Aside.calm (h : Aside asideWord s t) {f : Fld} (hf : f.calm = true) (i : Nat) : t.rd f i = s.rd f i :=
  h.rd (Fld.calm_not_asideWord hf i)

theorem Aside.session (h : Aside W s t) (n : Nat) : t.session n = s.session n := State.session_of_sess h.sess n
theorem Aside.flow (h : Aside W s t) (f : Nat) : t.flow f = s.flow f := State.flow_of_flows h.flows f

/-- The token of a session. -/
theorem Aside.token (h : Aside asideWord s t) {n : Nat} (hn : n < 256) : t.rd64 .VSN_STOKEN n = s.rd64 .VSN_STOKEN n := by
  have hword : ∀ o, 0x402000 ≤ o → o < 0x406000 → t.word o = s.word o := fun o hlo hhi =>
    h.word o (not_asideWord_iff.mpr ⟨eventWord_of_session (by omega) (by omega), by omega, .inr hlo⟩)
  simp only [State.rd64, Reg64.VSN_STOKEN]
  rw [hword _ (by omega) (by omega), hword _ (by omega) (by omega)]

theorem Aside.setLink (h : Aside W s t) (b : Nat) (x : Link) : Aside W s (t.setLink b x) :=
  h.trans ⟨rfl, rfl, rfl, rfl, rfl, rfl, rfl, fun _ _ => rfl⟩

theorem Aside.setWord (h : Aside W s t) {o : Nat} (v : Word) (ho : W o) : Aside W s (t.setWord o v) :=
  h.trans ⟨rfl, rfl, rfl, rfl, rfl, rfl, rfl, fun _ hp => t.word_setWord_other _ _ (by rintro rfl; exact hp ho)⟩

theorem Aside.wr (h : Aside W s t) {f : Fld} {i : Nat} (v : Nat) (hf : W (f.at i)) : Aside W s (t.wr f i v) := h.setWord _ hf

theorem Aside.bump (h : Aside W s t) {f : Fld} {i : Nat} (n : Nat) (hf : W (f.at i)) : Aside W s (t.bump f i n) := h.setWord _ hf

theorem Aside.flag (h : Aside W s t) {f : Fld} {i : Nat} (hf : W (f.at i)) : Aside W s (t.flag f i) := h.setWord _ hf

theorem Aside.ite {c : Prop} [Decidable c] (h : Aside W s t) (k : Aside W s u) : Aside W s (if c then t else u) := by
  split <;> assumption

theorem Aside.foldl {α : Type} {g : State → α → State} (l : List α) (hg : ∀ t, ∀ x ∈ l, Aside W t (g t x)) (h : Aside W s t) :
    Aside W s (l.foldl g t) := by
  induction l generalizing t with
  | nil => exact h
  | cons x r ih => exact ih (fun t y hy => hg t y (List.mem_cons_of_mem _ hy)) (h.trans (hg t x (List.mem_cons_self ..)))

end

theorem State.sendUnit_aside {W : Nat → Prop} (b : Nat) (l : List Byte) : Aside W s (s.sendUnit b l) :=
  ⟨rfl, rfl, rfl, rfl, rfl, rfl, rfl, fun _ _ => rfl⟩

/-- A frame leaves or waits: at most the next link sequence moves. -/
theorem State.sendFrame_aside {W : Nat → Prop} {b : Nat} (f : List Byte) (hb : W (0x401000 + 0x100 * b)) : Aside W s (s.sendFrame b f) := by
  unfold State.sendFrame
  extract_lets k q t
  have ht : Aside W s t := s.sendUnit_aside b _
  exact .ite ((ht.setLink _ _).wr _ hb) ((Aside.refl s).setLink _ _)

theorem State.returnCredits_aside {W : Nat → Prop} {b : Nat} (n : Nat) (hb : W (0x401004 + 0x100 * b)) :
    Aside W s (s.returnCredits b n) := by
  unfold State.returnCredits
  exact .ite ((Aside.refl s).setLink _ _) (((Aside.refl s).wr _ hb).trans (State.sendUnit_aside _ _ _))

theorem State.freeCredits_aside {W : Nat → Prop} {b : Nat} (n : Nat) (hb : W (0x401004 + 0x100 * b)) (hc : W (0x40100c + 0x100 * b)) :
    Aside W s (s.freeCredits b n) := ((Aside.refl s).wr _ hc).trans (State.returnCredits_aside _ n hb)

theorem State.doneFrame_link (b : BundleId) (f : List Byte) : Aside linkPage s (s.doneFrame b.val f) :=
  ((Aside.refl s).setLink _ _).trans (State.freeCredits_aside _ _ ⟨by omega, by omega⟩ ⟨by omega, by omega⟩)

theorem State.doneFrame_aside (b : BundleId) (f : List Byte) : Aside asideWord s (s.doneFrame b.val f) :=
  (s.doneFrame_link b f).mono fun _ => asideWord_of_linkPage

theorem State.say_link {b : Nat} (hb : b < 8) (ty n : Nat) (p : List Byte) : Aside linkPage s (s.say b ty n p) :=
  s.sendFrame_aside _ ⟨by omega, by omega⟩

theorem State.say_aside {b : Nat} (hb : b < 8) (ty n : Nat) (p : List Byte) : Aside asideWord s (s.say b ty n p) :=
  (s.say_link hb ty n p).mono fun _ => asideWord_of_linkPage

theorem State.event_aside (a b c d e : Nat) : Aside asideWord s (s.event a b c d e) := by
  have h := s.event_within a b c d e
  obtain ⟨hsess, hflows⟩ := h.sess.resolve_left (by decide)
  obtain ⟨-, htimeb⟩ := h.time.resolve_left (by decide)
  exact ⟨hsess, hflows, h.deck.resolve_left (by decide), h.hbm.resolve_left (by decide), h.plans.resolve_left (by decide),
    h.tricks.resolve_left (by decide), htimeb, fun o ho => s.word_event a b c d e (not_asideWord_iff.mp ho).1⟩

theorem State.record_aside {W : Nat → Prop} (a b c d : Nat) (l : List Byte) : Aside W s (s.record a b c d l) := by
  rw [s.record_eq a b c d l]
  exact ⟨rfl, rfl, rfl, rfl, rfl, rfl, rfl, fun _ _ => rfl⟩

theorem State.sessionEvent_aside (n a x : Nat) : Aside asideWord s (s.sessionEvent n a x) := s.event_aside ..
theorem State.flowEvent_aside (f a : Nat) : Aside asideWord s (s.flowEvent f a) := s.event_aside ..
theorem State.sessRecord_aside {W : Nat → Prop} (n : Nat) : Aside W s (s.sessRecord n) := s.record_aside ..
theorem State.flowRecord_aside {W : Nat → Prop} (f : Nat) : Aside W s (s.flowRecord f) := s.record_aside ..

/-! ### The frames of a bundle (R119, R148) -/

theorem State.outFrames_of_links {s t : State} (h : t.links = s.links) (b : Nat) : t.outFrames b = s.outFrames b := by
  simp only [State.outFrames, State.link, h]

theorem State.outFrames_setLink {b : Nat} {x : Link} (h : x.unacked = (s.link b).unacked) (hq : x.txq = (s.link b).txq) (c : Nat) :
    (s.setLink b x).outFrames c = s.outFrames c := by
  unfold State.outFrames
  by_cases hc : c = b
  · rw [hc, State.link_setLink_same, h, hq]
  · rw [State.link_setLink_other _ hc]

theorem State.outFrames_sendUnit (b : Nat) (l : List Byte) (c : Nat) : (s.sendUnit b l).outFrames c = s.outFrames c :=
  s.outFrames_setLink (b := b) (x := { s.link b with tx := (s.dealt b l).1 }) rfl rfl c

@[simp] theorem State.outFrames_wr (f : Fld) (i v b : Nat) : (s.wr f i v).outFrames b = s.outFrames b := State.outFrames_of_links rfl b
@[simp] theorem State.outFrames_setWord (o : Nat) (v : Word) (b : Nat) : (s.setWord o v).outFrames b = s.outFrames b :=
  State.outFrames_of_links rfl b
@[simp] theorem State.outFrames_wr64 (r : Reg64) (i v b : Nat) : (s.wr64 r i v).outFrames b = s.outFrames b := State.outFrames_of_links rfl b
@[simp] theorem State.outFrames_flag (f : Fld) (i b : Nat) : (s.flag f i).outFrames b = s.outFrames b := State.outFrames_of_links rfl b
@[simp] theorem State.outFrames_bump (f : Fld) (i n b : Nat) : (s.bump f i n).outFrames b = s.outFrames b := State.outFrames_of_links rfl b
@[simp] theorem State.outFrames_setSession (n : Nat) (x : SessionX) (b : Nat) : (s.setSession n x).outFrames b = s.outFrames b :=
  State.outFrames_of_links rfl b
@[simp] theorem State.outFrames_setFlow (f : Nat) (x : FlowX) (b : Nat) : (s.setFlow f x).outFrames b = s.outFrames b :=
  State.outFrames_of_links rfl b
@[simp] theorem State.outFrames_event (a b c d e k : Nat) : (s.event a b c d e).outFrames k = s.outFrames k :=
  State.outFrames_of_links ((s.event_within a b c d e).links.resolve_left (by decide)) k
@[simp] theorem State.outFrames_sessionEvent (n a x b : Nat) : (s.sessionEvent n a x).outFrames b = s.outFrames b := s.outFrames_event ..
@[simp] theorem State.outFrames_flowEvent (f a b : Nat) : (s.flowEvent f a).outFrames b = s.outFrames b := s.outFrames_event ..
@[simp] theorem State.outFrames_record (a b c d : Nat) (l : List Byte) (k : Nat) : (s.record a b c d l).outFrames k = s.outFrames k := by
  rw [s.record_eq a b c d l]; exact State.outFrames_of_links rfl k
@[simp] theorem State.outFrames_sessRecord (n b : Nat) : (s.sessRecord n).outFrames b = s.outFrames b := s.outFrames_record ..
@[simp] theorem State.outFrames_flowRecord (f b : Nat) : (s.flowRecord f).outFrames b = s.outFrames b := s.outFrames_record ..
@[simp] theorem State.outFrames_takeFrame (b c : Nat) : (s.takeFrame b).outFrames c = s.outFrames c :=
  s.outFrames_setLink (x := { s.link b with rxq := (s.link b).rxq.drop 1 }) rfl rfl c

@[simp] theorem State.outFrames_freeCredits (b n c : Nat) : (s.freeCredits b n).outFrames c = s.outFrames c := by
  have hreturn : ∀ t : State, (t.returnCredits b n).outFrames c = t.outFrames c := fun t => by
    unfold State.returnCredits
    split
    · exact t.outFrames_setLink (x := { t.link b with owed := (t.link b).owed + n }) rfl rfl c
    · exact (State.outFrames_sendUnit _ b _ c).trans (t.outFrames_wr ..)
  exact (hreturn _).trans (s.outFrames_wr ..)

@[simp] theorem State.outFrames_doneFrame (b : Nat) (f : List Byte) (c : Nat) : (s.doneFrame b f).outFrames c = s.outFrames c :=
  (State.outFrames_freeCredits ..).trans (s.outFrames_takeFrame b c)

theorem State.txq_sendData (b q : Nat) (f : List Byte) : ((s.sendData b q f).link b).txq = (s.link b).txq := by
  rw [State.sendData, State.link_sendUnit_same]

theorem State.outFrames_sendFrame_same (b : Nat) (f : List Byte) : (s.sendFrame b f).outFrames b = s.outFrames b ++ [f] := by
  unfold State.sendFrame
  extract_lets k q t _ u
  split
  · next h =>
    simp only [Bool.and_eq_true, List.isEmpty_iff] at h
    obtain ⟨⟨⟨-, hq⟩, -⟩, -⟩ := h
    have htxq : (t.link b).txq = [] := (s.txq_sendData b q f).trans hq
    rw [State.outFrames_wr]
    simp only [State.outFrames, u, State.link_setLink_same, List.map_append, List.map_cons, List.map_nil]
    rw [htxq, hq, List.append_nil, List.append_nil]
  · simp only [State.outFrames, State.link_setLink_same, List.append_assoc]
    rfl

theorem State.outFrames_sendFrame_other {b c : Nat} (h : c ≠ b) (f : List Byte) : (s.sendFrame b f).outFrames c = s.outFrames c := by
  unfold State.sendFrame
  extract_lets k q t _ u
  split
  · rw [State.outFrames_wr]
    simp only [State.outFrames, u, t, State.sendData, State.link_setLink_other _ h, State.link_sendUnit_other _ _ _ h]
  · simp only [State.outFrames, State.link_setLink_other _ h]

theorem State.outFrames_say (b ty n : Nat) (p : List Byte) : (s.say b ty n p).outFrames b = s.outFrames b ++ [s.mkFrame ty n p] :=
  s.outFrames_sendFrame_same b _

/-! ### The head of a frame (R112, R148) -/

/-- What the head of a frame of session `n` shows is as it was. -/
structure SameHead (n : Nat) (s t : State) : Prop where
  id : t.moduleId = s.moduleId
  epoch : t.rd .VSN_SSTAT_EPOCH n = s.rd .VSN_SSTAT_EPOCH n
  acks : (t.session n).acks = (s.session n).acks
  next : ∀ f, t.rd .VSN_FNEXT_NEXT f = s.rd .VSN_FNEXT_NEXT f

section
variable {s} {t u : State} {n : Nat}

theorem SameHead.refl (s : State) : SameHead n s s := ⟨rfl, rfl, rfl, fun _ => rfl⟩

theorem SameHead.mkFrame (h : SameHead n s t) (ty : Nat) (p : List Byte) : t.mkFrame ty n p = s.mkFrame ty n p := by
  have hpiggy : t.piggy n = s.piggy n := by simp only [State.piggy, h.acks, h.next]
  simp only [State.mkFrame, h.id, h.epoch, hpiggy]

theorem Aside.moduleId (h : Aside asideWord s t) : t.moduleId = s.moduleId :=
  h.rd (not_asideWord_iff.mpr ⟨by decide, by decide, by decide⟩)

theorem SameHead.aside (h : SameHead n s t) (k : Aside asideWord t u) : SameHead n s u :=
  ⟨k.moduleId.trans h.id, (k.calm (by decide) n).trans h.epoch, by rw [k.session, h.acks], fun f => (k.calm (by decide) f).trans (h.next f)⟩

theorem Aside.sameHead (h : Aside asideWord s t) (n : Nat) : SameHead n s t := (SameHead.refl s).aside h

theorem Aside.mkFrame (h : Aside asideWord s t) (ty n : Nat) (p : List Byte) : t.mkFrame ty n p = s.mkFrame ty n p :=
  (h.sameHead n).mkFrame ty p

/-- A register that no head shows. -/
theorem SameHead.setWord (h : SameHead n s t) {o : Nat} (v : Word) (ho : o ≠ 0x8 ∧ o ≠ 0x402000 + 0x40 * n ∧ (o < 0x410004 ∨ o % 16 ≠ 4)) :
    SameHead n s (t.setWord o v) := by
  obtain ⟨hid, hepoch, hnext⟩ := ho
  refine ⟨(State.rd_of_word _ _ (t.word_setWord_other _ _ ?_)).trans h.id, (State.rd_of_word _ _ (t.word_setWord_other _ _ ?_)).trans h.epoch,
    h.acks, fun f => (State.rd_of_word _ _ (t.word_setWord_other _ _ ?_)).trans (h.next f)⟩
  · exact hid.symm
  · exact hepoch.symm
  · simp only [Fld.at, Fld.VSN_FNEXT_NEXT]; omega

theorem SameHead.setFlow (h : SameHead n s t) (f : Nat) (x : FlowX) : SameHead n s (t.setFlow f x) :=
  ⟨h.id, h.epoch, h.acks, h.next⟩

end

end Sys2Proof.Machine

/-! # Lists of flows (R162), and what the end of a frame leaves of them -/

namespace Sys2Proof.Machine

variable (s : State)

/-! ### Which flows are assigned -/

theorem inRegs_bounds {base stride count o : Nat} (h : inRegs base stride count o = true) : base ≤ o ∧ o ≤ base + stride * count := by
  simp only [inRegs, Bool.and_eq_true, decide_eq_true_eq] at h
  obtain ⟨hlo, hin⟩ := h
  refine ⟨hlo, ?_⟩
  split at hin
  · have : o = base := by simpa using hin
    omega
  · simp only [Bool.and_eq_true, beq_iff_eq, decide_eq_true_eq] at hin
    obtain ⟨hdvd, hlt⟩ := hin
    have hmul := Nat.div_add_mod (o - base) stride
    have hle : stride * ((o - base) / stride) ≤ stride * count := Nat.mul_le_mul_left _ hlt.le
    omega

/-- The registers of flows are 0 at reset. -/
theorem resetWord_of_flow {f : Nat} (hf : f < 40960) : resetWord (0x410000 + 16 * f) = 0 := by
  have hrows : ∀ r ∈ resetRows, r.1 + r.2.1 * r.2.2.1 < 0x410000 ∨ 0x4b0000 ≤ r.1 := by decide +kernel
  have hnone : resetRows.find? (fun r => inRegs r.1 r.2.1 r.2.2.1 (0x410000 + 16 * f)) = none := by
    refine List.find?_eq_none.mpr fun r hr hin => ?_
    obtain ⟨hlo, hhi⟩ := inRegs_bounds hin
    have := hrows r hr
    omega
  rw [resetWord, hnone]

theorem mem_tkeys_of_tget {α : Type} {d : α} {t : Tbl α} {k : Nat} (h : tget d t k ≠ d) : k ∈ tkeys t := by
  induction t with
  | nil => exact absurd rfl h
  | cons p r ih =>
    obtain ⟨j, v⟩ := p
    by_cases hj : j = k
    · exact hj ▸ List.mem_cons_self ..
    · exact List.mem_cons_of_mem _ (ih (by simpa [tget, hj] using h))

theorem State.mem_flowList {f : Nat} : f ∈ s.flowList ↔ f < 40960 ∧ s.rd .VSN_FSTAT_STATE f ≠ flFree := by
  simp only [State.flowList, List.mem_filterMap, Option.ite_none_right_eq_some, Option.some.injEq]
  constructor
  · rintro ⟨o, -, ⟨hlo, hhi, -, hst⟩, rfl⟩
    exact ⟨by omega, hst⟩
  · rintro ⟨hf, hst⟩
    have hidx : (0x410000 + 16 * f - 0x410000) / 16 = f := by omega
    refine ⟨0x410000 + 16 * f, mem_tkeys_of_tget (d := 0) fun hzero => hst ?_, ⟨by omega, by omega, by omega, by rwa [hidx]⟩, hidx⟩
    have hword : s.word (Fld.VSN_FSTAT_STATE.at f) = 0 := by
      show tget 0 s.regs (0x410000 + 16 * f) ^^^ resetWord (0x410000 + 16 * f) = 0
      rw [hzero, resetWord_of_flow hf]; rfl
    rw [State.rd, hword]; rfl

theorem State.mem_flowsOf {f n : Nat} :
    f ∈ s.flowsOf n ↔ f < 40960 ∧ s.rd .VSN_FSTAT_STATE f ≠ flFree ∧ s.rd .VSN_FSTAT_SESSION f = n := by
  rw [State.flowsOf, List.mem_filter, s.mem_flowList, and_assoc, beq_iff_eq]

/-! ### The list itself stands while only the link layer's registers move -/

/-- A register that is none of the link layers. -/
def offLink (p : Nat × Word) : Bool := decide (p.1 < 0x401000) || decide (0x402000 ≤ p.1)

theorem filter_tdel {α : Type} {q : Nat × α → Bool} {k : Nat} (h : ∀ v, q (k, v) = false) (t : Tbl α) :
    (tdel t k).filter q = t.filter q := by
  induction t with
  | nil => rfl
  | cons p r ih =>
    obtain ⟨j, v⟩ := p
    by_cases hj : j = k
    · subst hj; simp [tdel, h v, ih]
    · simp only [tdel, hj, if_false, List.filter_cons, ih]

theorem filter_tins {α : Type} {q : Nat × α → Bool} {k : Nat} (h : ∀ v, q (k, v) = false) (v : α) (t : Tbl α) :
    (tins k v t).filter q = t.filter q := by
  induction t with
  | nil => simp [tins, h v]
  | cons p r ih =>
    obtain ⟨j, w⟩ := p
    by_cases hj : k < j
    · simp [tins, hj, h v]
    · simp only [tins, hj, if_false, List.filter_cons, ih]

/-- A write of a key that a filter drops is not seen behind it. -/
theorem filter_tset {α : Type} [DecidableEq α] (d : α) {q : Nat × α → Bool} {k : Nat} (h : ∀ v, q (k, v) = false) (t : Tbl α) (v : α) :
    (tset d t k v).filter q = t.filter q := by
  unfold tset
  split
  · exact filter_tdel h t
  · rw [filter_tins h, filter_tdel h]

theorem State.offLink_setWord {o : Nat} (hlo : 0x401000 ≤ o) (hhi : o < 0x402000) (v : Word) :
    (s.setWord o v).regs.filter offLink = s.regs.filter offLink :=
  filter_tset 0 (fun w => by simp only [offLink, Bool.or_eq_false_iff, decide_eq_false_iff_not]; omega) _ _

theorem State.offLink_freeCredits {b : Nat} (hb : b < 8) (n : Nat) :
    (s.freeCredits b n).regs.filter offLink = s.regs.filter offLink := by
  have hreturn : ∀ t : State, (t.returnCredits b n).regs.filter offLink = t.regs.filter offLink := fun t => by
    unfold State.returnCredits
    split
    · rfl
    · exact t.offLink_setWord (o := 0x401004 + 0x100 * b) (by omega) (by omega) _
  exact (hreturn _).trans (s.offLink_setWord (o := 0x40100c + 0x100 * b) (by omega) (by omega) _)

theorem State.offLink_doneFrame (b : BundleId) (f : List Byte) :
    (s.doneFrame b.val f).regs.filter offLink = s.regs.filter offLink :=
  State.offLink_freeCredits _ (by omega) _

theorem State.flowList_congr {s t : State} (hkeys : t.regs.filter offLink = s.regs.filter offLink)
    (hst : ∀ f, t.rd .VSN_FSTAT_STATE f = s.rd .VSN_FSTAT_STATE f) : t.flowList = s.flowList := by
  have hdrop : ∀ u : State, u.flowList = (tkeys (u.regs.filter offLink)).filterMap (fun o =>
      if 0x410000 ≤ o ∧ o < 0x4B0000 ∧ o % 16 = 0 ∧ u.rd .VSN_FSTAT_STATE ((o - 0x410000) / 16) ≠ flFree then
        some ((o - 0x410000) / 16) else none) := fun u => by
    rw [State.flowList, tkeys, tkeys, List.filterMap_map, List.filterMap_map, List.filterMap_filter]
    refine List.filterMap_congr fun p _ => ?_
    by_cases hp : offLink p = true
    · rw [if_pos hp]
    · rw [if_neg hp]
      refine if_neg fun ⟨hlo, _⟩ => hp ?_
      have hkey : 0x410000 ≤ p.1 := hlo
      simp only [offLink, Bool.or_eq_true, decide_eq_true_eq]
      omega
  rw [hdrop, hdrop, hkeys]
  simp only [hst]

theorem State.flowList_doneFrame (b : BundleId) (f : List Byte) : (s.doneFrame b.val f).flowList = s.flowList :=
  State.flowList_congr (s.offLink_doneFrame b f) fun k => (s.doneFrame_aside b f).calm (by decide) k

end Sys2Proof.Machine

/-! # O18: SOPEN opens a session or resumes one (R126 to R133, R155, R156) -/

namespace Sys2Proof.Machine

variable (s : State)

/-! ### Several frames of a session -/

theorem State.sayAll_effect {b : Nat} (hb : b < 8) (n : Nat) (l : List (Nat × List Byte)) :
    Aside asideWord s (l.foldl (fun s p => s.say b p.1 n p.2) s) ∧
    (l.foldl (fun s p => s.say b p.1 n p.2) s).outFrames b = s.outFrames b ++ l.map (fun p => s.mkFrame p.1 n p.2) := by
  induction l generalizing s with
  | nil => exact ⟨.refl s, (List.append_nil _).symm⟩
  | cons p r ih =>
    have hsay := s.say_aside hb p.1 n p.2
    obtain ⟨haside, hframes⟩ := ih (s.say b p.1 n p.2)
    refine ⟨hsay.trans haside, ?_⟩
    rw [List.foldl_cons, hframes, State.outFrames_say, List.map_cons, List.append_assoc, List.singleton_append]
    simp only [hsay.mkFrame]

/-! ### A grant (R127) -/

/-- The session's registers and record when its grant is answered. -/
def State.granted (s : State) (b n epoch nonce kind : Nat) : State :=
  let t := ((s.wr .VSN_SSTAT_STATE n ssReadyWait).wr .VSN_SSTAT_BUNDLE n b).wr .VSN_SSTAT_EPOCH n epoch
  let t := t.setSession n { t.session n with nonce := nonce, kind := kind, warmSince := false, coldKind := 0 }
  t.setSession n { t.session n with answer := t.answerOf n }

theorem State.granted_effect (b n epoch nonce kind : Nat) (hb : b < 8) (he : epoch < 256) :
    (s.granted b n epoch nonce kind).rd .VSN_SSTAT_STATE n = ssReadyWait ∧ (s.granted b n epoch nonce kind).rd .VSN_SSTAT_BUNDLE n = b ∧
    (s.granted b n epoch nonce kind).rd .VSN_SSTAT_EPOCH n = epoch ∧
    (s.granted b n epoch nonce kind).rd .VSN_SPEER_ENDPOINT n = s.rd .VSN_SPEER_ENDPOINT n ∧
    (s.granted b n epoch nonce kind).rd64 .VSN_STOKEN n = s.rd64 .VSN_STOKEN n ∧
    ((s.granted b n epoch nonce kind).session n).kind = kind ∧ (s.granted b n epoch nonce kind).flows = s.flows := by
  unfold State.granted
  refine ⟨?_, ?_, ?_, ?_, ?_, ?_, ?_⟩
  · simp (disch := decide) only [State.rd_setSession, State.rd_wr_apart, State.rd_wr_same]; decide
  · simp (disch := decide) only [State.rd_setSession, State.rd_wr_apart, State.rd_wr_same]; exact Nat.mod_eq_of_lt hb
  · simp (disch := decide) only [State.rd_setSession, State.rd_wr_same]; exact Nat.mod_eq_of_lt he
  · simp (disch := decide) only [State.rd_setSession, State.rd_wr_apart]
  · simp only [State.rd64_of_regs (State.setSession_regs ..)]
    simp (disch := decide) only [State.rd64_wr_apart]
  · simp only [State.session_setSession_same]
  · rw [State.setSession_flows, State.setSession_flows, State.wr_flows, State.wr_flows, State.wr_flows]

/-- Beside the frames of its answer, an event and a record follow the grant. -/
theorem State.grant_effect {b : Nat} (hb : b < 8) (n epoch nonce kind action : Nat) :
    Aside asideWord (s.granted b n epoch nonce kind) (s.grant b n epoch nonce kind action) ∧
    (s.grant b n epoch nonce kind action).outFrames b = s.outFrames b ++
      ((s.granted b n epoch nonce kind).session n).answer.map (fun p => (s.granted b n epoch nonce kind).mkFrame p.1 n p.2) := by
  obtain ⟨haside, hframes⟩ := (s.granted b n epoch nonce kind).sayAll_effect hb n ((s.granted b n epoch nonce kind).session n).answer
  have heq : s.grant b n epoch nonce kind action =
      ((((s.granted b n epoch nonce kind).sendAnswer b n).sessionEvent n action (if action = 2 then kind else 0)).sessRecord n) := rfl
  rw [heq]
  refine ⟨(haside.trans (State.sessionEvent_aside ..)).trans (State.sessRecord_aside ..), ?_⟩
  rw [State.outFrames_sessRecord, State.outFrames_sessionEvent]
  refine hframes.trans (congrArg (· ++ _) ?_)
  simp only [State.granted, State.outFrames_setSession, State.outFrames_wr]

/-- The answer to a new session is its SGRANT alone. -/
theorem State.granted_answer_new (b n epoch nonce : Nat) (he : epoch < 256) :
    ((s.granted b n epoch nonce 0).session n).answer = [(0x11, leBytes 1 n ++ leBytes 1 epoch ++ leBytes 2 0 ++ leBytes 4 nonce ++
      leBytes 8 (s.rd64 .VSN_STOKEN n) ++ leBytes 4 0 ++ leBytes 8 (s.tricks.cur.getD (2 ^ 64 - 1)) ++ leBytes 4 0)] := by
  have hzero : leBytes 1 0 ++ leBytes 1 0 = leBytes 2 0 := by decide
  unfold State.granted
  simp only [State.session_setSession_same, State.answerOf, State.grantPayload, State.fstates, List.length_nil,
    List.isEmpty_nil, if_true, List.map_nil, Bool.true_or, decide_true]
  simp only [State.rd64_of_regs (State.setSession_regs ..)]
  simp (disch := decide) only [State.rd_setSession, State.rd_wr_same, State.rd64_wr_apart, ← hzero, List.append_assoc,
    State.setSession_tricks, State.wr_tricks]
  rw [show epoch % 2 ^ Fld.VSN_SSTAT_EPOCH.w = epoch from Nat.mod_eq_of_lt he]
  cases s.tricks.cur <;> rfl

/-! ### A new session (R126, R132) -/

/-- A slot's endpoint, token and tokens before the grant. -/
def State.slotTaken (s : State) (n ep : Nat) (tok : Nat) : State :=
  ((s.drawn.setSession n { tokens := tok :: (s.session n).tokens }).wr .VSN_SPEER_ENDPOINT n ep).wr64 .VSN_STOKEN n tok

theorem State.newSession_eq (b n ep nonce : Nat) : s.newSession b n ep nonce =
    (s.slotTaken n ep (s.newToken n (((s.session n).lastEpoch + 1) % 256))).grant b n (((s.session n).lastEpoch + 1) % 256) nonce 0 1 :=
  rfl

/-- Module, slot and epoch lead a token. -/
theorem State.newToken_head (n epoch : Nat) :
    s.newToken n epoch / 2 ^ 40 = s.moduleId * 2 ^ 16 + n * 2 ^ 8 + epoch ∧
    (n < 256 → epoch < 256 → s.newToken n epoch < 2 ^ 64) := by
  have hid : s.moduleId < 256 := s.rd_lt .MOD_ID_ID 0
  unfold State.newToken
  extract_lets old tok
  generalize hk : ((List.range (old.length + 1)).find? (fun k => !old.contains (tok k))).getD 0 = k
  have hlow : (s.freeVal.toNat + k) % 2 ^ 40 < 2 ^ 40 := Nat.mod_lt _ (by decide)
  simp only [tok]
  omega

theorem State.slotTaken_effect {n : Nat} (ep : Nat) {tok : Nat} (hep : ep < 2 ^ 32) (htok : tok < 2 ^ 64) :
    (s.slotTaken n ep tok).rd .VSN_SPEER_ENDPOINT n = ep ∧ (s.slotTaken n ep tok).rd64 .VSN_STOKEN n = tok ∧
    (s.slotTaken n ep tok).flows = s.flows ∧ (s.slotTaken n ep tok).tricks = s.tricks ∧
    ∀ b, (s.slotTaken n ep tok).outFrames b = s.outFrames b := by
  unfold State.slotTaken
  refine ⟨?_, ?_, ?_, ?_, fun b => ?_⟩
  · simp (disch := decide) only [State.rd_wr64_apart, State.rd_wr_same]; exact Nat.mod_eq_of_lt hep
  · rw [State.rd64_wr64_same]; exact Nat.mod_eq_of_lt htok
  · rw [State.wr64_flows, State.wr_flows, State.setSession_flows, State.drawn_flows]
  · rw [State.wr64_tricks, State.wr_tricks, State.setSession_tricks, State.drawn_tricks]
  · rw [State.outFrames_wr64, State.outFrames_wr, State.outFrames_setSession]; exact State.outFrames_of_links s.drawn_links b

/-! ### A session resumed (R155, R156) -/

/-- The flow reports no loss. -/
def FlowX.lossless (x : FlowX) : FlowX := { x with lossFirst := 0, lossCount := 0 }

theorem State.flow_lossless (l : List Nat) (j : Nat) :
    (l.foldl (fun s f => s.setFlow f (s.flow f).lossless) s).flow j = if j ∈ l then (s.flow j).lossless else s.flow j := by
  induction l generalizing s with
  | nil => rfl
  | cons f r ih =>
    rw [List.foldl_cons, ih]
    by_cases hj : j = f
    · subst hj
      simp only [State.flow_setFlow_same, List.mem_cons_self, if_true]
      split <;> rfl
    · simp only [State.flow_setFlow_other _ hj, List.mem_cons, hj, false_or]

theorem State.regs_lossless (l : List Nat) : (l.foldl (fun s f => s.setFlow f (s.flow f).lossless) s).regs = s.regs ∧
    (l.foldl (fun s f => s.setFlow f (s.flow f).lossless) s).sess = s.sess := by
  induction l generalizing s with
  | nil => exact ⟨rfl, rfl⟩
  | cons f r ih => exact ih _

theorem State.resumeSession_eq {n : Nat} (b nonce : Nat) (h : (s.session n).coldKind = 0) : s.resumeSession b n nonce =
    ((s.flowsOf n).foldl (fun s f => s.setFlow f (s.flow f).lossless) s).grant b n ((s.rd .VSN_SSTAT_EPOCH n + 1) % 256) nonce
      (if (s.session n).warmSince then 2 else 1) 2 := by
  have hrd := State.rd_of_regs (s.regs_lossless (s.flowsOf n)).1 .VSN_SSTAT_EPOCH n
  rw [← hrd]
  unfold State.resumeSession
  cases hw : (s.session n).warmSince <;> simp [h, hw] <;> rfl

/-! ### Fields of a frame -/

theorem leVal_lt (l : List Byte) : leVal l < 256 ^ l.length := by
  induction l with
  | nil => exact Nat.one_pos
  | cons c r ih =>
    have hc : c.toNat < 256 := c.isLt
    have hpow : 256 ^ (c :: r).length = 256 * 256 ^ r.length := by rw [List.length_cons, Nat.pow_succ, Nat.mul_comm]
    rw [leVal, hpow]
    omega

theorem fieldAt_lt (l : List Byte) (o n : Nat) : fieldAt l o n < 256 ^ n :=
  (leVal_lt _).trans_le (Nat.pow_le_pow_right (by decide) (by rw [slice, List.length_take]; omega))

/-! ### What SOPEN is answered -/

section
variable {s : State} {b : BundleId} {f : List Byte}

theorem find_slot {p : Nat → Bool} {n : Nat} (hn : n < 256) (hp : p n = true) (hmin : ∀ k, k < n → p k = false) :
    (List.range 256).find? p = some n :=
  List.find?_range_eq_some.mpr ⟨hp, List.mem_range.mpr hn, fun k hk => by simp [hmin k hk]⟩

theorem find_no_slot {p : Nat → Bool} (h : ∀ k, k < 256 → p k = false) : (List.range 256).find? p = none :=
  List.find?_range_eq_none.mpr fun k hk => by simp [h k hk]

/-- A refusal leaves every session and flow. -/
theorem State.srefuse_effect (r nonce : Nat) :
    ((s.doneFrame b.val f).srefuse b.val r nonce).sess = s.sess ∧ ((s.doneFrame b.val f).srefuse b.val r nonce).flows = s.flows ∧
    ((s.doneFrame b.val f).srefuse b.val r nonce).outFrames b.val = s.outFrames b.val ++
      [s.mkFrame 0x12 0 (leBytes 1 r ++ leBytes 3 0 ++ leBytes 4 nonce ++ leBytes 24 0)] := by
  have hdone := s.doneFrame_aside b f
  have hall := hdone.trans ((s.doneFrame b.val f).say_aside (b := b.val) (by omega) 0x12 0
    (leBytes 1 r ++ leBytes 3 0 ++ leBytes 4 nonce ++ leBytes 24 0))
  exact ⟨hall.sess, hall.flows, by rw [State.srefuse, State.outFrames_say, State.outFrames_doneFrame, hdone.mkFrame]⟩

/-- A register of a bundle's partner. -/
theorem Aside.endpoint {t : State} (h : Aside asideWord s t) (b : BundleId) : t.rd .VLK_BPEER_ENDPOINT b.val = s.rd .VLK_BPEER_ENDPOINT b.val := by
  refine h.rd (not_asideWord_iff.mpr ?_)
  simp only [eventWord, refuseWord, Bool.or_eq_false_iff, beq_eq_false_iff_ne, Bool.and_eq_false_iff, Fld.at,
    Fld.VLK_BPEER_ENDPOINT]
  omega

/-- What SOPEN is answered once its frame has left the receive buffer; the registers it is decided by are as they were. -/
def State.sopenAnswer (s : State) (b : Nat) (f : List Byte) : State :=
  let t := s.doneFrame b f
  let ep := fieldAt (fPayload f) 0 4
  let nonce := fieldAt (fPayload f) 4 4
  let tok := fieldAt (fPayload f) 8 8
  if fModule f ≠ s.moduleId || s.moduleId = 255 then t.srefuse b 4 nonce
  else if ep ≠ s.rd .VLK_BPEER_ENDPOINT b then t.srefuse b 5 nonce
  else match (List.range 256).find? (fun n => s.rd .VSN_SSTAT_STATE n == ssReadyWait && s.rd .VSN_SPEER_ENDPOINT n == ep &&
      (s.session n).nonce == nonce) with
    | some n => (t.wr .VSN_SSTAT_BUNDLE n b).sendAnswer b n
    | none =>
      if tok ≠ 0 then
        match (List.range 256).find? (fun n => s.rd .VSN_SSTAT_STATE n != ssFree && t.rd64 .VSN_STOKEN n == tok) with
        | some n => if t.suspended && (s.session n).coldKind == 4 then s else t.resumeSession b n nonce
        | none => t.srefuse b 2 nonce
      else if !s.on .VSN_CTL_OPEN_EN then t.srefuse b 3 nonce
      else match (List.range 256).find? (fun n => s.rd .VSN_SSTAT_STATE n == ssFree) with
        | some n => t.newSession b n ep nonce
        | none => t.srefuse b 1 nonce

theorem exec_sopen (hnext : s.isNext b.val f = true) (hform : formOk f 0x10 32 = true) :
    exec (.sopen b f) s = .next (s.sopenAnswer b.val f) := by
  have hdone := s.doneFrame_aside b f
  have hst := hdone.calm (f := .VSN_SSTAT_STATE) (by decide)
  have hpeer := hdone.calm (f := .VSN_SPEER_ENDPOINT) (by decide)
  have hopen : (s.doneFrame b.val f).on .VSN_CTL_OPEN_EN = s.on .VSN_CTL_OPEN_EN :=
    State.on_of_word _ _ (hdone.word _ (not_asideWord_iff.mpr ⟨by decide, by decide, by decide⟩))
  show execSopen b f s = _
  simp only [execSopen, State.sopenAnswer, hnext, hform, Bool.not_true, Bool.false_eq_true, if_false, hdone.moduleId, hdone.endpoint b, hst,
    hpeer, hdone.session, hopen] <;> rfl

/-- The same SOPEN again: the answer that was kept, on the bundle it came on. -/
theorem State.sopen_repeated {n : Nat} (hst : s.rd .VSN_SSTAT_STATE n = ssReadyWait) :
    let t := ((s.doneFrame b.val f).wr .VSN_SSTAT_BUNDLE n b.val).sendAnswer b.val n
    t.rd .VSN_SSTAT_BUNDLE n = b.val ∧ t.rd .VSN_SSTAT_STATE n = ssReadyWait ∧ t.sess = s.sess ∧ t.flows = s.flows ∧
    t.outFrames b.val = s.outFrames b.val ++ (s.session n).answer.map (fun p => s.mkFrame p.1 n p.2) := by
  have hdone := s.doneFrame_aside b f
  let v := (s.doneFrame b.val f).wr .VSN_SSTAT_BUNDLE n b.val
  obtain ⟨haside, hframes⟩ := v.sayAll_effect (b := b.val) (by omega) n (v.session n).answer
  have hframe : ∀ ty p, v.mkFrame ty n p = s.mkFrame ty n p := fun ty p => by
    rw [← hdone.mkFrame]
    refine SameHead.mkFrame ⟨?_, (s.doneFrame b.val f).rd_wr_apart (by decide) n b.val, rfl, fun k => ?_⟩ ty p
    · exact State.rd_wr_other _ _ _ _ _ _ (.inl (by simp only [Fld.at, Fld.MOD_ID_ID, Fld.VSN_SSTAT_BUNDLE]; omega))
    · exact State.rd_wr_other _ _ _ _ _ _ (.inl (by simp only [Fld.at, Fld.VSN_FNEXT_NEXT, Fld.VSN_SSTAT_BUNDLE]; omega))
  have hrecord : v.session n = s.session n := hdone.session n
  refine ⟨?_, ?_, haside.sess.trans hdone.sess, haside.flows.trans hdone.flows, ?_⟩
  · rw [State.sendAnswer, haside.calm (by decide), State.rd_wr_same _ _ _ _ (by decide)]
    exact Nat.mod_eq_of_lt (by omega : b.val < 8)
  · rw [State.sendAnswer, haside.calm (by decide), State.rd_wr_apart _ (by decide), hdone.calm (by decide), hst]
  · rw [State.sendAnswer, hframes, State.outFrames_wr, State.outFrames_doneFrame, hrecord]
    simp only [hframe]

/-- A new session in slot `n`. -/
theorem State.sopen_new (n : SessionId) {ep : Nat} (nonce : Nat) (hep : ep < 2 ^ 32) :
    let t := (s.doneFrame b.val f).newSession b.val n.val ep nonce
    let e := ((s.session n.val).lastEpoch + 1) % 256
    t.rd .VSN_SSTAT_STATE n.val = ssReadyWait ∧ t.rd .VSN_SSTAT_BUNDLE n.val = b.val ∧ t.rd .VSN_SSTAT_EPOCH n.val = e ∧
    t.rd .VSN_SPEER_ENDPOINT n.val = ep ∧ t.rd64 .VSN_STOKEN n.val / 2 ^ 40 = s.moduleId * 2 ^ 16 + n.val * 2 ^ 8 + e ∧ t.flows = s.flows ∧
    t.outFrames b.val = s.outFrames b.val ++ [t.mkFrame 0x11 n.val (leBytes 1 n.val ++ leBytes 1 e ++
      leBytes 2 0 ++ leBytes 4 nonce ++ leBytes 8 (t.rd64 .VSN_STOKEN n.val) ++ leBytes 4 0 ++
      leBytes 8 (s.tricks.cur.getD (2 ^ 64 - 1)) ++ leBytes 4 0)] := by
  have hdone := s.doneFrame_aside b f
  have he : ((s.session n.val).lastEpoch + 1) % 256 < 256 := Nat.mod_lt _ (by decide)
  rw [State.newSession_eq, hdone.session]
  obtain ⟨hhead, hlt⟩ := (s.doneFrame b.val f).newToken_head n.val (((s.session n.val).lastEpoch + 1) % 256)
  obtain ⟨hpeer, htoken, hflows, htricks, hout⟩ := (s.doneFrame b.val f).slotTaken_effect (n := n.val) ep hep (hlt n.isLt he)
  generalize (s.doneFrame b.val f).newToken n.val (((s.session n.val).lastEpoch + 1) % 256) = tok at *
  generalize ((s.session n.val).lastEpoch + 1) % 256 = e at *
  generalize (s.doneFrame b.val f).slotTaken n.val ep tok = v at *
  obtain ⟨gst, gbundle, gepoch, gpeer, gtoken, -, gflows⟩ := v.granted_effect b.val n.val e nonce 0 (by omega) he
  obtain ⟨haside, hframes⟩ := v.grant_effect (b := b.val) (by omega) n.val e nonce 0 1
  have htok := (haside.token n.isLt).trans (gtoken.trans htoken)
  refine ⟨(haside.calm (by decide) _).trans gst, (haside.calm (by decide) _).trans gbundle, (haside.calm (by decide) _).trans gepoch,
    (haside.calm (by decide) _).trans (gpeer.trans hpeer), ?_, haside.flows.trans (gflows.trans (hflows.trans hdone.flows)), ?_⟩
  · rw [htok, hhead, hdone.moduleId]
  · rw [hframes, hout, State.outFrames_doneFrame, v.granted_answer_new _ _ _ _ he, htok, htoken, htricks, hdone.tricks, haside.mkFrame,
      List.map_cons, List.map_nil]

/-- A session resumed. -/
theorem State.sopen_resumed (n : SessionId) (nonce : Nat) (hcold : (s.session n.val).coldKind = 0) :
    let t := (s.doneFrame b.val f).resumeSession b.val n.val nonce
    t.rd .VSN_SSTAT_STATE n.val = ssReadyWait ∧ t.rd .VSN_SSTAT_BUNDLE n.val = b.val ∧
    t.rd .VSN_SSTAT_EPOCH n.val = (s.rd .VSN_SSTAT_EPOCH n.val + 1) % 256 ∧ t.rd64 .VSN_STOKEN n.val = s.rd64 .VSN_STOKEN n.val ∧
    (t.session n.val).kind = (if (s.session n.val).warmSince then 2 else 1) ∧ ∀ j : FlowId, t.flow j.val =
      if j.val ∈ s.flowsOf n.val then (s.flow j.val).lossless else s.flow j.val := by
  have hdone := s.doneFrame_aside b f
  have he : (s.rd .VSN_SSTAT_EPOCH n.val + 1) % 256 < 256 := Nat.mod_lt _ (by decide)
  rw [State.resumeSession_eq _ _ _ (by rw [hdone.session, hcold]), hdone.session, hdone.calm (by decide)]
  generalize (s.rd .VSN_SSTAT_EPOCH n.val + 1) % 256 = e at *
  generalize (if (s.session n.val).warmSince then 2 else 1) = kind
  have hflow := (s.doneFrame b.val f).flow_lossless ((s.doneFrame b.val f).flowsOf n.val)
  have hmem : ∀ j, j ∈ (s.doneFrame b.val f).flowsOf n.val ↔ j ∈ s.flowsOf n.val := fun j => by
    rw [State.mem_flowsOf, State.mem_flowsOf, hdone.calm (by decide), hdone.calm (by decide)]
  obtain ⟨hregs, -⟩ := (s.doneFrame b.val f).regs_lossless ((s.doneFrame b.val f).flowsOf n.val)
  generalize ((s.doneFrame b.val f).flowsOf n.val).foldl _ _ = v at *
  obtain ⟨gst, gbundle, gepoch, -, gtoken, gkind, gflows⟩ := v.granted_effect b.val n.val e nonce kind (by omega) he
  obtain ⟨haside, -⟩ := v.grant_effect (b := b.val) (by omega) n.val e nonce kind 2
  refine ⟨(haside.calm (by decide) _).trans gst, (haside.calm (by decide) _).trans gbundle, (haside.calm (by decide) _).trans gepoch,
    (haside.token n.isLt).trans (gtoken.trans ((State.rd64_of_regs hregs _ _).trans (hdone.token n.isLt))), ?_, fun j => ?_⟩
  · rw [haside.session, gkind]
  · refine (haside.flow j.val).trans ((State.flow_of_flows gflows _).trans ((hflow j.val).trans ?_))
    simp only [hmem, hdone.flow]

end

/-- Settles O18: SOPEN is answered by `State.sopenAnswer`, and each of its answers has its own lemma. -/
theorem sessionOpens : Obligations.SessionOpens := by
  intro s b f hnext hform ep nonce tok refused
  have hexec := exec_sopen hnext hform
  have hrefused : ∀ r, s.sopenAnswer b.val f = (s.doneFrame b.val f).srefuse b.val r nonce → refused r := fun r h =>
    ⟨_, hexec, by rw [h]; exact State.srefuse_effect r nonce⟩
  have hep : ep < 2 ^ 32 := fieldAt_lt _ 0 4
  refine ⟨fun h => hrefused 4 ?_, fun hmod hid => ⟨fun h => hrefused 5 ?_, fun he n hst hpeer hnonce hmin => ?_, fun he hno => ?_⟩⟩
  · rw [State.sopenAnswer, if_pos (by simpa using h)]
  · rw [State.sopenAnswer, if_neg (by simp [hmod, hid]), if_pos h]
  · have hfind : (List.range 256).find? (fun n => s.rd .VSN_SSTAT_STATE n == ssReadyWait && s.rd .VSN_SPEER_ENDPOINT n == ep &&
        (s.session n).nonce == nonce) = some n.val :=
      find_slot n.isLt (by simp [hst, hpeer, hnonce]) fun k hk => by
        have := hmin ⟨k, hk.trans n.isLt⟩ hk
        simp only [Bool.and_eq_false_iff, beq_eq_false_iff_ne]
        tauto
    have heq : s.sopenAnswer b.val f = ((s.doneFrame b.val f).wr .VSN_SSTAT_BUNDLE n.val b.val).sendAnswer b.val n.val := by
      rw [State.sopenAnswer, if_neg (by simp [hmod, hid]), if_neg (not_not.mpr he), hfind]
    exact ⟨_, hexec, by rw [heq]; exact State.sopen_repeated hst⟩
  · have hfind : (List.range 256).find? (fun n => s.rd .VSN_SSTAT_STATE n == ssReadyWait && s.rd .VSN_SPEER_ENDPOINT n == ep &&
        (s.session n).nonce == nonce) = none := find_no_slot fun k hk => by
      have := hno ⟨k, hk⟩
      simp only [Bool.and_eq_false_iff, beq_eq_false_iff_ne]
      tauto
    have htoken : ∀ k, k < 256 → (s.doneFrame b.val f).rd64 .VSN_STOKEN k = s.rd64 .VSN_STOKEN k := fun k hk =>
      (s.doneFrame_aside b f).token hk
    refine ⟨fun h0 hen => hrefused 3 ?_, fun h0 hen hfull => hrefused 1 ?_, fun h0 hunknown => hrefused 2 ?_,
      fun n => ⟨fun h0 hen hfree hmin => ?_, fun h0 hst htok hmin hcold => ?_⟩⟩
    · rw [State.sopenAnswer, if_neg (by simp [hmod, hid]), if_neg (not_not.mpr he), hfind]
      dsimp only
      rw [if_neg (not_not.mpr h0), if_pos (by simp [hen])]
    · have hnone : (List.range 256).find? (fun n => s.rd .VSN_SSTAT_STATE n == ssFree) = none :=
        find_no_slot fun k hk => beq_eq_false_iff_ne.mpr (hfull ⟨k, hk⟩)
      rw [State.sopenAnswer, if_neg (by simp [hmod, hid]), if_neg (not_not.mpr he), hfind]
      dsimp only
      rw [if_neg (not_not.mpr h0), if_neg (by simp [hen]), hnone]
    · have hnone : (List.range 256).find? (fun n => s.rd .VSN_SSTAT_STATE n != ssFree &&
          (s.doneFrame b.val f).rd64 .VSN_STOKEN n == tok) = none := find_no_slot fun k hk => by
        have := hunknown ⟨k, hk⟩
        simp only [htoken k hk, Bool.and_eq_false_iff, beq_eq_false_iff_ne, bne_eq_false_iff_eq]
        tauto
      rw [State.sopenAnswer, if_neg (by simp [hmod, hid]), if_neg (not_not.mpr he), hfind]
      dsimp only
      rw [if_pos h0, hnone]
    · have hslot : (List.range 256).find? (fun n => s.rd .VSN_SSTAT_STATE n == ssFree) = some n.val :=
        find_slot n.isLt (by simp [hfree]) fun k hk => beq_eq_false_iff_ne.mpr (hmin ⟨k, hk.trans n.isLt⟩ hk)
      have heq : s.sopenAnswer b.val f = (s.doneFrame b.val f).newSession b.val n.val ep nonce := by
        rw [State.sopenAnswer, if_neg (by simp [hmod, hid]), if_neg (not_not.mpr he), hfind]
        dsimp only
        rw [if_neg (not_not.mpr h0), if_neg (by simp [hen]), hslot]
      exact ⟨_, hexec, by rw [heq]; exact State.sopen_new n nonce hep⟩
    · have hslot : (List.range 256).find? (fun n => s.rd .VSN_SSTAT_STATE n != ssFree &&
          (s.doneFrame b.val f).rd64 .VSN_STOKEN n == tok) = some n.val :=
        find_slot n.isLt (by simp [hst, htoken n.val n.isLt, htok]) fun k hk => by
          have := hmin ⟨k, hk.trans n.isLt⟩ hk
          simp only [htoken k (hk.trans n.isLt), Bool.and_eq_false_iff, beq_eq_false_iff_ne, bne_eq_false_iff_eq]
          tauto
      have heq : s.sopenAnswer b.val f = (s.doneFrame b.val f).resumeSession b.val n.val nonce := by
        rw [State.sopenAnswer, if_neg (by simp [hmod, hid]), if_neg (not_not.mpr he), hfind]
        dsimp only
        rw [if_pos h0, hslot]
        exact if_neg (by simp [hcold])
      obtain ⟨hst', hbundle, hepoch, htoken', hkind, hflows⟩ := State.sopen_resumed (s := s) (b := b) (f := f) n nonce hcold
      exact ⟨_, hexec, by rw [heq]; exact ⟨hst', hbundle, hepoch, htoken'.trans htok, hkind, hflows⟩⟩

end Sys2Proof.Machine

/-! # Held frames freed and flows released (R124, R137, R149) -/

namespace Sys2Proof.Machine

variable (s : State)

/-! ### Frames leave the receive buffer -/

/-- The registers of credits of any bundle number, one that the module has or not. -/
def freedWord (o : Nat) : Prop := 0x401004 ≤ o ∧ (o % 0x100 = 4 ∨ o % 0x100 = 12)

theorem State.freeFrames_aside (l : List (Nat × List Byte)) : Aside freedWord s (s.freeFrames l) :=
  Aside.foldl l (fun t p _ => t.freeCredits_aside _ ⟨by omega, by omega⟩ ⟨by omega, by omega⟩) (.refl s)

@[simp] theorem State.outFrames_freeFrames (l : List (Nat × List Byte)) (b : Nat) : (s.freeFrames l).outFrames b = s.outFrames b := by
  unfold State.freeFrames
  induction l generalizing s with
  | nil => rfl
  | cons p r ih => rw [List.foldl_cons, ih, State.outFrames_freeCredits]

/-- The registers of flow `f`, of the receive buffers, and those that its events touch. -/
def flowWord (f o : Nat) : Prop :=
  eventWord o = true ∨ (0x401000 ≤ o ∧ o < 0x402000) ∨ freedWord o ∨ (0x410000 + 16 * f ≤ o ∧ o < 0x410010 + 16 * f)

theorem freedWord_flowWord {f o : Nat} (h : freedWord o) : flowWord f o := .inr (.inr (.inl h))

/-- The registers that count held frames. -/
def heldWord (f o : Nat) : Prop := o = 0x410008 + 16 * f ∨ linkPage o

theorem flowWord_of_heldWord {f o : Nat} (h : heldWord f o) : flowWord f o :=
  h.elim (fun h => .inr (.inr (.inr (by omega)))) fun h => .inr (.inl h)

/-- Beside the frames held, only the counts of R160 and R162 move. -/
theorem State.setHeld_aside (f : Nat) (l : List (Nat × List Byte)) :
    Aside (heldWord f) (s.setFlow f { s.flow f with held := l }) (s.setHeld f l) := by
  unfold State.setHeld
  refine Aside.foldl _ (fun t b hb => (Aside.refl t).wr _ (.inr ?_)) ((Aside.refl _).wr _ (.inl rfl))
  have hlt : b < 5 := List.mem_range.mp hb
  simp only [linkPage, Fld.at, Fld.VSN_LBUF_HELD]
  omega

@[simp] theorem State.outFrames_setHeld (f : Nat) (l : List (Nat × List Byte)) (b : Nat) : (s.setHeld f l).outFrames b = s.outFrames b := by
  unfold State.setHeld
  refine State.forN_induct (p := fun t => t.outFrames b = s.outFrames b) _ _ _ ?_ fun t i ht => ?_
  · rw [State.outFrames_wr, State.outFrames_setFlow]
  · rw [State.outFrames_wr, ht]

theorem State.keepHeldFrom_aside (f n : Nat) :
    Aside (flowWord f) (s.setFlow f { s.flow f with held := (s.flow f).held.drop n }) (s.keepHeldFrom f n) :=
  ((s.setHeld_aside f _).mono fun _ => flowWord_of_heldWord).trans ((State.freeFrames_aside _ _).mono fun _ => freedWord_flowWord)

theorem State.dropHeld_aside (f : Nat) : Aside (flowWord f) (s.setFlow f { s.flow f with held := [] }) (s.dropHeld f) :=
  ((s.setHeld_aside f _).mono fun _ => flowWord_of_heldWord).trans ((State.freeFrames_aside _ _).mono fun _ => freedWord_flowWord)

@[simp] theorem State.outFrames_keepHeldFrom (f n b : Nat) : (s.keepHeldFrom f n).outFrames b = s.outFrames b := by
  rw [State.keepHeldFrom, State.outFrames_freeFrames, State.outFrames_setHeld]

@[simp] theorem State.outFrames_dropHeld (f b : Nat) : (s.dropHeld f).outFrames b = s.outFrames b := by
  rw [State.dropHeld, State.outFrames_freeFrames, State.outFrames_setHeld]

/-! ### A flow is released (R137) -/

/-- The fields of `VSN_SSTAT` that say how a session stands. -/
def sstatFlds : List Fld := [.VSN_SSTAT_STATE, .VSN_SSTAT_BUNDLE, .VSN_SSTAT_EPOCH]

theorem sstatFlds_at (g : Fld) (hg : g ∈ sstatFlds) (m : Nat) : g.at m = 0x402000 + 0x40 * m ∧ g.lo + g.w ≤ 16 := by
  have hall : ∀ g ∈ sstatFlds, g.base = 0x402000 ∧ g.stride = 0x40 ∧ g.lo + g.w ≤ 16 := by decide
  obtain ⟨hbase, hstride, hbits⟩ := hall g hg
  exact ⟨by rw [Fld.at, hbase, hstride], hbits⟩

/-- The flows `l` are free, and no other flow is touched; of the sessions only the ACKs that are repeated, and no frame leaves. -/
structure Released (l : List Nat) (s t : State) : Prop where
  fstat : ∀ f, t.word (0x410000 + 16 * f) = if f ∈ l then 0 else s.word (0x410000 + 16 * f)
  flow : ∀ f, t.flow f = if f ∈ l then {} else s.flow f
  session : ∀ m, ∃ a, t.session m = { s.session m with acks := a }
  sstat : ∀ g ∈ sstatFlds, ∀ m, m < 256 → t.rd g m = s.rd g m
  id : t.moduleId = s.moduleId
  frames : ∀ b, t.outFrames b = s.outFrames b

section
variable {s} {t u : State} {l m : List Nat}

theorem Released.refl (s : State) : Released [] s s :=
  ⟨fun _ => rfl, fun _ => rfl, fun _ => ⟨_, rfl⟩, fun _ _ _ _ => rfl, rfl, fun _ => rfl⟩

theorem Released.append (h : Released l s t) (k : Released m t u) : Released (l ++ m) s u where
  fstat f := by
    rw [k.fstat, h.fstat]
    by_cases hm : f ∈ m <;> by_cases hl : f ∈ l <;> simp [hm, hl]
  flow f := by
    rw [k.flow, h.flow]
    by_cases hm : f ∈ m <;> by_cases hl : f ∈ l <;> simp [hm, hl]
  session i := by
    obtain ⟨a, ha⟩ := h.session i
    obtain ⟨c, hc⟩ := k.session i
    exact ⟨c, by rw [hc, ha]⟩
  sstat g hg i hi := (k.sstat g hg i hi).trans (h.sstat g hg i hi)
  id := k.id.trans h.id
  frames b := (k.frames b).trans (h.frames b)

theorem Released.foldl {g : State → Nat → State} (hg : ∀ t f, Released [f] t (g t f)) (l : List Nat) (s : State) :
    Released l s (l.foldl g s) := by
  induction l generalizing s with
  | nil => exact .refl s
  | cons f r ih => exact (hg s f).append (ih (g s f))

/-- A flow that is not among them. -/
theorem Released.rd (h : Released l s t) {f : Nat} (hf : f ∉ l) {g : Fld} (hg : g.base = 0x410000) (hs : g.stride = 16) :
    t.rd g f = s.rd g f := by
  refine State.rd_of_word g f ?_
  rw [Fld.at, hg, hs, h.fstat, if_neg hf]

theorem Released.free (h : Released l s t) {f : Nat} (hf : f ∈ l) : t.rd .VSN_FSTAT_STATE f = flFree := by
  have hword : t.word (Fld.VSN_FSTAT_STATE.at f) = 0 := (h.fstat f).trans (if_pos hf)
  rw [State.rd, hword]; rfl

/-- An event bit beside them. -/
theorem Released.flag (h : Released l s t) {f : Fld} (hf : f.at 0 = 0x40000c) : Released l s (t.flag f 0) where
  fstat k := (t.word_flag_other _ _ (by omega)).trans (h.fstat k)
  flow := h.flow
  session := h.session
  sstat g hg i hi := by
    refine (State.rd_of_word g i (t.word_flag_other _ _ ?_)).trans (h.sstat g hg i hi)
    rw [hf, (sstatFlds_at g hg i).1]; omega
  id := (State.rd_of_word _ _ (t.word_flag_other _ _ (by rw [hf]; decide))).trans h.id
  frames b := (t.outFrames_flag ..).trans (h.frames b)

end

/-- The registers that a release clears. -/
def State.flowCleared (s : State) (f : Nat) : State :=
  (((s.setWord (0x410000 + 16 * f) 0).setWord (0x410004 + 16 * f) 0).setWord (0x410008 + 16 * f) 0).setWord (0x41000c + 16 * f) 0

theorem State.flowCleared_aside (f : Nat) : Aside (flowWord f) s (s.flowCleared f) := by
  have hin : ∀ o, o < 16 → flowWord f (0x410000 + o + 16 * f) := fun o ho => .inr (.inr (.inr (by omega)))
  exact ((((Aside.refl s).setWord _ (hin 0 (by omega))).setWord _ (hin 4 (by omega))).setWord _ (hin 8 (by omega))).setWord _ (hin 12 (by omega))

theorem State.word_flowCleared (f : Nat) : (s.flowCleared f).word (0x410000 + 16 * f) = 0 := by
  rw [State.flowCleared, State.word_setWord_other _ _ _ (by omega), State.word_setWord_other _ _ _ (by omega),
    State.word_setWord_other _ _ _ (by omega), State.word_setWord_same]

/-- The registers a session's state, bundle and epoch, or another flow's state stand in. -/
theorem not_flowWord {f o : Nat} (h : o = 0x8 ∨ (0x402000 ≤ o ∧ o % 16 = 0 ∧ (o < 0x410000 + 16 * f ∨ 0x410010 + 16 * f ≤ o))) :
    ¬ flowWord f o := by
  have hev : eventWord o = false := by
    rcases h with rfl | ⟨hlo, hmod, -⟩
    · decide
    · exact eventWord_of_mod (by omega) (by omega)
  rintro (he | hlink | ⟨hlo, hfreed⟩ | hflow)
  · exact absurd (hev.symm.trans he) (by decide)
  · omega
  · omega
  · omega

/-- Up to the session's count of flows. -/
def State.releaseNoted (s : State) (f action : Nat) : State :=
  let n := s.rd .VSN_FSTAT_SESSION f
  let t := s.dropHeld f
  let t := t.setSession n { t.session n with acks := (t.session n).acks.filter (· != f) }
  let t := t.wr .VSN_FSTAT_STATE f flFree
  (t.flowEvent f action).flowRecord f

theorem State.releaseFlow_eq (f action : Nat) : s.releaseFlow f action =
    (((s.releaseNoted f action).wr .VSN_SSTAT_FLOWS (s.rd .VSN_FSTAT_SESSION f)
      ((s.releaseNoted f action).rd .VSN_SSTAT_FLOWS (s.rd .VSN_FSTAT_SESSION f) - 1)).flowCleared f).setFlow f {} := rfl

theorem flowWord_of_event {o : Nat} {f : Nat} (h : eventWord o = true) : flowWord f o := .inl h

theorem State.flowEvent_flowWord (f a k : Nat) : Aside (flowWord k) s (s.flowEvent f a) :=
  { s.flowEvent_aside f a with
    word := fun o ho => s.word_event _ _ _ _ _ (by
      cases h : eventWord o with
      | true => exact absurd (flowWord_of_event h) ho
      | false => rfl) }

theorem State.releaseNoted_effect (f action : Nat) :
    (∀ o, ¬ flowWord f o → (s.releaseNoted f action).word o = s.word o) ∧
    (∀ k, k ≠ f → (s.releaseNoted f action).flow k = s.flow k) ∧
    (∀ m, ∃ a, (s.releaseNoted f action).session m = { s.session m with acks := a }) ∧
    ∀ b, (s.releaseNoted f action).outFrames b = s.outFrames b := by
  unfold State.releaseNoted
  extract_lets n t x u v
  have ht : Aside (flowWord f) (s.setFlow f { s.flow f with held := [] }) t := s.dropHeld_aside f
  have hu : Aside (flowWord f) u ((v.flowEvent f action).flowRecord f) :=
    (((Aside.refl u).wr _ (.inr (.inr (.inr (by simp only [Fld.at, Fld.VSN_FSTAT_STATE]; omega))))).trans
      (v.flowEvent_flowWord f action f)).trans (State.flowRecord_aside ..)
  refine ⟨fun o ho => (hu.word o ho).trans (ht.word o ho), fun k hk => ?_, fun m => ?_, fun b => ?_⟩
  · exact (hu.flow k).trans ((ht.flow k).trans (s.flow_setFlow_other hk _))
  · rw [hu.session]
    by_cases hm : m = n
    · have hx : x = s.session n := ht.session n
      rw [hm, State.session_setSession_same, hx]
      exact ⟨_, rfl⟩
    · rw [State.session_setSession_other _ hm]
      exact ⟨(s.session m).acks, ht.session m⟩
  · rw [State.outFrames_flowRecord, State.outFrames_flowEvent, State.outFrames_wr, State.outFrames_setSession]
    exact s.outFrames_dropHeld f b

theorem State.releaseFlow_released (f action : Nat) : Released [f] s (s.releaseFlow f action) := by
  obtain ⟨hword, hflow, hsession, hframes⟩ := s.releaseNoted_effect f action
  have hn : s.rd .VSN_FSTAT_SESSION f < 256 := s.rd_lt _ _
  rw [s.releaseFlow_eq]
  generalize s.rd .VSN_FSTAT_SESSION f = n at *
  generalize s.releaseNoted f action = v at *
  generalize v.rd .VSN_SSTAT_FLOWS n - 1 = count
  have hcount : Aside (· = 0x402000 + 0x40 * n) v (v.wr .VSN_SSTAT_FLOWS n count) := (Aside.refl v).wr _ rfl
  have hrd : ∀ g ∈ sstatFlds, ∀ m, (v.wr .VSN_SSTAT_FLOWS n count).rd g m = v.rd g m := fun g hg m =>
    v.rd_wr_other _ g n m count (.inr ⟨.inl (sstatFlds_at g hg m).2, by decide⟩)
  have hwout : ∀ b, (v.wr .VSN_SSTAT_FLOWS n count).outFrames b = v.outFrames b := v.outFrames_wr _ _ _
  generalize v.wr .VSN_SSTAT_FLOWS n count = w at *
  have hclear := w.flowCleared_aside f
  have hcleared := w.word_flowCleared f
  have hout : ∀ b, (w.flowCleared f).outFrames b = w.outFrames b := fun b => by simp only [State.flowCleared, State.outFrames_setWord]
  generalize w.flowCleared f = x at *
  have hsame : ∀ o, ¬ flowWord f o → o ≠ 0x402000 + 0x40 * n → x.word o = s.word o := fun o ho hne =>
    (hclear.word o ho).trans ((hcount.word o hne).trans (hword o ho))
  refine ⟨fun k => ?_, fun k => ?_, fun m => ?_, fun g hg m hm => ?_, ?_, fun b => ?_⟩
  · rw [State.word_of_regs (x.setFlow_regs f {})]
    by_cases hk : k = f
    · rw [hk, if_pos (List.mem_singleton_self f), hcleared]
    · rw [if_neg (by simpa using hk), hsame _ (not_flowWord (.inr (by omega))) (by omega)]
  · by_cases hk : k = f
    · rw [hk, if_pos (List.mem_singleton_self f), State.flow_setFlow_same]
    · rw [if_neg (by simpa using hk), State.flow_setFlow_other _ hk, hclear.flow, hcount.flow, hflow k hk]
  · obtain ⟨a, ha⟩ := hsession m
    exact ⟨a, by rw [State.session_of_sess (x.setFlow_sess f {}), hclear.session, hcount.session, ha]⟩
  · have hno : ¬ flowWord f (g.at m) := not_flowWord (.inr (by rw [(sstatFlds_at g hg m).1]; omega))
    rw [State.rd_setFlow, hclear.rd hno, hrd g hg, State.rd_of_word g m (hword _ hno)]
  · rw [State.moduleId, State.rd_setFlow]
    exact State.rd_of_word _ _ (hsame _ (not_flowWord (.inl rfl)) (by simp only [Fld.at, Fld.MOD_ID_ID]; omega))
  · rw [State.outFrames_setFlow, hout, hwout, hframes]

end Sys2Proof.Machine

/-! # O19: the states of a session (R126, R129, R131, R139, R152, R154, R161) -/

namespace Sys2Proof.Machine

variable (s : State)

/-! ### A session is freed (R129, R131) -/

/-- The registers of session `n` that its end clears, and those its event touches. -/
def sessionWord (n o : Nat) : Prop := asideWord o ∨ (0x402000 + 0x40 * n ≤ o ∧ o < 0x402010 + 0x40 * n)

theorem Aside.wr64 {s t : State} {W : Nat → Prop} (h : Aside W s t) {r : Reg64} {i : Nat} (v : Nat) (hlow : W (r.base + r.stride * i))
    (hhigh : W (r.base + r.stride * i + 4)) : Aside W s (t.wr64 r i v) := (h.setWord _ hlow).setWord _ hhigh

/-- The registers of a session whose end has been noted. -/
def State.sessionCleared (s : State) (n : Nat) : State :=
  (((s.wr .VSN_SSTAT_BUNDLE n 7).wr .VSN_SSTAT_EPOCH n 0).wr .VSN_SPEER_ENDPOINT n 0).wr64 .VSN_STOKEN n 0

theorem State.sessionCleared_effect (n : Nat) :
    Aside (sessionWord n) s (s.sessionCleared n) ∧ (s.sessionCleared n).rd .VSN_SSTAT_STATE n = s.rd .VSN_SSTAT_STATE n ∧
    (s.sessionCleared n).rd64 .VSN_STOKEN n = 0 := by
  have hin : ∀ o, o < 16 → sessionWord n (0x402000 + o + 0x40 * n) := fun o ho => .inr (by omega)
  refine ⟨((((Aside.refl s).wr _ (hin 0 (by omega))).wr _ (hin 0 (by omega))).wr _ (hin 4 (by omega))).wr64 _ (hin 8 (by omega)) ?_, ?_, ?_⟩
  · exact .inr (by simp only [Reg64.VSN_STOKEN]; omega)
  · unfold State.sessionCleared
    simp (disch := decide) only [State.rd_wr64_apart, State.rd_wr_apart]
  · rw [State.sessionCleared, State.rd64_wr64_same]; rfl

/-- The session's end is noted under its last state, bundle and epoch. -/
def State.sessionEnded (s : State) (n action : Nat) : State := ((s.wr .VSN_SSTAT_STATE n ssFree).sessionEvent n action 0).sessRecord n

theorem State.sessionEnded_effect (n action : Nat) :
    Aside (sessionWord n) s (s.sessionEnded n action) ∧ (s.sessionEnded n action).rd .VSN_SSTAT_STATE n = ssFree := by
  have haside : Aside asideWord (s.wr .VSN_SSTAT_STATE n ssFree) (s.sessionEnded n action) :=
    (State.sessionEvent_aside ..).trans (State.sessRecord_aside ..)
  refine ⟨((Aside.refl s).wr _ (.inr (by simp only [Fld.at, Fld.VSN_SSTAT_STATE]; omega))).trans (haside.mono fun _ => .inl), ?_⟩
  rw [haside.calm (by decide), State.rd_wr_same _ _ _ _ (by decide)]; rfl

theorem State.freeSession_effect {n : Nat} (hn : n < 256) (action : Nat) :
    (s.freeSession n action).rd .VSN_SSTAT_STATE n = ssFree ∧ (s.freeSession n action).flowsOf n = [] ∧
    (s.freeSession n action).rd64 .VSN_STOKEN n = 0 ∧ ((s.freeSession n action).session n).lastEpoch = s.rd .VSN_SSTAT_EPOCH n ∧
    ∀ b, (s.freeSession n action).outFrames b = s.outFrames b := by
  have hrel := Released.foldl (fun t f => t.releaseFlow_released f 3) (s.flowsOf n) s
  let u := (s.flowsOf n).foldl (fun s f => s.releaseFlow f 3) s
  obtain ⟨hend, hfree⟩ := u.sessionEnded_effect n action
  obtain ⟨hclear, hstate, htoken⟩ := (u.sessionEnded n action).sessionCleared_effect n
  let v := (u.sessionEnded n action).sessionCleared n
  have heq : s.freeSession n action =
      v.setSession n { lastEpoch := u.rd .VSN_SSTAT_EPOCH n, tokens := (v.session n).tokens } := rfl
  have hflow : ∀ (g : Fld) (f : Nat), g.base = 0x410000 → g.stride = 16 → v.rd g f = u.rd g f := fun g f hb hs => by
    have hno : ¬ sessionWord n (g.at f) := by
      have hev : eventWord (g.at f) = false := eventWord_of_mod (by rw [Fld.at, hb, hs]; omega) (by rw [Fld.at, hb, hs]; omega)
      rw [sessionWord, not_or]
      exact ⟨not_asideWord_iff.mpr ⟨hev, by rw [Fld.at, hb, hs]; omega, by rw [Fld.at, hb, hs]; omega⟩, by rw [Fld.at, hb, hs]; omega⟩
    exact (hclear.rd hno).trans (hend.rd hno)
  rw [heq]
  refine ⟨?_, List.eq_nil_iff_forall_not_mem.mpr fun f hf => ?_, ?_, ?_, fun b => ?_⟩
  · rw [State.rd_setSession]; exact hstate.trans hfree
  · rw [State.mem_flowsOf, State.rd_setSession, State.rd_setSession, hflow _ _ rfl rfl, hflow _ _ rfl rfl] at hf
    obtain ⟨hlt, hst, hses⟩ := hf
    by_cases hmem : f ∈ s.flowsOf n
    · exact hst (hrel.free hmem)
    · rw [hrel.rd hmem rfl rfl] at hst hses
      exact hmem (s.mem_flowsOf.mpr ⟨hlt, hst, hses⟩)
  · rw [State.rd64_of_regs (State.setSession_regs ..)]; exact htoken
  · rw [State.session_setSession_same]
    exact hrel.sstat _ (by decide) n hn
  · rw [State.outFrames_setSession]
    simp only [v, State.sessionCleared, State.sessionEnded, State.outFrames_wr64, State.outFrames_wr, State.outFrames_sessRecord,
      State.outFrames_sessionEvent]
    exact hrel.frames b

/-! ### Frames of a session that pass the checks of R143 -/

/-- A session that SREADY opens. -/
def State.readied (s : State) (n : Nat) : State :=
  (((s.setSession n { s.session n with answer := [] }).wr .VSN_SSTAT_STATE n ssOpen).sessionEvent n 3 0).sessRecord n

theorem State.readied_effect (n : Nat) :
    (s.readied n).rd .VSN_SSTAT_STATE n = ssOpen ∧ (s.readied n).rd .VSN_SSTAT_EPOCH n = s.rd .VSN_SSTAT_EPOCH n ∧
    (s.readied n).flows = s.flows ∧ ((s.readied n).session n).answer = [] ∧ ∀ k, k ≠ n → (s.readied n).session k = s.session k := by
  unfold State.readied
  generalize hx : { s.session n with answer := [] } = x
  have haside : Aside asideWord ((s.setSession n x).wr .VSN_SSTAT_STATE n ssOpen)
      ((((s.setSession n x).wr .VSN_SSTAT_STATE n ssOpen).sessionEvent n 3 0).sessRecord n) :=
    (State.sessionEvent_aside ..).trans (State.sessRecord_aside ..)
  have hsess := State.session_of_sess ((s.setSession n x).wr_sess .VSN_SSTAT_STATE n ssOpen)
  refine ⟨?_, ?_, ?_, ?_, fun k hk => ?_⟩
  · rw [haside.calm (by decide), State.rd_wr_same _ _ _ _ (by decide)]; rfl
  · rw [haside.calm (by decide), State.rd_wr_apart _ (by decide), State.rd_setSession]
  · rw [haside.flows, State.wr_flows, State.setSession_flows]
  · rw [haside.session, hsess, State.session_setSession_same, ← hx]
  · rw [haside.session, hsess, State.session_setSession_other _ hk]

section
variable {s : State} {b : BundleId} {f : List Byte}

theorem sready_opens (hnext : s.isNext b.val f = true) (hok : s.ctlCheck b.val f 0x13 0 ssReadyWait = none) :
    Leads (.sready b f) s fun t =>
      t.rd .VSN_SSTAT_STATE (fSession f) = ssOpen ∧ t.rd .VSN_SSTAT_EPOCH (fSession f) = s.rd .VSN_SSTAT_EPOCH (fSession f) ∧
      t.flows = s.flows ∧ (t.session (fSession f)).answer = [] ∧ ∀ k : SessionId, k.val ≠ fSession f → t.session k.val = s.session k.val := by
  have hdone := s.doneFrame_aside b f
  obtain ⟨hst, hepoch, hflows, hanswer, hothers⟩ := (s.doneFrame b.val f).readied_effect (fSession f)
  refine ⟨(s.doneFrame b.val f).readied (fSession f), ?_, hst, hepoch.trans (hdone.calm (by decide) _), hflows.trans hdone.flows, hanswer,
    fun k hk => (hothers k.val hk).trans (hdone.session _)⟩
  show execSready b f s = _
  simp only [execSready, hnext, hok, Bool.not_true, Bool.false_eq_true, if_false, State.readied, hdone.session]

theorem sclose_closes (hnext : s.isNext b.val f = true) (hok : s.ctlCheck b.val f 0x14 0 ssOpen = none) (hn : fSession f < 256)
    (hrun : s.suspended = false) : Leads (.sclose b f) s fun t =>
      t.rd .VSN_SSTAT_STATE (fSession f) = ssFree ∧ t.flowsOf (fSession f) = [] ∧ t.rd64 .VSN_STOKEN (fSession f) = 0 ∧
      (t.session (fSession f)).lastEpoch = s.rd .VSN_SSTAT_EPOCH (fSession f) ∧ s.mkFrame 0x14 (fSession f) [] ∈ t.outFrames b.val := by
  have hdone := s.doneFrame_aside b f
  have hsay := hdone.trans ((s.doneFrame b.val f).say_aside (b := b.val) (by omega) 0x14 (fSession f) [])
  obtain ⟨hst, hflows, htoken, hepoch, hout⟩ := ((s.doneFrame b.val f).say b.val 0x14 (fSession f) []).freeSession_effect hn 6
  refine ⟨_, ?_, hst, hflows, htoken, ?_, ?_⟩
  · show execSclose b f s = _
    simp only [execSclose, hnext, hok, hrun, Bool.not_true, Bool.or_self, Bool.false_eq_true, if_false]
  · rw [hepoch, hsay.calm (by decide)]
  · rw [hout, State.outFrames_say, hdone.mkFrame]
    exact List.mem_append_right _ (List.mem_singleton_self _)

end

/-! ### A session ends by itself, or is closed (R129, R131, R161) -/

theorem State.endSession_waits {n : Nat} (action : Nat) (tell : Bool) (hst : s.rd .VSN_SSTAT_STATE n ≠ ssFree) (hsus : s.suspended = true) :
    s.endSession n action tell = s.setSession n { s.session n with closeDue := action } := by
  rw [State.endSession, if_neg hst, if_pos hsus]

theorem State.endSession_frees {n : Nat} (hn : n < 256) (action : Nat) (tell : Bool) (hst : s.rd .VSN_SSTAT_STATE n ≠ ssFree)
    (hrun : s.suspended = false) :
    (s.endSession n action tell).rd .VSN_SSTAT_STATE n = ssFree ∧ (s.endSession n action tell).flowsOf n = [] ∧
    ((s.endSession n action tell).session n).lastEpoch = s.rd .VSN_SSTAT_EPOCH n := by
  have hlt : s.rd .VSN_SSTAT_BUNDLE n < 8 := s.rd_lt _ _
  have htold : Aside asideWord s (if (tell && decide (s.rd .VSN_SSTAT_BUNDLE n < 5)) = true then
      s.say (s.rd .VSN_SSTAT_BUNDLE n) 0x14 n [] else s) := .ite (s.say_aside hlt 0x14 n []) (.refl s)
  have heq : s.endSession n action tell = (if (tell && decide (s.rd .VSN_SSTAT_BUNDLE n < 5)) = true then
      s.say (s.rd .VSN_SSTAT_BUNDLE n) 0x14 n [] else s).freeSession n action := by
    rw [State.endSession, if_neg hst, if_neg (by simp [hrun])]
  rw [heq]
  obtain ⟨hfree, hflows, -, hepoch, -⟩ := State.freeSession_effect _ hn action
  exact ⟨hfree, hflows, hepoch.trans (htold.calm (by decide) n)⟩

/-! ### SRESET (R129, R161) -/

theorem State.resetSession_effect (n reason : Nat) :
    (s.resetSession n reason).rd .VSN_SSTAT_STATE n = ssResetWait ∧ (s.resetSession n reason).on .VSN_EVT_SRESET = true ∧
    ((s.resetSession n reason).session n).resetReason = reason ∧ (s.resetSession n reason).flows = s.flows ∧
    (s.resetSession n reason).outFrames (s.rd .VSN_SSTAT_BUNDLE n) = s.outFrames (s.rd .VSN_SSTAT_BUNDLE n) ++
      [s.mkFrame 0x15 n (leBytes 1 (s.rd .VSN_SSTAT_EPOCH n) ++ leBytes 1 reason ++ leBytes 30 0)] := by
  have hlt : s.rd .VSN_SSTAT_BUNDLE n < 8 := s.rd_lt _ _
  have hsay := s.say_aside hlt 0x15 n (leBytes 1 (s.rd .VSN_SSTAT_EPOCH n) ++ leBytes 1 reason ++ leBytes 30 0)
  have hframes := s.outFrames_say (s.rd .VSN_SSTAT_BUNDLE n) 0x15 n (leBytes 1 (s.rd .VSN_SSTAT_EPOCH n) ++ leBytes 1 reason ++ leBytes 30 0)
  unfold State.resetSession
  extract_lets b t _ u
  change Aside asideWord s t at hsay
  change t.outFrames b = _ at hframes
  have haside : Aside asideWord (u.wr .VSN_SSTAT_STATE n ssResetWait) ((u.wr .VSN_SSTAT_STATE n ssResetWait).sessionEvent n 4 reason) :=
    State.sessionEvent_aside ..
  refine ⟨?_, ?_, ?_, ?_, ?_⟩
  · rw [haside.calm (by decide), State.rd_wr_same _ _ _ _ (by decide)]; rfl
  · have hset : u.on .VSN_EVT_SRESET = true := State.on_flag_same _ _ _ (by decide) (by decide)
    have hne : Fld.VSN_EVT_SRESET.at 0 ≠ Fld.VSN_SSTAT_STATE.at n := by simp only [Fld.at, Fld.VSN_EVT_SRESET, Fld.VSN_SSTAT_STATE]; omega
    rw [State.sessionEvent, State.on_of_word .VSN_EVT_SRESET 0 (State.word_event _ _ _ _ _ _ (by decide)),
      State.on_of_word _ _ (u.word_wr_other _ _ _ hne), hset]
  · rw [haside.session, State.session_of_sess (u.wr_sess _ _ _), State.session_of_sess (State.flag_sess ..), State.session_setSession_same]
  · exact haside.flows.trans ((u.wr_flows _ _ _).trans ((State.flag_flows ..).trans ((State.setSession_flows ..).trans hsay.flows)))
  · rw [State.outFrames_sessionEvent, State.outFrames_wr, State.outFrames_flag, State.outFrames_setSession, hframes]

/-! ### The timers of sessions (R139, R154) -/

/-- One session of ACCEPT_ACK_TIMER. -/
def State.acceptAck (s : State) (n : Nat) : State :=
  if s.rd .VSN_SSTAT_STATE n = ssOpen then s.say (s.rd .VSN_SSTAT_BUNDLE n) 0x30 n [] else s

theorem State.acceptAck_aside (n : Nat) : Aside asideWord s (s.acceptAck n) :=
  .ite (s.say_aside (s.rd_lt .VSN_SSTAT_BUNDLE n) 0x30 n []) (.refl s)

theorem State.acceptAck_frames (n b : Nat) : (s.acceptAck n).outFrames b = s.outFrames b ++
    ([n].filter (fun n => s.rd .VSN_SSTAT_STATE n == ssOpen && s.rd .VSN_SSTAT_BUNDLE n == b)).map (fun n => s.mkFrame 0x30 n []) := by
  unfold State.acceptAck
  by_cases hst : s.rd .VSN_SSTAT_STATE n = ssOpen
  · by_cases hb : s.rd .VSN_SSTAT_BUNDLE n = b
    · rw [if_pos hst, hb, State.outFrames_say]
      simp [hst, hb]
    · rw [if_pos hst, State.say, State.outFrames_sendFrame_other _ (Ne.symm hb)]
      simp [hb]
  · rw [if_neg hst]
    simp [hst]

theorem State.acceptAcks_frames (l : List Nat) (b : Nat) : (l.foldl State.acceptAck s).outFrames b = s.outFrames b ++
    (l.filter (fun n => s.rd .VSN_SSTAT_STATE n == ssOpen && s.rd .VSN_SSTAT_BUNDLE n == b)).map (fun n => s.mkFrame 0x30 n []) := by
  induction l generalizing s with
  | nil => exact (List.append_nil _).symm
  | cons n r ih =>
    have haside := s.acceptAck_aside n
    rw [List.foldl_cons, ih, s.acceptAck_frames, List.append_assoc, show n :: r = [n] ++ r from rfl, List.filter_append, List.map_append]
    simp only [haside.mkFrame, haside.calm (f := .VSN_SSTAT_STATE) (by decide), haside.calm (f := .VSN_SSTAT_BUNDLE) (by decide)]

/-- Settles O19: each command's `exec` by the lemma of what it does to the session. -/
theorem sessionStates : Obligations.SessionStates := by
  intro s
  refine ⟨fun b f hnext => ⟨fun hok _ => sready_opens hnext hok, fun hsus => ⟨s, ?_, rfl⟩, fun hok hn hrun => sclose_closes hnext hok hn hrun⟩,
    fun n => ⟨fun hst hsus => ⟨⟨_, rfl, s.endSession_waits 7 false hst hsus⟩, ⟨_, rfl, s.endSession_waits 6 true hst hsus⟩⟩,
      fun hst hrun => ⟨⟨_, rfl, s.endSession_frees n.isLt 7 false hst hrun⟩, ⟨_, rfl, s.endSession_frees n.isLt 6 true hst hrun⟩⟩,
      fun hst => ⟨_, ?_, s.resetSession_effect n.val 2⟩, fun hres => ⟨s, ?_, rfl⟩, fun hst hrun => ⟨s.say _ 0x15 n.val _, ?_, ?_, s.outFrames_say _ 0x15 n.val _⟩⟩,
    fun hres => ⟨s, ?_, rfl⟩, fun hrun => ⟨(List.range 256).foldl State.acceptAck s, ?_, fun b => s.acceptAcks_frames (List.range 256) b.val⟩⟩
  · show execSclose b f s = _
    simp [execSclose, hsus]
  · show execVsnSctlReset n s = _
    rw [execVsnSctlReset, if_pos (by tauto)]
  · show execSresetRepeat n s = _
    simp [execSresetRepeat, hres]
  · show execSresetRepeat n s = _
    simp only [execSresetRepeat, hst, hrun, Bool.not_false, and_self, if_true]
  · exact (s.say_aside (s.rd_lt .VSN_SSTAT_BUNDLE n.val) 0x15 n.val _).sess
  · show execAcceptAckTimer s = _
    simp [execAcceptAckTimer, hres]
  · show execAcceptAckTimer s = _
    simp only [execAcceptAckTimer, hrun, Bool.false_eq_true, if_false]
    rfl

end Sys2Proof.Machine

/-! # O21: a DATA frame of an active flow (R140 to R152) -/

namespace Sys2Proof.Machine

variable (s : State)

/-! ### The samples of a frame and the link it came on -/

theorem State.activate_setLink (b : Nat) (x : Link) (L k : Nat) : (s.setLink b x).activate L k = (s.activate L k).setLink b x := by
  by_cases h : (!s.chunkOn k L || tget 0 s.hbm.rows (256 * (32 * k + L / 6 % 32) + (Config.hbmBank L).toNat) == L + 1) = true
  · exact (if_pos h).trans (congrArg (fun u : State => u.setLink b x) (if_pos h).symm)
  · refine (if_neg h).trans (Eq.trans ?_ (congrArg (fun u : State => u.setLink b x) (if_neg h).symm))
    rfl

theorem State.hbmWrite_setLink (b : Nat) (x : Link) (o : Nat) (l : List Byte) :
    (s.setLink b x).hbmWrite o l = (s.hbmWrite o l).setLink b x := by
  have hline : ∀ (t : State) (L : Nat), (t.setLink b x).lineWrite L = (t.lineWrite L).setLink b x := fun t L =>
    List.foldl_hom (fun u : State => u.setLink b x) (fun u k => u.activate_setLink b x L k)
  unfold State.hbmWrite
  dsimp only
  refine Eq.trans ?_ (List.foldl_hom (fun u : State => u.setLink b x) hline)
  rfl

theorem State.writeFrame_setLink (b : Nat) (x : Link) (p : ActivePlan) (f : List Byte) :
    (s.setLink b x).writeFrame p f = (s.writeFrame p f).setLink b x := by
  unfold State.writeFrame
  refine List.foldl_hom (fun u : State => u.setLink b x) fun u ci => ?_
  cases p.deckBuf (fCount f / pS p.data % 2) with
  | none => rfl
  | some base =>
    dsimp only
    rw [State.hbmWrite_setLink]
    rfl

/-- The samples go to the deck and its memory alone. -/
theorem State.writeFrame_parts (p : ActivePlan) (f : List Byte) : (s.writeFrame p f).regs = s.regs ∧ (s.writeFrame p f).links = s.links ∧
    (s.writeFrame p f).sess = s.sess ∧ (s.writeFrame p f).flows = s.flows := by
  have h : Within { hbm := true, deck := true } s (s.writeFrame p f) := (Within.refl _ s).writeFrame rfl rfl
  obtain ⟨hsess, hflows⟩ := h.sess.resolve_left (by decide)
  exact ⟨h.regs.resolve_left (by decide), h.links.resolve_left (by decide), hsess, hflows⟩

/-! ### The undecided frames of a bundle (R149) -/

theorem State.rxq_sendFrame (b : Nat) (f : List Byte) (c : Nat) : ((s.sendFrame b f).link c).rxq = (s.link c).rxq := by
  by_cases hc : c = b
  · subst hc
    unfold State.sendFrame
    extract_lets k q t _ u
    have ht : (t.link c).rxq = k.rxq := by rw [show t = s.sendUnit c _ from rfl, State.link_sendUnit_same]
    split
    · rw [State.link_wr, State.link_setLink_same]; exact ht
    · rw [State.link_setLink_same]
  · unfold State.sendFrame
    extract_lets k q t _ u
    have ht : t.link c = s.link c := s.link_sendUnit_other b _ hc
    split
    · rw [State.link_wr, State.link_setLink_other _ hc, ht]
    · rw [State.link_setLink_other _ hc]

theorem State.rxq_freeCredits (b n c : Nat) : ((s.freeCredits b n).link c).rxq = (s.link c).rxq := by
  have hreturn : ∀ t : State, ((t.returnCredits b n).link c).rxq = (t.link c).rxq := fun t => by
    unfold State.returnCredits
    by_cases hc : c = b
    · subst hc
      split
      · rw [State.link_setLink_same]
      · rw [State.sendCtl, State.link_sendUnit_same, State.link_wr]
    · split
      · rw [State.link_setLink_other _ hc]
      · rw [State.link_sendCtl_other _ _ _ hc, State.link_wr]
  exact (hreturn _).trans (by rw [State.link_wr])

/-! ### An acknowledgement of a flow (R148) -/

theorem State.entry_flows {b : Nat} (hb : b < 8) (n f kind reason q : Nat) : (s.entry b n f kind reason q).flows = s.flows := by
  have hsay := s.say_link hb 0x30 n (ackEntry f kind reason q)
  unfold State.entry
  extract_lets t
  split
  · exact (State.setSession_flows ..).trans hsay.flows
  · exact hsay.flows

/-- Of deck, memory, links and registers nothing but what the frame itself takes. -/
theorem State.entry_effect {b : Nat} (hb : b < 8) (n f kind reason q : Nat) :
    (∀ o, ¬ linkPage o → (s.entry b n f kind reason q).word o = s.word o) ∧
    (s.entry b n f kind reason q).hbm = s.hbm ∧ (s.entry b n f kind reason q).deck = s.deck ∧
    (∀ c, ((s.entry b n f kind reason q).link c).rxq = (s.link c).rxq) ∧
    (s.entry b n f kind reason q).outFrames b = s.outFrames b ++ [s.mkFrame 0x30 n (ackEntry f kind reason q)] := by
  have hsay := s.say_link hb 0x30 n (ackEntry f kind reason q)
  have hframes := s.outFrames_say b 0x30 n (ackEntry f kind reason q)
  have hrxq := s.rxq_sendFrame b (s.mkFrame 0x30 n (ackEntry f kind reason q))
  unfold State.entry
  extract_lets t
  split
  · refine ⟨fun o ho => (State.word_of_regs (State.setSession_regs ..) o).trans (hsay.word o ho), (State.setSession_hbm ..).trans hsay.hbm,
      (State.setSession_deck ..).trans hsay.deck, fun c => ?_, (State.outFrames_setSession ..).trans hframes⟩
    exact (congrArg Link.rxq (State.link_of_links (State.setSession_links ..) c)).trans (hrxq c)
  · exact ⟨hsay.word, hsay.hbm, hsay.deck, hrxq, hframes⟩

end Sys2Proof.Machine

namespace Sys2Proof.Machine

variable (s : State)

/-! ### A frame is accepted (R141, R147) -/

/-- The samples of a frame where a plan holds it. -/
def State.samplesWritten (s : State) (f : List Byte) : State :=
  match s.planAt (fCount f) with
  | some p => s.writeFrame p f
  | none => s

theorem State.samplesWritten_parts (f : List Byte) : (s.samplesWritten f).regs = s.regs ∧ (s.samplesWritten f).links = s.links ∧
    (s.samplesWritten f).sess = s.sess ∧ (s.samplesWritten f).flows = s.flows := by
  unfold State.samplesWritten
  split
  · exact s.writeFrame_parts _ f
  · exact ⟨rfl, rfl, rfl, rfl⟩

theorem State.firstOfTrick_effect (f : List Byte) :
    (∀ o, eventWord o = false → (s.firstOfTrick f).word o = s.word o) ∧ (s.firstOfTrick f).flows = s.flows ∧
    (s.firstOfTrick f).links = s.links ∧ (s.firstOfTrick f).hbm = s.hbm ∧ (s.firstOfTrick f).deck = s.deck := by
  have h : Within { regs := true, out := true, dealer := true, faults := true, tricks := true } s (s.firstOfTrick f) :=
    (Within.refl _ s).firstOfTrick rfl rfl rfl rfl rfl
  obtain ⟨-, hflows⟩ := h.sess.resolve_left (by decide)
  refine ⟨fun o ho => ?_, hflows, h.links.resolve_left (by decide), h.hbm.resolve_left (by decide), h.deck.resolve_left (by decide)⟩
  unfold State.firstOfTrick
  split
  · dsimp only
    split
    · rfl
    · rw [State.word_event _ _ _ _ _ _ ho]; rfl
  · rfl

/-- A discarded frame is counted for its session. -/
def State.discardCounted (s : State) (n : Nat) (all : Bool) : State := if all then s.bump .VSN_SDISCARD_COUNT n else s

theorem State.discardCounted_effect (n : Nat) (all : Bool) :
    Aside (· = 0x402028 + 0x40 * n) s (s.discardCounted n all) ∧ (s.discardCounted n all).links = s.links :=
  ⟨.ite ((Aside.refl s).bump _ rfl) (.refl s), by
    unfold State.discardCounted
    split
    · exact s.bump_links ..
    · rfl⟩

/-- The flow expects the frame after an accepted one. -/
def State.expectNext (s : State) (f : List Byte) : State :=
  let x := s.flow (fFlow f)
  let e := (s.rd .VSN_FNEXT_NEXT (fFlow f) + 1) % 2 ^ 32
  (s.setNext (fFlow f) e (x.exp + shT (fShape f)) (if x.held.isEmpty then e else x.h)).bumpW .VSN_FACC_ACCEPTED (fFlow f)

theorem State.expectNext_effect (f : List Byte) :
    (s.expectNext f).rd .VSN_FNEXT_NEXT (fFlow f) = (s.rd .VSN_FNEXT_NEXT (fFlow f) + 1) % 2 ^ 32 ∧
    (s.expectNext f).rd .VSN_FACC_ACCEPTED (fFlow f) = (s.rd .VSN_FACC_ACCEPTED (fFlow f) + 1) % 2 ^ 32 ∧
    ((s.expectNext f).flow (fFlow f)).exp = (s.flow (fFlow f)).exp + shT (fShape f) ∧
    (∀ o, o ≠ 0x410004 + 0x10 * fFlow f → o ≠ 0x41000c + 0x10 * fFlow f → (s.expectNext f).word o = s.word o) ∧
    (s.expectNext f).links = s.links ∧ (s.expectNext f).hbm = s.hbm ∧ (s.expectNext f).deck = s.deck := by
  unfold State.expectNext State.setNext State.bumpW
  extract_lets x e
  refine ⟨?_, ?_, ?_, fun o h4 h12 => ?_, ?_, ?_, ?_⟩
  · rw [State.rd_wr_apart _ (by decide), State.rd_wr_same _ _ _ _ (by decide)]
    exact Nat.mod_mod _ _
  · rw [State.rd_wr_same _ _ _ _ (by decide), State.rd_wr_apart _ (by decide), State.rd_setFlow]
    rfl
  · rw [State.flow_of_flows (State.wr_flows ..), State.flow_of_flows (State.wr_flows ..), State.flow_setFlow_same]
  · rw [State.word_wr_other _ _ _ _ h12, State.word_wr_other _ _ _ _ h4, State.word_of_regs (State.setFlow_regs ..)]
  · rw [State.wr_links, State.wr_links, State.setFlow_links]
  · rw [State.wr_hbm, State.wr_hbm, State.setFlow_hbm]
  · rw [State.wr_deck, State.wr_deck, State.setFlow_deck]

/-- All that acceptance does before its acknowledgement leaves. -/
def State.acceptNoted (s : State) (f : List Byte) (all : Bool) : State :=
  (((s.samplesWritten f).discardCounted (s.rd .VSN_FSTAT_SESSION (fFlow f)) all).expectNext f).firstOfTrick f

theorem State.acceptNoted_effect {f : List Byte} (hk : fFlow f < 40960) {n : Nat} (hn : s.rd .VSN_FSTAT_SESSION (fFlow f) = n) (all : Bool) :
    (s.acceptNoted f all).rd .VSN_FNEXT_NEXT (fFlow f) = (s.rd .VSN_FNEXT_NEXT (fFlow f) + 1) % 2 ^ 32 ∧
    (s.acceptNoted f all).rd .VSN_FACC_ACCEPTED (fFlow f) = (s.rd .VSN_FACC_ACCEPTED (fFlow f) + 1) % 2 ^ 32 ∧
    ((s.acceptNoted f all).flow (fFlow f)).exp = (s.flow (fFlow f)).exp + shT (fShape f) ∧
    (s.acceptNoted f all).hbm = (s.samplesWritten f).hbm ∧ (s.acceptNoted f all).deck = (s.samplesWritten f).deck ∧
    (s.acceptNoted f all).links = s.links ∧
    ∀ o, o = 0x8 ∨ o = 0x402000 + 0x40 * n → (s.acceptNoted f all).word o = s.word o := by
  have hn256 : n < 256 := hn ▸ s.rd_lt .VSN_FSTAT_SESSION (fFlow f)
  obtain ⟨wregs, wlinks, -, wflows⟩ := s.samplesWritten_parts f
  rw [State.acceptNoted, hn]
  generalize s.samplesWritten f = w at *
  obtain ⟨hv, vlinks⟩ := w.discardCounted_effect n all
  generalize w.discardCounted n all = v at *
  obtain ⟨enext, eacc, eexp, eword, elinks, ehbm, edeck⟩ := v.expectNext_effect f
  generalize v.expectNext f = x at *
  obtain ⟨uword, uflows, ulinks, uhbm, udeck⟩ := x.firstOfTrick_effect f
  have hfirst : ∀ g : Fld, 0x410000 ≤ g.at (fFlow f) → g.at (fFlow f) < 0x4b0000 →
      (x.firstOfTrick f).rd g (fFlow f) = x.rd g (fFlow f) ∧ v.rd g (fFlow f) = s.rd g (fFlow f) := fun g hlo hhi =>
    ⟨State.rd_of_word g _ (uword _ (eventWord_of_session (by omega) (by omega))),
      (hv.rd (by omega)).trans (State.rd_of_regs wregs g _)⟩
  obtain ⟨unext, vnext⟩ := hfirst .VSN_FNEXT_NEXT (by simp only [Fld.at, Fld.VSN_FNEXT_NEXT]; omega)
    (by simp only [Fld.at, Fld.VSN_FNEXT_NEXT]; omega)
  obtain ⟨uacc, vacc⟩ := hfirst .VSN_FACC_ACCEPTED (by simp only [Fld.at, Fld.VSN_FACC_ACCEPTED]; omega)
    (by simp only [Fld.at, Fld.VSN_FACC_ACCEPTED]; omega)
  refine ⟨by rw [unext, enext, vnext], by rw [uacc, eacc, vacc], ?_, by rw [uhbm, ehbm, hv.hbm], by rw [udeck, edeck, hv.deck],
    by rw [ulinks, elinks, vlinks, wlinks], fun o ho => ?_⟩
  · rw [State.flow_of_flows uflows, eexp, hv.flow, State.flow_of_flows wflows]
  · have hev : eventWord o = false := by
      rcases ho with rfl | rfl
      · decide
      · exact eventWord_of_session (by omega) (by omega)
    rw [uword o hev, eword o (by omega) (by omega), hv.word o (by omega), State.word_of_regs wregs]

theorem State.accept_eq (b : Nat) (f : List Byte) : ∃ all, s.accept b f =
    ((s.acceptNoted f all).entry ((s.acceptNoted f all).rd .VSN_SSTAT_BUNDLE (s.rd .VSN_FSTAT_SESSION (fFlow f)))
      (s.rd .VSN_FSTAT_SESSION (fFlow f)) (fFlow f) 1 0
      ((((s.samplesWritten f).discardCounted (s.rd .VSN_FSTAT_SESSION (fFlow f)) all).rd .VSN_FNEXT_NEXT (fFlow f) + 1) % 2 ^ 32)).freeCredits b
      (frameCost f) := ⟨_, rfl⟩

/-- What acceptance leaves, on a bundle that the module has. -/
theorem State.accept_effect {b : Nat} (hb : b < 8) {f : List Byte} (hk : fFlow f < 40960) {n : Nat}
    (hn : s.rd .VSN_FSTAT_SESSION (fFlow f) = n) :
    (s.accept b f).rd .VSN_FNEXT_NEXT (fFlow f) = (s.rd .VSN_FNEXT_NEXT (fFlow f) + 1) % 2 ^ 32 ∧
    (s.accept b f).rd .VSN_FACC_ACCEPTED (fFlow f) = (s.rd .VSN_FACC_ACCEPTED (fFlow f) + 1) % 2 ^ 32 ∧
    ((s.accept b f).flow (fFlow f)).exp = (s.flow (fFlow f)).exp + shT (fShape f) ∧
    (s.accept b f).hbm = (s.samplesWritten f).hbm ∧ (s.accept b f).deck = (s.samplesWritten f).deck ∧
    ((s.accept b f).link b).rxq = (s.link b).rxq ∧
    ∃ x : State, x.moduleId = s.moduleId ∧ x.rd .VSN_SSTAT_EPOCH n = s.rd .VSN_SSTAT_EPOCH n ∧
      (s.accept b f).outFrames (s.rd .VSN_SSTAT_BUNDLE n) = s.outFrames (s.rd .VSN_SSTAT_BUNDLE n) ++
        [x.mkFrame 0x30 n (ackEntry (fFlow f) 1 0 ((s.rd .VSN_FNEXT_NEXT (fFlow f) + 1) % 2 ^ 32))] := by
  obtain ⟨all, heq⟩ := s.accept_eq b f
  obtain ⟨unext, uacc, uexp, uhbm, udeck, ulinks, uword⟩ := s.acceptNoted_effect hk hn all
  have hn256 : n < 256 := hn ▸ s.rd_lt .VSN_FSTAT_SESSION (fFlow f)
  have hvnext : ((s.samplesWritten f).discardCounted n all).rd .VSN_FNEXT_NEXT (fFlow f) = s.rd .VSN_FNEXT_NEXT (fFlow f) :=
    (((s.samplesWritten f).discardCounted_effect n all).1.rd (by simp only [Fld.at, Fld.VSN_FNEXT_NEXT]; omega)).trans
      (State.rd_of_regs (s.samplesWritten_parts f).1 _ _)
  have hbd : (s.acceptNoted f all).rd .VSN_SSTAT_BUNDLE n = s.rd .VSN_SSTAT_BUNDLE n := State.rd_of_word _ _ (uword _ (.inr rfl))
  have hlt : s.rd .VSN_SSTAT_BUNDLE n < 8 := s.rd_lt _ _
  rw [heq, hn, hvnext, hbd]
  generalize s.acceptNoted f all = u at *
  generalize hq : (s.rd .VSN_FNEXT_NEXT (fFlow f) + 1) % 2 ^ 32 = q at *
  obtain ⟨rword, rhbm, rdeck, rrxq, rframes⟩ := u.entry_effect hlt n (fFlow f) 1 0 q
  have rflows := u.entry_flows hlt n (fFlow f) 1 0 q
  generalize u.entry (s.rd .VSN_SSTAT_BUNDLE n) n (fFlow f) 1 0 q = r at *
  have hfree : Aside linkPage r (r.freeCredits b (frameCost f)) := r.freeCredits_aside _ ⟨by omega, by omega⟩ ⟨by omega, by omega⟩
  have hlast : ∀ g : Fld, 0x402000 ≤ g.base → (r.freeCredits b (frameCost f)).rd g (fFlow f) = u.rd g (fFlow f) := fun g hg => by
    have hno : ¬ linkPage (g.at (fFlow f)) := fun h => by have := h.2; rw [Fld.at] at this; omega
    exact (hfree.rd hno).trans (State.rd_of_word g _ (rword _ hno))
  refine ⟨(hlast _ (by decide)).trans unext, (hlast _ (by decide)).trans uacc, ?_, by rw [hfree.hbm, rhbm, uhbm],
    by rw [hfree.deck, rdeck, udeck], ?_, u, State.rd_of_word _ _ (uword _ (.inl rfl)), State.rd_of_word _ _ (uword _ (.inr rfl)), ?_⟩
  · rw [hfree.flow, State.flow_of_flows rflows, uexp]
  · rw [State.rxq_freeCredits, rrxq, State.link_of_links ulinks]
  · rw [State.outFrames_freeCredits, rframes, State.outFrames_of_links ulinks]

end Sys2Proof.Machine

namespace Sys2Proof.Machine

/-! ### Frames that pass the checks of R142 -/

section
variable {s : State} {b : BundleId} {f : List Byte}

theorem flowCheck_passed (h : s.flowCheck b.val f = none) : fFlow f < 40960 ∧ s.rd .VSN_FSTAT_SESSION (fFlow f) = fSession f := by
  unfold State.flowCheck at h
  dsimp only at h
  split at h
  · cases h
  · next hfree =>
    split at h
    · cases h
    · next hses => exact ⟨by omega, not_not.mp hses⟩

theorem sampleCheck_passed {good : Bool} (h : s.sampleCheck b.val f good = none) : s.rd .VSN_SSTAT_BUNDLE (fSession f) = b.val := by
  unfold State.sampleCheck at h
  dsimp only at h
  split at h
  · cases h
  · split at h
    · cases h
    · split at h
      · cases h
      · next hses =>
        simp only [Bool.or_eq_true, decide_eq_true_eq, not_or, not_not] at hses
        exact hses.2

theorem State.heard_active {k : Nat} (h : s.rd .VSN_FSTAT_STATE k = flActive) : s.heard k = s := by
  unfold State.heard
  dsimp only
  rw [h]
  exact if_neg (by decide)

theorem seqDiff_self (e : Nat) : seqDiff e e = 0 := by simp [seqDiff]

/-- The decision on a frame of an active flow that holds none and looks for the sequence expected next. -/
def State.judged (s : State) (b : Nat) (f : List Byte) : State :=
  let k := fFlow f
  let e := s.rd .VSN_FNEXT_NEXT k
  if 2 ^ 31 ≤ seqDiff (fSeq f) e then ((s.bump .VSN_SDUP_COUNT (fSession f)).entry b (fSession f) k 1 0 e).doneFrame b f
  else if 0 < seqDiff (fSeq f) e then (s.nackSeq b (fSession f) k).doneFrame b f
  else if fCount f ≠ (s.flow k).exp then (s.flowFault b (fSession f) k (fSeq f)).doneFrame b f
  else s.decideFrame b f

theorem exec_data_active (hnext : s.isNext b.val f = true) (hsample : s.sampleCheck b.val f (dataFormOk f) = none)
    (hflow : s.flowCheck b.val f = none) (hact : s.rd .VSN_FSTAT_STATE (fFlow f) = flActive)
    (hh : (s.flow (fFlow f)).h = s.rd .VSN_FNEXT_NEXT (fFlow f)) : exec (.data b f) s = .next (s.judged b.val f) := by
  have hne : ¬ s.rd .VSN_FSTAT_STATE (fFlow f) = flFault := by rw [hact]; decide
  show execData b f s = _
  simp only [execData, State.judged, hnext, hsample, hflow, State.heard_active hact, hh, seqDiff_self, hne, Bool.not_true, Bool.false_eq_true,
    if_false, Nat.not_lt_zero, Nat.zero_mul, Nat.add_zero]

/-! ### The frame expected next -/

theorem judged_decides (hq : fSeq f = s.rd .VSN_FNEXT_NEXT (fFlow f)) (hc : fCount f = (s.flow (fFlow f)).exp) :
    s.judged b.val f = s.decideFrame b.val f := by
  simp only [State.judged, hq, hc, seqDiff_self, Nat.lt_irrefl, ne_eq, not_true_eq_false, if_false]
  exact if_neg (by decide)

theorem decideFrame_fits (hg : fGroup f = s.rd .VSN_FSTAT_GROUP (fFlow f)) (hcb : fChbase f = s.rd .VSN_FCHBASE_CHBASE (fFlow f))
    (hsh : fShape f = s.flowShape (fFlow f)) (hlate : s.frameLate f = false) (hfut : ∀ c ∈ s.futureFrom, fCount f < c)
    (hdeal : s.awaitsDeal (fCount f) = false) (hfmt : s.fmtBad f = false) (hheld : (s.flow (fFlow f)).held = []) :
    s.decideFrame b.val f = if (s.suspended || !s.inWindow f) = true then s.holdFrame b.val f else (s.takeFrame b.val).accept b.val f := by
  have hfuture : (match s.futureFrom with | some c => decide (c ≤ fCount f) | none => false) = false := by
    cases h : s.futureFrom with
    | none => rfl
    | some c => exact decide_eq_false (Nat.not_le.mpr (hfut c h))
  unfold State.decideFrame
  extract_lets k n q
  rw [if_neg (by simp [hg, hcb, hsh, k]), if_neg (by simp [hlate])]
  refine (if_neg fun h => absurd (hfuture.symm.trans h) (by decide)).trans ?_
  rw [if_neg (by simp [hdeal]), if_neg (by simp [hfmt])]
  simp only [hheld, k, List.isEmpty_nil, Bool.not_true, Bool.or_false]

theorem takeFrame_accepted (hk : fFlow f < 40960) (hn : s.rd .VSN_FSTAT_SESSION (fFlow f) = fSession f)
    (hb : s.rd .VSN_SSTAT_BUNDLE (fSession f) = b.val) :
    let t := (s.takeFrame b.val).accept b.val f
    t.rd .VSN_FNEXT_NEXT (fFlow f) = (s.rd .VSN_FNEXT_NEXT (fFlow f) + 1) % 2 ^ 32 ∧
    (t.flow (fFlow f)).exp = (s.flow (fFlow f)).exp + shT (fShape f) ∧
    t.rd .VSN_FACC_ACCEPTED (fFlow f) = (s.rd .VSN_FACC_ACCEPTED (fFlow f) + 1) % 2 ^ 32 ∧
    (∀ p, s.planAt (fCount f) = some p → t.hbm = (s.writeFrame p f).hbm ∧ t.deck = (s.writeFrame p f).deck) ∧
    FrameSent b.val 0x30 (fSession f) (ackEntry (fFlow f) 1 0 ((s.rd .VSN_FNEXT_NEXT (fFlow f) + 1) % 2 ^ 32)) s t ∧
    (t.link b.val).rxq = (s.link b.val).rxq.tail := by
  have hrd : ∀ g i, (s.takeFrame b.val).rd g i = s.rd g i := fun g i => s.rd_setLink ..
  obtain ⟨hnext, hacc, hexp, hhbm, hdeck, hrxq, x, hid, hep, hframes⟩ :=
    (s.takeFrame b.val).accept_effect (b := b.val) (by omega) hk ((hrd _ _).trans hn)
  rw [hrd, hrd, hb, State.outFrames_takeFrame] at hframes
  rw [hrd] at hnext hacc hep
  refine ⟨hnext, hexp, hacc, fun p hp => ?_, ⟨x, hid, hep, hframes⟩, ?_⟩
  · have hw : (s.takeFrame b.val).samplesWritten f = (s.writeFrame p f).setLink b.val { s.link b.val with rxq := (s.link b.val).rxq.drop 1 } := by
      rw [← State.writeFrame_setLink]
      show (match s.planAt (fCount f) with | some p => (s.takeFrame b.val).writeFrame p f | none => s.takeFrame b.val) = _
      rw [hp]; rfl
    rw [hhbm, hdeck, hw]
    exact ⟨State.setLink_hbm .., State.setLink_deck ..⟩
  · rw [hrxq, State.takeFrame, State.link_setLink_same, List.drop_one]

/-- While acceptance is suspended the frame stays in the receive buffer (R152). -/
theorem holdFrame_effect (hheld : (s.flow (fFlow f)).held = []) :
    let t := s.holdFrame b.val f
    t.rd .VSN_FNEXT_NEXT (fFlow f) = s.rd .VSN_FNEXT_NEXT (fFlow f) ∧ (t.flow (fFlow f)).held = [(b.val, f)] ∧
    (t.flow (fFlow f)).h = ((s.flow (fFlow f)).h + 1) % 2 ^ 32 ∧ t.outFrames b.val = s.outFrames b.val ∧ t.hbm = s.hbm ∧ t.deck = s.deck := by
  have hset := (s.takeFrame b.val).setHeld_aside (fFlow f) ((s.flow (fFlow f)).held ++ [(b.val, f)])
  have hout := (s.takeFrame b.val).outFrames_setHeld (fFlow f) ((s.flow (fFlow f)).held ++ [(b.val, f)]) b.val
  have hflow := hset.flow (fFlow f)
  rw [State.flow_setFlow_same] at hflow
  have hhbm : ((s.takeFrame b.val).setFlow (fFlow f) { (s.takeFrame b.val).flow (fFlow f) with
      held := (s.flow (fFlow f)).held ++ [(b.val, f)] }).hbm = s.hbm := State.setFlow_hbm ..
  have hdeck : ((s.takeFrame b.val).setFlow (fFlow f) { (s.takeFrame b.val).flow (fFlow f) with
      held := (s.flow (fFlow f)).held ++ [(b.val, f)] }).deck = s.deck := State.setFlow_deck ..
  have hnext := hset.rd (f := .VSN_FNEXT_NEXT) (i := fFlow f) (by
    rintro (h | ⟨hlo, hhi⟩)
    · simp only [Fld.at, Fld.VSN_FNEXT_NEXT] at h; omega
    · simp only [Fld.at, Fld.VSN_FNEXT_NEXT] at hhi; omega)
  rw [State.rd_setFlow] at hnext
  unfold State.holdFrame
  dsimp only
  generalize (s.takeFrame b.val).setHeld (fFlow f) ((s.flow (fFlow f)).held ++ [(b.val, f)]) = t at *
  refine ⟨?_, ?_, ?_, ?_, ?_, ?_⟩
  · rw [State.rd_setFlow, hnext]
    exact s.rd_setLink ..
  · rw [State.flow_setFlow_same, hflow, hheld]; rfl
  · rw [State.flow_setFlow_same, hflow]; rfl
  · rw [State.outFrames_setFlow, hout, State.outFrames_takeFrame]
  · rw [State.setFlow_hbm, hset.hbm, hhbm]
  · rw [State.setFlow_deck, hset.deck, hdeck]

end

end Sys2Proof.Machine

namespace Sys2Proof.Machine

variable (s : State)

/-! ### Frames that are not accepted: duplicates, gaps and faults (R140, R146, R150) -/

/-- An acknowledgement, and the frame that it is for leaves the link layer. -/
theorem State.entry_doneFrame (b : BundleId) (n k kind reason q : Nat) (f : List Byte) :
    (∀ o, ¬ linkPage o → ((s.entry b.val n k kind reason q).doneFrame b.val f).word o = s.word o) ∧
    ((s.entry b.val n k kind reason q).doneFrame b.val f).flows = s.flows ∧
    ((s.entry b.val n k kind reason q).doneFrame b.val f).hbm = s.hbm ∧
    ((s.entry b.val n k kind reason q).doneFrame b.val f).outFrames b.val = s.outFrames b.val ++ [s.mkFrame 0x30 n (ackEntry k kind reason q)] := by
  obtain ⟨rword, rhbm, -, -, rframes⟩ := s.entry_effect (b := b.val) (by omega) n k kind reason q
  have rflows := s.entry_flows (b := b.val) (by omega) n k kind reason q
  have hdone := (s.entry b.val n k kind reason q).doneFrame_link b f
  exact ⟨fun o ho => (hdone.word o ho).trans (rword o ho), hdone.flows.trans rflows, hdone.hbm.trans rhbm,
    (State.outFrames_doneFrame ..).trans rframes⟩

section
variable {s} {b : BundleId} {f : List Byte}

theorem judged_duplicate (hn : fSession f < 256) (hdup : 2 ^ 31 ≤ seqDiff (fSeq f) (s.rd .VSN_FNEXT_NEXT (fFlow f))) :
    (s.judged b.val f).rd .VSN_SDUP_COUNT (fSession f) = min (s.rd .VSN_SDUP_COUNT (fSession f) + 1) (2 ^ 32 - 1) ∧
    (s.judged b.val f).flows = s.flows ∧ (s.judged b.val f).hbm = s.hbm ∧
    (s.judged b.val f).outFrames b.val = s.outFrames b.val ++
      [s.mkFrame 0x30 (fSession f) (ackEntry (fFlow f) 1 0 (s.rd .VSN_FNEXT_NEXT (fFlow f)))] := by
  have hcount : (s.bump .VSN_SDUP_COUNT (fSession f)).rd .VSN_SDUP_COUNT (fSession f) = min (s.rd .VSN_SDUP_COUNT (fSession f) + 1) (2 ^ 32 - 1) :=
    State.rd_bump_same _ _ _ _ (by decide)
  have hhead : SameHead (fSession f) s (s.bump .VSN_SDUP_COUNT (fSession f)) :=
    (SameHead.refl s).setWord _ (by simp only [Fld.at, Fld.VSN_SDUP_COUNT]; omega)
  rw [State.judged, if_pos hdup]
  obtain ⟨hword, hflows, hhbm, hframes⟩ := (s.bump .VSN_SDUP_COUNT (fSession f)).entry_doneFrame b (fSession f) (fFlow f) 1 0
    (s.rd .VSN_FNEXT_NEXT (fFlow f)) f
  refine ⟨(State.rd_of_word _ _ (hword _ fun h => ?_)).trans hcount, hflows.trans (State.bump_flows ..), hhbm.trans (State.bump_hbm ..), ?_⟩
  · have := h.2
    simp only [Fld.at, Fld.VSN_SDUP_COUNT] at this; omega
  · rw [hframes, State.outFrames_bump, hhead.mkFrame]

theorem judged_gap (hn : fSession f < 256) (hlo : 1 ≤ seqDiff (fSeq f) (s.rd .VSN_FNEXT_NEXT (fFlow f)))
    (hhi : seqDiff (fSeq f) (s.rd .VSN_FNEXT_NEXT (fFlow f)) < 2 ^ 31) (hh : (s.flow (fFlow f)).h = s.rd .VSN_FNEXT_NEXT (fFlow f))
    (hquiet : (s.flow (fFlow f)).nackAt = none) :
    (s.judged b.val f).rd .VSN_SGAP_COUNT (fSession f) = min (s.rd .VSN_SGAP_COUNT (fSession f) + 1) (2 ^ 32 - 1) ∧
    (s.judged b.val f).rd .VSN_FNEXT_NEXT (fFlow f) = s.rd .VSN_FNEXT_NEXT (fFlow f) ∧ (s.judged b.val f).hbm = s.hbm ∧
    (s.judged b.val f).outFrames b.val = s.outFrames b.val ++
      [s.mkFrame 0x30 (fSession f) (ackEntry (fFlow f) 2 0 (s.rd .VSN_FNEXT_NEXT (fFlow f)))] := by
  have hgap : s.judged b.val f = (((s.setFlow (fFlow f) { s.flow (fFlow f) with nackAt := some s.clock }).bump .VSN_SGAP_COUNT
      (fSession f)).entry b.val (fSession f) (fFlow f) 2 0 (s.rd .VSN_FNEXT_NEXT (fFlow f))).doneFrame b.val f := by
    rw [State.judged]
    dsimp only
    rw [if_neg (by omega), if_pos (by omega), State.nackSeq]
    simp only [hquiet, hh, Bool.false_eq_true, if_false]
  have hset : SameHead (fSession f) s (s.setFlow (fFlow f) { s.flow (fFlow f) with nackAt := some s.clock }) := (SameHead.refl s).setFlow ..
  have hrd : ∀ g i, (s.setFlow (fFlow f) { s.flow (fFlow f) with nackAt := some s.clock }).rd g i = s.rd g i := s.rd_setFlow _ _
  have hout := s.outFrames_setFlow (fFlow f) { s.flow (fFlow f) with nackAt := some s.clock } b.val
  have hmem : (s.setFlow (fFlow f) { s.flow (fFlow f) with nackAt := some s.clock }).hbm = s.hbm := State.setFlow_hbm ..
  rw [hgap]
  generalize s.setFlow (fFlow f) { s.flow (fFlow f) with nackAt := some s.clock } = u at *
  have hcount : (u.bump .VSN_SGAP_COUNT (fSession f)).rd .VSN_SGAP_COUNT (fSession f) = min (u.rd .VSN_SGAP_COUNT (fSession f) + 1) (2 ^ 32 - 1) :=
    State.rd_bump_same _ _ _ _ (by decide)
  have hhead : SameHead (fSession f) s (u.bump .VSN_SGAP_COUNT (fSession f)) :=
    hset.setWord _ (by simp only [Fld.at, Fld.VSN_SGAP_COUNT]; omega)
  obtain ⟨hword, -, hhbm, hframes⟩ := (u.bump .VSN_SGAP_COUNT (fSession f)).entry_doneFrame b (fSession f) (fFlow f) 2 0
    (s.rd .VSN_FNEXT_NEXT (fFlow f)) f
  have hlast : ∀ g : Fld, 0x402000 ≤ g.base → ∀ i, (((u.bump .VSN_SGAP_COUNT (fSession f)).entry b.val (fSession f) (fFlow f) 2 0
      (s.rd .VSN_FNEXT_NEXT (fFlow f))).doneFrame b.val f).rd g i = (u.bump .VSN_SGAP_COUNT (fSession f)).rd g i := fun g hg i =>
    State.rd_of_word g i (hword _ fun h => by have := h.2; rw [Fld.at] at this; omega)
  refine ⟨?_, ?_, hhbm.trans ((State.bump_hbm ..).trans hmem), ?_⟩
  · rw [hlast _ (by decide), hcount, hrd]
  · rw [hlast _ (by decide), State.rd_of_word _ _ (u.word_bump_other _ _ _ ?_), hrd]
    simp only [Fld.at, Fld.VSN_FNEXT_NEXT, Fld.VSN_SGAP_COUNT]; omega
  · rw [hframes, State.outFrames_bump, hout, hhead.mkFrame]

/-- What is noted of a flow's fault before its entry leaves. -/
def State.faultNoted (s : State) (n k : Nat) : State :=
  (((s.wr .VSN_FSTAT_STATE k flFault).flag .VSN_EVT_FLOWFAULT).flowEvent k 6).bump .VSN_SREFUSED_COUNT n

theorem State.faultNoted_effect {n k : Nat} (hn : n < 256) :
    (s.faultNoted n k).rd .VSN_FSTAT_STATE k = flFault ∧ (s.faultNoted n k).on .VSN_EVT_FLOWFAULT = true ∧
    (s.faultNoted n k).hbm = s.hbm ∧ SameHead n s (s.faultNoted n k) ∧ ∀ c, (s.faultNoted n k).outFrames c = s.outFrames c := by
  unfold State.faultNoted
  have hstate : (s.wr .VSN_FSTAT_STATE k flFault).rd .VSN_FSTAT_STATE k = flFault := by
    rw [State.rd_wr_same _ _ _ _ (by decide)]; rfl
  have hhead : SameHead n s (s.wr .VSN_FSTAT_STATE k flFault) := (SameHead.refl s).setWord _ (by simp only [Fld.at, Fld.VSN_FSTAT_STATE]; omega)
  have hmem : (s.wr .VSN_FSTAT_STATE k flFault).hbm = s.hbm := State.wr_hbm ..
  have hout := s.outFrames_wr .VSN_FSTAT_STATE k flFault
  generalize s.wr .VSN_FSTAT_STATE k flFault = t at *
  have hset : (t.flag .VSN_EVT_FLOWFAULT).on .VSN_EVT_FLOWFAULT = true := State.on_flag_same _ _ _ (by decide) (by decide)
  have hflag : Aside asideWord t (t.flag .VSN_EVT_FLOWFAULT) := (Aside.refl t).flag (.inr (.inl rfl))
  have hflagged := t.outFrames_flag .VSN_EVT_FLOWFAULT 0
  generalize t.flag .VSN_EVT_FLOWFAULT = u at *
  have hev := u.flowEvent_aside k 6
  have hkept : (u.flowEvent k 6).on .VSN_EVT_FLOWFAULT = true :=
    (State.on_of_word .VSN_EVT_FLOWFAULT 0 (State.word_event _ _ _ _ _ _ (by decide))).trans hset
  have hevented := u.outFrames_flowEvent k 6
  generalize u.flowEvent k 6 = v at *
  have hword : ∀ o, o ≠ 0x402014 + 0x40 * n → (v.bump .VSN_SREFUSED_COUNT n).word o = v.word o := fun o ho => v.word_bump_other _ _ _ ho
  refine ⟨?_, ?_, ?_, ?_, fun c => ?_⟩
  · rw [State.rd_of_word _ _ (hword _ (by simp only [Fld.at, Fld.VSN_FSTAT_STATE]; omega)), hev.calm (by decide), hflag.calm (by decide), hstate]
  · rw [State.on_of_word _ _ (hword _ (by simp only [Fld.at, Fld.VSN_EVT_FLOWFAULT]; omega)), hkept]
  · rw [State.bump_hbm, hev.hbm, hflag.hbm, hmem]
  · exact ((hhead.aside hflag).aside hev).setWord _ (by simp only [Fld.at, Fld.VSN_SREFUSED_COUNT]; omega)
  · rw [State.outFrames_bump, hevented, hflagged, hout]

theorem judged_fault (hn : fSession f < 256) (hq : fSeq f = s.rd .VSN_FNEXT_NEXT (fFlow f)) (hc : fCount f ≠ (s.flow (fFlow f)).exp) :
    (s.judged b.val f).rd .VSN_FSTAT_STATE (fFlow f) = flFault ∧ (s.judged b.val f).on .VSN_EVT_FLOWFAULT = true ∧
    (s.judged b.val f).hbm = s.hbm ∧ (s.judged b.val f).outFrames b.val = s.outFrames b.val ++
      [s.mkFrame 0x30 (fSession f) (ackEntry (fFlow f) 6 0 (s.rd .VSN_FNEXT_NEXT (fFlow f)))] := by
  have hfault : s.judged b.val f = ((s.faultNoted (fSession f) (fFlow f)).entry b.val (fSession f) (fFlow f) 6 0
      (s.rd .VSN_FNEXT_NEXT (fFlow f))).doneFrame b.val f := by
    rw [State.judged, hq, seqDiff_self, if_neg (by decide), if_neg (by decide), if_pos hc]
    rfl
  obtain ⟨hstate, hon, hmem, hhead, hout⟩ := s.faultNoted_effect (k := fFlow f) hn
  rw [hfault]
  generalize s.faultNoted (fSession f) (fFlow f) = v at *
  obtain ⟨hword, -, hhbm, hframes⟩ := v.entry_doneFrame b (fSession f) (fFlow f) 6 0 (s.rd .VSN_FNEXT_NEXT (fFlow f)) f
  refine ⟨(State.rd_of_word _ _ (hword _ fun h => ?_)).trans hstate, (State.on_of_word _ _ (hword _ fun h => ?_)).trans hon,
    hhbm.trans hmem, by rw [hframes, hout, hhead.mkFrame]⟩
  · have := h.2
    simp only [Fld.at, Fld.VSN_FSTAT_STATE] at this; omega
  · have := h.1
    simp only [Fld.at, Fld.VSN_EVT_FLOWFAULT] at this
    have := h.2
    simp only [Fld.at, Fld.VSN_EVT_FLOWFAULT] at this; omega

end

/-- Settles O21: `exec` comes to the decision on an active flow's frame, one lemma for each of its outcomes. -/
theorem dataFrames : Obligations.DataFrames := by
  intro s b f hnext hsample hflow
  obtain ⟨hk, hses⟩ := flowCheck_passed hflow
  intro k n e ack hact hh hheld
  have hexec := exec_data_active hnext hsample hflow hact hh
  have hn : fSession f < 256 := fieldAt_lt f 3 1
  refine ⟨fun hq hc hg hcb hsh hlate hfut hdeal hfmt => ?_, fun hdup => ⟨_, hexec, judged_duplicate hn hdup⟩,
    fun hlo hhi hquiet => ⟨_, hexec, judged_gap hn hlo hhi hh hquiet⟩, fun hq hc => ⟨_, hexec, judged_fault hn hq hc⟩⟩
  have hdecide : exec (.data b f) s = .next (if (s.suspended || !s.inWindow f) = true then s.holdFrame b.val f else
      (s.takeFrame b.val).accept b.val f) := by
    rw [hexec, judged_decides hq hc, decideFrame_fits hg hcb hsh hlate hfut hdeal hfmt hheld]
  refine ⟨fun hrun hwin => ⟨(s.takeFrame b.val).accept b.val f, ?_, takeFrame_accepted hk hses (sampleCheck_passed hsample)⟩,
    fun hsus => ⟨s.holdFrame b.val f, ?_, ?_⟩⟩
  · rw [hdecide, if_neg (by simp [hrun, hwin])]
  · rw [hdecide, if_pos (by simp [hsus])]
  · obtain ⟨hfnext, hfheld, hfh, hframes, hhbm, hdeck⟩ := holdFrame_effect (b := b) (f := f) hheld
    exact ⟨hfnext, hfheld, by rw [hfh, hh], hframes, hhbm, hdeck⟩

end Sys2Proof.Machine

/-! # O20: the states of a flow (R134 to R139, R152) -/

namespace Sys2Proof.Machine

variable (s : State)

/-! ### A flow's context is granted (R134, R136) -/

/-- The registers of a flow that a grant writes. -/
def State.grantedRegs (s : State) (f n g sh cb seq : Nat) : State :=
  (((((((s.wr .VSN_FSTAT_STATE f flActive).wr .VSN_FSTAT_SESSION f n).wr .VSN_FSTAT_GROUP f g).wr .VSN_FSTAT_CHCODE f (sh % 8)).wr
    .VSN_FSTAT_SCODE f (sh / 8 % 4)).wr .VSN_FSTAT_FMT f (sh / 32 % 2)).wr .VSN_FCHBASE_CHBASE f cb).wr .VSN_FNEXT_NEXT f seq

/-- The flow's registers say what was granted to session `n`. -/
structure Anchored (f n g sh cb seq : Nat) (t : State) : Prop where
  state : t.rd .VSN_FSTAT_STATE f = flActive
  session : t.rd .VSN_FSTAT_SESSION f = n
  group : t.rd .VSN_FSTAT_GROUP f = g
  shape : t.flowShape f = sh
  chbase : t.rd .VSN_FCHBASE_CHBASE f = cb
  next : t.rd .VSN_FNEXT_NEXT f = seq

section
variable {s} {t : State} {f n g sh cb seq : Nat}

theorem shape_of_codes (h : sh < 64) : sh % 8 + 8 * (sh / 8 % 4) + 32 * (sh / 32 % 2) = sh := by omega

theorem State.grantedRegs_anchored (hn : n < 256) (hg : g < 64) (hsh : sh < 64) (hcb : cb < 2 ^ 24) (hseq : seq < 2 ^ 32) :
    Anchored f n g sh cb seq (s.grantedRegs f n g sh cb seq) := by
  unfold State.grantedRegs
  refine ⟨?_, ?_, ?_, ?_, ?_, ?_⟩ <;> simp (disch := decide) only [State.flowShape, State.rd_wr_apart, State.rd_wr_same]
  · rfl
  · exact Nat.mod_eq_of_lt hn
  · exact Nat.mod_eq_of_lt hg
  · exact (congrArg₂ (· + ·) (congrArg₂ (· + ·) (Nat.mod_mod ..) (congrArg (8 * ·) (Nat.mod_mod ..))) (congrArg (32 * ·) (Nat.mod_mod ..))).trans
      (shape_of_codes hsh)
  · exact Nat.mod_eq_of_lt hcb
  · exact Nat.mod_eq_of_lt hseq

/-- The registers of one flow. -/
def oneFlow (f o : Nat) : Prop := 0x410000 + 0x10 * f ≤ o ∧ o < 0x410010 + 0x10 * f

theorem State.grantedRegs_aside : Aside (oneFlow f) s (s.grantedRegs f n g sh cb seq) := by
  have hin : ∀ o, o < 16 → oneFlow f (0x410000 + o + 0x10 * f) := fun o ho => ⟨by omega, by omega⟩
  have h0 := hin 0 (by omega)
  exact ((((((((Aside.refl s).wr _ h0).wr _ h0).wr _ h0).wr _ h0).wr _ h0).wr _ h0).wr _ (hin 8 (by omega))).wr _ (hin 4 (by omega))

theorem Anchored.congr {u : State} (h : Anchored f n g sh cb seq t) 
    (hrd : ∀ fld : Fld, fld.calm = true → 0x410000 ≤ fld.base → u.rd fld f = t.rd fld f) :
    Anchored f n g sh cb seq u where
  state := (hrd _ (by decide) (by decide)).trans h.state
  session := (hrd _ (by decide) (by decide)).trans h.session
  group := (hrd _ (by decide) (by decide)).trans h.group
  shape := by rw [← h.shape, State.flowShape, State.flowShape, hrd _ (by decide) (by decide), hrd _ (by decide) (by decide), hrd _ (by decide) (by decide)]
  chbase := (hrd _ (by decide) (by decide)).trans h.chbase
  next := (hrd _ (by decide) (by decide)).trans h.next

/-- A context that held no frame stands as granted. -/
theorem State.anchorFlow_effect (anchor : Nat) (hn : n < 256) (hg : g < 64) (hsh : sh < 64) (hcb : cb < 2 ^ 24) (hseq : seq < 2 ^ 32) :
    Anchored f n g sh cb seq (s.anchorFlow f n g sh cb seq anchor) ∧
    ((s.anchorFlow f n g sh cb seq anchor).flow f).exp = anchor ∧ ((s.anchorFlow f n g sh cb seq anchor).flow f).h = seq ∧
    ((s.anchorFlow f n g sh cb seq anchor).flow f).held = (s.flow f).held ∧
    (∀ o, ¬ oneFlow f o → (s.anchorFlow f n g sh cb seq anchor).word o = s.word o) ∧
    ∀ b, (s.anchorFlow f n g sh cb seq anchor).outFrames b = s.outFrames b := by
  have hregs : Anchored f n g sh cb seq (s.grantedRegs f n g sh cb seq) := State.grantedRegs_anchored hn hg hsh hcb hseq
  have haside : Aside (oneFlow f) s (s.grantedRegs f n g sh cb seq) := State.grantedRegs_aside
  have hout : ∀ b, (s.grantedRegs f n g sh cb seq).outFrames b = s.outFrames b := fun b => by
    simp only [State.grantedRegs, State.outFrames_wr]
  have heq : s.anchorFlow f n g sh cb seq anchor = (s.grantedRegs f n g sh cb seq).setFlow f { (s.grantedRegs f n g sh cb seq).flow f with
      h := seq, exp := anchor, anchorSeq := seq, anchorCount := anchor, lossFirst := 0, lossCount := 0, lateBelow := 0, nackAt := none } := rfl
  rw [heq]
  generalize s.grantedRegs f n g sh cb seq = u at *
  refine ⟨hregs.congr fun fld _ _ => u.rd_setFlow .., ?_, ?_, ?_, fun o ho => ?_, fun b => ?_⟩
  · rw [State.flow_setFlow_same]
  · rw [State.flow_setFlow_same]
  · rw [State.flow_setFlow_same, haside.flow]
  · rw [State.word_of_regs (State.setFlow_regs ..), haside.word o ho]
  · rw [State.outFrames_setFlow, hout]

/-- FGRANT leaves, and the grant is noted. -/
def State.grantSent (s : State) (b n f tag action : Nat) : State := ((s.sendFgrant b n f tag).flowEvent f action).flowRecord f

theorem State.grantSent_effect {b : Nat} (hb : b < 8) (tag action : Nat) :
    Aside asideWord s (s.grantSent b n f tag action) ∧
    (s.grantSent b n f tag action).on .VSN_EVT_TAKEOVER = s.on .VSN_EVT_TAKEOVER ∧
    (s.grantSent b n f tag action).outFrames b = s.outFrames b ++ [s.mkFrame 0x21 n (leBytes 2 f ++ leBytes 2 tag ++
      leBytes 4 (s.rd .VSN_FNEXT_NEXT f) ++ leBytes 8 (s.flow f).exp ++ leBytes 16 0)] := by
  unfold State.grantSent State.sendFgrant
  generalize leBytes 2 f ++ leBytes 2 tag ++ leBytes 4 (s.rd .VSN_FNEXT_NEXT f) ++ leBytes 8 (s.flow f).exp ++ leBytes 16 0 = p
  have hlink := s.say_link hb 0x21 n p
  refine ⟨((s.say_aside hb 0x21 n p).trans (State.flowEvent_aside ..)).trans (State.flowRecord_aside ..), ?_, ?_⟩
  · have hrecord : Aside linkPage ((s.say b 0x21 n p).flowEvent f action) (((s.say b 0x21 n p).flowEvent f action).flowRecord f) :=
      State.flowRecord_aside ..
    have hoff : ¬ linkPage (Fld.VSN_EVT_TAKEOVER.at 0) := fun h => absurd h.1 (by decide)
    rw [State.on_of_word _ _ (hrecord.word _ hoff), State.flowEvent, State.on_of_word _ _ (State.word_event _ _ _ _ _ _ (by decide)),
      State.on_of_word _ _ (hlink.word _ hoff)]
  · rw [State.outFrames_flowRecord, State.outFrames_flowEvent, State.outFrames_say]

/-- What FREQ's answer shows of a flow that was granted. -/
def Granted (b f n g sh cb tag seq anchor : Nat) (s t : State) : Prop :=
  t.rd .VSN_FSTAT_STATE f = flActive ∧ t.rd .VSN_FSTAT_SESSION f = n ∧ t.rd .VSN_FSTAT_GROUP f = g ∧ t.flowShape f = sh ∧
  t.rd .VSN_FCHBASE_CHBASE f = cb ∧ t.rd .VSN_FNEXT_NEXT f = seq ∧ (t.flow f).exp = anchor ∧ (t.flow f).h = seq ∧
  (t.flow f).held = [] ∧ FrameSent b 0x21 n (leBytes 2 f ++ leBytes 2 tag ++ leBytes 4 seq ++ leBytes 8 anchor ++ leBytes 16 0) s t

/-- A grant sent from a state in which the flow is anchored. -/
theorem Anchored.granted {b tag action anchor : Nat} (h : Anchored f n g sh cb seq t) (hb : b < 8) (hexp : (t.flow f).exp = anchor)
    (hh : (t.flow f).h = seq) (hheld : (t.flow f).held = []) (hid : t.moduleId = s.moduleId)
    (hepoch : t.rd .VSN_SSTAT_EPOCH n = s.rd .VSN_SSTAT_EPOCH n) (hout : t.outFrames b = s.outFrames b) :
    Granted b f n g sh cb tag seq anchor s (t.grantSent b n f tag action) := by
  obtain ⟨haside, -, hframes⟩ := t.grantSent_effect (n := n) (f := f) hb tag action
  have hk := h.congr (u := t.grantSent b n f tag action) fun fld hf _ => haside.calm hf f
  rw [h.next, hexp, hout] at hframes
  exact ⟨hk.state, hk.session, hk.group, hk.shape, hk.chbase, hk.next, by rw [haside.flow, hexp], by rw [haside.flow, hh],
    by rw [haside.flow, hheld], t, hid, hepoch, hframes⟩

end

end Sys2Proof.Machine

namespace Sys2Proof.Machine

variable (s : State)

/-! ### The context of a new flow (R134, R135) -/

/-- The flows that share a (group, channel) pair with a set. -/
def State.sharing (s : State) (g cb sh : Nat) : List Nat :=
  s.flowList.filter (fun o => overlaps g cb sh (s.rd .VSN_FSTAT_GROUP o) (s.rd .VSN_FCHBASE_CHBASE o) (s.flowShape o))

theorem find_lowest {used : List Nat} {k : Nat} (hk : k ∉ used) (hmin : ∀ j, j < k → j ∈ used) :
    (List.range (used.length + 1)).find? (fun j => !used.contains j) = some k := by
  have hsub : (List.range k).Subperm used := List.nodup_range.subperm fun j hj => hmin j (List.mem_range.mp hj)
  have hle : k ≤ used.length := by simpa using hsub.length_le
  exact List.find?_range_eq_some.mpr ⟨by simpa using hk, List.mem_range.mpr (by omega), fun j hj => by simpa using hmin j hj⟩

/-- The flows `hits` make room. -/
def State.takenOver (s : State) (hits : List Nat) : State := hits.foldl (fun s o => (s.releaseFlow o 4).flag .VSN_EVT_TAKEOVER) s

theorem State.takenOver_released (hits : List Nat) : Released hits s (s.takenOver hits) :=
  Released.foldl (fun t f => (t.releaseFlow_released f 4).flag rfl) hits s

theorem State.takenOver_on {hits : List Nat} (h : hits ≠ []) : (s.takenOver hits).on .VSN_EVT_TAKEOVER = true := by
  obtain ⟨l, o, rfl⟩ := List.eq_nil_or_concat hits |>.resolve_left h
  rw [State.takenOver, List.concat_eq_append, List.foldl_append]
  exact State.on_flag_same _ _ _ (by decide) (by decide)

/-- Context `k` is taken for the new flow. -/
def State.grantNew (s : State) (b n g sh cb seq anchor tag k : Nat) (hits : List Nat) : State :=
  let t := ((s.takenOver hits).setFlow k {}).anchorFlow k n g sh cb seq anchor
  (t.wr .VSN_SSTAT_FLOWS n (t.rd .VSN_SSTAT_FLOWS n + 1)).grantSent b n k tag 1

section
variable {s} {t : State} {b n g sh cb seq anchor tag k : Nat}

theorem State.grantNew_effect (hits : List Nat) (hb : b < 8) (hn : n < 256) (hg : g < 64) (hsh : sh < 64) (hcb : cb < 2 ^ 24)
    (hseq : seq < 2 ^ 32) :
    Granted b k n g sh cb tag seq anchor s (s.grantNew b n g sh cb seq anchor tag k hits) ∧
    (hits ≠ [] → (s.grantNew b n g sh cb seq anchor tag k hits).on .VSN_EVT_TAKEOVER = true) ∧
    ∀ o ∈ hits, o ≠ k → (s.grantNew b n g sh cb seq anchor tag k hits).rd .VSN_FSTAT_STATE o = flFree := by
  have hrel := s.takenOver_released hits
  have hon : hits ≠ [] → (s.takenOver hits).on .VSN_EVT_TAKEOVER = true := s.takenOver_on
  unfold State.grantNew
  dsimp only
  generalize s.takenOver hits = u at *
  obtain ⟨hanch, hexp, hh, hheld, hword, hout⟩ := (u.setFlow k {}).anchorFlow_effect (f := k) anchor hn hg hsh hcb hseq
  generalize (u.setFlow k {}).anchorFlow k n g sh cb seq anchor = v at *
  rw [State.flow_setFlow_same] at hheld
  have hvu : ∀ o, ¬ oneFlow k o → v.word o = u.word o := fun o ho => (hword o ho).trans (State.word_of_regs (State.setFlow_regs ..) o)
  generalize v.rd .VSN_SSTAT_FLOWS n + 1 = c
  have hcount : ∀ o, o ≠ 0x402000 + 0x40 * n → (v.wr .VSN_SSTAT_FLOWS n c).word o = v.word o := fun o ho => v.word_wr_other _ _ _ ho
  have hwflow := State.flow_of_flows (v.wr_flows .VSN_SSTAT_FLOWS n c) k
  have hepoch : (v.wr .VSN_SSTAT_FLOWS n c).rd .VSN_SSTAT_EPOCH n = v.rd .VSN_SSTAT_EPOCH n := State.rd_wr_apart _ (by decide) _ _
  have hwout := v.outFrames_wr .VSN_SSTAT_FLOWS n c b
  generalize v.wr .VSN_SSTAT_FLOWS n c = w at *
  have hwu : ∀ o, ¬ oneFlow k o → o ≠ 0x402000 + 0x40 * n → w.word o = u.word o := fun o ho hne => (hcount o hne).trans (hvu o ho)
  obtain ⟨haside, htake, -⟩ := w.grantSent_effect (n := n) (f := k) hb tag 1
  refine ⟨Anchored.granted (hanch.congr fun fld hf hlo => State.rd_of_word fld k (hcount _ ?_)) hb ?_ ?_ ?_ ?_ ?_ ?_, fun hne => ?_,
    fun o ho hok => ?_⟩
  · rw [Fld.at]; omega
  · rw [hwflow, hexp]
  · rw [hwflow, hh]
  · rw [hwflow, hheld]
  · refine (State.rd_of_word _ _ (hwu _ ?_ ?_)).trans hrel.id
    · simp only [oneFlow, Fld.at, Fld.MOD_ID_ID]; omega
    · simp only [Fld.at, Fld.MOD_ID_ID]; omega
  · rw [hepoch, State.rd_of_word _ _ (hvu _ _), hrel.sstat _ (by decide) _ hn]
    simp only [oneFlow, Fld.at, Fld.VSN_SSTAT_EPOCH]; omega
  · rw [hwout, hout, State.outFrames_setFlow, hrel.frames]
  · rw [htake, State.on_of_word _ _ (hwu _ _ _), hon hne]
    · simp only [oneFlow, Fld.at, Fld.VSN_EVT_TAKEOVER]; omega
    · simp only [Fld.at, Fld.VSN_EVT_TAKEOVER]; omega
  · rw [haside.calm (by decide), State.rd_of_word _ _ (hwu _ _ _), hrel.free ho]
    · simp only [oneFlow, Fld.at, Fld.VSN_FSTAT_STATE]; omega
    · simp only [Fld.at, Fld.VSN_FSTAT_STATE]; omega

end

/-! ### The answer to FREQ for a new flow -/

/-- The flows a new one may not share a channel with are its own session's. -/
def State.ownShares (s : State) (n : Nat) (hits : List Nat) : Prop := ∃ o ∈ hits, s.rd .VSN_FSTAT_SESSION o = n

/-- And those of another endpoint. -/
def State.foreignShares (s : State) (n : Nat) (hits : List Nat) : Prop :=
  ∃ o ∈ hits, s.rd .VSN_SPEER_ENDPOINT (s.rd .VSN_FSTAT_SESSION o) ≠ s.rd .VSN_SPEER_ENDPOINT n

section
variable {s} {b n g sh cb seq anchor tag k : Nat}

theorem State.newFlow_eq : s.newFlow b n g sh cb seq anchor tag =
    if (s.sharing g cb sh).any (fun o => s.rd .VSN_FSTAT_SESSION o == n) then s.sendFrefuse b n tag 6
    else if (s.sharing g cb sh).any (fun o => s.rd .VSN_SPEER_ENDPOINT (s.rd .VSN_FSTAT_SESSION o) != s.rd .VSN_SPEER_ENDPOINT n) then
      s.sendFrefuse b n tag 4
    else if s.timeb.map.isNone then s.sendFrefuse b n tag 7 else
    match (List.range ((s.flowList.filter (fun j => !(s.sharing g cb sh).contains j)).length + 1)).find?
      (fun j => !(s.flowList.filter (fun j => !(s.sharing g cb sh).contains j)).contains j) with
    | none => s.sendFrefuse b n tag 1
    | some j =>
      if 40960 ≤ j then s.sendFrefuse b n tag 1
      else if !s.capacityOk b sh (s.sharing g cb sh) then s.sendFrefuse b n tag 2
      else s.grantNew b n g sh cb seq anchor tag j (s.sharing g cb sh) := rfl

theorem any_own {hits : List Nat} : hits.any (fun o => s.rd .VSN_FSTAT_SESSION o == n) = true ↔ s.ownShares n hits := by
  simp [State.ownShares, List.any_eq_true]

theorem any_foreign {hits : List Nat} : hits.any (fun o => s.rd .VSN_SPEER_ENDPOINT (s.rd .VSN_FSTAT_SESSION o) != s.rd .VSN_SPEER_ENDPOINT n) =
    true ↔ s.foreignShares n hits := by
  simp [State.foreignShares, List.any_eq_true]

theorem newFlow_own (h : s.ownShares n (s.sharing g cb sh)) : s.newFlow b n g sh cb seq anchor tag = s.sendFrefuse b n tag 6 := by
  rw [State.newFlow_eq, if_pos (any_own.mpr h)]

theorem newFlow_shared (h : ¬ s.ownShares n (s.sharing g cb sh)) (hother : s.foreignShares n (s.sharing g cb sh)) :
    s.newFlow b n g sh cb seq anchor tag = s.sendFrefuse b n tag 4 := by
  rw [State.newFlow_eq, if_neg (mt any_own.mp h), if_pos (any_foreign.mpr hother)]

variable (hown : ¬ s.ownShares n (s.sharing g cb sh)) (hother : ¬ s.foreignShares n (s.sharing g cb sh))
include hown hother

theorem newFlow_unmapped (hmap : s.timeb.map = none) : s.newFlow b n g sh cb seq anchor tag = s.sendFrefuse b n tag 7 := by
  rw [State.newFlow_eq, if_neg (mt any_own.mp hown), if_neg (mt any_foreign.mp hother), if_pos (by rw [hmap]; rfl)]

variable (hmap : s.timeb.map.isSome = true)
include hmap

theorem newFlow_full (hfull : ∀ j, j < 40960 → j ∈ s.flowList ∧ j ∉ s.sharing g cb sh) :
    s.newFlow b n g sh cb seq anchor tag = s.sendFrefuse b n tag 1 := by
  rw [State.newFlow_eq, if_neg (mt any_own.mp hown), if_neg (mt any_foreign.mp hother), if_neg (by simpa using Option.isSome_iff_ne_none.mp hmap)]
  split
  · rfl
  · next j hj =>
    refine if_pos (Nat.le_of_not_lt fun hlt => ?_)
    have hfound := List.find?_some hj
    obtain ⟨hin, hout⟩ := hfull j hlt
    simp [hin, hout] at hfound

/-- The lowest context that is free, or that makes room. -/
theorem newFlow_lowest (hk : k < 40960) (hfree : k ∉ s.flowList ∨ k ∈ s.sharing g cb sh)
    (hmin : ∀ j, j < k → j ∈ s.flowList ∧ j ∉ s.sharing g cb sh) :
    s.newFlow b n g sh cb seq anchor tag = if s.capacityOk b sh (s.sharing g cb sh) then
      s.grantNew b n g sh cb seq anchor tag k (s.sharing g cb sh) else s.sendFrefuse b n tag 2 := by
  have hfind := find_lowest (used := s.flowList.filter (fun j => !(s.sharing g cb sh).contains j)) (k := k)
    (by simpa [imp_iff_not_or] using hfree) fun j hj => by simpa using hmin j hj
  rw [State.newFlow_eq, if_neg (mt any_own.mp hown), if_neg (mt any_foreign.mp hother), if_neg (by simpa using Option.isSome_iff_ne_none.mp hmap), hfind]
  dsimp only
  rw [if_neg (by omega)]
  by_cases hcap : s.capacityOk b sh (s.sharing g cb sh) = true
  · rw [if_pos hcap, if_neg (by simp [hcap])]
  · rw [if_neg hcap, if_pos (by simpa using hcap)]

end

end Sys2Proof.Machine

namespace Sys2Proof.Machine

variable (s : State)

/-! ### FREQ (R134 to R136) -/

/-- The answer to a FREQ whose frame has left the receive buffer. -/
def State.answerFreq (s : State) (b : Nat) (f : List Byte) : State :=
  let pl := fPayload f
  let n := fSession f
  let g := fieldAt pl 0 1
  let sh := fieldAt pl 1 1 % 64
  let cb := fieldAt pl 2 3
  let tag := fieldAt pl 6 2
  let seq := fieldAt pl 8 4
  let fl := fieldAt pl 12 2
  let anchor := fieldAt pl 16 8
  if 64 ≤ g || !shListed sh || cb % shC sh ≠ 0 || 2 ^ 24 ≤ cb + shC sh - 1 || anchor % shT sh ≠ 0 then s.sendFrefuse b n tag 3
  else if fl = 0xFFFF then s.newFlow b n g sh cb seq anchor tag
  else if fl < 40960 ∧ s.rd .VSN_FSTAT_STATE fl ≠ flFree ∧ s.rd .VSN_FSTAT_SESSION fl = n ∧
      s.rd .VSN_FSTAT_GROUP fl = g ∧ s.rd .VSN_FCHBASE_CHBASE fl = cb ∧ s.flowShape fl = sh then
    ((s.dropHeld fl).anchorFlow fl n g sh cb seq anchor).grantSent b n fl tag 2
  else s.sendFrefuse b n tag 5

section
variable {s} {t : State} {b : BundleId} {f : List Byte}

theorem exec_freq (hnext : s.isNext b.val f = true) (hrun : s.suspended = false) (hok : s.ctlCheck b.val f 0x20 32 ssOpen = none) :
    exec (.freq b f) s = .next ((s.doneFrame b.val f).answerFreq b.val f) := by
  show execFreq b f s = _
  simp only [execFreq, hnext, hrun, hok, Bool.not_true, Bool.or_self, Bool.false_eq_true, if_false]
  rfl

theorem Aside.flowShape (h : Aside asideWord s t) (k : Nat) : t.flowShape k = s.flowShape k := by
  rw [State.flowShape, State.flowShape, h.calm (by decide), h.calm (by decide), h.calm (by decide)]

theorem sharing_doneFrame (g cb sh : Nat) : (s.doneFrame b.val f).sharing g cb sh = s.sharing g cb sh := by
  have hdone := s.doneFrame_aside b f
  simp only [State.sharing, State.flowList_doneFrame, hdone.flowShape, hdone.calm (f := .VSN_FSTAT_GROUP) (by decide),
    hdone.calm (f := .VSN_FCHBASE_CHBASE) (by decide)]

theorem ownShares_doneFrame (n : Nat) (hits : List Nat) : (s.doneFrame b.val f).ownShares n hits ↔ s.ownShares n hits := by
  simp only [State.ownShares, (s.doneFrame_aside b f).calm (f := .VSN_FSTAT_SESSION) (by decide)]

theorem foreignShares_doneFrame (n : Nat) (hits : List Nat) : (s.doneFrame b.val f).foreignShares n hits ↔ s.foreignShares n hits := by
  simp only [State.foreignShares, (s.doneFrame_aside b f).calm (f := .VSN_FSTAT_SESSION) (by decide),
    (s.doneFrame_aside b f).calm (f := .VSN_SPEER_ENDPOINT) (by decide)]

theorem capacityOk_doneFrame (sh : Nat) (hits : List Nat) : (s.doneFrame b.val f).capacityOk b.val sh hits = s.capacityOk b.val sh hits := by
  have hdone := s.doneFrame_aside b f
  have hweight : (s.doneFrame b.val f).bundleWeight b.val = s.bundleWeight b.val := by
    have hlink : ∀ g : Fld, g.base = 0x380004 → g.stride = 0x1000 → (s.doneFrame b.val f).rd g b.val = s.rd g b.val := fun g hg hs =>
      (s.doneFrame_link b f).rd fun h => by have := h.1; rw [Fld.at, hg, hs] at this; omega
    rw [State.bundleWeight, State.bundleWeight, hlink _ rfl rfl, hlink _ rfl rfl]
  have hmap : (s.doneFrame b.val f).mapPQ = s.mapPQ := by simp only [State.mapPQ, hdone.timeb]
  simp only [State.capacityOk, State.flowList_doneFrame, hdone.flowShape, hdone.calm (f := .VSN_SSTAT_BUNDLE) (by decide),
    hdone.calm (f := .VSN_FSTAT_SESSION) (by decide), hweight, hmap]

/-- A refusal changes no flow. -/
def FreqRefused (b n r tag : Nat) (s t : State) : Prop :=
  t.flows = s.flows ∧ (∀ k : FlowId, t.rd .VSN_FSTAT_STATE k.val = s.rd .VSN_FSTAT_STATE k.val) ∧
  t.outFrames b = s.outFrames b ++ [s.mkFrame 0x22 n (leBytes 2 tag ++ leBytes 1 r ++ leBytes 29 0)]

theorem sendFrefuse_refused (n tag r : Nat) : FreqRefused b.val n r tag s ((s.doneFrame b.val f).sendFrefuse b.val n tag r) := by
  have hdone := s.doneFrame_aside b f
  have hall := hdone.trans ((s.doneFrame b.val f).say_aside (b := b.val) (by omega) 0x22 n (leBytes 2 tag ++ leBytes 1 r ++ leBytes 29 0))
  refine ⟨hall.flows, fun k => hall.calm (by decide) k, ?_⟩
  rw [State.sendFrefuse, State.outFrames_say, State.outFrames_doneFrame, hdone.mkFrame]

theorem Granted.of_doneFrame {k n g sh cb tag seq anchor : Nat} (h : Granted b.val k n g sh cb tag seq anchor (s.doneFrame b.val f) t) :
    Granted b.val k n g sh cb tag seq anchor s t := by
  have hdone := s.doneFrame_aside b f
  obtain ⟨hst, hses, hg, hsh, hcb, hnext, hexp, hh, hheld, x, hid, hep, hframes⟩ := h
  exact ⟨hst, hses, hg, hsh, hcb, hnext, hexp, hh, hheld, x, hid.trans hdone.moduleId, hep.trans (hdone.calm (by decide) _),
    hframes.trans (by rw [State.outFrames_doneFrame])⟩

/-- The flow's own session anchors it anew: what it held is dropped. -/
theorem reanchored {k n g sh cb seq anchor tag : Nat} (hk : k < 40960) (hn : n < 256) (hg : g < 64) (hsh : sh < 64) (hcb : cb < 2 ^ 24)
    (hseq : seq < 2 ^ 32) :
    Granted b.val k n g sh cb tag seq anchor s (((s.dropHeld k).anchorFlow k n g sh cb seq anchor).grantSent b.val n k tag 2) := by
  have hdrop := s.dropHeld_aside k
  have hdropped := hdrop.flow k
  rw [State.flow_setFlow_same] at hdropped
  have hdout := s.outFrames_dropHeld k b.val
  have hsame : ∀ o, ¬ flowWord k o → (s.dropHeld k).word o = s.word o := fun o ho =>
    (hdrop.word o ho).trans (State.word_of_regs (State.setFlow_regs ..) o)
  generalize s.dropHeld k = u at *
  obtain ⟨hanch, hexp, hh, hheld, hword, hout⟩ := u.anchorFlow_effect (f := k) anchor hn hg hsh hcb hseq
  generalize u.anchorFlow k n g sh cb seq anchor = v at *
  have hrest : ∀ fld : Fld, ∀ i, fld.at i = 0x8 ∨ (0x402000 ≤ fld.at i ∧ fld.at i < 0x410000 ∧ fld.at i % 16 = 0) → v.rd fld i = s.rd fld i :=
    fun fld i h => State.rd_of_word fld i ((hword _ (by simp only [oneFlow]; omega)).trans (hsame _ (not_flowWord (by omega))))
  refine hanch.granted (by omega) hexp hh (by rw [hheld, hdropped]) (hrest _ _ (.inl rfl)) (hrest _ _ (.inr ?_)) (by rw [hout, hdout])
  simp only [Fld.at, Fld.VSN_SSTAT_EPOCH]; omega

end

end Sys2Proof.Machine

namespace Sys2Proof.Machine

variable (s : State)

/-- What a FREQ asks for can be granted (R134). -/
def freqGood (pl : List Byte) : Prop :=
  fieldAt pl 0 1 < 64 ∧ shListed (fieldAt pl 1 1 % 64) = true ∧ fieldAt pl 2 3 % shC (fieldAt pl 1 1 % 64) = 0 ∧
  fieldAt pl 2 3 + shC (fieldAt pl 1 1 % 64) - 1 < 2 ^ 24 ∧ fieldAt pl 16 8 % shT (fieldAt pl 1 1 % 64) = 0

/-- The flow that a FREQ names is its session's own, with the group, channel and shape asked for. -/
def State.freqMine (s : State) (f : List Byte) : Prop :=
  fieldAt (fPayload f) 12 2 < 40960 ∧ s.rd .VSN_FSTAT_STATE (fieldAt (fPayload f) 12 2) ≠ flFree ∧
  s.rd .VSN_FSTAT_SESSION (fieldAt (fPayload f) 12 2) = fSession f ∧
  s.rd .VSN_FSTAT_GROUP (fieldAt (fPayload f) 12 2) = fieldAt (fPayload f) 0 1 ∧
  s.rd .VSN_FCHBASE_CHBASE (fieldAt (fPayload f) 12 2) = fieldAt (fPayload f) 2 3 ∧
  s.flowShape (fieldAt (fPayload f) 12 2) = fieldAt (fPayload f) 1 1 % 64

section
variable {s} {b : BundleId} {f : List Byte}

theorem freqBad_iff {g sh cb anchor : Nat} :
    (64 ≤ g || !shListed sh || cb % shC sh ≠ 0 || 2 ^ 24 ≤ cb + shC sh - 1 || anchor % shT sh ≠ 0) = true ↔
      ¬ (g < 64 ∧ shListed sh = true ∧ cb % shC sh = 0 ∧ cb + shC sh - 1 < 2 ^ 24 ∧ anchor % shT sh = 0) := by
  simp only [Bool.or_eq_true, decide_eq_true_eq, Bool.not_eq_true', not_and_or, not_lt, Bool.not_eq_true, or_assoc, ne_eq]

theorem answerFreq_bad (h : ¬ freqGood (fPayload f)) :
    s.answerFreq b.val f = s.sendFrefuse b.val (fSession f) (fieldAt (fPayload f) 6 2) 3 := if_pos (freqBad_iff.mpr h)

theorem answerFreq_new (h : freqGood (fPayload f)) (hfl : fieldAt (fPayload f) 12 2 = 0xFFFF) :
    s.answerFreq b.val f = s.newFlow b.val (fSession f) (fieldAt (fPayload f) 0 1) (fieldAt (fPayload f) 1 1 % 64) (fieldAt (fPayload f) 2 3)
      (fieldAt (fPayload f) 8 4) (fieldAt (fPayload f) 16 8) (fieldAt (fPayload f) 6 2) := by
  unfold State.answerFreq
  dsimp only
  rw [if_neg (fun hbad => freqBad_iff.mp hbad h), if_pos hfl]

theorem answerFreq_own (h : freqGood (fPayload f)) (hfl : fieldAt (fPayload f) 12 2 ≠ 0xFFFF) (hmine : s.freqMine f) :
    s.answerFreq b.val f = ((s.dropHeld (fieldAt (fPayload f) 12 2)).anchorFlow (fieldAt (fPayload f) 12 2) (fSession f)
      (fieldAt (fPayload f) 0 1) (fieldAt (fPayload f) 1 1 % 64) (fieldAt (fPayload f) 2 3) (fieldAt (fPayload f) 8 4)
      (fieldAt (fPayload f) 16 8)).grantSent b.val (fSession f) (fieldAt (fPayload f) 12 2) (fieldAt (fPayload f) 6 2) 2 := by
  unfold State.answerFreq
  dsimp only
  rw [if_neg (fun hbad => freqBad_iff.mp hbad h), if_neg hfl]
  exact if_pos hmine

theorem answerFreq_foreign (h : freqGood (fPayload f)) (hfl : fieldAt (fPayload f) 12 2 ≠ 0xFFFF) (hmine : ¬ s.freqMine f) :
    s.answerFreq b.val f = s.sendFrefuse b.val (fSession f) (fieldAt (fPayload f) 6 2) 5 := by
  unfold State.answerFreq
  dsimp only
  rw [if_neg (fun hbad => freqBad_iff.mp hbad h), if_neg hfl]
  exact if_neg hmine

theorem freqMine_doneFrame : (s.doneFrame b.val f).freqMine f ↔ s.freqMine f := by
  have hdone := s.doneFrame_aside b f
  simp only [State.freqMine, hdone.calm (f := .VSN_FSTAT_STATE) (by decide), hdone.calm (f := .VSN_FSTAT_SESSION) (by decide),
    hdone.calm (f := .VSN_FSTAT_GROUP) (by decide), hdone.calm (f := .VSN_FCHBASE_CHBASE) (by decide), hdone.flowShape]

/-- The flows that share a channel with what a FREQ asks for. -/
def State.freqHits (s : State) (f : List Byte) : List Nat :=
  s.sharing (fieldAt (fPayload f) 0 1) (fieldAt (fPayload f) 2 3) (fieldAt (fPayload f) 1 1 % 64)

/-- A grant of flow `k` as the FREQ asked. -/
def FreqGranted (b : Nat) (f : List Byte) (k : Nat) (s t : State) : Prop :=
  Granted b k (fSession f) (fieldAt (fPayload f) 0 1) (fieldAt (fPayload f) 1 1 % 64) (fieldAt (fPayload f) 2 3)
    (fieldAt (fPayload f) 6 2) (fieldAt (fPayload f) 8 4) (fieldAt (fPayload f) 16 8) s t

/-- The outcomes of a FREQ for a new flow, in the order of their reasons. -/
theorem answerFreq_outcomes (h : freqGood (fPayload f)) (hfl : fieldAt (fPayload f) 12 2 = 0xFFFF) :
    let n := fSession f
    let refused := fun (r : Nat) => FreqRefused b.val n r (fieldAt (fPayload f) 6 2) s ((s.doneFrame b.val f).answerFreq b.val f)
    (s.ownShares n (s.freqHits f) → refused 6) ∧
    (¬ s.ownShares n (s.freqHits f) → s.foreignShares n (s.freqHits f) → refused 4) ∧
    (¬ s.ownShares n (s.freqHits f) → ¬ s.foreignShares n (s.freqHits f) → s.timeb.map = none → refused 7) ∧
    (¬ s.ownShares n (s.freqHits f) → ¬ s.foreignShares n (s.freqHits f) → s.timeb.map.isSome = true →
      ((∀ k, k < 40960 → k ∈ s.flowList ∧ k ∉ s.freqHits f) → refused 1) ∧
      ∀ k, k < 40960 → (k ∉ s.flowList ∨ k ∈ s.freqHits f) → (∀ j, j < k → j ∈ s.flowList ∧ j ∉ s.freqHits f) →
        (s.capacityOk b.val (fieldAt (fPayload f) 1 1 % 64) (s.freqHits f) = false → refused 2) ∧
        (s.capacityOk b.val (fieldAt (fPayload f) 1 1 % 64) (s.freqHits f) = true →
          FreqGranted b.val f k s ((s.doneFrame b.val f).answerFreq b.val f) ∧
          (s.freqHits f ≠ [] → ((s.doneFrame b.val f).answerFreq b.val f).on .VSN_EVT_TAKEOVER = true) ∧
          ∀ o ∈ s.freqHits f, o ≠ k → ((s.doneFrame b.val f).answerFreq b.val f).rd .VSN_FSTAT_STATE o = flFree)) := by
  intro n refused
  have hrefused : ∀ r, (s.doneFrame b.val f).answerFreq b.val f =
      (s.doneFrame b.val f).sendFrefuse b.val n (fieldAt (fPayload f) 6 2) r → refused r := fun r heq => by
    rw [show refused r = FreqRefused b.val n r _ s _ from rfl, heq]
    exact sendFrefuse_refused ..
  have hdone := s.doneFrame_aside b f
  have hhits : (s.doneFrame b.val f).sharing (fieldAt (fPayload f) 0 1) (fieldAt (fPayload f) 2 3) (fieldAt (fPayload f) 1 1 % 64) =
    s.freqHits f := sharing_doneFrame ..
  rw [answerFreq_new h hfl] at hrefused ⊢
  rw [← ownShares_doneFrame (b := b) (f := f), ← foreignShares_doneFrame (b := b) (f := f), ← hdone.timeb, ← hhits,
    ← capacityOk_doneFrame (f := f), ← s.flowList_doneFrame b f]
  refine ⟨fun hown => hrefused 6 (newFlow_own hown), fun hown hother => hrefused 4 (newFlow_shared hown hother),
    fun hown hother hmap => hrefused 7 (newFlow_unmapped hown hother hmap), fun hown hother hmap =>
      ⟨fun hfull => hrefused 1 (newFlow_full hown hother hmap hfull), fun k hk hfree hmin => ⟨fun hcap => hrefused 2 ?_, fun hcap => ?_⟩⟩⟩
  · rw [newFlow_lowest hown hother hmap hk hfree hmin, if_neg (by simp [hcap])]
  · rw [newFlow_lowest hown hother hmap hk hfree hmin, if_pos hcap]
    obtain ⟨hgrant, hon, hfreed⟩ := (s.doneFrame b.val f).grantNew_effect (b := b.val) (k := k) (tag := fieldAt (fPayload f) 6 2)
      (anchor := fieldAt (fPayload f) 16 8)
      ((s.doneFrame b.val f).sharing (fieldAt (fPayload f) 0 1) (fieldAt (fPayload f) 2 3) (fieldAt (fPayload f) 1 1 % 64))
      (by omega) (fieldAt_lt f 3 1) h.1 (Nat.mod_lt _ (by decide)) (fieldAt_lt _ 2 3) (fieldAt_lt _ 8 4)
    exact ⟨hgrant.of_doneFrame, hon, hfreed⟩

/-- The outcome of a FREQ that names a flow. -/
theorem answerFreq_named (h : freqGood (fPayload f)) (hfl : fieldAt (fPayload f) 12 2 ≠ 0xFFFF) :
    (s.freqMine f → FreqGranted b.val f (fieldAt (fPayload f) 12 2) s ((s.doneFrame b.val f).answerFreq b.val f)) ∧
    (¬ s.freqMine f → FreqRefused b.val (fSession f) 5 (fieldAt (fPayload f) 6 2) s ((s.doneFrame b.val f).answerFreq b.val f)) := by
  refine ⟨fun hmine => ?_, fun hmine => ?_⟩
  · rw [answerFreq_own h hfl (freqMine_doneFrame.mpr hmine)]
    exact (reanchored hmine.1 (fieldAt_lt f 3 1) h.1 (Nat.mod_lt _ (by decide)) (fieldAt_lt _ 2 3) (fieldAt_lt _ 8 4)).of_doneFrame
  · rw [answerFreq_foreign h hfl (mt freqMine_doneFrame.mp hmine)]
    exact sendFrefuse_refused ..

end

end Sys2Proof.Machine

namespace Sys2Proof.Machine

variable (s : State)

/-! ### Refusals and acknowledgements of a flow (R148, R161) -/

section
variable {s} {b : BundleId} {f : List Byte}

/-- A REFUSE entry leaves for a frame whose bytes are gone, and no flow changes. -/
theorem refuse_doneFrame {n : Nat} (hn : n < 256) (k r q : Nat) :
    ((s.doneFrame b.val f).refuse b.val n k r q).flows = s.flows ∧
    ((s.doneFrame b.val f).refuse b.val n k r q).outFrames b.val = s.outFrames b.val ++ [s.mkFrame 0x30 n (ackEntry k 5 r q)] := by
  have hdone := s.doneFrame_aside b f
  have hout := s.outFrames_doneFrame b.val f b.val
  unfold State.refuse
  generalize s.doneFrame b.val f = u at *
  extract_lets v
  have hv : v.flows = s.flows ∧ v.outFrames b.val = s.outFrames b.val ∧ SameHead n s v := by
    unfold v
    split
    · exact ⟨hdone.flows, hout, hdone.sameHead n⟩
    · exact ⟨(State.bump_flows ..).trans hdone.flows, (State.outFrames_bump ..).trans hout,
        (hdone.sameHead n).setWord _ (by simp only [Fld.at, Fld.VSN_SREFUSED_COUNT]; omega)⟩
  obtain ⟨hflows, hframes, hhead⟩ := hv
  obtain ⟨-, -, -, -, eframes⟩ := v.entry_effect (b := b.val) (by omega) n k 5 r q
  exact ⟨(v.entry_flows (by omega) ..).trans hflows, by rw [eframes, hframes, hhead.mkFrame]⟩

/-! ### FRELEASE (R137) -/

/-- The answer to a FRELEASE whose frame has left the receive buffer. -/
def State.answerFrelease (s : State) (b n k : Nat) : State :=
  if 40960 ≤ k ∨ s.rd .VSN_FSTAT_STATE k = flFree then s.refuse b n k 1 0
  else if s.rd .VSN_FSTAT_SESSION k ≠ n then s.refuse b n k 2 0
  else (s.releaseFlow k 3).entry b n k 7 0 0

theorem exec_frelease (hnext : s.isNext b.val f = true) (hrun : s.suspended = false) (hok : s.ctlCheck b.val f 0x23 32 ssOpen = none) :
    exec (.frelease b f) s = .next ((s.doneFrame b.val f).answerFrelease b.val (fSession f) (fieldAt (fPayload f) 0 2)) := by
  show execFrelease b f s = _
  simp only [execFrelease, hnext, hrun, hok, Bool.not_true, Bool.or_self, Bool.false_eq_true, if_false]
  rfl

/-- The flow is freed, and its entry shows the session as it then stands. -/
theorem released_entry (k n : Nat) :
    let t := ((s.doneFrame b.val f).releaseFlow k 3).entry b.val n k 7 0 0
    t.rd .VSN_FSTAT_STATE k = flFree ∧ t.flow k = {} ∧ t.outFrames b.val = s.outFrames b.val ++ [t.mkFrame 0x30 n (ackEntry k 7 0 0)] ∧
    ∀ j : FlowId, j.val ≠ k → t.flow j.val = s.flow j.val ∧ t.rd .VSN_FSTAT_STATE j.val = s.rd .VSN_FSTAT_STATE j.val := by
  have hdone := s.doneFrame_aside b f
  have hrel := (s.doneFrame b.val f).releaseFlow_released k 3
  have hout := s.outFrames_doneFrame b.val f b.val
  intro t
  have hsay : Aside asideWord ((s.doneFrame b.val f).releaseFlow k 3) t := State.say_aside _ (by omega) 0x30 n (ackEntry k 7 0 0)
  have hframes : t.outFrames b.val = ((s.doneFrame b.val f).releaseFlow k 3).outFrames b.val ++
      [((s.doneFrame b.val f).releaseFlow k 3).mkFrame 0x30 n (ackEntry k 7 0 0)] := State.outFrames_say ..
  generalize (s.doneFrame b.val f).releaseFlow k 3 = u at *
  refine ⟨(hsay.calm (by decide) _).trans (hrel.free (List.mem_singleton_self k)), ?_, ?_, fun j hj => ⟨?_, ?_⟩⟩
  · rw [hsay.flow, hrel.flow, if_pos (List.mem_singleton_self k)]
  · rw [hframes, hrel.frames, hout, hsay.mkFrame]
  · rw [hsay.flow, hrel.flow, if_neg (by simpa using hj), hdone.flow]
  · rw [hsay.calm (by decide), hrel.rd (by simpa using hj) rfl rfl, hdone.calm (by decide)]

/-! ### FSKIP (R137) -/

/-- The answer to an FSKIP whose frame has left the receive buffer. -/
def State.answerFskip (s : State) (b n k q : Nat) : State :=
  if 40960 ≤ k ∨ s.rd .VSN_FSTAT_STATE k = flFree then s.refuse b n k 1 q
  else if s.rd .VSN_FSTAT_SESSION k ≠ n then s.refuse b n k 2 q
  else
    let e := s.rd .VSN_FNEXT_NEXT k
    let x := s.flow k
    let d := seqDiff q e
    let s := if 1 ≤ d ∧ d < 2 ^ 31 then
        (s.keepHeldFrom k d).setNext k q (x.exp + d * shT (s.flowShape k)) (if d ≤ seqDiff x.h e then x.h else q)
      else s
    s.entry b n k 1 0 (s.rd .VSN_FNEXT_NEXT k)

theorem exec_fskip (hnext : s.isNext b.val f = true) (hrun : s.suspended = false) (hok : s.ctlCheck b.val f 0x24 32 ssOpen = none) :
    exec (.fskip b f) s =
      .next ((s.doneFrame b.val f).answerFskip b.val (fSession f) (fieldAt (fPayload f) 0 2) (fieldAt (fPayload f) 4 4)) := by
  show execFskip b f s = _
  simp only [execFskip, hnext, hrun, hok, Bool.not_true, Bool.or_self, Bool.false_eq_true, if_false]
  rfl

theorem State.keepHeldFrom_flow (k d : Nat) : (s.keepHeldFrom k d).flow k = { s.flow k with held := (s.flow k).held.drop d } := by
  rw [(s.keepHeldFrom_aside k d).flow, State.flow_setFlow_same]

theorem State.setNext_effect (k e c h : Nat) :
    (s.setNext k e c h).rd .VSN_FNEXT_NEXT k = e % 2 ^ 32 ∧ ((s.setNext k e c h).flow k).exp = c ∧ ((s.setNext k e c h).flow k).h = h ∧
    ((s.setNext k e c h).flow k).held = (s.flow k).held := by
  have hflow := State.flow_of_flows ((s.setFlow k
    { s.flow k with exp := c, h := h, nackAt := if h = (s.flow k).h then (s.flow k).nackAt else none }).wr_flows .VSN_FNEXT_NEXT k e) k
  rw [State.flow_setFlow_same] at hflow
  unfold State.setNext
  dsimp only
  refine ⟨?_, by rw [hflow], by rw [hflow], by rw [hflow]⟩
  rw [State.rd_wr_same _ _ _ _ (by decide)]; rfl

theorem seqDiff_eq_zero {q e : Nat} (hq : q < 2 ^ 32) (he : e < 2 ^ 32) (h : seqDiff q e = 0) : q = e := by
  simp only [seqDiff] at h; omega

/-- The flow moves on to the sequence named; what lies before it is dropped. -/
theorem skipped {n k q : Nat} (hq : q < 2 ^ 32) (hk : k < 40960) (hst : s.rd .VSN_FSTAT_STATE k ≠ flFree)
    (hn : s.rd .VSN_FSTAT_SESSION k = n) (hd : seqDiff q (s.rd .VSN_FNEXT_NEXT k) < 2 ^ 31) :
    (s.answerFskip b.val n k q).rd .VSN_FNEXT_NEXT k = q ∧
    ((s.answerFskip b.val n k q).flow k).exp = (s.flow k).exp + seqDiff q (s.rd .VSN_FNEXT_NEXT k) * shT (s.flowShape k) ∧
    ((s.answerFskip b.val n k q).flow k).held = (s.flow k).held.drop (seqDiff q (s.rd .VSN_FNEXT_NEXT k)) ∧
    ((s.answerFskip b.val n k q).flow k).h =
      if seqDiff q (s.rd .VSN_FNEXT_NEXT k) ≤ seqDiff (s.flow k).h (s.rd .VSN_FNEXT_NEXT k) then (s.flow k).h else q := by
  have hoff : ¬ linkPage (Fld.VSN_FNEXT_NEXT.at k) := fun h => by
    have := h.2
    simp only [Fld.at, Fld.VSN_FNEXT_NEXT] at this; omega
  have hentry : ∀ u : State, ∀ e, (u.entry b.val n k 1 0 e).rd .VSN_FNEXT_NEXT k = u.rd .VSN_FNEXT_NEXT k ∧
      (u.entry b.val n k 1 0 e).flow k = u.flow k := fun u e => by
    obtain ⟨hword, -⟩ := u.entry_effect (b := b.val) (by omega) n k 1 0 e
    exact ⟨State.rd_of_word _ _ (hword _ hoff), State.flow_of_flows (u.entry_flows (by omega) ..) k⟩
  unfold State.answerFskip
  rw [if_neg (not_or.mpr ⟨by omega, hst⟩), if_neg (not_not.mpr hn)]
  extract_lets e x d u
  obtain ⟨hrd, hflow⟩ := hentry u (u.rd .VSN_FNEXT_NEXT k)
  rw [hrd, hflow]
  change d < 2 ^ 31 at hd
  by_cases h0 : 1 ≤ d
  · obtain ⟨hnext, hexp, hh, hheld⟩ := (s.keepHeldFrom k d).setNext_effect k q (x.exp + d * shT (s.flowShape k))
      (if d ≤ seqDiff x.h e then x.h else q)
    have hu : u = (s.keepHeldFrom k d).setNext k q (x.exp + d * shT (s.flowShape k)) (if d ≤ seqDiff x.h e then x.h else q) :=
      if_pos ⟨h0, hd⟩
    rw [hu, hnext, hexp, hheld, hh, State.keepHeldFrom_flow]
    exact ⟨Nat.mod_eq_of_lt hq, rfl, rfl, rfl⟩
  · have hu : u = s := if_neg fun h => h0 h.1
    have hzero : d = 0 := by omega
    have hqe : e = q := (seqDiff_eq_zero hq (s.rd_lt _ _) hzero).symm
    rw [hu]
    change e = q ∧ x.exp = x.exp + d * _ ∧ x.held = x.held.drop d ∧ x.h = if d ≤ seqDiff x.h e then x.h else q
    rw [hzero, Nat.zero_mul, Nat.add_zero, List.drop_zero, if_pos (Nat.zero_le _)]
    exact ⟨hqe, rfl, rfl, rfl⟩

/-- A sequence behind the one expected moves nothing. -/
theorem not_skipped {n k q : Nat} (hk : k < 40960) (hst : s.rd .VSN_FSTAT_STATE k ≠ flFree)
    (hn : s.rd .VSN_FSTAT_SESSION k = n) (hd : 2 ^ 31 ≤ seqDiff q (s.rd .VSN_FNEXT_NEXT k)) :
    (s.answerFskip b.val n k q).rd .VSN_FNEXT_NEXT k = s.rd .VSN_FNEXT_NEXT k ∧ (s.answerFskip b.val n k q).flows = s.flows := by
  have heq : s.answerFskip b.val n k q = s.entry b.val n k 1 0 (s.rd .VSN_FNEXT_NEXT k) := by
    unfold State.answerFskip
    rw [if_neg (not_or.mpr ⟨by omega, hst⟩), if_neg (not_not.mpr hn)]
    dsimp only
    rw [if_neg (by omega)]
  obtain ⟨hword, -⟩ := s.entry_effect (b := b.val) (by omega) n k 1 0 (s.rd .VSN_FNEXT_NEXT k)
  rw [heq]
  refine ⟨State.rd_of_word _ _ (hword _ fun h => ?_), s.entry_flows (by omega) ..⟩
  have := h.2
  simp only [Fld.at, Fld.VSN_FNEXT_NEXT] at this; omega

end

end Sys2Proof.Machine

namespace Sys2Proof.Machine

variable (s : State)

/-! ### A flow is heard, or falls silent (R138, R139) -/

section
variable {s} {b : BundleId} {f : List Byte}

theorem State.heard_effect (k : Nat) :
    (s.heard k).flows = s.flows ∧ (∀ g : Fld, g.calm = true → Fld.VSN_FSTAT_STATE.apart g = true → (s.heard k).rd g k = s.rd g k) ∧
    (s.heard k).rd .VSN_FSTAT_STATE k =
      if s.rd .VSN_FSTAT_STATE k = flSuspect ∨ s.rd .VSN_FSTAT_STATE k = flSilent then flActive else s.rd .VSN_FSTAT_STATE k := by
  unfold State.heard
  dsimp only
  by_cases h : s.rd .VSN_FSTAT_STATE k = flSuspect ∨ s.rd .VSN_FSTAT_STATE k = flSilent
  · rw [if_pos h, if_pos h]
    have hev := (s.wr .VSN_FSTAT_STATE k flActive).flowEvent_aside k 5
    refine ⟨hev.flows.trans (State.wr_flows ..), fun g hg hapart => ?_, ?_⟩
    · rw [hev.calm hg, State.rd_wr_apart s hapart]
    · rw [hev.calm (by decide), State.rd_wr_same _ _ _ _ (by decide)]; rfl
  · rw [if_neg h, if_neg h]
    exact ⟨rfl, fun _ _ _ => rfl, rfl⟩

theorem State.heard_not_fault {k : Nat} (h : s.rd .VSN_FSTAT_STATE k ≠ flFault) : (s.heard k).rd .VSN_FSTAT_STATE k ≠ flFault := by
  rw [s.heard_effect k |>.2.2]
  split
  · decide
  · exact h

/-- A KEEPALIVE that matches the flow. -/
theorem exec_keepalive (hnext : s.isNext b.val f = true) (hform : s.sampleCheck b.val f
      (fVersion f == 1 && fType f == 2 && shListed (fShape f) && fPlen f == 0 && f.length == 68) = none)
    (hflow : s.flowCheck b.val f = none) (hst : s.rd .VSN_FSTAT_STATE (fFlow f) ≠ flFault)
    (hq : fSeq f = s.rd .VSN_FNEXT_NEXT (fFlow f)) (hc : fCount f = (s.flow (fFlow f)).exp)
    (hg : fGroup f = s.rd .VSN_FSTAT_GROUP (fFlow f)) (hcb : fChbase f = s.rd .VSN_FCHBASE_CHBASE (fFlow f))
    (hsh : fShape f = s.flowShape (fFlow f)) :
    exec (.keepalive b f) s = .next ((s.heard (fFlow f)).doneFrame b.val f) := by
  obtain ⟨hflows, hrd, -⟩ := s.heard_effect (fFlow f)
  have hnofault := State.heard_not_fault hst
  have hdone := (s.heard (fFlow f)).doneFrame_aside b f
  have hsame : ∀ g : Fld, g.calm = true → Fld.VSN_FSTAT_STATE.apart g = true →
      ((s.heard (fFlow f)).doneFrame b.val f).rd g (fFlow f) = s.rd g (fFlow f) := fun g hcalm hapart =>
    (hdone.calm hcalm _).trans (hrd g hcalm hapart)
  have hshape : ((s.heard (fFlow f)).doneFrame b.val f).flowShape (fFlow f) = s.flowShape (fFlow f) := by
    rw [State.flowShape, State.flowShape, hsame _ (by decide) (by decide), hsame _ (by decide) (by decide), hsame _ (by decide) (by decide)]
  have hx : ((s.heard (fFlow f)).doneFrame b.val f).flow (fFlow f) = s.flow (fFlow f) :=
    (hdone.flow _).trans (State.flow_of_flows hflows _)
  rw [← hdone.calm (f := .VSN_FSTAT_STATE) (by decide)] at hnofault
  rw [hsh] at hform
  show execKeepalive b f s = _
  simp only [execKeepalive, hnext, hform, hflow, hx, hshape, hsame .VSN_FNEXT_NEXT (by decide) (by decide),
    hsame .VSN_FSTAT_GROUP (by decide) (by decide), hsame .VSN_FCHBASE_CHBASE (by decide) (by decide), hnofault, hq, hc, hg, hcb, hsh,
    seqDiff_self, Nat.zero_mul, Nat.add_zero, ne_eq, not_true_eq_false, decide_false, and_false, Bool.or_self, Bool.not_true,
    Bool.false_eq_true, if_false, Nat.not_lt_zero]

/-- A flow that is not heard: its state, the event bit and event of it, and nothing of other flows. -/
theorem quiet_effect (k : FlowId) (state : Nat) {bit : Fld} (hbit : bit.at 0 = 0x40000c ∧ bit.w = 1 ∧ bit.lo + bit.w ≤ 32) (hs : state < 8) :
    let t := ((s.wr .VSN_FSTAT_STATE k.val state).flag bit).flowEvent k.val 5
    t.rd .VSN_FSTAT_STATE k.val = state ∧ t.on bit = true ∧ t.flows = s.flows ∧
    ∀ j : FlowId, j ≠ k → t.rd .VSN_FSTAT_STATE j.val = s.rd .VSN_FSTAT_STATE j.val := by
  obtain ⟨hat, hw, hlo⟩ := hbit
  have hstate : (s.wr .VSN_FSTAT_STATE k.val state).rd .VSN_FSTAT_STATE k.val = state := by
    rw [State.rd_wr_same _ _ _ _ (by decide)]; exact Nat.mod_eq_of_lt hs
  have hother : ∀ j : FlowId, j ≠ k → (s.wr .VSN_FSTAT_STATE k.val state).rd .VSN_FSTAT_STATE j.val = s.rd .VSN_FSTAT_STATE j.val :=
    fun j hj => s.rd_wr_other _ _ _ _ _ (.inl (by
      have : j.val ≠ k.val := fun h => hj (Fin.ext h)
      simp only [Fld.at, Fld.VSN_FSTAT_STATE]; omega))
  have hflows : (s.wr .VSN_FSTAT_STATE k.val state).flows = s.flows := State.wr_flows ..
  intro t
  unfold t
  generalize s.wr .VSN_FSTAT_STATE k.val state = u at *
  have hflag : Aside asideWord u (u.flag bit) := (Aside.refl u).flag (.inr (.inl hat))
  have hall : Aside asideWord u ((u.flag bit).flowEvent k.val 5) := hflag.trans (State.flowEvent_aside ..)
  have hset : (u.flag bit).on bit = true := State.on_flag_same _ _ _ (by omega) (by omega)
  exact ⟨(hall.calm (by decide) _).trans hstate,
    (State.on_of_word bit 0 (State.word_event _ _ _ _ _ _ (by rw [hat]; decide))).trans hset, hall.flows.trans hflows,
    fun j hj => (hall.calm (by decide) _).trans (hother j hj)⟩

end

/-! ### Frames that wait (R152) -/

theorem freq_waits {s : State} {b : BundleId} {f : List Byte} (hsus : s.suspended = true) :
    exec (.freq b f) s = .next s ∧ exec (.frelease b f) s = .next s ∧ exec (.fskip b f) s = .next s := by
  refine ⟨?_, ?_, ?_⟩
  · show execFreq b f s = _
    simp [execFreq, hsus]
  · show execFrelease b f s = _
    simp [execFrelease, hsus]
  · show execFskip b f s = _
    simp [execFskip, hsus]

/-! ### The statement's clauses -/

section
variable {s} {b : BundleId} {f : List Byte}

theorem answerFrelease_outcomes (k n : Nat) (hn : n < 256) :
    let t := (s.doneFrame b.val f).answerFrelease b.val n k
    let refused := fun (r : Nat) => t.flows = s.flows ∧ t.outFrames b.val = s.outFrames b.val ++ [s.mkFrame 0x30 n (ackEntry k 5 r 0)]
    (40960 ≤ k ∨ s.rd .VSN_FSTAT_STATE k = flFree → refused 1) ∧
    (k < 40960 → s.rd .VSN_FSTAT_STATE k ≠ flFree → s.rd .VSN_FSTAT_SESSION k ≠ n → refused 2) ∧
    (k < 40960 → s.rd .VSN_FSTAT_STATE k ≠ flFree → s.rd .VSN_FSTAT_SESSION k = n →
      t.rd .VSN_FSTAT_STATE k = flFree ∧ t.flow k = {} ∧ t.outFrames b.val = s.outFrames b.val ++ [t.mkFrame 0x30 n (ackEntry k 7 0 0)] ∧
      ∀ j : FlowId, j.val ≠ k → t.flow j.val = s.flow j.val ∧ t.rd .VSN_FSTAT_STATE j.val = s.rd .VSN_FSTAT_STATE j.val) := by
  have hdone := s.doneFrame_aside b f
  have hstate : (s.doneFrame b.val f).rd .VSN_FSTAT_STATE k = s.rd .VSN_FSTAT_STATE k := hdone.calm (by decide) k
  have hses : (s.doneFrame b.val f).rd .VSN_FSTAT_SESSION k = s.rd .VSN_FSTAT_SESSION k := hdone.calm (by decide) k
  simp only [State.answerFrelease, hstate, hses]
  refine ⟨fun h => ?_, fun hk hst hne => ?_, fun hk hst he => ?_⟩
  · rw [if_pos h]
    exact refuse_doneFrame hn k 1 0
  · rw [if_neg (not_or.mpr ⟨by omega, hst⟩), if_pos hne]
    exact refuse_doneFrame hn k 2 0
  · rw [if_neg (not_or.mpr ⟨by omega, hst⟩), if_neg (not_not.mpr he)]
    exact released_entry k n

theorem answerFskip_outcomes {k n q : Nat} (hn : n < 256) (hq : q < 2 ^ 32) :
    let t := (s.doneFrame b.val f).answerFskip b.val n k q
    let e := s.rd .VSN_FNEXT_NEXT k
    let d := seqDiff q e
    let x := s.flow k
    let refused := fun (r : Nat) => t.flows = s.flows ∧ t.outFrames b.val = s.outFrames b.val ++ [s.mkFrame 0x30 n (ackEntry k 5 r q)]
    (40960 ≤ k ∨ s.rd .VSN_FSTAT_STATE k = flFree → refused 1) ∧
    (k < 40960 → s.rd .VSN_FSTAT_STATE k ≠ flFree → s.rd .VSN_FSTAT_SESSION k ≠ n → refused 2) ∧
    (k < 40960 → s.rd .VSN_FSTAT_STATE k ≠ flFree → s.rd .VSN_FSTAT_SESSION k = n →
      (d < 2 ^ 31 → t.rd .VSN_FNEXT_NEXT k = q ∧ (t.flow k).exp = x.exp + d * shT (s.flowShape k) ∧ (t.flow k).held = x.held.drop d ∧
        (t.flow k).h = (if d ≤ seqDiff x.h e then x.h else q)) ∧
      (2 ^ 31 ≤ d → t.rd .VSN_FNEXT_NEXT k = e ∧ t.flows = s.flows)) := by
  intro t e d x refused
  have hdone := s.doneFrame_aside b f
  have hstate : (s.doneFrame b.val f).rd .VSN_FSTAT_STATE k = s.rd .VSN_FSTAT_STATE k := hdone.calm (by decide) k
  have hses : (s.doneFrame b.val f).rd .VSN_FSTAT_SESSION k = s.rd .VSN_FSTAT_SESSION k := hdone.calm (by decide) k
  have hnext : (s.doneFrame b.val f).rd .VSN_FNEXT_NEXT k = e := hdone.calm (by decide) k
  have hrefused : ∀ r, t = (s.doneFrame b.val f).refuse b.val n k r q → refused r := fun r heq => by
    obtain ⟨hflows, hframes⟩ := refuse_doneFrame (s := s) (b := b) (f := f) hn k r q
    exact ⟨(congrArg State.flows heq).trans hflows, (congrArg (fun u : State => u.outFrames b.val) heq).trans hframes⟩
  refine ⟨fun h => hrefused 1 (if_pos (by rwa [hstate])), fun hk hst hne => hrefused 2 ?_, fun hk hst he => ⟨fun hd => ?_, fun hd => ?_⟩⟩
  · exact (if_neg (not_or.mpr ⟨by omega, by rwa [hstate]⟩)).trans (if_pos (by rwa [hses]))
  · have h := skipped (s := s.doneFrame b.val f) (b := b) hq hk (by rwa [hstate]) (hses.trans he) (by rwa [hnext])
    rwa [hnext, hdone.flow, hdone.flowShape] at h
  · obtain ⟨hfnext, hflows⟩ := not_skipped (s := s.doneFrame b.val f) (b := b) hk (by rwa [hstate]) (hses.trans he) (by rwa [hnext])
    exact ⟨hfnext.trans hnext, hflows.trans hdone.flows⟩

end

/-- Settles O20: each command's `exec` by the answer to its frame, one lemma for each of the answers. -/
theorem flowStates : Obligations.FlowStates := by
  intro s b f
  refine ⟨fun _ hsus => ?_, fun hnext hrun hok => ?_, fun hnext hrun hok => ?_, fun hnext hrun hok => ?_,
    fun hnext hform hflow hst hq hc hg hcb hsh => ?_, fun k => ⟨fun hact => ?_, fun hne => ⟨s, ?_, rfl⟩, fun hact => ?_⟩⟩
  · obtain ⟨hfreq, hrel, hskip⟩ := freq_waits (b := b) (f := f) hsus
    exact ⟨⟨s, hfreq, rfl⟩, ⟨s, hrel, rfl⟩, ⟨s, hskip, rfl⟩⟩
  · have hexec := exec_freq hnext hrun hok
    refine ⟨fun hbad => ⟨_, hexec, ?_⟩, fun hgood hfl => ?_, fun hgood hfl => ?_⟩
    · rw [answerFreq_bad hbad]
      exact sendFrefuse_refused ..
    · obtain ⟨hown, hother, hmap, hnew⟩ := answerFreq_outcomes (s := s) (b := b) hgood hfl
      refine ⟨fun h => ⟨_, hexec, hown h⟩, fun h h' => ⟨_, hexec, hother h h'⟩, fun h h' hm => ⟨_, hexec, hmap h h' hm⟩, fun h h' hm => ?_⟩
      obtain ⟨hfull, hlowest⟩ := hnew h h' hm
      refine ⟨fun hall => ⟨_, hexec, hfull hall⟩, fun k hk hfree hmin => ?_⟩
      obtain ⟨hweak, hgrant⟩ := hlowest k hk hfree hmin
      refine ⟨fun hcap => ⟨_, hexec, hweak hcap⟩, fun hcap => ?_⟩
      obtain ⟨hgranted, hon, hfreed⟩ := hgrant hcap
      exact ⟨fun _ => ⟨_, hexec, hgranted⟩, fun hne => ⟨_, hexec, hgranted, hon hne, hfreed⟩⟩
    · obtain ⟨hmine, hforeign⟩ := answerFreq_named (s := s) (b := b) hgood hfl
      exact ⟨fun h => ⟨_, hexec, hmine h⟩, fun h => ⟨_, hexec, hforeign h⟩⟩
  · have hexec := exec_frelease hnext hrun hok
    obtain ⟨hfree, hses, hrel⟩ := answerFrelease_outcomes (s := s) (b := b) (f := f) (fieldAt (fPayload f) 0 2) (fSession f) (fieldAt_lt f 3 1)
    exact ⟨fun h => ⟨_, hexec, hfree h⟩, fun hk hst hne => ⟨_, hexec, hses hk hst hne⟩, fun hk hst he => ⟨_, hexec, hrel hk hst he⟩⟩
  · have hexec := exec_fskip hnext hrun hok
    obtain ⟨hfree, hses, hskip⟩ := answerFskip_outcomes (s := s) (b := b) (f := f) (k := fieldAt (fPayload f) 0 2) (n := fSession f)
      (q := fieldAt (fPayload f) 4 4) (fieldAt_lt f 3 1) (fieldAt_lt _ 4 4)
    refine ⟨fun h => ⟨_, hexec, hfree h⟩, fun hk hst hne => ⟨_, hexec, hses hk hst hne⟩, fun hk hst he => ?_⟩
    obtain ⟨hmoved, hstays⟩ := hskip hk hst he
    exact ⟨fun hd => ⟨_, hexec, hmoved hd⟩, fun hd => ⟨_, hexec, hstays hd⟩⟩
  · have hdone := (s.heard (fFlow f)).doneFrame_aside b f
    obtain ⟨hflows, -, hstate⟩ := s.heard_effect (fFlow f)
    exact ⟨_, exec_keepalive hnext hform hflow hst hq hc hg hcb hsh, hdone.flows.trans hflows, (hdone.calm (by decide) _).trans hstate⟩
  · exact ⟨_, congrArg Host.Outcome.next (if_pos hact), quiet_effect k flSuspect ⟨rfl, rfl, by decide⟩ (by decide)⟩
  · show execFlowSuspect k s = _
    rw [execFlowSuspect, if_neg hne]
  · exact ⟨_, congrArg Host.Outcome.next (if_pos hact), quiet_effect k flSilent ⟨rfl, rfl, by decide⟩ (by decide)⟩

end Sys2Proof.Machine

/-! # O59: warm resets, READY and the supply — what registers they leave -/

namespace Sys2Proof.Machine

variable (s : State)

/-! ### Registers that stand -/

/-- Every register but those of `W` is as it was. -/
structure WordsKept (W : Nat → Prop) (s t : State) : Prop where
  word : ∀ o, ¬ W o → t.word o = s.word o

section
variable {s} {t u : State} {W V : Nat → Prop}

theorem WordsKept.refl (s : State) : WordsKept W s s := ⟨fun _ _ => rfl⟩

theorem WordsKept.trans (h : WordsKept W s t) (k : WordsKept W t u) : WordsKept W s u := 
  ⟨fun o ho => (k.word o ho).trans (h.word o ho)⟩

theorem WordsKept.mono (h : WordsKept W s t) (hV : ∀ o, W o → V o) : WordsKept V s t := 
  ⟨fun o ho => h.word o fun hw => ho (hV o hw)⟩

theorem WordsKept.of_regs (h : t.regs = s.regs) : WordsKept W s t := ⟨fun o _ => State.word_of_regs h o⟩

theorem WordsKept.setWord (h : WordsKept W s t) {o : Nat} {v : Word} (ho : W o) : WordsKept W s (t.setWord o v) :=
  h.trans ⟨fun p hp => t.word_setWord_other _ _ (by rintro rfl; exact hp ho)⟩

theorem WordsKept.wr (h : WordsKept W s t) {f : Fld} {i v : Nat} (hf : W (f.at i)) : WordsKept W s (t.wr f i v) := h.setWord hf
theorem WordsKept.flag (h : WordsKept W s t) {f : Fld} {i : Nat} (hf : W (f.at i)) : WordsKept W s (t.flag f i) := h.setWord hf
theorem WordsKept.bump (h : WordsKept W s t) {f : Fld} {i n : Nat} (hf : W (f.at i)) : WordsKept W s (t.bump f i n) := h.setWord hf
theorem WordsKept.put (h : WordsKept W s t) {f : Fld} {i : Nat} {b : Bool} (hf : W (f.at i)) : WordsKept W s (t.put f i b) := h.setWord hf

theorem WordsKept.wr64 (h : WordsKept W s t) {r : Reg64} {i v : Nat} (hlow : W (r.base + r.stride * i))
    (hhigh : W (r.base + r.stride * i + 4)) : WordsKept W s (t.wr64 r i v) := (h.setWord hlow).setWord hhigh

theorem WordsKept.foldl {α : Type} {g : State → α → State} (l : List α) (hg : ∀ t, ∀ x ∈ l, WordsKept W t (g t x)) (h : WordsKept W s t) :
    WordsKept W s (l.foldl g t) := by
  induction l generalizing t with
  | nil => exact h
  | cons x r ih => exact ih (fun t y hy => hg t y (List.mem_cons_of_mem _ hy)) (h.trans (hg t x (List.mem_cons_self ..)))

theorem WordsKept.forN {n : Nat} {g : State → Nat → State} (hg : ∀ t i, i < n → WordsKept W t (g t i)) (h : WordsKept W s t) :
    WordsKept W s (Machine.forN n g t) := WordsKept.foldl _ (fun t i hi => hg t i (List.mem_range.mp hi)) h

theorem WordsKept.rd (h : WordsKept W s t) {f : Fld} {i : Nat} (hf : ¬ W (f.at i)) : t.rd f i = s.rd f i := State.rd_of_word f i (h.word _ hf)
theorem WordsKept.on (h : WordsKept W s t) {f : Fld} {i : Nat} (hf : ¬ W (f.at i)) : t.on f i = s.on f i := State.on_of_word f i (h.word _ hf)

/-- A step that stays within a mask without the registers. -/
theorem Within.wordsKept {M : Mask} (h : Within M s t) (hM : M.regs = false) : WordsKept W s t :=
  .of_regs (h.regs.resolve_left (by simp [hM]))

end

theorem State.event_words (a b c d e : Nat) : WordsKept (eventWord · = true) s (s.event a b c d e) :=
  ⟨fun _ ho => s.word_event _ _ _ _ _ (Bool.eq_false_iff.mpr ho)⟩

theorem State.raise_words (m : FaultMsg) : WordsKept (faultWord · = true) s (s.raise m) := by
  refine ⟨fun o ho => ?_⟩
  simp only [faultWord, Bool.or_eq_true, beq_iff_eq, not_or] at ho
  obtain ⟨⟨hc, hu⟩, hf⟩ := ho
  exact s.word_raise m hc hu hf

theorem State.fault_words (a b c d : Nat) : WordsKept (faultWord · = true) s (s.fault a b c d) := s.raise_words _

/-! ### The pins and reset hold (R481, R485) -/

/-- The bits that the pins show. -/
def pinFlds : List Fld := [.FLT_STAT_FAULTN, .MOD_STAT_FAULTN, .FLT_STAT_ERRN, .MOD_STAT_ERRN]

theorem State.pins_words : WordsKept (fun o => o = 0x0 ∨ o = 0x20000) s s.pins :=
  ((((WordsKept.refl s).put (.inr rfl)).put (.inl rfl)).put (.inr rfl)).put (.inl rfl)

theorem State.rd_pins {g : Fld} (hg : pinFlds.all (·.apart g) = true) : s.pins.rd g = s.rd g := by
  simp only [pinFlds, List.all_cons, List.all_nil, Bool.and_true, Bool.and_eq_true] at hg
  obtain ⟨h1, h2, h3, h4⟩ := hg
  unfold State.pins State.put
  dsimp only
  rw [State.rd_wr_apart _ h4, State.rd_wr_apart _ h3, State.rd_wr_apart _ h2, State.rd_wr_apart _ h1]

@[simp] theorem State.notePause_regs : s.notePause.regs = s.regs :=
  ((Within.refl { deck := true } s).notePause rfl).regs.resolve_left (by decide)

@[simp] theorem State.rd_notePause (f : Fld) (i : Nat) : s.notePause.rd f i = s.rd f i := State.rd_of_regs s.notePause_regs f i

theorem State.endHold_words : WordsKept (fun o => o = 0x0 ∨ o = 0x20000) s s.endHold :=
  (((WordsKept.refl s).wr (.inr rfl)).trans (State.pins_words _)).trans (.of_regs (State.notePause_regs _))

theorem State.endHold_released : s.endHold.on .FLT_STAT_RESETHOLD = false := by
  have h : s.endHold.rd .FLT_STAT_RESETHOLD = (s.wr .FLT_STAT_RESETHOLD 0 0).rd .FLT_STAT_RESETHOLD :=
    (State.rd_notePause ..).trans (State.rd_pins _ (by decide))
  rw [State.on, h, State.rd_wr_same _ _ _ _ (by decide)]
  rfl

theorem State.rd_endHold {g : Fld} (hg : (Fld.FLT_STAT_RESETHOLD :: pinFlds).all (·.apart g) = true) : s.endHold.rd g = s.rd g := by
  simp only [List.all_cons, Bool.and_eq_true] at hg
  rw [State.endHold, State.rd_notePause, State.rd_pins _ hg.2, State.rd_wr_apart _ hg.1]

/-! ### The start of a warm reset is shown (R485, R511) -/

/-- A warm reset is under way: the management core stops (R449). -/
def State.inWarm (s : State) (cause : Nat) : State :=
  ({ s with modl := { s.modl with warm := true, fw := false, resetDue := some cause } } : State).notePause

theorem State.inWarm_regs (cause : Nat) : (s.inWarm cause).regs = s.regs := State.notePause_regs _

theorem State.inWarm_within {M : Mask} (hd : M.deck = true) (hm : M.modl = true) (cause : Nat) : Within M s (s.inWarm cause) :=
  ((Within.refl M s).upd (modl := { s.modl with warm := true, fw := false, resetDue := some cause }) (h_modl := .inl hm)).notePause hd

/-- Its cause and count are shown, and reset hold ends (R485, R511). -/
def State.resetShown (s : State) (cause : Nat) : State := (s.countWarm cause).endHold.inWarm cause

theorem State.resetShown_words (cause : Nat) : WordsKept (fun o => o = 0x0 ∨ o = 0x10 ∨ o = 0x20000) s (s.resetShown cause) := by
  have hcount : WordsKept (fun o => o = 0x0 ∨ o = 0x10 ∨ o = 0x20000) s (s.countWarm cause) :=
    (((WordsKept.refl s).wr (.inr (.inl rfl))).bump (.inr (.inl rfl))).wr (.inl rfl)
  have hend : WordsKept (fun o => o = 0x0 ∨ o = 0x10 ∨ o = 0x20000) (s.countWarm cause) (s.countWarm cause).endHold :=
    (State.endHold_words _).mono (by omega)
  exact (hcount.trans hend).trans (.of_regs (State.inWarm_regs _ _))

theorem State.rd_resetShown (cause : Nat) (f : Fld) (i : Nat) : (s.resetShown cause).rd f i = (s.countWarm cause).endHold.rd f i :=
  State.rd_of_regs (State.inWarm_regs _ _) f i

theorem State.resetShown_effect (cause : Nat) :
    (s.resetShown cause).rd .MOD_RSTCAUSE_CAUSE = cause % 8 ∧
    (s.resetShown cause).rd .MOD_RSTCAUSE_WARMS = min (s.rd .MOD_RSTCAUSE_WARMS + 1) (2 ^ 16 - 1) ∧
    (s.resetShown cause).on .MOD_STAT_READY = false ∧ (s.resetShown cause).on .FLT_STAT_RESETHOLD = false ∧
    (s.resetShown cause).on .MOD_STAT_TESTMODE = s.on .MOD_STAT_TESTMODE := by
  simp only [State.on, State.rd_resetShown]
  refine ⟨?_, ?_, ?_, beq_eq_false_iff_ne.mpr ?_, ?_⟩
  · rw [State.rd_endHold _ (by decide), State.countWarm, State.bump]
    simp (disch := decide) only [State.rd_wr_apart, State.rd_wr_same]
    rfl
  · rw [State.rd_endHold _ (by decide), State.countWarm, State.rd_wr_apart _ (by decide), State.rd_bump_same _ _ _ _ (by decide),
      State.rd_wr_apart _ (by decide)]
    rfl
  · rw [State.rd_endHold _ (by decide), State.countWarm, State.rd_wr_same _ _ _ _ (by decide)]
    rfl
  · exact beq_eq_false_iff_ne.mp (State.endHold_released _)
  · rw [State.rd_endHold _ (by decide), State.countWarm, State.bump]
    simp (disch := decide) only [State.rd_wr_apart]

theorem State.resetShown_within (cause : Nat) : Within { regs := true, deck := true, modl := true } s (s.resetShown cause) :=
  (((Within.refl _ s).countWarm rfl).endHold rfl rfl).trans (State.inWarm_within _ rfl rfl cause)

end Sys2Proof.Machine

namespace Sys2Proof.Machine

variable (s : State)

/-! ### The flow snapshot (R431) -/

section
variable {s} {t : State}

/-- What a flow snapshot holds depends on sessions, flows, tricks and the flows' registers alone. -/
theorem flowSnapshot_congr (hsess : t.sess = s.sess) (hflows : t.flows = s.flows) (htricks : t.tricks = s.tricks)
    (hword : ∀ f, (∀ o, 0x410000 + 16 * f ≤ o → o < 0x410010 + 16 * f → t.word o = s.word o)) : t.flowSnapshot = s.flowSnapshot := by
  have hrd : ∀ g : Fld, 0x410000 ≤ g.base ∧ g.base < 0x410010 ∧ g.stride = 16 → ∀ f, t.rd g f = s.rd g f := fun g hg f =>
    State.rd_of_word g f (hword f _ (by rw [Fld.at, hg.2.2]; omega) (by rw [Fld.at, hg.2.2]; omega))
  have hses : ∀ f, t.rd .VSN_FSTAT_SESSION f = s.rd .VSN_FSTAT_SESSION f := hrd _ (by decide)
  have hnext : ∀ f, t.rd .VSN_FNEXT_NEXT f = s.rd .VSN_FNEXT_NEXT f := hrd _ (by decide)
  have hsession : ∀ n, t.session n = s.session n := State.session_of_sess hsess
  have hshape : ∀ f, t.flowShape f = s.flowShape f := fun f => by
    rw [State.flowShape, State.flowShape, hrd _ (by decide), hrd _ (by decide), hrd _ (by decide)]
  have hunrel : t.unreleased = s.unreleased := by simp only [State.unreleased, htricks]
  have holdest : ∀ f, t.oldestSeq f = s.oldestSeq f := fun f => by
    simp only [State.oldestSeq, State.flow_of_flows hflows, hsession, hses, hnext, hshape, hunrel, htricks]
  have hmem : ∀ f, (t.flowList.filter (fun f => (s.session (s.rd .VSN_FSTAT_SESSION f)).coldKind != 4)).contains f =
      (s.flowList.filter (fun f => (s.session (s.rd .VSN_FSTAT_SESSION f)).coldKind != 4)).contains f := fun f => by
    rw [Bool.eq_iff_iff]
    simp only [List.contains_eq_mem, decide_eq_true_eq, List.mem_filter, State.mem_flowList, hrd .VSN_FSTAT_STATE (by decide)]
  simp only [State.flowSnapshot, hsession, hses, hnext, holdest, hmem]

end

/-- The registers of the ledger. -/
def ledgerWord (o : Nat) : Prop := 0x70000 ≤ o ∧ o < 0x71000

theorem State.writeSlots_regs (l : List Nat) (b : List Byte) : (s.writeSlots l b).regs = s.regs :=
  ((Within.refl { ledger := true } s).writeSlots rfl).regs.resolve_left (by decide)

/-- What a snapshot record shows. -/
def State.snapshotShown (s : State) (g dsn : Nat) : State :=
  ((((s.flag .LGR_STAT_SNAPVALID).wr .LGR_STAT_SNAPREG 0 g).flag .LGR_EVT_SNAP).bump .LGR_RECCNT_COUNT).wr64 .LGR_LASTDSN 0 dsn

theorem State.snapshotShown_words (g dsn : Nat) : WordsKept ledgerWord s (s.snapshotShown g dsn) := by
  have hin : ∀ o, o < 0x1000 → ledgerWord (0x70000 + o) := fun o ho => ⟨by omega, by omega⟩
  exact (((((WordsKept.refl s).flag (hin 0 (by decide))).wr (hin 0 (by decide))).flag (hin 0x18 (by decide))).bump
    (hin 0x1c (by decide))).wr64 (hin 0x10 (by decide)) (hin 0x14 (by decide))

theorem State.snapshotShown_valid (g dsn : Nat) : (s.snapshotShown g dsn).on .LGR_STAT_SNAPVALID = true := by
  have h : (s.snapshotShown g dsn).rd .LGR_STAT_SNAPVALID = (s.flag .LGR_STAT_SNAPVALID).rd .LGR_STAT_SNAPVALID := by
    unfold State.snapshotShown
    generalize s.flag .LGR_STAT_SNAPVALID = t
    unfold State.flag State.bump
    rw [State.rd_wr64_apart _ (by decide), State.rd_wr_apart _ (by decide), State.rd_wr_apart _ (by decide), State.rd_wr_apart _ (by decide)]
  rw [State.on, h, State.flag, State.rd_wr_same _ _ _ _ (by decide)]
  rfl

theorem State.writeSnapshot_words : WordsKept ledgerWord s s.writeSnapshot := by
  unfold State.writeSnapshot
  dsimp only
  split
  · exact .of_regs rfl
  · split
    · exact .refl s
    · next g segs rest _ =>
      generalize ceilDiv (s.flowSnapshot.length + 24) 256 = n
      generalize hphys : (List.range n).map (fun i => s.physOf (runAt segs i)) = phys
      generalize LRec.bytes _ n = b
      have hslots : (((s.overwrite ((List.range 4096).map (fun i => s.physOf (runAt segs i)))).writeSlots phys b)).regs = s.regs :=
        State.writeSlots_regs ..
      generalize (s.overwrite ((List.range 4096).map (fun i => s.physOf (runAt segs i)))).writeSlots phys b = u at *
      refine WordsKept.trans ?_ (State.snapshotShown_words _ g s.lastDsn)
      exact .of_regs hslots

theorem State.writeSnapshot_record (hro : s.on .LGR_STAT_RO = false) (hreg : s.ledger.regions ≠ []) :
    s.writeSnapshot.on .LGR_STAT_SNAPVALID = true ∧
    s.writeSnapshot.ledger.recs.head?.map (fun r => (r.type, r.payload)) = some (5, s.flowSnapshot) := by
  unfold State.writeSnapshot
  dsimp only
  rw [if_neg (by simp [hro])]
  split
  · next h => exact absurd h hreg
  · next g segs rest _ =>
    generalize ceilDiv (s.flowSnapshot.length + 24) 256 = n
    generalize (List.range n).map (fun i => s.physOf (runAt segs i)) = phys
    generalize LRec.bytes _ n = b
    generalize (s.overwrite ((List.range 4096).map (fun i => s.physOf (runAt segs i)))).writeSlots phys b = u
    exact ⟨State.snapshotShown_valid _ g _, rfl⟩

end Sys2Proof.Machine

namespace Sys2Proof.Machine

variable (s : State)

/-! ### The data path stops (R154, R413, R454, R512) -/

/-- The registers that the fabric and the DMA engine show, and those of events and faults. -/
def fabricWord (o : Nat) : Prop := eventWord o = true ∨ faultWord o = true ∨ (0x40000 ≤ o ∧ o < 0x60000)

theorem State.orphan_words (m ty addr : Nat) : WordsKept fabricWord s (s.orphan m ty addr) := by
  have hin : ∀ o, o < 0x20000 → fabricWord (0x40000 + o) := fun o ho => .inr (.inr ⟨by omega, by omega⟩)
  unfold State.orphan
  extract_lets t u
  have ht : WordsKept fabricWord s t := by
    unfold t
    split
    · exact .refl s
    · exact ((((WordsKept.refl s).wr64 (hin 0x30 (by decide)) (hin 0x34 (by decide))).wr (hin 0x38 (by decide))).wr
        (hin 0x38 (by decide))).wr (hin 0x38 (by decide))
  have hu : WordsKept fabricWord s u := by
    unfold u
    refine WordsKept.flag (WordsKept.bump ht ?_) ?_
    exacts [hin 0x3c (by decide), hin 0x40 (by decide)]
  exact (hu.trans ((u.event_words _ _ _ _ _).mono fun _ => .inl)).trans ((State.raise_words _ _).mono fun _ h => .inr (.inl h))

/-- One channel of a DMA reset. -/
def State.resetChan (s : State) (c : Nat) : State :=
  let st := s.rd .DMA_CSTAT_STATE c
  let x := s.dmac c
  if st = dcFetch ∨ st = dcMove ∨ st = dcHalted then
    let s := s.whenS (st == dcMove && x.desc.any (fun d => decide (x.moved < d.count))) (·.orphan 2 1 ((x.desc.map (·.dst)).getD 0 + x.moved))
    ((s.wr .DMA_CSTAT_STATE c dcIdle).wr .DMA_CSTAT_LAST c 3).setDmac c {}
  else s

theorem State.resetDma_eq : s.resetDma = ((forN 16 State.resetChan s).wr .DMA_GSTAT_HALTED 0 0).dropLocks 2 := rfl

theorem State.resetChan_words {c : Nat} (hc : c < 16) : WordsKept fabricWord s (s.resetChan c) := by
  have hcstat : fabricWord (0x5010c + 0x40 * c) := .inr (.inr ⟨by omega, by omega⟩)
  unfold State.resetChan
  extract_lets st x t
  split
  · have ht : WordsKept fabricWord s t := by
      unfold t State.whenS
      split
      · exact s.orphan_words _ _ _
      · exact .refl s
    generalize t = u at *
    refine WordsKept.trans (WordsKept.wr (WordsKept.wr ht ?_) ?_) (.of_regs (State.setDmac_regs ..))
    exacts [hcstat, hcstat]
  · exact .refl s

theorem State.resetDma_words : WordsKept fabricWord s s.resetDma := by
  rw [State.resetDma_eq]
  have ht : WordsKept fabricWord s (forN 16 State.resetChan s) := .forN (fun u c hc => u.resetChan_words hc) (.refl s)
  generalize forN 16 State.resetChan s = t at *
  exact WordsKept.trans (WordsKept.wr ht (.inr (.inr (by decide)))) (.of_regs rfl)

/-- The refresh debt of the memory is paid (R413). -/
def State.debtPaid (s : State) : State := { s with hbm := { s.hbm with debt := [], rows := [] } }

/-- Cores and DMA engine stop, waiting accesses but the host's go, and the vectors are those of the boot ROM (R154, R454). -/
def State.pathStopped (s : State) : State := (s.stopCores.debtPaid.resetDma.dropMasters).wr .FAB_CTL_REMAP 0 0

theorem State.beginWarm_eq (cause : Nat) : s.beginWarm cause = (s.resetShown cause).resetSnapshot.pathStopped := rfl

theorem State.stopCores_regs : s.stopCores.regs = s.regs := ((Within.refl { out := true } s).stopCores rfl).regs.resolve_left (by decide)

theorem State.dropMasters_regs : s.dropMasters.regs = s.regs := rfl

theorem State.pathStopped_words : WordsKept fabricWord s s.pathStopped := by
  unfold State.pathStopped
  have hpaid : WordsKept fabricWord s s.stopCores.debtPaid := .of_regs s.stopCores_regs
  generalize s.stopCores.debtPaid = t at *
  have hdma := hpaid.trans t.resetDma_words
  generalize t.resetDma = u at *
  exact WordsKept.wr (hdma.trans (.of_regs u.dropMasters_regs)) (.inr (.inr (by decide)))

/-- The mask of what stops the data path. -/
def stopMask : Mask := { regs := true, out := true, dealer := true, faults := true, hbm := true, dma := true, fab := true }

theorem State.debtPaid_within {M : Mask} (hh : M.hbm = true) : Within M s s.debtPaid :=
  (Within.refl M s).upd (hbm := { s.hbm with debt := [], rows := [] }) (h_hbm := .inl hh)

end Sys2Proof.Machine

namespace Sys2Proof.Machine

variable (s : State)

theorem State.pathStopped_within : Within stopMask s s.pathStopped :=
  (((((Within.refl stopMask s).stopCores rfl).trans (State.debtPaid_within _ rfl)).resetDma rfl rfl rfl rfl rfl rfl).dropMasters rfl).wr rfl

theorem State.pathStopped_mem : s.pathStopped.hbm.mem = s.hbm.mem := by
  have hcores : s.stopCores.hbm = s.hbm := ((Within.refl { out := true } s).stopCores rfl).hbm.resolve_left (by decide)
  have hpaid : s.stopCores.debtPaid.hbm.mem = s.hbm.mem := by
    rw [← hcores]; rfl
  unfold State.pathStopped
  generalize s.stopCores.debtPaid = t at *
  have hdma : t.resetDma.hbm = t.hbm :=
    ((Within.refl { regs := true, out := true, dealer := true, faults := true, dma := true, fab := true } t).resetDma rfl rfl rfl rfl rfl
      rfl).hbm.resolve_left (by decide)
  generalize t.resetDma = u at *
  rw [State.wr_hbm]
  exact (congrArg Hbm.mem hdma).trans hpaid

/-- What the host asked of the memory is held; every other waiting access goes. -/
theorem State.pathStopped_held : ∀ x ∈ s.pathStopped.fab.held, x ∈ s.fab.held ∧ x.acc.master.toNat = 0 := by
  have hpaid : s.stopCores.debtPaid.fab = s.fab :=
    (((Within.refl { out := true, hbm := true } s).stopCores rfl).trans (State.debtPaid_within _ rfl)).fab.resolve_left (by decide)
  unfold State.pathStopped
  generalize s.stopCores.debtPaid = t at *
  have hchans : ((forN 16 State.resetChan t).wr .DMA_GSTAT_HALTED 0 0).fab = t.fab := by
    have hchan : ∀ u c, Within { regs := true, out := true, dealer := true, faults := true, dma := true } u (State.resetChan u c) :=
      fun u c => by
        unfold State.resetChan
        extract_lets st x v
        split
        · exact (((Within.whenS (fun w => (Within.refl _ w).orphan rfl rfl rfl rfl) (.refl _ u)).wr rfl).wr rfl).setDmac rfl
        · exact .refl _ u
    exact ((Within.forN hchan (.refl _ t)).wr rfl).fab.resolve_left (by decide)
  rw [State.resetDma_eq]
  generalize (forN 16 State.resetChan t).wr .DMA_GSTAT_HALTED 0 0 = u at *
  intro x hx
  rw [State.wr_fab] at hx
  have hin : x ∈ (u.fab.held.filter (fun h => h.acc.master.toNat != 2)).filter (fun h => h.acc.master.toNat == 0) := hx
  rw [hchans, hpaid] at hin
  simp only [List.mem_filter, beq_iff_eq] at hin
  obtain ⟨⟨hs, -⟩, h0⟩ := hin
  exact ⟨hs, h0⟩

theorem State.resetSnapshot_words : WordsKept ledgerWord s s.resetSnapshot := by
  have h := s.writeSnapshot_words
  unfold State.resetSnapshot
  dsimp only
  generalize s.writeSnapshot = t at *
  split
  · exact h.trans (.of_regs rfl)
  · exact h

theorem State.resetSnapshot_ledger : s.resetSnapshot.ledger = s.writeSnapshot.ledger := by
  unfold State.resetSnapshot
  dsimp only
  generalize s.writeSnapshot = t
  split <;> rfl

theorem State.resetSnapshot_record (hro : s.on .LGR_STAT_RO = false) (hreg : s.ledger.regions ≠ []) :
    s.resetSnapshot.on .LGR_STAT_SNAPVALID = true ∧
    s.resetSnapshot.ledger.recs.head?.map (fun r => (r.type, r.payload)) = some (5, s.flowSnapshot) := by
  obtain ⟨hon, hrec⟩ := s.writeSnapshot_record hro hreg
  rw [State.resetSnapshot_ledger]
  refine ⟨?_, hrec⟩
  unfold State.resetSnapshot
  dsimp only
  generalize s.writeSnapshot = t at *
  split
  · exact (State.on_of_regs rfl _ _).trans hon
  · exact hon

/-! ### A warm reset has begun (R154, R413, R485, R513) -/

/-- What holds once a warm reset has begun, and until it is finished. -/
structure WarmBegun (cause : Nat) (s t : State) : Prop where
  cause : t.rd .MOD_RSTCAUSE_CAUSE = cause % 8
  warms : t.rd .MOD_RSTCAUSE_WARMS = min (s.rd .MOD_RSTCAUSE_WARMS + 1) (2 ^ 16 - 1)
  ready : t.on .MOD_STAT_READY = false
  hold : t.on .FLT_STAT_RESETHOLD = false
  mem : t.hbm.mem = s.hbm.mem
  slots : t.plans.slots = s.plans.slots
  lcs : t.lcs = s.lcs
  sec : t.sec = s.sec
  flash : t.modl.flash = s.modl.flash
  kernels : t.modl.kernels = s.modl.kernels
  time : t.timeb = s.timeb
  snap : s.on .LGR_STAT_RO = false → s.ledger.regions ≠ [] → t.on .LGR_STAT_SNAPVALID = true ∧
    t.ledger.recs.head?.map (fun r => (r.type, r.payload)) = some (5, s.flowSnapshot)

/-- What the boot ROM and the second half of a warm reset look at stands when it has begun. -/
structure WarmBase (s t : State) : Prop where
  words : WordsKept (fun o => o = 0x0 ∨ o = 0x10 ∨ o = 0x20000 ∨ ledgerWord o ∨ fabricWord o) s t
  testmode : t.on .MOD_STAT_TESTMODE = s.on .MOD_STAT_TESTMODE
  remap : t.on .FAB_CTL_REMAP = false
  sess : t.sess = s.sess
  spd : t.spd = s.spd
  held : ∀ x ∈ t.fab.held, x ∈ s.fab.held ∧ x.acc.master.toNat = 0
  modl : t.modl = { s.modl with warm := true, fw := false, resetDue := t.modl.resetDue, hostMem := t.modl.hostMem }

theorem State.inWarm_modl (cause : Nat) : (s.inWarm cause).modl = { s.modl with warm := true, fw := false, resetDue := some cause } := by
  have hpause : ∀ t : State, t.notePause.modl = t.modl := fun t => ((Within.refl { deck := true } t).notePause rfl).modl_eq rfl rfl
  exact hpause _

theorem State.resetShown_modl (cause : Nat) :
    (s.resetShown cause).modl = { s.modl with warm := true, fw := false, resetDue := some cause } := by
  have h : (s.countWarm cause).endHold.modl = s.modl :=
    (((Within.refl { regs := true, deck := true } s).countWarm rfl).endHold rfl rfl).modl_eq rfl rfl
  rw [State.resetShown, State.inWarm_modl, h]

theorem State.pathStopped_remap : s.pathStopped.on .FAB_CTL_REMAP = false := State.on_wr_zero _ _ _ (by decide)

/-- The mask of what begins a warm reset. -/
def beginMask : Mask :=
  { regs := true, out := true, dealer := true, faults := true, deck := true, hbm := true, ledger := true, fab := true, dma := true
    power := true, modl := true }

theorem Modl.inWarm_of {m v : Modl} {cause : Nat}
    (h : v = { m with warm := true, fw := false, resetDue := some cause, hostMem := v.hostMem }) :
    v = { m with warm := true, fw := false, resetDue := v.resetDue, hostMem := v.hostMem } ∧ v.resetDue = some cause := by
  have hdue : v.resetDue = some cause := congrArg Modl.resetDue h
  exact ⟨by rw [hdue]; exact h, hdue⟩

theorem State.beginWarm_base (cause : Nat) : WarmBase s (s.beginWarm cause) ∧ (s.beginWarm cause).modl.resetDue = some cause := by
  have hwithin : Within beginMask s (s.beginWarm cause) :=
    (Within.refl beginMask s).beginWarm rfl rfl rfl rfl rfl rfl rfl rfl rfl rfl rfl
  obtain ⟨hsess, -⟩ := hwithin.sess.resolve_left (by decide)
  have hspd := hwithin.spd.resolve_left (by decide)
  obtain ⟨-, -, -, -, htest⟩ := s.resetShown_effect cause
  have hshown := s.resetShown_words cause
  have hfab : (s.resetShown cause).fab = s.fab := (s.resetShown_within cause).fab.resolve_left (by decide)
  have hmodl := s.resetShown_modl cause
  rw [s.beginWarm_eq] at hsess hspd ⊢
  generalize s.resetShown cause = t at *
  have hsnap := t.resetSnapshot_words
  have hsfab : t.resetSnapshot.fab = t.fab :=
    ((Within.refl { regs := true, ledger := true, power := true } t).resetSnapshot rfl rfl rfl).fab.resolve_left (by decide)
  have hsmodl : t.resetSnapshot.modl = t.modl :=
    ((Within.refl { regs := true, ledger := true, power := true } t).resetSnapshot rfl rfl rfl).modl_eq rfl rfl
  generalize t.resetSnapshot = u at *
  have hstop := u.pathStopped_words
  have hheld := u.pathStopped_held
  have hpmodl := u.pathStopped_within.modl.resolve_left (by decide)
  have hremap := u.pathStopped_remap
  generalize u.pathStopped = v at *
  rw [hsmodl, hmodl] at hpmodl
  obtain ⟨hwarm, hdue⟩ := Modl.inWarm_of hpmodl
  refine ⟨⟨?_, ?_, hremap, hsess, hspd, fun x hx => ?_, hwarm⟩, hdue⟩
  · exact ((hshown.mono (by tauto)).trans (hsnap.mono (by tauto))).trans (hstop.mono (by tauto))
  · rw [hstop.on (by simp only [fabricWord, Fld.at, Fld.MOD_STAT_TESTMODE]; decide),
      hsnap.on (by simp only [ledgerWord, Fld.at, Fld.MOD_STAT_TESTMODE]; decide), htest]
  · obtain ⟨hin, h0⟩ := hheld x hx
    rw [hsfab, hfab] at hin
    exact ⟨hin, h0⟩

theorem State.beginWarm_begun (cause : Nat) : WarmBegun cause s (s.beginWarm cause) := by
  have hwithin : Within beginMask s (s.beginWarm cause) :=
    (Within.refl beginMask s).beginWarm rfl rfl rfl rfl rfl rfl rfl rfl rfl rfl rfl
  obtain ⟨hlcs, hsec⟩ := hwithin.sec.resolve_left (by decide)
  obtain ⟨-, htimeb⟩ := hwithin.time.resolve_left (by decide)
  have hplans := hwithin.plans.resolve_left (by decide)
  obtain ⟨hbase, -⟩ := s.beginWarm_base cause
  have hflash : (s.beginWarm cause).modl.flash = s.modl.flash := by rw [hbase.modl]
  have hkernels : (s.beginWarm cause).modl.kernels = s.modl.kernels := by rw [hbase.modl]
  obtain ⟨hcause, hwarms, hready, hhold, -⟩ := s.resetShown_effect cause
  have hsw := s.resetShown_within cause
  have hsnapshot : (s.resetShown cause).flowSnapshot = s.flowSnapshot := by
    obtain ⟨hsess, hflows⟩ := hsw.sess.resolve_left (by decide)
    exact flowSnapshot_congr hsess hflows (hsw.tricks.resolve_left (by decide)) fun f o hlo _ => (s.resetShown_words cause).word o (by omega)
  have hro : (s.resetShown cause).on .LGR_STAT_RO = s.on .LGR_STAT_RO := (s.resetShown_words cause).on (by decide)
  have hledger := hsw.ledger.resolve_left (by decide)
  have hhbm := hsw.hbm.resolve_left (by decide)
  clear hbase hsw hwithin
  rw [s.beginWarm_eq] at *
  generalize s.resetShown cause = t at *
  have hsnap := t.resetSnapshot_words
  have hrecord := t.resetSnapshot_record
  have hshbm : t.resetSnapshot.hbm = t.hbm :=
    ((Within.refl { regs := true, ledger := true, power := true } t).resetSnapshot rfl rfl rfl).hbm.resolve_left (by decide)
  generalize t.resetSnapshot = u at *
  have hstop := u.pathStopped_words
  have hmem := u.pathStopped_mem
  have hpledger := u.pathStopped_within.ledger.resolve_left (by decide)
  generalize u.pathStopped = v at *
  have hkept : ∀ g : Fld, g.base < 0x20048 ∧ g.stride = 0 → v.rd g = t.rd g := fun g hg => by
    have hat : g.at 0 = g.base := rfl
    rw [hstop.rd, hsnap.rd]
    · simp only [ledgerWord, hat]; omega
    · simp only [fabricWord, faultWord, eventWord, refuseWord, hat, Bool.or_eq_true, Bool.and_eq_true, beq_iff_eq, decide_eq_true_eq]
      omega
  refine ⟨by rw [hkept _ (by decide), hcause], by rw [hkept _ (by decide), hwarms], by rw [State.on, hkept _ (by decide)]; exact hready,
    by rw [State.on, hkept _ (by decide)]; exact hhold, by rw [hmem, hshbm, hhbm], by rw [hplans], hlcs, hsec, hflash, hkernels, htimeb,
    fun hro' hreg => ?_⟩
  obtain ⟨hon, hrec⟩ := hrecord (by rwa [hro]) (by rwa [hledger])
  rw [hpledger, hrec, hsnapshot, hstop.on (by simp only [fabricWord, Fld.at, Fld.LGR_STAT_SNAPVALID]; decide)]
  exact ⟨hon, rfl⟩

end Sys2Proof.Machine

namespace Sys2Proof.Machine

variable (s : State)

/-! ### What the recomputation reads (R184, R220, R403) -/

theorem State.activate_mem (L k : Nat) : (s.activate L k).hbm.mem = s.hbm.mem := by
  unfold State.activate
  dsimp only
  split <;> rfl

theorem State.lineRead_mem (L : Nat) : (s.lineRead L).hbm.mem = s.hbm.mem := by
  unfold State.lineRead
  refine State.forN_induct (p := fun t => t.hbm.mem = s.hbm.mem) _ _ _ rfl fun t k ht => ?_
  unfold State.whenS
  split
  · exact (t.activate_mem L k).trans ht
  · exact ht

theorem State.linesRead_mem (o n : Nat) : (s.linesRead o n).hbm.mem = s.hbm.mem := by
  unfold State.linesRead
  induction linesOf o n generalizing s with
  | nil => rfl
  | cons L r ih => exact (ih _).trans (s.lineRead_mem L)

/-- The registers of events and faults, and those from the cut's on. -/
def dataWord (o : Nat) : Prop := eventWord o = true ∨ faultWord o = true ∨ 0x500000 ≤ o

theorem State.fault_dataWord (a b c d : Nat) : WordsKept dataWord s (s.fault a b c d) := (s.fault_words a b c d).mono fun _ h => .inr (.inl h)

/-- A run that is not read for the first time: its class is noted, and its lines are read. -/
theorem State.cutRun_effect (p : ActivePlan) (a ch g run : Nat) :
    (s.cutRun p a ch g run false).hbm.mem = s.hbm.mem ∧ WordsKept dataWord s (s.cutRun p a ch g run false) := by
  unfold State.cutRun
  extract_lets cs k dk stg place poisoned t u
  rw [if_neg (by decide)]
  have ht : t.hbm = s.hbm ∧ t.regs = s.regs := ⟨rfl, rfl⟩
  clear_value t
  have hread : ∀ v : State, (v.linesRead place.1 place.2).regs = v.regs := fun v =>
    ((Within.refl { hbm := true } v).linesRead rfl).regs.resolve_left (by decide)
  have hv : ∀ c, (t.whenS c (·.linesRead place.1 place.2)).hbm.mem = s.hbm.mem ∧
      WordsKept dataWord s (t.whenS c (·.linesRead place.1 place.2)) := fun c => by
    unfold State.whenS
    split
    · exact ⟨(t.linesRead_mem _ _).trans (congrArg Hbm.mem ht.1), .of_regs ((hread t).trans ht.2)⟩
    · exact ⟨congrArg Hbm.mem ht.1, .of_regs ht.2⟩
  replace hv := hv (!t.runShort a ch g run)
  unfold u
  generalize State.whenS t _ _ = v at *
  unfold State.whenS
  split
  · exact ⟨(congrArg Hbm.mem (((Within.refl { regs := true, faults := true } v).fault rfl rfl).hbm.resolve_left (by decide))).trans hv.1,
      hv.2.trans (v.fault_dataWord _ _ _ _)⟩
  · exact hv

/-- What reading a range channel again leaves: the memory's bytes, the engines, and the registers before the cut's. -/
structure ReadAgain (s t : State) : Prop where
  mem : t.hbm.mem = s.hbm.mem
  core : ∀ e, t.core e = s.core e
  words : WordsKept dataWord s t

section
variable {s} {t u : State}

theorem ReadAgain.refl (s : State) : ReadAgain s s := ⟨rfl, fun _ => rfl, .refl s⟩

theorem ReadAgain.trans (h : ReadAgain s t) (k : ReadAgain t u) : ReadAgain s u :=
  ⟨k.mem.trans h.mem, fun e => (k.core e).trans (h.core e), h.words.trans k.words⟩

theorem ReadAgain.foldl {α : Type} {g : State → α → State} (hg : ∀ t x, ReadAgain t (g t x)) (l : List α) (s : State) :
    ReadAgain s (l.foldl g s) := by
  induction l generalizing s with
  | nil => exact .refl s
  | cons x r ih => exact (hg s x).trans (ih (g s x))

theorem core_of_engs (h : t.engs = s.engs) (e : Nat) : t.core e = s.core e := by simp only [State.core, State.eng, h]

/-- Steps that change no engine and no byte of memory. -/
theorem ReadAgain.of_within {M : Mask} (h : Within M s t) (he : M.engs = false) (hh : M.hbm = false) (hw : WordsKept dataWord s t) :
    ReadAgain s t :=
  ⟨congrArg Hbm.mem (h.hbm.resolve_left (by simp [hh])), core_of_engs (h.engs.resolve_left (by simp [he])), hw⟩

end

theorem State.readChan_again (p : ActivePlan) (a ch : Nat) : ReadAgain s (s.readChan p a ch false) := by
  have hrun : ∀ (t : State) (g run : Nat), ReadAgain t (t.cutRun p a ch g run false) := fun t g run => by
    obtain ⟨hmem, hwords⟩ := t.cutRun_effect p a ch g run
    have hw : Within { regs := true, faults := true, deck := true, hbm := true } t (t.cutRun p a ch g run false) :=
      (Within.refl _ t).cutRun rfl rfl rfl rfl
    exact ⟨hmem, core_of_engs (hw.engs.resolve_left (by decide)), hwords⟩
  unfold State.readChan
  extract_lets dk k t
  have ht : ReadAgain s t := ⟨rfl, fun _ => rfl, .of_regs rfl⟩
  exact ht.trans (ReadAgain.foldl (fun u run => ReadAgain.foldl (fun v g => hrun v g run) _ u) _ t)

theorem State.sendRuns_again (a ch : Nat) (replay : Bool) (e : Nat) : ReadAgain s (s.sendRuns a ch replay e) := by
  refine ⟨rfl, fun j => ?_, .of_regs rfl⟩
  unfold State.sendRuns State.core
  dsimp only
  by_cases hj : j = e
  · rw [hj, State.eng, State.setEng, tget_tset_same]
  · rw [State.eng, State.setEng, tget_tset_other _ _ _ _ hj]
    rfl

theorem State.replayNoted_again (ch a pos : Nat) : ReadAgain s (((s.bump .CUT_REPLAY_COUNT).flag .CUT_EVT_REPLAY).event 5 0x0501 ch a pos) := by
  have hcut : WordsKept dataWord s ((s.bump .CUT_REPLAY_COUNT).flag .CUT_EVT_REPLAY) :=
    ((WordsKept.refl s).bump (.inr (.inr (by decide)))).flag (.inr (.inr (by decide)))
  have hw : Within { regs := true, out := true, dealer := true, faults := true } s
      (((s.bump .CUT_REPLAY_COUNT).flag .CUT_EVT_REPLAY).event 5 0x0501 ch a pos) :=
    (((Within.refl _ s).bump rfl).flag rfl).event rfl rfl rfl rfl
  exact .of_within hw rfl rfl (hcut.trans ((State.event_words _ _ _ _ _ _).mono fun _ => .inl))

theorem State.reread_again (a ch : Nat) (es : List Nat) (pos : Nat) : ReadAgain s (s.reread a ch es pos) := by
  unfold State.reread
  split
  · exact .refl s
  · next p _ =>
    extract_lets t u now stop d v
    have hu : ReadAgain s u := (s.readChan_again p a ch).trans (t.replayNoted_again ch a pos)
    have hv : ReadAgain u v := by
      unfold v
      split
      · exact .refl u
      · exact ⟨rfl, fun _ => rfl, .of_regs rfl⟩
    exact (hu.trans hv).trans (ReadAgain.foldl (fun w e => w.sendRuns_again a ch true e) es v)

theorem State.recomputeAll_again : ReadAgain s s.recomputeAll := by
  unfold State.recomputeAll
  extract_lets t d u todo
  have hu : ReadAgain s u := ⟨rfl, fun _ => rfl, .of_regs rfl⟩
  exact hu.trans (ReadAgain.foldl (fun v tc => v.reread_again _ _ _ _) _ u)

theorem State.readSystem_again : ReadAgain s s.readSystem := by
  refine .of_within ((Within.refl { regs := true, faults := true } s).readSystem rfl rfl) rfl rfl ?_
  unfold State.readSystem
  refine WordsKept.foldl _ (fun t x _ => ?_) (.refl s)
  unfold State.whenS
  split
  · exact t.fault_dataWord _ _ _ _
  · exact .refl t

theorem State.restoreSlots_again : ReadAgain s s.restoreSlots := by
  refine .of_within ((Within.refl { regs := true, beams := true, faults := true } s).restoreSlots rfl rfl rfl) rfl rfl ?_
  have hslot : ∀ (t : State) (k : Nat) (c : ZoomCkpt), WordsKept dataWord t (t.restoreSlot k c) := fun t k c => by
    unfold State.restoreSlot
    dsimp only
    split
    · exact (WordsKept.of_regs (State.setZslot_regs ..)).trans (State.fault_dataWord _ _ _ _ _)
    · exact .of_regs (State.setZslot_regs ..)
  unfold State.restoreSlots
  extract_lets t
  have ht : WordsKept dataWord s t := .forN (fun u k _ => by
    split
    · split
      · exact hslot u k _
      · exact .refl u
    · exact .refl u) (.refl s)
  split
  · exact ht.flag (.inr (.inr (by decide)))
  · exact ht

end Sys2Proof.Machine

namespace Sys2Proof.Machine

variable (s : State)

/-! ### Sessions and flows of a warm reset (R154 to R156) -/

/-- One session of `detachAll`. -/
def State.sessionDetached (s : State) (n : Nat) : State :=
  let st := s.rd .VSN_SSTAT_STATE n
  if st = ssFree then s
  else
    let s := s.setSession n { s.session n with warmSince := true }
    if st = ssDetached then s else (s.wr .VSN_SSTAT_STATE n ssDetached).sessionEvent n 5 0

theorem State.detachAll_eq : s.detachAll = forN 256 State.sessionDetached s := rfl

theorem sideWord_of_sstat (n : Nat) : sideWord (0x402000 + 0x40 * n) := .inr (.inr (by omega))

theorem State.sessionDetached_effect (m : Nat) :
    (∀ n, (s.sessionDetached m).rd .VSN_SSTAT_STATE n =
      if n = m ∧ s.rd .VSN_SSTAT_STATE m ≠ ssFree then ssDetached else s.rd .VSN_SSTAT_STATE n) ∧
    (∀ n, ((s.sessionDetached m).session n).warmSince =
      if n = m ∧ s.rd .VSN_SSTAT_STATE m ≠ ssFree then true else (s.session n).warmSince) ∧
    WordsKept sideWord s (s.sessionDetached m) := by
  unfold State.sessionDetached
  extract_lets st x t
  by_cases hfree : st = ssFree
  · rw [if_pos hfree]
    exact ⟨fun n => by rw [if_neg fun h => h.2 hfree], fun n => by rw [if_neg fun h => h.2 hfree], .refl s⟩
  · rw [if_neg hfree]
    have hsame : ∀ n, t.rd .VSN_SSTAT_STATE n = s.rd .VSN_SSTAT_STATE n := fun n => s.rd_setSession _ _ _ _
    have hwarm : ∀ n, (t.session n).warmSince = if n = m ∧ s.rd .VSN_SSTAT_STATE m ≠ ssFree then true else (s.session n).warmSince := fun n => by
      by_cases hn : n = m
      · rw [if_pos ⟨hn, hfree⟩, hn, State.session_setSession_same]
      · rw [if_neg fun h => hn h.1, State.session_setSession_other _ hn]
    have hwords : WordsKept sideWord s t := .of_regs (State.setSession_regs ..)
    clear_value t
    by_cases hdet : st = ssDetached
    · rw [if_pos hdet]
      refine ⟨fun n => ?_, hwarm, hwords⟩
      by_cases hn : n = m
      · rw [if_pos ⟨hn, hfree⟩, hsame, hn]
        exact hdet
      · rw [if_neg fun h => hn h.1, hsame]
    · rw [if_neg hdet]
      have hev := (t.wr .VSN_SSTAT_STATE m ssDetached).sessionEvent_aside m 5 0
      refine ⟨fun n => ?_, fun n => ?_, ?_⟩
      · rw [hev.calm (by decide)]
        by_cases hn : n = m
        · rw [if_pos ⟨hn, hfree⟩, hn, State.rd_wr_same _ _ _ _ (by decide)]
          rfl
        · rw [if_neg fun h => hn h.1, t.rd_wr_other _ _ _ _ _ (.inl _), hsame]
          simp only [Fld.at, Fld.VSN_SSTAT_STATE]; omega
      · rw [hev.session, State.session_of_sess (State.wr_sess ..), hwarm]
      · exact (hwords.trans ((WordsKept.refl t).wr (f := .VSN_SSTAT_STATE) (sideWord_of_sstat m))).trans ((State.event_words _ _ _ _ _ _).mono fun _ => .inl)

theorem State.sessionsDetached_effect (l : List Nat) :
    (∀ n, (l.foldl State.sessionDetached s).rd .VSN_SSTAT_STATE n =
      if n ∈ l ∧ s.rd .VSN_SSTAT_STATE n ≠ ssFree then ssDetached else s.rd .VSN_SSTAT_STATE n) ∧
    (∀ n, ((l.foldl State.sessionDetached s).session n).warmSince =
      if n ∈ l ∧ s.rd .VSN_SSTAT_STATE n ≠ ssFree then true else (s.session n).warmSince) ∧
    WordsKept sideWord s (l.foldl State.sessionDetached s) := by
  induction l generalizing s with
  | nil => exact ⟨fun n => by simp, fun n => by simp, .refl s⟩
  | cons m r ih =>
    obtain ⟨hst, hwarm, hwords⟩ := s.sessionDetached_effect m
    obtain ⟨ihst, ihwarm, ihwords⟩ := ih (s.sessionDetached m)
    have hdet : ssDetached ≠ ssFree := by decide
    refine ⟨fun n => ?_, fun n => ?_, hwords.trans ihwords⟩
    · rw [List.foldl_cons, ihst, hst]
      by_cases hn : n = m
      · subst hn
        by_cases hf : s.rd .VSN_SSTAT_STATE n = ssFree <;> simp [hf, hdet]
      · simp [hn]
    · rw [List.foldl_cons, ihwarm, hst, hwarm]
      by_cases hn : n = m
      · subst hn
        by_cases hf : s.rd .VSN_SSTAT_STATE n = ssFree <;> simp [hf, hdet]
      · simp [hn]

/-- Every session but a FREE one is DETACHED, and remembers the reset. -/
theorem State.detachAll_effect :
    (∀ n : SessionId, s.detachAll.rd .VSN_SSTAT_STATE n.val = if s.rd .VSN_SSTAT_STATE n.val = ssFree then ssFree else ssDetached) ∧
    (∀ n : SessionId, s.rd .VSN_SSTAT_STATE n.val ≠ ssFree → (s.detachAll.session n.val).warmSince = true) ∧
    WordsKept sideWord s s.detachAll := by
  obtain ⟨hst, hwarm, hwords⟩ := s.sessionsDetached_effect (List.range 256)
  have hin : ∀ n : SessionId, n.val ∈ List.range 256 := fun n => List.mem_range.mpr n.isLt
  rw [s.detachAll_eq]
  refine ⟨fun n => (hst n.val).trans ?_, fun n hn => (hwarm n.val).trans (if_pos ⟨hin n, hn⟩), hwords⟩
  by_cases hf : s.rd .VSN_SSTAT_STATE n.val = ssFree
  · rw [if_neg fun h => h.2 hf, if_pos hf, hf]
  · rw [if_pos ⟨hin n, hf⟩, if_neg hf]

/-- Sessions stand, and of the registers all before the link layers' and the states of sessions. -/
structure SessKept (s t : State) : Prop where
  sess : t.sess = s.sess
  sstat : ∀ n : SessionId, t.rd .VSN_SSTAT_STATE n.val = s.rd .VSN_SSTAT_STATE n.val
  words : WordsKept sideWord s t

section
variable {s} {t u : State}

theorem SessKept.refl (s : State) : SessKept s s := ⟨rfl, fun _ => rfl, .refl s⟩

theorem SessKept.trans (h : SessKept s t) (k : SessKept t u) : SessKept s u :=
  ⟨k.sess.trans h.sess, fun n => (k.sstat n).trans (h.sstat n), h.words.trans k.words⟩

theorem SessKept.foldl {α : Type} {g : State → α → State} (l : List α) (hg : ∀ t, ∀ x ∈ l, SessKept t (g t x)) (s : State) :
    SessKept s (l.foldl g s) := by
  induction l generalizing s with
  | nil => exact .refl s
  | cons x r ih => exact (hg s x (List.mem_cons_self ..)).trans (ih (fun t y hy => hg t y (List.mem_cons_of_mem _ hy)) _)

/-- Sessions stand, and the registers but those of flows and link layers. -/
theorem SessKept.of_words {W : Nat → Prop} (hsess : t.sess = s.sess) (hw : WordsKept W s t) (hside : ∀ o, W o → sideWord o)
    (hsstat : ∀ n < 256, ¬ W (0x402000 + 0x40 * n)) : SessKept s t :=
  ⟨hsess, fun n => State.rd_of_word _ _ (hw.word _ (hsstat n.val n.isLt)), hw.mono hside⟩

end

theorem sideWord_of_flowWord {f o : Nat} (h : flowWord f o) : sideWord o := by
  rcases h with he | ⟨hlo, -⟩ | ⟨hlo, -⟩ | ⟨hlo, -⟩
  · exact .inl he
  all_goals exact .inr (.inr (by omega))

/-- One flow of `dropAllHeld`. -/
def State.heldEmptied (s : State) (f : Nat) : State :=
  (s.dropHeld f).setNext f ((s.dropHeld f).rd .VSN_FNEXT_NEXT f) ((s.dropHeld f).flow f).exp ((s.dropHeld f).rd .VSN_FNEXT_NEXT f)

theorem State.dropAllHeld_eq : s.dropAllHeld = s.flowList.foldl State.heldEmptied s := rfl

theorem State.heldEmptied_kept (f : Nat) : SessKept s (s.heldEmptied f) := by
  have hdrop := s.dropHeld_aside f
  have hkept : SessKept s (s.dropHeld f) := by
    refine .of_words (W := flowWord f) (hdrop.sess.trans (State.setFlow_sess ..)) ⟨fun o ho => ?_⟩ (fun o => sideWord_of_flowWord)
      fun n hn => not_flowWord (.inr (by omega))
    exact (hdrop.word o ho).trans (State.word_of_regs (State.setFlow_regs ..) o)
  unfold State.heldEmptied
  generalize s.dropHeld f = t at *
  refine hkept.trans (.of_words (W := (· = 0x410004 + 0x10 * f)) ?_ ?_ (fun o ho => .inr (.inr (by omega))) fun n hn => by omega)
  · unfold State.setNext
    exact (State.wr_sess ..).trans (State.setFlow_sess ..)
  · unfold State.setNext
    dsimp only
    exact WordsKept.wr (.of_regs (State.setFlow_regs ..)) rfl

theorem State.dropAllHeld_kept : SessKept s s.dropAllHeld := by
  rw [s.dropAllHeld_eq]
  exact SessKept.foldl _ (fun t f _ => t.heldEmptied_kept f) s

theorem State.startLink_kept {b : Nat} (hb : b < 5) : SessKept s (s.startLink b) := by
  have hw : Within { regs := true, out := true, links := true } s (s.startLink b) := (Within.refl _ s).startLink rfl rfl rfl
  obtain ⟨hsess, -⟩ := hw.sess.resolve_left (by decide)
  refine .of_words (W := linkPage) hsess ?_ (fun o ho => .inr (.inr (by have := ho.1; omega))) fun n hn h => by have := h.2; omega
  have hpage : ∀ o, o < 16 → linkPage (0x401000 + o + 0x100 * b) := fun o ho => ⟨by omega, by omega⟩
  unfold State.startLink
  extract_lets k t u v
  have ht : WordsKept linkPage s t := .of_regs (State.setLink_regs ..)
  have hu : WordsKept linkPage s u := by
    unfold u
    refine WordsKept.wr (WordsKept.wr (WordsKept.wr ht ?_) ?_) ?_
    exacts [hpage 0 (by decide), hpage 0 (by decide), hpage 0 (by decide)]
  have hv : WordsKept linkPage s v := by
    unfold v
    refine WordsKept.wr (WordsKept.wr hu ?_) ?_
    exacts [hpage 8 (by decide), hpage 4 (by decide)]
  clear_value v
  exact hv.trans (.of_regs (((Within.refl { out := true, links := true } v).sendCtl rfl rfl).regs.resolve_left (by decide)))

theorem State.startLinks_kept : SessKept s s.startLinks := by
  unfold State.startLinks
  refine SessKept.foldl _ (fun t b hb => ?_) s
  split
  · exact t.startLink_kept (List.mem_range.mp hb)
  · exact .refl t

theorem State.resends_kept : SessKept s (forN 3 State.resendHead s) := by
  have hw : Within { outp := true } s (forN 3 State.resendHead s) := Within.forN (fun t p => (Within.refl _ t).resendHead rfl) (.refl _ s)
  exact .of_words (W := fun _ => False) (hw.sess.resolve_left (by decide)).1 (.of_regs (hw.regs.resolve_left (by decide)))
    (fun _ => False.elim) fun _ _ => id

end Sys2Proof.Machine

namespace Sys2Proof.Machine

variable (s : State)

/-! ### From self-refresh exit on (R413, R513) -/

theorem State.serveHeld_idle {s : State} (h : s.fab.held = []) : s.serveHeld = s := by
  have hfab : ({ s.fab with held := [] } : Fab) = s.fab := by rw [← h]
  unfold State.serveHeld
  rw [h, hfab]
  rfl

/-- Self-refresh is left. -/
def State.refreshLeft (s : State) : State := { s with modl := { s.modl with resetDue := none } }

theorem State.leaveSelfRefresh_idle {s : State} (h : s.fab.held = []) : s.leaveSelfRefresh = s.refreshLeft := State.serveHeld_idle h

/-- The data path is built up again. -/
def State.rebuilt (s : State) : State :=
  forN 3 State.resendHead s.readSystem.restoreSlots.recomputeAll.detachAll.dropAllHeld.startLinks

/-- The mask of what builds the data path up again. -/
def rebuildMask : Mask :=
  { regs := true, out := true, dealer := true, faults := true, links := true, sess := true, deck := true, engs := true, beams := true
    outp := true, hbm := true }

theorem State.rebuilt_within : Within rebuildMask s s.rebuilt :=
  Within.forN (fun t _ => (Within.refl _ t).resendHead rfl)
    (((((((Within.refl rebuildMask s).readSystem rfl rfl).restoreSlots rfl rfl rfl).recomputeAll rfl rfl rfl rfl rfl rfl rfl).detachAll
      rfl rfl rfl rfl rfl).dropAllHeld rfl rfl rfl rfl).startLinks rfl rfl rfl)

/-- What the data path's second start leaves. -/
structure Rebuilt (s t : State) : Prop where
  words : WordsKept sideWord s t
  sstat : ∀ n : SessionId, t.rd .VSN_SSTAT_STATE n.val = if s.rd .VSN_SSTAT_STATE n.val = ssFree then ssFree else ssDetached
  warm : ∀ n : SessionId, s.rd .VSN_SSTAT_STATE n.val ≠ ssFree → (t.session n.val).warmSince = true
  core : ∀ e, t.core e = s.core e
  mem : t.hbm.mem = s.hbm.mem

theorem sideWord_of_dataWord {o : Nat} (h : dataWord o) : sideWord o := by
  rcases h with he | hf | hlo
  · exact .inl he
  · exact .inr (.inl hf)
  · exact .inr (.inr (by omega))

theorem not_dataWord_sstat {n : Nat} (hn : n < 256) : ¬ dataWord (0x402000 + 0x40 * n) := by
  have hev := eventWord_of_session (o := 0x402000 + 0x40 * n) (by omega) (by omega)
  rintro (he | hf | hlo)
  · exact absurd (hev.symm.trans he) (by decide)
  · simp only [faultWord, Bool.or_eq_true, beq_iff_eq] at hf; omega
  · omega

theorem State.rebuilt_effect : Rebuilt s s.rebuilt := by
  have hread : ReadAgain s s.readSystem.restoreSlots.recomputeAll :=
    (s.readSystem_again.trans (State.restoreSlots_again _)).trans (State.recomputeAll_again _)
  unfold State.rebuilt
  generalize s.readSystem.restoreSlots.recomputeAll = t at *
  obtain ⟨hst, hwarm, hwords⟩ := t.detachAll_effect
  have hdet : Within { regs := true, out := true, dealer := true, faults := true, sess := true } t t.detachAll :=
    (Within.refl _ t).detachAll rfl rfl rfl rfl rfl
  have hcore : ∀ e, t.detachAll.core e = t.core e := core_of_engs (hdet.engs.resolve_left (by decide))
  have hhbm := hdet.hbm.resolve_left (by decide)
  generalize t.detachAll = u at *
  have hkept : SessKept u (forN 3 State.resendHead u.dropAllHeld.startLinks) :=
    (u.dropAllHeld_kept.trans (State.startLinks_kept _)).trans (State.resends_kept _)
  have hw : Within { regs := true, out := true, links := true, sess := true, outp := true } u (forN 3 State.resendHead u.dropAllHeld.startLinks) :=
    Within.forN (fun t _ => (Within.refl _ t).resendHead rfl) (((Within.refl _ u).dropAllHeld rfl rfl rfl rfl).startLinks rfl rfl rfl)
  generalize forN 3 State.resendHead u.dropAllHeld.startLinks = v at *
  have hstate : ∀ n : SessionId, t.rd .VSN_SSTAT_STATE n.val = s.rd .VSN_SSTAT_STATE n.val := fun n =>
    hread.words.rd (not_dataWord_sstat n.isLt)
  refine ⟨((hread.words.mono fun _ => sideWord_of_dataWord).trans hwords).trans hkept.words, fun n => ?_, fun n hn => ?_, fun e => ?_, ?_⟩
  · rw [hkept.sstat, hst, hstate]
  · rw [State.session_of_sess hkept.sess]
    exact hwarm n (by rwa [hstate])
  · rw [core_of_engs (hw.engs.resolve_left (by decide)), hcore, hread.core]
  · rw [hw.hbm.resolve_left (by decide), hhbm, hread.mem]

/-! ### The banks and the engines (R419, R475) -/

/-- Every bank is the management core's. -/
def State.banksTaken (s : State) : State := forN 64 (fun s b => s.wr .SPD_OWN_OWNER b 1) s

/-- The registers that say who owns a bank. -/
def ownerWord (o : Nat) : Prop := 0x60100 ≤ o ∧ o < 0x60200

theorem State.banksTaken_effect : WordsKept ownerWord s s.banksTaken ∧ ∀ b : Fin 64, s.banksTaken.ownerOf b.val = 1 := by
  have hin : ∀ b, b < 64 → ownerWord (0x60100 + 0x4 * b) := fun b hb => ⟨by omega, by omega⟩
  refine ⟨.forN (fun t b hb => (WordsKept.refl t).wr (f := .SPD_OWN_OWNER) (hin b hb)) (.refl s), fun b => ?_⟩
  have hall : ∀ n, ∀ b, b < n → (forN n (fun s b => s.wr .SPD_OWN_OWNER b 1) s).rd .SPD_OWN_OWNER b = 1 := fun n => by
    induction n with
    | zero => exact fun b hb => absurd hb (Nat.not_lt_zero b)
    | succ n ih =>
      intro b hb
      rw [forN_succ]
      by_cases hn : b = n
      · rw [hn, State.rd_wr_same _ _ _ _ (by decide)]; rfl
      · rw [State.rd_wr_other _ _ _ _ _ _ (.inl _), ih b (by omega)]
        simp only [Fld.at, Fld.SPD_OWN_OWNER]; omega
  exact hall 64 b.val b.isLt

/-- Every engine's core, banks and input are cleared, and nothing waits for a batch. -/
def State.enginesCleared (s : State) : State :=
  let s := forN 96 State.clearEngine s
  { s with outp := { s.outp with batch := none } }

theorem State.clearEngine_core (e k : Nat) : (s.clearEngine e).core k = if k = e then {} else s.core k := by
  unfold State.clearEngine State.dropWork
  dsimp only
  by_cases hk : k = e
  · rw [if_pos hk, hk, State.core, State.eng, State.setEng, tget_tset_same, State.eng, State.setEng, tget_tset_same]
    rfl
  · rw [if_neg hk, State.core, State.eng, State.setEng, tget_tset_other _ _ _ _ hk, State.setEng, tget_tset_other _ _ _ _ hk]
    rfl

theorem State.enginesCleared_core (e : EngineId) : s.enginesCleared.core e.val = {} := by
  have hall : ∀ n, ∀ k, k < n → (forN n State.clearEngine s).core k = {} := fun n => by
    induction n with
    | zero => exact fun k hk => absurd hk (Nat.not_lt_zero k)
    | succ n ih =>
      intro k hk
      rw [forN_succ, State.clearEngine_core]
      by_cases hn : k = n
      · rw [if_pos hn]
      · rw [if_neg hn, ih k (by omega)]
  have h := hall 96 e.val e.isLt
  unfold State.enginesCleared
  dsimp only
  generalize forN 96 State.clearEngine s = t at *
  exact h

theorem State.enginesCleared_within : Within { engs := true, outp := true } s s.enginesCleared := by
  have h : Within { engs := true, outp := true } s (forN 96 State.clearEngine s) :=
    Within.forN (fun t e => (Within.refl _ t).clearEngine rfl) (.refl _ s)
  unfold State.enginesCleared
  dsimp only
  generalize forN 96 State.clearEngine s = t at *
  exact h.upd (outp := { t.outp with batch := none }) (h_outp := .inl rfl)

end Sys2Proof.Machine

namespace Sys2Proof.Machine

variable (s : State)

/-! ### The boot ROM (R449, R500, R513, R516) -/

section
variable {k o : Nat} {here : Nat → Bool}

/-- Cells copied from `k` on over a memory that holds none of their places. -/
theorem tget_copied (h : here o = true) {keep : Tbl Byte} (hkeep : tget 0 keep o = 0) (l : Tbl Byte) :
    tget 0 ((l.filter (fun c => decide (k ≤ c.1) && here (c.1 - k))).foldr (fun c t => tset 0 t (c.1 - k) c.2) keep) o = tget 0 l (k + o) := by
  induction l with
  | nil => exact hkeep
  | cons c r ih =>
    obtain ⟨a, v⟩ := c
    by_cases ha : a = k + o
    · have hback : a - k = o := by omega
      have hin : (decide (k ≤ a) && here o) = true := by simp [h, ha]
      have hhead : tget 0 ((a, v) :: r) (k + o) = v := by simp [tget, ha]
      simp only [List.filter_cons, hback, hin, if_true, List.foldr_cons, tget_tset_same, hhead]
    · have htail : tget 0 ((a, v) :: r) (k + o) = tget 0 r (k + o) := by simp [tget, ha]
      rw [htail]
      cases hin : (decide (k ≤ a) && here (a - k)) with
      | true =>
        have hne : o ≠ a - k := by
          have hle : k ≤ a := by
            simp only [Bool.and_eq_true, decide_eq_true_eq] at hin
            exact hin.1
          omega
        simp only [List.filter_cons, hin, if_true, List.foldr_cons, tget_tset_other _ _ _ _ hne, ih]
      | false => simp only [List.filter_cons, hin, Bool.false_eq_true, if_false, ih]

/-- Places that are not copied stand. -/
theorem tget_not_copied (h : here o = false) (keep l : Tbl Byte) :
    tget 0 ((l.filter (fun c => decide (k ≤ c.1) && here (c.1 - k))).foldr (fun c t => tset 0 t (c.1 - k) c.2) keep) o = tget 0 keep o := by
  induction l with
  | nil => rfl
  | cons c r ih =>
    cases hin : (decide (k ≤ c.1) && here (c.1 - k)) with
    | true =>
      have hne : o ≠ c.1 - k := by
        rintro rfl
        simp [h] at hin
      simp only [List.filter_cons, hin, if_true, List.foldr_cons, tget_tset_other _ _ _ _ hne, ih]
    | false => simp only [List.filter_cons, hin, Bool.false_eq_true, if_false, ih]

end

/-- Where the working SRAM takes the image: the first MiB, where its banks are on. -/
def State.imageHere (s : State) (o : Nat) : Bool := decide (o < 0x100000) && bitOf (s.rd .SPD_STAT_ON) (bankOf o / 4)

theorem State.copyImage_mem (i o : Nat) :
    tget 0 (s.copyImage i).spd.mem o = if s.imageHere o = true then tget 0 s.modl.flash (2 ^ 32 * i + o) else tget 0 s.spd.mem o := by
  have heq : (s.copyImage i).spd.mem = (s.modl.flash.filter (fun c => decide (2 ^ 32 * i ≤ c.1) && s.imageHere (c.1 - 2 ^ 32 * i))).foldr
      (fun c t => tset 0 t (c.1 - 2 ^ 32 * i) c.2) (s.spd.mem.filter (fun c => !s.imageHere c.1)) := rfl
  rw [heq]
  by_cases h : s.imageHere o = true
  · rw [if_pos h, tget_copied h (tget_filter_none 0 _ fun v => by simp [h])]
  · rw [if_neg h, tget_not_copied (by simpa using h), tget_filter 0 _ fun v => by simp [h]]

/-- A marked image other than the running one is tried (R500). -/
def State.triesOther (s : State) : Bool := decide (s.rd .MOD_STRAP_BOOT = 0 ∧ s.rd .MOD_BOOT_MARKED ≠ s.rd .MOD_BOOT_SLOT)

/-- And does not verify. -/
def State.fallsBack (s : State) : Bool := s.triesOther && s.freeVal.getLsbD 0

/-- The image that the boot ROM takes. -/
def State.imageTaken (s : State) : Nat := if s.triesOther && !s.fallsBack then s.rd .MOD_BOOT_MARKED else s.rd .MOD_BOOT_SLOT

/-- The image is shown before it is copied. -/
def State.imageShown (s : State) : State :=
  ((((if s.triesOther then s.drawn else s).wr .MOD_BOOT_SLOT 0 s.imageTaken).wr .MOD_BOOT_FALLBACK 0 (if s.fallsBack then 1 else 0)).whenS
    s.fallsBack (fun s => s.fault srcMgmt 3 1))

theorem State.warmBoot_eq (h : s.on .MOD_BOOT_UARTBOOT = false) : s.warmBoot = s.imageShown.copyImage s.imageTaken := by
  unfold State.warmBoot
  rw [if_neg (by simp [h])]
  rfl

/-- The registers that the boot ROM writes. -/
def bootWord (o : Nat) : Prop := o = 0xc ∨ faultWord o = true

theorem State.imageTaken_lt : s.imageTaken < 2 := by
  unfold State.imageTaken
  split
  · exact s.rd_lt .MOD_BOOT_MARKED 0
  · exact s.rd_lt .MOD_BOOT_SLOT 0

theorem State.imageShown_effect :
    s.imageShown.rd .MOD_BOOT_SLOT = s.imageTaken ∧ s.imageShown.on .MOD_BOOT_FALLBACK = s.fallsBack ∧ WordsKept bootWord s s.imageShown ∧
    s.imageShown.spd = s.spd ∧ s.imageShown.modl.flash = s.modl.flash := by
  have hi := s.imageTaken_lt
  unfold State.imageShown
  generalize s.imageTaken = i at *
  generalize s.fallsBack = fb
  have ht : (if s.triesOther then s.drawn else s).regs = s.regs ∧ (if s.triesOther then s.drawn else s).spd = s.spd ∧
      (if s.triesOther then s.drawn else s).modl.flash = s.modl.flash := by split <;> exact ⟨rfl, rfl, rfl⟩
  generalize (if s.triesOther then s.drawn else s) = t at *
  obtain ⟨hregs, hspd, hflash⟩ := ht
  have hu : ((t.wr .MOD_BOOT_SLOT 0 i).wr .MOD_BOOT_FALLBACK 0 (if fb then 1 else 0)).rd .MOD_BOOT_SLOT = i ∧
      ((t.wr .MOD_BOOT_SLOT 0 i).wr .MOD_BOOT_FALLBACK 0 (if fb then 1 else 0)).on .MOD_BOOT_FALLBACK = fb ∧
      WordsKept bootWord s ((t.wr .MOD_BOOT_SLOT 0 i).wr .MOD_BOOT_FALLBACK 0 (if fb then 1 else 0)) := by
    refine ⟨?_, ?_, ?_⟩
    · rw [State.rd_wr_apart _ (by decide), State.rd_wr_same _ _ _ _ (by decide)]
      exact Nat.mod_eq_of_lt hi
    · rw [State.on, State.rd_wr_same _ _ _ _ (by decide)]
      cases fb <;> rfl
    · exact (WordsKept.wr (.of_regs hregs) (.inl rfl)).wr (.inl rfl)
  have hspd' := (State.wr_spd (t.wr .MOD_BOOT_SLOT 0 i) .MOD_BOOT_FALLBACK 0 (if fb then 1 else 0)).trans ((t.wr_spd _ _ _).trans hspd)
  have hmodl : ((t.wr .MOD_BOOT_SLOT 0 i).wr .MOD_BOOT_FALLBACK 0 (if fb then 1 else 0)).modl = t.modl :=
    (State.wr_modl ..).trans (State.wr_modl ..)
  generalize (t.wr .MOD_BOOT_SLOT 0 i).wr .MOD_BOOT_FALLBACK 0 (if fb then 1 else 0) = u at *
  obtain ⟨hslot, hfall, hwords⟩ := hu
  unfold State.whenS
  split
  · have hf : Within { regs := true, faults := true } u (u.fault srcMgmt 3 1) := (Within.refl _ u).fault rfl rfl
    have hw := u.fault_words srcMgmt 3 1 0
    refine ⟨(hw.rd (by decide)).trans hslot, (hw.on (by decide)).trans hfall, hwords.trans (hw.mono fun _ => .inr),
      (hf.spd.resolve_left (by decide)).trans hspd', ?_⟩
    rw [hf.modl_eq rfl rfl, hmodl, hflash]
  · exact ⟨hslot, hfall, hwords, hspd', by rw [hmodl, hflash]⟩

/-- What the boot ROM of a warm reset leaves (R449, R500, R516). -/
structure Booted (s t : State) : Prop where
  slot : t.rd .MOD_BOOT_SLOT = s.imageTaken
  fallback : t.on .MOD_BOOT_FALLBACK = s.fallsBack
  mem : ∀ o, tget 0 t.spd.mem o = if s.imageHere o = true then tget 0 s.modl.flash (2 ^ 32 * s.imageTaken + o) else tget 0 s.spd.mem o

theorem State.warmBoot_booted (h : s.on .MOD_BOOT_UARTBOOT = false) : Booted s s.warmBoot := by
  obtain ⟨hslot, hfall, hwords, hspd, hflash⟩ := s.imageShown_effect
  rw [s.warmBoot_eq h]
  have hon : s.imageShown.rd .SPD_STAT_ON = s.rd .SPD_STAT_ON := hwords.rd (by simp only [bootWord, Fld.at, Fld.SPD_STAT_ON]; decide)
  refine ⟨hslot, hfall, fun o => ?_⟩
  have hhere : s.imageShown.imageHere o = s.imageHere o := by rw [State.imageHere, State.imageHere, hon]
  rw [State.copyImage_mem, hhere, hflash, hspd]

theorem State.warmBoot_words : WordsKept bootWord s s.warmBoot := by
  by_cases h : s.on .MOD_BOOT_UARTBOOT = true
  · rw [State.warmBoot, if_pos h]
    exact .refl s
  · obtain ⟨-, -, hwords, -, -⟩ := s.imageShown_effect
    rw [s.warmBoot_eq (by simpa using h)]
    exact hwords.trans (.of_regs (((Within.refl { spd := true } s.imageShown).copyImage rfl).regs.resolve_left (by decide)))

end Sys2Proof.Machine

namespace Sys2Proof.Machine

variable (s : State)

/-! ### A warm reset runs to its end (R154, R220, R413, R513) -/

/-- Domains have power again, and the boot ROM has run. -/
def State.rebooted (s : State) : State := s.repower.whenS s.repower.bootsFirmware (fun s => s.warmBoot.wr .FAB_CTL_REMAP 0 1)

/-- The management core runs firmware, or does not. -/
def State.withFw (s : State) (b : Bool) : State := { s with modl := { s.modl with fw := b } }

theorem State.finishWarm_eq :
    s.finishWarm = (s.rebooted.banksTaken.enginesCleared.leaveSelfRefresh.rebuilt).withFw s.repower.bootsFirmware := rfl

/-- What a warm reset's boot looks at. -/
structure SameBoot (s t : State) : Prop where
  boots : t.bootsFirmware = s.bootsFirmware
  strap : t.rd .MOD_STRAP_BOOT = s.rd .MOD_STRAP_BOOT
  boot : t.word 0xc = s.word 0xc
  banks : t.rd .SPD_STAT_ON = s.rd .SPD_STAT_ON
  sstat : ∀ n : SessionId, t.rd .VSN_SSTAT_STATE n.val = s.rd .VSN_SSTAT_STATE n.val
  flash : t.modl.flash = s.modl.flash
  spd : t.spd = s.spd

/-- The image that a warm reset ran, and where it stands (R449, R500, R516). -/
def ResetBooted (s t : State) : Prop :=
  (s.on .MOD_BOOT_UARTBOOT = true ∨ s.bootsFirmware = false → t.spd = s.spd ∧ t.rd .MOD_BOOT_SLOT = s.rd .MOD_BOOT_SLOT) ∧
  (s.on .MOD_BOOT_UARTBOOT = false → s.bootsFirmware = true →
    (s.rd .MOD_STRAP_BOOT ≠ 0 ∨ s.rd .MOD_BOOT_MARKED = s.rd .MOD_BOOT_SLOT →
      t.rd .MOD_BOOT_SLOT = s.rd .MOD_BOOT_SLOT ∧ t.on .MOD_BOOT_FALLBACK = false) ∧
    (s.rd .MOD_STRAP_BOOT = 0 → t.rd .MOD_BOOT_SLOT =
      if t.on .MOD_BOOT_FALLBACK then s.rd .MOD_BOOT_SLOT else s.rd .MOD_BOOT_MARKED) ∧
    ∀ o, tget 0 t.spd.mem o = if o < 0x100000 ∧ bitOf (s.rd .SPD_STAT_ON) (bankOf o / 4) = true
      then tget 0 s.modl.flash (2 ^ 32 * t.rd .MOD_BOOT_SLOT + o) else tget 0 s.spd.mem o)

/-- What a warm reset leaves at its end (R154, R419, R475, R513). -/
def ResetFinished (s t : State) : Prop :=
  t.modl.warm = true ∧ t.modl.fw = s.bootsFirmware ∧ t.modl.resetDue = none ∧
  (s.bootsFirmware = true → t.on .FAB_CTL_REMAP = true) ∧
  (∀ b : Fin 64, t.ownerOf b.val = 1) ∧ (∀ e : EngineId, t.core e.val = {}) ∧
  (∀ n : SessionId, t.rd .VSN_SSTAT_STATE n.val = (if s.rd .VSN_SSTAT_STATE n.val = ssFree then ssFree else ssDetached)) ∧
  (∀ n : SessionId, s.rd .VSN_SSTAT_STATE n.val ≠ ssFree → (t.session n.val).warmSince = true)

section
variable {s} {t u : State}

theorem SameBoot.finished (h : SameBoot s t) (k : ResetFinished t u) : ResetFinished s u := by
  obtain ⟨hwarm, hfw, hdue, hremap, howner, hcore, hstate, hsince⟩ := k
  refine ⟨hwarm, by rw [hfw, h.boots], hdue, by rwa [← h.boots], howner, hcore, fun n => by rw [hstate, h.sstat], fun n hn => hsince n ?_⟩
  rwa [h.sstat]

theorem SameBoot.booted (h : SameBoot s t) (k : ResetBooted t u) : ResetBooted s u := by
  have hrd : ∀ g : Fld, g.at 0 = 0xc → t.rd g = s.rd g := fun g hg => State.rd_of_word g 0 (by rw [hg]; exact h.boot)
  have hon : t.on .MOD_BOOT_UARTBOOT = s.on .MOD_BOOT_UARTBOOT := State.on_of_word _ _ h.boot
  unfold ResetBooted at k ⊢
  rwa [h.boots, hon, hrd .MOD_BOOT_SLOT rfl, hrd .MOD_BOOT_MARKED rfl, h.strap, h.banks, h.flash, h.spd] at k

/-- Of the boot's image, the registers and the SRAM. -/
theorem Booted.resetBooted (h : Booted s t) (huart : s.on .MOD_BOOT_UARTBOOT = false) (hboots : s.bootsFirmware = true)
    (hu : u.word 0xc = t.word 0xc) (hspd : u.spd = t.spd) : ResetBooted s u := by
  have hslot : u.rd .MOD_BOOT_SLOT = s.imageTaken := (State.rd_of_word .MOD_BOOT_SLOT 0 hu).trans h.slot
  have hfall : u.on .MOD_BOOT_FALLBACK = s.fallsBack := (State.on_of_word .MOD_BOOT_FALLBACK 0 hu).trans h.fallback
  refine ⟨fun hor => ?_, fun _ _ => ⟨fun hstay => ?_, fun hstrap => ?_, fun o => ?_⟩⟩
  · rcases hor with h1 | h1
    · exact absurd (huart.symm.trans h1) (by decide)
    · exact absurd (h1.symm.trans hboots) (by decide)
  · have hother : s.triesOther = false := decide_eq_false (by tauto)
    rw [hslot, hfall, State.imageTaken, State.fallsBack, hother]
    exact ⟨rfl, rfl⟩
  · rw [hslot, hfall, State.imageTaken]
    cases hfb : s.fallsBack with
    | true => simp
    | false =>
      by_cases hm : s.rd .MOD_BOOT_MARKED = s.rd .MOD_BOOT_SLOT
      · simp [hm]
      · have hother : s.triesOther = true := decide_eq_true ⟨hstrap, hm⟩
        simp [hother]
  · rw [hspd, h.mem, hslot]
    simp only [State.imageHere, Bool.and_eq_true, decide_eq_true_eq]

end

/-- The mask of what the boot of a warm reset changes. -/
def rebootMask : Mask := { regs := true, out := true, dealer := true, faults := true, spd := true, power := true }

theorem State.rebooted_within : Within rebootMask s s.rebooted :=
  Within.whenS (fun t => ((Within.refl rebootMask t).warmBoot rfl rfl rfl rfl rfl).wr rfl) ((Within.refl rebootMask s).repower rfl)

theorem State.repower_same : s.repower.regs = s.regs ∧ s.repower.modl = s.modl ∧ s.repower.spd = s.spd := ⟨rfl, rfl, rfl⟩

theorem State.repower_boots : s.repower.bootsFirmware = s.bootsFirmware := by
  obtain ⟨hregs, hmodl, -⟩ := s.repower_same
  rw [State.bootsFirmware, State.bootsFirmware, hmodl, State.on_of_regs hregs]

theorem State.rebooted_effect :
    WordsKept (fun o => bootWord o ∨ o = 0x40000) s s.rebooted ∧
    (s.bootsFirmware = true → s.rebooted.on .FAB_CTL_REMAP = true) ∧
    (s.bootsFirmware = false → s.rebooted.regs = s.regs) ∧
    (s.on .MOD_BOOT_UARTBOOT = true ∨ s.bootsFirmware = false → s.rebooted.spd = s.spd ∧ s.rebooted.rd .MOD_BOOT_SLOT = s.rd .MOD_BOOT_SLOT) ∧
    (s.on .MOD_BOOT_UARTBOOT = false → s.bootsFirmware = true → Booted s s.rebooted) := by
  obtain ⟨hregs, hmodl, hspd⟩ := s.repower_same
  have hrd : ∀ g : Fld, s.repower.rd g = s.rd g := fun g => State.rd_of_regs hregs g 0
  have huart : s.repower.on .MOD_BOOT_UARTBOOT = s.on .MOD_BOOT_UARTBOOT := State.on_of_regs hregs _ _
  have hsame : ∀ t, Booted s.repower t → Booted s t := fun t h => by
    have hfree : s.repower.freeVal = s.freeVal := rfl
    have hother : s.repower.triesOther = s.triesOther := by simp only [State.triesOther, hrd]
    have hback : s.repower.fallsBack = s.fallsBack := by simp only [State.fallsBack, hother, hfree]
    have htaken : s.repower.imageTaken = s.imageTaken := by simp only [State.imageTaken, hother, hback, hrd]
    have hhere : ∀ o, s.repower.imageHere o = s.imageHere o := fun o => by simp only [State.imageHere, hrd]
    exact ⟨h.slot.trans htaken, h.fallback.trans hback, fun o => by rw [h.mem, hhere, hmodl, htaken, hspd]⟩
  rw [State.rebooted, s.repower_boots]
  generalize s.repower = t at *
  cases hb : s.bootsFirmware with
  | false => exact ⟨.of_regs hregs, fun h => absurd h (by decide), fun _ => hregs, fun _ => ⟨hspd, hrd _⟩, fun _ h => absurd h (by decide)⟩
  | true =>
    have hwords := t.warmBoot_words
    have hremap : ∀ v : State, (v.wr .FAB_CTL_REMAP 0 1).on .FAB_CTL_REMAP = true := fun v => State.on_flag_same v .FAB_CTL_REMAP 0 (by decide) (by decide)
    refine ⟨?_, fun _ => hremap _, fun h => absurd h (by decide), fun h => ?_, fun h _ => hsame _ ?_⟩
    · exact ((WordsKept.of_regs hregs).trans (hwords.mono fun _ => .inl)).wr (.inr rfl)
    · have huart' : t.warmBoot = t := if_pos (by rw [huart]; simpa using h)
      show (t.warmBoot.wr .FAB_CTL_REMAP 0 1).spd = s.spd ∧ (t.warmBoot.wr .FAB_CTL_REMAP 0 1).rd .MOD_BOOT_SLOT = _
      rw [huart', State.wr_spd, State.rd_wr_apart _ (by decide), hrd]
      exact ⟨hspd, rfl⟩
    · have hbooted := t.warmBoot_booted (huart.trans h)
      show Booted t (t.warmBoot.wr .FAB_CTL_REMAP 0 1)
      generalize t.warmBoot = v at *
      exact ⟨(State.rd_wr_apart v (by decide) _ _).trans hbooted.slot,
        (congrArg (· == 1) (State.rd_wr_apart v (by decide) _ _)).trans hbooted.fallback, fun o => by rw [State.wr_spd]; exact hbooted.mem o⟩

end Sys2Proof.Machine

namespace Sys2Proof.Machine

variable (s : State)

/-! ### The end of a warm reset -/

/-- What stages of a warm reset leave: the bytes of memory, plans, the secure bank, time, the ledger, and the registers but those
of `W`. -/
structure Stage (W : Nat → Prop) (s t : State) : Prop where
  words : WordsKept W s t
  mem : t.hbm.mem = s.hbm.mem
  plans : t.plans = s.plans
  lcs : t.lcs = s.lcs
  sec : t.sec = s.sec
  time : t.timeb = s.timeb
  ledger : t.ledger = s.ledger

section
variable {s} {t u : State} {W V : Nat → Prop}

theorem Stage.trans (h : Stage W s t) (k : Stage W t u) : Stage W s u :=
  ⟨h.words.trans k.words, k.mem.trans h.mem, k.plans.trans h.plans, k.lcs.trans h.lcs, k.sec.trans h.sec, k.time.trans h.time,
    k.ledger.trans h.ledger⟩

theorem Stage.mono (h : Stage W s t) (hV : ∀ o, W o → V o) : Stage V s t := { h with words := h.words.mono hV }

theorem Stage.of_within {M : Mask} (h : Within M s t) (hM : M.plans = false ∧ M.sec = false ∧ M.time = false ∧ M.ledger = false)
    (hmem : t.hbm.mem = s.hbm.mem) (hw : WordsKept W s t) : Stage W s t := by
  obtain ⟨hplans, hsec, htime, hledger⟩ := hM
  obtain ⟨klcs, ksec⟩ := h.sec.resolve_left (by simp [hsec])
  obtain ⟨-, ktime⟩ := h.time.resolve_left (by simp [htime])
  exact ⟨hw, hmem, h.plans.resolve_left (by simp [hplans]), klcs, ksec, ktime, h.ledger.resolve_left (by simp [hledger])⟩

end

/-- The registers that the second half of a warm reset writes. -/
def finishWord (o : Nat) : Prop := bootWord o ∨ o = 0x40000 ∨ ownerWord o ∨ sideWord o

theorem not_sideWord_of_low {o : Nat} (h : o < 0x20048 ∨ (0x40041 ≤ o ∧ o < 0x400000) ∨ o = 0x40000) : ¬ sideWord o := by
  simp only [sideWord, eventWord, refuseWord, faultWord, Bool.or_eq_true, Bool.and_eq_true, beq_iff_eq, decide_eq_true_eq]
  omega

theorem State.rebooted_stage : Stage (fun o => bootWord o ∨ o = 0x40000) s s.rebooted := by
  have hw := s.rebooted_within
  exact .of_within hw (by decide) (congrArg Hbm.mem (hw.hbm.resolve_left (by decide))) s.rebooted_effect.1

theorem State.enginesCleared_regs : s.enginesCleared.regs = s.regs := s.enginesCleared_within.regs.resolve_left (by decide)

/-- Banks and engines after the boot ROM. -/
theorem State.taken_stage : Stage ownerWord s s.banksTaken.enginesCleared ∧ s.banksTaken.enginesCleared.fab = s.fab ∧
    s.banksTaken.enginesCleared.modl = s.modl ∧ s.banksTaken.enginesCleared.spd = s.spd := by
  obtain ⟨hwords, -⟩ := s.banksTaken_effect
  have hw : Within { regs := true } s s.banksTaken := Within.forN (fun t b => (Within.refl _ t).wr rfl) (.refl _ s)
  generalize s.banksTaken = t at *
  have hc := t.enginesCleared_within
  have hregs := t.enginesCleared_regs
  generalize t.enginesCleared = u at *
  have hstage : Stage ownerWord s t := .of_within hw (by decide) (congrArg Hbm.mem (hw.hbm.resolve_left (by decide))) hwords
  refine ⟨hstage.trans (.of_within hc (by decide) (congrArg Hbm.mem (hc.hbm.resolve_left (by decide))) (.of_regs hregs)), ?_, ?_, ?_⟩
  · rw [hc.fab.resolve_left (by decide), hw.fab.resolve_left (by decide)]
  · rw [hc.modl_eq rfl rfl, hw.modl_eq rfl rfl]
  · rw [hc.spd.resolve_left (by decide), hw.spd.resolve_left (by decide)]

theorem State.taken_owner (b : Fin 64) : s.banksTaken.enginesCleared.ownerOf b.val = 1 :=
  (State.rd_of_regs s.banksTaken.enginesCleared_regs _ _).trans (s.banksTaken_effect.2 b)

theorem State.refreshLeft_stage : Stage (fun _ => False) s s.refreshLeft := ⟨.of_regs rfl, rfl, rfl, rfl, rfl, rfl, rfl⟩

theorem State.withFw_stage (b : Bool) : Stage (fun _ => False) s (s.withFw b) := ⟨.of_regs rfl, rfl, rfl, rfl, rfl, rfl, rfl⟩

theorem State.rebuilt_stage : Stage sideWord s s.rebuilt :=
  .of_within s.rebuilt_within (by decide) s.rebuilt_effect.mem s.rebuilt_effect.words

/-- Self-refresh is left, and the data path built up again. -/
def State.resumed (s : State) (fw : Bool) : State := s.refreshLeft.rebuilt.withFw fw

theorem Modl.resumed_of {m k : Modl} {b : Bool} (h : k = { m with resetDue := none, hostMem := k.hostMem }) :
    ({ k with fw := b } : Modl) = { m with fw := b, resetDue := none, hostMem := k.hostMem } := by
  rw [h]

theorem State.resumed_modl (fw : Bool) :
    (s.resumed fw).modl = { s.modl with fw := fw, resetDue := none, hostMem := (s.resumed fw).modl.hostMem } := by
  have h := s.refreshLeft.rebuilt_within.modl.resolve_left (by decide)
  exact Modl.resumed_of (m := s.modl) h

theorem State.resumed_stage (fw : Bool) : Stage sideWord s (s.resumed fw) :=
  ((s.refreshLeft_stage.mono fun _ => False.elim).trans s.refreshLeft.rebuilt_stage).trans
    ((State.withFw_stage _ fw).mono fun _ => False.elim)

theorem State.resumed_core (fw : Bool) (e : Nat) : (s.resumed fw).core e = s.core e := s.refreshLeft.rebuilt_effect.core e

theorem State.resumed_sessions (fw : Bool) :
    (∀ n : SessionId, (s.resumed fw).rd .VSN_SSTAT_STATE n.val = if s.rd .VSN_SSTAT_STATE n.val = ssFree then ssFree else ssDetached) ∧
    ∀ n : SessionId, s.rd .VSN_SSTAT_STATE n.val ≠ ssFree → ((s.resumed fw).session n.val).warmSince = true := by
  have hleft : ∀ n : SessionId, s.refreshLeft.rd .VSN_SSTAT_STATE n.val = s.rd .VSN_SSTAT_STATE n.val := fun n => State.rd_of_regs rfl _ _
  have hsstat := s.refreshLeft.rebuilt_effect.sstat
  have hwarm := s.refreshLeft.rebuilt_effect.warm
  unfold State.resumed
  generalize s.refreshLeft.rebuilt = u at *
  have hfw : ∀ n : SessionId, (u.withFw fw).rd .VSN_SSTAT_STATE n.val = u.rd .VSN_SSTAT_STATE n.val := fun n => State.rd_of_regs rfl _ _
  have hsession : ∀ n, (u.withFw fw).session n = u.session n := fun n => State.session_of_sess rfl n
  refine ⟨fun n => by rw [hfw, hsstat, hleft], fun n hn => ?_⟩
  rw [hsession]
  exact hwarm n (by rwa [hleft])

theorem State.resumed_spd (fw : Bool) : (s.resumed fw).spd = s.spd := by
  have h := s.refreshLeft.rebuilt_within.spd.resolve_left (by decide)
  unfold State.resumed
  generalize s.refreshLeft.rebuilt = u at *
  exact h

theorem State.finishWarm_idle {s : State} (h : s.fab.held = []) :
    s.finishWarm = s.rebooted.banksTaken.enginesCleared.resumed s.bootsFirmware := by
  have hidle : s.rebooted.banksTaken.enginesCleared.fab.held = [] := by
    rw [s.rebooted.taken_stage.2.1, s.rebooted_within.fab.resolve_left (by decide), h]
  rw [s.finishWarm_eq, s.repower_boots, State.leaveSelfRefresh_idle hidle, State.resumed]

/-- What the second half of a warm reset leaves as the first half left it. -/
theorem State.finishWarm_stage {s : State} (h : s.fab.held = []) : Stage finishWord s s.finishWarm := by
  rw [State.finishWarm_idle h]
  exact ((s.rebooted_stage.mono fun o ho => ho.elim .inl fun h => .inr (.inl h)).trans
    (s.rebooted.taken_stage.1.mono fun o ho => .inr (.inr (.inl ho)))).trans ((State.resumed_stage _ _).mono fun o ho => .inr (.inr (.inr ho)))

theorem State.finishWarm_modl {s : State} (h : s.fab.held = []) :
    s.finishWarm.modl = { s.modl with fw := s.bootsFirmware, resetDue := none, hostMem := s.finishWarm.modl.hostMem } := by
  have hr := s.rebooted_within.modl.resolve_left (by decide)
  rw [State.finishWarm_idle h, State.resumed_modl, s.rebooted.taken_stage.2.2.1]
  generalize s.rebooted.modl = k at *
  rw [hr]

/-- What the boot ROM has written stands. -/
theorem State.finishWarm_boot {s : State} (h : s.fab.held = []) :
    WordsKept (fun o => ownerWord o ∨ sideWord o) s.rebooted s.finishWarm ∧ s.finishWarm.spd = s.rebooted.spd := by
  rw [State.finishWarm_idle h]
  exact ⟨(s.rebooted.taken_stage.1.words.mono fun _ => .inl).trans ((State.resumed_stage _ _).words.mono fun _ => .inr),
    (State.resumed_spd _ _).trans s.rebooted.taken_stage.2.2.2⟩

theorem not_later {o : Nat} (h : o = 0xc ∨ o = 0x40000) : ¬ (ownerWord o ∨ sideWord o) := by
  rintro (ho | ho)
  · have := ho.1; omega
  · exact not_sideWord_of_low (by omega) ho

theorem State.finishWarm_remap {s : State} (h : s.fab.held = []) :
    (s.bootsFirmware = true → s.finishWarm.on .FAB_CTL_REMAP = true) ∧
    (s.bootsFirmware = false → s.finishWarm.on .FAB_CTL_REMAP = s.on .FAB_CTL_REMAP) := by
  obtain ⟨-, hremap, hregs, -, -⟩ := s.rebooted_effect
  have hon : s.finishWarm.on .FAB_CTL_REMAP = s.rebooted.on .FAB_CTL_REMAP := (State.finishWarm_boot h).1.on (not_later (.inr rfl))
  exact ⟨fun hb => hon.trans (hremap hb), fun hb => hon.trans (State.on_of_regs (hregs hb) _ _)⟩

theorem State.finishWarm_booted {s : State} (h : s.fab.held = []) : ResetBooted s s.finishWarm := by
  obtain ⟨-, -, -, hstay, hbooted⟩ := s.rebooted_effect
  obtain ⟨hwords, hspd⟩ := State.finishWarm_boot h
  have hboot : s.finishWarm.word 0xc = s.rebooted.word 0xc := hwords.word _ (not_later (.inl rfl))
  by_cases hrun : s.on .MOD_BOOT_UARTBOOT = true ∨ s.bootsFirmware = false
  · obtain ⟨h1, h2⟩ := hstay hrun
    refine ⟨fun _ => ⟨hspd.trans h1, (State.rd_of_word .MOD_BOOT_SLOT 0 hboot).trans h2⟩, fun hu hb => ?_⟩
    rcases hrun with h | h
    · exact absurd (hu.symm.trans h) (by decide)
    · exact absurd (h.symm.trans hb) (by decide)
  · simp only [not_or, Bool.not_eq_true, Bool.not_eq_false] at hrun
    obtain ⟨hu, hb⟩ := hrun
    exact (hbooted hu hb).resetBooted hu hb hboot hspd

theorem State.finishWarm_finished {s : State} (h : s.fab.held = []) (hwarm : s.modl.warm = true) : ResetFinished s s.finishWarm := by
  have hmodl := State.finishWarm_modl h
  have hremap := (State.finishWarm_remap h).1
  have hstate : ∀ n : SessionId, s.rebooted.banksTaken.enginesCleared.rd .VSN_SSTAT_STATE n.val = s.rd .VSN_SSTAT_STATE n.val := fun n => by
    rw [s.rebooted.taken_stage.1.words.rd, s.rebooted_effect.1.rd]
    · simp only [bootWord, faultWord, Fld.at, Fld.VSN_SSTAT_STATE, Bool.or_eq_true, beq_iff_eq]; omega
    · simp only [ownerWord, Fld.at, Fld.VSN_SSTAT_STATE]; omega
  have howner : ∀ b : Fin 64, s.finishWarm.ownerOf b.val = 1 := fun b => by
    rw [State.finishWarm_idle h, State.ownerOf, (State.resumed_stage _ _).words.rd]
    · exact s.rebooted.taken_owner b
    · exact not_sideWord_of_low (by simp only [Fld.at, Fld.SPD_OWN_OWNER]; omega)
  have hcore : ∀ e : EngineId, s.finishWarm.core e.val = {} := fun e => by
    rw [State.finishWarm_idle h, State.resumed_core]
    exact State.enginesCleared_core _ e
  refine ⟨by rw [hmodl]; exact hwarm, by rw [hmodl], by rw [hmodl], hremap, howner, hcore, fun n => ?_, fun n hn => ?_⟩
  · rw [State.finishWarm_idle h, (State.resumed_sessions _ _).1, hstate]
  · rw [State.finishWarm_idle h]
    exact (State.resumed_sessions _ _).2 n (by rwa [hstate])

end Sys2Proof.Machine

namespace Sys2Proof.Machine

variable (s : State)

/-! ### WARM_RESET and MRST_N (R485, R511, R512) -/

/-- What a warm reset shows once begun, and keeps (R154, R413, R485, R511). -/
def ResetBegun (s : State) (cause : Nat) (t : State) : Prop :=
  t.rd .MOD_RSTCAUSE_CAUSE = cause % 8 ∧
  t.rd .MOD_RSTCAUSE_WARMS = min (s.rd .MOD_RSTCAUSE_WARMS + 1) (2 ^ 16 - 1) ∧ t.on .MOD_STAT_READY = false ∧
  t.on .FLT_STAT_RESETHOLD = false ∧ t.modl.warm = true ∧ t.hbm.mem = s.hbm.mem ∧ t.plans.slots = s.plans.slots ∧
  t.lcs = s.lcs ∧ t.sec = s.sec ∧ t.modl.flash = s.modl.flash ∧ t.modl.kernels = s.modl.kernels ∧ t.timeb = s.timeb ∧
  (s.on .LGR_STAT_RO = false → s.ledger.regions ≠ [] → t.on .LGR_STAT_SNAPVALID = true ∧
    t.ledger.recs.head?.map (fun r => (r.type, r.payload)) = some (5, s.flowSnapshot))

section
variable {s} {t u : State} {c : Nat}

/-- The module's record of a warm reset under way. -/
theorem WarmBegun.resetBegun (h : WarmBegun c s t) (hwords : ∀ o, o ∈ [0x0, 0x10, 0x20000, 0x70000] → u.word o = t.word o)
    (hwarm : u.modl.warm = true) (hmem : u.hbm.mem = t.hbm.mem) (hplans : u.plans = t.plans) (hlcs : u.lcs = t.lcs) (hsec : u.sec = t.sec)
    (hflash : u.modl.flash = t.modl.flash) (hkernels : u.modl.kernels = t.modl.kernels) (htime : u.timeb = t.timeb)
    (hledger : u.ledger = t.ledger) : ResetBegun s c u := by
  have hrd : ∀ g : Fld, g.at 0 ∈ [0x0, 0x10, 0x20000, 0x70000] → u.rd g = t.rd g := fun g hg => State.rd_of_word g 0 (hwords _ hg)
  have hon : ∀ g : Fld, g.at 0 ∈ [0x0, 0x10, 0x20000, 0x70000] → u.on g = t.on g := fun g hg => State.on_of_word g 0 (hwords _ hg)
  refine ⟨(hrd _ (by decide)).trans h.cause, (hrd _ (by decide)).trans h.warms, (hon _ (by decide)).trans h.ready,
    (hon _ (by decide)).trans h.hold, hwarm, hmem.trans h.mem, ?_, hlcs.trans h.lcs, hsec.trans h.sec, hflash.trans h.flash,
    hkernels.trans h.kernels, htime.trans h.time, fun hro hreg => ?_⟩
  · rw [hplans, h.slots]
  · obtain ⟨hvalid, hrec⟩ := h.snap hro hreg
    exact ⟨(hon _ (by decide)).trans hvalid, by rw [hledger, hrec]⟩

theorem WarmBase.sameBoot (h : WarmBase s t) : SameBoot s t := by
  have hlow : ∀ o, o = 0x4 ∨ o = 0xc ∨ o = 0x60000 → t.word o = s.word o := fun o ho => h.words.word o (by
    simp only [ledgerWord, fabricWord, eventWord, refuseWord, faultWord, Bool.or_eq_true, Bool.and_eq_true, beq_iff_eq, decide_eq_true_eq]
    omega)
  refine ⟨?_, State.rd_of_word _ 0 (hlow _ (.inl rfl)), hlow _ (.inr (.inl rfl)), State.rd_of_word _ 0 (hlow _ (.inr (.inr rfl))),
    fun n => State.rd_of_word _ _ (h.words.word _ ?_), by rw [h.modl], h.spd⟩
  · have hwait : t.modl.waitIn = s.modl.waitIn := by rw [h.modl]
    have hwipe : t.modl.wipeIn = s.modl.wipeIn := by rw [h.modl]
    rw [State.bootsFirmware, State.bootsFirmware, h.testmode, hwait, hwipe]
  · have hev := eventWord_of_session (o := 0x402000 + 0x40 * n.val) (by omega) (by omega)
    have hat : Fld.VSN_SSTAT_STATE.at n.val = 0x402000 + 0x40 * n.val := rfl
    simp only [hat, ledgerWord, fabricWord, hev, faultWord, Bool.or_eq_true, beq_iff_eq, Bool.false_eq_true, false_or]
    omega

theorem WarmBase.warm (h : WarmBase s t) : t.modl.warm = true ∧ t.modl.fw = false :=
  ⟨congrArg Modl.warm h.modl, congrArg Modl.fw h.modl⟩

theorem not_finishWord {o : Nat} (h : o ∈ [0x0, 0x10, 0x20000, 0x70000]) : ¬ finishWord o := by
  have hside : ¬ sideWord o := not_sideWord_of_low (by simp only [List.mem_cons, List.not_mem_nil, or_false] at h; omega)
  simp only [List.mem_cons, List.not_mem_nil, or_false] at h
  simp only [finishWord, bootWord, ownerWord, faultWord, Bool.or_eq_true, beq_iff_eq, hside, or_false]
  omega

/-- A reset that has begun runs to its end. -/
theorem WarmBegun.runs (hbegun : WarmBegun c s t) (hbase : WarmBase s t) (hheld : ∀ x ∈ s.fab.held, x.acc.master.toNat ≠ 0) :
    ResetBegun s c t.finishWarm ∧ ResetFinished s t.finishWarm ∧ ResetBooted s t.finishWarm ∧
    (s.bootsFirmware = false → t.finishWarm.on .FAB_CTL_REMAP = false) := by
  have hidle : t.fab.held = [] := by
    rw [List.eq_nil_iff_forall_not_mem]
    intro x hx
    obtain ⟨hin, h0⟩ := hbase.held x hx
    exact hheld x hin h0
  have hwarm := hbase.warm.1
  have hstage := State.finishWarm_stage hidle
  have hmodl := State.finishWarm_modl hidle
  have hfinished := State.finishWarm_finished hidle hwarm
  have hbooted := State.finishWarm_booted hidle
  have hremap := (State.finishWarm_remap hidle).2
  generalize t.finishWarm = u at *
  have hsame := hbase.sameBoot
  refine ⟨hbegun.resetBegun (fun o ho => hstage.words.word o (not_finishWord ho)) hfinished.1 hstage.mem hstage.plans hstage.lcs hstage.sec ?_ ?_
    hstage.time hstage.ledger, hsame.finished hfinished, hsame.booted hbooted, fun hb => ?_⟩
  · exact (congrArg Modl.flash hmodl).trans rfl
  · exact (congrArg Modl.kernels hmodl).trans rfl
  · rw [hremap (by rw [hsame.boots, hb]), hbase.remap]

theorem warmReset_waits (h : s.modl.resetDue = none ∨ s.modl.running = false ∨ s.rd .PWR_STAT_STATE = 1) : Leads .warmReset s (· = s) := by
  refine ⟨s, ?_, rfl⟩
  show execWarmReset s = _
  unfold execWarmReset
  split
  · rfl
  · next cause hdue =>
    have hor : s.modl.running = false ∨ s.rd .PWR_STAT_STATE = 1 := h.resolve_left (by rw [hdue]; exact Option.some_ne_none _)
    rw [if_pos (by simpa using hor)]

section
variable (hdue : s.modl.resetDue = some c) (hrun : s.modl.running = true) (hpwr : s.rd .PWR_STAT_STATE ≠ 1)
include hdue hrun hpwr

theorem exec_warmReset : exec .warmReset s = .next (if s.modl.warm then (if s.modl.mrst || s.frozen then s else s.finishWarm)
    else (s.beginWarm c).finishWarm) := by
  show execWarmReset s = _
  unfold execWarmReset
  rw [hdue]
  dsimp only
  rw [if_neg (by simp [hrun, hpwr])]

end

end

/-- MRST_N is low. -/
def State.mrstLow (s : State) : State := { s with modl := { s.modl with mrst := true } }

theorem State.mrstLow_suspended : s.mrstLow.suspended = true := Bool.or_true _

/-- MRST_N asserted begins a reset, which it holds at self-refresh entry (R512). -/
theorem WarmBegun.held {s t : State} (hbegun : WarmBegun 3 s t) (hbase : WarmBase s t) (hdue : t.modl.resetDue = some 3) :
    ResetBegun s 3 t.mrstLow ∧ t.mrstLow.spd = s.spd ∧ t.mrstLow.modl.mrst = true ∧ t.mrstLow.modl.fw = false ∧
    t.mrstLow.modl.resetDue = some 3 ∧ t.mrstLow.sess = s.sess ∧ t.mrstLow.suspended = true :=
  ⟨hbegun.resetBegun (fun _ _ => rfl) hbase.warm.1 rfl rfl rfl rfl rfl rfl rfl rfl, hbase.spd, rfl, hbase.warm.2, hdue, hbase.sess,
    t.mrstLow_suspended⟩

/-- MRST_N is high again. -/
def State.mrstHigh (s : State) : State := { s with modl := { s.modl with mrst := false } }

theorem State.mrstHigh_sameBoot : SameBoot s s.mrstHigh :=
  ⟨congrArg (fun b => !b && _ && _) (State.on_of_regs rfl _ _), State.rd_of_regs rfl _ _, rfl, State.rd_of_regs rfl _ _,
    fun _ => State.rd_of_regs rfl _ _, rfl, rfl⟩

theorem mrst_completes {s : State} (hheld : s.fab.held = []) (hwarm : s.modl.warm = true) :
    ResetFinished s s.mrstHigh.finishWarm ∧ ResetBooted s s.mrstHigh.finishWarm ∧ s.mrstHigh.finishWarm.modl.mrst = false := by
  have hidle : s.mrstHigh.fab.held = [] := hheld
  have hmodl := State.finishWarm_modl hidle
  have hsame := s.mrstHigh_sameBoot
  refine ⟨hsame.finished (State.finishWarm_finished hidle hwarm), hsame.booted (State.finishWarm_booted hidle), ?_⟩
  rw [hmodl]
  rfl

/-- Of MRST_N_RELEASED. -/
theorem exec_mrstNReleased {s : State} (hm : s.modl.mrst = true) :
    exec .mrstNReleased s = .next (if s.modl.resetDue.isSome && !s.frozen then s.mrstHigh.finishWarm else s.mrstHigh) := by
  have hfrozen : s.mrstHigh.frozen = s.frozen := congrArg (· != 0) (State.rd_of_regs rfl _ _)
  show execMrstNReleased s = _
  unfold execMrstNReleased
  rw [if_neg (by simp [hm]), ← hfrozen]
  rfl

end Sys2Proof.Machine

namespace Sys2Proof.Machine

variable (s : State)

/-! ### What goes on once a suspension ends (R152, R518) -/

theorem forN_fixed {n : Nat} {f : State → Nat → State} {s : State} (h : ∀ i, i < n → f s i = s) : forN n f s = s := by
  induction n with
  | zero => rfl
  | succ n ih => rw [forN_succ, ih fun i hi => h i (by omega), h n (by omega)]

/-- No close waits: only owed credits are returned. -/
theorem State.resumeAccept_idle {s : State} (h : ∀ n : SessionId, (s.session n.val).closeDue = 0) : s.resumeAccept = s.resumeCredits := by
  unfold State.resumeAccept
  rw [forN_fixed fun n hn => if_pos (h ⟨n, hn⟩)]

theorem State.goOn_idle {s : State} (h : s.outp.todo = []) : s.goOn = s := by
  have hnone : ∀ n, s.writeTodo n = s := fun n => by cases n <;> simp [State.writeTodo, h]
  unfold State.goOn
  split
  · rfl
  · exact hnone _

/-- Credits returned touch the link pages alone, and no part of the module itself. -/
structure CreditsPaid (s t : State) : Prop where
  within : Within { regs := true, out := true, links := true } s t
  words : WordsKept linkPage s t
  modl : t.modl = s.modl

theorem CreditsPaid.refl : CreditsPaid s s := ⟨.refl _ _, .refl _, rfl⟩

theorem CreditsPaid.trans {s t u : State} (h : CreditsPaid s t) (k : CreditsPaid t u) : CreditsPaid s u :=
  ⟨h.within.trans k.within, h.words.trans k.words, k.modl.trans h.modl⟩

theorem State.setLink_paid (b : Nat) (x : Link) : CreditsPaid s (s.setLink b x) := ⟨(Within.refl _ s).setLink rfl, .of_regs rfl, rfl⟩

theorem State.sendCtl_paid (b k : Nat) : CreditsPaid s (s.sendCtl b k) := ⟨(Within.refl _ s).sendCtl rfl rfl, .of_regs rfl, rfl⟩

theorem State.wr_lclimit_paid {b : Nat} (hb : b < 5) (v : Nat) : CreditsPaid s (s.wr .VSN_LCLIMIT_LIMIT b v) := by
  refine ⟨(Within.refl _ s).wr rfl, (WordsKept.refl s).wr ?_, State.wr_modl ..⟩
  simp only [linkPage, Fld.at, Fld.VSN_LCLIMIT_LIMIT]
  omega

theorem State.payCredits_paid {b n : Nat} (hb : b < 5) : CreditsPaid s (s.payCredits b n) := by
  unfold State.payCredits
  dsimp only
  split
  · exact .refl s
  · exact ((s.setLink_paid _ _).trans (State.wr_lclimit_paid _ hb _)).trans (State.sendCtl_paid _ _ _)

theorem State.resumeCredits_paid : CreditsPaid s s.resumeCredits := by
  unfold State.resumeCredits
  split
  · exact .refl s
  · rw [forN]
    have hall : ∀ l : List Nat, (∀ b ∈ l, b < 5) → ∀ t, CreditsPaid t (l.foldl (fun s b => s.payCredits b ((s.link b).owed)) t) := by
      intro l
      induction l with
      | nil => exact fun _ t => .refl t
      | cons b l ih =>
        intro hl t
        exact (t.payCredits_paid (hl b (List.mem_cons_self ..))).trans (ih (fun x hx => hl x (List.mem_cons_of_mem _ hx)) _)
    exact hall _ (fun b hb => List.mem_range.mp hb) s

/-! ### READY (R514, R518) -/

/-- Everything READY asks for. -/
def MayBeReady (s : State) : Prop :=
  s.modl.running = true ∧ s.modl.fw = true ∧ s.on .LGR_STAT_SCANNED = true ∧ s.modl.resetDue = none ∧
  s.modl.mrst = false ∧ s.on .FLT_STAT_RESETHOLD = false ∧ s.on .MOD_STAT_TESTMODE = false ∧
  (s.modl.warm = true → s.frozen = false) ∧ ∀ b : BundleId, s.bundleTrains b.val = false

theorem State.mayBeReady_iff : s.mayBeReady = true ↔ MayBeReady s := by
  have hall : (List.range 5).all (fun b => !s.bundleTrains b) = true ↔ ∀ b : BundleId, s.bundleTrains b.val = false := by
    simp only [List.all_eq_true, List.mem_range, Bool.not_eq_true']
    exact ⟨fun h b => h b.val b.isLt, fun h b hb => h ⟨b, hb⟩⟩
  have hfrozen : (!(s.modl.warm && s.frozen)) = true ↔ (s.modl.warm = true → s.frozen = false) := by
    cases s.modl.warm <;> simp
  unfold State.mayBeReady MayBeReady
  simp only [Bool.and_eq_true, hall, hfrozen, and_assoc, Bool.not_eq_true', Option.isSome_eq_false_iff, Option.isNone_iff_eq_none]

/-- READY is shown, and no warm reset is under way. -/
def State.readyShown (s : State) : State :=
  let t := s.wr .MOD_STAT_READY 0 1
  ({ t with modl := { t.modl with warm := false } } : State).notePause

theorem State.readyShown_within : Within { regs := true, deck := true, modl := true } s s.readyShown :=
  (((Within.refl _ s).wr rfl).upd (modl := { s.modl with warm := false }) (h_modl := .inl rfl)).notePause rfl

theorem State.readyShown_modl : s.readyShown.modl = { s.modl with warm := false } := by
  have hpause : ∀ t : State, t.notePause.modl = t.modl := fun t => ((Within.refl { deck := true } t).notePause rfl).modl_eq rfl rfl
  exact hpause _

theorem State.readyShown_on : s.readyShown.on .MOD_STAT_READY = true := by
  have h : s.readyShown.rd .MOD_STAT_READY = (s.wr .MOD_STAT_READY 0 1).rd .MOD_STAT_READY :=
    State.rd_of_regs (State.notePause_regs _) _ _
  rw [State.on, h, State.rd_wr_same _ _ _ _ (by decide)]
  rfl

theorem ready_waits (h : ¬ MayBeReady s) : Leads .ready s (· = s) := by
  have hno : s.mayBeReady = false := by rw [← Bool.not_eq_true, State.mayBeReady_iff]; exact h
  exact ⟨s, congrArg Host.Outcome.next (if_pos (by rw [hno]; rfl)), rfl⟩

theorem ready_goes {s : State} (h : MayBeReady s) (hheld : s.fab.held = []) (htodo : s.outp.todo = [])
    (hclose : ∀ n : SessionId, (s.session n.val).closeDue = 0) :
    Leads .ready s fun t => t.on .MOD_STAT_READY = true ∧ t.modl = { s.modl with warm := false } ∧ t.ledger = s.ledger ∧ t.hbm = s.hbm := by
  refine ⟨_, congrArg Host.Outcome.next (if_neg (by rw [s.mayBeReady_iff.mpr h]; decide)), ?_⟩
  show _ ∧ _ ∧ _ ∧ _
  have hwithin := s.readyShown_within
  have hmodl := s.readyShown_modl
  have hon := s.readyShown_on
  change (s.readyShown.resumeAccept.serveHeld.goOn).on _ = _ ∧ (s.readyShown.resumeAccept.serveHeld.goOn).modl = _ ∧
    (s.readyShown.resumeAccept.serveHeld.goOn).ledger = _ ∧ (s.readyShown.resumeAccept.serveHeld.goOn).hbm = _
  generalize s.readyShown = t at *
  have hsess : t.sess = s.sess := (hwithin.sess.resolve_left (by decide)).1
  have hpaid := t.resumeCredits_paid
  rw [State.resumeAccept_idle (s := t) fun n => by rw [State.session, hsess]; exact hclose n]
  generalize t.resumeCredits = u at *
  have hfab : u.fab.held = [] := by
    rw [hpaid.within.fab.resolve_left (by decide), hwithin.fab.resolve_left (by decide)]; exact hheld
  have hout : u.outp.todo = [] := by
    rw [hpaid.within.outp.resolve_left (by decide), hwithin.outp.resolve_left (by decide)]; exact htodo
  rw [State.serveHeld_idle hfab, State.goOn_idle hout]
  refine ⟨(hpaid.words.on (f := .MOD_STAT_READY) (by unfold linkPage; decide)).trans hon, hpaid.modl.trans hmodl, ?_, ?_⟩
  · rw [hpaid.within.ledger.resolve_left (by decide), hwithin.ledger.resolve_left (by decide)]
  · rw [hpaid.within.hbm.resolve_left (by decide), hwithin.hbm.resolve_left (by decide)]

end Sys2Proof.Machine

namespace Sys2Proof.Machine

variable (s : State)

/-! ### The power-fail warning (R508, R524) -/

/-- The bus is measured, and the loss signal shown. -/
def State.busShown (s : State) (loss : Bool) (mv : Nat) : State := (s.measureBus mv).put .PWR_STAT_LOSS 0 loss

theorem State.busShown_only (loss : Bool) (mv : Nat) :
    OnlyWords [Fld.PWR_VBUS_MV.at 0, Fld.PWR_STAT_LOSS.at 0] s (s.busShown loss mv) :=
  .wr s (.wr s (.wr s (.refl s _) _ _ _ (by decide)) _ _ _ (by decide)) _ _ _ (by decide)

theorem State.busShown_within {M : Mask} (h : M.regs = true) (loss : Bool) (mv : Nat) : Within M s (s.busShown loss mv) :=
  (((Within.refl M s).wr h).wr h).put h

theorem State.busShown_effect (loss : Bool) {mv : Nat} (hmv : mv < 2 ^ 16) :
    (s.busShown loss mv).rd .PWR_VBUS_MV = mv ∧ (s.busShown loss mv).rd .PWR_VBUS_MINMV = min mv (s.rd .PWR_VBUS_MINMV) ∧
    (s.busShown loss mv).on .PWR_STAT_LOSS = loss ∧ (s.busShown loss mv).rd .PWR_STAT_STATE = s.rd .PWR_STAT_STATE := by
  unfold State.busShown State.measureBus State.put State.on
  simp (disch := decide) only [State.rd_wr_apart, State.rd_wr_same]
  refine ⟨Nat.mod_eq_of_lt hmv, Nat.mod_eq_of_lt (by simp only [Fld.PWR_VBUS_MINMV]; omega), ?_, trivial⟩
  cases loss <;> rfl

/-- A warning is counted and raised. -/
def State.warnRaised (s : State) : State := ((s.flag .PWR_EVT_WARN).bump .PWR_PFCNT_COUNT).fault srcPower 1 1

/-- What a warning shows. -/
def Warned (s t : State) : Prop :=
  t.on .PWR_EVT_WARN = true ∧ t.rd .PWR_PFCNT_COUNT = min (s.rd .PWR_PFCNT_COUNT + 1) (2 ^ 32 - 1) ∧
  t.flt = s.flt.receive (mkFault srcPower 1 1 0) s.clock

/-- The words of a warning. -/
def warnWord (o : Nat) : Prop := o = 0x1000c ∨ o = 0x10010 ∨ faultWord o = true

theorem State.warnRaised_words : WordsKept warnWord s s.warnRaised :=
  (((WordsKept.refl s).flag (.inl rfl)).bump (.inr (.inl rfl))).trans ((State.fault_words _ _ _ _ _).mono fun _ h => .inr (.inr h))

theorem State.warnRaised_within {M : Mask} (hr : M.regs = true) (hf : M.faults = true) : Within M s s.warnRaised :=
  (((Within.refl M s).flag hr).bump hr).fault hr hf

theorem State.warnRaised_warned : Warned s s.warnRaised := by
  have hwords := State.fault_words ((s.flag .PWR_EVT_WARN).bump .PWR_PFCNT_COUNT) srcPower 1 1 0
  have hflt := State.raise_flt ((s.flag .PWR_EVT_WARN).bump .PWR_PFCNT_COUNT) (mkFault srcPower 1 1 0)
  rw [State.bump_flt, State.flag_flt, State.bump_clock, State.flag_clock] at hflt
  refine ⟨(hwords.on (f := .PWR_EVT_WARN) (by decide)).trans ?_, (hwords.rd (f := .PWR_PFCNT_COUNT) (by decide)).trans ?_, hflt⟩
  · rw [State.on, State.bump, State.rd_wr_other _ _ _ _ _ _ (by decide)]
    exact State.on_flag_same _ _ _ (by decide) (by decide)
  · rw [State.rd_bump_same _ _ _ _ (by decide), State.flag, State.rd_wr_other _ _ _ _ _ _ (by decide)]
    rfl

/-! ### The flush starts (R200, R291, R431, R508) -/

/-- The drains stop, and the flush is shown. -/
def State.flushShown (s : State) : State := (s.stopDrains.wr .PWR_STAT_STATE 0 1).wr .MOD_STAT_PFW 0 1

/-- The flush runs. -/
def State.flushRun (s : State) : State := { s with pow := { s.pow with snapRun := true, snapDone := s.modl.warm, flushStart := s.clock } }

theorem State.startFlush_eq : s.startFlush = s.flushShown.flushRun.notePause.stopCores := rfl

/-- What a flush under way shows. -/
def Flushing (s t : State) : Prop :=
  t.rd .PWR_STAT_STATE = 1 ∧ t.on .MOD_STAT_PFW = true ∧ t.pow.snapRun = true ∧
  t.pow.snapDone = s.modl.warm ∧ t.pow.flushStart = s.clock ∧ t.suspended = true ∧ t.hbm = s.hbm ∧ t.ledger = s.ledger ∧
  ∀ e ∈ s.served, .coreIrq e .stop ∈ newMsgs s t

theorem State.stopCores_sent : s.stopCores.sent = (s.served.map (Msg.coreIrq · .stop)).reverse ++ s.sent := by
  have hfold : ∀ (l : List Nat) (t : State), (l.foldl (fun s e => s.send (.coreIrq e .stop)) t).sent =
      (l.map (Msg.coreIrq · .stop)).reverse ++ t.sent := by
    intro l
    induction l with
    | nil => exact fun _ => rfl
    | cons e l ih => intro t; rw [List.foldl_cons, ih]; simp [State.send]
  exact hfold _ s

theorem State.stopCores_told {s t : State} (hserved : s.served = t.served) (hsent : s.sent = t.sent) :
    ∀ e ∈ t.served, .coreIrq e .stop ∈ newMsgs t s.stopCores := by
  intro e he
  rw [newMsgs, State.stopCores_sent, hserved, hsent]
  simpa using he

theorem State.served_of_words {s t : State} {W : Nat → Prop} (h : WordsKept W s t) (hW : ∀ e : Fin 96, ¬ W (0x600000 + 0x1000 * e.val)) :
    t.served = s.served := by
  refine List.filter_congr fun e he => ?_
  rw [h.rd (f := .ENG_STAT_STATE) (hW ⟨e, List.mem_range.mp he⟩)]

theorem State.stopDrains_regs : s.stopDrains.regs = s.regs :=
  ((Within.refl { outp := true } s).stopDrains rfl).regs.resolve_left (by decide)

theorem State.flushShown_words : WordsKept (fun o => o = 0x10000 ∨ o = 0x0) s s.flushShown :=
  ((WordsKept.of_regs s.stopDrains_regs).wr (f := .PWR_STAT_STATE) (.inl rfl)).wr (f := .MOD_STAT_PFW) (.inr rfl)

theorem State.flushShown_within : Within { regs := true, outp := true } s s.flushShown :=
  (((Within.refl _ s).stopDrains rfl).wr rfl).wr rfl

theorem State.stopDrains_clock : s.stopDrains.clock = s.clock :=
  State.forN_induct _ (fun t => t.clock = s.clock) 3 _ rfl fun _ _ h => h

theorem State.flushShown_clock : s.flushShown.clock = s.clock := by
  rw [State.flushShown, State.wr_clock, State.wr_clock, State.stopDrains_clock]

theorem State.flushShown_effect : s.flushShown.rd .PWR_STAT_STATE = 1 ∧ s.flushShown.on .MOD_STAT_PFW = true := by
  unfold State.flushShown
  generalize s.stopDrains = t
  constructor
  · rw [State.rd_wr_other _ _ _ _ _ _ (by decide), State.rd_wr_same _ _ _ _ (by decide)]
    rfl
  · rw [State.on, State.rd_wr_same _ _ _ _ (by decide)]
    rfl

theorem State.flushRun_within : Within { power := true } s s.flushRun := (Within.refl _ s).upd (pow := s.flushRun.pow) (h_power := .inl rfl)

/-- What leaves and what stands while the pause is noted and the cores are told. -/
theorem Flushing.of_run {s t : State} (hstate : t.rd .PWR_STAT_STATE = 1) (hpfw : t.on .MOD_STAT_PFW = true)
    (hrun : t.pow.snapRun = true) (hdone : t.pow.snapDone = s.modl.warm) (hstart : t.pow.flushStart = s.clock) (hhbm : t.hbm = s.hbm)
    (hledger : t.ledger = s.ledger) (hserved : t.served = s.served) (hsent : t.sent = s.sent) : Flushing s t.notePause.stopCores := by
  have hpause : Within { deck := true } t t.notePause := (Within.refl _ t).notePause rfl
  have hpw : t.notePause.served = t.served := State.served_of_words (hpause.wordsKept (W := fun _ => False) rfl) fun _ => id
  obtain ⟨hpsent, -, -⟩ := hpause.out.resolve_left (by decide)
  have hregs := hpause.regs.resolve_left (by decide)
  have hpow := hpause.power.resolve_left (by decide)
  have hph := hpause.hbm.resolve_left (by decide)
  have hpl := hpause.ledger.resolve_left (by decide)
  generalize t.notePause = u at *
  have hcores : Within { out := true } u u.stopCores := (Within.refl _ u).stopCores rfl
  have hcregs := hcores.regs.resolve_left (by decide)
  have hcpow := hcores.power.resolve_left (by decide)
  have htold := State.stopCores_told (s := u) (t := s) (hpw.trans hserved) (hpsent.trans hsent)
  have hch := hcores.hbm.resolve_left (by decide)
  have hcl := hcores.ledger.resolve_left (by decide)
  generalize u.stopCores = v at *
  have hv : v.regs = t.regs := hcregs.trans hregs
  have hvp : v.pow = t.pow := hcpow.trans hpow
  have hst : v.rd .PWR_STAT_STATE = 1 := (State.rd_of_regs hv _ _).trans hstate
  refine ⟨hst, (State.on_of_regs hv _ _).trans hpfw, ?_, ?_, ?_, ?_, hch.trans (hph.trans hhbm), hcl.trans (hpl.trans hledger), htold⟩
  · rw [hvp, hrun]
  · rw [hvp, hdone]
  · rw [hvp, hstart]
  · simp [State.suspended, hst]

theorem State.startFlush_flushing {s t : State} (hmodl : s.modl.warm = t.modl.warm) (hclock : s.clock = t.clock) (hhbm : s.hbm = t.hbm)
    (hledger : s.ledger = t.ledger) (hserved : s.served = t.served) (hsent : s.sent = t.sent) : Flushing t s.startFlush := by
  obtain ⟨hstate, hpfw⟩ := s.flushShown_effect
  have hwithin := s.flushShown_within
  have hserv : s.flushShown.served = s.served := State.served_of_words s.flushShown_words fun e => by omega
  have huc := s.flushShown_clock
  rw [State.startFlush_eq]
  generalize s.flushShown = u at *
  have hrserv : u.flushRun.served = u.served :=
    State.served_of_words (u.flushRun_within.wordsKept (W := fun _ => False) rfl) fun _ => id
  have hum : u.modl = s.modl := hwithin.modl_eq rfl rfl
  refine Flushing.of_run ((State.rd_of_regs rfl _ _).trans hstate) ((State.on_of_regs rfl _ _).trans hpfw) rfl ?_ (huc.trans hclock) ?_ ?_
    (hrserv.trans (hserv.trans hserved)) ?_
  · exact (congrArg Modl.warm hum).trans hmodl
  · exact (hwithin.hbm.resolve_left (by decide)).trans hhbm
  · exact (hwithin.ledger.resolve_left (by decide)).trans hledger
  · exact (hwithin.out.resolve_left (by decide)).1.trans hsent

end Sys2Proof.Machine

namespace Sys2Proof.Machine

variable (s : State)

/-! ### POWER_FAIL_WARNING and THERMAL_TRIP (R508, R510, R522) -/

theorem State.startFlush_regs : s.startFlush.regs = s.flushShown.regs := by
  rw [State.startFlush_eq, State.stopCores_regs, State.notePause_regs, (State.flushRun_within _).regs.resolve_left (by decide)]

theorem State.startFlush_words : WordsKept (fun o => o = 0x10000 ∨ o = 0x0) s s.startFlush :=
  s.flushShown_words.trans (.of_regs s.startFlush_regs)

theorem State.startFlush_flt : s.startFlush.flt = s.flt :=
  ((Within.refl { regs := true, out := true, deck := true, outp := true, power := true } s).startFlush rfl rfl rfl rfl
    rfl).faults.resolve_left (by decide)

theorem State.startFlush_thermal : s.startFlush.pow.thermal = s.pow.thermal := by
  have hshown : s.flushShown.pow = s.pow := s.flushShown_within.power.resolve_left (by decide)
  rw [State.startFlush_eq]
  generalize s.flushShown = t at *
  have hrun : t.flushRun.notePause.stopCores.pow = t.flushRun.pow :=
    (((Within.refl { out := true, deck := true } t.flushRun).notePause rfl).stopCores rfl).power.resolve_left (by decide)
  rw [hrun, ← hshown]
  rfl

theorem State.warnRaised_clock : s.warnRaised.clock = s.clock := by
  have hraise : ∀ (t : State) (m : FaultMsg), (t.raise m).clock = t.clock := fun t m => by rw [State.raise_eq]
  rw [State.warnRaised, State.fault, hraise, State.bump_clock, State.flag_clock]

theorem State.startFlush_loss : s.startFlush.on .PWR_STAT_LOSS = s.on .PWR_STAT_LOSS := by
  rw [State.on_of_regs s.startFlush_regs, State.flushShown, State.on, State.rd_wr_apart _ (by decide), State.rd_wr_apart _ (by decide),
    State.rd_of_regs s.stopDrains_regs]
  rfl

section
variable {s} {t : State}

theorem Warned.of_words (h : Warned s t) {u : State} {W : Nat → Prop} (hwords : WordsKept W t u) (hevt : ¬ W (Fld.PWR_EVT_WARN.at 0))
    (hcnt : ¬ W (Fld.PWR_PFCNT_COUNT.at 0)) (hflt : u.flt = t.flt) : Warned s u := by
  obtain ⟨he, hc, hf⟩ := h
  exact ⟨(hwords.on (f := .PWR_EVT_WARN) hevt).trans he, (hwords.rd (f := .PWR_PFCNT_COUNT) hcnt).trans hc, hflt.trans hf⟩

/-- What a warning looks at is the same in two states. -/
structure SameWarn (s t : State) : Prop where
  count : t.rd .PWR_PFCNT_COUNT = s.rd .PWR_PFCNT_COUNT
  state : t.rd .PWR_STAT_STATE = s.rd .PWR_STAT_STATE
  flt : t.flt = s.flt
  clock : t.clock = s.clock
  warm : t.modl.warm = s.modl.warm
  hbm : t.hbm = s.hbm
  ledger : t.ledger = s.ledger
  served : t.served = s.served
  sent : t.sent = s.sent

theorem SameWarn.warned (h : SameWarn s t) {u : State} (hw : Warned t u) : Warned s u := by
  unfold Warned at hw ⊢
  rwa [h.count, h.flt, h.clock] at hw

/-- A warning's flush starts, where none runs. -/
theorem SameWarn.warn_begins (h : SameWarn s t) (hidle : s.rd .PWR_STAT_STATE = 0) :
    Warned s t.warn ∧ Flushing s t.warn ∧ t.warn.pow.thermal = t.pow.thermal ∧ (t.warn.rd .PWR_VBUS_MV = t.rd .PWR_VBUS_MV ∧
      t.warn.rd .PWR_VBUS_MINMV = t.rd .PWR_VBUS_MINMV ∧ t.warn.on .PWR_STAT_LOSS = t.on .PWR_STAT_LOSS) := by
  have hwords := t.warnRaised_words
  have hwithin : Within { regs := true, faults := true } t t.warnRaised := t.warnRaised_within rfl rfl
  have hwarned := h.warned t.warnRaised_warned
  have hclock := t.warnRaised_clock
  have heq : t.warn = t.warnRaised.startFlush :=
    if_pos ((hwords.rd (f := .PWR_STAT_STATE) (by unfold warnWord; decide)).trans (h.state.trans hidle))
  rw [heq]
  generalize t.warnRaised = u at *
  have hserved : u.served = t.served := State.served_of_words hwords fun e => by
    simp only [warnWord, faultWord, Bool.or_eq_true, beq_iff_eq]; omega
  refine ⟨hwarned.of_words u.startFlush_words (by decide) (by decide) u.startFlush_flt, State.startFlush_flushing ?_ (hclock.trans h.clock) ?_ ?_
    (hserved.trans h.served) ?_, ?_, ?_⟩
  · rw [hwithin.modl_eq rfl rfl, h.warm]
  · exact (hwithin.hbm.resolve_left (by decide)).trans h.hbm
  · exact (hwithin.ledger.resolve_left (by decide)).trans h.ledger
  · exact (hwithin.out.resolve_left (by decide)).1.trans h.sent
  · rw [u.startFlush_thermal, hwithin.power.resolve_left (by decide)]
  · refine ⟨?_, ?_, u.startFlush_loss.trans (hwords.on (f := .PWR_STAT_LOSS) (by unfold warnWord; decide))⟩
    · exact (u.startFlush_words.rd (f := .PWR_VBUS_MV) (by decide)).trans (hwords.rd (f := .PWR_VBUS_MV) (by unfold warnWord; decide))
    · exact (u.startFlush_words.rd (f := .PWR_VBUS_MINMV) (by decide)).trans (hwords.rd (f := .PWR_VBUS_MINMV) (by unfold warnWord; decide))

/-- During the flush of an earlier one, a warning is counted and raised alone. -/
theorem SameWarn.warn_shares (h : SameWarn s t) (hbusy : s.rd .PWR_STAT_STATE ≠ 0) :
    t.warn = t.warnRaised ∧ Warned s t.warn ∧ t.warn.rd .PWR_STAT_STATE = s.rd .PWR_STAT_STATE ∧ t.warn.pow = t.pow := by
  have hstate : t.warnRaised.rd .PWR_STAT_STATE = s.rd .PWR_STAT_STATE :=
    (t.warnRaised_words.rd (f := .PWR_STAT_STATE) (by unfold warnWord; decide)).trans h.state
  have heq : t.warn = t.warnRaised := if_neg fun h0 => hbusy (hstate.symm.trans h0)
  rw [heq]
  exact ⟨rfl, h.warned t.warnRaised_warned, hstate,
    (t.warnRaised_within (M := { regs := true, faults := true }) rfl rfl).power.resolve_left (by decide)⟩

end

theorem State.busShown_sameWarn (loss : Bool) {mv : Nat} (hmv : mv < 2 ^ 16) : SameWarn s (s.busShown loss mv) := by
  obtain ⟨heq, hwords⟩ := s.busShown_only loss mv
  obtain ⟨-, -, -, hstate⟩ := s.busShown_effect loss hmv
  generalize s.busShown loss mv = t at *
  have hkept : WordsKept (· ∈ [Fld.PWR_VBUS_MV.at 0, Fld.PWR_STAT_LOSS.at 0]) s t := ⟨hwords⟩
  have hserved : t.served = s.served := State.served_of_words hkept fun e => by
    simp only [Fld.at, Fld.PWR_VBUS_MV, Fld.PWR_STAT_LOSS, List.mem_cons, List.not_mem_nil, or_false]; omega
  refine ⟨hkept.rd (f := .PWR_PFCNT_COUNT) (by decide), hstate, ?_, ?_, ?_, ?_, ?_, hserved, ?_⟩ <;> rw [heq]

/-- What POWER_FAIL_WARNING does. -/
theorem powerFailWarning_warns (loss : Bool) (mv : BitVec 16) (hrun : s.modl.running = true) :
    Leads (.powerFailWarning loss mv) s fun t => t.rd .PWR_VBUS_MV = mv.toNat ∧
      t.rd .PWR_VBUS_MINMV = min mv.toNat (s.rd .PWR_VBUS_MINMV) ∧ t.on .PWR_STAT_LOSS = loss ∧
      (loss = true ∨ mv.toNat < 11400 → Warned s t ∧ (s.rd .PWR_STAT_STATE = 0 → Flushing s t) ∧
        (s.rd .PWR_STAT_STATE ≠ 0 → t.rd .PWR_STAT_STATE = s.rd .PWR_STAT_STATE ∧ t.pow = s.pow)) ∧
      (loss = false → 11400 ≤ mv.toNat → OnlyWords [Fld.PWR_VBUS_MV.at 0, Fld.PWR_STAT_LOSS.at 0] s t) := by
  have hsame := s.busShown_sameWarn loss mv.isLt
  obtain ⟨hmv, hmin, hloss, -⟩ := s.busShown_effect loss mv.isLt
  have honly := s.busShown_only loss mv.toNat
  have hpow : (s.busShown loss mv.toNat).pow = s.pow :=
    (s.busShown_within (M := { regs := true }) rfl loss mv.toNat).power.resolve_left (by decide)
  refine ⟨if loss || decide (mv.toNat < 11400) then (s.busShown loss mv.toNat).warn else s.busShown loss mv.toNat,
    congrArg Host.Outcome.next (if_neg (by simp [hrun])), ?_⟩
  generalize s.busShown loss mv.toNat = t at *
  by_cases hwarn : loss = true ∨ mv.toNat < 11400
  · have hnot : loss = false → 11400 ≤ mv.toNat → OnlyWords [Fld.PWR_VBUS_MV.at 0, Fld.PWR_STAT_LOSS.at 0] s t.warn := by
      rintro rfl hhigh
      exact absurd hwarn (by simp; omega)
    rw [if_pos (by simpa using hwarn)]
    by_cases hidle : s.rd .PWR_STAT_STATE = 0
    · obtain ⟨hw, hf, -, hv, hm, hl⟩ := hsame.warn_begins hidle
      exact ⟨hv.trans hmv, hm.trans hmin, hl.trans hloss, fun _ => ⟨hw, fun _ => hf, fun h => absurd hidle h⟩, hnot⟩
    · obtain ⟨heq, hw, hstate, hp⟩ := hsame.warn_shares hidle
      have hwords : WordsKept warnWord t t.warn := by rw [heq]; exact t.warnRaised_words
      exact ⟨(hwords.rd (f := .PWR_VBUS_MV) (by unfold warnWord; decide)).trans hmv,
        (hwords.rd (f := .PWR_VBUS_MINMV) (by unfold warnWord; decide)).trans hmin,
        (hwords.on (f := .PWR_STAT_LOSS) (by unfold warnWord; decide)).trans hloss,
        fun _ => ⟨hw, fun h => absurd h hidle, fun _ => ⟨hstate, hp.trans hpow⟩⟩, hnot⟩
  · rw [if_neg (by simpa using hwarn)]
    exact ⟨hmv, hmin, hloss, fun h => absurd h hwarn, fun _ _ => honly⟩

end Sys2Proof.Machine

namespace Sys2Proof.Machine

variable (s : State)

/-! ### Every domain is switched off (R509, R511) -/

/-- What is left of the module without power, but for the two registers that stand. -/
def State.unpowered (s : State) (cause : Nat) : State :=
  let m := s.modl
  { State.reset with
    pending := s.pending, lcs := s.lcs, fresh := s.fresh, clock := s.clock, sent := s.sent
    ledger := { s.ledger with pend := [], hbmSnap := [] }
    sec := { tampers := s.sec.tampers, causes := s.wipeOwed }
    deck := { closedBefore := s.lostEnd }
    sess := s.sess.filterMap (fun x => if x.2.tokens.isEmpty then none else some (x.1, { tokens := x.2.tokens }))
    pow := { railAt := s.pow.railAt, repowered := s.pow.repowered, thermal := s.pow.thermal }
    modl := { flash := m.flash, mgmtIp := m.mgmtIp, mgmtPlen := m.mgmtPlen, mgmtGw := m.mgmtGw, hostMem := m.hostMem
              perst := m.perst, lid := m.lid, tap := m.tap, pciWidth := m.pciWidth, pciRate := m.pciRate
              coldCause := cause } }

theorem State.powerOff_eq (cause : Nat) : s.powerOff cause = ((s.unpowered cause).keepBits s 0xC 4).keepBits s 0x18 0xFF := rfl

theorem State.unpowered_word (cause o : Nat) : (s.unpowered cause).word o = resetWord o := by
  have h : (s.unpowered cause).regs = [] := rfl
  rw [State.word, h]
  exact BitVec.zero_xor

theorem State.unpowered_sess (cause : Nat) : ∀ x ∈ (s.unpowered cause).sess, x.2 = { tokens := x.2.tokens } := by
  intro x hx
  obtain ⟨y, -, hy⟩ := List.mem_filterMap.mp hx
  split at hy
  · cases hy
  · cases hy; rfl

theorem State.powerOff_word_other (cause : Nat) {o : Nat} (hC : o ≠ 0xC) (h18 : o ≠ 0x18) : (s.powerOff cause).word o = resetWord o := by
  rw [State.powerOff_eq, State.keepBits, State.word_setWord_other _ _ _ h18, State.keepBits, State.word_setWord_other _ _ _ hC,
    State.unpowered_word]

theorem State.powerOff_marked (cause : Nat) : (s.powerOff cause).rd .MOD_BOOT_MARKED = s.rd .MOD_BOOT_MARKED := by
  have hword : (s.powerOff cause).word 0xC = s.word 0xC &&& 4#32 := by
    have hreset : resetWord 0xC &&& ~~~4#32 = 0#32 := by decide
    rw [State.powerOff_eq, State.keepBits, State.word_setWord_other _ _ _ (by decide), State.keepBits, State.word_setWord_same,
      State.unpowered_word]
    exact (congrArg (· ||| _) hreset).trans BitVec.zero_or
  show (State.word _ 0xC).toNat / 2 ^ 2 % 2 = (s.word 0xC).toNat / 2 ^ 2 % 2
  rw [hword, ← Nat.toNat_testBit, ← Nat.toNat_testBit, BitVec.toNat_and, Nat.testBit_and]
  exact congrArg Bool.toNat (Bool.and_true _)

/-- What the module without power shows and keeps. -/
def SwitchedOff (s : State) (cause : Nat) (t : State) : Prop :=
  t.modl.running = false ∧ t.modl.fw = false ∧ t.modl.coldCause = cause ∧
  t.ledger = { s.ledger with pend := [], hbmSnap := [] } ∧ t.lcs = s.lcs ∧ t.modl.flash = s.modl.flash ∧ t.modl.lid = s.modl.lid ∧
  t.hbm = {} ∧ t.spd = {} ∧ t.engs = [] ∧ (∀ x ∈ t.sess, x.2 = { tokens := x.2.tokens }) ∧
  t.plans = {} ∧ t.tricks = {} ∧ t.timeb = {} ∧ t.sec.keys = [] ∧
  (∀ l : Lane, t.lnState l.val = lnOff) ∧ t.rd .MOD_BOOT_MARKED = s.rd .MOD_BOOT_MARKED ∧ t.rd .LGR_SPARE_LEFT = 3276 ∧
  t.rd64 .LGR_LASTDSN = 0 ∧ t.on .LGR_STAT_SCANNED = false

theorem resetWord_lnState : ∀ l : Lane, (resetWord (Fld.VLK_STAT_STATE.at l.val)).toNat % 2 ^ 4 = lnOff := by decide

theorem State.lnState_powerOff (cause : Nat) (l : Lane) : (s.powerOff cause).lnState l.val = lnOff := by
  have hat : Fld.VLK_STAT_STATE.at l.val = 0x300004 + 0x1000 * l.val := rfl
  rw [State.lnState, State.rd, State.powerOff_word_other _ _ (by omega) (by omega)]
  exact (congrArg (· % 2 ^ 4) (Nat.div_one _)).trans (resetWord_lnState l)

theorem State.powerOff_switchedOff (cause : Nat) : SwitchedOff s cause (s.powerOff cause) := by
  have hword : ∀ o, o ≠ 0xC → o ≠ 0x18 → (s.powerOff cause).word o = resetWord o := fun _ => s.powerOff_word_other cause
  have hsess : (s.powerOff cause).sess = (s.unpowered cause).sess := rfl
  refine ⟨rfl, rfl, rfl, rfl, rfl, rfl, rfl, rfl, rfl, rfl, ?_, rfl, rfl, rfl, rfl, s.lnState_powerOff cause, s.powerOff_marked cause, ?_, ?_, ?_⟩
  · rw [hsess]; exact s.unpowered_sess cause
  · rw [State.rd, hword _ (by decide) (by decide)]; decide
  · rw [State.rd64, hword _ (by decide) (by decide), hword _ (by decide) (by decide)]; decide
  · rw [State.on, State.rd, hword _ (by decide) (by decide)]; decide

/-- What a module without power keeps is the same in two states. -/
structure SameOff (s t : State) : Prop where
  ledger : t.ledger = s.ledger
  lcs : t.lcs = s.lcs
  flash : t.modl.flash = s.modl.flash
  lid : t.modl.lid = s.modl.lid
  marked : t.rd .MOD_BOOT_MARKED = s.rd .MOD_BOOT_MARKED

theorem SameOff.switchedOff {s t : State} (h : SameOff s t) (cause : Nat) : SwitchedOff s cause (t.powerOff cause) := by
  have hoff := t.powerOff_switchedOff cause
  unfold SwitchedOff at hoff ⊢
  rwa [h.ledger, h.lcs, h.flash, h.lid, h.marked] at hoff

/-! ### The flush is complete (R485, R508) -/

/-- The flush's end and duration are shown. -/
def State.flushTimed (s : State) : State :=
  (s.wr .PWR_STAT_STATE 0 2).wr .PWR_FLUSHUS_US 0 (min 65535 ((s.clock - s.pow.flushStart) / 1000))

/-- No flush runs. -/
def State.flushStopped (s : State) : State := { s with pow := { s.pow with snapRun := false, deferred := false } }

/-- The flush has ended. -/
def State.flushEnded (s : State) : State := s.flushTimed.flushStopped

theorem State.endFlush_eq : s.endFlush =
    s.flushEnded.whenS (s.pow.deferred && !s.flushEnded.modl.warm && s.flushEnded.modl.resetDue.isNone && !s.flushEnded.on .FLT_STAT_RESETHOLD)
      (·.faultReset) := rfl

theorem State.flushTimed_words : WordsKept (fun o => o = 0x10000 ∨ o = 0x10014) s s.flushTimed :=
  ((WordsKept.refl s).wr (f := .PWR_STAT_STATE) (.inl rfl)).wr (f := .PWR_FLUSHUS_US) (.inr rfl)

theorem State.flushStopped_regs : s.flushStopped.regs = s.regs := rfl

theorem State.flushEnded_words : WordsKept (fun o => o = 0x10000 ∨ o = 0x10014) s s.flushEnded :=
  s.flushTimed_words.trans (.of_regs (State.flushStopped_regs _))

theorem State.flushStopped_within {M : Mask} (h : M.power = true) : Within M s s.flushStopped :=
  (Within.refl M s).upd (pow := s.flushStopped.pow) (h_power := .inl h)

theorem State.flushTimed_within {M : Mask} (h : M.regs = true) : Within M s s.flushTimed := ((Within.refl M s).wr h).wr h

theorem State.flushTimed_pow : s.flushTimed.pow = s.pow := (State.wr_pow ..).trans (State.wr_pow ..)

theorem State.flushEnded_effect : s.flushEnded.rd .PWR_STAT_STATE = 2 ∧
    s.flushEnded.rd .PWR_FLUSHUS_US = min 65535 ((s.clock - s.pow.flushStart) / 1000) := by
  rw [State.flushEnded, State.rd_of_regs (State.flushStopped_regs _), State.rd_of_regs (State.flushStopped_regs _), State.flushTimed,
    State.rd_wr_other _ _ _ _ _ _ (by decide), State.rd_wr_same _ _ _ _ (by decide), State.rd_wr_same _ _ _ _ (by decide)]
  exact ⟨rfl, Nat.mod_eq_of_lt (by simp only [Fld.PWR_FLUSHUS_US]; omega)⟩

/-- The words of a chip reset caused by a fault. -/
def faultResetWord (o : Nat) : Prop := o = 0x0 ∨ o = 0x20000 ∨ o = Fld.FLT_EVT_RESETHOLD.at 0 ∨ o = 0x20054

theorem State.resetHold_words : WordsKept faultResetWord s s.resetHold := by
  have h : WordsKept faultResetWord s (((s.flag .FLT_STAT_RESETHOLD).flag .FLT_EVT_RESETHOLD).wr .MOD_STAT_READY 0 0) :=
    (((WordsKept.refl s).flag (.inr (.inl rfl))).flag (.inr (.inr (.inl rfl)))).wr (.inl rfl)
  exact (h.trans (.of_regs (State.notePause_regs _))).trans ((State.pins_words _).mono fun _ ho => ho.imp_right .inl)

theorem State.resetDue_regs (c : Nat) : (s.resetDue c).regs = s.regs :=
  ((Within.refl { modl := true } s).resetDue rfl).regs.resolve_left (by decide)

/-- The times of chip resets caused by a fault. -/
def State.l4Noted (s : State) (l : List Nat) : State := { s with flt := { s.flt with l4Times := s.clock :: l } }

/-- Such a reset is counted. -/
def State.resetCounted (s : State) (l : List Nat) : State := (s.l4Noted l).bump .FLT_RSTCNT_COUNT

theorem State.faultReset_eq : s.faultReset = if 2 ≤ (s.flt.l4Times.filter (fun t => s.clock < t + 600000000000)).length then s.resetHold
    else (s.resetCounted (s.flt.l4Times.filter (fun t => s.clock < t + 600000000000))).resetDue 5 := rfl

theorem State.resetCounted_words (l : List Nat) : WordsKept faultResetWord s (s.resetCounted l) := by
  have hnoted : WordsKept faultResetWord s (s.l4Noted l) := .of_regs rfl
  exact hnoted.bump (f := .FLT_RSTCNT_COUNT) (.inr (.inr (.inr rfl)))

theorem State.resetCounted_modl (l : List Nat) : (s.resetCounted l).modl = s.modl := State.bump_modl ..

theorem State.faultReset_words : WordsKept faultResetWord s s.faultReset := by
  rw [State.faultReset_eq]
  split
  · exact s.resetHold_words
  · exact (s.resetCounted_words _).trans (.of_regs (State.resetDue_regs _ _))

theorem State.faultReset_first (hdue : s.modl.resetDue = none) (hl4 : s.flt.l4Times = []) : s.faultReset.modl.resetDue = some 5 := by
  have hmodl := s.resetCounted_modl []
  rw [State.faultReset_eq, hl4, List.filter_nil, if_neg (by decide)]
  generalize s.resetCounted [] = t at *
  have hnone : t.modl.resetDue.isSome = false := by rw [hmodl, hdue]; rfl
  unfold State.resetDue
  rw [if_neg (by rw [hnone]; decide)]

theorem State.resetDue_keeps (c : Nat) : (s.resetDue c).modl.flash = s.modl.flash ∧ (s.resetDue c).modl.lid = s.modl.lid := by
  unfold State.resetDue
  split <;> exact ⟨rfl, rfl⟩

theorem State.faultReset_keeps : s.faultReset.modl.flash = s.modl.flash ∧ s.faultReset.modl.lid = s.modl.lid := by
  rw [State.faultReset_eq]
  split
  · have hmodl : s.resetHold.modl = s.modl := ((Within.refl { regs := true, deck := true } s).resetHold rfl rfl).modl_eq rfl rfl
    rw [hmodl]
    exact ⟨rfl, rfl⟩
  · have hmodl := s.resetCounted_modl (s.flt.l4Times.filter (fun t => s.clock < t + 600000000000))
    generalize s.resetCounted _ = t at *
    rw [← hmodl]
    exact t.resetDue_keeps 5

end Sys2Proof.Machine

namespace Sys2Proof.Machine

variable (s : State)

section
variable {s} {t : State}

/-- A state in which only registers, power and what a chip reset changes differ. -/
theorem SameOff.of_whenS {c : Bool} (h : SameOff s t) : SameOff s (t.whenS c (·.faultReset)) := by
  unfold State.whenS
  split
  · have hwithin : Within { regs := true, faults := true, deck := true, modl := true } t t.faultReset :=
      (Within.refl _ t).faultReset rfl rfl rfl rfl
    obtain ⟨hflash, hlid⟩ := t.faultReset_keeps
    exact ⟨(hwithin.ledger.resolve_left (by decide)).trans h.ledger, (hwithin.sec.resolve_left (by decide)).1.trans h.lcs,
      hflash.trans h.flash, hlid.trans h.lid,
      (t.faultReset_words.rd (f := .MOD_BOOT_MARKED) (by unfold faultResetWord; decide)).trans h.marked⟩
  · exact h

end

theorem State.flushEnded_modl : s.flushEnded.modl = s.modl :=
  ((s.flushTimed.flushStopped_within (M := { power := true }) rfl).modl_eq rfl rfl).trans ((s.flushTimed_within (M := { regs := true }) rfl).modl_eq rfl rfl)

theorem State.flushEnded_within {M : Mask} (hr : M.regs = true) (hp : M.power = true) : Within M s s.flushEnded :=
  (s.flushTimed_within hr).trans (s.flushTimed.flushStopped_within hp)

theorem State.flushStopped_pow : s.flushStopped.pow = { s.pow with snapRun := false, deferred := false } := rfl

theorem State.flushEnded_pow : s.flushEnded.pow = { s.pow with snapRun := false, deferred := false } := by
  rw [State.flushEnded, State.flushStopped_pow, State.flushTimed_pow]

theorem State.flushEnded_sameOff : SameOff s s.flushEnded := by
  have hwithin : Within { regs := true, power := true } s s.flushEnded := s.flushEnded_within rfl rfl
  have hmodl := s.flushEnded_modl
  exact ⟨hwithin.ledger.resolve_left (by decide), (hwithin.sec.resolve_left (by decide)).1, congrArg Modl.flash hmodl, congrArg Modl.lid hmodl,
    s.flushEnded_words.rd (f := .MOD_BOOT_MARKED) (by decide)⟩

theorem State.endFlush_sameOff : SameOff s s.endFlush := by
  rw [State.endFlush_eq]
  exact s.flushEnded_sameOff.of_whenS

/-- What the end of a flush shows. -/
structure FlushEnded (s t : State) : Prop where
  state : t.rd .PWR_STAT_STATE = 2
  time : t.rd .PWR_FLUSHUS_US = min 65535 ((s.clock - s.pow.flushStart) / 1000)
  pow : t.pow = { s.pow with snapRun := false, deferred := false }

theorem FlushEnded.of_whenS {s t : State} {c : Bool} (h : FlushEnded s t) : FlushEnded s (t.whenS c (·.faultReset)) := by
  unfold State.whenS
  split
  · have hwithin : Within { regs := true, faults := true, deck := true, modl := true } t t.faultReset :=
      (Within.refl _ t).faultReset rfl rfl rfl rfl
    exact ⟨(t.faultReset_words.rd (f := .PWR_STAT_STATE) (by unfold faultResetWord; decide)).trans h.state,
      (t.faultReset_words.rd (f := .PWR_FLUSHUS_US) (by unfold faultResetWord; decide)).trans h.time,
      (hwithin.power.resolve_left (by decide)).trans h.pow⟩
  · exact h

theorem State.endFlush_ended : FlushEnded s s.endFlush := by
  rw [State.endFlush_eq]
  exact FlushEnded.of_whenS ⟨s.flushEnded_effect.1, s.flushEnded_effect.2, s.flushEnded_pow⟩

theorem State.endFlush_plain (h : s.pow.deferred = false) : s.endFlush = s.flushEnded := by
  rw [State.endFlush_eq, h]
  rfl

theorem State.endFlush_deferred (h : s.pow.deferred = true) (hwarm : s.modl.warm = false) (hdue : s.modl.resetDue = none)
    (hhold : s.on .FLT_STAT_RESETHOLD = false) (hl4 : s.flt.l4Times = []) : s.endFlush.modl.resetDue = some 5 := by
  have hmodl := s.flushEnded_modl
  have hflt : s.flushEnded.flt = s.flt := (s.flushEnded_within (M := { regs := true, power := true }) rfl rfl).faults.resolve_left (by decide)
  have hheld : s.flushEnded.on .FLT_STAT_RESETHOLD = s.on .FLT_STAT_RESETHOLD := s.flushEnded_words.on (by decide)
  rw [State.endFlush_eq]
  generalize s.flushEnded = t at *
  have hfirst := t.faultReset_first (by rw [hmodl, hdue]) (by rw [hflt, hl4])
  rw [h, hmodl, hwarm, hdue, hheld, hhold]
  exact hfirst

/-! ### FLUSH_COMPLETE, the trip and the loss of the bus (R508 to R510, R522) -/

theorem flushComplete_waits (h : s.rd .PWR_STAT_STATE ≠ 1 ∨ s.pow.snapDone = false) : Leads .flushComplete s (· = s) :=
  ⟨s, congrArg Host.Outcome.next (if_neg (by rcases h with h | h <;> simp [h])), rfl⟩

section
variable {s}
variable (hstate : s.rd .PWR_STAT_STATE = 1) (hdone : s.pow.snapDone = true)
include hstate hdone

theorem exec_flushComplete : exec .flushComplete s = .next s.endFlush.switchOff :=
  congrArg Host.Outcome.next (if_pos ⟨hstate, hdone⟩)

theorem flushComplete_ends (htherm : s.pow.thermal = false) (halways : s.pow.alwaysOn = false) :
    Leads .flushComplete s fun t => t.rd .PWR_STAT_STATE = 2 ∧
      t.rd .PWR_FLUSHUS_US = min 65535 ((s.clock - s.pow.flushStart) / 1000) ∧ t.pow.snapRun = false ∧ t.pow.deferred = false ∧
      (s.pow.deferred = false → t.modl = s.modl) ∧
      (s.pow.deferred = true → s.modl.warm = false → s.modl.resetDue = none → s.on .FLT_STAT_RESETHOLD = false →
        s.flt.l4Times = [] → t.modl.resetDue = some 5) := by
  refine ⟨s.endFlush, ?_, ?_⟩
  · rw [exec_flushComplete hstate hdone, State.switchOff, s.endFlush_ended.pow]
    simp [htherm, halways]
  · obtain ⟨hs, ht, hp⟩ := s.endFlush_ended
    refine ⟨hs, ht, by rw [hp], by rw [hp], fun h => ?_, s.endFlush_deferred⟩
    rw [s.endFlush_plain h, s.flushEnded_modl]

theorem flushComplete_trips (htherm : s.pow.thermal = true) : Leads .flushComplete s (SwitchedOff s 2) := by
  refine ⟨_, ?_, s.endFlush_sameOff.switchedOff 2⟩
  rw [exec_flushComplete hstate hdone, State.switchOff, s.endFlush_ended.pow]
  simp [htherm]

theorem flushComplete_alwaysOn (htherm : s.pow.thermal = false) (halways : s.pow.alwaysOn = true) :
    Leads .flushComplete s (SwitchedOff s 0) := by
  refine ⟨_, ?_, s.endFlush_sameOff.switchedOff 0⟩
  rw [exec_flushComplete hstate hdone, State.switchOff, s.endFlush_ended.pow]
  simp [htherm, halways]

end

theorem busBelow108V_off (h : s.modl.running = true) : Leads .busBelow108V s (SwitchedOff s (if s.pow.thermal then 2 else 1)) :=
  ⟨_, congrArg Host.Outcome.next (if_pos h), s.powerOff_switchedOff _⟩

/-- The sensors have tripped. -/
def State.tripped (s : State) : State := { s with pow := { s.pow with thermal := true } }

theorem State.tripped_sameWarn : SameWarn s s.tripped :=
  ⟨State.rd_of_regs rfl _ _, State.rd_of_regs rfl _ _, rfl, rfl, rfl, rfl, rfl,
    State.served_of_words (W := fun _ => False) (.of_regs rfl) fun _ => id, rfl⟩

theorem State.tripped_sameOff : SameOff s s.tripped := ⟨rfl, rfl, rfl, rfl, State.rd_of_regs rfl _ _⟩

theorem SameOff.warnRaised {s t : State} (h : SameOff s t) : SameOff s t.warnRaised := by
  have hwithin : Within { regs := true, faults := true } t t.warnRaised := t.warnRaised_within rfl rfl
  have hmodl : t.warnRaised.modl = t.modl := hwithin.modl_eq rfl rfl
  exact ⟨(hwithin.ledger.resolve_left (by decide)).trans h.ledger, (hwithin.sec.resolve_left (by decide)).1.trans h.lcs,
    (congrArg Modl.flash hmodl).trans h.flash, (congrArg Modl.lid hmodl).trans h.lid,
    (t.warnRaised_words.rd (f := .MOD_BOOT_MARKED) (by unfold warnWord; decide)).trans h.marked⟩

theorem State.powerOff_thermal (cause : Nat) : (s.powerOff cause).pow.thermal = s.pow.thermal := rfl

theorem State.switchOff_thermal {s : State} (h : s.pow.thermal = true) : s.switchOff = s.powerOff 2 := if_pos h

section
variable {s}
variable (hrun : s.modl.running = true)
include hrun

theorem exec_thermalTrip : exec .thermalTrip s =
    .next (if s.tripped.warn.rd .PWR_STAT_STATE = 2 then s.tripped.warn.switchOff else s.tripped.warn) :=
  congrArg Host.Outcome.next (if_neg (by simp [hrun]))

theorem thermalTrip_flushes (hstate : s.rd .PWR_STAT_STATE = 0) :
    Leads .thermalTrip s fun t => Warned s t ∧ Flushing s t ∧ t.pow.thermal = true := by
  obtain ⟨hw, hf, ht, -⟩ := s.tripped_sameWarn.warn_begins hstate
  have htrip : s.tripped.pow.thermal = true := rfl
  have hexec := exec_thermalTrip hrun
  generalize s.tripped = u at *
  have hone : u.warn.rd .PWR_STAT_STATE = 1 := hf.1
  refine ⟨u.warn, ?_, hw, hf, ht.trans htrip⟩
  rw [hexec, if_neg (by rw [hone]; decide)]

theorem thermalTrip_shares (hstate : s.rd .PWR_STAT_STATE = 1) :
    Leads .thermalTrip s fun t => Warned s t ∧ t.pow = { s.pow with thermal := true } := by
  obtain ⟨-, hw, hs, hp⟩ := s.tripped_sameWarn.warn_shares (by rw [hstate]; decide)
  have htrip : s.tripped.pow = { s.pow with thermal := true } := rfl
  have hexec := exec_thermalTrip hrun
  generalize s.tripped = u at *
  refine ⟨u.warn, ?_, hw, hp.trans htrip⟩
  rw [hexec, if_neg (by rw [hs, hstate]; decide)]

theorem thermalTrip_switchesOff (hstate : s.rd .PWR_STAT_STATE = 2) :
    Leads .thermalTrip s fun t => SwitchedOff s 2 t ∧ t.pow.thermal = true := by
  obtain ⟨heq, -, hs, hp⟩ := s.tripped_sameWarn.warn_shares (by rw [hstate]; decide)
  have htrip : s.tripped.pow.thermal = true := rfl
  have hoff := s.tripped_sameOff.warnRaised
  have hexec := exec_thermalTrip hrun
  generalize s.tripped = u at *
  rw [← heq] at hoff
  generalize u.warn = v at *
  have hthermal : v.pow.thermal = true := by rw [hp, htrip]
  refine ⟨v.powerOff 2, ?_, hoff.switchedOff 2, (v.powerOff_thermal 2).trans hthermal⟩
  rw [hexec, if_pos (hs.trans hstate), State.switchOff_thermal hthermal]

end

end Sys2Proof.Machine

namespace Sys2Proof.Machine

variable (s : State)

/-! ### The supply recovers (R485, R510) -/

/-- A snapshot of a reset that is still due is made. -/
def State.snapServed (s : State) : State := if s.snapWaits then s.resetSnapshot else s

/-- A flush under way completes. -/
def State.flushSettled (s : State) : State := if s.rd .PWR_STAT_STATE = 1 then s.endFlush else s

/-- The dip is raised, and the supply shown as it is. -/
def State.dipRaised (s : State) : State := ((s.setLive srcPower 1 1 false).fault srcPower 2 0).flag .PWR_EVT_DIP

/-- The supply is shown as it is. -/
def State.supplyShown (s : State) : State := ((s.wr .PWR_STAT_STATE 0 0).wr .PWR_STAT_LOSS 0 0).wr .MOD_STAT_PFW 0 0

/-- An engine goes on. -/
def State.engineFreed (s : State) (e : Nat) : State := s.setEng e { s.eng e with stopped := false }

/-- A partition's drain goes on. -/
def State.drainFreed (s : State) (p : Nat) : State := s.setPart p { s.part p with sending := none }

/-- Engines and drains go on. -/
def State.freed (s : State) : State := forN 3 State.drainFreed (forN 96 State.engineFreed s)

theorem exec_supplyRecovered {s : State} (h : (s.rd .PWR_STAT_STATE = 0 || s.pow.thermal || s.pow.alwaysOn) = false) :
    exec .supplyRecovered s =
      .next s.snapServed.flushSettled.dipRaised.supplyShown.freed.notePause.resumeAccept.tryRelease.goOn :=
  congrArg Host.Outcome.next (if_neg (by rw [h]; decide))

theorem State.writeSlots_clock (l : List Nat) (b : List Byte) : (s.writeSlots l b).clock = s.clock := by
  have hput : ∀ (t : State) (a : Nat) (c : List Byte), (t.ledgerPut a c).clock = t.clock := fun _ _ _ => rfl
  have hclear : ∀ t : State, (l.foldl (fun s p => s.ledgerPut (256 * p + 248) (leBytes 8 0)) t).clock = t.clock := by
    induction l with
    | nil => exact fun _ => rfl
    | cons p l ih => exact fun t => (ih _).trans (hput ..)
  unfold State.writeSlots
  dsimp only
  rw [hput]
  exact State.forN_induct _ (fun t => t.clock = s.clock) _ _ (hclear s) fun t i ht => (hput ..).trans ht

theorem State.snapshotShown_clock (g dsn : Nat) : (s.snapshotShown g dsn).clock = s.clock := by
  rw [State.snapshotShown, State.wr64_clock, State.bump_clock, State.flag_clock, State.wr_clock, State.flag_clock]

theorem State.writeSnapshot_clock : s.writeSnapshot.clock = s.clock := by
  unfold State.writeSnapshot
  dsimp only
  split
  · rfl
  · split
    · rfl
    · next g segs rest _ =>
      generalize ceilDiv (s.flowSnapshot.length + 24) 256 = n
      generalize (List.range n).map (fun i => s.physOf (runAt segs i)) = phys
      generalize LRec.bytes _ n = b
      have hslots : ((s.overwrite ((List.range 4096).map (fun i => s.physOf (runAt segs i)))).writeSlots phys b).clock = s.clock :=
        State.writeSlots_clock ..
      generalize (s.overwrite ((List.range 4096).map (fun i => s.physOf (runAt segs i)))).writeSlots phys b = u at *
      exact (State.snapshotShown_clock _ g s.lastDsn).trans hslots

/-- The words of a snapshot and of a flush's end. -/
def settledWord (o : Nat) : Prop := ledgerWord o ∨ o = 0x10000 ∨ o = 0x10014

/-- What stands while the flush of an earlier warning comes to its end. -/
structure FlushSettled (s t : State) : Prop where
  within : Within { regs := true, ledger := true, power := true } s t
  clock : t.clock = s.clock
  words : WordsKept settledWord s t

theorem State.snapServed_settled : FlushSettled s s.snapServed ∧ s.snapServed.snapWaits = false ∧
    s.snapServed.pow.deferred = s.pow.deferred := by
  unfold State.snapServed
  split
  · next h =>
    have hwithin : Within { regs := true, ledger := true, power := true } s s.resetSnapshot := (Within.refl _ s).resetSnapshot rfl rfl rfl
    have hwords : WordsKept settledWord s s.resetSnapshot := s.resetSnapshot_words.mono fun _ => .inl
    have hwpow : s.writeSnapshot.pow = s.pow :=
      ((Within.refl { regs := true, ledger := true } s).writeSnapshot rfl rfl).power.resolve_left (by decide)
    have hwclock := s.writeSnapshot_clock
    have hwaits : s.writeSnapshot.snapWaits = true := by rw [State.snapWaits, hwpow]; exact h
    have heq : s.resetSnapshot = { s.writeSnapshot with pow := { s.writeSnapshot.pow with snapDone := true } } := if_pos hwaits
    rw [heq] at hwithin hwords ⊢
    generalize s.writeSnapshot = t at *
    have hdeferred : t.pow.deferred = s.pow.deferred := congrArg Pow.deferred hwpow
    exact ⟨⟨hwithin, hwclock, hwords⟩, Bool.and_false _, hdeferred⟩
  · next h => exact ⟨⟨.refl _ s, rfl, .refl s⟩, by simpa using h, rfl⟩

theorem State.flushSettled_settled {s : State} (hwaits : s.snapWaits = false) (hdef : s.pow.deferred = false) :
    FlushSettled s s.flushSettled ∧ s.flushSettled.snapWaits = false := by
  unfold State.flushSettled
  split
  · rw [s.endFlush_plain hdef]
    refine ⟨⟨s.flushEnded_within rfl rfl, ?_, s.flushEnded_words.mono fun _ => .inr⟩, ?_⟩
    · show s.flushTimed.clock = s.clock
      rw [State.flushTimed, State.wr_clock, State.wr_clock]
    · rw [State.snapWaits, s.flushEnded_pow]
      rfl
  · exact ⟨⟨.refl _ s, rfl, .refl s⟩, hwaits⟩

theorem FlushSettled.trans {s t u : State} (h : FlushSettled s t) (k : FlushSettled t u) : FlushSettled s u :=
  ⟨h.within.trans k.within, k.clock.trans h.clock, h.words.trans k.words⟩

/-! ### The dip is shown -/

theorem State.setLive_clock (a b c : Nat) (v : Bool) : (s.setLive a b c v).clock = s.clock := by
  unfold State.setLive
  dsimp only
  split
  · split <;> rfl
  · rfl

/-- LIVE of a capture depends on the collector alone. -/
theorem State.setLive_flt_congr {s t : State} (h : t.flt = s.flt) (a b c : Nat) (v : Bool) :
    (t.setLive a b c v).flt = (s.setLive a b c v).flt := by
  simp only [State.setLive, State.capture, State.setCapture, h]
  split
  · split <;> rfl
  · rfl

theorem State.dipRaised_within {M : Mask} (hr : M.regs = true) (hf : M.faults = true) : Within M s s.dipRaised :=
  (((Within.refl M s).setLive hf).fault hr hf).flag hr

theorem State.dipRaised_flt {s t : State} (hflt : t.flt = s.flt) (hclock : t.clock = s.clock) :
    t.dipRaised.flt = (s.setLive srcPower 1 1 false).flt.receive (mkFault srcPower 2 0 0) s.clock := by
  rw [State.dipRaised, State.flag_flt, State.fault, State.raise_flt, State.setLive_clock, State.setLive_flt_congr hflt, hclock]

theorem State.dipRaised_on : s.dipRaised.on .PWR_EVT_DIP = true := State.on_flag_same _ _ _ (by decide) (by decide)

theorem State.supplyShown_words : WordsKept (fun o => o = 0x10000 ∨ o = 0x0) s s.supplyShown :=
  (((WordsKept.refl s).wr (f := .PWR_STAT_STATE) (.inl rfl)).wr (f := .PWR_STAT_LOSS) (.inl rfl)).wr (f := .MOD_STAT_PFW) (.inr rfl)

theorem State.supplyShown_within {M : Mask} (h : M.regs = true) : Within M s s.supplyShown := (((Within.refl M s).wr h).wr h).wr h

theorem State.supplyShown_effect : s.supplyShown.rd .PWR_STAT_STATE = 0 ∧ s.supplyShown.on .PWR_STAT_LOSS = false ∧
    s.supplyShown.on .MOD_STAT_PFW = false := by
  unfold State.supplyShown State.on
  simp (disch := decide) only [State.rd_wr_apart, State.rd_wr_same]
  exact ⟨rfl, rfl, rfl⟩

/-! ### Engines and drains go on -/

theorem State.engineFreed_all (n : Nat) : ∀ e < n, ((forN n State.engineFreed s).eng e).stopped = false := by
  induction n with
  | zero => intro e he; omega
  | succ n ih =>
    intro e he
    rw [forN_succ]
    by_cases h : e = n
    · subst h
      exact congrArg Engine.stopped (tget_tset_same _ _ _ _)
    · exact (congrArg Engine.stopped (tget_tset_other _ _ _ _ h)).trans (ih e (by omega))

theorem State.drainFreed_all (n : Nat) : ∀ p < n, ((forN n State.drainFreed s).part p).sending = none := by
  induction n with
  | zero => intro p hp; omega
  | succ n ih =>
    intro p hp
    rw [forN_succ]
    by_cases h : p = n
    · subst h
      exact congrArg Partition.sending (tget_tset_same _ _ _ _)
    · exact (congrArg Partition.sending (tget_tset_other _ _ _ _ h)).trans (ih p (by omega))

theorem State.drainFreed_todo (n : Nat) : (forN n State.drainFreed s).outp.todo = s.outp.todo :=
  State.forN_induct _ (fun t => t.outp.todo = s.outp.todo) n _ rfl fun _ _ h => h

theorem State.enginesFreed_within {M : Mask} (h : M.engs = true) (n : Nat) : Within M s (forN n State.engineFreed s) :=
  Within.forN (fun t _ => (Within.refl _ t).setEng h) (.refl _ s)

theorem State.drainsFreed_within {M : Mask} (h : M.outp = true) (n : Nat) : Within M s (forN n State.drainFreed s) :=
  Within.forN (fun t _ => (Within.refl _ t).setPart h) (.refl _ s)

/-- What stands, and what goes on, once engines and drains do. -/
structure Freed (s t : State) : Prop where
  within : Within { engs := true, outp := true } s t
  engines : ∀ e : EngineId, (t.eng e.val).stopped = false
  drains : ∀ p : PartId, (t.part p.val).sending = none
  todo : t.outp.todo = s.outp.todo

theorem State.freed_freed : Freed s s.freed := by
  have hengines := s.engineFreed_all 96
  have hwithin := s.enginesFreed_within (M := { engs := true, outp := true }) rfl 96
  have houtp : (forN 96 State.engineFreed s).outp = s.outp :=
    (s.enginesFreed_within (M := { engs := true }) rfl 96).outp.resolve_left (by decide)
  have heq : s.freed = forN 3 State.drainFreed (forN 96 State.engineFreed s) := rfl
  rw [heq]
  generalize forN 96 State.engineFreed s = t at *
  have hdrains := t.drainFreed_all 3
  have hdwithin := t.drainsFreed_within (M := { engs := true, outp := true }) rfl 3
  have hengs : (forN 3 State.drainFreed t).engs = t.engs :=
    (t.drainsFreed_within (M := { outp := true }) rfl 3).engs.resolve_left (by decide)
  have htodo := t.drainFreed_todo 3
  generalize forN 3 State.drainFreed t = u at *
  exact ⟨hwithin.trans hdwithin, fun e => by rw [State.eng, hengs]; exact hengines _ e.isLt, fun p => hdrains _ p.isLt,
    htodo.trans (congrArg Outp.todo houtp)⟩

end Sys2Proof.Machine

namespace Sys2Proof.Machine

variable (s : State)

/-! ### SUPPLY_RECOVERED (R510) -/

theorem State.tryRelease_idle {s : State} (h : s.unreleased = []) : s.tryRelease = s := by
  unfold State.tryRelease
  rw [h]
  exact ite_self _

/-- Acceptance, releases and exports go on: but for credits, nothing waits. -/
theorem State.goesOn_paid {s : State} (hclose : ∀ n : SessionId, (s.session n.val).closeDue = 0) (hrel : s.unreleased = [])
    (htodo : s.outp.todo = []) : CreditsPaid s s.resumeAccept.tryRelease.goOn := by
  have hpaid := s.resumeCredits_paid
  rw [State.resumeAccept_idle hclose]
  generalize s.resumeCredits = t at *
  have htr : t.unreleased = [] := by
    rw [State.unreleased, hpaid.within.tricks.resolve_left (by decide)]; exact hrel
  have hto : t.outp.todo = [] := by
    rw [hpaid.within.outp.resolve_left (by decide)]; exact htodo
  rwa [State.tryRelease_idle htr, State.goOn_idle hto]

/-- What the supply's recovery shows. -/
def Recovered (s t : State) : Prop :=
  t.rd .PWR_STAT_STATE = 0 ∧ t.on .PWR_STAT_LOSS = false ∧
  t.on .MOD_STAT_PFW = false ∧ t.on .PWR_EVT_DIP = true ∧ t.snapWaits = false ∧
  t.flt = (s.setLive srcPower 1 1 false).flt.receive (mkFault srcPower 2 0 0) s.clock ∧ (∀ e : EngineId, (t.eng e.val).stopped = false) ∧
  ∀ p : PartId, (t.part p.val).sending = none

theorem Recovered.of_paid {s t u : State} (h : Recovered s t) (hpaid : CreditsPaid t u) : Recovered s u := by
  obtain ⟨hstate, hloss, hpfw, hdip, hwaits, hflt, hengines, hdrains⟩ := h
  have hlow : ∀ o, o < 0x401000 → ¬ linkPage o := fun o ho hin => absurd hin.1 (by omega)
  refine ⟨(hpaid.words.rd (f := .PWR_STAT_STATE) (hlow _ (by decide))).trans hstate,
    (hpaid.words.on (f := .PWR_STAT_LOSS) (hlow _ (by decide))).trans hloss,
    (hpaid.words.on (f := .MOD_STAT_PFW) (hlow _ (by decide))).trans hpfw,
    (hpaid.words.on (f := .PWR_EVT_DIP) (hlow _ (by decide))).trans hdip, ?_, (hpaid.within.faults.resolve_left (by decide)).trans hflt,
    fun e => ?_, fun p => ?_⟩
  · rw [State.snapWaits, hpaid.within.power.resolve_left (by decide)]; exact hwaits
  · rw [State.eng, hpaid.within.engs.resolve_left (by decide)]; exact hengines e
  · rw [State.part, hpaid.within.outp.resolve_left (by decide)]; exact hdrains p

theorem supplyRecovered_waits (h : s.rd .PWR_STAT_STATE = 0 ∨ s.pow.thermal = true ∨ s.pow.alwaysOn = true) :
    Leads .supplyRecovered s (· = s) :=
  ⟨s, congrArg Host.Outcome.next (if_pos (by rcases h with h | h | h <;> simp [h])), rfl⟩

/-- The mask of a recovery, before what waited goes on. -/
def recoverMask : Mask := { regs := true, faults := true, deck := true, engs := true, outp := true }

theorem State.freed_within {M : Mask} (he : M.engs = true) (ho : M.outp = true) : Within M s s.freed :=
  (s.enginesFreed_within he 96).trans (State.drainsFreed_within _ ho 3)

/-- Once the flush has come to its end, the recovery is shown. -/
theorem FlushSettled.recovered {s t : State} (h : FlushSettled s t) (hwaits : t.snapWaits = false) :
    Recovered s t.dipRaised.supplyShown.freed.notePause ∧
    Within recoverMask t t.dipRaised.supplyShown.freed.notePause ∧
    t.dipRaised.supplyShown.freed.notePause.outp.todo = t.outp.todo := by
  have hflt := State.dipRaised_flt (h.within.faults.resolve_left (by decide)) h.clock
  have hdip := t.dipRaised_on
  have hraised : Within recoverMask t t.dipRaised := t.dipRaised_within rfl rfl
  have hrpow : t.dipRaised.pow = t.pow := (t.dipRaised_within (M := { regs := true, faults := true }) rfl rfl).power.resolve_left (by decide)
  have hroutp : t.dipRaised.outp = t.outp := (t.dipRaised_within (M := { regs := true, faults := true }) rfl rfl).outp.resolve_left (by decide)
  generalize t.dipRaised = u at *
  obtain ⟨hstate, hloss, hpfw⟩ := u.supplyShown_effect
  have hsdip := (u.supplyShown_words.on (f := .PWR_EVT_DIP) (by decide)).trans hdip
  have hshown : Within { regs := true } u u.supplyShown := u.supplyShown_within rfl
  have hrshown : Within recoverMask u u.supplyShown := u.supplyShown_within rfl
  generalize u.supplyShown = v at *
  obtain ⟨hfwithin, hengines, hdrains, hftodo⟩ := v.freed_freed
  have hrfreed : Within recoverMask v v.freed := v.freed_within rfl rfl
  generalize v.freed = w at *
  have hpause : Within { deck := true } w w.notePause := (Within.refl _ w).notePause rfl
  have hrpause : Within recoverMask w w.notePause := (Within.refl _ w).notePause rfl
  generalize w.notePause = x at *
  have hregs : x.regs = v.regs := (hpause.regs.resolve_left (by decide)).trans (hfwithin.regs.resolve_left (by decide))
  have houtp : x.outp = w.outp := hpause.outp.resolve_left (by decide)
  have hpow : x.pow = t.pow := (hpause.power.resolve_left (by decide)).trans ((hfwithin.power.resolve_left (by decide)).trans
    ((hshown.power.resolve_left (by decide)).trans hrpow))
  have hxflt : x.flt = u.flt := (hpause.faults.resolve_left (by decide)).trans ((hfwithin.faults.resolve_left (by decide)).trans
    (hshown.faults.resolve_left (by decide)))
  refine ⟨⟨(State.rd_of_regs hregs _ _).trans hstate, (State.on_of_regs hregs _ _).trans hloss, (State.on_of_regs hregs _ _).trans hpfw,
    (State.on_of_regs hregs _ _).trans hsdip, ?_, hxflt.trans hflt, fun e => ?_, fun p => ?_⟩,
    ((hraised.trans hrshown).trans hrfreed).trans hrpause, ?_⟩
  · rw [State.snapWaits, hpow]; exact hwaits
  · rw [State.eng, hpause.engs.resolve_left (by decide)]; exact hengines e
  · rw [State.part, houtp]; exact hdrains p
  · rw [houtp, hftodo, hshown.outp.resolve_left (by decide), hroutp]

theorem supplyRecovered_recovers {s : State} (hdown : s.rd .PWR_STAT_STATE ≠ 0) (htherm : s.pow.thermal = false)
    (halways : s.pow.alwaysOn = false) (hrel : s.unreleased = []) (htodo : s.outp.todo = []) (hdef : s.pow.deferred = false)
    (hclose : ∀ n : SessionId, (s.session n.val).closeDue = 0) : Leads .supplyRecovered s (Recovered s) := by
  refine ⟨_, exec_supplyRecovered (by simp [hdown, htherm, halways]), ?_⟩
  obtain ⟨hserved, hwaits, hdeferred⟩ := s.snapServed_settled
  have hend := State.flushSettled_settled hwaits (hdeferred.trans hdef)
  generalize s.snapServed = t at *
  obtain ⟨hsettled, hnone⟩ := hend
  have hall := hserved.trans hsettled
  generalize t.flushSettled = u at *
  obtain ⟨hrecovered, hwithin, hkeeps⟩ := hall.recovered hnone
  generalize u.dipRaised.supplyShown.freed.notePause = v at *
  refine hrecovered.of_paid (State.goesOn_paid (fun n => ?_) ?_ ?_)
  · rw [State.session, (hwithin.sess.resolve_left (by decide)).1, (hall.within.sess.resolve_left (by decide)).1]
    exact hclose n
  · rw [State.unreleased, hwithin.tricks.resolve_left (by decide), hall.within.tricks.resolve_left (by decide)]
    exact hrel
  · rw [hkeeps, hall.within.outp.resolve_left (by decide)]
    exact htodo

end Sys2Proof.Machine

namespace Sys2Proof.Machine

variable (s : State)

/-! ### The obligation, command by command -/

section
variable {s}

theorem warmReset_runs {c : Nat} (hdue : s.modl.resetDue = some c) (hrun : s.modl.running = true) (hpwr : s.rd .PWR_STAT_STATE ≠ 1)
    (hwarm : s.modl.warm = false) (hheld : ∀ x ∈ s.fab.held, x.acc.master.toNat ≠ 0) :
    Leads .warmReset s fun t => ResetBegun s c t ∧ ResetFinished s t ∧ ResetBooted s t ∧
      (s.bootsFirmware = false → t.on .FAB_CTL_REMAP = false) := by
  refine ⟨_, exec_warmReset hdue hrun hpwr, ?_⟩
  rw [if_neg (by rw [hwarm]; decide)]
  exact (s.beginWarm_begun c).runs (s.beginWarm_base c).1 hheld

theorem warmReset_holds {c : Nat} (hdue : s.modl.resetDue = some c) (hrun : s.modl.running = true) (hpwr : s.rd .PWR_STAT_STATE ≠ 1)
    (hwarm : s.modl.warm = true) (hwait : s.modl.mrst = true ∨ s.frozen = true) : Leads .warmReset s (· = s) := by
  refine ⟨_, exec_warmReset hdue hrun hpwr, ?_⟩
  rw [if_pos hwarm, if_pos (by simpa using hwait)]

theorem warmReset_completes {c : Nat} (hdue : s.modl.resetDue = some c) (hrun : s.modl.running = true) (hpwr : s.rd .PWR_STAT_STATE ≠ 1)
    (hwarm : s.modl.warm = true) (hmrst : s.modl.mrst = false) (hfrozen : s.frozen = false) (hheld : s.fab.held = []) :
    Leads .warmReset s fun t => ResetFinished s t ∧ ResetBooted s t := by
  refine ⟨_, exec_warmReset hdue hrun hpwr, ?_⟩
  rw [if_pos hwarm, if_neg (by simp [hmrst, hfrozen])]
  exact ⟨State.finishWarm_finished hheld hwarm, State.finishWarm_booted hheld⟩

theorem mrstNAsserted_waits (hrun : s.modl.running = false) : Leads .mrstNAsserted s (· = s) :=
  ⟨s, congrArg Host.Outcome.next (if_pos (by rw [hrun]; rfl)), rfl⟩

theorem exec_mrstNAsserted (hrun : s.modl.running = true) :
    exec .mrstNAsserted s = .next (if s.modl.warm then s else s.beginWarm 3).mrstLow :=
  congrArg Host.Outcome.next (if_neg (by simp [hrun]))

theorem mrstNAsserted_begins (hrun : s.modl.running = true) (hwarm : s.modl.warm = false) :
    Leads .mrstNAsserted s fun t => ResetBegun s 3 t ∧ t.spd = s.spd ∧ t.modl.mrst = true ∧
      t.modl.fw = false ∧ t.modl.resetDue = some 3 ∧ t.sess = s.sess ∧ t.suspended = true := by
  refine ⟨_, exec_mrstNAsserted hrun, ?_⟩
  rw [if_neg (by rw [hwarm]; decide)]
  obtain ⟨hbase, hdue⟩ := s.beginWarm_base 3
  exact (s.beginWarm_begun 3).held hbase hdue

theorem mrstNAsserted_merges (hrun : s.modl.running = true) (hwarm : s.modl.warm = true) :
    Leads .mrstNAsserted s (· = { s with modl := { s.modl with mrst := true } }) := by
  refine ⟨_, exec_mrstNAsserted hrun, ?_⟩
  rw [if_pos hwarm]
  rfl

theorem mrstNReleased_waits (hmrst : s.modl.mrst = false) : Leads .mrstNReleased s (· = s) :=
  ⟨s, congrArg Host.Outcome.next (if_pos (by rw [hmrst]; rfl)), rfl⟩

theorem mrstNReleased_completes {c : Nat} (hmrst : s.modl.mrst = true) (hdue : s.modl.resetDue = some c) (hwarm : s.modl.warm = true)
    (hfrozen : s.frozen = false) (hheld : s.fab.held = []) :
    Leads .mrstNReleased s fun t => ResetFinished s t ∧ ResetBooted s t ∧ t.modl.mrst = false := by
  refine ⟨_, exec_mrstNReleased hmrst, ?_⟩
  rw [if_pos (by simp [hdue, hfrozen])]
  exact mrst_completes hheld hwarm

theorem mrstNReleased_only (hmrst : s.modl.mrst = true) (hwait : s.modl.resetDue = none ∨ s.frozen = true) :
    Leads .mrstNReleased s (· = { s with modl := { s.modl with mrst := false } }) := by
  refine ⟨_, exec_mrstNReleased hmrst, ?_⟩
  rw [if_neg (by rcases hwait with h | h <;> simp [h])]
  rfl

theorem powerFailWarning_waits (hrun : s.modl.running = false) (loss : Bool) (mv : BitVec 16) :
    Leads (.powerFailWarning loss mv) s (· = s) :=
  ⟨s, congrArg Host.Outcome.next (if_pos (by rw [hrun]; rfl)), rfl⟩

theorem busBelow108V_waits (hrun : s.modl.running = false) : Leads .busBelow108V s (· = s) :=
  ⟨s, congrArg Host.Outcome.next (if_neg (by rw [hrun]; decide)), rfl⟩

theorem thermalTrip_waits (hrun : s.modl.running = false) : Leads .thermalTrip s (· = s) :=
  ⟨s, congrArg Host.Outcome.next (if_pos (by rw [hrun]; rfl)), rfl⟩

theorem sensorsBelow85C_ends (hrun : s.modl.running = false) :
    Leads .sensorsBelow85C s (· = { s with pow := { s.pow with thermal := false } }) :=
  ⟨_, congrArg Host.Outcome.next (if_neg (by rw [hrun]; decide)), rfl⟩

theorem sensorsBelow85C_waits (hrun : s.modl.running = true) : Leads .sensorsBelow85C s (· = s) :=
  ⟨s, congrArg Host.Outcome.next (if_pos hrun), rfl⟩

end

/-- Settles O59: each command either waits, or is its stages in turn, each of which says which words and which parts of the module it
moves; a warm reset is taken apart at self-refresh, and the loss of power keeps what stands without it. -/
theorem resetsAndSupply : Obligations.ResetsAndSupply := by
  unfold Obligations.ResetsAndSupply
  intro s begun finished booted off warned flushing
  exact ⟨warmReset_waits,
    fun c hdue hrun hpwr => ⟨warmReset_runs hdue hrun hpwr, warmReset_holds hdue hrun hpwr, warmReset_completes hdue hrun hpwr⟩,
    mrstNAsserted_waits, mrstNAsserted_begins, mrstNAsserted_merges, mrstNReleased_waits,
    fun _ => mrstNReleased_completes, mrstNReleased_only, ⟨ready_goes, ready_waits s⟩,
    fun b mv => ⟨fun hrun => powerFailWarning_waits hrun b mv, powerFailWarning_warns s b mv⟩, flushComplete_waits s,
    fun hstate hdone => ⟨flushComplete_ends hstate hdone, flushComplete_trips hstate hdone, flushComplete_alwaysOn hstate hdone⟩,
    supplyRecovered_waits s, supplyRecovered_recovers,
    fun hrun => ⟨busBelow108V_waits hrun, thermalTrip_waits hrun, sensorsBelow85C_ends hrun⟩,
    fun hrun => ⟨busBelow108V_off s hrun, sensorsBelow85C_waits hrun, thermalTrip_flushes hrun, thermalTrip_shares hrun,
      thermalTrip_switchesOff hrun⟩⟩

end Sys2Proof.Machine
